-- ==== Sys2Proof/Word.lean ====
section
/-! DEFINITION. The word types of the TX8 and their plainest arithmetic (R9, R11, R12). -/

namespace Sys2Proof

/-- One byte. -/
abbrev Byte := BitVec 8

/-- A 64-bit word: a sequencer register (10, Sequencers), a BAR0 register of up to 64 bits (18, R514), a BA64 word (R54). -/
abbrev Word := BitVec 64

/-- Bits `[lo + n - 1 : lo]` of a number, as a number (00, Units and numbers). -/
def bitsOf (v lo n : Nat) : Nat := v / 2 ^ lo % 2 ^ n

/-- Bit `i` of a number. -/
def bitOf (v i : Nat) : Bool := v / 2 ^ i % 2 == 1

/-- The two's complement value of the low `w` bits of `v` (R34, R42, R54). -/
def signed (w v : Nat) : Int :=
  let u := v % 2 ^ w
  if u < 2 ^ (w - 1) then (u : Int) else (u : Int) - (2 ^ w : Nat)

/-- The `w`-bit two's complement code of an integer. -/
def encodeInt (w : Nat) (x : Int) : Nat := (x % ((2 ^ w : Nat) : Int)).toNat

/-- The nearer limit of a signed `w`-bit range (R53, R191). -/
def clampInt (lo hi x : Int) : Int := if x < lo then lo else if hi < x then hi else x

/-- Whether an integer fits `w`-bit two's complement (R57, R190). -/
def fitsInt (w : Nat) (x : Int) : Bool :=
  decide (-((2 ^ (w - 1) : Nat) : Int) ≤ x) && decide (x < ((2 ^ (w - 1) : Nat) : Int))

/-- The number that `bytes` spell, least significant first (R11). -/
def leNat : List Byte → Nat
  | [] => 0
  | b :: r => b.toNat + 256 * leNat r

/-- The `n` bytes of a number, least significant first (R11). -/
def leBytes : Nat → Nat → List Byte
  | 0, _ => []
  | n + 1, v => BitVec.ofNat 8 v :: leBytes n (v / 256)

end Sys2Proof
end

