-- ==== Sys2Proof/Codes.lean ====
section
/-! DEFINITION. The named status, event and reason codes of the manual that the model uses (R273, R288). Their numbers are the firmware ABI's, which the manual does not list. -/

namespace Sys2Proof

/-- A named status, event or reason code. `OK` is STATUS 0x0000 (R273). -/
inductive Code where
  | OK
  | ADAPTER_NONE
  | ADAPTER_RETIRING
  | ADAPTER_VERSIONS_FULL
  | ADDRESS_UNMAPPED
  | ALIGN
  | ARITH_FAULT_DETECTED
  | ARRAY_OP_INVALID
  | ASH_LIST_FULL
  | ATOMIC_CAPACITY
  | ATOMIC_GUARD_EXCEEDED
  | ATOMIC_NO_TARGET
  | ATOMIC_REFUSED
  | ATOMIC_REGION_INVALID
  | ATOMIC_SCALE
  | ATOMIC_TYPE
  | ATT_RECORD_INVALID
  | ATT_STATS_STALE
  | BAD_EXPONENT
  | BANK_OFF
  | BANK_RESERVED
  | BANK_VERIFY_FAILED
  | BANK_WEAR_NOTICE
  | BANK_WORN
  | BAR_ACCESS_ERROR
  | BLOCK_RANGE
  | BOOT_PHASE
  | BOOT_READY
  | CALIBRATION_APPLIED
  | CAL_ENGINE_RANGE
  | CAL_REF_DEGRADED
  | CAL_SAVE_FAILED
  | CFG_RANGE
  | CHANNEL_ERROR
  | CHANNEL_OPEN_FAILED
  | CHANNEL_REG_LOCKED
  | CLUSTER_COVERED
  | CLUSTER_FAULT_LIMIT
  | CLUSTER_SUBSTITUTED
  | COLL_CAPACITY
  | COLL_DEFINITION_INVALID
  | COLL_FAILED
  | COLL_MISMATCH
  | COLL_TIMEOUT
  | COLUMN_RETIRED
  | COMMIT_REJECTED
  | CONFIG_TARGET
  | CORD_ACTIVE
  | CORD_AREA_FULL
  | CORD_COVERAGE
  | CORD_FAILED
  | CORD_FLIPPED
  | CORD_FORMAT
  | CORD_NOT_READY
  | CORD_NO_KEY
  | CORD_READY
  | CORD_SLOTS_FULL
  | CORD_STATE
  | DAMPER_CHANGED
  | DESC_FORMAT
  | DESC_NOT_PERMITTED
  | DESC_UNSUPPORTED
  | DIE_CAPACITY_LOST
  | DMA_FORMAT
  | DMA_OVERLAP
  | EMBER_FULL
  | EMBER_POOL_LOW
  | ENUM_CONFLICT
  | ENUM_EXHAUSTED
  | EVENTS_LOST
  | FABRIC_ENUMERATED
  | FABRIC_NOT_ENUMERATED
  | FABRIC_STOPPED
  | FABRIC_UNREACHABLE
  | FAB_CTRL_REFUSED
  | FAULT_PERSISTENT
  | FAULT_REWOUND
  | FLEET_PATTERN_FAILED
  | FLIT_FORMAT_ERROR
  | FORMAT_INVALID
  | FUSE_INVALID
  | FW_ABI_CONFLICT
  | FW_AREA_OVERLAP
  | FW_CHUNK_FAILED
  | FW_NOT_STAGED
  | FW_PEER_CONFLICT
  | FW_ROLLBACK
  | FW_SIGNATURE
  | FW_UPDATE_BUSY
  | FW_UPDATE_DONE
  | FW_UPDATE_FAILED
  | GLOSA_HOLD_EXPIRED
  | GLOSA_ID_CONFLICT
  | GLOSA_PORT_DEGRADED
  | GLOSA_PORT_DOWN
  | GLOSA_PORT_FAILED
  | GLOSA_PORT_UP
  | HBM_ROW_REPAIRED
  | HBM_ROW_UNREPAIRED
  | HBM_UNCORRECTABLE
  | HDM_OVERLAP
  | HOST_ACCESS
  | HSS_EXHAUSTED
  | HSS_LOW
  | IMAGE_ABSENT
  | IMAGE_IN_USE
  | IMAGE_RESERVED
  | INDEX_RANGE
  | INPUT_OUT_OF_RANGE
  | KEY_CONFLICT
  | KEY_ENROLLED
  | KEY_ENROLL_REFUSED
  | KEY_ENVELOPE_INVALID
  | KEY_REVOKED
  | KV_CODE_INVALID
  | KV_FORMAT_MISMATCH
  | KV_HOLD_FULL
  | KV_NO_TABLE
  | KV_OVERWRITE
  | KV_PAGE_MISSING
  | KV_POOL_ABSENT
  | KV_POOL_BUSY
  | KV_RANGE
  | KV_SLOT_RANGE
  | LANE_RETIRED
  | LAYER_EMPTY
  | LAYER_PINNED
  | LAYER_POLICY_INVALID
  | MANIFEST_ROLLBACK
  | MANIFEST_SIGNATURE
  | MANIFEST_VERSION
  | MDIE_CONTENT_LOST
  | MERGE_UNSORTED
  | MODULE_ID_ASSIGNED
  | MODULE_SHUTDOWN
  | MODULE_SHUTDOWN_REPORTED
  | MSRAM_TEST_FAILED
  | NONFINITE_INPUT
  | NO_SOURCE
  | OUTLIER_LIMIT_INVALID
  | PARTITION_RESETTING
  | PARTITION_RESET_DONE
  | PARTITION_RESET_FAILED
  | PARTITION_SHUTDOWN
  | PASS_RULE
  | PATTERN_ROLLBACK
  | PATTERN_SIGNATURE
  | PATTERN_SLICE_LONG
  | PEAT_EXPIRY_WARNING
  | PEAT_FULL
  | PEAT_MOVE_FAILED
  | PEAT_TARGET_DISABLED
  | POSITION_FAILED
  | PSUM_FORMAT
  | RANGE_EXHAUSTED
  | REDUCE_DIGEST
  | REDUCE_DIGEST_MISMATCH
  | REF_DISABLED
  | REF_FAULT_DETECTED
  | REGION_LOST
  | REGION_OVERLAP
  | REGION_TABLE_FULL
  | RELEASE_REFUSED
  | REMOTE_ALIGN
  | REMOTE_TIMEOUT
  | REMOTE_UNKNOWN
  | REQUEST_CHANNEL
  | REQUEST_CLOSED
  | REQUEST_EXPIRED
  | REQUEST_PARKED
  | REQUEST_PAUSED
  | REQUEST_RANGE
  | REQUEST_RESUMED
  | REQUEST_STALE
  | REQUEST_STATE
  | REQUEST_TABLE_FULL
  | REQ_AREA_OVERLAP
  | RESET_BUSY
  | RESET_CONFIRM
  | RESUME_FAILED
  | REWIND_RANGE
  | RING_OVERRUN
  | ROLLBACK_ADVANCED
  | SCALE_INVALID
  | SCAN_FAILED
  | SCAN_NO_SPARE
  | SENSOR_BROKEN
  | SENSOR_RECOVERED
  | SEQ_ADDRESS
  | SEQ_BUSY
  | SEQ_FAULT
  | SEQ_OBJECT_RANGE
  | SEQ_OPCODE
  | SEQ_PC_RANGE
  | SHADOW_DEVIATION
  | SHARD_AUTH_FAILED
  | SHARD_DIGEST_MISMATCH
  | SIGNATURE_FAILED
  | SPARES_EXHAUSTED
  | SP_BANK_OFF_ACCESS
  | STAGING_OVERLAP
  | STEP_ABANDONED
  | STEWARD_CHANGED
  | SUSPECT_WINDOW
  | SYNC_CAPACITY
  | SYNC_FREE
  | SYNC_REFUSED
  | SYNC_WAIT_LONG
  | SYSCAL_BUSY
  | TARGET_ABSENT
  | TEST_BUSY
  | TEST_NOT_PERMITTED
  | THERMAL_NORMAL
  | THERMAL_WARNING
  | TILE_CRC
  | TILE_POISONED
  | TOPO_CUT
  | TOPO_MAILBOX_OVERLAP
  | TOPO_MEMBER_LOST
  | TOPO_SPARE_IN
  | TOPO_SPARE_PROGRAMMING
  | TOPO_SPLIT
  | TREE_ORDER
  | VERDICT_CAPACITY
  | VERSION_NONE
  | WEIGHT_BANK_FAILED
  | WEIGHT_COPY_REPAIRED
  | WEIGHT_EXPOSURE
  | WEIGHT_INTAKE_OVERLAP
  | WEIGHT_READBACK_MISMATCH
  | WEIGHT_SHARD_DAMAGED
  | WINDOW_ARGS
  | WINDOW_BUSY
  | WINDOW_CLOSED
  | WINDOW_NONE
  | WINDOW_OPENED
  | WINDOW_OVERLAP
  | WINDOW_RANGE
  | WINDOW_RANGE_INVALID
  | WINDOW_RIGHTS
  | WINDOW_SOURCE
  | WINDOW_STATE
  | WINDOW_TABLE_FULL
  | WQ_FLUSHED
  | WQ_PACKET_INVALID
  | WQ_WRITE_HELD
  deriving DecidableEq, Repr, Inhabited

end Sys2Proof
end

