-- ==== Sys2Proof/Syntax.lean ====
section
/-! DEFINITION. The commands of the block: what may happen to a TX8 from outside or inside, one constructor for each row of the table of operations and events, and the plain data they carry. -/

namespace Sys2Proof

/-- Bytes that the host put into its own memory before a command reads them. -/
structure HostWrite where
  addr : Nat
  bytes : List Byte
  deriving DecidableEq, Repr, Inhabited

/-- Table 9-4, the descriptor header, with the channel whose ring held the descriptor. `newer` says that the op or a field is later than the settled descriptor-set version (R272, R283), `reserved` that some reserved field is nonzero; `host` is what the host wrote to its memory before the doorbell. -/
structure Hdr where
  chan : Nat
  fence : Bool := false
  irq : Bool := false
  tag : Nat := 0
  newer : Bool := false
  reserved : Bool := false
  host : List HostWrite := []
  deriving DecidableEq, Repr, Inhabited

/-- Table 10-3: the fields of a sequencer instruction below its opcode. -/
structure SeqFields where
  a : Nat := 0
  b : Nat := 0
  c : Nat := 0
  d : Nat := 0
  mod : Nat := 0
  imm : Nat := 0
  deriving DecidableEq, Repr, Inhabited

/-- Who writes a packet into a cluster work queue (R299): the sequencer of a core with its PUSH, or the Hearth core of a cluster. -/
inductive PushSrc where
  | seq (q : Nat) (f : SeqFields)
  | hearth (cluster : Nat) (flits : List Byte) (tag : Nat)
  deriving DecidableEq, Repr, Inhabited

/-- Where an object operation comes from (Table 10-8): a message on its way from a sequencer, DMA, atomic unit or port, or the Hearth core of a cluster. -/
inductive SyncSrc where
  | flight (i : Nat)
  | hearth (cluster obj val : Nat) (eq : Bool)
  deriving DecidableEq, Repr, Inhabited

/-- An error that an HBM stack reports while an access reads it (R184). -/
structure HbmReport where
  addr : Nat
  corrected : Bool
  deriving DecidableEq, Repr, Inhabited


/-- A layer of a program image: its number, its initial policy entry (Table 4-6), the scales of its activation and weight tensors and the outlier limits (R36, R99) as binary32 words, whether it has array tiles (R120), and the passes that report to its verdict record (R117). -/
structure ImageLayer where
  num : Nat
  policy : Nat := 0x40004000000
  sa : BitVec 32 := 0x3F800000#32
  sw : BitVec 32 := 0x3F800000#32
  l4 : BitVec 32 := 0x7F800000#32
  l8 : BitVec 32 := 0x7F800000#32
  tiles : Bool := false
  passes : Nat := 1
  bf16 : Bool := false           -- its scales are given in BF16 form, in their lower halves (R36)
  deriving DecidableEq, Repr, Inhabited

/-- One KV head of one transformer block of a program image (R49, R203, R213, R214, R221): its home M-die, its query heads, its width in KV blocks, its scales and the cores whose D-engines walk it. -/
structure ImageHead where
  block : Nat
  head : Nat
  home : Nat
  groups : Nat := 1
  width : Nat := 4
  sq : BitVec 32 := 0x3F800000#32
  skv : BitVec 32 := 0x3F800000#32
  lambda : BitVec 32 := 0x3F800000#32
  engines : List Nat := []
  bf16 : Bool := false
  deriving DecidableEq, Repr, Inhabited

/-- An atomic target region that an image declares (R188), CHECKED or not (R413). -/
structure ImageAtom where
  base : Nat
  tiles : Nat
  i32 : Bool := false
  k : Int := 0
  checked : Bool := false
  deriving DecidableEq, Repr, Inhabited

/-- A scratchpad region that an image declares (R179): core, byte offset, tiles, whether it is RESIDENT and its source. -/
structure ImageRegion where
  die : Nat
  cluster : Nat
  core : Nat
  base : Nat
  tiles : Nat
  resident : Bool := false
  source : Option Nat := none
  deriving DecidableEq, Repr, Inhabited

/-- Table 12-1: a collective that an image declares. -/
structure ImageColl where
  id : Nat
  kind : Nat := 0
  i32 : Bool := false
  dims : Nat := 0
  start : Nat := 0
  count : Nat := 1
  done : Nat := 0
  words : Nat := 0
  src : Nat := 0
  acc : Nat := 0
  out : Nat := 0
  recs : Nat := 0
  status : Nat := 0
  deriving DecidableEq, Repr, Inhabited

/-- A program of an image that PROGRAM RUN names (Table 9-8): the sequencers it starts and the index each starts at, and the regions it names, each by core and BASE. -/
structure ImageEntry where
  entry : Nat
  starts : List (Nat × Nat) := []
  regions : List (Nat × Nat) := []
  args : Nat := 0                -- module-local address that ARGS is copied to
  deriving DecidableEq, Repr, Inhabited

/-- What PROGRAM LOAD reads from a program image object. The manual gives the object no byte layout, so the operand carries its content (log 30). `parts` are the pieces of the object that are placed, as offset in the object, module-local address and bytes; `spans` are the module-local ranges at which the image places regions, `verdicts` the verdict records it needs of each M-die, `start` and `done` of a collective places in `objects`, and `cords` the CORD_IDs its tiles come from. -/
structure Image where
  offers : List Nat := [0x0202]
  reference : Option Nat := none
  kv4 : Bool := false
  blocks : Nat := 0
  context : Nat := 0x100000
  chunk : Nat := 4096
  stop : List Nat := []
  vocab : Nat := 0
  logits : Nat := 0              -- module-local address of the step's first logits row
  draft : Bool := false          -- has a draft stage (R241)
  layers : List ImageLayer := []
  heads : List ImageHead := []
  objects : List Nat := []       -- the M-die of each object, in the order of the declarations
  atoms : List ImageAtom := []
  regions : List ImageRegion := []
  colls : List ImageColl := []
  entries : List ImageEntry := []
  cores : List Nat := []         -- the cores that hold its tiles or work
  spans : List (Nat × Nat) := []
  parts : List (Nat × Nat × Nat) := []
  verdicts : List Nat := []
  cords : List Nat := []
  deriving DecidableEq, Repr, Inhabited

/-- The tensor that a vector op encodes or converts, which the image's program fixes: the activation or output tensor of a layer, or the query or KV tensor of a head (R36, R43, R49, R214). -/
inductive TensorRef where
  | layer (image num : Nat)
  | query (image block head : Nat)
  | kv (image block head : Nat)
  deriving DecidableEq, Repr, Inhabited

/-- A Glosa frame as it crosses a port (Table 11-3): header fields, body and FCRC. -/
structure Frame where
  kind : Nat := 0
  count : Nat := 0
  tag : Nat := 0
  src : Nat := 0
  dst : Nat := 0
  addr : Nat := 0
  body : List Byte := []
  fcrc : Nat := 0
  deriving DecidableEq, Repr, Inhabited

/-- Fields of a DMA_COPY descriptor (Table 9-8); a space is 0 host physical, 1 global address, 2 window offset. -/
structure DmaCopy where
  src : Nat := 0
  dst : Nat := 0
  len : Nat := 0
  alt : Nat := 0
  srcSpace : Nat := 0
  dstSpace : Nat := 1
  altValid : Bool := false
  post : Bool := false
  sync : Nat := 0
  deriving DecidableEq, Repr, Inhabited

/-- What the security engine's two verifications of a signature block find (R497, R498): the model computes neither. -/
structure SigOut where
  ecdsa : Bool := true
  hss : Bool := true
  deriving DecidableEq, Repr, Inhabited

/-- A firmware bundle with its signature block as FW_STAGE, a recovery or bring-up reads it (R474). The manual gives the object no byte layout, so the operand carries its content (log 30): versions, offers (R281), the chunk count of each image, the SHA-384 of the bundle and of its steward image, and what the verification finds. -/
structure Bundle where
  version : Nat := 0
  security : Nat := 0
  stewardSecurity : Nat := 0
  peerMin : Nat := 0
  keyId : Nat := 1
  formed : Bool := true
  ring : Nat := 0x01030201
  desc : Nat := 0x02040300
  abi : Nat := 0x0105
  link : Nat := 0x03020400
  image : Nat := 0x0202
  images : List (Nat × Nat) := []
  digest : List Byte := []
  stewardDigest : List Byte := []
  deriving DecidableEq, Repr, Inhabited

/-- A fleet pattern with its signature block (R427), by content (log 30): identifier, SECURITY_VERSION, signer, and the C-cycles that each slice needs. -/
structure FleetImage where
  id : Nat := 0
  security : Nat := 0
  keyId : Nat := 1
  formed : Bool := true
  cycles : List Nat := []
  deriving DecidableEq, Repr, Inhabited

/-- A fuse entry that bring-up reads (R464): die type (0 compute, 1 memory-side, 2 I/O), die, the 32-bit entry, and for an NVM_COLUMN of a data column the spare that manufacture fixed for it (R465). -/
structure Fuse where
  dieType : Nat := 0
  die : Nat := 0
  entry : Nat := 0
  spare : Nat := 0
  deriving DecidableEq, Repr, Inhabited

/-- A steward image as Kindling finds it (R462): the content of its signature block and what the verification finds. -/
structure StewardImage where
  formed : Bool := true
  keyId : Nat := 1
  security : Nat := 0
  digest : List Byte := []
  sig : SigOut := {}
  deriving DecidableEq, Repr, Inhabited

/-- A firmware bundle in flash or offered for recovery, with what its verification finds. -/
structure BundleCopy where
  bundle : Bundle := {}
  sig : SigOut := {}
  deriving DecidableEq, Repr, Inhabited

/-- What a bring-up phase finds (R458 to R473): its duration; whether flash can be read and the steward images A and B; what the fuses hold, compute dies with no good fuse copy, and whether the copies in the manufacture record agree; failed march tests; whether saved training passes and stacks that fail training; HBM rows and M-die SRAMs that fail the memory test, and whether each is repaired; bundles A and B and the live one's bytes; weak array columns (engine, bank, layer, lane) and reference lanes; channels whose doorbell line cannot be read. -/
structure BootWork where
  ms : Nat := 0
  flash : Bool := true
  stewards : List StewardImage := []
  segments : Bool := true
  fuses : List Fuse := []
  badFuses : List Nat := []
  fusesKept : Bool := true
  march : List Nat := []
  trained : Bool := true
  untrained : List Nat := []
  rows : List (Nat × Nat × Bool) := []
  srams : List (Nat × Bool) := []
  bundles : List BundleCopy := []
  bytes : List Byte := []
  weak : List (Nat × Nat × Nat × Nat) := []
  refs : List (Nat × Nat × Nat) := []
  deadLines : List Nat := []
  deriving DecidableEq, Repr, Inhabited

/-- The outcome of a fleet slice on a die at a step boundary (R428, R429): the first differing tile or lane when it fails. -/
structure SliceRun where
  die : Nat
  passed : Bool := true
  arg : Nat := 0
  deriving DecidableEq, Repr, Inhabited

/-- The commands of the TX8: one constructor for each row of the table of operations and events. -/
inductive Instr where
  /-- BAR0_WRITE (R8). A BAR0 write to a register with no row of its own acts under its field access codes; ST fields change the staged set and STAGE_SEQ. -/
  | bar0Write (off : Nat) (width : Nat) (value : Nat)
  /-- BAR0_INVALID_ACCESS (R10). A BAR0 access that is not 4 or 8 bytes wide and naturally aligned is not performed, and BAR_ACCESS_ERROR is raised. -/
  | bar0InvalidAccess (write : Bool) (off : Nat) (width : Nat)
  /-- AE_CTR_CLEAR (R98). Writing 1 clears every A-engine die total at once. -/
  | aeCtrClear (d : Nat) (v : Nat)
  /-- DC_CTR_CLEAR (R128). Writing 1 clears every correction counter of Table 4-9. -/
  | dcCtrClear (d : Nat) (v : Nat)
  /-- CAL_CTR_CLEAR (R160). Writing 1 clears the calibration run, retire, deviation and drop totals. -/
  | calCtrClear (d : Nat) (v : Nat)
  /-- CAL_REQUEST (R146). Writing RUN = 1 raises the REQUEST calibration trigger for the die. -/
  | calRequest (d : Nat) (v : Nat)
  /-- SP_CTR_CLEAR (R199). Writing 1 clears every scratchpad counter of Table 6-11. -/
  | spCtrClear (d : Nat) (v : Nat)
  /-- MEM_CTR_CLEAR (R200). Writing 1 clears every M-die memory counter of Table 6-13. -/
  | memCtrClear (m : Nat) (v : Nat)
  /-- KV_CTR_CLEAR (R229). Writing 1 clears every KV page counter of the M-die. -/
  | kvCtrClear (m : Nat) (v : Nat)
  /-- ATT_CTR_CLEAR (R230). Writing 1 clears every attention counter of the compute die. -/
  | attCtrClear (d : Nat) (v : Nat)
  /-- SERVE_CTR_CLEAR (R255). Writing 1 clears every serving counter of the M-die. -/
  | serveCtrClear (m : Nat) (v : Nat)
  /-- WQ_CTR_CLEAR (R319). Writing 1 clears every queue and sequencer counter of the die. -/
  | wqCtrClear (d : Nat) (v : Nat)
  /-- SYNC_CTR_CLEAR (R320). Writing 1 clears every synchronisation counter of the M-die. -/
  | syncCtrClear (m : Nat) (v : Nat)
  /-- GP_CTR_CLEAR (R356). Writing 1 clears every counter of the Glosa port. -/
  | gpCtrClear (p : Nat) (v : Nat)
  /-- FAB_CTR_CLEAR (R357). Writing 1 clears every fabric counter of Table 11-14. -/
  | fabCtrClear (v : Nat)
  /-- TOPO_CTR_CLEAR (R385). Writing 1 clears every topology and collective counter. -/
  | topoCtrClear (v : Nat)
  /-- WT_CTR_CLEAR (R407). Writing 1 clears every weight counter of Table 13-9. -/
  | wtCtrClear (v : Nat)
  /-- SE_CTR_CLEAR (R432). Writing 1 clears every detection and test counter of the die. -/
  | seCtrClear (d : Nat) (v : Nat)
  /-- HK_CTR_CLEAR (R454). Writing 1 clears every thermal and housekeeping counter. -/
  | hkCtrClear (v : Nat)
  /-- PWR_CTR_CLEAR (R455). Writing 1 clears PWR_LIMIT_TOTAL. -/
  | pwrCtrClear (v : Nat)
  /-- BOOT_CTR_CLEAR (R492). Writing 1 clears FW_REFETCH_TOTAL and RESET_TOTAL. -/
  | bootCtrClear (v : Nat)
  /-- SEC_CTR_CLEAR (R509). Writing 1 clears both security totals. -/
  | secCtrClear (v : Nat)
  /-- EV_CTR_CLEAR (R297). Writing 1 clears EV_LOST_TOTAL. -/
  | evCtrClear (v : Nat)
  /-- CH_CTRL_OPEN (R264). OPEN written in CLOSED checks the channel, settles versions, reads the doorbell line and opens the channel or sets ERROR_CODE. -/
  | chCtrlOpen (c : Nat) (dbOk : Bool) (host : List HostWrite)
  /-- CH_CTRL_CLOSE (R265). CLOSE written in OPEN stops fetching and puts the channel in DRAINING. -/
  | chCtrlClose (c : Nat)
  /-- CHANNEL_DRAIN_DONE (R265). When the last completion of a draining channel is written, the channel becomes CLOSED. -/
  | channelDrainDone (c : Nat)
  /-- CH_CTRL_RESET (R266). RESET written in ERROR returns the channel to CLOSED. -/
  | chCtrlReset (c : Nat)
  /-- CHANNEL_ERROR (R266). A ring overrun or a failed host access puts the channel in ERROR, stops fetching and completions, and pauses its requests. -/
  | channelError (c : Nat)
  /-- EV_CTRL_ENABLE (R297). ENABLE written 1 starts writing event records to the ring. -/
  | evCtrlEnable
  /-- EV_CTRL_DISABLE (R297). DISABLE written 1 stops writing event records and holds them under R290. -/
  | evCtrlDisable
  /-- DOORBELL_INVALIDATION (R268). A host write to a doorbell line invalidates the cached copy; the TX8 re-reads the line and takes SQ_TAIL, CQ_HEAD or EV_HEAD. -/
  | doorbellInvalidation (line : Nat) (host : List HostWrite)
  /-- DB_POLL (R269). Under PCIe, the doorbell line of each open channel is read every DB_POLL microseconds. -/
  | dbPoll (host : List HostWrite)
  /-- COAL_TIME (R271). COAL_TIME microseconds after the first uninterrupted completion, an interrupt is sent on the channel's vector. -/
  | coalTime (c : Nat)
  /-- REQUEST_OPEN (R232). Fills a CLOSED request entry from the parameter block, appends the prompt and returns the handle. -/
  | requestOpen (h : Hdr) (params : Nat) (tokens : Nat) (count : Nat)
  /-- REQUEST_APPEND (R234). Adds input tokens to a request, feeding or dropping the pending token by KEEP_PENDING. -/
  | requestAppend (h : Hdr) (handle : Nat) (keep : Bool) (tokens : Nat) (count : Nat)
  /-- REQUEST_DRAFT (R241). Supplies a draft tree for the request's next admission. -/
  | requestDraft (h : Hdr) (handle : Nat) (forLength : Nat) (nodes : Nat) (tree : Nat)
  /-- REQUEST_PAUSE (R234). Pauses a request with reason HOST to the Ember tier or a named Peat target. -/
  | requestPause (h : Hdr) (handle : Nat) (toPeat : Bool) (target : Nat) (ttl : Nat) (hold : Nat)
  /-- REQUEST_RESUME (R250). Makes a paused request ACTIVE, restoring its pages from the Peat tier first when needed. -/
  | requestResume (h : Hdr) (handle : Nat) (keepPeat : Bool)
  /-- REQUEST_RENEW (R249). Sets a new TTL and expiry tick and clears WARNED. -/
  | requestRenew (h : Hdr) (handle : Nat) (ttl : Nat)
  /-- REQUEST_REWIND (R244). Moves LENGTH back to a given position at the next step boundary. -/
  | requestRewind (h : Hdr) (handle : Nat) (position : Nat) (token : Nat) (valid : Bool)
  /-- REQUEST_MIGRATE (R253). Moves the request's adapter pin to the slot's newest version at its next admission. -/
  | requestMigrate (h : Hdr) (handle : Nat)
  /-- REQUEST_CLOSE (R234). Releases pages, Peat image and adapter pin and frees the entry at the next boundary. -/
  | requestClose (h : Hdr) (handle : Nat)
  /-- REQUEST_QUERY (R274). Writes the request entry and page-table header to a host buffer. -/
  | requestQuery (h : Hdr) (handle : Nat) (buffer : Nat)
  /-- PROGRAM_LOAD (R282). Loads a program image, settles its format version, allocates its objects and checks its regions and scales. -/
  | programLoad (h : Hdr) (image : Nat) (source : Nat) (length : Nat) (img : Image)
  /-- PROGRAM_RUN (R346). Runs an entry of a loaded program image and returns its result word. -/
  | programRun (h : Hdr) (image : Nat) (entry : Nat) (args : Nat) (length : Nat) (ret : Nat)
  /-- PROGRAM_UNLOAD (R314). Unloads an image, freeing its objects, regions and waiter records. -/
  | programUnload (h : Hdr) (image : Nat)
  /-- REGION_RELEASE (R180). Releases a resident scratchpad region named by die, cluster, core and base. -/
  | regionRelease (h : Hdr) (die : Nat) (cluster : Nat) (core : Nat) (base : Nat)
  /-- DMA_COPY (R262). Copies bytes between host memory, global addresses and the host-managed window. -/
  | dmaCopy (h : Hdr) (c : DmaCopy)
  /-- ADAPTER_INSTALL (R252). Writes a new adapter version into a slot, declaring its resident regions. -/
  | adapterInstall (h : Hdr) (slot : Nat) (source : Nat) (length : Nat) (home : Nat) (regions : List ImageRegion)
  /-- ADAPTER_REMOVE (R254). Marks an adapter slot RETIRING. -/
  | adapterRemove (h : Hdr) (slot : Nat)
  /-- ADAPTER_QUERY (R276). Writes the four version records of an adapter slot to a host buffer. -/
  | adapterQuery (h : Hdr) (slot : Nat) (buffer : Nat)
  /-- CONFIG_STAGE (R284). Applies a list of TARGET and VALUE entries to the staged set, or refuses the whole list. -/
  | configStage (h : Hdr) (list : Nat) (count : Nat)
  /-- CONFIG_CHECK (R285). Checks the staged set against every range, agreement and in-use rule without changing anything. -/
  | configCheck (h : Hdr) (seq : Nat)
  /-- CONFIG_COMMIT (R286). Copies the staged set into the commit buffer to become live at the next step boundary. -/
  | configCommit (h : Hdr) (seq : Nat)
  /-- CONFIG_DISCARD (R284). Sets the staged set equal to the live set and increments STAGE_SEQ. -/
  | configDiscard (h : Hdr)
  /-- EMPTY_STEP_BOUNDARY (R286). With a commit pending and no step running, the steward makes an empty step boundary within 10 µs. -/
  | emptyStepBoundary
  /-- BLOCK_SAFE_POINT_SWITCH (R286). A block that does not run in steps switches to the committed values at its next safe point, completing the commit when last. -/
  | blockSafePointSwitch (block : Nat)
  /-- TIME_MARK (R291). Captures the steward counter when the descriptor reaches the collector and records it with HOST_TIME. -/
  | timeMark (h : Hdr) (hostTime : Nat) (stewardChanged : Bool)
  /-- EVENT_MASK (R290). Sets which event code high bytes and severities are written to the ring. -/
  | eventMask (h : Hdr) (mask : Nat) (severity : Nat)
  /-- EVENT_FLUSH (R290). Completes when every record stamped before its arrival has been written or dropped. -/
  | eventFlush (h : Hdr)
  /-- MAINT_CAL_REQUEST (R146). Raises the REQUEST calibration trigger on each named fitted compute die. -/
  | maintCalRequest (h : Hdr) (mask : Nat)
  /-- LAYER_STATS (R121). Writes layer statistics records to a host buffer. -/
  | layerStats (h : Hdr) (image : Nat) (first : Nat) (count : Nat) (buffer : Nat)
  /-- ASH_LIST (R159). Writes the Ash-list header and entries to a host buffer. -/
  | ashList (h : Hdr) (first : Nat) (count : Nat) (buffer : Nat)
  /-- EVENT_CATALOGUE (R273). Writes the catalogue of status and event codes to a host buffer. -/
  | eventCatalogue (h : Hdr) (buffer : Nat) (length : Nat)
  /-- PARTITION_RESET (R481). Resets one cluster, compute die or M-die while the module serves. -/
  | partitionReset (h : Hdr) (scope : Nat) (die : Nat) (cluster : Nat) (force : Bool)
  /-- FW_STAGE (R487). Reads or receives a firmware bundle into the UPDATE half, verifies it and writes it to the non-live flash copies. -/
  | fwStage (h : Hdr) (space : Nat) (receive : Bool) (forward : Bool) (last : Nat) (source : Nat) (length : Nat) (far : List Byte) (b : Bundle) (sig : SigOut) (stewardSig : SigOut) (chunks : List (List Byte))
  /-- FW_ACTIVATE (R488). Updates the firmware cluster by cluster in rounds and switches the halves at a step boundary. -/
  | fwActivate (h : Hdr)
  /-- FW_QUERY (R481). Writes BOOT_STATUS, FW_STATUS and RESET_STATUS to a host buffer. -/
  | fwQuery (h : Hdr) (buffer : Nat)
  /-- IDENTITY (R501). Writes the device certificate and its signature block to a host buffer. -/
  | identity (h : Hdr) (buffer : Nat)
  /-- ATTEST (R503). Takes a snapshot at the next step boundary and writes a signed attestation report. -/
  | attest (h : Hdr) (buffer : Nat) (nonce : List Byte)
  /-- KEY_ENROLL (R499). Verifies an enrolment object and enrols or revokes an owner key slot. -/
  | keyEnroll (h : Hdr) (source : Nat) (length : Nat) (sig : SigOut)
  /-- ROLLBACK_ADVANCE (R505). Burns anti-rollback fuses of a counter up to the lowest held SECURITY_VERSION. -/
  | rollbackAdvance (h : Hdr) (counter : Nat)
  /-- WEIGHT_MANIFEST (R390). Verifies a cord manifest, checks target banks, allocates copy space and puts a slot in LOADING. -/
  | weightManifest (h : Hdr) (slot : Nat) (space : Nat) (source : Nat) (length : Nat) (far : List Byte) (engines : List Nat) (sig : SigOut)
  /-- WEIGHT_KEY (R506). Unwraps a cord key envelope into the security engine for a slot. -/
  | weightKey (h : Hdr) (slot : Nat) (source : Nat) (length : Nat) (key : Option (List Byte))
  /-- WEIGHT_SHARD (R392). Fetches one encrypted shard for a slot from host memory or a global address. -/
  | weightShard (h : Hdr) (slot : Nat) (space : Nat) (restore : Bool) (repair : Bool) (shard : Nat) (source : Nat) (far : List Byte)
  /-- SHARD_CHECK_DONE (R392). After decryption and hashing, a shard passes and its tiles enter the directory, or fails and its fill pointers return. -/
  | shardCheckDone (tagOk : Bool) (plain : List Byte)
  /-- WEIGHT_CHAIN (R395). Joins a slot to a distribution chain with a predecessor and successor, opening the intake window. -/
  | weightChain (h : Hdr) (slot : Nat) (pred : Option Nat) (succ : Option Nat)
  /-- WEIGHT_COMMIT (R400). Flips every target engine of a READY or STANDBY slot at the next step boundary. -/
  | weightCommit (h : Hdr) (slot : Nat) (group : Bool)
  /-- WEIGHT_REMOVE (R405). Frees a cord slot that is not ACTIVE. -/
  | weightRemove (h : Hdr) (slot : Nat)
  /-- WEIGHT_CHECK (R402). Starts a read-back check of one shard of an ACTIVE cord at once. -/
  | weightCheck (h : Hdr) (slot : Nat) (shard : Nat)
  /-- WEIGHT_QUERY (R405). Writes the cord status record to a host buffer. -/
  | weightQuery (h : Hdr) (slot : Nat) (buffer : Nat)
  /-- WEIGHT_ABORT (R405). Stops programming of a LOADING slot and frees it. -/
  | weightAbort (h : Hdr) (slot : Nat)
  /-- GROUP_COMMIT_TIMEOUT (R401). A member that gives no answer within 100 ms causes a group COMMIT to be refused with CORD_NOT_READY. -/
  | groupCommitTimeout
  /-- SCAN (R424). Starts a structural scan of a cluster position in AUTO, SWAP or COVER mode. -/
  | scan (h : Hdr) (die : Nat) (cluster : Nat) (mode : Nat)
  /-- FLEET_LOAD (R427). Verifies and loads a fleet pattern into a pattern slot. -/
  | fleetLoad (h : Hdr) (slot : Nat) (img : FleetImage) (sig : SigOut)
  /-- FLEET_SET (R428). Enables or disables a loaded fleet pattern. -/
  | fleetSet (h : Hdr) (slot : Nat) (enable : Bool)
  /-- FLEET_REMOVE (R430). Removes a fleet pattern, disabling it first. -/
  | fleetRemove (h : Hdr) (slot : Nat)
  /-- INJECT (R430). Adds an offset to one lane's results in one layer for a number of steps. -/
  | inject (h : Hdr) (q : Nat) (n : Nat) (layer : Nat) (lane : Nat) (offset : Nat) (steps : Nat)
  /-- TEST_QUERY (R430). Writes the test status record of a cluster to a host buffer. -/
  | testQuery (h : Hdr) (die : Nat) (cluster : Nat) (buffer : Nat)
  /-- WINDOW_OPEN (R347). Opens a window entry over a local range for remote sources and rights, at both X dies at once. -/
  | windowOpen (via : Option Hdr) (args : List Byte)
  /-- WINDOW_CLOSE (R350). Moves an OPEN window to DRAINING; later REQ frames are NACKed with WINDOW_CLOSED. -/
  | windowClose (via : Option Hdr) (n : Nat)
  /-- WINDOW_DRAINED (R350). When the last frame accepted before the close is answered, the window becomes CLOSED and the close completes. -/
  | windowDrained (n : Nat)
  /-- WINDOW_QUERY (R346). Writes a window entry's state to a 64-byte buffer. -/
  | windowQuery (via : Option Hdr) (n : Nat) (buffer : Nat)
  /-- STEP_BOUNDARY (R31). After every token of a step is committed, the boundary applies staged changes, takes the admission snapshot and admits the next step. -/
  | stepBoundary (slices : List SliceRun)
  /-- STEP_COMMIT (R240). The steward commits each sequence's positions, samples tokens, writes the journal and delivers tokens in order. -/
  | stepCommit (drafts : List (Nat × List (Nat × Nat)))
  /-- STEWARD_HEARTBEAT (R235). The steward writes a heartbeat word every 100 µs. -/
  | stewardHeartbeat
  /-- STEWARD_TIMEOUT (R236). With no heartbeat for STEWARD_TIMEOUT, the standby takes over, finishes or abandons the last step and raises STEWARD_CHANGED. -/
  | stewardTimeout
  /-- STEWARD_COUNTER_SYNC (R30). Every 1 ms the standby steward receives the active counter value and corrects its copy. -/
  | stewardCounterSync
  /-- EVENT_ARRIVAL (R28). An event reaching the collector is stamped with the steward counter and written to the event ring or held. -/
  | eventArrival (idx : Nat)
  /-- EMBER_HOLD (R245). EMBER_HOLD seconds after a pause with a Peat target, a move to the Peat tier starts. -/
  | emberHold (idx : Nat)
  /-- PEAT_MOVE_DONE (R248). When every unit is acknowledged, the digests and copies are written and EVICT is applied at the next boundary. -/
  | peatMoveDone (idx : Nat)
  /-- PEAT_MOVE_FAILED (R248). A failed target write stops the move, releases the extent and leaves the request in PAUSED_EMBER. -/
  | peatMoveFailed (idx : Nat) (status : Nat)
  /-- PEAT_EXPIRY_WARNING (R249). WARN_LEAD seconds before expiry, the warning is raised and WARNED is set. -/
  | peatExpiryWarning (idx : Nat)
  /-- REQUEST_EXPIRED (R249). At EXPIRY_TICK the extent and pin are released and the request becomes EXPIRED. -/
  | requestExpired (idx : Nat)
  /-- RESUMPTION_CHECKED (R250). When the image is read back and all digests agree, the request becomes ACTIVE at the next boundary; otherwise RESUME_FAILED. -/
  | resumptionChecked (idx : Nat) (readStatus : Nat) (image : List Byte)
  /-- NOP (R307). Does nothing for one issue cycle. -/
  | nop (q : Nat) (f : SeqFields)
  /-- HALT (R307). Enters IDLE and interrupts the Hearth core. -/
  | halt (q : Nat) (f : SeqFields)
  /-- SETI (R307). Writes an immediate into a register, low or high half. -/
  | seti (q : Nat) (f : SeqFields)
  /-- ADDI (R307). Adds an immediate to a register modulo 2^64. -/
  | addi (q : Nat) (f : SeqFields)
  /-- ALU (R307). Performs a register-register arithmetic, logic, shift or compare operation. -/
  | alu (q : Nat) (f : SeqFields)
  /-- LD (R307). Loads 8 bytes from the core's scratchpad into a register. -/
  | ld (q : Nat) (f : SeqFields)
  /-- ST (R307). Stores a register into 8 bytes of the core's scratchpad. -/
  | st (q : Nat) (f : SeqFields)
  /-- JUMP (R307). Continues at an immediate index. -/
  | jump (q : Nat) (f : SeqFields)
  /-- BRANCH (R307). Continues at an immediate index when a register comparison holds. -/
  | branch (q : Nat) (f : SeqFields)
  /-- JUMPR (R307). Continues at the index held in a register. -/
  | jumpr (q : Nat) (f : SeqFields)
  /-- LOOP (R307). Decrements a register and continues at an index while it is nonzero. -/
  | loop (q : Nat) (f : SeqFields)
  /-- POP (R301). Takes the highest-priority readable packet for the sequencer from the work queue, stalling until one exists. -/
  | pop (q : Nat) (f : SeqFields)
  /-- PBLD (R307). Reads a packet-buffer word, stalling until its flit has landed. -/
  | pbld (q : Nat) (f : SeqFields)
  /-- PUSH (R299). Writes a packet of flits and tag into the cluster work queue, held while the queue is full. -/
  | push (w : PushSrc)
  /-- ARRAY_MV (R310). Queues an ARRAY_MV op on an A-engine with its op block. -/
  | arrayMv (q : Nat) (f : SeqFields)
  /-- ARRAY_READ (R95). Queues an ARRAY_READ op on an A-engine. -/
  | arrayRead (q : Nat) (f : SeqFields)
  /-- D_MV (R310). Queues a D8 or D16 pass on the D-engine for an A-engine's tile. -/
  | dMv (q : Nat) (f : SeqFields)
  /-- D_VEC (R311). Queues a vector op on the D-engine. -/
  | dVec (q : Nat) (f : SeqFields)
  /-- PSUM_ADD (R186). Queues the addition of a source partial tile into a target tile. -/
  | psumAdd (q : Nat) (f : SeqFields)
  /-- KV_APPEND (R211). Queues the writing of token K and V vectors into KV pages. -/
  | kvAppend (q : Nat) (f : SeqFields)
  /-- ATT_WALK (R213). Queues an attention walk with a walk record. -/
  | attWalk (q : Nat) (f : SeqFields)
  /-- COPY (R171). Queues a copy of bytes between addresses with a named distance class. -/
  | copy (q : Nat) (f : SeqFields)
  /-- ATOMIC_ADD (R189). Sends words as FX64_PART or I32_PART payloads to an M-die atomic target, optionally posting. -/
  | atomicAdd (q : Nat) (f : SeqFields)
  /-- ATOMIC_CLEAR (R192). Queues the clearing of atomic target tiles. -/
  | atomicClear (q : Nat) (f : SeqFields)
  /-- POST (R315). Adds a value to a synchronisation object. -/
  | post (q : Nat) (f : SeqFields)
  /-- WAIT (R315). Stalls until a synchronisation object satisfies a GE or EQ condition. -/
  | wait (q : Nat) (f : SeqFields)
  /-- SYNC_SET (R315). Sets a synchronisation object to a value and re-evaluates its waiters. -/
  | syncSet (q : Nat) (f : SeqFields)
  /-- DONE_WAIT (R308). Stalls until a done counter reaches an immediate. -/
  | doneWait (q : Nat) (f : SeqFields)
  /-- DONE_SET (R307). Sets a done counter to an immediate. -/
  | doneSet (q : Nat) (f : SeqFields)
  /-- FENCE (R308). Stalls until every op the sequencer queued has completed or faulted. -/
  | fence (q : Nat) (f : SeqFields)
  /-- INTR (R307). Interrupts the Hearth core with a code. -/
  | intr (q : Nat) (f : SeqFields)
  /-- TICK (R307). Reads the die's C-clock counter into a register. -/
  | tick (q : Nat) (f : SeqFields)
  /-- OP_COMPLETION (R308). A queued op completes or faults; its done counter increments and stalled waits are released. -/
  | opCompletion (q : Nat) (idx : Nat)
  /-- SEQ_LOAD (R305). The Hearth core copies instructions from scratchpad into an IDLE sequencer's store. -/
  | seqLoad (q : Nat) (a : Nat) (idx : Nat) (n : Nat)
  /-- SEQ_START (R305). The Hearth core starts an IDLE sequencer at an index. -/
  | seqStart (q : Nat) (idx : Nat)
  /-- SEQ_STOP (R305). The Hearth core stops a sequencer at its next issue boundary. -/
  | seqStop (q : Nat)
  /-- SEQ_RESUME_RETRY (R313). Resumes a FAULTED sequencer at the faulting instruction. -/
  | seqResumeRetry (q : Nat)
  /-- SEQ_RESUME_SKIP (R313). Resumes a FAULTED sequencer after the faulting instruction, counting the op as complete. -/
  | seqResumeSkip (q : Nat)
  /-- WQ_FLUSH (R304). At the next write-side packet boundary, discards complete packets for the masked destinations. -/
  | wqFlush (g : Nat) (mask : Nat)
  /-- WQ_WRITE_HELD (R303). A writer held longer than HOLD_LIMIT raises WQ_WRITE_HELD once for the packet. -/
  | wqWriteHeld (g : Nat) (writer : Nat)
  /-- DMA_COMMAND (R194). The cluster DMA takes a command packet and starts COPY_STRIDED, GATHER, SCATTER or MERGE. -/
  | dmaCommand (g : Nat) (ecc : List HbmReport)
  /-- ARRAY_MV_OP_START (R87). When input, engine and set are ready, an ARRAY_MV op checks, selects its layer, plans and converts its parts into BA64. -/
  | arrayMvOpStart (q : Nat) (n : Nat) (shadow : Bool)
  /-- ACCUMULATOR_WRITE_BACK (R84). After the last BA64 addition crosses to the C-clock, the set is written to scratchpad and overflow is checked. -/
  | accumulatorWriteBack (q : Nat) (idx : Nat)
  /-- CORRECTION_MERGE (R105). When the tile and correction set are ready, the D-engine merges them and releases a clean pass's completion. -/
  | correctionMerge (q : Nat) (idx : Nat)
  /-- PASS_REPEAT (R111). The promotion unit re-encodes and runs the pass at the next rung at the engine's next op boundary. -/
  | passRepeat (q : Nat) (idx : Nat)
  /-- LAYER_D16_REPEAT (R114). Trouble found after reduction repeats the whole layer for the sequence at D16. -/
  | layerD16Repeat (image : Nat) (layer : Nat) (seq : Nat)
  /-- VERDICT_REPORT (R117). An M-die verdict record takes a pass report, promoting the layer or releasing completions when clean. -/
  | verdictReport (q : Nat) (idx : Nat)
  /-- ARRAY_READ_OP (R95). Reads one block of a layer row by row through the ADC lanes and decodes code lines and read status. -/
  | arrayReadOp (q : Nat) (n : Nat)
  /-- ARRAY_CAL_OP (R151). Drives a layer with pseudo-random digits and writes conversion records for calibration. -/
  | arrayCalOp (q : Nat) (n : Nat) (layer : Nat) (seed : Nat) (area : Nat)
  /-- D_MV_PASS (R112). The D-engine runs a D8 or D16 pass against the digital copy. -/
  | dMvPass (q : Nat)
  /-- D_VEC_OP (R311). The D-engine runs a vector op element by element. -/
  | dVecOp (q : Nat) (t : TensorRef) (seq : Nat)
  /-- KV_APPEND_OP (R211). The D-engine encodes and writes W token vectors into KV pages, or writes nothing on trouble. -/
  | kvAppendOp (q : Nat)
  /-- ATT_WALK_OP (R216). A segment of an attention walk computes scores and the running softmax over its pages. -/
  | attWalkOp (q : Nat)
  /-- SEGMENT_MERGE (R222). Segment 0 merges the partials in order and writes the outputs. -/
  | segmentMerge (q : Nat)
  /-- PSUM_ADD_OP (R186). Adds a source partial tile into a target tile and writes a new check word. -/
  | psumAddOp (q : Nat)
  /-- COPY_OP (R172). A queued copy moves its bytes, checks tiles and completes when visible. -/
  | copyOp (q : Nat) (ecc : List HbmReport)
  /-- ADD_FX64 (R190). An FX64_PART payload adds its words into an FX64 atomic target, or is refused. -/
  | addFx64 (q : Nat)
  /-- ADD_I32_SAT (R191). An I32_PART payload adds its words with saturation into an I32 atomic target, or is refused. -/
  | addI32Sat (q : Nat)
  /-- ATOMIC_CLEAR_OP (R192). Zeroes the words, guard bits and flags of the named tiles. -/
  | atomicClearOp (q : Nat)
  /-- SYNC_POST (R315). An object applies a post and wakes waiters whose condition now holds. -/
  | syncPost (m : SyncSrc)
  /-- SYNC_WAIT_ARRIVAL (R315). An object replies at once to a satisfied wait or records the waiter. -/
  | syncWaitArrival (m : SyncSrc)
  /-- SYNC_SET_ARRIVAL (R315). An object takes a set and re-evaluates its waiters. -/
  | syncSetArrival (m : SyncSrc)
  /-- SYNC_WAIT_LONG (R316). A waiter record held WAIT_LONG microseconds raises SYNC_WAIT_LONG once. -/
  | syncWaitLong (obj : Nat) (idx : Nat)
  /-- HOST_MEM_WRITE (R262). A host CXL.mem write to the host-managed window updates tile CRCs. -/
  | hostMemWrite (w : Nat) (bytes : List Byte)
  /-- HOST_MEM_READ (R262). A host CXL.mem read is checked by the M-die and returns poison on failure. -/
  | hostMemRead (w : Nat)
  /-- PATROL_READ (R185). The M-die patrol reads and checks each tile once per PATROL_HOURS at lowest priority. -/
  | patrolRead (m : Nat) (ecc : List HbmReport)
  /-- HBM_ROW_IDLE_CLOSE (R183). An open HBM row with no access for 128 N-cycles is closed. -/
  | hbmRowIdleClose (bank : Nat)
  /-- BANK_POWER_UP_DONE (R181). A bank powering up becomes usable after 2 µs plus 4,096 C-cycles of clearing. -/
  | bankPowerUpDone (q : Nat) (b : Nat)
  /-- FIT_ROUND_CLOSE (R135). A lane's sample count reaches a round; the agent fits the window and updates coefficients and retirement counts. -/
  | fitRoundClose (q : Nat) (n : Nat) (lane : Nat)
  /-- CAL_RUN_STAGED (R147). When a run's computation finishes, its trim tables are staged for the next boundary. -/
  | calRunStaged (d : Nat)
  /-- CAL_SAVE (R145). Every SAVE_INTERVAL minutes the agent writes the coefficient sets to flash. -/
  | calSave (d : Nat) (ok : Bool)
  /-- BANK_PROGRAM_REQUEST (R89). A program request puts a bank in PROGRAMMING and counts one cycle. -/
  | bankProgramRequest (q : Nat) (n : Nat) (b : Nat)
  /-- TILE_PROGRAM_DONE (R397). A tile finishes program-and-verify in the target bank and its layer descriptor is written. -/
  | tileProgramDone (q : Nat) (n : Nat) (layer : Nat) (bad : List Nat) (badSpares : List Nat) (refBad : Bool)
  /-- SPARE_PROGRAM_DONE (R94). A spare column verifies or fails; a verified column becomes MAPPED at the next boundary. -/
  | spareProgramDone (q : Nat) (n : Nat) (b : Nat) (ok : Bool)
  /-- READBACK_CHECK_START (R402). At evenly spaced intervals a read-back check of the next shard starts. -/
  | readbackCheckStart
  /-- READBACK_CHECK_DONE (R403). The read-back and copy digests are compared and the outcome of Table 13-5 applied. -/
  | readbackCheckDone (idx : Nat)
  /-- CHAIN_CHUNK_FORWARD (R395). A chunk that has wholly arrived is forwarded to the successor's intake slot. -/
  | chainChunkForward (slot : Nat)
  /-- CHUNK_READY (R396). A CHUNK_READY notice in the mailbox makes the successor decrypt and forward the chunk. -/
  | chunkReady (slot : Nat) (shard : Nat) (k : Nat) (length : Nat)
  /-- SLOT_FREE (R396). A SLOT_FREE notice frees an intake slot for the predecessor. -/
  | slotFree (slot : Nat)
  /-- PORT_SIGNAL_DETECT (R325). Light on every trained lane moves a DOWN port into TRAINING. -/
  | portSignalDetect (p : Nat)
  /-- PORT_FEC_LOCK (R325). FEC lock on the trained lanes moves a port to SETTLING. -/
  | portFecLock (p : Nat) (lanes : Nat)
  /-- PORT_TRAIN_TIMEOUT (R326). A port not in SETTLING within 30 s enters FAULT with TRAIN_FAIL. -/
  | portTrainTimeout (p : Nat)
  /-- PORT_LOCK_LOSS (R328). Loss of lock moves an UP port to FAULT and drops its frames. -/
  | portLockLoss (p : Nat)
  /-- UNCORR_RATE_CHECK (R328). Each second, uncorrectable codewords above UNCORR_LIMIT put the port in FAULT. -/
  | uncorrRateCheck (p : Nat) (corr : Nat) (uncorr : Nat)
  /-- PORT_FAULT_RETRY (R325). One second after FAULT, the port returns to DOWN, up to RETRAIN_MAX attempts. -/
  | portFaultRetry (p : Nat)
  /-- RETRAIN (R325). RETRAIN written 1 moves the port into TRAINING. -/
  | retrain (p : Nat)
  /-- IDENTITY_MESSAGE (R327). A neighbour's IDENTITY is checked, the link version settled and the port moved to UP or FAULT. -/
  | identityMessage (p : Nat) (f : Frame)
  /-- CREDIT (R335). A CREDIT message returns REQ, RSP and MGMT credits to the transmitter. -/
  | credit (p : Nat) (f : Frame)
  /-- ENUM_START (R337). Writing ENUM_START makes the module head of an enumeration run and sends the token. -/
  | enumStart
  /-- ENUM_TOKEN (R337). A module receiving the token on G1 takes or keeps its ID and sends it on. -/
  | enumToken (p : Nat) (f : Frame)
  /-- ENUM_DONE (R337). ENUM_DONE is passed back to the head, which ends the run. -/
  | enumDone (p : Nat) (f : Frame)
  /-- CLEAR_ID (R339). Writing CLEAR_ID removes the module ID unless windows or remote operations are outstanding. -/
  | clearId
  /-- TILE_WRITE (R349). An accepted TILE_WRITE frame writes its tile and is ACKed. -/
  | tileWrite (p : Nat) (f : Frame)
  /-- TILE_WRITE_MASKED (R349). An accepted masked frame writes the 64 B blocks its mask names. -/
  | tileWriteMasked (p : Nat) (f : Frame)
  /-- ATOMIC_ADD_FRAME (R349). An accepted ATOMIC_ADD frame applies its payloads in body order. -/
  | atomicAddFrame (p : Nat) (f : Frame)
  /-- READ_REQ (R349). An accepted READ_REQ reads and checks the tile and answers with READ_TILE or NACK. -/
  | readReq (p : Nat) (f : Frame)
  /-- READ_TILE (R352). A READ_TILE answers an outstanding remote read, completing it when all frames are answered. -/
  | readTile (p : Nat) (f : Frame)
  /-- POST_FRAME (R349). An accepted POST frame adds its delta to a synchronisation object. -/
  | postFrame (p : Nat) (f : Frame)
  /-- ACK (R352). An ACK answers an outstanding frame of a remote operation. -/
  | ack (p : Nat) (f : Frame)
  /-- NACK (R353). A NACK ends the remote operation with its status. -/
  | nack (p : Nat) (f : Frame) (status : Code)
  /-- MCAST_CHUNK (R480). A firmware chunk frame is written to the UPDATE half and forwarded along the chain. -/
  | mcastChunk (p : Nat) (f : Frame)
  /-- TRANSIT_FRAME (R343). A frame for another module is forwarded through the X dies by its route entry or dropped. -/
  | transitFrame (p : Nat) (f : Frame) (abort : Bool)
  /-- RETRY_TIME (R353). An unanswered frame at RETRY_TIME is resent or its operation completes with a timeout status. -/
  | retryTime (idx : Nat) (j : Nat)
  /-- HOLD_MAX (R336). A frame held in a transmit queue longer than HOLD_MAX is dropped. -/
  | holdMax (p : Nat)
  /-- COLL_INSTANCE_START (R359). When START_OBJ reaches START_COUNT, the collective unit starts an instance. -/
  | collInstanceStart (key : Nat)
  /-- COLL_RECORD (R367). An RS, AG or RERUN record arrives and the unit runs its arrival, result and completion checks. -/
  | collRecord (p : Nat) (f : Frame)
  /-- COLL_WAIT (R368). An expected record absent COLL_WAIT after start fails the instance. -/
  | collWait (key : Nat)
  /-- REPAIR_WAIT (R376). A ring link down for REPAIR_WAIT is cut, the dateline moved, routes recomputed and a notice sent. -/
  | repairWait (d : Nat) (l : Nat) (spareReady : Bool)
  /-- REPAIR_NOTICE (R376). A module applies a repair notice not yet seen and passes it on away from the origin. -/
  | repairNotice (d : Nat) (l : Nat) (origin : Nat) (seq : Nat) (spareReady : Bool)
  /-- STEP_ANNOUNCE (R375). A member admits the step that the group lead announces through the mailbox. -/
  | stepAnnounce (n : Nat) (flip : Bool)
  /-- CLEAN_REPORT (R375). The lead collects members' clean reports and commits the step when all arrive. -/
  | cleanReport (m : Nat) (n : Nat) (clean : Bool)
  /-- REWIND_NOTICE (R419). A REWIND notice makes each member rewind its sequences to the named step. -/
  | rewindNotice (first : Nat)
  /-- SCAN_SCHEDULE (R426). At evenly spaced times firmware starts the next scheduled structural scan. -/
  | scanSchedule
  /-- SCAN_DONE (R425). After 40 s a scan passes or fails and the position returns, becomes SPARE or is RETIRED. -/
  | scanDone (passed : Bool) (chain : Nat)
  /-- HK_SLOT_CONVERSION (R442). At each slot start the ADC converts one channel and the supervisor acts on the corrected reading. -/
  | hkSlotConversion (raw : Nat) (code : Int) (fail : Bool)
  /-- MODULE_SHUTDOWN_TRIP (R451). 10 ms after MODULE_SHUTDOWN, the regulators are tripped and latch off. -/
  | moduleShutdownTrip
  /-- ROUND_END (R438). At the end of each round, input power is formed and the power stage updated. -/
  | roundEnd
  /-- DAMPER_DECISION (R449). Every DAMPER_STEP ms the supervisor raises, holds or lowers each die's thermal stage. -/
  | damperDecision
  /-- DAMPER_STAGE_APPLY (R449). A stage change takes effect at the die's next boundary or after 2 ms. -/
  | damperStageApply (idx : Nat)
  /-- HK_URG_CTRL (R444). An urgent conversion request is accepted and converted, or dropped. -/
  | hkUrgCtrl (v : Nat) (busy : Bool) (left : Nat)
  /-- HK_TDAC_GO (R446). Schedules a test-DAC diagnosis of a channel in the next round. -/
  | hkTdacGo (v : Nat)
  /-- SYSCAL_ZERO (R445). Averages 16 conversions of an external channel and sets its OFFSET. -/
  | syscalZero (e : Nat)
  /-- SYSCAL_FULL (R445). Averages 16 conversions and sets GAIN, or fails with SYSCAL_RANGE. -/
  | syscalFull (e : Nat)
  /-- SYSCAL_SAVE (R445). Writes the external channel's coefficients to module flash. -/
  | syscalSave (e : Nat)
  /-- HK_PART_RELEASE (R452). Releases a shut-down partition whose channels are below 90 °C and not broken. -/
  | hkPartRelease (v : Nat)
  /-- AUTO_RELEASE (R452). After RELEASE_HOLD seconds in the release condition, firmware releases the partition. -/
  | autoRelease (p : Nat)
  /-- INPUT_UNDERVOLT (R434). Input below 50 V for 1 ms cuts every rail and latches off. -/
  | inputUndervolt
  /-- INPUT_OVERVOLT (R434). Input above 66 V for 1 ms cuts every rail and latches off. -/
  | inputOvervolt
  /-- INPUT_OVERCURRENT (R434). Input current above 36 A for 1 ms cuts every rail and latches off. -/
  | inputOvercurrent
  /-- REGULATOR_FAULT (R434). A rail out of band or a regulator fault output cuts every rail. -/
  | regulatorFault
  /-- INPUT_OUT_OF_RANGE (R434). Input between 50–54 V or 63–66 V sets INPUT_RANGE and raises the event once. -/
  | inputOutOfRange (out : Bool)
  /-- CURRENT_LIMIT (R434). Input current above 32 A for 10 ms sets the power stage to 3. -/
  | currentLimit (past : Bool)
  /-- POWER_ON (R458). Applying the input after at least 1 s absent starts X1, the first round and bring-up. -/
  | powerOn
  /-- BOOT_PHASE (R458). A bring-up phase ends and the next begins, up to READY. -/
  | bootPhase (w : BootWork)
  /-- RECOVERY_GO (R463). In HALTED, fetches, verifies and writes a recovery object into the non-live copy. -/
  | recoveryGo (v : Nat) (steward : StewardImage) (bundle : BundleCopy)
  /-- POWERED_HOUR (R459). Once per powered hour the powered-time count in flash is incremented. -/
  | poweredHour
  /-- FW_CHUNK_RECEIVE (R477). A cluster's image receiver takes a broadcast chunk and sets its bitmap bit. -/
  | fwChunkReceive (t : Nat) (chunk : List Byte)
  /-- FW_CHUNK_FETCH (R478). After END or 1 s of silence, the receiver fetches each missing chunk from the source half. -/
  | fwChunkFetch (t : Nat) (far : List Byte)
  /-- RESET_TIMEOUT (R483). A cluster not ready within RESET_TIMEOUT fails its reset and is lost. -/
  | resetTimeout (d : Nat) (p : Nat) (selfTest : Bool)
  /-- HSS_TREE_BUILT (R502). The security engine finishes building the next H15 tree in the background. -/
  | hssTreeBuilt
  /-- CORD_GROUP_QUERY (R401). A step-group member receives the lead's mailbox request for a READY or STANDBY slot with the committed GROUP_TAG and confirms or declines. -/
  | cordGroupQuery (tag : Nat)
  /-- CORD_GROUP_CONFIRM (R401). The group lead receives a member's confirmation or refusal and, when every member has confirmed, announces the flip step. -/
  | cordGroupConfirm (m : Nat) (yes : Bool)
  /-- HDM_DECODER_COMMIT (R261). The host commits or uncommits the CXL HDM decoder in the BAR2 component registers, which makes later HDM changes reject with HDM_BUSY. -/
  | hdmDecoderCommit (commit : Bool)
  /-- PTM_EXCHANGE (R292). As a PTM requester, the TX8 completes a Precision Time Measurement exchange with the host, from which TIME_MARK interpolates the root time. -/
  | ptmExchange (root : Nat)
  /-- URGENT_CONVERSION_DONE (R444). 500 S-cycles after an urgent request is accepted, its conversion ends and the reading is placed in HK_URG_RESULT with DONE set. -/
  | urgentConversionDone (raw : Nat) (code : Int)
  /-- ATTEST_RATE_TURN (R503). A report held back because ATTEST_MAX reports were already signed in the current second gets its turn and is signed when the next second begins. -/
  | attestRateTurn
  deriving DecidableEq, Repr

end Sys2Proof
end

