-- ==== Sys2Proof/Machine/Num.lean ====
section
/-! DEFINITION. Exact numbers and binary32: rounding to nearest, ties to even (R43, R53, R60), and the arithmetic the D-engine, the walker and the sampler build on. -/

namespace Sys2Proof

/-- `n / d` to the nearest integer, ties to even (rne_int of R43). -/
def rneDiv (n : Int) (d : Nat) : Int :=
  let m := n.natAbs
  let q := m / d
  let r := m % d
  let q' := if d < 2 * r ∨ (2 * r = d ∧ q % 2 = 1) then q + 1 else q
  if n < 0 then -(q' : Int) else (q' : Int)

/-- `m × 2^e` to the nearest integer, ties to even (R43). -/
def rneShift (m e : Int) : Int :=
  if 0 ≤ e then m * (2 ^ e.toNat : Nat) else rneDiv m (2 ^ (-e).toNat)

/-- A binary32 word (R53). -/
abbrev F32 := BitVec 32

namespace F32

def isNaN (x : F32) : Bool := decide (0x7F800000 < x.toNat % 0x80000000)
def isInf (x : F32) : Bool := x.toNat % 0x80000000 == 0x7F800000
def isFinite (x : F32) : Bool := decide (x.toNat % 0x80000000 < 0x7F800000)
def neg (x : F32) : F32 := x ^^^ 0x80000000#32
def sign (x : F32) : Bool := x.toNat / 0x80000000 == 1
/-- Zero of either sign. -/
def isZero (x : F32) : Bool := x.toNat % 0x80000000 == 0
/-- A positive, normal, finite word (R36). -/
def isScale (x : F32) : Bool := decide (0x00800000 ≤ x.toNat) && decide (x.toNat < 0x7F800000)

def inf (s : Bool) : F32 := if s then 0xFF800000#32 else 0x7F800000#32
def zero (s : Bool) : F32 := if s then 0x80000000#32 else 0#32
/-- The NaN an invalid operation returns; the spec gives its payload nowhere (log 20). -/
def qnan : F32 := 0x7FC00000#32
/-- A NaN keeps its sign and payload and is returned quiet (R53). -/
def quiet (x : F32) : F32 := x ||| 0x00400000#32

/-- Integer significand of a finite word: its value is `mant x × 2^(expo x)`. -/
def mant (x : F32) : Int :=
  let f : Nat := x.toNat % 0x800000
  let e : Nat := x.toNat / 0x800000 % 256
  let m : Nat := if e = 0 then f else f + 0x800000
  if x.sign then -(m : Int) else (m : Int)

def expo (x : F32) : Int :=
  let e : Nat := x.toNat / 0x800000 % 256
  if e = 0 then -149 else (e : Int) - 150

/-- The magnitude bits of `m / d × 2^e` (`0 < m`), rounded to nearest, ties to even; `sticky` says the exact value lies above by less than a quarter of the last place. -/
def roundMag (m d : Nat) (e : Int) (sticky : Bool) : Nat :=
  let l : Int := (m.log2 : Int) - (d.log2 : Int)
  let ge : Bool := if 0 ≤ l then decide (d * 2 ^ l.toNat ≤ m) else decide (d ≤ m * 2 ^ (-l).toNat)
  let fl : Int := (if ge then l else l - 1) + e
  let t : Int := if fl - 23 < -149 then -149 else fl - 23
  let s : Int := e - t
  let num := if 0 ≤ s then m * 2 ^ s.toNat else m
  let den := if 0 ≤ s then d else d * 2 ^ (-s).toNat
  let q := num / den
  let r := num % den
  let up := decide (den < 2 * r) || (2 * r == den && (sticky || q % 2 == 1))
  let q' := if up then q + 1 else q
  let bits := (t + 149).toNat * 0x800000 + q'
  if bits < 0x7F800000 then bits else 0x7F800000

/-- rne32 of the exact rational `n / d × 2^e` (R43, R53); an exact zero gives +0. -/
def ofRat (n : Int) (d : Nat) (e : Int) : F32 :=
  if n = 0 then 0#32
  else
    let b := BitVec.ofNat 32 (roundMag n.natAbs d e false)
    if n < 0 then neg b else b

/-- rne32 of `m × 2^e`. -/
def ofDyadic (m e : Int) : F32 := ofRat m 1 e

/-- `a + b` with one rounding (R53). -/
def add (a b : F32) : F32 :=
  if a.isNaN then quiet a else if b.isNaN then quiet b
  else if a.isInf then (if b.isInf && a.sign != b.sign then qnan else a)
  else if b.isInf then b
  else if a.isZero && b.isZero then zero (a.sign && b.sign)
  else
    let e := if a.expo < b.expo then a.expo else b.expo
    ofDyadic (a.mant * (2 ^ (a.expo - e).toNat : Nat) + b.mant * (2 ^ (b.expo - e).toNat : Nat)) e

def sub (a b : F32) : F32 := if b.isNaN then add a b else add a (neg b)

/-- A result keeps the product's sign when it rounds to zero. -/
def signed (s : Bool) (x : F32) : F32 := if x.isZero then zero s else x

/-- `a × b` with one rounding (R53). -/
def mul (a b : F32) : F32 :=
  if a.isNaN then quiet a else if b.isNaN then quiet b
  else
    let s := a.sign != b.sign
    if a.isInf || b.isInf then (if a.isZero || b.isZero then qnan else inf s)
    else signed s (ofDyadic (a.mant * b.mant) (a.expo + b.expo))

/-- `a / b` with one rounding (R53). -/
def div (a b : F32) : F32 :=
  if a.isNaN then quiet a else if b.isNaN then quiet b
  else
    let s := a.sign != b.sign
    if a.isInf then (if b.isInf then qnan else inf s)
    else if b.isInf then zero s
    else if b.isZero then (if a.isZero then qnan else inf s)
    else
      let n : Int := if s then -(a.mant.natAbs : Int) else (a.mant.natAbs : Int)
      signed s (ofRat n b.mant.natAbs (a.expo - b.expo))

/-- The floor of a square root, one result bit a round. -/
def isqrt : Nat → Nat → Nat → Nat
  | 0, _, r => r
  | k + 1, n, r => if (r + 2 ^ k) * (r + 2 ^ k) ≤ n then isqrt k n (r + 2 ^ k) else isqrt k n r

/-- rne32(1 / sqrt(x)) of a positive finite word (R311). -/
def rsqrt (x : F32) : F32 :=
  if x.isNaN then quiet x
  else if x.isZero then inf x.sign
  else if x.sign then qnan
  else if x.isInf then 0#32
  else
    -- x = m × 2^e with e even; 1/sqrt(x) = sqrt(2^120 / m) × 2^(-60 - e/2)
    let m0 := x.mant.natAbs
    let odd := x.expo % 2 != 0
    let m := if odd then m0 * 2 else m0
    let e := if odd then x.expo - 1 else x.expo
    let q := 2 ^ 120 / m
    let r := isqrt 61 q 0
    -- a last bit of 1 stands for the part the floors left out
    let exact := (r * r == q) && (2 ^ 120 % m == 0)
    BitVec.ofNat 32 (roundMag (2 * r + (if exact then 0 else 1)) 1 (-61 - e / 2) false)

/-- `a < b` on numbers; false when either is a NaN. -/
def lt (a b : F32) : Bool :=
  if a.isNaN || b.isNaN then false
  else if a.isZero && b.isZero then false
  else if a.sign && !b.sign then true
  else if !a.sign && b.sign then false
  else if a.sign then decide (b.toNat < a.toNat)
  else decide (a.toNat < b.toNat)

/-- FP32 narrows to BF16 by one rounding (R53); the upper 16 bits. -/
def toBF16 (x : F32) : Nat :=
  let v := x.toNat
  if x.isNaN then (quiet x).toNat / 0x10000
  else
    let q := v / 0x10000
    let r := v % 0x10000
    if 0x8000 < r || (r == 0x8000 && q % 2 == 1) then q + 1 else q

/-- BF16 widens to FP32 exactly (R36, R53). -/
def ofBF16 (v : Nat) : F32 := BitVec.ofNat 32 (v % 0x10000 * 0x10000)

/-- `x` without its sign. -/
def magnitude (x : F32) : F32 := x &&& 0x7FFFFFFF#32

/-- The terms of the exponential series of `x / 2^p` from term `t` of index `i`, in units of 2^-p. -/
def expSeries (p : Nat) (x : Nat) : Nat → Nat → Nat → Nat
  | 0, _, _ => 0
  | k + 1, i, t => t + expSeries p x k (i + 1) (t * x / ((i + 1) * 2 ^ p))

/-- Squares `v / 2^p` a number of times. -/
def squares (p : Nat) : Nat → Nat → Nat
  | 0, v => v
  | k + 1, v => squares p k (v * v / 2 ^ p)

/-- e^|x| of a finite word below 2^7 in magnitude, in units of 2^-320: a series of the argument over 2^12, squared 12 times. -/
def expFixed (x : F32) : Nat :=
  let m := x.mant.natAbs
  let s : Int := x.expo + 308
  squares 320 12 (expSeries 320 (if 0 ≤ s then m * 2 ^ s.toNat else m / 2 ^ (-s).toNat) 40 0 (2 ^ 320))

/-- EXP, correctly rounded (R215). -/
def exp (x : F32) : F32 :=
  if x.isNaN then quiet x
  else if x.isZero then 0x3F800000#32
  else if 0x43000000 ≤ x.toNat % 0x80000000 then (if x.sign then 0#32 else inf false)
  else
    let v := expFixed x
    BitVec.ofNat 32 (if x.sign then roundMag (2 ^ 640 / v) 1 (-320) true else roundMag v 1 (-320) true)

/-- FMA: `a × b + c` with one rounding (R215). -/
def fma (a b c : F32) : F32 :=
  if a.isFinite && b.isFinite && c.isFinite then
    let pe := a.expo + b.expo
    let e := if pe < c.expo then pe else c.expo
    let v := a.mant * b.mant * (2 ^ (pe - e).toNat : Nat) + c.mant * (2 ^ (c.expo - e).toNat : Nat)
    if v = 0 then zero ((a.sign != b.sign) && c.sign && c.isZero && (a.isZero || b.isZero)) else ofDyadic v e
  else add (mul a b) c

/-- rne32(x / (1 + EXP(-x))), the quotient rounded once (R311; log 43). -/
def gate (x : F32) : F32 :=
  let y := exp (neg x)
  if !x.isFinite || !y.isFinite then div x (add 0x3F800000#32 y)
  else
    let d : Int := if y.expo < 0 then (2 ^ (-y.expo).toNat : Nat) + y.mant else 1 + y.mant * (2 ^ y.expo.toNat : Nat)
    signed x.sign (ofRat x.mant d.natAbs (x.expo - (if y.expo < 0 then y.expo else 0)))

/-- A natural number to binary32. -/
def ofNat (n : Nat) : F32 := ofDyadic n 0

end F32

/-- R60: one BA64 or FX64 value to FP32, with a single rounding; `none` is the range trouble of R61. -/
def ba64ToF32 (b : Int) (so : F32) : Option F32 :=
  let y := F32.ofDyadic (b * so.mant) (so.expo - 24)
  if y.isInf then none else if y.isZero then some 0#32 else some y

/-- R43: the block loop; the least exponent from `e` upwards, at most 127, at which the largest magnitude rounds within `qmax`. -/
def blockExp (qmax : Int) (m me : Int) : Nat → Int → Int
  | 0, e => e
  | k + 1, e => if e < 127 ∧ qmax < rneShift m (me - e) then blockExp qmax m me k (e + 1) else e

/-- The greater of two magnitudes given as `m × 2^e`. -/
def maxMag (a b : Nat × Int) : Nat × Int :=
  let e := if a.2 < b.2 then a.2 else b.2
  if a.1 * 2 ^ (a.2 - e).toNat < b.1 * 2 ^ (b.2 - e).toNat then b else a

/-- What one block's encode gives (R43, R46, R48). -/
structure EncBlock where
  e8 : Nat
  codes : List Int        -- value of each element; an outlier's place holds `none` in `marks`
  marks : List Bool
  side : List (Nat × Int)
  range : Bool            -- range trouble (R43, R48)
  deriving DecidableEq, Repr, Inhabited

/-- R43 over one block: `us` are the scaled elements, `outs` says which were chosen as outliers. -/
def encodeBlock (qmax : Int) (us : List F32) (outs : List Bool) : EncBlock :=
  let ps := us.zip outs
  let mx := ps.foldl (fun (a : Nat × Int) p => if p.2 then a else maxMag a (p.1.mant.natAbs, p.1.expo)) ((0, 0) : Nat × Int)
  let e := blockExp qmax (mx.1 : Int) mx.2 253 (-126)
  let bad := decide (qmax < rneShift (mx.1 : Int) (mx.2 - e))
  let q : F32 → Int := fun u => rneShift u.mant (u.expo - e)
  let side := (ps.zipIdx).filterMap (fun p => if p.1.2 then some (p.2, q p.1.1) else none)
  let past := side.any (fun p => decide (32767 < p.2.natAbs))
  { e8 := (e + 127).toNat
    codes := ps.map (fun p => if p.2 then 0 else q p.1)
    marks := outs
    side := side.filter (fun p => decide (p.2.natAbs ≤ 32767))
    range := bad || past }

/-- Table 2-2: the integer value of a weight code; `ternary` selects WT. -/
def weightVal (ternary : Bool) (code : Nat) : Int :=
  if ternary then (if code = 0 then -1 else if code = 1 then 0 else 1)
  else 2 * (code : Int) - 3

end Sys2Proof
end

