-- ==== Sys2Proof/Machine/Tab.lean ====
section
/-! DEFINITION. A sparse table: strictly rising keys, and no entry equal to what an unlisted key reads as. Memory, registers and every numbered resource of the block are held so. -/

namespace Sys2Proof

/-- A sparse table from numbers to `α`; an unlisted key reads as `default`. -/
abbrev Tab (α : Type) := List (Nat × α)

namespace Tab

variable {α : Type} [Inhabited α] [DecidableEq α]

/-- The entry of key `k`. -/
def get (t : Tab α) (k : Nat) : α :=
  match t with
  | [] => default
  | (j, v) :: r => if j = k then v else Tab.get r k

/-- The table without key `k`. -/
def erase (t : Tab α) (k : Nat) : Tab α :=
  match t with
  | [] => []
  | (j, v) :: r => if j = k then Tab.erase r k else (j, v) :: Tab.erase r k

/-- Puts an entry before the first greater key. -/
def insert (t : Tab α) (k : Nat) (v : α) : Tab α :=
  match t with
  | [] => [(k, v)]
  | (j, w) :: r => if k < j then (k, v) :: (j, w) :: r else (j, w) :: Tab.insert r k v

/-- Writes key `k`; writing what an unlisted key reads as removes the entry. -/
def set (t : Tab α) (k : Nat) (v : α) : Tab α :=
  if v = default then Tab.erase t k else Tab.insert (Tab.erase t k) k v

/-- Changes the entry of key `k`. -/
def upd (t : Tab α) (k : Nat) (f : α → α) : Tab α := Tab.set t k (f (Tab.get t k))

/-- Writes `vs` at `k`, `k + 1` and so on. -/
def setList (t : Tab α) (k : Nat) (vs : List α) : Tab α :=
  match vs with
  | [] => t
  | v :: r => Tab.setList (Tab.set t k v) (k + 1) r

/-- The entries of `n` keys from `k` upwards. -/
def getList (t : Tab α) (k n : Nat) : List α :=
  match n with
  | 0 => []
  | n + 1 => Tab.get t k :: Tab.getList t (k + 1) n

/-- The table without the `n` keys from `k` upwards. -/
def eraseRange (t : Tab α) (k n : Nat) : Tab α :=
  match t with
  | [] => []
  | (j, v) :: r => if k ≤ j ∧ j < k + n then Tab.eraseRange r k n else (j, v) :: Tab.eraseRange r k n

/-- Every listed key is above `k`. -/
def above (t : Tab α) (k : Nat) : Bool := t.all (fun e => decide (k < e.1))

/-- The canonical form: keys strictly rising, no entry equal to `default`. -/
def wf (t : Tab α) : Bool :=
  match t with
  | [] => true
  | (k, v) :: r => decide (v ≠ default) && Tab.above r k && Tab.wf r

/-- The listed keys. -/
def keys (t : Tab α) : List Nat := t.map Prod.fst

end Tab

end Sys2Proof
end

