-- ==== Sys2Proof/Machine/State.lean ====
section
/-! DEFINITION. The state of a TX8 module: everything the manual gives it, as plain data, and its value at reset. -/

namespace Sys2Proof.Machine

/-! ### The part and its link -/

/-- Table 0-1. -/
inductive Variant where
  | tx8 | tx4 | tx2
  deriving DecidableEq, Repr, Inhabited

/-- What the fitted dies, the fuses and the trained host link fix (R2, R258, R294). -/
structure Part where
  variant : Variant := .tx8
  stepping : Nat := 0
  serial : Nat := 0
  pcie : Bool := false
  linkWidth : Nat := 16
  linkRate : Nat := 2
  deriving DecidableEq, Repr, Inhabited

/-! ### Set-up registers -/

/-- One configuration: the staged set, the live set or the commit buffer (R284, R286). Register values are held as the difference (exclusive or) from their reset values. -/
structure ConfigSet where
  regs : Tab Nat := []
  policy : Tab Nat := []
  pwrOff : Tab Nat := []
  coord : Tab Nat := []
  route : Tab Nat := []
  deriving DecidableEq, Repr, Inhabited

/-- A commit on its way (R286). -/
structure Pending where
  set : ConfigSet
  chan : Nat
  ring : Nat
  tag : Nat
  irq : Bool
  deriving DecidableEq, Repr, Inhabited

/-- R284, R286, R296. -/
structure Commit where
  buffer : Option Pending := none
  blocks : List Nat := []        -- affected blocks of Table 9-19 that have not switched
  boundary : Nat := 0            -- steward tick of the boundary that applied the copy
  deriving DecidableEq, Repr, Inhabited

/-! ### Time -/

/-- R27, R30, R292. -/
structure Time where
  tick : Nat := 0
  dom : Tab Nat := []
  standby : Nat := 0
  lastStamp : Nat := 0
  ptm : Option (Nat × Nat) := none
  deriving DecidableEq, Repr, Inhabited

/-! ### Events -/

/-- Where an event arose: the domain of Table 9-13 and UNIT of Table 9-12. -/
structure Src where
  dom : Nat := 0
  ty : Nat := 0
  die : Nat := 0
  cluster : Nat := 15
  core : Nat := 0
  deriving DecidableEq, Repr, Inhabited

/-- An event on its way to the collector (R28). -/
structure EvRec where
  code : Code
  src : Src
  count : Nat
  args : List Nat
  status : Code := .OK
  deriving DecidableEq, Repr, Inhabited

/-- Table 9-12. -/
structure EvLine where
  ev : EvRec
  stamp : Nat
  seq : Nat
  phase : Bool
  deriving DecidableEq, Repr, Inhabited

/-- A descriptor that has been started and is still to complete. -/
structure Desc where
  chan : Nat
  ring : Nat
  tag : Nat
  irq : Bool
  deriving DecidableEq, Repr, Inhabited

/-- R28, R289, R290, R297. -/
structure Events where
  inFlight : List EvRec := []
  enabled : Bool := false
  failed : Bool := false
  ring : Tab (Option EvLine) := []
  written : Nat := 0
  head : Nat := 0
  held : List EvLine := []
  dropped : Nat := 0
  dropFirst : Nat := 0
  dropLast : Nat := 0
  seq : Nat := 0
  sinceIrq : Nat := 0
  mask : Nat := 0
  minSeverity : Nat := 0
  flushes : List (Desc × Nat) := []
  deriving DecidableEq, Repr, Inhabited

/-! ### Channels -/

/-- Table 9-9. -/
structure Completion where
  tag : Nat := 0
  status : Code := .OK
  kind : Nat := 0
  phase : Bool := false
  late : Bool := false
  last : Bool := false
  stale : Bool := false
  lateCheck : Bool := false
  aux : Nat := 0
  r0 : Nat := 0
  r1 : Nat := 0
  deriving DecidableEq, Repr, Inhabited

/-- Table 9-2. -/
inductive ChanState where
  | closed | opened | draining | error
  deriving DecidableEq, Repr, Inhabited

/-- R263 to R271. -/
structure Chan where
  st : ChanState := .closed
  sqBase : Nat := 0
  cqBase : Nat := 0
  dbAddr : Nat := 0
  cfg : Nat := 0
  ringVer : Nat := 0
  descVer : Nat := 0
  abiVer : Nat := 0
  err : Nat := 0
  sqTail : Nat := 0
  cqHead : Nat := 0
  fetched : Nat := 0
  started : Nat := 0
  outstanding : List Desc := []
  written : Nat := 0
  spill : List Completion := []
  sinceIrq : Nat := 0
  coalRun : Bool := false
  openHeld : Bool := false
  buffers : Nat := 0
  deriving DecidableEq, Repr, Inhabited

/-! ### Memory -/

/-- Table 6-6, but for the CRC: `syndrome` is the stored CRC exclusive-or the CRC of the tile's bytes (R176: zero where they match, and no write to part of the tile changes it). -/
structure Tile where
  poisoned : Bool := false
  overflow : Bool := false
  sat : Bool := false
  atomic : Bool := false
  k : Int := 0
  format : Nat := 0
  syndrome : Nat := 0
  deriving DecidableEq, Repr, Inhabited

/-- Table 6-7. -/
structure Region where
  valid : Bool := false
  base : Nat := 0
  tiles : Nat := 0
  resident : Bool := false
  hasSource : Bool := false
  lost : Bool := false
  source : Nat := 0
  owner : Nat := 0
  deriving DecidableEq, Repr, Inhabited

/-- An atomic target region of a loaded image (R188), CHECKED or not (R413). -/
structure AtomRegion where
  base : Nat := 0
  tiles : Nat := 0
  i32 : Bool := false
  k : Int := 0
  image : Nat := 0
  checked : Bool := false
  number : Nat := 0              -- its number in the image
  deriving DecidableEq, Repr, Inhabited

/-- Chapter 6. Keys: `bytes` by module-local address; `tiles` by address / 4096; `guard` by address / 8; `regions` by 32 × core + entry; `pwrUp` by core; `row` by bank of R183, holding the open row plus 1; `patrol` by M-die, the next tile of its pass; `sums` by tile, the running sums of R413; `guard` holds what lies beyond the 64 bits of an FX64 target word, as the multiple of 2^64 (R190). -/
structure Mem where
  bytes : Tab Byte := []
  tiles : Tab Tile := []
  guard : Tab Int := []
  atoms : List AtomRegion := []
  hostLine : List Byte := []     -- data and poison indication of the last CXL.mem read answered (R262)
  hostPoison : Bool := false
  regions : Tab Region := []
  poweringUp : Tab Nat := []
  coreWait : Tab Nat := []       -- SP_SEL_WAIT of each core
  row : Tab Nat := []
  patrol : Tab Nat := []
  sums : Tab Nat := []
  deriving DecidableEq, Repr, Inhabited

/-! ### Queues, sequencers, objects -/

/-- A packet in a work queue (R298). -/
structure Packet where
  flits : List Byte := []
  tag : Nat := 0
  writer : Nat := 0
  doneAddr : Nat := 0
  pc : Nat := 0
  word : Nat := 0
  deriving DecidableEq, Repr, Inhabited

/-- A writer held by a full queue (R299, R303). -/
structure Held where
  writer : Nat := 0
  reported : Bool := false
  deriving DecidableEq, Repr, Inhabited

/-- One cluster work queue. -/
structure Queue where
  pkts : List Packet := []
  held : List Held := []
  hearthIrq : Nat := 0
  deriving DecidableEq, Repr, Inhabited

/-- Table 10-2. -/
inductive SeqState where
  | idle | running | stalled | faulted
  deriving DecidableEq, Repr, Inhabited

/-- Stall causes of Table 10-11, in the order of its numbers. -/
inductive Stall where
  | none | pop | wait | doneWait | fence | opQueue | push
  deriving DecidableEq, Repr, Inhabited

/-- The unit of a core that runs a queued op (R309). -/
inductive OpUnit where
  | eng (n : Nat) | dEng | copy
  deriving DecidableEq, Repr, Inhabited

/-- An op that a sequencer queued: its opcode, operand values at issue, and the instruction that queued it. -/
structure Op where
  opc : Nat := 0
  unit : OpUnit := .copy
  a : Nat := 0
  b : Nat := 0
  c : Nat := 0
  d : Nat := 0
  mod : Nat := 0
  imm : Nat := 0
  pc : Nat := 0
  word : Nat := 0
  prog : Nat := 0                -- words of an ATOMIC_ADD already sent
  bad : Code := .OK              -- first refusal among its payloads
  badAddr : Nat := 0
  deriving DecidableEq, Repr, Inhabited

/-- An op that has run and whose completion or fault has still to reach the sequencer (R308); `hold` is the pass that holds its completion back (R111). -/
structure Ran where
  op : Op := {}
  status : Code := .OK
  reason : Nat := 0
  addr : Nat := 0
  hold : Bool := false
  deriving DecidableEq, Repr, Inhabited

/-- Table 10-7, and the sequences that the faulted op named (R415). -/
structure FaultRec where
  pc : Nat := 0
  status : Code := .OK
  reason : Nat := 0
  done : Nat := 0
  instruction : Bool := false
  word : Nat := 0
  opAddr : Nat := 0
  stamp : Nat := 0
  seqs : List Nat := []
  deriving DecidableEq, Repr, Inhabited

/-- One sequencer (10, Sequencers). -/
structure Sequencer where
  st : SeqState := .idle
  cause : Stall := .none
  pc : Nat := 0
  a : Tab Word := []
  d : Tab Nat := []
  pbuf : List Byte := []
  ops : List Op := []
  ran : List Ran := []
  fault : FaultRec := {}
  control : Code := .OK
  hearthCode : Nat := 0
  stopping : Bool := false       -- STOP taken during a stall
  faultPending : Bool := false   -- an op faulted during a stall (R312)
  deriving DecidableEq, Repr, Inhabited

/-- A waiter of an object (R316). -/
inductive Who where
  | seq (q : Nat) | hearth (cluster : Nat) | dma (cluster : Nat)
  deriving DecidableEq, Repr, Inhabited

/-- A waiter record (R316). -/
structure Waiter where
  who : Who := .seq 0
  target : Nat := 0
  eq : Bool := false
  reported : Bool := false
  deriving DecidableEq, Repr, Inhabited

/-- A synchronisation object (R314, R315). -/
structure SyncObj where
  val : Nat := 0
  allocated : Bool := false
  waiters : List Waiter := []
  deriving DecidableEq, Repr, Inhabited

/-- The operations of Table 10-8. -/
inductive SyncKind where
  | post | set | wait
  deriving DecidableEq, Repr, Inhabited

/-- An object operation on its way (R317). -/
structure SyncMsg where
  kind : SyncKind := .post
  obj : Nat := 0
  val : Nat := 0
  eq : Bool := false
  who : Who := .seq 0
  pc : Nat := 0
  word : Nat := 0
  deriving DecidableEq, Repr, Inhabited

/-! ### Cluster positions -/

/-- Table 1-1. -/
inductive PosState where
  | active | spare | programming | retired | fusedOff
  deriving DecidableEq, Repr, Inhabited

/-- A cluster position of the floor plan (R18, R468). `known` is false while the position is as bring-up left it with no fuse marked. -/
structure Position where
  known : Bool := false
  st : PosState := .active
  logical : Nat := 15
  resetting : Bool := false
  underScan : Bool := false
  covered : Bool := false
  fwOld : Bool := false
  deriving DecidableEq, Repr, Inhabited

/-! ### Bring-up -/

/-- Chapter 16: the phase of Table 16-2 (0 before bring-up, 9 READY, 10 HALTED). -/
structure Boot where
  phase : Nat := 0
  fast : Bool := false
  copy : Nat := 0                    -- the steward image in use: 0 A, 1 B
  bundle : Nat := 0                  -- the bundle in use
  fail : Nat := 0                    -- FAIL_CODE
  rowsRepaired : Nat := 0
  rowsUnrepaired : Nat := 0
  positionsLost : Nat := 0
  start : Nat := 0                   -- milliseconds of the phases so far
  duration : Nat := 0
  badLanes : List (Nat × Nat) := []  -- port lanes that the fuses mark bad (R464)
  hours : Nat := 0                   -- powered time since the last cold start, in flash
  training : Bool := false           -- saved training of every fitted stack passes (R459)
  fuses : List Fuse := []            -- fuse entries that the Ash list holds (R465)
  cfgFlash : Option Nat := none      -- BOOT_CFG in flash
  cfg : Nat := 0x21479               -- BOOT_CFG as loaded at power-up, in force until the next (R491, R492)
  memDown : List Nat := []           -- M-die partitions out of service (R469)
  recovery : Nat := 0                -- RECOVERY_STATUS: STATE and REASON × 256
  deriving DecidableEq, Repr, Inhabited

/-! ### Analogue engines (chapter 3) -/

/-- A binary64 value `m × 2^e` of the calibration fits (R135). -/
structure D64 where
  m : Int := 0
  e : Int := 0
  deriving DecidableEq, Repr, Inhabited

/-- Table 3-12. -/
inductive BankState where
  | empty | programming | ready | active | standby
  deriving DecidableEq, Repr, Inhabited

/-- What the program path wrote into one layer of a bank: the descriptor of Table 3-3 and the cells of its data columns, as code lines at index b × COLS + c, with the exponents of the tile (log 14). -/
structure Layer where
  format : Nat := 0
  blocks : Nat := 0
  cols : Nat := 0
  tag : Nat := 0
  cord : Nat := 0
  codes : List Byte := []
  exps : List Byte := []
  deriving DecidableEq, Repr, Inhabited

/-- Table 3-14. -/
inductive ColState where
  | normal | covered | sparing | mapped
  deriving DecidableEq, Repr, Inhabited

/-- An entry of a column map. -/
structure Column where
  st : ColState := .normal
  spare : Nat := 0
  deriving DecidableEq, Repr, Inhabited

/-- A spare column of one layer: whether a column takes it, whether it failed, and its codes, 8 code lines (R94). -/
structure Spare where
  used : Bool := false
  failed : Bool := false
  codes : List Byte := []
  deriving DecidableEq, Repr, Inhabited

/-- A change in the staged copy of a column map (R93). -/
structure ColChange where
  layer : Nat
  lane : Nat
  col : Column
  final : Bool := true           -- false: a covered column that asks for a spare
  deriving DecidableEq, Repr, Inhabited

/-- A spare being programmed in a layer (R91, R94); `cut` while its pulse is cut off. -/
structure SpareWork where
  layer : Nat := 0
  lane : Nat := 0
  spare : Nat := 0
  cut : Bool := false
  deriving DecidableEq, Repr, Inhabited

/-- Sums of calibration samples of one half (R135), with what R156 needs for the finding STUCK. -/
structure Sums where
  n : Nat := 0
  sx : Int := 0
  sc : Int := 0
  sxx : Int := 0
  sxc : Int := 0
  scc : Int := 0
  xlo : Int := 0
  xhi : Int := 0
  clo : Int := 0
  chi : Int := 0
  deriving DecidableEq, Repr, Inhabited

/-- A closed round of a lane: the sums of its halves and the die temperature at its close (R135, R144). -/
structure Round where
  h0 : Sums := {}
  h1 : Sums := {}
  temp : Int := 0
  deriving DecidableEq, Repr, Inhabited

/-- A fit of R135. -/
structure Fit where
  g : D64 := {}
  o : D64 := {}
  r : D64 := {}
  deriving DecidableEq, Repr, Inhabited

/-- What the calibration store and the trim tables hold of one lane of a bank (R135 to R144, R155 to R157). -/
structure LaneCal where
  cur0 : Sums := {}
  cur1 : Sums := {}
  rounds : List Round := []      -- the last four, newest first
  fit : Option Fit := none       -- the last fitted round
  fit0 : Option Fit := none      -- over half 0 only, for a reference lane
  fit1 : Option Fit := none
  fitted : Bool := false         -- whether the last round was fitted
  gain : List Int := []          -- GAIN_ERR at P0 to P4
  ofs : List Int := []           -- OFS_ERR at P0 to P4
  cap : Nat := 0xFFFFFFFF         -- trims before any run (log 15)
  tap : Nat := 1
  capStaged : Nat := 0xFFFFFFFF
  tapStaged : Nat := 1
  resid : Nat := 0
  excess : Nat := 0              -- consecutive rounds over RESID_BOUND
  gainOut : Nat := 0
  ofsOut : Nat := 0
  retired : Bool := false
  lastClose : Nat := 0
  deriving DecidableEq, Repr, Inhabited

/-- Shared trims and common coefficients of one bank (R136, R138, R142). -/
structure CommonCal where
  bias0 : Nat := 32
  bias1 : Nat := 32
  ladder : Nat := 16
  bias0Staged : Nat := 32
  bias1Staged : Nat := 32
  ladderStaged : Nat := 16
  row0 : List Int := []          -- ROW_GAIN_ERR of half 0 at P0 to P4
  row1 : List Int := []
  cofs : List Int := []          -- COMMON_OFS_ERR at P0 to P4
  g0 : D64 := {}                 -- G_0, G_1 and O_cm of the last reference round
  g1 : D64 := {}
  cm : D64 := {}
  known : Bool := false
  chosen0 : Option D64 := none   -- the G_h that the live shared trims were chosen for
  chosen1 : Option D64 := none
  degraded : Bool := false       -- R157's fallback in force
  deriving DecidableEq, Repr, Inhabited

/-- The column window of a layer column (R155) and its visit in this step (R409). -/
structure ColWindow where
  sum : D64 := {}
  n : Nat := 0
  past : Nat := 0                -- consecutive windows over RESID_BOUND
  last : D64 := {}               -- residual of the last window
  visit : Nat := 0               -- accepted samples of this step's visit
  high : Nat := 0                -- of them, deviating upwards
  low : Nat := 0
  worst : D64 := {}
  raised : Bool := false         -- ARITH_FAULT_DETECTED already raised in this visit
  dropped : Bool := false
  clean : Nat := 0               -- step of the last clean visit, plus 1
  confirmed : Nat := 0           -- step of the last confirmation, plus 1
  deriving DecidableEq, Repr, Inhabited

/-- One bank of an engine. Keys: `layers`, `shadow` and `exercise` by layer, the pointers held as what they have advanced since they were set to L mod 64; `cols` and `windows` by 512 × layer + lane; `spares` by 32 × layer + spare; `lanes` by lane, references from 512. -/
structure Bank where
  st : BankState := .empty
  cycles : Nat := 0
  layers : Tab Layer := []
  cols : Tab Column := []
  staged : List ColChange := []
  version : Nat := 0
  spares : Tab Spare := []
  work : List SpareWork := []
  shadow : Tab Nat := []
  exercise : Tab Nat := []
  windows : Tab ColWindow := []
  lanes : Tab LaneCal := []
  common : CommonCal := {}
  refOff : List Nat := []        -- disabled reference lanes
  inject : Tab Int := []         -- TEST INJECT, by 1,024 × layer + lane
  injectLeft : Tab Nat := []     -- steps of the layer left for each
  wearNoticed : Bool := false
  deriving DecidableEq, Repr, Inhabited

/-- One A-engine. -/
structure Engine where
  a : Bank := {}
  b : Bank := {}
  sel : Option (Nat × Nat) := none   -- bank and layer selected since the last step boundary
  ran : List Nat := []               -- layers on which an ARRAY_MV ran in this step
  conv : Nat := 0
  clip : Nat := 0
  calCount : Nat := 0
  convStep : Nat := 0                -- its last step with a conversion, plus 1, and the one before
  prevStep : Nat := 0
  refHold : Bool := false            -- R412: its passes run at D8 until the run commits
  deriving DecidableEq, Repr, Inhabited

/-! ### Passes (chapters 3 and 4) -/

/-- Table 10-5. -/
structure OpBlock where
  input : Nat := 0
  source : Nat := 0
  out : Nat := 0
  records : Nat := 0
  action : Nat := 0
  rung : Nat := 0
  i32 : Bool := false
  layer : Nat := 0
  block : Nat := 0
  policy : Nat := 0
  image : Nat := 0
  verdict : Option Nat := none   -- 1,024 × M-die + record
  seq : Nat := 0
  deriving DecidableEq, Repr, Inhabited

/-- Where a pass stands: its set is kept; closed, awaiting its write-back; written, awaiting its merge; in trouble, awaiting its repeat; awaiting its report to the verdict record; reported. -/
inductive PassPhase where
  | opened | closing | written | trouble | judging | held
  deriving DecidableEq, Repr, Inhabited

/-- A pass of one core: its ops, the rung and accumulator set of its present run with the correction set of its engine, the trouble mask and accepted clips of that run. -/
structure Pass where
  eng : Nat := 0
  ops : List OpBlock := []
  op : Op := {}                  -- the op whose completion it holds
  phase : PassPhase := .opened
  rung : Nat := 0
  base : Nat := 0                -- the effective rung of its layer
  acc : Tab Int := []
  corr : Tab Int := []
  mask : Nat := 0
  clips : Nat := 0
  repeated : Bool := false
  digital : Bool := false        -- queued as D_MV
  form : Tab Int := []           -- the int32 sums of an I32 form pass, its one shift, and whether it cannot keep that form (R112)
  shift : Option Int := none
  mixed : Bool := false
  deriving DecidableEq, Repr, Inhabited

/-- Table 4-5. -/
inductive VerdictState where
  | free | opened | promoting | clean
  deriving DecidableEq, Repr, Inhabited

/-- R117. -/
structure Verdict where
  st : VerdictState := .free
  passes : Nat := 0
  clean : Nat := 0
  rung : Nat := 0
  deriving DecidableEq, Repr, Inhabited

/-- What one sequence's run of one layer has reached in the step in progress (04, Counting and pinning). -/
structure LayerRun where
  image : Nat := 0
  layer : Nat := 0
  seq : Nat := 0
  base : Nat := 0                -- the effective rung
  top : Nat := 0
  ref : Bool := false
  clips : Nat := 0
  exhausted : Bool := false
  tiles : List Nat := []         -- tiles that its released passes wrote last
  late : Bool := false           -- R114: trouble found after the layer's reduction
  force : Bool := false          -- R114: the whole layer runs at D16
  deriving DecidableEq, Repr, Inhabited

/-- Table 4-7, the pin and what R122 counts; `hist` holds step, runs and promoted runs, newest first. -/
structure LayerStat where
  runs : Nat := 0
  promoted : Nat := 0
  a8 : Nat := 0
  d8 : Nat := 0
  d16 : Nat := 0
  exhausted : Nat := 0
  clips : Nat := 0
  pin : Option Nat := none
  pinNext : Option Nat := none   -- takes effect at the next step boundary
  since : Nat := 0               -- step of image load or of the last change of the effective rung
  seen : Nat := 0                -- the effective rung at the last boundary
  hist : List (Nat × Nat × Nat) := []
  deriving DecidableEq, Repr, Inhabited

/-- Trouble that stops a sequence's token from being committed in this step: the pause reason of Table 8-5, with the event's arguments (R44, R113, R115, R227). -/
structure SeqTrouble where
  seq : Nat
  reason : Nat
  args : List Nat := []
  deriving DecidableEq, Repr, Inhabited

/-! ### Calibration (chapter 5) -/

/-- A flash record of one bank's coefficient sets (R145): of each lane, GAIN_ERR and OFS_ERR at P0 to P4, and the common fields. -/
structure CalRecord where
  lanes : Tab (List Int × List Int) := []
  row0 : List Int := []
  row1 : List Int := []
  cofs : List Int := []
  deriving DecidableEq, Repr, Inhabited

/-- The calibration agent of one compute die (R129, R146 to R150). -/
structure DieCal where
  run : Nat := 0                 -- Table 5-4
  pending : Nat := 0
  causes : Nat := 0              -- of the run in progress
  last : Nat := 0
  temp : Int := 0                -- taken at the run's start
  start : Nat := 0
  lastTemp : Int := 0
  lastStart : Nat := 0           -- steward counter when the last run started
  runTick : Nat := 0
  markTick : Nat := 0
  markHost : Nat := 0
  saveFailed : Bool := false
  banks : List (Nat × Nat) := []  -- engine and bank whose tables the run has staged
  beyond : List (Nat × Nat) := []  -- of them, those out of range (R141)
  saved : Tab Nat := []          -- steward tick of the last verified flash record, plus 1, by 2 × engine + bank
  records : Tab CalRecord := []  -- the coefficient sets in flash, by 2 × engine + bank
  deriving DecidableEq, Repr, Inhabited

/-- Table 5-6. -/
structure AshEntry where
  kind : Nat
  cause : Nat
  die : Nat := 0
  dieType : Nat := 0
  element : Nat := 0
  position : Nat := 0
  core : Nat := 0
  engine : Nat := 0
  bank : Nat := 0
  layer : Nat := 0
  allLayers : Bool := false
  index : Nat := 0
  stamp : Nat := 0
  deriving DecidableEq, Repr, Inhabited

/-- R159: the working copy, how many of its entries flash holds, and the lost entries. -/
structure AshList where
  entries : List AshEntry := []
  flash : Nat := 0
  lost : Nat := 0
  deriving DecidableEq, Repr, Inhabited

/-! ### Cords (chapter 13) -/

/-- Table 13-4. -/
inductive SlotState where
  | free | loading | ready | active | standby | restoring | failed
  deriving DecidableEq, Repr, Inhabited

/-- An entry of a die's tile directory (R394): the record's offset in the die's run of the copy, and the header of Table 13-3. -/
structure TileRec where
  ofs : Nat := 0
  format : Nat := 0
  blocks : Nat := 0
  cols : Nat := 0
  tag : Nat := 0
  shard : Nat := 0
  tile : Nat := 0
  valid : Bool := false
  deriving DecidableEq, Repr, Inhabited

/-- A chunk of a shard on its way along a chain (R395): shard, number and bytes. -/
structure ChainChunk where
  shard : Nat := 0
  k : Nat := 0
  bytes : List Byte := []
  deriving DecidableEq, Repr, Inhabited

/-- A cord slot (R386 to R406). Lists indexed by compute die have eight entries; `unit` and `units` give the run of copy units, `fill` the bytes filled. `dir` is keyed by 64 × engine + layer, `clean` by shard with the tick of its last clean check plus 1. -/
structure Slot where
  st : SlotState := .free
  prior : SlotState := .active       -- what RESTORING returns to
  cord : Nat := 0
  shards : Nat := 0
  tiles : Nat := 0
  group : Nat := 0
  lengths : List Nat := []           -- by shard
  first : List Nat := []
  counts : List Nat := []
  copyBytes : List Nat := []
  unit : List Nat := []
  units : List Nat := []
  fill : List Nat := []
  key : Option (List Byte) := none   -- the unwrapped cord key (R507)
  manifest : List Byte := []         -- with its signature block
  security : Nat := 0
  signer : Nat := 0
  dir : Tab TileRec := []
  targets : List (Nat × Nat) := []   -- engine and bank
  passed : List Nat := []
  damaged : List Nat := []
  failedBanks : List Nat := []
  retried : List (Nat × Nat) := []   -- banks programmed once more (R398)
  mismatches : Nat := 0
  lastCheck : Nat := 0
  nextCheck : Nat := 0
  clean : Tab Nat := []
  pred : Option Nat := none
  succ : Option Nat := none
  intake : Option Nat := none        -- number of its intake window
  part : Option (Nat × Nat × List Byte) := none   -- shard arriving over the chain, its next chunk, its bytes
  forward : List ChainChunk := []    -- chunks to forward, oldest first
  unfreed : Nat := 0                 -- chunks that the successor has not freed
  deriving DecidableEq, Repr, Inhabited

/-! ### Requests (chapter 8) -/

/-- Table 8-3. -/
inductive ReqState where
  | closed | opened | active | ember | peat | expired
  deriving DecidableEq, Repr, Inhabited

/-- TIER of Tables 7-1 and 8-1. -/
inductive Tier where
  | ember | moving | peat
  deriving DecidableEq, Repr, Inhabited

/-- A draft tree (R241): the LENGTH it follows and its nodes, each a parent and a token. -/
structure Tree where
  forLength : Nat := 0
  nodes : List (Nat × Nat) := []
  deriving DecidableEq, Repr, Inhabited

/-- A request-table entry (Table 8-1), its token ring (Table 8-2), its input store, and the operations accepted for the next step boundary (R234). -/
structure Req where
  incarnation : Nat := 0
  used : Bool := false           -- the entry has held a request before (R232)
  st : ReqState := .closed
  ref : Bool := false
  refRung : Nat := 0
  priority : Nat := 0
  policy : Nat := 0              -- DEADLINE_POLICY
  draftMode : Nat := 0
  reason : Nat := 0
  tier : Tier := .ember
  peatTarget : Nat := 0
  chan : Nat := 0
  keepPeat : Bool := false
  warned : Bool := false
  slot : Nat := 0                -- ADAPTER_SLOT
  noAdapter : Bool := false
  version : Nat := 0             -- ADAPTER_VERSION
  pinned : Bool := false
  image : Nat := 0
  length : Nat := 0
  token : Option Nat := none     -- PENDING_TOKEN
  maxLength : Nat := 0
  deadline : Nat := 0
  seed : Nat := 0
  temp : BitVec 32 := 0#32
  topK : Nat := 0
  peatOfs : Nat := 0
  peatUnits : Nat := 0           -- units of its extent, 0 when it holds none
  ttl : Nat := 0
  hold : Nat := 0                -- EMBER_HOLD
  expiry : Nat := 0
  lastCommit : Nat := 0
  delivered : Nat := 0
  hostTag : Nat := 0
  input : List Nat := []
  late : List (Bool × List Nat) := []   -- KEEP_PENDING and tokens appended in PAUSED_PEAT
  kvDigest : List Byte := []
  recDigest : List Byte := []
  ring : Tab Nat := []           -- by position mod 480
  tree : Option Tree := none
  pauseTick : Nat := 0
  wantPause : Bool := false
  wantMove : Bool := false       -- to the Peat tier, at the pause's boundary
  wantResume : Bool := false
  wantRewind : Option (Nat × Option Nat) := none
  wantClose : Bool := false
  logged : Nat := 0              -- its latest admission that has left the rewind log, as step + 1
  closeReason : Nat := 0
  faultRewind : Option (Nat × Option Nat × List Nat) := none
  migrate : Bool := false
  moved : Bool := false          -- the move to the Peat tier has sent and written everything
  resuming : Option Desc := none -- the accepted resumption from the Peat tier that runs
  checked : Bool := false        -- its digests have all agreed
  deriving DecidableEq, Repr, Inhabited

/-- A version of an adapter slot (R252). -/
structure AdapterVersion where
  number : Nat
  pins : Nat := 0
  deriving DecidableEq, Repr, Inhabited

/-- An adapter slot: its live versions, newest last, the install that becomes newest at the next boundary, and RETIRING. -/
structure Adapter where
  last : Nat := 0
  live : List AdapterVersion := []
  next : Option AdapterVersion := none
  retiring : Bool := false
  deriving DecidableEq, Repr, Inhabited

/-- One sequence admitted to the step in progress: its LENGTH and pending token at admission, the tokens its rows feed, its tree, whether its last row samples, and its first logits row. -/
structure Admit where
  idx : Nat
  base : Nat := 0
  feed : List Nat := []
  tree : Option Tree := none
  sample : Bool := true
  row : Nat := 0
  deriving DecidableEq, Repr, Inhabited

/-- A record of the rewind log (R416). -/
structure RewindRec where
  step : Nat
  idx : Nat
  length : Nat
  token : Option Nat
  input : List Nat
  delivered : Nat := 0           -- tokens that the step's commit delivered
  deriving DecidableEq, Repr, Inhabited

/-- The step in progress, and what the steward keeps across steps (R31, R235, R416, R420). -/
structure StepSt where
  num : Nat := 0
  running : Bool := false
  committed : Bool := false
  admitted : List Admit := []
  abandoned : Bool := false      -- R414: runs again at the next boundary
  attempt : Nat := 0             -- how often this step has been abandoned
  faultAddr : List Nat := []     -- addresses at which it faulted in the last attempt
  excluded : List Nat := []      -- requests that pause with reason FAULT at the next boundary (R415)
  collRuns : List (Nat × Nat) := []  -- collective instances run, by step
  rerun : List Nat := []         -- requests of the step that is run again
  log : List RewindRec := []
  index : List (Nat × Nat) := [] -- step and admission tick of every 256th step
  journal : Nat := 0             -- step of the last complete commit journal
  standby : Bool := false        -- the active steward is the one that stood by
  heartbeat : Nat := 0
  badPages : List (List Nat) := []   -- pages whose bad codes this step has reported (R52)
  deriving DecidableEq, Repr, Inhabited

/-! ### KV cache (chapter 7) -/

/-- The staged edits of Table 7-2. -/
inductive PageEdit where
  | truncate (length draft : Nat)
  | release
  | evict
  | restore
  deriving DecidableEq, Repr, Inhabited

/-- A page table (R205): its pages, each with a group slot for M0 to M3 where the M-die homes a head; `holds` are the generations of its read holds. -/
structure PageTable where
  valid : Bool := false
  gen : Nat := 0
  length : Nat := 0
  pages : List (List (Option Nat)) := []
  draft : Nat := 0
  tier : Tier := .ember
  holds : List Nat := []
  edits : List PageEdit := []
  changed : Bool := false        -- its page list has changed at the last step boundary
  deriving DecidableEq, Repr, Inhabited

/-- The Ember pool of one M-die (R201 to R209): S_m, the group slots allocated, and the hold list as slot, sequence and generation. -/
structure Pool where
  size : Nat := 0
  used : List Nat := []
  held : List (Nat × Nat × Nat) := []
  deriving DecidableEq, Repr, Inhabited

/-! ### Detection (chapter 14) -/

/-- Table 14-1. -/
inductive DetClass where
  | arithShadow | arithRef | transport | reduction | fleet | readback
  deriving DecidableEq, Repr, Inhabited

/-- A suspect window awaiting its rewind (R417 to R419): the sequences' images have work on `core`, or `all` sequences of the steps. -/
structure Window where
  cls : DetClass := .transport
  first : Nat := 0
  last : Nat := 0
  core : Nat := 0
  all : Bool := false
  deriving DecidableEq, Repr, Inhabited

/-- A fleet pattern slot (R427 to R430): its identifier, whether it is enabled, and its slices as (array slice, passes). -/
structure Pattern where
  loaded : Bool := false
  id : Nat := 0
  security : Nat := 0
  enabled : Bool := false
  slices : Nat := 0
  deriving DecidableEq, Repr, Inhabited

/-- A scan under way or on record, by compute die (R423 to R426). -/
structure Scan where
  st : Nat := 0                  -- Table 14-7
  mode : Nat := 0
  position : Nat := 0
  cluster : Nat := 0
  desc : Option Desc := none
  lastTick : Tab Nat := []       -- by position
  lastResult : Tab Nat := []     -- by position: result and 4 × mode
  deriving DecidableEq, Repr, Inhabited

/-- What chapter 14 keeps per cluster and core. -/
structure Detect where
  raises : Tab (List Nat) := []  -- by cluster: steps of the raises of R422
  lastDetect : Tab Nat := []     -- by cluster: step of the last detection
  windows : List Window := []
  patterns : Tab Pattern := []
  pointer : Tab Nat := []        -- by core
  slices : Tab Nat := []         -- by cluster: slices run
  lastFail : Tab Nat := []       -- by cluster: tick of the last failed slice
  cleanRun : Tab Nat := []       -- by core × 2^16 + slice: step of its last clean run, plus 1
  nextCore : Tab Nat := []       -- by die: the next core in logical order
  lost : List (Nat × Nat) := []  -- lost clusters that a spare takes at the next boundary, with their old positions
  unplaced : List Nat := []      -- lost clusters that their die covers without a spare (R382)
  scans : Tab Scan := []
  scanTurn : Nat := 0            -- die × 9 + position after the last scheduled scan
  scanFirst : List Nat := []     -- clusters whose scan goes before every other (R429)
  deriving DecidableEq, Repr, Inhabited

/-! ### Housekeeping (chapter 15) -/

/-- A housekeeping channel: its raw code and corrected reading, its coefficients (log 17), and what R446 to R448 keep of it. `broken` is the cause of R447 (0 none, 1 OPEN, 2 SHORT, 3 RANGE, 4 STUCK, 5 DIAG). -/
structure HkChan where
  raw : Nat := 0
  seen : Bool := false
  round : Nat := 0               -- the round of its reading
  reading : Int := 0
  overRange : Bool := false
  history : List Int := []       -- its last three readings, newest first
  offset : Int := 0
  gain : Nat := 16384
  same : Nat := 0                -- consecutive rounds with one raw code
  broken : Nat := 0
  diagOk : Bool := false         -- while broken: it has passed diagnosis since
  valid : List Nat := []         -- while broken: raw codes of its consecutive valid rounds since
  warn : Bool := false
  throttle : Bool := false
  shut : Bool := false
  deriving DecidableEq, Repr, Inhabited

/-- A system calibration in progress or its result (R445): channel, op (1 ZERO, 2 FULL, 3 SAVE), conversions taken and their sum. -/
structure SysCal where
  running : Bool := false
  chan : Nat := 0
  op : Nat := 0
  n : Nat := 0
  sum : Nat := 0
  done : Bool := false
  failed : Bool := false
  deriving DecidableEq, Repr, Inhabited

/-- A partition (R450, R452). -/
structure Partition where
  down : Bool := false
  retired : Bool := false        -- the shutdown made the position RETIRED
  ready : Bool := false          -- its release condition has held since `since`
  since : Nat := 0
  releasing : Bool := false
  deriving DecidableEq, Repr, Inhabited

/-- Housekeeping, the Damper and the power stage. Tables by channel, partition, and die (compute 0 to 7, memory-side 8 to 11). -/
structure Hk where
  chans : Tab HkChan := []
  slot : Nat := 0                -- the next slot of the round
  rounds : Nat := 0
  roundMs : Nat := 0             -- ROUND_MS of the round under way; 0 before the first round
  damped : Bool := false         -- some die was above Damper stage 0 when the round started
  dampMoved : Bool := false      -- that has changed within the round
  sys : SysCal := {}
  saved : Tab (List Int) := []   -- coefficients in module flash, by channel
  coefNext : Tab (List Int) := []  -- coefficients that take effect at the next round
  urgChan : Nat := 0
  urgConv : Option Nat := none   -- the channel of the urgent conversion under way
  urgRaw : Nat := 0
  urgDone : Bool := false
  urgDropped : Bool := false
  tdacChan : Nat := 0
  tdacCode : Nat := 0
  tdacPending : Bool := false
  tdacRaw : Nat := 0
  tdacDone : Bool := false
  tdacPass : Bool := false
  diag : List (Nat × Nat × Nat) := []  -- diagnoses to come: round, channel and code
  stage : Tab Nat := []          -- thermal stage decided
  live : Tab Nat := []           -- stage in effect, power stage included
  parts : Tab Partition := []
  powerStage : Nat := 0
  overRounds : Nat := 0
  underRounds : Nat := 0
  power : Nat := 0
  inputRange : Bool := false
  currentLimited : Bool := false
  latch : Nat := 0               -- cause code that the regulators hold latched (Table 15-13)
  powered : Bool := false        -- the input is applied and the rails are up
  tripArmed : Bool := false
  shutdown : Option (List Nat) := none   -- the shutdown record in module flash
  lastShutdown : List Nat := []  -- the record of the last shutdown, as PWR_LAST_SHUTDOWN reports it
  deriving DecidableEq, Repr, Inhabited

/-- The running maximum, sum and output of one row and query head (R216). -/
structure WalkPart where
  m : BitVec 32 := 0xFF800000#32
  l : BitVec 32 := 0#32
  o : List (BitVec 32) := []
  deriving DecidableEq, Repr, Inhabited

/-- A walk of a core whose segments are walked and not yet all merged: its op, its record, segment 0's partial, and the partials to come in ascending order (R221, R222). -/
structure Walk where
  op : Op
  record : List Byte
  own : List WalkPart
  rest : List (List WalkPart)
  deriving DecidableEq, Repr, Inhabited

/-! ### The Glosa fabric (chapter 11) -/

/-- Table 11-2. -/
inductive PortSt where
  | disabled | down | training | settling | up | fault
  deriving DecidableEq, Repr, Inhabited

/-- A frame of this module in a transmit queue, with the steward tick at which it was queued. -/
structure QFrame where
  frame : Frame := {}
  since : Nat := 0
  deriving DecidableEq, Repr, Inhabited

/-- A Glosa port (log 16): state, trained lanes, what its neighbour's IDENTITY said, its fault cause, the failed attempts in a row, the serial number that its saved settings are for, the credits it holds in units of 64 B, the units it owes its neighbour, and its transmit queue. -/
structure Port where
  st : PortSt := .down
  lanes : Nat := 0
  full : Bool := false           -- the training in progress is a full one
  ver : Nat := 0
  nid : Nat := 0
  nidValid : Bool := false
  nport : Nat := 0
  nkind : Nat := 0
  serial : Nat := 0
  cause : Nat := 0
  attempts : Nat := 0
  since : Nat := 0               -- steward tick of its last entry into TRAINING or FAULT
  left : Nat := 0                -- steward tick since which it has been out of UP
  saved : Option Nat := none
  req : Nat := 16384
  rsp : Nat := 15360
  mgmt : Nat := 1024
  owed : Nat × Nat × Nat := (0, 0, 0)
  queue : List QFrame := []
  deriving DecidableEq, Repr, Inhabited

/-- Arguments of WINDOW_OPEN (Table 11-9). -/
structure WinArgs where
  base : Nat := 0
  size : Nat := 0
  srcFirst : Nat := 0
  srcLast : Nat := 0
  rights : Nat := 0
  ports : Nat := 0
  objCount : Nat := 0
  objBase : Nat := 0
  number : Nat := 0xFFFF
  deriving DecidableEq, Repr, Inhabited

/-- R345. -/
inductive WinState where
  | closed | opened | draining
  deriving DecidableEq, Repr, Inhabited

/-- A window entry (R345, R350); a closed one keeps its last range. -/
structure Win where
  st : WinState := .closed
  args : WinArgs := {}
  used : Bool := false
  refused : Nat := 0             -- frames refused while DRAINING
  call : Option Desc := none     -- the call that closes it
  deriving DecidableEq, Repr, Inhabited

/-- A frame of a remote operation (R352, R353): unsent, or sent and unanswered, with the tick and count of its sends. -/
structure RFrame where
  frame : Frame := {}
  module : Nat := 0
  sent : Bool := false
  since : Nat := 0
  resends : Nat := 0
  deriving DecidableEq, Repr, Inhabited

/-- Who issued a remote operation: an op of a core, a cluster DMA command, a post, a DMA_COPY descriptor, an attempt of a collective's instance with the record that follows (its module, address and bytes), or a chunk along a distribution chain. -/
inductive Issuer where
  | op (q : Nat) (o : Op)
  | dma (g : Nat) (p : Packet)
  | post (cluster : Nat)
  | copy (d : Desc) (c : DmaCopy)
  | coll (key number attempt : Nat) (next : Option (Nat × Nat × List Byte))
  | chain (slot : Nat) (c : ChainChunk)
  deriving DecidableEq, Repr, Inhabited

/-- A remote operation: its unanswered frames, the bytes it has read by global address, whether it has gone on to write, and the status and address with which it has failed. -/
structure Remote where
  issuer : Issuer := .post 0
  frames : List RFrame := []
  far : Tab Byte := []
  wrote : Bool := false
  failed : Option (Code × Nat) := none
  code : Code := .OK             -- what a command that now writes has met, and its counts
  out : Nat := 0
  skipped : Nat := 0
  retried : Nat := 0
  deriving DecidableEq, Repr, Inhabited

/-- The fabric of one module. Tables by port, window number and module ID; a route holds 16 + the port. -/
structure Fab where
  idValid : Bool := false
  id : Nat := 0
  ports : Tab Port := []
  wins : Tab Win := []
  route : Tab Nat := []
  remotes : List Remote := []
  nextTag : Nat := 0
  sent : List (Nat × Frame) := []    -- what has left by each port, oldest first
  enum : Nat := 0                -- ENUM_STATE
  ringClosed : Bool := false
  exhausted : Bool := false
  nextId : Nat := 0
  noBridge : Bool := false       -- a bridge of the transit path by M0 and M1 is out of service (R343)
  deriving DecidableEq, Repr, Inhabited

/-! ### Collectives and topology (chapter 12) -/

/-- A live ring dimension (TOPO_LIVEd): the cuts in force, a substitution, REPAIR_SEQ, and whether its step groups have stopped (R377, R383). -/
structure Ring where
  cut : Option Nat := none
  cutB : Option Nat := none
  state : Nat := 0               -- 0 WHOLE, 1 LINE, 2 MEMBER_LOST, 3 SPLIT
  sub : Option (Nat × Nat) := none   -- logical position and module
  seq : Nat := 0
  stopped : Bool := false
  lost : List Nat := []          -- physical positions of lost modules
  awaiting : Option (Nat × Nat) := none  -- the substitution that the group's next boundary makes
  deriving DecidableEq, Repr, Inhabited

/-- A running instance of a collective (R359 to R369). `key` is 4,096 × image + place of the definition; `stage` counts the reduce-scatter stages in ascending order of dimension and then the all-gather stages in descending order; `sums` are the digests of the chunks as checked. -/
structure Instance where
  key : Nat := 0
  number : Nat := 0
  attempt : Nat := 0
  step : Nat := 0
  stage : Nat := 0
  start : Nat := 0               -- steward tick
  rerun : Bool := false
  overflow : Bool := false
  sat : Bool := false
  unchecked : Bool := false
  passed : List Nat := []        -- members whose record of the stage has passed
  own : Nat := 0                 -- digest of this member's own input to its chunk of the stage
  sums : List Nat := []
  deriving DecidableEq, Repr, Inhabited

/-- The step group and the rings of one module. `started` and `done` count instances by definition key; `arrived` holds the digests of the payload words received, by ((key × 2 + half) × 8 + stage) × 64 + sender. -/
structure Topo where
  rings : Tab Ring := []
  instances : List Instance := []
  started : Tab Nat := []
  arrived : Tab Nat := []
  suspects : List (Nat × Nat) := []  -- senders of the mismatches of failed instances, with their steps
  notices : List (Nat × Nat × Nat × Nat) := []   -- notices applied: dimension, link, origin, REPAIR_SEQ
  announced : Option Nat := none     -- the step that the lead announced
  clean : List Nat := []         -- modules whose clean reports the lead holds for the step in progress
  go : Bool := false             -- the lead holds every report of the step in progress
  lastClean : Nat := 0
  deriving DecidableEq, Repr, Inhabited

/-! ### Installation (chapter 13) -/

/-- A shard that has arrived and is still to be checked (R391, R392). -/
structure ShardJob where
  slot : Nat := 0
  shard : Nat := 0
  desc : Option Desc := none
  repair : Bool := false
  restore : Bool := false
  buffers : Nat := 0
  deriving DecidableEq, Repr, Inhabited

/-- A read-back check under way (R402). -/
structure Readback where
  slot : Nat := 0
  shard : Nat := 0
  desc : Option Desc := none
  restore : Bool := false
  deriving DecidableEq, Repr, Inhabited

/-- A group COMMIT that the lead has still to announce (R401): its descriptor, slot, start and the members that have confirmed. -/
structure GroupCommit where
  desc : Desc
  slot : Nat
  since : Nat
  confirmed : List Nat := []
  deriving DecidableEq, Repr, Inhabited

/-- Shards to check in arrival order, checks under way, accepted flips, the group COMMIT at the lead, the slot that a member has promised, and the slot of the last periodic check. -/
structure Install where
  jobs : List ShardJob := []
  checks : List Readback := []
  flips : List (Nat × Option Desc) := []
  group : Option GroupCommit := none
  promised : Option Nat := none
  announceFlip : Bool := false       -- the lead announces the next step as the flip step
  turn : Nat := 7
  deriving DecidableEq, Repr, Inhabited

/-! ### Security (chapter 17) -/

/-- A slot of the key table (Table 17-1); `seq` is the last enrolment SEQ, which outlives a revocation. -/
structure KeySlot where
  valid : Bool := false
  roles : Nat := 0
  id : Nat := 0
  ecdsa : List Byte := []
  hss : List Byte := []
  seq : Nat := 0
  deriving DecidableEq, Repr, Inhabited

/-- An ATTEST that waits for its snapshot, or with its report for its turn (R503). -/
structure Attest where
  desc : Desc
  buffer : Nat
  nonce : List Byte
  report : Option (List Byte) := none
  deriving DecidableEq, Repr, Inhabited

/-- The security engine (log 10 for what each part holds): key slots 0 and 1 are the vendor keys, `counters` the fuse counters FIRMWARE, SCAN, FLEET and CORD, `leaves` and `bound` the HSS state. -/
structure Sec where
  keys : Tab KeySlot := [(0, { valid := true, id := 1 }), (1, { valid := true, id := 2 })]
  revoked : Nat := 0                 -- V_REVOKED
  counters : Tab Nat := []
  deviceId : Nat := 0
  cert : List Byte := []             -- device certificate and its signature block
  leaves : Nat := 0
  bound : Nat := 0
  nextReady : Bool := false
  edge : Bool := false               -- the tree is exhausted and the next one is not built
  lowSaid : Bool := false
  scanVersion : Option Nat := none   -- SECURITY_VERSION of the scan patterns in flash
  attests : List Attest := []
  second : Nat := 0                  -- steward second of the last signature, and the count in it
  signed : Nat := 0
  deriving DecidableEq, Repr, Inhabited

/-! ### Firmware and resets (chapter 16) -/

/-- An image receiver (R477): run and version, kind and chunks of each image, the chunks that it has, the kinds whose END marker came, whether it fetches every chunk, the half it fetches from, the tick of its last chunk, and the fetches tried of the next one. -/
structure Receiver where
  active : Bool := false
  run : Nat := 0
  version : Nat := 0
  images : List (Nat × Nat) := []
  got : List (Nat × Nat) := []       -- kind and SEQ
  ended : List Nat := []
  fetch : Bool := false
  live : Bool := true
  last : Nat := 0
  tries : Nat := 0
  deriving DecidableEq, Repr, Inhabited

/-- A reset of the positions of a partition: asked for, or running since a step boundary. `live` is the half its images come from; `release` marks the bring-up of a released die (R452). -/
structure Reset where
  scope : Nat := 1
  die : Nat := 0
  cluster : Nat := 0
  positions : List Nat := []
  desc : Option Desc := none
  running : Bool := false
  since : Nat := 0
  update : Bool := false             -- part of a live update
  live : Bool := true
  release : Bool := false
  failed : Nat := 0                  -- positions that failed
  deriving DecidableEq, Repr, Inhabited

/-- A live update (R488 to R490): its descriptor, the round to come (0 the spares, k + 1 logical cluster k, 9 the steward's cluster, 10 the switch), the steward's cluster when it started, and whether it reverts. -/
structure Update where
  desc : Option Desc := none
  round : Nat := 0
  steward : Nat := 0
  reverting : Bool := false
  cluster : Nat := 0                 -- the cluster that failed
  deriving DecidableEq, Repr, Inhabited

/-- A firmware bundle that arrives along the chain (R480): its content and what its verification will find (log 30), the tick of its last chunk, and the chunks received as kind and SEQ. -/
structure FwReceive where
  desc : Desc
  bundle : Bundle
  sig : SigOut
  stewardSig : SigOut
  last : Nat := 0
  chunks : List (Nat × Nat) := []
  deriving DecidableEq, Repr, Inhabited

/-- Firmware: the live bundle and steward digest, the staged bundle, receivers by position, resets, the update, the half of the firmware area that is LIVE (R475), flash copies (0 A, 1 B) and the boot directory's SEQ. -/
structure Fw where
  live : Bundle := {}
  staged : Option Bundle := none
  updated : List Nat := []           -- positions running the staged bundle
  update : Option Update := none
  receive : Option FwReceive := none
  run : Nat := 0
  receivers : Tab Receiver := []
  resets : List Reset := []
  lastReset : Nat := 0               -- RESET_STATUS
  liveHalf : Nat := 0
  stewardCopy : Nat := 0
  bundleCopy : Nat := 0
  dirSeq : Nat := 0
  deriving DecidableEq, Repr, Inhabited


/-- Why the machine stops with a fault. No rule of the manual stops the block, so there is no constructor: every command has a next state. -/
inductive Fault where
  deriving Repr

/-- Why a command has no meaning in this model. -/
inductive Refusal where
  /-- Raised by an arm of `exec` whose command the model does not describe yet; safe. -/
  | notModelled (mnemonic : String)
  deriving DecidableEq, Repr

/-- The whole state. -/
structure State where
  pending : List Instr := []
  fresh : Nat := 0
  part : Part := {}
  regs : Tab Nat := []
  live : ConfigSet := {}
  staged : ConfigSet := {}
  commit : Commit := {}
  time : Time := {}
  ev : Events := {}
  irq : Tab Nat := []
  hmem : Tab Byte := []
  chans : Tab Chan := []
  cq : Tab Completion := []
  mem : Mem := {}
  wq : Tab Queue := []
  seqs : Tab Sequencer := []
  store : Tab Word := []
  sync : Tab SyncObj := []
  flight : List SyncMsg := []
  pos : Tab Position := []
  boot : Boot := {}
  hdmDecoder : Bool := false     -- the host has committed the CXL HDM decoder (R261)
  engines : Tab Engine := []
  attic : Tab Engine := []           -- the engines of RETIRED positions, and of every position while the module is off, by position
  passes : Tab (List Pass) := []     -- by core
  verdicts : Tab Verdict := []       -- by 1,024 × M-die + record
  runs : List LayerRun := []
  stats : Tab LayerStat := []        -- by 4,096 × image + layer
  troubles : List SeqTrouble := []   -- of the step in progress
  cal : Tab DieCal := []
  epoch : Nat := 0                   -- the calibration epoch (R148)
  ash : AshList := {}
  slots : Tab Slot := []
  images : Tab (Option Image) := []  -- the loaded program images
  reqs : Tab Req := []
  adapters : Tab Adapter := []
  tables : Tab PageTable := []       -- by request index
  pools : Tab Pool := []             -- by M-die
  step : StepSt := {}
  det : Detect := {}
  hk : Hk := {}
  walks : Tab (Option Walk) := []    -- by core
  fab : Fab := {}
  topo : Topo := {}
  inst : Install := {}
  sec : Sec := {}
  fw : Fw := {}
  plan : Nat := 0                    -- GENERATION of the floor plan descriptor (R468)
  deriving DecidableEq, Repr

/-- The module right after reset: every field as R511 and the chapters state it, or as the assumption log names it. -/
def State.reset : State := {}

end Sys2Proof.Machine
end

