-- ==== Sys2Proof/Machine/Bin64.lean ====
section
/-! DEFINITION. binary64 arithmetic of the calibration fits (R135): to nearest, ties to even, over numbers far from the ends of the format's range. -/

namespace Sys2Proof.Machine.D64

/-- `n / d × 2^e` rounded to 53 bits; `sticky` says that the exact magnitude lies above by less than a quarter of the last place. -/
def ofRat (n : Int) (d : Nat) (e : Int) (sticky : Bool := false) : D64 :=
  if n = 0 then {}
  else
    let m := n.natAbs
    let l : Int := (m.log2 : Int) - (d.log2 : Int)
    let s : Int := 55 - l
    let num := if 0 ≤ s then m * 2 ^ s.toNat else m
    let den := if 0 ≤ s then d else d * 2 ^ (-s).toNat
    let q := num / den
    let k := q.log2 - 52
    let r := q % 2 ^ k
    let rest := sticky || num % den != 0
    let h := 2 ^ (k - 1)
    let up := decide (h < r) || (r == h && (rest || q / 2 ^ k % 2 == 1))
    let v : Int := ((q / 2 ^ k + (if up then 1 else 0) : Nat) : Int)
    { m := if n < 0 then -v else v, e := e - s + k }

/-- `m × 2^e` rounded to 53 bits. -/
def ofDyadic (m e : Int) : D64 := ofRat m 1 e

def ofInt (x : Int) : D64 := ofDyadic x 0

/-- `x × 2^e` exactly, over a common exponent. -/
def align (a b : D64) : Int × Int × Int :=
  let e := if a.e < b.e then a.e else b.e
  (a.m * (2 ^ (a.e - e).toNat : Nat), b.m * (2 ^ (b.e - e).toNat : Nat), e)

def add (a b : D64) : D64 :=
  let x := align a b
  ofDyadic (x.1 + x.2.1) x.2.2

def neg (a : D64) : D64 := { a with m := -a.m }
def sub (a b : D64) : D64 := add a (neg b)
def mul (a b : D64) : D64 := ofDyadic (a.m * b.m) (a.e + b.e)

/-- Division; every divisor of R135 to R144 is nonzero. -/
def div (a b : D64) : D64 :=
  if b.m = 0 then {} else ofRat (if b.m < 0 then -a.m else a.m) b.m.natAbs (a.e - b.e)

def abs (a : D64) : D64 := { a with m := (a.m.natAbs : Int) }

def lt (a b : D64) : Bool :=
  let x := align a b
  decide (x.1 < x.2.1)

/-- Square root of a number that is not negative. -/
def sqrt (a : D64) : D64 :=
  if a.m ≤ 0 then {}
  else
    let m0 := a.m.natAbs
    let m := if a.e % 2 = 0 then m0 else m0 * 2
    let e := if a.e % 2 = 0 then a.e else a.e - 1
    let q := m * 2 ^ 120
    let r := isqrt 100 q 0
    ofRat r 1 (e / 2 - 60) (r * r != q)
where
  isqrt : Nat → Nat → Nat → Nat
    | 0, _, r => r
    | k + 1, n, r => if (r + 2 ^ k) * (r + 2 ^ k) ≤ n then isqrt k n (r + 2 ^ k) else isqrt k n r

/-- To the nearest integer, ties away from zero (R144). -/
def round (a : D64) : Int :=
  let h := ofDyadic a.m (a.e + 1)   -- twice the value
  let v : Int := if 0 ≤ h.e then (h.m.natAbs * 2 ^ h.e.toNat : Nat) else ((h.m.natAbs / 2 ^ (-h.e).toNat : Nat) : Int)
  let r := (v + 1) / 2
  if a.m < 0 then -r else r

end Sys2Proof.Machine.D64
end

