-- ==== Sys2Proof/Machine/Digest.lean ====
section
/-! DEFINITION. The linear digest and its seed (R364, R365). -/

namespace Sys2Proof

/-! ### The linear digest (R364, R365) -/

/-- p = 2^61 − 1. -/
abbrev digestPrime : Nat := 2 ^ 61 - 1

def powMod : Nat → Nat → Nat → Nat
  | 0, _, _ => 1
  | f + 1, b, n => if n = 0 then 1 else if n % 2 = 1 then b * powMod f (b * b % digestPrime) (n / 2) % digestPrime else powMod f (b * b % digestPrime) (n / 2)

/-- seed^i mod p. -/
def digestWeight (seed i : Nat) : Nat := powMod 64 (seed % digestPrime) i

/-- x mod p in 0 to p − 1. -/
def fieldElem (x : Int) : Nat := (x % (digestPrime : Int)).toNat

/-- Σ w_i × v_i over words at buffer indexes `i`, `i` + 1, ..., counted from 1, with w the weight of index `i`. -/
def digestGo (seed : Nat) : Nat → Nat → List Int → Nat
  | _, acc, [] => acc
  | w, acc, x :: r => digestGo seed (w * seed % digestPrime) ((acc + w * fieldElem x) % digestPrime) r

def digestOf (seed i : Nat) (xs : List Int) : Nat := digestGo (seed % digestPrime) (digestWeight seed i) 0 xs

/-- R365. -/
def collSeed (step id instance_ attempt : Nat) : Nat :=
  let s := (step * 0x9e3779b97f4a7c15 + id * 2 ^ 32 + instance_ * 2 + attempt) % 2 ^ 64
  let seed := s % digestPrime
  if seed < 2 then seed + 2 else seed

end Sys2Proof
end

