-- ==== Sys2Proof/Config.lean ====
section
/-! DEFINITION. What the manual leaves to the firmware ABI or leaves open: constants with no body, so that no claim rests on a value of one. -/

namespace Sys2Proof.Config

/-- R273: the firmware ABI fixes the number of every named status and event; the manual lists none (log 3). -/
opaque codeNumber : Code → Nat

/-- R289, R273: the severity the catalogue gives an event; the manual lists none (log 3). -/
opaque severity : Code → Nat

/-- R273: the bytes of the event catalogue that MAINT EVENT_CATALOGUE writes, and their count (log 3). -/
opaque catalogueByte : Nat → Byte
opaque catalogueLength : Nat

/-- SHA-384, a published function that the manual names and does not define; no claim needs a value of it (log 35). -/
opaque sha384 : List Byte → List Byte

/-- The format version in a Peat image's header (Table 8-7); the manual gives no number (log 36). -/
opaque peatVersion : Nat

/-- R139: the gain factor f_sel of a 40-bit CAP_SEL on a lane of an engine, as `m × 2^e`, from the manufacture measurements, which the manual does not give (log 38). -/
opaque capFactor (engine lane sel : Nat) : Int × Int

/-- R151: the A4 codes that the LFSR of an ARRAY_CAL op gives from its seed, by row; the manual does not give the LFSR (log 39). -/
opaque calCode (seed row : Nat) : Nat

/-- R273, R213: the reason number that names a field, by the field's first byte; the manual lists none (log 3). -/
opaque fieldReason : Nat → Nat

/-- R474, R475: where the image of a kind begins within the half of the firmware area that holds a bundle, by VERSION and kind; the manual gives the bundle no byte layout (log 30). -/
opaque imageOffset : Nat → Nat → Nat

/-- R467: VERSION in the header of the floor plan descriptor; the manual gives no number (log 36). -/
opaque planVersion : Nat

/-- A value the manual leaves open, fresh for every use: the `n`-th one (log 2). -/
opaque free : Nat → Nat

end Sys2Proof.Config
end

