-- ==== Sys2Proof/Machine/RegMap.lean ====
section
/-! DEFINITION. The BAR0 registers of chapter 18 (R514): offset, width, access code, reset value and writable bits of each, block by block, and where each block lies (R7). -/

namespace Sys2Proof

/-- Access codes of Table 0-6 that a register of chapter 18 carries. -/
inductive Acc where
 | ro | rw | st | wo
 deriving DecidableEq, Repr, Inhabited

/-- One row of Tables 18-1 to 18-12: `count` registers of `width` bits, `stride` bytes apart, from `off`; `mask` are the bits the host can write. -/
structure RegRow where
 off : Nat
 width : Nat
 acc : Acc
 reset : Nat
 mask : Nat
 count : Nat := 1
 stride : Nat := 0
 deriving DecidableEq, Repr, Inhabited

namespace Reg

/-- ID, Table 18-1. -/
abbrev ID : Nat := 0x0
/-- VARIANT, Table 18-1. -/
abbrev VARIANT : Nat := 0x4
/-- SERIAL, Table 18-1. -/
abbrev SERIAL : Nat := 0x8
/-- FW_VERSION, Table 18-1. -/
abbrev FW_VERSION : Nat := 0x10
/-- VER_RING, Table 18-1. -/
abbrev VER_RING : Nat := 0x18
/-- VER_DESC, Table 18-1. -/
abbrev VER_DESC : Nat := 0x20
/-- VER_ABI, Table 18-1. -/
abbrev VER_ABI : Nat := 0x28
/-- VER_LINK, Table 18-1. -/
abbrev VER_LINK : Nat := 0x30
/-- VER_IMAGE, Table 18-1. -/
abbrev VER_IMAGE : Nat := 0x38
/-- MODULE_ID, Table 18-1. -/
abbrev MODULE_ID : Nat := 0x40
/-- CH_SQ_BASE, Table 18-2. -/
abbrev CH_SQ_BASE : Nat := 0x0
/-- CH_CQ_BASE, Table 18-2. -/
abbrev CH_CQ_BASE : Nat := 0x8
/-- CH_DB_ADDR, Table 18-2. -/
abbrev CH_DB_ADDR : Nat := 0x10
/-- CH_RING_OFFER, Table 18-2. -/
abbrev CH_RING_OFFER : Nat := 0x18
/-- CH_DESC_OFFER, Table 18-2. -/
abbrev CH_DESC_OFFER : Nat := 0x20
/-- CH_ABI_OFFER, Table 18-2. -/
abbrev CH_ABI_OFFER : Nat := 0x28
/-- CH_CFG, Table 18-2. -/
abbrev CH_CFG : Nat := 0x30
/-- CH_CTRL, Table 18-2. -/
abbrev CH_CTRL : Nat := 0x34
/-- CH_STATUS, Table 18-2. -/
abbrev CH_STATUS : Nat := 0x38
/-- HOST_CFG, Table 18-3. -/
abbrev HOST_CFG : Nat := 0x0
/-- HDM_OFS, Table 18-3. -/
abbrev HDM_OFS : Nat := 0x8
/-- STAGE_SEQ, Table 18-3. -/
abbrev STAGE_SEQ : Nat := 0x10
/-- CONFIG_EPOCH, Table 18-3. -/
abbrev CONFIG_EPOCH : Nat := 0x14
/-- COMMIT_STATUS, Table 18-3. -/
abbrev COMMIT_STATUS : Nat := 0x18
/-- STG_STATE, Table 18-3. -/
abbrev STG_STATE : Nat := 0x20
/-- STG_WAIT_TOTAL, Table 18-3. -/
abbrev STG_WAIT_TOTAL : Nat := 0x28
/-- CQ_STALL_TOTAL, Table 18-3. -/
abbrev CQ_STALL_TOTAL : Nat := 0x30
/-- STG_MIN, Table 18-3. -/
abbrev STG_MIN : Nat := 0x200
/-- CH_PERMIT, Table 18-3. -/
abbrev CH_PERMIT : Nat := 0x400
/-- EV_RING_BASE, Table 18-4. -/
abbrev EV_RING_BASE : Nat := 0x0
/-- EV_DB_ADDR, Table 18-4. -/
abbrev EV_DB_ADDR : Nat := 0x8
/-- EV_CFG, Table 18-4. -/
abbrev EV_CFG : Nat := 0x10
/-- EV_CTRL, Table 18-4. -/
abbrev EV_CTRL : Nat := 0x14
/-- EV_STATUS, Table 18-4. -/
abbrev EV_STATUS : Nat := 0x18
/-- EV_LOST_TOTAL, Table 18-4. -/
abbrev EV_LOST_TOTAL : Nat := 0x20
/-- TM_LAST_TICK, Table 18-4. -/
abbrev TM_LAST_TICK : Nat := 0x28
/-- TM_LAST_HOST, Table 18-4. -/
abbrev TM_LAST_HOST : Nat := 0x30
/-- EV_CTR_CLEAR, Table 18-4. -/
abbrev EV_CTR_CLEAR : Nat := 0x38
/-- HK_CFG, Table 18-5. -/
abbrev HK_CFG : Nat := 0x0
/-- HK_DIAG_CFG, Table 18-5. -/
abbrev HK_DIAG_CFG : Nat := 0x4
/-- HK_SEL, Table 18-5. -/
abbrev HK_SEL : Nat := 0x10
/-- HK_SEL_READING, Table 18-5. -/
abbrev HK_SEL_READING : Nat := 0x18
/-- HK_SEL_COEF, Table 18-5. -/
abbrev HK_SEL_COEF : Nat := 0x20
/-- HK_SYSCAL, Table 18-5. -/
abbrev HK_SYSCAL : Nat := 0x24
/-- HK_SYSCAL_STATUS, Table 18-5. -/
abbrev HK_SYSCAL_STATUS : Nat := 0x28
/-- HK_URG_CTRL, Table 18-5. -/
abbrev HK_URG_CTRL : Nat := 0x30
/-- HK_URG_RESULT, Table 18-5. -/
abbrev HK_URG_RESULT : Nat := 0x34
/-- HK_TDAC_CTRL, Table 18-5. -/
abbrev HK_TDAC_CTRL : Nat := 0x38
/-- HK_TDAC_RESULT, Table 18-5. -/
abbrev HK_TDAC_RESULT : Nat := 0x3c
/-- HK_EXT_FS, Table 18-5. -/
abbrev HK_EXT_FS : Nat := 0x40
/-- HK_PART_SEL, Table 18-5. -/
abbrev HK_PART_SEL : Nat := 0x60
/-- HK_PART_STATE, Table 18-5. -/
abbrev HK_PART_STATE : Nat := 0x68
/-- HK_PART_RELEASE, Table 18-5. -/
abbrev HK_PART_RELEASE : Nat := 0x70
/-- URG_DROP, Table 18-5. -/
abbrev URG_DROP : Nat := 0x80
/-- HK_ROUND_TOTAL, Table 18-5. -/
abbrev HK_ROUND_TOTAL : Nat := 0x88
/-- HK_BROKEN_TOTAL, Table 18-5. -/
abbrev HK_BROKEN_TOTAL : Nat := 0x90
/-- THERM_WARN_TOTAL, Table 18-5. -/
abbrev THERM_WARN_TOTAL : Nat := 0x98
/-- THERM_THROTTLE_TOTAL, Table 18-5. -/
abbrev THERM_THROTTLE_TOTAL : Nat := 0xa0
/-- THERM_SHUTDOWN_TOTAL, Table 18-5. -/
abbrev THERM_SHUTDOWN_TOTAL : Nat := 0xa8
/-- DAMPER_MS_TOTAL, Table 18-5. -/
abbrev DAMPER_MS_TOTAL : Nat := 0xb0
/-- HK_CTR_CLEAR, Table 18-5. -/
abbrev HK_CTR_CLEAR : Nat := 0xb8
/-- PWR_CFG, Table 18-6. -/
abbrev PWR_CFG : Nat := 0x0
/-- PWR_STATUS, Table 18-6. -/
abbrev PWR_STATUS : Nat := 0x8
/-- PWR_LAST_SHUTDOWN, Table 18-6. -/
abbrev PWR_LAST_SHUTDOWN : Nat := 0x10
/-- PWR_ENERGY_TOTAL, Table 18-6. -/
abbrev PWR_ENERGY_TOTAL : Nat := 0x18
/-- PWR_LIMIT_TOTAL, Table 18-6. -/
abbrev PWR_LIMIT_TOTAL : Nat := 0x20
/-- PWR_CTR_CLEAR, Table 18-6. -/
abbrev PWR_CTR_CLEAR : Nat := 0x28
/-- BOOT_STATUS, Table 18-7. -/
abbrev BOOT_STATUS : Nat := 0x0
/-- BOOT_CFG, Table 18-7. -/
abbrev BOOT_CFG : Nat := 0x8
/-- BOOT_DURATION, Table 18-7. -/
abbrev BOOT_DURATION : Nat := 0xc
/-- FW_STATUS, Table 18-7. -/
abbrev FW_STATUS : Nat := 0x10
/-- RESET_STATUS, Table 18-7. -/
abbrev RESET_STATUS : Nat := 0x18
/-- RECOVERY_ADDR, Table 18-7. -/
abbrev RECOVERY_ADDR : Nat := 0x40
/-- RECOVERY_CTRL, Table 18-7. -/
abbrev RECOVERY_CTRL : Nat := 0x48
/-- RECOVERY_STATUS, Table 18-7. -/
abbrev RECOVERY_STATUS : Nat := 0x4c
/-- FW_REFETCH_TOTAL, Table 18-7. -/
abbrev FW_REFETCH_TOTAL : Nat := 0x50
/-- RESET_TOTAL, Table 18-7. -/
abbrev RESET_TOTAL : Nat := 0x58
/-- BOOT_CTR_CLEAR, Table 18-7. -/
abbrev BOOT_CTR_CLEAR : Nat := 0x60
/-- SEC_CFG, Table 18-7. -/
abbrev SEC_CFG : Nat := 0x100
/-- SEC_COUNTERS, Table 18-7. -/
abbrev SEC_COUNTERS : Nat := 0x108
/-- SEC_HSS_STATE, Table 18-7. -/
abbrev SEC_HSS_STATE : Nat := 0x110
/-- SEC_KEY_STATE, Table 18-7. -/
abbrev SEC_KEY_STATE : Nat := 0x118
/-- SEC_DEVICE_KEY_ID, Table 18-7. -/
abbrev SEC_DEVICE_KEY_ID : Nat := 0x120
/-- SEC_VERIFY_FAIL_TOTAL, Table 18-7. -/
abbrev SEC_VERIFY_FAIL_TOTAL : Nat := 0x128
/-- SEC_ATTEST_TOTAL, Table 18-7. -/
abbrev SEC_ATTEST_TOTAL : Nat := 0x130
/-- SEC_CTR_CLEAR, Table 18-7. -/
abbrev SEC_CTR_CLEAR : Nat := 0x138
/-- GP_CFG, Table 18-8. -/
abbrev GP_CFG : Nat := 0x0
/-- GP_STATUS, Table 18-8. -/
abbrev GP_STATUS : Nat := 0x8
/-- GP_NEIGHBOUR, Table 18-8. -/
abbrev GP_NEIGHBOUR : Nat := 0x10
/-- GP_CTRL, Table 18-8. -/
abbrev GP_CTRL : Nat := 0x18
/-- GP_FEC_CORR_TOTAL, Table 18-8. -/
abbrev GP_FEC_CORR_TOTAL : Nat := 0x20
/-- GP_FEC_UNCORR_TOTAL, Table 18-8. -/
abbrev GP_FEC_UNCORR_TOTAL : Nat := 0x28
/-- GP_FCRC_FAIL_TOTAL, Table 18-8. -/
abbrev GP_FCRC_FAIL_TOTAL : Nat := 0x30
/-- GP_TX_FRAMES_TOTAL, Table 18-8. -/
abbrev GP_TX_FRAMES_TOTAL : Nat := 0x38
/-- GP_RX_FRAMES_TOTAL, Table 18-8. -/
abbrev GP_RX_FRAMES_TOTAL : Nat := 0x40
/-- GP_TRANSIT_TOTAL, Table 18-8. -/
abbrev GP_TRANSIT_TOTAL : Nat := 0x48
/-- GP_DROP_TOTAL, Table 18-8. -/
abbrev GP_DROP_TOTAL : Nat := 0x50
/-- GP_RETRAIN_TOTAL, Table 18-8. -/
abbrev GP_RETRAIN_TOTAL : Nat := 0x58
/-- GP_CREDIT_WAIT_TOTAL, Table 18-8. -/
abbrev GP_CREDIT_WAIT_TOTAL : Nat := 0x60
/-- GP_CTR_CLEAR, Table 18-8. -/
abbrev GP_CTR_CLEAR : Nat := 0x68
/-- FAB_CFG, Table 18-9. -/
abbrev FAB_CFG : Nat := 0x400
/-- ENUM_CFG, Table 18-9. -/
abbrev ENUM_CFG : Nat := 0x404
/-- FAB_STATUS, Table 18-9. -/
abbrev FAB_STATUS : Nat := 0x408
/-- FAB_CTRL, Table 18-9. -/
abbrev FAB_CTRL : Nat := 0x410
/-- WIN_NACK_CLOSED_TOTAL, Table 18-9. -/
abbrev WIN_NACK_CLOSED_TOTAL : Nat := 0x418
/-- WIN_NACK_OTHER_TOTAL, Table 18-9. -/
abbrev WIN_NACK_OTHER_TOTAL : Nat := 0x420
/-- REMOTE_RETRY_TOTAL, Table 18-9. -/
abbrev REMOTE_RETRY_TOTAL : Nat := 0x428
/-- REMOTE_TIMEOUT_TOTAL, Table 18-9. -/
abbrev REMOTE_TIMEOUT_TOTAL : Nat := 0x430
/-- FRAME_UNROUTABLE_TOTAL, Table 18-9. -/
abbrev FRAME_UNROUTABLE_TOTAL : Nat := 0x438
/-- FAB_CTR_CLEAR, Table 18-9. -/
abbrev FAB_CTR_CLEAR : Nat := 0x440
/-- TOPO_CFG, Table 18-9. -/
abbrev TOPO_CFG : Nat := 0x480
/-- TOPO_DIM0, Table 18-9. -/
abbrev TOPO_DIM0 : Nat := 0x488
/-- TOPO_DIM1, Table 18-9. -/
abbrev TOPO_DIM1 : Nat := 0x490
/-- TOPO_DIM2, Table 18-9. -/
abbrev TOPO_DIM2 : Nat := 0x498
/-- COORD_STAGE, Table 18-9. -/
abbrev COORD_STAGE : Nat := 0x4a0
/-- TOPO_LIVE0, Table 18-9. -/
abbrev TOPO_LIVE0 : Nat := 0x4a8
/-- TOPO_LIVE1, Table 18-9. -/
abbrev TOPO_LIVE1 : Nat := 0x4b0
/-- TOPO_LIVE2, Table 18-9. -/
abbrev TOPO_LIVE2 : Nat := 0x4b8
/-- COLL_RUN_TOTAL, Table 18-9. -/
abbrev COLL_RUN_TOTAL : Nat := 0x4c0
/-- COLL_RERUN_TOTAL, Table 18-9. -/
abbrev COLL_RERUN_TOTAL : Nat := 0x4c8
/-- COLL_MISMATCH_TOTAL, Table 18-9. -/
abbrev COLL_MISMATCH_TOTAL : Nat := 0x4d0
/-- COLL_FAIL_TOTAL, Table 18-9. -/
abbrev COLL_FAIL_TOTAL : Nat := 0x4d8
/-- TOPO_REPAIR_TOTAL, Table 18-9. -/
abbrev TOPO_REPAIR_TOTAL : Nat := 0x4e0
/-- TOPO_CTR_CLEAR, Table 18-9. -/
abbrev TOPO_CTR_CLEAR : Nat := 0x4e8
/-- ROUTE_STAGE, Table 18-9. -/
abbrev ROUTE_STAGE : Nat := 0x4f0
/-- MEM_CFG, Table 18-10. -/
abbrev MEM_CFG : Nat := 0x100
/-- ATOM_FX64_WORDS_TOTAL, Table 18-10. -/
abbrev ATOM_FX64_WORDS_TOTAL : Nat := 0x108
/-- ATOM_I32_WORDS_TOTAL, Table 18-10. -/
abbrev ATOM_I32_WORDS_TOTAL : Nat := 0x110
/-- ATOM_OVERFLOW_TOTAL, Table 18-10. -/
abbrev ATOM_OVERFLOW_TOTAL : Nat := 0x118
/-- ATOM_SAT_TOTAL, Table 18-10. -/
abbrev ATOM_SAT_TOTAL : Nat := 0x120
/-- ATOM_REFUSED_TOTAL, Table 18-10. -/
abbrev ATOM_REFUSED_TOTAL : Nat := 0x128
/-- MEM_CRC_FAIL_TOTAL, Table 18-10. -/
abbrev MEM_CRC_FAIL_TOTAL : Nat := 0x130
/-- MEM_PATROL_PASS_TOTAL, Table 18-10. -/
abbrev MEM_PATROL_PASS_TOTAL : Nat := 0x138
/-- HBM_ECC_CORR_TOTAL, Table 18-10. -/
abbrev HBM_ECC_CORR_TOTAL : Nat := 0x140
/-- HBM_ECC_UNCORR_TOTAL, Table 18-10. -/
abbrev HBM_ECC_UNCORR_TOTAL : Nat := 0x148
/-- HBM_WAIT_TOTAL, Table 18-10. -/
abbrev HBM_WAIT_TOTAL : Nat := 0x150
/-- MSRAM_WAIT_TOTAL, Table 18-10. -/
abbrev MSRAM_WAIT_TOTAL : Nat := 0x158
/-- MEM_CTR_CLEAR, Table 18-10. -/
abbrev MEM_CTR_CLEAR : Nat := 0x160
/-- VERDICT_STALE_TOTAL, Table 18-10. -/
abbrev VERDICT_STALE_TOTAL : Nat := 0x300
/-- KV_POOL_CFG, Table 18-10. -/
abbrev KV_POOL_CFG : Nat := 0x400
/-- KV_POOL_OFS, Table 18-10. -/
abbrev KV_POOL_OFS : Nat := 0x408
/-- KV_EXP_OFS, Table 18-10. -/
abbrev KV_EXP_OFS : Nat := 0x410
/-- KV_POOL_FRAMES, Table 18-10. -/
abbrev KV_POOL_FRAMES : Nat := 0x418
/-- KV_SLOT_FRAMES, Table 18-10. -/
abbrev KV_SLOT_FRAMES : Nat := 0x41c
/-- KV_POOL_STATE, Table 18-10. -/
abbrev KV_POOL_STATE : Nat := 0x420
/-- KV_ALLOC_TOTAL, Table 18-10. -/
abbrev KV_ALLOC_TOTAL : Nat := 0x428
/-- KV_FREE_TOTAL, Table 18-10. -/
abbrev KV_FREE_TOTAL : Nat := 0x430
/-- KV_DEFER_TOTAL, Table 18-10. -/
abbrev KV_DEFER_TOTAL : Nat := 0x438
/-- KV_PT_CELLS, Table 18-10. -/
abbrev KV_PT_CELLS : Nat := 0x440
/-- KV_CTR_CLEAR, Table 18-10. -/
abbrev KV_CTR_CLEAR : Nat := 0x448
/-- SERVE_CFG, Table 18-10. -/
abbrev SERVE_CFG : Nat := 0x600
/-- SERVE_TIME_CFG, Table 18-10. -/
abbrev SERVE_TIME_CFG : Nat := 0x604
/-- REQ_COUNT_A, Table 18-10. -/
abbrev REQ_COUNT_A : Nat := 0x608
/-- REQ_COUNT_B, Table 18-10. -/
abbrev REQ_COUNT_B : Nat := 0x610
/-- REQ_ADMIT_TOTAL, Table 18-10. -/
abbrev REQ_ADMIT_TOTAL : Nat := 0x618
/-- REQ_LATE_TOTAL, Table 18-10. -/
abbrev REQ_LATE_TOTAL : Nat := 0x620
/-- SPEC_NODES_TOTAL, Table 18-10. -/
abbrev SPEC_NODES_TOTAL : Nat := 0x628
/-- SPEC_ACCEPTED_TOTAL, Table 18-10. -/
abbrev SPEC_ACCEPTED_TOTAL : Nat := 0x630
/-- SPEC_STALE_TOTAL, Table 18-10. -/
abbrev SPEC_STALE_TOTAL : Nat := 0x638
/-- PEAT_OUT_BYTES_TOTAL, Table 18-10. -/
abbrev PEAT_OUT_BYTES_TOTAL : Nat := 0x640
/-- PEAT_IN_BYTES_TOTAL, Table 18-10. -/
abbrev PEAT_IN_BYTES_TOTAL : Nat := 0x648
/-- PEAT_EXPIRED_TOTAL, Table 18-10. -/
abbrev PEAT_EXPIRED_TOTAL : Nat := 0x650
/-- RESUME_FAIL_TOTAL, Table 18-10. -/
abbrev RESUME_FAIL_TOTAL : Nat := 0x658
/-- SERVE_CTR_CLEAR, Table 18-10. -/
abbrev SERVE_CTR_CLEAR : Nat := 0x660
/-- PEAT_TGT_ADDR, Table 18-10. -/
abbrev PEAT_TGT_ADDR : Nat := 0x700
/-- PEAT_TGT_SIZE, Table 18-10. -/
abbrev PEAT_TGT_SIZE : Nat := 0x708
/-- SYNC_CFG, Table 18-10. -/
abbrev SYNC_CFG : Nat := 0x800
/-- SYNC_SEL, Table 18-10. -/
abbrev SYNC_SEL : Nat := 0x804
/-- SYNC_SEL_STATE, Table 18-10. -/
abbrev SYNC_SEL_STATE : Nat := 0x808
/-- SYNC_WAITERS, Table 18-10. -/
abbrev SYNC_WAITERS : Nat := 0x810
/-- SYNC_POST_TOTAL, Table 18-10. -/
abbrev SYNC_POST_TOTAL : Nat := 0x818
/-- SYNC_WAIT_TOTAL, Table 18-10. -/
abbrev SYNC_WAIT_TOTAL : Nat := 0x820
/-- SYNC_REFUSED_TOTAL, Table 18-10. -/
abbrev SYNC_REFUSED_TOTAL : Nat := 0x828
/-- SYNC_CTR_CLEAR, Table 18-10. -/
abbrev SYNC_CTR_CLEAR : Nat := 0x830
/-- CORD_AREA, Table 18-10. -/
abbrev CORD_AREA : Nat := 0x900
/-- WT_CFG, Table 18-11. -/
abbrev WT_CFG : Nat := 0x980
/-- WT_SHARD_IN_TOTAL, Table 18-11. -/
abbrev WT_SHARD_IN_TOTAL : Nat := 0x988
/-- WT_SHARD_FAIL_TOTAL, Table 18-11. -/
abbrev WT_SHARD_FAIL_TOTAL : Nat := 0x990
/-- WT_SHARD_DUP_TOTAL, Table 18-11. -/
abbrev WT_SHARD_DUP_TOTAL : Nat := 0x998
/-- WT_PROG_WEIGHTS_TOTAL, Table 18-11. -/
abbrev WT_PROG_WEIGHTS_TOTAL : Nat := 0x9a0
/-- WT_READBACK_TOTAL, Table 18-11. -/
abbrev WT_READBACK_TOTAL : Nat := 0x9a8
/-- WT_READBACK_MISMATCH_TOTAL, Table 18-11. -/
abbrev WT_READBACK_MISMATCH_TOTAL : Nat := 0x9b0
/-- WT_COPY_REPAIR_TOTAL, Table 18-11. -/
abbrev WT_COPY_REPAIR_TOTAL : Nat := 0x9b8
/-- WT_CTR_CLEAR, Table 18-11. -/
abbrev WT_CTR_CLEAR : Nat := 0x9c0
/-- AE_CFG, Table 18-12. -/
abbrev AE_CFG : Nat := 0x100
/-- AE_READ_CFG, Table 18-12. -/
abbrev AE_READ_CFG : Nat := 0x104
/-- AE_SEL, Table 18-12. -/
abbrev AE_SEL : Nat := 0x110
/-- AE_SEL_STATE, Table 18-12. -/
abbrev AE_SEL_STATE : Nat := 0x118
/-- AE_SEL_CONV, Table 18-12. -/
abbrev AE_SEL_CONV : Nat := 0x120
/-- AE_SEL_CLIP, Table 18-12. -/
abbrev AE_SEL_CLIP : Nat := 0x128
/-- AE_CONV_TOTAL, Table 18-12. -/
abbrev AE_CONV_TOTAL : Nat := 0x130
/-- AE_CLIP_TOTAL, Table 18-12. -/
abbrev AE_CLIP_TOTAL : Nat := 0x138
/-- AE_REFCLIP_TOTAL, Table 18-12. -/
abbrev AE_REFCLIP_TOTAL : Nat := 0x140
/-- AE_OVERBUDGET_TOTAL, Table 18-12. -/
abbrev AE_OVERBUDGET_TOTAL : Nat := 0x148
/-- AE_PROG_ABORT_TOTAL, Table 18-12. -/
abbrev AE_PROG_ABORT_TOTAL : Nat := 0x150
/-- AE_READ_AMBIG_TOTAL, Table 18-12. -/
abbrev AE_READ_AMBIG_TOTAL : Nat := 0x158
/-- AE_READ_MARGIN_TOTAL, Table 18-12. -/
abbrev AE_READ_MARGIN_TOTAL : Nat := 0x160
/-- AE_SET_WAIT_TOTAL, Table 18-12. -/
abbrev AE_SET_WAIT_TOTAL : Nat := 0x168
/-- AE_CTR_CLEAR, Table 18-12. -/
abbrev AE_CTR_CLEAR : Nat := 0x170
/-- DC_CFG, Table 18-12. -/
abbrev DC_CFG : Nat := 0x200
/-- DC_TROUBLE_CLIP_TOTAL, Table 18-12. -/
abbrev DC_TROUBLE_CLIP_TOTAL : Nat := 0x208
/-- DC_TROUBLE_SIDE_TOTAL, Table 18-12. -/
abbrev DC_TROUBLE_SIDE_TOTAL : Nat := 0x210
/-- DC_TROUBLE_RANGE_TOTAL, Table 18-12. -/
abbrev DC_TROUBLE_RANGE_TOTAL : Nat := 0x218
/-- DC_TROUBLE_SAT_TOTAL, Table 18-12. -/
abbrev DC_TROUBLE_SAT_TOTAL : Nat := 0x220
/-- DC_REPEAT_A8_TOTAL, Table 18-12. -/
abbrev DC_REPEAT_A8_TOTAL : Nat := 0x228
/-- DC_REPEAT_D8_TOTAL, Table 18-12. -/
abbrev DC_REPEAT_D8_TOTAL : Nat := 0x230
/-- DC_REPEAT_D16_TOTAL, Table 18-12. -/
abbrev DC_REPEAT_D16_TOTAL : Nat := 0x238
/-- DC_EXHAUSTED_TOTAL, Table 18-12. -/
abbrev DC_EXHAUSTED_TOTAL : Nat := 0x240
/-- DC_CLIP_ACCEPTED_TOTAL, Table 18-12. -/
abbrev DC_CLIP_ACCEPTED_TOTAL : Nat := 0x248
/-- DC_HELD_CYCLES_TOTAL, Table 18-12. -/
abbrev DC_HELD_CYCLES_TOTAL : Nat := 0x250
/-- DC_CTR_CLEAR, Table 18-12. -/
abbrev DC_CTR_CLEAR : Nat := 0x258
/-- CAL_CFG, Table 18-12. -/
abbrev CAL_CFG : Nat := 0x300
/-- CAL_FIT_CFG, Table 18-12. -/
abbrev CAL_FIT_CFG : Nat := 0x304
/-- CAL_SAVE_CFG, Table 18-12. -/
abbrev CAL_SAVE_CFG : Nat := 0x308
/-- CAL_EPOCH, Table 18-12. -/
abbrev CAL_EPOCH : Nat := 0x310
/-- CAL_STATUS, Table 18-12. -/
abbrev CAL_STATUS : Nat := 0x314
/-- CAL_LAST_TEMP, Table 18-12. -/
abbrev CAL_LAST_TEMP : Nat := 0x318
/-- CAL_LAST_RUN_TICK, Table 18-12. -/
abbrev CAL_LAST_RUN_TICK : Nat := 0x320
/-- CAL_LAST_MARK_TICK, Table 18-12. -/
abbrev CAL_LAST_MARK_TICK : Nat := 0x328
/-- CAL_LAST_MARK_HOST, Table 18-12. -/
abbrev CAL_LAST_MARK_HOST : Nat := 0x330
/-- CAL_RUN_TOTAL, Table 18-12. -/
abbrev CAL_RUN_TOTAL : Nat := 0x338
/-- CAL_RETIRE_TOTAL, Table 18-12. -/
abbrev CAL_RETIRE_TOTAL : Nat := 0x340
/-- CAL_DEVIATION_TOTAL, Table 18-12. -/
abbrev CAL_DEVIATION_TOTAL : Nat := 0x348
/-- CAL_SEL_COUNT, Table 18-12. -/
abbrev CAL_SEL_COUNT : Nat := 0x350
/-- CAL_LANE_SEL, Table 18-12. -/
abbrev CAL_LANE_SEL : Nat := 0x358
/-- CAL_LANE_FIT, Table 18-12. -/
abbrev CAL_LANE_FIT : Nat := 0x360
/-- CAL_LANE_TRIM, Table 18-12. -/
abbrev CAL_LANE_TRIM : Nat := 0x368
/-- CAL_REQUEST, Table 18-12. -/
abbrev CAL_REQUEST : Nat := 0x370
/-- CAL_CTR_CLEAR, Table 18-12. -/
abbrev CAL_CTR_CLEAR : Nat := 0x374
/-- CAL_DROP_TOTAL, Table 18-12. -/
abbrev CAL_DROP_TOTAL : Nat := 0x378
/-- SP_CFG, Table 18-12. -/
abbrev SP_CFG : Nat := 0x400
/-- SP_PWR_OFF, Table 18-12. -/
abbrev SP_PWR_OFF : Nat := 0x404
/-- SP_PWR_STATE, Table 18-12. -/
abbrev SP_PWR_STATE : Nat := 0x408
/-- SP_WAIT_LOCAL_TOTAL, Table 18-12. -/
abbrev SP_WAIT_LOCAL_TOTAL : Nat := 0x410
/-- SP_WAIT_BANK_TOTAL, Table 18-12. -/
abbrev SP_WAIT_BANK_TOTAL : Nat := 0x418
/-- SP_WAIT_CORE_TOTAL, Table 18-12. -/
abbrev SP_WAIT_CORE_TOTAL : Nat := 0x420
/-- SP_WAIT_CLUSTER_TOTAL, Table 18-12. -/
abbrev SP_WAIT_CLUSTER_TOTAL : Nat := 0x428
/-- SP_WAIT_DIE_TOTAL, Table 18-12. -/
abbrev SP_WAIT_DIE_TOTAL : Nat := 0x430
/-- SP_WAIT_MSRAM_TOTAL, Table 18-12. -/
abbrev SP_WAIT_MSRAM_TOTAL : Nat := 0x438
/-- SP_WAIT_HBM_TOTAL, Table 18-12. -/
abbrev SP_WAIT_HBM_TOTAL : Nat := 0x440
/-- SP_SEL_WAIT, Table 18-12. -/
abbrev SP_SEL_WAIT : Nat := 0x448
/-- SP_CRC_FAIL_TOTAL, Table 18-12. -/
abbrev SP_CRC_FAIL_TOTAL : Nat := 0x450
/-- SP_CRC_RETRY_OK_TOTAL, Table 18-12. -/
abbrev SP_CRC_RETRY_OK_TOTAL : Nat := 0x458
/-- SP_POISON_READ_TOTAL, Table 18-12. -/
abbrev SP_POISON_READ_TOTAL : Nat := 0x460
/-- SP_PARTIAL_READ_TOTAL, Table 18-12. -/
abbrev SP_PARTIAL_READ_TOTAL : Nat := 0x468
/-- SP_BANK_OFF_ACCESS_TOTAL, Table 18-12. -/
abbrev SP_BANK_OFF_ACCESS_TOTAL : Nat := 0x470
/-- SP_CLASS_MISMATCH_TOTAL, Table 18-12. -/
abbrev SP_CLASS_MISMATCH_TOTAL : Nat := 0x478
/-- DMA_SKIPPED_TOTAL, Table 18-12. -/
abbrev DMA_SKIPPED_TOTAL : Nat := 0x480
/-- SP_CTR_CLEAR, Table 18-12. -/
abbrev SP_CTR_CLEAR : Nat := 0x488
/-- ATT_WALK_TOTAL, Table 18-12. -/
abbrev ATT_WALK_TOTAL : Nat := 0x500
/-- ATT_RESCALE_TOTAL, Table 18-12. -/
abbrev ATT_RESCALE_TOTAL : Nat := 0x508
/-- ATT_MERGE_TOTAL, Table 18-12. -/
abbrev ATT_MERGE_TOTAL : Nat := 0x510
/-- ATT_PAD_ROW_TOTAL, Table 18-12. -/
abbrev ATT_PAD_ROW_TOTAL : Nat := 0x518
/-- KV_BAD_CODE, Table 18-12. -/
abbrev KV_BAD_CODE : Nat := 0x520
/-- ATT_FAULT_TOTAL, Table 18-12. -/
abbrev ATT_FAULT_TOTAL : Nat := 0x528
/-- ATT_CTR_CLEAR, Table 18-12. -/
abbrev ATT_CTR_CLEAR : Nat := 0x530
/-- WQ_CFG, Table 18-12. -/
abbrev WQ_CFG : Nat := 0x600
/-- WQ_SEL_STATE, Table 18-12. -/
abbrev WQ_SEL_STATE : Nat := 0x608
/-- SEQ_SEL_STATE, Table 18-12. -/
abbrev SEQ_SEL_STATE : Nat := 0x610
/-- WQ_LEVEL_TOTAL, Table 18-12. -/
abbrev WQ_LEVEL_TOTAL : Nat := 0x618
/-- WQ_FLUSH_DISCARD_TOTAL, Table 18-12. -/
abbrev WQ_FLUSH_DISCARD_TOTAL : Nat := 0x620
/-- WQ_REFUSED_TOTAL, Table 18-12. -/
abbrev WQ_REFUSED_TOTAL : Nat := 0x628
/-- WQ_HOLD_CYCLES_TOTAL, Table 18-12. -/
abbrev WQ_HOLD_CYCLES_TOTAL : Nat := 0x630
/-- SEQ_FAULT_TOTAL, Table 18-12. -/
abbrev SEQ_FAULT_TOTAL : Nat := 0x638
/-- SEQ_ISSUE_STALL_TOTAL, Table 18-12. -/
abbrev SEQ_ISSUE_STALL_TOTAL : Nat := 0x640
/-- WQ_CTR_CLEAR, Table 18-12. -/
abbrev WQ_CTR_CLEAR : Nat := 0x648
/-- SE_CFG, Table 18-12. -/
abbrev SE_CFG : Nat := 0x700
/-- SE_FLEET_CFG, Table 18-12. -/
abbrev SE_FLEET_CFG : Nat := 0x704
/-- SE_SCAN_STATE, Table 18-12. -/
abbrev SE_SCAN_STATE : Nat := 0x708
/-- SE_SEL_FAULTS, Table 18-12. -/
abbrev SE_SEL_FAULTS : Nat := 0x70c
/-- SE_ARITH_DETECT_TOTAL, Table 18-12. -/
abbrev SE_ARITH_DETECT_TOTAL : Nat := 0x710
/-- SE_REF_DETECT_TOTAL, Table 18-12. -/
abbrev SE_REF_DETECT_TOTAL : Nat := 0x718
/-- SE_REDUCE_DIGEST_TOTAL, Table 18-12. -/
abbrev SE_REDUCE_DIGEST_TOTAL : Nat := 0x720
/-- SE_STEP_ABANDON_TOTAL, Table 18-12. -/
abbrev SE_STEP_ABANDON_TOTAL : Nat := 0x728
/-- SE_REWIND_SEQ_TOTAL, Table 18-12. -/
abbrev SE_REWIND_SEQ_TOTAL : Nat := 0x730
/-- SE_WINDOW_TRUNC_TOTAL, Table 18-12. -/
abbrev SE_WINDOW_TRUNC_TOTAL : Nat := 0x738
/-- SE_FLEET_RUN_TOTAL, Table 18-12. -/
abbrev SE_FLEET_RUN_TOTAL : Nat := 0x740
/-- SE_FLEET_FAIL_TOTAL, Table 18-12. -/
abbrev SE_FLEET_FAIL_TOTAL : Nat := 0x748
/-- SE_SCAN_TOTAL, Table 18-12. -/
abbrev SE_SCAN_TOTAL : Nat := 0x750
/-- SE_SCAN_FAIL_TOTAL, Table 18-12. -/
abbrev SE_SCAN_FAIL_TOTAL : Nat := 0x758
/-- SE_CTR_CLEAR, Table 18-12. -/
abbrev SE_CTR_CLEAR : Nat := 0x760

end Reg

/-- Table 18-1. -/
def identityRegs : List RegRow :=
  [⟨Reg.ID, 32, .ro, 0x0, 0x0, 1, 0⟩,
   ⟨Reg.VARIANT, 32, .ro, 0x0, 0x0, 1, 0⟩,
   ⟨Reg.SERIAL, 64, .ro, 0x0, 0x0, 1, 0⟩,
   ⟨Reg.FW_VERSION, 32, .ro, 0x0, 0x0, 1, 0⟩,
   ⟨Reg.VER_RING, 64, .ro, 0x1030201, 0x0, 1, 0⟩,
   ⟨Reg.VER_DESC, 64, .ro, 0x2040300, 0x0, 1, 0⟩,
   ⟨Reg.VER_ABI, 64, .ro, 0x105, 0x0, 1, 0⟩,
   ⟨Reg.VER_LINK, 64, .ro, 0x3020400, 0x0, 1, 0⟩,
   ⟨Reg.VER_IMAGE, 64, .ro, 0x202, 0x0, 1, 0⟩,
   ⟨Reg.MODULE_ID, 32, .ro, 0x0, 0x0, 1, 0⟩]

/-- Table 18-2. -/
def channelRegs : List RegRow :=
  [⟨Reg.CH_SQ_BASE, 64, .rw, 0x0, 0xffffffffffffffff, 1, 0⟩,
   ⟨Reg.CH_CQ_BASE, 64, .rw, 0x0, 0xffffffffffffffff, 1, 0⟩,
   ⟨Reg.CH_DB_ADDR, 64, .rw, 0x0, 0xffffffffffffffff, 1, 0⟩,
   ⟨Reg.CH_RING_OFFER, 64, .rw, 0x0, 0xffffffffffffffff, 1, 0⟩,
   ⟨Reg.CH_DESC_OFFER, 64, .rw, 0x0, 0xffffffffffffffff, 1, 0⟩,
   ⟨Reg.CH_ABI_OFFER, 64, .rw, 0x0, 0xffffffffffffffff, 1, 0⟩,
   ⟨Reg.CH_CFG, 32, .rw, 0x0, 0x7ffffff, 1, 0⟩,
   ⟨Reg.CH_CTRL, 32, .wo, 0x0, 0x0, 1, 0⟩,
   ⟨Reg.CH_STATUS, 64, .ro, 0x0, 0x0, 1, 0⟩]

/-- Table 18-3. -/
def stagingRegs : List RegRow :=
  [⟨Reg.HOST_CFG, 32, .st, 0x1400, 0x7ffff, 1, 0⟩,
   ⟨Reg.HDM_OFS, 64, .st, 0x0, 0xfffffffff, 1, 0⟩,
   ⟨Reg.STAGE_SEQ, 32, .ro, 0x0, 0x0, 1, 0⟩,
   ⟨Reg.CONFIG_EPOCH, 32, .ro, 0x0, 0x0, 1, 0⟩,
   ⟨Reg.COMMIT_STATUS, 64, .ro, 0x0, 0x0, 1, 0⟩,
   ⟨Reg.STG_STATE, 32, .ro, 0x1001000, 0x0, 1, 0⟩,
   ⟨Reg.STG_WAIT_TOTAL, 64, .ro, 0x0, 0x0, 1, 0⟩,
   ⟨Reg.CQ_STALL_TOTAL, 64, .ro, 0x0, 0x0, 1, 0⟩,
   ⟨Reg.STG_MIN, 16, .st, 0x8, 0x7f, 256, 2⟩,
   ⟨Reg.CH_PERMIT, 16, .st, 0x3ff, 0x3ff, 256, 2⟩]

/-- Table 18-4. -/
def eventRegs : List RegRow :=
  [⟨Reg.EV_RING_BASE, 64, .rw, 0x0, 0xffffffffffffffff, 1, 0⟩,
   ⟨Reg.EV_DB_ADDR, 64, .rw, 0x0, 0xffffffffffffffff, 1, 0⟩,
   ⟨Reg.EV_CFG, 32, .rw, 0x0, 0x3fff, 1, 0⟩,
   ⟨Reg.EV_CTRL, 32, .wo, 0x0, 0x0, 1, 0⟩,
   ⟨Reg.EV_STATUS, 32, .ro, 0x0, 0x0, 1, 0⟩,
   ⟨Reg.EV_LOST_TOTAL, 64, .ro, 0x0, 0x0, 1, 0⟩,
   ⟨Reg.TM_LAST_TICK, 64, .ro, 0x0, 0x0, 1, 0⟩,
   ⟨Reg.TM_LAST_HOST, 64, .ro, 0x0, 0x0, 1, 0⟩,
   ⟨Reg.EV_CTR_CLEAR, 32, .wo, 0x0, 0x0, 1, 0⟩]

/-- Table 18-5. -/
def hkRegs : List RegRow :=
  [⟨Reg.HK_CFG, 32, .st, 0x28f22, 0x7ffff, 1, 0⟩,
   ⟨Reg.HK_DIAG_CFG, 32, .st, 0x100, 0xfff, 1, 0⟩,
   ⟨Reg.HK_SEL, 32, .rw, 0x0, 0x7f, 1, 0⟩,
   ⟨Reg.HK_SEL_READING, 64, .ro, 0x0, 0x0, 1, 0⟩,
   ⟨Reg.HK_SEL_COEF, 32, .ro, 0x0, 0x0, 1, 0⟩,
   ⟨Reg.HK_SYSCAL, 32, .wo, 0x0, 0x0, 1, 0⟩,
   ⟨Reg.HK_SYSCAL_STATUS, 32, .ro, 0x0, 0x0, 1, 0⟩,
   ⟨Reg.HK_URG_CTRL, 32, .wo, 0x0, 0x0, 1, 0⟩,
   ⟨Reg.HK_URG_RESULT, 32, .ro, 0x0, 0x0, 1, 0⟩,
   ⟨Reg.HK_TDAC_CTRL, 32, .wo, 0x0, 0x0, 1, 0⟩,
   ⟨Reg.HK_TDAC_RESULT, 32, .ro, 0x0, 0x0, 1, 0⟩,
   ⟨Reg.HK_EXT_FS, 32, .st, 0x7530, 0xffff, 8, 4⟩,
   ⟨Reg.HK_PART_SEL, 32, .rw, 0x0, 0x7f, 1, 0⟩,
   ⟨Reg.HK_PART_STATE, 64, .ro, 0x0, 0x0, 1, 0⟩,
   ⟨Reg.HK_PART_RELEASE, 32, .wo, 0x0, 0x0, 1, 0⟩,
   ⟨Reg.URG_DROP, 64, .ro, 0x0, 0x0, 1, 0⟩,
   ⟨Reg.HK_ROUND_TOTAL, 64, .ro, 0x0, 0x0, 1, 0⟩,
   ⟨Reg.HK_BROKEN_TOTAL, 64, .ro, 0x0, 0x0, 1, 0⟩,
   ⟨Reg.THERM_WARN_TOTAL, 64, .ro, 0x0, 0x0, 1, 0⟩,
   ⟨Reg.THERM_THROTTLE_TOTAL, 64, .ro, 0x0, 0x0, 1, 0⟩,
   ⟨Reg.THERM_SHUTDOWN_TOTAL, 64, .ro, 0x0, 0x0, 1, 0⟩,
   ⟨Reg.DAMPER_MS_TOTAL, 64, .ro, 0x0, 0x0, 1, 0⟩,
   ⟨Reg.HK_CTR_CLEAR, 32, .wo, 0x0, 0x0, 1, 0⟩]

/-- Table 18-6. -/
def powerRegs : List RegRow :=
  [⟨Reg.PWR_CFG, 32, .st, 0x196a4, 0x3ffff, 1, 0⟩,
   ⟨Reg.PWR_STATUS, 64, .ro, 0x0, 0x0, 1, 0⟩,
   ⟨Reg.PWR_LAST_SHUTDOWN, 64, .ro, 0x0, 0x0, 1, 0⟩,
   ⟨Reg.PWR_ENERGY_TOTAL, 64, .ro, 0x0, 0x0, 1, 0⟩,
   ⟨Reg.PWR_LIMIT_TOTAL, 64, .ro, 0x0, 0x0, 1, 0⟩,
   ⟨Reg.PWR_CTR_CLEAR, 32, .wo, 0x0, 0x0, 1, 0⟩]

/-- Table 18-7. -/
def securityRegs : List RegRow :=
  [⟨Reg.BOOT_STATUS, 64, .ro, 0x0, 0x0, 1, 0⟩,
   ⟨Reg.BOOT_CFG, 32, .st, 0x21479, 0x3ffff, 1, 0⟩,
   ⟨Reg.BOOT_DURATION, 32, .ro, 0x0, 0x0, 1, 0⟩,
   ⟨Reg.FW_STATUS, 64, .ro, 0x0, 0x0, 1, 0⟩,
   ⟨Reg.RESET_STATUS, 64, .ro, 0x0, 0x0, 1, 0⟩,
   ⟨Reg.RECOVERY_ADDR, 64, .rw, 0x0, 0xffffffffffffffff, 1, 0⟩,
   ⟨Reg.RECOVERY_CTRL, 32, .wo, 0x0, 0x0, 1, 0⟩,
   ⟨Reg.RECOVERY_STATUS, 32, .ro, 0x0, 0x0, 1, 0⟩,
   ⟨Reg.FW_REFETCH_TOTAL, 64, .ro, 0x0, 0x0, 1, 0⟩,
   ⟨Reg.RESET_TOTAL, 64, .ro, 0x0, 0x0, 1, 0⟩,
   ⟨Reg.BOOT_CTR_CLEAR, 32, .wo, 0x0, 0x0, 1, 0⟩,
   ⟨Reg.SEC_CFG, 32, .st, 0x132, 0x1ff, 1, 0⟩,
   ⟨Reg.SEC_COUNTERS, 32, .ro, 0x0, 0x0, 1, 0⟩,
   ⟨Reg.SEC_HSS_STATE, 64, .ro, 0x0, 0x0, 1, 0⟩,
   ⟨Reg.SEC_KEY_STATE, 32, .ro, 0x0, 0x0, 1, 0⟩,
   ⟨Reg.SEC_DEVICE_KEY_ID, 64, .ro, 0x0, 0x0, 1, 0⟩,
   ⟨Reg.SEC_VERIFY_FAIL_TOTAL, 64, .ro, 0x0, 0x0, 1, 0⟩,
   ⟨Reg.SEC_ATTEST_TOTAL, 64, .ro, 0x0, 0x0, 1, 0⟩,
   ⟨Reg.SEC_CTR_CLEAR, 32, .wo, 0x0, 0x0, 1, 0⟩]

/-- Table 18-8. -/
def portRegs : List RegRow :=
  [⟨Reg.GP_CFG, 32, .st, 0x31007, 0xfff07, 1, 0⟩,
   ⟨Reg.GP_STATUS, 64, .ro, 0x0, 0x0, 1, 0⟩,
   ⟨Reg.GP_NEIGHBOUR, 64, .ro, 0x0, 0x0, 1, 0⟩,
   ⟨Reg.GP_CTRL, 32, .wo, 0x0, 0x0, 1, 0⟩,
   ⟨Reg.GP_FEC_CORR_TOTAL, 64, .ro, 0x0, 0x0, 1, 0⟩,
   ⟨Reg.GP_FEC_UNCORR_TOTAL, 64, .ro, 0x0, 0x0, 1, 0⟩,
   ⟨Reg.GP_FCRC_FAIL_TOTAL, 64, .ro, 0x0, 0x0, 1, 0⟩,
   ⟨Reg.GP_TX_FRAMES_TOTAL, 64, .ro, 0x0, 0x0, 1, 0⟩,
   ⟨Reg.GP_RX_FRAMES_TOTAL, 64, .ro, 0x0, 0x0, 1, 0⟩,
   ⟨Reg.GP_TRANSIT_TOTAL, 64, .ro, 0x0, 0x0, 1, 0⟩,
   ⟨Reg.GP_DROP_TOTAL, 64, .ro, 0x0, 0x0, 1, 0⟩,
   ⟨Reg.GP_RETRAIN_TOTAL, 64, .ro, 0x0, 0x0, 1, 0⟩,
   ⟨Reg.GP_CREDIT_WAIT_TOTAL, 64, .ro, 0x0, 0x0, 1, 0⟩,
   ⟨Reg.GP_CTR_CLEAR, 32, .wo, 0x0, 0x0, 1, 0⟩]

/-- Table 18-9. -/
def fabricRegs : List RegRow :=
  [⟨Reg.FAB_CFG, 32, .st, 0x3214, 0xf7ff, 1, 0⟩,
   ⟨Reg.ENUM_CFG, 32, .st, 0x0, 0xffff, 1, 0⟩,
   ⟨Reg.FAB_STATUS, 64, .ro, 0x0, 0x0, 1, 0⟩,
   ⟨Reg.FAB_CTRL, 32, .wo, 0x0, 0x0, 1, 0⟩,
   ⟨Reg.WIN_NACK_CLOSED_TOTAL, 64, .ro, 0x0, 0x0, 1, 0⟩,
   ⟨Reg.WIN_NACK_OTHER_TOTAL, 64, .ro, 0x0, 0x0, 1, 0⟩,
   ⟨Reg.REMOTE_RETRY_TOTAL, 64, .ro, 0x0, 0x0, 1, 0⟩,
   ⟨Reg.REMOTE_TIMEOUT_TOTAL, 64, .ro, 0x0, 0x0, 1, 0⟩,
   ⟨Reg.FRAME_UNROUTABLE_TOTAL, 64, .ro, 0x0, 0x0, 1, 0⟩,
   ⟨Reg.FAB_CTR_CLEAR, 32, .wo, 0x0, 0x0, 1, 0⟩,
   ⟨Reg.TOPO_CFG, 32, .st, 0xa327, 0xfffff, 1, 0⟩,
   ⟨Reg.TOPO_DIM0, 64, .st, 0xfe00001, 0x1fffffff, 1, 0⟩,
   ⟨Reg.TOPO_DIM1, 64, .st, 0xfe00001, 0x1fffffff, 1, 0⟩,
   ⟨Reg.TOPO_DIM2, 64, .st, 0xfe00001, 0x1fffffff, 1, 0⟩,
   ⟨Reg.COORD_STAGE, 64, .st, 0x0, 0x7fffffffff, 1, 0⟩,
   ⟨Reg.TOPO_LIVE0, 64, .ro, 0x0, 0x0, 1, 0⟩,
   ⟨Reg.TOPO_LIVE1, 64, .ro, 0x0, 0x0, 1, 0⟩,
   ⟨Reg.TOPO_LIVE2, 64, .ro, 0x0, 0x0, 1, 0⟩,
   ⟨Reg.COLL_RUN_TOTAL, 64, .ro, 0x0, 0x0, 1, 0⟩,
   ⟨Reg.COLL_RERUN_TOTAL, 64, .ro, 0x0, 0x0, 1, 0⟩,
   ⟨Reg.COLL_MISMATCH_TOTAL, 64, .ro, 0x0, 0x0, 1, 0⟩,
   ⟨Reg.COLL_FAIL_TOTAL, 64, .ro, 0x0, 0x0, 1, 0⟩,
   ⟨Reg.TOPO_REPAIR_TOTAL, 64, .ro, 0x0, 0x0, 1, 0⟩,
   ⟨Reg.TOPO_CTR_CLEAR, 32, .wo, 0x0, 0x0, 1, 0⟩,
   ⟨Reg.ROUTE_STAGE, 64, .st, 0x0, 0x1fffff, 1, 0⟩]

/-- Table 18-10, part 1. -/
def mdieRegs0 : List RegRow :=
  [⟨Reg.MEM_CFG, 32, .st, 0x1802, 0xff03, 1, 0⟩,
   ⟨Reg.ATOM_FX64_WORDS_TOTAL, 64, .ro, 0x0, 0x0, 1, 0⟩,
   ⟨Reg.ATOM_I32_WORDS_TOTAL, 64, .ro, 0x0, 0x0, 1, 0⟩,
   ⟨Reg.ATOM_OVERFLOW_TOTAL, 64, .ro, 0x0, 0x0, 1, 0⟩,
   ⟨Reg.ATOM_SAT_TOTAL, 64, .ro, 0x0, 0x0, 1, 0⟩,
   ⟨Reg.ATOM_REFUSED_TOTAL, 64, .ro, 0x0, 0x0, 1, 0⟩,
   ⟨Reg.MEM_CRC_FAIL_TOTAL, 64, .ro, 0x0, 0x0, 1, 0⟩,
   ⟨Reg.MEM_PATROL_PASS_TOTAL, 64, .ro, 0x0, 0x0, 1, 0⟩,
   ⟨Reg.HBM_ECC_CORR_TOTAL, 64, .ro, 0x0, 0x0, 1, 0⟩,
   ⟨Reg.HBM_ECC_UNCORR_TOTAL, 64, .ro, 0x0, 0x0, 1, 0⟩,
   ⟨Reg.HBM_WAIT_TOTAL, 64, .ro, 0x0, 0x0, 1, 0⟩,
   ⟨Reg.MSRAM_WAIT_TOTAL, 64, .ro, 0x0, 0x0, 1, 0⟩,
   ⟨Reg.MEM_CTR_CLEAR, 32, .wo, 0x0, 0x0, 1, 0⟩,
   ⟨Reg.VERDICT_STALE_TOTAL, 64, .ro, 0x0, 0x0, 1, 0⟩,
   ⟨Reg.KV_POOL_CFG, 32, .st, 0x40000, 0xffffff03, 1, 0⟩,
   ⟨Reg.KV_POOL_OFS, 64, .st, 0x0, 0xfffffffff, 1, 0⟩,
   ⟨Reg.KV_EXP_OFS, 64, .st, 0x0, 0xfffffffff, 1, 0⟩,
   ⟨Reg.KV_POOL_FRAMES, 32, .st, 0x0, 0x1ffffff, 1, 0⟩,
   ⟨Reg.KV_SLOT_FRAMES, 32, .ro, 0x0, 0x0, 1, 0⟩,
   ⟨Reg.KV_POOL_STATE, 64, .ro, 0x0, 0x0, 1, 0⟩,
   ⟨Reg.KV_ALLOC_TOTAL, 64, .ro, 0x0, 0x0, 1, 0⟩,
   ⟨Reg.KV_FREE_TOTAL, 64, .ro, 0x0, 0x0, 1, 0⟩,
   ⟨Reg.KV_DEFER_TOTAL, 64, .ro, 0x0, 0x0, 1, 0⟩,
   ⟨Reg.KV_PT_CELLS, 32, .ro, 0x0, 0x0, 1, 0⟩,
   ⟨Reg.KV_CTR_CLEAR, 32, .wo, 0x0, 0x0, 1, 0⟩,
   ⟨Reg.SERVE_CFG, 32, .st, 0x1800200, 0x1ffffff, 1, 0⟩,
   ⟨Reg.SERVE_TIME_CFG, 32, .st, 0x14003c, 0xffffff, 1, 0⟩,
   ⟨Reg.REQ_COUNT_A, 64, .ro, 0x0, 0x0, 1, 0⟩,
   ⟨Reg.REQ_COUNT_B, 64, .ro, 0x40000, 0x0, 1, 0⟩,
   ⟨Reg.REQ_ADMIT_TOTAL, 64, .ro, 0x0, 0x0, 1, 0⟩]

/-- Table 18-10, part 2. -/
def mdieRegs1 : List RegRow :=
  [⟨Reg.REQ_LATE_TOTAL, 64, .ro, 0x0, 0x0, 1, 0⟩,
   ⟨Reg.SPEC_NODES_TOTAL, 64, .ro, 0x0, 0x0, 1, 0⟩,
   ⟨Reg.SPEC_ACCEPTED_TOTAL, 64, .ro, 0x0, 0x0, 1, 0⟩,
   ⟨Reg.SPEC_STALE_TOTAL, 64, .ro, 0x0, 0x0, 1, 0⟩,
   ⟨Reg.PEAT_OUT_BYTES_TOTAL, 64, .ro, 0x0, 0x0, 1, 0⟩,
   ⟨Reg.PEAT_IN_BYTES_TOTAL, 64, .ro, 0x0, 0x0, 1, 0⟩,
   ⟨Reg.PEAT_EXPIRED_TOTAL, 64, .ro, 0x0, 0x0, 1, 0⟩,
   ⟨Reg.RESUME_FAIL_TOTAL, 64, .ro, 0x0, 0x0, 1, 0⟩,
   ⟨Reg.SERVE_CTR_CLEAR, 32, .wo, 0x0, 0x0, 1, 0⟩,
   ⟨Reg.PEAT_TGT_ADDR, 64, .st, 0x0, 0xffffffffffffffff, 8, 16⟩,
   ⟨Reg.PEAT_TGT_SIZE, 64, .st, 0x0, 0x3ffffffffffff, 8, 16⟩,
   ⟨Reg.SYNC_CFG, 32, .st, 0x3e8, 0xffff, 1, 0⟩,
   ⟨Reg.SYNC_SEL, 32, .rw, 0x0, 0x3ff, 1, 0⟩,
   ⟨Reg.SYNC_SEL_STATE, 64, .ro, 0x0, 0x0, 1, 0⟩,
   ⟨Reg.SYNC_WAITERS, 32, .ro, 0x0, 0x0, 1, 0⟩,
   ⟨Reg.SYNC_POST_TOTAL, 64, .ro, 0x0, 0x0, 1, 0⟩,
   ⟨Reg.SYNC_WAIT_TOTAL, 64, .ro, 0x0, 0x0, 1, 0⟩,
   ⟨Reg.SYNC_REFUSED_TOTAL, 64, .ro, 0x0, 0x0, 1, 0⟩,
   ⟨Reg.SYNC_CTR_CLEAR, 32, .wo, 0x0, 0x0, 1, 0⟩,
   ⟨Reg.CORD_AREA, 64, .st, 0x14000000000000, 0xfff00fffffffff, 1, 0⟩]

/-- Table 18-10. -/
def mdieRegs : List RegRow := mdieRegs0 ++ mdieRegs1

/-- Table 18-11. -/
def weightRegs : List RegRow :=
  [⟨Reg.WT_CFG, 32, .st, 0x18ca2018, 0x1fffffff, 1, 0⟩,
   ⟨Reg.WT_SHARD_IN_TOTAL, 64, .ro, 0x0, 0x0, 1, 0⟩,
   ⟨Reg.WT_SHARD_FAIL_TOTAL, 64, .ro, 0x0, 0x0, 1, 0⟩,
   ⟨Reg.WT_SHARD_DUP_TOTAL, 64, .ro, 0x0, 0x0, 1, 0⟩,
   ⟨Reg.WT_PROG_WEIGHTS_TOTAL, 64, .ro, 0x0, 0x0, 1, 0⟩,
   ⟨Reg.WT_READBACK_TOTAL, 64, .ro, 0x0, 0x0, 1, 0⟩,
   ⟨Reg.WT_READBACK_MISMATCH_TOTAL, 64, .ro, 0x0, 0x0, 1, 0⟩,
   ⟨Reg.WT_COPY_REPAIR_TOTAL, 64, .ro, 0x0, 0x0, 1, 0⟩,
   ⟨Reg.WT_CTR_CLEAR, 32, .wo, 0x0, 0x0, 1, 0⟩]

/-- Table 18-12, part 1. -/
def dieRegs0 : List RegRow :=
  [⟨Reg.AE_CFG, 32, .st, 0x330, 0x37f, 1, 0⟩,
   ⟨Reg.AE_READ_CFG, 32, .st, 0x7, 0x7, 1, 0⟩,
   ⟨Reg.AE_SEL, 32, .rw, 0x0, 0x1ff, 1, 0⟩,
   ⟨Reg.AE_SEL_STATE, 64, .ro, 0x0, 0x0, 1, 0⟩,
   ⟨Reg.AE_SEL_CONV, 64, .ro, 0x0, 0x0, 1, 0⟩,
   ⟨Reg.AE_SEL_CLIP, 64, .ro, 0x0, 0x0, 1, 0⟩,
   ⟨Reg.AE_CONV_TOTAL, 64, .ro, 0x0, 0x0, 1, 0⟩,
   ⟨Reg.AE_CLIP_TOTAL, 64, .ro, 0x0, 0x0, 1, 0⟩,
   ⟨Reg.AE_REFCLIP_TOTAL, 64, .ro, 0x0, 0x0, 1, 0⟩,
   ⟨Reg.AE_OVERBUDGET_TOTAL, 64, .ro, 0x0, 0x0, 1, 0⟩,
   ⟨Reg.AE_PROG_ABORT_TOTAL, 64, .ro, 0x0, 0x0, 1, 0⟩,
   ⟨Reg.AE_READ_AMBIG_TOTAL, 64, .ro, 0x0, 0x0, 1, 0⟩,
   ⟨Reg.AE_READ_MARGIN_TOTAL, 64, .ro, 0x0, 0x0, 1, 0⟩,
   ⟨Reg.AE_SET_WAIT_TOTAL, 64, .ro, 0x0, 0x0, 1, 0⟩,
   ⟨Reg.AE_CTR_CLEAR, 32, .wo, 0x0, 0x0, 1, 0⟩,
   ⟨Reg.DC_CFG, 32, .st, 0x82, 0xff, 1, 0⟩,
   ⟨Reg.DC_TROUBLE_CLIP_TOTAL, 64, .ro, 0x0, 0x0, 1, 0⟩,
   ⟨Reg.DC_TROUBLE_SIDE_TOTAL, 64, .ro, 0x0, 0x0, 1, 0⟩,
   ⟨Reg.DC_TROUBLE_RANGE_TOTAL, 64, .ro, 0x0, 0x0, 1, 0⟩,
   ⟨Reg.DC_TROUBLE_SAT_TOTAL, 64, .ro, 0x0, 0x0, 1, 0⟩,
   ⟨Reg.DC_REPEAT_A8_TOTAL, 64, .ro, 0x0, 0x0, 1, 0⟩,
   ⟨Reg.DC_REPEAT_D8_TOTAL, 64, .ro, 0x0, 0x0, 1, 0⟩,
   ⟨Reg.DC_REPEAT_D16_TOTAL, 64, .ro, 0x0, 0x0, 1, 0⟩,
   ⟨Reg.DC_EXHAUSTED_TOTAL, 64, .ro, 0x0, 0x0, 1, 0⟩,
   ⟨Reg.DC_CLIP_ACCEPTED_TOTAL, 64, .ro, 0x0, 0x0, 1, 0⟩,
   ⟨Reg.DC_HELD_CYCLES_TOTAL, 64, .ro, 0x0, 0x0, 1, 0⟩,
   ⟨Reg.DC_CTR_CLEAR, 32, .wo, 0x0, 0x0, 1, 0⟩,
   ⟨Reg.CAL_CFG, 32, .st, 0x6503c5, 0x7fffff, 1, 0⟩,
   ⟨Reg.CAL_FIT_CFG, 32, .st, 0x34018e, 0x7fffff, 1, 0⟩,
   ⟨Reg.CAL_SAVE_CFG, 32, .st, 0x3c, 0xff, 1, 0⟩]

/-- Table 18-12, part 2. -/
def dieRegs1 : List RegRow :=
  [⟨Reg.CAL_EPOCH, 32, .ro, 0x0, 0x0, 1, 0⟩,
   ⟨Reg.CAL_STATUS, 32, .ro, 0x0, 0x0, 1, 0⟩,
   ⟨Reg.CAL_LAST_TEMP, 32, .ro, 0x0, 0x0, 1, 0⟩,
   ⟨Reg.CAL_LAST_RUN_TICK, 64, .ro, 0x0, 0x0, 1, 0⟩,
   ⟨Reg.CAL_LAST_MARK_TICK, 64, .ro, 0x0, 0x0, 1, 0⟩,
   ⟨Reg.CAL_LAST_MARK_HOST, 64, .ro, 0x0, 0x0, 1, 0⟩,
   ⟨Reg.CAL_RUN_TOTAL, 64, .ro, 0x0, 0x0, 1, 0⟩,
   ⟨Reg.CAL_RETIRE_TOTAL, 64, .ro, 0x0, 0x0, 1, 0⟩,
   ⟨Reg.CAL_DEVIATION_TOTAL, 64, .ro, 0x0, 0x0, 1, 0⟩,
   ⟨Reg.CAL_SEL_COUNT, 64, .ro, 0x0, 0x0, 1, 0⟩,
   ⟨Reg.CAL_LANE_SEL, 32, .rw, 0x0, 0x7ff, 1, 0⟩,
   ⟨Reg.CAL_LANE_FIT, 64, .ro, 0x0, 0x0, 1, 0⟩,
   ⟨Reg.CAL_LANE_TRIM, 64, .ro, 0x0, 0x0, 1, 0⟩,
   ⟨Reg.CAL_REQUEST, 32, .wo, 0x0, 0x0, 1, 0⟩,
   ⟨Reg.CAL_CTR_CLEAR, 32, .wo, 0x0, 0x0, 1, 0⟩,
   ⟨Reg.CAL_DROP_TOTAL, 64, .ro, 0x0, 0x0, 1, 0⟩,
   ⟨Reg.SP_CFG, 32, .st, 0x43, 0xf3, 1, 0⟩,
   ⟨Reg.SP_PWR_OFF, 32, .st, 0x0, 0xffff, 1, 0⟩,
   ⟨Reg.SP_PWR_STATE, 32, .ro, 0x0, 0x0, 1, 0⟩,
   ⟨Reg.SP_WAIT_LOCAL_TOTAL, 64, .ro, 0x0, 0x0, 1, 0⟩,
   ⟨Reg.SP_WAIT_BANK_TOTAL, 64, .ro, 0x0, 0x0, 1, 0⟩,
   ⟨Reg.SP_WAIT_CORE_TOTAL, 64, .ro, 0x0, 0x0, 1, 0⟩,
   ⟨Reg.SP_WAIT_CLUSTER_TOTAL, 64, .ro, 0x0, 0x0, 1, 0⟩,
   ⟨Reg.SP_WAIT_DIE_TOTAL, 64, .ro, 0x0, 0x0, 1, 0⟩,
   ⟨Reg.SP_WAIT_MSRAM_TOTAL, 64, .ro, 0x0, 0x0, 1, 0⟩,
   ⟨Reg.SP_WAIT_HBM_TOTAL, 64, .ro, 0x0, 0x0, 1, 0⟩,
   ⟨Reg.SP_SEL_WAIT, 64, .ro, 0x0, 0x0, 1, 0⟩,
   ⟨Reg.SP_CRC_FAIL_TOTAL, 64, .ro, 0x0, 0x0, 1, 0⟩,
   ⟨Reg.SP_CRC_RETRY_OK_TOTAL, 64, .ro, 0x0, 0x0, 1, 0⟩,
   ⟨Reg.SP_POISON_READ_TOTAL, 64, .ro, 0x0, 0x0, 1, 0⟩]

/-- Table 18-12, part 3. -/
def dieRegs2 : List RegRow :=
  [⟨Reg.SP_PARTIAL_READ_TOTAL, 64, .ro, 0x0, 0x0, 1, 0⟩,
   ⟨Reg.SP_BANK_OFF_ACCESS_TOTAL, 64, .ro, 0x0, 0x0, 1, 0⟩,
   ⟨Reg.SP_CLASS_MISMATCH_TOTAL, 64, .ro, 0x0, 0x0, 1, 0⟩,
   ⟨Reg.DMA_SKIPPED_TOTAL, 64, .ro, 0x0, 0x0, 1, 0⟩,
   ⟨Reg.SP_CTR_CLEAR, 32, .wo, 0x0, 0x0, 1, 0⟩,
   ⟨Reg.ATT_WALK_TOTAL, 64, .ro, 0x0, 0x0, 1, 0⟩,
   ⟨Reg.ATT_RESCALE_TOTAL, 64, .ro, 0x0, 0x0, 1, 0⟩,
   ⟨Reg.ATT_MERGE_TOTAL, 64, .ro, 0x0, 0x0, 1, 0⟩,
   ⟨Reg.ATT_PAD_ROW_TOTAL, 64, .ro, 0x0, 0x0, 1, 0⟩,
   ⟨Reg.KV_BAD_CODE, 64, .ro, 0x0, 0x0, 1, 0⟩,
   ⟨Reg.ATT_FAULT_TOTAL, 64, .ro, 0x0, 0x0, 1, 0⟩,
   ⟨Reg.ATT_CTR_CLEAR, 32, .wo, 0x0, 0x0, 1, 0⟩,
   ⟨Reg.WQ_CFG, 32, .st, 0x6418, 0xff1f, 1, 0⟩,
   ⟨Reg.WQ_SEL_STATE, 32, .ro, 0x0, 0x0, 1, 0⟩,
   ⟨Reg.SEQ_SEL_STATE, 64, .ro, 0x0, 0x0, 1, 0⟩,
   ⟨Reg.WQ_LEVEL_TOTAL, 64, .ro, 0x0, 0x0, 1, 0⟩,
   ⟨Reg.WQ_FLUSH_DISCARD_TOTAL, 64, .ro, 0x0, 0x0, 1, 0⟩,
   ⟨Reg.WQ_REFUSED_TOTAL, 64, .ro, 0x0, 0x0, 1, 0⟩,
   ⟨Reg.WQ_HOLD_CYCLES_TOTAL, 64, .ro, 0x0, 0x0, 1, 0⟩,
   ⟨Reg.SEQ_FAULT_TOTAL, 64, .ro, 0x0, 0x0, 1, 0⟩,
   ⟨Reg.SEQ_ISSUE_STALL_TOTAL, 64, .ro, 0x0, 0x0, 1, 0⟩,
   ⟨Reg.WQ_CTR_CLEAR, 32, .wo, 0x0, 0x0, 1, 0⟩,
   ⟨Reg.SE_CFG, 32, .st, 0x1e700823, 0xffffffff, 1, 0⟩,
   ⟨Reg.SE_FLEET_CFG, 32, .st, 0x401000, 0xffffff, 1, 0⟩,
   ⟨Reg.SE_SCAN_STATE, 32, .ro, 0x0, 0x0, 1, 0⟩,
   ⟨Reg.SE_SEL_FAULTS, 32, .ro, 0x0, 0x0, 1, 0⟩,
   ⟨Reg.SE_ARITH_DETECT_TOTAL, 64, .ro, 0x0, 0x0, 1, 0⟩,
   ⟨Reg.SE_REF_DETECT_TOTAL, 64, .ro, 0x0, 0x0, 1, 0⟩,
   ⟨Reg.SE_REDUCE_DIGEST_TOTAL, 64, .ro, 0x0, 0x0, 1, 0⟩,
   ⟨Reg.SE_STEP_ABANDON_TOTAL, 64, .ro, 0x0, 0x0, 1, 0⟩]

/-- Table 18-12, part 4. -/
def dieRegs3 : List RegRow :=
  [⟨Reg.SE_REWIND_SEQ_TOTAL, 64, .ro, 0x0, 0x0, 1, 0⟩,
   ⟨Reg.SE_WINDOW_TRUNC_TOTAL, 64, .ro, 0x0, 0x0, 1, 0⟩,
   ⟨Reg.SE_FLEET_RUN_TOTAL, 64, .ro, 0x0, 0x0, 1, 0⟩,
   ⟨Reg.SE_FLEET_FAIL_TOTAL, 64, .ro, 0x0, 0x0, 1, 0⟩,
   ⟨Reg.SE_SCAN_TOTAL, 64, .ro, 0x0, 0x0, 1, 0⟩,
   ⟨Reg.SE_SCAN_FAIL_TOTAL, 64, .ro, 0x0, 0x0, 1, 0⟩,
   ⟨Reg.SE_CTR_CLEAR, 32, .wo, 0x0, 0x0, 1, 0⟩]

/-- Table 18-12. -/
def dieRegs : List RegRow := dieRegs0 ++ dieRegs1 ++ dieRegs2 ++ dieRegs3

/-- The blocks of Table 0-5 that hold registers, with the number of the unit (channel, port, M-die or compute die) an offset lies in. -/
inductive Blk where
  | identity | channel (c : Nat) | staging | event | hk | power | security | port (p : Nat) | mdie (m : Nat) | die (d : Nat)
  deriving DecidableEq, Repr, Inhabited

/-- R7, Table 0-5: the block an offset of BAR0 lies in, and the offset from that block's base. -/
def blockAt (a : Nat) : Option (Blk × Nat) :=
  if a < 0x1000 then some (.identity, a)
  else if a < 0x5000 then some (.channel ((a - 0x1000) / 64), (a - 0x1000) % 64)
  else if a < 0x8000 then none
  else if a < 0x9000 then some (.staging, a - 0x8000)
  else if a < 0xA000 then some (.event, a - 0x9000)
  else if a < 0x10000 then none
  else if a < 0x14000 then some (.hk, a - 0x10000)
  else if a < 0x15000 then some (.power, a - 0x14000)
  else if a < 0x20000 then none
  else if a < 0x30000 then some (.security, a - 0x20000)
  else if a < 0x38000 then some (.port ((a - 0x30000) / 0x800), (a - 0x30000) % 0x800)
  else if a < 0x40000 then none
  else if a < 0x50000 then some (.mdie ((a - 0x40000) / 0x4000), (a - 0x40000) % 0x4000)
  else if a < 0x80000 then none
  else if a < 0xF0000 then some (.die ((a - 0x80000) / 0xE000), (a - 0x80000) % 0xE000)
  else none

/-- The rows of a block; G0's block also holds Table 18-9, and M0's Table 18-11. -/
def Blk.rows : Blk → List RegRow
  | .identity => identityRegs
  | .channel _ => channelRegs
  | .staging => stagingRegs
  | .event => eventRegs
  | .hk => hkRegs
  | .power => powerRegs
  | .security => securityRegs
  | .port p => if p = 0 then portRegs ++ fabricRegs else portRegs
  | .mdie m => if m = 0 then mdieRegs ++ weightRegs else mdieRegs
  | .die _ => dieRegs

/-- Whether offset `o` lies in a register of the row, and how far into it. -/
def RegRow.covers (r : RegRow) (o : Nat) : Option Nat :=
  if o < r.off then none
  else if r.stride = 0 then (if o - r.off < r.width / 8 then some (o - r.off) else none)
  else if (o - r.off) / r.stride < r.count ∧ (o - r.off) % r.stride < r.width / 8 then some ((o - r.off) % r.stride) else none

/-- The row and the distance into the register that cover an offset. -/
def findRow : List RegRow → Nat → Option (RegRow × Nat)
  | [], _ => none
  | r :: t, o => match r.covers o with
    | some k => some (r, k)
    | none => findRow t o

/-- The register that covers a BAR0 offset: its row and the offset at which it starts. -/
def regAt (a : Nat) : Option (RegRow × Nat) :=
  match blockAt a with
  | none => none
  | some (b, o) => match findRow b.rows o with
    | none => none
    | some (r, k) => some (r, a - k)

/-- R511: the value a register holds after power-up. -/
def resetOf (a : Nat) : Nat :=
  match regAt a with
  | none => 0
  | some (r, _) => r.reset

/-- Offsets of registers by block (R7). -/
abbrev chReg (c r : Nat) : Nat := 0x1000 + 64 * c + r
abbrev stgReg (r : Nat) : Nat := 0x8000 + r
abbrev evReg (r : Nat) : Nat := 0x9000 + r
abbrev hkReg (r : Nat) : Nat := 0x10000 + r
abbrev pwrReg (r : Nat) : Nat := 0x14000 + r
abbrev secReg (r : Nat) : Nat := 0x20000 + r
abbrev portReg (p r : Nat) : Nat := 0x30000 + 0x800 * p + r
abbrev fabReg (r : Nat) : Nat := 0x30000 + r
abbrev memReg (m r : Nat) : Nat := 0x40000 + 0x4000 * m + r
abbrev wtReg (r : Nat) : Nat := 0x40000 + r
abbrev dieReg (d r : Nat) : Nat := 0x80000 + 0xE000 * d + r

end Sys2Proof
end

