-- ==== Sys2Proof/Machine/Ops.lean ====
section
/-! DEFINITION. The named operations every command is written with: registers and counters, events, completions, descriptors, interrupts, keys. -/

namespace Sys2Proof.Machine

/-! ### Keys and fitted dies -/

/-- Key of a cluster; index 8 is the die's spare position. -/
def clusterKey (d k : Nat) : Nat := d * 9 + k
/-- Key of a core. -/
def coreKey (d k c : Nat) : Nat := (d * 9 + k) * 8 + c
/-- Key of an A-engine. -/
def engineKey (q n : Nat) : Nat := q * 4 + n
def coreDie (q : Nat) : Nat := q / 72
def coreCluster (q : Nat) : Nat := q / 8 % 9
def coreIndex (q : Nat) : Nat := q % 8

/-- R2, R3: the compute-die positions each variant fits. -/
def Variant.fits (v : Variant) (d : Nat) : Bool :=
  match v with
  | .tx8 => decide (d < 8)
  | .tx4 => d == 0 || d == 2 || d == 4 || d == 6
  | .tx2 => d == 0 || d == 4

def State.fits (s : State) (d : Nat) : Bool := s.part.variant.fits d

/-- The fitted compute dies in ascending order. -/
def State.dies (s : State) : List Nat := (List.range 8).filter s.fits

/-! ### Registers (R8, R511, R514) -/

/-- The value of a register of a configuration. -/
def ConfigSet.reg (c : ConfigSet) (a : Nat) : Nat := resetOf a ^^^ Tab.get c.regs a

def ConfigSet.setReg (c : ConfigSet) (a v : Nat) : ConfigSet :=
  { c with regs := Tab.set c.regs a (resetOf a ^^^ v) }

/-- The live value of an ST register. -/
def State.cfg (s : State) (a : Nat) : Nat := s.live.reg a

/-- Field `[lo + n - 1 : lo]` of a live ST register. -/
def State.fld (s : State) (a lo n : Nat) : Nat := bitsOf (s.cfg a) lo n

/-- The value of an RW register or a counter. -/
def State.reg (s : State) (a : Nat) : Nat := resetOf a ^^^ Tab.get s.regs a

def State.setReg (s : State) (a v : Nat) : State :=
  { s with regs := Tab.set s.regs a (resetOf a ^^^ v) }

/-- R12: a counter saturates at its all-ones value. -/
def State.bump (s : State) (a n : Nat) : State := s.setReg a (min (2 ^ 64 - 1) (s.reg a + n))

/-- R513: a clear sets the counters that its register's definition names to 0. -/
def State.clearRegs (s : State) : List Nat → State
  | [] => s
  | a :: r => State.clearRegs (s.setReg a 0) r

/-- The effect of a write of `v` to a CLEAR register: bit 0 clears the named counters. -/
def State.ctrClear (s : State) (v : Nat) (as : List Nat) : State :=
  if bitOf v 0 then s.clearRegs as else s

/-! ### Free values -/

/-- A value the manual leaves open, below `n`, and the state that has used it. -/
def State.freeBelow (s : State) (n : Nat) : Nat × State :=
  (if n = 0 then 0 else Config.free s.fresh % n, { s with fresh := s.fresh + 1 })

/-- Waiting time that a counter of cycles adds, an amount the model leaves open (log 4). -/
def State.bumpWait (s : State) (a : Nat) : State :=
  { s.bump a (Config.free s.fresh) with fresh := s.fresh + 1 }

/-! ### Events (R28) -/

/-- Key of a domain instance's counter (R27). -/
def Src.key (x : Src) : Nat := (x.dom * 4 + x.ty) * 8 + x.die

def Src.ofDie (d : Nat) : Src := { dom := 2, ty := 0, die := d }
def Src.ofCluster (g : Nat) : Src := { dom := 2, ty := 0, die := g / 9, cluster := g % 9 }
def Src.ofCore (q : Nat) : Src := { dom := 2, ty := 0, die := coreDie q, cluster := coreCluster q, core := coreIndex q }
def Src.ofEngine (q : Nat) : Src := { Src.ofCore q with dom := 1 }
def Src.ofHearth (g : Nat) : Src := { Src.ofCluster g with dom := 3 }
def Src.ofMdie (m : Nat) : Src := { dom := 4, ty := 1, die := m }
/-- The CXL controller of X0. -/
def Src.host : Src := { dom := 5, ty := 2, die := 0 }
/-- The supervisor and the root of trust of X1. -/
def Src.x1 : Src := { dom := 6, ty := 2, die := 1 }
/-- Glosa port `p`. -/
def Src.port (p : Nat) : Src := { dom := 7, ty := 2, die := p / 8 }
def Src.steward : Src := { dom := 0, ty := 0, die := 0 }

/-- The counter of a source's domain instance (R27); domain 0 is the steward counter. -/
def State.clock (s : State) (x : Src) : Nat := if x.dom = 0 then s.time.tick else Tab.get s.time.dom x.key

/-- A domain instance's counter moves on by an amount the manual leaves open, and wraps at 64 bits (R12, R27; log 11). -/
def State.domainRuns (s : State) (x : Src) : State :=
  { s with
    time := { s.time with dom := Tab.set s.time.dom x.key ((Tab.get s.time.dom x.key + Config.free s.fresh) % 2 ^ 64) }
    fresh := s.fresh + 1 }

/-- The domain instances of the fitted dies (Table 1-5), but for the steward counter. -/
def State.domains (s : State) : List Src :=
  s.dies.flatMap (fun d => [{ dom := 1, die := d }, { dom := 2, die := d }, { dom := 3, die := d }, { dom := 4, die := d }])
    ++ (List.range 4).map Src.ofMdie
    ++ [Src.host, { dom := 4, ty := 2 }, { dom := 4, ty := 2, die := 1 }, Src.x1, Src.port 0, Src.port 8]

/-- An event arises and starts for the collector (R28). -/
def State.raise (s : State) (code : Code) (src : Src) (args : List Nat) (status : Code := .OK) : State :=
  let s1 := s.domainRuns src
  { s1 with ev := { s1.ev with inFlight := s1.ev.inFlight ++ [⟨code, src, s1.clock src, args, status⟩] } }

/-- An interrupt message on an MSI-X vector (R259). -/
def State.interrupt (s : State) (vector : Nat) : State :=
  { s with irq := Tab.upd s.irq vector (· + 1) }

/-! ### Host memory -/

/-- The host's writes to its own memory. -/
def State.hostWrites (s : State) : List HostWrite → State
  | [] => s
  | w :: r => State.hostWrites { s with hmem := Tab.setList s.hmem w.addr w.bytes } r

/-- `n` bytes of host memory. -/
def State.hostRead (s : State) (a n : Nat) : List Byte := Tab.getList s.hmem a n

/-- The number in `n` bytes of host memory (R11). -/
def State.hostNat (s : State) (a n : Nat) : Nat := leNat (s.hostRead a n)

/-- What the TX8 writes into a host buffer. -/
def State.hostPut (s : State) (a : Nat) (bs : List Byte) : State :=
  { s with hmem := Tab.setList s.hmem a bs }

/-- STATUS as a 16-bit number: OK is 0x0000, every other code is the firmware ABI's (R273). -/
def statusNumber (c : Code) : Nat := if c = .OK then 0 else Config.codeNumber c % 2 ^ 16

/-! ### Channels and completions (R267 to R278) -/

/-- Difference of two free-running 32-bit counts (R267). -/
def sub32 (a b : Nat) : Nat := (a + 2 ^ 32 - b % 2 ^ 32) % 2 ^ 32
def add32 (a b : Nat) : Nat := (a + b) % 2 ^ 32

def State.chan (s : State) (c : Nat) : Chan := Tab.get s.chans c
def State.setChan (s : State) (c : Nat) (x : Chan) : State := { s with chans := Tab.set s.chans c x }

def Chan.sqLog (x : Chan) : Nat := bitsOf x.cfg 0 5
def Chan.cqLog (x : Chan) : Nat := bitsOf x.cfg 5 5
def Chan.irqEn (x : Chan) : Bool := bitOf x.cfg 10
def Chan.coalCount (x : Chan) : Nat := bitsOf x.cfg 11 8
def Chan.isOpen (x : Chan) : Bool := x.st == .opened || x.st == .draining

/-- Key of slot `i` of a channel's completion ring. -/
def cqKey (c i : Nat) : Nat := c * 2 ^ 20 + i

/-- The completion ring has no free slot. -/
def Chan.cqFull (x : Chan) : Bool := decide (2 ^ x.cqLog ≤ sub32 x.written x.cqHead)

/-- The interrupt rule of R271 after a completion is written; `now` is IRQ of the descriptor's FLAGS. -/
def State.coalesce (s : State) (c : Nat) (now : Bool) : State :=
  let x := s.chan c
  if x.irqEn && (now || x.coalCount == 0 || decide (x.coalCount ≤ x.sinceIrq + 1)) then
    (s.setChan c { x with sinceIrq := 0, coalRun := false }).interrupt c
  else s.setChan c { x with sinceIrq := x.sinceIrq + 1, coalRun := true }

/-- One completion is written into the ring's next slot, with PHASE (R271). -/
def State.cqWrite (s : State) (c : Nat) (e : Completion) (now : Bool) : State :=
  let x := s.chan c
  let size := 2 ^ x.cqLog
  let s1 := { s with cq := Tab.set s.cq (cqKey c (x.written % size)) { e with phase := x.written / size % 2 == 0 } }
  (s1.setChan c { x with written := add32 x.written 1 }).coalesce c now

/-- R271, R266: a completion goes to the ring, or behind the spill while the ring is full; a channel that is not open or draining takes none. -/
def State.complete (s : State) (c : Nat) (e : Completion) (now : Bool) : State :=
  let x := s.chan c
  if !x.isOpen then s
  else if x.cqFull || !x.spill.isEmpty then s.setChan c { x with spill := x.spill ++ [e] }
  else s.cqWrite c e now

/-- The spill is written in order as CQ_HEAD advances (R271). -/
def State.drainSpill (s : State) (c : Nat) : Nat → State
  | 0 => s
  | n + 1 =>
    let x := s.chan c
    match x.spill with
    | [] => s
    | e :: r => if x.cqFull then s else State.drainSpill ((s.setChan c { x with spill := r }).cqWrite c e false) c n

/-- A started descriptor completes: it leaves the outstanding list and its completion is written (R270, R277). -/
def State.finish (s : State) (d : Desc) (status : Code) (r0 r1 : Nat) (lateCheck : Bool := false) (stale : Bool := false) : State :=
  let x := s.chan d.chan
  (s.setChan d.chan { x with outstanding := x.outstanding.erase d }).complete d.chan
    { tag := d.tag, status := status, aux := d.ring, r0 := r0, r1 := r1, lateCheck := lateCheck, stale := stale } d.irq

/-- R270: a descriptor starts in ring order, from an open or draining channel that has fetched it; with FENCE only after every earlier one has completed. R271: with the spill full the channel's descriptors wait. -/
def State.canStart (s : State) (h : Hdr) : Bool :=
  let x := s.chan h.chan
  x.isOpen && x.started != x.fetched && (!h.fence || x.outstanding.isEmpty) && decide (x.spill.length < 4096)

/-- The descriptor as it stands among the channel's outstanding ones. -/
def State.descOf (s : State) (h : Hdr) : Desc :=
  { chan := h.chan, ring := (s.chan h.chan).started, tag := h.tag, irq := h.irq }

/-- The descriptor starts. -/
def State.start (s : State) (h : Hdr) : State :=
  let x := s.chan h.chan
  (s.setChan h.chan { x with started := add32 x.started 1, outstanding := x.outstanding ++ [s.descOf h] }).hostWrites h.host

/-- Live CH_PERMIT of a channel (R272, R296). -/
def State.permits (s : State) (c cls : Nat) : Bool := bitOf (s.cfg (stgReg (Reg.CH_PERMIT + 2 * c))) (cls - 1)

/-- R272: the status with which a descriptor of class `cls` is refused before anything of it is performed. -/
def State.headerStatus (s : State) (h : Hdr) (cls : Nat) : Code :=
  if h.newer then .DESC_UNSUPPORTED
  else if !s.permits h.chan cls then .DESC_NOT_PERMITTED
  else if h.reserved then .DESC_FORMAT
  else .OK

/-- A descriptor of class `cls`: it waits until it can start; a refused one performs nothing and completes with its status; any other runs `k` (R270, R272). -/
def State.descriptor (s : State) (h : Hdr) (cls : Nat) (k : State → Desc → State) : State :=
  if s.canStart h then
    let s1 := s.start h
    let d := s.descOf h
    if s.headerStatus h cls = .OK then k s1 d else s1.finish d (s.headerStatus h cls) 0 0
  else s

end Sys2Proof.Machine
end

