-- ==== Sys2Proof/Machine/Flags.lean ====
section
/-! DEFINITION. The module-local address map, tile check words and their flags, and every read and write of memory (chapter 6). -/

namespace Sys2Proof.Machine

/-- Where a module-local address lies (Table 6-1, R163). -/
inductive Loc where
  | hbm (stack ofs : Nat)
  | msram (m ofs : Nat)
  | sp (d k c ofs : Nat)
  | absent
  | unmapped
  deriving DecidableEq, Repr, Inhabited

def stackSize : Nat := 0x900000000
/-- The part of a stack below its check area. -/
def stackData : Nat := 0x8FB800000
def msramBase : Nat := 0x8000000000
def msramSize : Nat := 0x8000000
def spBase : Nat := 0x10000000000

/-- Table 6-1. -/
def locate (v : Variant) (a : Nat) : Loc :=
  if a < 8 * stackSize then
    (if a % stackSize < stackData then .hbm (a / stackSize) (a % stackSize) else .unmapped)
  else if msramBase ≤ a ∧ a < msramBase + 4 * msramSize then
    .msram ((a - msramBase) / msramSize) ((a - msramBase) % msramSize)
  else if spBase ≤ a ∧ a < spBase + 0x80000000 then
    let o := a - spBase
    if v.fits (o / 2 ^ 28) then .sp (o / 2 ^ 28) (o / 2 ^ 25 % 8) (o / 2 ^ 22 % 8) (o % 2 ^ 22) else .absent
  else .unmapped

/-- Module-local address of byte `o` of a core's scratchpad. -/
def spAddr (d k c o : Nat) : Nat := spBase + d * 2 ^ 28 + k * 2 ^ 25 + c * 2 ^ 22 + o

/-- Base of the scratchpad of the core with key `q`. -/
def coreBase (q : Nat) : Nat := spAddr (coreDie q) (coreCluster q) (coreIndex q) 0

/-- The M-die that serves an address (R20, R193). -/
def Loc.mdie : Loc → Option Nat
  | .hbm n _ => some (n / 2)
  | .msram m _ => some m
  | .sp d _ _ _ => some (d / 2)
  | _ => none

/-- A bank of a core that is off or powering up (R181, R182). -/
def State.bankDown (s : State) (q b : Nat) : Bool :=
  bitOf (Tab.get s.live.pwrOff q) b || bitOf (Tab.get s.mem.poweringUp q) b

/-! ### Cluster positions (R16, R18) -/

/-- Position `p` of a die; before a fuse mark or a change, positions 0 to 7 carry logical clusters 0 to 7 and position 8 is the spare. -/
def State.position (s : State) (d p : Nat) : Position :=
  let x := Tab.get s.pos (d * 9 + p)
  if x.known then x else if p < 8 then { st := .active, logical := p } else { st := .spare }

/-- R468: the floor plan descriptor is rewritten; GENERATION moves to the next even value. -/
def State.replan (s : State) : State := { s with plan := (s.plan + 2) % 2 ^ 32 }

def State.setPosition (s : State) (d p : Nat) (x : Position) : State :=
  let y : Position := { x with known := true }
  if { s.position d p with known := true } = y then s else { s with pos := Tab.set s.pos (d * 9 + p) y }.replan

/-- A compute die whose power is cut (R450). -/
def State.dieDown (s : State) (d : Nat) : Bool := (Tab.get s.hk.parts (72 + d)).down

/-- The position that carries logical cluster `k` of a die. -/
def State.posOf (s : State) (d k : Nat) : Option Nat :=
  (List.range 9).find? (fun p => (s.position d p).logical == k && ((s.position d p).st == .active || (s.position d p).st == .programming))

/-- A logical cluster whose position is in a partition under reset (R351, R481), or whose die's power is cut (log 60). -/
def State.resetting (s : State) (d k : Nat) : Bool :=
  s.dieDown d || match s.posOf d k with
  | some p => (s.position d p).resetting
  | none => false

/-- R340: the module field that is this module's own: its ID, or 0 while it has none. -/
def State.moduleId (s : State) : Nat := if s.fab.idValid then s.fab.id else 0

/-- R340: a global address that is local. -/
def State.isLocal (s : State) (a : Nat) : Bool := a / 2 ^ 48 == s.moduleId

/-- R161: the address that a program names: module-local where it is local, and beyond every module-local address, at 2^64 and its global address, where it is remote. -/
def State.loc (s : State) (a : Nat) : Nat := if s.isLocal a then a % 2 ^ 48 else a + 2 ^ 64

/-- An address of another module (class REMOTE, Table 6-2), its module and its address there. -/
def isFar (a : Nat) : Bool := decide (2 ^ 64 ≤ a)
def farModule (a : Nat) : Nat := a / 2 ^ 48 % 2 ^ 16
def farAddr (a : Nat) : Nat := a % 2 ^ 48

/-- R163, R182, R382, R481: whether one address can be accessed. -/
def State.reach (s : State) (a : Nat) : Code :=
  match locate s.part.variant a with
  | .unmapped => .ADDRESS_UNMAPPED
  | .absent => .TARGET_ABSENT
  | .sp d k c o =>
    if s.det.unplaced.contains (clusterKey d k) then .ADDRESS_UNMAPPED
    else if s.resetting d k then .PARTITION_RESETTING
    else if s.bankDown (coreKey d k c) (o / 2 ^ 18) then .BANK_OFF else .OK
  | _ => .OK

/-- One stretch of an access that lies within one tile: its address and length. -/
abbrev Piece := Nat × Nat

/-- A range cut at tile boundaries; `fuel` bounds the count of pieces. -/
def pieces : Nat → Nat → Nat → List Piece
  | 0, _, _ => []
  | f + 1, a, n =>
    if n = 0 then []
    else
      let l := min n (4096 - a % 4096)
      (a, l) :: pieces f (a + l) (n - l)

/-- The pieces of `n` bytes at `a`. -/
def piecesOf (a n : Nat) : List Piece := pieces (n / 4096 + 2) a n

/-- The first piece that cannot be accessed, with its status. -/
def State.blocked (s : State) : List Piece → Option (Nat × Code)
  | [] => none
  | p :: r => if s.reach p.1 = .OK then s.blocked r else some (p.1, s.reach p.1)

/-- R163, R182: the report of an access that is not performed: the event of the same name, and the count of a bank that is off. -/
def State.reportBlocked (s : State) (a : Nat) (c : Code) (src : Src) : State :=
  match c, locate s.part.variant a with
  | .BANK_OFF, .sp d _ _ _ => (s.bump (dieReg d Reg.SP_BANK_OFF_ACCESS_TOTAL) 1).raise .SP_BANK_OFF_ACCESS src [a]
  | _, _ => s.raise c src [a]

/-! ### Check words -/

def State.tile (s : State) (t : Nat) : Tile := Tab.get s.mem.tiles t
def State.setTile (s : State) (t : Nat) (w : Tile) : State :=
  { s with mem := { s.mem with tiles := Tab.set s.mem.tiles t w } }

def State.poison (s : State) (t : Nat) : State := s.setTile t { s.tile t with poisoned := true }

/-- One byte of CRC-32C (R175). -/
def crcStep (c : Nat) (b : Byte) : Nat :=
  (List.range 8).foldl (fun c _ => if c % 2 = 1 then (c / 2) ^^^ 0x82F63B78 else c / 2) (c ^^^ b.toNat)

/-- CRC-32C of a run of bytes (R175). -/
def crc32c (bs : List Byte) : Nat := (bs.foldl crcStep 0xFFFFFFFF) ^^^ 0xFFFFFFFF

/-- RETRY_EN and REPAIR_EN: every fitted die holds the same SP_CFG, and C0 is fitted on every variant (R199, R515). -/
def State.retryEn (s : State) : Bool := bitOf (s.cfg (dieReg 0 Reg.SP_CFG)) 0
def State.repairEn (s : State) : Bool := bitOf (s.cfg (dieReg 0 Reg.SP_CFG)) 1

/-- Who reads: the compute die whose counters count, or the M-die (R515), the event source, and the alternative source as source base and alternative base (R178). -/
structure Reader where
  die : Option Nat := none
  mdie : Nat := 0
  src : Src := {}
  alt : Option (Nat × Nat) := none
  who : Nat := 0                 -- 0 an engine or unit, 1 HOST, 2 PATROL
  deriving DecidableEq, Repr, Inhabited

def Reader.ofCore (q : Nat) : Reader := { die := some (coreDie q), src := Src.ofCore q }
def Reader.ofCluster (g : Nat) : Reader := { die := some (g / 9), src := Src.ofCluster g }
def Reader.ofMdie (m : Nat) : Reader := { mdie := m, src := Src.ofMdie m }

def State.countFail (s : State) (r : Reader) : State :=
  match r.die with
  | some d => s.bump (dieReg d Reg.SP_CRC_FAIL_TOTAL) 1
  | none => s.bump (memReg r.mdie Reg.MEM_CRC_FAIL_TOTAL) 1

def State.countPoison (s : State) (r : Reader) : State :=
  match r.die with
  | some d => s.bump (dieReg d Reg.SP_POISON_READ_TOTAL) 1
  | none => s

def State.countRetry (s : State) (r : Reader) : State :=
  match r.die with
  | some d => s.bump (dieReg d Reg.SP_CRC_RETRY_OK_TOTAL) 1
  | none => s

/-- A tile that a check would find good. -/
def State.good (s : State) (t : Nat) : Bool :=
  !(s.tile t).poisoned && (s.tile t).syndrome == 0 && s.reach (4096 * t) == .OK

/-- The counterpart of tile `t` in the alternative source (R178): its address when every tile it spans checks good. -/
def State.counterpart (s : State) (r : Reader) (t : Nat) : Option Nat :=
  match r.alt with
  | none => none
  | some (src, alt) =>
    let a := 4096 * t + alt - src
    if src ≤ 4096 * t + alt ∧ s.retryEn ∧ s.good (a / 4096) ∧ (a % 4096 = 0 ∨ s.good (a / 4096 + 1)) then some a else none

/-- Bytes of memory. -/
def State.bytesAt (s : State) (a n : Nat) : List Byte := Tab.getList s.mem.bytes a n

/-- The number in `n` bytes of memory (R11). -/
def State.natAt (s : State) (a n : Nat) : Nat := leNat (s.bytesAt a n)

/-- Plain data into memory: the bytes, and no guard bits beyond the sign of each word written (R190). -/
def State.putBytes (s : State) (a : Nat) (bs : List Byte) : State :=
  { s with mem := { s.mem with
      bytes := Tab.setList s.mem.bytes a bs
      guard := (List.range ((a % 8 + bs.length + 7) / 8)).foldl (fun g i => Tab.set g (a / 8 + i) 0) s.mem.guard } }

/-- R178: the check word after a whole-tile write of data with the given status. -/
def Tile.written (w st : Tile) : Tile :=
  { poisoned := false, overflow := st.overflow, sat := st.sat, atomic := w.atomic, k := st.k, format := st.format, syndrome := 0 }

/-- What one tile's check gives: the state, the status, and the counterpart's address when the alternative source is used. -/
structure Check where
  st : State
  code : Code := .OK
  alt : Option Nat := none

/-- R177, R178, R515: a check of tile `t` by `r`. -/
def State.check (s : State) (r : Reader) (t : Nat) : Check :=
  let w := s.tile t
  if w.poisoned then { st := s.countPoison r, code := .TILE_POISONED }
  else if w.syndrome = 0 then { st := s }
  else
    let s1 := s.countFail r
    match s1.counterpart r t with
    | some a =>
      let s2 := s1.countRetry r
      let s3 := if s2.repairEn then (s2.putBytes (4096 * t) (s2.bytesAt a 4096)).setTile t (Tile.written w w) else s2
      { st := s3, alt := some a }
    | none =>
      let c := crc32c (s1.bytesAt (4096 * t) 4096)
      { st := (s1.poison t).raise .TILE_CRC r.src [4096 * t, r.who, w.syndrome ^^^ c, c], code := .TILE_CRC }

/-- R190: a read of an FX64 target tile in which some word does not fit 64 bits sets OVERFLOW and counts the tile. -/
def State.guardRead (s : State) (t : Nat) : State :=
  match locate s.part.variant (4096 * t) with
  | .msram m _ =>
    let w := s.tile t
    if w.atomic && w.format == 1 && s.mem.guard.any (fun e => e.1 / 512 == t && e.2 != 0) then
      (s.setTile t { w with overflow := true }).bump (memReg m Reg.ATOM_OVERFLOW_TOTAL) 1
    else s
  | _ => s

/-! ### Reduction digests (R188, R413) -/

/-- The atomic target region that holds an address. -/
def State.atomAt (s : State) (a : Nat) : Option AtomRegion :=
  s.mem.atoms.find? (fun r => decide (r.base ≤ a) && decide (a < r.base + 4096 * r.tiles))

/-- The value of an FX64 target word with its guard bits (R190). -/
def State.fxWord (s : State) (a : Nat) : Int := signed 64 (s.natAt a 8) + Tab.get s.mem.guard (a / 8) * (2 ^ 64 : Nat)

/-- The seed of a CHECKED region in the step in progress. -/
def State.regionSeed (s : State) (r : AtomRegion) : Nat := collSeed s.step.num 0xFFFF r.number 0

/-- Index of the word at an address of a region, counted from 1. -/
def AtomRegion.index (r : AtomRegion) (a : Nat) : Nat := (a - r.base) / (if r.i32 then 4 else 8) + 1

/-- The digest of a tile's guarded words. -/
def State.tileDigest (s : State) (r : AtomRegion) (t : Nat) : Nat :=
  digestOf (s.regionSeed r) (r.index (4096 * t)) (if r.i32 then (List.range 1024).map (fun i => signed 32 (s.natAt (4096 * t + 4 * i) 4))
    else (List.range 512).map (fun i => s.fxWord (4096 * t + 8 * i)))

/-- R413: a tile of a CHECKED region that is read is compared with its running sum, unless it carries SAT. -/
def State.reduceCheck (s : State) (r : Reader) (t : Nat) : Check :=
  match s.atomAt (4096 * t) with
  | some y =>
    let sum := Tab.get s.mem.sums t
    if !y.checked || (s.tile t).sat || s.tileDigest y t == sum then { st := s }
    else { st := ((s.poison t).raise .REDUCE_DIGEST_MISMATCH r.src [y.number, 4096 * t, sum, s.tileDigest y t]).bump
             (dieReg (r.die.getD 0) Reg.SE_REDUCE_DIGEST_TOTAL) 1, code := .REDUCE_DIGEST }
  | none => { st := s }

/-! ### HBM rows (R183) -/

/-- Key of the bank that a stack offset lies in, and its row. -/
def hbmBank (n a : Nat) : Nat × Nat :=
  let b := a % 0x300000000
  ((((n * 32 + a / 2 ^ 8 % 32) * 3 + a / 0x300000000) * 4 + b / 2 ^ 15 % 4) * 4 + b / 2 ^ 17 % 4, b / 2 ^ 19)

/-- An access to one 256-byte unit opens its row, or with CLOSE_PAGE leaves the bank with none open. -/
def State.touchUnit (s : State) (n a : Nat) : State :=
  let x := hbmBank n a
  let keep := !(bitOf (s.cfg (memReg (n / 2) Reg.MEM_CFG)) 0)
  { s with mem := { s.mem with row := Tab.set s.mem.row x.1 (if keep then x.2 + 1 else 0) } }

/-- The rows that an access to one piece opens. -/
def State.touch (s : State) (p : Piece) : State :=
  match locate s.part.variant p.1 with
  | .hbm n o => (List.range ((o % 256 + p.2 + 255) / 256)).foldl (fun s i => s.touchUnit n (o / 256 * 256 + 256 * i)) s
  | _ => s

/-- R184: what the stacks report during an access. -/
def State.hbmReports (s : State) : List HbmReport → State
  | [] => s
  | r :: t =>
    State.hbmReports (match locate s.part.variant r.addr with
      | .hbm n o =>
        if r.corrected then s.bump (memReg (n / 2) Reg.HBM_ECC_CORR_TOTAL) 1
        else ((s.poison (r.addr / 4096)).bump (memReg (n / 2) Reg.HBM_ECC_UNCORR_TOTAL) 1).raise .HBM_UNCORRECTABLE
          (Src.ofMdie (n / 2)) [n, o / 2 ^ 8 % 32, r.addr]
      | _ => s) t

/-! ### Waiting (R183, R199, R200) -/

/-- Table 6-2: the class code of the path from core `q` to an address. -/
def pathClass (v : Variant) (q a : Nat) : Nat :=
  match locate v a with
  | .sp d k c _ =>
    if d = coreDie q then (if k = coreCluster q then (if c = coreIndex q then 0 else 2) else 3) else 4
  | .msram _ _ => 5
  | .hbm _ _ => 6
  | _ => 7

/-- A request of a core waits in its class, and at its M-die, for times that the model leaves open; SP_SEL_WAIT counts by core (log 4). -/
def State.waited (s : State) (src : Src) (a : Nat) : State :=
  let q := coreKey src.die src.cluster src.core
  let n := Config.free s.fresh
  let s1 := match locate s.part.variant a with
    | .msram m _ => s.bump (memReg m Reg.MSRAM_WAIT_TOTAL) (Config.free (s.fresh + 1))
    | .hbm k _ => s.bump (memReg (k / 2) Reg.HBM_WAIT_TOTAL) (Config.free (s.fresh + 1))
    | _ => s
  let s2 := if src.dom = 2 ∧ src.ty = 0 then
      { s1.bump (dieReg src.die (Reg.SP_WAIT_LOCAL_TOTAL + 8 * min 6 (pathClass s.part.variant q a))) n with
        mem := { s1.mem with coreWait := Tab.upd s1.mem.coreWait q (fun x => min (2 ^ 64 - 1) (x + n)) } }
    else s1
  { s2 with fresh := s.fresh + 2 }

/-! ### Reads -/

/-- What a read gives: the state, the bytes, the first bad status and its address, and the tiles recovered from the alternative source. -/
structure Rd where
  st : State
  bytes : List Byte := []
  code : Code := .OK
  addr : Nat := 0
  retried : Nat := 0

/-- The checks of R177 on one piece: a whole tile by its reader, part of an M-die or HBM tile by its M-die, part of a scratchpad tile not at all. -/
def State.readPiece (s : State) (r : Reader) (p : Piece) : Check :=
  let t := p.1 / 4096
  let s := (s.touch p).guardRead t
  if p.2 = 4096 then s.check r t
  else match locate s.part.variant p.1 with
    | .sp d _ _ _ =>
      let s1 := s.bump (dieReg d Reg.SP_PARTIAL_READ_TOTAL) 1
      if (s.tile t).poisoned then { st := s1.countPoison r, code := .TILE_POISONED } else { st := s1 }
    | l => s.check { r with die := none, mdie := l.mdie.getD 0 } t

/-- The checks of R177 and R413. -/
def State.readChecked (s : State) (r : Reader) (p : Piece) : Check :=
  let c := s.readPiece r p
  if c.code = .OK ∧ c.alt.isNone then c.st.reduceCheck r (p.1 / 4096) else c

/-- The pieces of a read in ascending order; a piece that fails ends it. -/
def State.readPieces (s : State) (r : Reader) : List Piece → Rd
  | [] => { st := s }
  | p :: t =>
    let c := s.readChecked r p
    if c.code = .OK then
      let bs := c.st.bytesAt (match c.alt with | some a => a + p.1 % 4096 | none => p.1) p.2
      let y := State.readPieces c.st r t
      { y with bytes := bs ++ y.bytes, retried := y.retried + (if c.alt.isSome then 1 else 0) }
    else { st := c.st, code := c.code, addr := p.1 }

/-- A read of `n` bytes at `a` (R163, R177, R178). -/
def State.read (s : State) (r : Reader) (a n : Nat) : Rd :=
  match s.blocked (piecesOf a n) with
  | some (x, c) => { st := s.reportBlocked x c r.src, code := c, addr := x }
  | none => (s.waited r.src a).readPieces r (piecesOf a n)

/-! ### Writes -/

/-- One piece of a write: a whole tile takes a new check word with the status of its data, part of a tile leaves it as it is (R176, R178). -/
def State.writePiece (s : State) (st : Tile) (a : Nat) (bs : List Byte) : State :=
  let s1 := (s.touch (a, bs.length)).putBytes a bs
  if bs.length = 4096 ∧ a % 4096 = 0 then s1.setTile (a / 4096) (Tile.written (s1.tile (a / 4096)) st) else s1

/-- The pieces of a write in ascending order; `st` is the status of the data that each tile takes. -/
def State.writePieces (s : State) (st : Nat → Tile) (bs : List Byte) : List Piece → State
  | [] => s
  | p :: t => State.writePieces (s.writePiece (st (p.1 / 4096)) p.1 (bs.take p.2)) st (bs.drop p.2) t

/-- What a write gives. -/
structure Wr where
  st : State
  code : Code := .OK
  addr : Nat := 0

/-- A write of bytes at `a`; when any of it cannot be reached, none of it is performed (R163, R182). -/
def State.write (s : State) (src : Src) (st : Tile) (a : Nat) (bs : List Byte) : Wr :=
  match s.blocked (piecesOf a bs.length) with
  | some (x, c) => { st := s.reportBlocked x c src, code := c, addr := x }
  | none => { st := (s.waited src a).writePieces (fun _ => st) bs (piecesOf a bs.length) }

/-- R178: a transfer that ends with TILE_CRC also poisons its destination tiles. -/
def State.poisonRange (s : State) (a n : Nat) : State :=
  (piecesOf a n).foldl (fun s p => if s.reach p.1 = .OK then s.poison (p.1 / 4096) else s) s

/-- The status of the data that a copy from `a` to `b` brings to tile `t`: that of the source tile where tiles are copied whole onto tiles, raw otherwise (log 21). -/
def State.dataStatus (s : State) (a b t : Nat) : Tile :=
  if a % 4096 = 0 ∧ b % 4096 = 0 then s.tile (a / 4096 + (t - b / 4096)) else {}

/-- Copies `n` bytes from `a` to `b` (R172, R177, R178). -/
def State.copy (s : State) (r : Reader) (a b n : Nat) : Rd :=
  match s.blocked (piecesOf b n) with
  | some (x, c) => { st := s.reportBlocked x c r.src, code := c, addr := x }
  | none =>
    let x := (s.waited r.src b).read r a n
    if x.code = .OK then { x with st := x.st.writePieces (s.dataStatus a b) x.bytes (piecesOf b n) }
    else if x.code = .TILE_CRC then { x with st := x.st.poisonRange b n }
    else x

end Sys2Proof.Machine
end

