-- ==== Sys2Proof/Machine/Operands.lean ====
section
/-! DEFINITION. Operand forms: the fields of a sequencer instruction (R306), its registers and immediates, packets and their tags (R298). -/

namespace Sys2Proof.Machine

/-- Table 10-3: the 64-bit word of an instruction. -/
def instrWord (opc : Nat) (f : SeqFields) : Nat :=
  opc % 64 * 2 ^ 58 + f.a % 16 * 2 ^ 54 + f.b % 16 * 2 ^ 50 + f.c % 16 * 2 ^ 46 + f.d % 8 * 2 ^ 43
    + f.mod % 2 ^ 11 * 2 ^ 32 + f.imm % 2 ^ 32

/-- Table 10-3: the opcode of a word. -/
def wordOpc (w : Nat) : Nat := bitsOf w 58 6

/-- Table 10-3: the fields of a word. -/
def wordFields (w : Nat) : SeqFields :=
  { a := bitsOf w 54 4, b := bitsOf w 50 4, c := bitsOf w 46 4, d := bitsOf w 43 3, mod := bitsOf w 32 11, imm := bitsOf w 0 32 }

/-- Which register fields an opcode uses, and which MOD bits it defines (R306, Table 10-4). -/
structure Uses where
  a : Bool := false
  b : Bool := false
  c : Bool := false
  d : Bool := false
  mod : Nat := 0
  deriving DecidableEq, Repr, Inhabited

/-- Table 10-4: the operands of each opcode; `none` where the table has none. -/
def usesOf (opc : Nat) : Option Uses :=
  match opc with
  | 0x00 => some {}
  | 0x01 => some {}
  | 0x02 => some { a := true, mod := 1 }
  | 0x03 => some { a := true, b := true }
  | 0x04 => some { a := true, b := true, c := true, mod := 0xF }
  | 0x05 => some { a := true, b := true }
  | 0x06 => some { a := true, b := true }
  | 0x07 => some {}
  | 0x08 => some { a := true, b := true, mod := 7 }
  | 0x09 => some { a := true }
  | 0x0A => some { a := true }
  | 0x0B => some { a := true }
  | 0x0C => some { a := true }
  | 0x0D => some { a := true, b := true, c := true }
  | 0x10 => some { a := true, d := true, mod := 3 }
  | 0x11 => some { a := true, d := true, mod := 3 }
  | 0x14 => some { a := true, d := true, mod := 3 }
  | 0x15 => some { a := true, d := true }
  | 0x16 => some { a := true, b := true, d := true }
  | 0x17 => some { a := true, d := true }
  | 0x18 => some { a := true, d := true }
  | 0x1A => some { a := true, b := true, c := true, d := true, mod := 7 }
  | 0x1B => some { a := true, b := true, c := true, d := true, mod := 3 }
  | 0x1C => some { a := true, b := true, d := true }
  | 0x20 => some { a := true, b := true }
  | 0x21 => some { a := true, b := true, mod := 1 }
  | 0x22 => some { a := true, b := true }
  | 0x23 => some { d := true }
  | 0x24 => some { d := true }
  | 0x25 => some {}
  | 0x26 => some {}
  | 0x27 => some { a := true }
  | _ => none

/-- The codes of MOD that Table 10-4 calls reserved: ALU ops 11 to 15, comparisons 6 and 7, and a copy class above 6 (log 22). -/
def reservedMod (opc mod : Nat) : Bool :=
  (opc == 0x04 && decide (11 ≤ mod % 16)) || (opc == 0x08 && decide (6 ≤ mod % 8)) || (opc == 0x1A && mod % 8 == 7)

/-- R306: every field that must be 0 is 0. -/
def fieldsOk (opc : Nat) (f : SeqFields) : Bool :=
  match usesOf opc with
  | none => false
  | some u =>
    (u.a || f.a == 0) && (u.b || f.b == 0) && (u.c || f.c == 0) && (u.d || f.d == 0)
      && f.mod == f.mod &&& u.mod && !reservedMod opc f.mod

/-- An immediate used as a value: sign-extended to 64 bits (Table 10-3). -/
def immWord (imm : Nat) : Word := (BitVec.ofNat 32 imm).signExtend 64

/-- Register `r` of a sequencer; a0 reads as 0. -/
def Sequencer.get (x : Sequencer) (r : Nat) : Word := if r = 0 then 0#64 else Tab.get x.a r

/-- Writes register `r` of a sequencer; a0 ignores writes. -/
def Sequencer.put (x : Sequencer) (r : Nat) (v : Word) : Sequencer :=
  if r = 0 then x else { x with a := Tab.set x.a r v }

/-- Writes `a8`, `a9` and so on. -/
def Sequencer.putAll (x : Sequencer) (r : Nat) : List Word → Sequencer
  | [] => x
  | v :: t => Sequencer.putAll (x.put r v) (r + 1) t

/-- Table 10-4, ALU. -/
def aluOp (op : Nat) (x y : Word) : Word :=
  match op with
  | 0 => x + y
  | 1 => x - y
  | 2 => x &&& y
  | 3 => x ||| y
  | 4 => x ^^^ y
  | 5 => x <<< (y.toNat % 64)
  | 6 => x >>> (y.toNat % 64)
  | 7 => x.sshiftRight (y.toNat % 64)
  | 8 => x * y
  | 9 => if x.slt y then x else y
  | _ => if x.slt y then y else x

/-- Table 10-4, BRANCH. -/
def cmpHolds (cmp : Nat) (x y : Word) : Bool :=
  match cmp with
  | 0 => x == y
  | 1 => x != y
  | 2 => x.slt y
  | 3 => !x.slt y
  | 4 => x.ult y
  | _ => !x.ult y

/-! ### Packet tags (Table 10-1) -/

def tagPriority (t : Nat) : Nat := bitsOf t 0 3
def tagFlits (t : Nat) : Nat := bitsOf t 3 2 + 1
def tagDest (t : Nat) : Nat := bitsOf t 5 4
def tagKind (t : Nat) : Nat := bitsOf t 9 2
def tagWriter (t : Nat) : Nat := bitsOf t 11 4
def tagDone (t : Nat) : Nat := bitsOf t 15 3
def tagDoneValid (t : Nat) : Bool := bitOf t 18
/-- The queue sets WRITER (Table 10-1). -/
def tagSetWriter (t w : Nat) : Nat := t - bitsOf t 11 4 * 2 ^ 11 + w % 16 * 2 ^ 11

/-- R300: a packet the queue refuses. -/
def tagRefused (t : Nat) : Bool :=
  decide (9 ≤ tagDest t) || tagKind t == 3 || bitsOf t 19 13 != 0
    || (tagKind t == 1 && !(tagFlits t == 1 && tagDest t == 8)) || (tagDest t == 8 && tagKind t != 1)

/-- The bytes of a list cut into words of `w` bytes. -/
def chunkNats (w : Nat) : Nat → List Byte → List Nat
  | 0, _ => []
  | n + 1, bs => leNat (bs.take w) :: chunkNats w n (bs.drop w)

end Sys2Proof.Machine
end

