-- ==== Sys2Proof/Machine/Abandon.lean ====
section
/-! DEFINITION. Suspect windows and the abandoning of a step (R236, R408, R414 to R417). -/

namespace Sys2Proof.Machine

def State.queue (s : State) (g : Nat) : Queue := Tab.get s.wq g
def State.setQueue (s : State) (g : Nat) (x : Queue) : State := { s with wq := Tab.set s.wq g x }

/-- The die of the active steward (R5, R235). -/
def State.stewardDie (s : State) : Nat := if s.step.standby then 4 else 0

/-! ### Windows (R408, R417) -/

/-- A detection opens a suspect window. -/
def State.openWindow (s : State) (w : Window) : State := { s with det := { s.det with windows := s.det.windows ++ [w] } }

/-! ### Abandoning a step (R414, R415) -/

/-- Codes of Table 14-1 in its order. -/
def DetClass.code : DetClass → Nat
  | .arithShadow => 0 | .arithRef => 1 | .transport => 2 | .reduction => 3 | .fleet => 4 | .readback => 5

/-- Every sequencer stops, and what it queued ends (R305, R414). -/
def State.stopSequencers (s : State) : State :=
  { s with seqs := s.seqs.filterMap (fun e =>
      let x : Sequencer := { e.2 with st := .idle, cause := .none, ops := [], ran := [], stopping := false, faultPending := false }
      if x = (default : Sequencer) then none else some (e.1, x)) }

/-- R304: a work queue is flushed with a full mask. -/
def State.flushQueue (s : State) (g : Nat) : State :=
  let x := s.queue g
  ((s.setQueue g { x with pkts := [] }).bump (dieReg (g / 9) Reg.WQ_FLUSH_DISCARD_TOTAL) x.pkts.length).raise .WQ_FLUSHED (Src.ofCluster g) [g, x.pkts.length]

/-- The clusters of the fitted dies. -/
def State.clusters (s : State) : List Nat := s.dies.flatMap (fun d => (List.range 8).map (clusterKey d))

/-- Whether a remote operation is that of a sequencer's op or of a queued DMA command. -/
def Issuer.queued : Issuer → Bool
  | .op _ _ => true
  | .dma _ _ => true
  | _ => false

/-- What every abandoned step leaves (R236, R414): no pass, verdict, run or trouble of the step remains; sequencers are stopped and queues flushed. -/
def State.dropStep (s : State) : State :=
  let s1 := { s.stopSequencers with passes := [], verdicts := [], runs := [], troubles := [], flight := [], walks := []
                                    fab := { s.fab with remotes := s.fab.remotes.filter (fun r => !r.issuer.queued) } }
  s1.clusters.foldl (fun s g => s.flushQueue g) s1

/-- R414, R415: a fault of the step in progress, with the class and status it is reported under, its address and the sequences that the failing op named. The step runs again at the next boundary; a second fault at one address is persistent, and the sequences concerned pause. -/
def State.abandon (s : State) (cls : DetClass) (status : Code) (addr : Nat) (seqs : List Nat) : State :=
  if !s.step.running || s.step.committed || s.step.abandoned then s
  else
    let t : StepSt := s.step
    let again := t.attempt != 0 && t.faultAddr.contains addr
    let out : List Nat := if seqs.isEmpty then t.admitted.map Admit.idx else seqs
    let s1 := { s with step := { t with abandoned := true, attempt := t.attempt + 1, faultAddr := addr :: t.faultAddr
                                        excluded := if again then t.excluded ++ out else t.excluded, rerun := t.admitted.map Admit.idx } }
    let s2 := ((s1.raise .STEP_ABANDONED Src.steward [t.num, cls.code, statusNumber status, addr] status).bump
      (dieReg s.stewardDie Reg.SE_STEP_ABANDON_TOTAL) 1).dropStep
    if again then s2.raise .FAULT_PERSISTENT Src.steward [addr] else s2

/-- R414: the statuses with which a sequencer's fault abandons the step. -/
def abandons (c : Code) : Bool := c == .TILE_CRC || c == .TILE_POISONED || c == .REDUCE_DIGEST || c == .REMOTE_UNKNOWN || c == .REMOTE_TIMEOUT

/-- R408, R414: a sequencer has faulted with a status; one of R414 is a detection of the step in progress. -/
def State.faultDetected (s : State) (c : Code) (addr : Nat) (seqs : List Nat) : State :=
  if !abandons c || !s.step.running || s.step.committed || s.step.abandoned then s
  else
    let cls : DetClass := if c = .REDUCE_DIGEST then .reduction else .transport
    (s.openWindow { cls := cls, first := s.step.num, last := s.step.num, all := true }).abandon cls c addr seqs

end Sys2Proof.Machine
end

