-- ==== Sys2Proof/Machine/Sequencer.lean ====
section
/-! DEFINITION. Sequencers: issue, faults, queued ops and the instructions of Table 10-4 that act within a core, with the commands of the Hearth core (R305 to R313). -/

namespace Sys2Proof.Machine

def State.seq (s : State) (q : Nat) : Sequencer := Tab.get s.seqs q
def State.setSeq (s : State) (q : Nat) (x : Sequencer) : State := { s with seqs := Tab.set s.seqs q x }

/-- An interrupt to the Hearth core of a cluster (R302, R307, R312). -/
def State.hearthIrq (s : State) (g : Nat) : State :=
  { s with wq := Tab.upd s.wq g (fun x => { x with hearthIrq := x.hearthIrq + 1 }) }

/-- Key of an entry of a core's instruction store. -/
def storeKey (q pc : Nat) : Nat := q * 4096 + pc

/-- The word in a sequencer's store. -/
def State.storeAt (s : State) (q pc : Nat) : Nat := (Tab.get s.store (storeKey q pc)).toNat

/-- The C-clock counter of a core's die (R27). -/
def State.cClock (s : State) (d : Nat) : Nat := Tab.get s.time.dom (Src.ofDie d).key

/-- The sequencer enters FAULTED with its record; the fault is counted, reported, and interrupts the Hearth core (R312), and the steward acts on it (R414). -/
def State.enterFault (s : State) (q : Nat) (r : FaultRec) : State :=
  let x := s.seq q
  let s1 := s.setSeq q { x with st := .faulted, cause := .none, fault := r, faultPending := false, stopping := false }
  (((s1.bump (dieReg (coreDie q) Reg.SEQ_FAULT_TOTAL) 1).hearthIrq (q / 8)).raise .SEQ_FAULT (Src.ofCore q)
    [q, r.pc, r.reason, r.word, r.opAddr] r.status).faultDetected r.status r.opAddr r.seqs

/-- An instruction fault (R307, R312). -/
def State.instrFault (s : State) (q pc : Nat) (status : Code) (addr : Nat := 0) : State :=
  s.enterFault q { pc := pc % 2 ^ 16, status := status, instruction := true, word := s.storeAt q (pc % 4096), opAddr := addr, stamp := s.cClock (coreDie q) }

/-- The sequencer goes on at index `pc`: it stops when a STOP or a fault met its stall, faults beyond index 4,095 or on an opcode outside the table, and otherwise runs (R305, R307, R312). -/
def State.seqGoto (s : State) (q pc : Nat) : State :=
  let x := s.seq q
  if x.faultPending then s.enterFault q x.fault
  else if x.stopping then s.setSeq q { x with st := .idle, cause := .none, pc := pc, stopping := false }
  else if 4095 < pc then s.instrFault q pc .SEQ_PC_RANGE
  else if (usesOf (wordOpc (s.storeAt q pc))).isNone then (s.setSeq q { x with pc := pc }).instrFault q pc .SEQ_OPCODE
  else s.setSeq q { x with st := .running, cause := .none, pc := pc }

/-- The sequencer stalls at its instruction. -/
def State.stall (s : State) (q : Nat) (c : Stall) : State :=
  s.setSeq q { s.seq q with st := .stalled, cause := c }

/-- The instruction `opc f` is the one that the sequencer issues now: it is running, or stalled by `c` at that instruction. -/
def State.issues (s : State) (q opc : Nat) (f : SeqFields) (c : Stall) : Bool :=
  let x := s.seq q
  (x.st == .running || (x.st == .stalled && x.cause == c && c != .none)) && s.fits (coreDie q)
    && decide (x.pc ≤ 4095) && s.storeAt q x.pc == instrWord opc f

/-- R306, R307: an instruction is issued; a nonzero field that must be 0 faults. -/
def State.issue (s : State) (q opc : Nat) (f : SeqFields) (c : Stall) (k : Sequencer → State) : State :=
  let x := s.seq q
  if s.issues q opc f c then (if fieldsOk opc f then k x else s.instrFault q x.pc .SEQ_OPCODE) else s

/-- Writes a register and goes on at the next index. -/
def State.seqSet (s : State) (q : Nat) (x : Sequencer) (r : Nat) (v : Word) : State :=
  (s.setSeq q (x.put r v)).seqGoto q (x.pc + 1)

/-! ### Queued ops (R308, R309) -/

/-- R309: the depth of each op queue. -/
def OpUnit.depth : OpUnit → Nat
  | .eng _ => 4
  | .dEng => 8
  | .copy => 16

/-- Entries of a unit's queue in use: an op holds its entry until it has completed or faulted. -/
def Sequencer.queued (x : Sequencer) (u : OpUnit) : Nat :=
  (x.ops.filter (·.unit == u)).length + (x.ran.filter (·.op.unit == u)).length

/-- Table 10-4: an instruction that queues an op. -/
def State.enqueue (s : State) (q opc : Nat) (f : SeqFields) (u : OpUnit) : State :=
  s.issue q opc f .opQueue fun x =>
    if u.depth ≤ x.queued u then s.stall q .opQueue
    else
      let s0 := if x.st = .stalled then s.bumpWait (dieReg (coreDie q) Reg.SEQ_ISSUE_STALL_TOTAL) else s
      let o : Op := { opc := opc, unit := u, a := s.loc (x.get f.a).toNat, b := s.loc (x.get f.b).toNat, c := (x.get f.c).toNat,
                      d := f.d, mod := f.mod, imm := f.imm, pc := x.pc, word := instrWord opc f }
      (s0.setSeq q { x with ops := x.ops ++ [o] }).seqGoto q (x.pc + 1)

/-- The op that a unit of a core runs next: the oldest in its queue. -/
def Sequencer.next (x : Sequencer) (u : OpUnit) (opc : Nat) : Option Op :=
  match x.ops.find? (·.unit == u) with
  | some o => if o.opc = opc then some o else none
  | none => none

/-- The op has run: it waits for its completion or fault to reach the sequencer. -/
def State.opRan (s : State) (q : Nat) (o : Op) (status : Code) (reason addr : Nat) (hold : Bool := false) : State :=
  let x := s.seq q
  s.setSeq q { x with ops := x.ops.erase o, ran := x.ran ++ [{ op := o, status := status, reason := reason, addr := addr, hold := hold }] }

/-- Whether the instruction at which a sequencer is stalled may go on (DONE_WAIT, FENCE; R308). -/
def State.released (s : State) (q : Nat) : Bool :=
  let x := s.seq q
  let f := wordFields (s.storeAt q x.pc)
  match x.cause with
  | .doneWait => decide (f.imm % 2 ^ 16 ≤ Tab.get x.d f.d)
  | .fence => x.ops.isEmpty && x.ran.isEmpty
  | _ => false

/-- A stall that has ended lets the sequencer go on (R308). -/
def State.release (s : State) (q : Nat) : State :=
  let x := s.seq q
  if x.st = .stalled ∧ s.released q then s.seqGoto q (x.pc + 1) else s

/-- R308: a done counter increments, saturating at 0xFFFF. -/
def Sequencer.done (x : Sequencer) (d : Nat) : Sequencer :=
  { x with d := Tab.set x.d d (min 0xFFFF (Tab.get x.d d + 1)) }

/-- The fault of an op reaches the sequencer: at once, or at the end of its stall (R312). A sequencer that is idle or already FAULTED keeps its state (log 23). -/
def State.opFault (s : State) (q : Nat) (r : FaultRec) : State :=
  let x := s.seq q
  match x.st with
  | .running => s.enterFault q r
  | .stalled => if x.faultPending then s else (s.setSeq q { x with fault := r, faultPending := true })
  | _ => s

/-- The sequences that an op names: SEQ of its op block or of its walk record (R415). -/
def State.opSeqs (s : State) (o : Op) : List Nat :=
  if o.opc = 0x10 ∨ o.opc = 0x14 then [s.natAt (o.a + 44) 4 % 2 ^ 20] else if o.opc = 0x18 then [s.natAt o.a 4 % 2 ^ 20] else []

/-- R308, R312: entry `i` of the ops that have run completes, or faults its sequencer. -/
def State.opCompletion (s : State) (q i : Nat) : State :=
  let x := s.seq q
  match x.ran[i]? with
  | none => s
  | some r =>
    if r.hold then s
    else
      let s1 := s.setSeq q { x with ran := x.ran.eraseIdx i }
      if r.status = .OK then (s1.setSeq q ((s1.seq q).done r.op.d)).release q
      else (s1.opFault q { pc := r.op.pc, status := r.status, reason := r.reason, done := r.op.d, word := r.op.word, opAddr := r.addr, stamp := s.cClock (coreDie q), seqs := s.opSeqs r.op }).release q

def execOpCompletion (q i : Nat) (s : State) : Host.Outcome State Fault Refusal := .next (s.opCompletion q i)

/-! ### The instructions -/

def execNop (q : Nat) (f : SeqFields) (s : State) : Host.Outcome State Fault Refusal :=
  .next (s.issue q 0x00 f .none fun x => s.seqGoto q (x.pc + 1))

def execHalt (q : Nat) (f : SeqFields) (s : State) : Host.Outcome State Fault Refusal :=
  .next (s.issue q 0x01 f .none fun x =>
    (s.setSeq q { x with st := .idle, pc := x.pc + 1 }).hearthIrq (q / 8))

def execSeti (q : Nat) (f : SeqFields) (s : State) : Host.Outcome State Fault Refusal :=
  .next (s.issue q 0x02 f .none fun x =>
    s.seqSet q x f.a (if f.mod % 2 = 1 then BitVec.ofNat 64 (f.imm % 2 ^ 32 * 2 ^ 32 + (x.get f.a).toNat % 2 ^ 32) else immWord f.imm))

def execAddi (q : Nat) (f : SeqFields) (s : State) : Host.Outcome State Fault Refusal :=
  .next (s.issue q 0x03 f .none fun x => s.seqSet q x f.a (x.get f.b + immWord f.imm))

def execAlu (q : Nat) (f : SeqFields) (s : State) : Host.Outcome State Fault Refusal :=
  .next (s.issue q 0x04 f .none fun x => s.seqSet q x f.a (aluOp (f.mod % 16) (x.get f.b) (x.get f.c)))

/-- An address that LD and ST accept: 8-byte aligned, in the core's own scratchpad (Table 10-4, R307). -/
def ownAddr (q a : Nat) : Bool :=
  a % 8 == 0 && decide (coreBase q ≤ a) && decide (a < coreBase q + 2 ^ 22) && decide (coreCluster q < 8)

def execLd (q : Nat) (f : SeqFields) (s : State) : Host.Outcome State Fault Refusal :=
  .next (s.issue q 0x05 f .none fun x =>
    let a := s.loc (x.get f.b + immWord f.imm).toNat
    if ownAddr q a then
      let r := s.read (Reader.ofCore q) a 8
      if r.code = .OK then r.st.seqSet q x f.a (BitVec.ofNat 64 (leNat r.bytes)) else r.st.instrFault q x.pc r.code a
    else s.instrFault q x.pc .SEQ_ADDRESS a)

def execSt (q : Nat) (f : SeqFields) (s : State) : Host.Outcome State Fault Refusal :=
  .next (s.issue q 0x06 f .none fun x =>
    let a := s.loc (x.get f.b + immWord f.imm).toNat
    if ownAddr q a then
      let r := s.write (Src.ofCore q) {} a (leBytes 8 (x.get f.a).toNat)
      if r.code = .OK then r.st.seqGoto q (x.pc + 1) else r.st.instrFault q x.pc r.code a
    else s.instrFault q x.pc .SEQ_ADDRESS a)

def execJump (q : Nat) (f : SeqFields) (s : State) : Host.Outcome State Fault Refusal :=
  .next (s.issue q 0x07 f .none fun _ => s.seqGoto q (f.imm % 2 ^ 32))

def execBranch (q : Nat) (f : SeqFields) (s : State) : Host.Outcome State Fault Refusal :=
  .next (s.issue q 0x08 f .none fun x =>
    s.seqGoto q (if cmpHolds (f.mod % 8) (x.get f.a) (x.get f.b) then f.imm % 2 ^ 32 else x.pc + 1))

def execJumpr (q : Nat) (f : SeqFields) (s : State) : Host.Outcome State Fault Refusal :=
  .next (s.issue q 0x09 f .none fun x => s.seqGoto q ((x.get f.a).toNat % 4096))

def execLoop (q : Nat) (f : SeqFields) (s : State) : Host.Outcome State Fault Refusal :=
  .next (s.issue q 0x0A f .none fun x =>
    let v := x.get f.a - 1#64
    (s.setSeq q (x.put f.a v)).seqGoto q (if v = 0#64 then x.pc + 1 else f.imm % 2 ^ 32))

/-- The packet-buffer word; the manual gives none beyond word 23, which is a free value (log 24). -/
def execPbld (q : Nat) (f : SeqFields) (s : State) : Host.Outcome State Fault Refusal :=
  .next (s.issue q 0x0C f .none fun x =>
    let w := f.imm % 32
    if w < 24 then s.seqSet q x f.a (BitVec.ofNat 64 (leNat ((x.pbuf.drop (8 * w)).take 8)))
    else { s with fresh := s.fresh + 1 }.seqSet q x f.a (BitVec.ofNat 64 (Config.free s.fresh)))

def execArrayMv (q : Nat) (f : SeqFields) (s : State) : Host.Outcome State Fault Refusal :=
  .next (s.enqueue q 0x10 f (.eng (f.mod % 4)))

def execArrayRead (q : Nat) (f : SeqFields) (s : State) : Host.Outcome State Fault Refusal :=
  .next (s.enqueue q 0x11 f (.eng (f.mod % 4)))

def execDMv (q : Nat) (f : SeqFields) (s : State) : Host.Outcome State Fault Refusal :=
  .next (s.enqueue q 0x14 f .dEng)

def execDVec (q : Nat) (f : SeqFields) (s : State) : Host.Outcome State Fault Refusal :=
  .next (s.enqueue q 0x15 f .dEng)

def execPsumAdd (q : Nat) (f : SeqFields) (s : State) : Host.Outcome State Fault Refusal :=
  .next (s.enqueue q 0x16 f .dEng)

def execKvAppend (q : Nat) (f : SeqFields) (s : State) : Host.Outcome State Fault Refusal :=
  .next (s.enqueue q 0x17 f .dEng)

def execAttWalk (q : Nat) (f : SeqFields) (s : State) : Host.Outcome State Fault Refusal :=
  .next (s.enqueue q 0x18 f .dEng)

def execCopy (q : Nat) (f : SeqFields) (s : State) : Host.Outcome State Fault Refusal :=
  .next (s.enqueue q 0x1A f .copy)

def execAtomicAdd (q : Nat) (f : SeqFields) (s : State) : Host.Outcome State Fault Refusal :=
  .next (s.enqueue q 0x1B f .copy)

def execAtomicClear (q : Nat) (f : SeqFields) (s : State) : Host.Outcome State Fault Refusal :=
  .next (s.enqueue q 0x1C f .copy)

/-- The object a POST, WAIT or SYNC_SET names; beyond 4,095 it names none (R307). -/
def objOf (x : Sequencer) (f : SeqFields) : Nat := f.imm % 4096 + (x.get f.b).toNat % 4096

/-- An object operation leaves the core, or faults when it names no object (R307, R315). -/
def State.syncSend (s : State) (q : Nat) (x : Sequencer) (f : SeqFields) (k : SyncKind) (eq : Bool) (go : State → State) : State :=
  if 4095 < objOf x f then s.instrFault q x.pc .SEQ_OBJECT_RANGE (objOf x f)
  else go { s with flight := s.flight ++ [{ kind := k, obj := objOf x f, val := (x.get f.a).toNat % 2 ^ 32, eq := eq, who := .seq q, pc := x.pc, word := s.storeAt q x.pc }] }

def execPost (q : Nat) (f : SeqFields) (s : State) : Host.Outcome State Fault Refusal :=
  .next (s.issue q 0x20 f .none fun x => s.syncSend q x f .post false (·.seqGoto q (x.pc + 1)))

def execWait (q : Nat) (f : SeqFields) (s : State) : Host.Outcome State Fault Refusal :=
  .next (s.issue q 0x21 f .none fun x => s.syncSend q x f .wait (f.mod % 2 == 1) (·.stall q .wait))

def execSyncSet (q : Nat) (f : SeqFields) (s : State) : Host.Outcome State Fault Refusal :=
  .next (s.issue q 0x22 f .none fun x => s.syncSend q x f .set false (·.seqGoto q (x.pc + 1)))

def execDoneWait (q : Nat) (f : SeqFields) (s : State) : Host.Outcome State Fault Refusal :=
  .next (s.issue q 0x23 f .none fun x =>
    if f.imm % 2 ^ 16 ≤ Tab.get x.d f.d then s.seqGoto q (x.pc + 1) else s.stall q .doneWait)

def execDoneSet (q : Nat) (f : SeqFields) (s : State) : Host.Outcome State Fault Refusal :=
  .next (s.issue q 0x24 f .none fun x =>
    (s.setSeq q { x with d := Tab.set x.d f.d (f.imm % 2 ^ 16) }).seqGoto q (x.pc + 1))

def execFence (q : Nat) (f : SeqFields) (s : State) : Host.Outcome State Fault Refusal :=
  .next (s.issue q 0x25 f .none fun x =>
    if x.ops.isEmpty && x.ran.isEmpty then s.seqGoto q (x.pc + 1) else s.stall q .fence)

def execIntr (q : Nat) (f : SeqFields) (s : State) : Host.Outcome State Fault Refusal :=
  .next (s.issue q 0x26 f .none fun x =>
    ((s.setSeq q { x with hearthCode := f.imm % 256 }).hearthIrq (q / 8)).seqGoto q (x.pc + 1))

def execTick (q : Nat) (f : SeqFields) (s : State) : Host.Outcome State Fault Refusal :=
  .next (s.issue q 0x27 f .none fun x =>
    let s1 := s.domainRuns (Src.ofDie (coreDie q))
    s1.seqSet q x f.a (BitVec.ofNat 64 (s1.cClock (coreDie q))))

/-! ### Commands of the Hearth core (R305, R313) -/

/-- The status a Hearth command leaves in the control words. -/
def State.seqControl (s : State) (q : Nat) (c : Code) : State := s.setSeq q { s.seq q with control := c }

/-- LOAD: `n` instructions from address `a` of the core's scratchpad into the store from index `i`; the store ends at index 4,095. -/
def execSeqLoad (q a i n : Nat) (s : State) : Host.Outcome State Fault Refusal :=
  .next (if (s.seq q).st ≠ .idle then s.seqControl q .SEQ_BUSY
    else
      let r := s.read (Reader.ofCore q) (coreBase q + a) (8 * n)
      let ws := ((chunkNats 8 n r.bytes).map (BitVec.ofNat 64)).take (4096 - i)
      { r.st with store := Tab.setList r.st.store (storeKey q i) ws }.seqControl q .OK)

def execSeqStart (q i : Nat) (s : State) : Host.Outcome State Fault Refusal :=
  .next (if (s.seq q).st ≠ .idle then s.seqControl q .SEQ_BUSY else (s.seqControl q .OK).seqGoto q i)

/-- STOP takes effect at the next issue boundary: at once, or when a stall ends (R305). -/
def execSeqStop (q : Nat) (s : State) : Host.Outcome State Fault Refusal :=
  .next (let x := s.seq q
    if x.st = .stalled then s.setSeq q { x with stopping := true, control := .OK }
    else s.setSeq q { x with st := .idle, cause := .none, control := .OK })

def execSeqResumeRetry (q : Nat) (s : State) : Host.Outcome State Fault Refusal :=
  .next (let x := s.seq q
    if x.st ≠ .faulted then s.seqControl q .SEQ_BUSY
    else (s.seqControl q .OK).seqGoto q x.fault.pc)

def execSeqResumeSkip (q : Nat) (s : State) : Host.Outcome State Fault Refusal :=
  .next (let x := s.seq q
    if x.st ≠ .faulted then s.seqControl q .SEQ_BUSY
    else
      let x1 := if x.fault.instruction then x else x.done x.fault.done
      (s.setSeq q { x1 with control := .OK }).seqGoto q (x.fault.pc + 1))

end Sys2Proof.Machine
end

