-- ==== Sys2Proof/Machine/Sync.lean ====
section
/-! DEFINITION. Synchronisation objects (R314 to R316). -/

namespace Sys2Proof.Machine

/-- R315: whether counter `c` satisfies a wait for `v`. -/
def waitHolds (eq : Bool) (c v : Nat) : Bool :=
  if eq then c % 2 ^ 32 == v % 2 ^ 32 else decide (sub32 c v < 2 ^ 31)

def Waiter.holds (w : Waiter) (c : Nat) : Bool := waitHolds w.eq c w.target

def State.obj (s : State) (n : Nat) : SyncObj := Tab.get s.sync n
def State.setObj (s : State) (n : Nat) (x : SyncObj) : State := { s with sync := Tab.set s.sync n x }

/-- The M-die that holds an object (R20). -/
def objMdie (n : Nat) : Nat := n / 1024

/-- A wake reaches its waiter: a sequencer that waits goes on (R308). -/
def State.wake (s : State) (w : Who) : State :=
  match w with
  | .seq q =>
    let x := s.seq q
    if x.st = .stalled ∧ x.cause = .wait then s.seqGoto q (x.pc + 1) else s
  | _ => s

def State.wakeAll (s : State) : List Waiter → State
  | [] => s
  | w :: r => State.wakeAll (s.wake w.who) r

/-- The object takes a value, and every waiter whose condition now holds is woken (R315). -/
def State.objTake (s : State) (n v : Nat) : State :=
  let x := s.obj n
  let s1 := s.setObj n { x with val := v, waiters := x.waiters.filter (fun w => !w.holds v) }
  (s1.bump (memReg (objMdie n) Reg.SYNC_POST_TOTAL) 1).wakeAll (x.waiters.filter (·.holds v))

/-- The number under which an event names a waiter or a requester: a core's key, and places of the model's choice for the others (log 64). -/
def Who.number : Who → Nat
  | .seq q => q
  | .hearth g => 1000 + g
  | .dma g => 2000 + g

def reqHost : Nat := 3000
def reqColl : Nat := 3001
def reqModule (m : Nat) : Nat := 65536 + m

/-- R314: a post, wait or set to an object that is not ALLOCATED changes nothing, is counted and reported with its requester, and completes with SYNC_FREE, which faults a sequencer. -/
def State.syncRefuse (s : State) (n req : Nat) (m : Option SyncMsg) : State :=
  let s1 := (s.bump (memReg (objMdie n) Reg.SYNC_REFUSED_TOTAL) 1).raise .SYNC_REFUSED (Src.ofMdie (objMdie n)) [n, req]
  match m with
  | some y => match y.who with
    | .seq q =>
      let r : FaultRec := { pc := y.pc, status := .SYNC_FREE, instruction := true, word := y.word, opAddr := n, stamp := s.cClock (coreDie q) }
      let x := s1.seq q
      if y.kind = .wait ∧ x.st = .stalled ∧ x.cause = .wait then s1.enterFault q r else s1.opFault q r
    | _ => s1
  | none => s1

/-- POST δ (R315). -/
def State.objPost (s : State) (n δ req : Nat) (m : Option SyncMsg := none) : State :=
  if (s.obj n).allocated then s.objTake n (add32 (s.obj n).val δ) else s.syncRefuse n req m

/-- SET v (R315). -/
def State.objSet (s : State) (n v req : Nat) (m : Option SyncMsg := none) : State :=
  if (s.obj n).allocated then s.objTake n (v % 2 ^ 32) else s.syncRefuse n req m

/-- WAIT v (R315, R316): a satisfied wait is answered at once, any other is recorded. -/
def State.objWait (s : State) (n v : Nat) (eq : Bool) (who : Who) (m : Option SyncMsg := none) : State :=
  let x := s.obj n
  if !x.allocated then s.syncRefuse n who.number m
  else if waitHolds eq x.val v then s.wake who
  else (s.setObj n { x with waiters := x.waiters ++ [{ who := who, target := v, eq := eq }] }).bump (memReg (objMdie n) Reg.SYNC_WAIT_TOTAL) 1

/-- The message at place `i` of those on their way, when it is of kind `k`. -/
def State.flightAt (s : State) (i : Nat) (k : SyncKind) : Option SyncMsg :=
  match s.flight[i]? with
  | some m => if m.kind = k then some m else none
  | none => none

def State.landed (s : State) (i : Nat) : State := { s with flight := s.flight.eraseIdx i }

/-- R314: an object is freed: set to 0, not ALLOCATED, its waiters released with SYNC_FREE. -/
def State.objFree (s : State) (n : Nat) : State :=
  let x := s.obj n
  (x.waiters).foldl (fun s w => match w.who with
    | .seq q =>
      let y := s.seq q
      if y.st = .stalled ∧ y.cause = .wait then
        s.enterFault q { pc := y.pc, status := .SYNC_FREE, instruction := true, word := s.storeAt q y.pc, opAddr := n, stamp := s.cClock (coreDie q) }
      else s
    | _ => s) (s.setObj n {})

/-- R314: the lowest-numbered object of an M-die that is neither ALLOCATED nor in the firmware range. -/
def State.freeObj (s : State) (m : Nat) : Option Nat :=
  ((List.range 1008).find? (fun i => !(s.obj (1024 * m + i)).allocated)).map (1024 * m + ·)

def execSyncSetArrival (m : SyncSrc) (s : State) : Host.Outcome State Fault Refusal :=
  .next (match m with
    | .flight i => match s.flightAt i .set with
      | some y => (s.landed i).objSet y.obj y.val y.who.number (some y)
      | none => s
    | .hearth g n v _ => s.objSet n v (Who.hearth g).number)

def execSyncWaitArrival (m : SyncSrc) (s : State) : Host.Outcome State Fault Refusal :=
  .next (match m with
    | .flight i => match s.flightAt i .wait with
      | some y => (s.landed i).objWait y.obj y.val y.eq y.who (some y)
      | none => s
    | .hearth g n v e => s.objWait n v e (.hearth g))

/-- R316: WAIT_LONG microseconds have passed for waiter `i` of an object; it is reported once. -/
def execSyncWaitLong (obj i : Nat) (s : State) : Host.Outcome State Fault Refusal :=
  .next (let x := s.obj obj
    match x.waiters[i]? with
    | some w =>
      if w.reported then s
      else (s.setObj obj { x with waiters := x.waiters.set i { w with reported := true } }).raise .SYNC_WAIT_LONG
        (Src.ofMdie (objMdie obj)) [obj, w.target, x.val, w.who.number]
    | none => s)

end Sys2Proof.Machine
end

