-- ==== Sys2Proof/Machine/WorkQueue.lean ====
section
/-! DEFINITION. The cluster work queue (R298 to R304): PUSH, POP, flush and the held-writer report. -/

namespace Sys2Proof.Machine

/-- LEVEL of a die's WQ_CFG (R302). -/
def State.wqLevel (s : State) (d : Nat) : Nat := s.fld (dieReg d Reg.WQ_CFG) 0 5

/-- R302: occupancy has risen to `n + 1`. -/
def State.levelNotice (s : State) (g n : Nat) : State :=
  if s.wqLevel (g / 9) ≠ 0 ∧ n = s.wqLevel (g / 9) then (s.hearthIrq g).bump (dieReg (g / 9) Reg.WQ_LEVEL_TOTAL) 1 else s

/-- R299, R300, R302: a whole packet into a queue that has a free stage. -/
def State.wqAccept (s : State) (g : Nat) (p : Packet) : State :=
  let x := s.queue g
  let t := tagSetWriter p.tag p.writer
  let s1 := s.setQueue g { x with held := x.held.filter (·.writer != p.writer) }
  let s2 := s1.levelNotice g x.pkts.length
  if tagRefused t then
    (s2.bump (dieReg (g / 9) Reg.WQ_REFUSED_TOTAL) 1).raise .WQ_PACKET_INVALID (Src.ofCluster g) [g, p.writer, t]
  else
    let y := s2.queue g
    s2.setQueue g { y with pkts := y.pkts ++ [{ p with tag := t }] }

/-- R299: the write of a packet; with all 32 stages taken its writer is held. -/
def State.wqWrite (s : State) (g : Nat) (p : Packet) (held done : State → State) : State :=
  let x := s.queue g
  if 32 ≤ x.pkts.length then
    held (if x.held.any (·.writer == p.writer) then s else s.setQueue g { x with held := x.held ++ [{ writer := p.writer }] })
  else
    let s0 := if x.held.any (·.writer == p.writer) then s.bumpWait (dieReg (g / 9) Reg.WQ_HOLD_CYCLES_TOTAL) else s
    done (s0.wqAccept g p)

def execPush (w : PushSrc) (s : State) : Host.Outcome State Fault Refusal :=
  .next (match w with
    | .seq q f => s.issue q 0x0D f .push fun x =>
        let t := (x.get f.b).toNat % 2 ^ 32
        let r := s.read (Reader.ofCore q) (s.loc (x.get f.a).toNat) (64 * tagFlits t)
        if r.code = .OK then
          r.st.wqWrite (q / 8) { flits := r.bytes, tag := t, writer := coreIndex q, doneAddr := (x.get f.c).toNat, pc := x.pc, word := s.storeAt q x.pc }
            (·.stall q .push) (·.seqGoto q (x.pc + 1))
        else r.st.instrFault q x.pc r.code r.addr
    | .hearth g flits tag => s.wqWrite g { flits := (List.range (64 * tagFlits tag)).map (fun i => flits.getD i 0), tag := tag, writer := 8 } id id)

/-- R301: `a` is read before `b`: a higher priority, or the same and an earlier arrival. -/
def bestPacket (dest : Nat) (ok : Packet → Bool) : List Packet → Option Packet
  | [] => none
  | p :: r =>
    let b := bestPacket dest ok r
    if tagDest p.tag = dest ∧ ok p then
      match b with
      | some y => if tagPriority p.tag < tagPriority y.tag then some y else some p
      | none => some p
    else b

/-- The packet a POP of core `c` takes: ARRAY_CAL packets are never returned (R301). -/
def State.popPacket (s : State) (g c : Nat) : Option Packet :=
  bestPacket c (fun p => tagKind p.tag != 2) (s.queue g).pkts

/-- Table 10-4, POP: flit 0 into a8 to a15, the other flits into the packet buffer. -/
def Sequencer.takePacket (x : Sequencer) (r : Nat) (p : Packet) : Sequencer :=
  let y := (x.put r (BitVec.ofNat 64 p.tag)).putAll 8 ((chunkNats 8 8 (p.flits.take 64)).map (BitVec.ofNat 64))
  let b := p.flits.drop 64
  { y with pbuf := b ++ x.pbuf.drop b.length }

def execPop (q : Nat) (f : SeqFields) (s : State) : Host.Outcome State Fault Refusal :=
  .next (s.issue q 0x0B f .pop fun x =>
    match s.popPacket (q / 8) (coreIndex q) with
    | none => s.stall q .pop
    | some p =>
      let y := s.queue (q / 8)
      ((s.setQueue (q / 8) { y with pkts := y.pkts.erase p }).setSeq q (x.takePacket f.a p)).seqGoto q (x.pc + 1))

/-- R304: the flush discards every complete packet whose destination the mask names. -/
def execWqFlush (g mask : Nat) (s : State) : Host.Outcome State Fault Refusal :=
  .next (let x := s.queue g
    let n := (x.pkts.filter (fun p => bitOf mask (tagDest p.tag))).length
    ((s.setQueue g { x with pkts := x.pkts.filter (fun p => !bitOf mask (tagDest p.tag)) }).bump
      (dieReg (g / 9) Reg.WQ_FLUSH_DISCARD_TOTAL) n).raise .WQ_FLUSHED (Src.ofCluster g) [g, n])

/-- R303: a writer has been held for HOLD_LIMIT microseconds; reported once for its packet. -/
def execWqWriteHeld (g writer : Nat) (s : State) : Host.Outcome State Fault Refusal :=
  .next (let x := s.queue g
    match x.held.find? (fun h => h.writer == writer && !h.reported) with
    | none => s
    | some _ => (s.setQueue g { x with held := x.held.map (fun h => if h.writer = writer then { h with reported := true } else h) }).raise
        .WQ_WRITE_HELD (Src.ofCluster g) [g, writer])

end Sys2Proof.Machine
end

