-- ==== Sys2Proof/Machine/Memory.lean ====
section
/-! DEFINITION. Copies, atomic add units, the cluster DMA, the host-managed window, patrol, HBM rows, bank power and region tables (chapter 6). -/

namespace Sys2Proof.Machine

/-! ### Resident regions (R179 to R181) -/

def regionKey (q i : Nat) : Nat := q * 32 + i
def State.region (s : State) (q i : Nat) : Region := Tab.get s.mem.regions (regionKey q i)
def State.setRegion (s : State) (q i : Nat) (r : Region) : State :=
  { s with mem := { s.mem with regions := Tab.set s.mem.regions (regionKey q i) r } }

/-- Two byte ranges share a byte. -/
def overlap (a n b m : Nat) : Bool := decide (a < b + m) && decide (b < a + n)

/-- A declared region of core `q` covers a byte of `[o, o + n)`. -/
def State.regionOver (s : State) (q o n : Nat) : Bool :=
  (List.range 32).any (fun i => (s.region q i).valid && overlap o n (s.region q i).base (4096 * (s.region q i).tiles))

/-- Some bank of `[o, o + n)` of core `q` is off, or a commit on its way powers it down (R181). -/
def State.bankOffOver (s : State) (q o n : Nat) : Bool :=
  (List.range 16).any (fun b => overlap o n (b * 2 ^ 18) (2 ^ 18) &&
    (s.bankDown q b || match s.commit.buffer with | some p => bitOf (Tab.get p.set.pwrOff q) b | none => false))

/-- R180: the entry of a LOST region that a declaration declares again. -/
def State.lostEntry (s : State) (q : Nat) (r : Region) : Option Nat :=
  (List.range 32).find? (fun i => let x := s.region q i
    x.valid && x.lost && x.base == r.base && x.tiles == r.tiles)

/-- R179 to R181: the status of a declaration. -/
def State.regionStatus (s : State) (q : Nat) (r : Region) : Code :=
  if (s.lostEntry q r).isSome then (if s.bankOffOver q r.base (4096 * r.tiles) then .BANK_OFF else .OK)
  else if s.regionOver q r.base (4096 * r.tiles) then .REGION_OVERLAP
  else if (List.range 32).all (fun i => (s.region q i).valid) then .REGION_TABLE_FULL
  else if s.bankOffOver q r.base (4096 * r.tiles) then .BANK_OFF
  else .OK

/-- R179: a declaration takes the table's first free entry, or that of the LOST region it declares again. -/
def State.declare (s : State) (q : Nat) (r : Region) : State :=
  match (s.lostEntry q r).or ((List.range 32).find? (fun i => !(s.region q i).valid)) with
  | some i => s.setRegion q i { r with valid := true }
  | none => s

/-- R180: regions of an owner that are not RESIDENT are freed. -/
def State.freeRegions (s : State) (owner : Nat) : State :=
  { s with mem := { s.mem with regions := s.mem.regions.filter (fun e => !(e.2.owner == owner && !e.2.resident && e.2.valid)) } }

/-! ### Clearing memory (R176) -/

/-- Whole tiles written with zeros and a matching CRC. -/
def State.zeroTiles (s : State) (a n : Nat) : State :=
  { s with mem := { s.mem with
      bytes := Tab.eraseRange s.mem.bytes a (4096 * n)
      tiles := Tab.eraseRange s.mem.tiles (a / 4096) n
      guard := Tab.eraseRange s.mem.guard (a / 8) (512 * n) } }

/-- R180: a cluster's scratchpad is cleared, and every RESIDENT region with a source is loaded again; one without is LOST and reported. -/
def State.reloadRegions (s : State) (g : Nat) : State :=
  let s1 := (List.range 8).foldl (fun s c => s.zeroTiles (spAddr (g / 9) (g % 9) c 0) 1024) s
  (List.range 256).foldl (fun s j =>
    let q := g * 8 + j / 32
    let r := s.region q (j % 32)
    if r.valid && r.resident then
      if r.hasSource then (s.copy (Reader.ofCluster g) r.source (coreBase q + r.base) (4096 * r.tiles)).st
      else (s.setRegion q (j % 32) { r with lost := true }).raise .REGION_LOST (Src.ofCore q) [q, r.base]
    else s) s1

/-! ### COPY (R171, R172) -/

/-- The class of a copy's path: that of the farther of its two addresses (log 25). -/
def copyClass (v : Variant) (q a b : Nat) : Nat := max (pathClass v q a) (pathClass v q b)

/-- R171: a copy whose named class is not the one its path has is counted. -/
def State.countClass (s : State) (q : Nat) (o : Op) : State :=
  if copyClass s.part.variant q o.a o.b = o.mod % 8 then s
  else s.bump (dieReg (coreDie q) Reg.SP_CLASS_MISMATCH_TOTAL) 1

/-- A copy between module-local addresses runs (R172). -/
def State.copyLocal (s : State) (q : Nat) (o : Op) : State :=
  let x := (s.countClass q o).copy (Reader.ofCore q) o.a o.b o.c
  x.st.opRan q o x.code 0 x.addr

/-! ### Atomic add units (R188 to R193) -/

/-- A payload as it reaches an atomic unit (R189). -/
structure Payload where
  i32 : Bool := false
  target : Nat := 0
  words : List Int := []
  k : Int := 0
  sticky : Bool := false
  obj : Option Nat := none
  deriving DecidableEq, Repr, Inhabited

def Payload.size (p : Payload) : Nat := if p.i32 then 4 else 8

/-- R193: the status with which a payload is refused, or OK. -/
def State.payloadStatus (s : State) (p : Payload) : Code :=
  match s.atomAt p.target with
  | none => .ATOMIC_NO_TARGET
  | some r =>
    let n := p.size * p.words.length
    if r.base + 4096 * r.tiles < p.target + n then .ATOMIC_NO_TARGET
    else if p.i32 ≠ r.i32 then .ATOMIC_TYPE
    else if p.i32 ∧ p.k ≠ r.k then .ATOMIC_SCALE
    else if (piecesOf p.target n).any (fun x => (s.tile (x.1 / 4096)).poisoned) then .TILE_POISONED
    else .OK

/-- The M-die a payload is delivered to (R193): that of its first word's address, or the serving M-die of the issuing die. -/
def State.payloadMdie (s : State) (p : Payload) (d : Nat) : Nat := ((locate s.part.variant p.target).mdie).getD (d / 2)

/-- A write of part of a tile by its unit: bytes only. -/
def State.putRaw (s : State) (a : Nat) (bs : List Byte) : State :=
  { s with mem := { s.mem with bytes := Tab.setList s.mem.bytes a bs } }

/-- R190: one FX64 addition; out of 72 bits it wraps, sets OVERFLOW and SAT, is counted and reported. -/
def State.addFx (s : State) (src : Src) (m a : Nat) (v : Int) : State :=
  let x := s.fxWord a + v
  let y := signed 72 (encodeInt 72 x)
  let s1 := s.putRaw a (leBytes 8 (encodeInt 64 y))
  let s2 := { s1 with mem := { s1.mem with guard := Tab.set s1.mem.guard (a / 8) ((y - signed 64 (encodeInt 64 y)) / (2 ^ 64 : Nat)) } }
  if fitsInt 72 x then s2
  else ((s2.setTile (a / 4096) { s2.tile (a / 4096) with overflow := true, sat := true }).bump (memReg m Reg.ATOM_OVERFLOW_TOTAL) 1).raise
    .ATOMIC_GUARD_EXCEEDED src [a]

/-- R191: one saturating addition. -/
def State.addI32 (s : State) (m a : Nat) (v : Int) : State :=
  let x := signed 32 (s.natAt a 4) + v
  let s1 := s.putRaw a (leBytes 4 (encodeInt 32 (clampInt (-2147483648) 2147483647 x)))
  if fitsInt 32 x then s1
  else (s1.setTile (a / 4096) { s1.tile (a / 4096) with sat := true }).bump (memReg m Reg.ATOM_SAT_TOTAL) 1

def State.addWords (s : State) (src : Src) (m : Nat) (i32 : Bool) (a : Nat) : List Int → State
  | [] => s
  | v :: r => if i32 then State.addWords (s.addI32 m a v) src m i32 (a + 4) r else State.addWords (s.addFx src m a v) src m i32 (a + 8) r

/-- R413: the digest of an accepted payload is added to the running sum of its tile. -/
def State.sumDigest (s : State) (p : Payload) : State :=
  match s.atomAt p.target with
  | some r =>
    let t := p.target / 4096
    if r.checked then { s with mem := { s.mem with sums := Tab.set s.mem.sums t ((Tab.get s.mem.sums t + digestOf (s.regionSeed r) (r.index p.target) p.words) % digestPrime) } }
    else s
  | none => s

/-- R189, R191, R193: a payload reaches the unit that it is delivered to from die `d`: it is applied whole, or refused whole. -/
def State.payload (s : State) (src : Src) (d : Nat) (p : Payload) : State :=
  let m := s.payloadMdie p d
  let c := s.payloadStatus p
  if c = .OK then
    let s1 := s.addWords src m p.i32 p.target p.words
    let s2 := if p.i32 && p.sticky then s1.setTile (p.target / 4096) { s1.tile (p.target / 4096) with sat := true } else s1
    let s2 := s2.sumDigest p
    let s3 := s2.bump (memReg m (if p.i32 then Reg.ATOM_I32_WORDS_TOTAL else Reg.ATOM_FX64_WORDS_TOTAL)) p.words.length
    match p.obj with
    | some n => if objMdie n = m then s3.objPost n 1 (coreKey src.die src.cluster src.core) else s3
    | none => s3
  else (s.bump (memReg m Reg.ATOM_REFUSED_TOTAL) 1).raise .ATOMIC_REFUSED src [p.target] c

/-- The next payload of an ATOMIC_ADD op of core `q` (Table 10-4). -/
def State.nextPayload (s : State) (q : Nat) (o : Op) : Rd × Payload :=
  let i32 := o.mod % 2 = 1
  let w := if i32 then 4 else 8
  let n := min (if i32 then 16 else 8) (o.c - o.prog)
  let a := o.a + w * o.prog
  let r := s.read (Reader.ofCore q) a (w * n)
  let t := r.st.tile (a / 4096)
  (r, { i32 := i32, target := o.b + w * o.prog, words := (chunkNats w n r.bytes).map (fun v => signed (8 * w) v)
        k := t.k, sticky := t.sat, obj := if bitOf o.mod 1 then some (o.imm % 4096) else none })

/-- One payload of the oldest ATOMIC_ADD op of a core is sent and applied or refused; after the last the op has run. -/
def State.atomicStep (s : State) (q : Nat) (i32 : Bool) : State :=
  match (s.seq q).next .copy 0x1B with
  | none => s
  | some o =>
    if (o.mod % 2 == 1) != i32 || isFar o.b then s
    else
      let (r, p) := s.nextPayload q o
      if r.code ≠ .OK then r.st.opRan q o r.code 0 r.addr
      else
        let c := r.st.payloadStatus p
        let s1 := r.st.payload (Src.ofCore q) (coreDie q) p
        let o1 := { o with prog := o.prog + p.words.length, bad := if o.bad = .OK then c else o.bad,
                           badAddr := if o.bad = .OK then p.target else o.badAddr }
        let x := s1.seq q
        let s2 := s1.setSeq q { x with ops := x.ops.map (fun y => if y = o then o1 else y) }
        if o.c ≤ o1.prog then s2.opRan q o1 o1.bad 0 (if o1.bad = .OK then 0 else o1.badAddr) else s2

/-- R192: one tile is cleared: words, guard bits, OVERFLOW, SAT and POISONED; ATOMIC, FORMAT and K stay. -/
def State.clearTile (s : State) (t : Nat) : State :=
  let w := s.tile t
  let s1 := (s.zeroTiles (4096 * t) 1).setTile t { atomic := w.atomic, format := w.format, k := w.k }
  { s1 with mem := { s1.mem with sums := Tab.set s1.mem.sums t 0 } }

/-- R192: the tiles that a clear names are all atomic target tiles. -/
def State.clearOk (s : State) (a n : Nat) : Bool :=
  (List.range n).all (fun i => (s.atomAt (a + 4096 * i)).isSome)

def execAtomicClearOp (q : Nat) (s : State) : Host.Outcome State Fault Refusal :=
  .next (match (s.seq q).next .copy 0x1C with
    | none => s
    | some o =>
      if s.clearOk o.a o.b then ((List.range o.b).foldl (fun s i => s.clearTile (o.a / 4096 + i)) s).opRan q o .OK 0 0
      else
        let m := ((locate s.part.variant o.a).mdie).getD (coreDie q / 2)
        ((s.bump (memReg m Reg.ATOM_REFUSED_TOTAL) 1).raise .ATOMIC_REFUSED (Src.ofCore q) [o.a] .ATOMIC_NO_TARGET).opRan q o .ATOMIC_NO_TARGET 0 o.a)

/-! ### Cluster DMA (R194 to R198) -/

/-- Table 6-8. -/
structure DmaCmd where
  op : Nat
  dedup : Bool
  altValid : Bool
  post : Bool
  reserved : Bool
  sync : Nat
  elem : Nat
  a0 : Nat
  a1 : Nat
  a2 : Nat
  alt : Nat
  w : List Nat
  deriving DecidableEq, Repr, Inhabited

/-- A field of a byte list. -/
def fieldAt (bs : List Byte) (o n : Nat) : Nat := leNat ((bs.drop o).take n)

/-- Table 6-8. -/
def parseDma (loc : Nat → Nat) (bs : List Byte) : DmaCmd :=
  { op := fieldAt bs 0 1, dedup := bitOf (fieldAt bs 1 1) 0, altValid := bitOf (fieldAt bs 1 1) 1, post := bitOf (fieldAt bs 1 1) 2
    reserved := fieldAt bs 1 1 / 8 != 0, sync := fieldAt bs 2 2, elem := fieldAt bs 4 4
    a0 := loc (fieldAt bs 8 8), a1 := loc (fieldAt bs 16 8), a2 := loc (fieldAt bs 24 8), alt := loc (fieldAt bs 32 8), w := chunkNats 4 6 (bs.drop 40) }

def DmaCmd.word (c : DmaCmd) (i : Nat) : Nat := c.w.getD i 0
def DmaCmd.stride (c : DmaCmd) (i : Nat) : Int := signed 32 (c.word i)

/-- Lowest offset and byte span that two strides reach. -/
def strideSpan (n1 n2 elem : Nat) (s1 s2 : Int) : Int × Nat :=
  let e1 := ((n1 : Int) - 1) * s1
  let e2 := ((n2 : Int) - 1) * s2
  (min 0 e1 + min 0 e2, (max 0 e1 + max 0 e2 - min 0 e1 - min 0 e2).toNat + elem)

/-- R197: the byte ranges of a command. -/
def DmaCmd.ranges (c : DmaCmd) : List (Int × Nat) :=
  match c.op with
  | 1 =>
    let x := strideSpan (c.word 0) (c.word 1) c.elem (c.stride 2) (c.stride 3)
    let y := strideSpan (c.word 0) (c.word 1) c.elem (c.stride 4) (c.stride 5)
    [((c.a0 : Int) + x.1, x.2), ((c.a1 : Int) + y.1, y.2)]
  | 2 => [((c.a0 : Int), c.word 1 * c.elem), ((c.a1 : Int), c.word 0 * c.elem), ((c.a2 : Int), 4 * c.word 0)]
  | 3 => [((c.a0 : Int), c.word 0 * c.elem), ((c.a1 : Int), c.word 1 * c.elem), ((c.a2 : Int), 4 * c.word 0)]
  | _ => [((c.a0 : Int), c.word 0 * c.elem), ((c.a2 : Int), c.word 1 * c.elem), ((c.a1 : Int), (c.word 0 + c.word 1) * c.elem)]

def rangesOverlap : List (Int × Nat) → Bool
  | [] => false
  | x :: r => r.any (fun y => decide (x.1 < y.1 + y.2) && decide (y.1 < x.1 + x.2)) || rangesOverlap r

/-- R197: refused before anything moves. -/
def DmaCmd.refusal (c : DmaCmd) : Code :=
  if c.op = 0 ∨ 4 < c.op ∨ c.reserved ∨ c.elem < 4 ∨ 1048576 < c.elem ∨ c.elem % 4 ≠ 0 ∨ c.word 0 = 0
      ∨ ((c.op = 1 ∨ c.op = 4) ∧ c.word 1 = 0) ∨ 4095 < c.sync then .DMA_FORMAT
  else if rangesOverlap c.ranges then .DMA_OVERLAP
  else .OK

/-- Table 6-10: the statuses of a command, highest precedence first. -/
def dmaOrder : List Code :=
  [.DMA_FORMAT, .DMA_OVERLAP, .ADDRESS_UNMAPPED, .TARGET_ABSENT, .BANK_OFF, .TILE_CRC, .TILE_POISONED, .MERGE_UNSORTED, .INDEX_RANGE]

/-- A command as it proceeds: `far` holds what it has read from other modules, by global address, and `wr` what it has to write there (R352). -/
structure DmaRun where
  st : State
  codes : List Code := []
  out : Nat := 0
  skipped : Nat := 0
  retried : Nat := 0
  far : Tab Byte := []
  wr : List (Nat × List Byte) := []

def DmaRun.status (r : DmaRun) : Code :=
  match dmaOrder.find? (fun c => r.codes.contains c) with
  | some c => c
  | none => (r.codes.find? (· != .OK)).getD .OK

/-- Bytes that a command reads. -/
def DmaRun.get (r : DmaRun) (rd : Reader) (a n : Nat) : DmaRun × List Byte × Code :=
  if isFar a then (r, Tab.getList r.far (a % 2 ^ 64) n, .OK)
  else
    let x := r.st.read rd a n
    ({ r with st := x.st, retried := r.retried + x.retried }, x.bytes, x.code)

/-- The number in the first four bytes at an address. -/
def DmaRun.key (r : DmaRun) (a : Nat) : Nat := if isFar a then leNat (Tab.getList r.far (a % 2 ^ 64) 4) else r.st.natAt a 4

/-- One element moves (R172, R198). -/
def DmaRun.move (r : DmaRun) (rd : Reader) (a b n : Nat) : DmaRun :=
  if !isFar a && !isFar b then
    let x := r.st.copy rd a b n
    { r with st := x.st, codes := x.code :: r.codes, out := r.out + (if x.code = .OK then 1 else 0), retried := r.retried + x.retried }
  else
    let (r1, bs, c) := r.get rd a n
    if c ≠ .OK then { r1 with codes := c :: r1.codes }
    else if isFar b then { r1 with codes := c :: r1.codes, out := r1.out + 1, wr := r1.wr ++ [(b % 2 ^ 64, bs)] }
    else
      let w := r1.st.write rd.src {} b bs
      { r1 with st := w.st, codes := w.code :: r1.codes, out := r1.out + (if w.code = .OK then 1 else 0) }

/-- COPY_STRIDED (Table 6-9). -/
def dmaStrided (rd : Reader) (c : DmaCmd) (r : DmaRun) : DmaRun :=
  (List.range (c.word 1)).foldl (fun r (i : Nat) => (List.range (c.word 0)).foldl (fun r (j : Nat) =>
    r.move rd ((c.a0 : Int) + (i : Int) * c.stride 3 + (j : Int) * c.stride 2).toNat
      ((c.a1 : Int) + (i : Int) * c.stride 5 + (j : Int) * c.stride 4).toNat c.elem) r) r

/-- The index list of a GATHER or SCATTER. -/
def dmaIndex (rd : Reader) (c : DmaCmd) (r : DmaRun) (n : Nat) : DmaRun × Option Nat :=
  let (r1, bs, x) := r.get rd (c.a2 + 4 * n) 4
  ({ r1 with codes := x :: r1.codes }, if x = .OK then some (leNat bs) else none)

/-- GATHER and SCATTER (R195): elements in list order; an index at or above the limit is skipped. -/
def dmaIndexed (rd : Reader) (scatter : Bool) (c : DmaCmd) (r : DmaRun) : DmaRun :=
  (List.range (c.word 0)).foldl (fun r n =>
    match dmaIndex rd c r n with
    | (r1, none) => r1
    | (r1, some x) =>
      if c.word 1 ≤ x then { r1 with codes := .INDEX_RANGE :: r1.codes, skipped := r1.skipped + 1 }
      else if scatter then r1.move rd (c.a0 + n * c.elem) (c.a1 + x * c.elem) c.elem
      else r1.move rd (c.a0 + x * c.elem) (c.a1 + n * c.elem) c.elem) r

/-- MERGE (R196): `i` and `j` are the heads of the two lists, `last` the key last written, `pa` and `pb` the keys last seen in each list. -/
def dmaMerge (rd : Reader) (c : DmaCmd) : Nat → Nat → Nat → Option Nat → Option Nat → Option Nat → DmaRun → DmaRun
  | 0, _, _, _, _, _, r => r
  | f + 1, i, j, last, pa, pb, r =>
    let ra := if i < c.word 0 then some (r.key (c.a0 + i * c.elem)) else none
    let rb := if j < c.word 1 then some (r.key (c.a2 + j * c.elem)) else none
    let fromA := match ra, rb with | some x, some y => decide (x ≤ y) | some _, none => true | _, _ => false
    match (if fromA then ra else rb) with
    | none => r
    | some k =>
      let prev := if fromA then pa else pb
      if (match prev with | some p => decide (k < p) | none => false) then { r with codes := .MERGE_UNSORTED :: r.codes }
      else
        let i' := if fromA then i + 1 else i
        let j' := if fromA then j else j + 1
        let pa' := if fromA then some k else pa
        let pb' := if fromA then pb else some k
        if c.dedup && last == some k then dmaMerge rd c f i' j' last pa' pb' r
        else
          let a := if fromA then c.a0 + i * c.elem else c.a2 + j * c.elem
          dmaMerge rd c f i' j' (some k) pa' pb' (r.move rd a (c.a1 + r.out * c.elem) c.elem)

/-- R194 to R198: what a command does; `far` holds what it has read from other modules. -/
def State.dmaRun (s : State) (g : Nat) (c : DmaCmd) (far : Tab Byte) : DmaRun :=
  let rd : Reader := { Reader.ofCluster g with alt := if c.altValid then some (c.a0, c.alt) else none }
  if c.refusal ≠ .OK then { st := s, codes := [c.refusal] }
  else
    let r0 : DmaRun := { st := s, far := far }
    let r := match c.op with
      | 1 => dmaStrided rd c r0
      | 2 => dmaIndexed rd false c r0
      | 3 => dmaIndexed rd true c r0
      | _ => dmaMerge rd c (c.word 0 + c.word 1) 0 0 none none none r0
    { r with st := r.st.bump (dieReg (g / 9) Reg.DMA_SKIPPED_TOTAL) r.skipped }

/-- Table 6-10: the 16 bytes of a completion. -/
def dmaCompletion (r : DmaRun) : List Byte :=
  leBytes 2 (statusNumber r.status) ++ leBytes 2 0 ++ leBytes 4 r.out ++ leBytes 4 r.skipped ++ leBytes 4 r.retried

/-- Statuses of a DMA completion that fault the issuing sequencer: those before MERGE_UNSORTED (R312). -/
def dmaFaults (c : Code) : Bool := c != .OK && !(dmaOrder.drop 7).contains c

/-- The completion reaches the issuer: 16 bytes in the issuing core's scratchpad, the done counter or the fault of its sequencer, and the post (Table 6-8, R308, R312). -/
def State.dmaEnd (s : State) (g : Nat) (p : Packet) (c : DmaCmd) (r : DmaRun) : State :=
  let s1 := if c.post ∧ c.refusal ≠ .DMA_FORMAT then r.st.objPost c.sync 1 (Who.dma g).number else r.st
  if p.writer = 8 then s1.hearthIrq g
  else
    let q := g * 8 + p.writer
    let s2 := (s1.write (Src.ofCluster g) {} p.doneAddr (dmaCompletion r)).st
    if dmaFaults r.status then
      (s2.opFault q { pc := p.pc, status := r.status, done := tagDone p.tag, word := p.word, opAddr := c.a0, stamp := s.cClock (g / 9) }).release q
    else if tagDoneValid p.tag then (s2.setSeq q ((s2.seq q).done (tagDone p.tag))).release q
    else s2

/-! ### Host-managed window (R260, R262) -/

def State.hdmSize (s : State) : Nat := s.fld (stgReg Reg.HOST_CFG) 0 9 * 0x10000000
def State.hdmOfs (s : State) : Nat := s.fld (stgReg Reg.HDM_OFS) 0 36

/-- R260: the module-local address of window offset `w`. -/
def State.hdmAddr (s : State) (w : Nat) : Nat := w / 4096 % 8 * stackSize + s.hdmOfs + w / 32768 * 4096 + w % 4096

/-- Window offset `w` exists: the window covers it, and the host negotiated CXL (R258, R260). -/
def State.hdmHas (s : State) (w n : Nat) : Bool := !s.part.pcie && decide (w + n ≤ s.hdmSize) && w % 64 == 0 && n == 64

def execHostMemWrite (w : Nat) (bytes : List Byte) (s : State) : Host.Outcome State Fault Refusal :=
  .next (if s.hdmHas w bytes.length then s.writePieces (fun _ => {}) bytes (piecesOf (s.hdmAddr w) bytes.length) else s)

/-- R262: the line read, with the poison indication of a tile that is poisoned or fails its check. -/
def State.hostLineRead (s : State) (w : Nat) : State :=
  let a := s.hdmAddr w
  let m := w / 4096 % 8 / 2
  let c := (s.touch (a, 64)).check { Reader.ofMdie m with who := 1 } (a / 4096)
  let s1 := if c.code = .TILE_POISONED then c.st.raise .TILE_POISONED (Src.ofMdie m) [a / 4096 * 4096, 1] else c.st
  { s1 with mem := { s1.mem with hostLine := s.bytesAt a 64, hostPoison := c.code != .OK } }

def execHostMemRead (w : Nat) (s : State) : Host.Outcome State Fault Refusal :=
  .next (if s.hdmHas w 64 then s.hostLineRead w else s)

/-! ### Patrol, rows and bank power -/

/-- Tiles of one stack and of one pass of an M-die (R185). -/
def stackTiles : Nat := stackData / 4096
def passTiles : Nat := msramSize / 4096 + 2 * stackTiles

/-- The tile at place `i` of an M-die's pass: its data SRAM, then its two stacks. -/
def patrolTile (m i : Nat) : Nat :=
  if i < msramSize / 4096 then (msramBase + m * msramSize) / 4096 + i
  else
    let j := i - msramSize / 4096
    (2 * m + j / stackTiles) * (stackSize / 4096) + j % stackTiles

/-- R185: one patrol read; the last of a pass is counted. -/
def State.patrolRead (s : State) (m : Nat) : State :=
  let i := Tab.get s.mem.patrol m
  let c := (s.touch (4096 * patrolTile m i, 4096)).check { Reader.ofMdie m with who := 2 } (patrolTile m i)
  let last := decide (passTiles ≤ i + 1)
  let s1 := { c.st with mem := { c.st.mem with patrol := Tab.set c.st.mem.patrol m (if last then 0 else i + 1) } }
  if last then s1.bump (memReg m Reg.MEM_PATROL_PASS_TOTAL) 1 else s1

def execPatrolRead (m : Nat) (ecc : List HbmReport) (s : State) : Host.Outcome State Fault Refusal :=
  .next (if bitOf (s.cfg (memReg m Reg.MEM_CFG)) 1 then (s.hbmReports ecc).patrolRead m else s)

/-- R183: a bank whose row has had no access for 128 N-cycles closes it. -/
def execHbmRowIdleClose (bank : Nat) (s : State) : Host.Outcome State Fault Refusal :=
  .next { s with mem := { s.mem with row := Tab.set s.mem.row bank 0 } }

/-- R181, R176: bank `b` of core `q` has cleared its 64 tiles and is usable. -/
def execBankPowerUpDone (q b : Nat) (s : State) : Host.Outcome State Fault Refusal :=
  .next (if bitOf (Tab.get s.mem.poweringUp q) b then
      let s1 := s.zeroTiles (coreBase q + b * 2 ^ 18) 64
      { s1 with mem := { s1.mem with poweringUp := Tab.set s1.mem.poweringUp q (Tab.get s1.mem.poweringUp q - 2 ^ b) } }
    else s)

end Sys2Proof.Machine
end

