-- ==== Sys2Proof/Machine/Array.lean ====
section
/-! DEFINITION. The A-engine: banks, layers and column maps, payload inputs, slices, the plan of a slice into parts, lane results and what a conversion adds and records (chapters 2 and 3). -/

namespace Sys2Proof.Machine

/-! ### Engines and banks -/

def State.engine (s : State) (e : Nat) : Engine := Tab.get s.engines e
def State.setEngine (s : State) (e : Nat) (x : Engine) : State := { s with engines := Tab.set s.engines e x }

def Engine.bank (x : Engine) (b : Nat) : Bank := if b = 0 then x.a else x.b
def Engine.setBank (x : Engine) (b : Nat) (y : Bank) : Engine := if b = 0 then { x with a := y } else { x with b := y }
def State.bank (s : State) (e b : Nat) : Bank := (s.engine e).bank b
def State.setBank (s : State) (e b : Nat) (y : Bank) : State := s.setEngine e ((s.engine e).setBank b y)

/-- The ACTIVE bank of an engine (R89); bank A when neither is. -/
def Engine.active (x : Engine) : Nat := if x.b.st = .active then 1 else 0
def Engine.activeBank (x : Engine) : Bank := x.bank x.active

/-- Core and number of an engine. -/
def engCore (e : Nat) : Nat := e / 4
def engDie (e : Nat) : Nat := coreDie (e / 4)

/-- The layer of the ACTIVE bank that an op names; FORMAT 0 is EMPTY. -/
def State.layer (s : State) (e l : Nat) : Layer := Tab.get (s.engine e).activeBank.layers l

/-- Blocks of a layer's tile. -/
def Layer.nblocks (y : Layer) : Nat := y.blocks + 1

/-- The weight of a code at element `j` of a run of code lines, from line `n` (R40). -/
def codeAt (codes : List Byte) (n j : Nat) : Nat := (codes.getD (32 * n + j / 4) 0#8).toNat / 4 ^ (j % 4) % 4

/-- The level of data column `col` at element `j` of block `b` (R67): L0 pairs beyond the tile. -/
def Layer.weight (y : Layer) (b col j : Nat) : Int :=
  if y.format = 0 ∨ y.nblocks ≤ b ∨ y.cols ≤ col then 0 else weightVal (y.format == 2) (codeAt y.codes (b * y.cols + col) j)

/-- The stored exponent E8 of block `b` and column `col`. -/
def Layer.expo (y : Layer) (b col : Nat) : Nat := (y.exps.getD (b * y.cols + col) 0#8).toNat

/-- The MERGE entry of the boundary between blocks `b` and `b + 1` (R68): its DELTA where it is UNIFORM. A difference that seven bits do not hold is not UNIFORM (log 31). -/
def Layer.delta (y : Layer) (b : Nat) : Option Int :=
  let d (c : Nat) : Int := (y.expo (b + 1) c : Int) - (y.expo b c : Int)
  if (List.range y.cols).all (fun c => d c == d 0) && decide (-64 ≤ d 0) && decide (d 0 ≤ 63) && decide (b + 1 < y.nblocks) then some (d 0) else none

/-- Table 3-4 and R69: the level of reference column `j` at row `r`. -/
def refMask (j : Nat) : Nat := [0x000, 0x001, 0x002, 0x004, 0x008, 0x010, 0x155, 0x3FF].getD (j % 8) 0
def popcount (n : Nat) : Nat := ((List.range 10).filter (fun i => bitOf n i)).length
def refWeight (j r : Nat) : Int :=
  let a : Int := if j < 8 then 1 else 3
  if popcount (r &&& refMask j) % 2 = 0 then a else -a

/-- Keys of a column and of a spare. -/
def colKey (layer lane : Nat) : Nat := layer * 512 + lane
def spareKey (layer sp : Nat) : Nat := layer * 32 + sp

/-- The column a data lane takes in a layer (R93, Table 3-14). -/
def Bank.col (y : Bank) (layer lane : Nat) : Column := Tab.get y.cols (colKey layer lane)

/-- A column whose lane result is discarded and whose output is the exact product (Table 3-14). -/
def Column.exact (c : Column) : Bool := c.st == .covered || c.st == .sparing

/-- The level that data lane `lane` meets at row `r` of a layer: that of its home column, or of the spare that the map names. -/
def Bank.laneWeight (y : Bank) (layer lane r : Nat) : Int :=
  let z := Tab.get y.layers layer
  let c := y.col layer lane
  if c.st = .mapped then
    (if z.format = 0 ∨ z.nblocks ≤ r / 128 ∨ z.cols ≤ lane then 0
     else weightVal (z.format == 2) (codeAt (Tab.get y.spares (spareKey layer c.spare)).codes (r / 128) (r % 128)))
  else z.weight (r / 128) lane (r % 128)

/-! ### Input vectors (R42 to R47, R62 to R65) -/

/-- One block of an activation vector: its E8, its codes with 0 for a marker, and the markers. -/
structure VBlock where
  e8 : Nat := 0
  codes : List Int := []
  marks : List Bool := []
  ok : Bool := true              -- false: the receiver does not use the block (R64)
  deriving DecidableEq, Repr, Inhabited

/-- An entry of a side list (R46): block, index and value. -/
abbrev SideEntry := Nat × Nat × Int

/-- A vector as an engine reads it. -/
structure Vec where
  rung : Nat := 0
  blocks : List VBlock := []
  side : List SideEntry := []
  past : List Bool := []         -- OVERFLOW_MASK by block
  faulty : Bool := false         -- a fault of R64
  deriving DecidableEq, Repr, Inhabited

/-- R42: codes of `n` bits that spell the marker. -/
def markerCode (rung code : Nat) : Bool := (rung == 0 && code == 8) || (rung == 1 && code == 0x80)

/-- Bits of a code, and parts and payload type of a block, by rung (R45, R62). -/
def codeBits (rung : Nat) : Nat := if rung = 0 then 4 else if rung = 3 then 16 else 8
def rungParts (rung : Nat) : Nat := if rung = 0 then 1 else if rung = 3 then 4 else 2
def rungType (rung : Nat) : Nat := if rung = 0 then 0x01 else if rung = 1 then 0x02 else if rung = 2 then 0x06 else 0x07
/-- qmax of R43. -/
def rungMax (rung : Nat) : Int := if rung = 0 then 7 else if rung = 3 then 32767 else 127

/-- The codes packed in a run of bytes (R45). -/
def unpackCodes (rung : Nat) (bs : List Byte) : List Nat :=
  if rung = 0 then bs.flatMap (fun b => [b.toNat % 16, b.toNat / 16])
  else if rung = 3 then chunkNats 2 (bs.length / 2) bs
  else bs.map (·.toNat)

/-- A payload of R62 and R63 at a memory address: 72 bytes. -/
structure Payload72 where
  data : List Byte := []
  tail : List Byte := []
  deriving DecidableEq, Repr, Inhabited

def Payload72.type (p : Payload72) : Nat := (p.tail.getD 7 0#8).toNat
def Payload72.e8 (p : Payload72) : Nat := (p.tail.getD 0 0#8).toNat
def Payload72.outliers (p : Payload72) : Nat := (p.tail.getD 1 0#8).toNat
def Payload72.block (p : Payload72) : Nat := fieldAt p.tail 2 2
def Payload72.side (p : Payload72) : Nat := fieldAt p.tail 4 2
def Payload72.part (p : Payload72) : Nat := (p.tail.getD 6 0#8).toNat

/-- `n` payloads read from memory bytes, 72 bytes each (R62; log 32). -/
def payloadsOf : Nat → List Byte → List Payload72
  | 0, _ => []
  | n + 1, bs => { data := bs.take 64, tail := (bs.drop 64).take 8 } :: payloadsOf n (bs.drop 72)

/-- R63: the reserved fields of a block payload are 0, and its outlier count and part number lie in range. -/
def Payload72.fields (rung : Nat) (p : Payload72) : Bool :=
  decide (p.part < rungParts rung) && (if rung < 2 then decide (p.outliers ≤ 8) else p.outliers == 0 && p.side == 0)

/-- R64, R65: block `b` of a vector of `n` blocks, placed from its parts; `none` where a part is missing, wrong or disagrees, or its markers do not match its outlier count. -/
def placeBlock (rung : Nat) (ps : List Payload72) (b : Nat) : Option VBlock :=
  let parts := (List.range (rungParts rung)).filterMap (fun k => ps.find? (fun p => p.type == rungType rung && p.block == b && p.part == k))
  match parts with
  | [] => none
  | p :: _ =>
    let codes := unpackCodes rung (parts.flatMap (·.data))
    let marks := codes.map (markerCode rung)
    if parts.length = rungParts rung ∧ parts.all (fun x => x.fields rung && x.e8 == p.e8 && x.outliers == p.outliers && x.side == p.side)
        ∧ (rung < 2 → (marks.filter id).length = p.outliers) then
      some { e8 := p.e8, codes := codes.map (fun c => if markerCode rung c then 0 else signed (codeBits rung) c), marks := marks }
    else none

/-- A side-list payload is well formed (R63, R64): its count, its reserved fields, the entries it holds and no data beyond them. -/
def Payload72.sideOk (p : Payload72) : Bool :=
  let n := (p.tail.getD 4 0#8).toNat
  p.type == 0x03 && decide (1 ≤ n) && decide (n ≤ 16) && (p.tail.getD 5 0#8).toNat == 0 && (p.tail.getD 6 0#8).toNat == 0
    && (p.data.drop (4 * n)).all (· == 0#8) && (chunkNats 4 n p.data).all (fun w => w / 2 ^ 23 == 0 && w % 2 ^ 16 != 0x8000)

/-- The side list of a vector, from its payloads placed by entry index (R47, R65). -/
def placeSide (ps : List Payload72) (i : Nat) : Option Nat :=
  ps.findSome? (fun p =>
    let n := (p.tail.getD 4 0#8).toNat
    let f := fieldAt p.tail 0 4
    if p.sideOk ∧ f ≤ i ∧ i < f + n then some (fieldAt p.data (4 * (i - f)) 4) else none)

/-- The entries of block `b`, whose first entry is number `ofs`, for its markers in ascending index (R47). -/
def blockSide (ps : List Payload72) (b ofs : Nat) (marks : List Bool) : List (Option SideEntry) :=
  let idx := (marks.zipIdx.filter (·.1)).map (·.2)
  idx.zipIdx.map (fun x => match placeSide ps (ofs + x.2) with
    | some w => if w / 2 ^ 16 % 128 = x.1 then some (b, x.1, signed 16 w) else none
    | none => none)

/-- A vector of `n` blocks at a rung, from the payloads of its blocks in any order and, behind them, those of its side list (R62 to R65; log 32). A block that R64 faults is not used. -/
def placeVec (rung n : Nat) (ps : List Payload72) (past : List Bool) : Vec :=
  let bs := (List.range n).map (placeBlock rung ps)
  let side := bs.zipIdx.flatMap (fun x => match x.1 with
    | some v => blockSide ps x.2 (((ps.find? (fun p => p.type == rungType rung && p.block == x.2)).map (·.side)).getD 0) v.marks
    | none => [])
  let bad := ps.any (fun p => (p.type == rungType rung && decide (n ≤ p.block)) || !(p.type == rungType rung || p.sideOk))
  { rung := rung, blocks := bs.map (fun x => x.getD { ok := false }), side := side.filterMap id, past := past
    faulty := bad || bs.any (·.isNone) || side.any (·.isNone) }

/-- Table 4-1: OVERFLOW_MASK of an encode status record, for the first `n` blocks. -/
def overOf (bs : List Byte) (n : Nat) : List Bool := (List.range n).map (fun b => bitOf (leNat (bs.take 32)) b)

/-! ### Slices and parts (R72 to R77) -/

/-- R72: slices of a rung. -/
def slices (rung : Nat) : Nat := if rung = 0 then 2 else 4

/-- R72: the signed digit of slice `sl`. -/
def digit (sl : Nat) (q : Int) : Int :=
  let d : Int := ((q.natAbs / 4 ^ sl % 4 : Nat) : Int)
  if q < 0 then -d else d

/-- The signed digits of one block in one slice. -/
def digits (sl : Nat) (b : VBlock) : List Int := if b.ok then b.codes.map (digit sl) else []

/-- R73: rows with a nonzero digit. -/
def live (ds : List Int) : Nat := (ds.filter (· != 0)).length

/-- A part: its slice, its first block, the blocks it drives, the blocks it spans and, for half a block, which half (R74). -/
structure CPart where
  slice : Nat := 0
  first : Nat := 0
  drives : List Nat := []
  span : Nat := 1
  half : Option Nat := none
  past : Bool := false           -- R77
  deriving DecidableEq, Repr, Inhabited

/-- What planning needs: the popcounts and half popcounts of a slice, the budget, MERGE_EN, and the boundaries across which the shift stays (R74). -/
structure PlanIn where
  n : List Nat := []
  lo : List Nat := []
  hi : List Nat := []
  budget : Nat := 48
  merge : Bool := true
  same : List Bool := []         -- by boundary b to b + 1
  deriving DecidableEq, Repr, Inhabited

/-- same_shift of R74: every boundary from block `k` to block `j`. -/
def PlanIn.sameShift (p : PlanIn) (k j : Nat) : Bool := (List.range (j - k)).all (fun i => p.same.getD (k + i) false)

/-- The blocks that join a run whose last nonzero block is `last` and total is `t`, from block `j` below `top` (R74). -/
def PlanIn.grow (p : PlanIn) (top : Nat) : Nat → Nat → Nat → Nat → List Nat × Nat
  | 0, _, _, j => ([], j)
  | f + 1, last, t, j =>
    if !p.merge || decide (top ≤ j) then ([], j)
    else
      let m := p.n.getD j 0
      if m = 0 then PlanIn.grow p top f last t (j + 1)
      else if p.budget < m ∨ p.budget < t + m ∨ !p.sameShift last j then ([], j)
      else
        let x := PlanIn.grow p top f j (t + m) (j + 1)
        (j :: x.1, x.2)

/-- The parts of one half of a slice from block `b` below `top` (R74). -/
def PlanIn.half (p : PlanIn) (sl top : Nat) : Nat → Nat → List CPart
  | 0, _ => []
  | f + 1, b =>
    if top ≤ b then []
    else
      let m := p.n.getD b 0
      if m = 0 then PlanIn.half p sl top f (b + 1)
      else if p.budget < m then
        (if p.lo.getD b 0 = 0 then [] else [{ slice := sl, first := b, drives := [b], half := some 0, past := decide (p.budget < p.lo.getD b 0) }])
          ++ (if p.hi.getD b 0 = 0 then [] else [{ slice := sl, first := b, drives := [b], half := some 1, past := decide (p.budget < p.hi.getD b 0) }])
          ++ PlanIn.half p sl top f (b + 1)
      else
        let x := p.grow top 4 b m (b + 1)
        { slice := sl, first := b, drives := b :: x.1, span := (x.1.getLast?.getD b) - b + 1 } :: PlanIn.half p sl top f (max (b + 1) x.2)

/-- The boundaries across which e_a + e_w stays the same in every column (R74). -/
def sameShifts (y : Layer) (v : List VBlock) : List Bool :=
  (List.range 7).map (fun b => match y.delta b with
    | some d => decide (((v.getD (b + 1) {}).e8 : Int) - ((v.getD b {}).e8 : Int) = -d)
    | none => false)

/-- R74: the parts of an op in the order they convert. -/
def planOp (y : Layer) (v : List VBlock) (rung budget : Nat) (merge : Bool) : List CPart :=
  (List.range (slices rung)).flatMap (fun sl =>
    let ds := v.map (digits sl)
    let p : PlanIn := { n := ds.map live, lo := ds.map (fun d => live (d.take 64)), hi := ds.map (fun d => live (d.drop 64))
                        budget := budget, merge := merge, same := sameShifts y v }
    p.half sl (min 4 y.nblocks) 4 0 ++ p.half sl y.nblocks 4 4)

/-- R75: the active row group of the digits of a block: log2 of the window's rows and its aligned position; rows 0 to 63 or 64 to 127 for a half. -/
def window (shrink : Bool) (half : Option Nat) (ds : List Int) : Nat × Nat :=
  let within (w k : Nat) : Bool := live ds == live ((ds.drop (w * k)).take w)
  let w32 := if shrink then (List.range 4).find? (within 32) else none
  let w64 := match half with
    | some h => some h
    | none => if shrink then (List.range 2).find? (within 64) else none
  match w32, w64 with
  | some k, _ => (1, k)
  | none, some k => (2, k)
  | none, none => (3, 0)

/-- The digits a part drives in block `b`. -/
def CPart.rows (p : CPart) (ds : List Int) : List Int :=
  match p.half with
  | some 0 => ds.take 64 ++ List.replicate 64 0
  | some _ => List.replicate 64 0 ++ ds.drop 64
  | none => ds

/-- The signed digit that part `p` drives on each row of each of its blocks: pairs of row and digit, nonzero digits only (R71). -/
def CPart.driven (p : CPart) (v : List VBlock) : List (Nat × Int) :=
  p.drives.flatMap (fun b => ((p.rows (digits p.slice (v.getD b {}))).zipIdx.filter (·.1 != 0)).map (fun x => (128 * b + x.2, x.1)))

/-! ### Conversion (R78 to R82, R85) -/

/-- The exact sum of a column that holds levels `w` (R79). -/
def nominal (rows : List (Nat × Int)) (w : Nat → Int) : Int := rows.foldl (fun a x => a + x.2 * w x.1) 0

/-- A difference that the analogue path leaves open (R79, R127; log 2). -/
def laneNoise (i : Nat) : Int := signed 9 (Config.free i)

/-- The result of a lane: the nominal sum with its error, resolved to a rail beyond the codes (R79). -/
def laneResult (x : Int) (i : Nat) : Int := clampInt (-128) 127 (x + laneNoise i)

/-- R81: a result at a rail is a clip. -/
def isClip (c : Int) : Bool := c == -128 || c == 127

/-- One conversion: its part, the rows it drives and the first free value of its 528 lanes. -/
structure Conv where
  part : CPart := {}
  rows : List (Nat × Int) := []
  free : Nat := 0
  deriving DecidableEq, Repr, Inhabited

/-- The offset that TEST INJECT adds to a lane in a layer (R430). -/
def Bank.injected (y : Bank) (layer l : Nat) : Int := Tab.get y.inject (1024 * layer + l)

/-- The result of data lane `l`. -/
def Conv.lane (c : Conv) (y : Bank) (layer l : Nat) : Int :=
  laneResult (nominal c.rows (y.laneWeight layer l) + y.injected layer l) (c.free + l)

/-- The result of reference lane REFj. -/
def Conv.ref (c : Conv) (y : Bank) (layer j : Nat) : Int :=
  laneResult (nominal c.rows (refWeight j) + y.injected layer (512 + j)) (c.free + 512 + j)

/-- The data lanes that a conversion counts and adds: below COLS and not COVERED (R81, R82). -/
def Bank.counted (y : Bank) (layer : Nat) : List Nat :=
  (List.range (Tab.get y.layers layer).cols).filter (fun l => !(y.col layer l).exact)

def Conv.dataClips (c : Conv) (y : Bank) (layer : Nat) : Nat := ((y.counted layer).filter (fun l => isClip (c.lane y layer l))).length
def Conv.refClips (c : Conv) (y : Bank) (layer : Nat) : Nat := ((List.range 16).filter (fun j => isClip (c.ref y layer j))).length

/-- R56: the shift window. -/
def shiftOk (sh : Int) : Bool := decide (-24 ≤ sh) && decide (sh ≤ 20)

/-- R55: P × 2^(sh + 24). -/
def shifted (p sh : Int) : Int := p * (2 ^ (sh + 24).toNat : Nat)

/-- sh of a block of an input and a column (R55). -/
def shiftOf (y : Layer) (v : List VBlock) (b col : Nat) : Int := ((v.getD b {}).e8 : Int) - 127 + ((y.expo b col : Int) - 127)

/-- Accumulator words with their guard bits, and whether a shift fell outside its window. -/
abbrev Acc := Tab Int × Bool

/-- Adds into one BA64 (R55, R56, R57). -/
def Acc.add (a : Acc) (col : Nat) (p sh : Int) : Acc :=
  if shiftOk sh then (Tab.set a.1 col (signed 72 (encodeInt 72 (Tab.get a.1 col + shifted p sh))), a.2) else (a.1, true)

/-- R82: the additions of one conversion. -/
def Conv.adds (c : Conv) (y : Bank) (layer : Nat) (v : List VBlock) (a : Acc) : Acc :=
  let z := Tab.get y.layers layer
  (y.counted layer).foldl (fun a l => a.add l (c.lane y layer l * (4 ^ c.part.slice : Nat)) (shiftOf z v c.part.first l)) a

/-- Table 3-8: the conversion record. -/
def Conv.record (c : Conv) (y : Bank) (layer : Nat) (v : List VBlock) (shrink : Bool) (seq : Nat) (shadow : List Nat) : List Byte :=
  let p := c.part
  let wins := (List.range 4).foldl (fun a i =>
    let b := p.first + i
    if p.drives.contains b then
      let w := window shrink p.half (p.rows (digits p.slice (v.getD b {})))
      a + (w.1 * 4 + w.2) * 16 ^ i
    else a) 0
  let b0 := p.slice + (if p.half.isSome then 4 else 0) + (if p.half = some 1 then 8 else 0) + p.first * 16
  leBytes 1 b0 ++ leBytes 1 (p.span - 1) ++ leBytes 2 wins ++ leBytes 2 seq ++ leBytes 2 (c.dataClips y layer + c.refClips y layer * 1024)
    ++ (List.range 16).map (fun j => BitVec.ofInt 8 (c.ref y layer j)) ++ shadow.map (fun l => BitVec.ofInt 8 (c.lane y layer l))

/-- R131: the shadow set of a layer whose pointer has advanced `k` times. -/
def shadowSet (layer k : Nat) : List Nat := (List.range 8).map (fun i => (layer + k) % 64 + 64 * i)

/-- The conversions of a plan, each with its free values. -/
def convsOf (v : List VBlock) (ps : List CPart) (free : Nat) : List Conv :=
  ps.zipIdx.map (fun x => { part := x.1, rows := x.1.driven v, free := free + 528 * x.2 })

/-- R37, R38: an E8 that an engine does not compute with. -/
def badE8 (e : Nat) : Bool := e == 0 || e == 0xFF

/-! ### Set-up fields (Tables 3-18, 3-19, 4-10) -/

def State.rowBudget (s : State) (d : Nat) : Nat := s.fld (dieReg d Reg.AE_CFG) 0 7
def State.mergeEn (s : State) (d : Nat) : Bool := bitOf (s.cfg (dieReg d Reg.AE_CFG)) 8
def State.shrinkEn (s : State) (d : Nat) : Bool := bitOf (s.cfg (dieReg d Reg.AE_CFG)) 9
def State.readDigit (s : State) (d : Nat) : Nat := s.fld (dieReg d Reg.AE_READ_CFG) 0 2
def State.marginEn (s : State) (d : Nat) : Bool := bitOf (s.cfg (dieReg d Reg.AE_READ_CFG)) 2
def State.clipThresh (s : State) (d : Nat) : Nat := s.fld (dieReg d Reg.DC_CFG) 0 4
def State.outBlockMax (s : State) (d : Nat) : Nat := s.fld (dieReg d Reg.DC_CFG) 4 4

/-! ### Layer select (R87, R91) -/

/-- The engine selects a layer of its ACTIVE bank. A program pulse in that layer is cut off and counted; work in a layer no longer selected resumes. -/
def State.selectLayer (s : State) (e l : Nat) : State :=
  let x := s.engine e
  let b := x.active
  if x.sel = some (b, l) then s
  else
    let y := x.bank b
    let hit := match y.work with
      | w :: _ => w.layer == l && !w.cut
      | [] => false
    let work := match y.work with
      | w :: r => { w with cut := w.layer == l } :: r
      | [] => []
    let s1 := s.setEngine e { x.setBank b { y with work := work } with sel := some (b, l) }
    if hit then s1.bump (dieReg (engDie e) Reg.AE_PROG_ABORT_TOTAL) 1 else s1

/-! ### Op blocks (R310) -/

/-- Table 10-5. -/
def parseOpBlock (loc : Nat → Nat) (bs : List Byte) : OpBlock :=
  let b32 := fieldAt bs 32 1
  let v := fieldAt bs 40 4
  { input := loc (fieldAt bs 0 8), source := loc (fieldAt bs 8 8), out := loc (fieldAt bs 16 8), records := if fieldAt bs 24 8 = 0 then 0 else loc (fieldAt bs 24 8)
    action := b32 % 4, rung := b32 / 4 % 4, i32 := bitOf b32 4, layer := fieldAt bs 33 1 % 64, block := fieldAt bs 34 1 % 8
    policy := fieldAt bs 36 2, image := fieldAt bs 38 2, verdict := if bitOf v 31 then some (v % 4096) else none
    seq := fieldAt bs 44 4 % 2 ^ 20 }

/-- Event source argument of an engine. -/
def State.opInvalid (s : State) (q n : Nat) (o : Op) (reason : Code) (tag : Nat) : State :=
  (s.raise .ARRAY_OP_INVALID (Src.ofEngine q) [engineKey q n, statusNumber reason, tag]).opRan q o .ARRAY_OP_INVALID (statusNumber reason) o.a

/-! ### ARRAY_READ (R95 to R97) -/

/-- Table 3-15 over a lane result, doubled to keep ±d/2 whole: the code, whether it is ambiguous, and whether it is marginal. -/
def readDecode (wt : Bool) (d c : Int) : Nat × Bool × Bool :=
  let ts : List Int := if wt then [-d, d] else [-4 * d, 0, 4 * d]
  let amb := ts.contains (2 * c)
  let marg := !amb && ts.any (fun t => decide ((2 * c - t).natAbs ≤ 2))
  let code := if wt then (if 2 * c < -d then 0 else if 2 * c ≤ d then 1 else 2)
    else (if c < -2 * d then 0 else if c < 0 then 1 else if c ≤ 2 * d then 2 else 3)
  (code, amb, marg)

/-- What ARRAY_READ found: the code lines, and the counts. -/
structure ReadOut where
  lines : List Byte := []
  amb : Nat := 0
  marg : Nat := 0
  clips : Nat := 0
  deriving DecidableEq, Repr, Inhabited

/-- One column of a read: the results of the block's rows, each with its own free value. -/
def State.readColumn (s : State) (e b l col : Nat) (d : Int) (free : Nat) : List Int :=
  let y := s.bank e (s.engine e).active
  let z := Tab.get y.layers l
  (List.range 128).map (fun r =>
    let w := if (y.col l col).exact then z.weight b col r else y.laneWeight l col (128 * b + r)
    laneResult (d * w) (free + 528 * r + col))

/-- A run of two-bit codes as bytes (R40). -/
def packCodes : List Nat → List Byte
  | a :: b :: c :: d :: r => BitVec.ofNat 8 (a + 4 * b + 16 * c + 64 * d) :: packCodes r
  | _ => []

/-- R95, R96: one block of one layer through the ADC lanes. -/
def State.readBlock (s : State) (e l b : Nat) : ReadOut :=
  let z := s.layer e l
  let d : Int := (s.readDigit (engDie e) : Int)
  (List.range 512).foldl (fun o col =>
    if z.cols ≤ col then { o with lines := o.lines ++ List.replicate 32 0#8 }
    else
      let cs := s.readColumn e b l col d s.fresh
      let ds := cs.map (readDecode (z.format == 2) d)
      { lines := o.lines ++ packCodes (ds.map (·.1)), amb := o.amb + (ds.filter (·.2.1)).length
        marg := o.marg + (if s.marginEn (engDie e) then (ds.filter (·.2.2)).length else 0), clips := o.clips + (cs.filter isClip).length }) {}

/-- A count held in 16 bits. -/
def sat16 (n : Nat) : Nat := min 0xFFFF n

/-- Table 3-16. -/
def State.readStatus (s : State) (e l b : Nat) (o : ReadOut) : List Byte :=
  let x := s.engine e
  let y := x.activeBank
  let mask := (List.range 512).foldl (fun a c => if (y.col l c).exact && decide (c < (Tab.get y.layers l).cols) then a + 2 ^ c else a) 0
  leBytes 64 mask ++ leBytes 2 (sat16 o.amb) ++ leBytes 2 (sat16 o.marg) ++ leBytes 2 (sat16 o.clips) ++ leBytes 1 l ++ leBytes 1 (b + 8 * x.active)
    ++ leBytes 24 0

/-- Conversions and clips are counted for the engine and its die (Table 3-21); the step of its last conversion, and of the one before, are noted (R412). -/
def State.countConv (s : State) (e conv clips refs : Nat) : State :=
  let x := s.engine e
  let d := engDie e
  let now := s.step.num + 1
  let fresh := conv != 0 && x.convStep != now
  let y := { x with conv := min (2 ^ 64 - 1) (x.conv + conv), clip := min (2 ^ 64 - 1) (x.clip + clips)
                    convStep := if fresh then now else x.convStep, prevStep := if fresh then x.convStep else x.prevStep }
  (((s.setEngine e y).bump
    (dieReg d Reg.AE_CONV_TOTAL) conv).bump (dieReg d Reg.AE_CLIP_TOTAL) clips).bump (dieReg d Reg.AE_REFCLIP_TOTAL) refs

/-- The op runs when it is the oldest of its engine's queue. Its 128 rows are 128 conversions. -/
def State.arrayRead (s : State) (q n : Nat) : State :=
  match (s.seq q).next (.eng n) 0x11 with
  | none => s
  | some o =>
    let r := s.read (Reader.ofCore q) o.a 64
    if r.code ≠ .OK then r.st.opRan q o r.code 0 o.a
    else
      let k := parseOpBlock s.loc r.bytes
      let e := engineKey q n
      let z := r.st.layer e k.layer
      if z.format = 0 then r.st.opInvalid q n o .LAYER_EMPTY z.tag
      else if z.blocks < k.block then r.st.opInvalid q n o .BLOCK_RANGE z.tag
      else
        let s1 := r.st.selectLayer e k.layer
        let ro := s1.readBlock e k.layer k.block
        let st := s1.readStatus e k.layer k.block ro
        let s2 := { s1 with fresh := s1.fresh + 528 * 128 }.countConv e 128 ro.clips 0
        let s3 := (s2.bump (dieReg (coreDie q) Reg.AE_READ_AMBIG_TOTAL) ro.amb).bump (dieReg (coreDie q) Reg.AE_READ_MARGIN_TOTAL) ro.marg
        let w := s3.write (Src.ofEngine q) {} k.out (ro.lines ++ st)
        w.st.opRan q o w.code 0 w.addr

def execArrayReadOp (q n : Nat) (s : State) : Host.Outcome State Fault Refusal := .next (s.arrayRead q n)

end Sys2Proof.Machine
end

