-- ==== Sys2Proof/Machine/Counters.lean ====
section
/-! DEFINITION. The counter clears (R98, R128, R160, R199, R200, R229, R230, R255, R297, R319, R320, R356, R357, R385, R407, R432, R454, R455, R492, R509, R513). Each clears exactly the counters that its register's definition names. -/

namespace Sys2Proof.Machine

/-- The offsets of consecutive 64-bit registers. -/
def regRun (a n : Nat) : List Nat := (List.range n).map (fun i => a + 8 * i)

/-- R98: the die totals of Table 3-17. -/
def aeTotals (d : Nat) : List Nat := regRun (dieReg d Reg.AE_CONV_TOTAL) 8
/-- R128: Table 4-9. -/
def dcTotals (d : Nat) : List Nat := regRun (dieReg d Reg.DC_TROUBLE_CLIP_TOTAL) 10
/-- R160: the run, retire, deviation and drop totals. -/
def calTotals (d : Nat) : List Nat :=
  [dieReg d Reg.CAL_RUN_TOTAL, dieReg d Reg.CAL_RETIRE_TOTAL, dieReg d Reg.CAL_DEVIATION_TOTAL, dieReg d Reg.CAL_DROP_TOTAL]
/-- R199: Table 6-11. -/
def spTotals (d : Nat) : List Nat := regRun (dieReg d Reg.SP_WAIT_LOCAL_TOTAL) 15
/-- R230: Table 7-7 of the compute die. -/
def attTotals (d : Nat) : List Nat := regRun (dieReg d Reg.ATT_WALK_TOTAL) 6
/-- R319: Table 10-10. -/
def wqTotals (d : Nat) : List Nat := regRun (dieReg d Reg.WQ_LEVEL_TOTAL) 6
/-- R432: Table 14-6. -/
def seTotals (d : Nat) : List Nat := regRun (dieReg d Reg.SE_ARITH_DETECT_TOTAL) 10
/-- R200: Table 6-13. -/
def memTotals (m : Nat) : List Nat := regRun (memReg m Reg.ATOM_FX64_WORDS_TOTAL) 11
/-- R229. -/
def kvTotals (m : Nat) : List Nat := regRun (memReg m Reg.KV_ALLOC_TOTAL) 3
/-- R255: Table 8-11. -/
def serveTotals (m : Nat) : List Nat := regRun (memReg m Reg.REQ_ADMIT_TOTAL) 9
/-- R320: Table 10-12. -/
def syncTotals (m : Nat) : List Nat := regRun (memReg m Reg.SYNC_POST_TOTAL) 3
/-- R356: Table 11-12. -/
def gpTotals (p : Nat) : List Nat := regRun (portReg p Reg.GP_FEC_CORR_TOTAL) 9
/-- R357: Table 11-14. -/
def fabTotals : List Nat := regRun (fabReg Reg.WIN_NACK_CLOSED_TOTAL) 5
/-- R385: Table 12-5. -/
def topoTotals : List Nat := regRun (fabReg Reg.COLL_RUN_TOTAL) 5
/-- R407: Table 13-9. -/
def wtTotals : List Nat := regRun (wtReg Reg.WT_SHARD_IN_TOTAL) 7
/-- R454: Table 15-10. -/
def hkTotals : List Nat := regRun (hkReg Reg.URG_DROP) 7
/-- R455. -/
def pwrTotals : List Nat := [pwrReg Reg.PWR_LIMIT_TOTAL]
/-- R492. -/
def bootTotals : List Nat := [secReg Reg.FW_REFETCH_TOTAL, secReg Reg.RESET_TOTAL]
/-- R509: Table 17-6. -/
def secTotals : List Nat := [secReg Reg.SEC_VERIFY_FAIL_TOTAL, secReg Reg.SEC_ATTEST_TOTAL]
/-- R297. -/
def evTotals : List Nat := [evReg Reg.EV_LOST_TOTAL]

/-- A clear in a compute die's block; a position that is not fitted holds no register (R4). -/
def State.dieClear (s : State) (d v : Nat) (as : List Nat) : State := if s.fits d then s.ctrClear v as else s

def execAeCtrClear (d v : Nat) (s : State) : Host.Outcome State Fault Refusal := .next (s.dieClear d v (aeTotals d))
def execDcCtrClear (d v : Nat) (s : State) : Host.Outcome State Fault Refusal := .next (s.dieClear d v (dcTotals d))
def execCalCtrClear (d v : Nat) (s : State) : Host.Outcome State Fault Refusal := .next (s.dieClear d v (calTotals d))
/-- Every counter of Table 6-11: SP_SEL_WAIT is one for each core of the die. -/
def execSpCtrClear (d v : Nat) (s : State) : Host.Outcome State Fault Refusal :=
  .next (let t := s.dieClear d v (spTotals d)
    if s.fits d && bitOf v 0 then { t with mem := { t.mem with coreWait := t.mem.coreWait.filter (fun e => coreDie e.1 != d) } } else t)
def execAttCtrClear (d v : Nat) (s : State) : Host.Outcome State Fault Refusal := .next (s.dieClear d v (attTotals d))
def execWqCtrClear (d v : Nat) (s : State) : Host.Outcome State Fault Refusal := .next (s.dieClear d v (wqTotals d))
def execSeCtrClear (d v : Nat) (s : State) : Host.Outcome State Fault Refusal := .next (s.dieClear d v (seTotals d))
def execMemCtrClear (m v : Nat) (s : State) : Host.Outcome State Fault Refusal := .next (s.ctrClear v (memTotals m))
def execKvCtrClear (m v : Nat) (s : State) : Host.Outcome State Fault Refusal := .next (s.ctrClear v (kvTotals m))
def execServeCtrClear (m v : Nat) (s : State) : Host.Outcome State Fault Refusal := .next (s.ctrClear v (serveTotals m))
def execSyncCtrClear (m v : Nat) (s : State) : Host.Outcome State Fault Refusal := .next (s.ctrClear v (syncTotals m))
def execGpCtrClear (p v : Nat) (s : State) : Host.Outcome State Fault Refusal := .next (s.ctrClear v (gpTotals p))
def execFabCtrClear (v : Nat) (s : State) : Host.Outcome State Fault Refusal := .next (s.ctrClear v fabTotals)
def execTopoCtrClear (v : Nat) (s : State) : Host.Outcome State Fault Refusal := .next (s.ctrClear v topoTotals)
def execWtCtrClear (v : Nat) (s : State) : Host.Outcome State Fault Refusal := .next (s.ctrClear v wtTotals)
def execHkCtrClear (v : Nat) (s : State) : Host.Outcome State Fault Refusal := .next (s.ctrClear v hkTotals)
def execPwrCtrClear (v : Nat) (s : State) : Host.Outcome State Fault Refusal := .next (s.ctrClear v pwrTotals)
def execBootCtrClear (v : Nat) (s : State) : Host.Outcome State Fault Refusal := .next (s.ctrClear v bootTotals)
def execSecCtrClear (v : Nat) (s : State) : Host.Outcome State Fault Refusal := .next (s.ctrClear v secTotals)
def execEvCtrClear (v : Nat) (s : State) : Host.Outcome State Fault Refusal := .next (s.ctrClear v evTotals)

end Sys2Proof.Machine
end

