-- ==== Sys2Proof/Machine/Channel.lean ====
section
/-! DEFINITION. Host channels, doorbells, the event stream and time marks (R263 to R271, R281, R289 to R292, R297). -/

namespace Sys2Proof.Machine

/-- READY: descriptors are fetched and events written (R458, R460). -/
def State.ready (s : State) : Bool := s.boot.phase == 9

/-! ### Versions (R281) -/

/-- The four entries of an offer. -/
def offerList (v : Nat) : List Nat := (List.range 4).map (fun i => bitsOf v (16 * i) 16)

/-- R281: the settled version of two offers: the highest common major with the lower of its two minors; 0 is VERSION_NONE. -/
def settle (x y : List Nat) : Nat :=
  x.foldl (fun r a => y.foldl (fun r b =>
    if a ≠ 0 ∧ b ≠ 0 ∧ a / 256 = b / 256 then max r (a / 256 * 256 + min (a % 256) (b % 256)) else r) r) 0

/-! ### Errors -/

/-- Table 9-16: the ERROR_CODE of a named code. -/
def errorNumber (c : Code) : Nat :=
  match c with
  | .CFG_RANGE => 1
  | .ALIGN => 2
  | .VERSION_NONE => 3
  | .RING_OVERRUN => 4
  | .HOST_ACCESS => 5
  | _ => 0

/-- R266: the channel enters ERROR; it stops fetching and writing, and its waiting completions are discarded. -/
def State.chanError (s : State) (c : Nat) (code : Code) : State :=
  (s.setChan c { s.chan c with st := .error, err := errorNumber code, spill := [], outstanding := [] }).raise .CHANNEL_ERROR Src.host [c] code

/-! ### Doorbells (R267, R268, R270) -/

/-- R266: SQ_TAIL or CQ_HEAD beyond what the rings can hold. -/
def Chan.overrun (x : Chan) (tail head : Nat) : Bool :=
  decide (2 ^ x.sqLog < sub32 tail x.fetched) || decide (sub32 x.written x.cqHead < sub32 head x.cqHead)

/-- The TX8 has read a channel's doorbell line: it takes SQ_TAIL and CQ_HEAD, fetches what an OPEN channel's ring holds, and writes what waits behind the ring (R266, R268, R270, R271). -/
def State.takeDoorbell (s : State) (c : Nat) : State :=
  let x := s.chan c
  let tail := s.hostNat x.dbAddr 4
  let head := s.hostNat (x.dbAddr + 4) 4
  if x.overrun tail head then s.chanError c .RING_OVERRUN
  else
    let s1 := s.setChan c { x with sqTail := tail, cqHead := head, fetched := if x.st = .opened then tail else x.fetched }
    s1.drainSpill c x.spill.length

/-! ### The event ring (R289, R290, R297) -/

def State.evCfg (s : State) : Nat := s.reg (evReg Reg.EV_CFG)
def State.evSize (s : State) : Nat := 2 ^ bitsOf s.evCfg 0 5
def State.evFull (s : State) : Bool := decide (s.evSize ≤ sub32 s.ev.written s.ev.head)

/-- Interrupts on vector 256: one for every COAL_COUNT records, or for every record at 0 (R289, R297). -/
def State.evCoalesce (s : State) : State :=
  let n := bitsOf s.evCfg 6 8
  if bitOf s.evCfg 5 && (n == 0 || decide (n ≤ s.ev.sinceIrq + 1)) then
    { s with ev := { s.ev with sinceIrq := 0 } }.interrupt 256
  else { s with ev := { s.ev with sinceIrq := s.ev.sinceIrq + 1 } }

/-- One record is written into the event ring, with PHASE and its number. -/
def State.evWrite (s : State) (e : EvRec) (stamp : Nat) : State :=
  let v := s.ev
  let line : EvLine := { ev := e, stamp := stamp, seq := v.seq, phase := v.written / s.evSize % 2 == 0 }
  { s with ev := { v with ring := Tab.set v.ring (v.written % s.evSize) (some line), written := add32 v.written 1, seq := add32 v.seq 1 } }.evCoalesce

/-- A record that was held has left: the flushes that wait for it come nearer to completion (R290). -/
def State.flushStep (s : State) : State :=
  let fs := s.ev.flushes.map (fun p => (p.1, p.2 - 1))
  let s1 := { s with ev := { s.ev with flushes := fs.filter (fun p => p.2 != 0) } }
  (fs.filter (fun p => p.2 == 0)).foldl (fun s p => s.finish p.1 .OK 0 0) s1

/-- Held records are written while the ring has space; when all are out and records were dropped, an EVENTS_LOST record tells their count and stamps (R290). -/
def State.evDrain (s : State) : Nat → State
  | 0 => s
  | n + 1 =>
    if !s.ev.enabled || s.ev.failed || s.evFull || !s.ready then s
    else match s.ev.held with
      | l :: r => State.evDrain (({ s with ev := { s.ev with held := r } }.evWrite l.ev l.stamp).flushStep) n
      | [] =>
        if s.ev.dropped = 0 then s
        else { s with ev := { s.ev with dropped := 0 } }.evWrite
          { code := .EVENTS_LOST, src := Src.steward, count := s.time.tick, args := [s.ev.dropped, s.ev.dropFirst, s.ev.dropLast] } s.time.tick

/-- The TX8 has read the event doorbell line: it takes EV_HEAD. -/
def State.takeEvHead (s : State) : State :=
  let h := s.hostNat (s.reg (evReg Reg.EV_DB_ADDR)) 4
  let s1 := { s with ev := { s.ev with head := h } }
  s1.evDrain (s1.ev.held.length + 1)

/-- R290: a masked event is not written. A mask bit set masks its code high byte (log 27). -/
def State.evMasked (s : State) (c : Code) : Bool :=
  (s.ev.mask != 0 && bitOf s.ev.mask (Config.codeNumber c / 256 % 256))
    || (s.ev.minSeverity != 0 && decide (Config.severity c < s.ev.minSeverity))

/-- A stamped record is written, or held while the ring cannot take it, or dropped beyond 65,536 (R290). -/
def State.evRecord (s : State) (e : EvRec) (stamp : Nat) : State :=
  if s.evMasked e.code then s
  else if s.ready && s.ev.enabled && !s.ev.failed && s.ev.held.isEmpty && !s.evFull then s.evWrite e stamp
  else if s.ev.held.length < 65536 then
    { s with ev := { s.ev with held := s.ev.held ++ [{ ev := e, stamp := stamp, seq := 0, phase := false }] } }
  else
    { s with ev := { s.ev with dropped := s.ev.dropped + 1, dropLast := stamp, dropFirst := if s.ev.dropped = 0 then stamp else s.ev.dropFirst } }.bump
      (evReg Reg.EV_LOST_TOTAL) 1

/-- R28: event `i` of those on their way reaches the collector and is stamped with the steward counter. -/
def execEventArrival (i : Nat) (s : State) : Host.Outcome State Fault Refusal :=
  .next (match s.ev.inFlight[i]? with
    | none => s
    | some e => { s with ev := { s.ev with inFlight := s.ev.inFlight.eraseIdx i }, time := { s.time with lastStamp := s.time.tick } }.evRecord e s.time.tick)

/-- R297: records start to be written, from slot 0 of the ring; a ring out of Table 9-18's ranges is not started (log 26). -/
def State.evEnable (s : State) : State :=
  let n := bitsOf s.evCfg 0 5
  if s.ev.enabled || decide (n < 6) || decide (16 < n) || s.reg (evReg Reg.EV_RING_BASE) % 4096 != 0 || s.reg (evReg Reg.EV_DB_ADDR) % 64 != 0 then s
  else
    let s1 := { s with ev := { s.ev with enabled := true, failed := false, written := 0, head := 0, sinceIrq := 0 } }
    s1.evDrain (s1.ev.held.length + 1)

def execEvCtrlEnable (s : State) : Host.Outcome State Fault Refusal := .next s.evEnable

def execEvCtrlDisable (s : State) : Host.Outcome State Fault Refusal :=
  .next { s with ev := { s.ev with enabled := false } }

/-- The class of a Table 9-5 descriptor. -/
abbrev clsRequest : Nat := 1
abbrev clsProgram : Nat := 2
abbrev clsDma : Nat := 3
abbrev clsWeight : Nat := 4
abbrev clsAdapter : Nat := 5
abbrev clsConfig : Nat := 6
abbrev clsTest : Nat := 7
abbrev clsTimeMark : Nat := 8
abbrev clsEvent : Nat := 9
abbrev clsMaint : Nat := 10

/-- R290: EVENT MASK. -/
def execEventMask (h : Hdr) (mask severity : Nat) (s : State) : Host.Outcome State Fault Refusal :=
  .next (s.descriptor h clsEvent fun s d =>
    { s with ev := { s.ev with mask := mask % 2 ^ 256, minSeverity := severity } }.finish d .OK 0 0)

/-- R290: EVENT FLUSH completes when every record held before its arrival has been written. -/
def execEventFlush (h : Hdr) (s : State) : Host.Outcome State Fault Refusal :=
  .next (s.descriptor h clsEvent fun s d =>
    if s.ev.held.isEmpty then s.finish d .OK 0 0
    else { s with ev := { s.ev with flushes := s.ev.flushes ++ [(d, s.ev.held.length)] } })

/-! ### Channel control -/

/-- R264: what a channel's open check finds; `dbOk` says that the read of the doorbell line succeeds. -/
def State.openCheck (s : State) (c : Nat) (dbOk : Bool) : Code :=
  let cfg := s.reg (chReg c Reg.CH_CFG)
  let sq := bitsOf cfg 0 5
  let cq := bitsOf cfg 5 5
  let ver := fun (o r : Nat) => settle (offerList (s.reg (chReg c o))) (offerList (s.reg r))
  if sq < 6 ∨ 16 < sq ∨ cq < 6 ∨ 20 < cq then .CFG_RANGE
  else if s.reg (chReg c Reg.CH_SQ_BASE) % 4096 ≠ 0 ∨ s.reg (chReg c Reg.CH_CQ_BASE) % 4096 ≠ 0 ∨ s.reg (chReg c Reg.CH_DB_ADDR) % 64 ≠ 0 then .ALIGN
  else if ver Reg.CH_RING_OFFER Reg.VER_RING = 0 ∨ ver Reg.CH_DESC_OFFER Reg.VER_DESC = 0 ∨ ver Reg.CH_ABI_OFFER Reg.VER_ABI = 0 then .VERSION_NONE
  else if !dbOk then .HOST_ACCESS
  else .OK

/-- R263, R264: the channel latches its registers, settles its versions and opens, or sets ERROR_CODE. -/
def State.openChannel (s : State) (c : Nat) (dbOk : Bool) : State :=
  let code := s.openCheck c dbOk
  if code = .OK then
    let ver := fun (o r : Nat) => settle (offerList (s.reg (chReg c o))) (offerList (s.reg r))
    let x : Chan :=
      { st := .opened, sqBase := s.reg (chReg c Reg.CH_SQ_BASE), cqBase := s.reg (chReg c Reg.CH_CQ_BASE)
        dbAddr := s.reg (chReg c Reg.CH_DB_ADDR), cfg := s.reg (chReg c Reg.CH_CFG)
        ringVer := ver Reg.CH_RING_OFFER Reg.VER_RING, descVer := ver Reg.CH_DESC_OFFER Reg.VER_DESC
        abiVer := ver Reg.CH_ABI_OFFER Reg.VER_ABI }
    (s.setChan c x).takeDoorbell c
  else (s.setChan c { s.chan c with err := errorNumber code, openHeld := false }).raise .CHANNEL_OPEN_FAILED Src.host [c] code

/-- R264, R460: OPEN written in CLOSED; before READY it is held. -/
def execChCtrlOpen (c : Nat) (dbOk : Bool) (host : List HostWrite) (s : State) : Host.Outcome State Fault Refusal :=
  .next (let s := s.hostWrites host
    if (s.chan c).st ≠ .closed then s
    else if s.ready then s.openChannel c dbOk
    else s.setChan c { s.chan c with openHeld := true })

/-- R265. -/
def execChCtrlClose (c : Nat) (s : State) : Host.Outcome State Fault Refusal :=
  .next (if (s.chan c).st = .opened then s.setChan c { s.chan c with st := .draining } else s)

/-- R265: every fetched descriptor has completed and every completion is written. -/
def Chan.drained (x : Chan) : Bool := x.started == x.fetched && x.outstanding.isEmpty && x.spill.isEmpty

def execChannelDrainDone (c : Nat) (s : State) : Host.Outcome State Fault Refusal :=
  .next (if (s.chan c).st = .draining ∧ (s.chan c).drained then s.setChan c { s.chan c with st := .closed } else s)

/-- R266: RESET returns the channel from ERROR to CLOSED. -/
def execChCtrlReset (c : Nat) (s : State) : Host.Outcome State Fault Refusal :=
  .next (if (s.chan c).st = .error then s.setChan c { s.chan c with st := .closed } else s)

/-- R266: an access to the channel's host memory has failed or returned poison. -/
def execChannelError (c : Nat) (s : State) : Host.Outcome State Fault Refusal :=
  .next (if (s.chan c).isOpen then s.chanError c .HOST_ACCESS else s)

/-- R268: under CXL, a host write to a doorbell line invalidates the TX8's copy, and it reads the line again. Line 256 is the event doorbell. -/
def execDoorbellInvalidation (line : Nat) (host : List HostWrite) (s : State) : Host.Outcome State Fault Refusal :=
  .next (let s := s.hostWrites host
    if s.part.pcie || !s.ready then s
    else if line = 256 then (if s.ev.enabled then s.takeEvHead else s)
    else if (s.chan line).isOpen then s.takeDoorbell line else s)

/-- R269: under PCIe, every open channel's line is read, and the event line. -/
def execDbPoll (host : List HostWrite) (s : State) : Host.Outcome State Fault Refusal :=
  .next (let s := s.hostWrites host
    if !s.part.pcie || !s.ready then s
    else
      let s1 := (List.range 256).foldl (fun s c => if (s.chan c).isOpen then s.takeDoorbell c else s) s
      if s1.ev.enabled then s1.takeEvHead else s1)

/-- R271: COAL_TIME has passed since the first completion without an interrupt. -/
def execCoalTime (c : Nat) (s : State) : Host.Outcome State Fault Refusal :=
  .next (let x := s.chan c
    if x.isOpen && x.irqEn && x.coalRun then (s.setChan c { x with sinceIrq := 0, coalRun := false }).interrupt c else s)

/-! ### Time marks (R291, R292) -/

/-- The PTM root time at tick `t`, from the latest exchange at 1 tick a nanosecond; 0 with none (R292). -/
def State.ptmAt (s : State) (t : Nat) : Nat :=
  match s.time.ptm with
  | some (t0, r0) => ((r0 : Int) + ((t : Int) - t0)).toNat % 2 ^ 64
  | none => 0

/-- R291: the mark; `stewardChanged` says that a STEWARD_CHANGED fell between its capture and its completion. -/
def execTimeMark (h : Hdr) (hostTime : Nat) (stewardChanged : Bool) (s : State) : Host.Outcome State Fault Refusal :=
  .next (s.descriptor h clsTimeMark fun s d =>
    let t := s.time.tick
    if stewardChanged then s.finish d .OK t (s.ptmAt t) false true
    else ((s.setReg (evReg Reg.TM_LAST_TICK) t).setReg (evReg Reg.TM_LAST_HOST) hostTime).finish d .OK t (s.ptmAt t))

def execPtmExchange (root : Nat) (s : State) : Host.Outcome State Fault Refusal :=
  .next { s with time := { s.time with ptm := some (s.time.tick, root) } }

/-- R273: MAINT EVENT_CATALOGUE writes as much of the catalogue as the buffer takes; RESULT0 is the bytes needed. -/
def execEventCatalogue (h : Hdr) (buffer length : Nat) (s : State) : Host.Outcome State Fault Refusal :=
  .next (s.descriptor h clsMaint fun s d =>
    (s.hostPut buffer ((List.range (min length Config.catalogueLength)).map Config.catalogueByte)).finish d .OK Config.catalogueLength 0)

/-- R261. -/
def execHdmDecoderCommit (commit : Bool) (s : State) : Host.Outcome State Fault Refusal :=
  .next (if s.part.pcie then s else { s with hdmDecoder := commit })

end Sys2Proof.Machine
end

