-- ==== Sys2Proof/Machine/Kv.lean ====
section
/-! DEFINITION. The Ember pools, page tables, their edits and the places of KV entries (R201 to R212). -/

namespace Sys2Proof

/-! ### Images and homes (R203) -/

/-- The heads of a block that an image homes on Mm, in ascending head number. -/
def Image.homed (g : Image) (b m : Nat) : List Nat :=
  ((g.heads.filter (fun h => h.block == b && h.home == m)).map (·.head)).mergeSort (fun a b => decide (a ≤ b))

/-- H_m. -/
def Image.homes (g : Image) (m : Nat) : Nat := ((List.range g.blocks).map (fun b => (g.homed b m).length)).foldl max 0

/-- F_m = L × H_m. -/
def Image.frames (g : Image) (m : Nat) : Nat := g.blocks * g.homes m

/-- The M-dies that home a head of an image. -/
def Image.mdies (g : Image) : List Nat := (List.range 4).filter (fun m => g.homes m != 0)

namespace Machine

def State.image (s : State) (n : Nat) : Option Image := Tab.get s.images n

/-- Numbers of the loaded images. -/
def State.loaded (s : State) : List Nat := s.images.map (·.1)

/-- The largest F_m among the loaded images, or 0. -/
def State.needFrames (s : State) (m : Nat) : Nat :=
  (s.loaded.map (fun n => match s.image n with | some g => g.frames m | none => 0)).foldl max 0

/-! ### Pools -/

def State.pool (s : State) (m : Nat) : Pool := Tab.get s.pools m
def State.setPool (s : State) (m : Nat) (p : Pool) : State := { s with pools := Tab.set s.pools m p }

def State.poolEn (s : State) (m : Nat) : Bool := bitOf (s.cfg (memReg m Reg.KV_POOL_CFG)) 0
def State.poolKv4 (s : State) (m : Nat) : Bool := bitOf (s.cfg (memReg m Reg.KV_POOL_CFG)) 1
def State.lowMark (s : State) (m : Nat) : Nat := s.fld (memReg m Reg.KV_POOL_CFG) 8 24

/-- Group slots of a pool: KV_POOL_FRAMES / S_m, none while the pool is not in use. -/
def State.poolSlots (s : State) (m : Nat) : Nat :=
  if s.poolEn m ∧ (s.pool m).size ≠ 0 then s.fld (memReg m Reg.KV_POOL_FRAMES) 0 25 / (s.pool m).size else 0

/-- A slot that is allocated or held. -/
def Pool.taken (p : Pool) (g : Nat) : Bool := p.used.contains g || p.held.any (·.1 == g)
def Pool.busy (p : Pool) : Bool := !p.used.isEmpty || !p.held.isEmpty

def State.slotsFree (s : State) (m : Nat) : Nat := s.poolSlots m - ((s.pool m).used.length + (s.pool m).held.length)

/-- The lowest-numbered slot at or above `g` that is not taken (R207). -/
def Pool.lowest (p : Pool) : Nat → Nat → Nat
  | 0, g => g
  | f + 1, g => if p.taken g then Pool.lowest p f (g + 1) else g

/-- R207: one group slot of Mm is allocated; free slots falling below LOW_MARK are reported once. -/
def State.takeSlot (s : State) (m : Nat) : Nat × State :=
  let p := s.pool m
  let g := p.lowest (p.used.length + p.held.length + 1) 0
  let n := s.slotsFree m
  let s1 := (s.setPool m { p with used := g :: p.used }).bump (memReg m Reg.KV_ALLOC_TOTAL) 1
  (g, if s.lowMark m = n then s1.raise .EMBER_POOL_LOW (Src.ofMdie m) [m, n - 1] else s1)

/-- Z of R201: 64 KiB for KV8, 32 KiB for KV4. -/
def State.frameSize (s : State) (m : Nat) : Nat := if s.poolKv4 m then 0x8000 else 0x10000

/-- Stack and stack offset of the element area of frame `f` of Mm, and of its exponent slot (R201). -/
def State.frameElems (s : State) (m f : Nat) : Nat :=
  (2 * m + f % 2) * stackSize + s.fld (memReg m Reg.KV_POOL_OFS) 0 36 + f / 2 * s.frameSize m
def State.frameExps (s : State) (m f : Nat) : Nat :=
  (2 * m + f % 2) * stackSize + s.fld (memReg m Reg.KV_EXP_OFS) 0 36 + f / 2 * 2048

/-- The tiles that group slot `g` of Mm takes. -/
def State.slotTiles (s : State) (m g : Nat) : List Nat :=
  (List.range (s.pool m).size).flatMap (fun i =>
    let f := g * (s.pool m).size + i
    (List.range (s.frameSize m / 4096)).map (s.frameElems m f / 4096 + ·) ++ [s.frameExps m f / 4096])

/-- A slot returns to the free list; its poisoned tiles are written with zeros and a matching CRC (Table 14-2). -/
def State.freeSlot (s : State) (m g : Nat) : State :=
  let ts := (s.slotTiles m g).filter (fun t => (s.tile t).poisoned)
  (ts.foldl (fun s t => s.zeroTiles (4096 * t) 1) s).bump (memReg m Reg.KV_FREE_TOTAL) 1

/-- A slot leaves the allocated ones for the free list at once (R250). -/
def State.dropSlot (s : State) (m g : Nat) : State :=
  (s.setPool m { s.pool m with used := (s.pool m).used.erase g }).freeSlot m g

/-- A slot that an edit removed goes to the hold list under its generation (R209). -/
def State.holdSlot (s : State) (m g seq gen : Nat) : State :=
  s.setPool m { s.pool m with used := (s.pool m).used.erase g, held := (g, seq, gen) :: (s.pool m).held }

/-! ### Page tables -/

def State.table (s : State) (i : Nat) : PageTable := Tab.get s.tables i
def State.setTable (s : State) (i : Nat) (t : PageTable) : State := { s with tables := Tab.set s.tables i t }

/-- R205: cells that a table takes, and cells in use in the store of Mm. -/
def PageTable.cells (t : PageTable) : Nat := if t.valid then 2 + t.pages.length else 0
def State.cellsUsed (s : State) (m : Nat) : Nat :=
  (s.tables.map (fun e => if e.1 % 4 = m then e.2.cells else 0)).foldl (· + ·) 0
def State.cellsFree (s : State) (m : Nat) : Nat := 262144 - s.cellsUsed m

/-- Group slots of each page on Mm, by page. -/
def PageTable.slot (t : PageTable) (p m : Nat) : Option Nat := ((t.pages.getD p []).getD m none)

/-- One page's handles for an image that homes heads on the M-dies of `ms` (R205). -/
def State.takePage (s : State) (ms : List Nat) : List (Option Nat) × State :=
  (List.range 4).foldl (fun x m =>
    if ms.contains m then (let y := x.2.takeSlot m; (x.1 ++ [some y.1], y.2)) else (x.1 ++ [none], x.2)) ([], s)

/-- `n` pages. -/
def State.takePages (s : State) (ms : List Nat) : Nat → List (List (Option Nat)) × State
  | 0 => ([], s)
  | n + 1 =>
    let x := s.takePage ms
    let y := State.takePages x.2 ms n
    (x.1 :: y.1, y.2)

/-- The M-dies on which `n` more pages of request `i` lack group slots or page-table cells (R207). -/
def State.short (s : State) (i n : Nat) (g : Image) : List Nat :=
  let t := s.table i
  let cells := n + (if t.valid then 0 else 2)
  (List.range 4).filter (fun m => (g.homes m != 0 && decide (s.slotsFree m < n)) || (m == i % 4 && decide (s.cellsFree m < cells)))

/-- APPEND (Table 7-2): the table of request `i` grows to `n` pages. -/
def State.appendPages (s : State) (i n : Nat) (g : Image) : State :=
  let t := s.table i
  if n ≤ t.pages.length then s.setTable i { t with valid := true }
  else
    let x := s.takePages g.mdies (n - t.pages.length)
    x.2.setTable i { t with valid := true, pages := t.pages ++ x.1, changed := true, gen := if t.changed then t.gen else add32 t.gen 1 }

/-- The pages from `n` on leave the table; their slots go to the hold list. -/
def State.cutPages (s : State) (i n : Nat) : State :=
  let t := s.table i
  let gen := add32 t.gen 1
  let s1 := (t.pages.drop n).foldl (fun s p => (p.zipIdx).foldl (fun s h => match h.1 with
    | some g => s.holdSlot h.2 g i gen
    | none => s) s) s
  s1.setTable i { t with pages := t.pages.take n }

/-- One edit of Table 7-2. -/
def State.editPage (s : State) (i : Nat) (e : PageEdit) : State :=
  let t := s.table i
  match e with
  | .truncate length draft => (s.cutPages i ((length + draft + 255) / 256)).setTable i
      { (s.cutPages i ((length + draft + 255) / 256)).table i with length := length, draft := draft }
  | .release => (s.cutPages i 0).setTable i { gen := t.gen, holds := t.holds }
  | .evict => (s.cutPages i 0).setTable i { gen := t.gen, holds := t.holds }
  | .restore => s

/-- R206: the staged edits of one table are applied in order; GENERATION counts once when the page list has changed. -/
def State.applyEdits (s : State) (i : Nat) : State :=
  let t := s.table i
  if t.edits.isEmpty then s.setTable i { t with changed := false }
  else
    let s1 := (t.edits).foldl (fun s e => s.editPage i e) (s.setTable i { t with edits := [], changed := false })
    let u := s1.table i
    if u.pages ≠ t.pages ∨ t.edits.contains .restore then s1.setTable i { u with gen := add32 t.gen 1, changed := true } else s1

/-- An edit is staged. -/
def State.stageEdit (s : State) (i : Nat) (e : PageEdit) : State :=
  s.setTable i { s.table i with edits := (s.table i).edits ++ [e] }

/-- R209: held slots whose table has no read hold of an older generation return to the free list. -/
def State.returnHeld (s : State) (m : Nat) : State :=
  let p := s.pool m
  let stay (h : Nat × Nat × Nat) : Bool := (s.table h.2.1).holds.any (fun x => decide (x < h.2.2))
  let s1 := s.setPool m { p with held := p.held.filter stay }
  (p.held.filter (fun h => !stay h)).foldl (fun s h => s.freeSlot m h.1) s1

/-- R203: S_m falls when no slot of the pool is allocated or held. -/
def State.shrinkPool (s : State) (m : Nat) : State :=
  if (s.pool m).busy then s else s.setPool m { s.pool m with size := s.needFrames m }

/-- The work of R206, R209 and R203 at a step boundary, before admission. -/
def State.kvBoundary (s : State) : State :=
  let s1 := s.tables.keys.foldl (fun s i => s.applyEdits i) s
  let s2 := (List.range 4).foldl (fun s m => s.returnHeld m) s1
  (List.range 4).foldl (fun s m => s.shrinkPool m) s2

/-! ### Read holds (R210) -/

/-- The status of a registration. -/
def PageTable.holdStatus (t : PageTable) : Code :=
  if !t.valid then .KV_NO_TABLE else if 65535 ≤ t.holds.length then .KV_HOLD_FULL else .OK

/-- A reader registers a hold of the generation in force, and drops it. -/
def State.addHold (s : State) (i : Nat) : State :=
  s.setTable i { s.table i with holds := (s.table i).gen :: (s.table i).holds }
def State.dropHold (s : State) (i gen : Nat) : State :=
  s.setTable i { s.table i with holds := (s.table i).holds.erase gen }

/-! ### Entries (R51, R201, R211) -/

/-- Where the entries of one KV head of one block lie for one logical page: base of the element area and of the exponent slot. -/
structure PagePlace where
  elems : Nat
  exps : Nat
  deriving DecidableEq, Repr, Inhabited

/-- The place of page `p` of request `i` for a head, or the M-die whose handle is not VALID. -/
def State.place (s : State) (i p : Nat) (g : Image) (h : ImageHead) : Except Nat PagePlace :=
  match (s.table i).slot p h.home with
  | none => .error h.home
  | some slot =>
    let f := slot * (s.pool h.home).size + h.block * g.homes h.home + (g.homed h.block h.home).findIdx (· == h.head)
    .ok { elems := s.frameElems h.home f, exps := s.frameExps h.home f }

/-- Pitch of a K or V vector in the element area, and of the V area (R51). -/
def kvPitch (kv4 : Bool) : Nat := if kv4 then 64 else 128
def kvVArea (kv4 : Bool) : Nat := if kv4 then 0x4000 else 0x8000

/-- The four runs of bytes that hold the entries of slot `t` of a page: K and V elements, K and V exponents (R51). -/
def PagePlace.runs (x : PagePlace) (kv4 : Bool) (t : Nat) : List (Nat × Nat) :=
  [(x.elems + t * kvPitch kv4, kvPitch kv4), (x.elems + kvVArea kv4 + t * kvPitch kv4, kvPitch kv4),
   (x.exps + 4 * t, 4), (x.exps + 1024 + 4 * t, 4)]

end Machine

end Sys2Proof
end

