-- ==== Sys2Proof/Machine/Requests.lean ====
section
/-! DEFINITION. The request table: handles, entries as bytes, reports, pauses and closes, and the Peat tier's extents and images (chapter 8). -/

namespace Sys2Proof

/-- Units of a Peat image (R246, Table 8-7): (logical page, block, KV head) triples. -/
def Image.kvUnits (g : Image) : List ImageHead :=
  g.heads.mergeSort (fun a b => decide (a.block < b.block) || (a.block == b.block && decide (a.head ≤ b.head)))

namespace Machine

/-! ### Entries and handles (R231, R232) -/

def State.req (s : State) (i : Nat) : Req := Tab.get s.reqs i
def State.setReq (s : State) (i : Nat) (r : Req) : State := { s with reqs := Tab.set s.reqs i r }

/-- The M-die that holds a request. -/
def reqMdie (i : Nat) : Nat := i % 4

/-- Bytes 0 to 3 of the entry. -/
def reqHandle (i inc : Nat) : Nat := i % 2 ^ 20 + inc % 2 ^ 12 * 2 ^ 20
def State.handle (s : State) (i : Nat) : Nat := reqHandle i (s.req i).incarnation

/-- Codes of Table 8-3. -/
def ReqState.code : ReqState → Nat
  | .closed => 0 | .opened => 1 | .active => 2 | .ember => 3 | .peat => 4 | .expired => 5

def Tier.code : Tier → Nat
  | .ember => 0 | .moving => 1 | .peat => 2

def b2n (b : Bool) : Nat := if b then 1 else 0

/-- Table 8-1: bytes 0 to 127 of the entry of request `i`. -/
def Req.entry (r : Req) (i : Nat) : List Byte :=
  leBytes 4 (reqHandle i r.incarnation)
    ++ leBytes 1 (b2n r.ref + 2 * r.refRung) ++ leBytes 1 (r.priority + 8 * r.policy + 32 * r.draftMode) ++ leBytes 1 r.reason
    ++ leBytes 1 (r.st.code + 8 * r.tier.code + 32 * r.peatTarget) ++ leBytes 1 r.chan ++ leBytes 1 (b2n r.keepPeat + 2 * b2n r.warned)
    ++ leBytes 2 (r.slot + 0x8000 * b2n r.noAdapter) ++ leBytes 2 r.version ++ leBytes 2 r.image ++ leBytes 4 r.length
    ++ leBytes 4 (r.token.getD 0) ++ leBytes 4 r.maxLength ++ leBytes 4 r.input.length ++ leBytes 8 r.deadline ++ leBytes 8 r.seed
    ++ leBytes 4 r.temp.toNat ++ leBytes 2 r.topK ++ leBytes 2 0 ++ leBytes 8 r.peatOfs ++ leBytes 4 r.ttl ++ leBytes 4 r.hold
    ++ leBytes 8 r.expiry ++ leBytes 8 r.lastCommit ++ leBytes 8 r.delivered ++ leBytes 8 r.hostTag ++ leBytes 24 0

/-- Table 8-2: the companion record. -/
def Req.companion (r : Req) : List Byte :=
  (List.range 48).map (fun j => r.kvDigest.getD j 0#8) ++ (List.range 48).map (fun j => r.recDigest.getD j 0#8) ++ leBytes 32 0
    ++ (Tab.getList r.ring 0 480).flatMap (leBytes 4)

/-- Table 7-1: the page-table header, or 32 zero bytes where no table exists. -/
def PageTable.header (t : PageTable) (i : Nat) : List Byte :=
  if t.valid then
    leBytes 4 i ++ leBytes 4 t.gen ++ leBytes 4 t.length ++ leBytes 4 t.pages.length ++ leBytes 1 t.draft ++ leBytes 1 t.tier.code
      ++ leBytes 2 t.holds.length ++ leBytes 12 0
  else leBytes 32 0

/-! ### Reports (R278) -/

/-- Table 8-5. -/
abbrev rsHost : Nat := 1
abbrev rsStop : Nat := 2
abbrev rsLimit : Nat := 3
abbrev rsDeadline : Nat := 4
abbrev rsNonfinite : Nat := 5
abbrev rsRange : Nat := 6
abbrev rsKvRange : Nat := 7
abbrev rsKvMissing : Nat := 8
abbrev rsInputEmpty : Nat := 9
abbrev rsFault : Nat := 10
abbrev rsResumeFailed : Nat := 11

/-- A report of Table 8-4: a REQUEST_EVENT completion on the request's channel, and the event of the same code. -/
def State.requestEvent (s : State) (i : Nat) (code : Code) (r0 : Nat) (r1 : Nat) : State :=
  let r := s.req i
  (s.complete r.chan { tag := r.hostTag, status := code, kind := 2, aux := s.handle i, r0 := r0, r1 := r1 } false).raise code Src.steward
    [s.handle i, r0 % 256] .OK

/-! ### Adapter pins (R252 to R254) -/

def State.adapter (s : State) (n : Nat) : Adapter := Tab.get s.adapters n
def State.setAdapter (s : State) (n : Nat) (x : Adapter) : State := { s with adapters := Tab.set s.adapters n x }

/-- The newest version of a slot. -/
def Adapter.newest (x : Adapter) : Option AdapterVersion := x.live.getLast?

def Adapter.addPins (x : Adapter) (n : Nat) (f : Nat → Nat) : Adapter :=
  { x with live := x.live.map (fun v => if v.number = n then { v with pins := f v.pins } else v) }

/-- The request's pin is released (R253). -/
def State.unpin (s : State) (i : Nat) : State :=
  let r := s.req i
  if r.pinned then (s.setAdapter r.slot ((s.adapter r.slot).addPins r.version (· - 1))).setReq i { r with pinned := false } else s

/-- The owner word of an adapter version's regions. -/
def adapterOwner (n v : Nat) : Nat := 0x10000 + n * 2 ^ 17 + v

/-- R253, R254: the work of a step boundary on slot `n`: an installed version becomes newest, versions without pins that are not the newest are freed, and a retiring slot without pins becomes empty. -/
def State.adapterBoundary (s : State) (n : Nat) : State :=
  let x := s.adapter n
  let live := match x.next with | some v => x.live ++ [v] | none => x.live
  let top := (live.getLast?.map (·.number)).getD 0
  let keep (v : AdapterVersion) : Bool := v.pins != 0 || (v.number == top && !x.retiring)
  let y : Adapter := if x.retiring && live.all (fun v => !keep v) then { last := x.last } else { x with live := live.filter keep, next := none }
  let s1 := s.setAdapter n y
  (live.filter (fun v => !keep v)).foldl (fun s v =>
    { s with mem := { s.mem with regions := s.mem.regions.filter (fun e => e.2.owner != adapterOwner n v.number) } }) s1

/-! ### Peat targets (R246, R255) -/

/-- The registers of Table 8-11 hold the same values on every M-die; M0's are read (R255). -/
def State.peatAddr (s : State) (t : Nat) : Nat := s.cfg (memReg 0 (Reg.PEAT_TGT_ADDR + 16 * t))
def State.peatSize (s : State) (t : Nat) : Nat := s.fld (memReg 0 (Reg.PEAT_TGT_SIZE + 16 * t)) 0 48
def State.peatKind (s : State) (t : Nat) : Nat := s.fld (memReg 0 (Reg.PEAT_TGT_SIZE + 16 * t)) 48 2

/-- A target in use: kind 1 GLOSA or 2 CXL_HOST; the reserved kind names none (log 37). -/
def State.peatEnabled (s : State) (t : Nat) : Bool := s.peatKind t == 1 || s.peatKind t == 2

/-- The extents that requests hold in a target, as first unit and units. -/
def State.peatExtents (s : State) (t : Nat) : List (Nat × Nat) :=
  s.reqs.filterMap (fun e => if e.2.peatUnits ≠ 0 ∧ e.2.peatTarget = t then some (e.2.peatOfs / 65536, e.2.peatUnits) else none)

/-- First fit from the lowest offset: the lowest unit at or above `u` with `n` free units (R246). -/
def firstFit (xs : List (Nat × Nat)) (n : Nat) : Nat → Nat → Nat
  | 0, u => u
  | f + 1, u =>
    match xs.find? (fun x => decide (x.1 < u + n) && decide (u < x.1 + x.2)) with
    | some x => firstFit xs n f (x.1 + x.2)
    | none => u

/-- Bytes of the image of a request. -/
def State.peatBytes (s : State) (i : Nat) : Nat :=
  match s.image (s.req i).image with
  | some g =>
    let l := (s.req i).length
    2432 + 48 * ((l + 255) / 256 * g.heads.length) + l * g.heads.length * (2 * kvPitch g.kv4 + 8)
  | none => 2432

/-- An extent for request `i` in target `t`, or none (R246). -/
def State.peatFit (s : State) (i t : Nat) : Option (Nat × Nat) :=
  let n := (s.peatBytes i + 65535) / 65536
  let xs := s.peatExtents t
  let u := firstFit xs n (xs.length + 1) 0
  if 65536 * (u + n) ≤ s.peatSize t then some (65536 * u, n) else none

/-- The request's extent is released. -/
def State.releaseExtent (s : State) (i : Nat) : State := s.setReq i { s.req i with peatUnits := 0 }

/-! ### Peat images (Table 8-7, R247) -/

/-- The data of one unit: K elements of the tokens below LENGTH, their V elements, their K exponents and V exponents (R246). -/
def State.unitData (s : State) (i p : Nat) (g : Image) (h : ImageHead) : List Byte :=
  match s.place i p g h with
  | .error _ => []
  | .ok x =>
    let n := min 256 ((s.req i).length - 256 * p)
    (List.range 4).flatMap (fun j => (List.range n).flatMap (fun t =>
      let r := (x.runs g.kv4 t).getD j (0, 0)
      s.bytesAt r.1 r.2))

/-- The units of request `i`, in unit order. -/
def State.unitList (s : State) (i : Nat) (g : Image) : List (Nat × ImageHead) :=
  (List.range (((s.req i).length + 255) / 256)).flatMap (fun p => g.kvUnits.map (fun h => (p, h)))

/-- KV_DIGEST from the unit digests (R247). -/
def kvDigestOf (ds : List (List Byte)) : List Byte := Config.sha384 ds.flatten

/-- RECORD_DIGEST (R247). -/
def recDigestOf (entry companion : List Byte) : List Byte :=
  Config.sha384 (entry.zipIdx.map (fun x => if x.2 = 7 ∨ x.2 = 9 ∨ (56 ≤ x.2 ∧ x.2 ≤ 87) then 0#8 else x.1) ++ companion.drop 128)

/-- The 48 bytes of a digest. -/
def dig48 (d : List Byte) : List Byte := (List.range 48).map (fun j => d.getD j 0#8)

/-- Table 8-7: the Peat image of request `i`. -/
def State.peatImage (s : State) (i : Nat) (g : Image) : List Byte :=
  let r := s.req i
  let us := s.unitList i g
  let ds := us.map (fun u => dig48 (Config.sha384 (s.unitData i u.1 g u.2)))
  let kd := dig48 (kvDigestOf ds)
  let rd := dig48 (recDigestOf (r.entry i) r.companion)
  leBytes 4 Config.peatVersion ++ leBytes 4 r.length ++ leBytes 4 us.length ++ leBytes 1 (b2n g.kv4) ++ leBytes 3 0 ++ kd ++ rd ++ leBytes 144 0
    ++ r.entry i ++ { r with kvDigest := kd, recDigest := rd }.companion ++ ds.flatten
    ++ us.flatMap (fun u => s.unitData i u.1 g u.2)

/-! ### Pause, close and their effects -/

/-- A request pauses to the Ember tier with a reason (Table 8-4). -/
def State.pauseReq (s : State) (i reason : Nat) : State :=
  let r := s.req i
  (s.setReq i { r with st := .ember, reason := reason, pauseTick := s.time.tick, wantPause := false }).requestEvent i .REQUEST_PAUSED reason s.time.tick

/-- R251: a move to the Peat tier stops: the extent is released, TIER returns to EMBER and the read hold is dropped. -/
def State.stopMove (s : State) (i : Nat) : State :=
  let r := s.req i
  if r.tier = .moving ∧ r.st = .ember then
    let t := s.table i
    ((s.setTable i { t with tier := .ember, holds := t.holds.erase (t.holds.headD 0) }).setReq i { r with tier := .ember, moved := false, wantMove := false }).releaseExtent i
  else s.setReq i { r with wantMove := false }

/-- The slots and cells that a resumption took are freed at once (R250). -/
def State.stopResume (s : State) (i : Nat) : State :=
  let t := s.table i
  let s1 := t.pages.foldl (fun s p => (p.zipIdx).foldl (fun s h => match h.1 with | some g => s.dropSlot h.2 g | none => s) s) s
  (s1.setTable i { gen := t.gen }).setReq i { s1.req i with resuming := none, checked := false, tier := .peat }

/-- The request becomes ACTIVE (Table 8-4); input held since PAUSED_PEAT is fed in order (R250). -/
def State.resumeReq (s : State) (i : Nat) : State :=
  let r := s.req i
  let token := r.late.foldl (fun t x => if x.1 then t else none) r.token
  (s.setReq i { r with st := .active, reason := 0, tier := .ember, wantResume := false, input := r.input ++ r.late.flatMap (·.2), late := [], token := token }).requestEvent i
    .REQUEST_RESUMED 0 s.time.tick

/-- The rewind log keeps nothing of an entry that is closed (R416). -/
def State.forget (s : State) (i : Nat) : State := { s with step := { s.step with log := s.step.log.filter (fun x => x.idx != i) } }

/-- The request closes: pages, Peat image and pin are released and the entry is free (Table 8-6). -/
def State.closeReq (s : State) (i reason : Nat) : State :=
  let s1 := if (s.req i).resuming.isSome then s.stopResume i else s.stopMove i
  let s2 := ((s1.unpin i).releaseExtent i).requestEvent i .REQUEST_CLOSED reason s.time.tick
  let s3 := if (s2.table i).valid then s2.stageEdit i .release else s2
  (s3.setReq i { incarnation := (s3.req i).incarnation, used := true }).forget i

/-- An accepted rewind to `l` (R244): the TRUNCATE is staged, the pending token becomes that of position `l`, and no input is pending. -/
def State.rewindReq (s : State) (i l : Nat) (token : Option Nat) (input : List Nat) : State :=
  let r := s.req i
  let s1 := if (s.table i).valid then s.stageEdit i (.truncate l 0) else s
  s1.setReq i { r with length := l, token := token, input := input, wantRewind := none, faultRewind := none
                       ring := match token with | some x => Tab.set r.ring (l % 480) x | none => r.ring }

/-! ### The step in progress: trouble that stops a sequence's token -/

/-- Trouble of a sequence that the commit answers with a pause (R44, R113, R115, R227). -/
def State.trouble (s : State) (seq reason : Nat) (args : List Nat) : State :=
  if s.troubles.any (·.seq == seq) then s else { s with troubles := s.troubles ++ [{ seq := seq, reason := reason, args := args }] }

end Machine

end Sys2Proof
end

