-- ==== Sys2Proof/Machine/Faults.lean ====
section
/-! DEFINITION. Cluster positions, the Ash list, the loss of a cluster, abandoned steps, fault counts and suspect windows (R15 to R18, R159, R380 to R382, R408 to R422). -/

namespace Sys2Proof

/-- The image has tiles or work on a core, or on a compute die. -/
def Image.usesCore (g : Image) (q : Nat) : Bool := g.cores.contains q
def Image.usesDie (g : Image) (d : Nat) : Bool := g.cores.any (fun q => q / 72 == d)

namespace Machine

/-! ### Positions (R16, R18) -/

/-- A SPARE position of a die that is not under test (R380, R424). -/
def State.spareOf (s : State) (d : Nat) : Option Nat :=
  (List.range 9).find? (fun p => (s.position d p).st == .spare && !(s.position d p).underScan)

/-- R381, R382: a logical cluster whose passes run in D8. -/
def State.covered (s : State) (g : Nat) : Bool :=
  s.det.unplaced.contains g || s.det.lost.any (fun x => x.1 == g) ||
  (match s.posOf (g / 9) (g % 9) with
   | some p => (s.position (g / 9) p).st == .programming || (s.position (g / 9) p).covered
   | none => false)

/-- A logical cluster in service for the calibration agent and the steward (R129). -/
def State.inService (s : State) (g : Nat) : Bool :=
  s.fits (g / 9) && !s.dieDown (g / 9) && !s.covered g &&
  (match s.posOf (g / 9) (g % 9) with
   | some p => !(s.position (g / 9) p).resetting && !(s.position (g / 9) p).underScan
   | none => false)

/-- R129: the logical cluster whose Hearth core runs a die's calibration agent; none only when no cluster of the die is in service. -/
def State.agentCluster (s : State) (d : Nat) : Option Nat :=
  [1, 2, 3, 4, 5, 6, 7, 0].find? (fun k => s.inService (clusterKey d k))

/-! ### The Ash list (R159) -/

/-- A new entry reaches the working copy and flash; beyond 262,144 it is counted as lost and reported. -/
def State.ashAdd (s : State) (e : AshEntry) : State :=
  if s.ash.entries.length < 262144 then
    { s with ash := { s.ash with entries := s.ash.entries ++ [{ e with stamp := if e.kind = 0 then 0 else s.time.tick }], flash := s.ash.entries.length + 1 } }
  else ({ s with ash := { s.ash with lost := s.ash.lost + 1 } }).raise .ASH_LIST_FULL Src.steward [s.ash.lost + 1]

/-- The entry of a physical cluster position. -/
def ashCluster (d p cause : Nat) : AshEntry := { kind := 5, cause := cause, die := d, position := p }

/-- Table 5-6: an entry's 16 bytes. -/
def AshEntry.bytes (e : AshEntry) : List Byte :=
  leBytes 1 e.kind ++ leBytes 1 e.cause ++ leBytes 1 (e.die + 8 * e.dieType + 32 * e.element) ++ leBytes 1 e.position
    ++ leBytes 1 (e.core + 8 * e.engine + 32 * e.bank) ++ leBytes 1 (e.layer + 64 * b2n e.allLayers) ++ leBytes 2 e.index ++ leBytes 8 e.stamp

/-! ### Loss of a cluster (R380 to R382) -/

/-- The arrays of the cluster under key `g` stay with position `p` of die `d`, which leaves service. -/
def State.stow (s : State) (d p g : Nat) : State :=
  (List.range 32).foldl (fun s j =>
    let a := engineKey (g * 8 + j / 4) (j % 4)
    let t := engineKey (clusterKey d p * 8 + j / 4) (j % 4)
    { s with attic := Tab.set s.attic t (s.engine a) }.setEngine a {}) s

/-- The arrays of position `p` come back into service under key `g`. -/
def State.unstow (s : State) (d p g : Nat) : State :=
  (List.range 32).foldl (fun s j =>
    let a := engineKey (g * 8 + j / 4) (j % 4)
    let t := engineKey (clusterKey d p * 8 + j / 4) (j % 4)
    { s with attic := Tab.erase s.attic t }.setEngine a (Tab.get s.attic t)) s

/-- A position passes to RETIRED and keeps its arrays. -/
def State.retire (s : State) (d p : Nat) : State :=
  let x := s.position d p
  if x.st = .retired ∨ x.st = .fusedOff then s.setPosition d p { x with underScan := false }
  else (s.stow d p (clusterKey d (min 8 x.logical))).setPosition d p { x with st := .retired, logical := 15, covered := false, underScan := false, resetting := false }

/-- Every request, open or active, whose image uses a die pauses with reason FAULT, and DIE_CAPACITY_LOST is raised. -/
def State.pauseDie (s : State) (d : Nat) : State :=
  let hit := s.reqs.filter (fun (e : Nat × Req) => e.2.st == .active && (match s.image e.2.image with | some g => g.usesDie d | none => false))
  { s with step := { s.step with excluded := s.step.excluded ++ hit.map Prod.fst } }.raise .DIE_CAPACITY_LOST Src.steward [d]

/-! ### Scans that stop (Table 14-5) -/

abbrev scanSwap : Nat := 1
abbrev scanCover : Nat := 2
abbrev scanSpare : Nat := 3

def State.scan (s : State) (d : Nat) : Scan := Tab.get s.det.scans d
def State.setScan (s : State) (d : Nat) (x : Scan) : State := { s with det := { s.det with scans := Tab.set s.det.scans d x } }

/-- The scan of a die stops: a spare that it prepared is SPARE again, the position under scan returns, a released position waits for its scan again, and the descriptor completes as not passed (log 63). -/
def State.scanHalt (s : State) (d : Nat) : State :=
  let x := s.scan d
  if x.st = 0 then s
  else
    let s1 := s.setScan d { lastTick := x.lastTick, lastResult := x.lastResult }
    let s2 := (List.range 9).foldl (fun s p =>
      let y := s.position d p
      if y.st = .programming ∧ y.logical = 15 then s.setPosition d p { y with st := .spare }
      else if p = x.position then s.setPosition d p { y with underScan := false, covered := false } else s) s1
    let s3 := if (s.position d x.position).st = .retired then
        { s2 with hk := { s2.hk with parts := Tab.set s2.hk.parts (9 * d + x.position) { releasing := true } } } else s2
    match x.desc with
    | some e => s3.finish e .OK 1 s3.time.tick
    | none => s3

/-- A logical cluster is lost with a cause of R159 (none after a partition shutdown): the step is abandoned, its position is RETIRED, and a spare takes the number at the next boundary, or the die covers the cluster, or the die's capacity is lost. -/
def State.loseCluster (s : State) (g : Nat) (cause : Option Nat) : State :=
  let d := g / 9
  match s.posOf d (g % 9) with
  | none => s
  | some p =>
    let s1 := (s.abandon .transport .OK 0 []).scanHalt d
    let s2 := s1.retire d p
    let s3 := match cause with | some c => s2.ashAdd (ashCluster d p c) | none => s2
    if (s3.spareOf d).isSome ∧ !(s3.det.lost.any (fun (x : Nat × Nat) => x.1 / 9 == d)) then
      { s3 with det := { s3.det with lost := s3.det.lost ++ [(g, p)] } }
    else if s3.det.unplaced.any (fun x => x / 9 == d) then s3.pauseDie d
    else { s3 with det := { s3.det with unplaced := s3.det.unplaced ++ [g] } }.raise .CLUSTER_COVERED Src.steward [d, g % 9]

/-- R17: at a step boundary the spare of the die takes the number of a lost cluster and passes to PROGRAMMING; its arrays become those of the logical cluster. -/
def State.substitute (s : State) (g old : Nat) : State :=
  let d := g / 9
  match s.spareOf d with
  | none => s
  | some p =>
    let s1 := s.setPosition d p { s.position d p with st := .programming, logical := g % 9 }
    let s2 := (List.range 32).foldl (fun s j =>
      let a := engineKey (g * 8 + j / 4) (j % 4)
      let b := engineKey (clusterKey d 8 * 8 + j / 4) (j % 4)
      (s.setEngine a (s.engine b)).setEngine b {}) s1
    { s2 with det := { s2.det with lost := s2.det.lost.filter (fun x => x.1 != g), raises := Tab.set s2.det.raises g [] } }.raise
      .CLUSTER_SUBSTITUTED Src.steward [d, g % 9, old, p]

/-! ### Fault counts (R422) -/

def State.faultLimit (s : State) (d : Nat) : Nat := s.fld (dieReg d Reg.SE_CFG) 8 8
def State.faultWindow (s : State) (d : Nat) : Nat := 2 ^ s.fld (dieReg d Reg.SE_CFG) 16 5

/-- Raises of a cluster within the window. -/
def State.faultCount (s : State) (g : Nat) : Nat :=
  ((Tab.get s.det.raises g).filter (fun t => decide (s.step.num < t + s.faultWindow (g / 9)))).length

/-- One raise of a cluster's fault count; at FAULT_LIMIT the cluster is lost. -/
def State.faultRaise (s : State) (g : Nat) : State :=
  let s1 := { s with det := { s.det with raises := Tab.upd s.det.raises g (s.step.num :: ·) } }
  if s.faultLimit (g / 9) ≤ s1.faultCount g then
    (s1.raise .CLUSTER_FAULT_LIMIT (Src.ofCluster g) [g, s1.faultCount g]).loseCluster g (some 10)
  else s1

/-- A detection in the arrays of core `q` names the step in progress: it opens a window from step `first`, counts for the cluster unless it was injected, and abandons the step (R408, R414, R422). -/
def State.detect (s : State) (cls : DetClass) (q first : Nat) (injected : Bool) : State :=
  let s0 := { s with det := { s.det with lastDetect := Tab.set s.det.lastDetect (q / 8) s.step.num } }
  let s1 := s0.openWindow { cls := cls, first := first, last := s.step.num, core := q }
  let s2 := s1.abandon cls .OK 0 []
  if injected then s2 else s2.faultRaise (q / 8)

end Machine

end Sys2Proof
end

