-- ==== Sys2Proof/Machine/Calib.lean ====
section
/-! DEFINITION. Array calibration: trims, temperature points, samples, deviations, fits, runs, and the retirement of columns and lanes (chapter 5, R409 to R412). -/

namespace Sys2Proof.Machine

/-! ### Set-up fields (Tables 5-8 to 5-10, 14-7) -/

def State.calDt (s : State) (d : Nat) : Nat := s.fld (dieReg d Reg.CAL_CFG) 0 5
def State.calInterval (s : State) (d : Nat) : Nat := s.fld (dieReg d Reg.CAL_CFG) 5 11
def State.cmDrift (s : State) (d : Nat) : Nat := s.fld (dieReg d Reg.CAL_CFG) 16 5
def State.retireEn (s : State) (d : Nat) : Bool := bitOf (s.cfg (dieReg d Reg.CAL_CFG)) 21
def State.exerciseEn (s : State) (d : Nat) : Bool := bitOf (s.cfg (dieReg d Reg.CAL_CFG)) 22
def State.fitWindow (s : State) (d : Nat) : Nat := 2 ^ s.fld (dieReg d Reg.CAL_FIT_CFG) 0 4
def State.residBound (s : State) (d : Nat) : D64 := D64.ofDyadic (s.fld (dieReg d Reg.CAL_FIT_CFG) 4 8) (-4)
def State.devBound (s : State) (d : Nat) : D64 := D64.ofDyadic (s.fld (dieReg d Reg.CAL_FIT_CFG) 12 8) (-4)
def State.retireRounds (s : State) (d : Nat) : Nat := s.fld (dieReg d Reg.CAL_FIT_CFG) 20 3
def State.devConfirm (s : State) (d : Nat) : Nat := s.fld (dieReg d Reg.SE_CFG) 0 3
def State.refConfirm (s : State) (d : Nat) : Nat := s.fld (dieReg d Reg.SE_CFG) 3 4

/-- R143: the array temperature of a die, in 1/16 °C; the forced reading while its channel is broken (R447). -/
def State.dieTemp (s : State) (d : Nat) : Int :=
  let c := Tab.get s.hk.chans (72 + d)
  if c.broken ≠ 0 then 0x6E0 else c.reading

/-! ### Temperature points (R142 to R144) -/

/-- P0 to P4 in 1/16 °C. -/
def calPoints : List Int := [480, 800, 1120, 1440, 1680]

/-- The bracketing point below `t` and the weight of the one above it; the ends hold beyond them. -/
def calBracket (t : Int) : Nat × D64 :=
  if t ≤ 480 then (0, {})
  else if 1680 ≤ t then (4, {})
  else
    let a := if t < 800 then 0 else if t < 1120 then 1 else if t < 1440 then 2 else 3
    let p := calPoints.getD a 0
    (a, D64.div (D64.ofInt (t - p)) (D64.ofInt (calPoints.getD (a + 1) 0 - p)))

/-- A coefficient in its codes at a temperature. -/
def calAt (vs : List Int) (t : Int) : D64 :=
  let (a, w) := calBracket t
  let va := D64.ofInt (vs.getD a 0)
  if w = {} then va else D64.add va (D64.mul w (D64.ofInt (vs.getD (a + 1) 0 - vs.getD a 0)))

/-- The coefficient after a measured code at a temperature (R144). -/
def calLearn (vs : List Int) (t : Int) (code : Int) : List Int :=
  let (a, w) := calBracket t
  let v5 := (List.range 5).map (fun i => vs.getD i 0)
  let δ := D64.sub (D64.ofInt code) (calAt vs t)
  if w = {} then v5.set a (v5.getD a 0 + D64.round δ)
  else
    let u := D64.sub (D64.ofInt 1) w
    let q := D64.add (D64.mul u u) (D64.mul w w)
    (v5.set a (v5.getD a 0 + D64.round (D64.div (D64.mul δ u) q))).set (a + 1) (v5.getD (a + 1) 0 + D64.round (D64.div (D64.mul δ w) q))

/-- `1 + code × 2^-15` for a gain code. -/
def gainOf (c : D64) : D64 := D64.add (D64.ofInt 1) (D64.mul c (D64.ofDyadic 1 (-15)))
/-- An offset code in LSB. -/
def ofsOf (c : D64) : D64 := D64.mul c (D64.ofDyadic 1 (-8))

/-! ### Trims (Table 5-1) -/

def tapOfs (code : Nat) : D64 := D64.ofDyadic ([-3, -1, 1, 3].getD code 0) (-2)
def biasGain (code : Nat) : D64 := D64.ofRat (10000 + 25 * ((code : Int) - 32)) 10000 0
def ladderOfs (code : Nat) : D64 := D64.ofDyadic ((code : Int) - 16) (-3)
def capGain (e l sel : Nat) : D64 := D64.ofDyadic (Config.capFactor e l sel).1 (Config.capFactor e l sel).2

/-- The better of two choices: the nearer one, the first (lower) on a tie (R140). -/
def nearer (target : D64) (best : Option (D64 × Nat)) (v : D64) (code : Nat) : Option (D64 × Nat) :=
  let x := D64.abs (D64.sub v target)
  match best with
  | none => some (x, code)
  | some b => if D64.lt x b.1 then some (x, code) else some b

/-- The lowest code below `n` whose value is nearest to a target. -/
def nearestCode (n : Nat) (f : Nat → D64) (target : D64) : Nat :=
  (((List.range n).foldl (fun b c => nearer target b (f c) c) none).map (·.2)).getD 0

/-- R140: over the selections of `ones` of the capacitors below `bits`, in ascending value with `acc` above them, the nearest. -/
def capSearch (f : Nat → D64) (target : D64) : Nat → Nat → Nat → Option (D64 × Nat) → Option (D64 × Nat)
  | 0, ones, acc, b => if ones = 0 then nearer target b (f acc) acc else b
  | k + 1, ones, acc, b =>
    let b1 := if ones ≤ k then capSearch f target k ones acc b else b
    if ones = 0 then b1 else capSearch f target k (ones - 1) (acc + 2 ^ k) b1

/-- The CAP_SEL, 32 of 40 set, nearest to a target gain. -/
def nearestCap (e l : Nat) (target : D64) : Nat :=
  ((capSearch (capGain e l) target 40 32 0 none).map (·.2)).getD 0xFFFFFFFF

/-! ### Predictions (R134) -/

def Bank.lane (y : Bank) (l : Nat) : LaneCal := Tab.get y.lanes l
def Bank.setLane (y : Bank) (l : Nat) (x : LaneCal) : Bank := { y with lanes := Tab.set y.lanes l x }

/-- The half that supplied the majority of a lane's samples (R136). -/
def LaneCal.half (x : LaneCal) : Nat :=
  let n0 := x.cur0.n + (x.rounds.map (·.h0.n)).foldl (· + ·) 0
  let n1 := x.cur1.n + (x.rounds.map (·.h1.n)).foldl (· + ·) 0
  if n0 < n1 then 1 else 0

/-- g_p and o_p of a lane at a temperature, from the live trims and the coefficient sets; `h` is the half of the part. -/
def Bank.predict (y : Bank) (e l h : Nat) (t : Int) : D64 × D64 :=
  let x := y.lane l
  let c := y.common
  let g := D64.mul (gainOf (calAt x.gain t)) (capGain e l x.cap)
  let r := D64.mul (gainOf (calAt (if h = 0 then c.row0 else c.row1) t)) (biasGain (if h = 0 then c.bias0 else c.bias1))
  (D64.mul g r, D64.add (D64.add (ofsOf (calAt x.ofs t)) (tapOfs x.tap)) (D64.add (ofsOf (calAt c.cofs t)) (ladderOfs c.ladder)))

/-! ### Run triggers (R146) -/

abbrev calTEMP : Nat := 1
abbrev calINTERVAL : Nat := 2
abbrev calDRIFT : Nat := 4
abbrev calFLIP : Nat := 8
abbrev calREQUEST : Nat := 16
abbrev calSUBST : Nat := 32
abbrev calBRINGUP : Nat := 64

def State.dieCal (s : State) (d : Nat) : DieCal := Tab.get s.cal d
def State.setCal (s : State) (d : Nat) (x : DieCal) : State := { s with cal := Tab.set s.cal d x }

/-- A trigger is held for the next check of a fitted die. -/
def State.calTrigger (s : State) (d mask : Nat) : State :=
  if s.fits d then s.setCal d { s.dieCal d with pending := (s.dieCal d).pending ||| mask } else s

/-! ### Retirement (R155 to R158, R411) -/

def State.ashEngine (s : State) (e b kind cause layer index : Nat) (all : Bool) : State :=
  let q := engCore e
  s.ashAdd { kind := kind, cause := cause, die := coreDie q, position := (s.posOf (coreDie q) (coreCluster q)).getD 8, core := coreIndex q
             engine := e % 4, bank := b, layer := layer, allLayers := all, index := index }

/-- A change enters the staged copy of a column map (R93). -/
def Bank.stage (y : Bank) (c : ColChange) : Bank := { y with staged := y.staged ++ [c] }

/-- A layer column is retired: COVERED at the next boundary and then towards a spare; with RETIRE_EN at 0 the finding alone is reported, NOT_APPLIED (R155, R158). -/
def State.retireColumn (s : State) (e b layer lane cause : Nat) (resid : D64) : State :=
  let d := engDie e
  let y := s.bank e b
  if (y.col layer lane).exact ∨ y.staged.any (fun c => c.layer == layer && c.lane == lane) then s
  else
    let args := [e, b, layer, lane, (D64.round (D64.mul resid (D64.ofInt 256))).toNat, b2n (!s.retireEn d)]
    let s1 := s.raise .COLUMN_RETIRED (Src.ofCore (engCore e)) args
    if s.retireEn d then
      ((s1.setBank e b (y.stage { layer := layer, lane := lane, col := { st := .covered }, final := false })).bump
        (dieReg d Reg.CAL_RETIRE_TOTAL) 1).ashEngine e b 1 cause layer lane false
    else s1

/-- A lane path is retired in every layer (R156). -/
def State.retireLane (s : State) (e b lane cause : Nat) : State :=
  let d := engDie e
  let y := s.bank e b
  if (y.lane lane).retired then s
  else
    let s1 := s.raise .LANE_RETIRED (Src.ofCore (engCore e)) [e, b, lane, cause, b2n (!s.retireEn d)]
    if s.retireEn d then
      let y1 := (List.range 64).foldl (fun y l => y.stage { layer := l, lane := lane, col := { st := .covered } }) y
      ((s1.setBank e b (y1.setLane lane { y.lane lane with retired := true })).bump (dieReg d Reg.CAL_RETIRE_TOTAL) 1).ashEngine e b 2 cause 0 lane true
    else s1

/-- R157: a reference lane is disabled; too few left leave the engine's common-mode values to its data lanes. -/
def State.disableRef (s : State) (e b j cause : Nat) : State :=
  let d := engDie e
  let y := s.bank e b
  if y.refOff.contains j then s
  else
    let s1 := s.raise .REF_DISABLED (Src.ofCore (engCore e)) [e, b, 512 + j, cause, b2n (!s.retireEn d)]
    if s.retireEn d then
      let off := j :: y.refOff
      let bad := (off.contains 0 && off.contains 8) || decide (8 < off.length)
      let y1 := { y.setLane (512 + j) { y.lane (512 + j) with retired := true } with refOff := off, common := { y.common with degraded := y.common.degraded || bad } }
      let s2 := ((s1.setBank e b y1).bump (dieReg d Reg.CAL_RETIRE_TOTAL) 1).ashEngine e b 4 cause 0 (512 + j) false
      if bad && !y.common.degraded then s2.raise .CAL_REF_DEGRADED (Src.ofCore (engCore e)) [e, b] else s2
    else s1

/-- The column windows of a lane whose residuals have exceeded the bound in RETIRE_ROUNDS windows (R155). -/
def State.checkWindows (s : State) (e b lane : Nat) : State :=
  (List.range 64).foldl (fun s l =>
    let w := Tab.get (s.bank e b).windows (colKey l lane)
    if w.past ≠ 0 ∧ s.retireRounds (engDie e) ≤ w.past then s.retireColumn e b l lane 1 w.last else s) s

/-! ### Samples (R130 to R134, R409 to R412) -/

/-- One sample added to sums. -/
def Sums.add (a : Sums) (x c : Int) : Sums :=
  if a.n = 0 then { n := 1, sx := x, sc := c, sxx := x * x, sxc := x * c, scc := c * c, xlo := x, xhi := x, clo := c, chi := c }
  else { n := a.n + 1, sx := a.sx + x, sc := a.sc + c, sxx := a.sxx + x * x, sxc := a.sxc + x * c, scc := a.scc + c * c
         xlo := min a.xlo x, xhi := max a.xhi x, clo := min a.clo c, chi := max a.chi c }

/-- Sums of two halves or of two rounds. -/
def Sums.join (a b : Sums) : Sums :=
  if a.n = 0 then b else if b.n = 0 then a
  else { n := a.n + b.n, sx := a.sx + b.sx, sc := a.sc + b.sc, sxx := a.sxx + b.sxx, sxc := a.sxc + b.sxc, scc := a.scc + b.scc
         xlo := min a.xlo b.xlo, xhi := max a.xhi b.xhi, clo := min a.clo b.clo, chi := max a.chi b.chi }

/-- R133, but for the state of the column. -/
def accepted (x c : Int) : Bool := !isClip c && decide (x.natAbs ≤ 120)

def LaneCal.sample (z : LaneCal) (h : Nat) (x c : Int) : LaneCal :=
  if h = 0 then { z with cur0 := z.cur0.add x c } else { z with cur1 := z.cur1.add x c }

/-- The half of a conversion: rows 0 to 511 or 512 to 1,023. -/
def Conv.half (c : Conv) : Nat := if c.part.first < 4 then 0 else 1

/-- Difference c − p, and whether it exceeds DEV_BOUND. -/
def deviation (g : D64 × D64) (x c : Int) (bound : D64) : D64 × Bool :=
  let v := D64.sub (D64.ofInt c) (D64.add (D64.mul g.1 (D64.ofInt x)) g.2)
  (v, D64.lt bound (D64.abs v))

/-- The reference samples of one conversion (R130), and the reference fault it may confirm (R412). -/
def State.refSamples (s : State) (e b layer : Nat) (c : Conv) : State :=
  let d := engDie e
  let y := s.bank e b
  let on := (List.range 16).filter (fun j => !y.refOff.contains j)
  let pts := on.map (fun j => (j, nominal c.rows (refWeight j), c.ref y layer j))
  let y1 := pts.foldl (fun y (j, x, v) =>
    if accepted x v && y.injected layer (512 + j) == 0 then y.setLane (512 + j) ((y.lane (512 + j)).sample c.half x v) else y) y
  let dev := pts.map (fun (j, x, v) => deviation (y.predict e (512 + j) c.half (s.dieTemp d)) x v (s.devBound d))
  let up := (dev.filter (fun v => v.2 && D64.lt {} v.1)).length
  let down := (dev.filter (fun v => v.2 && D64.lt v.1 {})).length
  let s1 := s.setBank e b y1
  if s.refConfirm d ≤ up ∨ s.refConfirm d ≤ down then
    let x := s1.engine e
    let inj := on.any (fun j => y.injected layer (512 + j) != 0)
    let s2 := ((s1.setEngine e { x with refHold := true }).raise .REF_FAULT_DETECTED (Src.ofEngine (engCore e)) [e, b2n inj]).bump (dieReg d Reg.SE_REF_DETECT_TOTAL) 1
    (s2.calTrigger d calREQUEST).detect .arithRef (engCore e) (x.prevStep - 1) inj
  else s1

/-- A visit that confirms a deviation (R409, R411): the report, the detection, and the column's retirement, or that of the lane path when another layer of the lane was confirmed in the same window. -/
def State.confirm (s : State) (e b layer lane : Nat) (w : ColWindow) (inj : Bool) : State :=
  let d := engDie e
  let s1 := (s.raise .ARITH_FAULT_DETECTED (Src.ofCore (engCore e))
    [e, b, layer, lane, s.step.num, max w.high w.low, (D64.round (D64.mul w.worst (D64.ofInt 256))).toNat, b2n inj]).bump (dieReg d Reg.SE_ARITH_DETECT_TOTAL) 1
  let twice := (List.range 64).any (fun l => l != layer && decide (w.clean < (Tab.get (s.bank e b).windows (colKey l lane)).confirmed))
  let s2 := if twice then s1.retireLane e b lane 1 else s1.retireColumn e b layer lane 1 w.worst
  s2.detect .arithShadow (engCore e) w.clean inj

/-- One shadow sample of a data lane (R132 to R134, R155, R409). -/
def State.shadowSample (s : State) (e b layer lane : Nat) (c : Conv) (seq : Nat) : State :=
  let d := engDie e
  let y := s.bank e b
  let x := nominal c.rows (y.laneWeight layer lane)
  let v := c.lane y layer lane
  if (y.col layer lane).exact || !accepted x v then s
  else
    let inj := y.injected layer lane != 0
    let (r, far) := deviation (y.predict e lane c.half (s.dieTemp d)) x v (s.devBound d)
    let w := Tab.get y.windows (colKey layer lane)
    let w1 : ColWindow := { w with
      sum := D64.add w.sum (D64.mul r r), n := w.n + 1, visit := w.visit + 1
      high := w.high + (if far && D64.lt {} r then 1 else 0), low := w.low + (if far && D64.lt r {} then 1 else 0)
      worst := if far && D64.lt w.worst (D64.abs r) then D64.abs r else w.worst }
    let hit := !w.raised && (decide (s.devConfirm d ≤ w1.high) || decide (s.devConfirm d ≤ w1.low))
    let w2 := if hit then { w1 with raised := true, confirmed := s.step.num + 1 } else w1
    let y1 := if inj then y else y.setLane lane ((y.lane lane).sample c.half x v)
    let s1 := s.setBank e b { y1 with windows := Tab.set y1.windows (colKey layer lane) w2 }
    let s2 := if far then (s1.raise .SHADOW_DEVIATION (Src.ofEngine (engCore e))
        [e, b, layer, lane, encodeInt 16 x, encodeInt 16 v, encodeInt 32 (D64.round (D64.mul (D64.sub (D64.ofInt v) r) (D64.ofInt 256))), seq, s.step.num]).bump
        (dieReg d Reg.CAL_DEVIATION_TOTAL) 1 else s1
    if hit then s2.confirm e b layer lane w2 inj else s2

/-- The samples of one conversion: its reference lanes, and its shadow set when the D-engine forms it in time; samples it has not formed by the step boundary are dropped and counted (R132). -/
def State.samples (s : State) (e b layer : Nat) (set : List Nat) (shadow : Bool) (c : Conv) (seq : Nat) : State :=
  let s1 := s.refSamples e b layer c
  let lanes := set.filter (fun l => decide (l < (Tab.get (s.bank e b).layers layer).cols))
  if shadow then lanes.foldl (fun s l => s.shadowSample e b layer l c seq) s1
  else
    let y := s1.bank e b
    (s1.setBank e b { y with windows := lanes.foldl (fun w l => Tab.upd w (colKey layer l) (fun x => { x with dropped := true })) y.windows }).bump
      (dieReg (engDie e) Reg.CAL_DROP_TOTAL) lanes.length

/-- The end of a step's visits in one bank (R155, R409): clean visits are noted, and windows of 16 samples close. -/
def State.closeVisits (s : State) (e b : Nat) : State :=
  let d := engDie e
  let y := s.bank e b
  let close (w : ColWindow) : ColWindow :=
    let ok := decide (s.devConfirm d ≤ w.visit) && !w.raised && !w.dropped && w.visit != 0
    let w1 := { w with visit := 0, high := 0, low := 0, worst := {}, raised := false, dropped := false, clean := if ok then s.step.num + 1 else w.clean }
    if w.n < 16 then w1
    else
      let r := D64.sqrt (D64.div w.sum (D64.ofInt w.n))
      { w1 with sum := {}, n := 0, last := r, past := if D64.lt (s.residBound d) r then w.past + 1 else 0 }
  let s1 := s.setBank e b { y with windows := y.windows.foldl (fun t x => Tab.set t x.1 (close x.2)) [] }
  ((s1.bank e b).windows.map (fun x => x.1 % 512)).eraseDups.foldl (fun s lane => s.checkWindows e b lane) s1

/-! ### Fits (R135 to R137, R144) -/

/-- The fit of sums, or none when the spread of x is below 8 LSB. -/
def Sums.fit (a : Sums) : Option Fit :=
  let n : Int := a.n
  let sxx := n * a.sxx - a.sx * a.sx
  if a.n < 3 ∨ sxx < 64 * n * n then none
  else
    let f := D64.ofInt
    let g := D64.div (f (n * a.sxc - a.sx * a.sc)) (f sxx)
    let o := D64.div (D64.sub (f a.sc) (D64.mul g (f a.sx))) (f n)
    let two := f 2
    let t1 := D64.sub (f a.scc) (D64.mul (D64.mul two g) (f a.sxc))
    let t2 := D64.sub t1 (D64.mul (D64.mul two o) (f a.sc))
    let t3 := D64.add t2 (D64.mul (D64.mul g g) (f a.sxx))
    let t4 := D64.add t3 (D64.mul (D64.mul (D64.mul two g) o) (f a.sx))
    let t5 := D64.add t4 (D64.mul (D64.mul (f n) o) o)
    some { g := g, o := o, r := D64.sqrt (D64.div t5 (f (n - 2))) }

def LaneCal.sums (x : LaneCal) (h : Nat) : Sums := x.rounds.foldl (fun a r => a.join (if h = 0 then r.h0 else r.h1)) {}

/-- Mean of values, in order. -/
def meanD (xs : List D64) : D64 := D64.div (xs.foldl D64.add {}) (D64.ofInt xs.length)

/-- Median: the middle value, or the mean of the two middle ones. -/
def medianD (xs : List D64) : D64 :=
  let ys := xs.mergeSort (fun a b => !D64.lt b a)
  let n := ys.length
  if n % 2 = 1 then ys.getD (n / 2) {} else D64.div (D64.add (ys.getD (n / 2 - 1) {}) (ys.getD (n / 2) {})) (D64.ofInt 2)

/-- The common-mode values from the reference lanes, or from the data lanes under R157's fallback (R136, R157). -/
def Bank.commonMode (y : Bank) : CommonCal :=
  let c := y.common
  if c.degraded then
    let fs := (y.lanes.filter (fun x => decide (x.1 < 512) && x.2.fitted)).filterMap (·.2.fit)
    if fs.isEmpty then c else { c with g0 := medianD (fs.map (·.g)), g1 := medianD (fs.map (·.g)), cm := medianD (fs.map (·.o)), known := true }
  else
    let ls := ((List.range 16).filter (fun j => !y.refOff.contains j)).map (fun j => y.lane (512 + j))
    let f0 := ls.filterMap (·.fit0)
    let f1 := ls.filterMap (·.fit1)
    let fo := (ls.filter (·.fitted)).filterMap (·.fit)
    { c with g0 := if f0.isEmpty then c.g0 else meanD (f0.map (·.g)), g1 := if f1.isEmpty then c.g1 else meanD (f1.map (·.g))
             cm := if fo.isEmpty then c.cm else meanD (fo.map (·.o)), known := c.known || !fo.isEmpty }

/-- R137: a G_h has moved by more than CM_DRIFT from what the live shared trims were chosen for. -/
def State.drifted (s : State) (d : Nat) (c : CommonCal) : Bool :=
  let bound := D64.ofRat (s.cmDrift d) 1000 0
  let far (g : D64) (o : Option D64) : Bool := match o with | some v => D64.lt bound (D64.abs (D64.sub g v)) | none => false
  far c.g0 c.chosen0 || far c.g1 c.chosen1

/-- Raw values of a gain and an offset in their codes (Table 5-2). -/
def gainCode (g : D64) : Int := D64.round (D64.mul (D64.sub g (D64.ofInt 1)) (D64.ofInt 32768))
def ofsCode (o : D64) : Int := D64.round (D64.mul o (D64.ofInt 256))

/-- A reference round has closed: the common-mode values, their coefficients, and DRIFT (R136, R137, R142, R144). -/
def State.commonClose (s : State) (e b : Nat) (t : Int) : State :=
  let y := s.bank e b
  let c := y.commonMode
  let c1 : CommonCal := if c.known then
      { c with row0 := calLearn c.row0 t (gainCode (D64.div c.g0 (biasGain c.bias0))), row1 := calLearn c.row1 t (gainCode (D64.div c.g1 (biasGain c.bias1)))
               cofs := calLearn c.cofs t (ofsCode (D64.sub c.cm (ladderOfs c.ladder))) }
    else c
  let s1 := s.setBank e b { y with common := c1 }
  if s.drifted (engDie e) c1 then s1.calTrigger (engDie e) calDRIFT else s1

/-- R141: a lane out of range of gain, and of offset, at a temperature. -/
def LaneCal.outGain (x : LaneCal) (t : Int) : Bool :=
  let g := gainOf (calAt x.gain t)
  D64.lt g (D64.ofRat 975 1000 0) || D64.lt (D64.ofRat 1025 1000 0) g
def LaneCal.outOfs (x : LaneCal) (t : Int) : Bool := D64.lt (D64.ofInt 1) (D64.abs (ofsOf (calAt x.ofs t)))

/-- The findings of R156 at a fitted round, as a cause of R159. -/
def State.laneFinding (s : State) (d : Nat) (x : LaneCal) : Option Nat :=
  let n := s.retireRounds d
  if n ≤ x.excess then some 1 else if n ≤ x.gainOut then some 2 else if n ≤ x.ofsOut then some 3 else none

/-- R156: every sample of a round carried one c over 16 LSB of x. -/
def Sums.stuck (a : Sums) : Bool := a.n != 0 && a.clo == a.chi && decide (16 ≤ a.xhi - a.xlo)

/-- What a finding leads to. -/
def State.laneFound (s : State) (e b l cause : Nat) : State :=
  if l < 512 then s.retireLane e b l cause else s.disableRef e b (l - 512) cause

/-- R135, R136, R144, R155, R156: a lane's round closes: its window is fitted, its coefficients take the measured values, and what the round shows of its lane and its layer columns is acted on. -/
def State.roundClose (s : State) (e b l : Nat) : State :=
  let d := engDie e
  let y := s.bank e b
  let x := y.lane l
  let round : Round := { h0 := x.cur0, h1 := x.cur1, temp := s.dieTemp d }
  let x1 := { x with cur0 := {}, cur1 := {}, rounds := (round :: x.rounds).take 4, lastClose := s.time.tick }
  let fit := ((x1.sums 0).join (x1.sums 1)).fit
  let ts := x1.rounds.map (·.temp)
  let t := ts.foldl (· + ·) 0 / (ts.length : Int)
  let stuck := (round.h0.join round.h1).stuck
  let x2 := { x1 with fitted := fit.isSome, fit := fit, fit0 := (x1.sums 0).fit, fit1 := (x1.sums 1).fit }
  let s1 := s.setBank e b (y.setLane l x2)
  let s2 := if 512 ≤ l ∨ y.common.degraded then s1.commonClose e b t else s1
  let c := (s2.bank e b).common
  let s3 := match fit with
    | none => s2
    | some f =>
      let gh := if x2.half = 0 then c.g0 else c.g1
      let own := if c.known then D64.div f.g gh else f.g
      let oown := if c.known then D64.sub f.o c.cm else f.o
      let x3 := { x2 with
        gain := calLearn x2.gain t (gainCode (D64.div own (capGain e l x2.cap))), ofs := calLearn x2.ofs t (ofsCode (D64.sub oown (tapOfs x2.tap)))
        resid := (D64.round (D64.mul f.r (D64.ofInt 256))).toNat, excess := if D64.lt (s.residBound d) f.r then x2.excess + 1 else 0 }
      let x4 := { x3 with gainOut := if x3.outGain t then x3.gainOut + 1 else 0, ofsOut := if x3.outOfs t then x3.ofsOut + 1 else 0 }
      let s4 := s2.setBank e b ((s2.bank e b).setLane l x4)
      match s.laneFinding d x4 with
      | some cause => s4.laneFound e b l cause
      | none => s4
  let s5 := if stuck then s3.laneFound e b l 4 else s3
  if l < 512 then s5.checkWindows e b l else s5

/-- The round of lane `lane` of an engine's ACTIVE bank holds 2^FIT_WINDOW_LOG2 / 4 samples. -/
def execFitRoundClose (q n lane : Nat) (s : State) : Host.Outcome State Fault Refusal :=
  .next (let e := engineKey q n
    let b := (s.engine e).active
    let x := (s.bank e b).lane lane
    if lane < 528 ∧ s.fitWindow (coreDie q) / 4 ≤ x.cur0.n + x.cur1.n then s.roundClose e b lane else s)

/-! ### Runs (R140, R141, R147 to R150) -/

/-- The engines of a die whose position is ACTIVE or PROGRAMMING and not under reset (Table 5-4, R150); those of a spare that prepares a swap stand under index 8. -/
def State.runEngines (s : State) (d : Nat) : List Nat :=
  if s.dieDown d then [] else ((List.range 9).filter (fun k => match (if k < 8 then s.posOf d k else (List.range 9).find? (fun p => (s.position d p).st == .programming && (s.position d p).logical == 15)) with
    | some p => let x := s.position d p; !x.resetting && (x.st == .active || (x.st == .programming && bitOf (s.dieCal d).causes 5))
    | none => false)).flatMap (fun k => (List.range 32).map (fun j => engineKey (coreKey d k (j / 4)) (j % 4)))

/-- R140: the trims of one bank at a temperature, staged; lanes of the bank's store only hold what differs from a new lane. -/
def Bank.chooseTrims (y : Bank) (e : Nat) (t : Int) : Bank :=
  let c := y.common
  let inv (v : D64) : D64 := D64.div (D64.ofInt 1) v
  let y1 := { y with common := { c with
    bias0Staged := nearestCode 64 biasGain (inv (gainOf (calAt c.row0 t))), bias1Staged := nearestCode 64 biasGain (inv (gainOf (calAt c.row1 t)))
    ladderStaged := nearestCode 32 ladderOfs (D64.neg (ofsOf (calAt c.cofs t))) } }
  (List.range 528).foldl (fun y l =>
    let x := y.lane l
    y.setLane l { x with capStaged := nearestCap e l (inv (gainOf (calAt x.gain t))), tapStaged := nearestCode 4 tapOfs (D64.neg (ofsOf (calAt x.ofs t))) }) y1

/-- R141: a required ROW_BIAS or LADDER_TRIM lies beyond its limits. -/
def Bank.beyond (y : Bank) (t : Int) : Bool :=
  let c := y.common
  let inv (v : D64) : D64 := D64.div (D64.ofInt 1) v
  let out (v : D64) : Bool := D64.lt v (biasGain 0) || D64.lt (biasGain 63) v
  let o := D64.neg (ofsOf (calAt c.cofs t))
  out (inv (gainOf (calAt c.row0 t))) || out (inv (gainOf (calAt c.row1 t))) || D64.lt o (ladderOfs 0) || D64.lt (ladderOfs 31) o

/-- A run starts: COMPUTING, with the temperature and the coefficients of this moment (R147). -/
def State.calStart (s : State) (d causes : Nat) : State :=
  let t := s.dieTemp d
  let c0 := s.dieCal d
  let s0 := s.setCal d { c0 with causes := causes }
  let es := (s0.runEngines d).filter (fun e => (s0.engine e).activeBank.st == .active)
  let s1 := es.foldl (fun s e => let b := (s.engine e).active; s.setBank e b ((s.bank e b).chooseTrims e t)) s0
  let banks := es.map (fun e => (e, (s0.engine e).active))
  s1.setCal d { c0 with run := 2, pending := 0, causes := causes, temp := t, start := s.time.tick, banks := banks
                        beyond := banks.filter (fun x => (s0.bank x.1 x.2).beyond t) }

/-- The run's computation has finished: its tables are STAGED; an engine out of range is reported and its cluster handled as lost (R141, R147). -/
def execCalRunStaged (d : Nat) (s : State) : Host.Outcome State Fault Refusal :=
  .next (let c := s.dieCal d
    if c.run ≠ 2 then s
    else c.beyond.foldl (fun s x => (s.raise .CAL_ENGINE_RANGE (Src.ofCore (engCore x.1)) [x.1, x.2]).loseCluster (engCore x.1 / 8) (some 7))
      (s.setCal d { c with run := 3 }))

/-- Lanes of a bank whose trims the staged tables change; a shared trim changes none of them. -/
def Bank.changedLanes (y : Bank) : List Nat :=
  (y.lanes.filter (fun x => x.2.cap != x.2.capStaged || x.2.tap != x.2.tapStaged)).map (·.1)

/-- The staged trims become live; sums of lanes whose trims changed are cleared (R149). -/
def Bank.commitTrims (y : Bank) : Bank :=
  let c := y.common
  let y1 := { y with common := { c with bias0 := c.bias0Staged, bias1 := c.bias1Staged, ladder := c.ladderStaged
                                        chosen0 := if c.known then some c.g0 else c.chosen0, chosen1 := if c.known then some c.g1 else c.chosen1 } }
  y.changedLanes.foldl (fun y l =>
    let x := y.lane l
    y.setLane l { x with cap := x.capStaged, tap := x.tapStaged, cur0 := {}, cur1 := {}, rounds := [] }) y1

/-- The live trims of a bank change. -/
def Bank.trimsChange (y : Bank) : Bool :=
  let c := y.common
  !y.changedLanes.isEmpty || c.bias0 != c.bias0Staged || c.bias1 != c.bias1Staged || c.ladder != c.ladderStaged

/-- A STAGED run becomes live at a step boundary (R149); the epoch it carries is the one after the boundary's increment. -/
def State.calCommit (s : State) (d epoch : Nat) : State :=
  let c := s.dieCal d
  let live := c.banks.filter (fun x => (s.bank x.1 x.2).trimsChange)
  let n := (live.map (fun x => (s.bank x.1 x.2).changedLanes.length)).foldl (· + ·) 0
  let s1 := live.foldl (fun s x =>
    let e := s.engine x.1
    s.setEngine x.1 { (e.setBank x.2 ((e.bank x.2).commitTrims)) with calCount := min (2 ^ 64 - 1) (e.calCount + 1) }) s
  let s2 := c.banks.foldl (fun s x => s.setEngine x.1 { s.engine x.1 with refHold := false }) s1
  let s3 := s2.setCal d { c with run := 0, last := c.causes, lastTemp := c.temp, lastStart := c.start, runTick := s.time.tick
                                 markTick := s.reg (evReg Reg.TM_LAST_TICK), markHost := s.reg (evReg Reg.TM_LAST_HOST), banks := [], beyond := [] }
  (s3.bump (dieReg d Reg.CAL_RUN_TOTAL) 1).raise .CALIBRATION_APPLIED (Src.ofDie d) [d, epoch, c.causes, encodeInt 16 c.temp, n]

/-- A position in PROGRAMMING whose arrays have verified and whose lanes have all closed four fitted rounds (Table 5-3, R153). -/
def State.exercised (s : State) (d p : Nat) : Bool :=
  let k := (s.position d p).logical
  let c := if k < 8 then k else 8
  (s.position d p).st == .programming && (List.range 32).all (fun j =>
    let y := (s.engine (engineKey (coreKey d c (j / 4)) (j % 4))).activeBank
    y.st == .active && (List.range 528).all (fun l => (y.lane l).retired || ((y.lane l).rounds.length == 4 && (y.lane l).fitted)))

/-- The triggers of Table 5-3 that hold at a boundary; `flip` and requests stand in the pending mask. -/
def State.calCauses (s : State) (d : Nat) : Nat :=
  let c := s.dieCal d
  let temp := if (16 * s.calDt d : Nat) < (s.dieTemp d - c.lastTemp).natAbs then calTEMP else 0
  let int := if c.lastStart + s.calInterval d * 10 ^ 9 ≤ s.time.tick then calINTERVAL else 0
  let sub := if (List.range 9).any (s.exercised d) then calSUBST else 0
  temp ||| int ||| sub ||| c.pending

/-- Held triggers that a commit re-evaluates and drops when they no longer hold (R150). -/
def State.heldCauses (s : State) (d : Nat) : Nat :=
  let c := s.dieCal d
  let held := c.pending
  let keep := held &&& (calFLIP ||| calREQUEST ||| calSUBST ||| calBRINGUP)
  let again := held &&& (calTEMP ||| calINTERVAL) &&& s.calCauses d
  let drift := if bitOf held 2 && (s.runEngines d).any (fun e => s.drifted d (s.engine e).activeBank.common) then calDRIFT else 0
  keep ||| again ||| drift

/-- R146 at a step boundary: the triggers start a run, or are held while one is in progress. -/
def State.calCheck (s : State) (d : Nat) : State :=
  if !s.fits d || (s.agentCluster d).isNone then s
  else
    let c := s.dieCal d
    let m := s.calCauses d
    if m = 0 then s
    else if c.run = 2 ∨ c.run = 3 then s.setCal d { c with pending := m }
    else s.calStart d m

/-- R145: the coefficient sets of a die are written to flash; `ok` says whether the new records verified. -/
def State.calSave (s : State) (d : Nat) (ok : Bool) : State :=
  let c := s.dieCal d
  if ok then
    let mine := s.engines.filter (fun e => engDie e.1 == d)
    let recs := mine.foldl (fun t e => (List.range 2).foldl (fun t b =>
      let y := e.2.bank b
      Tab.set t (2 * e.1 + b) { lanes := y.lanes.foldl (fun z x => Tab.set z x.1 (x.2.gain, x.2.ofs)) [], row0 := y.common.row0, row1 := y.common.row1, cofs := y.common.cofs }) t) c.records
    let stamps := mine.foldl (fun t e => (List.range 2).foldl (fun t b => Tab.set t (2 * e.1 + b) (s.time.tick + 1)) t) c.saved
    s.setCal d { c with records := recs, saved := stamps, saveFailed := false }
  else (s.setCal d { c with saveFailed := true }).raise .CAL_SAVE_FAILED (Src.ofDie d) [d]

def execCalSave (d : Nat) (ok : Bool) (s : State) : Host.Outcome State Fault Refusal :=
  .next (if s.fits d then s.calSave d ok else s)

/-- CAL_REQUEST[0] written 1 (R146); a block of an absent die ignores writes (R4). -/
def execCalRequest (d v : Nat) (s : State) : Host.Outcome State Fault Refusal :=
  .next (if bitOf v 0 then s.calTrigger d calREQUEST else s)

/-- MAINT CAL_REQUEST: the trigger on each named fitted die (R146, Table 9-8). -/
def execMaintCalRequest (h : Hdr) (mask : Nat) (s : State) : Host.Outcome State Fault Refusal :=
  .next (s.descriptor h clsMaint fun s d =>
    ((List.range 8).foldl (fun s i => if bitOf mask i then s.calTrigger i calREQUEST else s) s).finish d .OK 0 0)

/-- MAINT ASH_LIST (R159, Table 9-8). -/
def execAshList (h : Hdr) (first count buffer : Nat) (s : State) : Host.Outcome State Fault Refusal :=
  .next (s.descriptor h clsMaint fun s d =>
    let es := (s.ash.entries.drop first).take count
    (s.hostPut buffer (leBytes 4 s.ash.entries.length ++ leBytes 4 s.ash.lost ++ leBytes 24 0 ++ es.flatMap AshEntry.bytes)).finish d .OK 0 0)

/-! ### Column maps and spares at a step boundary (R93, R94) -/

/-- A spare of the lane's group that no column takes and that has not failed (R70). -/
def Bank.freeSpare (y : Bank) (layer lane : Nat) : Option Nat :=
  ((List.range 8).map (8 * (lane / 128) + ·)).find? (fun k => let z := Tab.get y.spares (spareKey layer k); !z.used && !z.failed)

/-- The column passes towards a spare, or stays COVERED with SPARES_EXHAUSTED (R94). -/
def State.seekSpare (s : State) (e b layer lane : Nat) : State :=
  let y := s.bank e b
  match y.freeSpare layer lane with
  | some k => s.setBank e b { y.stage { layer := layer, lane := lane, col := { st := .sparing, spare := k } } with
      spares := Tab.upd y.spares (spareKey layer k) (fun z => { z with used := true })
      work := y.work ++ [{ layer := layer, lane := lane, spare := k }] }
  | none => s.raise .SPARES_EXHAUSTED (Src.ofEngine (engCore e)) [e, b, layer, lane]

/-- One staged change becomes live: the map version increments; a MAPPED column that leaves its spare leaves it failed. -/
def State.mapChange (s : State) (e b : Nat) (c : ColChange) : State :=
  let y := s.bank e b
  let o := y.col c.layer c.lane
  let spares := if o.st = .mapped ∧ c.col.st = .covered then Tab.upd y.spares (spareKey c.layer o.spare) (fun z => { z with failed := true }) else y.spares
  let s1 := s.setBank e b { y with cols := Tab.set y.cols (colKey c.layer c.lane) c.col, spares := spares, version := y.version + 1 }
  if c.final then s1 else s1.seekSpare e b c.layer c.lane

/-- R93: the staged changes of one bank become live. -/
def State.mapBoundary (s : State) (e b : Nat) : State :=
  let y := s.bank e b
  y.staged.foldl (fun s c => s.mapChange e b c) (s.setBank e b { y with staged := [] })

/-- The codes of a data column: its code lines, block by block (R40). -/
def Layer.column (z : Layer) (lane : Nat) : List Byte :=
  (List.range z.nblocks).flatMap (fun b => (List.range 32).map (fun j => z.codes.getD (32 * (b * z.cols + lane) + j) 0#8))

/-- R91, R94: the spare at the head of a bank's program work verifies, or fails and the next free spare is tried; a pulse that is cut off waits. -/
def execSpareProgramDone (q n b : Nat) (ok : Bool) (s : State) : Host.Outcome State Fault Refusal :=
  .next (let e := engineKey q n
    let y := s.bank e b
    match y.work with
    | [] => s
    | w :: r =>
      let cut := b == (s.engine e).active && (s.engine e).sel == some (b, w.layer)
      if cut then s
      else
        let key := spareKey w.layer w.spare
        if ok then s.setBank e b { y.stage { layer := w.layer, lane := w.lane, col := { st := .mapped, spare := w.spare } } with
            spares := Tab.set y.spares key { used := true, failed := false, codes := (Tab.get y.layers w.layer).column w.lane }, work := r }
        else
          let s1 := (s.setBank e b { y with spares := Tab.set y.spares key { used := true, failed := true }, work := r }).ashEngine e b 3 5 w.layer w.spare false
          let s2 := s1.setBank e b ((s1.bank e b).stage { layer := w.layer, lane := w.lane, col := { st := .covered } })
          s2.seekSpare e b w.layer w.lane)

/-! ### ARRAY_CAL (R151) -/

/-- The A4 block that the LFSR of an op drives; its blocks share one exponent (log 39). -/
def calBlock (seed b : Nat) : VBlock :=
  { e8 := 127, codes := (List.range 128).map (fun j => ((Config.calCode seed (128 * b + j) % 15 : Nat) : Int) - 7), marks := [] }

/-- The ARRAY_CAL packet that a core's sequencer takes: the oldest of highest priority of that kind (R151, R301). -/
def State.calPacket (s : State) (q : Nat) : Option Packet :=
  bestPacket (coreIndex q) (fun p => tagKind p.tag == 2) (s.queue (q / 8)).pkts

/-- One op: at most eight conversions, their samples and records, and the advance of the exercise pointer. -/
def State.arrayCal (s : State) (q n layer seed area : Nat) : State :=
  let e := engineKey q n
  let b := (s.engine e).active
  let s1 := s.selectLayer e layer
  let y := s1.bank e b
  let z := Tab.get y.layers layer
  if z.format = 0 then s1
  else
    let d := coreDie q
    let v := (List.range z.nblocks).map (calBlock seed)
    let cs := convsOf v ((planOp z v 0 (s1.rowBudget d) (s1.mergeEn d)).take 8) s1.fresh
    let set := shadowSet layer (Tab.get y.exercise layer)
    let s2 := { s1 with fresh := s1.fresh + 528 * cs.length }
    let s3 := s2.setBank e b { y with exercise := Tab.upd y.exercise layer (fun k => (k + 1) % 64) }
    let s4 := s3.countConv e cs.length ((cs.map (fun c => c.dataClips y layer)).foldl (· + ·) 0) ((cs.map (fun c => c.refClips y layer)).foldl (· + ·) 0)
    let s5 := cs.zipIdx.foldl (fun s c => s.samples e b layer set true c.1 c.2) s4
    (s5.write (Src.ofEngine q) {} area (cs.zipIdx.flatMap (fun c => c.1.record y layer v (s1.shrinkEn d) c.2 set))).st

/-- It runs when its packet is at the core and no other op for the engine waits. -/
def execArrayCalOp (q n layer seed area : Nat) (s : State) : Host.Outcome State Fault Refusal :=
  .next (match s.calPacket q with
    | none => s
    | some p =>
      if (s.seq q).ops.any (fun o => o.unit == .eng n) then s
      else
        let x := s.queue (q / 8)
        (s.setQueue (q / 8) { x with pkts := x.pkts.erase p }).arrayCal q n layer seed area)

end Sys2Proof.Machine
end

