-- ==== Sys2Proof/Machine/Encode.lean ====
section
/-! DEFINITION. Encoding an FP32 vector (R43 to R48, R99 to R101), its payloads in memory (R62, R63; log 32), and the digital copy of a cord (R387, R393, R394). -/

namespace Sys2Proof.Machine

/-! ### Outliers (R100) -/

/-- Magnitude of a binary32 word as an ordered number. -/
def magOf (u : F32) : Nat := u.toNat % 0x80000000

/-- The candidates of a block: indices of elements above the limit, in descending magnitude, the lower index first. -/
def candidates (limit : F32) (us : List F32) : List Nat :=
  ((us.zipIdx.filter (fun x => decide (magOf limit < magOf x.1))).mergeSort (fun a b => decide (magOf b.1 ≤ magOf a.1))).map (·.2)

/-- The outliers of the blocks in ascending order: per block the elements chosen, its candidates and whether it is overflowed; `used` are those already accepted in the vector. -/
def chooseOutliers (limit : F32) (bmax vmax : Nat) : Nat → List (List F32) → List (List Bool × Nat × Bool)
  | _, [] => []
  | used, us :: r =>
    let c := candidates limit us
    let take := c.take (min bmax (vmax - used))
    ((List.range us.length).map (fun j => take.contains j), c.length, decide (take.length < c.length))
      :: chooseOutliers limit bmax vmax (used + take.length) r

/-! ### Vectors (R43, R101) -/

/-- The elements of a vector in blocks of 128, zeros beyond its end. -/
def blocksOf : Nat → List F32 → List (List F32)
  | 0, _ => []
  | n + 1, us => (us.take 128 ++ List.replicate (128 - (us.take 128).length) 0#32) :: blocksOf n (us.drop 128)

/-- What the encode of one vector gives. -/
structure EncVec where
  rung : Nat := 0
  blocks : List EncBlock := []
  past : List Bool := []
  cands : Nat := 0
  deriving DecidableEq, Repr, Inhabited

/-- R43, R100: a vector of scaled elements at a rung, with that rung's outlier limit. -/
def encodeVec (rung : Nat) (limit : F32) (bmax : Nat) (us : List F32) : EncVec :=
  let bs := blocksOf ((us.length + 127) / 128) us
  let os := if rung < 2 then chooseOutliers limit bmax (us.length / 32) 0 bs else bs.map (fun b => (b.map (fun _ => false), 0, false))
  { rung := rung, blocks := (bs.zip os).map (fun x => encodeBlock (rungMax rung) x.1 x.2.1), past := os.map (·.2.2)
    cands := (os.map (·.2.1)).foldl (· + ·) 0 }

/-- The encode met a range trouble event (R43, R48). -/
def EncVec.range (v : EncVec) : Bool := v.blocks.any (·.range)

/-- The side list (R47). -/
def EncVec.side (v : EncVec) : List SideEntry := v.blocks.zipIdx.flatMap (fun b => b.1.side.map (fun x => (b.2, x.1, x.2)))

/-- Outliers accepted. -/
def EncVec.outliers (v : EncVec) : Nat := (v.blocks.map (fun b => (b.marks.filter id).length)).foldl (· + ·) 0

/-- The vector as an engine reads it. -/
def EncVec.vec (v : EncVec) : Vec :=
  { rung := v.rung, blocks := v.blocks.map (fun b => { e8 := b.e8, codes := b.codes, marks := b.marks }), side := v.side, past := v.past }

/-- The u[j] of R43: elements by the inverse of their tensor's scale. -/
def scaled (sa : F32) (xs : List F32) : List F32 := xs.map (fun x => F32.mul x (F32.div 0x3F800000#32 sa))

/-- Table 4-1. -/
def EncVec.status (v : EncVec) : List Byte :=
  leBytes 32 ((v.past.zipIdx.filter (·.1)).foldl (fun a x => a + 2 ^ x.2) 0) ++ leBytes 2 v.outliers ++ leBytes 2 v.cands ++ leBytes 1 v.rung
    ++ leBytes 1 (if v.range then 1 else 0) ++ leBytes 26 0

/-- Codes of one block packed (R45), with the marker in an outlier's place (R42). -/
def packBlock (rung : Nat) (b : EncBlock) : List Byte :=
  let w := codeBits rung
  let cs := (b.codes.zip b.marks).map (fun x => if x.2 then 2 ^ (w - 1) else encodeInt w x.1)
  if rung = 0 then packNibbles cs else cs.flatMap (leBytes (w / 8))
where
  packNibbles : List Nat → List Byte
    | a :: b :: r => BitVec.ofNat 8 (a + 16 * b) :: packNibbles r
    | _ => []

/-- The payloads of one block, whose first side-list entry is number `ofs` (R62, R63). -/
def blockPayloads (rung i ofs : Nat) (b : EncBlock) : List Byte :=
  let bs := packBlock rung b
  let n := (b.marks.filter id).length
  (List.range (rungParts rung)).flatMap (fun k =>
    (bs.drop (64 * k)).take 64 ++ leBytes 1 b.e8 ++ leBytes 1 n ++ leBytes 2 i ++ leBytes 2 (if n = 0 then 0 else ofs) ++ leBytes 1 k ++ leBytes 1 (rungType rung))

/-- A SIDE_LIST payload of up to 16 entries from number `f` (R62, R63). -/
def sidePayload (f : Nat) (es : List SideEntry) : List Byte :=
  let ds := es.flatMap (fun x => leBytes 4 (encodeInt 16 x.2.2 + x.2.1 * 2 ^ 16))
  ds ++ leBytes (64 - ds.length) 0 ++ leBytes 4 f ++ leBytes 1 es.length ++ leBytes 2 0 ++ leBytes 1 3

/-- The side list in payloads. -/
def sidePayloads : Nat → Nat → List SideEntry → List Byte
  | 0, _, _ => []
  | n + 1, f, es => if es.isEmpty then [] else sidePayload f (es.take 16) ++ sidePayloads n (f + 16) (es.drop 16)

/-- A vector's payloads: those of its blocks, then those of its side list (log 32). -/
def EncVec.payloads (v : EncVec) : List Byte :=
  let ofs := v.blocks.foldl (fun (a : List Nat × Nat) b => (a.1 ++ [a.2], a.2 + (b.marks.filter id).length)) (([], 0) : List Nat × Nat)
  (v.blocks.zipIdx.flatMap (fun b => blockPayloads v.rung b.2 (ofs.1.getD b.2 0) b.1)) ++ sidePayloads v.side.length 0 v.side

/-- Bytes of a vector of `n` blocks with `k` outliers in payloads. -/
def payloadBytes (rung n k : Nat) : Nat := 72 * (n * rungParts rung + (k + 15) / 16)

/-- Binary32 words of a run of bytes (R11). -/
def f32s (n : Nat) (bs : List Byte) : List F32 := (chunkNats 4 n bs).map (BitVec.ofNat 32)

/-- The first element of a vector that is infinite or NaN (R44). -/
def nonfinite (xs : List F32) : Option Nat := xs.findIdx? (fun x => !x.isFinite)

/-! ### The digital copy (R387, R393, R394) -/

def State.slot (s : State) (i : Nat) : Slot := Tab.get s.slots i
def State.setSlot (s : State) (i : Nat) (x : Slot) : State := { s with slots := Tab.set s.slots i x }

/-- CORD_OFS and CORD_SIZE of an M-die (Table 13-10). -/
def State.cordOfs (s : State) (m : Nat) : Nat := s.fld (memReg m Reg.CORD_AREA) 0 36

/-- R393: the module-local address of byte `o` of the copy of die `d`'s records. -/
def State.copyAddr (s : State) (x : Slot) (d o : Nat) : Nat :=
  let u := x.unit.getD d 0 + o / 4096
  (2 * (d / 2) + u % 2) * stackSize + s.cordOfs (d / 2) + u / 2 * 4096 + o % 4096

/-- The pieces of `n` bytes of a copy. -/
def State.copyPieces (s : State) (x : Slot) (d o n : Nat) : List Piece := (piecesOf o n).map (fun p => (s.copyAddr x d p.1, p.2))

/-- R394: the slot whose copy work on a bank reads: that of the cord ACTIVE there. -/
def State.copySlot (s : State) (e b : Nat) : Option Nat :=
  (List.range 8).find? (fun i => let x := s.slot i; (x.st == .active || (x.st == .restoring && x.prior == .active)) && x.targets.contains (e, b))

def tileKey (e l : Nat) : Nat := 64 * e + l

/-- A read of part of a copy gives its bytes; a failed check marks the shard DAMAGED (Table 14-2). -/
def State.readCopy (s : State) (q i : Nat) (d o n : Nat) (shard : Nat) : Rd :=
  let x := s.slot i
  let r := s.readPieces (Reader.ofCore q) (s.copyPieces x d o n)
  if r.code = .OK ∨ x.damaged.contains shard then r else { r with st := r.st.setSlot i { r.st.slot i with damaged := shard :: (r.st.slot i).damaged } }

/-- A tile as exact work reads it: its header, code lines and exponents; the lines of blocks that were not read are empty. -/
structure CopyTile where
  format : Nat := 0
  blocks : Nat := 0
  cols : Nat := 0
  tag : Nat := 0
  codes : List (List Byte) := []   -- code lines by block
  exps : List (List Byte) := []    -- exponents by block
  deriving DecidableEq, Repr, Inhabited

/-- The integer weight of column `c` at element `j` of block `b`. -/
def CopyTile.weight (t : CopyTile) (b c j : Nat) : Int := weightVal (t.format == 2) (codeAt (t.codes.getD b []) c j)
def CopyTile.expo (t : CopyTile) (b c : Nat) : Nat := ((t.exps.getD b []).getD c 0#8).toNat

/-- What reading a tile gives. -/
structure CopyRd where
  st : State
  tile : CopyTile := {}
  code : Code := .OK
  addr : Nat := 0

/-- Reads the code lines of the blocks named, and their exponents when `exps`; the first failed check ends it. -/
def State.readLines (s : State) (q i : Nat) (d : Nat) (t : TileRec) (exps : Bool) : List Nat → CopyRd → CopyRd
  | [], x => x
  | b :: r, x =>
    if x.code ≠ .OK then x
    else
      let n := t.cols
      let o := t.ofs + 64 + 32 * b * n
      let r1 := x.st.readCopy q i d o (32 * n) t.shard
      let o2 := t.ofs + 64 + 32 * n * (t.blocks + 1) + b * n
      let r2 := if exps && r1.code == .OK then r1.st.readCopy q i d o2 n t.shard else { r1 with bytes := [] }
      State.readLines s q i d t exps r { st := r2.st, code := r2.code, addr := r2.addr
                                         tile := { x.tile with codes := x.tile.codes.set b r1.bytes, exps := x.tile.exps.set b r2.bytes } }

/-- The tile of a layer of an engine's ACTIVE bank, with the lines of the blocks named. A bank that no slot's copy covers reads the cells' own codes. -/
def State.readTile (s : State) (q e l : Nat) (bs : List Nat) (exps : Bool) : CopyRd :=
  let b := (s.engine e).active
  let z := s.layer e l
  let own : CopyRd := { st := s, tile := { format := z.format, blocks := z.blocks, cols := z.cols, tag := z.tag
                                           codes := (List.range z.nblocks).map (fun b => (z.codes.drop (32 * b * z.cols)).take (32 * z.cols))
                                           exps := (List.range z.nblocks).map (fun b => (z.exps.drop (b * z.cols)).take z.cols) } }
  match s.copySlot e b with
  | none => own
  | some i =>
    let t := Tab.get (s.slot i).dir (tileKey e l)
    if !t.valid then own
    else s.readLines q i (engDie e) t exps bs { st := s, tile := { format := t.format, blocks := t.blocks, cols := t.cols, tag := t.tag
                                                                   codes := List.replicate (t.blocks + 1) [], exps := List.replicate (t.blocks + 1) [] } }

/-- The header of the tile that exact work on a layer uses: FORMAT, ROW_BLOCKS, COLS and TILE_TAG. -/
def State.tileHead (s : State) (e l : Nat) : Nat × Nat × Nat × Nat :=
  let z := s.layer e l
  match s.copySlot e (s.engine e).active with
  | none => (z.format, z.blocks, z.cols, z.tag)
  | some i =>
    let t := Tab.get (s.slot i).dir (tileKey e l)
    if t.valid then (t.format, t.blocks, t.cols, t.tag) else (z.format, z.blocks, z.cols, z.tag)

end Sys2Proof.Machine
end

