-- ==== Sys2Proof/Machine/Pass.lean ====
section
/-! DEFINITION. Passes: rungs and runs of layers, the ops of a pass on an A-engine or a D-engine, trouble, repeats and verdict records (chapters 3 and 4, R310). -/

namespace Sys2Proof.Machine

/-! ### Policy and rungs (R120, R121, R124) -/

def layerKey (image layer : Nat) : Nat := 4096 * image + layer

/-- The live policy entry of a layer. -/
def State.policy (s : State) (image layer : Nat) : Nat := Tab.get s.live.policy (layerKey image layer)

/-- SCOPE of a policy entry: LAYER. -/
def layerScope (p : Nat) : Bool := bitOf p 2

/-- The layer of a loaded image. -/
def State.imageLayer (s : State) (image layer : Nat) : ImageLayer :=
  match s.image image with
  | some g => (g.layers.find? (·.num == layer)).getD { num := layer }
  | none => { num := layer }

/-- The reference rung of a layer run, when it is one (R124). -/
def State.refRung (s : State) (image layer seq : Nat) : Option Nat :=
  let p := s.policy image layer
  let r := s.req seq
  let xs := (if bitOf p 4 then [2 + bitsOf p 5 1] else []) ++ (if r.ref then [2 + r.refRung % 2] else [])
    ++ (match s.image image with | some g => (match g.reference with | some x => [2 + x % 2] | none => []) | none => [])
  xs.foldl (fun a x => some (max (a.getD 0) x)) none

/-- The rung of a layer that is not run in reference mode. -/
def State.baseRung (s : State) (image layer : Nat) : Nat :=
  max (bitsOf (s.policy image layer) 0 2) ((Tab.get s.stats (layerKey image layer)).pin.getD 0)

/-- R121. -/
def State.effectiveRung (s : State) (image layer seq : Nat) : Nat := (s.refRung image layer seq).getD (s.baseRung image layer)

/-! ### Layer runs -/

def LayerRun.is (r : LayerRun) (image layer seq : Nat) : Bool := r.image == image && r.layer == layer && r.seq == seq

def State.run? (s : State) (image layer seq : Nat) : Option LayerRun := s.runs.find? (·.is image layer seq)

/-- Changes a layer run, which begins with its first pass. -/
def State.updRun (s : State) (image layer seq : Nat) (f : LayerRun → LayerRun) : State :=
  match s.run? image layer seq with
  | some _ => { s with runs := s.runs.map (fun r => if r.is image layer seq then f r else r) }
  | none => { s with runs := s.runs ++ [f { image := image, layer := layer, seq := seq, base := s.effectiveRung image layer seq
                                            top := s.effectiveRung image layer seq, ref := (s.refRung image layer seq).isSome }] }

/-- A pass of the run is at a rung. -/
def State.reachRung (s : State) (image layer seq rung : Nat) : State := s.updRun image layer seq (fun r => { r with top := max r.top rung })

/-! ### Verdict records (R117 to R119) -/

def State.verdict (s : State) (v : Nat) : Verdict := Tab.get s.verdicts v
def State.setVerdict (s : State) (v : Nat) (x : Verdict) : State := { s with verdicts := Tab.set s.verdicts v x }

/-- The rung that a verdict record sets for a pass. -/
def State.verdictRung (s : State) (v : Option Nat) : Nat :=
  match v with
  | some n => if (s.verdict n).st = .free then 0 else (s.verdict n).rung
  | none => 0

/-- The record is allocated at the layer's first pass start. -/
def State.openVerdict (s : State) (k : OpBlock) (rung : Nat) : State :=
  match k.verdict with
  | some n =>
    if (s.verdict n).st = .free ∧ layerScope (s.policy k.image k.policy) then
      s.setVerdict n { st := .opened, passes := (s.imageLayer k.image k.policy).passes, rung := rung }
    else s
  | none => s

/-- The record that holds a pass: one of a LAYER-scope layer. -/
def State.judge (s : State) (k : OpBlock) : Option Nat := if layerScope (s.policy k.image k.policy) then k.verdict else none

/-! ### Passes of a core -/

def State.passesOf (s : State) (q : Nat) : List Pass := Tab.get s.passes q
def State.setPasses (s : State) (q : Nat) (ps : List Pass) : State := { s with passes := Tab.set s.passes q ps }
def State.setPass (s : State) (q i : Nat) (p : Pass) : State := s.setPasses q ((s.passesOf q).set i p)

/-- The place of the pass whose set an engine keeps. -/
def State.keptPass (s : State) (q n : Nat) (digital : Bool) : Option Nat :=
  (s.passesOf q).findIdx? (fun p => p.eng == n && p.phase == .opened && p.digital == digital)

/-- Accumulator sets of an engine in use (R83). -/
def State.setsUsed (s : State) (q n : Nat) : Nat :=
  ((s.passesOf q).filter (fun p => p.eng == n && decide (p.rung < 2) && (p.phase == .opened || p.phase == .closing))).length

/-- The last op of a pass. -/
def Pass.last (p : Pass) : OpBlock := p.ops.getLast?.getD {}

/-- The rung of a pass's next run: one up, or that of its verdict record (R109, R117). -/
def State.nextRung (s : State) (p : Pass) : Nat := max (p.rung + 1) (s.verdictRung (s.judge p.last))

/-- A repeat on the A-engine goes ahead of any op queued for it (R111). -/
def State.repeatWaits (s : State) (q n : Nat) : Bool :=
  (s.passesOf q).any (fun p => p.eng == n && p.phase == .trouble && decide (s.nextRung p < 2))

/-- The rung at which a pass of core `q` starts (R310, R117, R114, R381, R412). -/
def State.passRung (s : State) (q n : Nat) (k : OpBlock) (digital : Bool) (encoded : Nat) : Nat :=
  let forced := match s.run? k.image k.policy k.seq with | some r => if r.force then 3 else 0 | none => 0
  let held := if (s.engine (engineKey q n)).refHold || s.covered (q / 8) then 2 else 0
  let own := if digital then k.rung else if layerScope (s.policy k.image k.policy) then encoded else 0
  [s.effectiveRung k.image k.policy k.seq, s.verdictRung (s.judge k), forced, held, own].foldl max 0

/-! ### One op of a pass -/

/-- Trouble conditions (Table 4-3). -/
abbrev tClip : Nat := 1
abbrev tSide : Nat := 2
abbrev tRange : Nat := 4
abbrev tSat : Nat := 8

/-- What one op does to its pass: the state, the accumulator and correction sets, the trouble it meets, its accepted clips; `code` and `addr` are a fault. -/
structure OpOut where
  st : State
  acc : Tab Int := []
  corr : Tab Int := []
  mask : Nat := 0
  clips : Nat := 0
  form : Tab Int := []
  shift : Option Int := none
  mixed : Bool := false
  code : Code := .OK
  addr : Nat := 0

/-- R38: some block of an input carries an E8 that is not computed with. -/
def Vec.anyBad (v : Vec) : Bool := v.blocks.any (fun b => b.ok && badE8 b.e8)

def maskIf (b : Bool) (m : Nat) : Nat := if b then m else 0

/-- R64: a fault in the payloads of an input. -/
def State.reportVec (s : State) (q : Nat) (v : Vec) (a : Nat) : State :=
  if v.faulty then s.raise .FLIT_FORMAT_ERROR (Src.ofCore q) [a, rungType v.rung] else s

/-- R102: the products of the side list. -/
def sideProducts (z : Layer) (t : CopyTile) (v : Vec) (a : Acc) : Acc :=
  v.side.foldl (fun a x => (List.range z.cols).foldl (fun a c => a.add c (x.2.2 * t.weight x.1 c x.2.1) (shiftOf z v.blocks x.1 c)) a) a

/-- R103: the exact sums of the columns that the map covers. -/
def coveredProducts (y : Bank) (layer : Nat) (z : Layer) (t : CopyTile) (v : Vec) (a : Acc) : Acc :=
  ((List.range z.cols).filter (fun c => (y.col layer c).exact)).foldl (fun a c =>
    v.blocks.zipIdx.foldl (fun a b =>
      if b.1.ok then a.add c ((b.1.codes.zipIdx.map (fun x => x.1 * t.weight b.2 c x.2)).foldl (· + ·) 0) (shiftOf z v.blocks b.2 c) else a) a) a

/-- The blocks whose code lines the D-engine reads (R104). -/
def lineBlocks (v : Vec) (covered : Bool) : List Nat :=
  (List.range v.blocks.length).filter (fun b => covered || v.past.getD b false || (v.blocks.getD b {}).marks.any id)

/-- Table 3-9. -/
structure OpStatus where
  conv : Nat := 0
  clips : Nat := 0
  top : Nat := 0
  past : Nat := 0
  flags : Nat := 0
  ops : Nat := 0
  epoch : Nat := 0
  version : Nat := 0
  bankRung : Nat := 0
  layer : Nat := 0
  deriving DecidableEq, Repr, Inhabited

def OpStatus.bytes (x : OpStatus) : List Byte :=
  leBytes 2 x.conv ++ leBytes 2 x.clips ++ leBytes 1 (min 255 x.top) ++ leBytes 1 (min 255 x.past) ++ leBytes 1 x.flags ++ leBytes 1 x.ops
    ++ leBytes 2 x.epoch ++ leBytes 2 x.version ++ leBytes 1 x.bankRung ++ leBytes 1 x.layer ++ leBytes 18 0

/-- Records of an op reach its record area, when it names one (R85). -/
def State.writeRecords (s : State) (e : Nat) (k : OpBlock) (bs : List Byte) : Wr :=
  if k.records = 0 then { st := s } else s.write (Src.ofEngine (engCore e)) {} k.records bs

/-- One op on the A-engine (R71 to R88, R102 to R104, R130 to R134): `ops` counts the pass's ops with this one. -/
def State.analogOp (s : State) (q n : Nat) (k : OpBlock) (v : Vec) (acc corr : Tab Int) (ops : Nat) (shadow : Bool) : OpOut :=
  let e := engineKey q n
  let d := coreDie q
  let s1 := s.selectLayer e k.layer
  let b := (s1.engine e).active
  let y := s1.bank e b
  let z := Tab.get y.layers k.layer
  let covered := (List.range z.cols).any (fun c => (y.col k.layer c).exact)
  let st0 : OpStatus := { ops := ops, epoch := s.epoch, version := y.version, bankRung := b + 2 * v.rung, layer := k.layer, flags := if covered then 8 else 0 }
  if v.anyBad then
    let s2 := s1.raise .BAD_EXPONENT (Src.ofEngine q) [k.input]
    let w := s2.writeRecords e k { st0 with flags := st0.flags + 5 }.bytes
    { st := w.st, acc := acc, corr := corr, mask := tRange, code := w.code, addr := w.addr }
  else
    let t := s1.readTile q e k.layer (lineBlocks v covered) false
    if t.code ≠ .OK then { st := t.st, code := t.code, addr := t.addr }
    else
      let ps := planOp z v.blocks v.rung (s1.rowBudget d) (s1.mergeEn d)
      let cs := convsOf v.blocks ps s1.fresh
      let a := cs.foldl (fun a c => c.adds y k.layer v.blocks a) ((acc, false) : Acc)
      let c := coveredProducts y k.layer z t.tile v (sideProducts z t.tile v (corr, false))
      let clips := cs.map (fun c => c.dataClips y k.layer)
      let past := (ps.filter (·.past)).length
      let range := a.2 || c.2 || v.faulty
      let set := shadowSet k.layer (Tab.get y.shadow k.layer)
      let x := t.st.engine e
      let s2 := { t.st.setEngine e { x with ran := if x.ran.contains k.layer then x.ran else k.layer :: x.ran } with fresh := s1.fresh + 528 * cs.length }
      let s3 := (s2.countConv e cs.length (clips.foldl (· + ·) 0) ((cs.map (fun c => c.refClips y k.layer)).foldl (· + ·) 0)).bump
        (dieReg d Reg.AE_OVERBUDGET_TOTAL) past
      let st := { st0 with conv := cs.length, clips := clips.foldl (· + ·) 0, top := clips.foldl max 0, past := past
                           flags := st0.flags + maskIf range 1 + maskIf cs.isEmpty 16 }
      let w := s3.writeRecords e k (st.bytes ++ cs.zipIdx.flatMap (fun c => c.1.record y k.layer v.blocks (s1.shrinkEn d) c.2 set))
      let s4 := cs.zipIdx.foldl (fun s c => s.samples e b k.layer set shadow c.1 c.2) w.st
      { st := s4, acc := a.1, corr := c.1, code := w.code, addr := w.addr
        mask := maskIf (clips.any (fun c => decide (s1.clipThresh d < c))) tClip ||| maskIf (v.past.any id) tSide ||| maskIf range tRange
        clips := (clips.filter (fun c => decide (c ≤ s1.clipThresh d))).foldl (· + ·) 0 }

/-- R112: one block sum joins the int32 form while every shift of the pass is the same; the nearer limit and the flag where it leaves the range (R53). -/
def OpOut.join (o : OpOut) (c : Nat) (p sh : Int) : OpOut :=
  let x := Tab.get o.form c + p
  { o with form := Tab.set o.form c (clampInt (-2147483648) 2147483647 x), shift := some sh
           mixed := o.mixed || (match o.shift with | some h => h != sh | none => false)
           mask := if fitsInt 32 x then o.mask else o.mask ||| tSat }

/-- One op on the D-engine (R103, R112): the exact block sums of every column from the digital copy. -/
def State.digitalOp (s : State) (q n : Nat) (k : OpBlock) (v : Vec) (p : Pass) : OpOut :=
  let e := engineKey q n
  let t := s.readTile q e k.layer (List.range v.blocks.length) true
  if t.code ≠ .OK then { st := t.st, code := t.code, addr := t.addr }
  else
    let cells := v.blocks.zipIdx.flatMap (fun b => (List.range t.tile.cols).map (fun c => (b.1, b.2, c)))
    let bad := v.anyBad || cells.any (fun x => badE8 (t.tile.expo x.2.1 x.2.2))
    let s1 := if bad then t.st.raise .BAD_EXPONENT (Src.ofCore q) [if v.anyBad then k.input else k.layer] else t.st
    let o0 : OpOut := { st := s1, acc := p.acc, form := p.form, shift := p.shift, mixed := p.mixed || !k.i32 || v.rung != 2
                        mask := maskIf (bad || v.faulty) tRange }
    cells.foldl (fun o x =>
      let eo := t.tile.expo x.2.1 x.2.2
      if !x.1.ok || badE8 x.1.e8 || badE8 eo then o
      else
        let sh : Int := (x.1.e8 : Int) - 127 + ((eo : Int) - 127)
        let sum := (x.1.codes.zipIdx.map (fun y => y.1 * t.tile.weight x.2.1 x.2.2 y.2)).foldl (· + ·) 0
        let a := Acc.add (o.acc, false) x.2.2 sum sh
        { o.join x.2.2 sum sh with acc := a.1, mask := (o.join x.2.2 sum sh).mask ||| maskIf a.2 tRange }) o0

/-! ### Inputs (R110, R310) -/

/-- What reading an op's input gives: the vector, the fault, and the index of an element that cannot be encoded. -/
structure InRd where
  st : State
  vec : Vec := {}
  code : Code := .OK
  addr : Nat := 0
  bad : Option Nat := none

/-- The input encoded again from the pass's FP32 source, of which the op takes `nb` blocks from block `first` (R110, R111). -/
def State.encodeSource (s : State) (q : Nat) (k : OpBlock) (rung first nb : Nat) : InRd :=
  let r := s.read (Reader.ofCore q) (k.source + 512 * first) (512 * nb)
  if r.code ≠ .OK then { st := r.st, code := r.code, addr := r.addr }
  else
    let y := s.imageLayer k.image k.policy
    let xs := f32s (128 * nb) r.bytes
    match nonfinite xs with
    | some j => { st := r.st, bad := some (128 * first + j), vec := { rung := rung, blocks := [] } }
    | none =>
      let v := encodeVec rung (if rung = 0 then y.l4 else y.l8) (s.outBlockMax (coreDie q)) (scaled y.sa xs)
      { st := r.st, vec := { v.vec with faulty := v.range } }

/-- The rung of the encoding at INPUT (Table 4-1). -/
def State.inputStatus (s : State) (q : Nat) (k : OpBlock) : Rd := s.read (Reader.ofCore q) (k.input - 64) 64

/-- The op's input at a rung: its payloads where they are of that rung, its source otherwise; `es` is its encode status record. -/
def State.opInput (s : State) (q : Nat) (k : OpBlock) (rung first nb : Nat) (es : List Byte) : InRd :=
  if fieldAt es 36 1 % 4 = rung then
    let n := fieldAt es 32 2
    let r := s.read (Reader.ofCore q) k.input (payloadBytes rung nb n)
    if r.code ≠ .OK then { st := r.st, code := r.code, addr := r.addr }
    else
      let v := placeVec rung nb (payloadsOf (nb * rungParts rung + (n + 15) / 16) r.bytes) (overOf es nb)
      { st := r.st.reportVec q v k.input, vec := { v with faulty := v.faulty || bitOf (fieldAt es 37 1) 0 } }
  else s.encodeSource q k rung first nb

/-- R44: an element that cannot be encoded stops its sequence's token. -/
def State.nonfiniteInput (s : State) (q seq block j : Nat) : State :=
  (s.raise .NONFINITE_INPUT (Src.ofCore q) [seq, block, j]).trouble seq rsNonfinite [block, j]

/-! ### Release, exhaustion and settlement (R107, R111, R113) -/

/-- The first entry held for an op is held no longer. -/
def unhold (o : Op) : List Ran → List Ran
  | [] => []
  | r :: t => if r.op = o ∧ r.hold then { r with hold := false } :: t else r :: unhold o t

/-- A tile that another pass writes over is no longer the run's. -/
def LayerRun.drop (a : Nat) (r : LayerRun) : LayerRun := { r with tiles := r.tiles.filter (· != a) }

/-- The pass's completion is released, once, with the result of its last run. -/
def State.releasePass (s : State) (q : Nat) (p : Pass) : State :=
  let k := p.last
  let x := s.seq q
  let s1 := (s.setPasses q ((s.passesOf q).erase p)).setSeq q { x with ran := unhold p.op x.ran }
  let s0 : State := { s1 with runs := s1.runs.map (LayerRun.drop k.out) }
  let s2 := (s0.bump (dieReg (coreDie q) Reg.DC_CLIP_ACCEPTED_TOTAL) p.clips).updRun k.image k.policy k.seq
    (fun r => { r with clips := r.clips + p.clips, tiles := k.out :: r.tiles })
  if p.repeated then s2.bumpWait (dieReg (coreDie q) Reg.DC_HELD_CYCLES_TOTAL) else s2

/-- R113: a pass in trouble at D16 ends its sequence's token for the step and completes. -/
def State.exhaust (s : State) (q : Nat) (p : Pass) : State :=
  let k := p.last
  ((((s.bump (dieReg (coreDie q) Reg.DC_EXHAUSTED_TOTAL) 1).raise .RANGE_EXHAUSTED Src.steward [s.handle k.seq, k.policy, p.mask]).trouble
    k.seq rsRange [k.policy, p.mask]).updRun k.image k.policy k.seq (fun r => { r with exhausted := true })).releasePass q p

/-- Passes are counted by condition (Table 4-9). -/
def State.countTrouble (s : State) (d mask : Nat) : State :=
  (((s.bump (dieReg d Reg.DC_TROUBLE_CLIP_TOTAL) (b2n (bitOf mask 0))).bump (dieReg d Reg.DC_TROUBLE_SIDE_TOTAL) (b2n (bitOf mask 1))).bump
    (dieReg d Reg.DC_TROUBLE_RANGE_TOTAL) (b2n (bitOf mask 2))).bump (dieReg d Reg.DC_TROUBLE_SAT_TOTAL) (b2n (bitOf mask 3))

/-- A run of a pass has its tile: it is released, waits for its repeat, ends under R113, or reports to its verdict record. -/
def State.settle (s : State) (q i : Nat) (p : Pass) : State :=
  let s1 := s.countTrouble (coreDie q) p.mask
  match s1.judge p.last with
  | some _ => s1.setPass q i { p with phase := .judging }
  | none =>
    if p.mask = 0 then s1.releasePass q p
    else if p.rung = 3 then s1.exhaust q p
    else s1.setPass q i { p with phase := .trouble }

/-! ### Tiles -/

/-- Words of a set as a BA64 tile, with OVERFLOW where one does not fit (R57, R84). -/
def setTileBytes (acc : Tab Int) : List Byte := (List.range 512).flatMap (fun c => leBytes 8 (encodeInt 64 (Tab.get acc c)))
def setOverflow (acc : Tab Int) : Bool := acc.any (fun x => !fitsInt 64 x.2)

/-- The tile that a digital pass writes: I32 with k = sh where every shift was that one, BA64 otherwise (R112). -/
def State.writeDigital (s : State) (q : Nat) (p : Pass) : Wr × Nat :=
  match p.mixed, p.shift with
  | false, some sh =>
    let sat := bitOf p.mask 3
    let bad := !shiftOk sh
    (s.write (Src.ofCore q) { format := 2, k := sh, sat := sat } p.last.out
      ((List.range 512).flatMap (fun c => leBytes 4 (encodeInt 32 (Tab.get p.form c))) ++ leBytes 2048 0), p.mask ||| maskIf bad tRange)
  | _, _ =>
    let m := p.mask % 8
    (s.write (Src.ofCore q) { format := 1, overflow := setOverflow p.acc } p.last.out (setTileBytes p.acc), m ||| maskIf (setOverflow p.acc) tRange)

/-- A digital pass ends: its tile is written and it settles; a write that faults is its op's fault. -/
def State.closeDigital (s : State) (q i : Nat) (p : Pass) : State :=
  let (w, m) := s.writeDigital q p
  if w.code ≠ .OK then (w.st.setPasses q ((w.st.passesOf q).eraseIdx i)).opRan q p.op w.code 0 w.addr
  else w.st.settle q i { p with mask := m }

/-! ### Op starts (R83, R86, R87, R110, R310) -/

/-- The reason with which an op is refused, in the order of R86. -/
def opRefusal (k : OpBlock) (digital : Bool) (kept : Option Pass) (format : Nat) : Code :=
  let opens := k.action == 0 || k.action == 1
  if (opens && kept.isSome) || (!opens && kept.isNone) || (match kept with | some p => decide (16 ≤ p.ops.length) | none => false) then .PASS_RULE
  else if k.source = 0 then .NO_SOURCE
  else if format = 0 then .LAYER_EMPTY
  else if (if digital then decide (k.rung < 2) else decide (2 ≤ k.rung)) then .FORMAT_INVALID
  else .OK

/-- The pass after an op, in place `i` of its core's list; a place beyond the list is a new one. -/
def State.putPass (s : State) (q i : Nat) (p : Pass) : State :=
  if i < (s.passesOf q).length then s.setPass q i p else s.setPasses q (s.passesOf q ++ [p])

/-- The op has done its work in the pass: it completes at once unless it closes the pass, whose completion is held (R111). -/
def State.opDone (s : State) (q i : Nat) (o : Op) (k : OpBlock) (p : Pass) : State :=
  let closes := k.action == 0 || k.action == 3
  let p1 := { p with op := o }
  if !closes then (s.putPass q i p1).opRan q o .OK 0 0
  else if p1.rung < 2 then (s.putPass q i { p1 with phase := .closing }).opRan q o .OK 0 0 true
  else ((s.putPass q i { p1 with phase := .closing }).opRan q o .OK 0 0 true).closeDigital q i { p1 with phase := .closing }

/-- Blocks of the pass's earlier ops: where this op's part of the source begins. -/
def State.blocksBefore (s : State) (q n : Nat) (ops : List OpBlock) : Nat :=
  (ops.map (fun k => (s.tileHead (engineKey q n) k.layer).2.1 + 1)).foldl (· + ·) 0

/-- One op of a pass runs at the pass's rung, in the manner of the rung. -/
def State.runOp (s : State) (q n : Nat) (k : OpBlock) (v : Vec) (p : Pass) (shadow : Bool) : OpOut :=
  if v.rung < 2 then s.analogOp q n k v p.acc p.corr p.ops.length shadow else s.digitalOp q n k v p

def Pass.take (p : Pass) (o : OpOut) : Pass :=
  { p with acc := o.acc, corr := o.corr, mask := p.mask ||| o.mask, clips := p.clips + o.clips, form := o.form, shift := o.shift, mixed := o.mixed }

/-- An accepted op of core `q` runs in the pass at place `i`. -/
def State.startOp (s : State) (q n i : Nat) (shadow : Bool) (o : Op) (k : OpBlock) (p : Pass) (nb : Nat) (es : List Byte) : State :=
  let first := s.blocksBefore q n p.ops
  let p1 := { p with ops := p.ops ++ [k] }
  let r := s.opInput q k p.rung first nb es
  if r.code ≠ .OK then r.st.opRan q o r.code 0 r.addr
  else
    let s1 := match r.bad with | some j => r.st.nonfiniteInput q k.seq k.policy j | none => r.st
    let s2 := (s1.openVerdict k p.rung).reachRung k.image k.policy k.seq p.rung
    let x := s2.runOp q n k r.vec p1 shadow
    if x.code ≠ .OK then x.st.opRan q o x.code 0 x.addr
    else if x.st.step.abandoned ∧ !s.step.abandoned then x.st
    else x.st.opDone q i o k (p1.take x)

/-- R87: the oldest array op of a unit starts when its engine, its input and, for an opening op, a free set are ready. -/
def State.opStart (s : State) (q n : Nat) (digital shadow : Bool) (o : Op) : State :=
  let r := s.read (Reader.ofCore q) o.a 64
  if r.code ≠ .OK then r.st.opRan q o r.code 0 r.addr
  else
    let k := parseOpBlock s.loc r.bytes
    let e := engineKey q n
    let ki := r.st.keptPass q n digital
    let kept := ki.bind (fun i => (r.st.passesOf q)[i]?)
    let es := r.st.inputStatus q k
    let rung := match kept with | some p => p.rung | none => r.st.passRung q n k digital (fieldAt es.bytes 36 1 % 4)
    let z := r.st.layer e k.layer
    let h := if rung < 2 then (z.format, z.blocks, z.cols, z.tag) else r.st.tileHead e k.layer
    let c := opRefusal k digital kept h.1
    if c ≠ .OK then r.st.opInvalid q n o c h.2.2.2
    else if es.code ≠ .OK then es.st.opRan q o es.code 0 es.addr
    else if kept.isNone ∧ rung < 2 ∧ 2 ≤ r.st.setsUsed q n then s.bumpWait (dieReg (coreDie q) Reg.AE_SET_WAIT_TOTAL)
    else
      let p : Pass := kept.getD { eng := n, rung := rung, base := r.st.effectiveRung k.image k.policy k.seq, digital := digital, op := o }
      es.st.startOp q n (ki.getD (r.st.passesOf q).length) shadow o k p (h.2.1 + 1) es.bytes

/-- `shadow` says whether the D-engine forms the shadow samples of this op by the step boundary (R132). -/
def execArrayMvOpStart (q n : Nat) (shadow : Bool) (s : State) : Host.Outcome State Fault Refusal :=
  .next (match (s.seq q).next (.eng n) 0x10 with
    | none => s
    | some o => if s.repeatWaits q n then s else s.opStart q n false shadow o)

/-- The D_MV at the head of the D-engine's queue runs its op (R112, R310). -/
def execDMvPass (q : Nat) (s : State) : Host.Outcome State Fault Refusal :=
  .next (match (s.seq q).next .dEng 0x14 with
    | none => s
    | some o => s.opStart q (o.mod % 4) true false o)

/-! ### Write-back and merge (R84, R105) -/

/-- The A-engine writes the set of a closed pass as one tile and frees it. -/
def State.writeBack (s : State) (q i : Nat) (p : Pass) : State :=
  let k := p.last
  let past := setOverflow p.acc
  let w := s.write (Src.ofEngine (engineKey q p.eng)) { format := 1, overflow := past } k.out (setTileBytes p.acc)
  if w.code ≠ .OK then (w.st.setPasses q ((w.st.passesOf q).eraseIdx i)).setSeq q
      { w.st.seq q with ran := (w.st.seq q).ran.map (fun r => if r.op = p.op ∧ r.hold then { r with hold := false, status := w.code, addr := w.addr } else r) }
  else
    let s1 := if past && k.records != 0 then w.st.putBytes (k.records + 6) [BitVec.ofNat 8 (w.st.natAt (k.records + 6) 1 ||| 3)] else w.st
    s1.setPass q i { p with phase := .written, mask := p.mask ||| maskIf past tRange }

def execAccumulatorWriteBack (q i : Nat) (s : State) : Host.Outcome State Fault Refusal :=
  .next (match (s.passesOf q)[i]? with
    | some p => if p.phase = .closing then s.writeBack q i p else s
    | none => s)

/-- The D-engine adds the correction set to the tile and checks each sum; the pass then settles. -/
def State.merge (s : State) (q i : Nat) (p : Pass) : State :=
  let sum := p.corr.foldl (fun t x => Tab.upd t x.1 (fun (v : Int) => signed 64 (encodeInt 64 v) + x.2))
    (p.acc.foldl (fun t x => Tab.set t x.1 (signed 64 (encodeInt 64 x.2))) ([] : Tab Int))
  let past := setOverflow sum || setOverflow p.acc
  let w := s.write (Src.ofCore q) { format := 1, overflow := past } p.last.out (setTileBytes sum)
  w.st.settle q i { p with mask := p.mask ||| maskIf past tRange }

def execCorrectionMerge (q i : Nat) (s : State) : Host.Outcome State Fault Refusal :=
  .next (match (s.passesOf q)[i]? with
    | some p => if p.phase = .written then s.merge q i p else s
    | none => s)

/-! ### Repeats (R108 to R112) -/

/-- The ops of a repeat run one after another at the new rung; a fault ends them. -/
def State.rerun (s : State) (q : Nat) : List OpBlock → Pass → State × Pass × Code × Nat
  | [], p => (s, p, .OK, 0)
  | k :: r, p =>
    let e := engineKey q p.eng
    let nb := if p.rung < 2 then (s.layer e k.layer).nblocks else (s.tileHead e k.layer).2.1 + 1
    let x := s.encodeSource q k p.rung (s.blocksBefore q p.eng p.ops) nb
    if x.code ≠ .OK then (x.st, p, x.code, x.addr)
    else
      let s1 := match x.bad with | some j => x.st.nonfiniteInput q k.seq k.policy j | none => x.st
      let p1 := { p with ops := p.ops ++ [k] }
      let y := s1.runOp q p.eng k x.vec p1 true
      if y.code ≠ .OK then (y.st, p1, y.code, y.addr) else State.rerun y.st q r (p1.take y)

def repeatReg (rung : Nat) : Nat :=
  if rung = 1 then Reg.DC_REPEAT_A8_TOTAL else if rung = 2 then Reg.DC_REPEAT_D8_TOTAL else Reg.DC_REPEAT_D16_TOTAL

/-- A pass in trouble runs again at the next rung, its tile over the discarded one. -/
def State.repeatPass (s : State) (q i : Nat) (p : Pass) : State :=
  let k := p.last
  let rung := min 3 (s.nextRung p)
  let p0 : Pass := { p with ops := [], phase := .closing, rung := rung, acc := [], corr := [], mask := 0, clips := 0, repeated := true
                            form := [], shift := none, mixed := false }
  let s1 := (s.bump (dieReg (coreDie q) (repeatReg rung)) 1).reachRung k.image k.policy k.seq rung
  let (s2, p1, code, addr) := s1.rerun q p.ops p0
  if s2.step.abandoned ∧ !s.step.abandoned then s2
  else if code ≠ .OK then (s2.setPasses q ((s2.passesOf q).eraseIdx i)).setSeq q
      { s2.seq q with ran := (s2.seq q).ran.map (fun r => if r.op = p.op ∧ r.hold then { r with hold := false, status := code, addr := addr } else r) }
  else if rung < 2 then s2.setPass q i p1
  else (s2.setPass q i p1).closeDigital q i p1

def execPassRepeat (q i : Nat) (s : State) : Host.Outcome State Fault Refusal :=
  .next (match (s.passesOf q)[i]? with
    | some p => if p.phase = .trouble then s.repeatPass q i p else s
    | none => s)

/-- R114: trouble found after a reduction has combined a layer's passes: the whole layer runs at D16 for the sequence, as one promoted run; at D16 already, R113 applies. -/
def execLayerD16Repeat (image layer seq : Nat) (s : State) : Host.Outcome State Fault Refusal :=
  .next (match s.run? image layer seq with
    | none => s
    | some r =>
      if !r.late then s
      else if r.force || decide (3 ≤ r.base) then
        ((s.raise .RANGE_EXHAUSTED Src.steward [s.handle seq, layer, tRange]).trouble seq rsRange [layer, tRange]).updRun image layer seq
          (fun r => { r with exhausted := true, late := false })
      else s.updRun image layer seq (fun r => { r with force := true, top := 3, late := false }))

/-! ### Reports to a verdict record (R117, R118) -/

/-- Every pass of a core that waits on record `n`. -/
def State.onRecord (s : State) (n : Nat) (p : Pass) : Bool := (s.judge p.last == some n) && (p.phase == .judging || p.phase == .held)

/-- The record is CLEAN, or its layer has ended: every completion it holds is released. -/
def State.releaseRecord (s : State) (n : Nat) : State :=
  s.passes.foldl (fun s e => (e.2.filter (s.onRecord n)).foldl (fun s p => s.releasePass e.1 p) s) s

/-- A promotion reaches every core of the layer: each pass that has run repeats at the new rung. -/
def State.promoteRecord (s : State) (n : Nat) : State :=
  s.passes.foldl (fun s e => s.setPasses e.1 ((s.passesOf e.1).map (fun p => if s.onRecord n p then { p with phase := .trouble } else p))) s

/-- One pass's report. -/
def State.report (s : State) (q i n : Nat) (p : Pass) : State :=
  let v := s.verdict n
  if p.rung < v.rung then
    (s.bump (memReg (n / 1024) Reg.VERDICT_STALE_TOTAL) 1).setPass q i { p with phase := .trouble }
  else if p.mask = 0 then
    let v1 := { v with clean := v.clean + 1 }
    let s1 := s.setPass q i { p with phase := .held }
    if v.passes ≤ v1.clean then (s1.setVerdict n { v1 with st := .clean }).releaseRecord n else s1.setVerdict n v1
  else if p.rung = 3 then ((s.setVerdict n { v with st := .clean }).exhaust q p).releaseRecord n
  else (s.setVerdict n { v with st := .opened, rung := v.rung + 1, clean := 0 }).promoteRecord n

def execVerdictReport (q i : Nat) (s : State) : Host.Outcome State Fault Refusal :=
  .next (match (s.passesOf q)[i]? with
    | some p =>
      (match s.judge p.last with
       | some n => if p.phase = .judging then s.report q i n p else s
       | none => s)
    | none => s)

/-! ### Layer statistics (R121, Tables 4-7 and 9-8) -/

/-- Table 4-7. -/
def State.layerStat (s : State) (image layer : Nat) : List Byte :=
  let x := Tab.get s.stats (layerKey image layer)
  let p := s.policy image layer
  let refEn := bitOf p 4
  let rung := if refEn then 2 + bitsOf p 5 1 else s.baseRung image layer
  leBytes 8 x.runs ++ leBytes 8 x.promoted ++ leBytes 8 x.a8 ++ leBytes 8 x.d8 ++ leBytes 8 x.d16 ++ leBytes 8 x.exhausted ++ leBytes 8 x.clips
    ++ leBytes 1 (rung + 4 * b2n x.pin.isSome + 8 * b2n refEn) ++ leBytes 7 0

def execLayerStats (h : Hdr) (image first count buffer : Nat) (s : State) : Host.Outcome State Fault Refusal :=
  .next (s.descriptor h clsMaint fun s d =>
    (s.hostPut buffer ((List.range count).flatMap (fun i => s.layerStat image (first + i)))).finish d .OK 0 0)

end Sys2Proof.Machine
end

