-- ==== Sys2Proof/Machine/Vector.lean ====
section
/-! DEFINITION. Vector ops, PSUM_ADD and KV_APPEND of the D-engine (R44, R50, R60, R61, R116, R186, R211, R212, R311). -/

namespace Sys2Proof.Machine

/-! ### KV blocks (R49, R50) -/

/-- Runs of 32 elements, zeros beyond the end. -/
def runs32 : Nat → List F32 → List (List F32)
  | 0, _ => []
  | n + 1, us => (us.take 32 ++ List.replicate (32 - (us.take 32).length) 0#32) :: runs32 n (us.drop 32)

/-- R50: KV blocks of scaled elements; `range` where e = +127 is not enough. -/
def encodeKv (kv4 : Bool) (us : List F32) : List EncBlock :=
  (runs32 ((us.length + 31) / 32) us).map (fun b => encodeBlock (if kv4 then 7 else 127) b (b.map (fun _ => false)))

/-- Codes of KV blocks, two to a byte for KV4 (R49). -/
def kvCodes (kv4 : Bool) (bs : List EncBlock) : List Byte := bs.flatMap (packBlock (if kv4 then 0 else 1))

def kvExps (bs : List EncBlock) : List Byte := bs.map (fun b => BitVec.ofNat 8 b.e8)

/-! ### D_VEC (R311) -/

/-- Table 10-6. -/
structure VecBlock where
  vop : Nat
  format : Nat
  count : Nat
  in0 : Nat
  in1 : Nat
  out : Nat
  param : Nat
  reserved : Bool
  deriving DecidableEq, Repr, Inhabited

def parseVecBlock (loc : Nat → Nat) (bs : List Byte) : VecBlock :=
  { vop := fieldAt bs 0 1, format := fieldAt bs 1 1 % 16, count := fieldAt bs 4 4, in0 := loc (fieldAt bs 8 8), in1 := loc (fieldAt bs 16 8)
    out := loc (fieldAt bs 24 8), param := loc (fieldAt bs 32 8)
    reserved := fieldAt bs 1 1 / 16 != 0 || fieldAt bs 2 2 != 0 || (bs.drop 40).any (· != 0#8) }

/-- A block that the manual calls reserved or out of range; it gives no status, and ARRAY_OP_INVALID with FORMAT_INVALID is taken (log 44). -/
def VecBlock.invalid (b : VecBlock) : Bool :=
  b.reserved || b.vop == 0 || decide (7 < b.vop) || decide (7 < b.format) || b.count == 0 || decide (32768 < b.count)

/-- Several reads, one after another; the first fault ends them. -/
def State.readAll (s : State) (r : Reader) : List (Nat × Nat) → Rd × List (List Byte)
  | [] => ({ st := s }, [])
  | x :: t =>
    let a := s.read r x.1 x.2
    if a.code ≠ .OK then (a, [])
    else
      let y := State.readAll a.st r t
      (y.1, a.bytes :: y.2)

/-- The tensor scale of a reference, and the layer whose limits and policy an encode follows. -/
def State.scaleOf (s : State) (t : TensorRef) : F32 :=
  match t with
  | .layer i n => (s.imageLayer i n).sa
  | .query i b h => match s.image i with | some g => ((g.heads.find? (fun x => x.block == b && x.head == h)).map (·.sq)).getD 0x3F800000#32 | none => 0x3F800000#32
  | .kv i b h => match s.image i with | some g => ((g.heads.find? (fun x => x.block == b && x.head == h)).map (·.skv)).getD 0x3F800000#32 | none => 0x3F800000#32

/-- The layer or block of a tensor. -/
def tensorBlock : TensorRef → Nat
  | .layer _ n => n
  | .query _ b _ => b
  | .kv _ b _ => b

/-- R101: the segments of a vector: 32,768 elements each. -/
def encodeAt (rung : Nat) (y : ImageLayer) (bmax : Nat) (us : List F32) : EncVec :=
  encodeVec rung (if rung = 0 then y.l4 else if rung = 1 then y.l8 else 0x7F800000#32) bmax us

/-- R116: at LAYER scope a vector that overflows is encoded at the next rung instead, and so on; the number of settlements. -/
def settleEncode (scope : Bool) (y : ImageLayer) (bmax : Nat) (us : List F32) : Nat → Nat → EncVec × Nat
  | 0, rung => (encodeAt rung y bmax us, 0)
  | n + 1, rung =>
    let v := encodeAt rung y bmax us
    if scope && v.past.any id && decide (rung < 2) then
      let x := settleEncode scope y bmax us n (rung + 1)
      (x.1, x.2 + 1)
    else (v, 0)

/-- An activation encode of a vector: its payloads at OUT and, for ENCODE, its status record at PARAM (R43, R101, R116). -/
def State.encodeOut (s : State) (q : Nat) (b : VecBlock) (t : TensorRef) (xs : List F32) : Wr :=
  let (i, n) := match t with | .layer i n => (i, n) | _ => (0, 0)
  let y := s.imageLayer i n
  let scope := match t with | .layer _ _ => layerScope (s.policy i n) | _ => false
  let x := settleEncode scope y (s.outBlockMax (coreDie q)) (scaled (s.scaleOf t) xs) 2 (b.format - 2)
  let s1 := s.bump (dieReg (coreDie q) Reg.DC_TROUBLE_SIDE_TOTAL) x.2
  let w := s1.write (Src.ofCore q) {} b.out x.1.payloads
  if w.code = .OK ∧ b.vop = 6 then w.st.write (Src.ofCore q) {} b.param x.1.status else w

/-- The result of a vector op in its OUT encoding; an element that is not delivered (R61) leaves its place as it is. -/
def State.storeVec (s : State) (q : Nat) (b : VecBlock) (t : TensorRef) (ys : List (Option F32)) : Wr :=
  if b.format < 2 then
    let w := if b.format = 0 then 4 else 2
    s.write (Src.ofCore q) {} b.out (ys.zipIdx.flatMap (fun y => match y.1 with
      | some v => leBytes w (if b.format = 0 then v.toNat else F32.toBF16 v)
      | none => s.bytesAt (b.out + w * y.2) w))
  else
    let xs := ys.map (·.getD 0#32)
    if b.format < 6 then s.encodeOut q b t xs
    else
      let e := encodeKv (b.format == 7) (scaled (s.scaleOf t) xs)
      s.write (Src.ofCore q) {} b.out (kvCodes (b.format == 7) e ++ kvExps e)

/-- The mean of squares, summed in ascending order (R311). -/
def meanSquare (xs : List F32) : F32 := F32.div (xs.foldl (fun a x => F32.add a (F32.mul x x)) 0#32) (F32.ofNat xs.length)

/-- The inputs a vector op reads: addresses and lengths. -/
def VecBlock.inputs (b : VecBlock) : List (Nat × Nat) :=
  match b.vop with
  | 3 => [(b.in0, 4 * b.count), (b.in1, 4 * b.count), (b.param, 4)]
  | 5 => [(b.in0, 4 * b.count), (b.in1, 4)]
  | 6 => [(b.in0, 4 * b.count)]
  | 7 => [(b.in0, 8 * b.count), (b.param, 4)]
  | _ => [(b.in0, 4 * b.count), (b.in1, 4 * b.count)]

/-- The elements of a vector op's result (R311). The manual gives no layout of the rotation table, and the elements of a ROTATE are free values (log 42). -/
def VecBlock.result (b : VecBlock) (fresh : Nat) (ins : List (List Byte)) : List (Option F32) :=
  let x := f32s b.count (ins.getD 0 [])
  let w := f32s b.count (ins.getD 1 [])
  match b.vop with
  | 1 => (x.zip w).map (fun p => some (F32.add p.1 p.2))
  | 2 => (x.zip w).map (fun p => some (F32.mul p.1 p.2))
  | 3 =>
    let eps : F32 := BitVec.ofNat 32 (leNat (ins.getD 2 []))
    let r := F32.rsqrt (F32.add (meanSquare x) eps)
    (x.zip w).map (fun p => some (F32.mul (F32.mul p.1 r) p.2))
  | 4 => (x.zip w).map (fun p => some (F32.mul (F32.mul p.1 (F32.gate p.1)) p.2))
  | 5 => (List.range b.count).map (fun i => some (BitVec.ofNat 32 (Config.free (fresh + i))))
  | 6 => x.map some
  | _ =>
    let so : F32 := BitVec.ofNat 32 (leNat (ins.getD 1 []))
    (chunkNats 8 b.count (ins.getD 0 [])).map (fun v => ba64ToF32 (signed 64 v) so)

/-- R114: a conversion that exceeds binary32, or one of a result whose tile carries OVERFLOW, is trouble that no single pass owns. -/
def State.lateTrouble (s : State) (b : VecBlock) (t : TensorRef) (seq : Nat) (ys : List (Option F32)) : State :=
  match t with
  | .layer i n =>
    if b.vop == 7 && (ys.any (·.isNone) || (s.tile (b.in0 / 4096)).overflow) then s.updRun i n seq (fun r => { r with late := true }) else s
  | _ => s

/-- A vector op on its inputs. -/
def State.vecOp (s : State) (q : Nat) (o : Op) (b : VecBlock) (t : TensorRef) (seq : Nat) : State :=
  let (r, ins) := s.readAll (Reader.ofCore q) b.inputs
  if r.code ≠ .OK then r.st.opRan q o r.code 0 r.addr
  else
    let ys := b.result r.st.fresh ins
    let s1 := if b.vop = 5 then { r.st with fresh := r.st.fresh + b.count } else r.st
    let xs := ys.map (·.getD 0#32)
    match (if 2 ≤ b.format then nonfinite xs else none) with
    | some j => (s1.nonfiniteInput q seq (tensorBlock t) j).opRan q o .OK 0 0
    | none =>
      let w := s1.storeVec q b t ys
      (w.st.lateTrouble b t seq ys).opRan q o w.code 0 w.addr

/-- `t` names the tensor, and `seq` the request, of the program's vector: the block holds neither (log 45). -/
def execDVecOp (q : Nat) (t : TensorRef) (seq : Nat) (s : State) : Host.Outcome State Fault Refusal :=
  .next (match (s.seq q).next .dEng 0x15 with
    | none => s
    | some o =>
      let r := s.read (Reader.ofCore q) o.a 64
      if r.code ≠ .OK then r.st.opRan q o r.code 0 r.addr
      else
        let b := parseVecBlock s.loc r.bytes
        if b.invalid then r.st.opInvalid q 0 o .FORMAT_INVALID 0 else r.st.vecOp q o b t seq)

/-! ### PSUM_ADD (R186) -/

/-- The words of a partial tile as BA64 values, widening an I32 tile under R58. -/
def State.partialWords (s : State) (t : Nat) : List Int :=
  let w := s.tile t
  if w.format = 2 then (chunkNats 4 512 (s.bytesAt (4096 * t) 2048)).map (fun v => signed 32 v * (2 ^ (w.k + 24).toNat : Nat))
  else (chunkNats 8 512 (s.bytesAt (4096 * t) 4096)).map (fun v => signed 64 v)

/-- An operand that PSUM_ADD refuses. -/
def State.psumBad (s : State) (a : Nat) : Bool :=
  let w := s.tile (a / 4096)
  w.format == 0 || w.format == 3 || w.atomic || a % 4096 != 0

/-- The pass whose tile stands at an address and whose completion is held. -/
def State.heldAt (s : State) (q a : Nat) : Bool := (s.passesOf q).any (fun p => p.phase != .opened && p.last.out == a)

/-- Adds the source partial into the target; the trouble it meets. -/
def State.psumAdd (s : State) (q a b : Nat) : Wr × Nat :=
  let x := s.tile (a / 4096)
  let y := s.tile (b / 4096)
  let flags : Tile := { overflow := x.overflow || y.overflow, sat := x.sat || y.sat }
  if x.format = 2 ∧ y.format = 2 ∧ x.k = y.k then
    let us := chunkNats 4 512 (s.bytesAt a 2048)
    let vs := chunkNats 4 512 (s.bytesAt b 2048)
    let ws := (us.zip vs).map (fun p => signed 32 p.1 + signed 32 p.2)
    (s.write (Src.ofCore q) { flags with format := 2, k := x.k, sat := flags.sat || ws.any (fun w => !fitsInt 32 w) } b
      (ws.flatMap (fun w => leBytes 4 (encodeInt 32 (clampInt (-2147483648) 2147483647 w))) ++ leBytes 2048 0), 0)
  else if (x.format = 2 ∧ !shiftOk x.k) ∨ (y.format = 2 ∧ !shiftOk y.k) then ({ st := s }, tRange)
  else
    let ws := ((s.partialWords (a / 4096)).zip (s.partialWords (b / 4096))).map (fun p => p.1 + p.2)
    let past := ws.any (fun w => !fitsInt 64 w)
    (s.write (Src.ofCore q) { flags with format := 1, overflow := flags.overflow || past } b (ws.flatMap (fun w => leBytes 8 (encodeInt 64 w))), maskIf past tRange)

/-- R58, R186: a range trouble event of the pass that wrote the source, whose completion has been released: trouble of its layer run under R114. -/
def State.psumTrouble (s : State) (mask a : Nat) : State :=
  if mask = 0 then s else { s with runs := s.runs.map (fun r => if r.tiles.contains a then { r with late := true } else r) }

def execPsumAddOp (q : Nat) (s : State) : Host.Outcome State Fault Refusal :=
  .next (match (s.seq q).next .dEng 0x16 with
    | none => s
    | some o =>
      if s.heldAt q o.a then s
      else if s.psumBad o.a || s.psumBad o.b then s.opRan q o .PSUM_FORMAT 0 o.a
      else
        let (r, _) := s.readAll (Reader.ofCore q) [(o.a, 4096), (o.b, 4096)]
        if r.code ≠ .OK then r.st.opRan q o r.code 0 r.addr
        else
          let (w, m) := r.st.psumAdd q o.a o.b
          (w.st.psumTrouble m o.a).opRan q o w.code 0 w.addr)

/-! ### KV_APPEND (R211, R212) -/

/-- The KV_APPEND block. -/
structure AppendBlock where
  k : Nat
  v : Nat
  seq : Nat
  layer : Nat
  head : Nat
  w : Nat
  base : Nat
  deriving DecidableEq, Repr, Inhabited

def parseAppend (loc : Nat → Nat) (bs : List Byte) : AppendBlock :=
  { k := loc (fieldAt bs 0 8), v := loc (fieldAt bs 8 8), seq := fieldAt bs 16 4 % 2 ^ 20, layer := fieldAt bs 20 2, head := fieldAt bs 22 1
    w := fieldAt bs 23 1, base := fieldAt bs 24 4 }

/-- LENGTH of a sequence in the admission snapshot (R208). -/
def State.snapLength (s : State) (i : Nat) : Nat :=
  match s.step.admitted.find? (fun a => a.idx == i) with
  | some a => a.base
  | none => (s.req i).length

/-- The image that runs a sequence, and the head of it that an op names. -/
def State.headOf (s : State) (i block head : Nat) : Option (Image × ImageHead) :=
  (s.image (s.req i).image).bind (fun g => (g.heads.find? (fun h => h.block == block && h.head == head)).map (fun h => (g, h)))

/-- R115, R113: a range trouble event of a sequence's attention work. -/
def State.kvTrouble (s : State) (seq block : Nat) : State :=
  (s.raise .RANGE_EXHAUSTED Src.steward [s.handle seq, block, tRange]).trouble seq rsKvRange [block, tRange]

/-- The entries of one position: K and V elements over the whole pitch, then their exponents, in the four runs of its page slot (R51, R213). -/
def State.writeEntry (s : State) (q : Nat) (kv4 : Bool) (x : PagePlace) (t : Nat) (k v : List EncBlock) : Wr :=
  let pad (n : Nat) (bs : List Byte) : List Byte := bs ++ leBytes (n - bs.length) 0
  let n := kvPitch kv4
  let parts := [pad n (kvCodes kv4 k), pad n (kvCodes kv4 v), pad 4 (kvExps k), pad 4 (kvExps v)]
  ((x.runs kv4 t).zip parts).foldl (fun (w : Wr) p => if w.code = .OK then w.st.write (Src.ofCore q) {} p.1.1 p.2 else w) { st := s }

/-- The op with its image's head and the vectors it read. -/
def State.append (s : State) (q : Nat) (o : Op) (b : AppendBlock) (g : Image) (h : ImageHead) (ks vs : List F32) : State :=
  let n := 32 * h.width
  match nonfinite (ks ++ vs) with
  | some j => (s.nonfiniteInput q b.seq b.layer j).opRan q o .OK 0 0
  | none =>
    let enc (xs : List F32) : List (List EncBlock) := (List.range b.w).map (fun i => encodeKv g.kv4 (scaled h.skv ((xs.drop (n * i)).take n)))
    let ek := enc ks
    let ev := enc vs
    if (ek ++ ev).any (fun l => l.any (·.range)) then (s.kvTrouble b.seq b.layer).opRan q o .OK 0 0
    else
      let places := (List.range b.w).map (fun i => s.place b.seq ((b.base + i) / 256) g h)
      if places.any (fun p => match p with | .error _ => true | .ok _ => false) then s.opRan q o .KV_SLOT_RANGE 0 o.a
      else
        let w := places.zipIdx.foldl (fun (w : Wr) p => match p.1 with
          | .ok x => if w.code = .OK then w.st.writeEntry q g.kv4 x ((b.base + p.2) % 256) (ek.getD p.2 []) (ev.getD p.2 []) else w
          | .error _ => w) { st := s }
        w.st.opRan q o w.code 0 w.addr

def execKvAppendOp (q : Nat) (s : State) : Host.Outcome State Fault Refusal :=
  .next (match (s.seq q).next .dEng 0x17 with
    | none => s
    | some o =>
      let r := s.read (Reader.ofCore q) o.a 32
      if r.code ≠ .OK then r.st.opRan q o r.code 0 r.addr
      else
        let b := parseAppend s.loc r.bytes
        if (s.table b.seq).pages.length * 256 < b.base + b.w then r.st.opRan q o .KV_SLOT_RANGE 0 o.a
        else if b.base < s.snapLength b.seq then r.st.opRan q o .KV_OVERWRITE 0 o.a
        else match s.headOf b.seq b.layer b.head with
          | none => r.st.opInvalid q 0 o .FORMAT_INVALID 0
          | some (g, h) =>
            let n := 32 * h.width * b.w
            let (x, ins) := r.st.readAll (Reader.ofCore q) [(b.k, 4 * n), (b.v, 4 * n)]
            if x.code ≠ .OK then x.st.opRan q o x.code 0 x.addr
            else x.st.append q o b g h (f32s n (ins.getD 0 [])) (f32s n (ins.getD 1 [])))

end Sys2Proof.Machine
end

