-- ==== Sys2Proof/Machine/Attention.lean ====
section
/-! DEFINITION. Attention walks: the walk record, scores, the running softmax of a segment, the merge of segments, and recomputation (R213 to R228, R52). -/

namespace Sys2Proof.Machine

/-! ### The walk record (R213) -/

/-- Table 7-3. -/
structure WalkRec where
  seq : Nat
  layer : Nat
  head : Nat
  g : Nat
  width : Nat
  kind : Nat
  rows : Nat
  padded : Nat
  segments : Nat
  save : Bool
  recompute : Bool
  base : Nat
  q : Nat
  out : Nat
  stats : Nat
  tree : Nat
  c : F32
  skv : F32
  deriving DecidableEq, Repr, Inhabited

def parseWalk (loc : Nat → Nat) (bs : List Byte) : WalkRec :=
  { seq := fieldAt bs 0 4 % 2 ^ 20, layer := fieldAt bs 4 2, head := fieldAt bs 6 1, g := fieldAt bs 7 1, width := fieldAt bs 8 1
    kind := fieldAt bs 9 1 % 4, rows := fieldAt bs 10 2, padded := fieldAt bs 12 2, segments := fieldAt bs 14 1
    save := bitOf (fieldAt bs 15 1) 0, recompute := bitOf (fieldAt bs 15 1) 1, base := fieldAt bs 16 4
    q := loc (fieldAt bs 24 8), out := loc (fieldAt bs 32 8), stats := loc (fieldAt bs 40 8), tree := loc (fieldAt bs 48 8)
    c := BitVec.ofNat 32 (fieldAt bs 56 4), skv := BitVec.ofNat 32 (fieldAt bs 60 4) }

/-- BASE_POS, with 0xFFFF_FFFF for the snapshot LENGTH. -/
def State.walkBase (s : State) (r : WalkRec) : Nat := if r.base = 0xFFFFFFFF then s.snapLength r.seq else r.base

/-- The parents of a TREE's nodes. -/
def parentsOf (r : WalkRec) (bs : List Byte) : List Nat := (bs.take r.rows).map (·.toNat)

/-- R219: a parent list whose indices all lie below their nodes. -/
def parentsOk (ps : List Nat) : Bool := ps.zipIdx.all (fun x => x.1 == 0xFF || decide (x.1 < x.2))

/-- R213, R218, R219: the reason with which a record is refused, in the order of its fields. -/
def State.walkReason (s : State) (r : WalkRec) (bs : List Byte) (ps : List Nat) : Option Nat :=
  let field (bad : Bool) (o : Nat) : List Nat := if bad then [Config.fieldReason o] else []
  let h := s.headOf r.seq r.layer r.head
  let w := match h with | some x => x.2.width | none => 0
  let g := match h with | some x => x.2.groups | none => 0
  ((field (fieldAt bs 0 4 / 2 ^ 20 != 0) 0) ++ field (decide (4095 < r.layer)) 4 ++ field h.isNone 6
    ++ field (r.g == 0 || decide (16 < r.g) || r.g != g) 7 ++ field (r.width == 0 || decide (4 < r.width) || r.width != w) 8
    ++ field (r.kind == 3 || fieldAt bs 9 1 / 4 != 0) 9
    ++ field (r.rows == 0 || (r.kind == 0 && r.rows != 1) || (r.kind == 1 && decide (4096 < r.rows))) 10
    ++ (if r.kind = 2 ∧ (64 < r.rows ∨ !parentsOk ps) then [statusNumber .TREE_ORDER] else [])
    ++ field (decide (r.padded < r.rows) || decide (4096 < r.padded)) 12 ++ field (r.segments == 0 || decide (64 < r.segments)) 14
    ++ field (fieldAt bs 15 1 / 4 != 0) 15
    ++ (if (s.table r.seq).pages.length * 256 < s.walkBase r + r.rows then [statusNumber .KV_SLOT_RANGE] else [])
    ++ field (fieldAt bs 20 4 != 0) 20).head?

/-! ### Reading queries, keys and values -/

/-- A block of 32 codes with its unbiased exponent. -/
abbrev KvBlock := Int × List Int

/-- The vector of one position: its blocks. -/
abbrev KvVec := List KvBlock

/-- Codes of `n` elements at a byte width (R45, R49); a code that is never written reads as 0 (R52). -/
def kvUnpack (kv4 : Bool) (bs : List Byte) : List Nat := if kv4 then unpackCodes 0 bs else bs.map (·.toNat)
def kvBad (kv4 : Bool) (c : Nat) : Bool := if kv4 then c == 8 else c == 0x80
def kvCode (kv4 : Bool) (c : Nat) : Int := if kvBad kv4 c then 0 else signed (if kv4 then 4 else 8) c

/-- The vector of a position from its pitch of bytes and its exponents. -/
def kvVec (kv4 : Bool) (width : Nat) (bs es : List Byte) : KvVec :=
  let cs := kvUnpack kv4 bs
  (List.range width).map (fun b => (((es.getD b 0#8).toNat : Int) - 127, ((cs.drop (32 * b)).take 32).map (kvCode kv4)))

/-- Whether the exponents of a vector are ones that an engine computes with. -/
def kvExpsOk (width : Nat) (es : List Byte) : Bool := (es.take width).all (fun e => !badE8 e.toNat)

def kvBadCount (kv4 : Bool) (width : Nat) (bs : List Byte) : Nat := (((kvUnpack kv4 bs).take (32 * width)).filter (kvBad kv4)).length

/-- What the walker has of one page: its positions' keys and values, its bad codes, the first token with one. -/
structure KvPage where
  keys : List KvVec := []
  vals : List KvVec := []
  bad : Nat := 0
  firstBad : Nat := 0
  ok : Bool := true
  deriving DecidableEq, Repr, Inhabited

/-- What reading pages gives. -/
structure PageRd where
  st : State
  pages : List KvPage := []
  code : Code := .OK
  addr : Nat := 0

/-- A run of bytes cut into pieces of `n`. -/
def cut (n : Nat) : Nat → List Byte → List (List Byte)
  | 0, _ => []
  | k + 1, bs => bs.take n :: cut n k (bs.drop n)

/-- One page of `n` positions, read from the home M-die: exponents, K elements, V elements (R224). -/
def State.readPage (s : State) (q : Nat) (g : Image) (r : WalkRec) (x : PagePlace) (n : Nat) : PageRd :=
  let w := kvPitch g.kv4
  let (rd, ins) := s.readAll (Reader.ofCore q)
    [(x.exps, 4 * n), (x.exps + 1024, 4 * n), (x.elems, n * w), (x.elems + kvVArea g.kv4, n * w)]
  if rd.code ≠ .OK then { st := rd.st, code := rd.code, addr := rd.addr }
  else
    let ke := cut 4 n (ins.getD 0 [])
    let ve := cut 4 n (ins.getD 1 [])
    let kb := cut w n (ins.getD 2 [])
    let vb := cut w n (ins.getD 3 [])
    let bad := (kb.zip vb).map (fun p => kvBadCount g.kv4 r.width p.1 + kvBadCount g.kv4 r.width p.2)
    { st := rd.st
      pages := [{ keys := (kb.zip ke).map (fun p => kvVec g.kv4 r.width p.1 p.2), vals := (vb.zip ve).map (fun p => kvVec g.kv4 r.width p.1 p.2)
                  bad := bad.foldl (· + ·) 0, firstBad := (bad.findIdx? (· != 0)).getD 0
                  ok := (ke ++ ve).all (kvExpsOk r.width) }] }

/-- R52: bad codes are counted, and reported once per page per step. -/
def State.badCodes (s : State) (q : Nat) (r : WalkRec) (p : Nat) (x : KvPage) : State :=
  if x.bad = 0 then s
  else
    let key := [r.seq, r.layer, r.head, p]
    let s1 := s.bump (dieReg (coreDie q) Reg.KV_BAD_CODE) x.bad
    if s1.step.badPages.contains key then s1
    else { s1 with step := { s1.step with badPages := key :: s1.step.badPages } }.raise .KV_CODE_INVALID (Src.ofCore q) [p, x.firstBad]

/-- Pages in logical order; the first fault ends the walk (R227). -/
def State.readPages (s : State) (q : Nat) (g : Image) (h : ImageHead) (r : WalkRec) (last : Nat) : List Nat → PageRd
  | [] => { st := s }
  | p :: t =>
    match s.place r.seq p g h with
    | .error m => { st := s.raise .KV_PAGE_MISSING (Src.ofCore q) [r.seq, p, m], code := .KV_PAGE_MISSING }
    | .ok x =>
      let a := s.readPage q g r x (min 256 (last + 1 - 256 * p))
      if a.code ≠ .OK then a
      else
        let y := a.pages.headD {}
        let s1 := a.st.badCodes q r p y
        if !y.ok then { st := s1.raise .BAD_EXPONENT (Src.ofCore q) [x.exps], code := .KV_RANGE, addr := x.exps }
        else
          let z := State.readPages s1 q g h r last t
          { z with pages := y :: z.pages }

/-! ### Scores (R214) -/

/-- The query rows at Q_ADDR: the codes of ROWS_PADDED × G vectors, then their exponents (log 33). -/
def queryVecs (r : WalkRec) (bs : List Byte) : List KvVec :=
  let n := r.padded * r.g
  let w := 32 * r.width
  (List.range n).map (fun i => (List.range r.width).map (fun b =>
    (((bs.getD (n * w + i * r.width + b) 0#8).toNat : Int) - 127, ((bs.drop (i * w + 32 * b)).take 32).map (fun c => signed 8 c.toNat))))

/-- The score of a query and a key. -/
def score (c : F32) (q k : KvVec) : F32 :=
  let ds := (q.zip k).map (fun p => (((p.1.2.zip p.2.2).map (fun x => x.1 * x.2)).foldl (· + ·) 0, p.1.1 + p.2.1))
  let top := ds.foldl (fun a d => max a d.2) ((ds.headD (0, 0)).2)
  let acc := ds.foldl (fun (a : Int) d => if 40 < top - d.2 then a else a + d.1 * (2 ^ (40 - (top - d.2)).toNat : Nat)) 0
  F32.ofDyadic (acc * c.mant) (top - 40 + c.expo)

/-- The elements of a value vector: code × 2^e. -/
def valueElems (v : KvVec) : List F32 := v.flatMap (fun b => b.2.map (fun c => F32.ofDyadic c b.1))

/-! ### The walk (R216 to R219) -/

/-- Ancestor masks of a TREE (R219). -/
def ancestors (ps : List Nat) : List Nat :=
  ps.zipIdx.foldl (fun a x => a ++ [(if x.1 = 0xFF then 0 else a.getD x.1 0) ||| 2 ^ x.2]) []

/-- Whether row `i` sees position `x` (R218). -/
def sees (r : WalkRec) (base : Nat) (anc : List Nat) (i x : Nat) : Bool :=
  if r.kind = 2 then decide (x < base) || (decide (x - base < r.rows) && bitOf (anc.getD i 0) (x - base))
  else decide (x ≤ base + i)

/-- A row and head as it walks, with what it counts and whether it met range trouble. -/
structure RowRun where
  part : WalkPart := {}
  rescales : Nat := 0
  bad : Bool := false
  deriving DecidableEq, Repr, Inhabited

def F32.max2 (a b : F32) : F32 := if F32.lt a b then b else a

/-- The greatest of a page's scores. -/
def maxScore : List F32 → F32
  | [] => 0xFF800000#32
  | x :: r => r.foldl F32.max2 x

/-- One page of a segment (R216): `vis` are the page's visible positions with their scores and value vectors. -/
def walkPage (vis : List (F32 × List F32)) (a : RowRun) : RowRun :=
  if vis.isEmpty then a
  else
    let mb := maxScore (vis.map (·.1))
    let p := a.part
    let a1 : RowRun :=
      if F32.lt p.m mb then
        (if F32.lt 0#32 p.l then
          let r := F32.exp (F32.sub p.m mb)
          { a with part := { m := mb, l := F32.mul p.l r, o := p.o.map (fun v => F32.mul v r) }, rescales := a.rescales + 1 }
        else { a with part := { p with m := mb } })
      else a
    let p2 := vis.foldl (fun (p : WalkPart) x =>
      let w := F32.exp (F32.sub x.1 p.m)
      { p with l := F32.add p.l w, o := (p.o.zip x.2).map (fun y => F32.fma w y.2 y.1) }) a1.part
    { a1 with part := p2, bad := a.bad || vis.any (fun x => !x.1.isFinite || x.2.any (fun v => !v.isFinite)) || !F32.isFinite p2.l || p2.o.any (fun v => !F32.isFinite v) }

/-- What one row and head sees of a page. -/
def visible (r : WalkRec) (base : Nat) (anc : List Nat) (i p : Nat) (qv : KvVec) (x : KvPage) : List (F32 × List F32) :=
  (x.keys.zip x.vals).zipIdx.filterMap (fun y =>
    if sees r base anc i (256 * p + y.2) then some (score r.c qv y.1.1, valueElems y.1.2) else none)

/-- R221: first page and page count of each of `k` segments of `n` pages. -/
def segmentsOf (n k : Nat) : List (Nat × Nat) :=
  (List.range k).map (fun j => (j * (n / k) + min j (n % k), n / k + (if j < n % k then 1 else 0)))

/-- One segment for every row and head of the walk. -/
def walkSegment (r : WalkRec) (base : Nat) (anc : List Nat) (qs : List KvVec) (pages : List KvPage) (seg : Nat × Nat) : List RowRun :=
  (List.range (r.rows * r.g)).map (fun j =>
    let qv := qs.getD j []
    (List.range seg.2).foldl (fun a k => walkPage (visible r base anc (j / r.g) (seg.1 + k) qv (pages.getD (seg.1 + k) {})) a)
      { part := { o := List.replicate (32 * r.width) 0#32 } })

/-- R222: a partial merges into segment 0's. -/
def mergePart (p k : WalkPart) : WalkPart :=
  if F32.isZero k.l then p
  else
    let m2 := F32.max2 p.m k.m
    let p1 : WalkPart := if F32.lt p.m m2 && F32.lt 0#32 p.l then
        let r := F32.exp (F32.sub p.m m2)
        { p with l := F32.mul p.l r, o := p.o.map (fun v => F32.mul v r) }
      else p
    let k1 : WalkPart := if F32.lt k.m m2 then
        let r := F32.exp (F32.sub k.m m2)
        { k with l := F32.mul k.l r, o := k.o.map (fun v => F32.mul v r) }
      else k
    { m := m2, l := F32.add p1.l k1.l, o := (p1.o.zip k1.o).map (fun x => F32.add x.1 x.2) }

def WalkPart.ok (p : WalkPart) : Bool := F32.isFinite p.l && p.o.all F32.isFinite

/-- R217: the outputs of a row and head, or none where a magnitude exceeds binary32. -/
def finishPart (skv : F32) (p : WalkPart) : Option (List F32) :=
  let f := F32.div skv p.l
  let y := p.o.map (fun v => F32.mul v f)
  if f.isFinite && y.all F32.isFinite then some y else none

/-! ### Faults and ends (R217, R220, R227) -/

/-- A walk that meets a fault writes no output and releases no completion: its sequencer faults (R227, R312; log 46). -/
def State.walkFault (s : State) (q : Nat) (o : Op) (r : WalkRec) (c : Code) (addr : Nat) : State :=
  let s1 := { s.bump (dieReg (coreDie q) Reg.ATT_FAULT_TOTAL) 1 with walks := Tab.set s.walks q none }
  let s2 := if c = .KV_RANGE then s1.kvTrouble r.seq r.layer else if c = .KV_PAGE_MISSING then s1.trouble r.seq rsKvMissing [r.layer] else s1
  s2.opRan q o c 0 addr

/-- The 16-byte stats header. -/
def State.statsHeader (s : State) (r : WalkRec) : List Byte :=
  leBytes 4 (s.table r.seq).gen ++ leBytes 4 (s.walkBase r) ++ leBytes 2 r.rows ++ leBytes 2 r.layer ++ leBytes 1 r.head ++ leBytes 3 0

/-- The walk ends: outputs, padded rows as zeros, and the statistics (R217, R220). -/
def State.walkEnd (s : State) (q : Nat) (o : Op) (r : WalkRec) (ps : List WalkPart) : State :=
  let ys := ps.map (finishPart r.skv)
  if ys.any (·.isNone) then s.walkFault q o r .KV_RANGE r.out
  else
    let pad := (r.padded - r.rows) * r.g
    let w := s.write (Src.ofCore q) {} r.out (ys.flatMap (fun y => (y.getD []).flatMap (fun v => leBytes 4 v.toNat)) ++ leBytes (pad * 128 * r.width) 0)
    if w.code ≠ .OK then { w.st with walks := Tab.set w.st.walks q none }.opRan q o w.code 0 w.addr
    else
      let w2 := if r.save then w.st.write (Src.ofCore q) {} r.stats (w.st.statsHeader r ++ ps.flatMap (fun p => leBytes 4 p.m.toNat ++ leBytes 4 p.l.toNat)
          ++ (List.range pad).flatMap (fun _ => leBytes 4 0xFF800000 ++ leBytes 4 0)) else w
      if w2.code ≠ .OK then { w2.st with walks := Tab.set w2.st.walks q none }.opRan q o w2.code 0 w2.addr
      else
        let s1 := (w2.st.bump (dieReg (coreDie q) Reg.ATT_WALK_TOTAL) 1).bump (dieReg (coreDie q) Reg.ATT_PAD_ROW_TOTAL) (r.padded - r.rows)
        { s1 with walks := Tab.set s1.walks q none }.opRan q o .OK 0 0

/-- R228: the probabilities of a RECOMPUTE walk from the stats that an earlier walk saved. -/
def State.recompute (s : State) (q : Nat) (o : Op) (r : WalkRec) (anc : List Nat) (qs : List KvVec) (pages : List KvPage) : State :=
  let base := s.walkBase r
  let n := base + r.rows
  let rd := s.read (Reader.ofCore q) r.stats (16 + 8 * r.padded * r.g)
  if rd.code ≠ .OK then rd.st.opRan q o rd.code 0 rd.addr
  else if rd.bytes.take 13 ≠ (s.statsHeader r).take 13 then rd.st.opRan q o .ATT_STATS_STALE 0 r.stats
  else
    let row (j : Nat) : List F32 :=
      let m : F32 := BitVec.ofNat 32 (fieldAt rd.bytes (16 + 8 * j) 4)
      let l : F32 := BitVec.ofNat 32 (fieldAt rd.bytes (20 + 8 * j) 4)
      let inv := F32.div 0x3F800000#32 l
      (List.range n).map (fun x =>
        if sees r base anc (j / r.g) x then
          F32.mul (F32.exp (F32.sub (score r.c (qs.getD j []) ((pages.getD (x / 256) {}).keys.getD (x % 256) [])) m)) inv
        else 0#32)
    let ys := (List.range (r.rows * r.g)).flatMap row
    let w := rd.st.write (Src.ofCore q) {} r.out (ys.flatMap (fun v => leBytes 4 v.toNat) ++ leBytes ((r.padded - r.rows) * r.g * n * 4) 0)
    if w.code ≠ .OK then w.st.opRan q o w.code 0 w.addr
    else ((w.st.bump (dieReg (coreDie q) Reg.ATT_WALK_TOTAL) 1).bump (dieReg (coreDie q) Reg.ATT_PAD_ROW_TOTAL) (r.padded - r.rows)).opRan q o .OK 0 0

/-- The walk of a checked record (R216, R221). -/
def State.walk (s : State) (q : Nat) (o : Op) (bs : List Byte) (r : WalkRec) (g : Image) (h : ImageHead) (ps : List Nat) : State :=
  let base := s.walkBase r
  let last := base + r.rows - 1
  let np := last / 256 + 1
  let rq := s.read (Reader.ofCore q) r.q (r.padded * r.g * 33 * r.width)
  if rq.code ≠ .OK then rq.st.opRan q o rq.code 0 rq.addr
  else
    let qs := queryVecs r rq.bytes
    let rp := rq.st.readPages q g h r last (List.range np)
    if rp.code ≠ .OK then rp.st.walkFault q o r rp.code rp.addr
    else
      let anc := ancestors ps
      if r.recompute then rp.st.recompute q o r anc qs rp.pages
      else
        let segs := (segmentsOf np (min r.segments np)).map (walkSegment r base anc qs rp.pages)
        let s1 := rp.st.bump (dieReg (coreDie q) Reg.ATT_RESCALE_TOTAL) ((segs.flatMap (fun x => x.map (·.rescales))).foldl (· + ·) 0)
        if segs.any (fun x => x.any (·.bad)) then s1.walkFault q o r .KV_RANGE r.q
        else
          let parts := segs.map (fun x => x.map (·.part))
          match parts with
          | [] => s1
          | p :: t =>
            if t.isEmpty then s1.walkEnd q o r p
            else { s1 with walks := Tab.set s1.walks q (some { op := o, record := bs, own := p, rest := t }) }

/-- The ATT_WALK at the head of a core's D-engine queue: its record is checked and its segments walk. -/
def execAttWalkOp (q : Nat) (s : State) : Host.Outcome State Fault Refusal :=
  .next (match (s.seq q).next .dEng 0x18 with
    | none => s
    | some o =>
      if (Tab.get s.walks q).isSome then s
      else
        let rd := s.read (Reader.ofCore q) o.a 64
        if rd.code ≠ .OK then rd.st.opRan q o rd.code 0 rd.addr
        else
          let r := parseWalk s.loc rd.bytes
          let rt := if r.kind = 2 then rd.st.read (Reader.ofCore q) r.tree 64 else { st := rd.st }
          if rt.code ≠ .OK then rt.st.opRan q o rt.code 0 rt.addr
          else
            let ps := parentsOf r rt.bytes
            match rt.st.walkReason r rd.bytes ps, rt.st.headOf r.seq r.layer r.head with
            | none, some (g, h) => rt.st.walk q o rd.bytes r g h ps
            | some c, _ => rt.st.opRan q o .ATT_RECORD_INVALID c o.a
            | none, none => rt.st.opRan q o .ATT_RECORD_INVALID (Config.fieldReason 6) o.a)

/-- Segment 0's D-engine merges the next partial; after the last the walk ends (R222). -/
def execSegmentMerge (q : Nat) (s : State) : Host.Outcome State Fault Refusal :=
  .next (match Tab.get s.walks q with
    | none => s
    | some w =>
      let r := parseWalk s.loc w.record
      match w.rest with
      | [] => s
      | k :: t =>
        let p := (w.own.zip k).map (fun x => mergePart x.1 x.2)
        let s1 := s.bump (dieReg (coreDie q) Reg.ATT_MERGE_TOTAL) (if k.all (fun x => F32.isZero x.l) then 0 else 1)
        if !p.all WalkPart.ok then s1.walkFault q w.op r .KV_RANGE r.out
        else if t.isEmpty then s1.walkEnd q w.op r p
        else { s1 with walks := Tab.set s1.walks q (some { w with own := p, rest := t }) })

end Sys2Proof.Machine
end

