-- ==== Sys2Proof/Machine/Serving.lean ====
section
/-! DEFINITION. Request and adapter descriptors, the moves of the Peat tier and its timers, and the steward (R230 to R254, R274 to R276). -/

namespace Sys2Proof.Machine

/-! ### The parameter block (R275) -/

/-- Table 9-7. -/
structure Params where
  image : Nat
  ref : Bool
  refRung : Nat
  draftMode : Nat
  policy : Nat
  keepPeat : Bool
  priority : Nat
  target : Nat
  slot : Nat
  noAdapter : Bool
  topK : Nat
  maxLength : Nat
  temp : BitVec 32
  deadline : Nat
  seed : Nat
  hostTag : Nat
  ttl : Nat
  hold : Nat
  reserved : Bool
  deriving DecidableEq, Repr, Inhabited

def parseParams (bs : List Byte) : Params :=
  let b2 := fieldAt bs 2 1
  let b3 := fieldAt bs 3 1
  let a := fieldAt bs 4 2
  { image := fieldAt bs 0 2, ref := bitOf b2 0, refRung := bitsOf b2 1 1, draftMode := bitsOf b2 2 2, policy := bitsOf b2 4 2, keepPeat := bitOf b2 6
    priority := bitsOf b3 0 3, target := bitsOf b3 3 3, slot := bitsOf a 0 10, noAdapter := bitOf a 15, topK := fieldAt bs 6 2
    maxLength := fieldAt bs 8 4, temp := BitVec.ofNat 32 (fieldAt bs 12 4), deadline := fieldAt bs 16 8, seed := fieldAt bs 24 8
    hostTag := fieldAt bs 32 8, ttl := fieldAt bs 40 4, hold := fieldAt bs 44 4
    reserved := bitOf b2 7 || decide (64 ≤ b3) || bitsOf a 10 5 != 0 || (bs.drop 48).any (· != 0#8) || bitsOf b2 2 2 == 3 || bitsOf b2 4 2 == 3 }

/-- A token list in host memory (R274). -/
def State.tokens (s : State) (a n : Nat) : List Nat := chunkNats 4 n (s.hostRead a (4 * n))

/-- The first CLOSED entry of R232: on the M-die with the most, at its lowest local index. -/
def State.freeReq (s : State) : Option Nat :=
  let used (m : Nat) : Nat := (s.reqs.filter (fun e => e.1 % 4 == m && e.2.st != .closed)).length
  let m := (List.range 4).foldl (fun a m => if used m < used a then m else a) 0
  if 262144 ≤ used m then none
  else ((List.range (used m + 1)).map (fun n => 4 * n + m)).find? (fun i => (s.req i).st == .closed)

/-- What refuses an open (Table 8-6, R254); the block's fields keep the ranges of Table 8-1 (log 47). -/
def State.openStatus (s : State) (p : Params) (count : Nat) : Code :=
  if p.reserved then .DESC_FORMAT
  else match s.image p.image with
    | none => .IMAGE_ABSENT
    | some g =>
      if g.context < p.maxLength ∨ p.maxLength < count ∨ 1024 < p.topK ∨ !(p.temp == 0#32 || F32.isScale p.temp) then .REQUEST_RANGE
      else if !p.noAdapter && (s.adapter p.slot).retiring then .ADAPTER_RETIRING
      else if s.freeReq.isNone then .REQUEST_TABLE_FULL
      else .OK

/-- The entry that an open fills. -/
def Params.fill (p : Params) (r : Req) (chan : Nat) (input : List Nat) : Req :=
  { incarnation := if r.used then (r.incarnation + 1) % 4096 else r.incarnation, used := true, st := .opened, ref := p.ref, refRung := p.refRung
    priority := p.priority, policy := p.policy, draftMode := p.draftMode, peatTarget := p.target, chan := chan, keepPeat := p.keepPeat
    slot := p.slot, noAdapter := p.noAdapter, image := p.image, maxLength := p.maxLength, deadline := p.deadline, seed := p.seed, temp := p.temp
    topK := p.topK, ttl := p.ttl, hold := p.hold, hostTag := p.hostTag, input := input }

/-- REQUEST OPEN. -/
def execRequestOpen (h : Hdr) (params tokens count : Nat) (s : State) : Host.Outcome State Fault Refusal :=
  .next (s.descriptor h clsRequest fun s d =>
    let p := parseParams (s.hostRead params 64)
    let c := s.openStatus p count
    match s.freeReq with
    | some i =>
      if c = .OK then
        let s1 := s.setReq i (p.fill (s.req i) h.chan (s.tokens tokens count))
        s1.finish d .OK (s1.handle i) 0
      else s.finish d c 0 0
    | none => s.finish d c 0 0)

/-! ### Operations on a handle (R232, R234, R276) -/

/-- The refusal of an operation before its own: a stale handle, another channel, a state not listed. -/
def State.handleStatus (s : State) (chan handle : Nat) (anyChan : Bool) (ok : Req → Bool) : Code :=
  let r := s.req (handle % 2 ^ 20)
  if r.incarnation ≠ handle / 2 ^ 20 then .REQUEST_STALE
  else if r.st ≠ .closed ∧ r.chan ≠ chan ∧ !anyChan then .REQUEST_CHANNEL
  else if !ok r then .REQUEST_STATE
  else .OK

/-- A REQUEST descriptor that names a handle: refused, or performed on its entry by `k`, which gives the state and the completion's status. -/
def State.onRequest (s : State) (h : Hdr) (handle : Nat) (ok : Req → Bool) (k : State → Nat → State × Code) (anyChan : Bool := false) : State :=
  s.descriptor h clsRequest fun s d =>
    let c := s.handleStatus h.chan handle anyChan ok
    if c = .OK then (k s (handle % 2 ^ 20)).1.finish d (k s (handle % 2 ^ 20)).2 0 0 else s.finish d c 0 0

/-- REQUEST APPEND. -/
def execRequestAppend (h : Hdr) (handle : Nat) (keep : Bool) (tokens count : Nat) (s : State) : Host.Outcome State Fault Refusal :=
  .next (s.onRequest h handle (fun r => r.st == .opened || r.st == .ember || r.st == .peat) fun s i =>
    let r := s.req i
    let held := (r.late.map (fun x => x.2.length)).foldl (· + ·) 0
    if r.maxLength < r.length + (if keep && r.token.isSome then 1 else 0) + r.input.length + held + count then (s, .REQUEST_RANGE)
    else
      let ts := s.tokens tokens count
      (s.setReq i (if r.st = .peat then { r with late := r.late ++ [(keep, ts)] }
                   else { r with input := r.input ++ ts, token := if keep then r.token else none }), .OK))

/-- The nodes of a draft tree in host memory: parent and token, 8 bytes each. -/
def State.treeNodes (s : State) (a n : Nat) : List (Nat × Nat) :=
  (cut 8 n (s.hostRead a (8 * n))).map (fun b => (fieldAt b 0 1, fieldAt b 4 4))

/-- R241: a node count of 1 to 64, node 0's parent 0xFF and every other parent below its node. -/
def treeOk (ns : List (Nat × Nat)) : Bool :=
  !ns.isEmpty && decide (ns.length ≤ 64) && ns.zipIdx.all (fun x => if x.2 = 0 then x.1.1 == 0xFF else decide (x.1.1 < x.2))

/-- REQUEST DRAFT. -/
def execRequestDraft (h : Hdr) (handle forLength nodes tree : Nat) (s : State) : Host.Outcome State Fault Refusal :=
  .next (s.onRequest h handle (fun r => r.st == .active && r.draftMode == 1) fun s i =>
    let ns := s.treeNodes tree nodes
    if !treeOk ns then (s, .TREE_ORDER) else (s.setReq i { s.req i with tree := some { forLength := forLength, nodes := ns } }, .OK))

/-- REQUEST PAUSE: a request that is ACTIVE pauses at the next step boundary; the move to the Peat tier starts there. -/
def execRequestPause (h : Hdr) (handle : Nat) (toPeat : Bool) (target ttl hold : Nat) (s : State) : Host.Outcome State Fault Refusal :=
  .next (s.onRequest h handle (fun r => r.st == .active || r.st == .ember) fun s i =>
    let r := s.req i
    if (toPeat || hold != 0) && !s.peatEnabled target then (s, .PEAT_TARGET_DISABLED)
    else if toPeat && r.tier != .moving && (s.peatFit i target).isNone then (s, .PEAT_FULL)
    else if r.tier = .moving then (s.setReq i { r with ttl := ttl, hold := hold, reason := rsHost }, .OK)
    else (s.setReq i { r with peatTarget := target, ttl := ttl, hold := hold, wantMove := toPeat, wantPause := r.st == .active
                              reason := if r.st = .active then r.reason else rsHost }, .OK))

/-- R250 step 1: the cells and slots that a resumption needs are short. -/
def State.resumeShort (s : State) (i : Nat) : Bool :=
  match s.image (s.req i).image with
  | some g => !(s.short i (((s.req i).length + 255) / 256) g).isEmpty
  | none => true

/-- R250 steps 1 and 2: cells and slots are taken, and RESTORE is applied with TIER at MOVING and a read hold. -/
def State.startResume (s : State) (i : Nat) (d : Desc) (keepPeat : Bool) : State :=
  match s.image (s.req i).image with
  | none => s
  | some g =>
    let x := s.takePages g.mdies (((s.req i).length + 255) / 256)
    let t := x.2.table i
    let s1 := x.2.setTable i { t with valid := true, pages := x.1, length := (s.req i).length, draft := 0, tier := .moving, holds := [t.gen], edits := [.restore] }
    s1.setReq i { s1.req i with resuming := some d, keepPeat := keepPeat, tier := .moving, checked := false }

/-- REQUEST RESUME. From the Peat tier the descriptor completes when the image has been checked. -/
def execRequestResume (h : Hdr) (handle : Nat) (keepPeat : Bool) (s : State) : Host.Outcome State Fault Refusal :=
  .next (s.descriptor h clsRequest fun s d =>
    let i := handle % 2 ^ 20
    let owner := (s.chan (s.req i).chan).st
    let c := s.handleStatus h.chan handle (owner == .closed || owner == .error) (fun r => r.st == .ember || (r.st == .peat && r.resuming.isNone))
    if c ≠ .OK then s.finish d c 0 0
    else
      let s1 := s.setReq i { s.req i with chan := h.chan }
      if (s.req i).st = .ember then
        let s2 := s1.stopMove i
        (s2.setReq i { s2.req i with wantResume := true }).finish d .OK 0 0
      else if s1.resumeShort i then s.finish d .EMBER_FULL 0 0
      else s1.startResume i d keepPeat)

/-- Seconds in ticks of the steward counter (R27). -/
abbrev tickSecond : Nat := 1000000000

/-- REQUEST RENEW. -/
def execRequestRenew (h : Hdr) (handle ttl : Nat) (s : State) : Host.Outcome State Fault Refusal :=
  .next (s.onRequest h handle (fun r => r.st == .peat || r.st == .expired || (r.st == .ember && r.tier == .moving)) fun s i =>
    let r := s.req i
    if r.st = .expired then (s, .REQUEST_EXPIRED)
    else (s.setReq i { r with ttl := ttl, warned := false, expiry := if r.st = .peat then s.time.tick + ttl * tickSecond else r.expiry }, .OK))

/-- The token at position `l`, from TOKEN_RING or the descriptor (R244). -/
def rewindToken (r : Req) (l token : Nat) (valid : Bool) : Option (Option Nat) :=
  if l = r.length ∧ r.token.isNone then some none
  else if r.length ≤ l + 479 then some (some (Tab.get r.ring (l % 480)))
  else if valid then some (some token)
  else none

/-- REQUEST REWIND. -/
def execRequestRewind (h : Hdr) (handle position token : Nat) (valid : Bool) (s : State) : Host.Outcome State Fault Refusal :=
  .next (s.onRequest h handle (fun r => r.st == .active || r.st == .ember) fun s i =>
    let r := s.req i
    match (if r.length < position then none else rewindToken r position token valid) with
    | some t => (s.setReq i { r with wantRewind := some (position, t) }, .OK)
    | none => (s, .REWIND_RANGE))

/-- REQUEST MIGRATE. -/
def execRequestMigrate (h : Hdr) (handle : Nat) (s : State) : Host.Outcome State Fault Refusal :=
  .next (s.onRequest h handle (fun r => r.st == .active || r.st == .ember || r.st == .peat) fun s i =>
    let r := s.req i
    if r.noAdapter || (s.adapter r.slot).live.isEmpty then (s, .ADAPTER_NONE) else (s.setReq i { r with migrate := true }, .OK))

/-- REQUEST CLOSE: a transfer stops at once, the request closes at the next step boundary. -/
def execRequestClose (h : Hdr) (handle : Nat) (s : State) : Host.Outcome State Fault Refusal :=
  .next (s.onRequest h handle (fun r => r.st != .closed) fun s i =>
    let s1 := match (s.req i).resuming with
      | some d => (s.stopResume i).finish d .REQUEST_CLOSED 0 0
      | none => s.stopMove i
    (s1.setReq i { s1.req i with wantClose := true }, .OK))

/-- REQUEST QUERY. -/
def execRequestQuery (h : Hdr) (handle buffer : Nat) (s : State) : Host.Outcome State Fault Refusal :=
  .next (s.onRequest h handle (fun _ => true) (fun s i => (s.hostPut buffer ((s.req i).entry i ++ (s.table i).header i), .OK)) true)

/-! ### Moves to the Peat tier (R245 to R248) -/

/-- A move fails: it stops, and is reported with the target and the status. -/
def State.moveFailed (s : State) (i status : Nat) : State :=
  (s.stopMove i).raise .PEAT_MOVE_FAILED Src.steward [s.handle i, (s.req i).peatTarget, status]

/-- R248 step 1: the extent, TIER at MOVING and the read hold. -/
def State.startMove (s : State) (i : Nat) : State :=
  let r := s.req i
  let t := s.table i
  let s0 := s.setReq i { r with wantMove := false }
  if !s.peatEnabled r.peatTarget then s0.moveFailed i (statusNumber .PEAT_TARGET_DISABLED)
  else match s.peatFit i r.peatTarget with
    | none => s0.moveFailed i (statusNumber .PEAT_FULL)
    | some (ofs, units) =>
      if t.holdStatus ≠ .OK then s0.moveFailed i (statusNumber t.holdStatus)
      else
        let s1 := s0.setTable i { t with tier := .moving, holds := t.gen :: t.holds }
        s1.setReq i { r with wantMove := false, tier := .moving, peatOfs := ofs, peatUnits := units, moved := false }

/-- EMBER_HOLD seconds after a pause with a Peat target named. -/
def execEmberHold (i : Nat) (s : State) : Host.Outcome State Fault Refusal :=
  .next (let r := s.req i
    if r.st = .ember ∧ r.tier = .ember ∧ r.hold ≠ 0 ∧ s.peatEnabled r.peatTarget ∧ r.pauseTick + r.hold * tickSecond ≤ s.time.tick then s.startMove i else s)

/-- R248 steps 2 and 3: every unit is acknowledged; the digests and the copies are written. What a GLOSA target holds lies outside the module (log 48). -/
def execPeatMoveDone (i : Nat) (s : State) : Host.Outcome State Fault Refusal :=
  .next (let r := s.req i
    match s.image r.image with
    | some g =>
      if r.st = .ember ∧ r.tier = .moving ∧ !r.moved then
        let ds := (s.unitList i g).map (fun u => dig48 (Config.sha384 (s.unitData i u.1 g u.2)))
        let img := s.peatImage i g
        let r1 := { r with kvDigest := dig48 (kvDigestOf ds), recDigest := dig48 (recDigestOf (r.entry i) r.companion), moved := true }
        let s1 := s.setReq i r1
        if s.peatKind r.peatTarget = 2 then s1.hostPut (s.peatAddr r.peatTarget + r.peatOfs) img else s1
      else s
    | none => s)

/-- A write to the target failed, was refused, or found its window closed; `status` is what it met. -/
def execPeatMoveFailed (i status : Nat) (s : State) : Host.Outcome State Fault Refusal :=
  .next (let r := s.req i
    if r.st = .ember ∧ r.tier = .moving ∧ !r.moved then s.moveFailed i status else s)

/-- WARN_LEAD and STEWARD_TIMEOUT (Table 8-12). -/
def State.warnLead (s : State) : Nat := s.fld (memReg 0 Reg.SERVE_TIME_CFG) 0 16
def State.stewardTimeout (s : State) : Nat := s.fld (memReg 0 Reg.SERVE_TIME_CFG) 16 8

/-- R249: the expiry warning. -/
def State.warnExpiry (s : State) (i : Nat) : State :=
  (s.setReq i { s.req i with warned := true }).raise .PEAT_EXPIRY_WARNING Src.steward [s.handle i, (s.req i).expiry]

def execPeatExpiryWarning (i : Nat) (s : State) : Host.Outcome State Fault Refusal :=
  .next (let r := s.req i
    if r.st = .peat ∧ !r.warned ∧ r.expiry ≤ s.time.tick + s.warnLead * tickSecond then s.warnExpiry i else s)

/-- R249: the request expires. -/
def State.expire (s : State) (i : Nat) : State :=
  let s1 := (s.unpin i).releaseExtent i
  ((s1.setReq i { s1.req i with st := .expired, token := none }).requestEvent i .REQUEST_EXPIRED 0 s.time.tick).bump
    (memReg (reqMdie i) Reg.PEAT_EXPIRED_TOTAL) 1

def execRequestExpired (i : Nat) (s : State) : Host.Outcome State Fault Refusal :=
  .next (let r := s.req i
    if r.st = .peat ∧ r.resuming.isNone ∧ !r.checked ∧ r.expiry ≤ s.time.tick then s.expire i else s)

/-! ### Resumption from the Peat tier (R250) -/

/-- The four runs of one unit's data written into its page. -/
def State.putUnit (s : State) (i p : Nat) (g : Image) (h : ImageHead) (bs : List Byte) : State :=
  match s.place i p g h with
  | .error _ => s
  | .ok x =>
    let n := min 256 ((s.req i).length - 256 * p)
    let w := kvPitch g.kv4
    let runs := (List.range 4).flatMap (fun j => (List.range n).map (fun t => ((x.runs g.kv4 t).getD j (0, 0)).1))
    let sizes := List.replicate (2 * n) w ++ List.replicate (2 * n) 4
    ((runs.zip sizes).foldl (fun (a : State × List Byte) r => (a.1.putBytes r.1 (a.2.take r.2), a.2.drop r.2)) (s, bs)).1

/-- Bytes of one unit. -/
def State.unitBytes (s : State) (i p : Nat) (kv4 : Bool) : Nat := min 256 ((s.req i).length - 256 * p) * (2 * kvPitch kv4 + 8)

/-- What a check of an image gives: the state with its pages written, and the number of the first disagreeing unit, of the record, or none. -/
def State.checkImage (s : State) (i : Nat) (g : Image) (img : List Byte) : State × Option Nat :=
  let r := s.req i
  let us := s.unitList i g
  let body := us.foldl (fun (a : State × List Byte × List (List Byte)) u =>
      let n := a.1.unitBytes i u.1 g.kv4
      let bs := a.2.1.take n
      (a.1.putUnit i u.1 g u.2 bs, a.2.1.drop n, a.2.2 ++ [dig48 (Config.sha384 bs)])) (s, img.drop (2432 + 48 * us.length), [])
  let ds := body.2.2
  let bad := (List.range us.length).find? (fun n => ds.getD n [] != (img.drop (2432 + 48 * n)).take 48)
  let kd := dig48 (kvDigestOf ds)
  let rd := dig48 (recDigestOf (r.entry i) r.companion)
  let agree := kd == r.kvDigest && kd == (img.drop 16).take 48 && rd == r.recDigest && rd == (img.drop 64).take 48
  (body.1, match bad with | some n => some n | none => if agree then none else some us.length)

/-- A resumption fails: what it took is freed, the image stays, and a request past its expiry expires at once (R250, R251). -/
def State.resumeFailed (s : State) (i arg : Nat) (d : Desc) : State :=
  let s1 := (((s.stopResume i).requestEvent i .RESUME_FAILED arg s.time.tick).bump (memReg (reqMdie i) Reg.RESUME_FAIL_TOTAL) 1).finish d .RESUME_FAILED arg 0
  if (s1.req i).expiry ≤ s1.time.tick then s1.expire i else s1

/-- The image is read back and checked. `readStatus` is the read's status, 0 when it succeeded; `image` is what a GLOSA target returned, and a CXL_HOST image is read from host memory. -/
def execResumptionChecked (i readStatus : Nat) (image : List Byte) (s : State) : Host.Outcome State Fault Refusal :=
  .next (let r := s.req i
    match r.resuming, s.image r.image with
    | some d, some g =>
      if readStatus ≠ 0 then s.resumeFailed i readStatus d
      else
        let img := if s.peatKind r.peatTarget = 2 then s.hostRead (s.peatAddr r.peatTarget + r.peatOfs) (s.peatBytes i) else image
        let (s1, bad) := s.checkImage i g img
        (match bad with
         | some n => s1.resumeFailed i n d
         | none => (s1.setReq i { s1.req i with resuming := none, checked := true }).finish d .OK 0 0)
    | _, _ => s)

/-! ### Adapters (R252 to R254, Table 9-8) -/

/-- The status of an install. -/
def State.installStatus (s : State) (slot : Nat) (regions : List ImageRegion) : Code :=
  let x := s.adapter slot
  if 1023 < slot then .DESC_FORMAT
  else if x.retiring then .ADAPTER_RETIRING
  else if 4 ≤ x.live.length + (if x.next.isSome then 1 else 0) then .ADAPTER_VERSIONS_FULL
  else ((regions.map (fun r => s.regionStatus (coreKey r.die r.cluster r.core) { base := r.base, tiles := r.tiles })).find? (· != .OK)).getD .OK

/-- ADAPTER INSTALL: the package goes to HBM at `home`, which the TX8 chooses; its regions are declared RESIDENT with their sources there and loaded. -/
def execAdapterInstall (h : Hdr) (slot source length home : Nat) (regions : List ImageRegion) (s : State) : Host.Outcome State Fault Refusal :=
  .next (s.descriptor h clsAdapter fun s d =>
    let c := s.installStatus slot regions
    if c ≠ .OK then s.finish d c 0 0
    else
      let x := s.adapter slot
      let v := (x.last + 1) % 2 ^ 16
      let s1 := s.writePieces (fun _ => {}) (s.hostRead source length) (piecesOf home length)
      let s2 := regions.foldl (fun s r =>
        let q := coreKey r.die r.cluster r.core
        let a := r.source.getD home
        (s.declare q { base := r.base, tiles := r.tiles, resident := true, hasSource := true, source := a, owner := adapterOwner slot v }).copy
          (Reader.ofCluster (q / 8)) a (coreBase q + r.base) (4096 * r.tiles) |>.st) s1
      (s2.setAdapter slot { x with last := v, next := some { number := v } }).finish d .OK v 0)

/-- ADAPTER REMOVE. -/
def execAdapterRemove (h : Hdr) (slot : Nat) (s : State) : Host.Outcome State Fault Refusal :=
  .next (s.descriptor h clsAdapter fun s d =>
    if 1023 < slot then s.finish d .DESC_FORMAT 0 0 else (s.setAdapter slot { s.adapter slot with retiring := true }).finish d .OK 0 0)

/-- One 8-byte record of ADAPTER QUERY. -/
def Adapter.record (x : Adapter) (i : Nat) : List Byte :=
  match x.live[i]? with
  | some v => leBytes 2 v.number ++ leBytes 4 v.pins ++ leBytes 2 (1 + 2 * b2n (i + 1 == x.live.length) + 4 * b2n x.retiring)
  | none => leBytes 6 0 ++ leBytes 2 (4 * b2n x.retiring)

/-- ADAPTER QUERY. -/
def execAdapterQuery (h : Hdr) (slot buffer : Nat) (s : State) : Host.Outcome State Fault Refusal :=
  .next (s.descriptor h clsAdapter fun s d =>
    if 1023 < slot then s.finish d .DESC_FORMAT 0 0
    else (s.hostPut buffer ((List.range 4).flatMap (s.adapter slot).record)).finish d .OK 0 0)

/-! ### The steward (R30, R235, R236) -/

/-- The heartbeat word, every 100 µs. -/
def execStewardHeartbeat (s : State) : Host.Outcome State Fault Refusal :=
  .next { s with step := { s.step with heartbeat := s.time.tick } }

/-- Every 1 ms the standby steward receives the active value (R30). -/
def execStewardCounterSync (s : State) : Host.Outcome State Fault Refusal :=
  .next { s with time := { s.time with standby := s.time.tick } }

/-- A die other than the steward's that has a cluster in service for the standby (R235). -/
def State.standbyDie (s : State) : Option Nat :=
  let out (d : Nat) : Bool := s.fits d && d != s.stewardDie && (s.agentCluster d).isSome
  if out 4 then some 4 else (List.range 8).find? out

/-- The standby takes over: a step whose journal is incomplete is abandoned and delivers nothing, a committed one is kept; the counter never goes back (R30, R236). -/
def State.takeOver (s : State) : State :=
  let t := s.step
  let old := s.time.lastStamp
  let tick := max s.time.standby (old + 1)
  let lost := t.running && !t.committed
  let s1 := if lost then s.dropStep else s
  let s2 := { s1 with
    time := { s1.time with tick := max tick s1.time.standby }
    step := { s1.step with standby := !t.standby, running := if lost then false else t.running, admitted := if lost then [] else t.admitted
                           abandoned := false, attempt := 0, faultAddr := [], rerun := [], heartbeat := tick } }
  s2.raise .STEWARD_CHANGED Src.steward [old, tick, t.num, b2n lost]

/-- The steward fails: the standby takes over, and reverts a live update (R236, R490). -/
def State.stewardFails (s : State) : State :=
  let s1 := s.takeOver
  { s1 with fw := { s1.fw with update := s1.fw.update.map (fun u => if u.reverting then u else { u with reverting := true, cluster := u.steward % 9 }) } }

/-- STEWARD_TIMEOUT has passed with no heartbeat. -/
def execStewardTimeout (s : State) : Host.Outcome State Fault Refusal :=
  .next (if s.step.heartbeat + s.stewardTimeout * 100000 ≤ s.time.tick ∧ s.standbyDie.isSome ∧ s.ready then s.stewardFails else s)

end Sys2Proof.Machine
end

