-- ==== Sys2Proof/Machine/Fabric.lean ====
section
/-! DEFINITION. The Glosa fabric: frames, routes, ports and their training, credits, enumeration (R321 to R344, R370 to R373). -/

namespace Sys2Proof

/-! ### Frames (R330 to R333) -/

/-- Table 11-4. -/
abbrev fkWrite : Nat := 1
abbrev fkMasked : Nat := 2
abbrev fkAtomic : Nat := 3
abbrev fkRead : Nat := 4
abbrev fkTile : Nat := 5
abbrev fkPost : Nat := 6
abbrev fkAck : Nat := 7
abbrev fkNack : Nat := 8
abbrev fkChunk : Nat := 9
abbrev fkControl : Nat := 10

/-- Header bytes 0 to 11 (Table 11-3). -/
def Frame.head (f : Frame) : List Byte :=
  leBytes 1 (f.kind % 16 + f.count % 16 * 16) ++ leBytes 1 f.tag ++ leBytes 2 f.src ++ leBytes 2 f.dst ++ leBytes 6 f.addr

/-- Flow class of Table 11-4: 0 REQ, 1 RSP, 2 MGMT. -/
def Frame.cls (f : Frame) : Nat :=
  if f.kind = fkTile ∨ f.kind = fkAck ∨ f.kind = fkNack then 1 else if f.kind = fkChunk ∨ f.kind = fkControl then 2 else 0

/-- Length of a kind's body; a firmware chunk's is that of its frame of 4,144 B (R480). -/
def bodyLen (kind count : Nat) : Nat :=
  match kind with
  | 1 => 4096
  | 2 => 4104
  | 3 => 72 * (count + 1)
  | 5 => 4096
  | 6 => 8
  | 7 => 8
  | 8 => 8
  | 9 => 4128
  | 10 => 64
  | _ => 0

/-- Frame bytes in units of 64 B (R335). -/
def Frame.units (f : Frame) : Nat := (16 + f.body.length + 63) / 64

/-- Frames whose ADDR carries TAG_EXT in bits [11:0]. -/
def Frame.tagged (f : Frame) : Bool := f.kind == fkWrite || f.kind == fkMasked || f.kind == fkRead || f.kind == fkTile

/-- The tile, or the address or object, that ADDR names. -/
def Frame.target (f : Frame) : Nat := if f.tagged then f.addr / 4096 * 4096 else f.addr

/-- The tile that a frame of a remote operation goes to (R352). -/
def Frame.tileOf (f : Frame) : Nat := if f.kind = fkPost then 2 ^ 48 + f.addr else f.addr / 4096

namespace Machine

/-- FCRC (R330). -/
def Frame.crc (f : Frame) : Nat := crc32c (f.head ++ f.body)
def Frame.seal (f : Frame) : Frame := { f with fcrc := Frame.crc f }

/-- R333: the header and the body are as their kind has them. -/
def Frame.formOk (f : Frame) : Bool :=
  decide (1 ≤ f.kind) && decide (f.kind ≤ 10) && (f.kind == fkAtomic || f.count == 0) && f.body.length == bodyLen f.kind f.count
    && (f.kind != fkPost || (decide (f.addr < 4096) && (f.body.drop 4).all (· == 0#8)))
    && ((f.kind != fkAck && f.kind != fkNack) || (fieldAt f.body 3 1 == 0 && fieldAt f.body 6 2 == 0))

/-- R333: a frame that the receiver keeps. -/
def Frame.ok (f : Frame) : Bool := Frame.formOk f && f.fcrc == Frame.crc f

/-! ### Ports and their queues (R329, R335, R336) -/

def State.port (s : State) (p : Nat) : Port := Tab.get s.fab.ports p
def State.setPort (s : State) (p : Nat) (x : Port) : State := { s with fab := { s.fab with ports := Tab.set s.fab.ports p x } }

def State.portUp (s : State) (p : Nat) : Bool := (s.port p).st == .up

/-- G14 and G15 are ENDPOINT ports (Table 11-1). -/
def endpointPort (p : Nat) : Bool := decide (14 ≤ p)

/-- Credits of a class that a port holds. -/
def Port.credit (x : Port) (c : Nat) : Nat := if c = 0 then x.req else if c = 1 then x.rsp else x.mgmt
def Port.addCredit (x : Port) (c n : Nat) : Port :=
  if c = 0 then { x with req := x.req + n } else if c = 1 then { x with rsp := x.rsp + n } else { x with mgmt := x.mgmt + n }
def Port.takeCredit (x : Port) (c n : Nat) : Port :=
  if c = 0 then { x with req := x.req - n } else if c = 1 then { x with rsp := x.rsp - n } else { x with mgmt := x.mgmt - n }

/-- A frame leaves by a port. -/
def State.depart (s : State) (p : Nat) (f : Frame) : State :=
  let s1 := s.setPort p ((s.port p).takeCredit f.cls f.units)
  { s1 with fab := { s1.fab with sent := s1.fab.sent ++ [(p, f)] } }.bump (portReg p Reg.GP_TX_FRAMES_TOTAL) 1

/-- The first queued frame of a class leaves when its credits are held; `n` bounds the frames. -/
def State.drainClass (s : State) (p c : Nat) : Nat → State
  | 0 => s
  | n + 1 =>
    let x := s.port p
    match x.queue.find? (fun q => q.frame.cls == c) with
    | some q =>
      if q.frame.units ≤ x.credit c then
        State.drainClass ((s.setPort p { x with queue := x.queue.erase q }).depart p q.frame) p c n
      else s
    | none => s

/-- RSP frames never wait behind REQ frames, and MGMT frames behind neither (R335). -/
def State.drainPort (s : State) (p : Nat) : State :=
  [2, 1, 0].foldl (fun s c => s.drainClass p c ((s.port p).queue.length)) s

/-- A frame enters a port's transmit queue, and leaves as its credits allow; the N-cycles that a queued frame waits are an amount the model leaves open (log 4). -/
def State.transmit (s : State) (p : Nat) (f : Frame) : State :=
  let x := s.port p
  let g := Frame.seal f
  if x.queue.all (fun q => q.frame.cls != g.cls) && decide (g.units ≤ x.credit g.cls) then s.depart p g
  else (s.setPort p { x with queue := x.queue ++ [{ frame := g, since := s.time.tick }] }).bumpWait (portReg p Reg.GP_CREDIT_WAIT_TOTAL)

/-- R329: a port that leaves UP drops what is queued on it. -/
def State.dropPort (s : State) (p : Nat) : State :=
  let x := s.port p
  (s.setPort p { x with queue := [], owed := (0, 0, 0), left := s.time.tick }).bump (portReg p Reg.GP_DROP_TOTAL) x.queue.length

/-! ### Rings and routes (R370 to R373) -/

/-- TOPO_DIMd. -/
def State.dimReg (s : State) (d : Nat) : Nat := s.cfg (fabReg (Reg.TOPO_DIM0 + 8 * d))
def State.ringSize (s : State) (d : Nat) : Nat := bitsOf (s.dimReg d) 0 7
def State.ringPos (s : State) (d : Nat) : Nat := bitsOf (s.dimReg d) 7 7
def State.homeLine (s : State) (d : Nat) : Nat := bitsOf (s.dimReg d) 14 7
def State.sparePos (s : State) (d : Nat) : Nat := bitsOf (s.dimReg d) 21 7
def State.replica (s : State) (d : Nat) : Bool := bitOf (s.dimReg d) 28

def State.ring (s : State) (d : Nat) : Ring := Tab.get s.topo.rings d
def State.setRing (s : State) (d : Nat) (r : Ring) : State := { s with topo := { s.topo with rings := Tab.set s.topo.rings d r } }

/-- The live dateline of a ring: the cut that it moved to, else its home (R371, R376). -/
def State.liveLine (s : State) (d : Nat) : Nat := ((s.ring d).cut).getD (s.homeLine d)

/-- Position of a coordinate entry in a dimension (Table 12-6). -/
def coordPos (v d : Nat) : Nat := bitsOf v (16 + 7 * d) 7

/-- The live coordinate entry of a module, when it is VALID. -/
def State.coordOf (s : State) (m : Nat) : Option Nat :=
  let v := Tab.get s.live.coord m
  if bitOf v 37 then some v else none

/-- Links that a way of `n` hops from position `p` crosses, towards position + 1 or − 1. -/
def linksUp (size p n : Nat) : List Nat := (List.range n).map (fun i => (p + i) % size)
def linksDown (size p n : Nat) : List Nat := (List.range n).map (fun i => (p + 2 * size - 1 - i) % size)

/-- R371: the direction in which a frame goes around a ring from `p` to `q`: true towards position + 1. -/
def State.ringWay (s : State) (d p q : Nat) : Option Bool :=
  let n := s.ringSize d
  let up := (q + n - p) % n
  let down := (p + n - q) % n
  let shut (l : Nat) : Bool := l == s.liveLine d || (s.ring d).cutB == some l
  let okUp := (linksUp n p up).all (fun l => !shut l)
  let okDown := (linksDown n p down).all (fun l => !shut l)
  if okUp && (!okDown || decide (up ≤ down)) then some true else if okDown then some false else none

/-- Table 12-3: the ports of a dimension and direction. -/
def dimPort (d : Nat) (up second : Bool) : Nat := 4 * d + (if up then 0 else 1) + (if second then 2 else 0)

/-- R370: of a pair of ports, an even destination takes the first and an odd one the second; when that port is not UP, the other. -/
def State.pairPort (s : State) (d : Nat) (up : Bool) (m : Nat) : Nat :=
  let p := dimPort d up (m % 2 == 1)
  let q := dimPort d up (m % 2 == 0)
  if !s.portUp p && s.portUp q then q else p

/-- R371: the derived route to the module at coordinates `v`: dimension 2 first, then 1, then 0. -/
def State.derived (s : State) (m v : Nat) : Option Nat :=
  match [2, 1, 0].find? (fun d => decide (coordPos v d ≠ s.ringPos d)) with
  | none => none
  | some d => if coordPos v d < s.ringSize d then (s.ringWay d (s.ringPos d) (coordPos v d)).map (fun up => s.pairPort d up m) else none

/-- R373: the direct entry of a module, in force while its port is UP with that module as its neighbour. -/
def State.direct (s : State) (m : Nat) : Option Nat :=
  let v := Tab.get s.live.route m
  let p := bitsOf v 16 4
  let x := s.port p
  if bitOf v 20 && x.st == .up && x.nidValid && x.nid == m then some p else none

/-- R324: the ENDPOINT port to which a module is directly attached. -/
def State.endpointOf (s : State) (m : Nat) : Option Nat :=
  [14, 15].find? (fun p => s.portUp p && (s.port p).nidValid && (s.port p).nid == m)

/-- The route to a module. -/
def State.routeTo (s : State) (m : Nat) : Option Nat :=
  match s.endpointOf m, s.direct m, s.coordOf m with
  | some p, _, _ => some p
  | _, some p, _ => some p
  | _, _, some v => s.derived m v
  | _, _, _ => none

/-- R372: the route table is computed again and becomes live at both X dies at one instant. -/
def State.reroute (s : State) : State :=
  let ms := s.live.coord.map (·.1) ++ s.live.route.map (·.1) ++ [(s.port 14).nid, (s.port 15).nid]
  { s with fab := { s.fab with route := ms.foldl (fun t m => Tab.set t m (match s.routeTo m with | some p => 16 + p | none => 0)) [] } }

/-- R342: the port by which a frame to a module leaves: that of a VALID entry, UP. -/
def State.exit (s : State) (m : Nat) : Option Nat :=
  let v := Tab.get s.fab.route m
  let p := v % 16
  if 16 ≤ v ∧ s.portUp p ∧ (!endpointPort p || ((s.port p).nidValid && (s.port p).nid == m)) then some p else none

/-- A frame of this module's own issue goes out, or none when no route takes it. -/
def State.sendOut (s : State) (f : Frame) : Option State := (s.exit f.dst).map (fun p => s.transmit p f)

/-- An answer goes out, or is dropped when no route takes it. -/
def State.answer (s : State) (f : Frame) : State := (s.sendOut f).getD s

/-- R332: the frame that answers `f`. -/
def replyTo (f : Frame) (kind : Nat) (body : List Byte) : Frame :=
  { kind := kind, tag := f.tag, src := f.dst, dst := f.src, addr := f.addr, body := body }

/-- Table 11-5. -/
def ackBody (status : Code) (f : Frame) (window : Nat) : List Byte :=
  leBytes 2 (statusNumber status) ++ leBytes 1 f.kind ++ leBytes 1 0 ++ leBytes 2 window ++ leBytes 2 0

/-! ### Receiving (R333, R335) -/

/-- Units are owed to the neighbour of a port; a CREDIT message returns all of them when a frame other than CONTROL has left the buffer. -/
def State.owe (s : State) (p : Nat) (f : Frame) : State :=
  let x := s.port p
  let o := x.owed
  let o1 := if f.cls = 0 then (o.1 + f.units, o.2.1, o.2.2) else if f.cls = 1 then (o.1, o.2.1 + f.units, o.2.2) else (o.1, o.2.1, o.2.2 + f.units)
  if f.kind = fkControl then s.setPort p { x with owed := o1 }
  else (s.setPort p { x with owed := (0, 0, 0) }).transmit p
    { kind := fkControl, dst := if x.nidValid then x.nid else 0, src := s.moduleId
      body := leBytes 1 2 ++ leBytes 3 0 ++ leBytes 4 o1.1 ++ leBytes 4 o1.2.1 ++ leBytes 4 o1.2.2 ++ leBytes 48 0 }

/-- A frame has been received whole on a port; one that fails FCRC or its form is dropped and counted, and `k` serves any other. -/
def State.receive (s : State) (p : Nat) (f : Frame) (k : State → State) : State :=
  let s1 := (s.bump (portReg p Reg.GP_RX_FRAMES_TOTAL) 1).owe p f
  if Frame.ok f then k s1 else s1.bump (portReg p Reg.GP_FCRC_FAIL_TOTAL) 1

/-- A frame other than CONTROL of kind `kind`, for this module, arrives on a port in UP. -/
def State.arrive (s : State) (p : Nat) (f : Frame) (kind : Nat) (k : State → State) : State :=
  if s.portUp p ∧ f.kind = kind ∧ p < 16 ∧ (f.dst = s.moduleId ∨ !s.fab.idValid) then s.receive p f k else s

/-! ### Port states (R325 to R328) -/

def State.gpCfg (s : State) (p : Nat) : Nat := s.cfg (portReg p Reg.GP_CFG)
def State.portEnabled (s : State) (p : Nat) : Bool := bitOf (s.gpCfg p) 0
def State.halfOk (s : State) (p : Nat) : Bool := bitOf (s.gpCfg p) 2
def State.uncorrLimit (s : State) (p : Nat) : Nat := bitsOf (s.gpCfg p) 8 8
def State.retrainMax (s : State) (p : Nat) : Nat := bitsOf (s.gpCfg p) 16 4

/-- R328: entry into FAULT; the last of RETRAIN_MAX failed attempts in a row leaves RETRAIN_EXHAUSTED. -/
def State.portFault (s : State) (p cause : Nat) : State :=
  let x := s.port p
  let up := x.st == .up
  let out := decide (s.retrainMax p ≤ x.attempts + 1) && !up
  let c := if out then 6 else cause
  let s1 := (if up then s.dropPort p else s)
  let s2 := s1.setPort p { s1.port p with st := .fault, cause := c, attempts := if up then 0 else x.attempts + 1, since := s.time.tick, lanes := 0 }
  let s3 := s2.raise .GLOSA_PORT_DOWN (Src.port p) [p, c, x.nid]
  let s4 := if out then s3.raise .GLOSA_PORT_FAILED (Src.port p) [p] else s3
  if up then s4.reroute else s4

/-- Entry into TRAINING; a valid saved setting is used with FAST_TRAIN (R326). -/
def State.portTrain (s : State) (p : Nat) : State :=
  let x := s.port p
  s.setPort p { x with st := .training, since := s.time.tick, lanes := 0, full := !(bitOf (s.gpCfg p) 1 && x.saved.isSome)
                       req := 16384, rsp := 15360, mgmt := 1024, owed := (0, 0, 0) }

/-- Light on every trained lane of a port in DOWN. -/
def execPortSignalDetect (p : Nat) (s : State) : Host.Outcome State Fault Refusal :=
  .next (if (s.port p).st = .down ∧ s.portEnabled p ∧ p < 16 then s.portTrain p else s)

/-- Lanes of LANES: 1 lanes 0 and 1, 2 lanes 2 and 3, 3 all four. -/
def lanesOf (l : Nat) : List Nat := if l = 1 then [0, 1] else if l = 2 then [2, 3] else if l = 3 then [0, 1, 2, 3] else []

/-- R323: a port may train with these lanes: two only with HALF_OK, and none that the fuses mark bad. -/
def State.lanesOk (s : State) (p l : Nat) : Bool :=
  !(lanesOf l).isEmpty && (l == 3 || s.halfOk p) && (lanesOf l).all (fun i => !s.boot.badLanes.contains (p, i))

/-- The IDENTITY message of this module (Table 11-6). -/
def State.identityFrame (s : State) (p : Nat) : Frame :=
  { kind := fkControl, src := if s.fab.idValid then s.fab.id else 0
    body := leBytes 1 1 ++ leBytes 7 0 ++ leBytes 8 s.part.serial ++ leBytes 2 s.moduleId ++ leBytes 1 (if s.fab.idValid then 1 else 0)
      ++ leBytes 1 p ++ leBytes 8 (s.reg Reg.VER_LINK) ++ leBytes 1 s.dies.length ++ leBytes 35 0 }

/-- FEC lock on the lanes that trained: the port is SETTLING and sends its IDENTITY. -/
def execPortFecLock (p lanes : Nat) (s : State) : Host.Outcome State Fault Refusal :=
  .next (let x := s.port p
    if x.st = .training ∧ s.lanesOk p lanes then
      let s1 := s.setPort p { x with st := .settling, lanes := lanes }
      let s2 := if lanes = 3 then s1 else s1.raise .GLOSA_PORT_DEGRADED (Src.port p) [p, lanes]
      s2.transmit p (s2.identityFrame p)
    else s)

/-- R326: 30 s in TRAINING. -/
def execPortTrainTimeout (p : Nat) (s : State) : Host.Outcome State Fault Refusal :=
  .next (if (s.port p).st = .training ∧ (s.port p).since + 30 * tickSecond ≤ s.time.tick then s.portFault p 2 else s)

/-- Loss of lock of a port in UP. Table 11-13 has no cause of its own for it; NO_SIGNAL is taken (log 49). -/
def execPortLockLoss (p : Nat) (s : State) : Host.Outcome State Fault Refusal :=
  .next (if s.portUp p then s.portFault p 1 else s)

/-- R328: what the receiver counted in one second: corrected symbols and uncorrectable codewords. -/
def execUncorrRateCheck (p corr uncorr : Nat) (s : State) : Host.Outcome State Fault Refusal :=
  .next (if s.portUp p then
      let s1 := (s.bump (portReg p Reg.GP_FEC_CORR_TOTAL) corr).bump (portReg p Reg.GP_FEC_UNCORR_TOTAL) uncorr
      if s.uncorrLimit p < uncorr then s1.portFault p 5 else s1
    else s)

/-- A port in FAULT tries again after 1 s, up to RETRAIN_MAX attempts. -/
def execPortFaultRetry (p : Nat) (s : State) : Host.Outcome State Fault Refusal :=
  .next (let x := s.port p
    if x.st = .fault ∧ x.cause ≠ 6 ∧ s.portEnabled p ∧ x.since + tickSecond ≤ s.time.tick then
      (s.setPort p { x with st := .down }).bump (portReg p Reg.GP_RETRAIN_TOTAL) 1
    else s)

/-- RETRAIN: the port leaves its state, and its attempts start again (R328). A port that GP_CFG disables stays DISABLED. -/
def execRetrain (p : Nat) (s : State) : Host.Outcome State Fault Refusal :=
  .next (let x := s.port p
    if x.st = .disabled ∨ 16 ≤ p then s
    else
      let up := x.st == .up
      let s1 := if up then s.dropPort p else s
      let s2 := ((s1.setPort p { s1.port p with attempts := 0, cause := 0 }).portTrain p).bump (portReg p Reg.GP_RETRAIN_TOTAL) 1
      if up then s2.reroute else s2)

/-- What an IDENTITY message says. -/
structure Identity where
  serial : Nat
  id : Nat
  valid : Bool
  endpoint : Bool
  sorano : Bool
  port : Nat
  offer : Nat
  deriving DecidableEq, Repr, Inhabited

def parseIdentity (bs : List Byte) : Identity :=
  { serial := fieldAt bs 8 8, id := fieldAt bs 16 2, valid := bitOf (fieldAt bs 18 1) 0, endpoint := bitOf (fieldAt bs 18 1) 1
    sorano := bitOf (fieldAt bs 18 1) 2, port := fieldAt bs 19 1 % 16, offer := fieldAt bs 20 8 }

/-- R327: the version settled with a neighbour. -/
def State.linkVer (s : State) (y : Identity) : Nat := Machine.settle (offerList (s.reg Reg.VER_LINK)) (offerList y.offer)

/-- R327: the cause with which a port refuses its neighbour, or 0. A module offers no endpoint service on a FABRIC port's far side, and an endpoint is what offers one. -/
def State.refuseNeighbour (s : State) (p : Nat) (y : Identity) : Nat :=
  if s.linkVer y = 0 then 3
  else if endpointPort p != y.endpoint then 4
  else if y.valid && s.fab.idValid && y.id == s.fab.id then 7
  else 0

/-- The neighbour's IDENTITY on a port in SETTLING. -/
def State.identified (s : State) (p : Nat) (y : Identity) : State :=
  let x := s.port p
  let c := s.refuseNeighbour p y
  let kind := if y.sorano then 1 else if y.endpoint then 2 else 0
  let s1 := s.setPort p { x with nid := y.id, nidValid := y.valid, nport := y.port, nkind := kind, serial := y.serial }
  if c = 0 then
    let s2 := s1.setPort p { s1.port p with st := .up, ver := s.linkVer y, cause := 0, attempts := 0, since := s.time.tick
                                            saved := if x.full || x.saved.isNone then some y.serial else x.saved }
    (s2.raise .GLOSA_PORT_UP (Src.port p) [p, s.linkVer y, y.id]).reroute
  else
    let s2 := s1.portFault p c
    if c = 7 then s2.raise .GLOSA_ID_CONFLICT (Src.port p) [p, y.id] else s2

/-- A CONTROL message MSG `msg` on port `p`, which a port from SETTLING on takes; `k` serves it. -/
def State.control (s : State) (p : Nat) (f : Frame) (msg : Nat) (k : State → State) : State :=
  if ((s.port p).st = .up ∨ (s.port p).st = .settling) ∧ f.kind = fkControl ∧ p < 16 then
    s.receive p f (fun t => if fieldAt f.body 0 1 = msg then k t else t.bump (portReg p Reg.GP_FCRC_FAIL_TOTAL) 1)
  else s

def execIdentityMessage (p : Nat) (f : Frame) (s : State) : Host.Outcome State Fault Refusal :=
  .next (if (s.port p).st = .settling then s.control p f 1 (fun t => t.identified p (parseIdentity f.body)) else s)

/-- A CREDIT message: the port holds the credits returned, and what waited for them leaves. -/
def State.credited (s : State) (p : Nat) (bs : List Byte) : State :=
  (s.setPort p ((((s.port p).addCredit 0 (fieldAt bs 4 4)).addCredit 1 (fieldAt bs 8 4)).addCredit 2 (fieldAt bs 12 4))).drainPort p

def execCredit (p : Nat) (f : Frame) (s : State) : Host.Outcome State Fault Refusal :=
  .next (s.control p f 2 (fun t => t.credited p f.body))

/-- HOLD_MAX (R336): the oldest frame of a port's queue has been held longer. -/
def State.holdMax (s : State) : Nat := s.fld (fabReg Reg.FAB_CFG) 12 4

def execHoldMax (p : Nat) (s : State) : Host.Outcome State Fault Refusal :=
  .next (let x := s.port p
    match x.queue with
    | [] => s
    | q :: r =>
      if q.since + s.holdMax * 1000000 < s.time.tick then
        ((s.setPort p { x with queue := r }).bump (portReg p Reg.GP_DROP_TOTAL) 1).raise .GLOSA_HOLD_EXPIRED (Src.port p) [p, q.frame.cls]
      else s)

/-! ### Transit (R342, R343) -/

/-- R342, R324: a frame for another module leaves by its route; one that no route takes, or that arrived on an ENDPOINT port, is dropped, counted and answered. -/
def State.transit (s : State) (p : Nat) (f : Frame) : State :=
  let way := if endpointPort p then none else match s.exit f.dst with
    | some x => if endpointPort x && (s.port x).nid != f.dst then none else some x
    | none => none
  match way with
  | some x => (s.transmit x f).bump (portReg p Reg.GP_TRANSIT_TOTAL) 1
  | none =>
    let s1 := s.bump (fabReg Reg.FRAME_UNROUTABLE_TOTAL) 1
    if endpointPort p then
      s1.transmit p { replyTo f fkNack (ackBody .FABRIC_UNREACHABLE f 0xFFFF) with src := s.moduleId }
    else s1.answer { replyTo f fkNack (ackBody .FABRIC_UNREACHABLE f 0xFFFF) with src := s.moduleId }

/-- A frame for another module. It is forwarded before its FCRC can be checked; `abort` says that a later codeword is uncorrectable, so that it ends with the abort marker, which the next receiver drops. -/
def execTransitFrame (p : Nat) (f : Frame) (abort : Bool) (s : State) : Host.Outcome State Fault Refusal :=
  .next (if s.portUp p ∧ p < 16 ∧ s.fab.idValid ∧ f.dst ≠ s.fab.id ∧ f.kind ≠ fkControl ∧ f.kind ≠ fkChunk then
      let s1 := (s.bump (portReg p Reg.GP_RX_FRAMES_TOTAL) 1).owe p f
      if abort then s1.bump (portReg p Reg.GP_TRANSIT_TOTAL) 1 else s1.transit p f
    else s)

/-! ### Enumeration (R337 to R340) -/

def State.win (s : State) (n : Nat) : Win := Tab.get s.fab.wins n
def State.setWin (s : State) (n : Nat) (w : Win) : State := { s with fab := { s.fab with wins := Tab.set s.fab.wins n w } }

/-- The topology mailbox: 64 KiB of the data SRAM of M0 (R375). -/
abbrev mailboxBase : Nat := 0x8003FF0000
abbrev mailboxSize : Nat := 0x10000

/-- The module takes an ID, and the mailbox window opens to every source on G0 to G13 (R337, R375). -/
def State.takeId (s : State) (id : Nat) : State :=
  ({ s with fab := { s.fab with idValid := true, id := id } }.setWin 1023
    { st := .opened, used := true, args := { base := mailboxBase, size := mailboxSize, srcFirst := 0, srcLast := 0xFFFF, rights := 1, ports := 1, number := 1023 } }).raise
    .MODULE_ID_ASSIGNED (Src.port 0) [id]

/-- ENUM_TOKEN or ENUM_DONE out of a port. -/
def State.enumSend (s : State) (p msg next flags head : Nat) : State :=
  s.transmit p { kind := fkControl, src := s.moduleId, dst := if (s.port p).nidValid then (s.port p).nid else 0
                 body := leBytes 1 msg ++ leBytes 3 0 ++ leBytes 2 next ++ leBytes 1 flags ++ leBytes 1 0 ++ leBytes 8 head ++ leBytes 48 0 }

/-- The head ends its run. -/
def State.enumEnd (s : State) (next : Nat) (closed out : Bool) : State :=
  { s with fab := { s.fab with enum := 2, nextId := next, ringClosed := closed, exhausted := out } }.raise .FABRIC_ENUMERATED (Src.port 0)
    [next, b2n closed, b2n out]

/-- Step 5: the token goes out of G0, or ENUM_DONE goes back: at the head the run ends, elsewhere it leaves by G1. -/
def State.enumOn (s : State) (next head : Nat) (isHead : Bool) : State :=
  if s.portUp 0 && (s.port 0).nkind != 2 then s.enumSend 0 3 next (if isHead then 1 else 0) head
  else if isHead then s.enumEnd next false false
  else s.enumSend 1 4 next 0 head

/-- The head starts a run with its ID: the one it has, or ENUM_BASE (R337, R338). -/
def execEnumStart (s : State) : Host.Outcome State Fault Refusal :=
  .next (if s.fab.enum = 1 then s.raise .FAB_CTRL_REFUSED (Src.port 0) [0]
    else
      let s1 := if s.fab.idValid then s else s.takeId (s.fld (fabReg Reg.ENUM_CFG) 0 16)
      let s2 := { s1 with fab := { s1.fab with enum := 1, ringClosed := false, exhausted := false } }
      if 0xFFFF ≤ s2.fab.id then s2.enumEnd 0xFFFF false true else s2.enumOn (s2.fab.id + 1) s.part.serial true)

/-- A module that the token reaches (R337 steps 3 to 6, R338). -/
def State.tokenTaken (s : State) (next head : Nat) : State :=
  if s.fab.enum = 1 then
    (if head = s.part.serial then s.enumEnd next true false else s.raise .ENUM_CONFLICT (Src.port 1) [head])
  else if s.fab.idValid then
    (if 0xFFFF ≤ s.fab.id then s.enumSend 1 4 0xFFFF 2 head else s.enumOn (max next (s.fab.id + 1)) head false)
  else if 0xFFFF < next then (s.enumSend 1 4 next 2 head).raise .ENUM_EXHAUSTED (Src.port 1) []
  else
    let s1 := s.takeId next
    if next = 0xFFFF then (s1.enumSend 1 4 next 2 head).raise .ENUM_EXHAUSTED (Src.port 1) [] else s1.enumOn (next + 1) head false

/-- The token is taken only on G1, from a neighbour's G0. -/
def execEnumToken (p : Nat) (f : Frame) (s : State) : Host.Outcome State Fault Refusal :=
  .next (if s.portUp p then s.control p f 3 (fun t =>
      if p = 1 ∧ (t.port 1).nport = 0 then t.tokenTaken (fieldAt f.body 4 2) (fieldAt f.body 8 8)
      else t.bump (portReg p Reg.GP_FCRC_FAIL_TOTAL) 1) else s)

/-- ENUM_DONE is passed back by G1 until it reaches the head. -/
def execEnumDone (p : Nat) (f : Frame) (s : State) : Host.Outcome State Fault Refusal :=
  .next (if s.portUp p then s.control p f 4 (fun t =>
      let flags := fieldAt f.body 6 1
      if t.fab.enum = 1 ∧ fieldAt f.body 8 8 = t.part.serial then t.enumEnd (fieldAt f.body 4 2) (bitOf flags 0) (bitOf flags 1)
      else t.enumSend 1 4 (fieldAt f.body 4 2) flags (fieldAt f.body 8 8)) else s)

/-- R339: the ID is removed unless a window is OPEN or DRAINING or a remote operation is outstanding. -/
def execClearId (s : State) : Host.Outcome State Fault Refusal :=
  .next (if s.fab.wins.any (fun e => e.2.st != .closed) || !s.fab.remotes.isEmpty then s.raise .FAB_CTRL_REFUSED (Src.port 0) [1]
    else { s with fab := { s.fab with idValid := false, id := 0 } })

end Machine

end Sys2Proof
end

