-- ==== Sys2Proof/Machine/Windows.lean ====
section
/-! DEFINITION. Windows, the checks at ingress and the service of remote frames (R345 to R351). -/

namespace Sys2Proof.Machine

/-! ### The window table (R345) -/

/-- Table 11-9. -/
def parseWin (bs : List Byte) : WinArgs :=
  { base := fieldAt bs 0 8, size := fieldAt bs 8 8, srcFirst := fieldAt bs 16 2, srcLast := fieldAt bs 18 2, rights := fieldAt bs 20 1
    ports := fieldAt bs 21 1, objCount := fieldAt bs 22 2, objBase := fieldAt bs 24 2, number := fieldAt bs 26 2 }

def WinArgs.holds (a : WinArgs) (x : Nat) : Bool := decide (a.base ≤ x) && decide (x < a.base + a.size)
def WinArgs.holdsObj (a : WinArgs) (n : Nat) : Bool := decide (a.objBase ≤ n) && decide (n < a.objBase + a.objCount)
def WinArgs.mayWrite (a : WinArgs) : Bool := bitOf a.rights 0
def WinArgs.mayAdd (a : WinArgs) : Bool := bitOf a.rights 1
def WinArgs.mayRead (a : WinArgs) : Bool := bitOf a.rights 2
/-- PORTS: G0 to G13, G14, G15. -/
def WinArgs.takes (a : WinArgs) (p : Nat) : Bool := bitOf a.ports (if p < 14 then 0 else p - 13)

/-- The request areas of R231: the 544 MiB below the check area of stacks 0, 2, 4 and 6. -/
abbrev reqArea : Nat := 0x8D9800000

/-- A range of one range of Table 6-1 that touches no check area, request area or absent die (R347). -/
def State.winRange (s : State) (a n : Nat) : Bool :=
  if a + n ≤ 8 * stackSize then
    (List.range 8).all (fun k => !overlap a n (k * stackSize + stackData) (stackSize - stackData)
      && (k % 2 == 1 || !overlap a n (k * stackSize + reqArea) (stackData - reqArea)))
  else if msramBase ≤ a ∧ a + n ≤ msramBase + 4 * msramSize then true
  else if spBase ≤ a ∧ a + n ≤ spBase + 0x80000000 then (List.range 8).all (fun d => s.fits d || !overlap a n (spBase + d * 2 ^ 28) (2 ^ 28))
  else false

/-- The range covers a scratchpad bank that is off, powering up, or staged off in an accepted commit. -/
def State.winBankOff (s : State) (a n : Nat) : Bool :=
  s.clusters.any (fun g => (List.range 8).any (fun c =>
    let b := spAddr (g / 9) (g % 9) c 0
    overlap a n b (2 ^ 22) && s.bankOffOver (g * 8 + c) (a - b) (min (a + n) (b + 2 ^ 22) - max a b)))

/-- R347: the entry that an open takes. -/
def State.winEntry (s : State) (x : WinArgs) : Option Nat :=
  if x.number = 0xFFFF then (List.range 1024).find? (fun n => (s.win n).st == .closed)
  else if x.number < 1024 ∧ (s.win x.number).st = .closed then some x.number else none

/-- R347: the status of an open. -/
def State.winStatus (s : State) (x : WinArgs) (reserved : Bool) : Code :=
  if (s.winEntry x).isNone then (if x.number = 0xFFFF then .WINDOW_TABLE_FULL else .WINDOW_BUSY)
  else if x.base % 4096 ≠ 0 ∨ x.size = 0 ∨ x.size % 4096 ≠ 0 ∨ !s.winRange x.base x.size then .WINDOW_RANGE_INVALID
  else if s.fab.wins.any (fun e => e.2.st != .closed && overlap x.base x.size e.2.args.base e.2.args.size) then .WINDOW_OVERLAP
  else if s.winBankOff x.base x.size then .BANK_OFF
  else if x.srcLast < x.srcFirst ∨ x.rights = 0 ∨ x.ports = 0 ∨ (x.objCount ≠ 0 ∧ !x.mayAdd) ∨ 4096 < x.objBase + x.objCount ∨ reserved then .WINDOW_ARGS
  else .OK

/-- An accepted open. -/
def State.winOpen (s : State) (n : Nat) (x : WinArgs) : State :=
  (s.setWin n { st := .opened, args := x, used := true }).raise .WINDOW_OPENED (Src.port 0) [n, x.base, x.size, x.srcFirst, x.srcLast, x.rights]

/-- Reserved bits and bytes of Table 11-9. -/
def winReserved (bs : List Byte) : Bool := decide (8 ≤ fieldAt bs 20 1) || decide (8 ≤ fieldAt bs 21 1) || fieldAt bs 28 4 != 0

/-- Entry 1 of the fabric service: the state, its status and RESULT0. -/
def State.windowOpen (s : State) (bs : List Byte) : State × Code × Nat :=
  let x := parseWin bs
  let c := s.winStatus x (winReserved bs)
  match s.winEntry x with
  | some n => if c = .OK then (s.winOpen n x, .OK, n) else (s, c, 0)
  | none => (s, c, 0)

/-- A call of the fabric service (R346): by PROGRAM RUN of image 0xFFFF when `via` is its descriptor, else by a Hearth core or the steward. -/
def State.fabricCall (s : State) (via : Option Hdr) (k : State → Option Desc → State) : State :=
  match via with
  | some h => s.descriptor h clsProgram fun t d => k t (some d)
  | none => k s none

/-- The call completes. -/
def State.callEnd (s : State) (d : Option Desc) (c : Code) (r0 : Nat) : State :=
  match d with
  | some x => s.finish x c r0 0
  | none => s

def State.callOpen (s : State) (args : List Byte) (d : Option Desc) : State :=
  let x := s.windowOpen args
  x.1.callEnd d x.2.1 x.2.2

/-- R350: an OPEN window moves to DRAINING; the call completes when it is CLOSED. -/
def State.callClose (s : State) (n : Nat) (d : Option Desc) : State :=
  if (s.win n).st = .opened ∧ n < 1024 then s.setWin n { s.win n with st := .draining, refused := 0, call := d } else s.callEnd d .WINDOW_STATE 0

/-- The manual gives the 64 bytes of a query no layout; they are free values (log 50). -/
def State.freeBytes (s : State) (n : Nat) : List Byte × State :=
  ((List.range n).map (fun i => BitVec.ofNat 8 (Config.free (s.fresh + i))), { s with fresh := s.fresh + n })

def State.callQuery (s : State) (n buffer : Nat) (d : Option Desc) : State :=
  let x := s.freeBytes 64
  (x.2.hostPut buffer x.1).callEnd d .OK n

def execWindowOpen (via : Option Hdr) (args : List Byte) (s : State) : Host.Outcome State Fault Refusal :=
  .next (s.fabricCall via (fun t d => t.callOpen args d))

def execWindowClose (via : Option Hdr) (n : Nat) (s : State) : Host.Outcome State Fault Refusal :=
  .next (s.fabricCall via (fun t d => t.callClose n d))

def execWindowQuery (via : Option Hdr) (n buffer : Nat) (s : State) : Host.Outcome State Fault Refusal :=
  .next (s.fabricCall via (fun t d => t.callQuery n buffer d))

/-- R350: every frame accepted before the close has been answered. -/
def execWindowDrained (n : Nat) (s : State) : Host.Outcome State Fault Refusal :=
  .next (let w := s.win n
    if w.st = .draining then
      ((s.setWin n { w with st := .closed, call := none }).raise .WINDOW_CLOSED (Src.port 0) [n, w.refused]).callEnd w.call .OK n
    else s)

/-! ### Ingress (R348) -/

/-- What the checks of Table 11-10 give: the status of the first that fails with the window that decided it. -/
structure Ingress where
  code : Code
  window : Nat := 0xFFFF
  deriving DecidableEq, Repr, Inhabited

/-- A window that the frame's ADDR or object names. -/
def Win.named (w : Win) (f : Frame) : Bool := if f.kind = fkPost then w.args.holdsObj f.addr else w.args.holds f.target

/-- Bytes from ADDR to the end of the last word of a frame (check 6). -/
def extentOf (f : Frame) : Nat :=
  if f.kind = fkAtomic then
    let p := f.body.drop (72 * f.count)
    let w := if fieldAt p 71 1 = 5 then 4 else 8
    w * (fieldAt p 64 4 + fieldAt p 68 1 % (if w = 4 then 32 else 16))
  else 4096

/-- The right that a kind needs. -/
def WinArgs.right (a : WinArgs) (kind : Nat) : Bool :=
  if kind = fkRead then a.mayRead else if kind = fkAtomic ∨ kind = fkPost then a.mayAdd else a.mayWrite

/-- The target lies in a partition under reset (R351). -/
def State.targetResetting (s : State) (f : Frame) : Bool :=
  f.kind != fkPost && (match locate s.part.variant f.target with | .sp d k _ _ => s.resetting d k | _ => false)

/-- Table 11-10, checks 2 to 7. -/
def State.ingress (s : State) (p : Nat) (f : Frame) : Ingress :=
  if !s.fab.idValid then { code := .FABRIC_NOT_ENUMERATED }
  else match s.fab.wins.find? (fun e => e.2.st == .opened && e.2.named f) with
    | none =>
      match s.fab.wins.find? (fun e => e.2.used && e.2.named f) with
      | some e => { code := .WINDOW_CLOSED, window := e.1 }
      | none => { code := .WINDOW_NONE }
    | some (n, w) =>
      let a := w.args
      if f.src < a.srcFirst ∨ a.srcLast < f.src ∨ !a.takes p then { code := .WINDOW_SOURCE, window := n }
      else if !a.right f.kind then { code := .WINDOW_RIGHTS, window := n }
      else if f.kind ≠ fkPost ∧ a.base + a.size < f.target + extentOf f then { code := .WINDOW_RANGE, window := n }
      else if s.targetResetting f then { code := .PARTITION_RESETTING, window := n }
      else { code := .OK, window := n }

/-- A NACK goes back and is counted. -/
def State.nack (s : State) (f : Frame) (c : Code) (window : Nat) : State :=
  let w := s.win window
  let s1 := if c = .WINDOW_CLOSED ∧ w.st = .draining then s.setWin window { w with refused := w.refused + 1 } else s
  (s1.bump (fabReg (if c = .WINDOW_CLOSED then Reg.WIN_NACK_CLOSED_TOTAL else Reg.WIN_NACK_OTHER_TOTAL)) 1).answer
    (replyTo f fkNack (ackBody c f window))

/-- A REQ frame for this module: checked at ingress, then served by `k`, which gives the state and the status of the target access; it is answered with an ACK or a NACK. -/
def State.serve (s : State) (p : Nat) (f : Frame) (kind : Nat) (k : State → State × Code) : State :=
  s.arrive p f kind fun t =>
    let g := t.ingress p f
    if g.code ≠ .OK then t.nack f g.code g.window
    else
      let x := k t
      if x.2 = .OK then x.1.answer (replyTo f fkAck (ackBody .OK f g.window)) else x.1.nack f x.2 g.window

/-! ### Service (R349) -/

def execTileWrite (p : Nat) (f : Frame) (s : State) : Host.Outcome State Fault Refusal :=
  .next (s.serve p f fkWrite fun t => let w := t.write (Src.port p) {} f.target f.body; (w.st, w.code))

/-- The 64-byte blocks that a mask names, with their data. -/
def maskBlocks (f : Frame) : List (Nat × List Byte) :=
  let m := fieldAt f.body 0 8
  ((List.range 64).filter (fun i => bitOf m i)).map (fun i => (f.target + 64 * i, (f.body.drop (8 + 64 * i)).take 64))

/-- Several writes, one after another; the first refused ends them. -/
def State.writeAll (s : State) (src : Src) : List (Nat × List Byte) → Wr
  | [] => { st := s }
  | x :: r =>
    let w := s.write src {} x.1 x.2
    if w.code = .OK then State.writeAll w.st src r else w

def execTileWriteMasked (p : Nat) (f : Frame) (s : State) : Host.Outcome State Fault Refusal :=
  .next (s.serve p f fkMasked fun t => let w := t.writeAll (Src.port p) (maskBlocks f); (w.st, w.code))

/-- R64: what is wrong with a payload of an ATOMIC_ADD, as the byte of its first faulty field. -/
def payloadFault (b : List Byte) : Option Nat :=
  let n := fieldAt b 68 1
  match fieldAt b 71 1 with
  | 4 =>
    if n % 16 = 0 ∨ 8 < n % 16 then some 68
    else if 64 ≤ n then some 68
    else if ((b.take 64).drop (8 * (n % 16))).any (· != 0#8) then some (8 * (n % 16))
    else none
  | 5 =>
    if n % 32 = 0 ∨ 16 < n % 32 then some 68
    else if n / 32 % 4 ≠ 0 then some 68
    else if fieldAt b 70 1 ≠ 0 then some 70
    else if ((b.take 64).drop (4 * (n % 32))).any (· != 0#8) then some (4 * (n % 32))
    else none
  | _ => some 71

/-- A payload of a frame as it reaches the atomic unit: its first-column field counts words from ADDR (R349). -/
def framePayload (a : Nat) (b : List Byte) : Payload :=
  let n := fieldAt b 68 1
  if fieldAt b 71 1 = 5 then
    { i32 := true, target := a + 4 * fieldAt b 64 4, words := (chunkNats 4 (n % 32) b).map (signed 32), k := signed 8 (fieldAt b 69 1), sticky := bitOf n 7 }
  else { target := a + 8 * fieldAt b 64 4, words := (chunkNats 8 (n % 16) b).map (signed 64) }

/-- The payloads of a frame in body order: the state and the first status that is not OK. -/
def State.payloads (s : State) (src : Src) (a : Nat) (c : Code) : List (List Byte) → State × Code
  | [] => (s, c)
  | b :: r =>
    match payloadFault b with
    | some o => State.payloads (s.raise .FLIT_FORMAT_ERROR src [fieldAt b 71 1, o]) src a (if c = .OK then .FLIT_FORMAT_ERROR else c) r
    | none =>
      let p := framePayload a b
      let x := s.payloadStatus p
      State.payloads (s.payload src 0 p) src a (if c = .OK then x else c) r

/-- POST adds its delta to the object (R315); one that is not ALLOCATED refuses it (R314). -/
def execPostFrame (p : Nat) (f : Frame) (s : State) : Host.Outcome State Fault Refusal :=
  .next (s.serve p f fkPost fun t => (t.objPost f.addr (fieldAt f.body 0 4) (reqModule f.src), if (t.obj f.addr).allocated then .OK else .SYNC_FREE))

/-- READ_REQ reads and checks its tile and is answered with READ_TILE, or with a NACK. -/
def State.readServe (s : State) (p : Nat) (f : Frame) : State :=
  s.arrive p f fkRead fun t =>
    let g := t.ingress p f
    if g.code ≠ .OK then t.nack f g.code g.window
    else
      let m := ((locate t.part.variant f.target).mdie).getD 0
      let r := t.read { mdie := m, src := Src.port p } f.target 4096
      if r.code = .OK then r.st.answer (replyTo f fkTile r.bytes) else r.st.nack f r.code g.window

def execReadReq (p : Nat) (f : Frame) (s : State) : Host.Outcome State Fault Refusal := .next (s.readServe p f)

end Sys2Proof.Machine
end

