-- ==== Sys2Proof/Machine/Remote.lean ====
section
/-! DEFINITION. Remote operations: the frames of copies, DMA commands, additions and posts to other modules, their issue and retry, and DMA_COPY (R172, R352 to R354). -/

namespace Sys2Proof

/-- A frame of this module's own issue to a module. -/
def mkFrame (kind m a : Nat) (body : List Byte := []) (count : Nat := 0) : Frame := { kind := kind, dst := m, addr := a, body := body, count := count }

/-- R352: TILE_WRITE frames for whole tiles, TILE_WRITE_MASKED for the rest; the range starts and ends on a 64-byte boundary. -/
def writeFrames (m : Nat) : List (Nat × Nat) → List Byte → List Frame
  | [], _ => []
  | (a, n) :: r, bs =>
    let d := bs.take n
    let o := a % 4096
    let f :=
      if n = 4096 then mkFrame fkWrite m a d
      else mkFrame fkMasked m (a - o)
        (leBytes 8 ((2 ^ (n / 64) - 1) * 2 ^ (o / 64)) ++ leBytes o 0 ++ d ++ leBytes (4096 - o - n) 0)
    f :: writeFrames m r (bs.drop n)

/-- A remote read fetches whole tiles. -/
def readFrames (m : Nat) (ps : List (Nat × Nat)) : List Frame := ps.map (fun p => mkFrame fkRead m (p.1 / 4096 * 4096))

/-- The payload of an ATOMIC_ADD frame (Tables 2-7 and 2-8). -/
def addPayload (i32 : Bool) (first : Nat) (ws : List Int) (k : Int) (sticky : Bool) : List Byte :=
  let w := if i32 then 4 else 8
  let d := ws.flatMap (fun v => leBytes w (encodeInt (8 * w) v))
  d ++ leBytes (64 - d.length) 0 ++ leBytes 4 first
    ++ (if i32 then leBytes 1 (ws.length + (if sticky then 128 else 0)) ++ leBytes 1 (encodeInt 8 k) ++ leBytes 1 0 ++ leBytes 1 5
        else leBytes 1 ws.length ++ leBytes 1 0 ++ leBytes 1 0 ++ leBytes 1 4)

/-- Words cut into payloads of a frame: 8 FX64 words or 16 int32 words each. -/
def addPayloads (i32 : Bool) (k : Int) (sticky : Bool) : Nat → Nat → List Int → List (List Byte)
  | 0, _, _ => []
  | f + 1, first, ws =>
    let n := if i32 then 16 else 8
    if ws.isEmpty then [] else addPayload i32 first (ws.take n) k sticky :: addPayloads i32 k sticky f (first + n) (ws.drop n)

/-- ATOMIC_ADD frames of up to 16 payloads for words at `a`. -/
def addFrames (i32 : Bool) (k : Int) (sticky : Bool) (m : Nat) : Nat → Nat → List Int → List Frame
  | 0, _, _ => []
  | f + 1, a, ws =>
    let n := if i32 then 256 else 128
    if ws.isEmpty then []
    else
      let ps := addPayloads i32 k sticky 16 0 (ws.take n)
      mkFrame fkAtomic m a ps.flatten (ps.length - 1) :: addFrames i32 k sticky m f (a + n * (if i32 then 4 else 8)) (ws.drop n)

namespace Machine

/-! ### Issue (R352) -/

/-- TAG and TAG_EXT of a new frame, from a running count (log 51). -/
def State.tagged (s : State) (f : Frame) : State × RFrame :=
  let t := s.fab.nextTag
  let g : Frame := { f with tag := t % 256, addr := if f.tagged then f.addr + t / 256 % 4096 else f.addr, src := s.moduleId }
  ({ s with fab := { s.fab with nextTag := t + 1 } }, { frame := g, module := f.dst })

def State.tagAll (s : State) : List Frame → State × List RFrame
  | [] => (s, [])
  | f :: r =>
    let x := s.tagged f
    let y := State.tagAll x.1 r
    (y.1, x.2 :: y.2)

def State.remote (s : State) (i : Nat) : Remote := s.fab.remotes.getD i default
def State.setRemote (s : State) (i : Nat) (r : Remote) : State := { s with fab := { s.fab with remotes := s.fab.remotes.set i r } }

/-- R352: frame `j` may be issued: fewer than 2,048 tile frames, or 256 others, to its module are unanswered, and no earlier frame to its tile. -/
def mayIssue (fs : List RFrame) (j : Nat) : Bool :=
  match fs[j]? with
  | none => false
  | some x =>
    let same (y : RFrame) : Bool := y.sent && y.module == x.module && y.frame.tagged == x.frame.tagged
    !x.sent && decide ((fs.filter same).length < (if x.frame.tagged then 2048 else 256))
      && (fs.take j).all (fun y => y.module != x.module || y.frame.tileOf != x.frame.tileOf)

/-- R327: a port settled at major 3 carries no TILE_WRITE_MASKED. -/
def State.unsupported (s : State) (f : Frame) : Bool :=
  f.kind == fkMasked && (match s.exit f.dst with | some p => (s.port p).ver / 256 == 3 | none => false)

/-- A remote operation fails; its other frames are given up (R354). -/
def State.failRemote (s : State) (i : Nat) (c : Code) (a : Nat) : State :=
  s.setRemote i { s.remote i with frames := [], failed := some (c, a) }

/-- Frame `j` of operation `i` is sent. -/
def State.issueFrame (s : State) (i j : Nat) : State :=
  let r := s.remote i
  match r.frames[j]? with
  | none => s
  | some x =>
    if s.unsupported x.frame then s.failRemote i .DESC_UNSUPPORTED x.frame.target
    else match s.sendOut x.frame with
      | none => s.failRemote i .FABRIC_UNREACHABLE x.frame.target
      | some t => t.setRemote i { r with frames := r.frames.set j { x with sent := true, since := s.time.tick } }

/-- Every frame of operation `i` that may be issued is. -/
def State.pump (s : State) (i : Nat) : State :=
  (List.range (s.remote i).frames.length).foldl (fun s j => if mayIssue (s.remote i).frames j then s.issueFrame i j else s) s

/-- An operation joins those outstanding. -/
def State.addRemote (s : State) (r : Remote) : State := { s with fab := { s.fab with remotes := s.fab.remotes ++ [r] } }

/-- A remote operation starts, or is refused while the module has no ID (R340). -/
def State.launch (s : State) (x : Issuer) (fs : List Frame) (wrote : Bool := false) : State :=
  let n := s.fab.remotes.length
  let y := s.tagAll fs
  let s1 := y.1.addRemote { issuer := x, frames := y.2, wrote := wrote }
  if s.fab.idValid then s1.pump n else s1.failRemote n .FABRIC_NOT_ENUMERATED 0

/-- It goes on with frames that write. -/
def State.goOn (s : State) (r : Remote) (fs : List Frame) : State :=
  let n := s.fab.remotes.length
  let y := s.tagAll fs
  (y.1.addRemote { r with frames := y.2, wrote := true }).pump n

/-- A remote side that does not start and end on a 64-byte boundary (R352). -/
def farMisaligned (a n : Nat) : Bool := isFar a && (a % 64 != 0 || n % 64 != 0)

/-- The frames that read the remote sides of a list of ranges. -/
def farReads (rs : List (Nat × Nat)) : List Frame :=
  (rs.filter (fun r => isFar r.1)).flatMap (fun r => readFrames (farModule r.1) (piecesOf (farAddr r.1) r.2))

/-- The frames that write bytes at a remote address. -/
def farWrites (a : Nat) (bs : List Byte) : List Frame := writeFrames (farModule a) (piecesOf (farAddr a) bs.length) bs

/-! ### COPY (R171, R172) -/

/-- The core's copy unit waits for answers. -/
def State.copyBusy (s : State) (q : Nat) : Bool := s.fab.remotes.any (fun r => match r.issuer with | .op x _ => x == q | _ => false)

/-- A queued copy runs: at once between local addresses, with frames where a side is remote. -/
def State.copyStart (s : State) (q : Nat) (o : Op) : State :=
  if !isFar o.a && !isFar o.b then s.copyLocal q o
  else
    let s1 := s.countClass q o
    if farMisaligned o.a o.c || farMisaligned o.b o.c then s1.opRan q o .REMOTE_ALIGN 0 (if farMisaligned o.a o.c then o.a else o.b)
    else s1.launch (.op q o) (farReads [(o.a, o.c)])

/-- The reads of a copy with a remote side are done: it writes, and has run when its destination is local. -/
def State.copyWrites (s : State) (q : Nat) (o : Op) (r : Remote) : State :=
  let x : Rd := if isFar o.a then { st := s, bytes := Tab.getList r.far (o.a % 2 ^ 64) o.c } else s.read (Reader.ofCore q) o.a o.c
  if x.code ≠ .OK then x.st.opRan q o x.code 0 x.addr
  else if isFar o.b then x.st.goOn r (farWrites o.b x.bytes)
  else
    let w := x.st.write (Src.ofCore q) {} o.b x.bytes
    w.st.opRan q o w.code 0 w.addr

/-! ### ATOMIC_ADD to another module -/

/-- The words of an op, read from its own scratchpad, go out in frames. An object that the op posts names none of the other module, and no frame carries it (log 52). -/
def State.atomicFar (s : State) (q : Nat) (o : Op) : State :=
  let i32 := o.mod % 2 == 1
  let w := if i32 then 4 else 8
  if o.b % 64 ≠ 0 ∨ w * o.c % 64 ≠ 0 then s.opRan q o .REMOTE_ALIGN 0 o.b
  else
    let x := s.read (Reader.ofCore q) o.a (w * o.c)
    let t := x.st.tile (o.a / 4096)
    if x.code ≠ .OK then x.st.opRan q o x.code 0 x.addr
    else x.st.launch (.op q o)
      (addFrames i32 t.k t.sat (farModule o.b) (o.c / 128 + 1) (farAddr o.b) ((chunkNats w o.c x.bytes).map (fun v => signed (8 * w) v))) true

/-- The oldest ATOMIC_ADD of a core goes on. -/
def State.atomicGo (s : State) (q : Nat) (i32 : Bool) : State :=
  match (s.seq q).next .copy 0x1B with
  | none => s
  | some o => if isFar o.b then (if (o.mod % 2 == 1) == i32 && !s.copyBusy q then s.atomicFar q o else s) else s.atomicStep q i32

/-! ### Cluster DMA (R194 to R198) -/

def DmaCmd.farRange (c : DmaCmd) : Bool := isFar c.a0 || isFar c.a1 || isFar c.a2

/-- The ranges that a command reads. -/
def DmaCmd.reads (c : DmaCmd) : List (Nat × Nat) :=
  let rs := c.ranges.map (fun r => (r.1.toNat, r.2))
  if c.op = 1 then rs.take 1 else if c.op = 4 then rs.take 2 else [rs.getD 0 (0, 0), rs.getD 2 (0, 0)]

/-- Every element and remote range lies on 64-byte boundaries. -/
def DmaCmd.misaligned (c : DmaCmd) : Bool :=
  (isFar c.a0 && (c.a0 % 64 != 0 || c.elem % 64 != 0)) || (isFar c.a1 && (c.a1 % 64 != 0 || c.elem % 64 != 0))
    || (isFar c.a2 && (c.a2 % 64 != 0 || (c.op == 4 && c.elem % 64 != 0)))
    || (c.op == 1 && ((isFar c.a0 && (c.stride 2 % 64 != 0 || c.stride 3 % 64 != 0)) || (isFar c.a1 && (c.stride 4 % 64 != 0 || c.stride 5 % 64 != 0))))

def State.dmaBusy (s : State) (g : Nat) : Bool := s.fab.remotes.any (fun r => match r.issuer with | .dma x _ => x == g | _ => false)

/-- The cluster DMA takes its best packet from the work queue and starts it. -/
def State.dmaCommand (s : State) (g : Nat) : State :=
  if s.dmaBusy g then s
  else match bestPacket 8 (fun _ => true) (s.queue g).pkts with
    | none => s
    | some p =>
      let y := s.queue g
      let s1 := s.setQueue g { y with pkts := y.pkts.erase p }
      let c := parseDma s.loc p.flits
      if c.refusal ≠ .OK ∨ !c.farRange then s1.dmaEnd g p c (s1.dmaRun g c [])
      else if c.misaligned then s1.dmaEnd g p c { st := s1, codes := [.REMOTE_ALIGN] }
      else s1.launch (.dma g p) (farReads c.reads)

/-- The reads of a command with a remote range are done: it runs, and writes what goes to another module. -/
def State.dmaWrites (s : State) (g : Nat) (p : Packet) (r : Remote) : State :=
  let c := parseDma s.loc p.flits
  let x := s.dmaRun g c r.far
  if x.wr.isEmpty then x.st.dmaEnd g p c x
  else
    x.st.goOn { r with far := [], code := x.status, out := x.out, skipped := x.skipped, retried := x.retried } (x.wr.flatMap (fun w => farWrites (2 ^ 64 + w.1) w.2))

/-! ### DMA_COPY (Table 9-8) -/

/-- The pieces of a local range: module-local addresses, or window offsets. -/
def State.spacePieces (s : State) (space a n : Nat) : List Piece :=
  if space = 2 then (piecesOf a n).map (fun p => (s.hdmAddr p.1, p.2)) else piecesOf (s.loc a) n

/-- A side in another module. -/
def State.sideFar (s : State) (space a : Nat) : Bool := space == 1 && isFar (s.loc a)

/-- Refusals of a DMA_COPY. -/
def State.dmaCopyStatus (s : State) (c : DmaCopy) : Code :=
  if (c.srcSpace = 0 ∧ c.dstSpace = 0) ∨ c.srcSpace = 3 ∨ c.dstSpace = 3 ∨ c.len = 0 ∨ 2 ^ 40 < c.len ∨ 4095 < c.sync then .DMA_FORMAT
  else if (c.srcSpace = 2 ∧ (s.part.pcie ∨ s.hdmSize < c.src + c.len)) ∨ (c.dstSpace = 2 ∧ (s.part.pcie ∨ s.hdmSize < c.dst + c.len)) then .ADDRESS_UNMAPPED
  else if (s.sideFar c.srcSpace c.src && (c.src % 64 != 0 || c.len % 64 != 0)) || (s.sideFar c.dstSpace c.dst && (c.dst % 64 != 0 || c.len % 64 != 0)) then .REMOTE_ALIGN
  else .OK

/-- What a DMA_COPY reads. -/
def State.dmaCopyRead (s : State) (c : DmaCopy) (far : Tab Byte) : Rd :=
  if c.srcSpace = 0 then { st := s, bytes := s.hostRead c.src c.len }
  else if s.sideFar c.srcSpace c.src then { st := s, bytes := Tab.getList far c.src c.len }
  else
    let ps := s.spacePieces c.srcSpace c.src c.len
    match s.blocked ps with
    | some (x, e) => { st := s.reportBlocked x e Src.host, code := e, addr := x }
    | none => s.readPieces { src := Src.host, alt := if c.altValid then some (s.loc c.src, s.loc c.alt) else none } ps

/-- It completes: RESULT0 is the tiles recovered from ALT, and POST posts its object. -/
def State.dmaCopyEnd (s : State) (d : Desc) (c : DmaCopy) (status : Code) (retried : Nat) : State :=
  (if c.post then s.objPost c.sync 1 reqHost else s).finish d status retried 0

/-- The bytes read go to the destination. -/
def State.dmaCopyWrite (s : State) (d : Desc) (c : DmaCopy) (r : Remote) : State :=
  let x := s.dmaCopyRead c r.far
  let ps := x.st.spacePieces c.dstSpace c.dst c.len
  if x.code ≠ .OK then
    (if x.code = .TILE_CRC ∧ c.dstSpace ≠ 0 ∧ !s.sideFar c.dstSpace c.dst then ps.foldl (fun t p => t.poisonRange p.1 p.2) x.st else x.st).dmaCopyEnd d c x.code x.retried
  else if c.dstSpace = 0 then (x.st.hostPut c.dst x.bytes).dmaCopyEnd d c .OK x.retried
  else if s.sideFar c.dstSpace c.dst then x.st.goOn { r with far := [], retried := x.retried } (farWrites (x.st.loc c.dst) x.bytes)
  else match x.st.blocked ps with
    | some (a, e) => (x.st.reportBlocked a e Src.host).dmaCopyEnd d c e x.retried
    | none => (x.st.writePieces (fun _ => {}) x.bytes ps).dmaCopyEnd d c .OK x.retried

/-- A DMA_COPY starts. -/
def State.dmaCopyStart (s : State) (d : Desc) (c : DmaCopy) : State :=
  let e := s.dmaCopyStatus c
  if e ≠ .OK then s.finish d e 0 0
  else if s.sideFar c.srcSpace c.src || s.sideFar c.dstSpace c.dst then
    s.launch (.copy d c) (if s.sideFar c.srcSpace c.src then farReads [(s.loc c.src, c.len)] else [])
  else s.dmaCopyWrite d c default

end Machine

end Sys2Proof
end

