-- ==== Sys2Proof/Machine/Topo.lean ====
section
/-! DEFINITION. Rings and their repair, step groups and notices (R370, R374 to R379, R383). -/

namespace Sys2Proof.Machine

/-! ### Members (R370, R374) -/

def State.linkRepair (s : State) : Bool := bitOf (s.cfg (fabReg Reg.TOPO_CFG)) 0
def State.substEn (s : State) : Bool := bitOf (s.cfg (fabReg Reg.TOPO_CFG)) 1
def State.collRetry (s : State) : Bool := bitOf (s.cfg (fabReg Reg.TOPO_CFG)) 2
/-- REPAIR_WAIT and COLL_WAIT in ticks. -/
def State.repairWait (s : State) : Nat := s.fld (fabReg Reg.TOPO_CFG) 4 8 * 10000000
def State.collWait (s : State) : Nat := s.fld (fabReg Reg.TOPO_CFG) 12 8 * 100000

/-- R383. -/
def State.sorano (s : State) : Bool :=
  bitOf (s.cfg (fabReg Reg.TOPO_CFG)) 3 || s.live.coord.any (fun e => bitOf e.2 37 && bitOf e.2 38)
    || (List.range 16).any (fun p => s.portUp p && (s.port p).nkind == 1)

/-- The module at physical position `p` of this module's ring of dimension `d`. -/
def State.moduleAt (s : State) (d p : Nat) : Option Nat :=
  if p = s.ringPos d then some s.moduleId
  else (s.live.coord.find? (fun e => bitOf e.2 37 && (List.range 3).all (fun e' => coordPos e.2 e' == (if e' = d then p else s.ringPos e')))).map (·.1)

/-- Logical position of a physical one: the spare's position is skipped (R374). -/
def State.logical (s : State) (d p : Nat) : Nat := if s.sparePos d < p then p - 1 else p

/-- The live members of this module's ring of dimension `d` in logical order: a lost module's place is its spare's, or falls out. -/
def State.members (s : State) (d : Nat) : List Nat :=
  ((List.range (s.ringSize d)).filter (fun p => p != s.sparePos d)).filterMap (fun p =>
    if (s.ring d).lost.contains p then
      (match (s.ring d).sub with | some (l, m) => if l = s.logical d p then some m else none | none => none)
    else s.moduleAt d p)

/-- This module's logical position in its ring. -/
def State.myPlace (s : State) (d : Nat) : Nat := (s.members d).findIdx (· == s.moduleId)

/-! ### Step groups (R375) -/

/-- The dimensions that an image's collectives take part in. -/
def imageDims (g : Image) : List Nat := (List.range 3).filter (fun d => g.colls.any (fun c => bitOf c.dims d))

/-- The dimensions of the module's step group: those of its loaded images. -/
def State.groupDims (s : State) : List Nat :=
  (List.range 3).filter (fun d => s.images.any (fun e => match e.2 with | some g => (imageDims g).contains d | none => false))

def State.inGroup (s : State) : Bool := !s.groupDims.isEmpty

/-- The steward at logical position 0 in every dimension leads. -/
def State.isLead (s : State) : Bool := s.groupDims.all (fun d => s.myPlace d == 0)

/-- The other modules of the group: those whose positions differ from this module's in dimensions of the group only. -/
def State.groupOthers (s : State) : List Nat :=
  (s.live.coord.filter (fun e => bitOf e.2 37 && !bitOf e.2 38 && e.1 != s.moduleId
    && (List.range 3).all (fun d => if s.groupDims.contains d then coordPos e.2 d != s.sparePos d && !(s.ring d).lost.contains (coordPos e.2 d)
                                     else coordPos e.2 d == s.ringPos d))).map (·.1)

/-- R375: a member commits a step only after the lead has received every clean report. -/
def State.mayCommit (s : State) : Bool :=
  !s.inGroup || (if s.isLead then s.groupOthers.all (fun m => s.topo.clean.contains m) else s.topo.go)

/-- The lead's announcement reaches a member's mailbox; the member admits that step at its next boundary; with `flip` it is the flip step of a group COMMIT, and the member flips the slot that it has promised (R375, R401). -/
def execStepAnnounce (n : Nat) (flip : Bool) (s : State) : Host.Outcome State Fault Refusal :=
  .next (if s.inGroup && !s.isLead then
      (let s1 := { s with topo := { s.topo with announced := some n } }
       match s.inst.promised with
       | some i => if flip then { s1 with inst := { s1.inst with promised := none, flips := s1.inst.flips ++ [(i, none)] } } else s1
       | none => s1)
    else s)

/-- A report on step `n` reaches the mailbox: at the lead a member's own, clean or of a fault; at a member the lead's, that every report is clean or that the step is committed on no member (R375, R414). -/
def execCleanReport (m n : Nat) (clean : Bool) (s : State) : Host.Outcome State Fault Refusal :=
  .next (if s.inGroup && s.step.running && n == s.step.num then
      (if !clean then s.abandon .transport .OK 0 []
       else if s.isLead then { s with topo := { s.topo with clean := m :: s.topo.clean.filter (· != m) } }
       else { s with topo := { s.topo with go := true } })
    else s)

/-- R419: the lead passes on a REWIND notice, and each member rewinds its own sequences to their admissions at the step it names. -/
def execRewindNotice (first : Nat) (s : State) : Host.Outcome State Fault Refusal :=
  .next (if s.inGroup then s.openWindow { cls := .reduction, first := first, last := s.step.num, all := true } else s)

/-! ### Cuts and lost members (R376 to R379) -/

/-- The requests of the groups that use a ring. -/
def State.ringRequests (s : State) (d : Nat) : List Nat :=
  (s.reqs.filter (fun e => e.2.st != .closed && (match s.image e.2.image with | some g => (imageDims g).contains d | none => false))).map (·.1)

/-- They pause with reason FAULT at the next step boundary. -/
def State.stopRing (s : State) (d : Nat) : State :=
  { s with step := { s.step with excluded := s.step.excluded ++ s.ringRequests d } }

/-- Instances that a cut meets complete as COLL_FAILED at the abandoned step (Table 12-4); `fail` completes one. -/
def State.failInstances (s : State) (d : Nat) (fail : State → Instance → State) : State :=
  (s.topo.instances.filter (fun x => match s.image (x.key / 4096) with
    | some g => match g.colls[x.key % 4096]? with | some c => bitOf c.dims d | none => false
    | none => false)).foldl fail s

/-- Physical positions that two cuts enclose, where they enclose exactly one. -/
def enclosed (n a b : Nat) : Option Nat :=
  if (b + n - a) % n = 1 then some b else if (a + n - b) % n = 1 then some a else none

/-- R378: the module at position `k` is lost; `spareReady` says that the ring's spare holds its cord in its ACTIVE bank. -/
def State.memberLost (s : State) (d k : Nat) (spareReady : Bool) : State :=
  let r := s.ring d
  let spare := if s.sparePos d ≠ 0x7F ∧ s.substEn then s.moduleAt d (s.sparePos d) else none
  let s1 := s.setRing d { r with state := 2, lost := k :: r.lost.filter (· != k) }
  match spare with
  | some m =>
    if spareReady then s1.setRing d { s1.ring d with awaiting := some (s.logical d k, m) }
    else (s1.stopRing d).raise .TOPO_SPARE_PROGRAMMING Src.steward [d, k, m]
  | none => if s.replica d then s1 else (s1.stopRing d).raise .TOPO_MEMBER_LOST Src.steward [d, k, 1]

/-- R376, R378, R379: a link of a ring is cut. -/
def State.cutLink (s : State) (d l : Nat) (spareReady : Bool) (fail : State → Instance → State) : State :=
  let r := s.ring d
  if r.cut = some l ∨ r.cutB = some l then
    (if r.state = 2 ∧ spareReady ∧ r.sub.isNone ∧ r.awaiting.isNone then s.memberLost d (r.lost.headD 0) true else s)
  else
    let s1 := s.failInstances d fail
    let s2 := s1.abandon .transport .OK 0 []
    let s3 := match r.cut with
      | none => s2.setRing d { r with cut := some l, state := 1, seq := (r.seq + 1) % 2 ^ 16 }
      | some a =>
        let s4 := s2.setRing d { r with cutB := some l, seq := (r.seq + 1) % 2 ^ 16 }
        (match (if r.cutB.isSome then none else enclosed (s.ringSize d) a l) with
         | some k => s4.memberLost d k spareReady
         | none => ((s4.setRing d { s4.ring d with state := 3 }).stopRing d).raise .TOPO_SPLIT Src.steward [d, a, l])
    ((s3.raise .TOPO_CUT Src.steward [d, l]).bump (fabReg Reg.TOPO_REPAIR_TOTAL) 1).reroute

/-- R377, R383: the groups on the ring stop. -/
def State.fabricStop (s : State) (d l : Nat) : State :=
  ((s.setRing d { s.ring d with stopped := true }).stopRing d).raise .FABRIC_STOPPED Src.steward [d, l]

/-- This module's end of a link of its ring: both ports out of UP since a tick (R376). -/
def State.linkDown (s : State) (d l : Nat) : Option Nat :=
  let n := s.ringSize d
  let up := l == s.ringPos d
  let down := (l + 1) % n == s.ringPos d
  if n < 2 ∨ n ≤ l ∨ (!up && !down) then none
  else
    let p := dimPort d up false
    let q := dimPort d up true
    if s.portUp p || s.portUp q then none else some (max (s.port p).left (s.port q).left)

/-- REPAIR_WAIT passes for a link at this module. The notice that it writes into its other ring neighbour's mailbox has no layout in the manual, and the model sends no frame for it (log 53). -/
def State.repairDue (s : State) (d l : Nat) (spareReady : Bool) (fail : State → Instance → State) : State :=
  match s.linkDown d l with
  | none => s
  | some t =>
    if s.time.tick < t + s.repairWait then s
    else if s.sorano || !s.linkRepair then (if (s.ring d).stopped then s else s.fabricStop d l)
    else s.cutLink d l spareReady fail

/-- R376: a repair notice not yet seen is applied, and passed on away from its origin. -/
def State.repairNotice (s : State) (d l origin seq : Nat) (spareReady : Bool) (fail : State → Instance → State) : State :=
  if s.topo.notices.contains (d, l, origin, seq) ∨ s.ringSize d < 2 then s
  else
    let s1 := { s with topo := { s.topo with notices := (d, l, origin, seq) :: s.topo.notices } }
    if s.sorano || !s.linkRepair then (if (s.ring d).stopped then s1 else s1.fabricStop d l) else s1.cutLink d l spareReady fail

/-- R378: at the group's next step boundary the spare takes the positions of the module that it replaces. -/
def State.topoBoundary (s : State) : State :=
  (List.range 3).foldl (fun s d => match (s.ring d).awaiting with
    | some (l, m) => ((s.setRing d { s.ring d with awaiting := none, sub := some (l, m) }).raise .TOPO_SPARE_IN Src.steward [d, l, m]).reroute
    | none => s) s

/-- A link of a ring that an image uses is down and not yet cut: the lead admits no step that uses the ring (R376, R377). -/
def State.ringHeld (s : State) (g : Image) : Bool :=
  (imageDims g).any (fun d =>
    let n := s.ringSize d
    [s.ringPos d, (s.ringPos d + n - 1) % n].any (fun l => (s.linkDown d l).isSome && (s.ring d).cut != some l && (s.ring d).cutB != some l))

/-- R379: a host commit of a dimension or of the coordinate map clears its cuts and substitutions. -/
def State.clearRings (s : State) (ds : List Nat) : State :=
  (ds.foldl (fun s d => s.setRing d { seq := (s.ring d).seq }) s).reroute

end Sys2Proof.Machine
end

