-- ==== Sys2Proof/Machine/Coll.lean ====
section
/-! DEFINITION. Collectives: instances, their stages, records, digests, failures and reruns (R358 to R369), and the answers to remote frames (R352 to R354). -/

namespace Sys2Proof

namespace ImageColl

/-- Bytes of a word. -/
def word (c : ImageColl) : Nat := if c.i32 then 4 else 8
/-- The dimensions of the stages, ascending. -/
def stages (c : ImageColl) : List Nat := (List.range 3).filter (fun d => bitOf c.dims d)
/-- ALL_REDUCE. -/
def allReduce (c : ImageColl) : Bool := c.kind == 0

end ImageColl

/-- Chunk `j` of a span of words cut for `n` members: first word and words (12, How an instance runs). -/
def chunkOf (c : ImageColl) (span : Nat × Nat) (n j : Nat) : Nat × Nat :=
  let per := 64 / c.word
  let b := span.2 / per
  let q := if n = 0 then 0 else b / n
  let r := if n = 0 then 0 else b % n
  (span.1 + per * (j * q + min j r), per * (q + (if j < r then 1 else 0)))

namespace Machine

/-! ### Definitions and instances -/

def State.collDef (s : State) (key : Nat) : Option ImageColl := (s.image (key / 4096)).bind (fun g => g.colls[key % 4096]?)
def State.instanceOf (s : State) (key : Nat) : Option Instance := s.topo.instances.find? (fun x => x.key == key)

def State.setInstance (s : State) (x : Instance) : State :=
  { s with topo := { s.topo with instances := s.topo.instances.map (fun y => if y.key = x.key then x else y) } }

/-- The span with which this member enters reduce-scatter stage `k`. -/
def State.spanAt (s : State) (c : ImageColl) : Nat → Nat × Nat
  | 0 => (0, c.words)
  | k + 1 =>
    let d := c.stages.getD k 0
    chunkOf c (s.spanAt c k) (s.members d).length (s.myPlace d)

/-- Address of word `i` of stage area `k` in the ACC half of an instance (R361). -/
def accAddr (c : ImageColl) (number k i : Nat) : Nat := c.acc + ((number % 2 * c.stages.length + k) * c.words + i) * c.word

/-- The exact words of a stage area: guarded FX64 values, or int32. -/
def State.stageWords (s : State) (c : ImageColl) (number k : Nat) (span : Nat × Nat) : List Int :=
  (List.range span.2).map (fun i =>
    let a := accAddr c number k (span.1 + i)
    if c.i32 then signed 32 (s.natAt a 4) else s.fxWord a)

/-- The words of a plain buffer. -/
def State.plainWords (s : State) (c : ImageColl) (base : Nat) (span : Nat × Nat) : List Int :=
  (chunkNats c.word span.2 (s.bytesAt (base + c.word * span.1) (c.word * span.2))).map (signed (8 * c.word))

/-- The words that this member puts into reduce-scatter stage `k`: SRC, or the checked result of the stage before. -/
def State.stageInput (s : State) (c : ImageColl) (x : Instance) (k : Nat) (span : Nat × Nat) : List Int :=
  if k = 0 then s.plainWords c c.src span else s.stageWords c x.number (k - 1) span

/-- A tile of a range carries a flag. -/
def State.anyTile (s : State) (a n : Nat) (p : Tile → Bool) : Bool := (piecesOf a n).any (fun x => p (s.tile (x.1 / 4096)))

def Instance.seed (x : Instance) (c : ImageColl) : Nat := collSeed x.step c.id x.number x.attempt

def arrivedKey (key number stage sender : Nat) : Nat := ((key * 2 + number % 2) * 8 + stage) * 64 + sender

/-! ### Records (R366) -/

/-- Table 12-2. -/
structure CollRec where
  type : Nat
  dim : Nat
  sender : Nat
  flags : Nat
  id : Nat
  number : Nat
  step : Nat
  digest : Nat
  first : Nat
  words : Nat
  deriving DecidableEq, Repr, Inhabited

def parseRec (bs : List Byte) : CollRec :=
  { type := fieldAt bs 0 1, dim := fieldAt bs 1 1, sender := fieldAt bs 2 1, flags := fieldAt bs 3 1, id := fieldAt bs 4 2, number := fieldAt bs 6 2
    step := fieldAt bs 8 8, digest := fieldAt bs 16 8 % 2 ^ 61, first := fieldAt bs 24 4, words := fieldAt bs 28 4 }

def CollRec.bytes (r : CollRec) : List Byte :=
  leBytes 1 r.type ++ leBytes 1 r.dim ++ leBytes 1 r.sender ++ leBytes 1 r.flags ++ leBytes 2 r.id ++ leBytes 2 r.number ++ leBytes 8 r.step
    ++ leBytes 8 r.digest ++ leBytes 4 r.first ++ leBytes 4 r.words ++ leBytes 32 0

/-- Address of the record of a sender in REC. -/
def recAddr (c : ImageColl) (d sender type : Nat) : Nat := c.recs + ((d * 64 + sender) * 3 + type - 1) * 64

/-- The record that this member writes for an instance. -/
def State.recordOf (s : State) (c : ImageColl) (x : Instance) (type d digest : Nat) (span : Nat × Nat) : CollRec :=
  { type := type, dim := d, sender := s.myPlace d, flags := b2n x.overflow + 2 * b2n x.sat + 4 * x.attempt, id := c.id, number := x.number
    step := x.step, digest := digest, first := span.1, words := span.2 }

/-- A record goes to a module: one 64-byte block of a TILE_WRITE_MASKED frame. -/
def State.sendRecord (s : State) (key number attempt m a : Nat) (bs : List Byte) : State :=
  s.launch (.coll key number attempt none) (writeFrames m [(a, 64)] bs) true

/-- The frames of a stage go to a member, and its record after every one of them is answered (R361, R362); a Sorano module takes no records (R383). -/
def State.sendStage (s : State) (c : ImageColl) (x : Instance) (m type d digest : Nat) (span : Nat × Nat) (fs : List Frame) : State :=
  s.launch (.coll x.key x.number x.attempt
    (if bitOf (Tab.get s.live.coord m) 38 then none else some (m, recAddr c d (s.myPlace d) type, (s.recordOf c x type d digest span).bytes))) fs true

/-- R366: the record in REC belongs to the instance in progress. -/
def CollRec.matches (r : CollRec) (c : ImageColl) (x : Instance) (type d sender : Nat) : Bool :=
  r.type == type && r.dim == d && r.sender == sender && r.id == c.id && r.number == x.number % 2 ^ 16 && r.step == x.step && r.flags / 4 % 2 == x.attempt

/-! ### The end of an instance (R359, R369) -/

/-- The ACC half of an instance is cleared. -/
def State.clearHalf (s : State) (c : ImageColl) (number : Nat) : State :=
  let a := accAddr c number 0 0
  let n := c.stages.length * c.words * c.word
  (piecesOf a n).foldl (fun s p => if p.2 = 4096 then s.clearTile (p.1 / 4096) else s.putBytes p.1 (leBytes p.2 0)) s

/-- The frames of an abandoned attempt are given up. -/
def State.dropColl (s : State) (x : Instance) : State :=
  { s with fab := { s.fab with remotes := s.fab.remotes.filter (fun r => match r.issuer with | .coll k n _ _ => k != x.key || n != x.number | _ => true) } }

/-- R359: STATUS is written, the ACC half cleared, DONE_OBJ posted, and the next instance may start. -/
def State.collEnd (s : State) (c : ImageColl) (x : Instance) (status : Code) : State :=
  let flags := b2n x.overflow + 2 * b2n x.sat + 4 * b2n x.unchecked + 8 * b2n x.rerun
  let n := (c.stages.map (fun d => (s.members d).length)).foldl (· * ·) 1
  let w := leBytes 2 x.number ++ leBytes 2 (statusNumber status) ++ leBytes 1 flags ++ leBytes 1 n ++ leBytes 2 0 ++ leBytes 8 x.step
  let s1 := (s.putBytes c.status w).clearHalf c x.number
  let s2 := { s1 with topo := { s1.topo with instances := s1.topo.instances.filter (fun y => y.key != x.key)
                                             arrived := s1.topo.arrived.filter (fun e => e.1 / 512 != x.key * 2 + x.number % 2) }
                      step := { s1.step with collRuns := (x.step, x.key) :: s1.step.collRuns } }
  (s2.objPost c.done 1 reqColl).bump (fabReg Reg.COLL_RUN_TOTAL) 1

/-- R369: it completes with COLL_FAILED and OUT poisoned; a sender in the mismatches of two failed instances within 64 steps is reported as a suspect. -/
def State.collFailed (s : State) (c : ImageColl) (x : Instance) (sender : Option Nat) : State :=
  let again := match sender with
    | some m => s.topo.suspects.any (fun e => e.1 == m && decide (x.step ≤ e.2 + 64))
    | none => false
  let s1 := match sender with
    | some m => { s with topo := { s.topo with suspects := (m, x.step) :: s.topo.suspects } }
    | none => s
  let s2 := (piecesOf c.out (c.words * c.word)).foldl (fun s p => s.poison (p.1 / 4096)) s1
  ((s2.collEnd c x .COLL_FAILED).raise .COLL_FAILED (Src.ofMdie 0) [x.key, x.number, if again then 1 + sender.getD 0 else 0]).bump (fabReg Reg.COLL_FAIL_TOTAL) 1

/-! ### Stages (R361, R362) -/

/-- Local additions into a stage area. -/
def State.addLocal (s : State) (c : ImageColl) (k : Int) : Nat → Nat → List Int → State
  | 0, _, _ => s
  | f + 1, a, ws =>
    let n := 64 / c.word
    if ws.isEmpty then s
    else State.addLocal (s.payload (Src.ofMdie 0) 0 { i32 := c.i32, target := a, words := ws.take n, k := k }) c k f (a + 64) (ws.drop n)

/-- Reduce-scatter stage `k` starts: additions to every member of its ring. -/
def State.enterReduce (s : State) (c : ImageColl) (x : Instance) (k : Nat) : State :=
  let d := c.stages.getD k 0
  let ms := s.members d
  let span := s.spanAt c k
  let kk := ((s.atomAt c.acc).map (·.k)).getD 0
  let mine := s.myPlace d
  let y := chunkOf c span ms.length mine
  let own := digestOf (x.seed c) (y.1 + 1) (s.stageInput c x k y)
  let s1 := s.setInstance { x with stage := k, passed := [], own := own }
  ms.zipIdx.foldl (fun s e =>
    let z := chunkOf c span ms.length e.2
    let ws := s.stageInput c x k z
    let a := accAddr c x.number k z.1
    if e.2 = mine then s.addLocal c kk (ws.length + 1) a ws
    else s.sendStage c x e.1 1 d (digestOf (x.seed c) (z.1 + 1) ws) z (addFrames c.i32 kk (s.anyTile c.src (c.words * c.word) (·.sat) && k == 0) e.1 (ws.length + 1) a ws)) s1

/-- All-gather over the stage `k` starts: this member's span goes into OUT at every other member of the ring. -/
def State.enterGather (s : State) (c : ImageColl) (x : Instance) (k : Nat) : State :=
  let d := c.stages.getD k 0
  let ms := s.members d
  let y := s.spanAt c (k + 1)
  let a := c.out + c.word * y.1
  let s1 := s.setInstance { x with stage := 2 * c.stages.length - 1 - k, passed := [] }
  ms.zipIdx.foldl (fun s e =>
    if e.2 = s.myPlace d then s
    else s.sendStage c x e.1 2 d (digestOf (x.seed c) (y.1 + 1) (s.plainWords c c.out y)) y (writeFrames e.1 (piecesOf a (c.word * y.2)) (s.bytesAt a (c.word * y.2)))) s1

/-- The first all-gather stage begins with the final chunk in this member's own OUT, its flags in OUT's check words (R362, R363). -/
def State.finalChunk (s : State) (c : ImageColl) (x : Instance) : State :=
  let n := c.stages.length
  let y := s.spanAt c n
  let ws := s.stageWords c x.number (n - 1) y
  let a := c.out + c.word * y.1
  let s1 := s.putBytes a (ws.flatMap (fun v => leBytes c.word (encodeInt (8 * c.word) v)))
  (piecesOf a (c.word * y.2)).foldl (fun s p =>
    s.setTile (p.1 / 4096) { s.tile (p.1 / 4096) with overflow := (s.tile (p.1 / 4096)).overflow || x.overflow, sat := (s.tile (p.1 / 4096)).sat || x.sat }) s1

/-- The sender's place in a ring is a Sorano module, which sends no records (R383). -/
def State.soranoAt (s : State) (d j : Nat) : Bool :=
  match (s.members d)[j]? with
  | some m => bitOf (Tab.get s.live.coord m) 38
  | none => false

/-! ### Failures and reruns (R368) -/

/-- The attempt starts from SRC. -/
def State.collStart (s : State) (c : ImageColl) (x : Instance) : State := s.enterReduce c { x with passed := [], sums := [] } 0

/-- An attempt whose frames have been given up runs again with attempt 1 and a new seed. -/
def State.rerunNow (s : State) (c : ImageColl) (x : Instance) : State :=
  let s1 := s.clearHalf c x.number
  let s2 := { s1 with topo := { s1.topo with arrived := s1.topo.arrived.filter (fun e => e.1 / 512 != x.key * 2 + x.number % 2) } }
  (s2.bump (fabReg Reg.COLL_RERUN_TOTAL) 1).collStart c { x with attempt := 1, rerun := true, overflow := false, sat := false, unchecked := false }

/-- R368: an attempt fails, with the event that tells it: stage, sender, receiver and both digests. -/
def State.collFail (s : State) (c : ImageColl) (x : Instance) (event : Code) (sender : Option Nat) (args : List Nat) : State :=
  let s1 := (s.raise event (Src.ofMdie 0) ([x.key, x.stage, sender.getD 0xFFFF, s.moduleId] ++ args)).bump (fabReg Reg.COLL_MISMATCH_TOTAL)
    (if event = .COLL_MISMATCH then 1 else 0)
  if s.collRetry && x.attempt == 0 then
    (c.stages.foldl (fun s d => (s.members d).foldl (fun s m => if m = s.moduleId then s else s.sendRecord x.key x.number x.attempt m (recAddr c d (s.myPlace d) 3) (s.recordOf c x 3 d 0 (0, 0)).bytes) s) (s1.dropColl x)).rerunNow c x
  else s1.collFailed c x sender

/-! ### Progress (R367) -/

/-- Arrival: the digest of what a sender's record of the stage covers. -/
def State.arrivalDigest (s : State) (c : ImageColl) (x : Instance) (k j : Nat) (r : CollRec) (gather : Bool) : Nat :=
  if gather then digestOf (x.seed c) (r.first + 1) (s.plainWords c c.out (r.first, r.words)) else Tab.get s.topo.arrived (arrivedKey x.key x.number k j)

/-- The next stage, or the end, after a stage has passed; `fuel` bounds stages that pass at once. -/
def State.nextStage (s : State) (c : ImageColl) (x : Instance) : State :=
  let n := c.stages.length
  if x.stage + 1 < n then s.enterReduce c x (x.stage + 1)
  else if x.stage + 1 = n then
    let s1 := s.finalChunk c x
    if c.allReduce then s1.enterGather c x (n - 1) else s1.collEnd c x .OK
  else if x.stage + 1 < 2 * n then s.enterGather c x (2 * n - 2 - x.stage)
  else
    -- R367, Completion: the whole of OUT against the chunks as checked
    let whole := digestOf (x.seed c) 1 (s.plainWords c c.out (0, c.words))
    let parts := x.sums.foldl (fun a b => (a + b) % digestPrime) 0
    if x.unchecked || x.sat || x.overflow || whole == parts then s.collEnd c x .OK else s.collFail c x .COLL_MISMATCH none [parts, whole]

/-- The checks of the stage in progress: records present in REC are checked as they arrive; when every member's has passed, the result is checked and the next stage starts. -/
def State.collStep (s : State) (key : Nat) : State :=
  match s.instanceOf key, s.collDef key with
  | some x, some c =>
    let n := c.stages.length
    let gather := decide (n ≤ x.stage)
    let k := if gather then 2 * n - 1 - x.stage else x.stage
    let d := c.stages.getD k 0
    let ms := s.members d
    let mine := s.myPlace d
    let type := if gather then 2 else 1
    let slot (j : Nat) : CollRec := parseRec (s.bytesAt (recAddr c d j type) 64)
    let here := (List.range ms.length).filter (fun j => j != mine && !s.soranoAt d j && !x.passed.contains j && (slot j).matches c x type d j)
    match here.find? (fun j => s.arrivalDigest c x k j (slot j) gather != (slot j).digest) with
    | some j => s.collFail c x .COLL_MISMATCH ms[j]? [(slot j).digest, s.arrivalDigest c x k j (slot j) gather]
    | none =>
      let x1 := { x with passed := x.passed ++ here
                         overflow := x.overflow || here.any (fun j => bitOf (slot j).flags 0), sat := x.sat || here.any (fun j => bitOf (slot j).flags 1)
                         sums := if gather then x.sums ++ here.map (fun j => (slot j).digest) else x.sums }
      let free := (List.range ms.length).any (fun j => s.soranoAt d j)
      if (List.range ms.length).any (fun j => j != mine && !s.soranoAt d j && !x1.passed.contains j) then s.setInstance x1
      else if gather then s.nextStage c { x1 with unchecked := x1.unchecked || free }
      else
        let y := chunkOf c (s.spanAt c k) ms.length mine
        let a := accAddr c x.number k y.1
        let sat := s.anyTile a (c.word * y.2) (·.sat)
        let past := (s.stageWords c x.number k y).any (fun v => !c.i32 && !fitsInt 64 v)
        let got := digestOf (x.seed c) (y.1 + 1) (s.stageWords c x.number k y)
        let want := (ms.zipIdx.filter (fun e => e.2 != mine)).foldl (fun t e => (t + (slot e.2).digest) % digestPrime) x.own
        let x2 := { x1 with overflow := x1.overflow || past, sat := x1.sat || sat, unchecked := x1.unchecked || free
                            sums := if k + 1 = n then [got] else [] }
        if sat || free || got == want then s.nextStage c x2 else s.collFail c x1 .COLL_MISMATCH none [want, got]
  | _, _ => s

/-- Stages that pass at once follow one another. -/
def State.collAdvance (s : State) (key : Nat) : Nat → State
  | 0 => s
  | f + 1 =>
    let t := s.collStep key
    if (t.instanceOf key).map (fun x => (x.stage, x.attempt)) = (s.instanceOf key).map (fun x => (x.stage, x.attempt)) then t else State.collAdvance t key f

/-! ### Answers -/

/-- R359: START_OBJ has reached START_COUNT and no instance of the definition runs. -/
def State.collBegin (s : State) (key : Nat) : State :=
  match s.collDef key with
  | none => s
  | some c =>
    if (s.instanceOf key).isSome || !waitHolds false (s.obj c.start).val c.count || !(s.obj c.start).allocated || c.stages.isEmpty then s
    else
      let n := Tab.get s.topo.started key
      let x : Instance := { key := key, number := n % 2 ^ 16, step := s.step.num, start := s.time.tick }
      let s1 := s.objSet c.start 0 reqColl
      let s2 := { s1 with topo := { s1.topo with started := Tab.set s1.topo.started key (n + 1), instances := s1.topo.instances ++ [x] } }
      (s2.collStart c x).collAdvance key 16

/-- A remote operation that has ended leaves the outstanding ones and its issuer goes on. A chunk whose write failed waits to be sent again from its start (R396). -/
def State.endRemote (s : State) (r : Remote) : State :=
  match r.issuer, r.failed with
  | .op q o, some (c, a) => s.opRan q o c 0 a
  | .op q o, none => if r.wrote then s.opRan q o .OK 0 0 else s.copyWrites q o r
  | .dma g p, some (c, _) => s.dmaEnd g p (parseDma s.loc p.flits) { st := s, codes := [c], out := 0, skipped := r.skipped, retried := r.retried }
  | .dma g p, none =>
    if r.wrote then s.dmaEnd g p (parseDma s.loc p.flits) { st := s, codes := [r.code], out := r.out, skipped := r.skipped, retried := r.retried }
    else s.dmaWrites g p r
  | .post _, _ => s
  | .copy d c, some (e, _) => s.dmaCopyEnd d c e r.retried
  | .copy d c, none => if r.wrote then s.dmaCopyEnd d c .OK r.retried else s.dmaCopyWrite d c r
  | .coll key n k _, some (_, a) =>
    (match s.instanceOf key, s.collDef key with
     | some x, some c => if x.number = n ∧ x.attempt = k then s.collFail c x .COLL_MISMATCH none [a, 0] else s
     | _, _ => s)
  | .chain i c, some _ => s.setSlot i { s.slot i with forward := c :: (s.slot i).forward, unfreed := (s.slot i).unfreed - 1 }
  | .chain _ _, none => s
  | .coll key n k (some (m, a, bs)), none => s.sendRecord key n k m a bs
  | .coll _ _ _ none, none => s

/-- The first operation that has ended: failed, or with every frame answered. -/
def endedRemote : List Remote → Option Nat
  | [] => none
  | r :: t => if r.failed.isSome || r.frames.isEmpty then some 0 else (endedRemote t).map (· + 1)

/-- Ended operations are closed one after another; `fuel` bounds what follows from them. -/
def State.closeRemotes : Nat → State → State
  | 0, s => s
  | f + 1, s =>
    match endedRemote s.fab.remotes with
    | none => s
    | some i => State.closeRemotes f ({ s with fab := { s.fab with remotes := s.fab.remotes.eraseIdx i } }.endRemote (s.remote i))

/-- What follows from a command that may have ended remote operations. -/
def State.settled (s : State) : State := s.closeRemotes 4096

/-! ### Commands of the issuing side -/

def execCopyOp (q : Nat) (ecc : List HbmReport) (s : State) : Host.Outcome State Fault Refusal :=
  .next (match (s.seq q).next .copy 0x1A with
    | some o => if s.copyBusy q then s else ((s.hbmReports ecc).copyStart q o).settled
    | none => s)

def execAddFx64 (q : Nat) (s : State) : Host.Outcome State Fault Refusal := .next (s.atomicGo q false).settled

def execAddI32Sat (q : Nat) (s : State) : Host.Outcome State Fault Refusal := .next (s.atomicGo q true).settled

def execDmaCommand (g : Nat) (ecc : List HbmReport) (s : State) : Host.Outcome State Fault Refusal :=
  .next ((s.hbmReports ecc).dmaCommand g).settled

/-- A Hearth core's post to an object of another module goes out as a POST frame; any other post reaches its object (R315, R352). -/
def State.hearthPost (s : State) (g n v : Nat) : State :=
  if n / 2 ^ 48 = s.moduleId ∨ n < 4096 then s.objPost (n % 2 ^ 48) v (Who.hearth g).number
  else (s.launch (.post g) [mkFrame fkPost (n / 2 ^ 48 % 2 ^ 16) (n % 4096) (leBytes 4 v ++ leBytes 4 0)] true).settled

def execSyncPost (m : SyncSrc) (s : State) : Host.Outcome State Fault Refusal :=
  .next (match m with
    | .flight i => match s.flightAt i .post with
      | some y => (s.landed i).objPost y.obj y.val y.who.number (some y)
      | none => s
    | .hearth g n v _ => s.hearthPost g n v)

def execDmaCopy (h : Hdr) (c : DmaCopy) (s : State) : Host.Outcome State Fault Refusal :=
  .next (s.descriptor h clsDma fun s d => s.dmaCopyStart d c).settled

/-! ### Answers to frames (R353, R354) -/

/-- The operation and frame that an answer names. -/
def State.answered (s : State) (f : Frame) : Option (Nat × Nat) :=
  let hit (x : RFrame) : Bool := x.sent && x.module == f.src && x.frame.tag == f.tag && x.frame.addr == f.addr
  (s.fab.remotes.findIdx? (fun r => r.frames.any hit)).map (fun i => (i, (s.remote i).frames.findIdx hit))

/-- A late answer is dropped and counted (R354). -/
def State.lateAnswer (s : State) : State := s.bump (fabReg Reg.REMOTE_TIMEOUT_TOTAL) 1

/-- A frame is answered: it leaves its operation, with the bytes of a READ_TILE, and what it held back is issued. -/
def State.frameDone (s : State) (i j : Nat) (far : Option (Nat × List Byte)) : State :=
  let r := s.remote i
  let bytes := match far with | some (a, bs) => Tab.setList r.far a bs | none => r.far
  ((s.setRemote i { r with frames := r.frames.eraseIdx j, far := bytes }).pump i).settled

def execAck (p : Nat) (f : Frame) (s : State) : Host.Outcome State Fault Refusal :=
  .next (s.arrive p f fkAck fun t => match t.answered f with
    | some (i, j) => t.frameDone i j none
    | none => t.lateAnswer)

def execReadTile (p : Nat) (f : Frame) (s : State) : Host.Outcome State Fault Refusal :=
  .next (s.arrive p f fkTile fun t => match t.answered f with
    | some (i, j) => t.frameDone i j (some (f.src * 2 ^ 48 + f.target, f.body))
    | none => t.lateAnswer)

/-- A NACK ends its operation at once; `status` is the named code of its STATUS. -/
def execNack (p : Nat) (f : Frame) (status : Code) (s : State) : Host.Outcome State Fault Refusal :=
  .next (s.arrive p f fkNack fun t => match t.answered f with
    | some (i, _) => (t.failRemote i status f.target).settled
    | none => t.lateAnswer)

/-- RETRY_TIME in ticks, and RETRY_LIMIT. -/
def State.retryTime (s : State) : Nat := s.fld (fabReg Reg.FAB_CFG) 0 8 * 10000
def State.retryLimit (s : State) : Nat := s.fld (fabReg Reg.FAB_CFG) 8 3

/-- Idempotent kinds (Table 11-4). -/
def idempotent (kind : Nat) : Bool := kind == fkWrite || kind == fkMasked || kind == fkRead

/-- R353: frame `j` of operation `i` has been unanswered for RETRY_TIME. -/
def State.retry (s : State) (i j : Nat) : State :=
  let r := s.remote i
  match r.frames[j]? with
  | none => s
  | some x =>
    if !x.sent || decide (s.time.tick < x.since + s.retryTime) then s
    else if idempotent x.frame.kind && decide (x.resends < s.retryLimit) then
      match s.sendOut x.frame with
      | some t => ((t.setRemote i { r with frames := r.frames.set j { x with since := s.time.tick, resends := x.resends + 1 } }).bump (fabReg Reg.REMOTE_RETRY_TOTAL) 1)
      | none => (s.failRemote i .FABRIC_UNREACHABLE x.frame.target).settled
    else
      (((s.failRemote i (if idempotent x.frame.kind then .REMOTE_TIMEOUT else .REMOTE_UNKNOWN) x.frame.target).bump (fabReg Reg.REMOTE_TIMEOUT_TOTAL) 1).raise
        .REMOTE_TIMEOUT (Src.port 0) [x.module, x.frame.kind, x.frame.target]).settled

def execRetryTime (i j : Nat) (s : State) : Host.Outcome State Fault Refusal := .next (s.retry i j)

/-! ### Additions and records that arrive -/

/-- The definition whose ACC holds an address, with the half and stage that it lies in. -/
def State.collAt (s : State) (a : Nat) : Option (Nat × ImageColl) :=
  (s.images.flatMap (fun e => match e.2 with | some g => g.colls.zipIdx.map (fun c => (4096 * e.1 + c.2, c.1)) | none => [])).find?
    (fun x => decide (x.2.acc ≤ a) && decide (a < x.2.acc + 2 * x.2.stages.length * x.2.words * x.2.word))

/-- R367: the digest of the payload words received from a sender, by the instance that the ACC half belongs to. -/
def State.countArrived (s : State) (src a : Nat) (ws : List Int) : State :=
  match s.collAt a with
  | none => s
  | some (key, c) =>
    let w := (a - c.acc) / c.word
    let half := w / (c.stages.length * c.words)
    let k := w / c.words % c.stages.length
    let d := c.stages.getD k 0
    let run := s.instanceOf key
    let number := match run with | some x => if x.number % 2 = half then x.number else Tab.get s.topo.started key | none => Tab.get s.topo.started key
    let attempt := match run with | some x => if x.number = number then x.attempt else 0 | none => 0
    let step := match run with | some x => if x.number = number then x.step else s.step.num | none => s.step.num
    let j := (s.members d).findIdx (· == src)
    let kk := arrivedKey key number k j
    let sum := (Tab.get s.topo.arrived kk + digestOf (collSeed step c.id number attempt) (w % c.words + 1) ws) % digestPrime
    { s with topo := { s.topo with arrived := Tab.set s.topo.arrived kk sum } }

/-- ATOMIC_ADD applies its payloads in body order (R349). -/
def execAtomicAddFrame (p : Nat) (f : Frame) (s : State) : Host.Outcome State Fault Refusal :=
  .next (s.serve p f fkAtomic fun t =>
    let bs := cut 72 (f.count + 1) f.body
    let x := t.payloads (Src.port p) f.addr .OK bs
    (bs.foldl (fun s b => if (payloadFault b).isSome then s
                          else let y := framePayload f.addr b; s.countArrived f.src y.target y.words) x.1, x.2))

/-- The definition whose REC holds an address. -/
def State.recAt (s : State) (a : Nat) : Option (Nat × ImageColl) :=
  (s.images.flatMap (fun e => match e.2 with | some g => g.colls.zipIdx.map (fun c => (4096 * e.1 + c.2, c.1)) | none => [])).find?
    (fun x => decide (x.2.recs ≤ a) && decide (a < x.2.recs + 36864))

/-- A record has been written into REC by module `src`. -/
def State.recordArrived (s : State) (src a : Nat) : State :=
  match s.recAt a with
  | none => s
  | some (key, c) =>
    if !(c.stages.any (fun d => (s.members d).contains src)) then s.bump (fabReg Reg.COLL_MISMATCH_TOTAL) 1
    else
      let r := parseRec (s.bytesAt a 64)
      match s.instanceOf key with
      | some x => if r.type = 3 then (if r.matches c x 3 r.dim r.sender ∧ x.attempt = 0 then ((s.dropColl x).rerunNow c x).collAdvance key 16 else s) else s.collAdvance key 16
      | none => s

/-- A record arrives as one 64-byte block of a TILE_WRITE_MASKED frame (R366). -/
def execCollRecord (p : Nat) (f : Frame) (s : State) : Host.Outcome State Fault Refusal :=
  .next (s.serve p f fkMasked fun t =>
    let w := t.writeAll (Src.port p) (maskBlocks f)
    if w.code = .OK then ((maskBlocks f).foldl (fun s b => s.recordArrived f.src b.1) w.st, .OK) else (w.st, w.code)).settled

def execCollInstanceStart (key : Nat) (s : State) : Host.Outcome State Fault Refusal := .next (s.collBegin key).settled

/-- COLL_WAIT has passed since the instance started, with a record still to come (R368). -/
def execCollWait (key : Nat) (s : State) : Host.Outcome State Fault Refusal :=
  .next (match s.instanceOf key, s.collDef key with
    | some x, some c => if x.start + s.collWait ≤ s.time.tick then (s.collFail c x .COLL_TIMEOUT none [0, 0]).settled else s
    | _, _ => s)

/-! ### Repair -/

/-- A cut meets an instance: it completes as COLL_FAILED (Table 12-4). -/
def State.cutInstance (s : State) (x : Instance) : State :=
  match s.collDef x.key with
  | some c => s.collFailed c x none
  | none => s

def execRepairWait (d l : Nat) (spareReady : Bool) (s : State) : Host.Outcome State Fault Refusal :=
  .next (s.repairDue d l spareReady State.cutInstance)

def execRepairNotice (d l origin seq : Nat) (spareReady : Bool) (s : State) : Host.Outcome State Fault Refusal :=
  .next (s.repairNotice d l origin seq spareReady State.cutInstance)

end Machine

end Sys2Proof
end

