-- ==== Sys2Proof/Machine/Commit.lean ====
section
/-! DEFINITION. Sampling and the commit of a step (R33, R233, R235, R239 to R243, R278). -/

namespace Sys2Proof

/-! ### Philox4x32-10 (R239; the constants are those of the published generator, log 54) -/

structure Philox where
  c0 : Nat
  c1 : Nat
  c2 : Nat
  c3 : Nat
  deriving DecidableEq, Repr, Inhabited

/-- `n` rounds with the key that the round number gives. -/
def philoxRounds : Nat → Nat → Nat → Philox → Philox
  | 0, _, _, x => x
  | n + 1, k0, k1, x =>
    let p0 := 0xD2511F53 * x.c0
    let p1 := 0xCD9E8D57 * x.c2
    philoxRounds n ((k0 + 0x9E3779B9) % 2 ^ 32) ((k1 + 0xBB67AE85) % 2 ^ 32)
      { c0 := (p1 / 2 ^ 32) ^^^ x.c1 ^^^ k0, c1 := p1 % 2 ^ 32, c2 := (p0 / 2 ^ 32) ^^^ x.c3 ^^^ k1, c3 := p0 % 2 ^ 32 }

/-- Word 0 of the generator for a seed and a position. -/
def philoxWord (seed y : Nat) : Nat :=
  (philoxRounds 10 (seed % 2 ^ 32) (seed / 2 ^ 32 % 2 ^ 32) { c0 := y % 2 ^ 32, c1 := 0, c2 := 0, c3 := 0 }).c0

/-! ### The sampler (R239) -/

/-- Index and value of the largest of a list, the lowest index on a tie. -/
def largest : Nat → Nat × F32 → List F32 → Nat × F32
  | _, b, [] => b
  | i, b, x :: r => largest (i + 1) (if F32.lt b.2 x then (i, x) else b) r

def argmax (xs : List F32) : Nat :=
  match xs with
  | [] => 0
  | x :: r => (largest 1 (0, x) r).1

/-- Order of keep: larger z first, then lower index. -/
def zBefore (a b : Nat × F32) : Bool := F32.lt b.2 a.2 || (!F32.lt a.2 b.2 && decide (a.1 ≤ b.1))

/-- The indexes kept, in ascending order, with their z. -/
def keepTop (k : Nat) (zs : List F32) : List (Nat × F32) :=
  let ps := zs.zipIdx.map (fun p => (p.2, p.1))
  if k = 0 ∨ zs.length ≤ k then ps else ((ps.mergeSort zBefore).take k).mergeSort (fun a b => decide (a.1 ≤ b.1))

/-- The lowest index whose running sum exceeds a bound. -/
def firstAbove (bound : F32) : F32 → List (Nat × F32) → Option Nat
  | _, [] => none
  | sum, p :: r =>
    let t := F32.add sum p.2
    if F32.lt bound t then some p.1 else firstAbove bound t r

/-- The token for position `y` from a row of logits; none where a NaN leaves the rule no answer. -/
def sampleToken (temp : F32) (topK seed y : Nat) (logits : List F32) : Option Nat :=
  if logits.any F32.isNaN then none
  else if temp = 0#32 then some (argmax logits)
  else
    let keep := keepTop topK (logits.map (fun x => F32.div x temp))
    let zmax := (keep.map (·.2)).foldl (fun a b => if F32.lt a b then b else a) (F32.inf true)
    let q := keep.map (fun p => (p.1, F32.exp (F32.sub p.2 zmax)))
    let total := q.foldl (fun t p => F32.add t p.2) 0#32
    let u := F32.ofDyadic ((philoxWord seed y / 256 : Nat) : Int) (-24)
    if q.any (fun p => F32.isNaN p.2) then none else firstAbove (F32.mul u total) 0#32 q

namespace Machine

/-- The logits row `n` of the step (R239). -/
def State.logitsRow (s : State) (g : Image) (n : Nat) : List F32 := f32s g.vocab (s.bytesAt (g.logits + 4 * g.vocab * n) (4 * g.vocab))

/-- The token of position `y` from logits row `n`; where the rule gives none it is a free value. -/
def State.sample (s : State) (g : Image) (r : Req) (y n : Nat) : Nat × State :=
  match sampleToken r.temp r.topK r.seed y (s.logitsRow g n) with
  | some t => (t, s)
  | none => s.freeBelow g.vocab

/-! ### The walk of a draft tree (R242) -/

/-- What a walk gives: the accepted nodes in order and the tokens sampled. -/
structure TreeWalk where
  st : State
  nodes : List Nat := []
  tokens : List Nat := []

/-- The lowest-numbered child of a node that carries a token. -/
def childWith (ns : List (Nat × Nat)) (j t : Nat) : Option Nat := ns.zipIdx.findSome? (fun x => if x.2 ≠ 0 ∧ x.1.1 = j ∧ x.1.2 = t then some x.2 else none)

/-- From node `j` at depth `depth`: its token is sampled, and a child that carries it is accepted. -/
def State.walkTree (s : State) (g : Image) (r : Req) (base row : Nat) (ns : List (Nat × Nat)) : Nat → Nat → Nat → TreeWalk
  | 0, _, _ => { st := s }
  | f + 1, j, depth =>
    let x := s.sample g r (base + depth + 1) (row + j)
    match childWith ns j x.1 with
    | some c =>
      let y := State.walkTree x.2 g r base row ns f c (depth + 1)
      { y with nodes := c :: y.nodes, tokens := x.1 :: y.tokens }
    | none => { st := x.2, tokens := [x.1] }

/-! ### The exchange of draft slots (R243) -/

/-- A check of the tile that a page manager takes contents from; a bad one poisons the tile written as well. -/
def State.exchangeCheck (s : State) (m a b : Nat) : State :=
  let c := s.check (Reader.ofMdie m) (a / 4096)
  if c.code = .OK then c.st else c.st.poison (b / 4096)

/-- The contents of two runs are exchanged, as partial writes. -/
def State.exchangeRun (s : State) (m a b n : Nat) : State :=
  let s1 := (s.exchangeCheck m a b).exchangeCheck m b a
  (s1.putBytes a (s.bytesAt b n)).putBytes b (s.bytesAt a n)

/-- Positions `p` and `q` of request `i` are exchanged for every block and KV head. -/
def State.exchange (s : State) (i : Nat) (g : Image) (p q : Nat) : State :=
  if p = q then s
  else g.kvUnits.foldl (fun s h =>
    match s.place i (p / 256) g h, s.place i (q / 256) g h with
    | .ok x, .ok y => ((x.runs g.kv4 (p % 256)).zip (y.runs g.kv4 (q % 256))).foldl (fun s r => s.exchangeRun h.home r.1.1 r.2.1 r.1.2) s
    | _, _ => s) s

/-- d = 1 to a, in order. -/
def State.exchanges (s : State) (i : Nat) (g : Image) (base : Nat) (js : List Nat) : State :=
  js.zipIdx.foldl (fun s j => s.exchange i g (base + j.2 + 1) (base + j.1)) s

/-! ### The commit of one sequence (R240) -/

/-- What a sequence's rows give: the state after sampling and exchanges, the tokens sampled and the position of the first. -/
structure Sampled where
  st : State
  tokens : List Nat := []
  first : Nat := 0

/-- Sampling of an admitted sequence. -/
def State.sampled (s : State) (a : Admit) (g : Image) (r : Req) : Sampled :=
  match a.tree with
  | some t =>
    let w := s.walkTree g r a.base a.row t.nodes t.nodes.length 0 0
    let m := memReg (reqMdie a.idx)
    let s1 := (w.st.bump (m Reg.SPEC_NODES_TOTAL) (t.nodes.length - 1)).bump (m Reg.SPEC_ACCEPTED_TOTAL) w.nodes.length
    { st := s1.exchanges a.idx g a.base w.nodes, tokens := w.tokens, first := a.base + 1 }
  | none =>
    let p := a.base + a.feed.length
    if a.sample then
      let x := s.sample g r p (a.row + a.feed.length - 1)
      { st := x.2, tokens := [x.1], first := p }
    else { st := s, first := p }

/-- Tokens up to and including the first of a stop set. -/
def cutStop (stop : List Nat) : List Nat → List Nat
  | [] => []
  | t :: r => if stop.contains t then [t] else t :: cutStop stop r

/-- A token is delivered: one TOKEN completion (R278, Table 9-9). -/
def State.deliver (s : State) (i pos token : Nat) (last : Bool) : State :=
  let r := s.req i
  let late := r.deadline != 0 && decide (r.deadline < s.time.tick)
  let s1 := if late then s.bump (memReg (reqMdie i) Reg.REQ_LATE_TOTAL) 1 else s
  s1.complete r.chan { tag := r.hostTag, kind := 1, late := late, last := last, aux := s.handle i, r0 := pos + token * 2 ^ 32, r1 := s.time.tick } false

def State.deliverAll (s : State) (i pos : Nat) : List Nat → State
  | [] => s
  | t :: r => State.deliverAll (s.deliver i pos t r.isEmpty) i (pos + 1) r

/-- The tokens at consecutive positions enter TOKEN_RING (R233). -/
def ringPut (ring : Tab Nat) (pos : Nat) : List Nat → Tab Nat
  | [] => ring
  | t :: r => ringPut (Tab.set ring (pos % 480) t) (pos + 1) r

/-- The sequence's record of this step in the rewind log takes the count of its delivered tokens (R416, R417). -/
def State.logDelivered (s : State) (i n : Nat) : State :=
  { s with step := { s.step with log := s.step.log.map (fun x => if x.idx = i ∧ x.step = s.step.num then { x with delivered := n } else x) } }

/-- The commit of a sequence without trouble (R240). -/
def State.commitSeq (s : State) (a : Admit) (g : Image) : State :=
  let i := a.idx
  let x := s.sampled a g (s.req i)
  let r := x.st.req i
  let fit := x.tokens.take (r.maxLength - x.first)           -- the last delivered token sits at MAX_LENGTH − 1 at most
  let out := cutStop g.stop fit
  let stop := match out.getLast? with | some t => g.stop.contains t | none => false
  let limit := !stop && decide (fit.length < x.tokens.length)
  let fed := a.feed.length - (if r.token.isSome then 1 else 0)
  -- with nothing left to deliver at the limit, the token fed last stands as the pending one (log 55)
  let length := if x.tokens.isEmpty then x.first else if out.isEmpty then r.maxLength - 1 else x.first + out.length - 1
  let pending := if x.tokens.isEmpty then none else if out.isEmpty then a.feed.getLast? else out.getLast?
  let ring := ringPut (ringPut r.ring a.base a.feed) x.first out
  let s1 := x.st.setReq i { r with length := length, token := pending, input := r.input.drop fed, tree := none, ring := ring
                                   lastCommit := s.time.tick, delivered := r.delivered + out.length }
  let s2 := if (s1.table i).valid then s1.stageEdit i (.truncate length 0) else s1
  let s3 := (s2.deliverAll i x.first out).logDelivered i out.length
  if stop then s3.pauseReq i rsStop else if limit then s3.pauseReq i rsLimit else s3

/-- One admitted sequence: trouble leaves its token uncommitted and pauses it (R44, R113, R115, R227). -/
def State.commitOne (s : State) (a : Admit) : State :=
  match s.troubles.find? (fun t => t.seq == a.idx), s.image (s.req a.idx).image with
  | some t, _ => (if (s.table a.idx).valid then s.stageEdit a.idx (.truncate a.base 0) else s).pauseReq a.idx t.reason
  | none, some g => s.commitSeq a g
  | none, none => s

/-- With DRAFT_MODE IMAGE the image's draft stage leaves the tree for the next admission (R241); a list that is no tree leaves none. -/
def State.takeDraft (s : State) (d : Nat × List (Nat × Nat)) : State :=
  let r := s.req d.1
  if r.st = .active ∧ r.draftMode = 2 ∧ treeOk d.2 then s.setReq d.1 { r with tree := some { forLength := r.length, nodes := d.2 } } else s

/-- The steward commits the step: the journal is complete, and each sequence's tokens are delivered in order (R33, R235, R240). `drafts` are the trees that the images' draft stages leave. -/
def State.commitStep (s : State) (drafts : List (Nat × List (Nat × Nat))) : State :=
  let t := s.step
  let s1 := { s with step := { t with committed := true, journal := t.num, attempt := 0, faultAddr := [], rerun := [] }
                     topo := { s.topo with lastClean := t.num } }
  drafts.foldl State.takeDraft (t.admitted.foldl State.commitOne s1)

def execStepCommit (drafts : List (Nat × List (Nat × Nat))) (s : State) : Host.Outcome State Fault Refusal :=
  .next (if s.step.running && !s.step.committed && !s.step.abandoned && s.mayCommit then s.commitStep drafts else s)

end Machine

end Sys2Proof
end

