-- ==== Sys2Proof/Machine/Security.lean ====
section
/-! DEFINITION. Keys, signature blocks, anti-rollback counters, enrolment and attestation (chapter 17). -/

namespace Sys2Proof.Machine

/-! ### Keys (R495, R496) -/

def State.keySlot (s : State) (n : Nat) : KeySlot := Tab.get s.sec.keys n

/-- A slot that holds a usable key: valid, and not a revoked vendor key. -/
def State.keyUsable (s : State) (n : Nat) : Bool := (s.keySlot n).valid && !(decide (n < 2) && bitOf s.sec.revoked n)

/-- Table 17-1: the kinds that a slot may sign. -/
def State.keySigns (s : State) (n kind : Nat) : Bool :=
  if n < 2 then kind != 8
  else (kind == 5 && bitOf (s.keySlot n).roles 0) || (kind == 6 && bitOf (s.keySlot n).roles 1)

/-- The signer that a KEY_ID names is valid, not revoked and permitted the kind. -/
def State.keyAccepts (s : State) (id kind : Nat) : Bool :=
  (List.range 8).any (fun n => s.keyUsable n && (s.keySlot n).id == id && s.keySigns n kind)

/-- R495: KEY_ID, the first 8 bytes of the SHA-384 of the two keys. -/
def keyIdOf (ecdsa hss : List Byte) : Nat := leNat ((Config.sha384 (ecdsa ++ hss)).take 8)

/-! ### The signature block (R497, R498) -/

/-- R498: the mask of what fails: format, key, ECDSA, HSS. -/
def State.sigMask (s : State) (formed : Bool) (kind id : Nat) (sig : SigOut) : Nat :=
  b2n (!formed) + 2 * b2n (!(s.keyAccepts id kind)) + 4 * b2n (!sig.ecdsa) + 8 * b2n (!sig.hss)

/-- R498: a refused object is reported and counted. -/
def State.sigFailed (s : State) (kind id mask : Nat) : State :=
  (s.raise .SIGNATURE_FAILED Src.x1 [kind, id, mask]).bump (secReg Reg.SEC_VERIFY_FAIL_TOTAL) 1

/-- R504: the value of a fuse counter: 0 FIRMWARE, 1 SCAN, 2 FLEET, 3 CORD. -/
def State.rollback (s : State) (n : Nat) : Nat := Tab.get s.sec.counters n

/-- What a verification ends with. -/
inductive Verified where
  | accepted | signature | rollback
  deriving DecidableEq, Repr

/-- R498, R504: the signatures first, then the anti-rollback counter of the kind where it has one. -/
def State.verify (s : State) (formed : Bool) (kind id security : Nat) (counter : Option Nat) (sig : SigOut) : State × Verified :=
  let m := s.sigMask formed kind id sig
  if m ≠ 0 then (s.sigFailed kind id m, .signature)
  else match counter with
    | some n => (s, if security < s.rollback n then .rollback else .accepted)
    | none => (s, .accepted)

/-- Table 17-3, the block that follows an object of `n` bytes. -/
structure SigBlock where
  kind : Nat := 0
  security : Nat := 0
  keyId : Nat := 0
  formed : Bool := false
  deriving DecidableEq, Repr, Inhabited

/-- The block of an object of `n` bytes in a run of bytes; formed when its fields hold and the run is as long as they say. -/
def parseSig (bs : List Byte) (n : Nat) : SigBlock :=
  let b := bs.drop n
  { kind := fieldAt b 2 1, security := fieldAt b 8 8, keyId := fieldAt b 16 8
    formed := fieldAt b 0 2 == 1 && fieldAt b 3 1 == 0 && fieldAt b 4 4 == n && leNat ((b.drop 28).take 36) == 0
      && bs.length == n + 160 + fieldAt b 24 4 }

/-- The check of a signed object in memory: an object of `n` bytes, offered as `kind`, whose own SECURITY_VERSION is `own` where it has one. -/
def State.verifyBytes (s : State) (bs : List Byte) (n kind : Nat) (own counter : Option Nat) (sig : SigOut) : State × Verified × SigBlock :=
  let b := parseSig bs n
  let x := s.verify (b.formed && b.kind == kind && (match own with | some v => v == b.security | none => true)) kind b.keyId b.security counter sig
  (x.1, x.2, b)

/-! ### Enrolment (R499) -/

/-- The reason with which an enrolment is refused; 0 when it is accepted. -/
def State.enrollReason (s : State) (bs : List Byte) (signer : Nat) : Nat :=
  if !(s.keyAccepts signer 6) then 1
  else if fieldAt bs 8 8 ≠ 0 ∧ fieldAt bs 8 8 ≠ s.part.serial then 2
  else if fieldAt bs 16 8 ≤ (s.keySlot (fieldAt bs 2 1)).seq then 3
  else if !bitOf (s.cfg (secReg Reg.SEC_CFG)) 8 then 4
  else 0

/-- The enrolment object is well formed: FORMAT, a SLOT of 2 to 7, an OP of 1 or 2, and reserved bytes of 0. -/
def enrollFormed (bs : List Byte) : Bool :=
  fieldAt bs 0 2 == 1 && decide (2 ≤ fieldAt bs 2 1) && decide (fieldAt bs 2 1 < 8) && (fieldAt bs 3 1 == 1 || fieldAt bs 3 1 == 2)
    && decide (fieldAt bs 4 4 < 4) && leNat ((bs.drop 121).take 3) == 0 && leNat ((bs.drop 184).take 72) == 0

/-- An accepted ENROLL replaces the slot, a REVOKE empties it; both record SEQ. -/
def State.enroll (s : State) (bs : List Byte) : State :=
  let n := fieldAt bs 2 1
  let e := (bs.drop 24).take 97
  let k := (bs.drop 124).take 60
  if fieldAt bs 3 1 = 1 then
    { s with sec := { s.sec with keys := Tab.set s.sec.keys n { valid := true, roles := fieldAt bs 4 4, id := keyIdOf e k, ecdsa := e, hss := k, seq := fieldAt bs 16 8 } } }.raise
      .KEY_ENROLLED Src.x1 [n]
  else
    { s with sec := { s.sec with keys := Tab.set s.sec.keys n { seq := fieldAt bs 16 8 } } }.raise .KEY_REVOKED Src.x1 [n]

/-- MAINT KEY_ENROLL. A signer that may not enrol is reason 1; any other failure of R498 has no reason number and reports 0. -/
def execKeyEnroll (h : Hdr) (source length : Nat) (sig : SigOut) (s : State) : Host.Outcome State Fault Refusal :=
  .next (s.descriptor h clsMaint fun s d =>
    let bs := s.hostRead source length
    let x := s.verifyBytes bs 256 6 none none sig
    let r := s.enrollReason bs x.2.2.keyId
    if x.2.1 ≠ .accepted ∨ !enrollFormed bs then x.1.finish d .KEY_ENROLL_REFUSED (if r = 1 then 1 else 0) 0
    else if r ≠ 0 then x.1.finish d .KEY_ENROLL_REFUSED r 0
    else (x.1.enroll bs).finish d .OK 0 0)

/-! ### Identity and attestation (R500 to R503) -/

/-- MAINT IDENTITY writes the certificate and its block. -/
def execIdentity (h : Hdr) (buffer : Nat) (s : State) : Host.Outcome State Fault Refusal :=
  .next (s.descriptor h clsMaint fun s d => (s.hostPut buffer s.sec.cert).finish d .OK s.sec.cert.length 0)

/-- Fitted compute dies of a variant, and the ID register (Table 18-1). -/
def Variant.count (v : Variant) : Nat := match v with | .tx8 => 8 | .tx4 => 4 | .tx2 => 2
def State.idReg (s : State) : Nat := 0x0A001E7A + s.part.variant.count * 2 ^ 16
/-- The VARIANT register (Table 9-15). -/
def State.variantReg (s : State) : Nat :=
  s.part.variant.count + s.part.stepping % 256 * 2 ^ 4 + b2n s.part.pcie * 2 ^ 12 + s.part.linkWidth % 32 * 2 ^ 13 + s.part.linkRate % 4 * 2 ^ 18
/-- The MODULE_ID register. -/
def State.moduleReg (s : State) : Nat := if s.fab.idValid then s.fab.id % 2 ^ 16 + 2 ^ 16 else 0
/-- SEC_COUNTERS. -/
def State.secCounters (s : State) : Nat := s.rollback 0 + s.rollback 1 * 2 ^ 8 + s.rollback 2 * 2 ^ 16 + s.rollback 3 * 2 ^ 24

/-- Codes of Table 13-4. -/
def SlotState.code : SlotState → Nat
  | .free => 0 | .loading => 1 | .ready => 2 | .active => 3 | .standby => 4 | .restoring => 5 | .failed => 6

/-- A run of bytes as exactly `n` bytes. -/
def fitBytes (n : Nat) (bs : List Byte) : List Byte := (List.range n).map (fun i => bs.getD i 0#8)

/-- The 64 bytes of a cord slot in Table 17-4. -/
def Slot.attested (x : Slot) : List Byte :=
  if x.st = .free then leBytes 64 0
  else leBytes 4 x.cord ++ leBytes 1 x.st.code ++ leBytes 3 0 ++ leBytes 8 x.signer ++ fitBytes 48 (Config.sha384 x.manifest)

/-- Table 17-4 at this instant. The key table has no byte layout in the manual, so the 8 bytes of its digest are free. -/
def State.attestReport (s : State) (nonce : List Byte) : List Byte × State :=
  let k := s.freeBytes 8
  (leBytes 8 0x00010000 ++ leBytes 8 s.part.serial ++ leBytes 4 s.idReg ++ leBytes 4 s.variantReg ++ fitBytes 32 nonce ++ leBytes 8 s.time.tick
    ++ fitBytes 48 s.fw.live.stewardDigest ++ fitBytes 48 s.fw.live.digest ++ leBytes 4 s.fw.live.version ++ leBytes 4 (s.reg (stgReg Reg.CONFIG_EPOCH))
    ++ leBytes 4 s.plan ++ leBytes 4 s.secCounters ++ k.1 ++ leBytes 8 s.moduleReg ++ leBytes 8 s.sec.leaves ++ leBytes 56 0
    ++ (List.range 8).flatMap (fun i => (s.slot i).attested), k.2)

/-- 2^35 leaves, in trees of 2^15. -/
abbrev hssLeaves : Nat := 2 ^ 35
abbrev hssTree : Nat := 2 ^ 15

/-- R502: a leaf is used; its block of 1,024 is reserved first; at the end of a tree the next one is taken, or signing waits for it. -/
def State.useLeaf (s : State) : State :=
  let x := s.sec
  let n := x.leaves + 1
  let last := n % hssTree == 0
  let low := decide (hssLeaves < n + 2 ^ 28) && !x.lowSaid
  let s1 := { s with sec := { x with leaves := n, bound := if x.bound ≤ x.leaves then x.bound + 1024 else x.bound
                                     nextReady := x.nextReady && !last, edge := last && !x.nextReady, lowSaid := x.lowSaid || low } }
  if low then s1.raise .HSS_LOW Src.x1 [hssLeaves - n] else s1

/-- ATTEST_MAX. -/
def State.attestMax (s : State) : Nat := s.fld (secReg Reg.SEC_CFG) 0 8

/-- A report may be signed now: the tree has a leaf and this second has room. -/
def State.maySign (s : State) : Bool :=
  !s.sec.edge && decide (s.sec.leaves < hssLeaves) && (s.sec.second != s.time.tick / tickSecond || decide (s.sec.signed < s.attestMax))

/-- The signature block of a report: its signatures' bytes are free values, since the keys never leave the engine. -/
def State.attestBlock (s : State) : List Byte × State :=
  let k := s.freeBytes (96 + 3444)
  (leBytes 2 1 ++ leBytes 1 8 ++ leBytes 1 0 ++ leBytes 4 768 ++ leBytes 8 0 ++ leBytes 8 s.sec.deviceId ++ leBytes 4 3444 ++ leBytes 36 0 ++ k.1, k.2)

/-- One report is signed, written and completes. -/
def State.signReport (s : State) (a : Attest) (r : List Byte) : State :=
  let now := s.time.tick / tickSecond
  let n := if s.sec.second = now then s.sec.signed else 0
  let k := { s with sec := { s.sec with second := now, signed := n + 1, attests := s.sec.attests.erase a } }.useLeaf.attestBlock
  ((k.2.hostPut a.buffer (r ++ k.1)).bump (secReg Reg.SEC_ATTEST_TOTAL) 1).finish a.desc .OK 4372 0

/-- Reports that have their snapshot are signed in order while they may be. -/
def State.signAll (s : State) : List Attest → State
  | [] => s
  | a :: t => State.signAll (match a.report with | some r => if s.maySign then s.signReport a r else s | none => s) t

def State.signHeld (s : State) : State := s.signAll s.sec.attests

/-- R503: at a step boundary, those that wait take their snapshot, and what may be signed is. -/
def State.attestBoundary (s : State) : State :=
  let s1 := s.sec.attests.foldl (fun (s : State) a => if a.report.isSome then s else
    let r := s.attestReport a.nonce
    { r.2 with sec := { r.2.sec with attests := r.2.sec.attests.map (fun b => if b = a then { b with report := some r.1 } else b) } }) s
  s1.signHeld

/-- MAINT ATTEST. -/
def execAttest (h : Hdr) (buffer : Nat) (nonce : List Byte) (s : State) : Host.Outcome State Fault Refusal :=
  .next (s.descriptor h clsMaint fun s d =>
    if hssLeaves ≤ s.sec.leaves then s.finish d .HSS_EXHAUSTED 0 0
    else { s with sec := { s.sec with attests := s.sec.attests ++ [{ desc := d, buffer := buffer, nonce := nonce }] } })

/-- The next second has begun: the reports that waited their turn are signed (R503). -/
def execAttestRateTurn (s : State) : Host.Outcome State Fault Refusal :=
  .next (if s.sec.second = s.time.tick / tickSecond then s else s.signHeld)

/-- The next H15 tree is built (R502). -/
def execHssTreeBuilt (s : State) : Host.Outcome State Fault Refusal :=
  .next (if s.sec.edge then { s with sec := { s.sec with edge := false } }.signHeld
    else { s with sec := { s.sec with nextReady := true } })

/-! ### Anti-rollback (R504, R505) -/

/-- The SECURITY_VERSIONs of the objects of a kind that the module holds. -/
def State.heldVersions (s : State) (n : Nat) : List Nat :=
  if n = 0 then [s.fw.live.stewardSecurity, s.fw.live.security] ++ (match s.fw.staged with | some b => [b.security, b.stewardSecurity] | none => [])
  else if n = 1 then s.sec.scanVersion.toList
  else if n = 2 then (s.det.patterns.filter (fun e => e.2.loaded)).map (fun e => e.2.security)
  else (s.slots.filter (fun e => e.2.st != .free)).map (fun e => e.2.security)

/-- The counter after the op: the lowest held version, at most 64, and never lower than before. -/
def State.advanced (s : State) (n : Nat) : Nat :=
  match (s.heldVersions n).min? with
  | some v => max (s.rollback n) (min 64 v)
  | none => s.rollback n

def execRollbackAdvance (h : Hdr) (counter : Nat) (s : State) : Host.Outcome State Fault Refusal :=
  .next (s.descriptor h clsMaint fun s d =>
    if 4 ≤ counter then s.finish d .DESC_FORMAT 0 0
    else
      let v := s.advanced counter
      ({ s with sec := { s.sec with counters := Tab.set s.sec.counters counter v } }.raise .ROLLBACK_ADVANCED Src.x1 [counter, s.rollback counter, v]).finish d .OK
        (s.rollback counter) v)

end Sys2Proof.Machine
end

