-- ==== Sys2Proof/Machine/Weights.lean ====
section
/-! DEFINITION. Installing and guarding weights: manifests, keys, shards, chains, programming, flips and read-back (chapter 13). -/

namespace Sys2Proof.Machine

/-! ### Set-up (Tables 13-9, 13-10) -/

def State.wtCfg (s : State) (lo n : Nat) : Nat := s.fld (wtReg Reg.WT_CFG) lo n
def State.progEngines (s : State) : Nat := s.wtCfg 8 6
def State.wearNotice (s : State) : Nat := s.wtCfg 14 14
def State.readbackEn (s : State) : Bool := s.wtCfg 28 1 == 1

/-- The reader of X1 for an M-die. -/
def Reader.x1 (m : Nat) : Reader := { mdie := m, src := Src.x1 }

/-- An object of `n` bytes from a SPACE of Table 13-6: host memory, a local address, or another module's, whose bytes the operand carries (log 30). -/
def State.object (s : State) (space source n : Nat) (far : List Byte) : Rd :=
  if space % 2 = 0 then { st := s, bytes := s.hostRead source n }
  else if isFar (s.loc source) then { st := s, bytes := fitBytes n far }
  else s.read (Reader.x1 0) (s.loc source) n

/-! ### Target banks and copy space (R390, R393, R399) -/

/-- The endurance limit of a bank (R399). -/
abbrev bankLimit : Nat := 10000

/-- R390: the bank that is not ACTIVE, or, when neither is, the one with fewer programming cycles. -/
def State.targetBank (s : State) (e : Nat) : Nat :=
  let x := s.engine e
  if x.a.st = .active then 1 else if x.b.st = .active then 0 else if x.b.cycles < x.a.cycles then 1 else 0

/-- A slot whose work holds a bank: programming it, or READY in it. -/
def Slot.claims (x : Slot) (t : Nat × Nat) (ready : Bool) : Bool := x.targets.contains t && (x.st == .loading || (ready && x.st != .free))

/-- What the check of one engine's target bank finds. -/
def State.bankStatus (s : State) (e : Nat) : Code :=
  let b := s.targetBank e
  let y := s.bank e b
  if y.st = .programming ∨ (List.range 8).any (fun i => (s.slot i).claims (e, b) (y.st == .ready)) then .BANK_RESERVED
  else if bankLimit ≤ y.cycles then .BANK_WORN
  else .OK

/-- Runs of copy units that slots hold on an M-die. -/
def State.copyRuns (s : State) (m : Nat) : List (Nat × Nat) :=
  (List.range 8).flatMap (fun i => let x := s.slot i
    if x.st = .free then [] else [2 * m, 2 * m + 1].filterMap (fun d => if x.units.getD d 0 = 0 then none else some (x.unit.getD d 0, x.units.getD d 0)))

/-- Units in the pool of an M-die. -/
def State.copyPool (s : State) (m : Nat) : Nat := s.fld (memReg m Reg.CORD_AREA) 44 12 * 8192

/-- First-fit runs for the counts of units of dies 0 to 7, or none (R393). -/
def State.allocRuns (s : State) (units : List Nat) : Option (List Nat) :=
  (List.range 8).foldl (fun acc d => acc.bind (fun us =>
    let n := units.getD d 0
    if n = 0 then some (us ++ [0])
    else
      let mine := if d % 2 = 1 ∧ units.getD (d - 1) 0 ≠ 0 then [(us.getD (d - 1) 0, units.getD (d - 1) 0)] else []
      let xs := mine ++ s.copyRuns (d / 2)
      let u := firstFit xs n (xs.length + 1) 0
      if u + n ≤ s.copyPool (d / 2) then some (us ++ [u]) else none)) (some [])

/-! ### The manifest (R386, R390) -/

/-- Table 13-2: LENGTH, FIRST_TILE, TILE_COUNT and the DIGEST of shard `k`. -/
def Slot.entry (x : Slot) (k : Nat) : List Byte := (x.manifest.drop (256 + 64 * k)).take 64
def Slot.shardLen (x : Slot) (k : Nat) : Nat := fieldAt (x.entry k) 48 4
def Slot.firstTile (x : Slot) (k : Nat) : Nat := fieldAt (x.entry k) 52 4
def Slot.tileCount (x : Slot) (k : Nat) : Nat := fieldAt (x.entry k) 56 2
def Slot.digest (x : Slot) (k : Nat) : List Byte := (x.entry k).take 48

/-- Ranges and reserved bytes of Tables 13-1 and 13-2. -/
def manifestFormed (bs : List Byte) : Bool :=
  let n := fieldAt bs 8 4
  fieldAt bs 7 1 == 0 && decide (1 ≤ n) && decide (n ≤ 4096) && decide (1 ≤ fieldAt bs 12 4) && decide (fieldAt bs 12 4 ≤ 131072)
    && leNat ((bs.drop 104).take 152) == 0
    && (List.range n).all (fun k => let e := (bs.drop (256 + 64 * k)).take 64
      fieldAt e 48 4 % 64 == 0 && decide (fieldAt e 48 4 ≤ 67108864) && decide (1 ≤ fieldAt e 56 2) && decide (fieldAt e 56 2 ≤ 496) && fieldAt e 58 6 == 0)

/-- Units of the copy of each die: those of DIE_MASK. -/
def manifestUnits (bs : List Byte) : List Nat :=
  (List.range 8).map (fun d => if bitOf (fieldAt bs 6 1) d then (fieldAt bs (40 + 8 * d) 8 + 4095) / 4096 else 0)

/-- The slot that a manifest takes. -/
def State.manifestSlot (s : State) (slot : Nat) : Option Nat :=
  if slot = 0xFF then (List.range 8).find? (fun i => (s.slot i).st == .free) else some slot

/-- STANDBY slots whose banks become target banks pass to FREE, and their copy space is released. -/
def State.displace (s : State) (ts : List (Nat × Nat)) : State :=
  { s with slots := s.slots.filter (fun e => !((e.2.st == .standby || (e.2.st == .restoring && e.2.prior == .standby)) && e.2.targets.any ts.contains)) }

/-- The first engine whose target bank is refused. -/
def State.refusedEngine (s : State) (es : List Nat) : Option (Nat × Code) :=
  es.findSome? (fun e => if s.bankStatus e = .OK then none else some (e, s.bankStatus e))

/-- An accepted manifest fills its slot. -/
def Slot.ofManifest (bs : List Byte) (ts : List (Nat × Nat)) (us : List Nat) (signer : Nat) : Slot :=
  let n := fieldAt bs 8 4
  { st := .loading, cord := fieldAt bs 0 4, shards := n, tiles := fieldAt bs 12 4, group := fieldAt bs 32 8
    lengths := (List.range n).map (fun k => fieldAt bs (256 + 64 * k + 48) 4), first := (List.range n).map (fun k => fieldAt bs (256 + 64 * k + 52) 4)
    counts := (List.range n).map (fun k => fieldAt bs (256 + 64 * k + 56) 2), copyBytes := (List.range 8).map (fun d => fieldAt bs (40 + 8 * d) 8)
    unit := us, units := manifestUnits bs, fill := List.replicate 8 0, targets := ts, manifest := bs, security := fieldAt bs 24 8, signer := signer }

/-- What follows the signatures of a manifest: version, form, target banks, copy space, slot. `engines` are those that its tiles name, which the manifest itself does not list. -/
def State.placeManifest (s : State) (slot : Nat) (bs : List Byte) (engines : List Nat) (signer : Nat) : State × Code × Nat × Nat :=
  if fieldAt bs 4 2 / 256 ≠ 1 then (s, .MANIFEST_VERSION, 0, 0)
  else if !manifestFormed bs then (s, .CORD_FORMAT, 0, 0)
  else match s.refusedEngine engines with
    | some (e, c) => (s, c, 0, e)
    | none =>
      let ts := engines.map (fun e => (e, s.targetBank e))
      let s1 := s.displace ts
      match s1.allocRuns (manifestUnits bs), s1.manifestSlot slot with
      | none, _ => (s, .CORD_AREA_FULL, 0, 0)
      | some _, none => (s, .CORD_SLOTS_FULL, 0, 0)
      | some us, some i => (s1.setSlot i (Slot.ofManifest bs ts us signer), .OK, i, 0)

/-- WEIGHT MANIFEST. RESULT1 of a refusal names the engine. -/
def execWeightManifest (h : Hdr) (slot space source length : Nat) (far : List Byte) (engines : List Nat) (sig : SigOut) (s : State) : Host.Outcome State Fault Refusal :=
  .next (s.descriptor h clsWeight fun s d =>
    if slot ≠ 0xFF ∧ (8 ≤ slot ∨ (s.slot slot).st ≠ .free) then s.finish d .CORD_STATE 0 0
    else
      let r := s.object space source length far
      if r.code ≠ .OK then r.st.finish d r.code 0 0
      else
        let v := r.st.verifyBytes r.bytes (256 + 64 * fieldAt r.bytes 8 4) 5 (some (fieldAt r.bytes 24 8)) (some 3) sig
        match v.2.1 with
        | .signature => v.1.finish d .MANIFEST_SIGNATURE 0 0
        | .rollback => v.1.finish d .MANIFEST_ROLLBACK 0 0
        | .accepted =>
          let x := v.1.placeManifest slot r.bytes engines v.2.2.keyId
          x.1.finish d x.2.1 x.2.2.1 x.2.2.2)

/-! ### Ops on a slot (Table 13-6) -/

/-- An op on a slot in one of the states it is accepted in. -/
def State.onSlot (s : State) (h : Hdr) (slot : Nat) (ok : SlotState → Bool) (k : State → Desc → State) : State :=
  s.descriptor h clsWeight fun s d => if slot < 8 ∧ ok (s.slot slot).st then k s d else s.finish d .CORD_STATE 0 0

/-- R506: the envelope's fields name this module and this cord; `key` is what the security engine unwraps, none when Q_e is not on the curve or the tag fails. -/
def State.envelopeOk (s : State) (slot : Nat) (bs : List Byte) : Bool :=
  bs.length == 192 && fieldAt bs 0 2 == 1 && fieldAt bs 4 4 == (s.slot slot).cord && fieldAt bs 8 8 == s.part.serial

/-- WEIGHT KEY (R506, R507). -/
def execWeightKey (h : Hdr) (slot source length : Nat) (key : Option (List Byte)) (s : State) : Host.Outcome State Fault Refusal :=
  .next (s.onSlot h slot (fun x => x == .loading || x == .restoring) fun s d =>
    match key, (s.slot slot).key with
    | none, _ => s.finish d .KEY_ENVELOPE_INVALID 0 0
    | some k, old =>
      if !s.envelopeOk slot (s.hostRead source length) then s.finish d .KEY_ENVELOPE_INVALID 0 0
      else if old.isSome ∧ old ≠ some k then s.finish d .KEY_CONFLICT 0 0
      else (s.setSlot slot { s.slot slot with key := some k }).finish d .OK 0 0)

/-- WEIGHT QUERY: Table 13-7. -/
def Slot.record (x : Slot) (programmed : Nat) : List Byte :=
  leBytes 4 x.cord ++ leBytes 1 x.st.code ++ leBytes 1 0 ++ leBytes 2 x.failedBanks.length ++ leBytes 4 x.passed.length ++ leBytes 4 x.damaged.length
    ++ leBytes 4 programmed ++ leBytes 4 x.tiles ++ leBytes 8 x.lastCheck ++ leBytes 4 x.mismatches ++ leBytes 28 0

/-- A tile of a cord stands verified in a bank. -/
def Bank.holds (y : Bank) (l cord : Nat) : Bool :=
  let z := Tab.get y.layers l
  z.format != 0 && z.cord == cord && y.st != .empty

/-- The bank that a slot programs on an engine. -/
def Slot.bankOf (x : Slot) (e : Nat) : Option Nat := (x.targets.find? (fun t => t.1 == e)).map (·.2)

/-- Tiles of a slot that stand programmed in its target banks. -/
def State.tilesProgrammed (s : State) (x : Slot) : Nat :=
  (x.dir.filter (fun t => match x.bankOf (t.1 / 64) with | some b => (s.bank (t.1 / 64) b).holds (t.1 % 64) x.cord | none => false)).length

def execWeightQuery (h : Hdr) (slot buffer : Nat) (s : State) : Host.Outcome State Fault Refusal :=
  .next (s.onSlot h slot (fun _ => true) fun s d =>
    (s.hostPut buffer ((s.slot slot).record (s.tilesProgrammed (s.slot slot)))).finish d .OK 0 0)

/-! ### Shards (R391, R392) -/

/-- Staging buffers of 64 KiB that a shard in transit takes: at most 4 (R279, R280). -/
def shardBuffers (n : Nat) : Nat := min 4 ((n + 65535) / 65536)

/-- Buffers of the pool that a channel may still take: its reserved ones, and the shared ones that no channel holds. -/
def State.buffersFree (s : State) (c : Nat) : Nat :=
  let least (k : Nat) : Nat := s.fld (stgReg (Reg.STG_MIN + 2 * k)) 0 7
  let shared := 4096 - (List.range 256).foldl (fun a k => a + max (least k) (s.chan k).buffers) 0
  (least c - (s.chan c).buffers) + shared

/-- A shard takes its buffers; it waits for them when they are not free, for a time that the model leaves open (log 4). -/
def State.takeBuffers (s : State) (c n : Nat) : State :=
  let s1 := if s.buffersFree c < n then s.bumpWait (stgReg Reg.STG_WAIT_TOTAL) else s
  s1.setChan c { s1.chan c with buffers := (s1.chan c).buffers + n }

/-- Shards that wait undecrypted because their slot has no key. -/
def State.keyless (s : State) : Nat := (s.inst.jobs.filter (fun j => (s.slot j.slot).key.isNone)).length

/-- The chunks of a shard's ciphertext and tag, for a successor (R395). -/
def shardChunks (shard : Nat) : Nat → Nat → List Byte → List ChainChunk
  | 0, _, _ => []
  | n + 1, k, bs => { shard := shard, k := k, bytes := bs.take 0x100000 } :: shardChunks shard n (k + 1) (bs.drop 0x100000)

/-- A shard has arrived whole: a module with a successor forwards it, and it joins those to be checked. -/
def State.shardArrived (s : State) (j : ShardJob) (cipher : List Byte) : State :=
  let x := s.slot j.slot
  let s1 := if x.succ.isSome then s.setSlot j.slot { x with forward := x.forward ++ shardChunks j.shard ((cipher.length + 0xFFFFF) / 0x100000) 0 cipher } else s
  { s1 with inst := { s1.inst with jobs := s1.inst.jobs ++ [j] } }

/-- A shard that has passed already, and is not to be repaired. -/
def Slot.duplicate (x : Slot) (shard : Nat) (repair : Bool) : Bool := x.passed.contains shard && !(repair && x.damaged.contains shard)

/-- WEIGHT SHARD: the shard is fetched; it completes when it has been checked. -/
def execWeightShard (h : Hdr) (slot space : Nat) (restore repair : Bool) (shard source : Nat) (far : List Byte) (s : State) : Host.Outcome State Fault Refusal :=
  .next (s.onSlot h slot (fun x => x == .loading || x == .restoring || x == .active) fun s d =>
    let x := s.slot slot
    let n := x.shardLen shard + 16
    if x.shards ≤ shard then s.finish d .CORD_FORMAT shard 0
    else if x.duplicate shard repair then (s.bump (wtReg Reg.WT_SHARD_DUP_TOTAL) 1).finish d .OK shard 1
    else if x.key.isNone ∧ 4 ≤ s.keyless then s.finish d .CORD_NO_KEY shard 0
    else
      let r := s.object space source n far
      if r.code ≠ .OK then r.st.finish d r.code shard 0
      else
        let k := if space % 2 = 0 then shardBuffers n else 0
        (r.st.takeBuffers d.chan k).shardArrived { slot := slot, shard := shard, desc := some d, repair := repair, restore := restore, buffers := k } r.bytes)

/-! ### The content of a shard (R41, R387, R388) -/

/-- A tile record of a shard: where it stands, Table 13-3, and whether the header keeps that table. -/
structure ShardRec where
  ofs : Nat := 0
  die : Nat := 0
  engine : Nat := 0
  layer : Nat := 0
  format : Nat := 0
  blocks : Nat := 0
  cols : Nat := 0
  tag : Nat := 0
  tile : Nat := 0
  cord : Nat := 0
  formed : Bool := false
  deriving DecidableEq, Repr, Inhabited

/-- Bytes of a record of a tile (R387). -/
def recordLen (blocks cols : Nat) : Nat := (64 + (blocks + 1) * cols * 33 + 63) / 64 * 64

def parseRecord (o : Nat) (h : List Byte) : ShardRec :=
  let v := fun i => fieldAt h i 1
  { ofs := o, die := v 0 % 8, engine := engineKey (coreKey (v 0 % 8) (v 1 % 8) (v 2 % 8)) (v 3 % 4), layer := v 4 % 64
    format := v 5 % 4, blocks := v 5 / 4 % 8, cols := fieldAt h 6 2, tag := fieldAt h 8 2, tile := fieldAt h 12 4, cord := fieldAt h 16 4
    formed := decide (v 0 < 8) && decide (v 1 < 8) && decide (v 2 < 8) && decide (v 3 < 4) && decide (v 4 < 64) && decide (v 5 < 32)
      && (v 5 % 4 == 1 || v 5 % 4 == 2) && decide (1 ≤ fieldAt h 6 2) && decide (fieldAt h 6 2 ≤ 512) && fieldAt h 10 2 == 0 && leNat ((h.drop 20).take 44) == 0 }

/-- The records that a run of `n` tiles of a shard's plaintext starts with. -/
def shardRecords (bs : List Byte) : Nat → Nat → List ShardRec
  | 0, _ => []
  | n + 1, o =>
    let r := parseRecord o ((bs.drop o).take 64)
    r :: shardRecords bs n (o + recordLen r.blocks r.cols)

/-- R41: a WT code of 0b11, or an E8 of 0x00 or 0xFF. -/
def ShardRec.content (r : ShardRec) (bs : List Byte) : Bool :=
  let n := (r.blocks + 1) * r.cols
  let codes := (bs.drop (r.ofs + 64)).take (32 * n)
  let exps := (bs.drop (r.ofs + 64 + 32 * n)).take n
  (r.format != 2 || codes.all (fun b => (List.range 4).all (fun i => b.toNat / 4 ^ i % 4 != 3))) && exps.all (fun b => b != 0#8 && b != 0xFF#8)

/-- R388: what is wrong with record `k` of shard `j`, after the records before it. -/
def State.recordStatus (s : State) (x : Slot) (shard k : Nat) (bs : List Byte) (before : List ShardRec) (r : ShardRec) : Code :=
  let key := tileKey r.engine r.layer
  let t := Tab.get x.dir key
  if !r.formed || r.tile != x.firstTile shard + k || r.cord != x.cord || decide (bs.length < r.ofs + recordLen r.blocks r.cols) || !r.content bs
    || before.any (fun p => p.engine == r.engine && p.layer == r.layer) || (t.valid && t.shard != shard) then .CORD_FORMAT
  else if !s.fits r.die then .TARGET_ABSENT
  else if (x.bankOf r.engine).isNone then .CORD_FORMAT
  else .OK

/-- The first faulty record, with its status. -/
def State.faultyRecord (s : State) (x : Slot) (shard : Nat) (bs : List Byte) : Nat → List ShardRec → List ShardRec → Option (Nat × Code)
  | _, _, [] => none
  | k, before, r :: t =>
    let c := s.recordStatus x shard k bs before r
    if c = .OK then State.faultyRecord s x shard bs (k + 1) (before ++ [r]) t else some (k, c)

/-! ### Placing a shard (R394) -/

/-- One record is written at the fill pointer of its die and entered in the directory. A repaired or restored record whose place is known is written there. -/
def State.placeRecord (s : State) (i shard : Nat) (bs : List Byte) (again : Bool) (r : ShardRec) : State :=
  let x := s.slot i
  let n := recordLen r.blocks r.cols
  let key := tileKey r.engine r.layer
  let old := Tab.get x.dir key
  let o := if again && old.valid then old.ofs else x.fill.getD r.die 0
  let s1 := s.writePieces (fun _ => {}) ((bs.drop r.ofs).take n) (s.copyPieces x r.die o n)
  s1.setSlot i { x with dir := Tab.set x.dir key { ofs := o, format := r.format, blocks := r.blocks, cols := r.cols, tag := r.tag, shard := shard, tile := r.tile, valid := true }
                        fill := if again && old.valid then x.fill else x.fill.set r.die (o + n) }

/-- The copy of each die fits its run. -/
def Slot.fits (x : Slot) (rs : List ShardRec) : Bool :=
  (List.range 8).all (fun d => decide (x.fill.getD d 0 + ((rs.filter (fun r => r.die == d)).map (fun r => recordLen r.blocks r.cols)).foldl (· + ·) 0 ≤ 4096 * x.units.getD d 0))

/-- The job's descriptor completes and its buffers are freed. -/
def State.jobEnd (s : State) (j : ShardJob) (c : Code) (r0 r1 : Nat) : State :=
  let s1 := { s with inst := { s.inst with jobs := s.inst.jobs.erase j } }
  match j.desc with
  | some d => (s1.setChan d.chan { s1.chan d.chan with buffers := (s1.chan d.chan).buffers - j.buffers }).finish d c r0 r1
  | none => s1

/-- A failed shard changes nothing but a count. -/
def State.shardFailed (s : State) (j : ShardJob) (c : Code) (rec : Nat) : State :=
  (s.bump (wtReg Reg.WT_SHARD_FAIL_TOTAL) 1).jobEnd j c j.shard rec

/-- The checks that a passed shard starts: its own after a repair; every shard's when the last of a RESTORING slot is in (R403, R404). -/
def State.checksAfter (s : State) (j : ShardJob) : State :=
  let x := s.slot j.slot
  let cs : List Readback :=
    if x.st = .restoring then (if (List.range x.shards).all x.passed.contains then (List.range x.shards).map (fun k => { slot := j.slot, shard := k, restore := true }) else [])
    else if j.repair then [{ slot := j.slot, shard := j.shard }] else []
  { s with inst := { s.inst with checks := s.inst.checks ++ cs } }

/-- A shard passes: its records are placed, it is counted, and what it is for begins. -/
def State.shardPassed (s : State) (j : ShardJob) (bs : List Byte) (rs : List ShardRec) : State :=
  let again := (s.slot j.slot).passed.contains j.shard || j.repair
  let s1 := rs.foldl (fun s r => s.placeRecord j.slot j.shard bs again r) s
  let x := s1.slot j.slot
  let s2 := s1.setSlot j.slot { x with passed := j.shard :: x.passed.filter (· != j.shard), damaged := x.damaged.filter (· != j.shard) }
  ((s2.bump (wtReg Reg.WT_SHARD_IN_TOTAL) 1).jobEnd j .OK j.shard 0).checksAfter j

/-- The first job in arrival order whose slot has a key. -/
def State.nextJob (s : State) : Option ShardJob := s.inst.jobs.find? (fun j => (s.slot j.slot).key.isSome)

/-- R392: the next shard has been decrypted and hashed: `tagOk` says that its GCM tag verified, `plain` is its plaintext. -/
def State.shardCheck (s : State) (tagOk : Bool) (plain : List Byte) : State :=
  match s.nextJob with
  | none => s
  | some j =>
    let x := s.slot j.slot
    let rs := shardRecords plain (x.tileCount j.shard) 0
    if x.duplicate j.shard j.repair then (s.bump (wtReg Reg.WT_SHARD_DUP_TOTAL) 1).jobEnd j .OK j.shard 1
    else if !tagOk then s.shardFailed j .SHARD_AUTH_FAILED 0
    else if plain.length ≠ x.shardLen j.shard ∨ fitBytes 48 (Config.sha384 plain) ≠ x.digest j.shard then s.shardFailed j .SHARD_DIGEST_MISMATCH 0
    else match s.faultyRecord x j.shard plain 0 [] rs with
      | some (k, c) => s.shardFailed j c k
      | none => if x.fits rs then s.shardPassed j plain rs else s.shardFailed j .CORD_FORMAT 0

def execShardCheckDone (tagOk : Bool) (plain : List Byte) (s : State) : Host.Outcome State Fault Refusal := .next (s.shardCheck tagOk plain)

/-! ### Freeing a slot (R405) -/

/-- The intake window of a slot closes. -/
def State.closeIntake (s : State) (i : Nat) : State :=
  match (s.slot i).intake with
  | some n => s.callClose n none
  | none => s

/-- Programming stops: the slot's banks in PROGRAMMING pass to EMPTY. -/
def State.stopProgramming (s : State) (i : Nat) : State :=
  (s.slot i).targets.foldl (fun s t => if (s.bank t.1 t.2).st = .programming then s.setBank t.1 t.2 { s.bank t.1 t.2 with st := .empty, layers := [] } else s) s

/-- A slot becomes FREE: what is under way for it ends, its copy space and key are released. Descriptors that wait for it complete with CORD_STATE. -/
def State.freeCord (s : State) (i : Nat) : State :=
  let s1 := (s.closeIntake i).setSlot i {}
  let s2 := (s1.inst.jobs.filter (fun j => j.slot == i)).foldl (fun s j => s.jobEnd j .CORD_STATE j.shard 0) s1
  let mine (p : Nat × Option Desc) : Bool := p.1 == i
  let s3 := { s2 with inst := { s2.inst with flips := s2.inst.flips.filter (fun p => !mine p), checks := s2.inst.checks.filter (fun c => c.slot != i)
                                             promised := if s2.inst.promised = some i then none else s2.inst.promised } }
  let s4 := (s2.inst.flips.filter mine).foldl (fun s p => match p.2 with | some d => s.finish d .CORD_STATE 0 0 | none => s) s3
  match s4.inst.group with
  | some g => if g.slot = i then { s4 with inst := { s4.inst with group := none } }.finish g.desc .CORD_STATE 0 0 else s4
  | none => s4

/-- WEIGHT REMOVE: an ACTIVE slot is refused; a LOADING one is aborted. -/
def execWeightRemove (h : Hdr) (slot : Nat) (s : State) : Host.Outcome State Fault Refusal :=
  .next (s.onSlot h slot (fun x => x == .ready || x == .standby || x == .failed || x == .loading || x == .active) fun s d =>
    if (s.slot slot).st = .active then s.finish d .CORD_ACTIVE 0 0
    else if (s.slot slot).st = .loading then ((s.stopProgramming slot).freeCord slot).finish d .OK 0 0
    else (s.freeCord slot).finish d .OK 0 0)

/-- WEIGHT ABORT. -/
def execWeightAbort (h : Hdr) (slot : Nat) (s : State) : Host.Outcome State Fault Refusal :=
  .next (s.onSlot h slot (· == .loading) fun s d => ((s.stopProgramming slot).freeCord slot).finish d .OK 0 0)

/-! ### Programming (R397 to R399) -/

/-- The slot and logical engine whose tiles engine `e` programs into bank `b`: the ACTIVE cord of the cluster that a spare position takes over or prepares for, else the LOADING slot that the bank is a target of (R380, R397, R406, R424). -/
def State.progSource (s : State) (e b : Nat) : Option (Nat × Nat) :=
  let q := engCore e
  let d := coreDie q
  let k := coreCluster q
  let target := if k < 8 then k else (Tab.get s.det.scans d).cluster
  let e' := engineKey (coreKey d target (coreIndex q)) (e % 4)
  let spare := if k < 8 then (match s.posOf d k with | some p => (s.position d p).st == .programming | none => false)
    else (List.range 9).any (fun p => (s.position d p).st == .programming && (s.position d p).logical == 15)
  let act := (List.range 8).find? (fun i => (s.slot i).st == .active && (s.slot i).targets.contains (e', b))
  if spare && act.isSome && (s.bank e b).st != .active then act.map (fun i => (i, e'))
  else if k < 8 then ((List.range 8).find? (fun i => (s.slot i).st == .loading && (s.slot i).targets.contains (e, b))).map (fun i => (i, e))
  else none

/-- Engines whose bank is programming, of the whole package. -/
def State.programming (s : State) : Nat := (s.engines.filter (fun x => x.2.a.st == .programming || x.2.b.st == .programming)).length

/-- Tiles of an engine in a slot's directory. -/
def Slot.tilesOf (x : Slot) (e : Nat) : List Nat := (x.dir.filter (fun t => t.1 / 64 == e && t.2.valid)).map (·.1 % 64)

/-- A bank enters PROGRAMMING: its contents are void, and its cycle is counted first (R89, R399). -/
def State.beginBank (s : State) (e b : Nat) : State :=
  let y := s.bank e b
  let n := y.cycles + 1
  let notice := decide (s.wearNotice ≤ n) && !y.wearNoticed
  let s1 := s.setBank e b { y with st := .programming, cycles := n, layers := [], windows := [], wearNoticed := y.wearNoticed || notice }
  if notice then s1.raise .BANK_WEAR_NOTICE (Src.ofEngine (engCore e)) [e, b, n] else s1

/-- R398: a bank has failed verify for the second time, or may not be programmed again. -/
def State.slotFailed (s : State) (i e b : Nat) (c : Code) : State :=
  let x := s.slot i
  if x.st = .loading then
    ((s.stopProgramming i).setSlot i { x with st := .failed }).raise .CORD_FAILED Src.x1 [i, x.cord, e, b] c
  else s

/-- BANK_PROGRAM_REQUEST: refused for the ACTIVE bank (BANK_ACTIVE) and for a worn one (BANK_WORN); otherwise the bank passes to PROGRAMMING when a slot has tiles for it and fewer than PROG_ENGINES engines program. -/
def State.programRequest (s : State) (e b : Nat) : State :=
  let y := s.bank e b
  match s.progSource e b with
  | none => s
  | some (i, e') =>
    if s.dieDown (engDie e) ∨ y.st = .active ∨ y.st = .programming ∨ ((s.slot i).tilesOf e').isEmpty ∨ ((s.slot i).tilesOf e').all (fun l => y.holds l (s.slot i).cord) then s
    else if bankLimit ≤ y.cycles then s.slotFailed i e b .BANK_WORN
    else if s.progEngines ≤ s.programming then s
    else s.beginBank e b

def execBankProgramRequest (q n b : Nat) (s : State) : Host.Outcome State Fault Refusal :=
  .next (if 2 ≤ b ∨ 4 ≤ n then s else s.programRequest (engineKey q n) b)

/-- A layer's cells after program-and-verify (R397): the tile, and its MAPPED spares. -/
def Bank.program (y : Bank) (l cord : Nat) (t : CopyTile) : Bank :=
  let z : Layer := { format := t.format, blocks := t.blocks, cols := t.cols, tag := t.tag, cord := cord, codes := t.codes.flatten, exps := t.exps.flatten }
  let y1 := { y with layers := Tab.set y.layers l z }
  (List.range z.cols).foldl (fun y c =>
    let o := y.col l c
    if o.st = .mapped then { y with spares := Tab.upd y.spares (spareKey l o.spare) (fun p => { p with codes := z.column c }) } else y) y1

/-- R398: a data column that fails to verify is MAPPED to a free spare that verifies, else COVERED. -/
def State.verifyFail (s : State) (e b l : Nat) (badSpares : List Nat) (lane : Nat) : State :=
  let y := s.bank e b
  let z := Tab.get y.layers l
  let o := y.col l lane
  if z.cols ≤ lane ∨ o.st = .covered then s
  else
    let y0 := if o.st = .mapped then { y with spares := Tab.upd y.spares (spareKey l o.spare) (fun p => { p with failed := true }) } else y
    let free := ((List.range 8).map (8 * (lane / 128) + ·)).find? (fun k => let p := Tab.get y0.spares (spareKey l k); !p.used && !p.failed && !badSpares.contains k)
    let y1 := match free with
      | some k => { y0 with cols := Tab.set y0.cols (colKey l lane) { st := .mapped, spare := k }, version := y0.version + 1
                            spares := Tab.set y0.spares (spareKey l k) { used := true, failed := false, codes := z.column lane } }
      | none => { y0 with cols := Tab.set y0.cols (colKey l lane) { st := .covered }, version := y0.version + 1 }
    (s.setBank e b y1).ashEngine e b 1 5 l lane false

/-- Data columns of a layer that end COVERED. -/
def Bank.coveredCount (y : Bank) (l : Nat) : Nat := ((List.range 512).filter (fun c => (y.col l c).st == .covered)).length

/-- R398: the bank fails verify and is programmed once more; the second failure ends the installation. -/
def State.bankFailed (s : State) (i e b : Nat) : State :=
  let x := s.slot i
  let s1 := ((s.setBank e b { s.bank e b with st := .empty, layers := [] }).setSlot i { x with failedBanks := e :: x.failedBanks.filter (· != e) }).raise
    .WEIGHT_BANK_FAILED (Src.ofEngine (engCore e)) [e, b]
  if x.retried.contains (e, b) then s1.slotFailed i e b .BANK_VERIFY_FAILED
  else s1.setSlot i { s1.slot i with retried := (e, b) :: x.retried }

/-- Every shard of a slot has passed. -/
def Slot.complete (x : Slot) : Bool := (List.range x.shards).all x.passed.contains

/-- R398: a bank with every tile verified is READY, and a slot with every target bank READY. -/
def State.banksReady (s : State) (i : Nat) : State :=
  let x := s.slot i
  if x.st ≠ .loading ∨ !x.complete then s
  else
    let done (s : State) (t : Nat × Nat) : Bool := (x.tilesOf t.1).all (fun l => (s.bank t.1 t.2).holds l x.cord)
    let s1 := x.targets.foldl (fun s t => if (s.bank t.1 t.2).st = .programming && done s t then s.setBank t.1 t.2 { s.bank t.1 t.2 with st := .ready } else s) s
    if x.targets.all (fun t => (s1.bank t.1 t.2).st == .ready) then (s1.setSlot i { s1.slot i with st := .ready }).raise .CORD_READY Src.x1 [i, x.cord] else s1

/-- A spare whose arrays hold the whole ACTIVE cord: its bank is READY and becomes ACTIVE at the next boundary. -/
def State.spareReady (s : State) (i e' e b : Nat) : State :=
  let x := s.slot i
  if x.st = .active ∧ (s.bank e b).st = .programming ∧ (x.tilesOf e').all (fun l => (s.bank e b).holds l x.cord) then s.setBank e b { s.bank e b with st := .ready } else s

/-- R91: spare work in the ACTIVE bank of an engine goes before its programming, unless a layer select cuts that work off. -/
def Engine.spareFirst (x : Engine) : Bool :=
  match x.activeBank.work with
  | [] => false
  | w :: _ => x.sel != some (x.active, w.layer)

/-- A tile finishes: `bad` are the data columns that failed to verify, `badSpares` the spares, and `refBad` says that a reference column or a row driver failed. -/
def State.tileProgram (s : State) (e b i e' l : Nat) (bad badSpares : List Nat) (refBad : Bool) : State :=
  let x := s.slot i
  let t := Tab.get x.dir (tileKey e' l)
  let r := s.readLines (engCore e) i (engDie e) t true (List.range (t.blocks + 1))
    { st := s, tile := { format := t.format, blocks := t.blocks, cols := t.cols, tag := t.tag, codes := List.replicate (t.blocks + 1) [], exps := List.replicate (t.blocks + 1) [] } }
  if r.code ≠ .OK then r.st
  else
    let s1 := r.st.setBank e b ((r.st.bank e b).program l x.cord r.tile)
    let s2 := bad.foldl (fun s c => s.verifyFail e b l badSpares c) s1
    if refBad || decide (32 < (s2.bank e b).coveredCount l) then s2.bankFailed i e b
    else ((s2.bump (wtReg Reg.WT_PROG_WEIGHTS_TOTAL) ((t.blocks + 1) * 128 * t.cols)).spareReady i e' e b).banksReady i

/-- TILE_PROGRAM_DONE: the tile of layer `l` on an engine in PROGRAMMING. -/
def execTileProgramDone (q n layer : Nat) (bad badSpares : List Nat) (refBad : Bool) (s : State) : Host.Outcome State Fault Refusal :=
  .next (let e := engineKey q n
    let b := if (s.engine e).a.st = .programming then 0 else 1
    match s.progSource e b with
    | some (i, e') =>
      if s.dieDown (engDie e) ∨ (s.bank e b).st ≠ .programming ∨ (s.engine e).spareFirst ∨ !((s.slot i).tilesOf e').contains layer ∨ (s.bank e b).holds layer (s.slot i).cord then s
      else s.tileProgram e b i e' layer bad badSpares refBad
    | none => s)

/-! ### The flip (R90, R400, R401) -/

/-- Slots that a commit of slot `i` replaces: those ACTIVE on one of its target engines. -/
def State.replaced (s : State) (i : Nat) : List Nat :=
  (List.range 8).filter (fun j => j != i && (s.slot j).st == .active && (s.slot j).targets.any (fun t => ((s.slot i).bankOf t.1).isSome))

/-- R400: whether the flip may be made, with the engine that stands in its way. -/
def State.flipStatus (s : State) (i : Nat) : Code :=
  let x := s.slot i
  if x.st ≠ .ready ∧ x.st ≠ .standby then .CORD_STATE
  else if (s.replaced i).any (fun j => (s.slot j).targets.any (fun t => (x.bankOf t.1).isNone)) then .CORD_COVERAGE
  else if x.st = .standby ∧ x.targets.any (fun t => (s.bank t.1 t.2).st != .standby) then .CORD_NOT_READY
  else .OK

/-- One engine flips to its other bank; its next op selects its layer anew, and its pointers start again (R90, R131, R151). -/
def State.flipEngine (s : State) (e b : Nat) : State :=
  let x := s.engine e
  let off (y : Bank) : Bank := if y.st = .active then { y with st := .standby } else y
  let on (y : Bank) : Bank := { y with st := .active, shadow := [], exercise := [] }
  s.setEngine e (if b = 0 then { x with a := on x.a, b := off x.b, sel := none } else { x with a := off x.a, b := on x.b, sel := none })

/-- A read-back check of a replaced cord is abandoned and counts nothing (Table 13-8). -/
def State.dropChecks (s : State) (js : List Nat) : State :=
  let gone (c : Readback) : Bool := js.contains c.slot
  let s1 := { s with inst := { s.inst with checks := s.inst.checks.filter (fun c => !gone c) } }
  (s.inst.checks.filter gone).foldl (fun s c => match c.desc with | some d => s.finish d .CORD_STATE 0 0 | none => s) s1

/-- The flip of one slot at a step boundary. -/
def State.flipSlot (s : State) (i : Nat) : State :=
  let x := s.slot i
  let js := s.replaced i
  let s1 := x.targets.foldl (fun s t => s.flipEngine t.1 t.2) s
  let s2 := js.foldl (fun s j => s.setSlot j { s.slot j with st := .standby }) (s1.setSlot i { x with st := .active })
  let s3 := ((List.range 8).filter (fun d => x.targets.any (fun t => engDie t.1 == d))).foldl (fun s d => s.calTrigger d calFLIP) (s2.dropChecks js)
  (if js.isEmpty then [0] else js.map (fun j => (s.slot j).cord)).foldl (fun s c => s.raise .CORD_FLIPPED Src.steward [c, x.cord]) s3

/-- Accepted flips are made at the boundary; the answer says whether any was. A spare's READY bank of an ACTIVE cord becomes ACTIVE too. -/
def State.flipBoundary (s : State) : State × Bool :=
  let fs := s.inst.flips
  let s1 := { s with inst := { s.inst with flips := [] } }
  let s2 := fs.foldl (fun (a : State × Bool) f =>
    let c := a.1.flipStatus f.1
    let s1 := if c = .OK then a.1.flipSlot f.1 else a.1
    (match f.2 with | some d => s1.finish d c 0 s1.time.tick | none => s1, a.2 || c == .OK)) (s1, false)
  let es := s2.1.engines.filter (fun x => !(x.2.a.st == .active) && !(x.2.b.st == .active) && (x.2.a.st == .ready || x.2.b.st == .ready))
  (es.foldl (fun s x =>
    let b := if x.2.a.st = .ready then 0 else 1
    match s.progSource x.1 b with
    | some (i, _) => if (s.slot i).st = .active then s.flipEngine x.1 b else s
    | none => s) s2.1, s2.2)

/-- WEIGHT COMMIT. With GROUP the lead asks every member first; a module that is not the lead refuses it. -/
def execWeightCommit (h : Hdr) (slot : Nat) (group : Bool) (s : State) : Host.Outcome State Fault Refusal :=
  .next (s.onSlot h slot (fun x => x == .ready || x == .standby) fun s d =>
    let c := s.flipStatus slot
    if c ≠ .OK then s.finish d c 0 0
    else if !group then { s with inst := { s.inst with flips := s.inst.flips ++ [(slot, some d)] } }
    else if !s.inGroup || !s.isLead || s.inst.group.isSome then s.finish d .CORD_NOT_READY s.moduleId 0
    else if s.groupOthers.isEmpty then { s with inst := { s.inst with flips := s.inst.flips ++ [(slot, some d)], announceFlip := true } }
    else { s with inst := { s.inst with group := some { desc := d, slot := slot, since := s.time.tick } } })

/-- A member receives the lead's request: it confirms, and promises the slot, when one READY or STANDBY with the tag can flip; otherwise it declines. Its answer has no layout in the manual, and the model sends no frame for it (log 53). -/
def execCordGroupQuery (tag : Nat) (s : State) : Host.Outcome State Fault Refusal :=
  .next (if s.inGroup && !s.isLead then
      { s with inst := { s.inst with promised := (List.range 8).find? (fun i => (s.slot i).group == tag && tag != 0 && s.flipStatus i == .OK) } }
    else s)

/-- The group COMMIT ends without a flip, naming the member. -/
def State.groupRefused (s : State) (m : Nat) : State :=
  match s.inst.group with
  | some g => { s with inst := { s.inst with group := none } }.finish g.desc .CORD_NOT_READY m 0
  | none => s

/-- A member's answer reaches the lead; when every member has confirmed, the lead announces the flip step, its next one. -/
def execCordGroupConfirm (m : Nat) (yes : Bool) (s : State) : Host.Outcome State Fault Refusal :=
  .next (match s.inst.group with
    | none => s
    | some g =>
      if !s.groupOthers.contains m then s
      else if !yes then s.groupRefused m
      else
        let ms := m :: g.confirmed.filter (· != m)
        if s.groupOthers.all ms.contains then
          { s with inst := { s.inst with group := none, flips := s.inst.flips ++ [(g.slot, some g.desc)], announceFlip := true } }
        else { s with inst := { s.inst with group := some { g with confirmed := ms } } })

/-- 100 ms without an answer: the first member that has not confirmed is named. -/
def execGroupCommitTimeout (s : State) : Host.Outcome State Fault Refusal :=
  .next (match s.inst.group with
    | some g => if g.since + 100000000 ≤ s.time.tick then s.groupRefused ((s.groupOthers.find? (fun m => !g.confirmed.contains m)).getD 0) else s
    | none => s)

/-! ### Distribution along a chain (R395, R396) -/

/-- The intake area of M0: four slots of 1 MiB. -/
abbrev intakeBase : Nat := msramBase + 0x3800000
abbrev intakeSize : Nat := 0x400000

/-- WEIGHT CHAIN. A module with a predecessor opens its intake window for it. -/
def execWeightChain (h : Hdr) (slot : Nat) (pred succ : Option Nat) (s : State) : Host.Outcome State Fault Refusal :=
  .next (s.onSlot h slot (fun x => x == .loading || x == .restoring) fun s d =>
    let s0 := (s.closeIntake slot).setSlot slot { (s.closeIntake slot).slot slot with pred := pred, succ := succ, intake := none, part := none, unfreed := 0 }
    match pred with
    | none => s0.finish d .OK 0 0
    | some m =>
      let x : WinArgs := { base := intakeBase, size := intakeSize, srcFirst := m, srcLast := m, rights := 1, ports := 1 }
      let c := s0.winStatus x false
      match s0.winEntry x with
      | some n => if c = .OK then ((s0.winOpen n x).setSlot slot { s0.slot slot with intake := some n }).finish d .OK 0 0 else s0.finish d c 0 0
      | none => s0.finish d c 0 0)

/-- A chunk that has wholly arrived goes to the successor's intake slot, while fewer than four are unfreed (R396). -/
def execChainChunkForward (slot : Nat) (s : State) : Host.Outcome State Fault Refusal :=
  .next (let x := s.slot slot
    match x.forward, x.succ with
    | c :: r, some m =>
      if 4 ≤ x.unfreed ∨ 8 ≤ slot then s
      else
        let a := intakeBase + c.k % 4 * 0x100000
        ((s.setSlot slot { x with forward := r, unfreed := x.unfreed + 1 }).launch (.chain slot c) (writeFrames m (piecesOf a c.bytes.length) c.bytes) true).settled
    | _, _ => s)

/-- Partial data of a shard is dropped and counted (R396). -/
def State.dropPart (s : State) (slot : Nat) : State :=
  if (s.slot slot).part.isSome then (s.setSlot slot { s.slot slot with part := none }).bump (wtReg Reg.WT_SHARD_FAIL_TOTAL) 1 else s

/-- A CHUNK_READY notice: the chunk joins its shard, is forwarded, and the whole shard joins those to be checked; one missing or out of order drops the shard. -/
def State.chunkArrived (s : State) (slot shard k length : Nat) : State :=
  let x := s.slot slot
  let bs := s.bytesAt (intakeBase + k % 4 * 0x100000) length
  let total := x.shardLen shard + 16
  let go (s : State) (have_ : List Byte) : State :=
    let x := s.slot slot
    let all := have_ ++ bs
    let s1 := s.setSlot slot { x with forward := if x.succ.isSome then x.forward ++ [{ shard := shard, k := k, bytes := bs }] else x.forward
                                      part := if total ≤ all.length then none else some (shard, k + 1, all) }
    if all.length < total then s1
    else if (s1.slot slot).duplicate shard false then s1.bump (wtReg Reg.WT_SHARD_DUP_TOTAL) 1
    else if (s1.slot slot).key.isNone ∧ 4 ≤ s1.keyless then s1.bump (wtReg Reg.WT_SHARD_FAIL_TOTAL) 1
    else { s1 with inst := { s1.inst with jobs := s1.inst.jobs ++ [{ slot := slot, shard := shard, restore := x.st == .restoring }] } }
  match x.part with
  | some (sh, n, have_) => if sh = shard ∧ n = k then go s have_ else (let s1 := s.dropPart slot; if k = 0 then go s1 [] else s1)
  | none => if k = 0 then go s [] else s.bump (wtReg Reg.WT_SHARD_FAIL_TOTAL) 1

def execChunkReady (slot shard k length : Nat) (s : State) : Host.Outcome State Fault Refusal :=
  .next (let x := s.slot slot
    if x.pred.isSome ∧ slot < 8 ∧ shard < x.shards ∧ (x.st = .loading ∨ x.st = .restoring) then s.chunkArrived slot shard k (min length 0x100000) else s)

/-- A SLOT_FREE notice from the successor. -/
def execSlotFree (slot : Nat) (s : State) : Host.Outcome State Fault Refusal :=
  .next (if slot < 8 ∧ (s.slot slot).succ.isSome then s.setSlot slot { s.slot slot with unfreed := (s.slot slot).unfreed - 1 } else s)

/-! ### Read-back (R402 to R404, R421) -/

/-- The records of a shard, in tile order. -/
def Slot.shardTiles (x : Slot) (k : Nat) : List (Nat × TileRec) :=
  ((x.dir.filter (fun t => t.2.valid && t.2.shard == k)).mergeSort (fun a b => decide (a.2.tile ≤ b.2.tile)))

/-- A record as the copy holds it, and its code lines as the arrays give them, with the counts of the reads. -/
structure TileCheck where
  key : Nat := 0
  rcd : TileRec := {}
  copy : List Byte := []
  back : List Byte := []
  deriving DecidableEq, Repr, Inhabited

/-- One tile is read from its engine block by block (R95), and from the copy. -/
def State.checkTile (s : State) (i : Nat) (t : Nat × TileRec) : State × TileCheck :=
  let x := s.slot i
  let e := t.1 / 64
  let l := t.1 % 64
  let n := recordLen t.2.blocks t.2.cols
  let c := s.readCopy (engCore e) i (engDie e) t.2.ofs n t.2.shard
  let copy := if c.code = .OK then c.bytes else (s.copyPieces x (engDie e) t.2.ofs n).flatMap (fun p => s.bytesAt p.1 p.2)
  let d := engDie e
  let z := (List.range (t.2.blocks + 1)).foldl (fun (a : State × List Byte) b =>
    let o := a.1.readBlock e l b
    let s1 := { a.1 with fresh := a.1.fresh + 528 * 128 }.countConv e 128 o.clips 0
    ((s1.bump (dieReg d Reg.AE_READ_AMBIG_TOTAL) o.amb).bump (dieReg d Reg.AE_READ_MARGIN_TOTAL) o.marg, a.2 ++ o.lines.take (32 * t.2.cols))) (c.st, [])
  (z.1, { key := t.1, rcd := t.2, copy := copy, back := copy.take 64 ++ z.2 ++ copy.drop (64 + z.2.length) })

def State.checkTiles (s : State) (i : Nat) : List (Nat × TileRec) → State × List TileCheck
  | [] => (s, [])
  | t :: r =>
    let x := s.checkTile i t
    let y := State.checkTiles x.1 i r
    (y.1, x.2 :: y.2)

/-- A shard as it is hashed: its records, and zeros up to LENGTH. -/
def shardText (n : Nat) (parts : List (List Byte)) : List Byte := fitBytes n parts.flatten

/-- The columns of a tile whose lines differ between copy and read-back. -/
def TileCheck.lanes (t : TileCheck) : List Nat :=
  (List.range t.rcd.cols).filter (fun c => (List.range (t.rcd.blocks + 1)).any (fun b =>
    let o := 64 + 32 * (b * t.rcd.cols + c)
    (t.copy.drop o).take 32 != (t.back.drop o).take 32))

/-- Table 13-5, second row, of one tile: each differing layer column is retired with cause READBACK. -/
def State.retireTile (s : State) (t : TileCheck) : State :=
  let e := t.key / 64
  if t.lanes.isEmpty then s
  else
    let s1 := t.lanes.foldl (fun s c => s.retireColumn e (s.engine e).active (t.key % 64) c 6 {}) s
    s1.raise .WEIGHT_READBACK_MISMATCH (Src.ofEngine (engCore e)) (e :: t.key % 64 :: t.lanes)

/-- Table 13-5, third row: the copy's code lines that differ are rewritten from the read-back. -/
def State.repairTile (s : State) (i : Nat) (t : TileCheck) : State :=
  let d := engDie (t.key / 64)
  (List.range ((t.rcd.blocks + 1) * t.rcd.cols)).foldl (fun s j =>
    let o := 64 + 32 * j
    let line := (t.back.drop o).take 32
    if (t.copy.drop o).take 32 = line then s else s.writePieces (fun _ => {}) line (s.copyPieces (s.slot i) d (t.rcd.ofs + o) 32)) s

/-- The check of shard `k` of slot `i`: the outcome row and the state. -/
def State.readback (s : State) (i k : Nat) : State × Nat :=
  let x := s.slot i
  let n := x.shardLen k
  let y := s.checkTiles i (x.shardTiles k)
  let dig (f : TileCheck → List Byte) : Bool := fitBytes 48 (Config.sha384 (shardText n (y.2.map f))) == x.digest k
  let copyOk := dig (·.copy)
  let backOk := dig (·.back)
  let now := y.1.time.tick
  let s0 := y.1.setSlot i { y.1.slot i with lastCheck := now }
  let s1 := s0.bump (wtReg Reg.WT_READBACK_TOTAL) 1
  if copyOk && backOk then (s1.setSlot i { s1.slot i with clean := Tab.set (s1.slot i).clean k (now + 1) }, 0)
  else if copyOk then
    let s2 := (s1.setSlot i { s1.slot i with mismatches := (s1.slot i).mismatches + 1 }).bump (wtReg Reg.WT_READBACK_MISMATCH_TOTAL) 1
    let bad := y.2.filter (fun t => !t.lanes.isEmpty)
    let s3 := bad.foldl State.retireTile s2
    (s3.raise .WEIGHT_EXPOSURE Src.x1 ([x.cord, k, Tab.get x.clean k - 1, now] ++ bad.map (·.key)), 1)
  else if backOk then
    let s2 := y.2.foldl (fun s t => s.repairTile i t) s1
    ((s2.setSlot i { s2.slot i with damaged := (s2.slot i).damaged.filter (· != k) }).bump (wtReg Reg.WT_COPY_REPAIR_TOTAL) 1 |>.raise .WEIGHT_COPY_REPAIRED Src.x1 [i, k], 2)
  else ((s1.setSlot i { s1.slot i with damaged := k :: (s1.slot i).damaged.filter (· != k) }).raise .WEIGHT_SHARD_DAMAGED Src.x1 [i, k], 3)

/-- A RESTORING slot whose last check is done returns to its earlier state (R404). -/
def State.restored (s : State) (i : Nat) : State :=
  if (s.slot i).st = .restoring ∧ !(s.inst.checks.any (fun c => c.slot == i && c.restore)) then s.setSlot i { s.slot i with st := (s.slot i).prior } else s

/-- READBACK_CHECK_DONE: check `i` of those under way ends. -/
def execReadbackCheckDone (i : Nat) (s : State) : Host.Outcome State Fault Refusal :=
  .next (match s.inst.checks[i]? with
    | none => s
    | some c =>
      let s0 := { s with inst := { s.inst with checks := s.inst.checks.eraseIdx i } }
      let r := s0.readback c.slot c.shard
      let s1 := match c.desc with | some d => r.1.finish d .OK r.2 0 | none => r.1
      if c.restore then s1.restored c.slot else s1)

/-- WEIGHT CHECK starts a check of one shard at once. -/
def execWeightCheck (h : Hdr) (slot shard : Nat) (s : State) : Host.Outcome State Fault Refusal :=
  .next (s.onSlot h slot (· == .active) fun s d =>
    if (s.slot slot).shards ≤ shard then s.finish d .CORD_FORMAT 0 0
    else { s with inst := { s.inst with checks := s.inst.checks ++ [{ slot := slot, shard := shard, desc := some d }] } })

/-- READBACK_CHECK_START: the next shard in shard order, round robin over the ACTIVE slots. -/
def execReadbackCheckStart (s : State) : Host.Outcome State Fault Refusal :=
  .next (match ((List.range 8).map (fun j => (s.inst.turn + 1 + j) % 8)).find? (fun i => (s.slot i).st == .active && decide (0 < (s.slot i).shards)) with
    | some i =>
      if !s.readbackEn then s
      else
        let x := s.slot i
        let k := x.nextCheck % x.shards
        let s1 := s.setSlot i { x with nextCheck := (k + 1) % x.shards }
        { s1 with inst := { s1.inst with turn := i, checks := s1.inst.checks ++ [{ slot := i, shard := k }] } }
    | none => s)

end Sys2Proof.Machine
end

