-- ==== Sys2Proof/Machine/Scans.lean ====
section
/-! DEFINITION. Structural scans, fleet patterns and the TEST descriptors (R423 to R430). -/

namespace Sys2Proof.Machine

/-! ### Set-up (Table 14-7) -/

def State.fleetEn (s : State) (d : Nat) : Bool := bitOf (s.cfg (dieReg d Reg.SE_CFG)) 21
def State.scanEn (s : State) : Bool := bitOf (s.cfg (dieReg 0 Reg.SE_CFG)) 22
def State.injectEn (s : State) : Bool := bitOf (s.cfg (dieReg 0 Reg.SE_CFG)) 23
def State.sliceCycles (s : State) : Nat := s.fld (dieReg 0 Reg.SE_FLEET_CFG) 0 16

/-! ### Scans (R423 to R426) -/

/-- The die of the one scan under way. -/
def State.scanning (s : State) : Option Nat := (List.range 8).find? (fun d => (s.scan d).st != 0)

/-- A spare position that may prepare a swap (R424): SPARE, not under test, not under reset. -/
def State.swapSpare (s : State) (d : Nat) : Option Nat :=
  (List.range 9).find? (fun p => let x := s.position d p; x.st == .spare && !x.underScan && !x.resetting)

/-- A cluster of a die that is covered under R381 or R382. -/
def State.dieCovers (s : State) (d : Nat) : Bool := (List.range 8).any (fun k => s.covered (clusterKey d k))

/-- What a scan of a TEST SCAN body names: a logical cluster, or SPARE position p as 0xF8 + p. -/
def State.scanTarget (s : State) (d cluster : Nat) : Option Nat :=
  if !s.fits d then none
  else if 0xF8 ≤ cluster then (let p := cluster - 0xF8; if p < 9 ∧ (s.position d p).st = .spare then some p else none)
  else if cluster < 8 then s.posOf d cluster else none

/-- The mode in force: AUTO is SWAP where a spare can prepare, otherwise COVER. -/
def State.scanMode (s : State) (d cluster mode : Nat) : Nat :=
  if 0xF8 ≤ cluster then scanSpare
  else if mode % 4 = 0 then (if (s.swapSpare d).isSome then scanSwap else scanCover) else mode % 4

/-- A scan starts: a SPARE position goes under scan at once, a swap prepares its spare, and a cover waits for the next step boundary. -/
def State.scanStart (s : State) (d cluster p mode : Nat) (desc : Option Desc) : State :=
  let x : Scan := { s.scan d with st := if mode = scanSpare then 2 else 1, mode := mode, position := p, cluster := if cluster < 8 then cluster else 15, desc := desc }
  let s1 := s.setScan d x
  if mode = scanSpare then s1.setPosition d p { s1.position d p with underScan := true }
  else if mode = scanSwap then
    match s.swapSpare d with
    | some k => s1.setPosition d k { s1.position d k with st := .programming, logical := 15 }
    | none => s1
  else s1

/-- R430: the status with which a SCAN is refused; the MODE that Table 14-3 does not give is a format error. -/
def State.scanStatus (s : State) (d cluster mode : Nat) : Code :=
  if mode % 4 = 3 then .DESC_FORMAT
  else if (s.scanTarget d cluster).isNone then .TARGET_ABSENT
  else if s.scanning.isSome then .TEST_BUSY
  else if !s.scanEn then .TEST_NOT_PERMITTED
  else if mode % 4 = scanSwap ∧ cluster < 8 ∧ (s.swapSpare d).isNone then .SCAN_NO_SPARE
  else if s.scanMode d cluster mode = scanCover ∧ s.dieCovers d then .TEST_BUSY
  else .OK

/-- TEST SCAN; it completes at the end of the scan. -/
def execScan (h : Hdr) (die cluster mode : Nat) (s : State) : Host.Outcome State Fault Refusal :=
  .next (s.descriptor h clsTest fun s d =>
    let c := s.scanStatus die cluster mode
    match s.scanTarget die cluster with
    | some p => if c = .OK then s.scanStart die cluster p (s.scanMode die cluster mode) (some d) else s.finish d c 0 0
    | none => s.finish d c 0 0)

/-- R426: what holds a scheduled scan back. -/
def State.scanHeld (s : State) : Bool :=
  s.scanning.isSome || s.dies.any s.dieCovers || s.dies.any (fun d => (List.range 9).any (fun p => (s.position d p).st == .programming || (s.position d p).resetting))
    || s.groupDims.any (fun d => (s.ring d).state != 0)

/-- The next position to scan: a cluster with a failed fleet slice first, else the next ACTIVE or SPARE position in order. -/
def State.scanNext (s : State) : Option (Nat × Nat) :=
  match s.det.scanFirst.findSome? (fun g => (s.posOf (g / 9) (g % 9)).map (fun p => (g / 9, p))) with
  | some x => some x
  | none => (((List.range 72).map (fun i => (s.det.scanTurn + i) % 72)).find? (fun i =>
      s.fits (i / 9) && ((s.position (i / 9) (i % 9)).st == .active || (s.position (i / 9) (i % 9)).st == .spare))).map (fun i => (i / 9, i % 9))

/-- SCAN_SCHEDULE: the next scheduled scan starts in AUTO mode. -/
def execScanSchedule (s : State) : Host.Outcome State Fault Refusal :=
  .next (if !s.ready || !s.scanEn || s.scanHeld then s
    else match s.scanNext with
      | none => s
      | some (d, p) =>
        let k := (s.position d p).logical
        let c := if k < 8 then k else 0xF8 + p
        let t : State := if s.det.scanFirst.contains (clusterKey d k) then { s with det := { s.det with scanFirst := s.det.scanFirst.filter (· != clusterKey d k) } }
          else { s with det := { s.det with scanTurn := (9 * d + p + 1) % 72 } }
        t.scanStart d c p (t.scanMode d c 0) none)

/-- The arrays of a logical cluster and those of its die's spare change places. -/
def State.exchangeArrays (s : State) (g : Nat) : State :=
  (List.range 32).foldl (fun s j =>
    let a := engineKey (g * 8 + j / 4) (j % 4)
    let b := engineKey (clusterKey (g / 9) 8 * 8 + j / 4) (j % 4)
    (s.setEngine a (s.engine b)).setEngine b (s.engine a)) s

/-- The steward's cluster. -/
def State.stewardCluster (s : State) : Nat := clusterKey s.stewardDie ((s.agentCluster s.stewardDie).elim 0 (fun _ => ((List.range 8).find? (fun k => s.inService (clusterKey s.stewardDie k))).getD 0))

/-- A planned handover takes place at a step boundary and abandons no step (R236). -/
def State.handOver (s : State) (g : Nat) : State := if s.stewardCluster = g ∧ s.standbyDie.isSome ∧ !s.step.running then s.takeOver else s

/-- At a step boundary: a spare whose exercise is complete takes the number of the cluster under a SWAP scan (R424). -/
def State.scanSwapIn (s : State) (d k : Nat) : State :=
  let x := s.scan d
  let g := clusterKey d x.cluster
  let s1 := s.handOver g
  let s2 := (s1.setPosition d k { s1.position d k with st := .active, logical := x.cluster }).setPosition d x.position
    { s1.position d x.position with st := .spare, logical := 15, underScan := true }
  let s3 := ((s2.exchangeArrays g).setScan d { x with st := 2 }).reloadRegions g
  { s3 with det := { s3.det with raises := Tab.set s3.det.raises g [], slices := Tab.set s3.det.slices g 0 } }.raise .CLUSTER_SUBSTITUTED Src.steward [d, x.cluster, x.position, k]

/-- At a step boundary: covers begin and end, and spares that have passed their exercise come into service (R380, R424, R425). -/
def State.scanBoundary (s : State) : State :=
  s.dies.foldl (fun s d =>
    let x := s.scan d
    if x.st = 1 ∧ x.mode = scanCover then
      let s1 := s.handOver (clusterKey d x.cluster)
      (s1.setScan d { x with st := 2 }).setPosition d x.position { s1.position d x.position with covered := true, underScan := true }
    else if x.st = 3 then
      ((s.setScan d { x with st := 0, mode := 0, position := 0 }).setPosition d x.position { s.position d x.position with covered := false, underScan := false }).reloadRegions
        (clusterKey d x.cluster)
    else s) s

/-- The result of a scan is recorded for its position, and its descriptor completes. -/
def State.scanResult (s : State) (d : Nat) (x : Scan) (passed : Bool) : State :=
  let y : Scan := { st := if passed && x.mode == scanCover then 3 else 0, mode := if passed && x.mode == scanCover then x.mode else 0
                    position := if passed && x.mode == scanCover then x.position else 0, cluster := x.cluster
                    lastTick := Tab.set x.lastTick x.position s.time.tick, lastResult := Tab.set x.lastResult x.position ((if passed then 1 else 2) + 4 * x.mode) }
  let s1 := (s.setScan d y).bump (dieReg d Reg.SE_SCAN_TOTAL) 1
  let s2 := if passed then s1 else s1.bump (dieReg d Reg.SE_SCAN_FAIL_TOTAL) 1
  match x.desc with
  | some e => s2.finish e .OK (b2n !passed) s2.time.tick
  | none => s2

/-- SCAN_DONE: the position passes or fails; `chain` is the first failing chain. In COVER mode a failure loses the cluster; otherwise it retires the position (R422, R425). -/
def execScanDone (passed : Bool) (chain : Nat) (s : State) : Host.Outcome State Fault Refusal :=
  .next (match s.scanning with
    | none => s
    | some d =>
      let x := s.scan d
      if x.st ≠ 2 then s
      else
        let s1 := s.scanResult d x passed
        let p := x.position
        if passed then
          (if x.mode = scanCover then s1
           else (if (s1.position d p).st = .retired then s1.unstow d p (clusterKey d 8) else s1).setPosition d p { s1.position d p with st := .spare, underScan := false })
        else
          let s2 := s1.raise .SCAN_FAILED Src.steward [d, p, chain]
          if x.mode = scanCover then s2.loseCluster (clusterKey d x.cluster) (some 9)
          else (s2.retire d p).ashAdd (ashCluster d p 9))

/-! ### Fleet patterns (R427 to R429) -/

def State.pattern (s : State) (n : Nat) : Pattern := Tab.get s.det.patterns n
def State.setPattern (s : State) (n : Nat) (x : Pattern) : State := { s with det := { s.det with patterns := Tab.set s.det.patterns n x } }

/-- TEST FLEET_LOAD. The pattern's content is the operand's (log 30). -/
def execFleetLoad (h : Hdr) (slot : Nat) (img : FleetImage) (sig : SigOut) (s : State) : Host.Outcome State Fault Refusal :=
  .next (s.descriptor h clsTest fun s d =>
    if 16 ≤ slot then s.finish d .DESC_FORMAT 0 0
    else
      let v := s.verify img.formed 4 img.keyId img.security (some 2) sig
      match v.2 with
      | .signature => v.1.finish d .PATTERN_SIGNATURE 0 0
      | .rollback => v.1.finish d .PATTERN_ROLLBACK 0 0
      | .accepted =>
        if img.cycles.any (fun c => decide (v.1.sliceCycles < c)) then v.1.finish d .PATTERN_SLICE_LONG 0 0
        else (v.1.setPattern slot { loaded := true, id := img.id, security := img.security, slices := img.cycles.length }).finish d .OK img.id 0)

/-- TEST FLEET_SET. A slot that holds no pattern has nothing to enable. -/
def execFleetSet (h : Hdr) (slot : Nat) (enable : Bool) (s : State) : Host.Outcome State Fault Refusal :=
  .next (s.descriptor h clsTest fun s d =>
    if 16 ≤ slot ∨ !(s.pattern slot).loaded then s.finish d .DESC_FORMAT 0 0
    else (s.setPattern slot { s.pattern slot with enabled := enable }).finish d .OK 0 0)

def execFleetRemove (h : Hdr) (slot : Nat) (s : State) : Host.Outcome State Fault Refusal :=
  .next (s.descriptor h clsTest fun s d =>
    if 16 ≤ slot then s.finish d .DESC_FORMAT 0 0 else (s.setPattern slot {}).finish d .OK 0 0)

/-- Slices of the enabled patterns in order: pattern slot and slice. -/
def State.fleetSlices (s : State) : List (Nat × Nat) :=
  (List.range 16).flatMap (fun n => if (s.pattern n).enabled then (List.range (s.pattern n).slices).map (fun k => (n, k)) else [])

/-- R428: the next core of a die: ACTIVE, not under scan, in logical order after the last one. -/
def State.fleetCore (s : State) (d : Nat) : Option Nat :=
  ((List.range 64).map (fun j => (Tab.get s.det.nextCore d + j) % 64)).find? (fun i => match s.posOf d (i / 8) with
    | some p => (s.position d p).st == .active && !(s.position d p).underScan && !(s.position d p).resetting
    | none => false)

/-- R428, R429: one slice runs on a die; a failed one opens a FLEET window from its last clean run, counts under R422, and puts the cluster's scan first. -/
def State.fleetSlice (s : State) (r : SliceRun) : State :=
  let d := r.die
  match s.fleetCore d with
  | none => s
  | some i =>
    let q := coreKey d (i / 8) (i % 8)
    let g := q / 8
    let ss := s.fleetSlices
    let n := Tab.get s.det.pointer q % max 1 ss.length
    match ss[n]? with
    | none => s
    | some (pat, k) =>
      if !s.fits d || !s.fleetEn d then s
      else
        let key := q * 2 ^ 16 + pat * 2 ^ 12 + k
        let s1 := { s with det := { s.det with nextCore := Tab.set s.det.nextCore d ((i + 1) % 64), pointer := Tab.set s.det.pointer q ((n + 1) % ss.length)
                                               slices := Tab.upd s.det.slices g (· + 1) } }.bump (dieReg d Reg.SE_FLEET_RUN_TOTAL) 1
        if r.passed then { s1 with det := { s1.det with cleanRun := Tab.set s1.det.cleanRun key (s.step.num + 1) } }
        else
          let s2 := ((s1.bump (dieReg d Reg.SE_FLEET_FAIL_TOTAL) 1).raise .FLEET_PATTERN_FAILED (Src.ofCore q) [(s.pattern pat).id, k, q, r.arg]).openWindow
            { cls := .fleet, first := Tab.get s.det.cleanRun key - 1, last := s.step.num, core := q }
          { s2 with det := { s2.det with lastFail := Tab.set s2.det.lastFail g s.time.tick, scanFirst := s2.det.scanFirst ++ [g]
                                         lastDetect := Tab.set s2.det.lastDetect g s.step.num } }.faultRaise g

/-! ### INJECT and QUERY (R430) -/

/-- TEST INJECT on lane `lane` of a layer of an engine's ACTIVE bank. -/
def execInject (h : Hdr) (q n layer lane offset steps : Nat) (s : State) : Host.Outcome State Fault Refusal :=
  .next (s.descriptor h clsTest fun s d =>
    if !s.fits (coreDie q) then s.finish d .TARGET_ABSENT 0 0
    else if !s.injectEn then s.finish d .TEST_NOT_PERMITTED 0 0
    else if 528 ≤ lane ∨ 4 ≤ n ∨ 64 ≤ layer ∨ 8 ≤ coreCluster q then s.finish d .DESC_FORMAT 0 0
    else
      let e := engineKey q n
      let b := (s.engine e).active
      let y := s.bank e b
      let k := 1024 * layer + lane
      (s.setBank e b { y with inject := Tab.set y.inject k (if steps = 0 then 0 else signed 8 offset), injectLeft := Tab.set y.injectLeft k steps }).finish d .OK 0 0)

/-- One more step in which a layer has run ends what its injections have left. -/
def Bank.injectStep (y : Bank) (layer : Nat) : Bank :=
  (y.injectLeft.filter (fun e => e.1 / 1024 == layer)).foldl (fun y e =>
    { y with injectLeft := Tab.set y.injectLeft e.1 (e.2 - 1), inject := if e.2 ≤ 1 then Tab.set y.inject e.1 0 else y.inject }) y

/-- Table 14-4. -/
def State.testRecord (s : State) (d k : Nat) : List Byte :=
  let g := clusterKey d k
  let p := (s.posOf d k).getD 15
  let x := s.scan d
  leBytes 8 (Tab.get x.lastTick p) ++ leBytes 1 (Tab.get x.lastResult p) ++ leBytes 1 p ++ leBytes 2 (s.faultCount g) ++ leBytes 4 (Tab.get s.det.slices g)
    ++ leBytes 8 (Tab.get s.det.lastFail g) ++ leBytes 8 (Tab.get s.det.lastDetect g) ++ leBytes 32 0

def execTestQuery (h : Hdr) (die cluster buffer : Nat) (s : State) : Host.Outcome State Fault Refusal :=
  .next (s.descriptor h clsTest fun s d =>
    if !s.fits die ∨ 8 ≤ cluster then s.finish d .TARGET_ABSENT 0 0
    else (s.hostPut buffer (s.testRecord die cluster)).finish d .OK 0 0)

end Sys2Proof.Machine
end

