-- ==== Sys2Proof/Machine/Resets.lean ====
section
/-! DEFINITION. Firmware distribution, partition resets and the live firmware update (R474 to R491). -/

namespace Sys2Proof.Machine

/-! ### BOOT_CFG as loaded at power-up (R491, R492) -/

def State.fastEn (s : State) : Bool := bitOf s.boot.cfg 0
def State.distFetch (s : State) : Bool := bitOf s.boot.cfg 1
def State.fullTestDays (s : State) : Nat := bitsOf s.boot.cfg 2 8
def State.resetTimeout (s : State) : Nat := bitsOf s.boot.cfg 10 5
def State.fetchTries (s : State) : Nat := bitsOf s.boot.cfg 15 3

/-! ### The firmware area (R475) -/

def fwAreaBase : Nat := 0x11D9800000
def fwHalfSize : Nat := 0x4000000

/-- Base of half `n` of the firmware area. -/
def fwHalf (n : Nat) : Nat := fwAreaBase + n % 2 * fwHalfSize

def State.liveBase (s : State) : Nat := fwHalf s.fw.liveHalf
def State.updateBase (s : State) : Nat := fwHalf (s.fw.liveHalf + 1)

/-- Base of the Hearth area of position `p` of die `d`. -/
def hearthArea (d p : Nat) : Nat := (2 * (d / 2) + 1) * stackSize + 0x891800000 + (9 * (d % 2) + p) * 0x4000000

/-- Where chunk `k` of an image lies in a half. -/
def chunkAddr (half version kind k : Nat) : Nat := half + Config.imageOffset version kind + 4096 * k

/-- The clusters' keys of a position: the logical cluster that it carries, or index 8 for a spare. -/
def State.positionKey (s : State) (d p : Nat) : Nat := clusterKey d (min 8 (s.position d p).logical)

/-- R475: entry 31 of each core's region table holds the sequencer image, in the top 64 KiB of bank 15. -/
def State.firmwareRegion (s : State) (g : Nat) : State :=
  (List.range 8).foldl (fun s c => s.setRegion (g * 8 + c) 31
    { valid := true, base := 0x3F0000, tiles := 16, resident := true, hasSource := true
      source := chunkAddr s.liveBase s.fw.live.version 2 0, owner := 0xFFFF }) s

/-! ### Chunks and receivers (R476 to R479) -/

/-- Table 16-7. -/
structure Chunk where
  kind : Nat
  run : Nat
  version : Nat
  seq : Nat
  total : Nat
  length : Nat
  data : List Byte
  ok : Bool

def parseChunk (bs : List Byte) : Chunk :=
  let data := (bs.drop 32).take 4096
  { kind := fieldAt bs 0 2, run := fieldAt bs 2 2, version := fieldAt bs 4 4, seq := fieldAt bs 8 4, total := fieldAt bs 12 4
    length := fieldAt bs 16 4, data := data, ok := bs.length == 4128 && fieldAt bs 20 4 == crc32c (bs.take 20 ++ data) }

/-- The END marker of an image. -/
def Chunk.isEnd (c : Chunk) : Bool := c.seq == c.total && c.length == 0

/-- The first chunk that a list of images has and a list of received ones lacks, in ascending order. -/
def missingChunk (images got : List (Nat × Nat)) (kinds : Nat → Bool) : Option (Nat × Nat) :=
  ((images.filter (fun x => kinds x.1)).flatMap (fun x => (List.range x.2).map (fun k => (x.1, k)))).find? (fun c => !got.contains c)

def State.receiver (s : State) (t : Nat) : Receiver := Tab.get s.fw.receivers t
def State.setReceiver (s : State) (t : Nat) (r : Receiver) : State := { s with fw := { s.fw with receivers := Tab.set s.fw.receivers t r } }

/-- The receiver holds every chunk of its images. -/
def Receiver.complete (r : Receiver) : Bool := (missingChunk r.images r.got (fun _ => true)).isNone

/-- The chunk goes to its place at the target of position `t` = 9 × die + position (Table 16-6). -/
def State.placeChunk (s : State) (t kind k : Nat) (data : List Byte) : State :=
  if kind = 1 then s.writePieces (fun _ => {}) data (piecesOf (hearthArea (t / 9) (t % 9) + 4096 * k) 4096)
  else if kind = 2 then
    let g := s.positionKey (t / 9) (t % 9)
    if g % 9 = 8 then s
    else (List.range 8).foldl (fun s c => s.writePieces (fun _ => {}) data (piecesOf (coreBase (g * 8 + c) + 0x3F0000 + 4096 * k) 4096)) s
  else s

/-- A chunk reaches the receiver of position `t`; one of another RUN, VERSION or image is discarded (R476, R477). -/
def State.takeChunk (s : State) (t : Nat) (c : Chunk) : State :=
  let r := s.receiver t
  if !r.active ∨ !c.ok ∨ c.run ≠ r.run ∨ c.version ≠ r.version ∨ !(r.images.any (fun x => x.1 == c.kind)) then s
  else if c.isEnd then s.setReceiver t { r with ended := if r.ended.contains c.kind then r.ended else c.kind :: r.ended, last := s.time.tick }
  else if !(r.images.any (fun x => x.1 == c.kind && decide (c.seq < x.2))) then s
  else (s.placeChunk t c.kind c.seq c.data).setReceiver t
    { r with got := if r.got.contains (c.kind, c.seq) then r.got else r.got ++ [(c.kind, c.seq)], last := s.time.tick }

/-- FW_CHUNK_RECEIVE: a broadcast chunk of 4,128 bytes reaches the receiver of position `t`. -/
def execFwChunkReceive (t : Nat) (chunk : List Byte) (s : State) : Host.Outcome State Fault Refusal := .next (s.takeChunk t (parseChunk chunk))

/-- A receiver starts on the images of a bundle; that of the steward's position takes no HEARTH image (Table 16-6). -/
def State.startReceiver (s : State) (b : Bundle) (steward fetch live : Bool) (t : Nat) : State :=
  s.setReceiver t { active := true, run := s.fw.run, version := b.version, images := b.images.filter (fun x => x.1 == 2 || (x.1 == 1 && !steward))
                    fetch := fetch, live := live, last := s.time.tick }

/-! ### What a reset's end and failure do (R481 to R486) -/

/-- RESET_STATUS: scope, die, cluster and state (1 RESETTING, 2 DONE, 3 FAILED). -/
def State.resetStatus (s : State) (r : Reset) (st : Nat) : State :=
  if r.release then s else { s with fw := { s.fw with lastReset := r.scope + 4 * r.die + 32 * (r.cluster % 16) + 512 * st } }

/-- R145: the calibration store of a die is cleared, and its coefficient sets are loaded from flash. -/
def State.loadCal (s : State) (d : Nat) : State :=
  let recs := (s.dieCal d).records
  (s.engines.filter (fun e => engDie e.1 == d)).foldl (fun s e => (List.range 2).foldl (fun s b =>
    let y := s.bank e.1 b
    let z : CalRecord := Tab.get recs (2 * e.1 + b)
    s.setBank e.1 b { y with
      common := { row0 := z.row0, row1 := z.row1, cofs := z.cofs }
      lanes := z.lanes.foldl (fun t x => Tab.set t x.1 { gain := x.2.1, ofs := x.2.2, retired := (y.lane x.1).retired }) [] }) s) s

/-- The core's sequencers, queue and waiters of a cluster under reset (R305, R318). -/
def State.clearCluster (s : State) (g : Nat) : State :=
  let mine (w : Waiter) : Bool := match w.who with | .seq q => q / 8 == g | .hearth c => c == g | .dma c => c == g
  let s1 := { s with seqs := s.seqs.filter (fun e => e.1 / 8 != g), wq := Tab.erase s.wq g
                     sync := (s.sync.keys).foldl (fun t k => Tab.upd t k (fun x => { x with waiters := x.waiters.filter (fun w => !mine w) })) s.sync }
  { s1 with fab := { s1.fab with remotes := s1.fab.remotes.filter (fun r => match r.issuer with | .op q _ => q / 8 != g | .dma c _ => c != g | _ => true) } }

/-- A reset ends: the completion, the event and the count. -/
def State.resetEnd (s : State) (r : Reset) (ok : Bool) : State :=
  let s1 := { s with fw := { s.fw with resets := s.fw.resets.erase r } }
  if r.release then s1
  else
    let s2 := ((s1.resetStatus r (if ok then 2 else 3)).bump (secReg Reg.RESET_TOTAL) 1).raise (if ok then .PARTITION_RESET_DONE else .PARTITION_RESET_FAILED) Src.steward
      [r.scope, r.die, r.cluster]
    match r.desc with
    | some d => s2.finish d .OK (b2n (!ok)) s2.time.tick
    | none => s2

/-- Tiles being programmed on the engines of a position start again, and their banks count one further cycle (R406, R453). -/
def State.restartTiles (s : State) (d p : Nat) : State :=
  let g := s.positionKey d p
  (List.range 32).foldl (fun s j =>
    let e := engineKey (g * 8 + j / 4) (j % 4)
    (List.range 2).foldl (fun s b => if (s.bank e b).st = .programming then s.setBank e b { s.bank e b with cycles := (s.bank e b).cycles + 1 } else s) s) s

/-- The position returns to service: cover ends, its scratchpads are cleared and its resident regions loaded again. -/
def State.positionReturns (s : State) (d : Nat) (live : Bool) (p : Nat) : State :=
  let x := s.position d p
  let s1 := s.setPosition d p { x with resetting := false, covered := false, fwOld := if live then x.fwOld else false }
  let s2 := { s1.setReceiver (9 * d + p) {} with fw := { (s1.setReceiver (9 * d + p) {}).fw with
    updated := if live then s1.fw.updated.filter (· != 9 * d + p) else s1.fw.updated ++ [9 * d + p] } }
  if x.logical < 8 then s2.reloadRegions (clusterKey d x.logical) else s2

/-- Whether every position of a running reset holds its images. -/
def State.resetReady (s : State) (r : Reset) : Bool :=
  r.running && r.positions.all (fun p => (s.receiver (9 * r.die + p)).active && (s.receiver (9 * r.die + p)).complete)

/-- R484: the die's calibration run with cause BRINGUP commits at the boundary at which it returns. -/
def State.bringupRun (s : State) (d : Nat) : State :=
  if (s.agentCluster d).isNone then s.calTrigger d calBRINGUP
  else (s.calStart d ((s.dieCal d).pending ||| calBRINGUP)).calCommit d s.epoch

/-- A reset whose positions are ready returns to service at a step boundary. -/
def State.resetDone (s : State) (r : Reset) : State :=
  let s1 := r.positions.foldl (fun s p => (s.restartTiles r.die p).positionReturns r.die r.live p) s
  let s2 := if r.release then { s1 with hk := { s1.hk with parts := Tab.set s1.hk.parts (72 + r.die) {} } } else s1
  let s3 := if r.scope = 2 then (s2.replan).bringupRun r.die else s2
  s3.resetEnd r (r.failed == 0)

/-- The image's cluster, or the position of a spare, is lost to a failed reset (R380, R483). -/
def State.losePosition (s : State) (d p : Nat) (cause : Option Nat) : State :=
  let x := s.position d p
  let s1 := s.setReceiver (9 * d + p) {}
  if x.logical < 8 then s1.loseCluster (clusterKey d x.logical) cause
  else match cause with
    | some c => (s1.retire d p).ashAdd (ashCluster d p c)
    | none => s1.retire d p

/-- The running reset that holds a position. -/
def State.resetOf (s : State) (d p : Nat) : Option Reset := s.fw.resets.find? (fun r => r.running && r.die == d && r.scope != 3 && r.positions.contains p)

/-- A position leaves its reset as failed; the reset of one cluster ends with it. -/
def State.leaveReset (s : State) (r : Reset) (p : Nat) : State :=
  let r1 : Reset := { r with positions := r.positions.erase p, failed := r.failed + 1 }
  let s1 := { s with fw := { s.fw with resets := r1 :: s.fw.resets.erase r } }
  if r1.positions.isEmpty ∧ r.scope = 1 then s1.resetEnd r1 false else s1

/-- R490: the activation stops and is to be reverted. -/
def Update.revert (cluster : Nat) (u : Update) : Update := if u.reverting then u else { u with reverting := true, cluster := cluster }

/-- A position of a running reset fails (R478, R483). One of a live update is reset again from the LIVE half, and the update reverts (R490). -/
def State.resetFails (s : State) (d p : Nat) : State :=
  match s.resetOf d p with
  | none => s
  | some r =>
    if r.update && !r.live then
      let again : Reset := { r with live := true, since := s.time.tick }
      let s1 := { s with fw := { s.fw with
        resets := again :: s.fw.resets.erase r
        update := s.fw.update.map (Update.revert (clusterKey d (s.position d p).logical)) } }
      s1.startReceiver s.fw.live false true true (9 * d + p)
    else (s.losePosition d p (some 11)).leaveReset r p

/-- RESET_TIMEOUT: position `p` of die `d` is not ready within RESET_TIMEOUT seconds, or its self-test has failed. -/
def execResetTimeout (d p : Nat) (selfTest : Bool) (s : State) : Host.Outcome State Fault Refusal :=
  .next (if s.fw.resets.any (fun r => r.running && r.die == d && r.positions.contains p && (selfTest || decide (r.since + s.resetTimeout * tickSecond ≤ s.time.tick)))
    then s.resetFails d p else s)

/-! ### Memory-side dies (R452, R485, Table 15-8) -/

/-- Every move to or from the Peat tier fails with a status that the manual does not name (R453). -/
def State.failTransfers (s : State) : State :=
  s.reqs.keys.foldl (fun s i =>
    let r := s.req i
    let v := s.freeBelow (2 ^ 16)
    match r.resuming with
    | some d => v.2.resumeFailed i v.1 d
    | none => if r.st = .ember ∧ r.tier = .moving then v.2.moveFailed i v.1 else s) s

/-- An M-die's memory is out of use: the step is abandoned, every ACTIVE request pauses with reason FAULT at the next boundary, and transfers fail. -/
def State.mdieLost (s : State) (m : Nat) : State :=
  let s1 := (s.abandon .transport .OK 0 []).failTransfers
  let hit := (s1.reqs.filter (fun (e : Nat × Req) => e.2.st == .active)).map Prod.fst
  { s1 with step := { s1.step with excluded := s1.step.excluded ++ hit }, fab := { s1.fab with noBridge := s1.fab.noBridge || decide (m < 2) } }

/-- The memory of M-die `m` after its memory test: zeros with matching CRCs (R470), its objects at 0. -/
def State.clearMdie (s : State) (m : Nat) : State :=
  let s1 := (s.zeroTiles (2 * m * stackSize) (2 * stackSize / 4096)).zeroTiles (msramBase + m * msramSize) (msramSize / 4096)
  { s1 with sync := s1.sync.foldl (fun t e => if e.1 / 1024 = m then Tab.set t e.1 { allocated := e.2.allocated } else t) s1.sync }

/-- R404, R452: a cord slot with copy on M-die `m` comes back RESTORING; the shards must come again. -/
def State.restoreCord (s : State) (i : Nat) : State :=
  let x := s.slot i
  s.setSlot i { x with st := .restoring, prior := if x.st = .restoring then x.prior else x.st, passed := [], damaged := [], clean := []
                       fill := x.fill.map (fun _ => 0), dir := x.dir.map (fun t => (t.1, { t.2 with valid := false })) }

/-- A request that the loss of an M-die's contents touches (R452). -/
def State.requestLost (s : State) (m i : Nat) : State :=
  let r := s.req i
  let t := s.table i
  let s1 := if t.valid then s.setTable i { gen := t.gen } else s
  if i % 4 = m then { (s1.unpin i).forget i with reqs := Tab.erase (s1.unpin i).reqs i }
  else if t.valid ∧ (r.st = .active ∨ r.st = .ember) then (s1.setReq i { s1.req i with length := 0, input := [], tier := .ember }).pauseReq i rsKvMissing
  else s1

/-- An M-die that is shut down, out of service after training, or under reset: no step is admitted (R450, R469, R485). -/
def State.mdieDown (s : State) (m : Nat) : Bool :=
  (Tab.get s.hk.parts (80 + m)).down || s.boot.memDown.contains m || s.fw.resets.any (fun r => r.running && r.scope == 3 && r.die == m)

/-- R452: the M-die returns with its contents lost. -/
def State.mdieReturns (s : State) (m : Nat) : State :=
  let s1 := s.clearMdie m
  let s2 := (s1.reqs.keys ++ s1.tables.keys.filter (fun i => !s1.reqs.keys.contains i)).foldl (fun s i => s.requestLost m i) s1
  let s3 := (List.range 4).foldl (fun s k => s.setPool k { s.pool k with used := [], held := [] }) s2
  let onMdie (x : Slot) : Bool := x.st != .free && x.st != .failed && (x.units.getD (2 * m) 0 != 0 || x.units.getD (2 * m + 1) 0 != 0)
  let s4 := ((List.range 8).filter (fun i => onMdie (s3.slot i))).foldl (fun s i => s.restoreCord i) s3
  { s4 with fab := { s4.fab with noBridge := m < 2 && s4.mdieDown (1 - m) } }.raise .MDIE_CONTENT_LOST Src.steward [m]

/-! ### Starting resets (R481 to R486) -/

/-- A position's reset starts at a step boundary: it is RESETTING, under cover where the cluster is reset alone, and its images are fetched (R479). -/
def State.positionResets (s : State) (r : Reset) (p : Nat) : State :=
  let x := s.position r.die p
  let cover := r.scope == 1 && x.logical < 8 && x.st == .active
  let s1 := s.setPosition r.die p { x with resetting := true, covered := cover }
  let s2 := s1.clearCluster (s.positionKey r.die p)
  s2.startReceiver (if r.live then s.fw.live else s.fw.staged.getD s.fw.live) false true r.live (9 * r.die + p)

/-- A reset that was asked for starts. -/
def State.resetStarts (s : State) (r : Reset) : State :=
  let g := clusterKey r.die r.cluster
  let s0 := if r.scope = 1 then s.handOver g else if r.scope = 2 ∧ s.stewardDie = r.die ∧ s.standbyDie.isSome then s.takeOver else s
  let r1 : Reset := { r with running := true, since := s.time.tick }
  let s1 := { s0 with fw := { s0.fw with resets := r1 :: s0.fw.resets.erase r, run := (s0.fw.run + 1) % 2 ^ 16 } }
  if r.scope = 3 then s1.mdieLost r.die
  else
    let s2 := r.positions.foldl (fun s p => s.positionResets r1 p) s1
    if r.scope = 2 then (s2.loadCal r.die).replan else s2

/-- The positions of a die that are neither RETIRED nor FUSED_OFF. -/
def State.resettable (s : State) (d : Nat) : List Nat :=
  (List.range 9).filter (fun p => (s.position d p).st != .retired && (s.position d p).st != .fusedOff)

/-- R486: what refuses a PARTITION_RESET. -/
def State.resetRefusal (s : State) (scope d k : Nat) (force : Bool) : Code :=
  if scope = 0 ∨ 3 < scope then .DESC_FORMAT
  else if (scope = 3 ∧ 4 ≤ d) ∨ (scope ≠ 3 ∧ !s.fits d) ∨ (scope = 1 ∧ (8 ≤ k ∨ (s.posOf d k).isNone)) then .TARGET_ABSENT
  else if scope = 3 ∧ !force then .RESET_CONFIRM
  else if s.fw.update.isSome ∨ s.fw.resets.any (fun r => (r.scope == 3) == (scope == 3) && r.die == d) then .RESET_BUSY
  else if scope ≠ 3 ∧ ((s.scan d).st ≠ 0 ∨ s.dieCovers d) then .RESET_BUSY
  else .OK

/-- MAINT PARTITION_RESET: it starts at the next step boundary and completes when the partition returns or fails. -/
def execPartitionReset (h : Hdr) (scope die cluster : Nat) (force : Bool) (s : State) : Host.Outcome State Fault Refusal :=
  .next (s.descriptor h clsMaint fun s d =>
    let c := s.resetRefusal scope die cluster force
    if c ≠ .OK then s.finish d c 0 0
    else
      let ps := if scope = 1 then (s.posOf die cluster).toList else if scope = 2 then s.resettable die else []
      let r : Reset := { scope := scope, die := die, cluster := if scope = 1 then cluster else 0, positions := ps, desc := some d }
      { s with fw := { s.fw with resets := s.fw.resets ++ [r] } }.resetStatus r 1)

/-! ### Fetching (R478, R479) -/

/-- R16, R466: logical clusters are assigned in ascending order over the positions of a die that are neither FUSED_OFF nor RETIRED; one left over is the spare. A logical cluster without a position is covered (R382). -/
def State.buildDie (s : State) (d : Nat) : State :=
  let good := s.resettable d
  let s0 := good.foldl (fun s p => if 3 ≤ s.boot.phase then s.stow d p (clusterKey d (min 8 (s.position d p).logical)) else s) s
  let s1 := good.zipIdx.foldl (fun s x =>
    let k := x.2
    let y : Position := if k < 8 then { st := .active, logical := k } else { st := .spare }
    (s.setPosition d x.1 y).unstow d x.1 (clusterKey d (min 8 k))) s0
  let gone := (List.range 8).filter (fun k => decide (good.length ≤ k))
  let s2 := { s1 with det := { s1.det with unplaced := s1.det.unplaced.filter (fun g => g / 9 != d) ++ (gone.map (clusterKey d)).take 1 } }
  match gone with
  | [] => s2
  | [k] => s2.raise .CLUSTER_COVERED Src.steward [d, k]
  | k :: _ => (s2.raise .CLUSTER_COVERED Src.steward [d, k]).raise .DIE_CAPACITY_LOST Src.steward [d]

/-- A position is lost at bring-up: it is RETIRED, counted and reported (R466). -/
def State.positionFailed (s : State) (d p : Nat) : State :=
  let s1 := ((s.retire d p).ashAdd (ashCluster d p 8)).buildDie d
  { s1.setReceiver (9 * d + p) {} with boot := { s1.boot with positionsLost := s1.boot.positionsLost + 1 } }.raise .POSITION_FAILED Src.steward [9 * d + p]

/-- A chunk has failed FETCH_TRIES fetches: the cluster fails (R478). -/
def State.chunkFails (s : State) (t kind k : Nat) : State :=
  let s1 := s.raise .FW_CHUNK_FAILED Src.steward [t, kind, k]
  if s.ready then s1.resetFails (t / 9) (t % 9) else s1.positionFailed (t / 9) (t % 9)

/-- The next chunk that the receiver of position `t` fetches is read from its half and checked. -/
def State.fetchChunk (s : State) (t : Nat) : State :=
  let r := s.receiver t
  let quiet := r.fetch || decide (r.last + tickSecond ≤ s.time.tick)
  if !r.active then s
  else match missingChunk r.images r.got (fun k => quiet || r.ended.contains k) with
    | none => s
    | some (kind, k) =>
      let rd := s.read (Reader.ofCluster (s.positionKey (t / 9) (t % 9))) (chunkAddr (if r.live then s.liveBase else s.updateBase) r.version kind k) 4096
      if rd.code = .OK then
        ((rd.st.placeChunk t kind k rd.bytes).setReceiver t { r with got := r.got ++ [(kind, k)], tries := 0 }).bump (secReg Reg.FW_REFETCH_TOTAL) 1
      else if r.tries + 1 < s.fetchTries then rd.st.setReceiver t { r with tries := r.tries + 1 }
      else rd.st.chunkFails t kind k

/-! ### Staging (R480, R487) -/

/-- R487: what refuses a staged bundle after its signatures. -/
def State.stageStatus (s : State) (b : Bundle) : Code :=
  if s.fw.live.version < b.peerMin then .FW_PEER_CONFLICT
  else if s.chans.any (fun e => e.2.isOpen && !(offerList b.abi).any (fun v => v != 0 && v / 256 == e.2.abiVer / 256)) then .FW_ABI_CONFLICT
  else .OK

/-- R487: the bundle and its steward image are verified; an accepted bundle is staged and written to the flash copies that are not live. -/
def State.stageBundle (s : State) (d : Desc) (b : Bundle) (sig stewardSig : SigOut) : State :=
  let x := s.verify b.formed 2 b.keyId b.security (some 0) sig
  let y := if x.2 = .accepted then x.1.verify b.formed 1 b.keyId b.stewardSecurity (some 0) stewardSig else x
  match y.2 with
  | .signature => y.1.finish d .FW_SIGNATURE 0 0
  | .rollback => y.1.finish d .FW_ROLLBACK 0 0
  | .accepted =>
    let c := y.1.stageStatus b
    if c ≠ .OK then y.1.finish d c 0 0 else { y.1 with fw := { y.1.fw with staged := some b } }.finish d .OK b.version 0

/-- The frame of a chunk on its way along the chain (R480). -/
def State.chunkFrame (s : State) (last : Nat) (body : List Byte) : Frame := { kind := fkChunk, src := s.moduleId, dst := last, body := body }

/-- The head of a run opens a window over its UPDATE half and sends every chunk out of G0. -/
def State.forwardBundle (s : State) (last : Nat) (chunks : List (List Byte)) : State :=
  let w : WinArgs := { base := s.updateBase, size := fwHalfSize, srcFirst := s.moduleId + 1, srcLast := last, rights := 4, ports := 1 }
  let s1 := match s.winEntry w with
    | some n => if s.winStatus w false = .OK then s.winOpen n w else s
    | none => s
  chunks.foldl (fun s c => s.transmit 0 (s.chunkFrame last c)) s1

/-- FW_STAGE. The bundle's content is the operand's; `chunks` are its chunks with their headers and END markers, for FORWARD (log 30). -/
def execFwStage (h : Hdr) (space : Nat) (receive forward : Bool) (last source length : Nat) (far : List Byte) (b : Bundle) (sig stewardSig : SigOut) (chunks : List (List Byte))
    (s : State) : Host.Outcome State Fault Refusal :=
  .next (s.descriptor h clsMaint fun s d =>
    if s.fw.update.isSome ∨ s.fw.receive.isSome then s.finish d .FW_UPDATE_BUSY 0 0
    else if receive then { s with fw := { s.fw with receive := some { desc := d, bundle := b, sig := sig, stewardSig := stewardSig, last := s.time.tick } } }
    else
      let rd := s.object space source length far
      if rd.code ≠ .OK then rd.st.finish d rd.code 0 0
      else
        let s1 := rd.st.writePieces (fun _ => {}) rd.bytes (piecesOf rd.st.updateBase rd.bytes.length)
        (if forward then s1.forwardBundle last chunks else s1).stageBundle d b sig stewardSig)

/-- A chunk of a bundle being received is written to the UPDATE half; with the last one the bundle is verified. -/
def State.receiveChunk (s : State) (x : FwReceive) (kind k : Nat) (data : List Byte) : State :=
  let y : FwReceive := { x with last := s.time.tick, chunks := if x.chunks.contains (kind, k) then x.chunks else x.chunks ++ [(kind, k)] }
  let s1 := { s with fw := { s.fw with receive := some y } }.writePieces (fun _ => {}) data (piecesOf (chunkAddr s.updateBase x.bundle.version kind k) 4096)
  if (missingChunk x.bundle.images y.chunks (fun _ => true)).isNone then { s1 with fw := { s1.fw with receive := none } }.stageBundle x.desc x.bundle x.sig x.stewardSig
  else s1

/-- MCAST_CHUNK: taken only on G1 while an FW_STAGE with RECEIVE is held; written, and forwarded out of G0 unless the run ends here. -/
def execMcastChunk (p : Nat) (f : Frame) (s : State) : Host.Outcome State Fault Refusal :=
  .next (if p = 1 ∧ s.portUp p ∧ f.kind = fkChunk then
    match s.fw.receive with
    | none => s
    | some x => s.receive p f fun s =>
      let s1 := if f.dst = s.moduleId ∨ !s.portUp 0 then s else s.transmit 0 f
      let c := parseChunk f.body
      if !c.ok ∨ c.version ≠ x.bundle.version then s1
      else if c.isEnd then { s1 with fw := { s1.fw with receive := some { x with last := s1.time.tick } } }
      else if x.bundle.images.any (fun y => y.1 == c.kind && decide (c.seq < y.2)) then s1.receiveChunk x c.kind c.seq c.data
      else s1
  else s)

/-- FW_CHUNK_FETCH: the receiver of position `t` fetches its next missing chunk; 72 stands for the module's own reception of a bundle, whose missing chunks come from the head's window as `far` after 1 s of silence. -/
def execFwChunkFetch (t : Nat) (far : List Byte) (s : State) : Host.Outcome State Fault Refusal :=
  .next (if t < 72 then s.fetchChunk t
    else match s.fw.receive with
      | none => s
      | some x =>
        if x.last + tickSecond ≤ s.time.tick then
          match missingChunk x.bundle.images x.chunks (fun _ => true) with
          | some (kind, k) => (s.receiveChunk { x with last := 0 } kind k (fitBytes 4096 far)).bump (secReg Reg.FW_REFETCH_TOTAL) 1
          | none => s
        else s)

/-! ### The live update (R488 to R490) -/

/-- FW_ACTIVATE: the rounds begin at the next step boundary; positions that run the live version are marked FW_OLD. -/
def execFwActivate (h : Hdr) (s : State) : Host.Outcome State Fault Refusal :=
  .next (s.descriptor h clsMaint fun s d =>
    match s.fw.staged with
    | none => s.finish d .FW_NOT_STAGED 0 0
    | some _ =>
      if s.fw.update.isSome then s.finish d .FW_UPDATE_BUSY 0 0
      else
        let s1 := s.dies.foldl (fun s d => (s.resettable d).foldl (fun s p => s.setPosition d p { s.position d p with fwOld := true }) s) s
        { s1 with fw := { s1.fw with update := some { desc := some d, steward := s.stewardCluster }, updated := [] } })

/-- The resets of round `n` of an update: of each fitted die, the SPARE position, logical cluster n − 1, or the steward's old cluster. -/
def State.updateRound (s : State) (u : Update) (n : Nat) : List Reset :=
  let one (d p k : Nat) : Reset := { scope := 1, die := d, cluster := k, positions := [p], update := true, live := u.reverting }
  let want (d p : Nat) : Bool := if u.reverting then s.fw.updated.contains (9 * d + p) else !s.fw.updated.contains (9 * d + p)
  if n = 0 then
    s.dies.flatMap (fun d => ((List.range 9).filter (fun p => (s.position d p).st == .spare && want d p)).map (fun p => one d p 15))
  else
    let dies := if n = 9 then [u.steward / 9] else s.dies
    let k := if n = 9 then u.steward % 9 else n - 1
    dies.flatMap (fun d => if n ≠ 9 ∧ clusterKey d k = u.steward then [] else
      match s.posOf d k with
      | some p => if want d p then [one d p k] else []
      | none => [])

/-- A round waits until its logical numbers are ACTIVE or covered (Table 16-10). -/
def State.roundWaits (s : State) (n : Nat) : Bool :=
  s.dies.any (fun d => decide (0 < n) && decide (n < 9) && (match s.posOf d (n - 1) with
    | some p => (s.position d p).st == .programming
    | none => !s.det.unplaced.contains (clusterKey d (n - 1))))

/-- Step 4 of R488: the halves exchange roles, FW_VERSION and the interface offers change, and the boot directory is rewritten. -/
def State.switchFirmware (s : State) (u : Update) (b : Bundle) : State :=
  let old := s.fw.live.version
  let s1 := { s with fw := { s.fw with live := b, staged := none, update := none, updated := [], liveHalf := (s.fw.liveHalf + 1) % 2
                                       stewardCopy := 1 - s.fw.stewardCopy, bundleCopy := 1 - s.fw.bundleCopy, dirSeq := (s.fw.dirSeq + 1) % 2 ^ 32 } }
  let s2 := (((((s1.setReg Reg.FW_VERSION b.version).setReg Reg.VER_RING b.ring).setReg Reg.VER_DESC b.desc).setReg Reg.VER_ABI b.abi).setReg Reg.VER_LINK b.link).setReg Reg.VER_IMAGE b.image
  let s3 := (s2.clusters ++ s2.dies.map (fun d => clusterKey d 8)).foldl (fun s g => s.firmwareRegion g) s2
  let s4 := s3.raise .FW_UPDATE_DONE Src.steward [old, b.version]
  match u.desc with
  | some d => s4.finish d .OK b.version s4.time.tick
  | none => s4

/-- R490: the reversion is complete: the live version runs everywhere and the bundle stays staged. -/
def State.revertDone (s : State) (u : Update) : State :=
  let s1 := s.dies.foldl (fun s d => (List.range 9).foldl (fun s p => if (s.position d p).fwOld then s.setPosition d p { s.position d p with fwOld := false } else s) s) s
  let s2 := { s1 with fw := { s1.fw with update := none, updated := [] } }.raise .FW_UPDATE_FAILED Src.steward [u.cluster]
  match u.desc with
  | some d => s2.finish d .FW_UPDATE_FAILED 0 s2.time.tick
  | none => s2

def State.setUpdate (s : State) (u : Update) : State := { s with fw := { s.fw with update := some u } }

/-- The update moves on at a step boundary at which none of its resets is left. -/
def State.updateBoundary (s : State) : State :=
  match s.fw.update, s.fw.staged with
  | some u, some b =>
    if s.fw.resets.any (fun r => r.update) then s
    else if u.reverting then
      match (List.range 10).reverse.find? (fun n => !(s.updateRound u n).isEmpty) with
      | some n => { s with fw := { s.fw with resets := s.fw.resets ++ s.updateRound u n } }
      | none => s.revertDone u
    else if u.round = 10 then s.switchFirmware u b
    else if s.roundWaits u.round then s
    else (({ s with fw := { s.fw with resets := s.fw.resets ++ s.updateRound u u.round } }).setUpdate { u with round := u.round + 1 })
  | _, _ => s

/-- Resets at a step boundary: those that are ready end, the update moves on, and those asked for start. -/
def State.resetBoundary (s : State) : State :=
  let ended := s.fw.resets.filter (fun r => if r.scope = 3 then r.running else s.resetReady r)
  let s1 := ended.foldl (fun s r => if r.scope = 3 then (s.mdieReturns r.die).resetEnd r true else s.resetDone r) s
  let s2 := s1.updateBoundary
  (s2.fw.resets.filter (fun r => !r.running)).foldl (fun s r => s.resetStarts r) s2

/-! ### Status registers (Table 16-12) -/

def State.bootStatus (s : State) : Nat :=
  s.boot.phase + 16 * b2n s.boot.fast + 32 * s.boot.copy + 64 * s.boot.bundle + 2 ^ 8 * s.boot.fail + 2 ^ 16 * (min 0xFFFF s.boot.rowsRepaired)
    + 2 ^ 32 * min 255 s.boot.rowsUnrepaired + 2 ^ 40 * min 255 s.boot.positionsLost

def State.fwStatus (s : State) : Nat :=
  (match s.fw.staged with | some b => b.version | none => 0)
    + 2 ^ 32 * (match s.fw.update with | some u => if u.reverting then 3 else 2 | none => b2n s.fw.staged.isSome) + 2 ^ 34 * s.fw.updated.length

/-- MAINT FW_QUERY. -/
def execFwQuery (h : Hdr) (buffer : Nat) (s : State) : Host.Outcome State Fault Refusal :=
  .next (s.descriptor h clsMaint fun s d =>
    (s.hostPut buffer (leBytes 8 s.bootStatus ++ leBytes 8 s.fwStatus ++ leBytes 8 s.fw.lastReset ++ leBytes 40 0)).finish d .OK 0 0)

end Sys2Proof.Machine
end

