-- ==== Sys2Proof/Machine/Housekeeping.lean ====
section
/-! DEFINITION. The housekeeping ADC, temperature levels, the Damper, the power stage, partition and module shutdown (R433 to R455). -/

namespace Sys2Proof.Machine

/-! ### Set-up (Tables 15-11 and 15-13) -/

def State.hkCfg (s : State) (lo n : Nat) : Nat := s.fld (hkReg Reg.HK_CFG) lo n
def State.autoRelease (s : State) : Bool := s.hkCfg 5 1 == 1
def State.releaseHold (s : State) : Nat := s.hkCfg 6 8
def State.diagTol (s : State) : Nat := s.fld (hkReg Reg.HK_DIAG_CFG) 0 12
def State.fsCode (s : State) (e : Nat) : Nat := s.fld (hkReg (Reg.HK_EXT_FS + 4 * e)) 0 16
def State.powerLimit (s : State) : Nat := s.fld (pwrReg Reg.PWR_CFG) 0 11
def State.powerMargin (s : State) : Nat := s.fld (pwrReg Reg.PWR_CFG) 11 7

/-! ### Channels and partitions (Tables 15-3 to 15-5) -/

/-- A channel in format T. -/
def hkTemp (c : Nat) : Bool := decide (c < 96) || c == 119
/-- A channel that an HBM stack delivers (R442). -/
def hkHbm (c : Nat) : Bool := decide (84 ≤ c) && decide (c < 92)
/-- A signed format: T or EXT. -/
def hkSigned (c : Nat) : Bool := hkTemp c || decide (120 ≤ c)

/-- The partition of a temperature channel; 84 is the module. -/
def hkPart (c : Nat) : Nat := if c < 84 then c else if c < 92 then 80 + (c - 84) / 2 else 84

/-- The temperature channels of a partition. -/
def partChans (p : Nat) : List Nat :=
  if p < 80 then [p] else if p < 84 then [p, 84 + 2 * (p - 80), 85 + 2 * (p - 80)] else [92, 93, 94, 95, 119]

/-- The compute die of a channel that has one. -/
def hkDie (c : Nat) : Option Nat :=
  if c < 72 then some (c / 9) else if c < 80 then some (c - 72) else if 98 ≤ c ∧ c < 114 then some ((c - 98) % 8) else none

/-- A channel that the round scans (R440). -/
def State.hkScanned (s : State) (c : Nat) : Bool := decide (c < 128) && (match hkDie c with | some d => s.fits d | none => true)

/-- A partition of a fitted die, or the module's. -/
def State.partFitted (s : State) (p : Nat) : Bool := decide (p < 85) && (if p < 72 then s.fits (p / 9) else if p < 80 then s.fits (p - 72) else true)

def State.hkChan (s : State) (c : Nat) : HkChan := Tab.get s.hk.chans c
def State.setHkChan (s : State) (c : Nat) (x : HkChan) : State := { s with hk := { s.hk with chans := Tab.set s.hk.chans c x } }
def State.partition (s : State) (p : Nat) : Partition := Tab.get s.hk.parts p
def State.setPartition (s : State) (p : Nat) (x : Partition) : State := { s with hk := { s.hk with parts := Tab.set s.hk.parts p x } }

/-! ### Readings (R441, R443) -/

/-- R443: the corrected reading of a code. -/
def hkCorrect (offset : Int) (gain : Nat) (code : Int) : Int := rneDiv ((code - offset) * gain) 16384

/-- R441: the nearest value that the channel's format holds. -/
def hkClamp (c : Nat) (v : Int) : Int := if hkSigned c then clampInt (-32768) 32767 v else clampInt 0 65535 v

/-- The corrected reading of a conversion and whether it was clamped: an HBM channel's is delivered as a reading; a T channel's `code` is what the sensor's characteristic makes of the raw code (log 61). -/
def hkReading (c : Nat) (x : HkChan) (raw : Nat) (code : Int) : Int × Bool :=
  let v := if hkHbm c then signed 16 raw else hkCorrect x.offset x.gain (if hkTemp c then code else raw)
  (hkClamp c v, hkClamp c v != v)

/-- The forced reading of a broken T channel, 110.0 °C (R447). -/
abbrev hkForced : Int := 0x6E0

/-- R447: the cause with which a conversion breaks a channel: 1 OPEN, 2 SHORT, 3 RANGE, 4 STUCK, or 0; `same` counts the rounds with this raw code. -/
def hkFault (c raw : Nat) (v : Int) (same : Nat) (fail : Bool) : Nat :=
  let far := hkTemp c && (decide (v < -640) || decide (2400 < v))
  if hkHbm c then (if fail then 1 else if far then 3 else 0)
  else if 0xFFF0 ≤ raw then 1 else if raw ≤ 0xF then 2 else if far then 3 else if 8 ≤ same then 4 else 0

/-! ### Power (R434, R435, R451) -/

/-- What power loss leaves of a bank: its cells, cycle count, column maps and spares. -/
def Bank.kept (y : Bank) : Bank :=
  { st := if y.st = .programming then .empty else y.st, cycles := y.cycles, layers := if y.st = .programming then [] else y.layers, cols := y.cols
    version := y.version, spares := y.spares, refOff := y.refOff, wearNoticed := y.wearNoticed }

/-- What a power cycle leaves of a slot (R404, R507): ACTIVE and STANDBY come up RESTORING without their key, FAILED stays, any other is FREE (log 62). -/
def Slot.kept (x : Slot) : Slot :=
  let prior := if x.st = .restoring then x.prior else x.st
  if prior = .active ∨ prior = .standby then
    { x with st := .restoring, prior := prior, key := none, passed := [], damaged := [], clean := [], retried := [], fill := x.fill.map (fun _ => 0)
             dir := x.dir.map (fun t => (t.1, { t.2 with valid := false })), pred := none, succ := none, intake := none, part := none, forward := [], unfreed := 0
             lastCheck := 0, nextCheck := 0 }
  else if x.st = .failed then { x with key := none, pred := none, succ := none, intake := none, part := none, forward := [], unfreed := 0 }
  else {}

/-- Every position's arrays stay with it. -/
def State.stowAll (s : State) : State :=
  s.dies.foldl (fun s d => (List.range 9).foldl (fun s p =>
    let x := s.position d p
    if x.st = .retired ∨ x.st = .fusedOff then s else s.stow d p (clusterKey d (min 8 x.logical))) s) s

/-- Every rail is cut and the regulators latch off with a cause (R434). What is non-volatile stays (R435, R456): the arrays, what module flash and the fuses hold, what left the module, and host memory. -/
def State.powerOff (s : State) (cause : Nat) : State :=
  let t := s.stowAll
  { pending := s.pending, fresh := s.fresh, part := s.part, hmem := s.hmem, cq := s.cq, irq := s.irq
    ev := { ring := s.ev.ring }
    attic := t.attic.foldl (fun r e => Tab.set r e.1 { a := e.2.a.kept, b := e.2.b.kept }) []
    cal := s.cal.foldl (fun r e => Tab.set r e.1 { saved := e.2.saved, records := e.2.records }) []
    ash := { entries := s.ash.entries.take s.ash.flash, flash := s.ash.flash, lost := s.ash.lost }
    slots := s.slots.foldl (fun r e => Tab.set r e.1 e.2.kept) []
    boot := { hours := s.boot.hours, training := s.boot.training, fuses := s.boot.fuses, cfgFlash := s.boot.cfgFlash }
    hk := { saved := s.hk.saved, latch := cause, shutdown := s.hk.shutdown }
    fab := { ports := s.fab.ports.foldl (fun r e => Tab.set r e.1 { saved := e.2.saved }) [], sent := s.fab.sent }
    sec := { s.sec with leaves := s.sec.bound, attests := [], second := 0, signed := 0 }
    fw := { live := s.fw.live, stewardCopy := s.fw.stewardCopy, bundleCopy := s.fw.bundleCopy, dirSeq := s.fw.dirSeq } }

/-- A regulator's protection of Table 15-2 trips. -/
def State.regulatorTrip (s : State) (cause : Nat) : State := if s.hk.powered then s.powerOff cause else s

def execInputUndervolt (s : State) : Host.Outcome State Fault Refusal := .next (s.regulatorTrip 1)
def execInputOvervolt (s : State) : Host.Outcome State Fault Refusal := .next (s.regulatorTrip 2)
def execInputOvercurrent (s : State) : Host.Outcome State Fault Refusal := .next (s.regulatorTrip 3)
def execRegulatorFault (s : State) : Host.Outcome State Fault Refusal := .next (s.regulatorTrip 4)

/-- INPUT_OUT_OF_RANGE: the input enters a band of Table 15-2 beside 54 V to 63 V, or with `out` false returns; the event comes once per excursion. -/
def execInputOutOfRange (out : Bool) (s : State) : Host.Outcome State Fault Refusal :=
  .next (if !s.hk.powered then s
    else
      let s1 := { s with hk := { s.hk with inputRange := out } }
      if out && !s.hk.inputRange then s1.raise .INPUT_OUT_OF_RANGE Src.x1 [] else s1)

/-- CURRENT_LIMIT: the input current has been above 32 A for 10 ms, or with `over` false has fallen back. -/
def execCurrentLimit (past : Bool) (s : State) : Host.Outcome State Fault Refusal :=
  .next (if !s.hk.powered then s else { s with hk := { s.hk with currentLimited := past, powerStage := if past then 3 else s.hk.powerStage } })

/-- R451: the shutdown record is written and the trip armed, once. -/
def State.moduleShutdown (s : State) (c cause : Nat) : State :=
  if s.hk.tripArmed then s
  else
    let x := s.hkChan c
    let rs := (List.range 3).map (fun i => encodeInt 16 (x.history.getD i 0))
    { s with hk := { s.hk with shutdown := some ([cause, c] ++ rs ++ [s.time.tick]), tripArmed := true } }.raise .MODULE_SHUTDOWN Src.x1 [cause, c, encodeInt 16 x.reading]

/-- MODULE_SHUTDOWN_TRIP. -/
def execModuleShutdownTrip (s : State) : Host.Outcome State Fault Refusal :=
  .next (if s.hk.powered ∧ s.hk.tripArmed then s.powerOff ((s.hk.shutdown.getD []).headD 5) else s)

/-! ### Partition shutdown (R450, Table 15-8) -/

/-- A scan that concerns the position stops (R453). -/
def State.scanStop (s : State) (d p : Nat) : State :=
  let x := s.scan d
  if x.position = p ∨ ((s.position d p).st = .programming ∧ (s.position d p).logical = 15) then s.scanHalt d else s

/-- A calibration run in progress skips the engines of a cluster (R150). -/
def State.skipRun (s : State) (g : Nat) : State :=
  let c := s.dieCal (g / 9)
  let out (x : Nat × Nat) : Bool := engCore x.1 / 8 == g
  if c.banks.any out || c.beyond.any out then s.setCal (g / 9) { c with banks := c.banks.filter (fun x => !out x), beyond := c.beyond.filter (fun x => !out x) } else s

/-- A cluster position is shut down. -/
def State.positionDown (s : State) (d p : Nat) : State :=
  let x := s.position d p
  let g := clusterKey d x.logical
  let steward := x.logical < 8 && s.stewardCluster == g && s.ready
  let s1 := ((s.scanStop d p).abandon .transport .OK 0 []).skipRun g
  let s2 := match s1.resetOf d p with
    | some r => (s1.losePosition d p none).leaveReset r p
    | none => s1.losePosition d p none
  if steward ∧ s2.standbyDie.isSome then s2.stewardFails else s2

/-- A compute die is shut down: requests with work there pause, its run stops, and its steward's standby takes over. -/
def State.computeDown (s : State) (d : Nat) : State :=
  let steward := s.stewardDie == d && s.ready
  let s1 := ((s.abandon .transport .OK 0 []).pauseDie d).replan
  let c := s1.dieCal d
  let s2 := s1.setCal d { c with run := 0, banks := [], beyond := [] }
  if steward ∧ s2.standbyDie.isSome then s2.stewardFails else s2

/-- The consequences of Table 15-8. -/
def State.partDown (s : State) (p : Nat) : State :=
  if p < 72 then s.positionDown (p / 9) (p % 9) else if p < 80 then s.computeDown (p - 72) else s.mdieLost (p - 80)

/-- A position whose shutdown makes it RETIRED. -/
def State.wasGood (s : State) (p : Nat) : Bool := decide (p < 72) && (let x := (s.position (p / 9) (p % 9)).st; x != .retired && x != .fusedOff)

/-- A partition reaches the shutdown level; before the partitions are powered it only stays off (R437). -/
def State.partitionShutdown (s : State) (p c : Nat) : State :=
  if (s.partition p).down then s
  else
    let s0 := s.setPartition p { down := true, retired := s.wasGood p }
    let s1 := if s.boot.phase < 3 then s0 else s0.partDown p
    s1.raise .PARTITION_SHUTDOWN Src.x1 [p, c, encodeInt 16 (s.hkChan c).reading]

/-! ### Levels (R448, Table 15-6) -/

/-- A reading sets and clears the warning level. -/
def State.warnLevel (s : State) (c : Nat) (v : Int) : State :=
  let x := s.hkChan c
  if !x.warn ∧ 1520 ≤ v then ((s.setHkChan c { x with warn := true }).bump (hkReg Reg.THERM_WARN_TOTAL) 1).raise .THERMAL_WARNING Src.x1 [c, encodeInt 16 v]
  else if x.warn ∧ v < 1472 then (s.setHkChan c { x with warn := false }).raise .THERMAL_NORMAL Src.x1 [c, encodeInt 16 v]
  else s

/-- A reading sets and clears the throttle level. -/
def State.throttleLevel (s : State) (c : Nat) (v : Int) : State :=
  let x := s.hkChan c
  if !x.throttle ∧ 1632 ≤ v then (s.setHkChan c { x with throttle := true }).bump (hkReg Reg.THERM_THROTTLE_TOTAL) 1
  else if x.throttle ∧ v < 1568 then s.setHkChan c { x with throttle := false }
  else s

/-- A reading sets the shutdown level, which only a release clears. -/
def State.shutLevel (s : State) (c : Nat) (v : Int) : State :=
  let x := s.hkChan c
  if !x.shut ∧ 1760 ≤ v then
    let s1 := (s.setHkChan c { x with shut := true }).bump (hkReg Reg.THERM_SHUTDOWN_TOTAL) 1
    if hkPart c = 84 then s1.moduleShutdown c (if x.broken ≠ 0 then 6 else 5) else s1.partitionShutdown (hkPart c) c
  else s

/-- R452: every channel of the partition reads below 90 °C and none is broken. -/
def State.coolEnough (s : State) (p : Nat) : Bool := (partChans p).all (fun c => decide ((s.hkChan c).reading < 1440) && (s.hkChan c).broken == 0)

/-- The release condition of a partition that is down starts or ends. -/
def State.watchRelease (s : State) (p : Nat) : State :=
  let x := s.partition p
  let ok := s.coolEnough p
  if !x.down ∨ ok = x.ready then s else s.setPartition p { x with ready := ok, since := s.time.tick }

/-- The supervisor acts on a reading of a T channel; a forced one counts as a reading. -/
def State.hkAct (s : State) (c : Nat) : State :=
  if hkTemp c then
    let v := (s.hkChan c).reading
    (((s.warnLevel c v).throttleLevel c v).shutLevel c v).watchRelease (hkPart c)
  else s

/-! ### Conversions (R442, R446, R447) -/

/-- The channel breaks: it is reported and counted, a T channel takes the forced reading, and it is diagnosed at codes 256 and 768. -/
def State.hkBreak (s : State) (c : Nat) (x : HkChan) (cause : Nat) : State :=
  let y : HkChan := { x with broken := cause, diagOk := false, valid := [], reading := if hkTemp c then hkForced else x.reading
                             history := if hkTemp c then (hkForced :: x.history).take 3 else x.history }
  let s1 := ((s.setHkChan c y).bump (hkReg Reg.HK_BROKEN_TOTAL) 1).raise .SENSOR_BROKEN Src.x1 [c, cause]
  ({ s1 with hk := { s1.hk with diag := s1.hk.diag ++ [(s1.hk.rounds + 1, c, 256), (s1.hk.rounds + 2, c, 768)] } }).hkAct c

/-- Whether a broken channel recovers with these raw codes of its valid rounds since it passed diagnosis, newest first. -/
def hkRecovers (valid : List Nat) : Bool := valid.length == 8 && valid.any (· != valid.headD 0)

/-- A system calibration in progress takes the raw code of a conversion (R445). -/
def State.sysTake (s : State) (c raw : Nat) : State :=
  let k := s.hk.sys
  if !k.running ∨ c ≠ 120 + k.chan then s
  else
    let y : SysCal := { k with n := k.n + 1, sum := k.sum + raw }
    if y.n < 16 then { s with hk := { s.hk with sys := y } }
    else
      let old := Tab.get s.hk.coefNext c
      let x := s.hkChan c
      let offset := old.getD 0 x.offset
      let gain := old.getD 1 (x.gain : Int)
      let done (ok : Bool) (s : State) : State := { s with hk := { s.hk with sys := { y with running := false, done := ok, failed := !ok } } }
      if k.op = 1 then
        let r0 := rneDiv y.sum 16
        let v := s.freeBelow (2 ^ 16)
        if r0 ≤ 32767 then done true { s with hk := { s.hk with coefNext := Tab.set s.hk.coefNext c [r0, gain] } }
        else done true { v.2 with hk := { v.2.hk with coefNext := Tab.set v.2.hk.coefNext c [signed 16 v.1, gain] } }
      else
        let den := (y.sum : Int) - 16 * offset
        let g := rneDiv ((s.fsCode k.chan : Int) * 16384 * 16) den.toNat
        if den ≤ 0 ∨ g < 8192 ∨ 32768 < g then done false s
        else done true { s with hk := { s.hk with coefNext := Tab.set s.hk.coefNext c [offset, g] } }

/-- A diagnosis takes the channel's slot: the previous reading stands, and the result is shown. -/
def State.hkDiagnose (s : State) (c code raw : Nat) : State :=
  let ok := decide (((raw : Int) - 64 * code).natAbs ≤ s.diagTol)
  let s1 := { s with hk := { s.hk with tdacChan := c, tdacCode := code, tdacPending := false, tdacRaw := raw, tdacDone := true, tdacPass := ok } }
  let x := s1.hkChan c
  if x.broken ≠ 0 then s1.setHkChan c { x with broken := if ok then x.broken else 5, diagOk := ok, valid := [] }
  else if ok then s1
  else s1.hkBreak c x 5

/-- A conversion of a channel that is scanned in the round's slot. -/
def State.hkConvert (s : State) (c raw : Nat) (code : Int) (fail : Bool) : State :=
  let x := s.hkChan c
  let v := hkReading c x raw code
  let same := if x.seen && x.raw == raw then x.same + 1 else 1
  let f := hkFault c raw v.1 same fail
  let y : HkChan := { x with raw := raw, seen := true, round := s.hk.rounds, same := same, overRange := v.2 }
  let good : HkChan := { y with reading := v.1, history := (v.1 :: x.history).take 3 }
  let s1 :=
    if x.broken = 0 then (if f = 0 then (s.setHkChan c good).hkAct c else s.hkBreak c good f)
    else
      let valid := if x.diagOk && f == 0 then (raw :: x.valid).take 8 else []
      if hkRecovers valid then ((s.setHkChan c { good with broken := 0, diagOk := false, valid := [] }).raise .SENSOR_RECOVERED Src.x1 [c]).hkAct c
      else (s.setHkChan c (if hkTemp c then { y with valid := valid, overRange := x.overRange } else { good with valid := valid })).hkAct c
  let s2 := s1.sysTake c raw
  if hkPart c = 84 ∧ hkTemp c ∧ (s2.hkChan c).broken ≠ 0 then s2.moduleShutdown c 6 else s2

/-- New coefficients take effect, and ROUND_MS is taken, at the start of a round (R442, R445). -/
def State.roundStart (s : State) : State :=
  let s1 := s.hk.coefNext.foldl (fun s e => s.setHkChan e.1 { s.hkChan e.1 with offset := e.2.getD 0 0, gain := (e.2.getD 1 16384).toNat }) s
  { s1 with hk := { s1.hk with coefNext := [], roundMs := s1.hkCfg 0 5, damped := s1.hk.live.any (fun e => e.2 != 0), dampMoved := false } }

/-- HK_SLOT_CONVERSION: the round's next slot. `raw` is the raw code, an HBM channel's reading, or, in a diagnosis, the code with the DAC applied. -/
def execHkSlotConversion (raw : Nat) (code : Int) (fail : Bool) (s : State) : Host.Outcome State Fault Refusal :=
  .next (let c := s.hk.slot
    if !s.hk.powered ∨ 128 ≤ c then s
    else
      let s1 := if c = 0 then s.roundStart else s
      let s2 := { s1 with hk := { s1.hk with slot := c + 1 } }
      if !s.hkScanned c then s2
      else match s2.hk.diag.find? (fun e => e.2.1 == c && decide (e.1 ≤ s2.hk.rounds)) with
        | some e => { s2 with hk := { s2.hk with diag := s2.hk.diag.erase e } }.hkDiagnose c e.2.2 (raw % 2 ^ 16)
        | none => s2.hkConvert c (raw % 2 ^ 16) code fail)

/-! ### The end of a round (R438, R439) -/

/-- R438: the product of channels 96 and 97 to the nearest watt. -/
def State.inputPower (s : State) : Nat := (rneDiv ((s.hkChan 96).reading * (s.hkChan 97).reading) 50000).toNat

/-- R439: the power stage after a round of input power `p`. -/
def State.stageRound (s : State) (p : Nat) : State :=
  let h := s.hk
  let past := if s.powerLimit < p then h.overRounds + 1 else 0
  let under := if p + s.powerMargin < s.powerLimit then h.underRounds + 1 else 0
  let h1 : Hk := if 3 ≤ past then { h with powerStage := min 3 (h.powerStage + 1), overRounds := 0, underRounds := under }
    else if 50 ≤ under then { h with powerStage := h.powerStage - 1, overRounds := past, underRounds := 0 }
    else { h with overRounds := past, underRounds := under }
  let broken := (s.hkChan 96).broken != 0 || (s.hkChan 97).broken != 0
  { s with hk := { h1 with powerStage := if broken then max 2 h1.powerStage else h1.powerStage } }

/-- Milliseconds of the round that some die spent above stage 0: all of it, none of it, or an amount that the model leaves open where that changed within the round. -/
def State.damperMs (s : State) : State :=
  if s.hk.dampMoved then
    let v := s.freeBelow (s.hk.roundMs + 1)
    v.2.bump (hkReg Reg.DAMPER_MS_TOTAL) v.1
  else if s.hk.damped then s.bump (hkReg Reg.DAMPER_MS_TOTAL) s.hk.roundMs
  else s

/-- ROUND_END. -/
def execRoundEnd (s : State) : Host.Outcome State Fault Refusal :=
  .next (if !s.hk.powered ∨ s.hk.slot < 128 then s
    else
      let p := s.inputPower
      let s1 := { s with hk := { s.hk with power := p, slot := 0, rounds := s.hk.rounds + 1 } }.stageRound p
      let s2 := (s1.setReg (pwrReg Reg.PWR_ENERGY_TOTAL) ((s1.reg (pwrReg Reg.PWR_ENERGY_TOTAL) + p * s.hk.roundMs) % 2 ^ 64)).bump (hkReg Reg.HK_ROUND_TOTAL) 1
      let s3 := if 0 < s2.hk.powerStage then s2.bump (pwrReg Reg.PWR_LIMIT_TOTAL) 1 else s2
      s3.damperMs)

/-! ### The Damper (R449) -/

/-- Temperature channels of a die: compute die 0 to 7, memory-side die 8 to 11. -/
def damperChans (i : Nat) : List Nat := if i < 8 then (List.range 9).map (9 * i + ·) ++ [72 + i] else partChans (80 + (i - 8))

/-- The thermal stage of a die after a decision. -/
def State.damperNext (s : State) (i : Nat) : Nat :=
  let hot := (damperChans i ++ partChans 84).filter (fun c => (s.hkChan c).throttle)
  let n := Tab.get s.hk.stage i
  if hot.isEmpty then n - 1 else if hot.any (fun c => decide (1632 ≤ (s.hkChan c).reading)) then min 3 (n + 1) else n

/-- DAMPER_DECISION, from the end of the first round on. -/
def execDamperDecision (s : State) : Host.Outcome State Fault Refusal :=
  .next (if !s.hk.powered ∨ s.hk.rounds = 0 then s
    else (s.dies ++ [8, 9, 10, 11]).foldl (fun s i =>
      let n := s.damperNext i
      if n = Tab.get s.hk.stage i then s
      else { s with hk := { s.hk with stage := Tab.set s.hk.stage i n } }.raise .DAMPER_CHANGED Src.x1 [i, n]) s)

/-- The stage that a die is to run at: a compute die at the higher of its thermal stage and the power stage. -/
def State.damperStage (s : State) (i : Nat) : Nat := if i < 8 then max (Tab.get s.hk.stage i) s.hk.powerStage else Tab.get s.hk.stage i

/-- A stage change takes effect. -/
def State.damperApply (s : State) (i : Nat) : State :=
  let live := Tab.set s.hk.live i (s.damperStage i)
  let was := s.hk.live.any (fun e => e.2 != 0)
  { s with hk := { s.hk with live := live, dampMoved := s.hk.dampMoved || was != live.any (fun e => e.2 != 0) } }

/-- DAMPER_STAGE_APPLY: on die `i`, at its next step boundary or after 2 ms. -/
def execDamperStageApply (i : Nat) (s : State) : Host.Outcome State Fault Refusal :=
  .next (if s.hk.powered ∧ (s.dies ++ [8, 9, 10, 11]).contains i then s.damperApply i else s)

/-! ### Requests of the host (R444 to R446) -/

/-- HK_URG_CTRL: `busy` says that a conversion is running, `left` how many S-cycles remain before the next slot. -/
def execHkUrgCtrl (v : Nat) (busy : Bool) (left : Nat) (s : State) : Host.Outcome State Fault Refusal :=
  .next (let c := bitsOf v 0 7
    if !s.hk.powered then s
    else if busy ∨ s.hk.urgConv.isSome ∨ left < 500 then
      { s with hk := { s.hk with urgChan := c, urgDone := false, urgDropped := true } }.bump (hkReg Reg.URG_DROP) 1
    else { s with hk := { s.hk with urgChan := c, urgDone := false, urgDropped := false, urgConv := some c } })

/-- URGENT_CONVERSION_DONE: the reading is placed in HK_URG_RESULT and feeds nothing else. -/
def execUrgentConversionDone (raw : Nat) (code : Int) (s : State) : Host.Outcome State Fault Refusal :=
  .next (match s.hk.urgConv with
    | none => s
    | some c =>
      let v := if s.hkScanned c then (hkReading c (s.hkChan c) (raw % 2 ^ 16) code).1 else 0
      { s with hk := { s.hk with urgConv := none, urgChan := c, urgRaw := encodeInt 16 v, urgDone := true, urgDropped := false } })

/-- HK_TDAC_CTRL with GO: the channel is diagnosed in the next round. -/
def execHkTdacGo (v : Nat) (s : State) : Host.Outcome State Fault Refusal :=
  .next (let c := bitsOf v 10 7
    if !s.hk.powered ∨ !bitOf v 17 ∨ !s.hkScanned c then s
    else { s with hk := { s.hk with tdacChan := c, tdacCode := bitsOf v 0 10, tdacPending := true, tdacDone := false, tdacPass := false
                                    diag := s.hk.diag ++ [(s.hk.rounds + 1, c, bitsOf v 0 10)] } })

/-- HK_SYSCAL while an operation runs is ignored and reported. -/
def State.sysStart (s : State) (k : SysCal) : State :=
  if !s.hk.powered then s
  else if s.hk.sys.running then s.raise .SYSCAL_BUSY Src.x1 [k.chan]
  else { s with hk := { s.hk with sys := k } }

def execSyscalZero (e : Nat) (s : State) : Host.Outcome State Fault Refusal := .next (s.sysStart { running := true, chan := e % 8, op := 1 })
def execSyscalFull (e : Nat) (s : State) : Host.Outcome State Fault Refusal := .next (s.sysStart { running := true, chan := e % 8, op := 2 })

/-- The coefficients of an external channel: those to take effect, else those in force. -/
def State.coefs (s : State) (c : Nat) : List Int :=
  let x := Tab.get s.hk.coefNext c
  [x.getD 0 (s.hkChan c).offset, x.getD 1 ((s.hkChan c).gain : Int)]

/-- SAVE writes the channel's coefficients to module flash. -/
def execSyscalSave (e : Nat) (s : State) : Host.Outcome State Fault Refusal :=
  .next (let t := s.sysStart { chan := e % 8, op := 3, done := true }
    if !s.hk.powered ∨ s.hk.sys.running then t
    else { t with hk := { t.hk with saved := Tab.set t.hk.saved (120 + e % 8) (s.coefs (120 + e % 8)) } })

/-! ### Release (R452) -/

/-- The levels that a release clears. -/
def State.clearShut (s : State) (p : Nat) : State := (partChans p).foldl (fun s c => s.setHkChan c { s.hkChan c with shut := false }) s

/-- A released position that its shutdown retired takes a structural scan when none is under way. -/
def State.releaseScan (s : State) (p : Nat) : State :=
  if s.scanning.isSome then s.setPartition p { releasing := true } else (s.setPartition p {}).scanStart (p / 9) 0xF8 (p % 9) scanSpare none

/-- A partition whose release condition holds is released. -/
def State.releasePart (s : State) (p : Nat) : State :=
  let x := s.partition p
  let s1 := s.clearShut p
  if p < 72 then (if x.retired then s1.releaseScan p else s1.setPartition p {})
  else if p < 80 then
    let r : Reset := { scope := 2, die := p - 72, positions := s1.resettable (p - 72), release := true }
    { s1.setPartition p { x with releasing := true } with fw := { s1.fw with resets := s1.fw.resets ++ [r] } }
  else (s1.setPartition p {}).mdieReturns (p - 80)

/-- HK_PART_RELEASE[0] written 1 for the partition that HK_PART_SEL selects. -/
def execHkPartRelease (v : Nat) (s : State) : Host.Outcome State Fault Refusal :=
  .next (let p := bitsOf (s.reg (hkReg Reg.HK_PART_SEL)) 0 7
    if !s.hk.powered ∨ !bitOf v 0 ∨ !(s.partition p).down ∨ (s.partition p).releasing then s
    else if s.coolEnough p then s.releasePart p
    else s.raise .RELEASE_REFUSED Src.x1 [p])

/-- AUTO_RELEASE of partition `p`. -/
def execAutoRelease (p : Nat) (s : State) : Host.Outcome State Fault Refusal :=
  .next (let x := s.partition p
    if s.hk.powered ∧ s.autoRelease ∧ x.down ∧ !x.releasing ∧ x.ready ∧ s.coolEnough p ∧ x.since + s.releaseHold * tickSecond ≤ s.time.tick then s.releasePart p else s)

/-- At a step boundary: stage changes take effect, and a released position whose scan had to wait starts it. -/
def State.hkBoundary (s : State) : State :=
  let s1 := (s.dies ++ [8, 9, 10, 11]).foldl (fun s i => s.damperApply i) s
  match (List.range 72).find? (fun p => (s1.partition p).releasing) with
  | some p => s1.releaseScan p
  | none => s1

/-! ### Status views (Tables 15-11 and 15-13) -/

/-- Level code of a channel. -/
def HkChan.level (x : HkChan) : Nat := if x.shut then 3 else if x.throttle then 2 else b2n x.warn

/-- HK_SEL_READING. -/
def State.hkReadingReg (s : State) : Nat :=
  let c := bitsOf (s.reg (hkReg Reg.HK_SEL)) 0 7
  let x := s.hkChan c
  if !s.hkScanned c then 0
  else encodeInt 16 x.reading + 2 ^ 16 * x.raw + 2 ^ 32 * b2n (x.broken != 0) + 2 ^ 33 * x.broken + 2 ^ 36 * b2n x.overRange + 2 ^ 37 * x.level
    + 2 ^ 48 * (x.round % 2 ^ 16)

/-- HK_SEL_COEF. -/
def State.hkCoefReg (s : State) : Nat :=
  let c := bitsOf (s.reg (hkReg Reg.HK_SEL)) 0 7
  if s.hkScanned c then encodeInt 16 (s.hkChan c).offset + 2 ^ 16 * ((s.hkChan c).gain % 2 ^ 16) else 0

/-- HK_SYSCAL_STATUS. -/
def State.sysCalReg (s : State) : Nat :=
  let k := s.hk.sys
  (if k.running then 1 else if k.failed then 3 else if k.done then 2 else 0) + 4 * k.chan + 32 * k.op

/-- HK_URG_RESULT and HK_TDAC_RESULT. -/
def State.urgReg (s : State) : Nat := s.hk.urgRaw + 2 ^ 16 * b2n s.hk.urgDone + 2 ^ 17 * b2n s.hk.urgDropped + 2 ^ 18 * s.hk.urgChan
def State.tdacReg (s : State) : Nat := s.hk.tdacRaw + 2 ^ 16 * b2n s.hk.tdacDone + 2 ^ 17 * b2n s.hk.tdacPass + 2 ^ 18 * s.hk.tdacChan

/-- HK_PART_STATE. -/
def State.partReg (s : State) : Nat :=
  let p := bitsOf (s.reg (hkReg Reg.HK_PART_SEL)) 0 7
  if !s.partFitted p then 0
  else
    let x := s.partition p
    let cs := partChans p
    let top := cs.foldl (fun (m : Int) c => max m (s.hkChan c).reading) (s.hkChan (cs.headD 0)).reading
    let scan := decide (p < 72) && (s.position (p / 9) (p % 9)).underScan && (s.position (p / 9) (p % 9)).st == .retired
    let st := if x.releasing || scan then 3 else if x.down then (if x.ready then 2 else 1) else 0
    let i := if 72 ≤ p ∧ p < 84 then some (p - 72) else none
    encodeInt 16 top + 2 ^ 16 * (cs.foldl (fun m c => max m (s.hkChan c).level) 0) + 2 ^ 18 * st
      + (match i with | some i => 2 ^ 20 * Tab.get s.hk.stage i + 2 ^ 22 * Tab.get s.hk.live i | none => 0)

/-- PWR_STATUS and PWR_LAST_SHUTDOWN. -/
def State.pwrStatusReg (s : State) : Nat :=
  s.hk.power % 2 ^ 16 + 2 ^ 16 * s.hk.powerStage + 2 ^ 18 * b2n s.hk.inputRange + 2 ^ 19 * b2n s.hk.currentLimited
def State.lastShutdownReg (s : State) : Nat := s.hk.lastShutdown.getD 0 0 + 2 ^ 8 * s.hk.lastShutdown.getD 1 0

end Sys2Proof.Machine
end

