-- ==== Sys2Proof/Machine/Boot.lean ====
section
/-! DEFINITION. Power-on, the bring-up phases and recovery (R456 to R473, R491, R492). -/

namespace Sys2Proof.Machine

/-! ### Power-on (R434, R451, R458) -/

/-- POWER_ON: the input is applied after at least 1 s absent; X1 starts its first round. Latched causes and the shutdown record are reported, and BOOT_CFG and the external coefficients are loaded from flash. -/
def execPowerOn (s : State) : Host.Outcome State Fault Refusal :=
  .next (if s.hk.powered then s
    else
      let cfg := s.boot.cfgFlash.getD (resetOf (secReg Reg.BOOT_CFG))
      let last := match s.hk.shutdown with | some r => r | none => if s.hk.latch = 0 then [] else [s.hk.latch, 0]
      let chans := s.hk.saved.foldl (fun t e => Tab.set t e.1 { offset := e.2.getD 0 0, gain := (e.2.getD 1 16384).toNat }) s.hk.chans
      let s1 := { s with
        boot := { s.boot with cfg := cfg }
        live := s.live.setReg (secReg Reg.BOOT_CFG) cfg
        staged := s.staged.setReg (secReg Reg.BOOT_CFG) cfg
        hk := { s.hk with powered := true, latch := 0, shutdown := none, lastShutdown := last, chans := chans } }
      if last.isEmpty then s1 else s1.raise .MODULE_SHUTDOWN_REPORTED Src.x1 [last.headD 0])

/-! ### Phases (R458) -/

/-- HALTED with a FAIL_CODE (R463). -/
def State.halt (s : State) (code : Nat) : State := { s with boot := { s.boot with phase := 10, fail := code } }

/-- A phase ends and the next begins. -/
def State.phaseEnds (s : State) (w : BootWork) : State :=
  { s with boot := { s.boot with phase := s.boot.phase + 1, start := s.boot.start + w.ms } }.raise .BOOT_PHASE Src.steward [s.boot.phase, w.ms]

/-- What the verification of a steward image or bundle gives as FAIL_CODE: 0, the signature's, or the rollback's. -/
def failCode (v : Verified) (sig rollback : Nat) : Nat := match v with | .accepted => 0 | .signature => sig | .rollback => rollback

/-- R462: the two copies are tried, the live one first: the copy used, and the FAIL_CODE. -/
def State.pickSteward (s : State) (w : BootWork) : State × Option Nat × Nat :=
  let try1 (s : State) (n : Nat) : State × Nat :=
    let x := w.stewards.getD n {}
    let v := s.verify x.formed 1 x.keyId x.security (some 0) x.sig
    (v.1, failCode v.2 1 2)
  let a := try1 s s.fw.stewardCopy
  if a.2 = 0 then (a.1, some s.fw.stewardCopy, 0)
  else
    let b := try1 a.1 (1 - s.fw.stewardCopy)
    if b.2 = 0 then (b.1, some (1 - s.fw.stewardCopy), a.2) else (b.1, none, a.2)

/-- R437: a partition that may be powered. -/
def State.powers (s : State) (p : Nat) : Bool := !(s.partition p).down && (partChans p).all (fun c => decide ((s.hkChan c).reading < 1760) && (s.hkChan c).broken == 0)

/-- End of KINDLING: the steward is started on C0, or on C4 when C0 cannot be powered. -/
def State.kindling (s : State) (w : BootWork) : State :=
  if !w.flash then s.halt 3
  else
    let (s1, copy, code) := s.pickSteward w
    match copy with
    | none => s1.halt code
    | some n =>
      let x := w.stewards.getD n {}
      let up (d : Nat) : Bool := s.fits d && s1.powers (72 + d) && !w.badFuses.contains d
      let s2 := { s1 with boot := { s1.boot with copy := n, fail := code }
                          fw := { s1.fw with live := { s1.fw.live with stewardSecurity := x.security, stewardDigest := x.digest } } }
      if up 0 then s2.phaseEnds w
      else if up 4 then { s2 with boot := { s2.boot with fail := if code = 0 then 6 else code }, step := { s2.step with standby := true } }.phaseEnds w
      else s2.halt 6

/-! ### Fuses (R464, R465) -/

def Fuse.kind (f : Fuse) : Nat := bitsOf f.entry 0 4
def Fuse.unit (f : Fuse) : Nat := bitsOf f.entry 4 4
def Fuse.core (f : Fuse) : Nat := bitsOf f.entry 8 3
def Fuse.engine (f : Fuse) : Nat := bitsOf f.entry 11 2
def Fuse.index (f : Fuse) : Nat := bitsOf f.entry 13 19

/-- Table 5-6: the Ash-list entry of a fuse entry. -/
def Fuse.ash (f : Fuse) : AshEntry :=
  let k := Fuse.kind f
  { kind := 0, cause := 0, die := f.die, dieType := f.dieType, element := k - 1, position := if k = 1 ∨ k = 2 ∨ k = 3 then Fuse.unit f else 0
    core := if k = 2 ∨ k = 3 then Fuse.core f else 0, engine := if k = 3 then Fuse.engine f else 0, allLayers := k == 3, index := if k = 1 then 0 else Fuse.index f }

/-- An NVM_COLUMN entry on one bank. -/
def Bank.fuseColumn (y : Bank) (i spare : Nat) : Bank :=
  (List.range 64).foldl (fun y l =>
    if i < 512 then { y with cols := Tab.set y.cols (colKey l i) { st := .mapped, spare := spare }, spares := Tab.upd y.spares (spareKey l spare) (fun z => { z with used := true }) }
    else if i < 528 then y
    else { y with spares := Tab.upd y.spares (spareKey l (i - 528)) (fun z => { z with failed := true }) })
    (if 512 ≤ i ∧ i < 528 then { y.setLane i { y.lane i with retired := true } with refOff := (i - 512) :: y.refOff } else y)

/-- R465: the effect of one entry. The arrays of a position stand in the attic until the floor plan is built; those entries hold from the first bring-up on. -/
def State.applyFuse (s : State) (f : Fuse) : State :=
  let new := !s.boot.fuses.contains f
  let s1 := if new then { s.ashAdd (Fuse.ash f) with boot := { s.boot with fuses := s.boot.fuses ++ [f] } } else s
  let k := Fuse.kind f
  if k = 1 ∧ f.dieType = 0 then s1.setPosition f.die (Fuse.unit f) { st := .fusedOff, logical := 15 }
  else if k = 3 ∧ f.dieType = 0 ∧ new then
    let t := engineKey (clusterKey f.die (Fuse.unit f) * 8 + Fuse.core f) (Fuse.engine f)
    { s1 with attic := Tab.upd s1.attic t (fun e => { e with a := e.a.fuseColumn (Fuse.index f) f.spare, b := e.b.fuseColumn (Fuse.index f) f.spare }) }
  else if k = 5 ∧ f.dieType = 2 then
    { s1 with boot := { s1.boot with badLanes := s1.boot.badLanes ++ [(8 * f.die + Fuse.unit f, Fuse.index f)] } }
  else s1

/-- Compute dies that the steward does not power (R464). -/
def fusesInvalid (w : BootWork) (d : Nat) : Bool :=
  w.badFuses.contains d || decide (1 < (w.fuses.filter (fun f => f.dieType == 0 && f.die == d && Fuse.kind f == 1)).length)

/-- R464: a die without usable fuses stays unpowered. -/
def State.fuseInvalid (s : State) (d : Nat) : State :=
  let s1 := (List.range 9).foldl (fun s p => s.setPosition d p { st := .fusedOff, logical := 15 }) s
  ((s1.setPartition (72 + d) { down := true }).raise .FUSE_INVALID Src.steward [d]).raise .DIE_CAPACITY_LOST Src.steward [d]

/-- A position that failed in an earlier service, or whose partition may not be powered, is RETIRED (R159, R437, R466). -/
def State.keepRetired (s : State) (d p : Nat) : State :=
  let held := s.ash.entries.any (fun e => e.kind == 5 && e.die == d && e.position == p)
  if (s.position d p).st ≠ .fusedOff ∧ (held ∨ !s.powers (9 * d + p)) then s.setPosition d p { st := .retired, logical := 15 } else s

/-- R466: a position fails its march test. -/
def State.marchFails (s : State) (t : Nat) : State :=
  let s1 := (s.setPosition (t / 9) (t % 9) { st := .retired, logical := 15 }).ashAdd (ashCluster (t / 9) (t % 9) 8)
  { s1 with boot := { s1.boot with positionsLost := s1.boot.positionsLost + 1 } }.raise .POSITION_FAILED Src.steward [t]

/-- R459: the start is fast. -/
def State.fastStart (s : State) (w : BootWork) : Bool :=
  s.fastEn && s.boot.training && w.trained && w.fusesKept && decide (s.boot.hours < 24 * s.fullTestDays)
    && (s.hk.lastShutdown.getD 0 0 == 0 || s.hk.lastShutdown.getD 0 0 == 1)

/-- End of PARTITIONS: fuses applied, self-tests, the floor plan. -/
def State.partitions (s : State) (w : BootWork) : State :=
  let s1 := w.fuses.foldl (fun s f => s.applyFuse f) { s with boot := { s.boot with badLanes := [] } }
  let s2 := (s1.dies.filter (fusesInvalid w)).foldl (fun s d => s.fuseInvalid d) s1
  let s3 := s2.dies.foldl (fun s d => (List.range 9).foldl (fun s p => s.keepRetired d p) s) s2
  let s4 := (w.march.filter (fun t => s3.fits (t / 9) && (s3.resettable (t / 9)).contains (t % 9))).foldl (fun s t => s.marchFails t) s3
  let s5 := s4.dies.foldl (fun s d => s.buildDie d) s4
  { s5 with boot := { s5.boot with fast := s.fastStart w } }.phaseEnds w

/-! ### Memory (R469 to R471) -/

/-- End of HBM_TRAIN: a stack that fails full training twice takes its M-die out of service; the rest of the steward image is checked (R462). -/
def State.hbmTrain (s : State) (w : BootWork) : State :=
  if !w.segments then s.halt 3
  else
    let ms := (List.range 4).filter (fun m => w.untrained.any (fun n => n / 2 == m))
    { s with boot := { s.boot with memDown := ms, training := w.untrained.isEmpty }
             fab := { s.fab with noBridge := ms.any (· < 2) } }.phaseEnds w

/-- A failing HBM row, repaired or in use unrepaired. -/
def State.rowFound (s : State) (x : Nat × Nat × Bool) : State :=
  if x.2.2 then { s with boot := { s.boot with rowsRepaired := s.boot.rowsRepaired + 1 } }.raise .HBM_ROW_REPAIRED Src.steward [x.1, x.2.1]
  else { s with boot := { s.boot with rowsUnrepaired := s.boot.rowsUnrepaired + 1 } }.raise .HBM_ROW_UNREPAIRED Src.steward [x.1, x.2.1]

/-- A failing M-die SRAM, handled in the same way. -/
def State.sramFound (s : State) (x : Nat × Bool) : State :=
  { s with boot := (if x.2 then { s.boot with rowsRepaired := s.boot.rowsRepaired + 1 } else { s.boot with rowsUnrepaired := s.boot.rowsUnrepaired + 1 }) }.raise
    .MSRAM_TEST_FAILED Src.steward [x.1]

/-! ### Firmware (R463, R474 to R479) -/

/-- R462, R463: the live bundle, or the other copy, with the FAIL_CODE. -/
def State.pickBundle (s : State) (w : BootWork) : State × Option Nat × Nat :=
  let try1 (s : State) (n : Nat) : State × Nat :=
    let x := w.bundles.getD n {}
    let v := s.verify x.bundle.formed 2 x.bundle.keyId x.bundle.security (some 0) x.sig
    (v.1, failCode v.2 4 5)
  let a := try1 s s.fw.bundleCopy
  if a.2 = 0 then (a.1, some s.fw.bundleCopy, 0)
  else
    let b := try1 a.1 (1 - s.fw.bundleCopy)
    if b.2 = 0 then (b.1, some (1 - s.fw.bundleCopy), a.2) else (b.1, none, a.2)

/-- The receivers of every position in service start, on the chunks of the UPDATE half. -/
def State.distribute (s : State) (b : Bundle) : State :=
  let s1 := { s with fw := { s.fw with run := (s.fw.run + 1) % 2 ^ 16 } }
  let steward (d p : Nat) : Bool := d == s.stewardDie && (s.position d p).logical == 0
  s1.dies.foldl (fun s d => (s.resettable d).foldl (fun s p => s.startReceiver b (steward d p) s.distFetch false (9 * d + p)) s) s1

/-- End of MEMORY_TEST: every tile is zero; the bundle is verified and its distribution starts. -/
def State.memoryTest (s : State) (w : BootWork) : State :=
  let s1 := w.srams.foldl (fun s x => s.sramFound x) (w.rows.foldl (fun s x => s.rowFound x) { s with mem := {} })
  let (s2, copy, code) := s1.pickBundle w
  match copy with
  | none => s2.halt code
  | some n =>
    let b := (w.bundles.getD n {}).bundle
    let b1 : Bundle := { b with stewardSecurity := s2.fw.live.stewardSecurity, stewardDigest := s2.fw.live.stewardDigest }
    let s3 := { s2 with boot := { s2.boot with bundle := n, fail := if s2.boot.fail = 0 then code else s2.boot.fail }, fw := { s2.fw with live := b1 } }
    let s4 := (((((s3.setReg Reg.FW_VERSION b.version).setReg Reg.VER_RING b.ring).setReg Reg.VER_DESC b.desc).setReg Reg.VER_ABI b.abi).setReg Reg.VER_LINK b.link).setReg Reg.VER_IMAGE b.image
    let s5 := s4.writePieces (fun _ => {}) (w.bytes.take fwHalfSize) (piecesOf s4.updateBase (min w.bytes.length fwHalfSize))
    (s5.distribute b1).phaseEnds w

/-- End of FIRMWARE, when every receiver has its images: the distributed half is LIVE. -/
def State.firmware (s : State) (w : BootWork) : State :=
  if s.fw.receivers.any (fun e => e.2.active && !e.2.complete) then s
  else
    let s1 := { s with fw := { s.fw with receivers := [], liveHalf := (s.fw.liveHalf + 1) % 2 } }
    ((s1.dies.flatMap (fun d => (List.range 9).map (clusterKey d))).foldl (fun s g => s.firmwareRegion g) s1).phaseEnds w

/-! ### Arrays, calibration and READY (R472, R473) -/

/-- End of ARRAY_MARGIN: weak columns are retired and weak reference lanes disabled; the maps change at READY. -/
def State.arrayMargin (s : State) (w : BootWork) : State :=
  let s1 := w.weak.foldl (fun s x => s.retireColumn x.1 x.2.1 x.2.2.1 x.2.2.2 5 {}) s
  (w.refs.foldl (fun s x => s.disableRef x.1 x.2.1 x.2.2 5) s1).phaseEnds w

/-- Channels whose OPEN was held are opened (R460). -/
def State.openHeld (s : State) (w : BootWork) : State :=
  (s.chans.keys.filter (fun c => (s.chan c).openHeld)).foldl (fun s c =>
    (s.setChan c { s.chan c with openHeld := false }).openChannel c (!w.deadLines.contains c)) s

/-- End of CALIBRATION: records are loaded, the BRINGUP runs commit, and the module is READY. -/
def State.calibration (s : State) (w : BootWork) : State :=
  let s1 := s.dies.foldl (fun s d => (s.loadCal d).bringupRun d) s
  let s2 := (s1.engines.keys).foldl (fun s e => (s.mapBoundary e 0).mapBoundary e 1) s1
  let s3 := s2.phaseEnds w
  let s4 := { s3 with boot := { s3.boot with duration := s3.boot.start, hours := if s3.boot.fast then s3.boot.hours else 0 }
                      step := { s3.step with heartbeat := s3.time.tick } }
  let s5 := s4.raise .BOOT_READY Src.steward [b2n s4.boot.fast, s4.boot.duration, s4.boot.rowsRepaired, s4.boot.rowsUnrepaired, s4.boot.positionsLost]
  (s5.evDrain (s5.ev.held.length + 1)).openHeld w

/-- BOOT_PHASE: the phase in progress ends with what it found, and the next begins. Bring-up begins with the first housekeeping round complete. -/
def execBootPhase (w : BootWork) (s : State) : Host.Outcome State Fault Refusal :=
  .next (if !s.hk.powered then s
    else match s.boot.phase with
      | 0 => if s.hk.rounds = 0 then s
             else { s with boot := { s.boot with phase := 1 }, hk := { s.hk with diag := s.hk.diag ++ ((List.range 128).filter s.hkScanned).flatMap (fun c =>
               [(s.hk.rounds, c, 256), (s.hk.rounds + 1, c, 768)]) } }
      | 1 => s.kindling w
      | 2 => s.partitions w
      | 3 => s.hbmTrain w
      | 4 => s.memoryTest w
      | 5 => s.firmware w
      | 6 => s.arrayMargin w
      | 7 => s.phaseEnds w
      | 8 => s.calibration w
      | _ => s)

/-! ### Recovery (R463) -/

/-- RECOVERY_CTRL with GO, in HALTED: the object of KIND 0, a steward image, or 1, a bundle, is fetched, verified, written into the copy that is not live, and made live. -/
def execRecoveryGo (v : Nat) (steward : StewardImage) (bundle : BundleCopy) (s : State) : Host.Outcome State Fault Refusal :=
  .next (if s.boot.phase ≠ 10 ∨ !bitOf v 0 then s
    else
      let n := bitsOf v 1 14
      let fit := decide (1 ≤ n) && decide (n ≤ 12288)
      let k := bitsOf v 15 1
      let x := if k = 0 then s.verify (steward.formed && fit) 1 steward.keyId steward.security (some 0) steward.sig
        else s.verify (bundle.bundle.formed && fit) 2 bundle.bundle.keyId bundle.bundle.security (some 0) bundle.sig
      let code := failCode x.2 (if k = 0 then 1 else 4) (if k = 0 then 2 else 5)
      if code ≠ 0 then { x.1 with boot := { x.1.boot with recovery := 3 + 256 * code } }
      else
        let f := x.1.fw
        let b := bundle.bundle
        { x.1 with
          boot := { x.1.boot with recovery := 2 }
          fw := if k = 0 then { f with stewardCopy := 1 - f.stewardCopy, dirSeq := (f.dirSeq + 1) % 2 ^ 32
                                       live := { f.live with stewardSecurity := steward.security, stewardDigest := steward.digest } }
                else { f with bundleCopy := 1 - f.bundleCopy, dirSeq := (f.dirSeq + 1) % 2 ^ 32
                              live := { b with stewardSecurity := f.live.stewardSecurity, stewardDigest := f.live.stewardDigest } } })

/-- POWERED_HOUR: the steward adds 1 to the count in flash. -/
def execPoweredHour (s : State) : Host.Outcome State Fault Refusal :=
  .next (if s.hk.powered ∧ 2 ≤ s.boot.phase ∧ s.boot.phase ≤ 9 then { s with boot := { s.boot with hours := s.boot.hours + 1 } } else s)

end Sys2Proof.Machine
end

