-- ==== Sys2Proof/Machine/Staging.lean ====
section
/-! DEFINITION. Configuration staging, the rules of a commit, its copy, and the blocks that switch after the boundary (R284 to R288, R120, R181, R202, R229, R255, R260, R373, R385, R407). -/

namespace Sys2Proof.Machine

/-! ### The staged set (R284) -/

/-- R98, R199: the core that AE_SEL of die `d` selects, by its key, while SEL_VALID reads 1. -/
def State.selected (s : State) (d : Nat) : Option Nat :=
  let v := s.reg (dieReg d Reg.AE_SEL)
  let k := bitsOf v 0 4
  if !s.fits d then none
  else if k < 8 then (s.posOf d k).map (fun _ => coreKey d k (bitsOf v 4 3))
  else if k = 8 then
    ((List.range 9).find? (fun p => (s.position d p).st == .spare || (s.position d p).st == .programming)).map
      (fun p => coreKey d (min 8 (s.position d p).logical) (bitsOf v 4 3))
  else none

/-- The compute die whose SP_PWR_OFF lies at an offset. -/
def pwrOffDie (a : Nat) : Option Nat := (List.range 8).find? (fun d => dieReg d Reg.SP_PWR_OFF == a)

/-- A register of the staged set: SP_PWR_OFF is that of the selected core, every other holds the value last staged (R199, R370, R373). -/
def State.stagedReg (s : State) (a : Nat) : Nat :=
  match pwrOffDie a with
  | some d => (match s.selected d with | some q => Tab.get s.staged.pwrOff q | none => 0)
  | none => s.staged.reg a

/-- A register is staged: a coordinate or direct entry also sets or removes the entry of its module (R370, R373). -/
def State.stageReg (s : State) (a mask v : Nat) : State :=
  let w := v &&& mask
  match pwrOffDie a with
  | some d => (match s.selected d with
    | some q => { s with staged := { s.staged with pwrOff := Tab.set s.staged.pwrOff q w } }
    | none => s)
  | none =>
    let c := s.staged.setReg a w
    { s with staged :=
        if a = fabReg Reg.COORD_STAGE then { c with coord := Tab.set c.coord (w % 65536) (if bitOf w 37 then w else 0) }
        else if a = fabReg Reg.ROUTE_STAGE then { c with route := Tab.set c.route (w % 65536) (if bitOf w 20 then w else 0) }
        else c }

/-- STAGE_SEQ counts one change of the staged set; it wraps. -/
def State.stageTick (s : State) : State :=
  s.setReg (stgReg Reg.STAGE_SEQ) ((s.reg (stgReg Reg.STAGE_SEQ) + 1) % 2 ^ 32)

def State.stageSeq (s : State) : Nat := s.reg (stgReg Reg.STAGE_SEQ)

/-- Fields of a layer policy entry (Table 4-6). -/
def policyMask : Nat := 0xFFFFFFFF007F

/-- A TARGET that names a layer policy entry. -/
def policyTarget (t : Nat) : Bool := bitOf t 31

/-- Key of the layer that a policy TARGET names. -/
def targetLayer (t : Nat) : Nat := layerKey (bitsOf t 12 16) (bitsOf t 0 12)

/-- The layer is one of a loaded image. -/
def State.hasLayer (s : State) (image layer : Nat) : Bool :=
  match s.image image with
  | some g => g.layers.any (fun y => y.num == layer)
  | none => false

/-- Whether a TARGET lies in the block of a compute die that is not fitted (R4). -/
def State.absentBlock (s : State) (a : Nat) : Bool :=
  match blockAt a with
  | some (.die d, _) => !s.fits d
  | _ => false

/-- Whether an entry of a CONFIG_STAGE list may be staged. -/
def State.stageable (s : State) (e : Nat × Nat) : Bool :=
  if policyTarget e.1 then bitsOf e.1 28 3 == 0 && s.hasLayer (bitsOf e.1 12 16) (bitsOf e.1 0 12)
  else match regAt e.1 with
    | some (r, a) => r.acc == .st && a == e.1 && decide (e.2 < 2 ^ r.width) && !s.absentBlock e.1
    | none => false

/-- One entry is staged. -/
def State.stageEntry (s : State) (e : Nat × Nat) : State :=
  if policyTarget e.1 then
    { s with staged := { s.staged with policy := Tab.set s.staged.policy (targetLayer e.1) (e.2 &&& policyMask) } }
  else match regAt e.1 with
    | some (r, a) => s.stageReg a r.mask e.2
    | none => s

/-- The entries of a list in host memory: TARGET at bytes 0 to 3 and VALUE at bytes 8 to 15 of each 16. -/
def State.stageList (s : State) (a n : Nat) : List (Nat × Nat) :=
  (List.range n).map (fun i => (s.hostNat (a + 16 * i) 4, s.hostNat (a + 16 * i + 8) 8))

/-- CONFIG_STAGE. -/
def execConfigStage (h : Hdr) (list count : Nat) (s : State) : Host.Outcome State Fault Refusal :=
  .next (s.descriptor h clsConfig fun t d =>
    let es := t.stageList list count
    if !es.all t.stageable then t.finish d .CONFIG_TARGET 0 0
    else if count = 0 then t.finish d .OK t.stageSeq 0
    else
      let t1 := (es.foldl (fun u e => u.stageEntry e) t).stageTick
      t1.finish d .OK t1.stageSeq 0)

/-- CONFIG_DISCARD. -/
def execConfigDiscard (h : Hdr) (s : State) : Host.Outcome State Fault Refusal :=
  .next (s.descriptor h clsConfig fun t d => ({ t with staged := t.live }.stageTick).finish d .OK 0 0)

/-! ### The rules (R285) -/

/-- A rule that fails: the TARGET that it reports and its reason code. -/
abbrev Broken := Nat × Nat

def brokenIf (b : Bool) (target code : Nat) : List Broken := if b then [(target, code)] else []

/-- Field `[lo + n - 1 : lo]` of a register of a configuration. -/
def ConfigSet.fld (c : ConfigSet) (a lo n : Nat) : Nat := bitsOf (c.reg a) lo n

/-- A field that the rules reject outside `lo` to `hi`. -/
structure FieldRange where
  reg : Nat
  at_ : Nat
  bits : Nat
  lo : Nat
  hi : Nat
  code : Nat
  deriving DecidableEq, Repr

/-- The ranges of the registers at one block's base. -/
def rangeRules (c : ConfigSet) (base : Nat) (xs : List FieldRange) : List Broken :=
  xs.flatMap (fun x => let v := c.fld (base + x.reg) x.at_ x.bits
    brokenIf (decide (v < x.lo) || decide (x.hi < v)) (base + x.reg) x.code)

/-- R296, R454, R455, R492, R509. -/
def moduleRanges : List FieldRange :=
  [⟨stgReg Reg.HOST_CFG, 0, 9, 0, 256, 0x0805⟩, ⟨stgReg Reg.HOST_CFG, 9, 10, 1, 1000, 0x0805⟩,
   ⟨hkReg Reg.HK_CFG, 0, 5, 1, 16, 0x1001⟩, ⟨hkReg Reg.HK_CFG, 14, 5, 1, 31, 0x1001⟩, ⟨hkReg Reg.HK_CFG, 6, 8, 1, 255, 0x1001⟩,
   ⟨hkReg Reg.HK_DIAG_CFG, 0, 12, 1, 4095, 0x1001⟩,
   ⟨pwrReg Reg.PWR_CFG, 0, 11, 800, 1700, 0x1401⟩, ⟨pwrReg Reg.PWR_CFG, 11, 7, 1, 127, 0x1401⟩,
   ⟨secReg Reg.BOOT_CFG, 2, 8, 1, 255, 0x2001⟩, ⟨secReg Reg.BOOT_CFG, 10, 5, 1, 31, 0x2001⟩, ⟨secReg Reg.BOOT_CFG, 15, 3, 1, 7, 0x2001⟩,
   ⟨secReg Reg.SEC_CFG, 0, 8, 1, 255, 0x2002⟩]

/-- R357, R385. -/
def fabricRanges : List FieldRange :=
  [⟨Reg.FAB_CFG, 0, 8, 1, 255, 0x3001⟩, ⟨Reg.FAB_CFG, 12, 4, 1, 15, 0x3001⟩,
   ⟨Reg.TOPO_CFG, 4, 8, 1, 255, 0x3003⟩, ⟨Reg.TOPO_CFG, 12, 8, 1, 255, 0x3003⟩]

/-- R356. -/
def portRanges : List FieldRange := [⟨Reg.GP_CFG, 8, 8, 1, 255, 0x3001⟩, ⟨Reg.GP_CFG, 16, 4, 1, 15, 0x3001⟩]

/-- R200, R255, R320. -/
def mdieRanges : List FieldRange :=
  [⟨Reg.MEM_CFG, 8, 8, 1, 255, 0x4001⟩,
   ⟨Reg.SERVE_CFG, 0, 10, 1, 512, 0x4004⟩, ⟨Reg.SERVE_CFG, 10, 14, 1, 16383, 0x4004⟩,
   ⟨Reg.SERVE_TIME_CFG, 0, 16, 1, 65535, 0x4004⟩, ⟨Reg.SERVE_TIME_CFG, 16, 8, 1, 255, 0x4004⟩,
   ⟨Reg.SYNC_CFG, 0, 16, 1, 65535, 0x4008⟩]

/-- R407. -/
def weightRanges : List FieldRange :=
  [⟨Reg.WT_CFG, 0, 8, 1, 255, 0x400C⟩, ⟨Reg.WT_CFG, 8, 6, 1, 32, 0x400C⟩, ⟨Reg.WT_CFG, 14, 14, 1, 10000, 0x400C⟩]

/-- R98, R128, R160, R199, R319, R432. -/
def dieRanges : List FieldRange :=
  [⟨Reg.AE_CFG, 0, 7, 16, 64, 0x8001⟩, ⟨Reg.AE_READ_CFG, 0, 2, 1, 3, 0x8002⟩, ⟨Reg.DC_CFG, 4, 4, 0, 8, 0x8004⟩,
   ⟨Reg.CAL_CFG, 0, 5, 1, 31, 0x8005⟩, ⟨Reg.CAL_CFG, 5, 11, 1, 2047, 0x8005⟩, ⟨Reg.CAL_CFG, 16, 5, 1, 31, 0x8005⟩,
   ⟨Reg.CAL_FIT_CFG, 0, 4, 10, 16, 0x8005⟩, ⟨Reg.CAL_FIT_CFG, 4, 8, 1, 255, 0x8005⟩, ⟨Reg.CAL_FIT_CFG, 12, 8, 1, 255, 0x8005⟩,
   ⟨Reg.CAL_FIT_CFG, 20, 3, 1, 7, 0x8005⟩, ⟨Reg.CAL_SAVE_CFG, 0, 8, 1, 255, 0x8005⟩,
   ⟨Reg.SP_CFG, 4, 4, 1, 15, 0x8007⟩, ⟨Reg.WQ_CFG, 8, 8, 1, 255, 0x800A⟩,
   ⟨Reg.SE_CFG, 0, 3, 1, 7, 0x800C⟩, ⟨Reg.SE_CFG, 3, 4, 1, 15, 0x800C⟩, ⟨Reg.SE_CFG, 8, 8, 1, 255, 0x800C⟩,
   ⟨Reg.SE_CFG, 16, 5, 10, 24, 0x800C⟩, ⟨Reg.SE_CFG, 24, 8, 1, 255, 0x800C⟩,
   ⟨Reg.SE_FLEET_CFG, 0, 16, 256, 16384, 0x800C⟩, ⟨Reg.SE_FLEET_CFG, 16, 8, 1, 255, 0x800C⟩]

/-- A register that must hold one value at each of the given offsets; the rule names the lowest. -/
def sameRule (c : ConfigSet) (as : List Nat) (code : Nat) : List Broken :=
  match as with
  | [] => []
  | a :: r => brokenIf (r.any (fun b => c.reg b != c.reg a)) a code

/-- R128, R160, R199, R319, R432: agreement of the fitted compute dies. -/
def State.dieAgreement (s : State) (c : ConfigSet) : List Broken :=
  [(Reg.DC_CFG, 0x8003), (Reg.CAL_CFG, 0x8006), (Reg.CAL_FIT_CFG, 0x8006), (Reg.SP_CFG, 0x8008), (Reg.WQ_CFG, 0x800B),
   (Reg.SE_CFG, 0x800D), (Reg.SE_FLEET_CFG, 0x800D)].flatMap (fun (x : Nat × Nat) => sameRule c (s.dies.map (fun d => dieReg d x.1)) x.2)

/-- R255, R320: agreement of the M-dies. -/
def mdieAgreement (c : ConfigSet) : List Broken :=
  ([(Reg.SERVE_CFG, 0x4005), (Reg.SERVE_TIME_CFG, 0x4005), (Reg.SYNC_CFG, 0x4009)]
    ++ (List.range 8).flatMap (fun t => [(Reg.PEAT_TGT_ADDR + 16 * t, 0x4005), (Reg.PEAT_TGT_SIZE + 16 * t, 0x4005)])).flatMap
    (fun (x : Nat × Nat) => sameRule c ((List.range 4).map (fun m => memReg m x.1)) x.2)

/-! ### Areas of the stacks (R202, R231, R260, R393, R407, R475) -/

/-- A range of one stack: offset and bytes. -/
abbrev Area := Nat × Nat

def Area.meets (x y : Area) : Bool := x.2 != 0 && y.2 != 0 && overlap x.1 x.2 y.1 y.2
def Area.ends (x : Area) (limit : Nat) : Bool := x.2 != 0 && decide (limit < x.1 + x.2)

/-- The host-managed window's range of every stack. -/
def hdmArea (c : ConfigSet) : Area := (c.fld (stgReg Reg.HDM_OFS) 0 36, c.fld (stgReg Reg.HOST_CFG) 0 9 * 0x2000000)

/-- The element and exponent areas of an Ember pool, in both stacks of its M-die (R201). -/
def poolElems (c : ConfigSet) (m : Nat) : Area :=
  (c.fld (memReg m Reg.KV_POOL_OFS) 0 36, c.fld (memReg m Reg.KV_POOL_FRAMES) 0 25 / 2 * (if c.fld (memReg m Reg.KV_POOL_CFG) 1 1 = 1 then 0x8000 else 0x10000))
def poolExps (c : ConfigSet) (m : Nat) : Area := (c.fld (memReg m Reg.KV_EXP_OFS) 0 36, c.fld (memReg m Reg.KV_POOL_FRAMES) 0 25 / 2 * 2048)

/-- The cord area of an M-die, in both its stacks (R393). -/
def cordArea (c : ConfigSet) (m : Nat) : Area := (c.fld (memReg m Reg.CORD_AREA) 0 36, c.fld (memReg m Reg.CORD_AREA) 44 12 * 0x1000000)

/-- The Hearth areas of an M-die's odd stack: one range for each fitted compute die. -/
def State.hearthAreas (s : State) (m : Nat) : List Area :=
  ([2 * m, 2 * m + 1].filter s.fits).map (fun d => (0x891800000 + 9 * (d % 2) * 0x4000000, 9 * 0x4000000))

/-- The firmware area in stack `n`: HBM1 alone holds it. -/
def fwAreas (n : Nat) : List Area := if n = 1 then [(0x8D9800000, 0x8000000)] else []

/-- The request area of R231 in stack `n`: every even stack holds one. -/
def requestAreas (n : Nat) : List Area := if n % 2 = 0 then [(reqArea, stackData - reqArea)] else []

/-- Ranges of stack `n` that loaded images hold. -/
def State.imageAreas (s : State) (n : Nat) : List Area :=
  s.loaded.flatMap (fun i => match s.image i with
    | some g => g.spans.filterMap (fun x =>
        let a := max x.1 (n * stackSize)
        let e := min (x.1 + x.2) ((n + 1) * stackSize)
        if a < e then some (a - n * stackSize, e - a) else none)
    | none => [])

/-- Ranges of stack `n` that the copies of cords hold. -/
def State.copyAreas (s : State) (n : Nat) : List Area :=
  let base := s.fld (memReg (n / 2) Reg.CORD_AREA) 0 36
  (s.copyRuns (n / 2)).map (fun x =>
    let u := if x.1 % 2 = n % 2 then x.1 else x.1 + 1
    (base + u / 2 * 4096, (x.1 + x.2 + 1 - u) / 2 * 4096))

/-- R260. -/
def State.hdmRules (s : State) (c : ConfigSet) : List Broken :=
  let a := hdmArea c
  let o := stgReg Reg.HOST_CFG
  brokenIf (a.2 != 0 && (a.1 % 0x100000 != 0 || Area.ends a reqArea
      || (List.range 8).any (fun n => ([poolElems c (n / 2), poolExps c (n / 2)] ++ fwAreas n ++ (if n % 2 = 1 then s.hearthAreas (n / 2) else [])
        ++ s.imageAreas n ++ s.copyAreas n).any (Area.meets a)))) o 0x0803
    ++ brokenIf (s.hdmDecoder && (c.fld o 0 9 != s.fld o 0 9 || c.reg (stgReg Reg.HDM_OFS) != s.cfg (stgReg Reg.HDM_OFS))) o 0x0804

/-- What an area of the Ember pool of Mm may not meet. -/
def State.poolMeets (s : State) (m : Nat) (a : Area) : Bool :=
  Area.ends a stackData || [2 * m, 2 * m + 1].any (fun n =>
    (requestAreas n ++ fwAreas n ++ (if n % 2 = 1 then s.hearthAreas m else []) ++ s.imageAreas n ++ s.copyAreas n).any (Area.meets a))

/-- R202, Table 7-6. -/
def State.poolRules (s : State) (c : ConfigSet) (m : Nat) : List Broken :=
  let ofs := memReg m Reg.KV_POOL_OFS
  let exps := memReg m Reg.KV_EXP_OFS
  let frames := memReg m Reg.KV_POOL_FRAMES
  let cfg := memReg m Reg.KV_POOL_CFG
  let changed (a lo n : Nat) : Bool := c.fld a lo n != s.fld a lo n
  brokenIf (c.fld frames 0 25 % 2 != 0) frames 0x4002
    ++ brokenIf (c.fld ofs 0 36 % 0x10000 != 0 || s.poolMeets m (poolElems c m) || Area.meets (poolElems c m) (poolExps c m)) ofs 0x4002
    ++ brokenIf (c.fld exps 0 36 % 0x1000 != 0 || s.poolMeets m (poolExps c m)) exps 0x4002
    ++ brokenIf ((s.pool m).busy && (changed cfg 0 2 || changed ofs 0 36 || changed exps 0 36 || changed frames 0 25)) cfg 0x4003

/-- R407. -/
def State.cordRules (s : State) (c : ConfigSet) (m : Nat) : List Broken :=
  let o := memReg m Reg.CORD_AREA
  let a := cordArea c m
  brokenIf (a.1 % 0x100000 != 0 || Area.ends a reqArea
      || [2 * m, 2 * m + 1].any (fun n => ([poolElems c m, poolExps c m, hdmArea c] ++ fwAreas n ++ (if n % 2 = 1 then s.hearthAreas m else [])).any (Area.meets a))) o 0x400A
    ++ brokenIf (!(s.copyRuns m).isEmpty && c.reg o != s.cfg o) o 0x400B

/-- R255: the Peat targets as M-die `m` holds them. -/
def State.peatRules (s : State) (c : ConfigSet) (m : Nat) : List Broken :=
  let addr (t : Nat) : Nat := memReg m (Reg.PEAT_TGT_ADDR + 16 * t)
  let size (t : Nat) : Nat := memReg m (Reg.PEAT_TGT_SIZE + 16 * t)
  let kind (t : Nat) : Nat := c.fld (size t) 48 2
  let enabled (t : Nat) : Bool := kind t == 1 || kind t == 2
  let area (t : Nat) : Area := (c.reg (addr t), c.fld (size t) 0 48)
  (List.range 8).flatMap (fun t =>
    brokenIf (c.fld (size t) 0 48 % 0x10000 != 0) (size t) 0x4006
      ++ brokenIf (enabled t && (List.range 8).any (fun u => decide (t < u) && kind u == kind t && Area.meets (area t) (area u))) (addr t) 0x4006
      ++ brokenIf (!(s.peatExtents t).isEmpty && (c.reg (addr t) != s.cfg (addr t) || c.reg (size t) != s.cfg (size t))) (addr t) 0x4007)

/-- R181: a bank that a commit powers down and a region or window covers. -/
def State.bankInUse (s : State) (q b : Nat) : Bool :=
  let a := coreBase q + b * 2 ^ 18
  s.regionOver q (b * 2 ^ 18) (2 ^ 18)
    || (coreCluster q != 8 && s.fab.wins.any (fun e => e.2.st != .closed && overlap a (2 ^ 18) e.2.args.base e.2.args.size))

/-- R181. -/
def State.bankRules (s : State) (c : ConfigSet) (d : Nat) : List Broken :=
  brokenIf (c.pwrOff.any (fun e => coreDie e.1 == d
    && (List.range 16).any (fun b => bitOf e.2 b && !bitOf (Tab.get s.live.pwrOff e.1) b && s.bankInUse e.1 b))) (dieReg d Reg.SP_PWR_OFF) 0x8009

/-- R373, R385. -/
def State.topoRules (s : State) (c : ConfigSet) : List Broken :=
  (List.range 3).flatMap (fun d =>
    let o := fabReg (Reg.TOPO_DIM0 + 8 * d)
    let n := c.fld o 0 7
    brokenIf (n == 0 || decide (64 < n) || decide (n ≤ c.fld o 7 7) || decide (n ≤ c.fld o 14 7) || (d != 0 && c.fld o 21 7 != 0x7F)) o 0x3003)
    ++ brokenIf (c.route.any (fun e => bitsOf e.2 16 4 != 12 && bitsOf e.2 16 4 != 13) || decide (256 < c.route.length)) (fabReg Reg.ROUTE_STAGE) 0x3003
    ++ brokenIf (c.coord.any (fun e => c.coord.any (fun f => decide (e.1 < f.1) && bitsOf e.2 16 21 == bitsOf f.2 16 21))) (fabReg Reg.COORD_STAGE) 0x3004
    ++ brokenIf (s.fab.idValid && (let v := Tab.get c.coord s.fab.id
        bitOf v 37 && (List.range 3).any (fun d => coordPos v d != c.fld (fabReg (Reg.TOPO_DIM0 + 8 * d)) 7 7))) (fabReg Reg.TOPO_DIM0) 0x3004

/-- R356: a commit disables a port that a VALID entry of the live route table names. -/
def State.portRules (s : State) (c : ConfigSet) (p : Nat) : List Broken :=
  rangeRules c (portReg p 0) portRanges
    ++ brokenIf (bitOf (s.gpCfg p) 0 && c.fld (portReg p Reg.GP_CFG) 0 1 == 0 && s.fab.route.any (fun e => e.2 == 16 + p)) (portReg p Reg.GP_CFG) 0x3002

/-- R120. -/
def State.policyRules (s : State) (c : ConfigSet) : List Broken :=
  s.loaded.flatMap (fun i => match s.image i with
    | some g => g.layers.flatMap (fun y =>
        let v := Tab.get c.policy (layerKey i y.num)
        brokenIf ((!y.tiles && decide (bitsOf v 0 2 < 2)) || decide (bitsOf v 32 16 < 64)) (2 ^ 31 + 4096 * i + y.num) 0x0810)
    | none => [])

/-- R280. -/
def stagingRule (c : ConfigSet) : List Broken :=
  brokenIf (decide (3072 < ((List.range 256).map (fun i => c.fld (stgReg (Reg.STG_MIN + 2 * i)) 0 7)).foldl (· + ·) 0)) (stgReg Reg.STG_MIN) 0x0806

/-- Every rule of the manual that a configuration breaks in the state in force. -/
def State.broken (s : State) (c : ConfigSet) : List Broken :=
  rangeRules c 0 moduleRanges
    ++ (List.range 8).flatMap (fun e => brokenIf (c.fld (hkReg (Reg.HK_EXT_FS + 4 * e)) 0 16 == 0) (hkReg (Reg.HK_EXT_FS + 4 * e)) 0x1001)
    ++ rangeRules c (fabReg 0) fabricRanges ++ rangeRules c (wtReg 0) weightRanges
    ++ (List.range 4).flatMap (fun m => rangeRules c (memReg m 0) mdieRanges)
    ++ s.dies.flatMap (fun d => rangeRules c (dieReg d 0) dieRanges ++ s.bankRules c d)
    ++ s.dieAgreement c ++ mdieAgreement c ++ stagingRule c ++ s.hdmRules c
    ++ (List.range 4).flatMap (fun m => s.poolRules c m ++ s.cordRules c m ++ s.peatRules c m)
    ++ s.topoRules c ++ (List.range 16).flatMap (s.portRules c) ++ s.policyRules c

/-- Of two failing rules the one that is reported: the lower TARGET, then the lower reason code. -/
def Broken.before (x y : Broken) : Bool := decide (x.1 < y.1) || (x.1 == y.1 && decide (x.2 ≤ y.2))

/-- The first of the failing rules (R285). -/
def firstBroken : List Broken → Option Broken
  | [] => none
  | x :: r => match firstBroken r with
    | none => some x
    | some y => some (if Broken.before x y then x else y)

/-- The rule that CHECK or COMMIT reports: reason and TARGET. -/
def State.verdictOf (s : State) (c : ConfigSet) : Option (Nat × Nat) := (firstBroken (s.broken c)).map (fun x => (x.2, x.1))

/-- Tests 2 and 3 of R285. -/
def State.checkStaged (s : State) (seq : Nat) : Option (Nat × Nat) :=
  if seq ≠ s.stageSeq then some (0x0801, 0) else s.verdictOf s.staged

/-- CONFIG_CHECK. -/
def execConfigCheck (h : Hdr) (seq : Nat) (s : State) : Host.Outcome State Fault Refusal :=
  .next (s.descriptor h clsConfig fun t d =>
    match t.checkStaged seq with
    | some (r, a) => t.finish d .COMMIT_REJECTED r a
    | none => t.finish d .OK 0 0)

/-! ### Commits (R286, R287) -/

/-- COMMIT_STATUS keeps the reason and TARGET of the last rejection. -/
def State.rejected (s : State) (r a : Nat) : State := s.setReg (stgReg Reg.COMMIT_STATUS) (r % 65536 * 2 ^ 16 + a % 2 ^ 32 * 2 ^ 32)

/-- CONFIG_COMMIT: an accepted one copies the staged set into the commit buffer. -/
def execConfigCommit (h : Hdr) (seq : Nat) (s : State) : Host.Outcome State Fault Refusal :=
  .next (s.descriptor h clsConfig fun t d =>
    let x := if t.commit.buffer.isSome then some (0x0802, 0) else t.checkStaged seq
    match x with
    | some (r, a) => (t.rejected r a).finish d .COMMIT_REJECTED r a
    | none => { t with commit := { t.commit with buffer := some { set := t.staged, chan := d.chan, ring := d.ring, tag := d.tag, irq := d.irq } } })

/-- The descriptor of a commit on its way. -/
def Pending.desc (p : Pending) : Desc := { chan := p.chan, ring := p.ring, tag := p.tag, irq := p.irq }

/-- A commit is accepted and its boundary has not come. -/
def State.commitWaits (s : State) : Bool := s.commit.buffer.isSome && s.commit.blocks.isEmpty

/-- Blocks of Table 9-19 that do not run in steps: Glosa port p, the housekeeping ADC, the thermal supervisor, the power block. -/
abbrev blkAdc : Nat := 16
abbrev blkThermal : Nat := 17
abbrev blkPower : Nat := 18

/-- Whole registers of the fabric and of topology, which switch with G0. -/
def fabricDeferred : List Nat :=
  [fabReg Reg.FAB_CFG, fabReg Reg.ENUM_CFG, fabReg Reg.TOPO_CFG, fabReg Reg.TOPO_DIM0, fabReg Reg.TOPO_DIM1, fabReg Reg.TOPO_DIM2,
   fabReg Reg.COORD_STAGE, fabReg Reg.ROUTE_STAGE]

/-- Registers that block `n` alone reads. -/
def blockRegs (n : Nat) : List Nat :=
  if n < 16 then portReg n Reg.GP_CFG :: (if n = 0 then fabricDeferred else [])
  else if n = blkAdc then hkReg Reg.HK_DIAG_CFG :: (List.range 8).map (fun e => hkReg (Reg.HK_EXT_FS + 4 * e))
  else if n = blkPower then [pwrReg Reg.PWR_CFG]
  else []

/-- The live configuration `c` with the fields that block `n` reads as in `p`. ROUND_MS of HK_CFG is the ADC's and its other fields are the supervisor's. -/
def ConfigSet.take (c p : ConfigSet) (n : Nat) : ConfigSet :=
  let hk := hkReg Reg.HK_CFG
  let c1 := (blockRegs n).foldl (fun (x : ConfigSet) a => x.setReg a (p.reg a)) c
  if n = 0 then { c1 with coord := p.coord, route := p.route }
  else if n = blkAdc then c1.setReg hk (c.reg hk / 32 * 32 + p.reg hk % 32)
  else if n = blkThermal then c1.setReg hk (p.reg hk / 32 * 32 + c.reg hk % 32)
  else c1

/-- The blocks whose fields a commit changes. -/
def State.affected (s : State) (p : ConfigSet) : List Nat := (List.range 19).filter (fun n => s.live.take p n != s.live)

/-- R123: an applied UNPIN clears its layer's pin, and reads 0. -/
def State.applyPolicies (s : State) : State :=
  let hit := s.live.policy.filter (fun e => bitOf e.2 6)
  let clear (t : Tab Nat) : Tab Nat := hit.foldl (fun t e => if Tab.get t e.1 = e.2 then Tab.set t e.1 (e.2 - 64) else t) t
  { s with
    live := { s.live with policy := clear s.live.policy }
    staged := { s.staged with policy := clear s.staged.policy }
    stats := hit.foldl (fun t e => Tab.upd t e.1 (fun x => { x with pin := none, pinNext := none })) s.stats }

/-- The banks that clear themselves: of those that are to be on, the ones that were off or were still clearing. -/
def banksUp (new old up : Nat) : Nat :=
  (List.range 16).foldl (fun v b => if !bitOf new b && (bitOf old b || bitOf up b) then v + 2 ^ b else v) 0

/-- R181: banks lose power, or gain it and clear themselves. -/
def State.powerBanks (s : State) (old new : Tab Nat) : State :=
  let qs := (old ++ new).map Prod.fst
  let up := qs.foldl (fun t q => Tab.set t q (banksUp (Tab.get new q) (Tab.get old q) (Tab.get t q))) s.mem.poweringUp
  { s with mem := { s.mem with poweringUp := up } }

/-- The commit completes when its last affected block has switched. -/
def State.commitEnds (s : State) : State :=
  match s.commit.buffer with
  | some p => if s.commit.blocks.isEmpty then
      { s with commit := { s.commit with buffer := none } }.finish p.desc .OK (s.reg (stgReg Reg.CONFIG_EPOCH)) s.commit.boundary
    else s
  | none => s

/-- The copy becomes live at a step boundary, but for the fields of blocks that switch later. -/
def State.applyCommit (s : State) (p : Pending) : State :=
  let blocks := s.affected p.set
  let live := (List.range 19).foldl (fun (c : ConfigSet) n => c.take s.live n) p.set
  let s1 := { s with
    live := live
    boot := { s.boot with cfgFlash := some (p.set.reg (secReg Reg.BOOT_CFG)) }
    commit := { s.commit with blocks := blocks, boundary := s.time.tick } }
  let s2 := (s1.setReg (stgReg Reg.CONFIG_EPOCH) ((s1.reg (stgReg Reg.CONFIG_EPOCH) + 1) % 2 ^ 32)).applyPolicies
  (s2.powerBanks s.live.pwrOff p.set.pwrOff).commitEnds

/-- R287: the copy is checked again against the state in force; a copy that fails is discarded. -/
def State.commitBoundary (s : State) : State :=
  match s.commit.buffer with
  | some p =>
    if s.commit.blocks.isEmpty then
      match s.verdictOf p.set with
      | some (r, a) => ({ s with commit := { s.commit with buffer := none } }.rejected r a).finish p.desc .COMMIT_REJECTED r a true
      | none => s.applyCommit p
    else s
  | none => s

/-! ### Safe points (Table 9-19) -/

/-- R325, R356: what a port's new ENABLE does: a port that is disabled leaves its state and drops its frames, and one that is enabled again starts DOWN with its attempts at 0 (R328). -/
def State.portSwitch (s : State) (p : Nat) : State :=
  let x := s.port p
  if s.portEnabled p then (if x.st = .disabled then s.setPort p { x with st := .down, attempts := 0, cause := 0 } else s)
  else if x.st = .disabled then s
  else
    let s1 := if x.st = .up then s.dropPort p else s
    let s2 := s1.setPort p { s1.port p with st := .disabled, lanes := 0 }
    if x.st = .up then s2.reroute else s2

/-- R379: the dimensions that a switch of G0's block changes. -/
def dimsChanged (old new : ConfigSet) : List Nat :=
  (List.range 3).filter (fun d => old.reg (fabReg (Reg.TOPO_DIM0 + 8 * d)) != new.reg (fabReg (Reg.TOPO_DIM0 + 8 * d))
    || (old.coord ++ new.coord).any (fun e => Tab.get old.coord e.1 != Tab.get new.coord e.1
      && (coordPos (Tab.get old.coord e.1) d != coordPos (Tab.get new.coord e.1) d || bitOf (Tab.get old.coord e.1) 37 != bitOf (Tab.get new.coord e.1) 37)))

/-- Block `n` switches to the committed values. -/
def State.blockSwitch (s : State) (p : ConfigSet) (n : Nat) : State :=
  let old := s.live
  let s1 := { s with live := s.live.take p n, commit := { s.commit with blocks := s.commit.blocks.erase n } }
  let s2 := if n < 16 then s1.portSwitch n else s1
  if n = 0 then s2.clearRings (dimsChanged old s2.live) else s2

/-- BLOCK_SAFE_POINT_SWITCH: a port switches at its next frame boundary, the others at the next start of a round. -/
def execBlockSafePointSwitch (block : Nat) (s : State) : Host.Outcome State Fault Refusal :=
  .next (match s.commit.buffer with
    | some p => if s.commit.blocks.contains block && (decide (block < 16) || s.hk.slot == 0) then (s.blockSwitch p.set block).commitEnds else s
    | none => s)

end Sys2Proof.Machine
end

