-- ==== Sys2Proof/Machine/Boundary.lean ====
section
/-! DEFINITION. The step boundary: the end of a step, rewinds, request moves, staged changes, pins, and the admission of the next step (R31, R32, R206, R207, R234, R237, R238, R241, R253, R254, R375, R414 to R420, R428). -/

namespace Sys2Proof.Machine

/-! ### The end of the step (R121, R122, R131, R409) -/

/-- Shadow pointers and injections of one engine move on for the layers that ran in the step; its visits close, and its layer select ends (R87, R131, R409). -/
def State.endEngine (s : State) (e : Nat) : State :=
  let x := s.engine e
  let y := x.ran.eraseDups.foldl (fun (y : Bank) l => ({ y with shadow := Tab.upd y.shadow l (fun k => (k + 1) % 64) }).injectStep l) x.activeBank
  let s1 := s.setEngine e { x.setBank x.active y with ran := [], sel := none }
  (s1.closeVisits e 0).closeVisits e 1

/-- What one sequence's run of a layer adds to the layer's record (Table 4-7); reference runs count in no pin (R122). -/
def LayerStat.addRun (x : LayerStat) (n : Nat) (r : LayerRun) : LayerStat :=
  let sat (v : Nat) : Nat := min (2 ^ 64 - 1) v
  let p := decide (r.base < r.top)
  let hist := if r.ref then x.hist else match x.hist with
    | (m, a, b) :: t => if m = n then (m, a + 1, b + b2n p) :: t else (n, 1, b2n p) :: x.hist
    | [] => [(n, 1, b2n p)]
  { x with runs := sat (x.runs + 1), promoted := sat (x.promoted + b2n p), a8 := sat (x.a8 + b2n (p && r.top == 1))
           d8 := sat (x.d8 + b2n (p && r.top == 2)), d16 := sat (x.d16 + b2n (p && r.top == 3))
           exhausted := sat (x.exhausted + b2n r.exhausted), clips := sat (x.clips + r.clips)
           hist := hist.filter (fun h => decide (n < h.1 + 65536)) }

/-- The step has ended: its runs are counted when it was committed, and the block is between steps. -/
def State.endStep (s : State) : State :=
  let s1 := s.engines.keys.foldl (fun s e => s.endEngine e) s
  let stats := if s.step.committed then
      s1.runs.foldl (fun t r => Tab.upd t (layerKey r.image r.layer) (fun x => x.addRun s.step.num r)) s1.stats
    else s1.stats
  { s1 with stats := stats, runs := [], troubles := [], verdicts := [], step := { s1.step with running := false } }

/-! ### Suspect windows (R417 to R420) -/

/-- Records of the rewind log that a window takes in, of request `i`, oldest first. -/
def State.windowLog (s : State) (w : Window) (i : Nat) : List RewindRec :=
  s.step.log.filter (fun x => x.idx == i && decide (w.first ≤ x.step) && decide (x.step ≤ w.last))

/-- The requests that a window touches: admitted in a window step, with an image that has work on the detecting core. -/
def State.touched (s : State) (w : Window) : List Nat :=
  s.reqs.keys.filter (fun i =>
    let r := s.req i
    r.st != .closed && r.st != .expired && (decide (w.first < r.logged) || !(s.windowLog w i).isEmpty)
      && (w.all || (match s.image r.image with | some g => g.usesCore w.core | none => false)))

/-- R420: the steward tick of the latest indexed step at or before a step, or 0 when the index does not reach it. -/
def State.indexTick (s : State) (n : Nat) : Nat := (((s.step.index.filter (fun x => decide (x.1 ≤ n))).getLast?).map (·.2)).getD 0

/-- Bytes 16 to 23 of a FAULT_REWOUND completion: the reason FAULT, TRUNCATED in byte 17, and the rewind point. -/
def rewoundResult (truncated : Bool) (point : Nat) : Nat := rsFault + 256 * b2n truncated + 2 ^ 32 * point

/-- A touched request whose first window admission has left the log: it pauses where it stands. -/
def State.truncated (s : State) (w : Window) (i : Nat) : State :=
  let s1 := if (s.req i).st = .active then s.pauseReq i rsFault else s
  (s1.requestEvent i .FAULT_REWOUND (rewoundResult true 0) (s.indexTick w.first)).bump (dieReg s.stewardDie Reg.SE_WINDOW_TRUNC_TOTAL) 1

/-- A touched request takes the rewind point of its first admission in the window; the earlier of two points stands. A move to the Peat tier stops (Table 14-5). -/
def State.markTouched (s : State) (w : Window) (i : Nat) : State :=
  if decide (w.first < (s.req i).logged) then s.truncated w i
  else match s.windowLog w i with
    | [] => s
    | x :: _ =>
      let s1 := s.stopMove i
      let r := s1.req i
      let keep := match r.faultRewind with | some f => decide (f.1 ≤ x.length) | none => false
      (s1.setReq i (if keep then r else { r with faultRewind := some (x.length, x.token, x.input) })).bump (dieReg s.stewardDie Reg.SE_REWIND_SEQ_TOTAL) 1

/-- One window is reported, and its sequences are to be rewound. -/
def State.applyWindow (s : State) (w : Window) : State :=
  let is := s.touched w
  let tokens := ((is.flatMap (s.windowLog w)).map (·.delivered)).foldl (· + ·) 0
  let colls := (s.step.collRuns.filter (fun x => decide (w.first ≤ x.1) && decide (x.1 ≤ w.last))).length
  (is.foldl (fun s i => s.markTouched w i) s).raise .SUSPECT_WINDOW Src.steward [w.cls.code, w.first, w.last, is.length, tokens, colls]

/-- Every window that the detections since the last boundary have opened. -/
def State.applyWindows (s : State) : State :=
  s.det.windows.foldl (fun s w => s.applyWindow w) { s with det := { s.det with windows := [] } }

/-! ### Requests at a boundary (R234, R244, R248, R250, R265, R418) -/

/-- R248 step 4: a move whose image is written and whose digests stand ends. -/
def State.park (s : State) (i : Nat) : State :=
  let r := s.req i
  if r.st = .ember ∧ r.tier = .moving ∧ r.moved then
    let t := s.table i
    let bytes := s.peatBytes i
    let s1 := (s.stageEdit i .evict).setTable i { (s.stageEdit i .evict).table i with holds := t.holds.erase (t.holds.headD 0) }
    let s2 := s1.setReq i { r with st := .peat, tier := .peat, moved := false, warned := false, expiry := s.time.tick + r.ttl * tickSecond }
    let s3 := (s2.requestEvent i .REQUEST_PARKED r.reason s.time.tick).bump (memReg (reqMdie i) Reg.PEAT_OUT_BYTES_TOTAL) bytes
    if r.ttl ≤ s.warnLead then s3.warnExpiry i else s3
  else s

/-- R250 step 4: a resumption whose digests have all agreed ends. -/
def State.unpark (s : State) (i : Nat) : State :=
  let r := s.req i
  if r.st = .peat ∧ r.checked then
    let bytes := s.peatBytes i
    let s1 := s.setTable i { s.table i with tier := .ember, holds := [] }
    let s2 := s1.setReq i { r with checked := false }
    let s3 := (if r.keepPeat then s2 else s2.releaseExtent i).bump (memReg (reqMdie i) Reg.PEAT_IN_BYTES_TOTAL) bytes
    s3.resumeReq i
  else s

/-- A pause that the host has asked for, or that the closing of the request's channel makes. -/
def State.hostPause (s : State) (i : Nat) : State :=
  let r := s.req i
  let gone := (s.chan r.chan).st != .opened
  let s1 := if r.st = .active ∧ (r.wantPause ∨ gone) then s.pauseReq i rsHost else s
  if (s1.req i).st = .ember ∧ (s1.req i).wantMove then s1.startMove i else s1

/-- The rewinds of one request: the lower position applies, and a fault rewind also at an equal one. -/
def State.rewinds (s : State) (i : Nat) : State :=
  let r := s.req i
  if r.st ≠ .active ∧ r.st ≠ .ember then s
  else
    let host := r.wantRewind.map (fun h => (h.1, if decide (h.1 < r.length) || r.token.isSome then some (h.2.getD (Tab.get r.ring (h.1 % 480))) else none))
    let s1 := match host, r.faultRewind with
      | some h, some f => if h.1 < f.1 then s.rewindReq i h.1 h.2 [] else s.rewindReq i f.1 f.2.1 f.2.2
      | some h, none => s.rewindReq i h.1 h.2 []
      | none, some f => s.rewindReq i f.1 f.2.1 f.2.2
      | none, none => s
    if r.faultRewind.isNone then s1
    else
      let s2 := s1.requestEvent i .FAULT_REWOUND (rewoundResult false (s1.req i).length) s.time.tick
      if s.fld (dieReg s.stewardDie Reg.SE_CFG) 7 1 = 1 ∧ r.st = .active then s2.pauseReq i rsFault else s2

/-- Everything that a boundary does to one request before the page managers' work. -/
def State.requestBoundary (s : State) (i : Nat) : State :=
  let s1 := s.park i
  if (s1.req i).wantClose then s1.closeReq i rsHost
  else
    let s2 := s1.hostPause i
    let s3 := if (s2.req i).st = .ember ∧ (s2.req i).wantResume then s2.resumeReq i else s2
    (s3.unpark i).rewinds i

def State.requestsBoundary (s : State) : State := s.reqs.keys.foldl (fun s i => s.requestBoundary i) s

/-! ### Calibration, maps and flips (R93, R146 to R150, R153) -/

/-- The positions of a die whose exercise a committed run with cause SUBSTITUTION completes come into service. -/
def State.exerciseDone (s : State) (d : Nat) (ps : List Nat) : State :=
  ps.foldl (fun s p =>
    if (s.position d p).logical < 8 then s.setPosition d p { s.position d p with st := .active } else s.scanSwapIn d p) s

/-- Column maps, accepted flips, and the commit of STAGED runs; the epoch counts once where the live trims of an ACTIVE bank change. -/
def State.arrayBoundary (s : State) : State :=
  let s1 := s.engines.keys.foldl (fun s e => (s.mapBoundary e 0).mapBoundary e 1) s
  let f := s1.flipBoundary
  let s2 := f.1
  let staged := s2.dies.filter (fun d => (s2.dieCal d).run == 3)
  let change := f.2 || staged.any (fun d => (s2.dieCal d).banks.any (fun x => (s2.engine x.1).active == x.2 && (s2.bank x.1 x.2).trimsChange))
  let epoch := if change then (s2.epoch + 1) % 65536 else s2.epoch
  let s3 := staged.foldl (fun s d =>
    let ps := if bitOf (s.dieCal d).causes 5 then (List.range 9).filter (s.exercised d) else []
    let s1 := s.calCommit d epoch
    (s1.setCal d { s1.dieCal d with pending := s1.heldCauses d }).exerciseDone d ps) { s2 with epoch := epoch }
  s3.dies.foldl (fun s d => s.calCheck d) s3

/-! ### Substitution (R17, R380, R382) -/

/-- The spare of its die takes a lost cluster's number, and the resident regions are loaded again; with no spare left the die covers the cluster or loses capacity. -/
def State.substituteLost (s : State) (x : Nat × Nat) : State :=
  let d := x.1 / 9
  if (s.spareOf d).isSome then (s.substitute x.1 x.2).reloadRegions x.1
  else
    let s1 := { s with det := { s.det with lost := s.det.lost.erase x } }
    if s1.det.unplaced.any (fun g => g / 9 == d) then s1.pauseDie d
    else { s1 with det := { s1.det with unplaced := s1.det.unplaced ++ [x.1] } }.raise .CLUSTER_COVERED Src.steward [d, x.1 % 9]

/-! ### Pins (R121 to R123) -/

/-- The pin that was decided at the last boundary takes effect; a changed effective rung restarts the count of steps, and R122 decides the next pin. -/
def State.pinLayer (s : State) (image layer : Nat) : State :=
  let key := layerKey image layer
  let x : LayerStat := Tab.get s.stats key
  let s1 := match x.pinNext with
    | some r => { s with stats := Tab.set s.stats key { x with pin := some r, pinNext := none } }
    | none => s
  let rung := s1.baseRung image layer
  let y : LayerStat := Tab.get s1.stats key
  let z : LayerStat := if y.seen = rung then y else { y with seen := rung, since := s.step.num }
  let p := s.policy image layer
  let window := bitsOf p 32 16
  let xs := z.hist.filter (fun h => decide (s.step.num < h.1 + window))
  let runs : Nat := (xs.map (fun h => h.2.1)).foldl (· + ·) 0
  let prom : Nat := (xs.map (fun h => h.2.2)).foldl (· + ·) 0
  let s2 := { s1 with stats := Tab.set s1.stats key z }
  if bitOf p 3 = true ∧ rung < 3 ∧ z.since + window ≤ s.step.num ∧ 1 ≤ runs ∧ bitsOf p 16 16 * runs < prom * 65536 then
    { s2 with stats := Tab.set s2.stats key { z with pinNext := some (rung + 1) } }.raise .LAYER_PINNED Src.steward [key, rung, rung + 1, prom, runs]
  else s2

def State.pinBoundary (s : State) : State :=
  s.loaded.foldl (fun s i => match s.image i with
    | some g => g.layers.foldl (fun s y => s.pinLayer i y.num) s
    | none => s) s

/-! ### Admission (R207, R237, R238, R241, R253, R254, R271) -/

/-- R237: the order in which candidates are admitted. -/
def State.admitBefore (s : State) (i j : Nat) : Bool :=
  let a := s.req i
  let b := s.req j
  let key (r : Req) : Nat := if r.deadline = 0 then 2 ^ 64 else r.deadline
  decide (b.priority < a.priority) || (a.priority == b.priority && (decide (key a < key b) || (key a == key b &&
    (decide (a.lastCommit < b.lastCommit) || (a.lastCommit == b.lastCommit && decide (i ≤ j))))))

/-- What an admission has taken so far. -/
structure Forming where
  st : State
  taken : List Admit := []
  rows : Nat := 0

def State.stepSeqMax (s : State) : Nat := s.fld (memReg 0 Reg.SERVE_CFG) 0 10
def State.stepRowsMax (s : State) : Nat := s.fld (memReg 0 Reg.SERVE_CFG) 10 14
def State.specEn (s : State) : Bool := s.fld (memReg 0 Reg.SERVE_CFG) 24 1 == 1

/-- What leaves a candidate out of the next step while it keeps its state: its image is absent, uses a cord that is being restored, a ring whose link is down, or a die under reset (R404, R376, R484), or its pages are elsewhere. -/
def State.leftOut (s : State) (i : Nat) : Bool :=
  let r := s.req i
  r.tier != .ember || (match s.image r.image with
    | none => true
    | some g => s.ringHeld g
        || g.cords.any (fun c => (List.range 8).any (fun k => (s.slot k).st == .restoring && (s.slot k).cord == c))
        || s.fw.resets.any (fun x => x.running && x.scope == 2 && g.usesDie x.die))

/-- R238: the deadline of a candidate; the answer is whether it may still be admitted. -/
def State.deadline (s : State) (i : Nat) : State × Bool :=
  let r := s.req i
  if r.deadline = 0 ∨ s.time.tick < r.deadline ∨ r.policy = 1 then (s, true)
  else if r.policy = 2 then (s.closeReq i rsDeadline, false)
  else (s.pauseReq i rsDeadline, false)

/-- R241: a tree that names another LENGTH is discarded and counted. -/
def State.freshTree (s : State) (i : Nat) : State :=
  let r := s.req i
  match r.tree with
  | some t => if t.forLength = r.length then s else (s.setReq i { r with tree := none }).bump (memReg (reqMdie i) Reg.SPEC_STALE_TOTAL) 1
  | none => s

/-- R253, R254: the adapter version that an admission runs with: pinned at the first, moved by MIGRATE; none where the pinned version is absent. -/
def State.pinAdapter (s : State) (i : Nat) : Option State :=
  let r := s.req i
  if r.noAdapter then some s
  else
    let x := s.adapter r.slot
    if r.pinned && !r.migrate then (if x.live.any (fun v => v.number == r.version) then some s else none)
    else match x.newest with
      | none => none
      | some v =>
        let s1 := s.unpin i
        some ((s1.setAdapter r.slot ((s1.adapter r.slot).addPins v.number (· + 1))).setReq i { s1.req i with version := v.number, pinned := true, migrate := false })

/-- The rows that a candidate takes, `left` being free: the tokens it feeds, its tree, and whether its last row samples. -/
def State.shape (s : State) (i : Nat) (g : Image) (left : Nat) : Admit × Nat :=
  let r := s.req i
  let head := r.token.toList
  if !r.input.isEmpty then
    let n := min (r.input.length + head.length) (min g.chunk left)
    let feed := (head ++ r.input).take n
    ({ idx := i, base := r.length, feed := feed, sample := n == r.input.length + head.length }, n)
  else match r.tree with
    | some t =>
      if s.specEn && decide (t.nodes.length ≤ left) then ({ idx := i, base := r.length, feed := head, tree := some t }, t.nodes.length)
      else ({ idx := i, base := r.length, feed := head }, 1)
    | none => ({ idx := i, base := r.length, feed := head }, 1)

/-- A candidate is admitted with its rows: its pages are appended, it is ACTIVE, and the counts move. -/
def Forming.take (f : Forming) (a : Admit) (n : Nat) (g : Image) : Forming :=
  let i := a.idx
  let s1 := f.st.appendPages i ((a.base + n + 255) / 256) g
  let s2 := s1.setTable i { s1.table i with length := a.base, draft := if a.tree.isSome then n else 0 }
  let s3 := (s2.setReq i { s2.req i with st := .active }).bump (memReg (reqMdie i) Reg.REQ_ADMIT_TOTAL) 1
  { st := s3, taken := f.taken ++ [{ a with row := f.rows }], rows := f.rows + n }

/-- One candidate in turn. -/
def Forming.consider (f : Forming) (i : Nat) : Forming :=
  let d := f.st.deadline i
  if !d.2 then { f with st := d.1 }
  else
    let s := d.1.freshTree i
    let r := s.req i
    let left := s.stepRowsMax - f.rows
    match s.image r.image with
    | none => { f with st := s }
    | some g =>
      if r.input.isEmpty ∧ r.token.isNone then { f with st := s.pauseReq i rsInputEmpty }
      else if s.leftOut i then { f with st := s }
      else if 4096 ≤ (s.chan r.chan).spill.length then { f with st := s.bump (stgReg Reg.CQ_STALL_TOTAL) 1 }
      else if s.stepSeqMax ≤ f.taken.length ∨ left = 0 then { f with st := s }
      else
        let (a, n) := s.shape i g left
        if n = 0 then { f with st := s }
        else
          let need := (a.base + n + 255) / 256 - (s.table i).pages.length
          let ms := s.short i need g
          if !ms.isEmpty then { f with st := ms.foldl (fun s m => s.bump (memReg m Reg.KV_DEFER_TOTAL) 1) s }
          else match s.pinAdapter i with
            | none => { f with st := s.pauseReq i rsResumeFailed }
            | some t => Forming.take { f with st := t } a n g

/-- The candidates: OPEN and ACTIVE requests; of a step that runs again, its own that are left (R237, R415). -/
def State.candidates (s : State) : List Nat :=
  let all := s.reqs.keys.filter (fun i => (s.req i).st == .opened || (s.req i).st == .active)
  let again := if s.step.abandoned then all.filter (fun i => s.step.rerun.contains i) else []
  (if again.isEmpty then all else again).mergeSort s.admitBefore

/-- The step that an admission would start: a step that was never committed is started again under its number, and a member takes its lead's (R375, R414). -/
def State.nextStep (s : State) : Option Nat :=
  if (List.range 4).any s.mdieDown then none
  else if s.inGroup && !s.isLead then s.topo.announced
  else some (s.step.journal + 1)

/-- R416: the log keeps 128 steps; a request notes its latest admission that has left it. -/
def State.logStep (s : State) (n : Nat) (as : List Admit) : State :=
  let old := s.step.log.filter (fun x => x.step != n)
  let out := old.filter (fun x => decide (x.step + 128 ≤ n))
  let s1 := out.foldl (fun s x => s.setReq x.idx { s.req x.idx with logged := max (s.req x.idx).logged (x.step + 1) }) s
  let new := as.map (fun a => let r := s.req a.idx
    ({ step := n, idx := a.idx, length := a.base, token := r.token, input := r.input } : RewindRec))
  let index := (s.step.index.filter (fun x => x.1 != n && decide (n < x.1 + 16777216))) ++ (if n % 256 = 0 then [(n, s.time.tick)] else [])
  { s1 with step := { s1.step with log := old.filter (fun x => decide (n < x.step + 128)) ++ new, index := index } }

/-- Admission of the next step. -/
def State.admission (s : State) : State :=
  let rerun := s.step.abandoned && s.candidates.any (fun i => s.step.rerun.contains i)
  match s.nextStep with
  | none => { s with step := { s.step with committed := false, abandoned := false, admitted := [], rerun := [] } }
  | some n =>
    let f := s.candidates.foldl Forming.consider { st := s }
    let t := f.st.logStep n f.taken
    let run := !f.taken.isEmpty || (s.inGroup && !s.isLead)
    { t with step := { t.step with
        num := if run then n else t.step.num
        running := run
        committed := false
        abandoned := false
        admitted := f.taken
        attempt := if rerun then t.step.attempt else 0
        faultAddr := if rerun then t.step.faultAddr else []
        rerun := []
        badPages := [] } }

/-! ### The boundary -/

/-- A boundary can be made: READY, and no step runs that is neither committed nor abandoned. -/
def State.atBoundary (s : State) : Bool := s.ready && (!s.step.running || s.step.committed || s.step.abandoned)

/-- Requests that stop with reason FAULT, and every ACTIVE one whose image has work on a die without power or, while an M-die is away, on any (R415, Table 15-8). -/
def State.excludeAll (s : State) : State :=
  let down := (List.range 4).any s.mdieDown
  let hit (i : Nat) : Bool := s.step.excluded.contains i || down || (match s.image (s.req i).image with
    | some g => s.dies.any (fun d => s.dieDown d && g.usesDie d)
    | none => false)
  let s1 := (s.reqs.keys.filter (fun i => (s.req i).st == .active && hit i)).foldl (fun s i => s.pauseReq i rsFault) s
  { s1 with step := { s1.step with excluded := [] } }

/-- Everything that a step boundary does before the admission. -/
def State.boundaryWork (s : State) : State :=
  let s1 := s.endStep.applyWindows.requestsBoundary.kvBoundary
  let s2 := s1.adapters.keys.foldl (fun s n => s.adapterBoundary n) s1
  let s3 := s2.arrayBoundary
  let s4 := s3.det.lost.foldl (fun s x => s.substituteLost x) s3
  s4.scanBoundary.resetBoundary.hkBoundary.commitBoundary.attestBoundary.topoBoundary.pinBoundary

/-- A step boundary: `slices` says how the fleet slices that run in it end (R428). -/
def State.boundary (s : State) (slices : List SliceRun) : State :=
  let s1 := (slices.foldl (fun s r => s.fleetSlice r) s.boundaryWork).excludeAll.admission
  { s1 with topo := { s1.topo with announced := none, clean := [], go := false }, inst := { s1.inst with announceFlip := false } }

/-- STEP_BOUNDARY. -/
def execStepBoundary (slices : List SliceRun) (s : State) : Host.Outcome State Fault Refusal :=
  .next (if s.atBoundary then s.boundary slices else s)

/-- EMPTY_STEP_BOUNDARY: with a commit pending and no step running. -/
def execEmptyStepBoundary (s : State) : Host.Outcome State Fault Refusal :=
  .next (if s.atBoundary && !s.step.running && s.commitWaits then s.boundary [] else s)

end Sys2Proof.Machine
end

