-- ==== Sys2Proof/Machine/Programs.lean ====
section
/-! DEFINITION. Program images: their load, their rejection, their programs and their unload (R36, R61, R99, R119, R120, R179 to R181, R188, R203, R279, R281, R314, R346, R358, R360, R475). -/

namespace Sys2Proof

/-- R36: an image gives a tensor scale as a binary32 word or in BF16 form. -/
def widen (bf16 : Bool) (x : F32) : F32 := if bf16 then F32.ofBF16 x.toNat else x

/-- The image with every scale in binary32 form. -/
def Image.widened (g : Image) : Image :=
  { g with
    layers := g.layers.map (fun y => { y with sa := widen y.bf16 y.sa, sw := widen y.bf16 y.sw, bf16 := false })
    heads := g.heads.map (fun h => { h with sq := widen h.bf16 h.sq, skv := widen h.bf16 h.skv, lambda := widen h.bf16 h.lambda, bf16 := false }) }

/-- R99: a limit is positive and not NaN. -/
def limitOk (x : F32) : Bool := decide (0 < x.toNat) && decide (x.toNat ≤ 0x7F800000)

namespace Machine

/-- A rejection of an image: its status, and the number that names the item at fault. -/
abbrev Reject := Code × Nat

/-- The first item of a list that fails a test, by its number. -/
def firstBad {α : Type} (c : Code) (xs : List α) (num : α → Nat) (bad : α → Bool) : Option Reject :=
  (xs.find? bad).map (fun x => (c, num x))

/-- The first rejection of a list of tests. -/
def firstReject : List (Option Reject) → Option Reject
  | [] => none
  | some r :: _ => some r
  | none :: t => firstReject t

/-! ### What an image gives of itself (R36, R61, R99, R119, R120) -/

/-- A KV head's number among all tensors that heads give: 2^16 × block + head. -/
def headNumber (h : ImageHead) : Nat := h.block * 2 ^ 16 + h.head

/-- Rejections that rest on the image alone. -/
def imageRejects (g : Image) : List (Option Reject) :=
  [firstBad .SCALE_INVALID g.layers (·.num) (fun y => !F32.isScale y.sa || !F32.isScale y.sw),
   firstBad .SCALE_INVALID g.heads headNumber (fun h => !F32.isScale h.sq || !F32.isScale h.skv || !F32.isScale h.lambda),
   firstBad .SCALE_INVALID g.layers (·.num) (fun y => !F32.isScale (F32.mul y.sa y.sw)),
   firstBad .OUTLIER_LIMIT_INVALID g.layers (·.num) (fun y => !limitOk y.l4 || !limitOk y.l8 || decide (y.l8.toNat < y.l4.toNat)),
   firstBad .LAYER_POLICY_INVALID g.layers (·.num) (fun y => (!y.tiles && decide (bitsOf y.policy 0 2 < 2)) || decide (bitsOf y.policy 32 16 < 64)),
   firstBad .VERDICT_CAPACITY g.verdicts.zipIdx (·.2) (fun v => decide (1024 < v.1))]

/-! ### Pools (R203) -/

/-- Rejections by the Ember pool of one M-die. -/
def State.poolReject (s : State) (g : Image) (m : Nat) : Option Reject :=
  if g.frames m = 0 then none
  else if !s.poolEn m then some (.KV_POOL_ABSENT, m)
  else if s.poolKv4 m != g.kv4 then some (.KV_FORMAT_MISMATCH, m)
  else if (s.pool m).busy && decide ((s.pool m).size < g.frames m) then some (.KV_POOL_BUSY, m)
  else none

/-- S_m rises to the image's F_m. -/
def State.raiseSlots (s : State) (g : Image) : State :=
  (List.range 4).foldl (fun s m => if (s.pool m).size < g.frames m then s.setPool m { s.pool m with size := g.frames m } else s) s

/-! ### Atomic target regions (R188) -/

/-- The M-die whose data SRAM holds all of a range. -/
def msramOf (a n : Nat) : Option Nat :=
  if msramBase ≤ a ∧ a < msramBase + 4 * msramSize ∧ (a - msramBase) / msramSize = (a + n - 1 - msramBase) / msramSize then some ((a - msramBase) / msramSize) else none

def atomBytes (x : ImageAtom) : Nat := 4096 * x.tiles

/-- Two of an image's regions overlap. -/
def atomsOverlap : List ImageAtom → Bool
  | [] => false
  | x :: r => r.any (fun y => overlap x.base (atomBytes x) y.base (atomBytes y)) || atomsOverlap r

/-- FX64 tiles of the loaded images on an M-die. -/
def State.fxTiles (s : State) (m : Nat) : Nat :=
  ((s.mem.atoms.filter (fun r => !r.i32 && msramOf r.base 1 == some m)).map (·.tiles)).foldl (· + ·) 0

def imageFxTiles (g : Image) (m : Nat) : Nat :=
  ((g.atoms.filter (fun r => !r.i32 && msramOf r.base 1 == some m)).map (·.tiles)).foldl (· + ·) 0

def State.atomRejects (s : State) (g : Image) : List (Option Reject) :=
  [firstBad .ATOMIC_REGION_INVALID g.atoms.zipIdx (·.2) (fun x => x.1.tiles == 0 || x.1.base % 4096 != 0 || (msramOf x.1.base (atomBytes x.1)).isNone
      || s.mem.atoms.any (fun r => overlap x.1.base (atomBytes x.1) r.base (4096 * r.tiles))),
   if atomsOverlap g.atoms then some (.ATOMIC_REGION_INVALID, g.atoms.length) else none,
   firstBad .ATOMIC_CAPACITY (List.range 4) id (fun m => decide (4096 < s.fxTiles m + imageFxTiles g m) && decide (0 < imageFxTiles g m))]

/-- A region is declared: its tiles are ATOMIC with its FORMAT and K. -/
def State.addAtom (s : State) (image : Nat) (x : ImageAtom × Nat) : State :=
  let s1 := { s with mem := { s.mem with
    atoms := s.mem.atoms ++ [{ base := x.1.base, tiles := x.1.tiles, i32 := x.1.i32, k := x.1.k, image := image, checked := x.1.checked, number := x.2 }] } }
  (List.range x.1.tiles).foldl (fun s i =>
    let t := x.1.base / 4096 + i
    s.setTile t { s.tile t with atomic := true, format := if x.1.i32 then 2 else 1, k := x.1.k }) s1

/-- The regions of an unloaded image are no targets any more. -/
def State.freeAtoms (s : State) (image : Nat) : State :=
  let mine := s.mem.atoms.filter (fun r => r.image == image)
  let s1 := { s with mem := { s.mem with
    atoms := s.mem.atoms.filter (fun r => r.image != image)
    guard := mine.foldl (fun t r => Tab.eraseRange t (r.base / 8) (512 * r.tiles)) s.mem.guard } }
  mine.foldl (fun s r => (List.range r.tiles).foldl (fun s i =>
    let t := r.base / 4096 + i
    s.setTile t { s.tile t with atomic := false }) s) s1

/-! ### Places that no image may take (R231, R260, R279, R373, R391, R475) -/

/-- The places of an image: its regions and its atomic targets. -/
def Image.places (g : Image) : List (Nat × Nat) := g.spans ++ g.atoms.map (fun x => (x.base, atomBytes x))

/-- Areas of stack `n`, as module-local ranges. -/
def inStack (n : Nat) (xs : List Area) : List (Nat × Nat) := xs.map (fun a => (n * stackSize + a.1, a.2))

def stackAreas (f : Nat → List Area) : List (Nat × Nat) := (List.range 8).flatMap (fun n => inStack n (f n))

/-- The first place that meets one of some ranges. -/
def meetReject (c : Code) (g : Image) (xs : List (Nat × Nat)) : Option Reject :=
  firstBad c (Image.places g) (·.1) (fun p => xs.any (fun x => Area.meets p x))

def State.placeRejects (s : State) (g : Image) : List (Option Reject) :=
  [meetReject .STAGING_OVERLAP g ((List.range 4).map (fun m => (msramBase + m * msramSize + 0x4000000, 0x4000000))),
   meetReject .TOPO_MAILBOX_OVERLAP g [(mailboxBase, mailboxSize)],
   meetReject .WEIGHT_INTAKE_OVERLAP g [(intakeBase, intakeSize)],
   meetReject .FW_AREA_OVERLAP g (stackAreas (fun n => fwAreas n ++ (if n % 2 = 1 then s.hearthAreas (n / 2) else []))),
   meetReject .REQ_AREA_OVERLAP g (stackAreas requestAreas),
   meetReject .HDM_OVERLAP g (stackAreas (fun _ => [hdmArea s.live]))]

/-! ### Objects, regions and collectives (R179, R314, R358, R360) -/

/-- One object on M-die `m`, after those already taken. -/
def State.takeObject (x : Except Reject (State × List Nat)) (m : Nat) : Except Reject (State × List Nat) :=
  match x with
  | .error e => .error e
  | .ok (s, l) =>
    match s.freeObj m with
    | none => .error (.SYNC_CAPACITY, m)
    | some n => .ok (s.setObj n { allocated := true }, l ++ [n])

/-- R314: the objects of an image, in the order of its declarations; the numbers taken. -/
def State.takeObjects (s : State) (ms : List Nat) : Except Reject (State × List Nat) := ms.foldl State.takeObject (.ok (s, []))

/-- R179: the scratchpad regions of an image are declared, and those with a source loaded from it. -/
def State.takeRegions (s : State) (image : Nat) : List ImageRegion → Except Reject State
  | [] => .ok s
  | r :: t =>
    let q := coreKey r.die r.cluster r.core
    let x : Region := { base := r.base, tiles := r.tiles, resident := r.resident, hasSource := r.source.isSome, source := r.source.getD 0, owner := image }
    let c := s.regionStatus q x
    if c ≠ .OK then .error (c, q * 2 ^ 32 + r.base)
    else
      let s1 := s.declare q x
      State.takeRegions (match r.source with
        | some a => (s1.copy (Reader.ofCluster (q / 8)) a (coreBase q + r.base) (4096 * r.tiles)).st
        | none => s1) image t

/-- Bytes of the ACC buffer of a collective (R361). -/
def accBytes (c : ImageColl) : Nat := 2 * c.stages.length * c.words * c.word

/-- R358: what is wrong with a definition. -/
def State.collBad (s : State) (g : Image) (c : ImageColl) : Bool :=
  let m (a : Nat) : Option Nat := (locate s.part.variant a).mdie
  (m c.acc).isNone || m c.src != m c.acc || m c.out != m c.acc
    || c.src % 4096 != 0 || c.acc % 4096 != 0 || c.out % 4096 != 0
    || !g.atoms.any (fun x => x.i32 == c.i32 && decide (x.base ≤ c.acc) && decide (c.acc + accBytes c ≤ x.base + atomBytes x))
    || c.words % (if c.i32 then 16 else 8) != 0
    || c.stages.any (fun d => s.ringSize d == 1)

/-- Definitions of the loaded images that M-die `m` holds. -/
def State.collsOn (s : State) (m : Nat) : Nat :=
  ((s.loaded.filterMap s.image).flatMap (·.colls)).countP (fun c => (locate s.part.variant c.acc).mdie == some m)

def State.collRejects (s : State) (g : Image) : List (Option Reject) :=
  [firstBad .COLL_DEFINITION_INVALID g.colls (·.id) (s.collBad g),
   firstBad .COLL_CAPACITY (List.range 4) id (fun m =>
      let n := g.colls.countP (fun c => (locate s.part.variant c.acc).mdie == some m)
      decide (0 < n) && decide (32 < s.collsOn m + n))]

/-- The module IDs of a ring of this module, its spare included. -/
def State.ringIds (s : State) (d : Nat) : List Nat := (List.range (s.ringSize d)).filterMap (s.moduleAt d)

/-- R360: the windows that a definition needs, as base, bytes and right. -/
def collRanges (c : ImageColl) : List (Nat × Nat × Nat) :=
  [(c.acc, (accBytes c + 4095) / 4096 * 4096, 2), (c.recs, 0x9000, 1)] ++ (if c.allReduce then [(c.out, (c.words * c.word + 4095) / 4096 * 4096, 1)] else [])

/-- R360: one window, on the highest CLOSED entry from 1,022 down. -/
def State.collWindow (s : State) (c : ImageColl) (r : Nat × Nat × Nat) : Option State :=
  let ids := s.moduleId :: c.stages.flatMap s.ringIds
  match (List.range 1023).reverse.find? (fun n => (s.win n).st == .closed) with
  | none => none
  | some n =>
    let x : WinArgs := { base := r.1, size := r.2.1, srcFirst := ids.foldl min s.moduleId, srcLast := ids.foldl max 0, rights := r.2.2, ports := 1, number := n }
    if s.winStatus x false = .OK then some (s.winOpen n x) else none

/-- One window of a definition, after those already taken. -/
def State.takeWindow (x : Except Reject State) (w : ImageColl × Nat × Nat × Nat) : Except Reject State :=
  match x with
  | .error e => .error e
  | .ok s =>
    match s.collWindow w.1 w.2 with
    | none => .error (.COLL_CAPACITY, w.1.id)
    | some t => .ok t

/-- Every window of an image's definitions. -/
def State.takeWindows (s : State) (ws : List (ImageColl × Nat × Nat × Nat)) : Except Reject State := ws.foldl State.takeWindow (.ok s)

/-- The windows of an unloaded image's definitions are closed as R350 has it. -/
def State.closeWindows (s : State) (g : Image) : State :=
  let rs := g.colls.flatMap collRanges
  (List.range 1023).foldl (fun s n =>
    let w := s.win n
    if w.st = .opened ∧ rs.any (fun r => r.1 == w.args.base && r.2.1 == w.args.size && r.2.2 == w.args.rights) then
      s.setWin n { w with st := .draining, refused := 0, call := none }
    else s) s

/-! ### Policies and statistics (R120 to R123, R131) -/

/-- A configuration with an image's initial policies, or without them. -/
def ConfigSet.policies (c : ConfigSet) (image : Nat) (ys : List ImageLayer) (keep : Bool) : ConfigSet :=
  { c with policy := ys.foldl (fun t y => Tab.set t (layerKey image y.num) (if keep then y.policy &&& 0xFFFFFFFF003F else 0)) c.policy }

/-- The live and the staged set, and the copy of an accepted commit, take the initial policies of an image or lose them. -/
def State.setPolicies (s : State) (image : Nat) (ys : List ImageLayer) (keep : Bool) : State :=
  { s with
    live := s.live.policies image ys keep
    staged := s.staged.policies image ys keep
    commit := { s.commit with buffer := s.commit.buffer.map (fun p => { p with set := p.set.policies image ys keep }) } }

/-- The layers' records begin anew, unpinned (R122, R123). -/
def State.setStats (s : State) (image : Nat) (ys : List ImageLayer) (keep : Bool) : State :=
  { s with stats := ys.foldl (fun t y =>
      let x : LayerStat := if keep then { since := s.step.num, seen := bitsOf y.policy 0 2 } else {}
      Tab.set t (layerKey image y.num) x) s.stats }

/-- R131: the shadow pointers of the ACTIVE banks that hold the image's tiles are at L mod 64. -/
def State.resetShadows (s : State) (g : Image) : State :=
  (g.cores.flatMap (fun q => (List.range 4).map (engineKey q))).foldl (fun s e =>
    let x := s.engine e
    s.setEngine e (x.setBank x.active { x.activeBank with shadow := [] })) s

/-! ### LOAD -/

/-- R314: the references to objects become the numbers that were allocated. -/
def Image.linked (g : Image) (ns : List Nat) : Image :=
  { g with objects := ns, colls := g.colls.map (fun c => { c with start := ns.getD c.start 0, done := ns.getD c.done 0 }) }

/-- The pieces of the object are placed. -/
def State.placeParts (s : State) (source length : Nat) (g : Image) : State :=
  g.parts.foldl (fun s p =>
    if p.1 + p.2.2 ≤ length then (s.write Src.steward {} p.2.1 (s.hostRead (source + p.1) p.2.2)).st else s) s

/-- The settled image format version (R281, R282). -/
def State.imageVersion (s : State) (g : Image) : Nat := Machine.settle (offerList (s.reg Reg.VER_IMAGE)) g.offers

/-- Everything that an accepted load does once its objects, regions and windows are taken. -/
def State.installed (s : State) (image source length : Nat) (g : Image) : State :=
  let s1 := g.atoms.zipIdx.foldl (fun s x => s.addAtom image x) (s.placeParts source length g)
  let s2 := ((s1.setPolicies image g.layers true).setStats image g.layers true).resetShadows g
  { s2.raiseSlots g with images := Tab.set s2.images image (some g) }

/-- The tests of an image in their order, and the state with it loaded. -/
def State.loadImage (s : State) (image source length : Nat) (g : Image) : Except Reject State :=
  match firstReject (imageRejects g ++ (List.range 4).map (s.poolReject g) ++ s.atomRejects g ++ s.placeRejects g ++ s.collRejects g) with
  | some r => .error r
  | none =>
    match s.takeObjects g.objects with
    | .error e => .error e
    | .ok x =>
      match x.1.takeRegions image g.regions with
      | .error e => .error e
      | .ok t =>
        match t.takeWindows (g.colls.flatMap (fun c => (collRanges c).map (fun r => (c, r)))) with
        | .error e => .error e
        | .ok u => .ok (u.installed image source length (Image.linked g x.2))

/-- PROGRAM LOAD. -/
def execProgramLoad (h : Hdr) (image source length : Nat) (img : Image) (s : State) : Host.Outcome State Fault Refusal :=
  .next (s.descriptor h clsProgram fun t d =>
    let v := t.imageVersion img
    if image = 0xFFFF then t.finish d .IMAGE_RESERVED 0 0
    else if (t.image image).isSome then t.finish d .IMAGE_IN_USE 0 0
    else if v = 0 then t.finish d .VERSION_NONE 0 0
    else match t.loadImage image source length (Image.widened img) with
      | .error e => t.finish d e.1 e.2 0
      | .ok u => u.finish d .OK v 0)

/-! ### RUN -/

/-- R180: a program names a LOST region. -/
def State.namesLost (s : State) (e : ImageEntry) : Bool :=
  e.regions.any (fun x => (List.range 32).any (fun i => let r := s.region x.1 i
    r.valid && r.lost && r.base == x.2))

/-- The arguments of a call of the fabric service, padded with zeros (Table 11-9). -/
def State.callArgs (s : State) (args length : Nat) : List Byte := s.hostRead args (min length 32) ++ List.replicate (32 - min length 32) 0#8

/-- R346: the entries of image 0xFFFF. -/
def State.fabricRun (s : State) (entry : Nat) (bs : List Byte) (d : Desc) : State :=
  match entry with
  | 1 => s.callOpen bs (some d)
  | 2 => s.callClose (fieldAt bs 0 2) (some d)
  | 3 => s.callQuery (fieldAt bs 0 2) (fieldAt bs 8 8) (some d)
  | _ => s.finish d .DESC_FORMAT 0 0

/-- PROGRAM RUN: the arguments are copied and the entry's sequencers start; `ret` is the program's return word. -/
def execProgramRun (h : Hdr) (image entry args length ret : Nat) (s : State) : Host.Outcome State Fault Refusal :=
  .next (s.descriptor h clsProgram fun t d =>
    if 65536 < length then t.finish d .DESC_FORMAT 0 0
    else if image = 0xFFFF then t.fabricRun entry (t.callArgs args length) d
    else match t.image image with
      | none => t.finish d .IMAGE_ABSENT 0 0
      | some g => match g.entries.find? (fun e => e.entry == entry) with
        | none => t.finish d .DESC_FORMAT 0 0
        | some e =>
          if t.namesLost e then t.finish d .REGION_LOST 0 0
          else if e.starts.any (fun x => (t.seq x.1).st != .idle) then t.finish d .SEQ_BUSY 0 0
          else
            let w := t.write Src.steward {} e.args (t.hostRead args length)
            if w.code ≠ .OK then w.st.finish d w.code 0 0
            else (e.starts.foldl (fun s x => (s.seqControl x.1 .OK).seqGoto x.1 x.2) w.st).finish d .OK ret 0)

/-! ### UNLOAD and REGION_RELEASE -/

/-- A request that is not CLOSED names the image. -/
def State.imageUsed (s : State) (image : Nat) : Bool := s.reqs.any (fun e => e.2.st != .closed && e.2.image == image)

/-- What an unload frees: objects, regions that are not RESIDENT, atomic targets, windows, policies and records. -/
def State.unloaded (s : State) (image : Nat) (g : Image) : State :=
  let s1 := g.objects.foldl (fun s n => s.objFree n) s
  let s2 := ((s1.freeRegions image).freeAtoms image).closeWindows g
  let s3 := (s2.setPolicies image g.layers false).setStats image g.layers false
  { s3 with images := Tab.set s3.images image none }

/-- PROGRAM UNLOAD. -/
def execProgramUnload (h : Hdr) (image : Nat) (s : State) : Host.Outcome State Fault Refusal :=
  .next (s.descriptor h clsProgram fun t d =>
    if image = 0xFFFF then t.finish d .IMAGE_RESERVED 0 0
    else match t.image image with
      | none => t.finish d .IMAGE_ABSENT 0 0
      | some g => if t.imageUsed image then t.finish d .IMAGE_IN_USE 0 0 else (t.unloaded image g).finish d .OK 0 0)

/-- PROGRAM REGION_RELEASE: the RESIDENT region of a core that begins at BASE is freed (R180); one on a die that is not fitted is TARGET_ABSENT (R4). -/
def execRegionRelease (h : Hdr) (die cluster core base : Nat) (s : State) : Host.Outcome State Fault Refusal :=
  .next (s.descriptor h clsProgram fun t d =>
    if 7 < die ∨ 7 < cluster ∨ 7 < core then t.finish d .DESC_FORMAT 0 0
    else if !t.fits die then t.finish d .TARGET_ABSENT 0 0
    else
      let q := coreKey die cluster core
      match (List.range 32).find? (fun i => let r := t.region q i
          r.valid && r.resident && r.base == base) with
      | none => t.finish d .OK 0 0
      | some i => (t.setRegion q i {}).finish d .OK 0 0)

end Machine

end Sys2Proof
end

