-- ==== Sys2Proof/Machine/Views.lean ====
section
/-! DEFINITION. What BAR0 reads as: the read-only registers that report state, the floor plan descriptor, and a read by the rules of R4, R8, R9, R460 and R510. A read is no command of the table; these are the values the manual gives its registers. -/

namespace Sys2Proof.Machine

/-- The lowest set of fields laid out from bit 0 upwards, each a width and a value. -/
def packBits : List (Nat × Nat) → Nat
  | [] => 0
  | (w, v) :: r => v % 2 ^ w + 2 ^ w * packBits r

/-! ### Channels, staging and events (Tables 9-16 to 9-18) -/

def ChanState.code : ChanState → Nat
  | .closed => 0
  | .opened => 1
  | .draining => 2
  | .error => 3

def State.chStatus (s : State) (c : Nat) : Nat :=
  let x := s.chan c
  packBits [(2, x.st.code), (6, 0), (16, x.ringVer), (16, x.descVer), (16, x.abiVer), (8, x.err)]

def State.commitStatus (s : State) : Nat :=
  let st := if s.commit.buffer.isNone then 0 else if s.commit.blocks.isEmpty then 1 else 2
  s.reg (stgReg Reg.COMMIT_STATUS) / 4 * 4 + st

/-- FREE and SHARED_FREE: what channels hold comes from their minimum first (R280). -/
def State.stgState (s : State) : Nat :=
  let least (k : Nat) : Nat := s.fld (stgReg (Reg.STG_MIN + 2 * k)) 0 7
  let held := (List.range 256).foldl (fun a k => a + (s.chan k).buffers) 0
  let taken := (List.range 256).foldl (fun a k => a + max (least k) (s.chan k).buffers) 0
  packBits [(13, 4096 - held), (13, 4096 - taken)]

def State.evStatus (s : State) : Nat := b2n s.ev.enabled + 2 * b2n s.ev.failed

/-! ### Selected engine, core and cluster (Tables 3-21, 5-9 to 5-12, 6-12, 10-11, 14-7) -/

/-- The engine that AE_SEL selects. -/
def State.selEngine (s : State) (d : Nat) : Option Nat :=
  (s.selected d).map (fun q => engineKey q (bitsOf (s.reg (dieReg d Reg.AE_SEL)) 7 2))

def BankState.code : BankState → Nat
  | .empty => 0
  | .programming => 1
  | .ready => 2
  | .active => 3
  | .standby => 4

/-- Free spares of a lane group of a layer. -/
def Bank.sparesFree (y : Bank) (layer group : Nat) : Nat :=
  (List.range 8).countP (fun i => let z := Tab.get y.spares (spareKey layer (8 * group + i)); !z.used && !z.failed)

def State.aeSelState (s : State) (d : Nat) : Nat :=
  match s.selEngine d with
  | none => 0
  | some e =>
    let x := s.engine e
    let y := x.activeBank
    let cov := y.cols.countP (fun c => c.2.st == .covered || c.2.st == .sparing)
    let free := (y.layers.flatMap (fun l => (List.range 4).map (y.sparesFree l.1))).foldl min 8
    packBits [(3, x.a.st.code), (3, x.b.st.code), (1, x.active), (1, 0), (14, x.a.cycles), (14, x.b.cycles), (16, cov), (4, free), (1, 1)]

/-- The lane that CAL_LANE_SEL selects, with its bank. -/
def State.selLane (s : State) (d : Nat) : Option (Nat × Nat × Nat) :=
  let v := s.reg (dieReg d Reg.CAL_LANE_SEL)
  if 528 ≤ bitsOf v 0 10 then none else (s.selEngine d).map (fun e => (e, bitsOf v 10 1, bitsOf v 0 10))

def State.calLaneFit (s : State) (d : Nat) : Nat :=
  match s.selLane d with
  | none => 0
  | some (e, b, l) =>
    let y := s.bank e b
    let x := y.lane l
    let t := (s.dieCal d).lastTemp
    let off := x.retired || (decide (512 ≤ l) && y.refOff.contains (l - 512))
    packBits [(16, encodeInt 16 (D64.round (calAt x.gain t))), (16, encodeInt 16 (D64.round (calAt x.ofs t))), (16, x.resid), (3, x.excess),
      (1, b2n (decide (x.lastClose + 4 * s.calInterval d * tickSecond < s.time.tick))), (1, b2n off)]

def State.calLaneTrim (s : State) (d : Nat) : Nat :=
  match s.selLane d with
  | none => 0
  | some (e, b, l) =>
    let y := s.bank e b
    let x := y.lane l
    packBits [(40, x.cap), (2, x.tap), (6, if x.half = 0 then y.common.bias0 else y.common.bias1), (5, y.common.ladder)]

def State.calStatus (s : State) (d : Nat) : Nat :=
  let c := s.dieCal d
  let bad := s.engines.any (fun e => e.1 / 288 == d && ((s.bank e.1 0).common.degraded || (s.bank e.1 1).common.degraded))
  packBits [(2, c.run), (8, c.pending), (8, c.last), (1, b2n bad), (1, b2n c.saveFailed)]

def State.spPwrState (s : State) (d : Nat) : Nat :=
  match s.selected d with
  | none => 0
  | some q => packBits [(16, Tab.get s.live.pwrOff q), (16, Tab.get s.mem.poweringUp q)]

/-- A cluster's queue; a flush takes effect at once in this model, so none waits. -/
def State.wqSelState (s : State) (d : Nat) : Nat :=
  match s.selected d with
  | none => 0
  | some q =>
    let x : Queue := Tab.get s.wq (q / 8)
    let occ := min 32 ((x.pkts.map (·.flits.length)).foldl (· + ·) 0 / 72)
    packBits [(6, occ), (1, 0), (9, (List.range 9).foldl (fun a w => a + 2 ^ w * b2n (x.held.any (fun h => h.writer == w))) 0)]

def SeqState.code : SeqState → Nat
  | .idle => 0
  | .running => 1
  | .stalled => 2
  | .faulted => 3

def Stall.code : Stall → Nat
  | .none => 0
  | .pop => 1
  | .wait => 2
  | .doneWait => 3
  | .fence => 4
  | .opQueue => 5
  | .push => 6

def State.seqSelState (s : State) (d : Nat) : Nat :=
  match s.selected d with
  | none => 0
  | some q =>
    let x := s.seq q
    packBits [(2, x.st.code), (3, x.cause.code), (12, x.pc), (16, if x.st = .faulted then statusNumber x.fault.status else 0)]

def State.seScanState (s : State) (d : Nat) : Nat :=
  if (s.selected d).isNone then 0 else let x := s.scan d; packBits [(2, x.st), (2, x.mode), (4, x.position)]

def State.seSelFaults (s : State) (d : Nat) : Nat :=
  match s.selected d with
  | none => 0
  | some q => min 0xFFFF (s.faultCount (q / 8))

/-! ### M-dies (Tables 7-6, 8-12, 10-13) -/

/-- Entries of M-die `m` in a state; those never opened are CLOSED. -/
def State.reqCount (s : State) (m : Nat) (st : ReqState) : Nat :=
  let n := s.reqs.countP (fun e => e.1 % 4 == m && e.2.st == st)
  if st = .closed then 262144 - s.reqs.countP (fun e => e.1 % 4 == m && e.2.st != .closed) else n

def State.syncSelState (s : State) (m : Nat) : Nat :=
  let x := s.obj (1024 * m + bitsOf (s.reg (memReg m Reg.SYNC_SEL)) 0 10)
  packBits [(32, x.val), (1, b2n x.allocated), (10, x.waiters.length)]

def State.syncWaiters (s : State) (m : Nat) : Nat :=
  (s.sync.map (fun e => if objMdie e.1 = m then e.2.waiters.length else 0)).foldl (· + ·) 0

/-! ### Ports, fabric and rings (Tables 11-13, 11-15, 12-6) -/

def PortSt.code : PortSt → Nat
  | .disabled => 0
  | .down => 1
  | .training => 2
  | .settling => 3
  | .up => 4
  | .fault => 5

def State.gpStatus (s : State) (p : Nat) : Nat :=
  let x := s.port p
  packBits [(3, x.st.code), (2, x.lanes), (16, x.ver), (16, x.nid), (1, b2n x.nidValid), (4, x.nport), (2, x.nkind), (4, x.cause)]

def State.fabStatus (s : State) : Nat :=
  packBits [(2, s.fab.enum), (1, b2n s.fab.ringClosed), (1, b2n s.fab.exhausted), (16, s.fab.nextId), (11, s.fab.wins.countP (fun e => e.2.st != .closed))]

def State.topoLive (s : State) (d : Nat) : Nat :=
  let r := s.ring d
  packBits [(7, s.liveLine d), (1, b2n r.cut.isSome), (7, r.cutB.getD 0x7F), (2, r.state), (7, (r.sub.map (·.1)).getD 0x7F), (16, (r.sub.map (·.2)).getD 0), (16, r.seq)]

/-! ### Security (Table 17-7) -/

def State.hssState (s : State) : Nat := packBits [(36, s.sec.leaves), (1, b2n (decide (hssLeaves ≤ s.sec.leaves))), (1, b2n s.sec.nextReady)]
def State.keyState (s : State) : Nat := (List.range 8).foldl (fun a n => a + 2 ^ n * b2n (s.keyUsable n)) 0 + 2 ^ 8 * s.sec.revoked

/-! ### Registers of a block -/

/-- A read-only register of a compute die that reports state. -/
def State.dieView (s : State) (d o : Nat) : Option Nat :=
  if o = Reg.AE_SEL_STATE then some (s.aeSelState d)
  else if o = Reg.AE_SEL_CONV then some (((s.selEngine d).map (fun e => (s.engine e).conv)).getD 0)
  else if o = Reg.AE_SEL_CLIP then some (((s.selEngine d).map (fun e => (s.engine e).clip)).getD 0)
  else if o = Reg.CAL_EPOCH then some (s.epoch % 2 ^ 16)
  else if o = Reg.CAL_STATUS then some (s.calStatus d)
  else if o = Reg.CAL_LAST_TEMP then some (encodeInt 16 (s.dieCal d).lastTemp)
  else if o = Reg.CAL_LAST_RUN_TICK then some (s.dieCal d).runTick
  else if o = Reg.CAL_LAST_MARK_TICK then some (s.dieCal d).markTick
  else if o = Reg.CAL_LAST_MARK_HOST then some (s.dieCal d).markHost
  else if o = Reg.CAL_SEL_COUNT then some (if (s.selLane d).isNone then 0 else ((s.selEngine d).map (fun e => (s.engine e).calCount)).getD 0)
  else if o = Reg.CAL_LANE_FIT then some (s.calLaneFit d)
  else if o = Reg.CAL_LANE_TRIM then some (s.calLaneTrim d)
  else if o = Reg.SP_PWR_STATE then some (s.spPwrState d)
  else if o = Reg.SP_SEL_WAIT then some (((s.selected d).map (fun q => Tab.get s.mem.coreWait q)).getD 0)
  else if o = Reg.WQ_SEL_STATE then some (s.wqSelState d)
  else if o = Reg.SEQ_SEL_STATE then some (s.seqSelState d)
  else if o = Reg.SE_SCAN_STATE then some (s.seScanState d)
  else if o = Reg.SE_SEL_FAULTS then some (s.seSelFaults d)
  else none

def State.mdieView (s : State) (m o : Nat) : Option Nat :=
  if o = Reg.KV_SLOT_FRAMES then some ((s.pool m).size % 2 ^ 20)
  else if o = Reg.KV_POOL_STATE then some (packBits [(24, s.slotsFree m), (24, (s.pool m).held.length)])
  else if o = Reg.KV_PT_CELLS then some (s.cellsUsed m)
  else if o = Reg.REQ_COUNT_A then some (packBits [(19, s.reqCount m .opened), (19, s.reqCount m .active), (19, s.reqCount m .ember)])
  else if o = Reg.REQ_COUNT_B then some (packBits [(19, s.reqCount m .closed), (19, s.reqCount m .peat), (19, s.reqCount m .expired)])
  else if o = Reg.SYNC_SEL_STATE then some (s.syncSelState m)
  else if o = Reg.SYNC_WAITERS then some (s.syncWaiters m)
  else none

def State.portView (s : State) (p o : Nat) : Option Nat :=
  if o = Reg.GP_STATUS then some (s.gpStatus p)
  else if o = Reg.GP_NEIGHBOUR then some (s.port p).serial
  else if p ≠ 0 then none
  else if o = Reg.FAB_STATUS then some s.fabStatus
  else if o = Reg.TOPO_LIVE0 then some (s.topoLive 0)
  else if o = Reg.TOPO_LIVE1 then some (s.topoLive 1)
  else if o = Reg.TOPO_LIVE2 then some (s.topoLive 2)
  else none

def State.hkView (s : State) (o : Nat) : Option Nat :=
  if o = Reg.HK_SEL_READING then some s.hkReadingReg
  else if o = Reg.HK_SEL_COEF then some s.hkCoefReg
  else if o = Reg.HK_SYSCAL_STATUS then some s.sysCalReg
  else if o = Reg.HK_URG_RESULT then some s.urgReg
  else if o = Reg.HK_TDAC_RESULT then some s.tdacReg
  else if o = Reg.HK_PART_STATE then some s.partReg
  else none

def State.securityView (s : State) (o : Nat) : Option Nat :=
  if o = Reg.BOOT_STATUS then some s.bootStatus
  else if o = Reg.BOOT_DURATION then some s.boot.duration
  else if o = Reg.FW_STATUS then some s.fwStatus
  else if o = Reg.RESET_STATUS then some s.fw.lastReset
  else if o = Reg.RECOVERY_STATUS then some s.boot.recovery
  else if o = Reg.SEC_COUNTERS then some s.secCounters
  else if o = Reg.SEC_HSS_STATE then some s.hssState
  else if o = Reg.SEC_KEY_STATE then some s.keyState
  else if o = Reg.SEC_DEVICE_KEY_ID then some s.sec.deviceId
  else none

def State.identityView (s : State) (o : Nat) : Option Nat :=
  if o = Reg.ID then some s.idReg
  else if o = Reg.VARIANT then some s.variantReg
  else if o = Reg.SERIAL then some s.part.serial
  else if o = Reg.FW_VERSION then some s.fw.live.version
  else if o = Reg.MODULE_ID then some s.moduleReg
  else none

/-- What a read-only register reports, where it is not a stored value. -/
def State.view (s : State) (b : Blk) (o : Nat) : Option Nat :=
  match b with
  | .identity => s.identityView o
  | .channel c => if o = Reg.CH_STATUS then some (s.chStatus c) else none
  | .staging => if o = Reg.COMMIT_STATUS then some s.commitStatus else if o = Reg.STG_STATE then some s.stgState else none
  | .event => if o = Reg.EV_STATUS then some s.evStatus else none
  | .hk => s.hkView o
  | .power => if o = Reg.PWR_STATUS then some s.pwrStatusReg else if o = Reg.PWR_LAST_SHUTDOWN then some s.lastShutdownReg else none
  | .security => s.securityView o
  | .port p => s.portView p o
  | .mdie m => s.mdieView m o
  | .die d => s.dieView d o

/-- R460: what is readable before READY; in HALTED also the recovery registers (R463). -/
def State.readable (s : State) (a : Nat) : Bool :=
  s.ready || decide (a < 0x1000) || a == secReg Reg.BOOT_STATUS || (s.boot.phase == 10 && (a == secReg Reg.RECOVERY_ADDR || a == secReg Reg.RECOVERY_STATUS))

/-- The register that starts at offset `a`, as BAR0 reads it (R4, R8, R9, R460). -/
def State.regRead (s : State) (a : Nat) : Nat :=
  match blockAt a, regAt a with
  | some (b, o), some (r, _) =>
    if s.absentBlock a then 0
    else match r.acc with
      | .wo => 0
      | .st => if s.ready then s.stagedReg a else Sys2Proof.resetOf a
      | .rw => if s.readable a then s.reg a else Sys2Proof.resetOf a
      | .ro => if s.readable a then (s.view b o).getD (s.reg a) else Sys2Proof.resetOf a
  | _, _ => 0

/-! ### The floor plan descriptor (R467, R468) -/

/-- The mesh hop count of two positions of a die (R167). -/
def meshHops (p q : Nat) : Nat := (p / 3 - q / 3) + (q / 3 - p / 3) + (p % 3 - q % 3) + (q % 3 - p % 3) + 2

/-- Bridges between two compute dies: dies 0 to 3 and 4 to 7 lie in two rows (Table 6-3); with fewer dies fitted the route goes round by the memory-side dies (R168). -/
def dieLatency (v : Variant) (c d : Nat) : Nat :=
  let row := (c / 4 - d / 4) + (d / 4 - c / 4)
  let col := (c % 4 - d % 4) + (d % 4 - c % 4)
  match v with
  | .tx8 => 80 + 12 * (row + col)
  | _ => if col = 0 then 92 else if row = 0 then 116 else 128

/-- Distance class and latency between two logical clusters, as the descriptor gives them; a cluster's entry for itself is that of its cores (R166 to R168). -/
def State.clusterPath (s : State) (x y : Nat) : Nat :=
  match s.posOf (x / 8) (x % 8), s.posOf (y / 8) (y % 8) with
  | some p, some q =>
    if !s.fits (x / 8) || !s.fits (y / 8) then 0xFFFF
    else if x = y then 2 + 8 * 14
    else if x / 8 = y / 8 then 3 + 8 * (24 + 2 * meshHops p q)
    else 4 + 8 * dieLatency s.part.variant (x / 8) (y / 8)
  | _, _ => 0xFFFF

/-- Table 6-4: hops from a compute die to a memory-side die. -/
def mdieHops (d m : Nat) : Nat := if m = d / 2 then 1 else if m + d / 2 = 3 then 3 else 2

def PosState.code : PosState → Nat
  | .active => 1
  | .spare => 2
  | .programming => 3
  | .retired => 4
  | .fusedOff => 5

/-- The 8 bytes of a position. -/
def State.posEntry (s : State) (d p : Nat) : List Byte :=
  let x := s.position d p
  if !s.fits d then leBytes 1 0 ++ leBytes 1 0xFF ++ leBytes 6 0
  else leBytes 1 x.st.code ++ leBytes 1 (if x.logical < 8 then x.logical else 0xFF)
    ++ leBytes 1 (b2n x.resetting + 2 * b2n x.underScan + 4 * b2n x.covered + 8 * b2n x.fwOld) ++ leBytes 5 0

/-- The logical cluster of a die that is covered. -/
def State.coveredOf (s : State) (d : Nat) : Option Nat := (List.range 8).find? (fun k => s.covered (clusterKey d k))

/-- The 8 bytes of a compute die. -/
def State.dieEntry (s : State) (d : Nat) : List Byte :=
  if !s.fits d then leBytes 1 0 ++ leBytes 2 0xFFFF ++ leBytes 5 0
  else
    let st := if s.dieDown d then 3 else if s.fw.resets.any (fun r => r.running && r.scope == 2 && r.die == d) then 2 else 1
    leBytes 1 st ++ leBytes 1 ((s.spareOf d).getD 0xFF) ++ leBytes 1 ((s.coveredOf d).getD 0xFF) ++ leBytes 5 0

/-- Positions of the fitted dies in a state. -/
def State.posCount (s : State) (st : PosState) : Nat := (s.dies.map (fun d => (List.range 9).countP (fun p => (s.position d p).st == st))).foldl (· + ·) 0

/-- The descriptor of Table 16-5, up to its last listed area. -/
def State.floorPlan (s : State) : List Byte :=
  leBytes 4 Config.planVersion ++ leBytes 4 s.plan ++ leBytes 1 (s.dies.foldl (fun a d => a + 2 ^ d) 0) ++ leBytes 1 (s.posCount .active) ++ leBytes 1 (s.posCount .spare)
    ++ leBytes 1 (s.dies.countP (fun d => (s.coveredOf d).isSome)) ++ leBytes 52 0
    ++ (List.range 8).flatMap s.dieEntry ++ leBytes 128 0
    ++ (List.range 72).flatMap (fun i => s.posEntry (i / 9) (i % 9)) ++ leBytes 192 0
    ++ (List.range 4096).flatMap (fun i => leBytes 2 (s.clusterPath (i / 64) (i % 64)))
    ++ (List.range 32).flatMap (fun i => leBytes 2 (if s.fits (i / 4) then 5 + 8 * (90 + 20 * mdieHops (i / 4) (i % 4)) else 0xFFFF))

/-! ### Reads (R10, R510) -/

/-- One byte of BAR0. -/
def State.barByte (s : State) (a : Nat) : Nat :=
  if 0xF0000 ≤ a ∧ a < 0x100000 then ((s.floorPlan.getD (a - 0xF0000) 0#8)).toNat
  else match regAt a with
    | some (_, start) => s.regRead start / 256 ^ (a - start) % 256
    | none => 0

/-- An access that is 4 or 8 bytes wide and naturally aligned (R10). -/
def barAligned (off width : Nat) : Bool := (width == 4 || width == 8) && off % width == 0

/-- The value of a read; one that is not performed gives 0xFFFF_FFFF for each 4 bytes. -/
def State.bar0Read (s : State) (off width : Nat) : Nat :=
  if barAligned off width then (List.range width).foldl (fun a i => a + 256 ^ i * s.barByte (off + i)) 0 else 2 ^ (8 * ((width + 3) / 4 * 4)) - 1

end Sys2Proof.Machine
end

