-- ==== Sys2Proof/Machine/Bar0.lean ====
section
/-! DEFINITION. BAR0 writes (R4, R8 to R10, R263, R284, R297, R510, R512). -/

namespace Sys2Proof

/-! ### What an access covers (R510) -/

/-- The registers that an access covers, each once, in ascending order. -/
def coveredRegs (off width : Nat) : List (RegRow × Nat) :=
  ((List.range (width / 2)).filterMap (fun i => regAt (off + 2 * i))).eraseDups

/-- The value `old` of a register at `start`, with the bytes that a write of `v` at `off` covers in place of its own. -/
def overlay (old start bytes off width v : Nat) : Nat :=
  if start < off then old % 256 ^ (off - start) + 256 ^ (off - start) * (v % 256 ^ width)
  else
    let n := min bytes (off + width - start)
    old / 256 ^ n * 256 ^ n + v / 256 ^ (start - off) % 256 ^ n

def RegRow.past (r : RegRow) (old start off width v : Nat) : Nat := overlay old start (r.width / 8) off width v

/-- The part of a write that lands in a register, as a value from its bit 0. -/
def RegRow.part (r : RegRow) (start off width v : Nat) : Nat := r.past 0 start off width v

/-- The access covers a writable bit of the register. -/
def RegRow.touched (r : RegRow) (start off width : Nat) : Bool := r.part start off width (2 ^ 64 - 1) &&& r.mask != 0

namespace Machine

/-! ### Registers that take effect at once (R8, R263, R297) -/

/-- A channel register or an event register is written where it may not be (R263, R297). -/
def State.locked (s : State) (a : Nat) : Option (List Nat) :=
  match blockAt a with
  | some (.channel c, _) => if (s.chan c).st = .closed then none else some [c]
  | some (.event, _) => if s.ev.enabled then some [256] else none
  | _ => none

/-- An RW register. -/
def State.writeRw (s : State) (r : RegRow) (start off width v : Nat) : State :=
  match s.locked start with
  | some args => s.raise .CHANNEL_REG_LOCKED Src.host args
  | none => s.setReg start (r.past (s.reg start) start off width v &&& r.mask)

/-! ### Actions (R8) -/

/-- The state that an action leaves. -/
def State.after (s : State) (o : Host.Outcome State Fault Refusal) : State :=
  match o with
  | .next t => t
  | _ => s

/-- Actions one after another, each on the state that the one before has left. -/
def State.acts (s : State) : List (Bool × (State → Host.Outcome State Fault Refusal)) → State
  | [] => s
  | x :: r => State.acts (if x.1 then s.after (x.2 s) else s) r

/-- CH_CTRL: the bit that the channel's state answers to. The doorbell line is read from host memory as it stands. -/
def State.chCtrl (s : State) (c v : Nat) : State :=
  match (s.chan c).st with
  | .closed => s.acts [(bitOf v 0, execChCtrlOpen c true [])]
  | .opened => s.acts [(bitOf v 1, execChCtrlClose c)]
  | .error => s.acts [(bitOf v 2, execChCtrlReset c)]
  | .draining => s

/-- HK_SYSCAL: EXT in [2:0], OP in [5:4]. -/
def State.sysCal (s : State) (v : Nat) : State :=
  let e := bitsOf v 0 3
  match bitsOf v 4 2 with
  | 1 => s.after (execSyscalZero e s)
  | 2 => s.after (execSyscalFull e s)
  | 3 => s.after (execSyscalSave e s)
  | _ => s

/-- HK_URG_CTRL: how far the scan stands in its slot is open, so whether the conversion fits is a free value (log 2). -/
def State.urgent (s : State) (v : Nat) : State :=
  let x := s.freeBelow 1000
  x.2.after (execHkUrgCtrl v false x.1 x.2)

/-- A WO register of the housekeeping block. -/
def State.hkAction (s : State) (o v : Nat) : State :=
  if o = Reg.HK_SYSCAL then s.sysCal v
  else if o = Reg.HK_URG_CTRL then s.urgent v
  else s.acts [(o == Reg.HK_TDAC_CTRL, execHkTdacGo v), (o == Reg.HK_PART_RELEASE, execHkPartRelease v), (o == Reg.HK_CTR_CLEAR, execHkCtrClear v)]

/-- A WO register of a port's block, with Table 18-9 in G0's. -/
def State.portAction (s : State) (p o v : Nat) : State :=
  s.acts [(o == Reg.GP_CTRL && bitOf v 0, execRetrain p), (o == Reg.GP_CTR_CLEAR, execGpCtrClear p v),
    (p == 0 && o == Reg.FAB_CTRL && bitOf v 0, execEnumStart), (p == 0 && o == Reg.FAB_CTRL && bitOf v 1, execClearId),
    (p == 0 && o == Reg.FAB_CTR_CLEAR, execFabCtrClear v), (p == 0 && o == Reg.TOPO_CTR_CLEAR, execTopoCtrClear v)]

/-- A WO register of an M-die's block, with Table 18-11 in M0's. -/
def State.mdieAction (s : State) (m o v : Nat) : State :=
  s.acts [(o == Reg.MEM_CTR_CLEAR, execMemCtrClear m v), (o == Reg.KV_CTR_CLEAR, execKvCtrClear m v), (o == Reg.SERVE_CTR_CLEAR, execServeCtrClear m v),
    (o == Reg.SYNC_CTR_CLEAR, execSyncCtrClear m v), (m == 0 && o == Reg.WT_CTR_CLEAR, execWtCtrClear v)]

/-- A WO register of a compute die's block. -/
def State.dieAction (s : State) (d o v : Nat) : State :=
  s.acts [(o == Reg.AE_CTR_CLEAR, execAeCtrClear d v), (o == Reg.DC_CTR_CLEAR, execDcCtrClear d v), (o == Reg.CAL_REQUEST, execCalRequest d v),
    (o == Reg.CAL_CTR_CLEAR, execCalCtrClear d v), (o == Reg.SP_CTR_CLEAR, execSpCtrClear d v), (o == Reg.ATT_CTR_CLEAR, execAttCtrClear d v),
    (o == Reg.WQ_CTR_CLEAR, execWqCtrClear d v), (o == Reg.SE_CTR_CLEAR, execSeCtrClear d v)]

/-- The action of a WO register, for a value written to it. RECOVERY_CTRL takes an object from the host, and its GO is the command RECOVERY_GO alone. -/
def State.action (s : State) (b : Blk) (o v : Nat) : State :=
  match b with
  | .channel c => if o = Reg.CH_CTRL then s.chCtrl c v else s
  | .event => s.acts [(o == Reg.EV_CTRL && bitOf v 0, execEvCtrlEnable), (o == Reg.EV_CTRL && bitOf v 1, execEvCtrlDisable), (o == Reg.EV_CTR_CLEAR, execEvCtrClear v)]
  | .hk => s.hkAction o v
  | .power => s.acts [(o == Reg.PWR_CTR_CLEAR, execPwrCtrClear v)]
  | .security => s.acts [(o == Reg.BOOT_CTR_CLEAR, execBootCtrClear v), (o == Reg.SEC_CTR_CLEAR, execSecCtrClear v)]
  | .port p => s.portAction p o v
  | .mdie m => s.mdieAction m o v
  | .die d => s.dieAction d o v
  | .identity => s
  | .staging => s

/-! ### The write -/

/-- One covered register under its access code. -/
def State.writeReg (s : State) (off width v : Nat) (x : RegRow × Nat) : State :=
  let r := x.1
  let a := x.2
  if s.absentBlock a then s
  else match r.acc with
    | .ro => s
    | .rw => if r.touched a off width then s.writeRw r a off width v else s
    | .st => s.stageReg a r.mask (r.past (s.stagedReg a) a off width v)
    | .wo => match blockAt a with
      | some (b, o) => s.action b o (r.part a off width v)
      | none => s

/-- The access covers an ST field of a fitted block (R4, R284). -/
def State.coversSt (s : State) (off width : Nat) : Bool :=
  (coveredRegs off width).any (fun x => x.1.acc == .st && !s.absentBlock x.2 && x.1.touched x.2 off width)

/-- R10: an access that is not performed. -/
def State.barError (s : State) (off width : Nat) : State := s.raise .BAR_ACCESS_ERROR Src.host [off, width]

/-- BAR0_WRITE: every covered register in ascending order; STAGE_SEQ counts once for an access that covers an ST field. -/
def State.bar0Write (s : State) (off width v : Nat) : State :=
  let t := (coveredRegs off width).foldl (fun s x => s.writeReg off width v x) s
  if s.coversSt off width then t.stageTick else t

def execBar0Write (off width value : Nat) (s : State) : Host.Outcome State Fault Refusal :=
  .next (if barAligned off width then s.bar0Write off width value else s.barError off width)

/-- BAR0_INVALID_ACCESS: an access of another width or alignment, read or write, is not performed. -/
def execBar0InvalidAccess (_write : Bool) (off width : Nat) (s : State) : Host.Outcome State Fault Refusal :=
  .next (if barAligned off width then s else s.barError off width)

end Machine

end Sys2Proof
end

