-- ==== Sys2Proof/Machine/Dispatch.lean ====
section
/-! DEFINITION. One arm per command: what it does to everything but the queue. -/

namespace Sys2Proof.Machine

def exec (i : Instr) (s : State) : Host.Outcome State Fault Refusal :=
  match i with
  | .bar0Write off width value => Sys2Proof.Machine.execBar0Write off width value s
  | .bar0InvalidAccess write off width => Sys2Proof.Machine.execBar0InvalidAccess write off width s
  | .aeCtrClear d v => Sys2Proof.Machine.execAeCtrClear d v s
  | .dcCtrClear d v => Sys2Proof.Machine.execDcCtrClear d v s
  | .calCtrClear d v => Sys2Proof.Machine.execCalCtrClear d v s
  | .calRequest d v => Sys2Proof.Machine.execCalRequest d v s
  | .spCtrClear d v => Sys2Proof.Machine.execSpCtrClear d v s
  | .memCtrClear m v => Sys2Proof.Machine.execMemCtrClear m v s
  | .kvCtrClear m v => Sys2Proof.Machine.execKvCtrClear m v s
  | .attCtrClear d v => Sys2Proof.Machine.execAttCtrClear d v s
  | .serveCtrClear m v => Sys2Proof.Machine.execServeCtrClear m v s
  | .wqCtrClear d v => Sys2Proof.Machine.execWqCtrClear d v s
  | .syncCtrClear m v => Sys2Proof.Machine.execSyncCtrClear m v s
  | .gpCtrClear p v => Sys2Proof.Machine.execGpCtrClear p v s
  | .fabCtrClear v => Sys2Proof.Machine.execFabCtrClear v s
  | .topoCtrClear v => Sys2Proof.Machine.execTopoCtrClear v s
  | .wtCtrClear v => Sys2Proof.Machine.execWtCtrClear v s
  | .seCtrClear d v => Sys2Proof.Machine.execSeCtrClear d v s
  | .hkCtrClear v => Sys2Proof.Machine.execHkCtrClear v s
  | .pwrCtrClear v => Sys2Proof.Machine.execPwrCtrClear v s
  | .bootCtrClear v => Sys2Proof.Machine.execBootCtrClear v s
  | .secCtrClear v => Sys2Proof.Machine.execSecCtrClear v s
  | .evCtrClear v => Sys2Proof.Machine.execEvCtrClear v s
  | .chCtrlOpen c dbOk host => Sys2Proof.Machine.execChCtrlOpen c dbOk host s
  | .chCtrlClose c => Sys2Proof.Machine.execChCtrlClose c s
  | .channelDrainDone c => Sys2Proof.Machine.execChannelDrainDone c s
  | .chCtrlReset c => Sys2Proof.Machine.execChCtrlReset c s
  | .channelError c => Sys2Proof.Machine.execChannelError c s
  | .evCtrlEnable => Sys2Proof.Machine.execEvCtrlEnable s
  | .evCtrlDisable => Sys2Proof.Machine.execEvCtrlDisable s
  | .doorbellInvalidation line host => Sys2Proof.Machine.execDoorbellInvalidation line host s
  | .dbPoll host => Sys2Proof.Machine.execDbPoll host s
  | .coalTime c => Sys2Proof.Machine.execCoalTime c s
  | .requestOpen h params tokens count => Sys2Proof.Machine.execRequestOpen h params tokens count s
  | .requestAppend h handle keep tokens count => Sys2Proof.Machine.execRequestAppend h handle keep tokens count s
  | .requestDraft h handle forLength nodes tree => Sys2Proof.Machine.execRequestDraft h handle forLength nodes tree s
  | .requestPause h handle toPeat target ttl hold => Sys2Proof.Machine.execRequestPause h handle toPeat target ttl hold s
  | .requestResume h handle keepPeat => Sys2Proof.Machine.execRequestResume h handle keepPeat s
  | .requestRenew h handle ttl => Sys2Proof.Machine.execRequestRenew h handle ttl s
  | .requestRewind h handle position token valid => Sys2Proof.Machine.execRequestRewind h handle position token valid s
  | .requestMigrate h handle => Sys2Proof.Machine.execRequestMigrate h handle s
  | .requestClose h handle => Sys2Proof.Machine.execRequestClose h handle s
  | .requestQuery h handle buffer => Sys2Proof.Machine.execRequestQuery h handle buffer s
  | .programLoad h image source length img => Sys2Proof.Machine.execProgramLoad h image source length img s
  | .programRun h image entry args length ret => Sys2Proof.Machine.execProgramRun h image entry args length ret s
  | .programUnload h image => Sys2Proof.Machine.execProgramUnload h image s
  | .regionRelease h die cluster core base => Sys2Proof.Machine.execRegionRelease h die cluster core base s
  | .dmaCopy h c => Sys2Proof.Machine.execDmaCopy h c s
  | .adapterInstall h slot source length home regions => Sys2Proof.Machine.execAdapterInstall h slot source length home regions s
  | .adapterRemove h slot => Sys2Proof.Machine.execAdapterRemove h slot s
  | .adapterQuery h slot buffer => Sys2Proof.Machine.execAdapterQuery h slot buffer s
  | .configStage h list count => Sys2Proof.Machine.execConfigStage h list count s
  | .configCheck h seq => Sys2Proof.Machine.execConfigCheck h seq s
  | .configCommit h seq => Sys2Proof.Machine.execConfigCommit h seq s
  | .configDiscard h => Sys2Proof.Machine.execConfigDiscard h s
  | .emptyStepBoundary => Sys2Proof.Machine.execEmptyStepBoundary s
  | .blockSafePointSwitch block => Sys2Proof.Machine.execBlockSafePointSwitch block s
  | .timeMark h hostTime stewardChanged => Sys2Proof.Machine.execTimeMark h hostTime stewardChanged s
  | .eventMask h mask severity => Sys2Proof.Machine.execEventMask h mask severity s
  | .eventFlush h => Sys2Proof.Machine.execEventFlush h s
  | .maintCalRequest h mask => Sys2Proof.Machine.execMaintCalRequest h mask s
  | .layerStats h image first count buffer => Sys2Proof.Machine.execLayerStats h image first count buffer s
  | .ashList h first count buffer => Sys2Proof.Machine.execAshList h first count buffer s
  | .eventCatalogue h buffer length => Sys2Proof.Machine.execEventCatalogue h buffer length s
  | .partitionReset h scope die cluster force => Sys2Proof.Machine.execPartitionReset h scope die cluster force s
  | .fwStage h space receive forward last source length far b sig stewardSig chunks => Sys2Proof.Machine.execFwStage h space receive forward last source length far b sig stewardSig chunks s
  | .fwActivate h => Sys2Proof.Machine.execFwActivate h s
  | .fwQuery h buffer => Sys2Proof.Machine.execFwQuery h buffer s
  | .identity h buffer => Sys2Proof.Machine.execIdentity h buffer s
  | .attest h buffer nonce => Sys2Proof.Machine.execAttest h buffer nonce s
  | .keyEnroll h source length sig => Sys2Proof.Machine.execKeyEnroll h source length sig s
  | .rollbackAdvance h counter => Sys2Proof.Machine.execRollbackAdvance h counter s
  | .weightManifest h slot space source length far engines sig => Sys2Proof.Machine.execWeightManifest h slot space source length far engines sig s
  | .weightKey h slot source length key => Sys2Proof.Machine.execWeightKey h slot source length key s
  | .weightShard h slot space restore repair shard source far => Sys2Proof.Machine.execWeightShard h slot space restore repair shard source far s
  | .shardCheckDone tagOk plain => Sys2Proof.Machine.execShardCheckDone tagOk plain s
  | .weightChain h slot pred succ => Sys2Proof.Machine.execWeightChain h slot pred succ s
  | .weightCommit h slot group => Sys2Proof.Machine.execWeightCommit h slot group s
  | .weightRemove h slot => Sys2Proof.Machine.execWeightRemove h slot s
  | .weightCheck h slot shard => Sys2Proof.Machine.execWeightCheck h slot shard s
  | .weightQuery h slot buffer => Sys2Proof.Machine.execWeightQuery h slot buffer s
  | .weightAbort h slot => Sys2Proof.Machine.execWeightAbort h slot s
  | .groupCommitTimeout => Sys2Proof.Machine.execGroupCommitTimeout s
  | .scan h die cluster mode => Sys2Proof.Machine.execScan h die cluster mode s
  | .fleetLoad h slot img sig => Sys2Proof.Machine.execFleetLoad h slot img sig s
  | .fleetSet h slot enable => Sys2Proof.Machine.execFleetSet h slot enable s
  | .fleetRemove h slot => Sys2Proof.Machine.execFleetRemove h slot s
  | .inject h q n layer lane offset steps => Sys2Proof.Machine.execInject h q n layer lane offset steps s
  | .testQuery h die cluster buffer => Sys2Proof.Machine.execTestQuery h die cluster buffer s
  | .windowOpen via args => Sys2Proof.Machine.execWindowOpen via args s
  | .windowClose via n => Sys2Proof.Machine.execWindowClose via n s
  | .windowDrained n => Sys2Proof.Machine.execWindowDrained n s
  | .windowQuery via n buffer => Sys2Proof.Machine.execWindowQuery via n buffer s
  | .stepBoundary slices => Sys2Proof.Machine.execStepBoundary slices s
  | .stepCommit drafts => Sys2Proof.Machine.execStepCommit drafts s
  | .stewardHeartbeat => Sys2Proof.Machine.execStewardHeartbeat s
  | .stewardTimeout => Sys2Proof.Machine.execStewardTimeout s
  | .stewardCounterSync => Sys2Proof.Machine.execStewardCounterSync s
  | .eventArrival idx => Sys2Proof.Machine.execEventArrival idx s
  | .emberHold idx => Sys2Proof.Machine.execEmberHold idx s
  | .peatMoveDone idx => Sys2Proof.Machine.execPeatMoveDone idx s
  | .peatMoveFailed idx status => Sys2Proof.Machine.execPeatMoveFailed idx status s
  | .peatExpiryWarning idx => Sys2Proof.Machine.execPeatExpiryWarning idx s
  | .requestExpired idx => Sys2Proof.Machine.execRequestExpired idx s
  | .resumptionChecked idx readStatus image => Sys2Proof.Machine.execResumptionChecked idx readStatus image s
  | .nop q f => Sys2Proof.Machine.execNop q f s
  | .halt q f => Sys2Proof.Machine.execHalt q f s
  | .seti q f => Sys2Proof.Machine.execSeti q f s
  | .addi q f => Sys2Proof.Machine.execAddi q f s
  | .alu q f => Sys2Proof.Machine.execAlu q f s
  | .ld q f => Sys2Proof.Machine.execLd q f s
  | .st q f => Sys2Proof.Machine.execSt q f s
  | .jump q f => Sys2Proof.Machine.execJump q f s
  | .branch q f => Sys2Proof.Machine.execBranch q f s
  | .jumpr q f => Sys2Proof.Machine.execJumpr q f s
  | .loop q f => Sys2Proof.Machine.execLoop q f s
  | .pop q f => Sys2Proof.Machine.execPop q f s
  | .pbld q f => Sys2Proof.Machine.execPbld q f s
  | .push w => Sys2Proof.Machine.execPush w s
  | .arrayMv q f => Sys2Proof.Machine.execArrayMv q f s
  | .arrayRead q f => Sys2Proof.Machine.execArrayRead q f s
  | .dMv q f => Sys2Proof.Machine.execDMv q f s
  | .dVec q f => Sys2Proof.Machine.execDVec q f s
  | .psumAdd q f => Sys2Proof.Machine.execPsumAdd q f s
  | .kvAppend q f => Sys2Proof.Machine.execKvAppend q f s
  | .attWalk q f => Sys2Proof.Machine.execAttWalk q f s
  | .copy q f => Sys2Proof.Machine.execCopy q f s
  | .atomicAdd q f => Sys2Proof.Machine.execAtomicAdd q f s
  | .atomicClear q f => Sys2Proof.Machine.execAtomicClear q f s
  | .post q f => Sys2Proof.Machine.execPost q f s
  | .wait q f => Sys2Proof.Machine.execWait q f s
  | .syncSet q f => Sys2Proof.Machine.execSyncSet q f s
  | .doneWait q f => Sys2Proof.Machine.execDoneWait q f s
  | .doneSet q f => Sys2Proof.Machine.execDoneSet q f s
  | .fence q f => Sys2Proof.Machine.execFence q f s
  | .intr q f => Sys2Proof.Machine.execIntr q f s
  | .tick q f => Sys2Proof.Machine.execTick q f s
  | .opCompletion q idx => Sys2Proof.Machine.execOpCompletion q idx s
  | .seqLoad q a idx n => Sys2Proof.Machine.execSeqLoad q a idx n s
  | .seqStart q idx => Sys2Proof.Machine.execSeqStart q idx s
  | .seqStop q => Sys2Proof.Machine.execSeqStop q s
  | .seqResumeRetry q => Sys2Proof.Machine.execSeqResumeRetry q s
  | .seqResumeSkip q => Sys2Proof.Machine.execSeqResumeSkip q s
  | .wqFlush g mask => Sys2Proof.Machine.execWqFlush g mask s
  | .wqWriteHeld g writer => Sys2Proof.Machine.execWqWriteHeld g writer s
  | .dmaCommand g ecc => Sys2Proof.Machine.execDmaCommand g ecc s
  | .arrayMvOpStart q n shadow => Sys2Proof.Machine.execArrayMvOpStart q n shadow s
  | .accumulatorWriteBack q idx => Sys2Proof.Machine.execAccumulatorWriteBack q idx s
  | .correctionMerge q idx => Sys2Proof.Machine.execCorrectionMerge q idx s
  | .passRepeat q idx => Sys2Proof.Machine.execPassRepeat q idx s
  | .layerD16Repeat image layer seq => Sys2Proof.Machine.execLayerD16Repeat image layer seq s
  | .verdictReport q idx => Sys2Proof.Machine.execVerdictReport q idx s
  | .arrayReadOp q n => Sys2Proof.Machine.execArrayReadOp q n s
  | .arrayCalOp q n layer seed area => Sys2Proof.Machine.execArrayCalOp q n layer seed area s
  | .dMvPass q => Sys2Proof.Machine.execDMvPass q s
  | .dVecOp q t seq => Sys2Proof.Machine.execDVecOp q t seq s
  | .kvAppendOp q => Sys2Proof.Machine.execKvAppendOp q s
  | .attWalkOp q => Sys2Proof.Machine.execAttWalkOp q s
  | .segmentMerge q => Sys2Proof.Machine.execSegmentMerge q s
  | .psumAddOp q => Sys2Proof.Machine.execPsumAddOp q s
  | .copyOp q ecc => Sys2Proof.Machine.execCopyOp q ecc s
  | .addFx64 q => Sys2Proof.Machine.execAddFx64 q s
  | .addI32Sat q => Sys2Proof.Machine.execAddI32Sat q s
  | .atomicClearOp q => Sys2Proof.Machine.execAtomicClearOp q s
  | .syncPost m => Sys2Proof.Machine.execSyncPost m s
  | .syncWaitArrival m => Sys2Proof.Machine.execSyncWaitArrival m s
  | .syncSetArrival m => Sys2Proof.Machine.execSyncSetArrival m s
  | .syncWaitLong obj idx => Sys2Proof.Machine.execSyncWaitLong obj idx s
  | .hostMemWrite w bytes => Sys2Proof.Machine.execHostMemWrite w bytes s
  | .hostMemRead w => Sys2Proof.Machine.execHostMemRead w s
  | .patrolRead m ecc => Sys2Proof.Machine.execPatrolRead m ecc s
  | .hbmRowIdleClose bank => Sys2Proof.Machine.execHbmRowIdleClose bank s
  | .bankPowerUpDone q b => Sys2Proof.Machine.execBankPowerUpDone q b s
  | .fitRoundClose q n lane => Sys2Proof.Machine.execFitRoundClose q n lane s
  | .calRunStaged d => Sys2Proof.Machine.execCalRunStaged d s
  | .calSave d ok => Sys2Proof.Machine.execCalSave d ok s
  | .bankProgramRequest q n b => Sys2Proof.Machine.execBankProgramRequest q n b s
  | .tileProgramDone q n layer bad badSpares refBad => Sys2Proof.Machine.execTileProgramDone q n layer bad badSpares refBad s
  | .spareProgramDone q n b ok => Sys2Proof.Machine.execSpareProgramDone q n b ok s
  | .readbackCheckStart => Sys2Proof.Machine.execReadbackCheckStart s
  | .readbackCheckDone idx => Sys2Proof.Machine.execReadbackCheckDone idx s
  | .chainChunkForward slot => Sys2Proof.Machine.execChainChunkForward slot s
  | .chunkReady slot shard k length => Sys2Proof.Machine.execChunkReady slot shard k length s
  | .slotFree slot => Sys2Proof.Machine.execSlotFree slot s
  | .portSignalDetect p => Sys2Proof.Machine.execPortSignalDetect p s
  | .portFecLock p lanes => Sys2Proof.Machine.execPortFecLock p lanes s
  | .portTrainTimeout p => Sys2Proof.Machine.execPortTrainTimeout p s
  | .portLockLoss p => Sys2Proof.Machine.execPortLockLoss p s
  | .uncorrRateCheck p corr uncorr => Sys2Proof.Machine.execUncorrRateCheck p corr uncorr s
  | .portFaultRetry p => Sys2Proof.Machine.execPortFaultRetry p s
  | .retrain p => Sys2Proof.Machine.execRetrain p s
  | .identityMessage p f => Sys2Proof.Machine.execIdentityMessage p f s
  | .credit p f => Sys2Proof.Machine.execCredit p f s
  | .enumStart => Sys2Proof.Machine.execEnumStart s
  | .enumToken p f => Sys2Proof.Machine.execEnumToken p f s
  | .enumDone p f => Sys2Proof.Machine.execEnumDone p f s
  | .clearId => Sys2Proof.Machine.execClearId s
  | .tileWrite p f => Sys2Proof.Machine.execTileWrite p f s
  | .tileWriteMasked p f => Sys2Proof.Machine.execTileWriteMasked p f s
  | .atomicAddFrame p f => Sys2Proof.Machine.execAtomicAddFrame p f s
  | .readReq p f => Sys2Proof.Machine.execReadReq p f s
  | .readTile p f => Sys2Proof.Machine.execReadTile p f s
  | .postFrame p f => Sys2Proof.Machine.execPostFrame p f s
  | .ack p f => Sys2Proof.Machine.execAck p f s
  | .nack p f status => Sys2Proof.Machine.execNack p f status s
  | .mcastChunk p f => Sys2Proof.Machine.execMcastChunk p f s
  | .transitFrame p f abort => Sys2Proof.Machine.execTransitFrame p f abort s
  | .retryTime idx j => Sys2Proof.Machine.execRetryTime idx j s
  | .holdMax p => Sys2Proof.Machine.execHoldMax p s
  | .collInstanceStart key => Sys2Proof.Machine.execCollInstanceStart key s
  | .collRecord p f => Sys2Proof.Machine.execCollRecord p f s
  | .collWait key => Sys2Proof.Machine.execCollWait key s
  | .repairWait d l spareReady => Sys2Proof.Machine.execRepairWait d l spareReady s
  | .repairNotice d l origin seq spareReady => Sys2Proof.Machine.execRepairNotice d l origin seq spareReady s
  | .stepAnnounce n flip => Sys2Proof.Machine.execStepAnnounce n flip s
  | .cleanReport m n clean => Sys2Proof.Machine.execCleanReport m n clean s
  | .rewindNotice first => Sys2Proof.Machine.execRewindNotice first s
  | .scanSchedule => Sys2Proof.Machine.execScanSchedule s
  | .scanDone passed chain => Sys2Proof.Machine.execScanDone passed chain s
  | .hkSlotConversion raw code fail => Sys2Proof.Machine.execHkSlotConversion raw code fail s
  | .moduleShutdownTrip => Sys2Proof.Machine.execModuleShutdownTrip s
  | .roundEnd => Sys2Proof.Machine.execRoundEnd s
  | .damperDecision => Sys2Proof.Machine.execDamperDecision s
  | .damperStageApply idx => Sys2Proof.Machine.execDamperStageApply idx s
  | .hkUrgCtrl v busy left => Sys2Proof.Machine.execHkUrgCtrl v busy left s
  | .hkTdacGo v => Sys2Proof.Machine.execHkTdacGo v s
  | .syscalZero e => Sys2Proof.Machine.execSyscalZero e s
  | .syscalFull e => Sys2Proof.Machine.execSyscalFull e s
  | .syscalSave e => Sys2Proof.Machine.execSyscalSave e s
  | .hkPartRelease v => Sys2Proof.Machine.execHkPartRelease v s
  | .autoRelease p => Sys2Proof.Machine.execAutoRelease p s
  | .inputUndervolt => Sys2Proof.Machine.execInputUndervolt s
  | .inputOvervolt => Sys2Proof.Machine.execInputOvervolt s
  | .inputOvercurrent => Sys2Proof.Machine.execInputOvercurrent s
  | .regulatorFault => Sys2Proof.Machine.execRegulatorFault s
  | .inputOutOfRange out => Sys2Proof.Machine.execInputOutOfRange out s
  | .currentLimit past => Sys2Proof.Machine.execCurrentLimit past s
  | .powerOn => Sys2Proof.Machine.execPowerOn s
  | .bootPhase w => Sys2Proof.Machine.execBootPhase w s
  | .recoveryGo v steward bundle => Sys2Proof.Machine.execRecoveryGo v steward bundle s
  | .poweredHour => Sys2Proof.Machine.execPoweredHour s
  | .fwChunkReceive t chunk => Sys2Proof.Machine.execFwChunkReceive t chunk s
  | .fwChunkFetch t far => Sys2Proof.Machine.execFwChunkFetch t far s
  | .resetTimeout d p selfTest => Sys2Proof.Machine.execResetTimeout d p selfTest s
  | .hssTreeBuilt => Sys2Proof.Machine.execHssTreeBuilt s
  | .cordGroupQuery tag => Sys2Proof.Machine.execCordGroupQuery tag s
  | .cordGroupConfirm m yes => Sys2Proof.Machine.execCordGroupConfirm m yes s
  | .hdmDecoderCommit commit => Sys2Proof.Machine.execHdmDecoderCommit commit s
  | .ptmExchange root => Sys2Proof.Machine.execPtmExchange root s
  | .urgentConversionDone raw code => Sys2Proof.Machine.execUrgentConversionDone raw code s
  | .attestRateTurn => Sys2Proof.Machine.execAttestRateTurn s

end Sys2Proof.Machine
end

