-- ==== Sys2Proof/Machine/Step.lean ====
section
/-! DEFINITION. One step: the command at the front of the queue, or idling. -/

namespace Sys2Proof.Machine

/-- One steward tick passes while nothing is commanded: the steward counter and the standby's copy move on by 1, every domain instance of a fitted die by an amount of its own (R26, R27, R30; DESIGN CHOICE, log 70). -/
def State.idle (s : State) : State :=
  let s1 := { s with time := { s.time with tick := (s.time.tick + 1) % 2 ^ 64, standby := (s.time.standby + 1) % 2 ^ 64 } }
  s1.domains.foldl State.domainRuns s1

/-- The command at the front of the queue runs on the state with the queue's rest; on an empty queue the block idles. -/
def step (s : State) : Host.Outcome State Fault Refusal :=
  match s.pending with
  | [] => .next s.idle
  | c :: r => exec c { s with pending := r }

/-- A command that a table word spells, put at the front of the queue. -/
def State.withFetchWord (s : State) (nbits w : Nat) : State :=
  match decodeTableWord nbits w with
  | some c => { s with pending := c :: s.pending }
  | none => s

end Sys2Proof.Machine
end

