-- ==== Sys2Proof/Safety.lean ====
section
/-! DEFINITION. The terms in which claims speak of a run: the canonical form of a state's tables, and what a command leaves alone. -/

namespace Sys2Proof.Machine

/-! ### Canonical form -/

/-- Memory is canonical: its bytes, its check words and its guard bits are listed at rising keys, and nothing is listed that an unlisted key reads as. -/
def Mem.wf (m : Mem) : Bool := Tab.wf m.bytes && Tab.wf m.tiles && Tab.wf m.guard

/-- The memory, the registers and the host memory of a state are canonical, so that equal contents are equal data. -/
def State.wf (s : State) : Bool := s.mem.wf && Tab.wf s.regs && Tab.wf s.hmem

/-! ### Frames -/

/-- A zone of the state: one for each field but the queue and what the part fixes; memory's bytes, check words, guard bits and running sums stand apart from the registers of the memory controllers. -/
inductive Zone where
  | fresh | regs | live | staged | commit | time | ev | irq | hmem | chans | cq | memory | memctl | wq | seqs | store | sync | flight | pos | boot | hdm | engines | attic | passes | verdicts | runs | stats | troubles | cal | epoch | ash | slots | images | reqs | adapters | tables | pools | step | det | hk | walks | fab | topo | inst | sec | fw | plan
  deriving DecidableEq, Repr

/-- The zone is the same in both states. -/
def State.same (p : Zone) (s t : State) : Prop :=
  match p with
  | .fresh => t.fresh = s.fresh
  | .regs => t.regs = s.regs
  | .live => t.live = s.live
  | .staged => t.staged = s.staged
  | .commit => t.commit = s.commit
  | .time => t.time = s.time
  | .ev => t.ev = s.ev
  | .irq => t.irq = s.irq
  | .hmem => t.hmem = s.hmem
  | .chans => t.chans = s.chans
  | .cq => t.cq = s.cq
  | .memory => t.mem.bytes = s.mem.bytes ∧ t.mem.tiles = s.mem.tiles ∧ t.mem.guard = s.mem.guard ∧ t.mem.sums = s.mem.sums
  | .memctl => t.mem.atoms = s.mem.atoms ∧ t.mem.hostLine = s.mem.hostLine ∧ t.mem.hostPoison = s.mem.hostPoison ∧ t.mem.regions = s.mem.regions
      ∧ t.mem.poweringUp = s.mem.poweringUp ∧ t.mem.coreWait = s.mem.coreWait ∧ t.mem.row = s.mem.row ∧ t.mem.patrol = s.mem.patrol
  | .wq => t.wq = s.wq
  | .seqs => t.seqs = s.seqs
  | .store => t.store = s.store
  | .sync => t.sync = s.sync
  | .flight => t.flight = s.flight
  | .pos => t.pos = s.pos
  | .boot => t.boot = s.boot
  | .hdm => t.hdmDecoder = s.hdmDecoder
  | .engines => t.engines = s.engines
  | .attic => t.attic = s.attic
  | .passes => t.passes = s.passes
  | .verdicts => t.verdicts = s.verdicts
  | .runs => t.runs = s.runs
  | .stats => t.stats = s.stats
  | .troubles => t.troubles = s.troubles
  | .cal => t.cal = s.cal
  | .epoch => t.epoch = s.epoch
  | .ash => t.ash = s.ash
  | .slots => t.slots = s.slots
  | .images => t.images = s.images
  | .reqs => t.reqs = s.reqs
  | .adapters => t.adapters = s.adapters
  | .tables => t.tables = s.tables
  | .pools => t.pools = s.pools
  | .step => t.step = s.step
  | .det => t.det = s.det
  | .hk => t.hk = s.hk
  | .walks => t.walks = s.walks
  | .fab => t.fab = s.fab
  | .topo => t.topo = s.topo
  | .inst => t.inst = s.inst
  | .sec => t.sec = s.sec
  | .fw => t.fw = s.fw
  | .plan => t.plan = s.plan

/-- Every zone of `t` that is not listed is as it is in `s`; what fixes the part (R2) always is. -/
def State.changesOnly (ps : List Zone) (s t : State) : Prop := t.part = s.part ∧ ∀ p, p ∉ ps → State.same p s t

/-! ### What each command may touch -/

/-- The zones of a completion and its interrupt. -/
def hostZones : List Zone := [.irq, .chans, .cq]
/-- The zones of an event on its way. -/
def eventZones : List Zone := [.fresh, .time, .ev]
/-- The zones of a step that is abandoned (R415). -/
def stepZones : List Zone := [.fresh, .regs, .time, .ev, .wq, .seqs, .flight, .passes, .verdicts, .runs, .troubles, .step, .walks, .fab]
/-- The zones of a position that changes. -/
def clusterZones : List Zone := [.pos, .engines, .attic, .ash, .plan]
/-- The zones of requests and their pages. -/
def servingZones : List Zone := [.reqs, .tables, .pools]
/-- Every zone. -/
def allZones : List Zone := [.fresh, .regs, .live, .staged, .commit, .time, .ev, .irq, .hmem, .chans, .cq, .memory, .memctl, .wq, .seqs, .store, .sync, .flight, .pos, .boot, .hdm, .engines, .attic, .passes, .verdicts, .runs, .stats, .troubles, .cal, .epoch, .ash, .slots, .images, .reqs, .adapters, .tables, .pools, .step, .det, .hk, .walks, .fab, .topo, .inst, .sec, .fw, .plan]
/-- Every zone but those that a shut-down leaves (R434, R435). -/
def poweredZones : List Zone := [.regs, .live, .staged, .commit, .time, .ev, .chans, .memory, .memctl, .wq, .seqs, .store, .sync, .flight, .pos, .boot, .hdm, .engines, .attic, .passes, .verdicts, .runs, .stats, .troubles, .cal, .epoch, .ash, .slots, .images, .reqs, .adapters, .tables, .pools, .step, .det, .hk, .walks, .fab, .topo, .inst, .sec, .fw, .plan]

/-- The zones that a command may change; it leaves every other one alone. -/
def touches (i : Instr) : List Zone :=
  match i with
  | .bar0Write .. => hostZones ++ eventZones ++ servingZones ++ [.regs, .staged, .hmem, .memory, .memctl, .sync, .pos, .cal, .slots, .adapters, .step, .det, .hk, .fab, .fw, .plan]
  | .bar0InvalidAccess .. => eventZones
  | .aeCtrClear .. => [.regs]
  | .dcCtrClear .. => [.regs]
  | .calCtrClear .. => [.regs]
  | .calRequest .. => [.cal]
  | .spCtrClear .. => [.regs, .memctl]
  | .memCtrClear .. => [.regs]
  | .kvCtrClear .. => [.regs]
  | .attCtrClear .. => [.regs]
  | .serveCtrClear .. => [.regs]
  | .wqCtrClear .. => [.regs]
  | .syncCtrClear .. => [.regs]
  | .gpCtrClear .. => [.regs]
  | .fabCtrClear .. => [.regs]
  | .topoCtrClear .. => [.regs]
  | .wtCtrClear .. => [.regs]
  | .seCtrClear .. => [.regs]
  | .hkCtrClear .. => [.regs]
  | .pwrCtrClear .. => [.regs]
  | .bootCtrClear .. => [.regs]
  | .secCtrClear .. => [.regs]
  | .evCtrClear .. => [.regs]
  | .chCtrlOpen .. => hostZones ++ eventZones ++ [.hmem]
  | .chCtrlClose .. => [.chans]
  | .channelDrainDone .. => [.chans]
  | .chCtrlReset .. => [.chans]
  | .channelError .. => eventZones ++ [.chans]
  | .evCtrlEnable .. => hostZones ++ [.ev]
  | .evCtrlDisable .. => [.ev]
  | .doorbellInvalidation .. => hostZones ++ eventZones ++ [.hmem]
  | .dbPoll .. => hostZones ++ eventZones ++ [.hmem]
  | .coalTime .. => [.irq, .chans]
  | .requestOpen .. => hostZones ++ [.hmem, .reqs]
  | .requestAppend .. => hostZones ++ [.hmem, .reqs]
  | .requestDraft .. => hostZones ++ [.hmem, .reqs]
  | .requestPause .. => hostZones ++ [.hmem, .reqs]
  | .requestResume .. => hostZones ++ eventZones ++ servingZones ++ [.regs, .hmem]
  | .requestRenew .. => hostZones ++ [.hmem, .reqs]
  | .requestRewind .. => hostZones ++ [.hmem, .reqs]
  | .requestMigrate .. => hostZones ++ [.hmem, .reqs]
  | .requestClose .. => hostZones ++ servingZones ++ [.regs, .hmem, .memory]
  | .requestQuery .. => hostZones ++ [.hmem]
  | .programLoad .. => hostZones ++ eventZones ++ [.regs, .live, .staged, .commit, .hmem, .memory, .memctl, .sync, .engines, .stats, .images, .pools, .fab]
  | .programRun .. => stepZones ++ hostZones ++ [.hmem, .memory, .memctl, .det]
  | .programUnload .. => stepZones ++ hostZones ++ [.live, .staged, .commit, .hmem, .memory, .memctl, .sync, .stats, .images, .det]
  | .regionRelease .. => hostZones ++ [.hmem, .memctl]
  | .dmaCopy .. => stepZones ++ hostZones ++ [.hmem, .memory, .memctl, .sync, .slots, .det, .topo]
  | .adapterInstall .. => hostZones ++ eventZones ++ [.regs, .hmem, .memory, .memctl, .adapters]
  | .adapterRemove .. => hostZones ++ [.hmem, .adapters]
  | .adapterQuery .. => hostZones ++ [.hmem]
  | .configStage .. => hostZones ++ [.regs, .staged, .hmem]
  | .configCheck .. => hostZones ++ [.hmem]
  | .configCommit .. => hostZones ++ [.regs, .commit, .hmem]
  | .configDiscard .. => hostZones ++ [.regs, .staged, .hmem]
  | .emptyStepBoundary .. => stepZones ++ hostZones ++ clusterZones ++ servingZones ++ [.live, .staged, .commit, .hmem, .memory, .memctl, .sync, .boot, .stats, .cal, .epoch, .slots, .adapters, .det, .hk, .topo, .inst, .sec, .fw]
  | .blockSafePointSwitch .. => hostZones ++ [.regs, .live, .commit, .fab, .topo]
  | .timeMark .. => hostZones ++ [.regs, .hmem]
  | .eventMask .. => hostZones ++ [.ev, .hmem]
  | .eventFlush .. => hostZones ++ [.ev, .hmem]
  | .maintCalRequest .. => hostZones ++ [.hmem, .cal]
  | .layerStats .. => hostZones ++ [.hmem]
  | .ashList .. => hostZones ++ [.hmem]
  | .eventCatalogue .. => hostZones ++ [.hmem]
  | .partitionReset .. => hostZones ++ [.hmem, .fw]
  | .fwStage .. => hostZones ++ eventZones ++ [.regs, .hmem, .memory, .memctl, .fab, .fw]
  | .fwActivate .. => hostZones ++ [.hmem, .pos, .fw, .plan]
  | .fwQuery .. => hostZones ++ [.hmem]
  | .identity .. => hostZones ++ [.hmem]
  | .attest .. => hostZones ++ [.hmem, .sec]
  | .keyEnroll .. => hostZones ++ eventZones ++ [.regs, .hmem, .sec]
  | .rollbackAdvance .. => hostZones ++ eventZones ++ [.hmem, .sec]
  | .weightManifest .. => hostZones ++ eventZones ++ [.regs, .hmem, .memory, .memctl, .slots]
  | .weightKey .. => hostZones ++ [.hmem, .slots]
  | .weightShard .. => hostZones ++ eventZones ++ [.regs, .hmem, .memory, .memctl, .slots, .inst]
  | .shardCheckDone .. => hostZones ++ [.regs, .memory, .memctl, .slots, .inst]
  | .weightChain .. => hostZones ++ eventZones ++ [.hmem, .slots, .fab]
  | .weightCommit .. => hostZones ++ [.hmem, .inst]
  | .weightRemove .. => hostZones ++ [.hmem, .engines, .slots, .fab, .inst]
  | .weightCheck .. => hostZones ++ [.hmem, .inst]
  | .weightQuery .. => hostZones ++ [.hmem]
  | .weightAbort .. => hostZones ++ [.hmem, .engines, .slots, .fab, .inst]
  | .groupCommitTimeout .. => hostZones ++ [.inst]
  | .scan .. => hostZones ++ [.hmem, .pos, .det, .plan]
  | .fleetLoad .. => hostZones ++ eventZones ++ [.regs, .hmem, .det]
  | .fleetSet .. => hostZones ++ [.hmem, .det]
  | .fleetRemove .. => hostZones ++ [.hmem, .det]
  | .inject .. => hostZones ++ [.hmem, .engines]
  | .testQuery .. => hostZones ++ [.hmem]
  | .windowOpen .. => hostZones ++ eventZones ++ [.hmem, .fab]
  | .windowClose .. => hostZones ++ [.hmem, .fab]
  | .windowDrained .. => hostZones ++ eventZones ++ [.fab]
  | .windowQuery .. => hostZones ++ [.fresh, .hmem]
  | .stepBoundary .. => stepZones ++ hostZones ++ clusterZones ++ servingZones ++ [.live, .staged, .commit, .hmem, .memory, .memctl, .sync, .boot, .stats, .cal, .epoch, .slots, .adapters, .det, .hk, .topo, .inst, .sec, .fw]
  | .stepCommit .. => hostZones ++ eventZones ++ [.regs, .memory, .reqs, .tables, .step, .topo]
  | .stewardHeartbeat .. => [.step]
  | .stewardTimeout .. => stepZones ++ [.fw]
  | .stewardCounterSync .. => [.time]
  | .eventArrival .. => [.regs, .time, .ev, .irq]
  | .emberHold .. => eventZones ++ [.reqs, .tables]
  | .peatMoveDone .. => [.hmem, .reqs]
  | .peatMoveFailed .. => eventZones ++ [.reqs, .tables]
  | .peatExpiryWarning .. => eventZones ++ [.reqs]
  | .requestExpired .. => hostZones ++ eventZones ++ [.regs, .reqs, .adapters]
  | .resumptionChecked .. => hostZones ++ eventZones ++ servingZones ++ [.regs, .memory, .adapters]
  | .nop .. => stepZones ++ [.det]
  | .halt .. => stepZones ++ [.det]
  | .seti .. => stepZones ++ [.det]
  | .addi .. => stepZones ++ [.det]
  | .alu .. => stepZones ++ [.det]
  | .ld .. => stepZones ++ [.memory, .memctl, .det]
  | .st .. => stepZones ++ [.memory, .memctl, .det]
  | .jump .. => stepZones ++ [.det]
  | .branch .. => stepZones ++ [.det]
  | .jumpr .. => stepZones ++ [.det]
  | .loop .. => stepZones ++ [.det]
  | .pop .. => stepZones ++ [.det]
  | .pbld .. => stepZones ++ [.det]
  | .push .. => stepZones ++ [.memory, .memctl, .det]
  | .arrayMv .. => stepZones ++ [.det]
  | .arrayRead .. => stepZones ++ [.det]
  | .dMv .. => stepZones ++ [.det]
  | .dVec .. => stepZones ++ [.det]
  | .psumAdd .. => stepZones ++ [.det]
  | .kvAppend .. => stepZones ++ [.det]
  | .attWalk .. => stepZones ++ [.det]
  | .copy .. => stepZones ++ [.det]
  | .atomicAdd .. => stepZones ++ [.det]
  | .atomicClear .. => stepZones ++ [.det]
  | .post .. => stepZones ++ [.det]
  | .wait .. => stepZones ++ [.det]
  | .syncSet .. => stepZones ++ [.det]
  | .doneWait .. => stepZones ++ [.det]
  | .doneSet .. => stepZones ++ [.det]
  | .fence .. => stepZones ++ [.det]
  | .intr .. => stepZones ++ [.det]
  | .tick .. => stepZones ++ [.det]
  | .opCompletion .. => stepZones ++ [.det]
  | .seqLoad .. => eventZones ++ [.regs, .memory, .memctl, .seqs, .store]
  | .seqStart .. => stepZones ++ [.det]
  | .seqStop .. => [.seqs]
  | .seqResumeRetry .. => stepZones ++ [.det]
  | .seqResumeSkip .. => stepZones ++ [.det]
  | .wqFlush .. => eventZones ++ [.regs, .wq]
  | .wqWriteHeld .. => eventZones ++ [.wq]
  | .dmaCommand .. => stepZones ++ hostZones ++ [.hmem, .memory, .memctl, .sync, .slots, .det, .topo]
  | .arrayMvOpStart .. => stepZones ++ hostZones ++ clusterZones ++ [.memory, .memctl, .cal, .slots, .det, .hk]
  | .accumulatorWriteBack .. => eventZones ++ [.regs, .memory, .memctl, .seqs, .passes]
  | .correctionMerge .. => eventZones ++ [.regs, .memory, .memctl, .seqs, .passes, .runs, .troubles]
  | .passRepeat .. => stepZones ++ hostZones ++ clusterZones ++ [.memory, .memctl, .cal, .slots, .det, .hk]
  | .layerD16Repeat .. => eventZones ++ [.runs, .troubles]
  | .verdictReport .. => eventZones ++ [.regs, .seqs, .passes, .verdicts, .runs, .troubles]
  | .arrayReadOp .. => eventZones ++ [.regs, .memory, .memctl, .seqs, .engines]
  | .arrayCalOp .. => stepZones ++ hostZones ++ clusterZones ++ [.memory, .memctl, .cal, .det, .hk]
  | .dMvPass .. => stepZones ++ hostZones ++ clusterZones ++ [.memory, .memctl, .cal, .slots, .det, .hk]
  | .dVecOp .. => eventZones ++ [.regs, .memory, .memctl, .seqs, .runs, .troubles]
  | .kvAppendOp .. => eventZones ++ [.regs, .memory, .memctl, .seqs, .troubles]
  | .attWalkOp .. => eventZones ++ [.regs, .memory, .memctl, .seqs, .troubles, .step, .walks]
  | .segmentMerge .. => eventZones ++ [.regs, .memory, .memctl, .seqs, .troubles, .walks]
  | .psumAddOp .. => eventZones ++ [.regs, .memory, .memctl, .seqs, .runs]
  | .copyOp .. => stepZones ++ hostZones ++ [.hmem, .memory, .memctl, .sync, .slots, .det, .topo]
  | .addFx64 .. => stepZones ++ hostZones ++ [.hmem, .memory, .memctl, .sync, .slots, .det, .topo]
  | .addI32Sat .. => stepZones ++ hostZones ++ [.hmem, .memory, .memctl, .sync, .slots, .det, .topo]
  | .atomicClearOp .. => eventZones ++ [.regs, .memory, .seqs]
  | .syncPost .. => stepZones ++ hostZones ++ [.hmem, .memory, .memctl, .sync, .slots, .det, .topo]
  | .syncWaitArrival .. => stepZones ++ [.sync, .det]
  | .syncSetArrival .. => stepZones ++ [.sync, .det]
  | .syncWaitLong .. => eventZones ++ [.sync]
  | .hostMemWrite .. => [.memory, .memctl]
  | .hostMemRead .. => eventZones ++ [.regs, .memory, .memctl]
  | .patrolRead .. => eventZones ++ [.regs, .memory, .memctl]
  | .hbmRowIdleClose .. => [.memctl]
  | .bankPowerUpDone .. => [.memory, .memctl]
  | .fitRoundClose .. => eventZones ++ [.regs, .engines, .cal, .ash]
  | .calRunStaged .. => stepZones ++ hostZones ++ clusterZones ++ [.cal, .det, .hk]
  | .calSave .. => eventZones ++ [.cal]
  | .bankProgramRequest .. => eventZones ++ [.engines, .slots]
  | .tileProgramDone .. => eventZones ++ [.regs, .memory, .memctl, .engines, .ash, .slots]
  | .spareProgramDone .. => eventZones ++ [.engines, .ash]
  | .readbackCheckStart .. => [.slots, .inst]
  | .readbackCheckDone .. => hostZones ++ eventZones ++ [.regs, .memory, .memctl, .engines, .ash, .slots, .inst]
  | .chainChunkForward .. => stepZones ++ hostZones ++ [.hmem, .memory, .memctl, .sync, .slots, .det, .topo]
  | .chunkReady .. => [.regs, .slots, .inst]
  | .slotFree .. => [.slots]
  | .portSignalDetect .. => [.fab]
  | .portFecLock .. => eventZones ++ [.regs, .fab]
  | .portTrainTimeout .. => eventZones ++ [.regs, .fab]
  | .portLockLoss .. => eventZones ++ [.regs, .fab]
  | .uncorrRateCheck .. => eventZones ++ [.regs, .fab]
  | .portFaultRetry .. => [.regs, .fab]
  | .retrain .. => [.regs, .fab]
  | .identityMessage .. => eventZones ++ [.regs, .fab]
  | .credit .. => [.fresh, .regs, .fab]
  | .enumStart .. => eventZones ++ [.regs, .fab]
  | .enumToken .. => eventZones ++ [.regs, .fab]
  | .enumDone .. => eventZones ++ [.regs, .fab]
  | .clearId .. => eventZones ++ [.fab]
  | .tileWrite .. => eventZones ++ [.regs, .memory, .memctl, .fab]
  | .tileWriteMasked .. => eventZones ++ [.regs, .memory, .memctl, .fab]
  | .atomicAddFrame .. => stepZones ++ [.memory, .sync, .det, .topo]
  | .readReq .. => eventZones ++ [.regs, .memory, .memctl, .fab]
  | .readTile .. => stepZones ++ hostZones ++ [.hmem, .memory, .memctl, .sync, .slots, .det, .topo]
  | .postFrame .. => stepZones ++ [.sync, .det]
  | .ack .. => stepZones ++ hostZones ++ [.hmem, .memory, .memctl, .sync, .slots, .det, .topo]
  | .nack .. => stepZones ++ hostZones ++ [.hmem, .memory, .memctl, .sync, .slots, .det, .topo]
  | .mcastChunk .. => hostZones ++ eventZones ++ [.regs, .memory, .memctl, .fab, .fw]
  | .transitFrame .. => [.fresh, .regs, .fab]
  | .retryTime .. => stepZones ++ hostZones ++ [.hmem, .memory, .memctl, .sync, .slots, .det, .topo]
  | .holdMax .. => eventZones ++ [.regs, .fab]
  | .collInstanceStart .. => stepZones ++ hostZones ++ [.hmem, .memory, .memctl, .sync, .slots, .det, .topo]
  | .collRecord .. => stepZones ++ hostZones ++ [.hmem, .memory, .memctl, .sync, .slots, .det, .topo]
  | .collWait .. => stepZones ++ hostZones ++ [.hmem, .memory, .memctl, .sync, .slots, .det, .topo]
  | .repairWait .. => stepZones ++ [.memory, .sync, .det, .topo]
  | .repairNotice .. => stepZones ++ [.memory, .sync, .det, .topo]
  | .stepAnnounce .. => [.topo, .inst]
  | .cleanReport .. => stepZones ++ [.topo]
  | .rewindNotice .. => [.det]
  | .scanSchedule .. => [.pos, .det, .plan]
  | .scanDone .. => stepZones ++ hostZones ++ clusterZones ++ [.det, .hk]
  | .hkSlotConversion .. => stepZones ++ hostZones ++ clusterZones ++ servingZones ++ [.memory, .cal, .adapters, .det, .hk, .fw]
  | .moduleShutdownTrip .. => poweredZones
  | .roundEnd .. => [.fresh, .regs, .hk]
  | .damperDecision .. => eventZones ++ [.hk]
  | .damperStageApply .. => [.hk]
  | .hkUrgCtrl .. => [.regs, .hk]
  | .hkTdacGo .. => [.hk]
  | .syscalZero .. => eventZones ++ [.hk]
  | .syscalFull .. => eventZones ++ [.hk]
  | .syscalSave .. => eventZones ++ [.hk]
  | .hkPartRelease .. => hostZones ++ eventZones ++ servingZones ++ [.memory, .sync, .pos, .slots, .adapters, .step, .det, .hk, .fab, .fw, .plan]
  | .autoRelease .. => hostZones ++ eventZones ++ servingZones ++ [.memory, .sync, .pos, .slots, .adapters, .step, .det, .hk, .fab, .fw, .plan]
  | .inputUndervolt .. => poweredZones
  | .inputOvervolt .. => poweredZones
  | .inputOvercurrent .. => poweredZones
  | .regulatorFault .. => poweredZones
  | .inputOutOfRange .. => eventZones ++ [.hk]
  | .currentLimit .. => [.hk]
  | .powerOn .. => eventZones ++ [.live, .staged, .boot, .hk]
  | .bootPhase .. => hostZones ++ eventZones ++ clusterZones ++ [.regs, .memory, .memctl, .boot, .cal, .step, .det, .hk, .fab, .fw]
  | .recoveryGo .. => eventZones ++ [.regs, .boot, .fw]
  | .poweredHour .. => [.boot]
  | .fwChunkReceive .. => [.memory, .memctl, .fw]
  | .fwChunkFetch .. => stepZones ++ hostZones ++ clusterZones ++ [.memory, .memctl, .boot, .det, .hk, .fw]
  | .resetTimeout .. => stepZones ++ hostZones ++ clusterZones ++ [.det, .hk, .fw]
  | .hssTreeBuilt .. => hostZones ++ eventZones ++ [.regs, .hmem, .sec]
  | .cordGroupQuery .. => [.inst]
  | .cordGroupConfirm .. => hostZones ++ [.inst]
  | .hdmDecoderCommit .. => [.hdm]
  | .ptmExchange .. => [.time]
  | .urgentConversionDone .. => [.hk]
  | .attestRateTurn .. => hostZones ++ eventZones ++ [.regs, .hmem, .sec]

end Sys2Proof.Machine
end

