-- ==== Sys2Proof/Certificates/Slice0/Obligations.lean ====
section
/-! DEFINITION. The statements for the provers. -/

open Sys2Proof Sys2Proof.Machine

/-- The command at the front of the queue runs on the state with the queue's rest (the queue is the model's own, log 70). -/
def Obligations.StepRunsTheFrontCommand : Prop :=
  (∀ (s : State) (c : Instr) (r : List Instr), s.pending = c :: r → step s = exec c { s with pending := r }) ∧
  ∀ s : State, s.pending = [] → step s = .next s.idle

/-- R434, R273 and the chapters give every event an effect, and none stops the module for good: no command ends the run. A command works on everything but the queue: a step takes exactly the front command from it. -/
def Obligations.EveryStepTakesItsCommandAndAnswersAState : Prop :=
  (∀ s : State, ∃ t, step s = .next t)
  ∧ (∀ s t : State, step s = .next t → t.pending = s.pending.tail)

/-- The memory, the registers and the host memory stay in canonical form, whatever is commanded. -/
def Obligations.EveryStepKeepsCanonicalForm : Prop :=
  ∀ s t : State, s.wf = true → step s = .next t → t.wf = true

/-- Nothing but the zones listed for a command (Safety.lean) changes when it runs; what fixes the part never does (R2). -/
def Obligations.CommandsKeepToTheirZones : Prop :=
  ∀ (c : Instr) (s t : State), exec c s = .next t → s.changesOnly (touches c) t

/-- What a CLEAR register's command does (R513): a write with bit 0 set puts the registers `as` at 0 and changes no other register and nothing else; a write with bit 0 clear changes nothing. -/
def Sys2Proof.Machine.ClearsExactly (c : Nat → Instr) (as : List Nat) (s : State) : Prop :=
  (∀ v, bitOf v 0 = true → ∃ t, exec (c v) s = .next t ∧ t = { s with regs := t.regs }
    ∧ (∀ a ∈ as, t.reg a = 0) ∧ ∀ a, a ∉ as → t.reg a = s.reg a)
  ∧ ∀ v, bitOf v 0 = false → exec (c v) s = .next s

/-- R513: a write of 1 to a CLEAR register sets the counters that its own register names to 0 and changes nothing else; a write of 0 changes nothing. -/
def Obligations.CounterClearsClearExactlyTheirCounters : Prop :=
  ∀ s : State,
    (∀ d, s.fits d = true →
      ClearsExactly (.aeCtrClear d) (aeTotals d) s ∧ ClearsExactly (.dcCtrClear d) (dcTotals d) s ∧ ClearsExactly (.calCtrClear d) (calTotals d) s
      ∧ ClearsExactly (.attCtrClear d) (attTotals d) s ∧ ClearsExactly (.wqCtrClear d) (wqTotals d) s ∧ ClearsExactly (.seCtrClear d) (seTotals d) s
      ∧ (∀ v, bitOf v 0 = true → ∃ t, exec (.spCtrClear d v) s = .next t
        ∧ t = { s with regs := t.regs, mem := { s.mem with coreWait := t.mem.coreWait } }
        ∧ (∀ a ∈ spTotals d, t.reg a = 0) ∧ (∀ a, a ∉ spTotals d → t.reg a = s.reg a)
        ∧ ∀ q, Tab.get t.mem.coreWait q = if coreDie q = d then 0 else Tab.get s.mem.coreWait q)
      ∧ ∀ v, bitOf v 0 = false → exec (.spCtrClear d v) s = .next s)
    ∧ (∀ m, ClearsExactly (.memCtrClear m) (memTotals m) s ∧ ClearsExactly (.kvCtrClear m) (kvTotals m) s
      ∧ ClearsExactly (.serveCtrClear m) (serveTotals m) s ∧ ClearsExactly (.syncCtrClear m) (syncTotals m) s)
    ∧ (∀ p, ClearsExactly (.gpCtrClear p) (gpTotals p) s)
    ∧ ClearsExactly .fabCtrClear fabTotals s ∧ ClearsExactly .topoCtrClear topoTotals s ∧ ClearsExactly .wtCtrClear wtTotals s
    ∧ ClearsExactly .hkCtrClear hkTotals s ∧ ClearsExactly .pwrCtrClear pwrTotals s ∧ ClearsExactly .bootCtrClear bootTotals s
    ∧ ClearsExactly .secCtrClear secTotals s ∧ ClearsExactly .evCtrClear evTotals s

/-- R12: a counter that an event adds to stops at its all-ones value, and no other register moves; the steward counter and the domain counters are 64 bits wide and wrap (by how much a domain counter moves in a step is free, log 11). -/
def Obligations.CountersSaturate : Prop :=
  (∀ (s : State) (a n : Nat), s.reg a < 2 ^ 64 →
    (s.bump a n).reg a = (if s.reg a + n < 2 ^ 64 then s.reg a + n else 2 ^ 64 - 1)
    ∧ (∀ b, b ≠ a → (s.bump a n).reg b = s.reg b) ∧ s.bump a n = { s with regs := (s.bump a n).regs })
  ∧ (∀ s : State, s.idle.time.tick = if s.time.tick + 1 = 2 ^ 64 then 0 else (s.time.tick + 1) % 2 ^ 64)
  ∧ ∀ (s : State) (x : Src), x.dom ≠ 0 → (s.domainRuns x).clock x = (s.clock x + Config.free s.fresh) % 2 ^ 64 ∧ (s.domainRuns x).clock x < 2 ^ 64

/-- The descriptor commands of Tables 9-5, 13-8, 14-3 and 11-6, with their header and class (DMA_COPY and the ones a mailbox carries stand apart). -/
def Sys2Proof.Instr.hostDescriptor : Instr → Option (Hdr × Nat)
  | .requestOpen h _ _ _ => some (h, clsRequest)
  | .requestAppend h _ _ _ _ => some (h, clsRequest)
  | .requestDraft h _ _ _ _ => some (h, clsRequest)
  | .requestPause h _ _ _ _ _ => some (h, clsRequest)
  | .requestResume h _ _ => some (h, clsRequest)
  | .requestRenew h _ _ => some (h, clsRequest)
  | .requestRewind h _ _ _ _ => some (h, clsRequest)
  | .requestMigrate h _ => some (h, clsRequest)
  | .requestClose h _ => some (h, clsRequest)
  | .requestQuery h _ _ => some (h, clsRequest)
  | .programLoad h _ _ _ _ => some (h, clsProgram)
  | .programRun h _ _ _ _ _ => some (h, clsProgram)
  | .programUnload h _ => some (h, clsProgram)
  | .regionRelease h _ _ _ _ => some (h, clsProgram)
  | .adapterInstall h _ _ _ _ _ => some (h, clsAdapter)
  | .adapterRemove h _ => some (h, clsAdapter)
  | .adapterQuery h _ _ => some (h, clsAdapter)
  | .configStage h _ _ => some (h, clsConfig)
  | .configCheck h _ => some (h, clsConfig)
  | .configCommit h _ => some (h, clsConfig)
  | .configDiscard h => some (h, clsConfig)
  | .timeMark h _ _ => some (h, clsTimeMark)
  | .eventMask h _ _ => some (h, clsEvent)
  | .eventFlush h => some (h, clsEvent)
  | .maintCalRequest h _ => some (h, clsMaint)
  | .layerStats h _ _ _ _ => some (h, clsMaint)
  | .ashList h _ _ _ => some (h, clsMaint)
  | .eventCatalogue h _ _ => some (h, clsMaint)
  | .partitionReset h _ _ _ _ => some (h, clsMaint)
  | .fwStage h _ _ _ _ _ _ _ _ _ _ _ => some (h, clsMaint)
  | .fwActivate h => some (h, clsMaint)
  | .fwQuery h _ => some (h, clsMaint)
  | .identity h _ => some (h, clsMaint)
  | .attest h _ _ => some (h, clsMaint)
  | .keyEnroll h _ _ _ => some (h, clsMaint)
  | .rollbackAdvance h _ => some (h, clsMaint)
  | .weightManifest h _ _ _ _ _ _ _ => some (h, clsWeight)
  | .weightKey h _ _ _ _ => some (h, clsWeight)
  | .weightShard h _ _ _ _ _ _ _ => some (h, clsWeight)
  | .weightChain h _ _ _ => some (h, clsWeight)
  | .weightCommit h _ _ => some (h, clsWeight)
  | .weightRemove h _ => some (h, clsWeight)
  | .weightCheck h _ _ => some (h, clsWeight)
  | .weightQuery h _ _ => some (h, clsWeight)
  | .weightAbort h _ => some (h, clsWeight)
  | .scan h _ _ _ => some (h, clsTest)
  | .fleetLoad h _ _ _ => some (h, clsTest)
  | .fleetSet h _ _ => some (h, clsTest)
  | .fleetRemove h _ => some (h, clsTest)
  | .inject h _ _ _ _ _ _ => some (h, clsTest)
  | .testQuery h _ _ _ => some (h, clsTest)
  | .windowOpen (some h) _ => some (h, clsProgram)
  | .windowClose (some h) _ => some (h, clsProgram)
  | .windowQuery (some h) _ _ => some (h, clsProgram)
  | _ => none

/-- A descriptor that starts now and is performed (R270, R272). -/
def Sys2Proof.Machine.State.accepts (s : State) (h : Hdr) (cls : Nat) : Bool := s.canStart h && s.headerStatus h cls == .OK

/-- R511 and the chapters' reset state: every register holds its Reset column, an ST register both staged and live (SP_PWR_OFF, held per core, 0); every channel is CLOSED (Table 9-2); the event ring is off; no command waits; memory and registers are in canonical form. What the manual gives no reset value is the model's (NOTES, Assumptions). -/
def Obligations.ResetState : Prop :=
  State.reset.wf = true ∧ State.reset.pending = []
  ∧ (∀ a, State.reset.reg a = resetOf a ∧ State.reset.cfg a = resetOf a ∧ State.reset.stagedReg a = if (pwrOffDie a).isSome then 0 else resetOf a)
  ∧ (∀ c, (State.reset.chan c).st = .closed) ∧ State.reset.ev.enabled = false ∧ State.reset.boot.phase = 0

/-- For an aligned access that covers one register of a fitted block whole: RO is left alone; RW takes the value's writable bits at once, unless its channel is not CLOSED or the event ring is on, which raises CHANNEL_REG_LOCKED and writes nothing; ST changes the staged value alone, and STAGE_SEQ by one; WO performs the action of its block. A write that covers no register changes nothing. -/
def Obligations.Bar0WriteFollowsTheAccessCode : Prop :=
  ∀ (s : State) (off width v : Nat), barAligned off width = true →
    (coveredRegs off width = [] → exec (.bar0Write off width v) s = .next s)
    ∧ ∀ (r : RegRow), coveredRegs off width = [(r, off)] → r.width = 8 * width → s.absentBlock off = false → v < 2 ^ r.width →
      (r.acc = .ro → exec (.bar0Write off width v) s = .next s)
      ∧ (r.acc = .rw → r.mask &&& (2 ^ r.width - 1) ≠ 0 → s.reg off < 2 ^ r.width →
          (s.locked off = none → exec (.bar0Write off width v) s = .next (s.setReg off (v &&& r.mask)))
          ∧ ∀ l, s.locked off = some l → exec (.bar0Write off width v) s = .next (s.raise .CHANNEL_REG_LOCKED Src.host l))
      ∧ (r.acc = .st → r.mask &&& (2 ^ r.width - 1) ≠ 0 → s.stagedReg off < 2 ^ r.width →
          exec (.bar0Write off width v) s = .next (s.stageReg off r.mask v).stageTick)
      ∧ ∀ b o, r.acc = .wo → blockAt off = some (b, o) → exec (.bar0Write off width v) s = .next (s.action b o v)

/-- R10: any other access changes nothing but the event BAR_ACCESS_ERROR with the offset and width; a read of it gives 0xFFFF_FFFF for each 4 bytes. -/
def Obligations.OtherAccessesAreNotPerformed : Prop :=
  ∀ (s : State) (off width v : Nat) (write : Bool), ¬ ((width = 4 ∨ width = 8) ∧ off % width = 0) →
    exec (.bar0InvalidAccess write off width) s = .next (s.raise .BAR_ACCESS_ERROR Src.host [off, width])
    ∧ exec (.bar0Write off width v) s = .next (s.raise .BAR_ACCESS_ERROR Src.host [off, width])
    ∧ ∀ k, (width + 3) / 4 = k → s.bar0Read off width = 2 ^ (32 * k) - 1

/-- The action bits of the channel, event, port, fabric, M-die, die, power and security blocks perform exactly the command of that name. -/
def Obligations.ActionWritesPerformTheirCommand : Prop :=
  ∀ s : State,
    (∀ c v, ((s.chan c).st = .closed → bitOf v 0 = true → exec (.chCtrlOpen c true []) s = .next (s.action (.channel c) Reg.CH_CTRL v))
      ∧ ((s.chan c).st = .opened → bitOf v 1 = true → exec (.chCtrlClose c) s = .next (s.action (.channel c) Reg.CH_CTRL v))
      ∧ ((s.chan c).st = .error → bitOf v 2 = true → exec (.chCtrlReset c) s = .next (s.action (.channel c) Reg.CH_CTRL v))
      ∧ ((s.chan c).st = .draining → s.action (.channel c) Reg.CH_CTRL v = s))
    ∧ (∀ v, exec (.evCtrClear v) s = .next (s.action .event Reg.EV_CTR_CLEAR v) ∧ exec (.pwrCtrClear v) s = .next (s.action .power Reg.PWR_CTR_CLEAR v)
      ∧ exec (.bootCtrClear v) s = .next (s.action .security Reg.BOOT_CTR_CLEAR v) ∧ exec (.secCtrClear v) s = .next (s.action .security Reg.SEC_CTR_CLEAR v)
      ∧ exec (.hkCtrClear v) s = .next (s.action .hk Reg.HK_CTR_CLEAR v) ∧ exec (.hkTdacGo v) s = .next (s.action .hk Reg.HK_TDAC_CTRL v)
      ∧ exec (.hkPartRelease v) s = .next (s.action .hk Reg.HK_PART_RELEASE v)
      ∧ exec (.fabCtrClear v) s = .next (s.action (.port 0) Reg.FAB_CTR_CLEAR v) ∧ exec (.topoCtrClear v) s = .next (s.action (.port 0) Reg.TOPO_CTR_CLEAR v)
      ∧ exec (.wtCtrClear v) s = .next (s.action (.mdie 0) Reg.WT_CTR_CLEAR v))
    ∧ (∀ p v, exec (.gpCtrClear p v) s = .next (s.action (.port p) Reg.GP_CTR_CLEAR v) ∧ (bitOf v 0 = true → exec (.retrain p) s = .next (s.action (.port p) Reg.GP_CTRL v)))
    ∧ (∀ m v, exec (.memCtrClear m v) s = .next (s.action (.mdie m) Reg.MEM_CTR_CLEAR v) ∧ exec (.kvCtrClear m v) s = .next (s.action (.mdie m) Reg.KV_CTR_CLEAR v)
      ∧ exec (.serveCtrClear m v) s = .next (s.action (.mdie m) Reg.SERVE_CTR_CLEAR v) ∧ exec (.syncCtrClear m v) s = .next (s.action (.mdie m) Reg.SYNC_CTR_CLEAR v))
    ∧ ∀ d v, exec (.aeCtrClear d v) s = .next (s.action (.die d) Reg.AE_CTR_CLEAR v) ∧ exec (.dcCtrClear d v) s = .next (s.action (.die d) Reg.DC_CTR_CLEAR v)
      ∧ exec (.calRequest d v) s = .next (s.action (.die d) Reg.CAL_REQUEST v) ∧ exec (.calCtrClear d v) s = .next (s.action (.die d) Reg.CAL_CTR_CLEAR v)
      ∧ exec (.spCtrClear d v) s = .next (s.action (.die d) Reg.SP_CTR_CLEAR v) ∧ exec (.attCtrClear d v) s = .next (s.action (.die d) Reg.ATT_CTR_CLEAR v)
      ∧ exec (.wqCtrClear d v) s = .next (s.action (.die d) Reg.WQ_CTR_CLEAR v) ∧ exec (.seCtrClear d v) s = .next (s.action (.die d) Reg.SE_CTR_CLEAR v)

/-- OPEN in CLOSED at READY runs the checks of R264 in turn: the first that fails leaves the channel CLOSED with its ERROR_CODE and raises CHANNEL_OPEN_FAILED; with none the registers are latched, the versions settled and the doorbell line read. Before READY the OPEN is held. CLOSE drains an OPEN channel, a drained one closes, RESET closes one in ERROR, and a failed access puts an open one into ERROR with its completions discarded. Each does nothing in any other state. Under CXL an invalidated line is read again, under PCIe every line at each poll. The counts are free-running 32-bit totals: a tail more than the ring beyond the fetch head, or a CQ_HEAD past the last completion written, puts the channel into ERROR with RING_OVERRUN; otherwise both are taken, and an OPEN channel has fetched to the tail. COAL_TIME, once running, interrupts on the channel's vector and starts again. -/
def Obligations.ChannelsAndDoorbells : Prop :=
  (∀ (s : State) (c : Nat),
    (∀ ok, (s.chan c).st = .closed → s.ready = true →
      (∀ e, s.openCheck c ok = e → e ≠ .OK → exec (.chCtrlOpen c ok []) s
          = .next ((s.setChan c { s.chan c with err := errorNumber e, openHeld := false }).raise .CHANNEL_OPEN_FAILED Src.host [c] e))
      ∧ (s.openCheck c ok = .OK → ∃ x : Chan, x.st = .opened ∧ x.sqBase = s.reg (chReg c Reg.CH_SQ_BASE) ∧ x.cqBase = s.reg (chReg c Reg.CH_CQ_BASE)
          ∧ x.dbAddr = s.reg (chReg c Reg.CH_DB_ADDR) ∧ x.cfg = s.reg (chReg c Reg.CH_CFG) ∧ x.fetched = 0 ∧ x.started = 0 ∧ x.written = 0 ∧ x.outstanding = [] ∧ x.spill = []
          ∧ x.ringVer = settle (offerList (s.reg (chReg c Reg.CH_RING_OFFER))) (offerList (s.reg Reg.VER_RING))
          ∧ exec (.chCtrlOpen c ok []) s = .next ((s.setChan c x).takeDoorbell c)))
    ∧ (∀ ok, (s.chan c).st = .closed → s.ready = false → exec (.chCtrlOpen c ok []) s = .next (s.setChan c { s.chan c with openHeld := true }))
    ∧ (∀ ok, (s.chan c).st ≠ .closed → exec (.chCtrlOpen c ok []) s = .next s)
    ∧ ((s.chan c).st = .opened → exec (.chCtrlClose c) s = .next (s.setChan c { s.chan c with st := .draining }))
    ∧ ((s.chan c).st ≠ .opened → exec (.chCtrlClose c) s = .next s)
    ∧ ((s.chan c).st = .draining → (s.chan c).started = (s.chan c).fetched → (s.chan c).outstanding = [] → (s.chan c).spill = [] →
        exec (.channelDrainDone c) s = .next (s.setChan c { s.chan c with st := .closed }))
    ∧ ((s.chan c).st = .error → exec (.chCtrlReset c) s = .next (s.setChan c { s.chan c with st := .closed }))
    ∧ ((s.chan c).st ≠ .error → exec (.chCtrlReset c) s = .next s)
    ∧ ((s.chan c).st = .opened ∨ (s.chan c).st = .draining → exec (.channelError c) s
        = .next ((s.setChan c { s.chan c with st := .error, err := 5, spill := [], outstanding := [] }).raise .CHANNEL_ERROR Src.host [c] .HOST_ACCESS)))
  ∧ (∀ (s : State) (c : Nat), s.ready = true →
    let x := s.chan c
    let tail := s.hostNat x.dbAddr 4
    let head := s.hostNat (x.dbAddr + 4) 4
    (s.part.pcie = false → c ≠ 256 → x.isOpen = true → x.overrun tail head = true → exec (.doorbellInvalidation c []) s
        = .next ((s.setChan c { x with st := .error, err := 4, spill := [], outstanding := [] }).raise .CHANNEL_ERROR Src.host [c] .RING_OVERRUN))
    ∧ (s.part.pcie = false → c ≠ 256 → x.isOpen = true → x.overrun tail head = false → x.spill = [] → ∃ t, exec (.doorbellInvalidation c []) s = .next t
        ∧ t.chan c = { x with sqTail := tail, cqHead := head, fetched := if x.st = .opened then tail else x.fetched } ∧ t = { s with chans := t.chans } ∧ ∀ e, e ≠ c → t.chan e = s.chan e)
    ∧ (s.part.pcie = false → s.ev.enabled = true → exec (.doorbellInvalidation 256 []) s = .next s.takeEvHead)
    ∧ (s.part.pcie = true → exec (.doorbellInvalidation c []) s = .next s)
    ∧ (s.part.pcie = false → exec (.dbPoll []) s = .next s)
    ∧ (s.part.pcie = true → (∀ e, e ≠ c → (s.chan e).isOpen = false) → c < 256 → x.isOpen = true → s.ev.enabled = false → exec (.dbPoll []) s = .next (s.takeDoorbell c))
    ∧ (x.isOpen = true → x.irqEn = true → x.coalRun = true → ∃ t, exec (.coalTime c) s = .next t ∧ (t.chan c).sinceIrq = 0 ∧ (t.chan c).coalRun = false
        ∧ Tab.get t.irq c = Tab.get s.irq c + 1 ∧ t = { s with chans := t.chans, irq := t.irq } ∧ ∀ v, v ≠ c → Tab.get t.irq v = Tab.get s.irq v ∧ t.chan v = s.chan v))

/-- For every host descriptor command: while its channel cannot start it nothing changes; when it starts, a later op or field than the settled version, a class the channel's CH_PERMIT withholds or a nonzero reserved field makes it complete with DESC_UNSUPPORTED, DESC_NOT_PERMITTED or DESC_FORMAT, in that order, and nothing else happens than the start and the completion. finish, which ends every descriptor: in an open channel with room the next slot of the ring takes TAG, STATUS, the results and PHASE (1 on the first pass), the count moves on by one modulo 2^32 and no other slot changes; behind a full ring or a spill it waits as the last of the spill; a channel in CLOSED or ERROR writes none. No other channel changes. -/
def Obligations.DescriptorsStartAndComplete : Prop :=
  (∀ (s : State) (c : Instr) (h : Hdr) (cls : Nat), c.hostDescriptor = some (h, cls) →
    (s.canStart h = false → exec c s = .next s)
    ∧ (s.canStart h = true →
      (h.newer = true → exec c s = .next ((s.start h).finish (s.descOf h) .DESC_UNSUPPORTED 0 0))
      ∧ (h.newer = false → s.permits h.chan cls = false → exec c s = .next ((s.start h).finish (s.descOf h) .DESC_NOT_PERMITTED 0 0))
      ∧ (h.newer = false → s.permits h.chan cls = true → h.reserved = true → exec c s = .next ((s.start h).finish (s.descOf h) .DESC_FORMAT 0 0))))
  ∧ (∀ (s : State) (d : Desc) (st : Code) (r0 r1 : Nat),
    let x := s.chan d.chan
    let y := (s.finish d st r0 r1).chan d.chan
    let slot := cqKey d.chan (x.written % 2 ^ x.cqLog)
    y.outstanding = x.outstanding.erase d
    ∧ (∀ e, e ≠ d.chan → (s.finish d st r0 r1).chan e = s.chan e)
    ∧ (x.isOpen = true → x.cqFull = false → x.spill = [] →
        y.written = (x.written + 1) % 2 ^ 32
        ∧ Tab.get (s.finish d st r0 r1).cq slot = { tag := d.tag, status := st, aux := d.ring, r0 := r0, r1 := r1, phase := x.written / 2 ^ x.cqLog % 2 == 0 }
        ∧ ∀ k, k ≠ slot → Tab.get (s.finish d st r0 r1).cq k = Tab.get s.cq k)
    ∧ (x.isOpen = true → x.cqFull = true ∨ x.spill ≠ [] →
        y.spill = x.spill ++ [{ tag := d.tag, status := st, aux := d.ring, r0 := r0, r1 := r1 }] ∧ y.written = x.written ∧ (s.finish d st r0 r1).cq = s.cq)
    ∧ (x.isOpen = false → y.spill = x.spill ∧ y.written = x.written ∧ (s.finish d st r0 r1).cq = s.cq))
/-- The event that arrives leaves the path to the collector and LAST takes the stamp. Unmasked, with the ring enabled, in READY, nothing held and space in the ring, its record takes the next slot with the stamp, the next SEQ and PHASE; with fewer than 65,536 held and the ring not able to take it, it is held last; beyond that it is dropped and counted in EV_LOST_TOTAL with its stamp as the last; masked, nothing is written. ENABLE with RING_LOG2 6 to 16 and aligned addresses starts the ring from slot 0, and with nothing held or dropped changes nothing else; outside those ranges it does not (the model's choice, log 26). DISABLE stops writing. MASK sets the 256 mask bits and the least SEVERITY; FLUSH completes at once where nothing is held and otherwise waits for the records held now; EVENT_CATALOGUE writes what the buffer takes and returns the bytes needed. -/
def Obligations.EventsAndTheirRing : Prop :=
  (∀ (s : State) (i : Nat) (e : EvRec), s.ev.inFlight[i]? = some e →
    let a : State := { s with ev := { s.ev with inFlight := s.ev.inFlight.eraseIdx i }, time := { s.time with lastStamp := s.time.tick } }
    let free := s.ready && s.ev.enabled && !s.ev.failed && s.ev.held.isEmpty && !s.evFull
    let line : EvLine := { ev := e, stamp := s.time.tick, seq := s.ev.seq, phase := s.ev.written / s.evSize % 2 == 0 }
    (s.evMasked e.code = true → exec (.eventArrival i) s = .next a)
    ∧ (s.evMasked e.code = false → free = true → ∃ t, exec (.eventArrival i) s = .next t
        ∧ Tab.get t.ev.ring (s.ev.written % s.evSize) = some line ∧ (∀ k, k ≠ s.ev.written % s.evSize → Tab.get t.ev.ring k = Tab.get s.ev.ring k)
        ∧ t.ev.written = (s.ev.written + 1) % 2 ^ 32 ∧ t.ev.seq = (s.ev.seq + 1) % 2 ^ 32 ∧ t.ev.inFlight = s.ev.inFlight.eraseIdx i
        ∧ t.time = { s.time with lastStamp := s.time.tick } ∧ t = { s with ev := t.ev, time := t.time, irq := t.irq })
    ∧ (s.evMasked e.code = false → free = false → s.ev.held.length < 65536 → exec (.eventArrival i) s
        = .next { a with ev := { a.ev with held := s.ev.held ++ [{ ev := e, stamp := s.time.tick, seq := 0, phase := false }] } })
    ∧ (s.evMasked e.code = false → free = false → 65536 ≤ s.ev.held.length → ∃ t, exec (.eventArrival i) s = .next t
        ∧ t.ev.dropped = s.ev.dropped + 1 ∧ t.ev.dropLast = s.time.tick ∧ t.ev.held = s.ev.held
        ∧ t.reg (evReg Reg.EV_LOST_TOTAL) = min (2 ^ 64 - 1) (s.reg (evReg Reg.EV_LOST_TOTAL) + 1)))
  ∧ (∀ (s : State) (h : Hdr),
    (s.ev.enabled = false → 6 ≤ bitsOf s.evCfg 0 5 → bitsOf s.evCfg 0 5 ≤ 16 → s.reg (evReg Reg.EV_RING_BASE) % 4096 = 0 → s.reg (evReg Reg.EV_DB_ADDR) % 64 = 0 →
        s.ev.held = [] → s.ev.dropped = 0 →
        exec .evCtrlEnable s = .next { s with ev := { s.ev with enabled := true, failed := false, written := 0, head := 0, sinceIrq := 0 } })
    ∧ (s.ev.enabled = true ∨ bitsOf s.evCfg 0 5 < 6 ∨ 16 < bitsOf s.evCfg 0 5 ∨ s.reg (evReg Reg.EV_RING_BASE) % 4096 ≠ 0 ∨ s.reg (evReg Reg.EV_DB_ADDR) % 64 ≠ 0 →
        exec .evCtrlEnable s = .next s)
    ∧ exec .evCtrlDisable s = .next { s with ev := { s.ev with enabled := false } }
    ∧ (s.accepts h clsEvent = true → ∀ mask sev, exec (.eventMask h mask sev) s
        = .next (State.finish { s.start h with ev := { s.ev with mask := mask % 2 ^ 256, minSeverity := sev } } (s.descOf h) .OK 0 0))
    ∧ (s.accepts h clsEvent = true → s.ev.held = [] → exec (.eventFlush h) s = .next ((s.start h).finish (s.descOf h) .OK 0 0))
    ∧ (s.accepts h clsEvent = true → s.ev.held ≠ [] → exec (.eventFlush h) s
        = .next { s.start h with ev := { s.ev with flushes := s.ev.flushes ++ [(s.descOf h, s.ev.held.length)] } })
    ∧ (s.accepts h clsMaint = true → ∀ buffer n, exec (.eventCatalogue h buffer n) s
        = .next (((s.start h).hostPut buffer ((List.range (min n Config.catalogueLength)).map Config.catalogueByte)).finish (s.descOf h) .OK Config.catalogueLength 0)))


/-- The entry of the M-die with the most CLOSED entries, at its lowest index, becomes OPEN with the block's fields, the channel, the tokens as pending input and, in a used entry, the next INCARNATION; RESULT0 is the handle. A reserved field, an image that is not loaded, a length, TOP_K or temperature out of range, a retiring adapter and a full table refuse it in that order and change nothing but the completion. -/
def Obligations.RequestOpenFillsAnEntry : Prop :=
  ∀ (s : State) (h : Hdr) (params tokens count : Nat), s.accepts h clsRequest = true →
    let t := s.start h
    let d := s.descOf h
    let p := parseParams (t.hostRead params 64)
    let c := Instr.requestOpen h params tokens count
    (p.reserved = true → exec c s = .next (t.finish d .DESC_FORMAT 0 0))
    ∧ (p.reserved = false → t.image p.image = none → exec c s = .next (t.finish d .IMAGE_ABSENT 0 0))
    ∧ ∀ g, p.reserved = false → t.image p.image = some g →
      (g.context < p.maxLength ∨ p.maxLength < count ∨ 1024 < p.topK → exec c s = .next (t.finish d .REQUEST_RANGE 0 0))
      ∧ (p.maxLength ≤ g.context → count ≤ p.maxLength → p.topK ≤ 1024 → p.temp = 0#32 ∨ F32.isScale p.temp = true →
        (p.noAdapter = false → (t.adapter p.slot).retiring = true → exec c s = .next (t.finish d .ADAPTER_RETIRING 0 0))
        ∧ (p.noAdapter = true ∨ (t.adapter p.slot).retiring = false → t.freeReq = none → exec c s = .next (t.finish d .REQUEST_TABLE_FULL 0 0))
        ∧ (p.noAdapter = true ∨ (t.adapter p.slot).retiring = false → ∀ i, t.freeReq = some i → (t.req i).st = .closed
          ∧ ∃ u : State, exec c s = .next (u.finish d .OK (u.handle i) 0) ∧ u = { t with reqs := u.reqs } ∧ (∀ j, j ≠ i → u.req j = t.req j)
            ∧ (u.req i).st = .opened ∧ (u.req i).incarnation = (if (t.req i).used then ((t.req i).incarnation + 1) % 4096 else (t.req i).incarnation)
            ∧ (u.req i).chan = h.chan ∧ (u.req i).image = p.image ∧ (u.req i).maxLength = p.maxLength ∧ (u.req i).priority = p.priority
            ∧ (u.req i).deadline = p.deadline ∧ (u.req i).seed = p.seed ∧ (u.req i).temp = p.temp ∧ (u.req i).topK = p.topK
            ∧ (u.req i).ttl = p.ttl ∧ (u.req i).hold = p.hold ∧ (u.req i).hostTag = p.hostTag ∧ (u.req i).slot = p.slot
            ∧ (u.req i).input = t.tokens tokens count ∧ (u.req i).length = 0 ∧ (u.req i).token = none))

/-- The request operations whose states Table 8-6 lists, with the header, the handle and the states. -/
def Sys2Proof.Instr.requestStates : Instr → Option (Hdr × Nat × List ReqState)
  | .requestAppend h x _ _ _ => some (h, x, [.opened, .ember, .peat])
  | .requestPause h x _ _ _ _ => some (h, x, [.active, .ember])
  | .requestRewind h x _ _ _ => some (h, x, [.active, .ember])
  | .requestMigrate h x => some (h, x, [.active, .ember, .peat])
  | .requestClose h x => some (h, x, [.opened, .active, .ember, .peat, .expired])
  | _ => none

/-- In this order: another INCARNATION than the entry's completes with REQUEST_STALE, an entry of another channel with REQUEST_CHANNEL, a state not listed with REQUEST_STATE. -/
def Obligations.RequestOperationsCheckTheHandle : Prop :=
  ∀ (s : State) (c : Instr) (h : Hdr) (x : Nat) (l : List ReqState), c.requestStates = some (h, x, l) → s.accepts h clsRequest = true →
    let r := (s.start h).req (x % 2 ^ 20)
    (r.incarnation ≠ x / 2 ^ 20 → exec c s = .next ((s.start h).finish (s.descOf h) .REQUEST_STALE 0 0))
    ∧ (r.incarnation = x / 2 ^ 20 → r.st ≠ .closed → r.chan ≠ h.chan → exec c s = .next ((s.start h).finish (s.descOf h) .REQUEST_CHANNEL 0 0))
    ∧ (r.incarnation = x / 2 ^ 20 → r.st = .closed ∨ r.chan = h.chan → r.st ∉ l → exec c s = .next ((s.start h).finish (s.descOf h) .REQUEST_STATE 0 0))

/-- An accepted request descriptor on its own entry, which is entry `i` in state `u` of table. -/
def Sys2Proof.Machine.State.onEntry (s : State) (h : Hdr) (x : Nat) (r : Req) : Prop :=
  s.accepts h clsRequest = true ∧ r = (s.start h).req (x % 2 ^ 20) ∧ r.incarnation = x / 2 ^ 20 ∧ r.chan = h.chan

/-- For an entry of the descriptor's own channel and incarnation, in a state the operation lists: APPEND adds its tokens to the pending input (to what is held, in PEAT), unless the length would pass MAX_LENGTH; DRAFT takes a tree in order; PAUSE notes the pause, the target, the time to live and the hold; RENEW sets the time to live and, in PEAT, the expiry from now; REWIND to a position within the ring of 480 tokens or with a valid token is noted; MIGRATE is noted where a version exists; CLOSE stops the move and is noted; QUERY writes the entry and the page table's header. Each completes with OK. -/
def Obligations.RequestOperationsChangeTheirEntry : Prop :=
  ∀ (s : State) (h : Hdr) (x : Nat) (r : Req), s.onEntry h x r →
    let t := s.start h
    let d := s.descOf h
    let i := x % 2 ^ 20
    let held := (r.late.map (fun y => y.2.length)).foldl (· + ·) 0
    (∀ keep tokens count, r.st = .opened ∨ r.st = .ember ∨ r.st = .peat →
      let total := r.length + (if keep && r.token.isSome then 1 else 0) + r.input.length + held + count
      (r.maxLength < total → exec (.requestAppend h x keep tokens count) s = .next (t.finish d .REQUEST_RANGE 0 0))
      ∧ (total ≤ r.maxLength → r.st ≠ .peat → exec (.requestAppend h x keep tokens count) s
          = .next ((t.setReq i { r with input := r.input ++ t.tokens tokens count, token := if keep then r.token else none }).finish d .OK 0 0))
      ∧ (total ≤ r.maxLength → r.st = .peat → exec (.requestAppend h x keep tokens count) s
          = .next ((t.setReq i { r with late := r.late ++ [(keep, t.tokens tokens count)] }).finish d .OK 0 0)))
    ∧ (∀ len n tree, r.st = .active → r.draftMode = 1 →
      (treeOk (t.treeNodes tree n) = false → exec (.requestDraft h x len n tree) s = .next (t.finish d .TREE_ORDER 0 0))
      ∧ (treeOk (t.treeNodes tree n) = true → exec (.requestDraft h x len n tree) s
          = .next ((t.setReq i { r with tree := some { forLength := len, nodes := t.treeNodes tree n } }).finish d .OK 0 0)))
    ∧ (∀ target ttl, r.st = .active → r.tier ≠ .moving → exec (.requestPause h x false target ttl 0) s
        = .next ((t.setReq i { r with peatTarget := target, ttl := ttl, hold := 0, wantMove := false, wantPause := true }).finish d .OK 0 0))
    ∧ (∀ toPeat target ttl hold, r.st = .active ∨ r.st = .ember → toPeat = true ∨ hold ≠ 0 → t.peatEnabled target = false →
        exec (.requestPause h x toPeat target ttl hold) s = .next (t.finish d .PEAT_TARGET_DISABLED 0 0))
    ∧ (∀ ttl, r.st = .peat → exec (.requestRenew h x ttl) s
        = .next ((t.setReq i { r with ttl := ttl, warned := false, expiry := s.time.tick + ttl * 10 ^ 9 }).finish d .OK 0 0))
    ∧ (∀ ttl, r.st = .expired → exec (.requestRenew h x ttl) s = .next (t.finish d .REQUEST_EXPIRED 0 0))
    ∧ (∀ l token valid, r.st = .active ∨ r.st = .ember →
      (r.length < l → exec (.requestRewind h x l token valid) s = .next (t.finish d .REWIND_RANGE 0 0))
      ∧ (l < r.length → r.length ≤ l + 479 → exec (.requestRewind h x l token valid) s
          = .next ((t.setReq i { r with wantRewind := some (l, some (Tab.get r.ring (l % 480))) }).finish d .OK 0 0))
      ∧ (l + 479 < r.length → valid = false → exec (.requestRewind h x l token valid) s = .next (t.finish d .REWIND_RANGE 0 0))
      ∧ (l + 479 < r.length → valid = true → exec (.requestRewind h x l token valid) s
          = .next ((t.setReq i { r with wantRewind := some (l, some token) }).finish d .OK 0 0)))
    ∧ (r.st = .active ∨ r.st = .ember ∨ r.st = .peat →
      (r.noAdapter = true ∨ (t.adapter r.slot).live = [] → exec (.requestMigrate h x) s = .next (t.finish d .ADAPTER_NONE 0 0))
      ∧ (r.noAdapter = false → (t.adapter r.slot).live ≠ [] → exec (.requestMigrate h x) s = .next ((t.setReq i { r with migrate := true }).finish d .OK 0 0)))
    ∧ (r.st ≠ .closed → r.resuming = none → r.tier ≠ .moving → ∃ u : State, exec (.requestClose h x) s = .next (u.finish d .OK 0 0)
        ∧ u.req i = { r with wantMove := false, wantClose := true } ∧ (∀ j, j ≠ i → u.req j = t.req j) ∧ u = { t with reqs := u.reqs })
    ∧ ∀ buffer, exec (.requestQuery h x buffer) s = .next ((t.hostPut buffer (r.entry i ++ (t.table i).header i)).finish d .OK 0 0)

/-- From EMBER the request takes the channel, its move stops and the resumption is noted, complete at once; from PEAT with cells and slots enough the pages are taken, TIER is MOVING under a read hold and the descriptor stays open; with too few it completes with EMBER_FULL and nothing else changes. -/
def Obligations.RequestResume : Prop :=
  ∀ (s : State) (h : Hdr) (x : Nat) (keep : Bool) (r : Req), s.onEntry h x r →
    let t := s.start h
    let d := s.descOf h
    let i := x % 2 ^ 20
    let t1 := t.setReq i r
    (r.st = .ember → r.tier ≠ .moving → ∃ u : State, exec (.requestResume h x keep) s = .next (u.finish d .OK 0 0) ∧ u = { t with reqs := u.reqs }
        ∧ u.req i = { r with chan := h.chan, wantMove := false, wantResume := true } ∧ ∀ j, j ≠ i → u.req j = t.req j)
    ∧ (r.st = .peat → r.resuming = none → t1.resumeShort i = true → exec (.requestResume h x keep) s = .next (t.finish d .EMBER_FULL 0 0))
    ∧ (r.st = .peat → r.resuming = none → t1.resumeShort i = false → ∃ u : State, exec (.requestResume h x keep) s = .next u
        ∧ (u.req i).resuming = some d ∧ (u.req i).tier = .moving ∧ (u.req i).keepPeat = keep ∧ (u.req i).st = .peat ∧ (u.table i).tier = .moving ∧ (u.table i).valid = true
        ∧ u.cq = t.cq)
    ∧ (r.st ≠ .ember → r.st ≠ .peat → exec (.requestResume h x keep) s = .next (t.finish d .REQUEST_STATE 0 0))

/-- EMBER_HOLD, once its seconds have passed on a request paused to the Ember tier with a target in use: the first extent that fits is taken, TIER becomes MOVING and a read hold is registered; before that, or with no hold or target, nothing happens. When every unit is acknowledged both digests are written into the entry and a CXL_HOST target takes the image, MOVING staying to the next boundary. A failed move releases the extent and the hold, puts TIER back to EMBER and raises PEAT_MOVE_FAILED with the handle, the target and the status. WARN_LEAD seconds before EXPIRY_TICK a parked request is warned of once, with its handle and expiry; past it, with no resumption running, the extent and the pin are released, STATE is EXPIRED and the expiry is counted. A resumption whose read failed frees what it took, stays parked, is counted and completes RESUME_FAILED with the status; one whose checks agree waits for the boundary and completes OK. -/
def Obligations.PeatTier : Prop :=
  (∀ (s : State) (i : Nat),
    let r := s.req i
    let t := s.table i
    (r.st = .ember → r.tier = .ember → r.hold ≠ 0 → s.peatEnabled r.peatTarget = true → r.pauseTick + r.hold * 10 ^ 9 ≤ s.time.tick →
        ∀ ofs n, s.peatFit i r.peatTarget = some (ofs, n) → t.holdStatus = .OK →
        ∃ u : State, exec (.emberHold i) s = .next u ∧ (u.req i).tier = .moving ∧ (u.req i).peatOfs = ofs ∧ (u.req i).peatUnits = n ∧ (u.req i).st = .ember
          ∧ (u.table i).tier = .moving ∧ (u.table i).holds = t.gen :: t.holds ∧ (∀ j, j ≠ i → u.req j = s.req j ∧ u.table j = s.table j) ∧ u = { s with reqs := u.reqs, tables := u.tables })
    ∧ (r.hold = 0 ∨ s.peatEnabled r.peatTarget = false ∨ s.time.tick < r.pauseTick + r.hold * 10 ^ 9 → exec (.emberHold i) s = .next s)
    ∧ (r.st = .ember → r.tier = .moving → r.moved = false → ∀ g, s.image r.image = some g → s.peatKind r.peatTarget = 1 →
        ∃ u : State, exec (.peatMoveDone i) s = .next u ∧ (u.req i).moved = true ∧ (u.req i).recDigest = dig48 (recDigestOf (r.entry i) r.companion) ∧ (u.req i).tier = .moving
          ∧ (∀ j, j ≠ i → u.req j = s.req j) ∧ u = { s with reqs := u.reqs })
    ∧ (r.st = .ember → r.tier = .moving → r.moved = false → ∀ g, s.image r.image = some g → s.peatKind r.peatTarget = 2 →
        ∃ u : State, exec (.peatMoveDone i) s = .next (u.hostPut (s.peatAddr r.peatTarget + r.peatOfs) (s.peatImage i g)) ∧ (u.req i).moved = true ∧ u = { s with reqs := u.reqs })
    ∧ (r.st = .ember → r.tier = .moving → r.moved = false → ∀ st, ∃ u : State, exec (.peatMoveFailed i st) s = .next (u.raise .PEAT_MOVE_FAILED Src.steward [s.handle i, r.peatTarget, st])
          ∧ (u.req i).tier = .ember ∧ (u.req i).peatUnits = 0 ∧ (u.req i).st = .ember ∧ (u.table i).tier = .ember ∧ (u.table i).holds = t.holds.erase (t.holds.headD 0)
          ∧ ∀ j, j ≠ i → u.req j = s.req j ∧ u.table j = s.table j)
    ∧ (r.st ≠ .ember ∨ r.tier ≠ .moving → ∀ st, exec (.peatMoveFailed i st) s = .next s))
  ∧ (∀ (s : State) (i : Nat),
    let r := s.req i
    (r.st = .peat → r.warned = false → r.expiry ≤ s.time.tick + s.warnLead * 10 ^ 9 → exec (.peatExpiryWarning i) s
        = .next ((s.setReq i { r with warned := true }).raise .PEAT_EXPIRY_WARNING Src.steward [s.handle i, r.expiry]))
    ∧ (r.st ≠ .peat ∨ r.warned = true ∨ s.time.tick + s.warnLead * 10 ^ 9 < r.expiry → exec (.peatExpiryWarning i) s = .next s)
    ∧ (r.st = .peat → r.resuming = none → r.checked = false → r.expiry ≤ s.time.tick → ∃ t : State, exec (.requestExpired i) s = .next t ∧ (t.req i).st = .expired
        ∧ (t.req i).token = none ∧ (t.req i).pinned = false ∧ (t.req i).peatUnits = 0
        ∧ t.reg (memReg (i % 4) Reg.PEAT_EXPIRED_TOTAL) = min (2 ^ 64 - 1) (s.reg (memReg (i % 4) Reg.PEAT_EXPIRED_TOTAL) + 1) ∧ ∀ j, j ≠ i → t.req j = s.req j)
    ∧ (r.st ≠ .peat ∨ r.resuming ≠ none ∨ s.time.tick < r.expiry → exec (.requestExpired i) s = .next s)
    ∧ (∀ d g st img, r.resuming = some d → s.image r.image = some g → st ≠ 0 → exec (.resumptionChecked i st img) s = .next (s.resumeFailed i st d))
    ∧ (∀ d g img, r.resuming = some d → s.image r.image = some g → s.peatKind r.peatTarget ≠ 2 →
        (∀ n, (s.checkImage i g img).2 = some n → exec (.resumptionChecked i 0 img) s = .next ((s.checkImage i g img).1.resumeFailed i n d))
        ∧ ((s.checkImage i g img).2 = none → ∃ u : State, exec (.resumptionChecked i 0 img) s = .next (u.finish d .OK 0 0)
            ∧ (u.req i).resuming = none ∧ (u.req i).checked = true))
    ∧ (r.resuming = none → ∀ st img, exec (.resumptionChecked i st img) s = .next s))

/-- A mark returns the steward counter in RESULT0 and the PTM root time at it in RESULT1 (0 with no exchange), and records TM_LAST_TICK and TM_LAST_HOST; with a STEWARD_CHANGED between capture and completion it is STALE and records neither. An exchange keeps its tick and root time. A decoder commit is kept under CXL alone. The heartbeat and the standby's copy take the counter. When STEWARD_TIMEOUT has passed with no heartbeat and a standby exists, it takes over: the counter goes on from the larger of the standby's own and the last stamp plus 1 and so never back, a step whose commit is not complete is dropped, and STEWARD_CHANGED carries the last stamp, the first, the step and whether it was abandoned. -/
def Obligations.TimeAndTakeOver : Prop :=
  (∀ (s : State) (h : Hdr) (host : Nat),
    (s.accepts h clsTimeMark = true → ∀ ptm, ptm = s.ptmAt s.time.tick →
      (∃ u : State, exec (.timeMark h host false) s = .next (u.finish (s.descOf h) .OK s.time.tick ptm) ∧ u = { s.start h with regs := u.regs }
        ∧ u.reg (evReg Reg.TM_LAST_TICK) = s.time.tick ∧ u.reg (evReg Reg.TM_LAST_HOST) = host
        ∧ ∀ a, a ≠ evReg Reg.TM_LAST_TICK → a ≠ evReg Reg.TM_LAST_HOST → u.reg a = s.reg a)
      ∧ exec (.timeMark h host true) s = .next ((s.start h).finish (s.descOf h) .OK s.time.tick ptm false true))
    ∧ (s.time.ptm = none → ∀ t, s.ptmAt t = 0)
    ∧ (∀ root t, (exec (.ptmExchange root) s = .next { s with time := { s.time with ptm := some (s.time.tick, root) } })
        ∧ (s.time.ptm = some (s.time.tick, root) → root < 2 ^ 64 → t = s.time.tick → s.ptmAt t = root))
    ∧ (∀ b, s.part.pcie = false → exec (.hdmDecoderCommit b) s = .next { s with hdmDecoder := b })
    ∧ ∀ b, s.part.pcie = true → exec (.hdmDecoderCommit b) s = .next s)
  ∧ ((∀ s : State, exec .stewardHeartbeat s = .next { s with step := { s.step with heartbeat := s.time.tick } })
  ∧ (∀ s : State, exec .stewardCounterSync s = .next { s with time := { s.time with standby := s.time.tick } })
  ∧ (∀ s : State, s.time.tick < s.step.heartbeat + s.stewardTimeout * 100000 → exec .stewardTimeout s = .next s)
  ∧ ∀ s : State, s.step.heartbeat + s.stewardTimeout * 100000 ≤ s.time.tick → s.standbyDie ≠ none → s.ready = true →
    ∃ t : State, exec .stewardTimeout s = .next t ∧ s.time.lastStamp < t.time.tick ∧ s.time.standby ≤ t.time.tick ∧ t.step.standby = !s.step.standby
      ∧ (s.step.running = true → s.step.committed = false → t.step.running = false ∧ t.step.admitted = [])
      ∧ (s.step.running = false ∨ s.step.committed = true → t.step.running = s.step.running ∧ t.step.admitted = s.step.admitted)
      ∧ ∃ n l, t.ev.inFlight = l ++ [{ code := .STEWARD_CHANGED, src := Src.steward, count := n, args := [s.time.lastStamp, max s.time.standby (s.time.lastStamp + 1), s.step.num, b2n (s.step.running && !s.step.committed)] }])

/-- An install into a slot that is not retiring and has fewer than four versions, whose regions can be declared, raises the version number by one and waits as the slot's next version, which RESULT0 names; a slot above 1023 is DESC_FORMAT, a retiring one ADAPTER_RETIRING, a full one ADAPTER_VERSIONS_FULL. REMOVE marks the slot RETIRING. QUERY writes the slot's four records. -/
def Obligations.Adapters : Prop :=
  ∀ (s : State) (h : Hdr) (slot : Nat), s.accepts h clsAdapter = true →
    let t := s.start h
    let d := s.descOf h
    let x := s.adapter slot
    (∀ src len home rs, 1023 < slot → exec (.adapterInstall h slot src len home rs) s = .next (t.finish d .DESC_FORMAT 0 0))
    ∧ (∀ src len home rs, slot ≤ 1023 → x.retiring = true → exec (.adapterInstall h slot src len home rs) s = .next (t.finish d .ADAPTER_RETIRING 0 0))
    ∧ (∀ src len home rs, slot ≤ 1023 → x.retiring = false → 4 ≤ x.live.length + (if x.next.isSome then 1 else 0) →
        exec (.adapterInstall h slot src len home rs) s = .next (t.finish d .ADAPTER_VERSIONS_FULL 0 0))
    ∧ (∀ src len home rs, t.installStatus slot rs = .OK → ∃ u : State, exec (.adapterInstall h slot src len home rs) s = .next (u.finish d .OK ((x.last + 1) % 2 ^ 16) 0)
        ∧ (u.adapter slot).next = some { number := (x.last + 1) % 2 ^ 16 } ∧ (u.adapter slot).last = (x.last + 1) % 2 ^ 16 ∧ (u.adapter slot).live = x.live)
    ∧ (1023 < slot → exec (.adapterRemove h slot) s = .next (t.finish d .DESC_FORMAT 0 0))
    ∧ (slot ≤ 1023 → exec (.adapterRemove h slot) s = .next ((t.setAdapter slot { x with retiring := true }).finish d .OK 0 0))
    ∧ (1023 < slot → ∀ b, exec (.adapterQuery h slot b) s = .next (t.finish d .DESC_FORMAT 0 0))
    ∧ (slot ≤ 1023 → ∀ b, exec (.adapterQuery h slot b) s = .next ((t.hostPut b ((List.range 4).flatMap x.record)).finish d .OK 0 0))

/-- Image number 0xFFFF is IMAGE_RESERVED, a loaded one IMAGE_IN_USE, no common version VERSION_NONE; the first test that fails completes with its status and item and changes nothing else; otherwise the image is loaded under its number, its object references replaced by the objects taken, no other image changed, its atomic targets declared, and RESULT0 is the version. -/
def Obligations.ProgramLoad : Prop :=
  ∀ (s : State) (h : Hdr) (image source length : Nat) (img : Image), s.accepts h clsProgram = true →
    let t := s.start h
    let d := s.descOf h
    let v := settle (offerList (s.reg Reg.VER_IMAGE)) img.offers
    (image = 0xFFFF → exec (.programLoad h image source length img) s = .next (t.finish d .IMAGE_RESERVED 0 0))
    ∧ (image ≠ 0xFFFF → s.image image ≠ none → exec (.programLoad h image source length img) s = .next (t.finish d .IMAGE_IN_USE 0 0))
    ∧ (image ≠ 0xFFFF → s.image image = none → v = 0 → exec (.programLoad h image source length img) s = .next (t.finish d .VERSION_NONE 0 0))
    ∧ (image ≠ 0xFFFF → s.image image = none → v ≠ 0 → ∀ e, t.loadImage image source length (Image.widened img) = .error e →
        exec (.programLoad h image source length img) s = .next (t.finish d e.1 e.2 0))
    ∧ (image ≠ 0xFFFF → s.image image = none → v ≠ 0 → ∀ u, t.loadImage image source length (Image.widened img) = .ok u →
        exec (.programLoad h image source length img) s = .next (u.finish d .OK v 0)
        ∧ (∃ ns, u.image image = some (Image.linked (Image.widened img) ns)) ∧ (∀ j, j ≠ image → u.image j = s.image j)
        ∧ ∃ l, u.mem.atoms = s.mem.atoms ++ l ∧ l.length = img.atoms.length)

/-- RUN checks in turn the length, the image, the entry, LOST regions and busy sequencers, copies the arguments and starts the sequencers. UNLOAD refuses 0xFFFF, an absent image and one that a request not CLOSED names; the image is then gone and no other is. REGION_RELEASE frees the region of a fitted core that is RESIDENT and begins at BASE, and with none completes OK (the model's reading). -/
def Obligations.ProgramsRunAndUnload : Prop :=
  ∀ (s : State) (h : Hdr) (image : Nat), s.accepts h clsProgram = true →
    let t := s.start h
    let d := s.descOf h
    (∀ entry args len ret,
      (65536 < len → exec (.programRun h image entry args len ret) s = .next (t.finish d .DESC_FORMAT 0 0))
      ∧ (len ≤ 65536 → image ≠ 0xFFFF → s.image image = none → exec (.programRun h image entry args len ret) s = .next (t.finish d .IMAGE_ABSENT 0 0))
      ∧ ∀ g, len ≤ 65536 → image ≠ 0xFFFF → s.image image = some g →
        (g.entries.find? (fun e => e.entry == entry) = none → exec (.programRun h image entry args len ret) s = .next (t.finish d .DESC_FORMAT 0 0))
        ∧ ∀ e, g.entries.find? (fun e => e.entry == entry) = some e →
          (t.namesLost e = true → exec (.programRun h image entry args len ret) s = .next (t.finish d .REGION_LOST 0 0))
          ∧ (t.namesLost e = false → (∃ x ∈ e.starts, (s.seq x.1).st ≠ .idle) → exec (.programRun h image entry args len ret) s = .next (t.finish d .SEQ_BUSY 0 0))
          ∧ (t.namesLost e = false → (∀ x ∈ e.starts, (s.seq x.1).st = .idle) → (t.write Src.steward {} e.args (t.hostRead args len)).code = .OK →
              exec (.programRun h image entry args len ret) s
                = .next ((e.starts.foldl (fun s x => (s.seqControl x.1 .OK).seqGoto x.1 x.2) (t.write Src.steward {} e.args (t.hostRead args len)).st).finish d .OK ret 0)))
    ∧ (image = 0xFFFF → exec (.programUnload h image) s = .next (t.finish d .IMAGE_RESERVED 0 0))
    ∧ (image ≠ 0xFFFF → s.image image = none → exec (.programUnload h image) s = .next (t.finish d .IMAGE_ABSENT 0 0))
    ∧ (∀ g, image ≠ 0xFFFF → s.image image = some g → s.imageUsed image = true → exec (.programUnload h image) s = .next (t.finish d .IMAGE_IN_USE 0 0))
    ∧ (∀ g, image ≠ 0xFFFF → s.image image = some g → s.imageUsed image = false → ∃ u : State, exec (.programUnload h image) s = .next (u.finish d .OK 0 0)
        ∧ u.image image = none ∧ (∀ j, j ≠ image → u.image j = s.image j) ∧ ∀ a ∈ u.mem.atoms, a.image ≠ image)
    ∧ ∀ die k c base,
      (7 < die ∨ 7 < k ∨ 7 < c → exec (.regionRelease h die k c base) s = .next (t.finish d .DESC_FORMAT 0 0))
      ∧ (die ≤ 7 → k ≤ 7 → c ≤ 7 → s.fits die = false → exec (.regionRelease h die k c base) s = .next (t.finish d .TARGET_ABSENT 0 0))
      ∧ (die ≤ 7 → k ≤ 7 → c ≤ 7 → s.fits die = true → ∀ j < 32, (∀ i < j, ¬ ((s.region (coreKey die k c) i).valid = true ∧ (s.region (coreKey die k c) i).resident = true ∧ (s.region (coreKey die k c) i).base = base)) →
          (s.region (coreKey die k c) j).valid = true → (s.region (coreKey die k c) j).resident = true → (s.region (coreKey die k c) j).base = base →
          exec (.regionRelease h die k c base) s = .next ((t.setRegion (coreKey die k c) j {}).finish d .OK 0 0))

/-- An open that Table 11-9's checks pass takes the named CLOSED entry, or the lowest, raises WINDOW_OPENED and returns its number; otherwise its first failing check is the status and nothing opens. A close drains an OPEN window and completes only when it is CLOSED; of any other window it is WINDOW_STATE. When the last frame is answered the window is CLOSED, WINDOW_CLOSED carries the frames refused meanwhile and the close completes. A query writes 64 bytes, which the manual gives no layout (free, log 50). -/
def Obligations.Windows : Prop :=
  ∀ (s : State),
    (∀ args, s.winStatus (parseWin args) (winReserved args) = .OK → ∃ n, s.winEntry (parseWin args) = some n ∧ exec (.windowOpen none args) s = .next (s.winOpen n (parseWin args))
      ∧ ((s.winOpen n (parseWin args)).win n).st = .opened ∧ ((s.winOpen n (parseWin args)).win n).args = parseWin args ∧ ∀ j, j ≠ n → (s.winOpen n (parseWin args)).win j = s.win j)
    ∧ (∀ args, s.winStatus (parseWin args) (winReserved args) ≠ .OK → exec (.windowOpen none args) s = .next s)
    ∧ (∀ h args, s.accepts h clsProgram = true → let t := s.start h
        (∀ n, t.winStatus (parseWin args) (winReserved args) = .OK → t.winEntry (parseWin args) = some n → exec (.windowOpen (some h) args) s = .next ((t.winOpen n (parseWin args)).finish (s.descOf h) .OK n 0))
        ∧ (∀ c, t.winStatus (parseWin args) (winReserved args) = c → c ≠ .OK → exec (.windowOpen (some h) args) s = .next (t.finish (s.descOf h) c 0 0)))
    ∧ (∀ n, n < 1024 → (s.win n).st = .opened → exec (.windowClose none n) s = .next (s.setWin n { s.win n with st := .draining, refused := 0, call := none }))
    ∧ (∀ h n, s.accepts h clsProgram = true → n < 1024 → (s.win n).st = .opened →
        exec (.windowClose (some h) n) s = .next ((s.start h).setWin n { s.win n with st := .draining, refused := 0, call := some (s.descOf h) }))
    ∧ (∀ h n, s.accepts h clsProgram = true → 1024 ≤ n ∨ (s.win n).st ≠ .opened → exec (.windowClose (some h) n) s = .next ((s.start h).finish (s.descOf h) .WINDOW_STATE 0 0))
    ∧ (∀ n d, (s.win n).st = .draining → (s.win n).call = some d → exec (.windowDrained n) s
        = .next (((s.setWin n { s.win n with st := .closed, call := none }).raise .WINDOW_CLOSED (Src.port 0) [n, (s.win n).refused]).finish d .OK n 0))
    ∧ (∀ n, (s.win n).st = .draining → (s.win n).call = none → exec (.windowDrained n) s
        = .next ((s.setWin n { s.win n with st := .closed, call := none }).raise .WINDOW_CLOSED (Src.port 0) [n, (s.win n).refused]))
    ∧ (∀ n, (s.win n).st ≠ .draining → exec (.windowDrained n) s = .next s)
    ∧ ∀ h n b, s.accepts h clsProgram = true → ∃ bs : List Byte, bs.length = 64 ∧ exec (.windowQuery (some h) n b) s
        = .next ((State.hostPut { s.start h with fresh := s.fresh + 64 } b bs).finish (s.descOf h) .OK n 0)

/-- A copy between the host and the module, both sides reachable, reads LEN bytes and writes them at once, RESULT0 being the tiles recovered from ALT; a format that no copy has, an unmapped window and a remote side off the 64-byte boundary are refused in that order. What follows for remote operations that have ended is added by `settled`, which changes nothing where none has. -/
def Obligations.DmaCopies : Prop :=
  (∀ s : State, endedRemote s.fab.remotes = none → s.settled = s)
  ∧ ∀ (s : State) (h : Hdr) (c : DmaCopy), s.accepts h 3 = true →
    let t := s.start h
    let d := s.descOf h
    ((c.srcSpace = 0 ∧ c.dstSpace = 0) ∨ c.srcSpace = 3 ∨ c.dstSpace = 3 ∨ c.len = 0 ∨ 2 ^ 40 < c.len ∨ 4095 < c.sync → exec (.dmaCopy h c) s = .next (t.finish d .DMA_FORMAT 0 0).settled)
    ∧ (∀ e, t.dmaCopyStatus c = e → e ≠ .OK → exec (.dmaCopy h c) s = .next (t.finish d e 0 0).settled)
    ∧ (t.dmaCopyStatus c = .OK → c.srcSpace = 0 → c.dstSpace = 1 → isFar (s.loc c.dst) = false → t.blocked (piecesOf (s.loc c.dst) c.len) = none → c.post = false →
        exec (.dmaCopy h c) s = .next ((t.writePieces (fun _ => {}) (t.hostRead c.src c.len) (piecesOf (s.loc c.dst) c.len)).finish d .OK 0 0).settled)
    ∧ (t.dmaCopyStatus c = .OK → c.srcSpace = 1 → c.dstSpace = 0 → isFar (s.loc c.src) = false → (t.dmaCopyRead c []).code = .OK → c.post = true →
        exec (.dmaCopy h c) s = .next ((((t.dmaCopyRead c []).st.hostPut c.dst (t.dmaCopyRead c []).bytes).objPost c.sync 1 reqHost).finish d .OK (t.dmaCopyRead c []).retried 0).settled)

/-- A list with an entry that names no ST register from its start, sets bits above its width, lies in an absent die's block or names a layer of no loaded image is CONFIG_TARGET and stages nothing; an empty list is OK and STAGE_SEQ stays; any other is staged in list order, STAGE_SEQ counts one modulo 2^32 and is RESULT0. Nothing but the staged set and STAGE_SEQ changes: no live value does. COMMIT with one pending is COMMIT_PENDING (0x0802); another STAGE_SEQ than carried is STAGE_CHANGED (0x0801); then a broken rule is reported, and of several the one with the lowest TARGET and, among those, the lowest reason. CHECK changes nothing but its completion; an accepted COMMIT copies the staged set and stays open. -/
def Obligations.ConfigSets : Prop :=
  (∀ (s : State) (h : Hdr), s.accepts h clsConfig = true →
    let t := s.start h
    let d := s.descOf h
    (∀ a n, (∃ e ∈ t.stageList a n, s.stageable e = false) → exec (.configStage h a n) s = .next (t.finish d .CONFIG_TARGET 0 0))
    ∧ (∀ a, exec (.configStage h a 0) s = .next (t.finish d .OK s.stageSeq 0))
    ∧ (∀ a n, n ≠ 0 → (∀ e ∈ t.stageList a n, s.stageable e = true) → ∃ u : State,
        exec (.configStage h a n) s = .next (u.finish d .OK ((s.stageSeq + 1) % 2 ^ 32) 0) ∧ u = { t with regs := u.regs, staged := u.staged }
        ∧ u.staged = (((t.stageList a n).foldl State.stageEntry t).staged) ∧ u.stageSeq = (s.stageSeq + 1) % 2 ^ 32
        ∧ ∀ r, r ≠ stgReg Reg.STAGE_SEQ → u.reg r = s.reg r)
    ∧ ∃ u : State, exec (.configDiscard h) s = .next (u.finish d .OK 0 0) ∧ u.staged = s.live ∧ u.stageSeq = (s.stageSeq + 1) % 2 ^ 32 ∧ u = { t with regs := u.regs, staged := u.staged })
  ∧ ((∀ (s : State) (c : ConfigSet), (s.verdictOf c = none ↔ s.broken c = [])
    ∧ ∀ r a, s.verdictOf c = some (r, a) → (a, r) ∈ s.broken c ∧ ∀ x ∈ s.broken c, a < x.1 ∨ (a = x.1 ∧ r ≤ x.2))
  ∧ ∀ (s : State) (h : Hdr) (seq : Nat), s.accepts h clsConfig = true →
    let t := s.start h
    let d := s.descOf h
    (seq ≠ s.stageSeq → exec (.configCheck h seq) s = .next (t.finish d .COMMIT_REJECTED 0x0801 0))
    ∧ (∀ r a, seq = s.stageSeq → t.verdictOf s.staged = some (r, a) → exec (.configCheck h seq) s = .next (t.finish d .COMMIT_REJECTED r a))
    ∧ (seq = s.stageSeq → t.verdictOf s.staged = none → exec (.configCheck h seq) s = .next (t.finish d .OK 0 0))
    ∧ (s.commit.buffer ≠ none → exec (.configCommit h seq) s = .next ((t.rejected 0x0802 0).finish d .COMMIT_REJECTED 0x0802 0))
    ∧ (s.commit.buffer = none → seq ≠ s.stageSeq → exec (.configCommit h seq) s = .next ((t.rejected 0x0801 0).finish d .COMMIT_REJECTED 0x0801 0))
    ∧ (∀ r a, s.commit.buffer = none → seq = s.stageSeq → t.verdictOf s.staged = some (r, a) → exec (.configCommit h seq) s = .next ((t.rejected r a).finish d .COMMIT_REJECTED r a))
    ∧ (s.commit.buffer = none → seq = s.stageSeq → t.verdictOf s.staged = none → ∃ p : Pending, p.set = s.staged ∧ p.desc = d
        ∧ exec (.configCommit h seq) s = .next { t with commit := { s.commit with buffer := some p } }))

/-- STEP_BOUNDARY and EMPTY_STEP_BOUNDARY do nothing unless a boundary can be made (READY, and no step running that is neither committed nor abandoned), EMPTY also unless no step runs and a commit waits; otherwise they make one. An affected block's switch at its safe point gives it the committed values; the last one completes the COMMIT with CONFIG_EPOCH and the boundary's tick. Any other block's changes nothing. -/
def Obligations.BoundariesAndSafePoints : Prop :=
  ∀ s : State,
    (∀ sl, s.atBoundary = false → exec (.stepBoundary sl) s = .next s)
    ∧ (∀ sl, s.ready = true → s.step.running = false ∨ s.step.committed = true ∨ s.step.abandoned = true → ∃ t : State, exec (.stepBoundary sl) s = .next t
        ∧ t.step.committed = false ∧ t.step.abandoned = false ∧ t.step.rerun = [] ∧ t.topo.announced = none ∧ t.topo.clean = [])
    ∧ (s.ready = true → s.step.running = false → s.commit.buffer ≠ none → s.commit.blocks = [] → exec .emptyStepBoundary s = exec (.stepBoundary []) s)
    ∧ (s.step.running = true ∨ s.commit.buffer = none ∨ s.commit.blocks ≠ [] → exec .emptyStepBoundary s = .next s)
    ∧ (∀ n, s.commit.buffer = none → exec (.blockSafePointSwitch n) s = .next s)
    ∧ (∀ n p, s.commit.buffer = some p → n ∉ s.commit.blocks → exec (.blockSafePointSwitch n) s = .next s)
    ∧ (∀ p, s.commit.buffer = some p → s.commit.blocks = [18] → s.hk.slot = 0 → ∃ u : State, exec (.blockSafePointSwitch 18) s
        = .next (u.finish p.desc .OK (s.reg (stgReg Reg.CONFIG_EPOCH)) s.commit.boundary) ∧ u.live = s.live.take p.set 18 ∧ u.commit.buffer = none)
    ∧ ∀ n m p, 16 ≤ n → s.commit.buffer = some p → s.commit.blocks = [n, m] → n ≠ m → s.hk.slot = 0 → exec (.blockSafePointSwitch n) s
        = .next { s with live := s.live.take p.set n, commit := { s.commit with blocks := [m] } }

/-- After any step boundary that is made, the admitted step has at most STEP_SEQ_MAX sequences and every one of them starts at a row below STEP_ROWS_MAX, by the values then live; the order of candidates is total: of two requests one comes before the other, by PRIORITY, DEADLINE (0 last), LAST_COMMIT_TICK and index. -/
def Obligations.AdmissionKeepsTheStepLimits : Prop :=
  (∀ (s t : State) (sl : List SliceRun), s.atBoundary = true → exec (.stepBoundary sl) s = .next t →
    t.step.admitted.length ≤ t.stepSeqMax ∧ ∀ a ∈ t.step.admitted, a.row < t.stepRowsMax)
  ∧ ∀ (s : State) (i j k : Nat), (s.admitBefore i j = true ∨ s.admitBefore j i = true) ∧ (s.admitBefore i j = true → s.admitBefore j k = true → s.admitBefore i k = true)
    ∧ ((s.req i).priority > (s.req j).priority → s.admitBefore i j = true ∧ s.admitBefore j i = false)

/-- A running step that is neither committed nor abandoned, and that the group's lead lets commit, is committed under its number. A lone sequence whose prefill chunk leaves input pending advances LENGTH by its chunk, samples nothing and delivers nothing; one that samples greedily and may deliver takes the largest logit's token as the pending one at its position, counts one delivered and holds it in TOKEN_RING. A trouble pauses its sequence with the trouble's reason and commits no token. Otherwise the command changes nothing. -/
def Obligations.StepCommits : Prop :=
  ∀ s : State,
    (∀ l, s.step.running = false ∨ s.step.committed = true ∨ s.step.abandoned = true ∨ s.mayCommit = false → exec (.stepCommit l) s = .next s)
    ∧ (s.step.running = true → s.step.committed = false → s.step.abandoned = false → s.mayCommit = true →
      (s.step.admitted = [] → ∃ t : State, exec (.stepCommit []) s = .next t ∧ t.step.committed = true ∧ t.step.journal = s.step.num ∧ t.step.attempt = 0
          ∧ t.topo.lastClean = s.step.num ∧ t = { s with step := t.step, topo := t.topo })
      ∧ ∀ a g, s.step.admitted = [a] → s.image (s.req a.idx).image = some g → a.tree = none →
        let r := s.req a.idx
        let p := a.base + a.feed.length
        (s.troubles = [] → a.sample = false → ∃ t : State, exec (.stepCommit []) s = .next t ∧ t.step.committed = true ∧ t.step.journal = s.step.num ∧ t.cq = s.cq
          ∧ (t.req a.idx).length = p ∧ (t.req a.idx).token = none ∧ (t.req a.idx).delivered = r.delivered ∧ (t.req a.idx).st = r.st
          ∧ (t.req a.idx).input = r.input.drop (a.feed.length - (if r.token.isSome then 1 else 0)) ∧ (t.req a.idx).lastCommit = s.time.tick)
        ∧ (s.troubles = [] → a.sample = true → r.temp = 0#32 → (s.logitsRow g (a.row + a.feed.length - 1)).any F32.isNaN = false →
          p < r.maxLength → g.stop.contains (argmax (s.logitsRow g (a.row + a.feed.length - 1))) = false → ∃ t : State, exec (.stepCommit []) s = .next t ∧ t.step.committed = true
            ∧ (t.req a.idx).length = p ∧ (t.req a.idx).token = some (argmax (s.logitsRow g (a.row + a.feed.length - 1))) ∧ (t.req a.idx).delivered = r.delivered + 1
            ∧ (t.req a.idx).st = r.st ∧ Tab.get (t.req a.idx).ring (p % 480) = argmax (s.logitsRow g (a.row + a.feed.length - 1)) ∧ t.mem = s.mem)
        ∧ (∀ x, s.troubles = [x] → x.seq = a.idx → ∃ t : State, exec (.stepCommit []) s = .next t ∧ t.step.committed = true
            ∧ (t.req a.idx).st = .ember ∧ (t.req a.idx).reason = x.reason ∧ (t.req a.idx).length = r.length ∧ (t.req a.idx).delivered = r.delivered))

/-- R72: a marker's digits and those of 0 are all 0; for any other code of A4 (2 slices) or A8 (4 slices), the digit of slice s is the sign times bits [2s + 1 : 2s] of the magnitude, the digits lie in -3 to 3, the top one in -1 to 1, and the sum of 4^s times the digit is the code. -/
def Obligations.DigitsAddUpToTheCode : Prop :=
  slices 0 = 2 ∧ slices 1 = 4
  ∧ (∀ sl, digit sl 0 = 0)
  ∧ (∀ n, markerCode 0 n = true → n < 16 → n = 8) ∧ (∀ n, markerCode 1 n = true → n < 256 → n = 128)
  ∧ (∀ (ps : List Payload72) (rung b : Nat) (x : VBlock), placeBlock rung ps b = some x → ∀ i, x.marks.getD i false = true → ∀ sl, digit sl (x.codes.getD i 0) = 0)
  ∧ (∀ (q : Int) (sl : Nat), digit sl q = q.sign * ((q.natAbs >>> (2 * sl) &&& 3 : Nat) : Int))
  ∧ (∀ q : Int, q.natAbs ≤ 7 → digit 0 q + 4 * digit 1 q = q ∧ (digit 1 q).natAbs ≤ 1)
  ∧ ∀ q : Int, q.natAbs ≤ 127 → digit 0 q + 4 * digit 1 q + 16 * digit 2 q + 64 * digit 3 q = q ∧ (digit 3 q).natAbs ≤ 1

/-- A request holds the REQUEST trigger of a fitted die and a MAINT CAL_REQUEST that of every fitted die its mask names; a COMPUTING run becomes STAGED, and engines beyond their range cost their cluster; a save that verifies clears SAVE_FAILED, one that does not sets it and raises CAL_SAVE_FAILED; a data lane whose round is full closes it: sums empty, the round first of at most four, the tick noted. The two queries write their records and change nothing else. -/
def Obligations.CalibrationCommands : Prop :=
  ∀ (s : State) (d : Nat),
    (∀ v, bitOf v 0 = true → s.fits d = true → exec (.calRequest d v) s = .next (s.setCal d { s.dieCal d with pending := (s.dieCal d).pending ||| 16 }))
    ∧ (∀ v, bitOf v 0 = false ∨ s.fits d = false → exec (.calRequest d v) s = .next s)
    ∧ (∀ h mask, s.accepts h clsMaint = true → ∃ u : State, exec (.maintCalRequest h mask) s = .next (u.finish (s.descOf h) .OK 0 0) ∧ u = { s.start h with cal := u.cal }
        ∧ ∀ k, u.dieCal k = if k < 8 ∧ bitOf mask k = true ∧ s.fits k = true then { s.dieCal k with pending := (s.dieCal k).pending ||| 16 } else s.dieCal k)
    ∧ ((s.dieCal d).run ≠ 2 → exec (.calRunStaged d) s = .next s)
    ∧ ((s.dieCal d).run = 2 → (s.dieCal d).beyond = [] → exec (.calRunStaged d) s = .next (s.setCal d { s.dieCal d with run := 3 }))
    ∧ (∀ e b, (s.dieCal d).run = 2 → (s.dieCal d).beyond = [(e, b)] → exec (.calRunStaged d) s
        = .next (((s.setCal d { s.dieCal d with run := 3 }).raise .CAL_ENGINE_RANGE (Src.ofCore (engCore e)) [e, b]).loseCluster (engCore e / 8) (some 7)))
    ∧ (s.fits d = true → ∃ t : State, exec (.calSave d true) s = .next t ∧ (t.dieCal d).saveFailed = false ∧ t = { s with cal := t.cal } ∧ ∀ k, k ≠ d → t.dieCal k = s.dieCal k)
    ∧ (s.fits d = true → exec (.calSave d false) s = .next ((s.setCal d { s.dieCal d with saveFailed := true }).raise .CAL_SAVE_FAILED (Src.ofDie d) [d]))
    ∧ (s.fits d = false → ∀ ok, exec (.calSave d ok) s = .next s)
    ∧ (∀ q n l, let e := engineKey q n
        let b := (s.engine e).active
        let x := (s.bank e b).lane l
        (528 ≤ l ∨ x.cur0.n + x.cur1.n < s.fitWindow (coreDie q) / 4 → exec (.fitRoundClose q n l) s = .next s)
        ∧ (l < 512 → (s.bank e b).common.degraded = false → s.fitWindow (coreDie q) / 4 ≤ x.cur0.n + x.cur1.n → ∃ t : State, exec (.fitRoundClose q n l) s = .next t
            ∧ ((t.bank e b).lane l).cur0 = {} ∧ ((t.bank e b).lane l).cur1 = {} ∧ ((t.bank e b).lane l).lastClose = s.time.tick
            ∧ ∃ r : Round, r.h0 = x.cur0 ∧ r.h1 = x.cur1 ∧ ((t.bank e b).lane l).rounds = (r :: x.rounds).take 4))
    ∧ (∀ h image first n buffer, s.accepts h clsMaint = true → exec (.layerStats h image first n buffer) s
        = .next (((s.start h).hostPut buffer ((List.range n).flatMap (fun i => s.layerStat image (first + i)))).finish (s.descOf h) .OK 0 0))
    ∧ ∀ h first n buffer, s.accepts h clsMaint = true → exec (.ashList h first n buffer) s
        = .next (((s.start h).hostPut buffer (leBytes 4 s.ash.entries.length ++ leBytes 4 s.ash.lost ++ leBytes 24 0 ++ ((s.ash.entries.drop first).take n).flatMap AshEntry.bytes)).finish
            (s.descOf h) .OK 0 0)

/-- The oldest op of its unit reads its op block; one that breaks the pass rule, has no source, meets an EMPTY layer or a rung of the other kind of engine is ARRAY_OP_INVALID with that reason; an accepted one starts in its pass. With none of its opcode oldest, or a repeat waiting for the engine, nothing happens. ARRAY_READ of an EMPTY layer or a block beyond it is refused; otherwise 128 conversions are counted, the codes and the status are written and the op completes with the write's status. ARRAY_CAL takes its packet from the queue when no other op for the engine waits. -/
def Obligations.ArrayOpsStart : Prop :=
  ∀ (s : State) (q n : Nat),
    (∀ sh, (s.seq q).next (.eng n) 0x10 = none ∨ s.repeatWaits q n = true → exec (.arrayMvOpStart q n sh) s = .next s)
    ∧ ((s.seq q).next .dEng 0x14 = none → exec (.dMvPass q) s = .next s)
    ∧ (∀ sh o, (s.seq q).next (.eng n) 0x10 = some o → s.repeatWaits q n = false → exec (.arrayMvOpStart q n sh) s = .next (s.opStart q n false sh o))
    ∧ (∀ o, (s.seq q).next .dEng 0x14 = some o → exec (.dMvPass q) s = .next (s.opStart q (o.mod % 4) true false o))
    ∧ (∀ dig sh o, let r := s.read (Reader.ofCore q) o.a 64
        let k := parseOpBlock s.loc r.bytes
        let t := r.st
        (r.code ≠ .OK → s.opStart q n dig sh o = t.opRan q o r.code 0 r.addr)
        ∧ (r.code = .OK → t.keptPass q n dig = none →
          (k.action = 2 ∨ k.action = 3 → ∃ tag, s.opStart q n dig sh o = t.opInvalid q n o .PASS_RULE tag)
          ∧ (k.action = 0 ∨ k.action = 1 → k.source = 0 → ∃ tag, s.opStart q n dig sh o = t.opInvalid q n o .NO_SOURCE tag)
          ∧ (k.action = 0 ∨ k.action = 1 → k.source ≠ 0 → t.passRung q n k dig (fieldAt (t.inputStatus q k).bytes 36 1 % 4) < 2 → (t.layer (engineKey q n) k.layer).format = 0 →
              s.opStart q n dig sh o = t.opInvalid q n o .LAYER_EMPTY (t.layer (engineKey q n) k.layer).tag)
          ∧ (k.action = 0 ∨ k.action = 1 → k.source ≠ 0 → t.passRung q n k dig (fieldAt (t.inputStatus q k).bytes 36 1 % 4) < 2 → (t.layer (engineKey q n) k.layer).format ≠ 0 →
              dig = false → k.rung < 2 → (t.inputStatus q k).code = .OK → t.setsUsed q n < 2 → ∃ p : Pass, p.ops = [] ∧ p.eng = n ∧ p.acc = [] ∧ p.corr = [] ∧ p.mask = 0 ∧ p.phase = .opened ∧ p.op = o
              ∧ s.opStart q n dig sh o = (t.inputStatus q k).st.startOp q n (t.passesOf q).length sh o k p ((t.layer (engineKey q n) k.layer).blocks + 1) (t.inputStatus q k).bytes)))
    ∧ ((s.seq q).next (.eng n) 0x11 = none → exec (.arrayReadOp q n) s = .next s)
    ∧ (∀ o, (s.seq q).next (.eng n) 0x11 = some o → let r := s.read (Reader.ofCore q) o.a 64
        let k := parseOpBlock s.loc r.bytes
        let z := r.st.layer (engineKey q n) k.layer
        (r.code = .OK → z.format = 0 → exec (.arrayReadOp q n) s = .next (r.st.opInvalid q n o .LAYER_EMPTY z.tag))
        ∧ (r.code = .OK → z.format ≠ 0 → z.blocks < k.block → exec (.arrayReadOp q n) s = .next (r.st.opInvalid q n o .BLOCK_RANGE z.tag))
        ∧ (r.code = .OK → z.format ≠ 0 → k.block ≤ z.blocks → ∃ (u : State) (bs : List Byte), bs.length = 32 * 512 + 96
            ∧ (u.engine (engineKey q n)).conv = min (2 ^ 64 - 1) ((r.st.engine (engineKey q n)).conv + 128)
            ∧ exec (.arrayReadOp q n) s = .next ((u.write (Src.ofEngine q) {} k.out bs).st.opRan q o (u.write (Src.ofEngine q) {} k.out bs).code 0 (u.write (Src.ofEngine q) {} k.out bs).addr)))
    ∧ (∀ l seed area, s.calPacket q = none → exec (.arrayCalOp q n l seed area) s = .next s)
    ∧ ∀ l seed area p, s.calPacket q = some p → (∀ o ∈ (s.seq q).ops, o.unit ≠ .eng n) → exec (.arrayCalOp q n l seed area) s
        = .next ((s.setQueue (q / 8) { s.queue (q / 8) with pkts := (s.queue (q / 8)).pkts.erase p }).arrayCal q n l seed area)

/-- A closed pass's accumulators are written as one BA64 tile, word i the low 64 bits of column i, and the pass is then WRITTEN; the merge writes accumulators plus correction and the pass settles: with no trouble its completion is released, at D16 it ends its sequence's token, otherwise it waits for its repeat, which runs at a higher rung and is counted. Trouble after a reduction forces a layer run to D16, or exhausts one that is there. A report of a stale rung is counted, a clean one held until the record's passes are all clean, one in trouble raises the record's rung and clears its clean count. In any other phase each command changes nothing. -/
def Obligations.PassesEnd : Prop :=
  ∀ (s : State) (q i : Nat),
    (∀ p, (s.passesOf q)[i]? = some p →
      (p.phase ≠ .closing → exec (.accumulatorWriteBack q i) s = .next s)
      ∧ (p.phase ≠ .written → exec (.correctionMerge q i) s = .next s)
      ∧ (p.phase ≠ .trouble → exec (.passRepeat q i) s = .next s)
      ∧ (p.phase ≠ .judging → exec (.verdictReport q i) s = .next s)
      ∧ (p.phase = .closing → p.last.records = 0 → let w := s.write (Src.ofEngine (engineKey q p.eng)) { format := 1, overflow := setOverflow p.acc } p.last.out (setTileBytes p.acc)
          w.code = .OK → exec (.accumulatorWriteBack q i) s = .next (w.st.setPass q i { p with phase := .written, mask := p.mask ||| maskIf (setOverflow p.acc) 4 }))
      ∧ (p.phase = .written → ∃ sum : Tab Int, (p.corr = [] → Tab.wf p.acc = true → (∀ x ∈ p.acc, fitsInt 64 x.2 = true) → ∀ c, Tab.get sum c = Tab.get p.acc c)
          ∧ ∀ w, w = s.write (Src.ofCore q) { format := 1, overflow := setOverflow sum || setOverflow p.acc } p.last.out (setTileBytes sum) →
            exec (.correctionMerge q i) s = .next (w.st.settle q i { p with mask := p.mask ||| maskIf (setOverflow sum || setOverflow p.acc) 4 }))
      ∧ (p.phase = .trouble → exec (.passRepeat q i) s = .next (s.repeatPass q i p))
      ∧ (s.judge p.last = none → (p.mask = 0 → s.settle q i p = (s.countTrouble (coreDie q) 0).releasePass q p)
          ∧ (p.mask ≠ 0 → p.rung = 3 → s.settle q i p = (s.countTrouble (coreDie q) p.mask).exhaust q p)
          ∧ (p.mask ≠ 0 → p.rung ≠ 3 → s.settle q i p = (s.countTrouble (coreDie q) p.mask).setPass q i { p with phase := .trouble }))
      ∧ (∀ n, s.judge p.last = some n → p.phase = .judging → let v := s.verdict n
          (p.rung < v.rung → exec (.verdictReport q i) s = .next ((s.bump (memReg (n / 1024) Reg.VERDICT_STALE_TOTAL) 1).setPass q i { p with phase := .trouble }))
          ∧ (v.rung ≤ p.rung → p.mask = 0 → v.clean + 1 < v.passes → exec (.verdictReport q i) s = .next ((s.setPass q i { p with phase := .held }).setVerdict n { v with clean := v.clean + 1 }))
          ∧ (v.rung ≤ p.rung → p.mask = 0 → v.passes ≤ v.clean + 1 → exec (.verdictReport q i) s
              = .next (((s.setPass q i { p with phase := .held }).setVerdict n { v with clean := v.clean + 1, st := .clean }).releaseRecord n))
          ∧ (v.rung ≤ p.rung → p.mask ≠ 0 → p.rung ≠ 3 → exec (.verdictReport q i) s = .next ((s.setVerdict n { v with st := .opened, rung := v.rung + 1, clean := 0 }).promoteRecord n))))
    ∧ ((s.passesOf q)[i]? = none → exec (.accumulatorWriteBack q i) s = .next s ∧ exec (.correctionMerge q i) s = .next s ∧ exec (.passRepeat q i) s = .next s ∧ exec (.verdictReport q i) s = .next s)
    ∧ ∀ image layer seq,
      (s.run? image layer seq = none → exec (.layerD16Repeat image layer seq) s = .next s)
      ∧ ∀ r, s.run? image layer seq = some r →
        (r.late = false → exec (.layerD16Repeat image layer seq) s = .next s)
        ∧ (r.late = true → r.force = false → r.base < 3 → exec (.layerD16Repeat image layer seq) s
            = .next { s with runs := s.runs.map (fun x => if x.is image layer seq then { x with force := true, top := 3, late := false } else x) })
        ∧ (r.late = true → r.force = true ∨ 3 ≤ r.base → exec (.layerD16Repeat image layer seq) s
            = .next (((s.raise .RANGE_EXHAUSTED Src.steward [s.handle seq, layer, 4]).trouble seq 6 [layer, 4]).updRun image layer seq (fun x => { x with exhausted := true, late := false })))

/-- The sequencer of core `q` issues the instruction `opc f`: it is running, with no STOP and no fault waiting, on a core that is fitted, and its index holds the word of `opc f` with every unused field 0. -/
def Sys2Proof.Machine.State.issuing (s : State) (q opc : Nat) (f : SeqFields) : Prop :=
  (s.seq q).st = .running ∧ (s.seq q).stopping = false ∧ (s.seq q).faultPending = false ∧ s.fits (coreDie q) = true
    ∧ (s.seq q).pc ≤ 4095 ∧ s.storeAt q (s.seq q).pc = instrWord opc f ∧ fieldsOk opc f = true

/-- Index `n` lies in the store of core `q` and holds an opcode of Table 10-4. -/
def Sys2Proof.Machine.State.holdsOpcode (s : State) (q n : Nat) : Prop :=
  n ≤ 4095 ∧ usesOf (wordOpc (s.storeAt q n)) ≠ none

/-- `x` with its index `n` and every register but `a_r`, which now holds `v`; a0 ignores the write. -/
def Sys2Proof.Machine.Sequencer.wrote (x y : Sequencer) (n r : Nat) (v : Word) : Prop :=
  y.st = .running ∧ y.pc = n ∧ (y.get r = if r = 0 then 0#64 else v) ∧ (∀ j, j ≠ r → y.get j = x.get j)
    ∧ y = { x with st := .running, cause := .none, pc := n, a := y.a }

/-- Issued by a running sequencer whose next index holds an opcode of the table, each of these answers a next state in which only its sequencer differs: only the destination register has a new value (a write to a0 is ignored) and the index is the next one, or the target of a jump, of a branch whose comparison holds or of a loop whose counter is not 0. -/
def Obligations.RegisterInstructions : Prop :=
  ∀ (s : State) (q : Nat) (f : SeqFields),
    let x := s.seq q
    (s.issuing q 0x00 f → s.holdsOpcode q (x.pc + 1) → ∃ t : State, exec (.nop q f) s = .next t ∧ t = { s with seqs := t.seqs }
        ∧ (∀ j, j ≠ q → t.seq j = s.seq j) ∧ t.seq q = { x with st := .running, cause := .none, pc := x.pc + 1 })
    ∧ (s.issuing q 0x02 f → s.holdsOpcode q (x.pc + 1) → ∃ (t : State) (v : Word), exec (.seti q f) s = .next t ∧ t = { s with seqs := t.seqs }
        ∧ (∀ j, j ≠ q → t.seq j = s.seq j) ∧ x.wrote (t.seq q) (x.pc + 1) f.a v
        ∧ (f.mod % 2 = 0 → v = (BitVec.ofNat 32 f.imm).signExtend 64)
        ∧ (f.mod % 2 = 1 → v.toNat / 2 ^ 32 = f.imm % 2 ^ 32 ∧ v.toNat % 2 ^ 32 = (x.get f.a).toNat % 2 ^ 32))
    ∧ (s.issuing q 0x03 f → s.holdsOpcode q (x.pc + 1) → ∃ (t : State) (v : Word), exec (.addi q f) s = .next t ∧ t = { s with seqs := t.seqs }
        ∧ (∀ j, j ≠ q → t.seq j = s.seq j) ∧ x.wrote (t.seq q) (x.pc + 1) f.a v
        ∧ v.toInt = (BitVec.ofInt 64 ((x.get f.b).toInt + (BitVec.ofNat 32 f.imm).toInt)).toInt)
    ∧ (s.issuing q 0x04 f → s.holdsOpcode q (x.pc + 1) → ∃ (t : State) (v : Word), exec (.alu q f) s = .next t ∧ t = { s with seqs := t.seqs }
        ∧ (∀ j, j ≠ q → t.seq j = s.seq j) ∧ x.wrote (t.seq q) (x.pc + 1) f.a v
        ∧ let y := x.get f.b
          let z := x.get f.c
          let k := z.toNat % 64
          (f.mod = 0 → v.toNat = (y.toNat + z.toNat) % 2 ^ 64) ∧ (f.mod = 1 → v.toNat = (2 ^ 64 + y.toNat - z.toNat) % 2 ^ 64)
          ∧ (f.mod = 2 → v = y &&& z) ∧ (f.mod = 3 → v = y ||| z) ∧ (f.mod = 4 → v = y ^^^ z)
          ∧ (f.mod = 5 → v.toNat = y.toNat * 2 ^ k % 2 ^ 64) ∧ (f.mod = 6 → v.toNat = y.toNat / 2 ^ k) ∧ (f.mod = 7 → v.toInt = y.toInt / 2 ^ k)
          ∧ (f.mod = 8 → v.toNat = y.toNat * z.toNat % 2 ^ 64) ∧ (f.mod = 9 → v.toInt = min y.toInt z.toInt) ∧ (f.mod = 10 → v.toInt = max y.toInt z.toInt))
    ∧ (s.issuing q 0x07 f → s.holdsOpcode q (f.imm % 2 ^ 32) → ∃ t : State, exec (.jump q f) s = .next t ∧ t = { s with seqs := t.seqs }
        ∧ (∀ j, j ≠ q → t.seq j = s.seq j) ∧ t.seq q = { x with st := .running, cause := .none, pc := f.imm % 2 ^ 32 })
    ∧ (s.issuing q 0x08 f → ∀ n, (n = if (f.mod = 0 ∧ x.get f.a = x.get f.b) ∨ (f.mod = 1 ∧ x.get f.a ≠ x.get f.b) ∨ (f.mod = 2 ∧ (x.get f.a).toInt < (x.get f.b).toInt)
          ∨ (f.mod = 3 ∧ (x.get f.b).toInt ≤ (x.get f.a).toInt) ∨ (f.mod = 4 ∧ (x.get f.a).toNat < (x.get f.b).toNat) ∨ (f.mod = 5 ∧ (x.get f.b).toNat ≤ (x.get f.a).toNat)
          then f.imm % 2 ^ 32 else x.pc + 1) → s.holdsOpcode q n → ∃ t : State, exec (.branch q f) s = .next t ∧ t = { s with seqs := t.seqs }
        ∧ (∀ j, j ≠ q → t.seq j = s.seq j) ∧ t.seq q = { x with st := .running, cause := .none, pc := n })
    ∧ (s.issuing q 0x09 f → s.holdsOpcode q ((x.get f.a).toNat % 4096) → ∃ t : State, exec (.jumpr q f) s = .next t ∧ t = { s with seqs := t.seqs }
        ∧ (∀ j, j ≠ q → t.seq j = s.seq j) ∧ t.seq q = { x with st := .running, cause := .none, pc := (x.get f.a).toNat % 4096 })
    ∧ (s.issuing q 0x0A f → ∀ n, (n = if x.get f.a = 1#64 then x.pc + 1 else f.imm % 2 ^ 32) → s.holdsOpcode q n → ∃ t : State, exec (.loop q f) s = .next t
        ∧ t = { s with seqs := t.seqs } ∧ (∀ j, j ≠ q → t.seq j = s.seq j) ∧ x.wrote (t.seq q) n f.a (x.get f.a - 1#64))

/-- At an 8-byte-aligned address of the core's own scratchpad LD puts the eight bytes read there into its register and ST writes its register's eight bytes there. At any other address the instruction faults with SEQ_ADDRESS: the sequencer is FAULTED at its index and no memory changes. -/
def Obligations.LoadsAndStores : Prop :=
  ∀ (s : State) (q : Nat) (f : SeqFields),
    let x := s.seq q
    let a := s.loc (x.get f.b + (BitVec.ofNat 32 f.imm).signExtend 64).toNat
    let own := a % 8 = 0 ∧ coreBase q ≤ a ∧ a < coreBase q + 2 ^ 22 ∧ coreCluster q < 8
    (s.issuing q 0x05 f → own → ∀ r, s.read (Reader.ofCore q) a 8 = r → r.code = .OK → s.holdsOpcode q (x.pc + 1) →
        ∃ t : State, exec (.ld q f) s = .next t ∧ t = { r.st with seqs := t.seqs } ∧ (∀ j, j ≠ q → t.seq j = s.seq j)
          ∧ x.wrote (t.seq q) (x.pc + 1) f.a (BitVec.ofNat 64 (leNat r.bytes)))
    ∧ (s.issuing q 0x06 f → own → ∀ r, s.write (Src.ofCore q) {} a (leBytes 8 (x.get f.a).toNat) = r → r.code = .OK → s.holdsOpcode q (x.pc + 1) →
        ∃ t : State, exec (.st q f) s = .next t ∧ t = { r.st with seqs := t.seqs } ∧ (∀ j, j ≠ q → t.seq j = s.seq j)
          ∧ t.seq q = { x with st := .running, cause := .none, pc := x.pc + 1 })
    ∧ (¬ own → s.issuing q 0x05 f → ∃ t : State, exec (.ld q f) s = .next t ∧ t.mem = s.mem ∧ (t.seq q).st = .faulted ∧ (t.seq q).a = x.a
          ∧ (t.seq q).fault.status = .SEQ_ADDRESS ∧ (t.seq q).fault.opAddr = a ∧ (t.seq q).fault.pc = x.pc)
    ∧ (¬ own → s.issuing q 0x06 f → ∃ t : State, exec (.st q f) s = .next t ∧ t.mem = s.mem ∧ (t.seq q).st = .faulted ∧ (t.seq q).a = x.a
          ∧ (t.seq q).fault.status = .SEQ_ADDRESS ∧ (t.seq q).fault.opAddr = a ∧ (t.seq q).fault.pc = x.pc)

/-- The instructions that queue an op, with their core, opcode, fields and the unit they queue it on. -/
def Sys2Proof.Instr.queues : Instr → Option (Nat × Nat × SeqFields × OpUnit)
  | .arrayMv q f => some (q, 0x10, f, .eng (f.mod % 4))
  | .arrayRead q f => some (q, 0x11, f, .eng (f.mod % 4))
  | .dMv q f => some (q, 0x14, f, .dEng)
  | .dVec q f => some (q, 0x15, f, .dEng)
  | .psumAdd q f => some (q, 0x16, f, .dEng)
  | .kvAppend q f => some (q, 0x17, f, .dEng)
  | .attWalk q f => some (q, 0x18, f, .dEng)
  | .copy q f => some (q, 0x1A, f, .copy)
  | .atomicAdd q f => some (q, 0x1B, f, .copy)
  | .atomicClear q f => some (q, 0x1C, f, .copy)
  | _ => none

/-- The op joins the end of the sequencer's ops with the opcode, the unit, the registers' values and the index, no register changes and the sequencer goes on; with 4 ops of an A-engine, 8 of the D-engine or 16 of the copy unit queued it stalls with nothing else changed. -/
def Obligations.EngineInstructionsQueueTheirOp : Prop :=
  ∀ (s : State) (i : Instr) (q opc : Nat) (f : SeqFields) (u : OpUnit), i.queues = some (q, opc, f, u) → s.issuing q opc f →
    let x := s.seq q
    let n := (x.ops.filter (·.unit == u)).length + (x.ran.filter (·.op.unit == u)).length
    let full := match u with | .eng _ => 4 | .dEng => 8 | .copy => 16
    (n < full → s.holdsOpcode q (x.pc + 1) → ∃ (t : State) (o : Op), exec i s = .next t ∧ t = { s with seqs := t.seqs } ∧ (∀ j, j ≠ q → t.seq j = s.seq j)
        ∧ t.seq q = { x with st := .running, cause := .none, pc := x.pc + 1, ops := x.ops ++ [o] }
        ∧ o.opc = opc ∧ o.unit = u ∧ o.a = s.loc (x.get f.a).toNat ∧ o.b = s.loc (x.get f.b).toNat ∧ o.c = (x.get f.c).toNat ∧ o.d = f.d ∧ o.mod = f.mod ∧ o.imm = f.imm ∧ o.pc = x.pc)
    ∧ (full ≤ n → ∃ t : State, exec i s = .next t ∧ t = { s with seqs := t.seqs } ∧ (∀ j, j ≠ q → t.seq j = s.seq j)
        ∧ t.seq q = { x with st := .stalled, cause := .opQueue })

/-- HALT enters IDLE and interrupts the Hearth core; INTR interrupts it with its code; TICK and PBLD write their register; POST and SYNC_SET send the object operation and go on, WAIT sends it and stalls; an object above 4,095 sends nothing and faults with SEQ_OBJECT_RANGE. DONE_WAIT goes on when its counter has reached IMM and FENCE when no op of the sequencer is outstanding, and each stalls otherwise; DONE_SET sets its counter. The value TICK reads is the counter of the die's clock, whose advance is the model's choice (log 11). -/
def Obligations.ControlInstructions : Prop :=
  ∀ (s : State) (q : Nat) (f : SeqFields),
    let x := s.seq q
    let went := fun (t : State) (y : Sequencer) => (∀ j, j ≠ q → t.seq j = s.seq j) ∧ t.seq q = { y with st := .running, cause := .none, pc := x.pc + 1 }
    let obj := f.imm % 4096 + (x.get f.b).toNat % 4096
    let sent := fun (t : State) (k : SyncKind) (eq : Bool) => t = { s with seqs := t.seqs, flight := t.flight } ∧ (∀ j, j ≠ q → t.seq j = s.seq j)
      ∧ ∃ m : SyncMsg, t.flight = s.flight ++ [m] ∧ m.kind = k ∧ m.obj = obj ∧ m.val = (x.get f.a).toNat % 2 ^ 32 ∧ m.eq = eq ∧ m.who = .seq q ∧ m.pc = x.pc
    (s.issuing q 0x01 f → ∃ t : State, exec (.halt q f) s = .next t ∧ t = { s with seqs := t.seqs, wq := t.wq } ∧ (∀ j, j ≠ q → t.seq j = s.seq j)
        ∧ t.seq q = { x with st := .idle, pc := x.pc + 1 } ∧ (t.queue (q / 8)).hearthIrq = (s.queue (q / 8)).hearthIrq + 1 ∧ ∀ g, g ≠ q / 8 → t.queue g = s.queue g)
    ∧ (s.issuing q 0x26 f → s.holdsOpcode q (x.pc + 1) → ∃ t : State, exec (.intr q f) s = .next t ∧ t = { s with seqs := t.seqs, wq := t.wq } ∧ went t { x with hearthCode := f.imm % 256 }
        ∧ (t.queue (q / 8)).hearthIrq = (s.queue (q / 8)).hearthIrq + 1 ∧ ∀ g, g ≠ q / 8 → t.queue g = s.queue g)
    ∧ (s.issuing q 0x27 f → s.holdsOpcode q (x.pc + 1) → ∃ t : State, exec (.tick q f) s = .next t ∧ t = { s with seqs := t.seqs, time := t.time, fresh := t.fresh }
        ∧ (∀ j, j ≠ q → t.seq j = s.seq j) ∧ x.wrote (t.seq q) (x.pc + 1) f.a (BitVec.ofNat 64 (t.cClock (coreDie q))))
    ∧ (s.issuing q 0x0C f → s.holdsOpcode q (x.pc + 1) → f.imm % 32 < 24 → ∃ t : State, exec (.pbld q f) s = .next t ∧ t = { s with seqs := t.seqs } ∧ (∀ j, j ≠ q → t.seq j = s.seq j)
        ∧ x.wrote (t.seq q) (x.pc + 1) f.a (BitVec.ofNat 64 (leNat ((x.pbuf.drop (8 * (f.imm % 32))).take 8))))
    ∧ (s.issuing q 0x20 f → s.holdsOpcode q (x.pc + 1) → obj ≤ 4095 → ∃ t : State, exec (.post q f) s = .next t ∧ sent t .post false ∧ went t x)
    ∧ (s.issuing q 0x22 f → s.holdsOpcode q (x.pc + 1) → obj ≤ 4095 → ∃ t : State, exec (.syncSet q f) s = .next t ∧ sent t .set false ∧ went t x)
    ∧ (s.issuing q 0x21 f → obj ≤ 4095 → ∃ t : State, exec (.wait q f) s = .next t ∧ sent t .wait (f.mod == 1) ∧ t.seq q = { x with st := .stalled, cause := .wait })
    ∧ (4095 < obj → ∀ i opc, (i, opc) ∈ [(Instr.post q f, 0x20), (Instr.wait q f, 0x21), (Instr.syncSet q f, 0x22)] → s.issuing q opc f → ∃ t : State, exec i s = .next t
        ∧ t.flight = s.flight ∧ (t.seq q).st = .faulted ∧ (t.seq q).fault.status = .SEQ_OBJECT_RANGE ∧ (t.seq q).fault.opAddr = obj)
    ∧ (s.issuing q 0x23 f → f.imm % 2 ^ 16 ≤ Tab.get x.d f.d → s.holdsOpcode q (x.pc + 1) → ∃ t : State, exec (.doneWait q f) s = .next t ∧ t = { s with seqs := t.seqs } ∧ went t x)
    ∧ (s.issuing q 0x23 f → Tab.get x.d f.d < f.imm % 2 ^ 16 → ∃ t : State, exec (.doneWait q f) s = .next t ∧ t = { s with seqs := t.seqs }
        ∧ (∀ j, j ≠ q → t.seq j = s.seq j) ∧ t.seq q = { x with st := .stalled, cause := .doneWait })
    ∧ (s.issuing q 0x24 f → s.holdsOpcode q (x.pc + 1) → ∃ (t : State) (y : Sequencer), exec (.doneSet q f) s = .next t ∧ t = { s with seqs := t.seqs } ∧ went t y
        ∧ y = { x with d := y.d } ∧ Tab.get y.d f.d = f.imm % 2 ^ 16 ∧ ∀ j, j ≠ f.d → Tab.get y.d j = Tab.get x.d j)
    ∧ (s.issuing q 0x25 f → x.ops = [] → x.ran = [] → s.holdsOpcode q (x.pc + 1) → ∃ t : State, exec (.fence q f) s = .next t ∧ t = { s with seqs := t.seqs } ∧ went t x)
    ∧ (s.issuing q 0x25 f → x.ops ≠ [] ∨ x.ran ≠ [] → ∃ t : State, exec (.fence q f) s = .next t ∧ t = { s with seqs := t.seqs }
        ∧ (∀ j, j ≠ q → t.seq j = s.seq j) ∧ t.seq q = { x with st := .stalled, cause := .fence })

/-- Outside the state R305 asks for, LOAD, START and RESUME leave SEQ_BUSY in the control words and change nothing else. Inside it LOAD fills the store from the scratchpad, START runs at its index, STOP idles a sequencer that is not stalled and waits for the end of a stall, RESUME by retry runs again at the fault's index and by skip goes on behind it, the done counter of a faulted op raised. An op that ends OK adds 1 to its done counter, at most to 0xFFFF; one that faulted stops a running sequencer with its record. -/
def Obligations.HearthCommandsAndOpCompletion : Prop :=
  ∀ (s : State) (q : Nat),
    let x := s.seq q
    let busy := fun (i : Instr) => ∃ t : State, exec i s = .next t ∧ t = { s with seqs := t.seqs } ∧ (∀ j, j ≠ q → t.seq j = s.seq j) ∧ t.seq q = { x with control := .SEQ_BUSY }
    (x.st ≠ .idle → (∀ a i n, busy (.seqLoad q a i n)) ∧ ∀ i, busy (.seqStart q i))
    ∧ (x.st ≠ .faulted → busy (.seqResumeRetry q) ∧ busy (.seqResumeSkip q))
    ∧ (x.st = .idle → ∀ a i n r, s.read (Reader.ofCore q) (coreBase q + a) (8 * n) = r → ∃ t : State, exec (.seqLoad q a i n) s = .next t
        ∧ t = { r.st with seqs := t.seqs, store := t.store } ∧ t.seq q = { x with control := .OK } ∧ (∀ j, j ≠ q → t.seq j = s.seq j)
        ∧ (∀ k, k < n → i + k ≤ 4095 → t.storeAt q (i + k) = leNat ((r.bytes.drop (8 * k)).take 8) % 2 ^ 64)
        ∧ (∀ p k, k ≤ 4095 → p ≠ q ∨ k < i ∨ i + n ≤ k → t.storeAt p k = s.storeAt p k))
    ∧ (x.st = .idle → x.stopping = false → x.faultPending = false → ∀ i, s.holdsOpcode q i → ∃ t : State, exec (.seqStart q i) s = .next t ∧ t = { s with seqs := t.seqs }
        ∧ (∀ j, j ≠ q → t.seq j = s.seq j) ∧ t.seq q = { x with st := .running, cause := .none, pc := i, control := .OK })
    ∧ (∃ t : State, exec (.seqStop q) s = .next t ∧ t = { s with seqs := t.seqs } ∧ (∀ j, j ≠ q → t.seq j = s.seq j)
        ∧ t.seq q = if x.st = .stalled then { x with stopping := true, control := .OK } else { x with st := .idle, cause := .none, control := .OK })
    ∧ (x.st = .faulted → x.stopping = false → x.faultPending = false → s.holdsOpcode q x.fault.pc → ∃ t : State, exec (.seqResumeRetry q) s = .next t ∧ t = { s with seqs := t.seqs }
        ∧ (∀ j, j ≠ q → t.seq j = s.seq j) ∧ t.seq q = { x with st := .running, cause := .none, pc := x.fault.pc, control := .OK })
    ∧ (x.st = .faulted → x.stopping = false → x.faultPending = false → s.holdsOpcode q (x.fault.pc + 1) → ∃ t : State, exec (.seqResumeSkip q) s = .next t ∧ t = { s with seqs := t.seqs }
        ∧ (∀ j, j ≠ q → t.seq j = s.seq j) ∧ t.seq q = { x with st := .running, cause := .none, pc := x.fault.pc + 1, control := .OK, d := (t.seq q).d }
        ∧ ∀ k, Tab.get (t.seq q).d k = if x.fault.instruction = false ∧ k = x.fault.done then min 0xFFFF (Tab.get x.d k + 1) else Tab.get x.d k)
    ∧ (∀ i r, x.ran[i]? = some r → r.hold = false → r.status = .OK → x.st ≠ .stalled → ∃ t : State, exec (.opCompletion q i) s = .next t ∧ t = { s with seqs := t.seqs }
        ∧ (∀ j, j ≠ q → t.seq j = s.seq j) ∧ t.seq q = { x with ran := x.ran.eraseIdx i, d := (t.seq q).d }
        ∧ ∀ k, Tab.get (t.seq q).d k = if k = r.op.d then min 0xFFFF (Tab.get x.d k + 1) else Tab.get x.d k)
    ∧ (∀ i r, x.ran[i]? = some r → r.hold = false → r.status ≠ .OK → abandons r.status = false → x.st = .running → ∃ t : State, exec (.opCompletion q i) s = .next t ∧ (t.seq q).st = .faulted
        ∧ (t.seq q).fault.status = r.status ∧ (t.seq q).fault.pc = r.op.pc ∧ (t.seq q).fault.done = r.op.d ∧ (t.seq q).d = x.d ∧ (t.seq q).ran = x.ran.eraseIdx i)

/-- A PUSH puts its flits into the queue with its tag and writer and goes on, or is held with a record while all 32 stages are taken, and a Hearth write is queued likewise; a tag that the queue refuses is counted and reported and queues nothing. A POP takes, of the packets for its core, the one of the highest PRIORITY that arrived first, gives the tag and flit 0 in registers and removes that packet only; with none it stalls. A flush discards the packets whose destination its mask names and reports their count; a held writer is reported once. -/
def Obligations.WorkQueuePackets : Prop :=
  (∀ (s : State) (g : Nat) (l : List Byte) (tag : Nat),
    let x := s.queue g
    (32 ≤ x.pkts.length → x.held.any (·.writer == 8) = false → ∃ t : State, exec (.push (.hearth g l tag)) s = .next t ∧ t = { s with wq := t.wq }
        ∧ (∀ j, j ≠ g → t.queue j = s.queue j) ∧ t.queue g = { x with held := x.held ++ [{ writer := 8 }] })
    ∧ (x.pkts.length < 32 → tagRefused (tagSetWriter tag 8) = false → ∃ (t : State) (p : Packet), exec (.push (.hearth g l tag)) s = .next t
        ∧ (t.queue g).pkts = x.pkts ++ [p] ∧ p.tag = tagSetWriter tag 8 ∧ p.writer = 8 ∧ p.flits.length = 64 * tagFlits tag ∧ (t.queue g).held = x.held.filter (·.writer != 8)
        ∧ ∀ j, j ≠ g → t.queue j = s.queue j)
    ∧ (x.pkts.length < 32 → tagRefused (tagSetWriter tag 8) = true → ∃ t : State, exec (.push (.hearth g l tag)) s = .next t ∧ (t.queue g).pkts = x.pkts
        ∧ t.reg (dieReg (g / 9) Reg.WQ_REFUSED_TOTAL) = min (2 ^ 64 - 1) (s.reg (dieReg (g / 9) Reg.WQ_REFUSED_TOTAL) + 1) ∧ t.ev.inFlight.length = s.ev.inFlight.length + 1))
  ∧ (∀ (s : State) (q : Nat) (f : SeqFields), s.issuing q 0x0D f →
    let x := s.seq q
    let tag := (x.get f.b).toNat % 2 ^ 32
    ∀ r, s.read (Reader.ofCore q) (s.loc (x.get f.a).toNat) (64 * tagFlits tag) = r → r.code = .OK →
      (32 ≤ (s.queue (q / 8)).pkts.length → ∃ t : State, exec (.push (.seq q f)) s = .next t ∧ t.seq q = { x with st := .stalled, cause := .push } ∧ (t.queue (q / 8)).pkts = (s.queue (q / 8)).pkts)
      ∧ ((s.queue (q / 8)).pkts.length < 32 → tagRefused (tagSetWriter tag (coreIndex q)) = false → s.holdsOpcode q (x.pc + 1) → ∃ (t : State) (p : Packet), exec (.push (.seq q f)) s = .next t
        ∧ t.seq q = { x with st := .running, cause := .none, pc := x.pc + 1 } ∧ (t.queue (q / 8)).pkts = (s.queue (q / 8)).pkts ++ [p] ∧ p.tag = tagSetWriter tag (coreIndex q)
        ∧ p.flits = r.bytes ∧ p.writer = coreIndex q ∧ p.doneAddr = (x.get f.c).toNat))
  ∧ (∀ (s : State) (q : Nat) (f : SeqFields), s.issuing q 0x0B f →
    let x := s.seq q
    let l := (s.queue (q / 8)).pkts
    let mine := fun p : Packet => tagDest p.tag = coreIndex q ∧ tagKind p.tag ≠ 2
    ((∀ p ∈ l, ¬ mine p) → ∃ t : State, exec (.pop q f) s = .next t ∧ t = { s with seqs := t.seqs } ∧ t.seq q = { x with st := .stalled, cause := .pop })
    ∧ (∀ a p b, l = a ++ p :: b → mine p → (∀ y ∈ a, mine y → tagPriority y.tag < tagPriority p.tag) → (∀ y ∈ b, mine y → tagPriority y.tag ≤ tagPriority p.tag) → s.holdsOpcode q (x.pc + 1) →
        ∃ t : State, exec (.pop q f) s = .next t ∧ t = { s with seqs := t.seqs, wq := t.wq } ∧ (∀ g, g ≠ q / 8 → t.queue g = s.queue g)
        ∧ t.queue (q / 8) = { s.queue (q / 8) with pkts := l.erase p } ∧ (t.seq q).st = .running ∧ (t.seq q).pc = x.pc + 1
        ∧ (0 < f.a → f.a < 8 → (t.seq q).get f.a = BitVec.ofNat 64 p.tag)
        ∧ (64 ≤ p.flits.length → ∀ k, k < 8 → (t.seq q).get (8 + k) = BitVec.ofNat 64 (leNat ((p.flits.drop (8 * k)).take 8)))
        ∧ (t.seq q).pbuf.take (p.flits.length - 64) = p.flits.drop 64))
  ∧ (∀ (s : State) (g mask : Nat), ∃ (t : State) (e : EvRec), exec (.wqFlush g mask) s = .next t
      ∧ t.queue g = { s.queue g with pkts := (s.queue g).pkts.filter (fun p => !bitOf mask (tagDest p.tag)) } ∧ (∀ j, j ≠ g → t.queue j = s.queue j)
      ∧ t.ev.inFlight = s.ev.inFlight ++ [e] ∧ e.code = .WQ_FLUSHED ∧ e.src = Src.ofCluster g
      ∧ e.args = [g, ((s.queue g).pkts.filter (fun p => bitOf mask (tagDest p.tag))).length])
  ∧ (∀ (s : State) (g w : Nat), (∀ h ∈ (s.queue g).held, h.writer = w → h.reported = true) → exec (.wqWriteHeld g w) s = .next s)
  ∧ (∀ (s : State) (g w : Nat), (∃ h ∈ (s.queue g).held, h.writer = w ∧ h.reported = false) → ∃ (t : State) (e : EvRec), exec (.wqWriteHeld g w) s = .next t
      ∧ (t.queue g).pkts = (s.queue g).pkts ∧ (∀ h ∈ (t.queue g).held, h.writer = w → h.reported = true) ∧ t.ev.inFlight = s.ev.inFlight ++ [e] ∧ e.code = .WQ_WRITE_HELD ∧ e.args = [g, w])

/-- The op `o` of core `q` has left the queue of its unit and waits for its completion with a status, a reason and an address; no other sequencer has changed. -/
def Sys2Proof.Machine.State.ended (s u : State) (q : Nat) (o : Op) (c : Code) (reason addr : Nat) : Prop :=
  (u.seq q).ops = (s.seq q).ops.erase o ∧ (u.seq q).ran = (s.seq q).ran ++ [{ op := o, status := c, reason := reason, addr := addr }]
    ∧ ∀ j, j ≠ q → u.seq j = s.seq j

/-- The tiles of `n` bytes at `a` are neither poisoned nor fail their check, and lie in no atomic target region. -/
def Sys2Proof.Machine.State.plain (s : State) (a n : Nat) : Prop :=
  ∀ t, a / 4096 ≤ t → 4096 * t < a + n → (s.tile t).poisoned = false ∧ (s.tile t).syndrome = 0 ∧ s.atomAt (4096 * t) = none

/-- When every piece of a range can be reached, a write is performed whole: each byte of the range holds the byte written and each other byte what it held; a read of tiles that check good returns the bytes as they stand and changes none. When a piece cannot be reached, read and write carry its status and address and no byte changes. -/
def Obligations.MemoryReadsAndWrites : Prop :=
  ∀ (s : State) (rd : Reader) (src : Src) (st : Tile) (a n : Nat) (bs : List Byte),
    (s.blocked (piecesOf a bs.length) = none → (s.write src st a bs).code = .OK
        ∧ ∀ x, Tab.get (s.write src st a bs).st.mem.bytes x = if a ≤ x ∧ x < a + bs.length then bs.getD (x - a) 0#8 else Tab.get s.mem.bytes x)
    ∧ (s.blocked (piecesOf a n) = none → s.plain a n → (s.read rd a n).code = .OK ∧ (s.read rd a n).bytes = (List.range n).map (fun i => Tab.get s.mem.bytes (a + i))
        ∧ (s.read rd a n).st.mem.bytes = s.mem.bytes)
    ∧ (∀ x c, s.blocked (piecesOf a n) = some (x, c) → (s.read rd a n).code = c ∧ (s.read rd a n).addr = x ∧ (s.read rd a n).st.mem = s.mem)
    ∧ (∀ x c, s.blocked (piecesOf a bs.length) = some (x, c) → (s.write src st a bs).code = c ∧ (s.write src st a bs).addr = x ∧ (s.write src st a bs).st.mem = s.mem)

/-- A host write to a line inside its window puts the bytes at the line's place and leaves every other byte; a read shows the line's bytes, with the poison indication of its tile; outside the window neither does anything. A patrol read with PATROL_EN steps the pass, counting its last tile, and poisons a tile whose check fails. A row idles closed. A bank that has powered up reads as zeros with good tiles and is no longer powering up. -/
def Obligations.HostLinesPatrolAndBanks : Prop :=
  (∀ (s : State) (w : Nat) (bs : List Byte), s.hdmHas w bs.length = true → ∃ t : State, exec (.hostMemWrite w bs) s = .next t
      ∧ ∀ x, Tab.get t.mem.bytes x = if s.hdmAddr w ≤ x ∧ x < s.hdmAddr w + bs.length then bs.getD (x - s.hdmAddr w) 0#8 else Tab.get s.mem.bytes x)
  ∧ (∀ (s : State) (w : Nat) (bs : List Byte), s.hdmHas w bs.length = false → exec (.hostMemWrite w bs) s = .next s)
  ∧ (∀ (s : State) (w : Nat), s.hdmHas w 64 = true → ∃ t : State, exec (.hostMemRead w) s = .next t
      ∧ t.mem.hostLine = (List.range 64).map (fun i => Tab.get s.mem.bytes (s.hdmAddr w + i)) ∧ t.mem.bytes = s.mem.bytes
      ∧ (t.mem.hostPoison = true ↔ (s.tile (s.hdmAddr w / 4096)).poisoned = true ∨ (s.tile (s.hdmAddr w / 4096)).syndrome ≠ 0)
      ∧ (t.tile (s.hdmAddr w / 4096)).poisoned = t.mem.hostPoison)
  ∧ (∀ (s : State) (w : Nat), s.hdmHas w 64 = false → exec (.hostMemRead w) s = .next s)
  ∧ (∀ (s : State) (m : Nat) (e : List HbmReport) (s' : State), s' = s.hbmReports e → bitOf (s.cfg (memReg m Reg.MEM_CFG)) 1 = true →
      let i := Tab.get s'.mem.patrol m
      ∃ t : State, exec (.patrolRead m e) s = .next t ∧ t.mem.bytes = s'.mem.bytes ∧ Tab.get t.mem.patrol m = (if passTiles ≤ i + 1 then 0 else i + 1)
        ∧ t.reg (memReg m Reg.MEM_PATROL_PASS_TOTAL) = (if passTiles ≤ i + 1 then min (2 ^ 64 - 1) (s'.reg (memReg m Reg.MEM_PATROL_PASS_TOTAL) + 1) else s'.reg (memReg m Reg.MEM_PATROL_PASS_TOTAL))
        ∧ ((s'.tile (patrolTile m i)).syndrome ≠ 0 → (t.tile (patrolTile m i)).poisoned = true)
        ∧ ((s'.tile (patrolTile m i)).syndrome = 0 → t.tile (patrolTile m i) = s'.tile (patrolTile m i)))
  ∧ (∀ (s : State) (m : Nat) (e : List HbmReport), bitOf (s.cfg (memReg m Reg.MEM_CFG)) 1 = false → exec (.patrolRead m e) s = .next s)
  ∧ (∀ (s : State) (b : Nat), ∃ t : State, exec (.hbmRowIdleClose b) s = .next t ∧ Tab.get t.mem.row b = 0 ∧ (∀ j, j ≠ b → Tab.get t.mem.row j = Tab.get s.mem.row j)
      ∧ t = { s with mem := { s.mem with row := t.mem.row } })
  ∧ (∀ (s : State) (q b : Nat), bitOf (Tab.get s.mem.poweringUp q) b = true →
      let a := coreBase q + b * 2 ^ 18
      ∃ t : State, exec (.bankPowerUpDone q b) s = .next t ∧ bitOf (Tab.get t.mem.poweringUp q) b = false ∧ (∀ j, j ≠ q → Tab.get t.mem.poweringUp j = Tab.get s.mem.poweringUp j)
        ∧ (∀ x, Tab.get t.mem.bytes x = if a ≤ x ∧ x < a + 2 ^ 18 then 0#8 else Tab.get s.mem.bytes x)
        ∧ ∀ i, i < 64 → t.tile (a / 4096 + i) = {})
  ∧ ∀ (s : State) (q b : Nat), bitOf (Tab.get s.mem.poweringUp q) b = false → exec (.bankPowerUpDone q b) s = .next s

/-- While the copy unit waits for answers of another module the op waits. Otherwise a copy between local addresses whose ranges can be reached and whose source tiles check good ends OK with every destination byte the source byte as it stood, and every other byte unchanged; a destination that cannot be reached ends it with that status and no byte changed, and a remote side off a 64-byte boundary ends it with REMOTE_ALIGN. -/
def Obligations.QueuedCopies : Prop :=
  ∀ (s : State) (q : Nat) (o : Op), (s.seq q).next .copy 0x1A = some o → endedRemote s.fab.remotes = none →
    (s.copyBusy q = true → ∀ e, exec (.copyOp q e) s = .next s)
    ∧ ∀ e s', s' = s.hbmReports e →
    (s.copyBusy q = false → isFar o.a = false → isFar o.b = false → s'.blocked (piecesOf o.a o.c) = none → s'.blocked (piecesOf o.b o.c) = none → s'.plain o.a o.c →
        ∃ u : State, exec (.copyOp q e) s = .next u ∧ s.ended u q o .OK 0 0
          ∧ ∀ x, Tab.get u.mem.bytes x = if o.b ≤ x ∧ x < o.b + o.c then Tab.get s'.mem.bytes (o.a + (x - o.b)) else Tab.get s'.mem.bytes x)
    ∧ (s.copyBusy q = false → isFar o.a = false → isFar o.b = false → ∀ x c, s'.blocked (piecesOf o.b o.c) = some (x, c) →
        ∃ u : State, exec (.copyOp q e) s = .next u ∧ s.ended u q o c 0 x ∧ u.mem.bytes = s'.mem.bytes)
    ∧ (s.copyBusy q = false → isFar o.a = true → o.a % 64 ≠ 0 ∨ o.c % 64 ≠ 0 → ∃ u : State, exec (.copyOp q e) s = .next u ∧ s.ended u q o .REMOTE_ALIGN 0 o.a ∧ u.mem = s'.mem)

/-- An accepted FX64 payload leaves each word at the sum modulo 2^72 as a signed number, an accepted int32 payload each word at the sum limited to int32, and no byte outside the payload's words changes; the op goes on behind the payload, or ends after its last with the status its first refused payload had. A refused payload changes no byte, is counted and raises ATOMIC_REFUSED. A clear of atomic tiles zeroes them and their flags and keeps ATOMIC, FORMAT and K; of any other tile it is refused with ATOMIC_NO_TARGET. -/
def Obligations.AtomicUnits : Prop :=
  ∀ (s : State) (q : Nat), endedRemote s.fab.remotes = none →
    (∀ o r p, (s.seq q).next .copy 0x1B = some o → isFar o.b = false → s.nextPayload q o = (r, p) → r.code = .OK →
      (o.mod % 2 = 0 → r.st.payloadStatus p = .OK → ∃ u : State, exec (.addFx64 q) s = .next u
          ∧ (∀ i, i < p.words.length → u.fxWord (p.target + 8 * i) = (s.fxWord (p.target + 8 * i) + p.words.getD i 0 + 2 ^ 71) % 2 ^ 72 - 2 ^ 71)
          ∧ (∀ x, x < p.target ∨ p.target + 8 * p.words.length ≤ x → Tab.get u.mem.bytes x = Tab.get s.mem.bytes x)
          ∧ (o.mod = 0 → o.c ≤ o.prog + p.words.length → ∃ z : Op, (u.seq q).ran = (s.seq q).ran ++ [{ op := z, status := o.bad, reason := 0, addr := if o.bad = .OK then 0 else o.badAddr }] ∧ z.pc = o.pc ∧ z.d = o.d)
          ∧ (o.mod = 0 → o.prog + p.words.length < o.c → (u.seq q).ran = (s.seq q).ran ∧ ∃ z ∈ (u.seq q).ops, z.prog = o.prog + p.words.length ∧ z.pc = o.pc ∧ z.b = o.b))
      ∧ (o.mod % 2 = 1 → r.st.payloadStatus p = .OK → ∃ u : State, exec (.addI32Sat q) s = .next u
          ∧ (∀ i, i < p.words.length → signed 32 (u.natAt (p.target + 4 * i) 4) = max (-2147483648) (min 2147483647 (signed 32 (s.natAt (p.target + 4 * i) 4) + p.words.getD i 0)))
          ∧ (∀ x, x < p.target ∨ p.target + 4 * p.words.length ≤ x → Tab.get u.mem.bytes x = Tab.get s.mem.bytes x)
          ∧ (o.mod = 1 → o.c ≤ o.prog + p.words.length → ∃ z : Op, (u.seq q).ran = (s.seq q).ran ++ [{ op := z, status := o.bad, reason := 0, addr := if o.bad = .OK then 0 else o.badAddr }] ∧ z.pc = o.pc ∧ z.d = o.d))
      ∧ (∀ c, r.st.payloadStatus p = c → c ≠ .OK → ∀ i, (i, o.mod % 2) ∈ [(Instr.addFx64 q, 0), (Instr.addI32Sat q, 1)] → ∃ (u : State) (l : List EvRec) (e : EvRec), exec i s = .next u
          ∧ u.mem.bytes = s.mem.bytes ∧ u.mem.guard = s.mem.guard ∧ u.ev.inFlight = l ++ [e] ∧ e.code = .ATOMIC_REFUSED ∧ e.args = [p.target] ∧ e.status = c
          ∧ u.reg (memReg (r.st.payloadMdie p (coreDie q)) Reg.ATOM_REFUSED_TOTAL) = min (2 ^ 64 - 1) (r.st.reg (memReg (r.st.payloadMdie p (coreDie q)) Reg.ATOM_REFUSED_TOTAL) + 1)))
    ∧ (∀ o, (s.seq q).next .copy 0x1C = some o → (∀ i, i < o.b → (s.atomAt (o.a + 4096 * i)).isSome = true) → ∃ u : State, exec (.atomicClearOp q) s = .next u ∧ s.ended u q o .OK 0 0
          ∧ (∀ x, Tab.get u.mem.bytes x = if 4096 * (o.a / 4096) ≤ x ∧ x < 4096 * (o.a / 4096) + 4096 * o.b then 0#8 else Tab.get s.mem.bytes x)
          ∧ (∀ i, i < o.b → let w := s.tile (o.a / 4096 + i); u.tile (o.a / 4096 + i) = { atomic := w.atomic, format := w.format, k := w.k })
          ∧ ∀ t, t < o.a / 4096 ∨ o.a / 4096 + o.b ≤ t → u.tile t = s.tile t)
    ∧ (∀ o i, (s.seq q).next .copy 0x1C = some o → i < o.b → s.atomAt (o.a + 4096 * i) = none → ∃ u : State, exec (.atomicClearOp q) s = .next u ∧ s.ended u q o .ATOMIC_NO_TARGET 0 o.a ∧ u.mem = s.mem)

/-- A vector op that is valid, whose inputs read OK and whose elements are finite or go out as floating point, writes its result in its OUT encoding and ends with the write's status; ADD and MUL are element by element and a ROTATE's elements are free values (log 42); a reserved block ends in FORMAT_INVALID. PSUM_ADD waits while its source pass is held, ends PSUM_FORMAT on a tile that is not a partial, and otherwise leaves the sums in the target, modulo 2^64 with OVERFLOW set where one does not fit, or, of two I32 tiles of one K, limited to int32 with SAT. KV_APPEND beyond the table's pages ends KV_SLOT_RANGE, below the admitted LENGTH KV_OVERWRITE, and otherwise a token's entry is written at its place. -/
def Obligations.VectorPartialAndAppendOps : Prop :=
  ∀ (s : State) (q : Nat) (o : Op),
    ((s.seq q).next .dEng 0x15 = some o → ∀ r b, s.read (Reader.ofCore q) o.a 64 = r → r.code = .OK → parseVecBlock s.loc r.bytes = b → ∀ t seq,
      (b.invalid = true → ∃ u : State, exec (.dVecOp q t seq) s = .next u ∧ s.ended u q o .ARRAY_OP_INVALID (statusNumber .FORMAT_INVALID) o.a ∧ u.mem.bytes = s.mem.bytes)
      ∧ (b.invalid = false → ∀ x ins, r.st.readAll (Reader.ofCore q) b.inputs = (x, ins) → x.code = .OK →
          let ys := b.result x.st.fresh ins
          let w := (if b.vop = 5 then { x.st with fresh := x.st.fresh + b.count } else x.st).storeVec q b t ys
          (b.format < 2 ∨ nonfinite (ys.map (·.getD 0#32)) = none → ∃ u : State, exec (.dVecOp q t seq) s = .next u ∧ s.ended u q o w.code 0 w.addr ∧ u.mem = w.st.mem)
          ∧ (b.vop = 1 ∨ b.vop = 2 → ∀ i, i < b.count → ys.getD i none
              = some ((if b.vop = 1 then F32.add else F32.mul) ((f32s b.count (ins.getD 0 [])).getD i 0#32) ((f32s b.count (ins.getD 1 [])).getD i 0#32)))))
    ∧ ((s.seq q).next .dEng 0x16 = some o →
      (s.heldAt q o.a = true → exec (.psumAddOp q) s = .next s)
      ∧ (s.heldAt q o.a = false → s.psumBad o.a = true ∨ s.psumBad o.b = true → ∃ u : State, exec (.psumAddOp q) s = .next u ∧ s.ended u q o .PSUM_FORMAT 0 o.a ∧ u.mem = s.mem)
      ∧ (s.heldAt q o.a = false → s.psumBad o.a = false → s.psumBad o.b = false → s.blocked [(o.a, 4096), (o.b, 4096)] = none → s.plain o.a 4096 → s.plain o.b 4096 →
        let x := s.tile (o.a / 4096)
        let y := s.tile (o.b / 4096)
        (x.format = 1 → y.format = 1 → let sum := fun k => signed 64 (s.natAt (o.a + 8 * k) 8) + signed 64 (s.natAt (o.b + 8 * k) 8)
          ∃ u : State, exec (.psumAddOp q) s = .next u ∧ s.ended u q o .OK 0 0
            ∧ (∀ k, k < 512 → signed 64 (u.natAt (o.b + 8 * k) 8) = (sum k + 2 ^ 63) % 2 ^ 64 - 2 ^ 63)
            ∧ (u.tile (o.b / 4096)).format = 1 ∧ ((u.tile (o.b / 4096)).overflow = true ↔ x.overflow = true ∨ y.overflow = true ∨ ∃ k, k < 512 ∧ (sum k < -2 ^ 63 ∨ 2 ^ 63 ≤ sum k))
            ∧ ∀ a, a < o.b ∨ o.b + 4096 ≤ a → Tab.get u.mem.bytes a = Tab.get s.mem.bytes a)
        ∧ (x.format = 2 → y.format = 2 → x.k = y.k → let sum := fun k => signed 32 (s.natAt (o.a + 4 * k) 4) + signed 32 (s.natAt (o.b + 4 * k) 4)
          ∃ u : State, exec (.psumAddOp q) s = .next u ∧ s.ended u q o .OK 0 0
            ∧ (∀ k, k < 512 → signed 32 (u.natAt (o.b + 4 * k) 4) = max (-2147483648) (min 2147483647 (sum k)))
            ∧ (u.tile (o.b / 4096)).format = 2 ∧ (u.tile (o.b / 4096)).k = x.k
            ∧ ((u.tile (o.b / 4096)).sat = true ↔ x.sat = true ∨ y.sat = true ∨ ∃ k, k < 512 ∧ (sum k < -2147483648 ∨ 2147483647 < sum k)))))
    ∧ ((s.seq q).next .dEng 0x17 = some o → ∀ r b, s.read (Reader.ofCore q) o.a 32 = r → r.code = .OK → parseAppend s.loc r.bytes = b →
      ((s.table b.seq).pages.length * 256 < b.base + b.w → ∃ u : State, exec (.kvAppendOp q) s = .next u ∧ s.ended u q o .KV_SLOT_RANGE 0 o.a ∧ u.mem.bytes = s.mem.bytes)
      ∧ (b.base + b.w ≤ (s.table b.seq).pages.length * 256 → b.base < s.snapLength b.seq → ∃ u : State, exec (.kvAppendOp q) s = .next u ∧ s.ended u q o .KV_OVERWRITE 0 o.a ∧ u.mem.bytes = s.mem.bytes)
      ∧ (b.base + b.w ≤ (s.table b.seq).pages.length * 256 → s.snapLength b.seq ≤ b.base → b.w = 1 → ∀ g h x ins e, s.headOf b.seq b.layer b.head = some (g, h) →
          r.st.readAll (Reader.ofCore q) [(b.k, 4 * (32 * h.width)), (b.v, 4 * (32 * h.width))] = (x, ins) → x.code = .OK → s.place b.seq (b.base / 256) g h = .ok e →
          let ks := f32s (32 * h.width) (ins.getD 0 [])
          let vs := f32s (32 * h.width) (ins.getD 1 [])
          let ek := encodeKv g.kv4 (scaled h.skv ks)
          let ev := encodeKv g.kv4 (scaled h.skv vs)
          nonfinite (ks ++ vs) = none → (∀ y ∈ ek ++ ev, y.range = false) →
          let w := x.st.writeEntry q g.kv4 e (b.base % 256) ek ev
          ∃ u : State, exec (.kvAppendOp q) s = .next u ∧ s.ended u q o w.code 0 w.addr ∧ u.mem = w.st.mem))

/-- A walk waits for the one before it. A record that fails its checks ends ATT_RECORD_INVALID with the reason and writes nothing. One that passes walks its segments: with more than one, segment 0's partials and the others wait to be merged in order; each merge takes the next, and the last ends the walk. The end writes the outputs with padded rows as zeros, counts the walk and the padded rows and frees the walker; a result beyond binary32 ends it with KV_RANGE and writes nothing. -/
def Obligations.AttentionWalks : Prop :=
  (∀ (s : State) (q : Nat) (o : Op), (s.seq q).next .dEng 0x18 = some o →
    (Tab.get s.walks q ≠ none → exec (.attWalkOp q) s = .next s)
    ∧ (Tab.get s.walks q = none → ∀ rd, s.read (Reader.ofCore q) o.a 64 = rd → rd.code = .OK →
      let r := parseWalk s.loc rd.bytes
      ∀ rt : Rd, (r.kind = 2 → rt = rd.st.read (Reader.ofCore q) r.tree 64) → (r.kind ≠ 2 → rt = { st := rd.st }) → rt.code = .OK →
      let ps := parentsOf r rt.bytes
      (∀ c, rt.st.walkReason r rd.bytes ps = some c → ∃ u : State, exec (.attWalkOp q) s = .next u ∧ s.ended u q o .ATT_RECORD_INVALID c o.a ∧ u.mem = rt.st.mem)
      ∧ (rt.st.walkReason r rd.bytes ps = none → ∀ g h, s.headOf r.seq r.layer r.head = some (g, h) →
        ∀ rq, rt.st.read (Reader.ofCore q) r.q (r.padded * r.g * 33 * r.width) = rq → rq.code = .OK →
          let base := rt.st.walkBase r
          let np := (base + r.rows - 1) / 256 + 1
          ∀ rp, rq.st.readPages q g h r (base + r.rows - 1) (List.range np) = rp →
            (rp.code ≠ .OK → ∃ u : State, exec (.attWalkOp q) s = .next u ∧ s.ended u q o rp.code 0 rp.addr ∧ Tab.get u.walks q = none ∧ u.mem = rp.st.mem)
            ∧ (rp.code = .OK → r.recompute = true → exec (.attWalkOp q) s = .next (rp.st.recompute q o r (ancestors ps) (queryVecs r rq.bytes) rp.pages))
            ∧ (rp.code = .OK → r.recompute = false →
              ∀ segs, segs = (segmentsOf np (min r.segments np)).map (walkSegment r base (ancestors ps) (queryVecs r rq.bytes) rp.pages) → (∀ x ∈ segs, ∀ y ∈ x, y.bad = false) →
              ∀ p t, segs.map (fun x => x.map (·.part)) = p :: t →
                (t ≠ [] → ∃ u : State, exec (.attWalkOp q) s = .next u ∧ Tab.get u.walks q = some { op := o, record := rd.bytes, own := p, rest := t } ∧ u.mem = rp.st.mem ∧ u.seq q = s.seq q)
                ∧ (t = [] → exec (.attWalkOp q) s = .next ((rp.st.bump (dieReg (coreDie q) Reg.ATT_RESCALE_TOTAL) ((segs.flatMap (fun x => x.map (·.rescales))).foldl (· + ·) 0)).walkEnd q o r p))))))
  ∧ (∀ (s : State) (q : Nat), (∀ w, Tab.get s.walks q = some w → w.rest = []) → exec (.segmentMerge q) s = .next s)
  ∧ (∀ (s : State) (q : Nat) (w : Walk) (k : List WalkPart) (t : List (List WalkPart)), Tab.get s.walks q = some w → w.rest = k :: t →
      let p := (w.own.zip k).map (fun x => mergePart x.1 x.2)
      let r := parseWalk s.loc w.record
      (p.all WalkPart.ok = true → t ≠ [] → ∃ u : State, exec (.segmentMerge q) s = .next u ∧ Tab.get u.walks q = some { w with own := p, rest := t } ∧ u.mem = s.mem ∧ u.seqs = s.seqs)
      ∧ (p.all WalkPart.ok = true → t = [] → exec (.segmentMerge q) s
          = .next ((s.bump (dieReg (coreDie q) Reg.ATT_MERGE_TOTAL) (if k.all (fun x => F32.isZero x.l) then 0 else 1)).walkEnd q w.op r p))
      ∧ (p.all WalkPart.ok = false → ∃ u : State, exec (.segmentMerge q) s = .next u ∧ s.ended u q w.op .KV_RANGE 0 r.out ∧ Tab.get u.walks q = none ∧ u.mem = s.mem))
  ∧ (∀ (s : State) (q : Nat) (o : Op) (r : WalkRec) (ps : List WalkPart), (ps.any (fun p => (finishPart r.skv p).isNone)) = true →
      s.ended (s.walkEnd q o r ps) q o .KV_RANGE 0 r.out ∧ Tab.get (s.walkEnd q o r ps).walks q = none ∧ (s.walkEnd q o r ps).mem = s.mem)
  ∧ ∀ (s : State) (q : Nat) (o : Op) (r : WalkRec) (ps : List WalkPart) (ys : List (List F32)), ps.map (finishPart r.skv) = ys.map some → r.save = false →
      let out := ys.flatMap (fun y => y.flatMap (fun v => leBytes 4 v.toNat)) ++ List.replicate ((r.padded - r.rows) * r.g * 128 * r.width) 0#8
      s.blocked (piecesOf r.out out.length) = none → s.ended (s.walkEnd q o r ps) q o .OK 0 0 ∧ Tab.get (s.walkEnd q o r ps).walks q = none
        ∧ (s.walkEnd q o r ps).reg (dieReg (coreDie q) Reg.ATT_WALK_TOTAL) = min (2 ^ 64 - 1) ((s.write (Src.ofCore q) {} r.out out).st.reg (dieReg (coreDie q) Reg.ATT_WALK_TOTAL) + 1)
        ∧ ∀ x, Tab.get (s.walkEnd q o r ps).mem.bytes x = if r.out ≤ x ∧ x < r.out + out.length then out.getD (x - r.out) 0#8 else Tab.get s.mem.bytes x

/-- At an ALLOCATED object a POST adds its value modulo 2^32 and a SET replaces the value; each is counted, waiters whose condition now holds leave the object and their sequencers go on, the others stay. A WAIT that is satisfied lets its sequencer go on, any other is recorded and counted; GE holds when the difference modulo 2^32 lies below 2^31, EQ on equality. An object that is not ALLOCATED changes in nothing, and the refusal is counted, reported with the requester and faults a running sequencer with SYNC_FREE. A recorded wait is reported as long once. -/
def Obligations.SynchronisationObjects : Prop :=
  (∀ (s : State) (i : Nat) (y : SyncMsg), s.flight[i]? = some y → (∀ j, (s.seq j).faultPending = false) →
    let x := s.obj y.obj
    let moved := fun (t : State) (v : Nat) => t.flight = s.flight.eraseIdx i ∧ (t.obj y.obj).val = v ∧ (t.obj y.obj).allocated = true ∧ (∀ j, j ≠ y.obj → t.obj j = s.obj j)
      ∧ (t.obj y.obj).waiters = x.waiters.filter (fun w => !waitHolds w.eq v w.target)
      ∧ t.reg (memReg (objMdie y.obj) Reg.SYNC_POST_TOTAL) = min (2 ^ 64 - 1) (s.reg (memReg (objMdie y.obj) Reg.SYNC_POST_TOTAL) + 1)
      ∧ ∀ w ∈ x.waiters, waitHolds w.eq v w.target = true → ∀ q, w.who = .seq q → (s.seq q).st = .stalled → (s.seq q).cause = .wait → (s.seq q).stopping = false → s.holdsOpcode q ((s.seq q).pc + 1) →
          t.seq q = { s.seq q with st := .running, cause := .none, pc := (s.seq q).pc + 1 }
    (y.kind = .post → x.allocated = true → ∃ t : State, exec (.syncPost (.flight i)) s = .next t ∧ moved t ((x.val + y.val) % 2 ^ 32))
    ∧ (y.kind = .set → x.allocated = true → ∃ t : State, exec (.syncSetArrival (.flight i)) s = .next t ∧ moved t (y.val % 2 ^ 32))
    ∧ (y.kind = .wait → x.allocated = true → waitHolds y.eq x.val y.val = false → ∃ t : State, exec (.syncWaitArrival (.flight i)) s = .next t ∧ t.flight = s.flight.eraseIdx i
        ∧ t.obj y.obj = { x with waiters := x.waiters ++ [{ who := y.who, target := y.val, eq := y.eq }] } ∧ t.seqs = s.seqs
        ∧ t.reg (memReg (objMdie y.obj) Reg.SYNC_WAIT_TOTAL) = min (2 ^ 64 - 1) (s.reg (memReg (objMdie y.obj) Reg.SYNC_WAIT_TOTAL) + 1))
    ∧ (y.kind = .wait → x.allocated = true → waitHolds y.eq x.val y.val = true → ∃ t : State, exec (.syncWaitArrival (.flight i)) s = .next t ∧ t.flight = s.flight.eraseIdx i ∧ t.sync = s.sync
        ∧ ∀ q, y.who = .seq q → (s.seq q).st = .stalled → (s.seq q).cause = .wait → (s.seq q).stopping = false → s.holdsOpcode q ((s.seq q).pc + 1) →
          t.seq q = { s.seq q with st := .running, cause := .none, pc := (s.seq q).pc + 1 })
    ∧ (x.allocated = false → ∀ c k, (c, k) ∈ [(Instr.syncPost (.flight i), SyncKind.post), (Instr.syncSetArrival (.flight i), .set), (Instr.syncWaitArrival (.flight i), .wait)] → y.kind = k →
        ∃ t : State, exec c s = .next t ∧ t.flight = s.flight.eraseIdx i ∧ t.sync = s.sync
          ∧ t.reg (memReg (objMdie y.obj) Reg.SYNC_REFUSED_TOTAL) = min (2 ^ 64 - 1) (s.reg (memReg (objMdie y.obj) Reg.SYNC_REFUSED_TOTAL) + 1)
          ∧ (∃ l e r, t.ev.inFlight = s.ev.inFlight ++ e :: l ∧ e.code = .SYNC_REFUSED ∧ e.args = [y.obj, r] ∧ ∀ q, y.who = .seq q → r = q)
          ∧ ∀ q, y.who = .seq q → (s.seq q).st = .running → (t.seq q).st = .faulted ∧ (t.seq q).fault.status = .SYNC_FREE ∧ (t.seq q).fault.pc = y.pc))
  ∧ (∀ (s : State) (g n v : Nat) (e : Bool), n < 4096 → (∀ j, (s.seq j).faultPending = false) → (s.obj n).allocated = true →
      (∃ t : State, exec (.syncPost (.hearth g n v e)) s = .next t ∧ (t.obj n).val = ((s.obj n).val + v) % 2 ^ 32)
      ∧ (∃ t : State, exec (.syncSetArrival (.hearth g n v e)) s = .next t ∧ (t.obj n).val = v % 2 ^ 32)
      ∧ (waitHolds e (s.obj n).val v = false → ∃ t : State, exec (.syncWaitArrival (.hearth g n v e)) s = .next t
          ∧ t.obj n = { s.obj n with waiters := (s.obj n).waiters ++ [{ who := .hearth g, target := v, eq := e }] })
      ∧ (waitHolds e (s.obj n).val v = true → exec (.syncWaitArrival (.hearth g n v e)) s = .next s))
  ∧ (∀ c v, c < 2 ^ 32 → v < 2 ^ 32 → (waitHolds true c v = true ↔ c = v) ∧ (waitHolds false c v = true ↔ (c + 2 ^ 32 - v) % 2 ^ 32 < 2 ^ 31))
  ∧ ∀ (s : State) (n i : Nat),
      ((s.obj n).waiters[i]? = none → exec (.syncWaitLong n i) s = .next s)
      ∧ ∀ w, (s.obj n).waiters[i]? = some w → (w.reported = true → exec (.syncWaitLong n i) s = .next s)
        ∧ (w.reported = false → ∃ (t : State) (e : EvRec), exec (.syncWaitLong n i) s = .next t ∧ t.obj n = { s.obj n with waiters := (s.obj n).waiters.set i { w with reported := true } }
          ∧ t.ev.inFlight = s.ev.inFlight ++ [e] ∧ e.code = .SYNC_WAIT_LONG ∧ e.args = [n, w.target, (s.obj n).val, w.who.number])

/-- With no command for it, or while one waits for another module, the DMA does nothing. Otherwise its best packet leaves the queue and, with no remote range, its run is the memory's change: a reserved OP, ELEM or count is DMA_FORMAT, overlapping ranges DMA_OVERLAP, and neither moves anything. One strided element is copied; an index at its limit or above is skipped, counted and INDEX_RANGE; the first status in the order of Table 6-10 stands. A Hearth core is interrupted; a sequencer gets the 16 bytes of the completion in its scratchpad and, with DONE_VALID, its done counter rises. -/
def Obligations.DmaCommands : Prop :=
  ∀ (s : State) (g : Nat), endedRemote s.fab.remotes = none →
    (s.dmaBusy g = true → exec (.dmaCommand g []) s = .next s)
    ∧ (s.dmaBusy g = false → (∀ p ∈ (s.queue g).pkts, tagDest p.tag ≠ 8) → exec (.dmaCommand g []) s = .next s)
    ∧ (s.dmaBusy g = false → ∀ p, bestPacket 8 (fun _ => true) (s.queue g).pkts = some p →
      let c := parseDma s.loc p.flits
      let s1 := s.setQueue g { s.queue g with pkts := (s.queue g).pkts.erase p }
      let r := s1.dmaRun g c []
      (c.refusal ≠ .OK → r.status = c.refusal ∧ r.out = 0 ∧ r.skipped = 0 ∧ r.st = s1)
      ∧ (c.refusal ≠ .OK ∨ c.farRange = false → c.post = false → p.writer = 8 → ∃ u : State, exec (.dmaCommand g []) s = .next u ∧ u.mem = r.st.mem
          ∧ (u.queue g).pkts = (s.queue g).pkts.erase p ∧ (u.queue g).hearthIrq = (s.queue g).hearthIrq + 1)
      ∧ (c.refusal ≠ .OK ∨ c.farRange = false → c.post = false → p.writer < 8 → dmaFaults r.status = false → (s.seq (g * 8 + p.writer)).st ≠ .stalled → s.blocked (piecesOf p.doneAddr 16) = none →
          ∃ u : State, exec (.dmaCommand g []) s = .next u ∧ (u.queue g).pkts = (s.queue g).pkts.erase p
            ∧ (∀ x, Tab.get u.mem.bytes x = if p.doneAddr ≤ x ∧ x < p.doneAddr + 16 then
                (leBytes 2 (statusNumber r.status) ++ leBytes 2 0 ++ leBytes 4 r.out ++ leBytes 4 r.skipped ++ leBytes 4 r.retried).getD (x - p.doneAddr) 0#8 else Tab.get r.st.mem.bytes x)
            ∧ (∀ d, Tab.get (u.seq (g * 8 + p.writer)).d d = if tagDoneValid p.tag = true ∧ d = tagDone p.tag then min 0xFFFF (Tab.get (s.seq (g * 8 + p.writer)).d d + 1) else Tab.get (s.seq (g * 8 + p.writer)).d d))
      ∧ (c.refusal = .OK → c.farRange = false → c.op = 1 → c.word 0 = 1 → c.word 1 = 1 → s.blocked (piecesOf c.a0 c.elem) = none → s.blocked (piecesOf c.a1 c.elem) = none → s.plain c.a0 c.elem → c.altValid = false →
          r.status = .OK ∧ r.out = 1 ∧ ∀ x, Tab.get r.st.mem.bytes x = if c.a1 ≤ x ∧ x < c.a1 + c.elem then Tab.get s.mem.bytes (c.a0 + (x - c.a1)) else Tab.get s.mem.bytes x)
      ∧ (c.refusal = .OK → c.farRange = false → c.op = 2 ∨ c.op = 3 → c.word 0 = 1 → s.blocked (piecesOf c.a2 4) = none → s.plain c.a2 4 → c.altValid = false → c.word 1 ≤ s.natAt c.a2 4 →
          r.status = .INDEX_RANGE ∧ r.out = 0 ∧ r.skipped = 1 ∧ r.st.mem.bytes = s.mem.bytes))
  ∧ ∀ c : DmaCmd, (c.op = 0 ∨ 4 < c.op ∨ c.elem < 4 ∨ 1048576 < c.elem ∨ c.elem % 4 ≠ 0 ∨ c.word 0 = 0 → c.refusal = .DMA_FORMAT)
      ∧ (c.refusal ≠ .DMA_FORMAT → rangesOverlap c.ranges = true → c.refusal = .DMA_OVERLAP) ∧ (rangesOverlap c.ranges = false → c.refusal = .OK ∨ c.refusal = .DMA_FORMAT)

/-- On a slot in a state its op does not list, every op completes CORD_STATE and changes nothing else. A manifest from host memory whose signatures, version, form, target banks and copy space hold fills the slot that RESULT0 names, LOADING with the manifest's cord, shards and group, no key and no shard passed; it is refused with the status of its first failing check. An envelope that names this module and cord gives the slot its key; another key than the slot's is KEY_CONFLICT. A shard beyond the count is CORD_FORMAT, one that has passed a duplicate, and otherwise it joins those to be checked. QUERY writes the slot's record. REMOVE refuses an ACTIVE slot and frees any other; ABORT frees a LOADING one. -/
def Obligations.WeightOpsOnASlot : Prop :=
  ∀ (s : State) (h : Hdr) (i : Nat), s.accepts h clsWeight = true →
    let t := s.start h
    let d := s.descOf h
    let x := s.slot i
    (8 ≤ i → ∀ a b k, exec (.weightKey h i a b k) s = .next (t.finish d .CORD_STATE 0 0) ∧ exec (.weightQuery h i a) s = .next (t.finish d .CORD_STATE 0 0)
        ∧ exec (.weightRemove h i) s = .next (t.finish d .CORD_STATE 0 0) ∧ exec (.weightAbort h i) s = .next (t.finish d .CORD_STATE 0 0)
        ∧ (∀ sp re rp sh f, exec (.weightShard h i sp re rp sh a f) s = .next (t.finish d .CORD_STATE 0 0)))
    ∧ (x.st ≠ .free ∨ 8 ≤ i → ∀ sp src len far es sig, i ≠ 0xFF → exec (.weightManifest h i sp src len far es sig) s = .next (t.finish d .CORD_STATE 0 0))
    ∧ (i = 0xFF ∨ (i < 8 ∧ x.st = .free) → ∀ sp src len far es sig, sp % 2 = 0 →
        let bs := t.hostRead src len
        let b := parseSig bs (256 + 64 * fieldAt bs 8 4)
        let formed := b.formed && b.kind == 5 && fieldAt bs 24 8 == b.security
        let c := Instr.weightManifest h i sp src len far es sig
        (t.sigMask formed 5 b.keyId sig ≠ 0 → exec c s = .next ((t.sigFailed 5 b.keyId (t.sigMask formed 5 b.keyId sig)).finish d .MANIFEST_SIGNATURE 0 0))
        ∧ (t.sigMask formed 5 b.keyId sig = 0 →
          (b.security < t.rollback 3 → exec c s = .next (t.finish d .MANIFEST_ROLLBACK 0 0))
          ∧ (t.rollback 3 ≤ b.security →
            (fieldAt bs 4 2 / 256 ≠ 1 → exec c s = .next (t.finish d .MANIFEST_VERSION 0 0))
            ∧ (fieldAt bs 4 2 / 256 = 1 → manifestFormed bs = false → exec c s = .next (t.finish d .CORD_FORMAT 0 0))
            ∧ (fieldAt bs 4 2 / 256 = 1 → manifestFormed bs = true →
              (∀ e st, t.refusedEngine es = some (e, st) → exec c s = .next (t.finish d st 0 e))
              ∧ (t.refusedEngine es = none → ∀ t1, t1 = t.displace (es.map (fun e => (e, t.targetBank e))) →
                (t1.allocRuns (manifestUnits bs) = none → exec c s = .next (t.finish d .CORD_AREA_FULL 0 0))
                ∧ (∀ us, t1.allocRuns (manifestUnits bs) = some us → t1.manifestSlot i = none → exec c s = .next (t.finish d .CORD_SLOTS_FULL 0 0))
                ∧ (∀ us j, t1.allocRuns (manifestUnits bs) = some us → t1.manifestSlot i = some j → ∃ u : State, exec c s = .next (u.finish d .OK j 0) ∧ (u.slot j).st = .loading
                  ∧ (u.slot j).cord = fieldAt bs 0 4 ∧ (u.slot j).shards = fieldAt bs 8 4 ∧ (u.slot j).tiles = fieldAt bs 12 4 ∧ (u.slot j).group = fieldAt bs 32 8 ∧ (u.slot j).key = none
                  ∧ (u.slot j).passed = [] ∧ (u.slot j).unit = us ∧ (u.slot j).targets = es.map (fun e => (e, t.targetBank e)) ∧ (u.slot j).manifest = bs ∧ (u.slot j).signer = b.keyId
                  ∧ ∀ k, k ≠ j → u.slot k = t1.slot k))))))
    ∧ (i < 8 → x.st = .loading ∨ x.st = .restoring → ∀ a n,
        exec (.weightKey h i a n none) s = .next (t.finish d .KEY_ENVELOPE_INVALID 0 0)
        ∧ ∀ k, (t.envelopeOk i (t.hostRead a n) = false → exec (.weightKey h i a n (some k)) s = .next (t.finish d .KEY_ENVELOPE_INVALID 0 0))
          ∧ (t.envelopeOk i (t.hostRead a n) = true → x.key ≠ none → x.key ≠ some k → exec (.weightKey h i a n (some k)) s = .next (t.finish d .KEY_CONFLICT 0 0))
          ∧ (t.envelopeOk i (t.hostRead a n) = true → x.key = none ∨ x.key = some k → ∃ u : State, exec (.weightKey h i a n (some k)) s = .next (u.finish d .OK 0 0)
              ∧ u.slot i = { x with key := some k } ∧ (∀ j, j ≠ i → u.slot j = s.slot j) ∧ u = { t with slots := u.slots }))
    ∧ (i < 8 → x.st = .loading ∨ x.st = .restoring ∨ x.st = .active → ∀ sp re rp sh a f, sp % 2 = 0 →
        let c := Instr.weightShard h i sp re rp sh a f
        (x.shards ≤ sh → exec c s = .next (t.finish d .CORD_FORMAT sh 0))
        ∧ (sh < x.shards → x.duplicate sh rp = true → exec c s = .next ((t.bump (wtReg Reg.WT_SHARD_DUP_TOTAL) 1).finish d .OK sh 1))
        ∧ (sh < x.shards → x.duplicate sh rp = false → x.key = none → 4 ≤ t.keyless → exec c s = .next (t.finish d .CORD_NO_KEY sh 0))
        ∧ (sh < x.shards → x.duplicate sh rp = false → x.key ≠ none ∨ t.keyless < 4 → ∃ u : State, exec c s = .next u
            ∧ u.inst.jobs = s.inst.jobs ++ [{ slot := i, shard := sh, desc := some d, repair := rp, restore := re, buffers := shardBuffers (x.shardLen sh + 16) }]
            ∧ (u.slot i).passed = x.passed ∧ (u.chan d.chan).buffers = (t.chan d.chan).buffers + shardBuffers (x.shardLen sh + 16)))
    ∧ (i < 8 → ∀ a, exec (.weightQuery h i a) s = .next ((t.hostPut a (x.record (t.tilesProgrammed x))).finish d .OK 0 0))
    ∧ (i < 8 → x.st = .active → exec (.weightRemove h i) s = .next (t.finish d .CORD_ACTIVE 0 0))
    ∧ (i < 8 → x.st = .free ∨ x.st = .restoring → exec (.weightRemove h i) s = .next (t.finish d .CORD_STATE 0 0))
    ∧ (i < 8 → x.st = .ready ∨ x.st = .standby ∨ x.st = .failed ∨ x.st = .loading → ∃ u : State, exec (.weightRemove h i) s = .next (u.finish d .OK 0 0) ∧ u.slot i = {}
        ∧ (∀ j ∈ u.inst.jobs, j.slot ≠ i) ∧ (∀ c ∈ u.inst.checks, c.slot ≠ i) ∧ ∀ j, j ≠ i → u.slot j = s.slot j)
    ∧ (i < 8 → x.st = .loading → ∃ u : State, exec (.weightAbort h i) s = .next (u.finish d .OK 0 0) ∧ u.slot i = {} ∧ (∀ j, j ≠ i → u.slot j = s.slot j)
        ∧ ∀ e ∈ x.targets, (u.bank e.1 e.2).st ≠ .programming)
    ∧ (i < 8 → x.st ≠ .loading → exec (.weightAbort h i) s = .next (t.finish d .CORD_STATE 0 0))

/-- The oldest shard whose slot has a key is checked: a duplicate completes again; a failed tag, digest or record ends it with its status, counted, and it has not passed; else it has passed, is counted, and completes OK. WEIGHT CHAIN records predecessor and successor. A chunk is taken in order and dropped with its shard otherwise; the last joins the shard to those to be checked. A chunk leaves only while fewer than four are unfreed, and the successor's notice frees one. -/
def Obligations.ShardChecksAndChains : Prop :=
  (∀ (s : State) (ok : Bool) (bs : List Byte),
    (s.nextJob = none → exec (.shardCheckDone ok bs) s = .next s)
    ∧ ∀ j, s.nextJob = some j →
      let x := s.slot j.slot
      let rs := shardRecords bs (x.tileCount j.shard) 0
      let c := Instr.shardCheckDone ok bs
      (x.duplicate j.shard j.repair = true → exec c s = .next ((s.bump (wtReg Reg.WT_SHARD_DUP_TOTAL) 1).jobEnd j .OK j.shard 1))
      ∧ (x.duplicate j.shard j.repair = false →
        (ok = false → exec c s = .next (s.shardFailed j .SHARD_AUTH_FAILED 0))
        ∧ (ok = true → bs.length ≠ x.shardLen j.shard ∨ fitBytes 48 (Config.sha384 bs) ≠ x.digest j.shard → exec c s = .next (s.shardFailed j .SHARD_DIGEST_MISMATCH 0))
        ∧ (ok = true → bs.length = x.shardLen j.shard → fitBytes 48 (Config.sha384 bs) = x.digest j.shard →
          (∀ k st, s.faultyRecord x j.shard bs 0 [] rs = some (k, st) → exec c s = .next (s.shardFailed j st k))
          ∧ (s.faultyRecord x j.shard bs 0 [] rs = none → x.fits rs = true → ∃ u : State, exec c s = .next u ∧ j.shard ∈ (u.slot j.slot).passed ∧ j.shard ∉ (u.slot j.slot).damaged
            ∧ (∀ k ∈ x.passed, k ∈ (u.slot j.slot).passed) ∧ u.inst.jobs = s.inst.jobs.erase j ∧ (∀ i, i ≠ j.slot → u.slot i = s.slot i)
            ∧ u.reg (wtReg Reg.WT_SHARD_IN_TOTAL) = min (2 ^ 64 - 1) (s.reg (wtReg Reg.WT_SHARD_IN_TOTAL) + 1)))))
  ∧ (∀ (s : State) (j : ShardJob) (c : Code) (n : Nat), (s.shardFailed j c n).slots = s.slots ∧ (s.shardFailed j c n).inst.jobs = s.inst.jobs.erase j
      ∧ (s.shardFailed j c n).reg (wtReg Reg.WT_SHARD_FAIL_TOTAL) = min (2 ^ 64 - 1) (s.reg (wtReg Reg.WT_SHARD_FAIL_TOTAL) + 1))
  ∧ (∀ (s : State) (h : Hdr) (i : Nat) (succ : Option Nat), s.accepts h clsWeight = true → i < 8 → (s.slot i).st = .loading ∨ (s.slot i).st = .restoring →
      (∃ u : State, exec (.weightChain h i none succ) s = .next (u.finish (s.descOf h) .OK 0 0) ∧ (u.slot i).pred = none ∧ (u.slot i).succ = succ ∧ (u.slot i).intake = none ∧ (u.slot i).unfreed = 0)
      ∧ ∀ m, (s.slot i).intake = none →
        let w : WinArgs := { base := intakeBase, size := intakeSize, srcFirst := m, srcLast := m, rights := 1, ports := 1 }
        ∀ u, u = (s.start h).setSlot i { s.slot i with pred := some m, succ := succ, intake := none, part := none, unfreed := 0 } →
          (∀ n, u.winEntry w = some n → u.winStatus w false = .OK → ∃ v : State, exec (.weightChain h i (some m) succ) s = .next (v.finish (s.descOf h) .OK 0 0)
            ∧ (v.slot i).pred = some m ∧ (v.slot i).succ = succ ∧ (v.slot i).intake = some n ∧ (v.win n).st = .opened ∧ (v.win n).args = w)
          ∧ (u.winEntry w = none ∨ u.winStatus w false ≠ .OK → exec (.weightChain h i (some m) succ) s = .next (u.finish (s.descOf h) (u.winStatus w false) 0 0)))
  ∧ (∀ (s : State) (i sh k n : Nat),
      let x := s.slot i
      let bs := (List.range (min n 0x100000)).map (fun o => Tab.get s.mem.bytes (intakeBase + k % 4 * 0x100000 + o))
      (x.pred = none ∨ 8 ≤ i ∨ x.shards ≤ sh → exec (.chunkReady i sh k n) s = .next s)
      ∧ (x.pred ≠ none → i < 8 → sh < x.shards → x.st = .loading ∨ x.st = .restoring →
        (x.part = none → k ≠ 0 → exec (.chunkReady i sh k n) s = .next (s.bump (wtReg Reg.WT_SHARD_FAIL_TOTAL) 1))
        ∧ (∀ l, (x.part = none ∧ k = 0 ∧ l = []) ∨ x.part = some (sh, k, l) → ∃ u : State, exec (.chunkReady i sh k n) s = .next u ∧ (∀ j, j ≠ i → u.slot j = s.slot j)
            ∧ (u.slot i).forward = (if x.succ.isSome then x.forward ++ [{ shard := sh, k := k, bytes := bs }] else x.forward)
            ∧ ((l ++ bs).length < x.shardLen sh + 16 → (u.slot i).part = some (sh, k + 1, l ++ bs) ∧ u.inst = s.inst)
            ∧ (x.shardLen sh + 16 ≤ (l ++ bs).length → (u.slot i).part = none ∧ (x.duplicate sh false = false → x.key ≠ none → u.inst.jobs = s.inst.jobs ++ [{ slot := i, shard := sh, restore := x.st == .restoring }])))))
  ∧ (∀ (s : State) (i : Nat), ((s.slot i).forward = [] ∨ (s.slot i).succ = none ∨ 4 ≤ (s.slot i).unfreed ∨ 8 ≤ i → exec (.chainChunkForward i) s = .next s)
      ∧ ∀ c r m u, (s.slot i).forward = c :: r → (s.slot i).succ = some m → (s.slot i).unfreed < 4 → i < 8 →
        u = (s.setSlot i { s.slot i with forward := r, unfreed := (s.slot i).unfreed + 1 }).launch (.chain i c)
          (writeFrames m (piecesOf (intakeBase + c.k % 4 * 0x100000) c.bytes.length) c.bytes) true → endedRemote u.fab.remotes = none →
        exec (.chainChunkForward i) s = .next u ∧ u.slot i = { s.slot i with forward := r, unfreed := (s.slot i).unfreed + 1 } ∧ ∃ x ∈ u.fab.remotes, x.issuer = .chain i c)
  ∧ ∀ (s : State) (i : Nat), (i < 8 → (s.slot i).succ ≠ none → ∃ u : State, exec (.slotFree i) s = .next u ∧ u.slot i = { s.slot i with unfreed := (s.slot i).unfreed - 1 }
      ∧ (∀ j, j ≠ i → u.slot j = s.slot j) ∧ u = { s with slots := u.slots })
    ∧ (8 ≤ i ∨ (s.slot i).succ = none → exec (.slotFree i) s = .next s)

/-- A COMMIT of a slot that may flip waits for the boundary; a group COMMIT asks the members first and completes CORD_NOT_READY on a module that is not the lead or while one is under way. A member that is asked promises a slot that can flip. The lead's flip waits for the boundary once every member has confirmed; a member that declines, or that has not confirmed after 100 ms, ends it with CORD_NOT_READY and its name. CHECK starts a check of a shard of an ACTIVE slot; READBACK_EN starts the next shard of the next ACTIVE slot in turn; a check that ends leaves those under way, is counted and reports one of the four rows. -/
def Obligations.CommitsAndReadBack : Prop :=
  (∀ (s : State) (h : Hdr) (i : Nat), s.accepts h clsWeight = true →
    let t := s.start h
    let d := s.descOf h
    (8 ≤ i ∨ ((s.slot i).st ≠ .ready ∧ (s.slot i).st ≠ .standby) → ∀ g, exec (.weightCommit h i g) s = .next (t.finish d .CORD_STATE 0 0))
    ∧ (i < 8 → (s.slot i).st = .ready ∨ (s.slot i).st = .standby →
      (t.flipStatus i ≠ .OK → ∀ g, exec (.weightCommit h i g) s = .next (t.finish d (t.flipStatus i) 0 0))
      ∧ (t.flipStatus i = .OK → ∃ u : State, exec (.weightCommit h i false) s = .next u ∧ u.inst.flips = s.inst.flips ++ [(i, some d)] ∧ u = { t with inst := u.inst })
      ∧ (t.flipStatus i = .OK → t.inGroup = false ∨ t.isLead = false ∨ t.inst.group ≠ none → exec (.weightCommit h i true) s = .next (t.finish d .CORD_NOT_READY t.moduleId 0))
      ∧ (t.flipStatus i = .OK → t.inGroup = true → t.isLead = true → t.inst.group = none → t.groupOthers ≠ [] → ∃ u : State, exec (.weightCommit h i true) s = .next u
          ∧ u.inst.group = some { desc := d, slot := i, since := t.time.tick } ∧ u.inst.flips = s.inst.flips ∧ u = { t with inst := u.inst }))
    ∧ (8 ≤ i ∨ (s.slot i).st ≠ .active → ∀ k, exec (.weightCheck h i k) s = .next (t.finish d .CORD_STATE 0 0))
    ∧ (i < 8 → (s.slot i).st = .active → ∀ k, (s.slot i).shards ≤ k → exec (.weightCheck h i k) s = .next (t.finish d .CORD_FORMAT 0 0))
    ∧ (i < 8 → (s.slot i).st = .active → ∀ k, k < (s.slot i).shards → ∃ u : State, exec (.weightCheck h i k) s = .next u
        ∧ u.inst.checks = s.inst.checks ++ [{ slot := i, shard := k, desc := some d }] ∧ u = { t with inst := u.inst }))
  ∧ (∀ (s : State) (tag : Nat), (s.inGroup = false ∨ s.isLead = true → exec (.cordGroupQuery tag) s = .next s)
    ∧ (s.inGroup = true → s.isLead = false → ∃ u : State, exec (.cordGroupQuery tag) s = .next u ∧ u = { s with inst := { s.inst with promised := u.inst.promised } }
      ∧ (∀ i, u.inst.promised = some i → i < 8 ∧ (s.slot i).group = tag ∧ s.flipStatus i = .OK)
      ∧ (u.inst.promised = none → ∀ i, i < 8 → (s.slot i).group = tag → tag ≠ 0 → s.flipStatus i ≠ .OK)))
  ∧ (∀ (s : State) (m : Nat) (yes : Bool), (s.inst.group = none → exec (.cordGroupConfirm m yes) s = .next s)
    ∧ ∀ g, s.inst.group = some g → (m ∉ s.groupOthers → exec (.cordGroupConfirm m yes) s = .next s)
      ∧ (m ∈ s.groupOthers → yes = false → exec (.cordGroupConfirm m yes) s = .next ({ s with inst := { s.inst with group := none } }.finish g.desc .CORD_NOT_READY m 0))
      ∧ (m ∈ s.groupOthers → yes = true → (∀ k ∈ s.groupOthers, k = m ∨ k ∈ g.confirmed) → ∃ u : State, exec (.cordGroupConfirm m yes) s = .next u ∧ u.inst.group = none
          ∧ u.inst.flips = s.inst.flips ++ [(g.slot, some g.desc)] ∧ u.inst.announceFlip = true ∧ u = { s with inst := u.inst })
      ∧ (m ∈ s.groupOthers → yes = true → (∃ k ∈ s.groupOthers, k ≠ m ∧ k ∉ g.confirmed) → ∃ (u : State) (l : List Nat), exec (.cordGroupConfirm m yes) s = .next u
          ∧ u = { s with inst := { s.inst with group := some { g with confirmed := l } } } ∧ ∀ k, k ∈ l ↔ k = m ∨ k ∈ g.confirmed))
  ∧ (∀ s : State, (s.inst.group = none → exec .groupCommitTimeout s = .next s)
    ∧ ∀ g, s.inst.group = some g → (s.time.tick < g.since + 100000000 → exec .groupCommitTimeout s = .next s)
      ∧ (g.since + 100000000 ≤ s.time.tick → ∀ a m b, s.groupOthers = a ++ m :: b → (∀ k ∈ a, k ∈ g.confirmed) → m ∉ g.confirmed →
          exec .groupCommitTimeout s = .next ({ s with inst := { s.inst with group := none } }.finish g.desc .CORD_NOT_READY m 0)))
  ∧ (∀ s : State, (s.readbackEn = false ∨ (∀ i, i < 8 → (s.slot i).st ≠ .active) → exec .readbackCheckStart s = .next s)
    ∧ ∀ j, s.readbackEn = true → j < 8 → let i := (s.inst.turn + 1 + j) % 8
      (s.slot i).st = .active → 0 < (s.slot i).shards → (∀ k, k < j → (s.slot ((s.inst.turn + 1 + k) % 8)).st ≠ .active) →
        ∃ u : State, exec .readbackCheckStart s = .next u ∧ u.inst.checks = s.inst.checks ++ [{ slot := i, shard := (s.slot i).nextCheck % (s.slot i).shards }] ∧ u.inst.turn = i
          ∧ (u.slot i).nextCheck = ((s.slot i).nextCheck % (s.slot i).shards + 1) % (s.slot i).shards ∧ ∀ k, k ≠ i → u.slot k = s.slot k)
  ∧ ∀ (s : State) (i : Nat), (s.inst.checks[i]? = none → exec (.readbackCheckDone i) s = .next s)
    ∧ ∀ c, s.inst.checks[i]? = some c →
      let r := { s with inst := { s.inst with checks := s.inst.checks.eraseIdx i } }.readback c.slot c.shard
      (c.desc = none → c.restore = false → exec (.readbackCheckDone i) s = .next r.1) ∧ (∀ d, c.desc = some d → c.restore = false → exec (.readbackCheckDone i) s = .next (r.1.finish d .OK r.2 0))
      ∧ r.2 < 4 ∧ r.1.reg (wtReg Reg.WT_READBACK_TOTAL) = min (2 ^ 64 - 1) (s.reg (wtReg Reg.WT_READBACK_TOTAL) + 1)

/-- A bank starts only when a slot has tiles for it, it is neither ACTIVE nor PROGRAMMING and fewer than PROG_ENGINES engines program: it enters PROGRAMMING, empty, with one more cycle; a worn one fails its LOADING slot instead. A tile whose columns all verify stands in its bank and is counted; a failed reference column or row driver empties the bank, names its engine in the slot and raises WEIGHT_BANK_FAILED. A spare that verifies takes its column's codes and a MAPPED change; one that fails is failed and COVERED is staged. -/
def Obligations.Programming : Prop :=
  (∀ (s : State) (q n b : Nat),
    let e := engineKey q n
    let y := s.bank e b
    (2 ≤ b ∨ 4 ≤ n ∨ s.progSource e b = none ∨ y.st = .active ∨ y.st = .programming → exec (.bankProgramRequest q n b) s = .next s)
    ∧ (b < 2 → n < 4 → ∀ i f, s.progSource e b = some (i, f) → s.dieDown (engDie e) = false → y.st ≠ .active → y.st ≠ .programming → (s.slot i).tilesOf f ≠ [] →
        (∃ l ∈ (s.slot i).tilesOf f, y.holds l (s.slot i).cord = false) →
        (y.cycles < bankLimit → s.programming < s.progEngines → ∃ u : State, exec (.bankProgramRequest q n b) s = .next u ∧ (u.bank e b).st = .programming ∧ (u.bank e b).cycles = y.cycles + 1
            ∧ (u.bank e b).layers = [] ∧ (u.bank e b).cols = y.cols ∧ u.bank e (1 - b) = s.bank e (1 - b) ∧ (∀ k, k ≠ e → u.engine k = s.engine k) ∧ u.slots = s.slots
            ∧ u.ev.inFlight.length = s.ev.inFlight.length + if s.wearNotice ≤ y.cycles + 1 ∧ y.wearNoticed = false then 1 else 0)
        ∧ (y.cycles < bankLimit → s.progEngines ≤ s.programming → exec (.bankProgramRequest q n b) s = .next s)
        ∧ (bankLimit ≤ y.cycles → (s.slot i).st = .loading → ∃ (u : State) (v : EvRec), exec (.bankProgramRequest q n b) s = .next u ∧ (u.slot i).st = .failed
            ∧ u.ev.inFlight = s.ev.inFlight ++ [v] ∧ v.code = .CORD_FAILED ∧ v.args = [i, (s.slot i).cord, e, b] ∧ v.status = .BANK_WORN)))
  ∧ (∀ (s : State) (q n l : Nat) (bad spares : List Nat) (ref : Bool),
    let e := engineKey q n
    ∀ b, b = (if (s.engine e).a.st = .programming then 0 else 1) →
    ((s.bank e b).st ≠ .programming ∨ s.progSource e b = none → exec (.tileProgramDone q n l bad spares ref) s = .next s)
    ∧ ∀ i f, s.progSource e b = some (i, f) → s.dieDown (engDie e) = false → (s.bank e b).st = .programming → (s.engine e).spareFirst = false → l ∈ (s.slot i).tilesOf f →
        (s.bank e b).holds l (s.slot i).cord = false →
        let t := Tab.get (s.slot i).dir (tileKey f l)
        ∀ r, r = s.readLines (engCore e) i (engDie e) t true (List.range (t.blocks + 1))
            { st := s, tile := { format := t.format, blocks := t.blocks, cols := t.cols, tag := t.tag, codes := List.replicate (t.blocks + 1) [], exps := List.replicate (t.blocks + 1) [] } } →
          (r.code ≠ .OK → exec (.tileProgramDone q n l bad spares ref) s = .next r.st)
          ∧ (r.code = .OK → bad = [] → ref = false → (s.bank e b).coveredCount l ≤ 32 → r.tile.format ≠ 0 → ∃ u : State, exec (.tileProgramDone q n l bad spares ref) s = .next u
              ∧ (u.bank e b).holds l (s.slot i).cord = true ∧ (Tab.get (u.bank e b).layers l).codes = r.tile.codes.flatten ∧ (∀ k, k ≠ l → Tab.get (u.bank e b).layers k = Tab.get (s.bank e b).layers k)
              ∧ u.reg (wtReg Reg.WT_PROG_WEIGHTS_TOTAL) = min (2 ^ 64 - 1) (s.reg (wtReg Reg.WT_PROG_WEIGHTS_TOTAL) + (t.blocks + 1) * 128 * t.cols))
          ∧ (r.code = .OK → ref = true → ∃ u : State, exec (.tileProgramDone q n l bad spares ref) s = .next u ∧ (u.bank e b).st = .empty ∧ (u.bank e b).layers = [] ∧ e ∈ (u.slot i).failedBanks))
  ∧ ∀ (s : State) (q n b : Nat),
    let e := engineKey q n
    ((s.bank e b).work = [] → ∀ ok, exec (.spareProgramDone q n b ok) s = .next s)
    ∧ ∀ w r, (s.bank e b).work = w :: r →
      (b = (s.engine e).active → (s.engine e).sel = some (b, w.layer) → ∀ ok, exec (.spareProgramDone q n b ok) s = .next s)
      ∧ (b ≠ (s.engine e).active ∨ (s.engine e).sel ≠ some (b, w.layer) →
        (∃ u : State, exec (.spareProgramDone q n b true) s = .next u ∧ (u.bank e b).work = r
          ∧ Tab.get (u.bank e b).spares (spareKey w.layer w.spare) = { used := true, failed := false, codes := (Tab.get (s.bank e b).layers w.layer).column w.lane }
          ∧ (∃ c ∈ (u.bank e b).staged, c.layer = w.layer ∧ c.lane = w.lane ∧ c.col = { st := .mapped, spare := w.spare }) ∧ (∀ k, k ≠ e → u.engine k = s.engine k) ∧ u = { s with engines := u.engines })
        ∧ (∃ u : State, exec (.spareProgramDone q n b false) s = .next u ∧ (Tab.get (u.bank e b).spares (spareKey w.layer w.spare)).failed = true ∧ ∀ k, k ≠ e → u.engine k = s.engine k))

/-- An enrolment whose signatures, form, signer, serial, sequence and permission hold replaces or empties its key slot, records SEQ and is reported; any other completes KEY_ENROLL_REFUSED with its reason and changes no key. IDENTITY writes the certificate. ATTEST waits for the next boundary's snapshot, or completes HSS_EXHAUSTED without a leaf left. ROLLBACK_ADVANCE raises its counter to the lowest version held, at most 64 and never lower, and reports both values. A new tree ends the wait at an edge, else stands by. -/
def Obligations.SecurityOps : Prop :=
  (∀ (s : State) (h : Hdr), s.accepts h clsMaint = true →
    let t := s.start h
    let d := s.descOf h
    (∀ a n sig, let bs := t.hostRead a n
      let b := parseSig bs 256
      let m := t.sigMask (b.formed && b.kind == 6) 6 b.keyId sig
      let k := fieldAt bs 2 1
      (m ≠ 0 → ∃ u : State, exec (.keyEnroll h a n sig) s = .next (u.finish d .KEY_ENROLL_REFUSED (if t.keyAccepts b.keyId 6 then 0 else 1) 0) ∧ u.sec = s.sec
          ∧ u.reg (secReg Reg.SEC_VERIFY_FAIL_TOTAL) = min (2 ^ 64 - 1) (t.reg (secReg Reg.SEC_VERIFY_FAIL_TOTAL) + 1))
      ∧ (m = 0 → enrollFormed bs = true → t.enrollReason bs b.keyId ≠ 0 → exec (.keyEnroll h a n sig) s = .next (t.finish d .KEY_ENROLL_REFUSED (t.enrollReason bs b.keyId) 0))
      ∧ (m = 0 → enrollFormed bs = true → t.enrollReason bs b.keyId = 0 → ∃ (u : State) (v : EvRec), exec (.keyEnroll h a n sig) s = .next (u.finish d .OK 0 0)
          ∧ (∀ j, j ≠ k → u.keySlot j = s.keySlot j) ∧ u.ev.inFlight = t.ev.inFlight ++ [v] ∧ v.args = [k] ∧ (u.keySlot k).seq = fieldAt bs 16 8
          ∧ (fieldAt bs 3 1 = 1 → v.code = .KEY_ENROLLED ∧ (u.keySlot k).valid = true ∧ (u.keySlot k).roles = fieldAt bs 4 4 ∧ (u.keySlot k).ecdsa = (bs.drop 24).take 97 ∧ (u.keySlot k).hss = (bs.drop 124).take 60)
          ∧ (fieldAt bs 3 1 ≠ 1 → v.code = .KEY_REVOKED ∧ (u.keySlot k).valid = false)))
    ∧ (∀ a, exec (.identity h a) s = .next ((t.hostPut a t.sec.cert).finish d .OK t.sec.cert.length 0))
    ∧ (∀ a l, hssLeaves ≤ s.sec.leaves → exec (.attest h a l) s = .next (t.finish d .HSS_EXHAUSTED 0 0))
    ∧ (∀ a l, s.sec.leaves < hssLeaves → ∃ u : State, exec (.attest h a l) s = .next u ∧ u.sec.attests = s.sec.attests ++ [{ desc := d, buffer := a, nonce := l }] ∧ u = { t with sec := u.sec })
    ∧ (∀ c, 4 ≤ c → exec (.rollbackAdvance h c) s = .next (t.finish d .DESC_FORMAT 0 0))
    ∧ (∀ c, c < 4 → ∃ (u : State) (v : EvRec), exec (.rollbackAdvance h c) s = .next (u.finish d .OK (s.rollback c) (u.rollback c)) ∧ s.rollback c ≤ u.rollback c
        ∧ (u.rollback c = s.rollback c ∨ (u.rollback c ≤ 64 ∧ ∀ x ∈ s.heldVersions c, u.rollback c ≤ x)) ∧ (∀ j, j ≠ c → u.rollback j = s.rollback j)
        ∧ u.ev.inFlight = t.ev.inFlight ++ [v] ∧ v.code = .ROLLBACK_ADVANCED ∧ v.args = [c, s.rollback c, u.rollback c]))
  ∧ (∀ s : State, (s.sec.edge = false → ∃ u : State, exec .hssTreeBuilt s = .next u ∧ u = { s with sec := { s.sec with nextReady := true } })
    ∧ (s.sec.edge = true → exec .hssTreeBuilt s = .next { s with sec := { s.sec with edge := false } }.signHeld)
    ∧ (s.sec.second = s.time.tick / tickSecond → exec .attestRateTurn s = .next s)
    ∧ (s.sec.second ≠ s.time.tick / tickSecond → exec .attestRateTurn s = .next s.signHeld))
  ∧ ∀ (s : State) (a : Attest) (r : List Byte), s.sec.attests = [a] → a.report = some r →
      (s.maySign = false → s.signHeld = s)
      ∧ (s.maySign = true → (s.signHeld).sec.attests = [] ∧ (s.signHeld).sec.leaves = s.sec.leaves + 1 ∧ (s.signHeld).sec.second = s.time.tick / tickSecond
        ∧ (s.signHeld).sec.signed = (if s.sec.second = s.time.tick / tickSecond then s.sec.signed else 0) + 1 ∧ (s.signHeld).hostRead a.buffer r.length = r)

/-- A SCAN is refused, in this order, for the MODE that the table does not give (the model's reading), an absent target, while a scan is under way, with SCAN_EN at 0, for a SWAP with no spare, and for a cover on a die with one; otherwise the scan of its position is under way and its descriptor waits: a SPARE position is under test at once, a SWAP's spare is PROGRAMMING. A scheduled scan starts only when SCAN_EN is 1 and nothing holds it, and has no descriptor. A scan's end is counted and completes its descriptor; a position that passes outside COVER is SPARE, one that fails is RETIRED with SCAN_FAILED; in COVER a pass waits for the boundary and a failure loses the cluster. A pattern is loaded only with both signatures, a version no lower than its counter and slices within SLICE_CYCLES; a slot that holds none has nothing to enable (the model's reading); a removed one is empty. INJECT with INJECT_EN sets the lane's offset for STEPS. QUERY writes Table 14-4. -/
def Obligations.ScansAndFleetPatterns : Prop :=
  (∀ (s : State) (h : Hdr) (e k mode : Nat), s.accepts h clsTest = true →
    let t := s.start h
    let d := s.descOf h
    let c := Instr.scan h e k mode
    (mode % 4 = 3 → exec c s = .next (t.finish d .DESC_FORMAT 0 0))
    ∧ (mode % 4 ≠ 3 → t.scanTarget e k = none → exec c s = .next (t.finish d .TARGET_ABSENT 0 0))
    ∧ (s.fits e = false → t.scanTarget e k = none)
    ∧ (s.fits e = true → k < 8 → t.scanTarget e k = s.posOf e k)
    ∧ ∀ p, t.scanTarget e k = some p → mode % 4 ≠ 3 →
      (s.scanning ≠ none → exec c s = .next (t.finish d .TEST_BUSY 0 0))
      ∧ (s.scanning = none → s.scanEn = false → exec c s = .next (t.finish d .TEST_NOT_PERMITTED 0 0))
      ∧ (s.scanning = none → s.scanEn = true → k < 8 → mode % 4 = 1 → s.swapSpare e = none → exec c s = .next (t.finish d .SCAN_NO_SPARE 0 0))
      ∧ (s.scanning = none → s.scanEn = true → k < 8 → mode % 4 = 2 ∨ (mode % 4 = 0 ∧ s.swapSpare e = none) → s.dieCovers e = true → exec c s = .next (t.finish d .TEST_BUSY 0 0))
      ∧ (s.scanning = none → s.scanEn = true → k < 8 → mode % 4 = 2 ∨ (mode % 4 = 0 ∧ s.swapSpare e = none) → s.dieCovers e = false → ∃ u : State, exec c s = .next u
          ∧ (u.scan e).st = 1 ∧ (u.scan e).mode = 2 ∧ (u.scan e).position = p ∧ (u.scan e).desc = some d ∧ (∀ i, i ≠ e → u.scan i = s.scan i) ∧ u.pos = s.pos ∧ u = { t with det := u.det })
      ∧ (s.scanning = none → s.scanEn = true → k < 8 → mode % 4 = 1 ∨ mode % 4 = 0 → ∀ j, s.swapSpare e = some j → ∃ u : State, exec c s = .next u
          ∧ (u.scan e).st = 1 ∧ (u.scan e).mode = 1 ∧ (u.scan e).position = p ∧ (u.scan e).desc = some d ∧ (u.position e j).st = .programming
          ∧ (∀ i, i < 9 → i ≠ j → u.position e i = s.position e i) ∧ u.engines = s.engines)
      ∧ (s.scanning = none → s.scanEn = true → 0xF8 ≤ k → ∃ u : State, exec c s = .next u ∧ (u.scan e).st = 2 ∧ (u.scan e).mode = 3 ∧ (u.scan e).position = p ∧ p = k - 0xF8
          ∧ (u.scan e).desc = some d ∧ (u.position e p).underScan = true ∧ u.engines = s.engines))
  ∧ (∀ s : State, (s.ready = false ∨ s.scanEn = false ∨ s.scanHeld = true ∨ s.scanNext = none → exec .scanSchedule s = .next s)
    ∧ ∀ e p, s.ready = true → s.scanEn = true → s.scanHeld = false → s.scanNext = some (e, p) → ∃ u : State, exec .scanSchedule s = .next u ∧ (u.scan e).st ≠ 0 ∧ (u.scan e).position = p
        ∧ (u.scan e).desc = none ∧ (∀ i, i ≠ e → u.scan i = s.scan i) ∧ u.chans = s.chans)
  ∧ (∀ (s : State) (ok : Bool) (n : Nat),
    (s.scanning = none → exec (.scanDone ok n) s = .next s)
    ∧ ∀ e, s.scanning = some e →
      let x := s.scan e
      let r := s.scanResult e x ok
      (x.st ≠ 2 → exec (.scanDone ok n) s = .next s)
      ∧ (x.st = 2 → x.mode = 2 → ok = true → exec (.scanDone true n) s = .next r ∧ (r.scan e).st = 3 ∧ (r.scan e).position = x.position)
      ∧ (x.st = 2 → x.mode = 2 → ok = false → exec (.scanDone false n) s = .next ((r.raise .SCAN_FAILED Src.steward [e, x.position, n]).loseCluster (clusterKey e x.cluster) (some 9)))
      ∧ (x.st = 2 → x.mode ≠ 2 → ok = true → ∃ u : State, exec (.scanDone true n) s = .next u ∧ (u.scan e).st = 0 ∧ (u.position e x.position).st = .spare ∧ (u.position e x.position).underScan = false)
      ∧ (x.st = 2 → x.mode ≠ 2 → ok = false → (s.position e x.position).st ≠ .fusedOff → ∃ u : State, exec (.scanDone false n) s = .next u ∧ (u.scan e).st = 0
          ∧ (u.position e x.position).st = .retired ∧ ∃ v ∈ u.ev.inFlight, v.code = .SCAN_FAILED ∧ v.args = [e, x.position, n])
      ∧ (∃ w : State, (∀ d, x.desc = some d → r = w.finish d .OK (b2n (!ok)) s.time.tick) ∧ (x.desc = none → r = w)
          ∧ w.reg (dieReg e Reg.SE_SCAN_TOTAL) = min (2 ^ 64 - 1) (s.reg (dieReg e Reg.SE_SCAN_TOTAL) + 1)
          ∧ w.reg (dieReg e Reg.SE_SCAN_FAIL_TOTAL) = if ok then s.reg (dieReg e Reg.SE_SCAN_FAIL_TOTAL) else min (2 ^ 64 - 1) (s.reg (dieReg e Reg.SE_SCAN_FAIL_TOTAL) + 1)))
  ∧ ∀ (s : State) (h : Hdr), s.accepts h clsTest = true →
    let t := s.start h
    let d := s.descOf h
    (∀ n, 16 ≤ n → exec (.fleetRemove h n) s = .next (t.finish d .DESC_FORMAT 0 0) ∧ (∀ b, exec (.fleetSet h n b) s = .next (t.finish d .DESC_FORMAT 0 0))
        ∧ ∀ g sig, exec (.fleetLoad h n g sig) s = .next (t.finish d .DESC_FORMAT 0 0))
    ∧ (∀ n g sig, n < 16 →
      (t.sigMask g.formed 4 g.keyId sig ≠ 0 → exec (.fleetLoad h n g sig) s = .next ((t.sigFailed 4 g.keyId (t.sigMask g.formed 4 g.keyId sig)).finish d .PATTERN_SIGNATURE 0 0))
      ∧ (t.sigMask g.formed 4 g.keyId sig = 0 → g.security < s.rollback 2 → exec (.fleetLoad h n g sig) s = .next (t.finish d .PATTERN_ROLLBACK 0 0))
      ∧ (t.sigMask g.formed 4 g.keyId sig = 0 → s.rollback 2 ≤ g.security → (∃ c ∈ g.cycles, s.sliceCycles < c) → exec (.fleetLoad h n g sig) s = .next (t.finish d .PATTERN_SLICE_LONG 0 0))
      ∧ (t.sigMask g.formed 4 g.keyId sig = 0 → s.rollback 2 ≤ g.security → (∀ c ∈ g.cycles, c ≤ s.sliceCycles) → ∃ u : State, exec (.fleetLoad h n g sig) s = .next (u.finish d .OK g.id 0)
          ∧ (u.pattern n).loaded = true ∧ (u.pattern n).id = g.id ∧ (u.pattern n).enabled = false ∧ (u.pattern n).slices = g.cycles.length ∧ (∀ i, i ≠ n → u.pattern i = s.pattern i) ∧ u = { t with det := u.det }))
    ∧ (∀ n b, n < 16 → (s.pattern n).loaded = false → exec (.fleetSet h n b) s = .next (t.finish d .DESC_FORMAT 0 0))
    ∧ (∀ n b, n < 16 → (s.pattern n).loaded = true → ∃ u : State, exec (.fleetSet h n b) s = .next (u.finish d .OK 0 0) ∧ u.pattern n = { s.pattern n with enabled := b }
        ∧ (∀ i, i ≠ n → u.pattern i = s.pattern i) ∧ u = { t with det := u.det })
    ∧ (∀ n, n < 16 → ∃ u : State, exec (.fleetRemove h n) s = .next (u.finish d .OK 0 0) ∧ u.pattern n = {} ∧ (∀ i, i ≠ n → u.pattern i = s.pattern i) ∧ u = { t with det := u.det })
    ∧ (∀ q n l lane o k, let c := Instr.inject h q n l lane o k
        (s.fits (coreDie q) = false → exec c s = .next (t.finish d .TARGET_ABSENT 0 0))
        ∧ (s.fits (coreDie q) = true → s.injectEn = false → exec c s = .next (t.finish d .TEST_NOT_PERMITTED 0 0))
        ∧ (s.fits (coreDie q) = true → s.injectEn = true → lane < 528 → n < 4 → l < 64 → coreCluster q < 8 → ∃ u : State, exec c s = .next (u.finish d .OK 0 0)
            ∧ Tab.get (u.bank (engineKey q n) (s.engine (engineKey q n)).active).inject (1024 * l + lane) = (if k = 0 then 0 else signed 8 o)
            ∧ Tab.get (u.bank (engineKey q n) (s.engine (engineKey q n)).active).injectLeft (1024 * l + lane) = k
            ∧ (∀ e, e ≠ engineKey q n → u.engine e = s.engine e) ∧ u = { t with engines := u.engines }))
    ∧ ∀ e k a, (s.fits e = false ∨ 8 ≤ k → exec (.testQuery h e k a) s = .next (t.finish d .TARGET_ABSENT 0 0))
      ∧ (s.fits e = true → k < 8 → (t.testRecord e k).length = 64 ∧ exec (.testQuery h e k a) s = .next ((t.hostPut a (t.testRecord e k)).finish d .OK 0 0))

/-- A PARTITION_RESET with one of the grounds of R486 or R485 is refused with its status; any other joins the resets with its positions and its descriptor and RESET_STATUS shows RESETTING. A position not ready in time, or failing its self-test, is lost and its reset fails; in a live update it starts again from the LIVE half and the update reverts. FW_STAGE is busy while an update or a reception runs; with RECEIVE it waits for chunks; else the bundle read is written to the UPDATE half and verified: both signatures, both versions, PEER_MIN and the open channels' ABI majors, before it is staged. FW_ACTIVATE needs a staged bundle and no update; it marks every position in service FW_OLD. A chunk of another RUN, VERSION or image, or with a bad CRC, changes nothing; another is placed and recorded once, and an END marker opens fetching. A fetched chunk is recorded and counted; one that fails is tried again up to FETCH_TRIES. MCAST_CHUNK is taken on G1 only, while a reception is held, and forwarded unless the run ends here. -/
def Obligations.ResetsAndFirmware : Prop :=
  (∀ (s : State) (h : Hdr), s.accepts h clsMaint = true →
    let t := s.start h
    let d := s.descOf h
    (∀ sc e k fo, let c := Instr.partitionReset h sc e k fo
      (sc = 0 ∨ 3 < sc → exec c s = .next (t.finish d .DESC_FORMAT 0 0))
      ∧ ((sc = 3 ∧ 4 ≤ e) ∨ ((sc = 1 ∨ sc = 2) ∧ s.fits e = false) ∨ (sc = 1 ∧ (8 ≤ k ∨ s.posOf e k = none)) → exec c s = .next (t.finish d .TARGET_ABSENT 0 0))
      ∧ (sc = 3 → e < 4 → fo = false → exec c s = .next (t.finish d .RESET_CONFIRM 0 0))
      ∧ (sc = 3 → e < 4 → fo = true → s.fw.update ≠ none ∨ (∃ r ∈ s.fw.resets, r.scope = 3 ∧ r.die = e) → exec c s = .next (t.finish d .RESET_BUSY 0 0))
      ∧ (sc = 2 → s.fits e = true → s.fw.update ≠ none ∨ (∃ r ∈ s.fw.resets, r.scope ≠ 3 ∧ r.die = e) ∨ (s.scan e).st ≠ 0 ∨ s.dieCovers e = true → exec c s = .next (t.finish d .RESET_BUSY 0 0))
      ∧ (sc = 2 → s.fits e = true → s.fw.update = none → (∀ r ∈ s.fw.resets, r.scope = 3 ∨ r.die ≠ e) → (s.scan e).st = 0 → s.dieCovers e = false → ∃ u : State, exec c s = .next u
          ∧ u.fw.resets = s.fw.resets ++ [{ scope := 2, die := e, positions := s.resettable e, desc := some d }] ∧ u.fw.lastReset = 2 + 4 * e + 512 ∧ u = { t with fw := u.fw })
      ∧ (∀ p, sc = 1 → s.fits e = true → k < 8 → s.posOf e k = some p → s.fw.update = none → (∀ r ∈ s.fw.resets, r.scope = 3 ∨ r.die ≠ e) → (s.scan e).st = 0 → s.dieCovers e = false → ∃ u : State,
          exec c s = .next u ∧ u.fw.resets = s.fw.resets ++ [{ scope := 1, die := e, cluster := k, positions := [p], desc := some d }] ∧ u.fw.lastReset = 1 + 4 * e + 32 * k + 512 ∧ u = { t with fw := u.fw })
      ∧ (sc = 3 → e < 4 → fo = true → s.fw.update = none → (∀ r ∈ s.fw.resets, r.scope ≠ 3 ∨ r.die ≠ e) → ∃ u : State, exec c s = .next u
          ∧ u.fw.resets = s.fw.resets ++ [{ scope := 3, die := e, desc := some d }] ∧ u.fw.lastReset = 3 + 4 * e + 512 ∧ u = { t with fw := u.fw }))
    ∧ (∀ sp re fo la src len far b sig sig' cs, let c := Instr.fwStage h sp re fo la src len far b sig sig' cs
      (s.fw.update ≠ none ∨ s.fw.receive ≠ none → exec c s = .next (t.finish d .FW_UPDATE_BUSY 0 0))
      ∧ (s.fw.update = none → s.fw.receive = none →
        (re = true → ∃ u : State, exec c s = .next u ∧ u.fw.receive = some { desc := d, bundle := b, sig := sig, stewardSig := sig', last := s.time.tick } ∧ u = { t with fw := u.fw })
        ∧ (re = false → let rd := t.object sp src len far
          let v := rd.st.writePieces (fun _ => {}) rd.bytes (piecesOf rd.st.updateBase rd.bytes.length)
          (rd.code ≠ .OK → exec c s = .next (rd.st.finish d rd.code 0 0))
          ∧ (rd.code = .OK → fo = false → exec c s = .next (v.stageBundle d b sig sig'))
          ∧ (rd.code = .OK → fo = true → exec c s = .next ((v.forwardBundle la cs).stageBundle d b sig sig')))))
    ∧ (s.fw.staged = none → exec (.fwActivate h) s = .next (t.finish d .FW_NOT_STAGED 0 0))
    ∧ (s.fw.staged ≠ none → s.fw.update ≠ none → exec (.fwActivate h) s = .next (t.finish d .FW_UPDATE_BUSY 0 0))
    ∧ (s.fw.staged ≠ none → s.fw.update = none → ∃ u : State, exec (.fwActivate h) s = .next u ∧ (∃ x, u.fw.update = some x ∧ x.desc = some d ∧ x.round = 0 ∧ x.reverting = false)
        ∧ (∀ e p, s.fits e = true → e < 8 → p < 9 → (s.position e p).st ≠ .retired → (s.position e p).st ≠ .fusedOff → (u.position e p).fwOld = true) ∧ u.chans = t.chans)
    ∧ ∀ a, exec (.fwQuery h a) s = .next ((t.hostPut a (leBytes 8 t.bootStatus ++ leBytes 8 t.fwStatus ++ leBytes 8 s.fw.lastReset ++ leBytes 40 0)).finish d .OK 0 0))
  ∧ (∀ (s : State) (d : Desc) (b : Bundle) (g g' : SigOut),
    (s.sigMask b.formed 2 b.keyId g ≠ 0 → s.stageBundle d b g g' = (s.sigFailed 2 b.keyId (s.sigMask b.formed 2 b.keyId g)).finish d .FW_SIGNATURE 0 0)
    ∧ (s.sigMask b.formed 2 b.keyId g = 0 → b.security < s.rollback 0 → s.stageBundle d b g g' = s.finish d .FW_ROLLBACK 0 0)
    ∧ (s.sigMask b.formed 2 b.keyId g = 0 → s.rollback 0 ≤ b.security →
      (s.sigMask b.formed 1 b.keyId g' ≠ 0 → s.stageBundle d b g g' = (s.sigFailed 1 b.keyId (s.sigMask b.formed 1 b.keyId g')).finish d .FW_SIGNATURE 0 0)
      ∧ (s.sigMask b.formed 1 b.keyId g' = 0 → b.stewardSecurity < s.rollback 0 → s.stageBundle d b g g' = s.finish d .FW_ROLLBACK 0 0)
      ∧ (s.sigMask b.formed 1 b.keyId g' = 0 → s.rollback 0 ≤ b.stewardSecurity →
        (s.fw.live.version < b.peerMin → s.stageBundle d b g g' = s.finish d .FW_PEER_CONFLICT 0 0)
        ∧ (b.peerMin ≤ s.fw.live.version → (∃ e ∈ s.chans, e.2.isOpen = true ∧ ∀ v ∈ offerList b.abi, v = 0 ∨ v / 256 ≠ e.2.abiVer / 256) → s.stageBundle d b g g' = s.finish d .FW_ABI_CONFLICT 0 0)
        ∧ (b.peerMin ≤ s.fw.live.version → (∀ e ∈ s.chans, e.2.isOpen = true → ∃ v ∈ offerList b.abi, v ≠ 0 ∧ v / 256 = e.2.abiVer / 256) → ∃ u : State,
            s.stageBundle d b g g' = u.finish d .OK b.version 0 ∧ u.fw.staged = some b ∧ u = { s with fw := u.fw }))))
  ∧ (∀ (s : State) (la : Nat) (cs : List (List Byte)) (n : Nat),
      let w : WinArgs := { base := s.updateBase, size := fwHalfSize, srcFirst := s.moduleId + 1, srcLast := la, rights := 4, ports := 1 }
      s.winEntry w = some n → s.winStatus w false = .OK → ((s.forwardBundle la cs).win n).st = .opened ∧ ((s.forwardBundle la cs).win n).args = w)
  ∧ (∀ (s : State) (e p : Nat) (bad : Bool),
    ((∀ r ∈ s.fw.resets, r.running = false ∨ r.die ≠ e ∨ p ∉ r.positions ∨ (bad = false ∧ s.time.tick < r.since + s.resetTimeout * tickSecond)) → exec (.resetTimeout e p bad) s = .next s)
    ∧ ∀ r, s.fw.resets = [r] → r.running = true → r.die = e → bad = true ∨ r.since + s.resetTimeout * tickSecond ≤ s.time.tick →
      (r.scope = 1 → r.positions = [p] → r.release = false → r.update = false ∨ r.live = true → ∃ u : State, exec (.resetTimeout e p bad) s = .next u ∧ u.fw.resets = []
          ∧ (∃ v ∈ u.ev.inFlight, v.code = .PARTITION_RESET_FAILED ∧ v.args = [1, e, r.cluster]) ∧ u.fw.lastReset = 1 + 4 * e + 32 * (r.cluster % 16) + 512 * 3)
      ∧ (∀ x, r.scope = 1 → r.positions = [p] → r.update = true → r.live = false → s.fw.update = some x → x.reverting = false → ∃ (u : State) (y : Update), exec (.resetTimeout e p bad) s = .next u
          ∧ u.fw.resets = [{ r with live := true, since := s.time.tick }] ∧ u.fw.update = some y ∧ y.reverting = true ∧ y.cluster = clusterKey e (s.position e p).logical
          ∧ (u.receiver (9 * e + p)).active = true ∧ (u.receiver (9 * e + p)).fetch = true ∧ (u.receiver (9 * e + p)).live = true ∧ (u.receiver (9 * e + p)).version = s.fw.live.version))
  ∧ (∀ (s : State) (t : Nat) (bs : List Byte),
    let r := s.receiver t
    let c := parseChunk bs
    (r.active = false ∨ c.ok = false ∨ c.run ≠ r.run ∨ c.version ≠ r.version ∨ (∀ x ∈ r.images, x.1 ≠ c.kind) → exec (.fwChunkReceive t bs) s = .next s)
    ∧ (r.active = true → c.ok = true → c.run = r.run → c.version = r.version →
      (c.isEnd = true → (∃ x ∈ r.images, x.1 = c.kind) → ∃ u : State, exec (.fwChunkReceive t bs) s = .next u ∧ c.kind ∈ (u.receiver t).ended ∧ (u.receiver t).got = r.got ∧ (u.receiver t).last = s.time.tick
          ∧ (∀ j, j ≠ t → u.receiver j = s.receiver j) ∧ u = { s with fw := u.fw })
      ∧ (c.isEnd = false → (∃ x ∈ r.images, x.1 = c.kind ∧ c.seq < x.2) → ∃ u : State, exec (.fwChunkReceive t bs) s = .next u ∧ (c.kind, c.seq) ∈ (u.receiver t).got
          ∧ (∀ k ∈ r.got, k ∈ (u.receiver t).got) ∧ (u.receiver t).last = s.time.tick ∧ (∀ j, j ≠ t → u.receiver j = s.receiver j) ∧ u.mem = (s.placeChunk t c.kind c.seq c.data).mem)))
  ∧ (∀ (s : State) (t : Nat) (far : List Byte),
    (t < 72 → let r := s.receiver t
      (r.active = false → exec (.fwChunkFetch t far) s = .next s)
      ∧ (r.active = true → let m := missingChunk r.images r.got (fun k => (r.fetch || decide (r.last + tickSecond ≤ s.time.tick)) || r.ended.contains k)
        (m = none → exec (.fwChunkFetch t far) s = .next s)
        ∧ ∀ kind k, m = some (kind, k) →
          let rd := s.read (Reader.ofCluster (s.positionKey (t / 9) (t % 9))) (chunkAddr (if r.live then s.liveBase else s.updateBase) r.version kind k) 4096
          let v := rd.st.placeChunk t kind k rd.bytes
          (rd.code = .OK → ∃ u : State, exec (.fwChunkFetch t far) s = .next u ∧ u.receiver t = { r with got := r.got ++ [(kind, k)], tries := 0 } ∧ u.mem = v.mem
            ∧ u.reg (secReg Reg.FW_REFETCH_TOTAL) = min (2 ^ 64 - 1) (v.reg (secReg Reg.FW_REFETCH_TOTAL) + 1))
          ∧ (rd.code ≠ .OK → r.tries + 1 < s.fetchTries → exec (.fwChunkFetch t far) s = .next (rd.st.setReceiver t { r with tries := r.tries + 1 }))
          ∧ (rd.code ≠ .OK → s.fetchTries ≤ r.tries + 1 → exec (.fwChunkFetch t far) s = .next (rd.st.chunkFails t kind k))))
    ∧ (72 ≤ t → (s.fw.receive = none → exec (.fwChunkFetch t far) s = .next s)
      ∧ ∀ x, s.fw.receive = some x → (s.time.tick < x.last + tickSecond → exec (.fwChunkFetch t far) s = .next s)
        ∧ (x.last + tickSecond ≤ s.time.tick → ∀ kind k, missingChunk x.bundle.images x.chunks (fun _ => true) = some (kind, k) →
            exec (.fwChunkFetch t far) s = .next ((s.receiveChunk { x with last := 0 } kind k (fitBytes 4096 far)).bump (secReg Reg.FW_REFETCH_TOTAL) 1))))
  ∧ (∀ (s : State) (x : FwReceive) (kind k : Nat) (bs : List Byte), (kind, k) ∉ x.chunks →
      let m := missingChunk x.bundle.images (x.chunks ++ [(kind, k)]) (fun _ => true)
      (m ≠ none → (s.receiveChunk x kind k bs).fw.receive = some { x with last := s.time.tick, chunks := x.chunks ++ [(kind, k)] })
      ∧ (m = none → ∃ u : State, s.receiveChunk x kind k bs = u.stageBundle x.desc x.bundle x.sig x.stewardSig ∧ u.fw.receive = none ∧ u.chans = s.chans))
  ∧ ∀ (s : State) (p : Nat) (f : Frame),
    (p ≠ 1 ∨ s.portUp p = false ∨ f.kind ≠ fkChunk ∨ s.fw.receive = none → exec (.mcastChunk p f) s = .next s)
    ∧ ∀ x, p = 1 → s.portUp p = true → f.kind = fkChunk → s.fw.receive = some x →
      let r := (s.bump (portReg p Reg.GP_RX_FRAMES_TOTAL) 1).owe p f
      let c := parseChunk f.body
      (Frame.ok f = false → exec (.mcastChunk p f) s = .next (r.bump (portReg p Reg.GP_FCRC_FAIL_TOTAL) 1))
      ∧ (Frame.ok f = true → ∀ v, v = (if f.dst = r.moduleId ∨ r.portUp 0 = false then r else r.transmit 0 f) →
        (c.ok = false ∨ c.version ≠ x.bundle.version → exec (.mcastChunk p f) s = .next v)
        ∧ (c.ok = true → c.version = x.bundle.version → c.isEnd = true → ∃ u : State, exec (.mcastChunk p f) s = .next u ∧ u.fw.receive = some { x with last := s.time.tick } ∧ u = { v with fw := u.fw })
        ∧ (c.ok = true → c.version = x.bundle.version → c.isEnd = false → (∃ y ∈ x.bundle.images, y.1 = c.kind ∧ c.seq < y.2) →
            exec (.mcastChunk p f) s = .next (v.receiveChunk x c.kind c.seq c.data)))

/-- POWER_ON applies to a module without power: BOOT_CFG is the one in flash or its reset value, the latched cause or the shutdown record is reported and cleared. Each phase leaves the next one in BOOT_STATUS.PHASE and a BOOT_PHASE event with its number and duration: bring-up begins after the first housekeeping round; KINDLING takes the live steward copy or the other one, and starts C0 or C4, else it is HALTED with the FAIL_CODE; PARTITIONS decides the start's kind by R459; HBM_TRAIN halts on a bad segment and takes M-dies with an untrained stack out of service; MEMORY_TEST takes the live bundle or the other one, else it is HALTED; FIRMWARE waits for every receiver; CALIBRATION ends READY with BOOT_READY and its arguments, clears the powered-time count after a cold start, and opens the channels whose OPEN was held. Recovery in HALTED verifies the object, writes it into the copy that is not live and makes that copy live, or is REFUSED with the code; outside HALTED nothing happens. -/
def Obligations.BringUp : Prop :=
  (∀ s : State, (s.hk.powered = true → exec .powerOn s = .next s)
    ∧ (s.hk.powered = false → ∃ u : State, exec .powerOn s = .next u ∧ u.hk.powered = true ∧ u.hk.latch = 0 ∧ u.hk.shutdown = none
        ∧ u.boot.cfg = s.boot.cfgFlash.getD (resetOf (secReg Reg.BOOT_CFG)) ∧ u.boot.phase = s.boot.phase
        ∧ (s.hk.shutdown = none → s.hk.latch = 0 → u.hk.lastShutdown = [] ∧ u.ev = s.ev)
        ∧ (s.hk.shutdown = none → s.hk.latch ≠ 0 → u.hk.lastShutdown = [s.hk.latch, 0] ∧ ∃ v, u.ev.inFlight = s.ev.inFlight ++ [v] ∧ v.code = .MODULE_SHUTDOWN_REPORTED ∧ v.args = [s.hk.latch])
        ∧ (∀ c r, s.hk.shutdown = some (c :: r) → u.hk.lastShutdown = c :: r ∧ ∃ v, u.ev.inFlight = s.ev.inFlight ++ [v] ∧ v.code = .MODULE_SHUTDOWN_REPORTED ∧ v.args = [c])))
  ∧ (∀ (s : State) (w : BootWork), (s.hk.powered = false ∨ 9 ≤ s.boot.phase → exec (.bootPhase w) s = .next s)
    ∧ (s.hk.powered = true →
      (s.boot.phase = 0 → s.hk.rounds = 0 → exec (.bootPhase w) s = .next s)
      ∧ (s.boot.phase = 0 → s.hk.rounds ≠ 0 → ∃ u : State, exec (.bootPhase w) s = .next u ∧ u.boot.phase = 1 ∧ u.ev = s.ev)
      ∧ (s.boot.phase = 1 →
        (w.flash = false → exec (.bootPhase w) s = .next (s.halt 3))
        ∧ (w.flash = true → ∀ t c, (s.pickSteward w = (t, none, c) → exec (.bootPhase w) s = .next (t.halt c))
          ∧ ∀ n, s.pickSteward w = (t, some n, c) →
            (s.fits 0 = true → s.powers 72 = true → 0 ∉ w.badFuses → ∃ u : State, exec (.bootPhase w) s = .next u ∧ u.boot.phase = 2 ∧ u.boot.copy = n ∧ u.boot.fail = c
              ∧ (∃ v, u.ev.inFlight = t.ev.inFlight ++ [v] ∧ v.code = .BOOT_PHASE ∧ v.args = [1, w.ms]) ∧ u.step.standby = s.step.standby)
            ∧ (s.powers 72 = false ∨ 0 ∈ w.badFuses → s.fits 4 = true → s.powers 76 = true → 4 ∉ w.badFuses → ∃ u : State, exec (.bootPhase w) s = .next u ∧ u.boot.phase = 2 ∧ u.boot.copy = n
              ∧ u.boot.fail = (if c = 0 then 6 else c) ∧ u.step.standby = true)
            ∧ (s.powers 72 = false ∨ 0 ∈ w.badFuses → s.fits 4 = false ∨ s.powers 76 = false ∨ 4 ∈ w.badFuses → ∃ u : State, exec (.bootPhase w) s = .next u ∧ u.boot.phase = 10 ∧ u.boot.fail = 6)))
      ∧ (s.boot.phase = 2 → ∃ u : State, exec (.bootPhase w) s = .next u ∧ u.boot.phase = 3 ∧ (∃ v ∈ u.ev.inFlight, v.code = .BOOT_PHASE ∧ v.args = [2, w.ms])
          ∧ (u.boot.fast = true ↔ s.fastEn = true ∧ s.boot.training = true ∧ w.trained = true ∧ w.fusesKept = true ∧ s.boot.hours < 24 * s.fullTestDays
              ∧ (s.hk.lastShutdown.getD 0 0 = 0 ∨ s.hk.lastShutdown.getD 0 0 = 1)))
      ∧ (s.boot.phase = 3 → w.segments = false → exec (.bootPhase w) s = .next (s.halt 3))
      ∧ (s.boot.phase = 3 → w.segments = true → ∃ u : State, exec (.bootPhase w) s = .next u ∧ u.boot.phase = 4 ∧ (∀ m, m ∈ u.boot.memDown ↔ m < 4 ∧ ∃ n ∈ w.untrained, n / 2 = m)
          ∧ (u.boot.training = true ↔ w.untrained = []) ∧ ∃ v, u.ev.inFlight = s.ev.inFlight ++ [v] ∧ v.code = .BOOT_PHASE ∧ v.args = [3, w.ms])
      ∧ (s.boot.phase = 4 → ∀ a, a = w.srams.foldl (fun s x => s.sramFound x) (w.rows.foldl (fun s x => s.rowFound x) { s with mem := {} }) →
        ∀ t c, (a.pickBundle w = (t, none, c) → exec (.bootPhase w) s = .next (t.halt c))
        ∧ ∀ n, a.pickBundle w = (t, some n, c) → ∃ u : State, exec (.bootPhase w) s = .next u ∧ u.boot.phase = 5 ∧ u.boot.bundle = n ∧ u.fw.live.version = (w.bundles.getD n {}).bundle.version
            ∧ u.fw.live.images = (w.bundles.getD n {}).bundle.images ∧ u.boot.fail = (if s.boot.fail = 0 then c else s.boot.fail)
            ∧ ∃ v ∈ u.ev.inFlight, v.code = .BOOT_PHASE ∧ v.args = [4, w.ms])
      ∧ (s.boot.phase = 5 → (∃ e ∈ s.fw.receivers, e.2.active = true ∧ e.2.complete = false) → exec (.bootPhase w) s = .next s)
      ∧ (s.boot.phase = 5 → (∀ e ∈ s.fw.receivers, e.2.active = false ∨ e.2.complete = true) → ∃ u : State, exec (.bootPhase w) s = .next u ∧ u.boot.phase = 6 ∧ u.fw.liveHalf = (s.fw.liveHalf + 1) % 2
          ∧ u.fw.receivers = [] ∧ ∃ v ∈ u.ev.inFlight, v.code = .BOOT_PHASE ∧ v.args = [5, w.ms])
      ∧ (s.boot.phase = 6 → ∃ u : State, exec (.bootPhase w) s = .next u ∧ u.boot.phase = 7 ∧ ∃ v ∈ u.ev.inFlight, v.code = .BOOT_PHASE ∧ v.args = [6, w.ms])
      ∧ (s.boot.phase = 7 → ∃ (u : State) (v : EvRec), exec (.bootPhase w) s = .next u ∧ u.boot = { s.boot with phase := 8, start := s.boot.start + w.ms } ∧ u.ev.inFlight = s.ev.inFlight ++ [v]
          ∧ v.code = .BOOT_PHASE ∧ v.args = [7, w.ms] ∧ u.engines = s.engines ∧ u.mem = s.mem)
      ∧ (s.boot.phase = 8 → ∃ u : State, exec (.bootPhase w) s = .next u ∧ u.boot.phase = 9 ∧ u.boot.duration = s.boot.start + w.ms ∧ u.boot.hours = (if s.boot.fast then s.boot.hours else 0)
          ∧ (∀ c, (u.chan c).openHeld = false) ∧ (∃ v ∈ u.ev.inFlight, v.code = .BOOT_PHASE ∧ v.args = [8, w.ms])
          ∧ ∃ v ∈ u.ev.inFlight, v.code = .BOOT_READY ∧ v.args = [b2n s.boot.fast, s.boot.start + w.ms, s.boot.rowsRepaired, s.boot.rowsUnrepaired, s.boot.positionsLost])))
  ∧ (∀ (s : State) (w : BootWork) (n k : Nat), n = s.fw.stewardCopy → k = 1 - n →
      let x := w.stewards.getD n {}
      let y := w.stewards.getD k {}
      let m := s.sigMask x.formed 1 x.keyId x.sig
      let m' := s.sigMask y.formed 1 y.keyId y.sig
      (m = 0 → s.rollback 0 ≤ x.security → s.pickSteward w = (s, some n, 0))
      ∧ (m = 0 → x.security < s.rollback 0 → m' = 0 → s.rollback 0 ≤ y.security → s.pickSteward w = (s, some k, 2))
      ∧ (m ≠ 0 → m' = 0 → s.rollback 0 ≤ y.security → s.pickSteward w = (s.sigFailed 1 x.keyId m, some k, 1))
      ∧ (m ≠ 0 → m' ≠ 0 → s.pickSteward w = ((s.sigFailed 1 x.keyId m).sigFailed 1 y.keyId m', none, 1)))
  ∧ (∀ s : State, (s.hk.powered = true → 2 ≤ s.boot.phase → s.boot.phase ≤ 9 → ∃ u : State, exec .poweredHour s = .next u ∧ u.boot.hours = s.boot.hours + 1 ∧ u = { s with boot := u.boot })
    ∧ (s.hk.powered = false ∨ s.boot.phase < 2 ∨ 9 < s.boot.phase → exec .poweredHour s = .next s))
  ∧ ∀ (s : State) (v : Nat) (x : StewardImage) (b : BundleCopy),
    (s.boot.phase ≠ 10 ∨ bitOf v 0 = false → exec (.recoveryGo v x b) s = .next s)
    ∧ (s.boot.phase = 10 → bitOf v 0 = true → 1 ≤ bitsOf v 1 14 → bitsOf v 1 14 ≤ 12288 →
      (bitsOf v 15 1 = 0 → let m := s.sigMask x.formed 1 x.keyId x.sig
        (m ≠ 0 → ∃ u : State, exec (.recoveryGo v x b) s = .next u ∧ u.boot.recovery = 3 + 256 * 1 ∧ u.fw = s.fw)
        ∧ (m = 0 → x.security < s.rollback 0 → ∃ u : State, exec (.recoveryGo v x b) s = .next u ∧ u.boot.recovery = 3 + 256 * 2 ∧ u.fw = s.fw)
        ∧ (m = 0 → s.rollback 0 ≤ x.security → ∃ u : State, exec (.recoveryGo v x b) s = .next u ∧ u.boot.recovery = 2 ∧ u.fw.stewardCopy = 1 - s.fw.stewardCopy ∧ u.fw.bundleCopy = s.fw.bundleCopy
            ∧ u.fw.dirSeq = (s.fw.dirSeq + 1) % 2 ^ 32 ∧ u.boot.phase = 10))
      ∧ (bitsOf v 15 1 = 1 → let m := s.sigMask b.bundle.formed 2 b.bundle.keyId b.sig
        (m ≠ 0 → ∃ u : State, exec (.recoveryGo v x b) s = .next u ∧ u.boot.recovery = 3 + 256 * 4 ∧ u.fw = s.fw)
        ∧ (m = 0 → b.bundle.security < s.rollback 0 → ∃ u : State, exec (.recoveryGo v x b) s = .next u ∧ u.boot.recovery = 3 + 256 * 5 ∧ u.fw = s.fw)
        ∧ (m = 0 → s.rollback 0 ≤ b.bundle.security → ∃ u : State, exec (.recoveryGo v x b) s = .next u ∧ u.boot.recovery = 2 ∧ u.fw.bundleCopy = 1 - s.fw.bundleCopy ∧ u.fw.stewardCopy = s.fw.stewardCopy
            ∧ u.fw.dirSeq = (s.fw.dirSeq + 1) % 2 ^ 32 ∧ u.fw.live.version = b.bundle.version)))

/-- A DOWN port that is enabled trains when light arrives; with lanes it may use it settles and sends its IDENTITY; a neighbour's IDENTITY brings it UP, or to FAULT with the cause of R327; after 30 s in TRAINING, on loss of lock, or above the codeword limit it faults; a port that leaves UP drops its queue, and routes are computed again; FAULT goes back to DOWN after 1 s unless its attempts are used up. RETRAIN starts training with attempts at 0. A CREDIT message adds its credits. A frame held beyond HOLD_MAX is dropped, counted and reported. ENUM_START in a run is refused; otherwise the head takes or keeps its ID and the run goes on. A token gives an ID to a module without one, ends the run at its head, and conflicts with another head. ENUM_DONE ends the run at its head. CLEAR_ID is refused while a window is in use or a remote operation is outstanding. -/
def Obligations.PortsAndEnumeration : Prop :=
  (∀ (s : State) (p : Nat), p < 16 →
    let x := s.port p
    (x.st = .down → s.portEnabled p = true → ∃ u : State, exec (.portSignalDetect p) s = .next u ∧ (u.port p).st = .training ∧ (u.port p).since = s.time.tick
        ∧ (u.port p).req = 16384 ∧ (u.port p).rsp = 15360 ∧ (u.port p).mgmt = 1024 ∧ ((u.port p).full = true ↔ bitOf (s.gpCfg p) 1 = false ∨ x.saved = none)
        ∧ (∀ i, i ≠ p → u.port i = s.port i) ∧ u = { s with fab := u.fab })
    ∧ (x.st ≠ .down ∨ s.portEnabled p = false → exec (.portSignalDetect p) s = .next s)
    ∧ (∀ l, x.st = .training → s.lanesOk p l = true → ∃ u : State, exec (.portFecLock p l) s = .next u ∧ (u.port p).st = .settling ∧ (u.port p).lanes = l
        ∧ (x.queue = [] → 2 ≤ x.mgmt → u.fab.sent = s.fab.sent ++ [(p, Frame.seal (s.identityFrame p))]) ∧ (∀ i, i ≠ p → u.port i = s.port i)
        ∧ u.ev.inFlight.length = s.ev.inFlight.length + if l = 3 then 0 else 1)
    ∧ (∀ l, x.st ≠ .training ∨ s.lanesOk p l = false → exec (.portFecLock p l) s = .next s)
    ∧ (x.st = .training → x.since + 30 * tickSecond ≤ s.time.tick → exec (.portTrainTimeout p) s = .next (s.portFault p 2))
    ∧ (x.st ≠ .training ∨ s.time.tick < x.since + 30 * tickSecond → exec (.portTrainTimeout p) s = .next s)
    ∧ (x.st = .up → exec (.portLockLoss p) s = .next (s.portFault p 1)) ∧ (x.st ≠ .up → exec (.portLockLoss p) s = .next s)
    ∧ (∀ a b, x.st ≠ .up → exec (.uncorrRateCheck p a b) s = .next s)
    ∧ (∀ a b t, x.st = .up → t = (s.bump (portReg p Reg.GP_FEC_CORR_TOTAL) a).bump (portReg p Reg.GP_FEC_UNCORR_TOTAL) b →
        exec (.uncorrRateCheck p a b) s = .next (if s.uncorrLimit p < b then t.portFault p 5 else t))
    ∧ (∀ c, let u := s.portFault p c
        let failed := decide (s.retrainMax p ≤ x.attempts + 1) && x.st != .up
        (u.port p).st = .fault ∧ (u.port p).cause = (if failed then 6 else c) ∧ (u.port p).since = s.time.tick ∧ (u.port p).lanes = 0 ∧ (∀ i, i ≠ p → u.port i = s.port i)
        ∧ (x.st = .up → (u.port p).queue = [] ∧ (u.port p).attempts = 0 ∧ u.reg (portReg p Reg.GP_DROP_TOTAL) = min (2 ^ 64 - 1) (s.reg (portReg p Reg.GP_DROP_TOTAL) + x.queue.length))
        ∧ (x.st ≠ .up → (u.port p).attempts = x.attempts + 1)
        ∧ (∃ v ∈ u.ev.inFlight, v.code = .GLOSA_PORT_DOWN ∧ v.args = [p, if failed then 6 else c, x.nid])
        ∧ u.ev.inFlight.length = s.ev.inFlight.length + if failed then 2 else 1)
    ∧ (x.st = .fault → x.cause ≠ 6 → s.portEnabled p = true → x.since + tickSecond ≤ s.time.tick → ∃ u : State, exec (.portFaultRetry p) s = .next u ∧ u.port p = { x with st := .down }
        ∧ (∀ i, i ≠ p → u.port i = s.port i) ∧ u.reg (portReg p Reg.GP_RETRAIN_TOTAL) = min (2 ^ 64 - 1) (s.reg (portReg p Reg.GP_RETRAIN_TOTAL) + 1))
    ∧ (x.st ≠ .fault ∨ x.cause = 6 ∨ s.portEnabled p = false ∨ s.time.tick < x.since + tickSecond → exec (.portFaultRetry p) s = .next s)
    ∧ (x.st = .disabled → exec (.retrain p) s = .next s)
    ∧ (x.st ≠ .disabled → ∃ u : State, exec (.retrain p) s = .next u ∧ (u.port p).st = .training ∧ (u.port p).attempts = 0 ∧ (u.port p).cause = 0 ∧ (∀ i, i ≠ p → u.port i = s.port i)
        ∧ (x.st = .up → (u.port p).queue = []) ∧ u.reg (portReg p Reg.GP_RETRAIN_TOTAL) = min (2 ^ 64 - 1) (s.reg (portReg p Reg.GP_RETRAIN_TOTAL) + 1))
    ∧ (x.queue = [] → exec (.holdMax p) s = .next s)
    ∧ (∀ q r, x.queue = q :: r → (s.time.tick ≤ q.since + s.holdMax * 1000000 → exec (.holdMax p) s = .next s)
        ∧ (q.since + s.holdMax * 1000000 < s.time.tick → ∃ u : State, exec (.holdMax p) s = .next u ∧ u.port p = { x with queue := r } ∧ (∀ i, i ≠ p → u.port i = s.port i)
            ∧ u.reg (portReg p Reg.GP_DROP_TOTAL) = min (2 ^ 64 - 1) (s.reg (portReg p Reg.GP_DROP_TOTAL) + 1)
            ∧ ∃ v, u.ev.inFlight = s.ev.inFlight ++ [v] ∧ v.code = .GLOSA_HOLD_EXPIRED ∧ v.args = [p, q.frame.cls])))
  ∧ (∀ (s : State) (p : Nat) (f : Frame),
    let r := (s.bump (portReg p Reg.GP_RX_FRAMES_TOTAL) 1).owe p f
    let bad := r.bump (portReg p Reg.GP_FCRC_FAIL_TOTAL) 1
    ((s.port p).st ≠ .settling ∨ f.kind ≠ fkControl ∨ 16 ≤ p → exec (.identityMessage p f) s = .next s)
    ∧ (((s.port p).st ≠ .up ∧ (s.port p).st ≠ .settling) ∨ f.kind ≠ fkControl ∨ 16 ≤ p → exec (.credit p f) s = .next s)
    ∧ ((s.port p).st ≠ .up ∨ f.kind ≠ fkControl ∨ 16 ≤ p → exec (.enumToken p f) s = .next s ∧ exec (.enumDone p f) s = .next s)
    ∧ ((s.port p).st = .settling → f.kind = fkControl → p < 16 →
      (Frame.ok f = false ∨ fieldAt f.body 0 1 ≠ 1 → exec (.identityMessage p f) s = .next bad)
      ∧ (Frame.ok f = true → fieldAt f.body 0 1 = 1 → let y := parseIdentity f.body
        exec (.identityMessage p f) s = .next (r.identified p y)
        ∧ (r.refuseNeighbour p y = 0 → ((r.identified p y).port p).st = .up ∧ ((r.identified p y).port p).nid = y.id ∧ ((r.identified p y).port p).ver = s.linkVer y
            ∧ ((r.identified p y).port p).attempts = 0 ∧ ∃ v, (r.identified p y).ev.inFlight = r.ev.inFlight ++ [v] ∧ v.code = .GLOSA_PORT_UP ∧ v.args = [p, s.linkVer y, y.id])
        ∧ (r.refuseNeighbour p y ≠ 0 → ((r.identified p y).port p).st = .fault)
        ∧ (s.linkVer y = 0 → r.refuseNeighbour p y = 3) ∧ (s.linkVer y ≠ 0 → endpointPort p ≠ y.endpoint → r.refuseNeighbour p y = 4)
        ∧ (s.linkVer y ≠ 0 → endpointPort p = y.endpoint → (r.refuseNeighbour p y = 7 ↔ y.valid = true ∧ s.fab.idValid = true ∧ y.id = s.fab.id))))
    ∧ ((s.port p).st = .up ∨ (s.port p).st = .settling → f.kind = fkControl → p < 16 →
      (Frame.ok f = false ∨ fieldAt f.body 0 1 ≠ 2 → exec (.credit p f) s = .next bad)
      ∧ (Frame.ok f = true → fieldAt f.body 0 1 = 2 → (r.port p).queue = [] → ∃ u : State, exec (.credit p f) s = .next u ∧ (u.port p).req = (r.port p).req + fieldAt f.body 4 4
          ∧ (u.port p).rsp = (r.port p).rsp + fieldAt f.body 8 4 ∧ (u.port p).mgmt = (r.port p).mgmt + fieldAt f.body 12 4 ∧ ∀ i, i ≠ p → u.port i = r.port i))
    ∧ ((s.port p).st = .up → f.kind = fkControl → p < 16 →
      (Frame.ok f = false ∨ fieldAt f.body 0 1 ≠ 3 ∨ p ≠ 1 ∨ (s.port 1).nport ≠ 0 → exec (.enumToken p f) s = .next bad)
      ∧ (Frame.ok f = true → fieldAt f.body 0 1 = 3 → p = 1 → (s.port 1).nport = 0 → exec (.enumToken p f) s = .next (r.tokenTaken (fieldAt f.body 4 2) (fieldAt f.body 8 8)))
      ∧ (Frame.ok f = false ∨ fieldAt f.body 0 1 ≠ 4 → exec (.enumDone p f) s = .next bad)
      ∧ (Frame.ok f = true → fieldAt f.body 0 1 = 4 → s.fab.enum = 1 → fieldAt f.body 8 8 = s.part.serial →
          exec (.enumDone p f) s = .next (r.enumEnd (fieldAt f.body 4 2) (bitOf (fieldAt f.body 6 1) 0) (bitOf (fieldAt f.body 6 1) 1)))
      ∧ (Frame.ok f = true → fieldAt f.body 0 1 = 4 → s.fab.enum ≠ 1 ∨ fieldAt f.body 8 8 ≠ s.part.serial →
          exec (.enumDone p f) s = .next (r.enumSend 1 4 (fieldAt f.body 4 2) (fieldAt f.body 6 1) (fieldAt f.body 8 8)))))
  ∧ (∀ (s : State) (n g : Nat) (a b : Bool),
    ((s.enumEnd n a b).fab.enum = 2 ∧ (s.enumEnd n a b).fab.nextId = n ∧ (s.enumEnd n a b).fab.ringClosed = a ∧ (s.enumEnd n a b).fab.exhausted = b)
    ∧ (s.fab.enum = 1 → g = s.part.serial → s.tokenTaken n g = s.enumEnd n true false)
    ∧ (s.fab.enum = 1 → g ≠ s.part.serial → s.tokenTaken n g = s.raise .ENUM_CONFLICT (Src.port 1) [g])
    ∧ (s.fab.enum ≠ 1 → s.fab.idValid = false → n < 0xFFFF → (s.tokenTaken n g).fab.idValid = true ∧ (s.tokenTaken n g).fab.id = n ∧ ((s.tokenTaken n g).win 1023).st = .opened
        ∧ ∃ v ∈ (s.tokenTaken n g).ev.inFlight, v.code = .MODULE_ID_ASSIGNED ∧ v.args = [n])
    ∧ (s.fab.enum ≠ 1 → s.fab.idValid = true → s.fab.id < 0xFFFF → s.tokenTaken n g = s.enumOn (max n (s.fab.id + 1)) g false))
  ∧ ∀ s : State,
    (s.fab.enum = 1 → ∃ (u : State) (v : EvRec), exec .enumStart s = .next u ∧ u.fab = s.fab ∧ u.ev.inFlight = s.ev.inFlight ++ [v] ∧ v.code = .FAB_CTRL_REFUSED ∧ v.args = [0])
    ∧ (s.fab.enum ≠ 1 → s.fab.idValid = true → s.fab.id < 0xFFFF → exec .enumStart s
        = .next ({ s with fab := { s.fab with enum := 1, ringClosed := false, exhausted := false } }.enumOn (s.fab.id + 1) s.part.serial true))
    ∧ (s.fab.enum ≠ 1 → s.fab.idValid = false → ∃ u : State, exec .enumStart s = .next u ∧ u.fab.idValid = true ∧ u.fab.id = s.fld (fabReg Reg.ENUM_CFG) 0 16 ∧ (u.fab.enum = 1 ∨ u.fab.enum = 2))
    ∧ ((∃ e ∈ s.fab.wins, e.2.st ≠ .closed) ∨ s.fab.remotes ≠ [] → ∃ (u : State) (v : EvRec), exec .clearId s = .next u ∧ u.fab = s.fab ∧ u.ev.inFlight = s.ev.inFlight ++ [v]
        ∧ v.code = .FAB_CTRL_REFUSED ∧ v.args = [1])
    ∧ ((∀ e ∈ s.fab.wins, e.2.st = .closed) → s.fab.remotes = [] → ∃ u : State, exec .clearId s = .next u ∧ u.fab.idValid = false ∧ u.fab.id = 0 ∧ u.fab.wins = s.fab.wins ∧ u = { s with fab := u.fab })

/-- A frame of the command's kind, for this module, on a port in UP is counted; one that fails FCRC or its form is dropped and counted. The checks of Table 11-10 follow in order; the first that fails gives a NACK with its status and window, counted by status, and nothing else is performed. TILE_WRITE writes its tile and TILE_WRITE_MASKED the blocks its mask names, none for a mask of 0; ATOMIC_ADD applies its payloads in body order, one with a fault of R64 raising FLIT_FORMAT_ERROR; POST adds its delta to an allocated object; READ_REQ reads and checks its tile. An access that succeeds is answered with an ACK, or READ_TILE; any other with a NACK of its status. A frame for another module leaves by its route and is counted, or is counted unroutable; one that ends in the abort marker is only counted. -/
def Obligations.FrameService : Prop :=
  (∀ (s : State) (p : Nat) (f : Frame),
    let r := (s.bump (portReg p Reg.GP_RX_FRAMES_TOTAL) 1).owe p f
    let g := r.ingress p f
    let ack := replyTo f fkAck (ackBody .OK f g.window)
    ∀ c k, (c, k) ∈ [(Instr.tileWrite p f, 1), (Instr.tileWriteMasked p f, 2), (Instr.atomicAddFrame p f, 3), (Instr.readReq p f, 4), (Instr.postFrame p f, 6)] →
      (s.portUp p = false ∨ f.kind ≠ k ∨ 16 ≤ p ∨ (f.dst ≠ s.moduleId ∧ s.fab.idValid = true) → exec c s = .next s)
      ∧ (s.portUp p = true → f.kind = k → p < 16 → f.dst = s.moduleId ∨ s.fab.idValid = false →
        (Frame.ok f = false → exec c s = .next (r.bump (portReg p Reg.GP_FCRC_FAIL_TOTAL) 1))
        ∧ (Frame.ok f = true → g.code ≠ .OK → exec c s = .next (r.nack f g.code g.window))
        ∧ (Frame.ok f = true → g.code = .OK →
          (k = 1 → ∀ w, w = r.write (Src.port p) {} f.target f.body → exec c s = .next (if w.code = .OK then w.st.answer ack else w.st.nack f w.code g.window))
          ∧ (k = 2 → (maskBlocks f = [] → exec c s = .next (r.answer ack))
            ∧ ∀ w, w = r.writeAll (Src.port p) (maskBlocks f) → exec c s = .next (if w.code = .OK then w.st.answer ack else w.st.nack f w.code g.window))
          ∧ (k = 3 → ∀ x y, x = r.payloads (Src.port p) f.addr .OK (cut 72 (f.count + 1) f.body) →
              y = (cut 72 (f.count + 1) f.body).foldl (fun s b => if (payloadFault b).isSome then s else s.countArrived f.src (framePayload f.addr b).target (framePayload f.addr b).words) x.1 →
              exec c s = .next (if x.2 = .OK then y.answer ack else y.nack f x.2 g.window))
          ∧ (k = 4 → ∀ w, w = r.read { mdie := ((locate s.part.variant f.target).mdie).getD 0, src := Src.port p } f.target 4096 →
              exec c s = .next (if w.code = .OK then w.st.answer (replyTo f fkTile w.bytes) else w.st.nack f w.code g.window))
          ∧ (k = 6 → let t := r.objPost f.addr (fieldAt f.body 0 4) (reqModule f.src)
              ((s.obj f.addr).allocated = true → exec c s = .next (t.answer ack)) ∧ ((s.obj f.addr).allocated = false → exec c s = .next (t.nack f .SYNC_FREE g.window))))))
  ∧ (∀ (s : State) (p : Nat) (f : Frame),
    (s.fab.idValid = false → s.ingress p f = { code := .FABRIC_NOT_ENUMERATED })
    ∧ (s.fab.idValid = true → (∀ e ∈ s.fab.wins, e.2.st = .opened → e.2.named f = false) → (∀ e ∈ s.fab.wins, e.2.used = true → e.2.named f = false) → s.ingress p f = { code := .WINDOW_NONE })
    ∧ (s.fab.idValid = true → (∀ e ∈ s.fab.wins, e.2.st = .opened → e.2.named f = false) → (∃ e ∈ s.fab.wins, e.2.used = true ∧ e.2.named f = true) → (s.ingress p f).code = .WINDOW_CLOSED)
    ∧ ∀ n w, s.fab.idValid = true → s.fab.wins = [(n, w)] → w.st = .opened → w.named f = true →
      let a := w.args
      (f.src < a.srcFirst ∨ a.srcLast < f.src ∨ a.takes p = false → s.ingress p f = { code := .WINDOW_SOURCE, window := n })
      ∧ (a.srcFirst ≤ f.src → f.src ≤ a.srcLast → a.takes p = true →
        (a.right f.kind = false → s.ingress p f = { code := .WINDOW_RIGHTS, window := n })
        ∧ (a.right f.kind = true → f.kind ≠ fkPost → a.base + a.size < f.target + extentOf f → s.ingress p f = { code := .WINDOW_RANGE, window := n })
        ∧ (a.right f.kind = true → f.kind = fkPost ∨ f.target + extentOf f ≤ a.base + a.size →
          (s.targetResetting f = true → s.ingress p f = { code := .PARTITION_RESETTING, window := n }) ∧ (s.targetResetting f = false → s.ingress p f = { code := .OK, window := n }))))
  ∧ (∀ (s : State) (f : Frame) (c : Code) (n : Nat), let u := s.nack f c n
      let m := if c = .WINDOW_CLOSED then Reg.WIN_NACK_CLOSED_TOTAL else Reg.WIN_NACK_OTHER_TOTAL
      u.reg (fabReg m) = min (2 ^ 64 - 1) (s.reg (fabReg m) + 1) ∧ u.mem = s.mem ∧ u.sync = s.sync
      ∧ (c = .WINDOW_CLOSED → (s.win n).st = .draining → (u.win n).refused = (s.win n).refused + 1)
      ∧ ∀ x, s.exit f.src = some x → (s.port x).queue = [] → 2 ≤ (s.port x).rsp → ∃ w, u.fab.sent = s.fab.sent ++ [(x, w)] ∧ w.kind = fkNack ∧ w.src = f.dst ∧ w.dst = f.src ∧ w.tag = f.tag ∧ w.addr = f.addr
          ∧ w.body = ackBody c f n ∧ Frame.ok w = true)
  ∧ (∀ (s : State) (o : Src) (a : Nat) (c : Code) (b : List Byte) (l : List (List Byte)),
      (s.payloads o a c [] = (s, c))
      ∧ (∀ n, payloadFault b = some n → s.payloads o a c (b :: l) = (s.raise .FLIT_FORMAT_ERROR o [fieldAt b 71 1, n]).payloads o a (if c = .OK then .FLIT_FORMAT_ERROR else c) l)
      ∧ (payloadFault b = none → s.payloads o a c (b :: l) = (s.payload o 0 (framePayload a b)).payloads o a (if c = .OK then s.payloadStatus (framePayload a b) else c) l)
      ∧ (fieldAt b 71 1 ≠ 4 → fieldAt b 71 1 ≠ 5 → payloadFault b = some 71))
  ∧ ∀ (s : State) (p : Nat) (f : Frame) (ab : Bool),
    let r := (s.bump (portReg p Reg.GP_RX_FRAMES_TOTAL) 1).owe p f
    (s.portUp p = false ∨ 16 ≤ p ∨ s.fab.idValid = false ∨ f.dst = s.fab.id ∨ f.kind = fkControl ∨ f.kind = fkChunk → exec (.transitFrame p f ab) s = .next s)
    ∧ (s.portUp p = true → p < 16 → s.fab.idValid = true → f.dst ≠ s.fab.id → f.kind ≠ fkControl → f.kind ≠ fkChunk →
      (ab = true → exec (.transitFrame p f true) s = .next (r.bump (portReg p Reg.GP_TRANSIT_TOTAL) 1))
      ∧ (ab = false →
        (∀ x, p < 14 → r.exit f.dst = some x → exec (.transitFrame p f false) s = .next ((r.transmit x f).bump (portReg p Reg.GP_TRANSIT_TOTAL) 1))
        ∧ (14 ≤ p ∨ r.exit f.dst = none → ∃ u : State, exec (.transitFrame p f false) s = .next u
            ∧ u.reg (fabReg Reg.FRAME_UNROUTABLE_TOTAL) = min (2 ^ 64 - 1) (s.reg (fabReg Reg.FRAME_UNROUTABLE_TOTAL) + 1) ∧ u.mem = s.mem)))

/-- An answer is taken by the operation whose sent frame has its module, TAG and ADDR: an ACK or READ_TILE takes that frame out, the latter with its bytes, and a NACK fails the operation with its status; one that fits none is late and counted. A frame unanswered for RETRY_TIME is sent again and counted when its kind is idempotent and RETRY_LIMIT is not reached; else its operation fails, counted and reported, with REMOTE_TIMEOUT or REMOTE_UNKNOWN. An instance starts when START_OBJ has reached START_COUNT and none of its definition runs: START_OBJ becomes 0 and its number is the next. Its end takes it out, is counted, and notes its run. A record of no live member is counted as a mismatch, a RERUN record of the attempt reruns it, and any other lets its stage be checked. With COLL_RETRY and attempt 0 a failure runs the instance again as attempt 1; otherwise it ends and COLL_FAILED is reported. -/
def Obligations.AnswersAndCollectives : Prop :=
  (∀ (s : State) (p : Nat) (f : Frame),
    let r := (s.bump (portReg p Reg.GP_RX_FRAMES_TOTAL) 1).owe p f
    ∀ c k, (c, k) ∈ [(Instr.readTile p f, fkTile), (Instr.ack p f, fkAck)] ++ [Instr.nack p f .OK, Instr.nack p f .WINDOW_NONE, Instr.nack p f .TILE_POISONED].map (fun i => (i, fkNack)) →
      (s.portUp p = false ∨ f.kind ≠ k ∨ 16 ≤ p ∨ (f.dst ≠ s.moduleId ∧ s.fab.idValid = true) → exec c s = .next s)
      ∧ (s.portUp p = true → f.kind = k → p < 16 → f.dst = s.moduleId ∨ s.fab.idValid = false →
        (Frame.ok f = false → exec c s = .next (r.bump (portReg p Reg.GP_FCRC_FAIL_TOTAL) 1))
        ∧ (Frame.ok f = true → (∀ x ∈ s.fab.remotes, ∀ y ∈ x.frames, ¬ (y.sent = true ∧ y.module = f.src ∧ y.frame.tag = f.tag ∧ y.frame.addr = f.addr)) →
            exec c s = .next (r.bump (fabReg Reg.REMOTE_TIMEOUT_TOTAL) 1))
        ∧ (Frame.ok f = true → ∀ i j, r.answered f = some (i, j) →
          (k = fkAck → exec c s = .next (r.frameDone i j none)) ∧ (k = fkTile → exec c s = .next (r.frameDone i j (some (f.src * 2 ^ 48 + f.target, f.body))))
          ∧ ∀ st, k = fkNack → exec (.nack p f st) s = .next ((r.failRemote i st f.target).settled))))
  ∧ (∀ (s : State) (f : Frame) (i j : Nat), s.answered f = some (i, j) → ∃ x y, s.fab.remotes[i]? = some x ∧ x.frames[j]? = some y ∧ y.sent = true ∧ y.module = f.src ∧ y.frame.tag = f.tag
      ∧ y.frame.addr = f.addr)
  ∧ (∀ (s : State) (x : Remote) (y z : RFrame) (a : Nat) (bs : List Byte), s.fab.remotes = [x] → x.failed = none → x.frames = [y, z] → z.sent = true →
      (s.frameDone 0 0 none).fab.remotes = [{ x with frames := [z] }] ∧ (s.frameDone 0 0 (some (a, bs))).fab.remotes = [{ x with frames := [z], far := Tab.setList x.far a bs }])
  ∧ (∀ (s : State) (x : Remote) (g : Nat) (y : RFrame), s.fab.remotes = [x] → x.issuer = .post g → x.failed = none → x.frames = [y] → ∃ u : State, s.frameDone 0 0 none = u ∧ u.fab.remotes = [] ∧ u = { s with fab := u.fab })
  ∧ (∀ (s : State) (i j : Nat), let x := s.remote i
    (x.frames[j]? = none → exec (.retryTime i j) s = .next s)
    ∧ ∀ y, x.frames[j]? = some y →
      (y.sent = false ∨ s.time.tick < y.since + s.retryTime → exec (.retryTime i j) s = .next s)
      ∧ (y.sent = true → y.since + s.retryTime ≤ s.time.tick → y.frame.kind ∈ [fkWrite, fkMasked, fkRead] → y.resends < s.retryLimit →
        (s.exit y.frame.dst = none → exec (.retryTime i j) s = .next ((s.failRemote i .FABRIC_UNREACHABLE y.frame.target).settled))
        ∧ (s.exit y.frame.dst ≠ none → i < s.fab.remotes.length → ∃ u : State, exec (.retryTime i j) s = .next u ∧ u.remote i = { x with frames := x.frames.set j { y with since := s.time.tick, resends := y.resends + 1 } }
            ∧ u.reg (fabReg Reg.REMOTE_RETRY_TOTAL) = min (2 ^ 64 - 1) (s.reg (fabReg Reg.REMOTE_RETRY_TOTAL) + 1) ∧ ∀ n, n ≠ i → u.remote n = s.remote n))
      ∧ (y.sent = true → y.since + s.retryTime ≤ s.time.tick → y.frame.kind ∉ [fkWrite, fkMasked, fkRead] ∨ s.retryLimit ≤ y.resends →
        exec (.retryTime i j) s = .next ((((s.failRemote i (if y.frame.kind ∈ [fkWrite, fkMasked, fkRead] then .REMOTE_TIMEOUT else .REMOTE_UNKNOWN) y.frame.target).bump (fabReg Reg.REMOTE_TIMEOUT_TOTAL) 1).raise
          .REMOTE_TIMEOUT (Src.port 0) [y.module, y.frame.kind, y.frame.target]).settled)))
  ∧ (∀ (s : State) (key : Nat), endedRemote s.fab.remotes = none →
    (s.collDef key = none → exec (.collInstanceStart key) s = .next s ∧ exec (.collWait key) s = .next s)
    ∧ (s.instanceOf key = none → exec (.collWait key) s = .next s)
    ∧ ∀ c, s.collDef key = some c →
      (s.instanceOf key ≠ none ∨ (s.obj c.start).allocated = false ∨ waitHolds false (s.obj c.start).val c.count = false ∨ c.stages = [] → exec (.collInstanceStart key) s = .next s)
      ∧ (s.instanceOf key = none → (s.obj c.start).allocated = true → waitHolds false (s.obj c.start).val c.count = true → c.stages ≠ [] → ∃ (u : State) (x : Instance),
          x.key = key ∧ x.number = Tab.get s.topo.started key % 2 ^ 16 ∧ x.attempt = 0 ∧ x.step = s.step.num ∧ x.start = s.time.tick
          ∧ (u.obj c.start).val = 0 ∧ Tab.get u.topo.started key = Tab.get s.topo.started key + 1 ∧ u.topo.instances = s.topo.instances ++ [x]
          ∧ exec (.collInstanceStart key) s = .next (((u.collStart c x).collAdvance key 16).settled))
      ∧ ∀ x, s.instanceOf key = some x → (s.time.tick < x.start + s.collWait → exec (.collWait key) s = .next s)
        ∧ (x.start + s.collWait ≤ s.time.tick → exec (.collWait key) s = .next ((s.collFail c x .COLL_TIMEOUT none [0, 0]).settled)))
  ∧ (∀ (s : State) (c : ImageColl) (x : Instance) (e : Code) (m : Option Nat) (l : List Nat), let u := s.collFail c x e m l
      (∃ v ∈ u.ev.inFlight, v.code = e ∧ v.args = [x.key, x.stage, m.getD 0xFFFF, s.moduleId] ++ l)
      ∧ (s.collRetry = true → x.attempt = 0 → s.instanceOf x.key = some x → ∃ y, u.instanceOf x.key = some y ∧ y.attempt = 1 ∧ y.rerun = true ∧ y.stage = 0 ∧ y.number = x.number ∧ y.step = x.step)
      ∧ (s.collRetry = false ∨ x.attempt ≠ 0 → (∀ y ∈ u.topo.instances, y.key ≠ x.key) ∧ (∃ v ∈ u.ev.inFlight, v.code = .COLL_FAILED) ∧ (x.step, x.key) ∈ u.step.collRuns))
  ∧ (∀ (s : State) (c : ImageColl) (x : Instance) (st : Code), let u := s.collEnd c x st
      (∀ y, y ∈ u.topo.instances ↔ y ∈ s.topo.instances ∧ y.key ≠ x.key) ∧ u.step.collRuns = (x.step, x.key) :: s.step.collRuns
      ∧ u.reg (fabReg Reg.COLL_RUN_TOTAL) = min (2 ^ 64 - 1) (s.reg (fabReg Reg.COLL_RUN_TOTAL) + 1))
  ∧ (∀ (s : State) (m a : Nat), (s.recAt a = none → s.recordArrived m a = s)
      ∧ ∀ key c, s.recAt a = some (key, c) → ((∀ d ∈ c.stages, m ∉ s.members d) → s.recordArrived m a = s.bump (fabReg Reg.COLL_MISMATCH_TOTAL) 1)
        ∧ ((∃ d ∈ c.stages, m ∈ s.members d) → let r := parseRec (s.bytesAt a 64)
          (s.instanceOf key = none → s.recordArrived m a = s)
          ∧ ∀ x, s.instanceOf key = some x → (r.type ≠ 3 → s.recordArrived m a = s.collAdvance key 16)
            ∧ (r.type = 3 → r.matches c x 3 r.dim r.sender = true → x.attempt = 0 → s.recordArrived m a = ((s.dropColl x).rerunNow c x).collAdvance key 16)
            ∧ (r.type = 3 → r.matches c x 3 r.dim r.sender = false ∨ x.attempt ≠ 0 → s.recordArrived m a = s)))
  ∧ ∀ (s : State) (p : Nat) (f : Frame),
    let r := (s.bump (portReg p Reg.GP_RX_FRAMES_TOTAL) 1).owe p f
    let g := r.ingress p f
    let w := r.writeAll (Src.port p) (maskBlocks f)
    (s.portUp p = false ∨ f.kind ≠ fkMasked ∨ 16 ≤ p ∨ (f.dst ≠ s.moduleId ∧ s.fab.idValid = true) → exec (.collRecord p f) s = .next s.settled)
    ∧ (s.portUp p = true → f.kind = fkMasked → p < 16 → f.dst = s.moduleId ∨ s.fab.idValid = false →
      (Frame.ok f = false → exec (.collRecord p f) s = .next (r.bump (portReg p Reg.GP_FCRC_FAIL_TOTAL) 1).settled)
      ∧ (Frame.ok f = true → g.code ≠ .OK → exec (.collRecord p f) s = .next (r.nack f g.code g.window).settled)
      ∧ (Frame.ok f = true → g.code = .OK → w.code ≠ .OK → exec (.collRecord p f) s = .next (w.st.nack f w.code g.window).settled)
      ∧ (Frame.ok f = true → g.code = .OK → w.code = .OK → exec (.collRecord p f) s
          = .next (((maskBlocks f).foldl (fun s b => s.recordArrived f.src b.1) w.st).answer (replyTo f fkAck (ackBody .OK f g.window))).settled))

/-- A link of this module's ring whose two ports here have been out of UP for REPAIR_WAIT is cut, or stops the ring where REPAIR_EN is 0 or in Sorano mode; before that nothing happens. A notice not seen before is recorded and has the same effect; one seen changes nothing. A first cut moves the live dateline to the link; a second one that encloses one position loses its module: a ready spare is to take its place, one with another cord is programming and the ring's requests pause, a REPLICA ring goes on and a SHARD ring pauses; any other second cut splits the ring. A stop pauses the ring's requests and raises FABRIC_STOPPED. A member keeps the step that its lead announces, and flips the slot that it promised at the group's flip step; a clean report of the step in progress counts at the lead, or lets a member commit; one of a fault abandons the step; a REWIND notice opens a window over every own sequence from the step that it names. -/
def Obligations.RingsAndStepGroups : Prop :=
  (∀ (s : State) (d l : Nat) (b : Bool),
    (s.linkDown d l = none → exec (.repairWait d l b) s = .next s)
    ∧ ∀ t, s.linkDown d l = some t →
      (s.time.tick < t + s.repairWait → exec (.repairWait d l b) s = .next s)
      ∧ (t + s.repairWait ≤ s.time.tick →
        (s.sorano = true ∨ s.linkRepair = false → (s.ring d).stopped = true → exec (.repairWait d l b) s = .next s)
        ∧ (s.sorano = true ∨ s.linkRepair = false → (s.ring d).stopped = false → exec (.repairWait d l b) s = .next (s.fabricStop d l))
        ∧ (s.sorano = false → s.linkRepair = true → exec (.repairWait d l b) s = .next (s.cutLink d l b State.cutInstance))))
  ∧ (∀ (s : State) (d l t : Nat), s.linkDown d l = some t → 2 ≤ s.ringSize d ∧ l < s.ringSize d ∧ (l = s.ringPos d ∨ (l + 1) % s.ringSize d = s.ringPos d))
  ∧ (∀ (s : State) (d l o n : Nat) (b : Bool),
    ((d, l, o, n) ∈ s.topo.notices ∨ s.ringSize d < 2 → exec (.repairNotice d l o n b) s = .next s)
    ∧ ((d, l, o, n) ∉ s.topo.notices → 2 ≤ s.ringSize d → ∀ t, t = { s with topo := { s.topo with notices := (d, l, o, n) :: s.topo.notices } } →
      (s.sorano = true ∨ s.linkRepair = false → (s.ring d).stopped = true → exec (.repairNotice d l o n b) s = .next t)
      ∧ (s.sorano = true ∨ s.linkRepair = false → (s.ring d).stopped = false → exec (.repairNotice d l o n b) s = .next (t.fabricStop d l))
      ∧ (s.sorano = false → s.linkRepair = true → exec (.repairNotice d l o n b) s = .next (t.cutLink d l b State.cutInstance))))
  ∧ (∀ (s : State) (d l : Nat) (b : Bool), let r := s.ring d
    let u := s.cutLink d l b State.cutInstance
    (r.cut = none → r.cutB ≠ some l → (u.ring d).cut = some l ∧ (u.ring d).state = 1 ∧ (u.ring d).seq = (r.seq + 1) % 2 ^ 16 ∧ u.liveLine d = l ∧ (∀ e, e ≠ d → u.ring e = s.ring e)
        ∧ ∃ v ∈ u.ev.inFlight, v.code = .TOPO_CUT ∧ v.args = [d, l])
    ∧ (∀ a, r.cut = some a → a ≠ l → r.cutB = none →
      (enclosed (s.ringSize d) a l = none → (u.ring d).cutB = some l ∧ (u.ring d).state = 3 ∧ (∃ v ∈ u.ev.inFlight, v.code = .TOPO_SPLIT ∧ v.args = [d, a, l]) ∧ ∀ i ∈ s.ringRequests d, i ∈ u.step.excluded)
      ∧ ∀ k, enclosed (s.ringSize d) a l = some k → (u.ring d).cutB = some l ∧ (u.ring d).state = 2 ∧ k ∈ (u.ring d).lost ∧ ∃ v ∈ u.ev.inFlight, v.code = .TOPO_CUT ∧ v.args = [d, l]))
  ∧ (∀ n a b, 2 < n → a < n → b < n → (enclosed n a b = some b ↔ (a + 1) % n = b) ∧ (∀ k, enclosed n a b = some k → k = a ∨ k = b))
  ∧ (∀ (s : State) (d k : Nat) (b : Bool), let u := s.memberLost d k b
    k ∈ (u.ring d).lost ∧ (u.ring d).state = 2
    ∧ (∀ m, s.sparePos d ≠ 0x7F → s.substEn = true → s.moduleAt d (s.sparePos d) = some m →
      (b = true → (u.ring d).awaiting = some (s.logical d k, m) ∧ u.step = s.step ∧ u.ev = s.ev)
      ∧ (b = false → (∀ i ∈ s.ringRequests d, i ∈ u.step.excluded) ∧ ∃ v ∈ u.ev.inFlight, v.code = .TOPO_SPARE_PROGRAMMING ∧ v.args = [d, k, m]))
    ∧ (s.sparePos d = 0x7F ∨ s.substEn = false → s.replica d = true → u.step = s.step ∧ u.ev = s.ev)
    ∧ (s.sparePos d = 0x7F ∨ s.substEn = false → s.replica d = false → (∀ i ∈ s.ringRequests d, i ∈ u.step.excluded) ∧ ∃ v ∈ u.ev.inFlight, v.code = .TOPO_MEMBER_LOST))
  ∧ (∀ (s : State) (d l : Nat), ((s.fabricStop d l).ring d).stopped = true ∧ (∀ i ∈ s.ringRequests d, i ∈ (s.fabricStop d l).step.excluded)
      ∧ ∃ v ∈ (s.fabricStop d l).ev.inFlight, v.code = .FABRIC_STOPPED ∧ v.args = [d, l])
  ∧ (∀ (s : State) (n : Nat) (fl : Bool),
    (s.inGroup = false ∨ s.isLead = true → exec (.stepAnnounce n fl) s = .next s)
    ∧ (s.inGroup = true → s.isLead = false → ∃ u : State, exec (.stepAnnounce n fl) s = .next u ∧ u.topo.announced = some n ∧ u.step = s.step
        ∧ (fl = false ∨ s.inst.promised = none → u.inst = s.inst)
        ∧ ∀ i, fl = true → s.inst.promised = some i → u.inst.promised = none ∧ u.inst.flips = s.inst.flips ++ [(i, none)]))
  ∧ (∀ (s : State) (m n : Nat) (cl : Bool),
    (s.inGroup = false ∨ s.step.running = false ∨ n ≠ s.step.num → exec (.cleanReport m n cl) s = .next s)
    ∧ (s.inGroup = true → s.step.running = true → n = s.step.num →
      (cl = false → exec (.cleanReport m n cl) s = .next (s.abandon .transport .OK 0 []))
      ∧ (cl = true → s.isLead = true → ∃ u : State, exec (.cleanReport m n cl) s = .next u ∧ (∀ k, k ∈ u.topo.clean ↔ k = m ∨ k ∈ s.topo.clean) ∧ u.step = s.step ∧ u.topo.go = s.topo.go)
      ∧ (cl = true → s.isLead = false → ∃ u : State, exec (.cleanReport m n cl) s = .next u ∧ u.topo.go = true ∧ u.topo.clean = s.topo.clean ∧ u.step = s.step ∧ u.mayCommit = true)))
  ∧ ∀ (s : State) (n : Nat), (s.inGroup = false → exec (.rewindNotice n) s = .next s)
    ∧ (s.inGroup = true → exec (.rewindNotice n) s = .next (s.openWindow { cls := .reduction, first := n, last := s.step.num, all := true }))

/-- The round's next slot converts its channel, or takes a diagnosis that is due, and moves on; an idle slot only moves on. A good conversion gives the corrected, clamped reading; a fault of R447 breaks the channel: it is counted, reported, forced to 110.0 °C when it is a T channel, and to be diagnosed at 256 and 768; eight valid rounds not all alike after a passed diagnosis recover it. Levels set and clear at Table 15-6, counted and reported. A round's end records the power and its energy, counts the round and moves the power stage by R439. A decision moves each die's thermal stage by R449 and reports a change; a stage change takes effect at the higher of thermal and power stage. An urgent request is accepted only on an idle ADC with 500 S-cycles left, else dropped and counted. TDAC GO adds a diagnosis for the next round. A ZERO or FULL operation starts when none runs, a SAVE stores the coefficients; one that meets a running operation is reported. -/
def Obligations.HousekeepingRound : Prop :=
  (∀ (s : State) (raw : Nat) (v : Int) (bad : Bool) (c : Nat), c = s.hk.slot →
    (s.hk.powered = false ∨ 128 ≤ c → exec (.hkSlotConversion raw v bad) s = .next s)
    ∧ (s.hk.powered = true → c < 128 → ∀ a t, a = (if c = 0 then s.roundStart else s) → t = { a with hk := { a.hk with slot := c + 1 } } →
      (s.hkScanned c = false → exec (.hkSlotConversion raw v bad) s = .next t)
      ∧ (s.hkScanned c = true → ((∀ e ∈ s.hk.diag, e.2.1 ≠ c ∨ s.hk.rounds < e.1) → exec (.hkSlotConversion raw v bad) s = .next (t.hkConvert c (raw % 2 ^ 16) v bad))
        ∧ ∀ n k, s.hk.diag = [(n, c, k)] → n ≤ s.hk.rounds → exec (.hkSlotConversion raw v bad) s = .next ({ t with hk := { t.hk with diag := [] } }.hkDiagnose c k (raw % 2 ^ 16)))))
  ∧ (∀ (s : State) (c : Nat) (o g : Int), s.hk.coefNext = [(c, [o, g])] → (s.roundStart.hkChan c).offset = o ∧ (s.roundStart.hkChan c).gain = g.toNat ∧ s.roundStart.hk.coefNext = []
      ∧ s.roundStart.hk.roundMs = s.hkCfg 0 5 ∧ (∀ e, e ≠ c → s.roundStart.hkChan e = s.hkChan e))
  ∧ (∀ (o : Int) (g : Nat) (k : Int), hkCorrect o g k = rneDiv ((k - o) * g) 16384)
  ∧ (∀ (c raw n : Nat) (v : Int) (bad : Bool), raw < 2 ^ 16 →
      (hkHbm c = true → hkFault c raw v n bad = if bad then 1 else if v < -640 ∨ 2400 < v then 3 else 0)
      ∧ (hkHbm c = false → (0xFFF0 ≤ raw → hkFault c raw v n bad = 1) ∧ (raw ≤ 0xF → hkFault c raw v n bad = 2)
        ∧ (0xF < raw → raw < 0xFFF0 → (hkTemp c = true → v < -640 ∨ 2400 < v → hkFault c raw v n bad = 3)
          ∧ (hkTemp c = false ∨ (-640 ≤ v ∧ v ≤ 2400) → hkFault c raw v n bad = if 8 ≤ n then 4 else 0))))
  ∧ (∀ (s : State) (c raw : Nat) (v : Int) (bad : Bool), let x := s.hkChan c
      let r := hkReading c x raw v
      let n := if x.seen = true ∧ x.raw = raw then x.same + 1 else 1
      s.hk.sys.running = false → hkTemp c = false →
      (x.broken = 0 → hkFault c raw r.1 n bad = 0 → ∃ u : State, s.hkConvert c raw v bad = u ∧ (u.hkChan c).reading = r.1 ∧ (u.hkChan c).overRange = r.2 ∧ (u.hkChan c).raw = raw ∧ (u.hkChan c).same = n
        ∧ (u.hkChan c).broken = 0 ∧ (∀ e, e ≠ c → u.hkChan e = s.hkChan e) ∧ u = { s with hk := u.hk })
      ∧ (x.broken = 0 → hkFault c raw r.1 n bad ≠ 0 → ∃ u : State, s.hkConvert c raw v bad = u ∧ (u.hkChan c).broken = hkFault c raw r.1 n bad ∧ (u.hkChan c).diagOk = false
        ∧ u.hk.diag = s.hk.diag ++ [(s.hk.rounds + 1, c, 256), (s.hk.rounds + 2, c, 768)] ∧ (∃ w, u.ev.inFlight = s.ev.inFlight ++ [w] ∧ w.code = .SENSOR_BROKEN ∧ w.args = [c, hkFault c raw r.1 n bad])
        ∧ u.reg (hkReg Reg.HK_BROKEN_TOTAL) = min (2 ^ 64 - 1) (s.reg (hkReg Reg.HK_BROKEN_TOTAL) + 1))
      ∧ (x.broken ≠ 0 → x.diagOk = true → hkFault c raw r.1 n bad = 0 → x.valid.length = 7 → (∃ y ∈ x.valid, y ≠ raw) → ∃ u : State, s.hkConvert c raw v bad = u ∧ (u.hkChan c).broken = 0
        ∧ (u.hkChan c).reading = r.1 ∧ ∃ w, u.ev.inFlight = s.ev.inFlight ++ [w] ∧ w.code = .SENSOR_RECOVERED ∧ w.args = [c])
      ∧ (x.broken ≠ 0 → x.diagOk = false → ∃ u : State, s.hkConvert c raw v bad = u ∧ (u.hkChan c).broken = x.broken ∧ u.ev = s.ev))
  ∧ (∀ (s : State) (c k raw : Nat), let ok := decide (((raw : Int) - 64 * k).natAbs ≤ s.diagTol)
      let u := s.hkDiagnose c k raw
      u.hk.tdacChan = c ∧ u.hk.tdacRaw = raw ∧ u.hk.tdacDone = true ∧ u.hk.tdacPass = ok
      ∧ ((s.hkChan c).broken = 0 → ok = true → u.hkChan c = s.hkChan c)
      ∧ ((s.hkChan c).broken ≠ 0 → (u.hkChan c).diagOk = ok ∧ (u.hkChan c).reading = (s.hkChan c).reading ∧ (ok = false → (u.hkChan c).broken = 5))
      ∧ ((s.hkChan c).broken = 0 → ok = false → ∃ w ∈ u.ev.inFlight, w.code = .SENSOR_BROKEN ∧ w.args = [c, 5]))
  ∧ (∀ (s : State) (c : Nat) (x : HkChan) (k : Nat), hkTemp c = true → hkPart c < 84 → (s.partition (hkPart c)).down = true → ((s.hkBreak c x k).hkChan c).reading = 0x6E0 ∧ ((s.hkBreak c x k).hkChan c).shut = true)
  ∧ (∀ (s : State) (c : Nat) (v : Int), let x := s.hkChan c
      (x.warn = false → 1520 ≤ v → ∃ u : State, s.warnLevel c v = u ∧ (u.hkChan c).warn = true ∧ (∃ w, u.ev.inFlight = s.ev.inFlight ++ [w] ∧ w.code = .THERMAL_WARNING ∧ w.args = [c, encodeInt 16 v])
        ∧ u.reg (hkReg Reg.THERM_WARN_TOTAL) = min (2 ^ 64 - 1) (s.reg (hkReg Reg.THERM_WARN_TOTAL) + 1))
      ∧ (x.warn = true → v < 1472 → ∃ u : State, s.warnLevel c v = u ∧ (u.hkChan c).warn = false ∧ ∃ w, u.ev.inFlight = s.ev.inFlight ++ [w] ∧ w.code = .THERMAL_NORMAL ∧ w.args = [c, encodeInt 16 v])
      ∧ ((x.warn = false ∧ v < 1520) ∨ (x.warn = true ∧ 1472 ≤ v) → s.warnLevel c v = s)
      ∧ (x.throttle = false → 1632 ≤ v → ((s.throttleLevel c v).hkChan c).throttle = true) ∧ (x.throttle = true → v < 1568 → ((s.throttleLevel c v).hkChan c).throttle = false)
      ∧ ((x.throttle = false ∧ v < 1632) ∨ (x.throttle = true ∧ 1568 ≤ v) → s.throttleLevel c v = s)
      ∧ (x.shut = true ∨ v < 1760 → s.shutLevel c v = s)
      ∧ (x.shut = false → 1760 ≤ v → ∀ t, t = (s.setHkChan c { x with shut := true }).bump (hkReg Reg.THERM_SHUTDOWN_TOTAL) 1 →
          (hkPart c = 84 → s.shutLevel c v = t.moduleShutdown c (if x.broken ≠ 0 then 6 else 5)) ∧ (hkPart c ≠ 84 → s.shutLevel c v = t.partitionShutdown (hkPart c) c)))
  ∧ (∀ s : State, (s.hk.powered = false ∨ s.hk.slot < 128 → exec .roundEnd s = .next s)
    ∧ (s.hk.powered = true → 128 ≤ s.hk.slot → ∃ u : State, exec .roundEnd s = .next u ∧ u.hk.slot = 0 ∧ u.hk.rounds = s.hk.rounds + 1 ∧ u.hk.power = s.inputPower ∧ u.ev = s.ev
        ∧ u.reg (pwrReg Reg.PWR_ENERGY_TOTAL) = (s.reg (pwrReg Reg.PWR_ENERGY_TOTAL) + s.inputPower * s.hk.roundMs) % 2 ^ 64
        ∧ u.reg (hkReg Reg.HK_ROUND_TOTAL) = min (2 ^ 64 - 1) (s.reg (hkReg Reg.HK_ROUND_TOTAL) + 1) ∧ u.hk.powerStage = (s.stageRound s.inputPower).hk.powerStage
        ∧ (0 < u.hk.powerStage → u.reg (pwrReg Reg.PWR_LIMIT_TOTAL) = min (2 ^ 64 - 1) (s.reg (pwrReg Reg.PWR_LIMIT_TOTAL) + 1)) ∧ (u.hk.powerStage = 0 → u.reg (pwrReg Reg.PWR_LIMIT_TOTAL) = s.reg (pwrReg Reg.PWR_LIMIT_TOTAL))))
  ∧ (∀ (s : State) (p : Nat), (s.hkChan 96).broken = 0 → (s.hkChan 97).broken = 0 → let u := s.stageRound p
      (s.powerLimit < p → 2 ≤ s.hk.overRounds → u.hk.powerStage = min 3 (s.hk.powerStage + 1) ∧ u.hk.overRounds = 0)
      ∧ (s.powerLimit < p → s.hk.overRounds < 2 → u.hk.powerStage = s.hk.powerStage ∧ u.hk.overRounds = s.hk.overRounds + 1 ∧ u.hk.underRounds = 0)
      ∧ (p + s.powerMargin < s.powerLimit → 49 ≤ s.hk.underRounds → u.hk.powerStage = s.hk.powerStage - 1 ∧ u.hk.underRounds = 0)
      ∧ (p ≤ s.powerLimit → s.powerLimit ≤ p + s.powerMargin → u.hk.powerStage = s.hk.powerStage ∧ u.hk.overRounds = 0 ∧ u.hk.underRounds = 0))
  ∧ (∀ (s : State) (p : Nat), (s.hkChan 96).broken ≠ 0 ∨ (s.hkChan 97).broken ≠ 0 → 2 ≤ (s.stageRound p).hk.powerStage)
  ∧ (∀ s : State, (s.hk.powered = false ∨ s.hk.rounds = 0 → exec .damperDecision s = .next s)
    ∧ (s.hk.powered = true → s.hk.rounds ≠ 0 → ∃ u : State, exec .damperDecision s = .next u ∧ (∀ i ∈ s.dies ++ [8, 9, 10, 11], Tab.get u.hk.stage i = s.damperNext i
          ∧ (s.damperNext i ≠ Tab.get s.hk.stage i → ∃ w ∈ u.ev.inFlight, w.code = .DAMPER_CHANGED ∧ w.args = [i, s.damperNext i])) ∧ u.hk.live = s.hk.live ∧ u.hk.chans = s.hk.chans))
  ∧ (∀ (s : State) (i : Nat), (s.hk.powered = false ∨ i ∉ s.dies ++ [8, 9, 10, 11] → exec (.damperStageApply i) s = .next s)
    ∧ (s.hk.powered = true → i ∈ s.dies ++ [8, 9, 10, 11] → ∃ u : State, exec (.damperStageApply i) s = .next u
        ∧ Tab.get u.hk.live i = (if i < 8 then max (Tab.get s.hk.stage i) s.hk.powerStage else Tab.get s.hk.stage i) ∧ (∀ j, j ≠ i → Tab.get u.hk.live j = Tab.get s.hk.live j) ∧ u = { s with hk := u.hk }))
  ∧ ∀ s : State, (s.hk.powered = false → (∀ v b n, exec (.hkUrgCtrl v b n) s = .next s) ∧ (∀ v, exec (.hkTdacGo v) s = .next s) ∧ ∀ e, exec (.syscalZero e) s = .next s ∧ exec (.syscalFull e) s = .next s
        ∧ exec (.syscalSave e) s = .next s)
    ∧ (s.hk.urgConv = none → ∀ r v, exec (.urgentConversionDone r v) s = .next s)
    ∧ (∀ c r v, s.hk.urgConv = some c → s.hkScanned c = true → ∃ u : State, exec (.urgentConversionDone r v) s = .next u ∧ u.hk.urgConv = none ∧ u.hk.urgChan = c ∧ u.hk.urgDone = true
        ∧ u.hk.urgDropped = false ∧ u.hk.urgRaw = encodeInt 16 (hkReading c (s.hkChan c) (r % 2 ^ 16) v).1 ∧ u.hk.chans = s.hk.chans ∧ u = { s with hk := u.hk })
    ∧ (s.hk.powered = true →
      (∀ v b n, b = true ∨ s.hk.urgConv ≠ none ∨ n < 500 → ∃ u : State, exec (.hkUrgCtrl v b n) s = .next u ∧ u.hk.urgDropped = true ∧ u.hk.urgDone = false ∧ u.hk.urgConv = s.hk.urgConv
        ∧ u.reg (hkReg Reg.URG_DROP) = min (2 ^ 64 - 1) (s.reg (hkReg Reg.URG_DROP) + 1))
      ∧ (∀ v n, s.hk.urgConv = none → 500 ≤ n → ∃ u : State, exec (.hkUrgCtrl v false n) s = .next u ∧ u.hk.urgConv = some (bitsOf v 0 7) ∧ u.hk.urgDone = false ∧ u.hk.urgDropped = false ∧ u = { s with hk := u.hk })
      ∧ (∀ v, bitOf v 17 = false ∨ s.hkScanned (bitsOf v 10 7) = false → exec (.hkTdacGo v) s = .next s)
      ∧ (∀ v, bitOf v 17 = true → s.hkScanned (bitsOf v 10 7) = true → ∃ u : State, exec (.hkTdacGo v) s = .next u ∧ u.hk.tdacPending = true ∧ u.hk.tdacDone = false ∧ u.hk.tdacChan = bitsOf v 10 7
        ∧ u.hk.diag = s.hk.diag ++ [(s.hk.rounds + 1, bitsOf v 10 7, bitsOf v 0 10)] ∧ u = { s with hk := u.hk })
      ∧ (s.hk.sys.running = true → ∀ e c, c ∈ [Instr.syscalZero e, Instr.syscalFull e, Instr.syscalSave e] → ∃ (u : State) (w : EvRec), exec c s = .next u ∧ u.hk = s.hk
        ∧ u.ev.inFlight = s.ev.inFlight ++ [w] ∧ w.code = .SYSCAL_BUSY ∧ w.args = [e % 8])
      ∧ (s.hk.sys.running = false → ∀ e, (∃ u : State, exec (.syscalZero e) s = .next u ∧ u.hk.sys = { running := true, chan := e % 8, op := 1 } ∧ u = { s with hk := u.hk })
        ∧ (∃ u : State, exec (.syscalFull e) s = .next u ∧ u.hk.sys = { running := true, chan := e % 8, op := 2 } ∧ u = { s with hk := u.hk })
        ∧ ∃ u : State, exec (.syscalSave e) s = .next u ∧ Tab.get u.hk.saved (120 + e % 8) = s.coefs (120 + e % 8) ∧ (∀ j, j ≠ 120 + e % 8 → Tab.get u.hk.saved j = Tab.get s.hk.saved j) ∧ u = { s with hk := u.hk }))

/-- Without power each of these commands changes nothing. A trip leaves the module without power, its cause latched and everything volatile at its reset value, while the array cells and their cycle counts, the Ash list as flash holds it, the calibration records, the saved trainings and coefficients, the key slots and the anti-rollback counters stay. INPUT_OUT_OF_RANGE is raised once per excursion; the current limit sets the power stage to 3. The module's shutdown is recorded and reported once, and its trip cuts power with the record's cause. A partition that reaches the shutdown level goes down once, with PARTITION_SHUTDOWN and the consequences of Table 15-8; a memory-side die's takes every ACTIVE request out of admission. A release is refused with RELEASE_REFUSED until every channel of the partition is below 90 °C and none is broken; then a position that its shutdown retired takes a scan, a compute die a reset, and a memory-side die comes back with its contents lost. Automatic release waits RELEASE_HOLD. -/
def Obligations.PowerAndPartitions : Prop :=
  (∀ (s : State) (c : Instr) (k : Nat), (c, k) ∈ [(Instr.inputUndervolt, 1), (Instr.inputOvervolt, 2), (Instr.inputOvercurrent, 3), (Instr.regulatorFault, 4)] →
      (s.hk.powered = false → exec c s = .next s) ∧ (s.hk.powered = true → exec c s = .next (s.powerOff k)))
  ∧ (∀ (s : State) (k : Nat), let u := s.powerOff k
      u.hk.powered = false ∧ u.hk.latch = k ∧ u.hk.shutdown = s.hk.shutdown ∧ u.hk.saved = s.hk.saved ∧ u.regs = [] ∧ u.mem = {} ∧ u.reqs = [] ∧ u.chans = [] ∧ u.images = [] ∧ u.seqs = [] ∧ u.boot.phase = 0
      ∧ u.ash.entries = s.ash.entries.take s.ash.flash ∧ u.sec.keys = s.sec.keys ∧ u.sec.counters = s.sec.counters ∧ u.boot.hours = s.boot.hours ∧ u.boot.cfgFlash = s.boot.cfgFlash ∧ u.boot.fuses = s.boot.fuses
      ∧ u.hmem = s.hmem ∧ u.part = s.part ∧ u.pending = s.pending ∧ (∀ d, (u.dieCal d).run = 0) ∧ (∀ p, (u.port p).st = .down ∧ (u.port p).queue = []) ∧ (∀ i, (u.slot i).key = none ∧ (u.slot i).st ≠ .active))
  ∧ (∀ y : Bank, (y.kept).cycles = y.cycles ∧ (y.kept).cols = y.cols ∧ (y.kept).spares = y.spares ∧ (y.st ≠ .programming → (y.kept).layers = y.layers ∧ (y.kept).st = y.st)
      ∧ (y.st = .programming → (y.kept).layers = [] ∧ (y.kept).st = .empty))
  ∧ (∀ (s : State) (o : Bool), (s.hk.powered = false → exec (.inputOutOfRange o) s = .next s ∧ exec (.currentLimit o) s = .next s)
    ∧ (s.hk.powered = true →
      (∃ u : State, exec (.inputOutOfRange o) s = .next u ∧ u.hk.inputRange = o ∧ (o = false ∨ s.hk.inputRange = true → u.ev = s.ev)
        ∧ (o = true → s.hk.inputRange = false → ∃ w, u.ev.inFlight = s.ev.inFlight ++ [w] ∧ w.code = .INPUT_OUT_OF_RANGE))
      ∧ ∃ u : State, exec (.currentLimit o) s = .next u ∧ u.hk.currentLimited = o ∧ u.hk.powerStage = (if o then 3 else s.hk.powerStage) ∧ u = { s with hk := u.hk }))
  ∧ (∀ s : State, (s.hk.powered = false ∨ s.hk.tripArmed = false → exec .moduleShutdownTrip s = .next s)
    ∧ ∀ k r, s.hk.powered = true → s.hk.tripArmed = true → s.hk.shutdown = some (k :: r) → exec .moduleShutdownTrip s = .next (s.powerOff k))
  ∧ (∀ (s : State) (c k : Nat), (s.hk.tripArmed = true → s.moduleShutdown c k = s)
    ∧ (s.hk.tripArmed = false → ∃ u : State, s.moduleShutdown c k = u ∧ u.hk.tripArmed = true ∧ (∃ l, u.hk.shutdown = some ([k, c] ++ l ++ [s.time.tick]) ∧ l.length = 3)
        ∧ ∃ w, u.ev.inFlight = s.ev.inFlight ++ [w] ∧ w.code = .MODULE_SHUTDOWN ∧ w.args = [k, c, encodeInt 16 (s.hkChan c).reading]))
  ∧ (∀ (s : State) (p c : Nat), ((s.partition p).down = true → s.partitionShutdown p c = s)
    ∧ ((s.partition p).down = false → ∃ w ∈ (s.partitionShutdown p c).ev.inFlight, w.code = .PARTITION_SHUTDOWN ∧ w.args = [p, c, encodeInt 16 (s.hkChan c).reading])
    ∧ ((s.partition p).down = false → s.boot.phase < 3 → ((s.partitionShutdown p c).partition p).down = true ∧ (s.partitionShutdown p c).step = s.step)
    ∧ ((s.partition p).down = false → 3 ≤ s.boot.phase → 80 ≤ p → ((s.partitionShutdown p c).partition p).down = true))
  ∧ (∀ (s : State) (m : Nat), (∀ e ∈ s.reqs, (s.req e.1).resuming = none ∧ ((s.req e.1).st ≠ .ember ∨ (s.req e.1).tier ≠ .moving)) →
      ∀ e ∈ s.reqs, e.2.st = .active → e.1 ∈ (s.mdieLost m).step.excluded)
  ∧ (∀ (s : State) (p : Nat), s.coolEnough p = true ↔ ∀ c ∈ partChans p, (s.hkChan c).reading < 1440 ∧ (s.hkChan c).broken = 0)
  ∧ (∀ (s : State) (v : Nat) (p : Nat), p = bitsOf (s.reg (hkReg Reg.HK_PART_SEL)) 0 7 →
    (s.hk.powered = false ∨ bitOf v 0 = false ∨ (s.partition p).down = false ∨ (s.partition p).releasing = true → exec (.hkPartRelease v) s = .next s)
    ∧ (s.hk.powered = true → bitOf v 0 = true → (s.partition p).down = true → (s.partition p).releasing = false →
      (s.coolEnough p = true → exec (.hkPartRelease v) s = .next (s.releasePart p))
      ∧ (s.coolEnough p = false → ∃ (u : State) (w : EvRec), exec (.hkPartRelease v) s = .next u ∧ u.hk = s.hk ∧ u.ev.inFlight = s.ev.inFlight ++ [w] ∧ w.code = .RELEASE_REFUSED ∧ w.args = [p])))
  ∧ (∀ (s : State) (p : Nat), let x := s.partition p
    (s.hk.powered = false ∨ s.autoRelease = false ∨ x.down = false ∨ x.releasing = true ∨ x.ready = false ∨ s.coolEnough p = false ∨ s.time.tick < x.since + s.releaseHold * tickSecond →
        exec (.autoRelease p) s = .next s)
    ∧ (s.hk.powered = true → s.autoRelease = true → x.down = true → x.releasing = false → x.ready = true → s.coolEnough p = true → x.since + s.releaseHold * tickSecond ≤ s.time.tick →
        exec (.autoRelease p) s = .next (s.releasePart p)))
  ∧ ∀ (s : State) (p : Nat), let x := s.partition p
    let u := s.releasePart p
    (p < 72 → x.retired = false → (u.partition p).down = false ∧ (u.hkChan p).shut = false)
    ∧ (p < 72 → x.retired = true → s.scanning = none → (u.partition p).down = false ∧ (u.scan (p / 9)).st = 2 ∧ (u.scan (p / 9)).mode = 3 ∧ (u.scan (p / 9)).position = p % 9
        ∧ (u.position (p / 9) (p % 9)).underScan = true)
    ∧ (p < 72 → x.retired = true → s.scanning ≠ none → (u.partition p).releasing = true ∧ u.det = s.det)
    ∧ (72 ≤ p → p < 80 → (u.partition p).releasing = true ∧ ∃ r, u.fw.resets = s.fw.resets ++ [r] ∧ r.scope = 2 ∧ r.die = p - 72 ∧ r.positions = s.resettable (p - 72) ∧ r.release = true)
    ∧ (80 ≤ p → p < 84 → ∃ w ∈ u.ev.inFlight, w.code = .MDIE_CONTENT_LOST ∧ w.args = [p - 80])
end

