-- ==== Sys2Proof/Laws/Tab.lean ====
section
/-! SUPPORT. What the sparse table does: read after write, frame, canonical form. -/

set_option linter.unusedSectionVars false

namespace Sys2Proof.Tab

variable {α : Type} [Inhabited α] [DecidableEq α]

@[simp] theorem get_nil (k : Nat) : Tab.get ([] : Tab α) k = default := rfl

theorem get_erase (t : Tab α) (k j : Nat) :
    Tab.get (Tab.erase t k) j = if j = k then default else Tab.get t j := by
  induction t with
  | nil => simp [Tab.erase, Tab.get]
  | cons e r ih =>
    obtain ⟨i, v⟩ := e
    by_cases hik : i = k
    · subst hik
      simp only [Tab.erase, if_true, ih, Tab.get]
      by_cases h : j = i
      · simp [h]
      · simp [h, Ne.symm h]
    · simp only [Tab.erase, hik, if_false, Tab.get, ih]
      by_cases h : i = j
      · subst h; simp [hik]
      · simp [h]

theorem get_insert (t : Tab α) (k j : Nat) (v : α) (h : Tab.get t k = default) (hk : ∀ e ∈ t, e.1 ≠ k) :
    Tab.get (Tab.insert t k v) j = if j = k then v else Tab.get t j := by
  induction t with
  | nil =>
    simp only [Tab.insert, Tab.get]
    by_cases hj : k = j
    · simp [hj]
    · simp [hj, Ne.symm hj]
  | cons e r ih =>
    obtain ⟨i, w⟩ := e
    have hik : i ≠ k := hk (i, w) (by simp)
    have hr : ∀ e ∈ r, e.1 ≠ k := fun e he => hk e (by simp [he])
    simp only [Tab.insert]
    split
    · simp only [Tab.get]
      by_cases hj : k = j
      · simp [hj]
      · simp [hj, Ne.symm hj]
    · have hd : Tab.get r k = default := by simpa [Tab.get, hik] using h
      simp only [Tab.get, ih hd hr]
      by_cases hij : i = j
      · subst hij; simp [hik]
      · simp [hij]

theorem not_mem_erase (t : Tab α) (k : Nat) : ∀ e ∈ Tab.erase t k, e.1 ≠ k := by
  induction t with
  | nil => simp [Tab.erase]
  | cons e r ih =>
    obtain ⟨i, v⟩ := e
    intro e he
    by_cases hik : i = k
    · simp only [Tab.erase, hik, if_true] at he
      exact ih e he
    · simp only [Tab.erase, hik, if_false, List.mem_cons] at he
      rcases he with rfl | he
      · exact hik
      · exact ih e he

/-- Read after write, and a write leaves every other key alone. -/
theorem get_set (t : Tab α) (k j : Nat) (v : α) :
    Tab.get (Tab.set t k v) j = if j = k then v else Tab.get t j := by
  unfold Tab.set
  split
  · next h => subst h; exact get_erase t k j
  · rw [get_insert _ _ _ _ (by simp [get_erase]) (not_mem_erase t k), get_erase]
    by_cases h : j = k <;> simp [h]

@[simp] theorem get_set_same (t : Tab α) (k : Nat) (v : α) : Tab.get (Tab.set t k v) k = v := by
  simp [get_set]

theorem get_set_other (t : Tab α) {k j : Nat} (v : α) (h : j ≠ k) :
    Tab.get (Tab.set t k v) j = Tab.get t j := by
  simp [get_set, h]

theorem get_upd (t : Tab α) (k j : Nat) (f : α → α) :
    Tab.get (Tab.upd t k f) j = if j = k then f (Tab.get t k) else Tab.get t j := get_set t k j _

@[simp] theorem get_upd_same (t : Tab α) (k : Nat) (f : α → α) :
    Tab.get (Tab.upd t k f) k = f (Tab.get t k) := by simp [get_upd]

theorem get_upd_other (t : Tab α) {k j : Nat} (f : α → α) (h : j ≠ k) :
    Tab.get (Tab.upd t k f) j = Tab.get t j := by simp [get_upd, h]

theorem get_setList (t : Tab α) (k j : Nat) (vs : List α) :
    Tab.get (Tab.setList t k vs) j =
      if k ≤ j ∧ j < k + vs.length then vs.getD (j - k) default else Tab.get t j := by
  induction vs generalizing t k with
  | nil => simp [Tab.setList]
  | cons v r ih =>
    simp only [Tab.setList, ih, get_set, List.length_cons]
    by_cases h1 : k + 1 ≤ j ∧ j < k + 1 + r.length
    · have : k ≤ j ∧ j < k + (r.length + 1) := by omega
      rw [if_pos h1, if_pos this]
      have e : j - k = (j - (k + 1)) + 1 := by omega
      rw [e]; simp
    · rw [if_neg h1]
      by_cases h2 : j = k
      · subst h2; simp
      · have : ¬ (k ≤ j ∧ j < k + (r.length + 1)) := by omega
        simp [h2, this]

theorem get_setList_other (t : Tab α) (k j : Nat) (vs : List α) (h : j < k ∨ k + vs.length ≤ j) :
    Tab.get (Tab.setList t k vs) j = Tab.get t j := by
  rw [get_setList, if_neg (by omega)]

theorem getList_setList_same (t : Tab α) (k : Nat) (vs : List α) :
    Tab.getList (Tab.setList t k vs) k vs.length = vs := by
  have key : ∀ (n : Nat) (t' : Tab α) (k' : Nat) (ws : List α), ws.length = n →
      (∀ i, i < n → Tab.get t' (k' + i) = ws.getD i default) → Tab.getList t' k' n = ws := by
    intro n
    induction n with
    | zero => intro t' k' ws hl _; cases ws <;> simp_all [Tab.getList]
    | succ n ih =>
      intro t' k' ws hl h
      cases ws with
      | nil => simp at hl
      | cons w ws =>
        have h0 : Tab.get t' k' = w := by simpa using h 0 (by omega)
        rw [Tab.getList, h0, ih t' (k' + 1) ws (by simpa using hl)]
        intro i hi
        have := h (i + 1) (by omega)
        rw [show k' + 1 + i = k' + (i + 1) by omega, this]
        simp
  refine key _ _ _ _ rfl ?_
  intro i hi
  rw [get_setList, if_pos (by omega)]
  simp

theorem above_erase (t : Tab α) (k i : Nat) (h : Tab.above t i = true) : Tab.above (Tab.erase t k) i = true := by
  induction t with
  | nil => simp [Tab.erase, Tab.above]
  | cons e r ih =>
    obtain ⟨j, v⟩ := e
    simp only [Tab.above, List.all_cons, Bool.and_eq_true, decide_eq_true_eq] at h ih
    by_cases hj : j = k
    · simpa [Tab.erase, hj, Tab.above] using ih h.2
    · have := ih h.2
      simp only [Tab.erase, hj, if_false, Tab.above, List.all_cons, Bool.and_eq_true, decide_eq_true_eq]
      exact ⟨h.1, this⟩

theorem above_insert (t : Tab α) (k i : Nat) (v : α) (h : Tab.above t i = true) (hk : i < k) :
    Tab.above (Tab.insert t k v) i = true := by
  induction t with
  | nil => simp [Tab.insert, Tab.above, hk]
  | cons e r ih =>
    obtain ⟨j, w⟩ := e
    simp only [Tab.above, List.all_cons, Bool.and_eq_true, decide_eq_true_eq] at h ih
    simp only [Tab.insert]
    split
    · simp only [Tab.above, List.all_cons, Bool.and_eq_true, decide_eq_true_eq]
      exact ⟨hk, h.1, h.2⟩
    · simp only [Tab.above, List.all_cons, Bool.and_eq_true, decide_eq_true_eq]
      exact ⟨h.1, ih h.2⟩

theorem wf_erase (t : Tab α) (k : Nat) (h : Tab.wf t = true) : Tab.wf (Tab.erase t k) = true := by
  induction t with
  | nil => simp [Tab.erase, Tab.wf]
  | cons e r ih =>
    obtain ⟨j, v⟩ := e
    simp only [Tab.wf, Bool.and_eq_true] at h
    by_cases hj : j = k
    · simpa [Tab.erase, hj] using ih h.2
    · simp only [Tab.erase, hj, if_false, Tab.wf, Bool.and_eq_true]
      exact ⟨⟨h.1.1, above_erase _ _ _ h.1.2⟩, ih h.2⟩

theorem above_mono (t : Tab α) {i j : Nat} (h : Tab.above t j = true) (hij : i ≤ j) : Tab.above t i = true := by
  simp only [Tab.above, List.all_eq_true, decide_eq_true_eq] at h ⊢
  intro e he
  have := h e he
  omega

theorem wf_insert (t : Tab α) (k : Nat) (v : α) (h : Tab.wf t = true) (hv : v ≠ default)
    (hk : ∀ e ∈ t, e.1 ≠ k) : Tab.wf (Tab.insert t k v) = true := by
  induction t with
  | nil => simp [Tab.insert, Tab.wf, hv, Tab.above]
  | cons e r ih =>
    obtain ⟨j, w⟩ := e
    have hjk : j ≠ k := hk (j, w) (by simp)
    have hr : ∀ e ∈ r, e.1 ≠ k := fun e he => hk e (by simp [he])
    have h' := h
    simp only [Tab.wf, Bool.and_eq_true] at h
    simp only [Tab.insert]
    split
    · next hlt =>
      have ha : Tab.above ((j, w) :: r) k = true := by
        have hr := above_mono r h.1.2 (Nat.le_of_lt hlt)
        simp only [Tab.above, List.all_cons, Bool.and_eq_true, decide_eq_true_eq] at hr ⊢
        exact ⟨hlt, hr⟩
      rw [Tab.wf, h', ha]
      simp [hv]
    · next hlt =>
      have : j < k := by omega
      simp only [Tab.wf, Bool.and_eq_true]
      exact ⟨⟨h.1.1, above_insert _ _ _ _ h.1.2 this⟩, ih h.2 hr⟩

/-- A write keeps the canonical form. -/
theorem wf_set (t : Tab α) (k : Nat) (v : α) (h : Tab.wf t = true) : Tab.wf (Tab.set t k v) = true := by
  unfold Tab.set
  split
  · exact wf_erase t k h
  · next hv => exact wf_insert _ _ _ (wf_erase t k h) hv (not_mem_erase t k)

theorem wf_upd (t : Tab α) (k : Nat) (f : α → α) (h : Tab.wf t = true) : Tab.wf (Tab.upd t k f) = true :=
  wf_set t k _ h

theorem wf_setList (t : Tab α) (k : Nat) (vs : List α) (h : Tab.wf t = true) :
    Tab.wf (Tab.setList t k vs) = true := by
  induction vs generalizing t k with
  | nil => exact h
  | cons v r ih => exact ih _ _ (wf_set t k v h)

theorem get_eraseRange (t : Tab α) (k n j : Nat) :
    Tab.get (Tab.eraseRange t k n) j = if k ≤ j ∧ j < k + n then default else Tab.get t j := by
  induction t with
  | nil => simp [Tab.eraseRange]
  | cons e r ih =>
    obtain ⟨i, v⟩ := e
    simp only [Tab.eraseRange]
    split
    · next hi =>
      simp only [ih, Tab.get]
      by_cases hij : i = j
      · subst hij; simp [hi]
      · simp [hij]
    · next hi =>
      simp only [ih, Tab.get]
      by_cases hij : i = j
      · subst hij; simp [hi]
      · simp [hij]

theorem above_eraseRange (t : Tab α) (k n i : Nat) (h : Tab.above t i = true) :
    Tab.above (Tab.eraseRange t k n) i = true := by
  induction t with
  | nil => simp [Tab.eraseRange, Tab.above]
  | cons e r ih =>
    obtain ⟨j, v⟩ := e
    simp only [Tab.above, List.all_cons, Bool.and_eq_true, decide_eq_true_eq] at h ih
    simp only [Tab.eraseRange]
    split
    · simpa [Tab.above] using ih h.2
    · have := ih h.2
      simp only [Tab.above, List.all_cons, Bool.and_eq_true, decide_eq_true_eq]
      exact ⟨h.1, this⟩

theorem wf_eraseRange (t : Tab α) (k n : Nat) (h : Tab.wf t = true) : Tab.wf (Tab.eraseRange t k n) = true := by
  induction t with
  | nil => simp [Tab.eraseRange, Tab.wf]
  | cons e r ih =>
    obtain ⟨i, v⟩ := e
    simp only [Tab.wf, Bool.and_eq_true] at h
    simp only [Tab.eraseRange]
    split
    · exact ih h.2
    · simp only [Tab.wf, Bool.and_eq_true]
      exact ⟨⟨h.1.1, above_eraseRange _ _ _ _ h.1.2⟩, ih h.2⟩

end Sys2Proof.Tab
end

