-- ==== Sys2Proof/Laws/Kept.lean ====
section
/-! SUPPORT. What every operation of the model leaves alone, and that it keeps the canonical form: the relation and its rules. -/

namespace Sys2Proof.Machine

/-- The number of a zone. -/
def Zone.bit (p : Zone) : Nat :=
  match p with
  | .fresh => 0
  | .regs => 1
  | .live => 2
  | .staged => 3
  | .commit => 4
  | .time => 5
  | .ev => 6
  | .irq => 7
  | .hmem => 8
  | .chans => 9
  | .cq => 10
  | .memory => 11
  | .memctl => 12
  | .wq => 13
  | .seqs => 14
  | .store => 15
  | .sync => 16
  | .flight => 17
  | .pos => 18
  | .boot => 19
  | .hdm => 20
  | .engines => 21
  | .attic => 22
  | .passes => 23
  | .verdicts => 24
  | .runs => 25
  | .stats => 26
  | .troubles => 27
  | .cal => 28
  | .epoch => 29
  | .ash => 30
  | .slots => 31
  | .images => 32
  | .reqs => 33
  | .adapters => 34
  | .tables => 35
  | .pools => 36
  | .step => 37
  | .det => 38
  | .hk => 39
  | .walks => 40
  | .fab => 41
  | .topo => 42
  | .inst => 43
  | .sec => 44
  | .fw => 45
  | .plan => 46

/-- From `s` to `t` only the zones of the mask `W` may change; the queue stays, and the canonical form is kept. -/
structure Kept (W : Nat) (s t : State) : Prop where
  only : ∀ p : Zone, W.testBit p.bit = false → State.same p s t
  pending : t.pending = s.pending
  part : t.part = s.part
  wf : s.wf = true → t.wf = true

/-- The same of a command's outcome. -/
structure KeptO (W : Nat) (s : State) (o : Host.Outcome State Fault Refusal) : Prop where
  of : ∀ t, o = .next t → Kept W s t

theorem mask_trans {a b c : Nat} (h1 : a &&& b = a) (h2 : b &&& c = b) : a &&& c = a := by
  rw [← h1, Nat.and_assoc, h2]

theorem mask_bit {a b i : Nat} (h : a &&& b = a) (hi : a.testBit i = true) : b.testBit i = true := by
  have := congrArg (fun x => x.testBit i) h
  simp [hi] at this
  exact this

theorem Kept.refl (W : Nat) (s : State) : Kept W s s :=
  ⟨fun p _ => by cases p <;> simp [State.same], rfl, rfl, id⟩

theorem kept_ite {W s0} {c : Prop} [Decidable c] {a b : State} (ha : Kept W s0 a) (hb : Kept W s0 b) :
    Kept W s0 (if c then a else b) := by split <;> assumption

theorem kept_iteO {W s0} {c : Prop} [Decidable c] {a b : Host.Outcome State Fault Refusal} (ha : KeptO W s0 a) (hb : KeptO W s0 b) :
    KeptO W s0 (if c then a else b) := by split <;> assumption

theorem kept_next {W s0 t} (h : Kept W s0 t) : KeptO W s0 (.next t) := ⟨fun _ e => by cases e; exact h⟩

theorem kept_fst {α : Type} {W s0} {p : State × α} {a : State} {b : α} (e : p = (a, b)) (h : Kept W s0 p.1) : Kept W s0 a := by
  subst e; exact h

theorem kept_snd {α : Type} {W s0} {p : α × State} {a : State} {b : α} (e : p = (b, a)) (h : Kept W s0 p.2) : Kept W s0 a := by
  subst e; exact h

/-- The same of a state that may be absent. -/
structure KeptOpt (W : Nat) (s : State) (o : Option State) : Prop where
  of : ∀ t, o = some t → Kept W s t

structure KeptEx (W : Nat) (s : State) (o : Except Reject State) : Prop where
  of : ∀ t, o = .ok t → Kept W s t

structure KeptEx2 (W : Nat) (s : State) (o : Except Reject (State × List Nat)) : Prop where
  of : ∀ t l, o = .ok (t, l) → Kept W s t

theorem kept_opt_ok {W s0 t} (h : Kept W s0 t) : KeptOpt W s0 (some t) := ⟨fun _ e => by cases e; exact h⟩
theorem kept_opt_no {W s0} : KeptOpt W s0 none := ⟨fun _ e => by cases e⟩
theorem kept_ex_ok {W s0 t} (h : Kept W s0 t) : KeptEx W s0 (.ok t) := ⟨fun _ e => by cases e; exact h⟩
theorem kept_ex_no {W s0 r} : KeptEx W s0 (.error r) := ⟨fun _ e => by cases e⟩
theorem kept_ex2_ok {W s0 t l} (h : Kept W s0 t) : KeptEx2 W s0 (.ok (t, l)) := ⟨fun _ _ e => by cases e; exact h⟩
theorem kept_ex2_no {W s0 r} : KeptEx2 W s0 (.error r) := ⟨fun _ _ e => by cases e⟩
theorem kept_of_opt {W s0 a o} (e : o = some a) (h : KeptOpt W s0 o) : Kept W s0 a := h.of _ e
theorem kept_of_ex {W s0 a o} (e : o = .ok a) (h : KeptEx W s0 o) : Kept W s0 a := h.of _ e
theorem kept_of_ex2 {W s0 a l o} (e : o = .ok (a, l)) (h : KeptEx2 W s0 o) : Kept W s0 a := h.of _ _ e
theorem kept_ite_opt {W s0} {c : Prop} [Decidable c] {a b : Option State} (ha : KeptOpt W s0 a) (hb : KeptOpt W s0 b) :
    KeptOpt W s0 (if c then a else b) := by split <;> assumption
theorem kept_ite_ex {W s0} {c : Prop} [Decidable c] {a b : Except Reject State} (ha : KeptEx W s0 a) (hb : KeptEx W s0 b) :
    KeptEx W s0 (if c then a else b) := by split <;> assumption
theorem kept_ite_ex2 {W s0} {c : Prop} [Decidable c] {a b : Except Reject (State × List Nat)} (ha : KeptEx2 W s0 a) (hb : KeptEx2 W s0 b) :
    KeptEx2 W s0 (if c then a else b) := by split <;> assumption

theorem kept_foldl {α : Type} {W s0} {f : State → α → State} {s : State} (l : List α)
    (hf : ∀ s x, Kept W s0 s → Kept W s0 (f s x)) (h : Kept W s0 s) : Kept W s0 (l.foldl f s) := by
  induction l generalizing s with
  | nil => exact h
  | cons x r ih => exact ih (hf s x h)

theorem kept_foldl_fst {α β : Type} {W s0} {f : State × β → α → State × β} {s : State × β} (l : List α)
    (hf : ∀ s x, Kept W s0 s.1 → Kept W s0 (f s x).1) (h : Kept W s0 s.1) : Kept W s0 (l.foldl f s).1 := by
  induction l generalizing s with
  | nil => exact h
  | cons x r ih => exact ih (hf s x h)

theorem kept_foldl_snd {α β : Type} {W s0} {f : β × State → α → β × State} {s : β × State} (l : List α)
    (hf : ∀ s x, Kept W s0 s.2 → Kept W s0 (f s x).2) (h : Kept W s0 s.2) : Kept W s0 (l.foldl f s).2 := by
  induction l generalizing s with
  | nil => exact h
  | cons x r ih => exact ih (hf s x h)

theorem kept_foldl_Check {α : Type} {W s0} {f : Check → α → Check} {s : Check} (l : List α)
    (hf : ∀ s x, Kept W s0 s.st → Kept W s0 (f s x).st) (h : Kept W s0 s.st) : Kept W s0 (l.foldl f s).st := by
  induction l generalizing s with
  | nil => exact h
  | cons x r ih => exact ih (hf s x h)

theorem kept_foldl_CopyRd {α : Type} {W s0} {f : CopyRd → α → CopyRd} {s : CopyRd} (l : List α)
    (hf : ∀ s x, Kept W s0 s.st → Kept W s0 (f s x).st) (h : Kept W s0 s.st) : Kept W s0 (l.foldl f s).st := by
  induction l generalizing s with
  | nil => exact h
  | cons x r ih => exact ih (hf s x h)

theorem kept_foldl_DmaRun {α : Type} {W s0} {f : DmaRun → α → DmaRun} {s : DmaRun} (l : List α)
    (hf : ∀ s x, Kept W s0 s.st → Kept W s0 (f s x).st) (h : Kept W s0 s.st) : Kept W s0 (l.foldl f s).st := by
  induction l generalizing s with
  | nil => exact h
  | cons x r ih => exact ih (hf s x h)

theorem kept_foldl_Forming {α : Type} {W s0} {f : Forming → α → Forming} {s : Forming} (l : List α)
    (hf : ∀ s x, Kept W s0 s.st → Kept W s0 (f s x).st) (h : Kept W s0 s.st) : Kept W s0 (l.foldl f s).st := by
  induction l generalizing s with
  | nil => exact h
  | cons x r ih => exact ih (hf s x h)

theorem kept_foldl_InRd {α : Type} {W s0} {f : InRd → α → InRd} {s : InRd} (l : List α)
    (hf : ∀ s x, Kept W s0 s.st → Kept W s0 (f s x).st) (h : Kept W s0 s.st) : Kept W s0 (l.foldl f s).st := by
  induction l generalizing s with
  | nil => exact h
  | cons x r ih => exact ih (hf s x h)

theorem kept_foldl_OpOut {α : Type} {W s0} {f : OpOut → α → OpOut} {s : OpOut} (l : List α)
    (hf : ∀ s x, Kept W s0 s.st → Kept W s0 (f s x).st) (h : Kept W s0 s.st) : Kept W s0 (l.foldl f s).st := by
  induction l generalizing s with
  | nil => exact h
  | cons x r ih => exact ih (hf s x h)

theorem kept_foldl_PageRd {α : Type} {W s0} {f : PageRd → α → PageRd} {s : PageRd} (l : List α)
    (hf : ∀ s x, Kept W s0 s.st → Kept W s0 (f s x).st) (h : Kept W s0 s.st) : Kept W s0 (l.foldl f s).st := by
  induction l generalizing s with
  | nil => exact h
  | cons x r ih => exact ih (hf s x h)

theorem kept_foldl_Rd {α : Type} {W s0} {f : Rd → α → Rd} {s : Rd} (l : List α)
    (hf : ∀ s x, Kept W s0 s.st → Kept W s0 (f s x).st) (h : Kept W s0 s.st) : Kept W s0 (l.foldl f s).st := by
  induction l generalizing s with
  | nil => exact h
  | cons x r ih => exact ih (hf s x h)

theorem kept_foldl_Sampled {α : Type} {W s0} {f : Sampled → α → Sampled} {s : Sampled} (l : List α)
    (hf : ∀ s x, Kept W s0 s.st → Kept W s0 (f s x).st) (h : Kept W s0 s.st) : Kept W s0 (l.foldl f s).st := by
  induction l generalizing s with
  | nil => exact h
  | cons x r ih => exact ih (hf s x h)

theorem kept_foldl_TreeWalk {α : Type} {W s0} {f : TreeWalk → α → TreeWalk} {s : TreeWalk} (l : List α)
    (hf : ∀ s x, Kept W s0 s.st → Kept W s0 (f s x).st) (h : Kept W s0 s.st) : Kept W s0 (l.foldl f s).st := by
  induction l generalizing s with
  | nil => exact h
  | cons x r ih => exact ih (hf s x h)

theorem kept_foldl_Wr {α : Type} {W s0} {f : Wr → α → Wr} {s : Wr} (l : List α)
    (hf : ∀ s x, Kept W s0 s.st → Kept W s0 (f s x).st) (h : Kept W s0 s.st) : Kept W s0 (l.foldl f s).st := by
  induction l generalizing s with
  | nil => exact h
  | cons x r ih => exact ih (hf s x h)

theorem kept_ite_Check {W s0} {c : Prop} [Decidable c] {a b : Check} (ha : Kept W s0 a.st) (hb : Kept W s0 b.st) :
    Kept W s0 (if c then a else b).st := by split <;> assumption

theorem kept_fst_Check {β : Type} {W s0} {p : Check × β} {a b} (e : p = (a, b)) (h : Kept W s0 p.1.st) : Kept W s0 a.st := by
  subst e; exact h

theorem kept_ite_CopyRd {W s0} {c : Prop} [Decidable c] {a b : CopyRd} (ha : Kept W s0 a.st) (hb : Kept W s0 b.st) :
    Kept W s0 (if c then a else b).st := by split <;> assumption

theorem kept_fst_CopyRd {β : Type} {W s0} {p : CopyRd × β} {a b} (e : p = (a, b)) (h : Kept W s0 p.1.st) : Kept W s0 a.st := by
  subst e; exact h

theorem kept_ite_DmaRun {W s0} {c : Prop} [Decidable c] {a b : DmaRun} (ha : Kept W s0 a.st) (hb : Kept W s0 b.st) :
    Kept W s0 (if c then a else b).st := by split <;> assumption

theorem kept_fst_DmaRun {β : Type} {W s0} {p : DmaRun × β} {a b} (e : p = (a, b)) (h : Kept W s0 p.1.st) : Kept W s0 a.st := by
  subst e; exact h

theorem kept_ite_Forming {W s0} {c : Prop} [Decidable c] {a b : Forming} (ha : Kept W s0 a.st) (hb : Kept W s0 b.st) :
    Kept W s0 (if c then a else b).st := by split <;> assumption

theorem kept_fst_Forming {β : Type} {W s0} {p : Forming × β} {a b} (e : p = (a, b)) (h : Kept W s0 p.1.st) : Kept W s0 a.st := by
  subst e; exact h

theorem kept_ite_InRd {W s0} {c : Prop} [Decidable c] {a b : InRd} (ha : Kept W s0 a.st) (hb : Kept W s0 b.st) :
    Kept W s0 (if c then a else b).st := by split <;> assumption

theorem kept_fst_InRd {β : Type} {W s0} {p : InRd × β} {a b} (e : p = (a, b)) (h : Kept W s0 p.1.st) : Kept W s0 a.st := by
  subst e; exact h

theorem kept_ite_OpOut {W s0} {c : Prop} [Decidable c] {a b : OpOut} (ha : Kept W s0 a.st) (hb : Kept W s0 b.st) :
    Kept W s0 (if c then a else b).st := by split <;> assumption

theorem kept_fst_OpOut {β : Type} {W s0} {p : OpOut × β} {a b} (e : p = (a, b)) (h : Kept W s0 p.1.st) : Kept W s0 a.st := by
  subst e; exact h

theorem kept_ite_PageRd {W s0} {c : Prop} [Decidable c] {a b : PageRd} (ha : Kept W s0 a.st) (hb : Kept W s0 b.st) :
    Kept W s0 (if c then a else b).st := by split <;> assumption

theorem kept_fst_PageRd {β : Type} {W s0} {p : PageRd × β} {a b} (e : p = (a, b)) (h : Kept W s0 p.1.st) : Kept W s0 a.st := by
  subst e; exact h

theorem kept_ite_Rd {W s0} {c : Prop} [Decidable c] {a b : Rd} (ha : Kept W s0 a.st) (hb : Kept W s0 b.st) :
    Kept W s0 (if c then a else b).st := by split <;> assumption

theorem kept_fst_Rd {β : Type} {W s0} {p : Rd × β} {a b} (e : p = (a, b)) (h : Kept W s0 p.1.st) : Kept W s0 a.st := by
  subst e; exact h

theorem kept_ite_Sampled {W s0} {c : Prop} [Decidable c] {a b : Sampled} (ha : Kept W s0 a.st) (hb : Kept W s0 b.st) :
    Kept W s0 (if c then a else b).st := by split <;> assumption

theorem kept_fst_Sampled {β : Type} {W s0} {p : Sampled × β} {a b} (e : p = (a, b)) (h : Kept W s0 p.1.st) : Kept W s0 a.st := by
  subst e; exact h

theorem kept_ite_TreeWalk {W s0} {c : Prop} [Decidable c] {a b : TreeWalk} (ha : Kept W s0 a.st) (hb : Kept W s0 b.st) :
    Kept W s0 (if c then a else b).st := by split <;> assumption

theorem kept_fst_TreeWalk {β : Type} {W s0} {p : TreeWalk × β} {a b} (e : p = (a, b)) (h : Kept W s0 p.1.st) : Kept W s0 a.st := by
  subst e; exact h

theorem kept_ite_Wr {W s0} {c : Prop} [Decidable c] {a b : Wr} (ha : Kept W s0 a.st) (hb : Kept W s0 b.st) :
    Kept W s0 (if c then a else b).st := by split <;> assumption

theorem kept_fst_Wr {β : Type} {W s0} {p : Wr × β} {a b} (e : p = (a, b)) (h : Kept W s0 p.1.st) : Kept W s0 a.st := by
  subst e; exact h

theorem kept_ite_fst {α : Type} {W s0} {c : Prop} [Decidable c] {a b : State × α} (ha : Kept W s0 a.1) (hb : Kept W s0 b.1) :
    Kept W s0 (if c then a else b).1 := by split <;> assumption

theorem kept_ite_snd {α : Type} {W s0} {c : Prop} [Decidable c] {a b : α × State} (ha : Kept W s0 a.2) (hb : Kept W s0 b.2) :
    Kept W s0 (if c then a else b).2 := by split <;> assumption

theorem kept_adapters {W s0 s v0} (hW : 17179869184 &&& W = 17179869184) (h : Kept W s0 s) : Kept W s0 { s with adapters := v0 } :=
  ⟨fun p hp => by
    cases p <;> first | exact h.only _ hp | (revert hp; intro hp; simp only [Zone.bit] at hp; first | exact absurd (mask_bit hW (by decide : Nat.testBit 17179869184 34 = true)) (by rw [hp]; decide)),
    h.pending, h.part, h.wf⟩

theorem kept_ash {W s0 s v0} (hW : 1073741824 &&& W = 1073741824) (h : Kept W s0 s) : Kept W s0 { s with ash := v0 } :=
  ⟨fun p hp => by
    cases p <;> first | exact h.only _ hp | (revert hp; intro hp; simp only [Zone.bit] at hp; first | exact absurd (mask_bit hW (by decide : Nat.testBit 1073741824 30 = true)) (by rw [hp]; decide)),
    h.pending, h.part, h.wf⟩

theorem kept_attic {W s0 s v0} (hW : 4194304 &&& W = 4194304) (h : Kept W s0 s) : Kept W s0 { s with attic := v0 } :=
  ⟨fun p hp => by
    cases p <;> first | exact h.only _ hp | (revert hp; intro hp; simp only [Zone.bit] at hp; first | exact absurd (mask_bit hW (by decide : Nat.testBit 4194304 22 = true)) (by rw [hp]; decide)),
    h.pending, h.part, h.wf⟩

theorem kept_boot {W s0 s v0} (hW : 524288 &&& W = 524288) (h : Kept W s0 s) : Kept W s0 { s with boot := v0 } :=
  ⟨fun p hp => by
    cases p <;> first | exact h.only _ hp | (revert hp; intro hp; simp only [Zone.bit] at hp; first | exact absurd (mask_bit hW (by decide : Nat.testBit 524288 19 = true)) (by rw [hp]; decide)),
    h.pending, h.part, h.wf⟩

theorem kept_cal {W s0 s v0} (hW : 268435456 &&& W = 268435456) (h : Kept W s0 s) : Kept W s0 { s with cal := v0 } :=
  ⟨fun p hp => by
    cases p <;> first | exact h.only _ hp | (revert hp; intro hp; simp only [Zone.bit] at hp; first | exact absurd (mask_bit hW (by decide : Nat.testBit 268435456 28 = true)) (by rw [hp]; decide)),
    h.pending, h.part, h.wf⟩

theorem kept_chans {W s0 s v0} (hW : 512 &&& W = 512) (h : Kept W s0 s) : Kept W s0 { s with chans := v0 } :=
  ⟨fun p hp => by
    cases p <;> first | exact h.only _ hp | (revert hp; intro hp; simp only [Zone.bit] at hp; first | exact absurd (mask_bit hW (by decide : Nat.testBit 512 9 = true)) (by rw [hp]; decide)),
    h.pending, h.part, h.wf⟩

theorem kept_commit {W s0 s v0} (hW : 16 &&& W = 16) (h : Kept W s0 s) : Kept W s0 { s with commit := v0 } :=
  ⟨fun p hp => by
    cases p <;> first | exact h.only _ hp | (revert hp; intro hp; simp only [Zone.bit] at hp; first | exact absurd (mask_bit hW (by decide : Nat.testBit 16 4 = true)) (by rw [hp]; decide)),
    h.pending, h.part, h.wf⟩

theorem kept_cq {W s0 s v0} (hW : 1024 &&& W = 1024) (h : Kept W s0 s) : Kept W s0 { s with cq := v0 } :=
  ⟨fun p hp => by
    cases p <;> first | exact h.only _ hp | (revert hp; intro hp; simp only [Zone.bit] at hp; first | exact absurd (mask_bit hW (by decide : Nat.testBit 1024 10 = true)) (by rw [hp]; decide)),
    h.pending, h.part, h.wf⟩

theorem kept_det {W s0 s v0} (hW : 274877906944 &&& W = 274877906944) (h : Kept W s0 s) : Kept W s0 { s with det := v0 } :=
  ⟨fun p hp => by
    cases p <;> first | exact h.only _ hp | (revert hp; intro hp; simp only [Zone.bit] at hp; first | exact absurd (mask_bit hW (by decide : Nat.testBit 274877906944 38 = true)) (by rw [hp]; decide)),
    h.pending, h.part, h.wf⟩

theorem kept_engines {W s0 s v0} (hW : 2097152 &&& W = 2097152) (h : Kept W s0 s) : Kept W s0 { s with engines := v0 } :=
  ⟨fun p hp => by
    cases p <;> first | exact h.only _ hp | (revert hp; intro hp; simp only [Zone.bit] at hp; first | exact absurd (mask_bit hW (by decide : Nat.testBit 2097152 21 = true)) (by rw [hp]; decide)),
    h.pending, h.part, h.wf⟩

theorem kept_epoch {W s0 s v0} (hW : 536870912 &&& W = 536870912) (h : Kept W s0 s) : Kept W s0 { s with epoch := v0 } :=
  ⟨fun p hp => by
    cases p <;> first | exact h.only _ hp | (revert hp; intro hp; simp only [Zone.bit] at hp; first | exact absurd (mask_bit hW (by decide : Nat.testBit 536870912 29 = true)) (by rw [hp]; decide)),
    h.pending, h.part, h.wf⟩

theorem kept_ev {W s0 s v0} (hW : 64 &&& W = 64) (h : Kept W s0 s) : Kept W s0 { s with ev := v0 } :=
  ⟨fun p hp => by
    cases p <;> first | exact h.only _ hp | (revert hp; intro hp; simp only [Zone.bit] at hp; first | exact absurd (mask_bit hW (by decide : Nat.testBit 64 6 = true)) (by rw [hp]; decide)),
    h.pending, h.part, h.wf⟩

theorem kept_fab {W s0 s v0} (hW : 2199023255552 &&& W = 2199023255552) (h : Kept W s0 s) : Kept W s0 { s with fab := v0 } :=
  ⟨fun p hp => by
    cases p <;> first | exact h.only _ hp | (revert hp; intro hp; simp only [Zone.bit] at hp; first | exact absurd (mask_bit hW (by decide : Nat.testBit 2199023255552 41 = true)) (by rw [hp]; decide)),
    h.pending, h.part, h.wf⟩

theorem kept_flight {W s0 s v0} (hW : 131072 &&& W = 131072) (h : Kept W s0 s) : Kept W s0 { s with flight := v0 } :=
  ⟨fun p hp => by
    cases p <;> first | exact h.only _ hp | (revert hp; intro hp; simp only [Zone.bit] at hp; first | exact absurd (mask_bit hW (by decide : Nat.testBit 131072 17 = true)) (by rw [hp]; decide)),
    h.pending, h.part, h.wf⟩

theorem kept_fresh {W s0 s v0} (hW : 1 &&& W = 1) (h : Kept W s0 s) : Kept W s0 { s with fresh := v0 } :=
  ⟨fun p hp => by
    cases p <;> first | exact h.only _ hp | (revert hp; intro hp; simp only [Zone.bit] at hp; first | exact absurd (mask_bit hW (by decide : Nat.testBit 1 0 = true)) (by rw [hp]; decide)),
    h.pending, h.part, h.wf⟩

theorem kept_fw {W s0 s v0} (hW : 35184372088832 &&& W = 35184372088832) (h : Kept W s0 s) : Kept W s0 { s with fw := v0 } :=
  ⟨fun p hp => by
    cases p <;> first | exact h.only _ hp | (revert hp; intro hp; simp only [Zone.bit] at hp; first | exact absurd (mask_bit hW (by decide : Nat.testBit 35184372088832 45 = true)) (by rw [hp]; decide)),
    h.pending, h.part, h.wf⟩

theorem kept_hdmDecoder {W s0 s v0} (hW : 1048576 &&& W = 1048576) (h : Kept W s0 s) : Kept W s0 { s with hdmDecoder := v0 } :=
  ⟨fun p hp => by
    cases p <;> first | exact h.only _ hp | (revert hp; intro hp; simp only [Zone.bit] at hp; first | exact absurd (mask_bit hW (by decide : Nat.testBit 1048576 20 = true)) (by rw [hp]; decide)),
    h.pending, h.part, h.wf⟩

theorem kept_hk {W s0 s v0} (hW : 549755813888 &&& W = 549755813888) (h : Kept W s0 s) : Kept W s0 { s with hk := v0 } :=
  ⟨fun p hp => by
    cases p <;> first | exact h.only _ hp | (revert hp; intro hp; simp only [Zone.bit] at hp; first | exact absurd (mask_bit hW (by decide : Nat.testBit 549755813888 39 = true)) (by rw [hp]; decide)),
    h.pending, h.part, h.wf⟩

theorem kept_images {W s0 s v0} (hW : 4294967296 &&& W = 4294967296) (h : Kept W s0 s) : Kept W s0 { s with images := v0 } :=
  ⟨fun p hp => by
    cases p <;> first | exact h.only _ hp | (revert hp; intro hp; simp only [Zone.bit] at hp; first | exact absurd (mask_bit hW (by decide : Nat.testBit 4294967296 32 = true)) (by rw [hp]; decide)),
    h.pending, h.part, h.wf⟩

theorem kept_inst {W s0 s v0} (hW : 8796093022208 &&& W = 8796093022208) (h : Kept W s0 s) : Kept W s0 { s with inst := v0 } :=
  ⟨fun p hp => by
    cases p <;> first | exact h.only _ hp | (revert hp; intro hp; simp only [Zone.bit] at hp; first | exact absurd (mask_bit hW (by decide : Nat.testBit 8796093022208 43 = true)) (by rw [hp]; decide)),
    h.pending, h.part, h.wf⟩

theorem kept_irq {W s0 s v0} (hW : 128 &&& W = 128) (h : Kept W s0 s) : Kept W s0 { s with irq := v0 } :=
  ⟨fun p hp => by
    cases p <;> first | exact h.only _ hp | (revert hp; intro hp; simp only [Zone.bit] at hp; first | exact absurd (mask_bit hW (by decide : Nat.testBit 128 7 = true)) (by rw [hp]; decide)),
    h.pending, h.part, h.wf⟩

theorem kept_passes {W s0 s v0} (hW : 8388608 &&& W = 8388608) (h : Kept W s0 s) : Kept W s0 { s with passes := v0 } :=
  ⟨fun p hp => by
    cases p <;> first | exact h.only _ hp | (revert hp; intro hp; simp only [Zone.bit] at hp; first | exact absurd (mask_bit hW (by decide : Nat.testBit 8388608 23 = true)) (by rw [hp]; decide)),
    h.pending, h.part, h.wf⟩

theorem kept_plan {W s0 s v0} (hW : 70368744177664 &&& W = 70368744177664) (h : Kept W s0 s) : Kept W s0 { s with plan := v0 } :=
  ⟨fun p hp => by
    cases p <;> first | exact h.only _ hp | (revert hp; intro hp; simp only [Zone.bit] at hp; first | exact absurd (mask_bit hW (by decide : Nat.testBit 70368744177664 46 = true)) (by rw [hp]; decide)),
    h.pending, h.part, h.wf⟩

theorem kept_pools {W s0 s v0} (hW : 68719476736 &&& W = 68719476736) (h : Kept W s0 s) : Kept W s0 { s with pools := v0 } :=
  ⟨fun p hp => by
    cases p <;> first | exact h.only _ hp | (revert hp; intro hp; simp only [Zone.bit] at hp; first | exact absurd (mask_bit hW (by decide : Nat.testBit 68719476736 36 = true)) (by rw [hp]; decide)),
    h.pending, h.part, h.wf⟩

theorem kept_pos {W s0 s v0} (hW : 262144 &&& W = 262144) (h : Kept W s0 s) : Kept W s0 { s with pos := v0 } :=
  ⟨fun p hp => by
    cases p <;> first | exact h.only _ hp | (revert hp; intro hp; simp only [Zone.bit] at hp; first | exact absurd (mask_bit hW (by decide : Nat.testBit 262144 18 = true)) (by rw [hp]; decide)),
    h.pending, h.part, h.wf⟩

theorem kept_reqs {W s0 s v0} (hW : 8589934592 &&& W = 8589934592) (h : Kept W s0 s) : Kept W s0 { s with reqs := v0 } :=
  ⟨fun p hp => by
    cases p <;> first | exact h.only _ hp | (revert hp; intro hp; simp only [Zone.bit] at hp; first | exact absurd (mask_bit hW (by decide : Nat.testBit 8589934592 33 = true)) (by rw [hp]; decide)),
    h.pending, h.part, h.wf⟩

theorem kept_runs {W s0 s v0} (hW : 33554432 &&& W = 33554432) (h : Kept W s0 s) : Kept W s0 { s with runs := v0 } :=
  ⟨fun p hp => by
    cases p <;> first | exact h.only _ hp | (revert hp; intro hp; simp only [Zone.bit] at hp; first | exact absurd (mask_bit hW (by decide : Nat.testBit 33554432 25 = true)) (by rw [hp]; decide)),
    h.pending, h.part, h.wf⟩

theorem kept_sec {W s0 s v0} (hW : 17592186044416 &&& W = 17592186044416) (h : Kept W s0 s) : Kept W s0 { s with sec := v0 } :=
  ⟨fun p hp => by
    cases p <;> first | exact h.only _ hp | (revert hp; intro hp; simp only [Zone.bit] at hp; first | exact absurd (mask_bit hW (by decide : Nat.testBit 17592186044416 44 = true)) (by rw [hp]; decide)),
    h.pending, h.part, h.wf⟩

theorem kept_seqs {W s0 s v0} (hW : 16384 &&& W = 16384) (h : Kept W s0 s) : Kept W s0 { s with seqs := v0 } :=
  ⟨fun p hp => by
    cases p <;> first | exact h.only _ hp | (revert hp; intro hp; simp only [Zone.bit] at hp; first | exact absurd (mask_bit hW (by decide : Nat.testBit 16384 14 = true)) (by rw [hp]; decide)),
    h.pending, h.part, h.wf⟩

theorem kept_slots {W s0 s v0} (hW : 2147483648 &&& W = 2147483648) (h : Kept W s0 s) : Kept W s0 { s with slots := v0 } :=
  ⟨fun p hp => by
    cases p <;> first | exact h.only _ hp | (revert hp; intro hp; simp only [Zone.bit] at hp; first | exact absurd (mask_bit hW (by decide : Nat.testBit 2147483648 31 = true)) (by rw [hp]; decide)),
    h.pending, h.part, h.wf⟩

theorem kept_staged {W s0 s v0} (hW : 8 &&& W = 8) (h : Kept W s0 s) : Kept W s0 { s with staged := v0 } :=
  ⟨fun p hp => by
    cases p <;> first | exact h.only _ hp | (revert hp; intro hp; simp only [Zone.bit] at hp; first | exact absurd (mask_bit hW (by decide : Nat.testBit 8 3 = true)) (by rw [hp]; decide)),
    h.pending, h.part, h.wf⟩

theorem kept_stats {W s0 s v0} (hW : 67108864 &&& W = 67108864) (h : Kept W s0 s) : Kept W s0 { s with stats := v0 } :=
  ⟨fun p hp => by
    cases p <;> first | exact h.only _ hp | (revert hp; intro hp; simp only [Zone.bit] at hp; first | exact absurd (mask_bit hW (by decide : Nat.testBit 67108864 26 = true)) (by rw [hp]; decide)),
    h.pending, h.part, h.wf⟩

theorem kept_step {W s0 s v0} (hW : 137438953472 &&& W = 137438953472) (h : Kept W s0 s) : Kept W s0 { s with step := v0 } :=
  ⟨fun p hp => by
    cases p <;> first | exact h.only _ hp | (revert hp; intro hp; simp only [Zone.bit] at hp; first | exact absurd (mask_bit hW (by decide : Nat.testBit 137438953472 37 = true)) (by rw [hp]; decide)),
    h.pending, h.part, h.wf⟩

theorem kept_store {W s0 s v0} (hW : 32768 &&& W = 32768) (h : Kept W s0 s) : Kept W s0 { s with store := v0 } :=
  ⟨fun p hp => by
    cases p <;> first | exact h.only _ hp | (revert hp; intro hp; simp only [Zone.bit] at hp; first | exact absurd (mask_bit hW (by decide : Nat.testBit 32768 15 = true)) (by rw [hp]; decide)),
    h.pending, h.part, h.wf⟩

theorem kept_sync {W s0 s v0} (hW : 65536 &&& W = 65536) (h : Kept W s0 s) : Kept W s0 { s with sync := v0 } :=
  ⟨fun p hp => by
    cases p <;> first | exact h.only _ hp | (revert hp; intro hp; simp only [Zone.bit] at hp; first | exact absurd (mask_bit hW (by decide : Nat.testBit 65536 16 = true)) (by rw [hp]; decide)),
    h.pending, h.part, h.wf⟩

theorem kept_tables {W s0 s v0} (hW : 34359738368 &&& W = 34359738368) (h : Kept W s0 s) : Kept W s0 { s with tables := v0 } :=
  ⟨fun p hp => by
    cases p <;> first | exact h.only _ hp | (revert hp; intro hp; simp only [Zone.bit] at hp; first | exact absurd (mask_bit hW (by decide : Nat.testBit 34359738368 35 = true)) (by rw [hp]; decide)),
    h.pending, h.part, h.wf⟩

theorem kept_time {W s0 s v0} (hW : 32 &&& W = 32) (h : Kept W s0 s) : Kept W s0 { s with time := v0 } :=
  ⟨fun p hp => by
    cases p <;> first | exact h.only _ hp | (revert hp; intro hp; simp only [Zone.bit] at hp; first | exact absurd (mask_bit hW (by decide : Nat.testBit 32 5 = true)) (by rw [hp]; decide)),
    h.pending, h.part, h.wf⟩

theorem kept_topo {W s0 s v0} (hW : 4398046511104 &&& W = 4398046511104) (h : Kept W s0 s) : Kept W s0 { s with topo := v0 } :=
  ⟨fun p hp => by
    cases p <;> first | exact h.only _ hp | (revert hp; intro hp; simp only [Zone.bit] at hp; first | exact absurd (mask_bit hW (by decide : Nat.testBit 4398046511104 42 = true)) (by rw [hp]; decide)),
    h.pending, h.part, h.wf⟩

theorem kept_troubles {W s0 s v0} (hW : 134217728 &&& W = 134217728) (h : Kept W s0 s) : Kept W s0 { s with troubles := v0 } :=
  ⟨fun p hp => by
    cases p <;> first | exact h.only _ hp | (revert hp; intro hp; simp only [Zone.bit] at hp; first | exact absurd (mask_bit hW (by decide : Nat.testBit 134217728 27 = true)) (by rw [hp]; decide)),
    h.pending, h.part, h.wf⟩

theorem kept_verdicts {W s0 s v0} (hW : 16777216 &&& W = 16777216) (h : Kept W s0 s) : Kept W s0 { s with verdicts := v0 } :=
  ⟨fun p hp => by
    cases p <;> first | exact h.only _ hp | (revert hp; intro hp; simp only [Zone.bit] at hp; first | exact absurd (mask_bit hW (by decide : Nat.testBit 16777216 24 = true)) (by rw [hp]; decide)),
    h.pending, h.part, h.wf⟩

theorem kept_walks {W s0 s v0} (hW : 1099511627776 &&& W = 1099511627776) (h : Kept W s0 s) : Kept W s0 { s with walks := v0 } :=
  ⟨fun p hp => by
    cases p <;> first | exact h.only _ hp | (revert hp; intro hp; simp only [Zone.bit] at hp; first | exact absurd (mask_bit hW (by decide : Nat.testBit 1099511627776 40 = true)) (by rw [hp]; decide)),
    h.pending, h.part, h.wf⟩

theorem kept_wq {W s0 s v0} (hW : 8192 &&& W = 8192) (h : Kept W s0 s) : Kept W s0 { s with wq := v0 } :=
  ⟨fun p hp => by
    cases p <;> first | exact h.only _ hp | (revert hp; intro hp; simp only [Zone.bit] at hp; first | exact absurd (mask_bit hW (by decide : Nat.testBit 8192 13 = true)) (by rw [hp]; decide)),
    h.pending, h.part, h.wf⟩

theorem kept_boot_attic {W s0 s v0 v1} (hW : 4718592 &&& W = 4718592) (h : Kept W s0 s) : Kept W s0 { s with boot := v0, attic := v1 } :=
  ⟨fun p hp => by
    cases p <;> first | exact h.only _ hp | (revert hp; intro hp; simp only [Zone.bit] at hp; first | exact absurd (mask_bit hW (by decide : Nat.testBit 4718592 19 = true)) (by rw [hp]; decide) | exact absurd (mask_bit hW (by decide : Nat.testBit 4718592 22 = true)) (by rw [hp]; decide)),
    h.pending, h.part, h.wf⟩

theorem kept_boot_fab {W s0 s v0 v1} (hW : 2199023779840 &&& W = 2199023779840) (h : Kept W s0 s) : Kept W s0 { s with boot := v0, fab := v1 } :=
  ⟨fun p hp => by
    cases p <;> first | exact h.only _ hp | (revert hp; intro hp; simp only [Zone.bit] at hp; first | exact absurd (mask_bit hW (by decide : Nat.testBit 2199023779840 19 = true)) (by rw [hp]; decide) | exact absurd (mask_bit hW (by decide : Nat.testBit 2199023779840 41 = true)) (by rw [hp]; decide)),
    h.pending, h.part, h.wf⟩

theorem kept_boot_fw {W s0 s v0 v1} (hW : 35184372613120 &&& W = 35184372613120) (h : Kept W s0 s) : Kept W s0 { s with boot := v0, fw := v1 } :=
  ⟨fun p hp => by
    cases p <;> first | exact h.only _ hp | (revert hp; intro hp; simp only [Zone.bit] at hp; first | exact absurd (mask_bit hW (by decide : Nat.testBit 35184372613120 19 = true)) (by rw [hp]; decide) | exact absurd (mask_bit hW (by decide : Nat.testBit 35184372613120 45 = true)) (by rw [hp]; decide)),
    h.pending, h.part, h.wf⟩

theorem kept_boot_hk {W s0 s v0 v1} (hW : 549756338176 &&& W = 549756338176) (h : Kept W s0 s) : Kept W s0 { s with boot := v0, hk := v1 } :=
  ⟨fun p hp => by
    cases p <;> first | exact h.only _ hp | (revert hp; intro hp; simp only [Zone.bit] at hp; first | exact absurd (mask_bit hW (by decide : Nat.testBit 549756338176 19 = true)) (by rw [hp]; decide) | exact absurd (mask_bit hW (by decide : Nat.testBit 549756338176 39 = true)) (by rw [hp]; decide)),
    h.pending, h.part, h.wf⟩

theorem kept_boot_step {W s0 s v0 v1} (hW : 137439477760 &&& W = 137439477760) (h : Kept W s0 s) : Kept W s0 { s with boot := v0, step := v1 } :=
  ⟨fun p hp => by
    cases p <;> first | exact h.only _ hp | (revert hp; intro hp; simp only [Zone.bit] at hp; first | exact absurd (mask_bit hW (by decide : Nat.testBit 137439477760 19 = true)) (by rw [hp]; decide) | exact absurd (mask_bit hW (by decide : Nat.testBit 137439477760 37 = true)) (by rw [hp]; decide)),
    h.pending, h.part, h.wf⟩

theorem kept_fresh_time {W s0 s v0 v1} (hW : 33 &&& W = 33) (h : Kept W s0 s) : Kept W s0 { s with fresh := v0, time := v1 } :=
  ⟨fun p hp => by
    cases p <;> first | exact h.only _ hp | (revert hp; intro hp; simp only [Zone.bit] at hp; first | exact absurd (mask_bit hW (by decide : Nat.testBit 33 0 = true)) (by rw [hp]; decide) | exact absurd (mask_bit hW (by decide : Nat.testBit 33 5 = true)) (by rw [hp]; decide)),
    h.pending, h.part, h.wf⟩

theorem kept_live_commit {W s0 s v0 v1} (hW : 20 &&& W = 20) (h : Kept W s0 s) : Kept W s0 { s with live := v0, commit := v1 } :=
  ⟨fun p hp => by
    cases p <;> first | exact h.only _ hp | (revert hp; intro hp; simp only [Zone.bit] at hp; first | exact absurd (mask_bit hW (by decide : Nat.testBit 20 2 = true)) (by rw [hp]; decide) | exact absurd (mask_bit hW (by decide : Nat.testBit 20 4 = true)) (by rw [hp]; decide)),
    h.pending, h.part, h.wf⟩

theorem kept_step_fab {W s0 s v0 v1} (hW : 2336462209024 &&& W = 2336462209024) (h : Kept W s0 s) : Kept W s0 { s with step := v0, fab := v1 } :=
  ⟨fun p hp => by
    cases p <;> first | exact h.only _ hp | (revert hp; intro hp; simp only [Zone.bit] at hp; first | exact absurd (mask_bit hW (by decide : Nat.testBit 2336462209024 37 = true)) (by rw [hp]; decide) | exact absurd (mask_bit hW (by decide : Nat.testBit 2336462209024 41 = true)) (by rw [hp]; decide)),
    h.pending, h.part, h.wf⟩

theorem kept_step_topo {W s0 s v0 v1} (hW : 4535485464576 &&& W = 4535485464576) (h : Kept W s0 s) : Kept W s0 { s with step := v0, topo := v1 } :=
  ⟨fun p hp => by
    cases p <;> first | exact h.only _ hp | (revert hp; intro hp; simp only [Zone.bit] at hp; first | exact absurd (mask_bit hW (by decide : Nat.testBit 4535485464576 37 = true)) (by rw [hp]; decide) | exact absurd (mask_bit hW (by decide : Nat.testBit 4535485464576 42 = true)) (by rw [hp]; decide)),
    h.pending, h.part, h.wf⟩

theorem kept_time_ev {W s0 s v0 v1} (hW : 96 &&& W = 96) (h : Kept W s0 s) : Kept W s0 { s with time := v0, ev := v1 } :=
  ⟨fun p hp => by
    cases p <;> first | exact h.only _ hp | (revert hp; intro hp; simp only [Zone.bit] at hp; first | exact absurd (mask_bit hW (by decide : Nat.testBit 96 5 = true)) (by rw [hp]; decide) | exact absurd (mask_bit hW (by decide : Nat.testBit 96 6 = true)) (by rw [hp]; decide)),
    h.pending, h.part, h.wf⟩

theorem kept_time_step {W s0 s v0 v1} (hW : 137438953504 &&& W = 137438953504) (h : Kept W s0 s) : Kept W s0 { s with time := v0, step := v1 } :=
  ⟨fun p hp => by
    cases p <;> first | exact h.only _ hp | (revert hp; intro hp; simp only [Zone.bit] at hp; first | exact absurd (mask_bit hW (by decide : Nat.testBit 137438953504 5 = true)) (by rw [hp]; decide) | exact absurd (mask_bit hW (by decide : Nat.testBit 137438953504 37 = true)) (by rw [hp]; decide)),
    h.pending, h.part, h.wf⟩

theorem kept_topo_inst {W s0 s v0 v1} (hW : 13194139533312 &&& W = 13194139533312) (h : Kept W s0 s) : Kept W s0 { s with topo := v0, inst := v1 } :=
  ⟨fun p hp => by
    cases p <;> first | exact h.only _ hp | (revert hp; intro hp; simp only [Zone.bit] at hp; first | exact absurd (mask_bit hW (by decide : Nat.testBit 13194139533312 42 = true)) (by rw [hp]; decide) | exact absurd (mask_bit hW (by decide : Nat.testBit 13194139533312 43 = true)) (by rw [hp]; decide)),
    h.pending, h.part, h.wf⟩

theorem kept_boot_step_fw {W s0 s v0 v1 v2} (hW : 35321811566592 &&& W = 35321811566592) (h : Kept W s0 s) : Kept W s0 { s with boot := v0, step := v1, fw := v2 } :=
  ⟨fun p hp => by
    cases p <;> first | exact h.only _ hp | (revert hp; intro hp; simp only [Zone.bit] at hp; first | exact absurd (mask_bit hW (by decide : Nat.testBit 35321811566592 19 = true)) (by rw [hp]; decide) | exact absurd (mask_bit hW (by decide : Nat.testBit 35321811566592 37 = true)) (by rw [hp]; decide) | exact absurd (mask_bit hW (by decide : Nat.testBit 35321811566592 45 = true)) (by rw [hp]; decide)),
    h.pending, h.part, h.wf⟩

theorem kept_live_commit_boot {W s0 s v0 v1 v2} (hW : 524308 &&& W = 524308) (h : Kept W s0 s) : Kept W s0 { s with live := v0, commit := v1, boot := v2 } :=
  ⟨fun p hp => by
    cases p <;> first | exact h.only _ hp | (revert hp; intro hp; simp only [Zone.bit] at hp; first | exact absurd (mask_bit hW (by decide : Nat.testBit 524308 2 = true)) (by rw [hp]; decide) | exact absurd (mask_bit hW (by decide : Nat.testBit 524308 4 = true)) (by rw [hp]; decide) | exact absurd (mask_bit hW (by decide : Nat.testBit 524308 19 = true)) (by rw [hp]; decide)),
    h.pending, h.part, h.wf⟩

theorem kept_live_staged_commit {W s0 s v0 v1 v2} (hW : 28 &&& W = 28) (h : Kept W s0 s) : Kept W s0 { s with live := v0, staged := v1, commit := v2 } :=
  ⟨fun p hp => by
    cases p <;> first | exact h.only _ hp | (revert hp; intro hp; simp only [Zone.bit] at hp; first | exact absurd (mask_bit hW (by decide : Nat.testBit 28 2 = true)) (by rw [hp]; decide) | exact absurd (mask_bit hW (by decide : Nat.testBit 28 3 = true)) (by rw [hp]; decide) | exact absurd (mask_bit hW (by decide : Nat.testBit 28 4 = true)) (by rw [hp]; decide)),
    h.pending, h.part, h.wf⟩

theorem kept_live_staged_stats {W s0 s v0 v1 v2} (hW : 67108876 &&& W = 67108876) (h : Kept W s0 s) : Kept W s0 { s with live := v0, staged := v1, stats := v2 } :=
  ⟨fun p hp => by
    cases p <;> first | exact h.only _ hp | (revert hp; intro hp; simp only [Zone.bit] at hp; first | exact absurd (mask_bit hW (by decide : Nat.testBit 67108876 2 = true)) (by rw [hp]; decide) | exact absurd (mask_bit hW (by decide : Nat.testBit 67108876 3 = true)) (by rw [hp]; decide) | exact absurd (mask_bit hW (by decide : Nat.testBit 67108876 26 = true)) (by rw [hp]; decide)),
    h.pending, h.part, h.wf⟩

theorem kept_wq_seqs_sync {W s0 s v0 v1 v2} (hW : 90112 &&& W = 90112) (h : Kept W s0 s) : Kept W s0 { s with wq := v0, seqs := v1, sync := v2 } :=
  ⟨fun p hp => by
    cases p <;> first | exact h.only _ hp | (revert hp; intro hp; simp only [Zone.bit] at hp; first | exact absurd (mask_bit hW (by decide : Nat.testBit 90112 13 = true)) (by rw [hp]; decide) | exact absurd (mask_bit hW (by decide : Nat.testBit 90112 14 = true)) (by rw [hp]; decide) | exact absurd (mask_bit hW (by decide : Nat.testBit 90112 16 = true)) (by rw [hp]; decide)),
    h.pending, h.part, h.wf⟩

theorem kept_live_staged_boot_hk {W s0 s v0 v1 v2 v3} (hW : 549756338188 &&& W = 549756338188) (h : Kept W s0 s) : Kept W s0 { s with live := v0, staged := v1, boot := v2, hk := v3 } :=
  ⟨fun p hp => by
    cases p <;> first | exact h.only _ hp | (revert hp; intro hp; simp only [Zone.bit] at hp; first | exact absurd (mask_bit hW (by decide : Nat.testBit 549756338188 2 = true)) (by rw [hp]; decide) | exact absurd (mask_bit hW (by decide : Nat.testBit 549756338188 3 = true)) (by rw [hp]; decide) | exact absurd (mask_bit hW (by decide : Nat.testBit 549756338188 19 = true)) (by rw [hp]; decide) | exact absurd (mask_bit hW (by decide : Nat.testBit 549756338188 39 = true)) (by rw [hp]; decide)),
    h.pending, h.part, h.wf⟩

theorem kept_wq_seqs_sync_fab {W s0 s v0 v1 v2 v3} (hW : 2199023345664 &&& W = 2199023345664) (h : Kept W s0 s) : Kept W s0 { s with wq := v0, seqs := v1, sync := v2, fab := v3 } :=
  ⟨fun p hp => by
    cases p <;> first | exact h.only _ hp | (revert hp; intro hp; simp only [Zone.bit] at hp; first | exact absurd (mask_bit hW (by decide : Nat.testBit 2199023345664 13 = true)) (by rw [hp]; decide) | exact absurd (mask_bit hW (by decide : Nat.testBit 2199023345664 14 = true)) (by rw [hp]; decide) | exact absurd (mask_bit hW (by decide : Nat.testBit 2199023345664 16 = true)) (by rw [hp]; decide) | exact absurd (mask_bit hW (by decide : Nat.testBit 2199023345664 41 = true)) (by rw [hp]; decide)),
    h.pending, h.part, h.wf⟩

theorem kept_verdicts_runs_stats_troubles_step {W s0 s v0 v1 v2 v3 v4} (hW : 137690611712 &&& W = 137690611712) (h : Kept W s0 s) : Kept W s0 { s with verdicts := v0, runs := v1, stats := v2, troubles := v3, step := v4 } :=
  ⟨fun p hp => by
    cases p <;> first | exact h.only _ hp | (revert hp; intro hp; simp only [Zone.bit] at hp; first | exact absurd (mask_bit hW (by decide : Nat.testBit 137690611712 24 = true)) (by rw [hp]; decide) | exact absurd (mask_bit hW (by decide : Nat.testBit 137690611712 25 = true)) (by rw [hp]; decide) | exact absurd (mask_bit hW (by decide : Nat.testBit 137690611712 26 = true)) (by rw [hp]; decide) | exact absurd (mask_bit hW (by decide : Nat.testBit 137690611712 27 = true)) (by rw [hp]; decide) | exact absurd (mask_bit hW (by decide : Nat.testBit 137690611712 37 = true)) (by rw [hp]; decide)),
    h.pending, h.part, h.wf⟩

theorem kept_flight_passes_verdicts_runs_troubles_walks_fab {W s0 s v0 v1 v2 v3 v4 v5 v6} (hW : 3298727952384 &&& W = 3298727952384) (h : Kept W s0 s) : Kept W s0 { s with flight := v0, passes := v1, verdicts := v2, runs := v3, troubles := v4, walks := v5, fab := v6 } :=
  ⟨fun p hp => by
    cases p <;> first | exact h.only _ hp | (revert hp; intro hp; simp only [Zone.bit] at hp; first | exact absurd (mask_bit hW (by decide : Nat.testBit 3298727952384 17 = true)) (by rw [hp]; decide) | exact absurd (mask_bit hW (by decide : Nat.testBit 3298727952384 23 = true)) (by rw [hp]; decide) | exact absurd (mask_bit hW (by decide : Nat.testBit 3298727952384 24 = true)) (by rw [hp]; decide) | exact absurd (mask_bit hW (by decide : Nat.testBit 3298727952384 25 = true)) (by rw [hp]; decide) | exact absurd (mask_bit hW (by decide : Nat.testBit 3298727952384 27 = true)) (by rw [hp]; decide) | exact absurd (mask_bit hW (by decide : Nat.testBit 3298727952384 40 = true)) (by rw [hp]; decide) | exact absurd (mask_bit hW (by decide : Nat.testBit 3298727952384 41 = true)) (by rw [hp]; decide)),
    h.pending, h.part, h.wf⟩

theorem kept_regs {W s0 s v} (hW : 2 &&& W = 2) (hv : Tab.wf s.regs = true → Tab.wf v = true) (h : Kept W s0 s) :
    Kept W s0 { s with regs := v } := by
  refine ⟨fun p hp => ?_, h.pending, h.part, fun hs => ?_⟩
  · cases p <;> first | exact h.only _ hp | (simp only [Zone.bit] at hp; exact absurd (mask_bit hW (by decide : Nat.testBit 2 1 = true)) (by rw [hp]; decide))
  · have := h.wf hs
    simp only [State.wf, Bool.and_eq_true] at this ⊢
    exact ⟨⟨this.1.1, hv this.1.2⟩, this.2⟩

theorem kept_hmem {W s0 s v} (hW : 256 &&& W = 256) (hv : Tab.wf s.hmem = true → Tab.wf v = true) (h : Kept W s0 s) :
    Kept W s0 { s with hmem := v } := by
  refine ⟨fun p hp => ?_, h.pending, h.part, fun hs => ?_⟩
  · cases p <;> first | exact h.only _ hp | (simp only [Zone.bit] at hp; exact absurd (mask_bit hW (by decide : Nat.testBit 256 8 = true)) (by rw [hp]; decide))
  · have := h.wf hs
    simp only [State.wf, Bool.and_eq_true] at this ⊢
    exact ⟨this.1, hv this.2⟩

theorem kept_memory {W s0 s} {m : Mem} (hW : 2048 &&& W = 2048)
    (hc : m.atoms = s.mem.atoms ∧ m.hostLine = s.mem.hostLine ∧ m.hostPoison = s.mem.hostPoison ∧ m.regions = s.mem.regions
      ∧ m.poweringUp = s.mem.poweringUp ∧ m.coreWait = s.mem.coreWait ∧ m.row = s.mem.row ∧ m.patrol = s.mem.patrol)
    (hm : s.mem.wf = true → m.wf = true) (h : Kept W s0 s) : Kept W s0 { s with mem := m } := by
  refine ⟨fun p hp => ?_, h.pending, h.part, fun hs => ?_⟩
  · cases p <;> first | exact h.only _ hp | skip
    · simp only [Zone.bit] at hp
      exact absurd (mask_bit hW (by decide : Nat.testBit 2048 11 = true)) (by rw [hp]; decide)
    · have := h.only .memctl hp
      obtain ⟨h1, h2, h3, h4, h5, h6, h7, h8⟩ := this
      obtain ⟨c1, c2, c3, c4, c5, c6, c7, c8⟩ := hc
      exact ⟨c1.trans h1, c2.trans h2, c3.trans h3, c4.trans h4, c5.trans h5, c6.trans h6, c7.trans h7, c8.trans h8⟩
  · have := h.wf hs
    simp only [State.wf, Bool.and_eq_true] at this ⊢
    exact ⟨⟨hm this.1.1, this.1.2⟩, this.2⟩

theorem kept_memctl {W s0 s} {m : Mem} (hW : 4096 &&& W = 4096)
    (hm : m.bytes = s.mem.bytes ∧ m.tiles = s.mem.tiles ∧ m.guard = s.mem.guard ∧ m.sums = s.mem.sums)
    (h : Kept W s0 s) : Kept W s0 { s with mem := m } := by
  refine ⟨fun p hp => ?_, h.pending, h.part, fun hs => ?_⟩
  · cases p <;> first | exact h.only _ hp | skip
    · have := h.only .memory hp
      obtain ⟨h1, h2, h3, h4⟩ := this
      obtain ⟨c1, c2, c3, c4⟩ := hm
      exact ⟨c1.trans h1, c2.trans h2, c3.trans h3, c4.trans h4⟩
    · simp only [Zone.bit] at hp
      exact absurd (mask_bit hW (by decide : Nat.testBit 4096 12 = true)) (by rw [hp]; decide)
  · have := h.wf hs
    simp only [State.wf, Mem.wf, Bool.and_eq_true] at this ⊢
    obtain ⟨c1, c2, c3, _⟩ := hm
    rw [c1, c2, c3]
    exact this

theorem kept_guard {W s0 s v} (hW : 2048 &&& W = 2048) (hv : Tab.wf s.mem.guard = true → Tab.wf v = true) (h : Kept W s0 s) :
    Kept W s0 { s with mem := { s.mem with guard := v } } := by
  refine kept_memory hW ⟨rfl, rfl, rfl, rfl, rfl, rfl, rfl, rfl⟩ (fun h => ?_) h
  simp only [Mem.wf, Bool.and_eq_true] at h ⊢
  exact ⟨⟨h.1.1, h.1.2⟩, hv h.2⟩

theorem kept_sums {W s0 s v} (hW : 2048 &&& W = 2048) (h : Kept W s0 s) : Kept W s0 { s with mem := { s.mem with sums := v } } :=
  kept_memory hW ⟨rfl, rfl, rfl, rfl, rfl, rfl, rfl, rfl⟩ (fun h => h) h

theorem kept_hostLine {W s0 s l b} (hW : 4096 &&& W = 4096) (h : Kept W s0 s) :
    Kept W s0 { s with mem := { s.mem with hostLine := l, hostPoison := b } } :=
  kept_memctl hW ⟨rfl, rfl, rfl, rfl⟩ h

theorem kept_atoms {W s0 s l} (hW : 4096 &&& W = 4096) (h : Kept W s0 s) :
    Kept W s0 { s with mem := { s.mem with atoms := l } } :=
  kept_memctl hW ⟨rfl, rfl, rfl, rfl⟩ h

theorem kept_atomGuard {W s0 s l v} (hW : 2048 &&& W = 2048) (hW2 : 4096 &&& W = 4096)
    (hv : Tab.wf s.mem.guard = true → Tab.wf v = true) (h : Kept W s0 s) :
    Kept W s0 { s with mem := { s.mem with atoms := l, guard := v } } :=
  kept_guard (s := { s with mem := { s.mem with atoms := l } }) hW hv (kept_atoms hW2 h)

theorem kept_allMem {W s0 s m} (hW : 2048 &&& W = 2048) (hW2 : 4096 &&& W = 4096)
    (hm : s.mem.wf = true → m.wf = true) (h : Kept W s0 s) : Kept W s0 { s with mem := m } := by
  refine ⟨fun p hp => ?_, h.pending, h.part, fun hs => ?_⟩
  · cases p <;> first
      | exact h.only _ hp
      | exact absurd (mask_bit hW (by decide : Nat.testBit 2048 11 = true)) (by rw [show W.testBit 11 = false from hp]; decide)
      | exact absurd (mask_bit hW2 (by decide : Nat.testBit 4096 12 = true)) (by rw [show W.testBit 12 = false from hp]; decide)
  · have := h.wf hs
    simp only [State.wf, Bool.and_eq_true] at this ⊢
    exact ⟨⟨hm this.1.1, this.1.2⟩, this.2⟩

theorem acts_nil {P : Bool × (State → Host.Outcome State Fault Refusal) → Prop} : ∀ x ∈ ([] : List _), P x := by simp

theorem acts_cons {W s0} {b : Bool} {f : State → Host.Outcome State Fault Refusal} {r}
    (hf : ∀ s, Kept W s0 s → KeptO W s0 (f s)) (hr : ∀ x ∈ r, ∀ s, Kept W s0 s → KeptO W s0 (x.2 s)) :
    ∀ x ∈ (b, f) :: r, ∀ s, Kept W s0 s → KeptO W s0 (x.2 s) := by
  intro x hx
  rcases List.mem_cons.1 hx with rfl | h
  · exact hf
  · exact hr x h

theorem wf_eraseRanges {α : Type} (l : List α) (f g : α → Nat) {t : Tab Int} (h : Tab.wf t = true) :
    Tab.wf (l.foldl (fun t r => Tab.eraseRange t (f r) (g r)) t) = true := by
  induction l generalizing t with
  | nil => exact h
  | cons x r ih => exact ih (Tab.wf_eraseRange _ _ _ h)

theorem wf_guards (l : List Nat) (f : Nat → Nat) {g : Tab Int} (h : Tab.wf g = true) :
    Tab.wf (l.foldl (fun g i => Tab.set g (f i) 0) g) = true := by
  induction l generalizing g with
  | nil => exact h
  | cons x r ih => exact ih (Tab.wf_set _ _ _ h)

end Sys2Proof.Machine
end

