-- ==== Sys2Proof/Laws/KeptOps.lean ====
section
/-! SUPPORT. What each operation leaves alone, and that it keeps the canonical form: what every command is written with. -/

set_option linter.all false
set_option linter.unreachableTactic false
set_option linter.unusedTactic false
set_option linter.unusedVariables false

namespace Sys2Proof.Machine

theorem State.domainRuns_kept {W s0 a0 a1} (hW : 33 &&& W = 33) (h0 : Kept W s0 a0) :
    Kept W s0 (State.domainRuns a0 a1) := by
  unfold State.domainRuns
  repeat' first
    | with_reducible assumption
    | fail_if_no_progress (with_reducible apply kept_fresh_time; exact mask_trans (by decide) hW)

theorem State.raise_kept {W s0 a0 a1 a2 a3 a4} (hW : 97 &&& W = 97) (h0 : Kept W s0 a0) :
    Kept W s0 (State.raise a0 a1 a2 a3 a4) := by
  unfold State.raise
  repeat' first
    | with_reducible assumption
    | (with_reducible apply State.domainRuns_kept; exact mask_trans (by decide) hW)
    | fail_if_no_progress (with_reducible apply kept_ev; exact mask_trans (by decide) hW)

theorem State.setReg_kept {W s0 a0 a1 a2} (hW : 2 &&& W = 2) (h0 : Kept W s0 a0) :
    Kept W s0 (State.setReg a0 a1 a2) := by
  exact kept_regs hW (fun h => Tab.wf_set _ _ _ h) h0

theorem State.bump_kept {W s0 a0 a1 a2} (hW : 2 &&& W = 2) (h0 : Kept W s0 a0) :
    Kept W s0 (State.bump a0 a1 a2) := by
  unfold State.bump
  repeat' first
    | with_reducible assumption
    | (with_reducible apply State.setReg_kept; exact mask_trans (by decide) hW)

theorem State.reportBlocked_kept {W s0 a0 a1 a2 a3} (hW : 99 &&& W = 99) (h0 : Kept W s0 a0) :
    Kept W s0 (State.reportBlocked a0 a1 a2 a3) := by
  unfold State.reportBlocked
  repeat' first
    | with_reducible assumption
    | (with_reducible apply State.raise_kept; exact mask_trans (by decide) hW)
    | (with_reducible apply State.bump_kept; exact mask_trans (by decide) hW)
    | split

theorem State.setTile_kept {W s0 a0 a1 a2} (hW : 2048 &&& W = 2048) (h0 : Kept W s0 a0) :
    Kept W s0 (State.setTile a0 a1 a2) := by
  refine kept_memory hW ⟨rfl, rfl, rfl, rfl, rfl, rfl, rfl, rfl⟩ (fun h => ?_) h0
  simp only [Mem.wf, Bool.and_eq_true] at h ⊢
  exact ⟨⟨h.1.1, Tab.wf_set _ _ _ h.1.2⟩, h.2⟩

theorem State.guardRead_kept {W s0 a0 a1} (hW : 2050 &&& W = 2050) (h0 : Kept W s0 a0) :
    Kept W s0 (State.guardRead a0 a1) := by
  unfold State.guardRead
  repeat' first
    | with_reducible assumption
    | with_reducible apply kept_ite
    | (with_reducible apply State.bump_kept; exact mask_trans (by decide) hW)
    | (with_reducible apply State.setTile_kept; exact mask_trans (by decide) hW)
    | dsimp only
    | split

theorem State.touchUnit_kept {W s0 a0 a1 a2} (hW : 4096 &&& W = 4096) (h0 : Kept W s0 a0) :
    Kept W s0 (State.touchUnit a0 a1 a2) := by
  unfold State.touchUnit
  repeat' first
    | with_reducible assumption
    | fail_if_no_progress (with_reducible apply kept_memctl; exact mask_trans (by decide) hW; exact ⟨rfl, rfl, rfl, rfl⟩)

theorem State.touch_kept {W s0 a0 a1} (hW : 4096 &&& W = 4096) (h0 : Kept W s0 a0) :
    Kept W s0 (State.touch a0 a1) := by
  unfold State.touch
  repeat' first
    | with_reducible assumption
    | (with_reducible apply State.touchUnit_kept; exact mask_trans (by decide) hW)
    | with_reducible apply kept_foldl
    | with_reducible intro _ _ _
    | split

theorem State.countPoison_kept {W s0 a0 a1} (hW : 2 &&& W = 2) (h0 : Kept W s0 a0) :
    Kept W s0 (State.countPoison a0 a1) := by
  unfold State.countPoison
  repeat' first
    | with_reducible assumption
    | (with_reducible apply State.bump_kept; exact mask_trans (by decide) hW)
    | split

theorem State.countFail_kept {W s0 a0 a1} (hW : 2 &&& W = 2) (h0 : Kept W s0 a0) :
    Kept W s0 (State.countFail a0 a1) := by
  unfold State.countFail
  repeat' first
    | with_reducible assumption
    | (with_reducible apply State.bump_kept; exact mask_trans (by decide) hW)
    | split

theorem State.countRetry_kept {W s0 a0 a1} (hW : 2 &&& W = 2) (h0 : Kept W s0 a0) :
    Kept W s0 (State.countRetry a0 a1) := by
  unfold State.countRetry
  repeat' first
    | with_reducible assumption
    | (with_reducible apply State.bump_kept; exact mask_trans (by decide) hW)
    | split

theorem State.putBytes_kept {W s0 a0 a1 a2} (hW : 2048 &&& W = 2048) (h0 : Kept W s0 a0) :
    Kept W s0 (State.putBytes a0 a1 a2) := by
  refine kept_memory hW ⟨rfl, rfl, rfl, rfl, rfl, rfl, rfl, rfl⟩ (fun h => ?_) h0
  simp only [Mem.wf, Bool.and_eq_true] at h ⊢
  exact ⟨⟨Tab.wf_setList _ _ _ h.1.1, h.1.2⟩, wf_guards _ _ h.2⟩

theorem State.poison_kept {W s0 a0 a1} (hW : 2048 &&& W = 2048) (h0 : Kept W s0 a0) :
    Kept W s0 (State.poison a0 a1) := by
  unfold State.poison
  repeat' first
    | with_reducible assumption
    | (with_reducible apply State.setTile_kept; exact mask_trans (by decide) hW)

theorem State.check_kept {W s0 a0 a1 a2} (hW : 2147 &&& W = 2147) (h0 : Kept W s0 a0) :
    Kept W s0 (State.check a0 a1 a2).st := by
  unfold State.check
  repeat' first
    | with_reducible assumption
    | with_reducible apply kept_ite
    | with_reducible apply kept_ite_Check
    | (with_reducible apply State.countPoison_kept; exact mask_trans (by decide) hW)
    | (with_reducible apply State.countFail_kept; exact mask_trans (by decide) hW)
    | (with_reducible apply State.countRetry_kept; exact mask_trans (by decide) hW)
    | (with_reducible apply State.setTile_kept; exact mask_trans (by decide) hW)
    | (with_reducible apply State.putBytes_kept; exact mask_trans (by decide) hW)
    | (with_reducible apply State.raise_kept; exact mask_trans (by decide) hW)
    | (with_reducible apply State.poison_kept; exact mask_trans (by decide) hW)
    | dsimp only
    | split

theorem State.readPiece_kept {W s0 a0 a1 a2} (hW : 6243 &&& W = 6243) (h0 : Kept W s0 a0) :
    Kept W s0 (State.readPiece a0 a1 a2).st := by
  unfold State.readPiece
  repeat' first
    | with_reducible assumption
    | with_reducible apply kept_ite_Check
    | (with_reducible apply State.guardRead_kept; exact mask_trans (by decide) hW)
    | (with_reducible apply State.touch_kept; exact mask_trans (by decide) hW)
    | (with_reducible apply State.check_kept; exact mask_trans (by decide) hW)
    | (with_reducible apply State.bump_kept; exact mask_trans (by decide) hW)
    | (with_reducible apply State.countPoison_kept; exact mask_trans (by decide) hW)
    | dsimp only
    | split

theorem State.reduceCheck_kept {W s0 a0 a1 a2} (hW : 2147 &&& W = 2147) (h0 : Kept W s0 a0) :
    Kept W s0 (State.reduceCheck a0 a1 a2).st := by
  unfold State.reduceCheck
  repeat' first
    | with_reducible assumption
    | with_reducible apply kept_ite_Check
    | (with_reducible apply State.bump_kept; exact mask_trans (by decide) hW)
    | (with_reducible apply State.raise_kept; exact mask_trans (by decide) hW)
    | (with_reducible apply State.poison_kept; exact mask_trans (by decide) hW)
    | dsimp only
    | split

theorem State.readChecked_kept {W s0 a0 a1 a2} (hW : 6243 &&& W = 6243) (h0 : Kept W s0 a0) :
    Kept W s0 (State.readChecked a0 a1 a2).st := by
  unfold State.readChecked
  repeat' first
    | with_reducible assumption
    | with_reducible apply kept_ite_Check
    | (with_reducible apply State.readPiece_kept; exact mask_trans (by decide) hW)
    | (with_reducible apply State.reduceCheck_kept; exact mask_trans (by decide) hW)

theorem State.readPieces_kept {W s0 a0 a1 a2} (hW : 6243 &&& W = 6243) (h0 : Kept W s0 a0) :
    Kept W s0 (State.readPieces a0 a1 a2).st := by
  fun_induction State.readPieces a0 a1 a2
  all_goals
    repeat' first
      | with_reducible assumption
      | (with_reducible apply State.readChecked_kept; exact mask_trans (by decide) hW)
      | with_reducible apply_assumption

theorem State.waited_kept {W s0 a0 a1 a2} (hW : 4099 &&& W = 4099) (h0 : Kept W s0 a0) :
    Kept W s0 (State.waited a0 a1 a2) := by
  unfold State.waited
  repeat' first
    | with_reducible assumption
    | with_reducible apply kept_ite
    | (with_reducible apply State.bump_kept; exact mask_trans (by decide) hW)
    | fail_if_no_progress (with_reducible apply kept_memctl; exact mask_trans (by decide) hW; exact ⟨rfl, rfl, rfl, rfl⟩)
    | fail_if_no_progress (with_reducible apply kept_fresh; exact mask_trans (by decide) hW)
    | split

theorem State.read_kept {W s0 a0 a1 a2 a3} (hW : 6243 &&& W = 6243) (h0 : Kept W s0 a0) :
    Kept W s0 (State.read a0 a1 a2 a3).st := by
  unfold State.read
  repeat' first
    | with_reducible assumption
    | (with_reducible apply State.reportBlocked_kept; exact mask_trans (by decide) hW)
    | (with_reducible apply State.readPieces_kept; exact mask_trans (by decide) hW)
    | (with_reducible apply State.waited_kept; exact mask_trans (by decide) hW)
    | split

theorem DmaRun.get_kept {W s0 a0 a1 a2 a3} (hW : 6243 &&& W = 6243) (h0 : Kept W s0 a0.st) :
    Kept W s0 (DmaRun.get a0 a1 a2 a3).1.st := by
  unfold DmaRun.get
  repeat' first
    | with_reducible assumption
    | (with_reducible apply State.read_kept; exact mask_trans (by decide) hW)
    | dsimp only
    | split

theorem State.writePiece_kept {W s0 a0 a1 a2 a3} (hW : 6144 &&& W = 6144) (h0 : Kept W s0 a0) :
    Kept W s0 (State.writePiece a0 a1 a2 a3) := by
  unfold State.writePiece
  repeat' first
    | with_reducible assumption
    | with_reducible apply kept_ite
    | (with_reducible apply State.putBytes_kept; exact mask_trans (by decide) hW)
    | (with_reducible apply State.touch_kept; exact mask_trans (by decide) hW)
    | (with_reducible apply State.setTile_kept; exact mask_trans (by decide) hW)

theorem State.writePieces_kept {W s0 a0 a1 a2 a3} (hW : 6144 &&& W = 6144) (h0 : Kept W s0 a0) :
    Kept W s0 (State.writePieces a0 a1 a2 a3) := by
  fun_induction State.writePieces a0 a1 a2 a3
  all_goals
    repeat' first
      | with_reducible assumption
      | (with_reducible apply State.writePiece_kept; exact mask_trans (by decide) hW)
      | with_reducible apply_assumption

theorem State.poisonRange_kept {W s0 a0 a1 a2} (hW : 2048 &&& W = 2048) (h0 : Kept W s0 a0) :
    Kept W s0 (State.poisonRange a0 a1 a2) := by
  unfold State.poisonRange
  repeat' first
    | with_reducible assumption
    | with_reducible apply kept_ite
    | (with_reducible apply State.poison_kept; exact mask_trans (by decide) hW)
    | with_reducible apply kept_foldl
    | with_reducible intro _ _ _

theorem State.copy_kept {W s0 a0 a1 a2 a3 a4} (hW : 6243 &&& W = 6243) (h0 : Kept W s0 a0) :
    Kept W s0 (State.copy a0 a1 a2 a3 a4).st := by
  unfold State.copy
  repeat' first
    | with_reducible assumption
    | with_reducible apply kept_ite_Rd
    | (with_reducible apply State.reportBlocked_kept; exact mask_trans (by decide) hW)
    | (with_reducible apply State.read_kept; exact mask_trans (by decide) hW)
    | (with_reducible apply State.waited_kept; exact mask_trans (by decide) hW)
    | (with_reducible apply State.writePieces_kept; exact mask_trans (by decide) hW)
    | (with_reducible apply State.poisonRange_kept; exact mask_trans (by decide) hW)
    | dsimp only
    | split

theorem State.write_kept {W s0 a0 a1 a2 a3 a4} (hW : 6243 &&& W = 6243) (h0 : Kept W s0 a0) :
    Kept W s0 (State.write a0 a1 a2 a3 a4).st := by
  unfold State.write
  repeat' first
    | with_reducible assumption
    | (with_reducible apply State.reportBlocked_kept; exact mask_trans (by decide) hW)
    | (with_reducible apply State.writePieces_kept; exact mask_trans (by decide) hW)
    | (with_reducible apply State.waited_kept; exact mask_trans (by decide) hW)
    | split

theorem DmaRun.move_kept {W s0 a0 a1 a2 a3 a4} (hW : 6243 &&& W = 6243) (h0 : Kept W s0 a0.st) :
    Kept W s0 (DmaRun.move a0 a1 a2 a3 a4).st := by
  unfold DmaRun.move
  repeat' first
    | with_reducible assumption
    | with_reducible apply kept_ite_DmaRun
    | (with_reducible apply State.copy_kept; exact mask_trans (by decide) hW)
    | (with_reducible apply DmaRun.get_kept; exact mask_trans (by decide) hW)
    | (with_reducible apply State.write_kept; exact mask_trans (by decide) hW)

theorem State.zeroTiles_kept {W s0 a0 a1 a2} (hW : 2048 &&& W = 2048) (h0 : Kept W s0 a0) :
    Kept W s0 (State.zeroTiles a0 a1 a2) := by
  refine kept_memory hW ⟨rfl, rfl, rfl, rfl, rfl, rfl, rfl, rfl⟩ (fun h => ?_) h0
  simp only [Mem.wf, Bool.and_eq_true] at h ⊢
  exact ⟨⟨Tab.wf_eraseRange _ _ _ h.1.1, Tab.wf_eraseRange _ _ _ h.1.2⟩, Tab.wf_eraseRange _ _ _ h.2⟩

theorem State.setChan_kept {W s0 a0 a1 a2} (hW : 512 &&& W = 512) (h0 : Kept W s0 a0) :
    Kept W s0 (State.setChan a0 a1 a2) := by
  unfold State.setChan
  repeat' first
    | with_reducible assumption
    | fail_if_no_progress (with_reducible apply kept_chans; exact mask_trans (by decide) hW)

theorem State.interrupt_kept {W s0 a0 a1} (hW : 128 &&& W = 128) (h0 : Kept W s0 a0) :
    Kept W s0 (State.interrupt a0 a1) := by
  unfold State.interrupt
  repeat' first
    | with_reducible assumption
    | fail_if_no_progress (with_reducible apply kept_irq; exact mask_trans (by decide) hW)

theorem State.coalesce_kept {W s0 a0 a1 a2} (hW : 640 &&& W = 640) (h0 : Kept W s0 a0) :
    Kept W s0 (State.coalesce a0 a1 a2) := by
  unfold State.coalesce
  repeat' first
    | with_reducible assumption
    | with_reducible apply kept_ite
    | (with_reducible apply State.interrupt_kept; exact mask_trans (by decide) hW)
    | (with_reducible apply State.setChan_kept; exact mask_trans (by decide) hW)

theorem State.cqWrite_kept {W s0 a0 a1 a2 a3} (hW : 1664 &&& W = 1664) (h0 : Kept W s0 a0) :
    Kept W s0 (State.cqWrite a0 a1 a2 a3) := by
  unfold State.cqWrite
  repeat' first
    | with_reducible assumption
    | (with_reducible apply State.coalesce_kept; exact mask_trans (by decide) hW)
    | (with_reducible apply State.setChan_kept; exact mask_trans (by decide) hW)
    | fail_if_no_progress (with_reducible apply kept_cq; exact mask_trans (by decide) hW)

theorem State.complete_kept {W s0 a0 a1 a2 a3} (hW : 1664 &&& W = 1664) (h0 : Kept W s0 a0) :
    Kept W s0 (State.complete a0 a1 a2 a3) := by
  unfold State.complete
  repeat' first
    | with_reducible assumption
    | with_reducible apply kept_ite
    | (with_reducible apply State.setChan_kept; exact mask_trans (by decide) hW)
    | (with_reducible apply State.cqWrite_kept; exact mask_trans (by decide) hW)

theorem State.stopSequencers_kept {W s0 a0} (hW : 16384 &&& W = 16384) (h0 : Kept W s0 a0) :
    Kept W s0 (State.stopSequencers a0) := by
  unfold State.stopSequencers
  repeat' first
    | with_reducible assumption
    | fail_if_no_progress (with_reducible apply kept_seqs; exact mask_trans (by decide) hW)

theorem State.setQueue_kept {W s0 a0 a1 a2} (hW : 8192 &&& W = 8192) (h0 : Kept W s0 a0) :
    Kept W s0 (State.setQueue a0 a1 a2) := by
  unfold State.setQueue
  repeat' first
    | with_reducible assumption
    | fail_if_no_progress (with_reducible apply kept_wq; exact mask_trans (by decide) hW)

theorem State.flushQueue_kept {W s0 a0 a1} (hW : 8291 &&& W = 8291) (h0 : Kept W s0 a0) :
    Kept W s0 (State.flushQueue a0 a1) := by
  unfold State.flushQueue
  repeat' first
    | with_reducible assumption
    | (with_reducible apply State.raise_kept; exact mask_trans (by decide) hW)
    | (with_reducible apply State.bump_kept; exact mask_trans (by decide) hW)
    | (with_reducible apply State.setQueue_kept; exact mask_trans (by decide) hW)

theorem State.dropStep_kept {W s0 a0} (hW : 3298727977059 &&& W = 3298727977059) (h0 : Kept W s0 a0) :
    Kept W s0 (State.dropStep a0) := by
  unfold State.dropStep
  repeat' first
    | with_reducible assumption
    | (with_reducible apply State.stopSequencers_kept; exact mask_trans (by decide) hW)
    | (with_reducible apply State.flushQueue_kept; exact mask_trans (by decide) hW)
    | fail_if_no_progress (with_reducible apply kept_flight_passes_verdicts_runs_troubles_walks_fab; exact mask_trans (by decide) hW)
    | with_reducible apply kept_foldl
    | with_reducible intro _ _ _

theorem State.abandon_kept {W s0 a0 a1 a2 a3 a4} (hW : 3436166930531 &&& W = 3436166930531) (h0 : Kept W s0 a0) :
    Kept W s0 (State.abandon a0 a1 a2 a3 a4) := by
  unfold State.abandon
  repeat' first
    | with_reducible assumption
    | with_reducible apply kept_ite
    | (with_reducible apply State.dropStep_kept; exact mask_trans (by decide) hW)
    | (with_reducible apply State.bump_kept; exact mask_trans (by decide) hW)
    | (with_reducible apply State.raise_kept; exact mask_trans (by decide) hW)
    | fail_if_no_progress (with_reducible apply kept_step; exact mask_trans (by decide) hW)

theorem State.hostWrites_kept {W s0 a0 a1} (hW : 256 &&& W = 256) (h0 : Kept W s0 a0) :
    Kept W s0 (State.hostWrites a0 a1) := by
  induction a1 generalizing a0 with
  | nil => exact h0
  | cons x r ih => exact ih (kept_hmem hW (fun h => Tab.wf_setList _ _ _ h) h0)

theorem State.chanError_kept {W s0 a0 a1 a2} (hW : 609 &&& W = 609) (h0 : Kept W s0 a0) :
    Kept W s0 (State.chanError a0 a1 a2) := by
  unfold State.chanError
  repeat' first
    | with_reducible assumption
    | (with_reducible apply State.raise_kept; exact mask_trans (by decide) hW)
    | (with_reducible apply State.setChan_kept; exact mask_trans (by decide) hW)

theorem State.drainSpill_kept {W s0 a0 a1 a2} (hW : 1664 &&& W = 1664) (h0 : Kept W s0 a0) :
    Kept W s0 (State.drainSpill a0 a1 a2) := by
  fun_induction State.drainSpill a0 a1 a2
  all_goals
    repeat' first
      | with_reducible assumption
      | (with_reducible apply State.cqWrite_kept; exact mask_trans (by decide) hW)
      | (with_reducible apply State.setChan_kept; exact mask_trans (by decide) hW)
      | with_reducible apply_assumption

theorem State.takeDoorbell_kept {W s0 a0 a1} (hW : 1761 &&& W = 1761) (h0 : Kept W s0 a0) :
    Kept W s0 (State.takeDoorbell a0 a1) := by
  unfold State.takeDoorbell
  repeat' first
    | with_reducible assumption
    | with_reducible apply kept_ite
    | (with_reducible apply State.chanError_kept; exact mask_trans (by decide) hW)
    | (with_reducible apply State.setChan_kept; exact mask_trans (by decide) hW)
    | (with_reducible apply State.drainSpill_kept; exact mask_trans (by decide) hW)

theorem State.openChannel_kept {W s0 a0 a1 a2} (hW : 1761 &&& W = 1761) (h0 : Kept W s0 a0) :
    Kept W s0 (State.openChannel a0 a1 a2) := by
  unfold State.openChannel
  repeat' first
    | with_reducible assumption
    | with_reducible apply kept_ite
    | (with_reducible apply State.takeDoorbell_kept; exact mask_trans (by decide) hW)
    | (with_reducible apply State.setChan_kept; exact mask_trans (by decide) hW)
    | (with_reducible apply State.raise_kept; exact mask_trans (by decide) hW)

theorem execChCtrlOpen_kept {W s0 a0 a1 a2 a3} (hW : 2017 &&& W = 2017) (h3 : Kept W s0 a3) :
    KeptO W s0 (execChCtrlOpen a0 a1 a2 a3) := by
  unfold execChCtrlOpen
  repeat' first
    | with_reducible assumption
    | with_reducible apply kept_next
    | with_reducible apply kept_ite
    | (with_reducible apply State.hostWrites_kept; exact mask_trans (by decide) hW)
    | (with_reducible apply State.openChannel_kept; exact mask_trans (by decide) hW)
    | (with_reducible apply State.setChan_kept; exact mask_trans (by decide) hW)

theorem execChCtrlClose_kept {W s0 a0 a1} (hW : 512 &&& W = 512) (h1 : Kept W s0 a1) :
    KeptO W s0 (execChCtrlClose a0 a1) := by
  unfold execChCtrlClose
  repeat' first
    | with_reducible assumption
    | with_reducible apply kept_next
    | with_reducible apply kept_ite
    | (with_reducible apply State.setChan_kept; exact mask_trans (by decide) hW)

theorem execChCtrlReset_kept {W s0 a0 a1} (hW : 512 &&& W = 512) (h1 : Kept W s0 a1) :
    KeptO W s0 (execChCtrlReset a0 a1) := by
  unfold execChCtrlReset
  repeat' first
    | with_reducible assumption
    | with_reducible apply kept_next
    | with_reducible apply kept_ite
    | (with_reducible apply State.setChan_kept; exact mask_trans (by decide) hW)

theorem State.finish_kept {W s0 a0 a1 a2 a3 a4 a5 a6} (hW : 1664 &&& W = 1664) (h0 : Kept W s0 a0) :
    Kept W s0 (State.finish a0 a1 a2 a3 a4 a5 a6) := by
  unfold State.finish
  repeat' first
    | with_reducible assumption
    | (with_reducible apply State.complete_kept; exact mask_trans (by decide) hW)
    | (with_reducible apply State.setChan_kept; exact mask_trans (by decide) hW)

theorem State.flushStep_kept {W s0 a0} (hW : 1728 &&& W = 1728) (h0 : Kept W s0 a0) :
    Kept W s0 (State.flushStep a0) := by
  unfold State.flushStep
  repeat' first
    | with_reducible assumption
    | (with_reducible apply State.finish_kept; exact mask_trans (by decide) hW)
    | fail_if_no_progress (with_reducible apply kept_ev; exact mask_trans (by decide) hW)
    | with_reducible apply kept_foldl
    | with_reducible intro _ _ _

theorem State.evCoalesce_kept {W s0 a0} (hW : 192 &&& W = 192) (h0 : Kept W s0 a0) :
    Kept W s0 (State.evCoalesce a0) := by
  unfold State.evCoalesce
  repeat' first
    | with_reducible assumption
    | with_reducible apply kept_ite
    | (with_reducible apply State.interrupt_kept; exact mask_trans (by decide) hW)
    | fail_if_no_progress (with_reducible apply kept_ev; exact mask_trans (by decide) hW)

theorem State.evWrite_kept {W s0 a0 a1 a2} (hW : 192 &&& W = 192) (h0 : Kept W s0 a0) :
    Kept W s0 (State.evWrite a0 a1 a2) := by
  unfold State.evWrite
  repeat' first
    | with_reducible assumption
    | (with_reducible apply State.evCoalesce_kept; exact mask_trans (by decide) hW)
    | fail_if_no_progress (with_reducible apply kept_ev; exact mask_trans (by decide) hW)

theorem State.evDrain_kept {W s0 a0 a1} (hW : 1728 &&& W = 1728) (h0 : Kept W s0 a0) :
    Kept W s0 (State.evDrain a0 a1) := by
  fun_induction State.evDrain a0 a1
  all_goals
    repeat' first
      | with_reducible assumption
      | (with_reducible apply State.flushStep_kept; exact mask_trans (by decide) hW)
      | (with_reducible apply State.evWrite_kept; exact mask_trans (by decide) hW)
      | fail_if_no_progress (with_reducible apply kept_ev; exact mask_trans (by decide) hW)
      | with_reducible apply_assumption

theorem State.evEnable_kept {W s0 a0} (hW : 1728 &&& W = 1728) (h0 : Kept W s0 a0) :
    Kept W s0 (State.evEnable a0) := by
  unfold State.evEnable
  repeat' first
    | with_reducible assumption
    | with_reducible apply kept_ite
    | (with_reducible apply State.evDrain_kept; exact mask_trans (by decide) hW)
    | fail_if_no_progress (with_reducible apply kept_ev; exact mask_trans (by decide) hW)

theorem execEvCtrlEnable_kept {W s0 a0} (hW : 1728 &&& W = 1728) (h0 : Kept W s0 a0) :
    KeptO W s0 (execEvCtrlEnable a0) := by
  unfold execEvCtrlEnable
  repeat' first
    | with_reducible assumption
    | with_reducible apply kept_next
    | (with_reducible apply State.evEnable_kept; exact mask_trans (by decide) hW)

theorem execEvCtrlDisable_kept {W s0 a0} (hW : 64 &&& W = 64) (h0 : Kept W s0 a0) :
    KeptO W s0 (execEvCtrlDisable a0) := by
  unfold execEvCtrlDisable
  repeat' first
    | with_reducible assumption
    | with_reducible apply kept_next
    | fail_if_no_progress (with_reducible apply kept_ev; exact mask_trans (by decide) hW)

theorem State.clearRegs_kept {W s0 a0 a1} (hW : 2 &&& W = 2) (h0 : Kept W s0 a0) :
    Kept W s0 (State.clearRegs a0 a1) := by
  fun_induction State.clearRegs a0 a1
  all_goals
    repeat' first
      | with_reducible assumption
      | (with_reducible apply State.setReg_kept; exact mask_trans (by decide) hW)
      | with_reducible apply_assumption

theorem State.ctrClear_kept {W s0 a0 a1 a2} (hW : 2 &&& W = 2) (h0 : Kept W s0 a0) :
    Kept W s0 (State.ctrClear a0 a1 a2) := by
  unfold State.ctrClear
  repeat' first
    | with_reducible assumption
    | with_reducible apply kept_ite
    | (with_reducible apply State.clearRegs_kept; exact mask_trans (by decide) hW)

theorem execEvCtrClear_kept {W s0 a0 a1} (hW : 2 &&& W = 2) (h1 : Kept W s0 a1) :
    KeptO W s0 (execEvCtrClear a0 a1) := by
  unfold execEvCtrClear
  repeat' first
    | with_reducible assumption
    | with_reducible apply kept_next
    | (with_reducible apply State.ctrClear_kept; exact mask_trans (by decide) hW)

theorem State.freeBelow_kept {W s0 a0 a1} (hW : 1 &&& W = 1) (h0 : Kept W s0 a0) :
    Kept W s0 (State.freeBelow a0 a1).2 := by
  unfold State.freeBelow
  repeat' first
    | with_reducible assumption
    | fail_if_no_progress (with_reducible apply kept_fresh; exact mask_trans (by decide) hW)

theorem State.replan_kept {W s0 a0} (hW : 70368744177664 &&& W = 70368744177664) (h0 : Kept W s0 a0) :
    Kept W s0 (State.replan a0) := by
  unfold State.replan
  repeat' first
    | with_reducible assumption
    | fail_if_no_progress (with_reducible apply kept_plan; exact mask_trans (by decide) hW)

theorem State.setPosition_kept {W s0 a0 a1 a2 a3} (hW : 70368744439808 &&& W = 70368744439808) (h0 : Kept W s0 a0) :
    Kept W s0 (State.setPosition a0 a1 a2 a3) := by
  unfold State.setPosition
  repeat' first
    | with_reducible assumption
    | with_reducible apply kept_ite
    | (with_reducible apply State.replan_kept; exact mask_trans (by decide) hW)
    | fail_if_no_progress (with_reducible apply kept_pos; exact mask_trans (by decide) hW)

theorem execHkCtrClear_kept {W s0 a0 a1} (hW : 2 &&& W = 2) (h1 : Kept W s0 a1) :
    KeptO W s0 (execHkCtrClear a0 a1) := by
  unfold execHkCtrClear
  repeat' first
    | with_reducible assumption
    | with_reducible apply kept_next
    | (with_reducible apply State.ctrClear_kept; exact mask_trans (by decide) hW)

theorem execPwrCtrClear_kept {W s0 a0 a1} (hW : 2 &&& W = 2) (h1 : Kept W s0 a1) :
    KeptO W s0 (execPwrCtrClear a0 a1) := by
  unfold execPwrCtrClear
  repeat' first
    | with_reducible assumption
    | with_reducible apply kept_next
    | (with_reducible apply State.ctrClear_kept; exact mask_trans (by decide) hW)

theorem execBootCtrClear_kept {W s0 a0 a1} (hW : 2 &&& W = 2) (h1 : Kept W s0 a1) :
    KeptO W s0 (execBootCtrClear a0 a1) := by
  unfold execBootCtrClear
  repeat' first
    | with_reducible assumption
    | with_reducible apply kept_next
    | (with_reducible apply State.ctrClear_kept; exact mask_trans (by decide) hW)

theorem execSecCtrClear_kept {W s0 a0 a1} (hW : 2 &&& W = 2) (h1 : Kept W s0 a1) :
    KeptO W s0 (execSecCtrClear a0 a1) := by
  unfold execSecCtrClear
  repeat' first
    | with_reducible assumption
    | with_reducible apply kept_next
    | (with_reducible apply State.ctrClear_kept; exact mask_trans (by decide) hW)

theorem execGpCtrClear_kept {W s0 a0 a1 a2} (hW : 2 &&& W = 2) (h2 : Kept W s0 a2) :
    KeptO W s0 (execGpCtrClear a0 a1 a2) := by
  unfold execGpCtrClear
  repeat' first
    | with_reducible assumption
    | with_reducible apply kept_next
    | (with_reducible apply State.ctrClear_kept; exact mask_trans (by decide) hW)

theorem State.bumpWait_kept {W s0 a0 a1} (hW : 3 &&& W = 3) (h0 : Kept W s0 a0) :
    Kept W s0 (State.bumpWait a0 a1) := by
  unfold State.bumpWait
  repeat' first
    | with_reducible assumption
    | (with_reducible apply State.bump_kept; exact mask_trans (by decide) hW)
    | fail_if_no_progress (with_reducible apply kept_fresh; exact mask_trans (by decide) hW)

theorem execFabCtrClear_kept {W s0 a0 a1} (hW : 2 &&& W = 2) (h1 : Kept W s0 a1) :
    KeptO W s0 (execFabCtrClear a0 a1) := by
  unfold execFabCtrClear
  repeat' first
    | with_reducible assumption
    | with_reducible apply kept_next
    | (with_reducible apply State.ctrClear_kept; exact mask_trans (by decide) hW)

theorem execTopoCtrClear_kept {W s0 a0 a1} (hW : 2 &&& W = 2) (h1 : Kept W s0 a1) :
    KeptO W s0 (execTopoCtrClear a0 a1) := by
  unfold execTopoCtrClear
  repeat' first
    | with_reducible assumption
    | with_reducible apply kept_next
    | (with_reducible apply State.ctrClear_kept; exact mask_trans (by decide) hW)

theorem execMemCtrClear_kept {W s0 a0 a1 a2} (hW : 2 &&& W = 2) (h2 : Kept W s0 a2) :
    KeptO W s0 (execMemCtrClear a0 a1 a2) := by
  unfold execMemCtrClear
  repeat' first
    | with_reducible assumption
    | with_reducible apply kept_next
    | (with_reducible apply State.ctrClear_kept; exact mask_trans (by decide) hW)

theorem execKvCtrClear_kept {W s0 a0 a1 a2} (hW : 2 &&& W = 2) (h2 : Kept W s0 a2) :
    KeptO W s0 (execKvCtrClear a0 a1 a2) := by
  unfold execKvCtrClear
  repeat' first
    | with_reducible assumption
    | with_reducible apply kept_next
    | (with_reducible apply State.ctrClear_kept; exact mask_trans (by decide) hW)

theorem execServeCtrClear_kept {W s0 a0 a1 a2} (hW : 2 &&& W = 2) (h2 : Kept W s0 a2) :
    KeptO W s0 (execServeCtrClear a0 a1 a2) := by
  unfold execServeCtrClear
  repeat' first
    | with_reducible assumption
    | with_reducible apply kept_next
    | (with_reducible apply State.ctrClear_kept; exact mask_trans (by decide) hW)

theorem execSyncCtrClear_kept {W s0 a0 a1 a2} (hW : 2 &&& W = 2) (h2 : Kept W s0 a2) :
    KeptO W s0 (execSyncCtrClear a0 a1 a2) := by
  unfold execSyncCtrClear
  repeat' first
    | with_reducible assumption
    | with_reducible apply kept_next
    | (with_reducible apply State.ctrClear_kept; exact mask_trans (by decide) hW)

theorem execWtCtrClear_kept {W s0 a0 a1} (hW : 2 &&& W = 2) (h1 : Kept W s0 a1) :
    KeptO W s0 (execWtCtrClear a0 a1) := by
  unfold execWtCtrClear
  repeat' first
    | with_reducible assumption
    | with_reducible apply kept_next
    | (with_reducible apply State.ctrClear_kept; exact mask_trans (by decide) hW)

theorem State.dieClear_kept {W s0 a0 a1 a2 a3} (hW : 2 &&& W = 2) (h0 : Kept W s0 a0) :
    Kept W s0 (State.dieClear a0 a1 a2 a3) := by
  unfold State.dieClear
  repeat' first
    | with_reducible assumption
    | with_reducible apply kept_ite
    | (with_reducible apply State.ctrClear_kept; exact mask_trans (by decide) hW)

theorem execAeCtrClear_kept {W s0 a0 a1 a2} (hW : 2 &&& W = 2) (h2 : Kept W s0 a2) :
    KeptO W s0 (execAeCtrClear a0 a1 a2) := by
  unfold execAeCtrClear
  repeat' first
    | with_reducible assumption
    | with_reducible apply kept_next
    | (with_reducible apply State.dieClear_kept; exact mask_trans (by decide) hW)

theorem execDcCtrClear_kept {W s0 a0 a1 a2} (hW : 2 &&& W = 2) (h2 : Kept W s0 a2) :
    KeptO W s0 (execDcCtrClear a0 a1 a2) := by
  unfold execDcCtrClear
  repeat' first
    | with_reducible assumption
    | with_reducible apply kept_next
    | (with_reducible apply State.dieClear_kept; exact mask_trans (by decide) hW)

theorem execCalCtrClear_kept {W s0 a0 a1 a2} (hW : 2 &&& W = 2) (h2 : Kept W s0 a2) :
    KeptO W s0 (execCalCtrClear a0 a1 a2) := by
  unfold execCalCtrClear
  repeat' first
    | with_reducible assumption
    | with_reducible apply kept_next
    | (with_reducible apply State.dieClear_kept; exact mask_trans (by decide) hW)

theorem execSpCtrClear_kept {W s0 a0 a1 a2} (hW : 4098 &&& W = 4098) (h2 : Kept W s0 a2) :
    KeptO W s0 (execSpCtrClear a0 a1 a2) := by
  unfold execSpCtrClear
  repeat' first
    | with_reducible assumption
    | with_reducible apply kept_next
    | with_reducible apply kept_ite
    | (with_reducible apply State.dieClear_kept; exact mask_trans (by decide) hW)
    | fail_if_no_progress (with_reducible apply kept_memctl; exact mask_trans (by decide) hW; exact ⟨rfl, rfl, rfl, rfl⟩)

theorem execAttCtrClear_kept {W s0 a0 a1 a2} (hW : 2 &&& W = 2) (h2 : Kept W s0 a2) :
    KeptO W s0 (execAttCtrClear a0 a1 a2) := by
  unfold execAttCtrClear
  repeat' first
    | with_reducible assumption
    | with_reducible apply kept_next
    | (with_reducible apply State.dieClear_kept; exact mask_trans (by decide) hW)

theorem execWqCtrClear_kept {W s0 a0 a1 a2} (hW : 2 &&& W = 2) (h2 : Kept W s0 a2) :
    KeptO W s0 (execWqCtrClear a0 a1 a2) := by
  unfold execWqCtrClear
  repeat' first
    | with_reducible assumption
    | with_reducible apply kept_next
    | (with_reducible apply State.dieClear_kept; exact mask_trans (by decide) hW)

theorem execSeCtrClear_kept {W s0 a0 a1 a2} (hW : 2 &&& W = 2) (h2 : Kept W s0 a2) :
    KeptO W s0 (execSeCtrClear a0 a1 a2) := by
  unfold execSeCtrClear
  repeat' first
    | with_reducible assumption
    | with_reducible apply kept_next
    | (with_reducible apply State.dieClear_kept; exact mask_trans (by decide) hW)

theorem State.putRaw_kept {W s0 a0 a1 a2} (hW : 2048 &&& W = 2048) (h0 : Kept W s0 a0) :
    Kept W s0 (State.putRaw a0 a1 a2) := by
  refine kept_memory hW ⟨rfl, rfl, rfl, rfl, rfl, rfl, rfl, rfl⟩ (fun h => ?_) h0
  simp only [Mem.wf, Bool.and_eq_true] at h ⊢
  exact ⟨⟨Tab.wf_setList _ _ _ h.1.1, h.1.2⟩, h.2⟩

theorem State.addFx_kept {W s0 a0 a1 a2 a3 a4} (hW : 2147 &&& W = 2147) (h0 : Kept W s0 a0) :
    Kept W s0 (State.addFx a0 a1 a2 a3 a4) := by
  unfold State.addFx
  extract_lets x y s1 src s2
  clear_value y
  have key := kept_guard (v := Tab.set (a0.putRaw a3 (leBytes 8 (encodeInt 64 y))).mem.guard (a3 / 8) ((y - signed 64 (encodeInt 64 y)) / (2 ^ 64 : Nat)))
    (mask_trans (by decide : 2048 &&& 2147 = 2048) hW) (fun h => Tab.wf_set _ _ _ h) (State.putRaw_kept (a1 := a3) (a2 := leBytes 8 (encodeInt 64 y)) (mask_trans (by decide : 2048 &&& 2147 = 2048) hW) h0)
  have h2 : Kept W s0 s2 := key
  clear_value s2
  exact kept_ite h2 (State.raise_kept (mask_trans (by decide) hW) (State.bump_kept (mask_trans (by decide) hW)
    (State.setTile_kept (mask_trans (by decide) hW) h2)))

theorem State.addI32_kept {W s0 a0 a1 a2 a3} (hW : 2050 &&& W = 2050) (h0 : Kept W s0 a0) :
    Kept W s0 (State.addI32 a0 a1 a2 a3) := by
  unfold State.addI32
  repeat' first
    | with_reducible assumption
    | with_reducible apply kept_ite
    | (with_reducible apply State.putRaw_kept; exact mask_trans (by decide) hW)
    | (with_reducible apply State.bump_kept; exact mask_trans (by decide) hW)
    | (with_reducible apply State.setTile_kept; exact mask_trans (by decide) hW)

theorem State.addWords_kept {W s0 a0 a1 a2 a3 a4 a5} (hW : 2147 &&& W = 2147) (h0 : Kept W s0 a0) :
    Kept W s0 (State.addWords a0 a1 a2 a3 a4 a5) := by
  fun_induction State.addWords a0 a1 a2 a3 a4 a5
  all_goals
    repeat' first
      | with_reducible assumption
      | (with_reducible apply State.addI32_kept; exact mask_trans (by decide) hW)
      | (with_reducible apply State.addFx_kept; exact mask_trans (by decide) hW)
      | with_reducible apply_assumption

theorem State.sumDigest_kept {W s0 a0 a1} (hW : 2048 &&& W = 2048) (h0 : Kept W s0 a0) :
    Kept W s0 (State.sumDigest a0 a1) := by
  unfold State.sumDigest
  split
  · exact kept_ite (kept_sums hW h0) h0
  · exact h0

theorem State.setObj_kept {W s0 a0 a1 a2} (hW : 65536 &&& W = 65536) (h0 : Kept W s0 a0) :
    Kept W s0 (State.setObj a0 a1 a2) := by
  unfold State.setObj
  repeat' first
    | with_reducible assumption
    | fail_if_no_progress (with_reducible apply kept_sync; exact mask_trans (by decide) hW)

theorem State.setSeq_kept {W s0 a0 a1 a2} (hW : 16384 &&& W = 16384) (h0 : Kept W s0 a0) :
    Kept W s0 (State.setSeq a0 a1 a2) := by
  unfold State.setSeq
  repeat' first
    | with_reducible assumption
    | fail_if_no_progress (with_reducible apply kept_seqs; exact mask_trans (by decide) hW)

theorem State.openWindow_kept {W s0 a0 a1} (hW : 274877906944 &&& W = 274877906944) (h0 : Kept W s0 a0) :
    Kept W s0 (State.openWindow a0 a1) := by
  unfold State.openWindow
  repeat' first
    | with_reducible assumption
    | fail_if_no_progress (with_reducible apply kept_det; exact mask_trans (by decide) hW)

theorem State.faultDetected_kept {W s0 a0 a1 a2 a3} (hW : 3711044837475 &&& W = 3711044837475) (h0 : Kept W s0 a0) :
    Kept W s0 (State.faultDetected a0 a1 a2 a3) := by
  unfold State.faultDetected
  repeat' first
    | with_reducible assumption
    | with_reducible apply kept_ite
    | (with_reducible apply State.abandon_kept; exact mask_trans (by decide) hW)
    | (with_reducible apply State.openWindow_kept; exact mask_trans (by decide) hW)

theorem State.hearthIrq_kept {W s0 a0 a1} (hW : 8192 &&& W = 8192) (h0 : Kept W s0 a0) :
    Kept W s0 (State.hearthIrq a0 a1) := by
  unfold State.hearthIrq
  repeat' first
    | with_reducible assumption
    | fail_if_no_progress (with_reducible apply kept_wq; exact mask_trans (by decide) hW)

theorem State.enterFault_kept {W s0 a0 a1 a2} (hW : 3711044837475 &&& W = 3711044837475) (h0 : Kept W s0 a0) :
    Kept W s0 (State.enterFault a0 a1 a2) := by
  unfold State.enterFault
  repeat' first
    | with_reducible assumption
    | (with_reducible apply State.setSeq_kept; exact mask_trans (by decide) hW)
    | (with_reducible apply State.faultDetected_kept; exact mask_trans (by decide) hW)
    | (with_reducible apply State.raise_kept; exact mask_trans (by decide) hW)
    | (with_reducible apply State.hearthIrq_kept; exact mask_trans (by decide) hW)
    | (with_reducible apply State.bump_kept; exact mask_trans (by decide) hW)

theorem State.instrFault_kept {W s0 a0 a1 a2 a3 a4} (hW : 3711044837475 &&& W = 3711044837475) (h0 : Kept W s0 a0) :
    Kept W s0 (State.instrFault a0 a1 a2 a3 a4) := by
  unfold State.instrFault
  repeat' first
    | with_reducible assumption
    | (with_reducible apply State.enterFault_kept; exact mask_trans (by decide) hW)

theorem State.seqGoto_kept {W s0 a0 a1 a2} (hW : 3711044837475 &&& W = 3711044837475) (h0 : Kept W s0 a0) :
    Kept W s0 (State.seqGoto a0 a1 a2) := by
  unfold State.seqGoto
  repeat' first
    | with_reducible assumption
    | with_reducible apply kept_ite
    | (with_reducible apply State.enterFault_kept; exact mask_trans (by decide) hW)
    | (with_reducible apply State.setSeq_kept; exact mask_trans (by decide) hW)
    | (with_reducible apply State.instrFault_kept; exact mask_trans (by decide) hW)

theorem State.wake_kept {W s0 a0 a1} (hW : 3711044837475 &&& W = 3711044837475) (h0 : Kept W s0 a0) :
    Kept W s0 (State.wake a0 a1) := by
  unfold State.wake
  repeat' first
    | with_reducible assumption
    | with_reducible apply kept_ite
    | (with_reducible apply State.seqGoto_kept; exact mask_trans (by decide) hW)
    | dsimp only
    | split

theorem State.wakeAll_kept {W s0 a0 a1} (hW : 3711044837475 &&& W = 3711044837475) (h0 : Kept W s0 a0) :
    Kept W s0 (State.wakeAll a0 a1) := by
  fun_induction State.wakeAll a0 a1
  all_goals
    repeat' first
      | with_reducible assumption
      | (with_reducible apply State.wake_kept; exact mask_trans (by decide) hW)
      | with_reducible apply_assumption

theorem State.objTake_kept {W s0 a0 a1 a2} (hW : 3711044903011 &&& W = 3711044903011) (h0 : Kept W s0 a0) :
    Kept W s0 (State.objTake a0 a1 a2) := by
  unfold State.objTake
  repeat' first
    | with_reducible assumption
    | (with_reducible apply State.setObj_kept; exact mask_trans (by decide) hW)
    | (with_reducible apply State.wakeAll_kept; exact mask_trans (by decide) hW)
    | (with_reducible apply State.bump_kept; exact mask_trans (by decide) hW)

theorem State.opFault_kept {W s0 a0 a1 a2} (hW : 3711044837475 &&& W = 3711044837475) (h0 : Kept W s0 a0) :
    Kept W s0 (State.opFault a0 a1 a2) := by
  unfold State.opFault
  repeat' first
    | with_reducible assumption
    | with_reducible apply kept_ite
    | (with_reducible apply State.enterFault_kept; exact mask_trans (by decide) hW)
    | (with_reducible apply State.setSeq_kept; exact mask_trans (by decide) hW)
    | dsimp only
    | split

theorem State.syncRefuse_kept {W s0 a0 a1 a2 a3} (hW : 3711044837475 &&& W = 3711044837475) (h0 : Kept W s0 a0) :
    Kept W s0 (State.syncRefuse a0 a1 a2 a3) := by
  unfold State.syncRefuse
  repeat' first
    | with_reducible assumption
    | with_reducible apply kept_ite
    | (with_reducible apply State.raise_kept; exact mask_trans (by decide) hW)
    | (with_reducible apply State.bump_kept; exact mask_trans (by decide) hW)
    | (with_reducible apply State.enterFault_kept; exact mask_trans (by decide) hW)
    | (with_reducible apply State.opFault_kept; exact mask_trans (by decide) hW)
    | dsimp only
    | split

theorem State.objPost_kept {W s0 a0 a1 a2 a3 a4} (hW : 3711044903011 &&& W = 3711044903011) (h0 : Kept W s0 a0) :
    Kept W s0 (State.objPost a0 a1 a2 a3 a4) := by
  unfold State.objPost
  repeat' first
    | with_reducible assumption
    | with_reducible apply kept_ite
    | (with_reducible apply State.objTake_kept; exact mask_trans (by decide) hW)
    | (with_reducible apply State.syncRefuse_kept; exact mask_trans (by decide) hW)

theorem State.payload_kept {W s0 a0 a1 a2 a3} (hW : 3711044905059 &&& W = 3711044905059) (h0 : Kept W s0 a0) :
    Kept W s0 (State.payload a0 a1 a2 a3) := by
  unfold State.payload
  repeat' first
    | with_reducible assumption
    | with_reducible apply kept_ite
    | (with_reducible apply State.addWords_kept; exact mask_trans (by decide) hW)
    | (with_reducible apply State.setTile_kept; exact mask_trans (by decide) hW)
    | (with_reducible apply State.sumDigest_kept; exact mask_trans (by decide) hW)
    | (with_reducible apply State.bump_kept; exact mask_trans (by decide) hW)
    | (with_reducible apply State.objPost_kept; exact mask_trans (by decide) hW)
    | (with_reducible apply State.raise_kept; exact mask_trans (by decide) hW)
    | dsimp only
    | split

theorem State.opRan_kept {W s0 a0 a1 a2 a3 a4 a5 a6} (hW : 16384 &&& W = 16384) (h0 : Kept W s0 a0) :
    Kept W s0 (State.opRan a0 a1 a2 a3 a4 a5 a6) := by
  unfold State.opRan
  repeat' first
    | with_reducible assumption
    | (with_reducible apply State.setSeq_kept; exact mask_trans (by decide) hW)

theorem State.setRegion_kept {W s0 a0 a1 a2 a3} (hW : 4096 &&& W = 4096) (h0 : Kept W s0 a0) :
    Kept W s0 (State.setRegion a0 a1 a2 a3) := by
  unfold State.setRegion
  repeat' first
    | with_reducible assumption
    | fail_if_no_progress (with_reducible apply kept_memctl; exact mask_trans (by decide) hW; exact ⟨rfl, rfl, rfl, rfl⟩)

theorem State.reloadRegions_kept {W s0 a0 a1} (hW : 6243 &&& W = 6243) (h0 : Kept W s0 a0) :
    Kept W s0 (State.reloadRegions a0 a1) := by
  unfold State.reloadRegions
  repeat' first
    | with_reducible assumption
    | with_reducible apply kept_ite
    | (with_reducible apply State.zeroTiles_kept; exact mask_trans (by decide) hW)
    | (with_reducible apply State.copy_kept; exact mask_trans (by decide) hW)
    | (with_reducible apply State.raise_kept; exact mask_trans (by decide) hW)
    | (with_reducible apply State.setRegion_kept; exact mask_trans (by decide) hW)
    | with_reducible apply kept_foldl
    | with_reducible intro _ _ _

theorem State.nextPayload_kept {W s0 a0 a1 a2} (hW : 6243 &&& W = 6243) (h0 : Kept W s0 a0) :
    Kept W s0 (State.nextPayload a0 a1 a2).1.st := by
  unfold State.nextPayload
  repeat' first
    | with_reducible assumption
    | (with_reducible apply State.read_kept; exact mask_trans (by decide) hW)

theorem State.atomicStep_kept {W s0 a0 a1 a2} (hW : 3711044909155 &&& W = 3711044909155) (h0 : Kept W s0 a0) :
    Kept W s0 (State.atomicStep a0 a1 a2) := by
  unfold State.atomicStep
  repeat' first
    | with_reducible assumption
    | with_reducible apply kept_ite
    | (with_reducible apply State.nextPayload_kept; exact mask_trans (by decide) hW)
    | (with_reducible apply State.opRan_kept; exact mask_trans (by decide) hW)
    | (with_reducible apply State.payload_kept; exact mask_trans (by decide) hW)
    | (with_reducible apply State.setSeq_kept; exact mask_trans (by decide) hW)
    | dsimp only
    | split

theorem State.hostPut_kept {W s0 a0 a1 a2} (hW : 256 &&& W = 256) (h0 : Kept W s0 a0) :
    Kept W s0 (State.hostPut a0 a1 a2) := by
  exact kept_hmem hW (fun h => Tab.wf_setList _ _ _ h) h0

theorem State.clearTile_kept {W s0 a0 a1} (hW : 2048 &&& W = 2048) (h0 : Kept W s0 a0) :
    Kept W s0 (State.clearTile a0 a1) := by
  unfold State.clearTile
  exact kept_sums hW (State.setTile_kept hW (State.zeroTiles_kept hW h0))

theorem State.release_kept {W s0 a0 a1} (hW : 3711044837475 &&& W = 3711044837475) (h0 : Kept W s0 a0) :
    Kept W s0 (State.release a0 a1) := by
  unfold State.release
  repeat' first
    | with_reducible assumption
    | with_reducible apply kept_ite
    | (with_reducible apply State.seqGoto_kept; exact mask_trans (by decide) hW)

theorem State.dmaEnd_kept {W s0 a0 a1 a2 a3 a4} (hW : 3711044909155 &&& W = 3711044909155) (h0 : Kept W s0 a0) (h4 : Kept W s0 a4.st) :
    Kept W s0 (State.dmaEnd a0 a1 a2 a3 a4) := by
  unfold State.dmaEnd
  repeat' first
    | with_reducible assumption
    | with_reducible apply kept_ite
    | (with_reducible apply State.objPost_kept; exact mask_trans (by decide) hW)
    | (with_reducible apply State.hearthIrq_kept; exact mask_trans (by decide) hW)
    | (with_reducible apply State.write_kept; exact mask_trans (by decide) hW)
    | (with_reducible apply State.release_kept; exact mask_trans (by decide) hW)
    | (with_reducible apply State.opFault_kept; exact mask_trans (by decide) hW)
    | (with_reducible apply State.setSeq_kept; exact mask_trans (by decide) hW)

theorem dmaStrided_kept {W s0 a0 a1 a2} (hW : 6243 &&& W = 6243) (h2 : Kept W s0 a2.st) :
    Kept W s0 (dmaStrided a0 a1 a2).st := by
  unfold dmaStrided
  repeat' first
    | with_reducible assumption
    | (with_reducible apply DmaRun.move_kept; exact mask_trans (by decide) hW)
    | with_reducible apply kept_foldl_DmaRun
    | with_reducible intro _ _ _

theorem dmaIndex_kept {W s0 a0 a1 a2 a3} (hW : 6243 &&& W = 6243) (h2 : Kept W s0 a2.st) :
    Kept W s0 (dmaIndex a0 a1 a2 a3).1.st := by
  unfold dmaIndex
  repeat' first
    | with_reducible assumption
    | (with_reducible apply DmaRun.get_kept; exact mask_trans (by decide) hW)

theorem dmaIndexed_kept {W s0 a0 a1 a2 a3} (hW : 6243 &&& W = 6243) (h3 : Kept W s0 a3.st) :
    Kept W s0 (dmaIndexed a0 a1 a2 a3).st := by
  unfold dmaIndexed
  repeat' first
    | with_reducible assumption
    | with_reducible apply kept_ite_DmaRun
    | (with_reducible apply dmaIndex_kept; exact mask_trans (by decide) hW)
    | (with_reducible apply DmaRun.move_kept; exact mask_trans (by decide) hW)
    | with_reducible apply kept_foldl_DmaRun
    | with_reducible intro _ _ _
    | (with_reducible apply kept_fst_DmaRun; assumption)
    | dsimp only
    | split

theorem dmaMerge_kept {W s0 a0 a1 a2 a3 a4 a5 a6 a7 a8} (hW : 6243 &&& W = 6243) (h8 : Kept W s0 a8.st) :
    Kept W s0 (dmaMerge a0 a1 a2 a3 a4 a5 a6 a7 a8).st := by
  fun_induction dmaMerge a0 a1 a2 a3 a4 a5 a6 a7 a8
  all_goals
    repeat' first
      | with_reducible assumption
      | (with_reducible apply DmaRun.move_kept; exact mask_trans (by decide) hW)
      | with_reducible apply_assumption

theorem State.dmaRun_kept {W s0 a0 a1 a2 a3} (hW : 6243 &&& W = 6243) (h0 : Kept W s0 a0) :
    Kept W s0 (State.dmaRun a0 a1 a2 a3).st := by
  unfold State.dmaRun
  repeat' first
    | with_reducible assumption
    | with_reducible apply kept_ite_DmaRun
    | (with_reducible apply dmaStrided_kept; exact mask_trans (by decide) hW)
    | (with_reducible apply dmaIndexed_kept; exact mask_trans (by decide) hW)
    | (with_reducible apply dmaMerge_kept; exact mask_trans (by decide) hW)
    | (with_reducible apply State.bump_kept; exact mask_trans (by decide) hW)
    | dsimp only
    | split

theorem State.objSet_kept {W s0 a0 a1 a2 a3 a4} (hW : 3711044903011 &&& W = 3711044903011) (h0 : Kept W s0 a0) :
    Kept W s0 (State.objSet a0 a1 a2 a3 a4) := by
  unfold State.objSet
  repeat' first
    | with_reducible assumption
    | with_reducible apply kept_ite
    | (with_reducible apply State.objTake_kept; exact mask_trans (by decide) hW)
    | (with_reducible apply State.syncRefuse_kept; exact mask_trans (by decide) hW)

theorem State.countClass_kept {W s0 a0 a1 a2} (hW : 2 &&& W = 2) (h0 : Kept W s0 a0) :
    Kept W s0 (State.countClass a0 a1 a2) := by
  unfold State.countClass
  repeat' first
    | with_reducible assumption
    | with_reducible apply kept_ite
    | (with_reducible apply State.bump_kept; exact mask_trans (by decide) hW)

theorem State.copyLocal_kept {W s0 a0 a1 a2} (hW : 22627 &&& W = 22627) (h0 : Kept W s0 a0) :
    Kept W s0 (State.copyLocal a0 a1 a2) := by
  unfold State.copyLocal
  repeat' first
    | with_reducible assumption
    | (with_reducible apply State.copy_kept; exact mask_trans (by decide) hW)
    | (with_reducible apply State.countClass_kept; exact mask_trans (by decide) hW)
    | (with_reducible apply State.opRan_kept; exact mask_trans (by decide) hW)

theorem State.declare_kept {W s0 a0 a1 a2} (hW : 4096 &&& W = 4096) (h0 : Kept W s0 a0) :
    Kept W s0 (State.declare a0 a1 a2) := by
  unfold State.declare
  repeat' first
    | with_reducible assumption
    | (with_reducible apply State.setRegion_kept; exact mask_trans (by decide) hW)
    | split

theorem State.start_kept {W s0 a0 a1} (hW : 768 &&& W = 768) (h0 : Kept W s0 a0) :
    Kept W s0 (State.start a0 a1) := by
  unfold State.start
  repeat' first
    | with_reducible assumption
    | (with_reducible apply State.hostWrites_kept; exact mask_trans (by decide) hW)
    | (with_reducible apply State.setChan_kept; exact mask_trans (by decide) hW)

theorem State.descriptor_kept {W s0 a0 a1 a2 a3} (hW : 1920 &&& W = 1920) (h0 : Kept W s0 a0) (h3 : ∀ x0 x1, Kept W s0 x0 → Kept W s0 (a3 x0 x1)) :
    Kept W s0 (State.descriptor a0 a1 a2 a3) := by
  unfold State.descriptor
  repeat' first
    | with_reducible assumption
    | with_reducible apply kept_ite
    | (with_reducible apply State.start_kept; exact mask_trans (by decide) hW)
    | (with_reducible apply State.finish_kept; exact mask_trans (by decide) hW)
    | with_reducible apply_assumption

theorem State.issue_kept {W s0 a0 a1 a2 a3 a4 a5} (hW : 3711044837475 &&& W = 3711044837475) (h0 : Kept W s0 a0) (h5 : ∀ x0, Kept W s0 (a5 x0)) :
    Kept W s0 (State.issue a0 a1 a2 a3 a4 a5) := by
  unfold State.issue
  repeat' first
    | with_reducible assumption
    | with_reducible apply kept_ite
    | (with_reducible apply State.instrFault_kept; exact mask_trans (by decide) hW)
    | with_reducible apply_assumption

theorem State.stall_kept {W s0 a0 a1 a2} (hW : 16384 &&& W = 16384) (h0 : Kept W s0 a0) :
    Kept W s0 (State.stall a0 a1 a2) := by
  unfold State.stall
  repeat' first
    | with_reducible assumption
    | (with_reducible apply State.setSeq_kept; exact mask_trans (by decide) hW)

theorem State.enqueue_kept {W s0 a0 a1 a2 a3 a4} (hW : 3711044837475 &&& W = 3711044837475) (h0 : Kept W s0 a0) :
    Kept W s0 (State.enqueue a0 a1 a2 a3 a4) := by
  unfold State.enqueue
  repeat' first
    | with_reducible assumption
    | with_reducible apply kept_ite
    | (with_reducible apply State.issue_kept; exact mask_trans (by decide) hW)
    | (with_reducible apply State.stall_kept; exact mask_trans (by decide) hW)
    | (with_reducible apply State.bumpWait_kept; exact mask_trans (by decide) hW)
    | (with_reducible apply State.seqGoto_kept; exact mask_trans (by decide) hW)
    | (with_reducible apply State.setSeq_kept; exact mask_trans (by decide) hW)
    | with_reducible intro _

theorem State.evRecord_kept {W s0 a0 a1 a2} (hW : 194 &&& W = 194) (h0 : Kept W s0 a0) :
    Kept W s0 (State.evRecord a0 a1 a2) := by
  unfold State.evRecord
  repeat' first
    | with_reducible assumption
    | with_reducible apply kept_ite
    | (with_reducible apply State.evWrite_kept; exact mask_trans (by decide) hW)
    | (with_reducible apply State.bump_kept; exact mask_trans (by decide) hW)
    | fail_if_no_progress (with_reducible apply kept_ev; exact mask_trans (by decide) hW)

theorem State.freeRegions_kept {W s0 a0 a1} (hW : 4096 &&& W = 4096) (h0 : Kept W s0 a0) :
    Kept W s0 (State.freeRegions a0 a1) := by
  unfold State.freeRegions
  repeat' first
    | with_reducible assumption
    | fail_if_no_progress (with_reducible apply kept_memctl; exact mask_trans (by decide) hW; exact ⟨rfl, rfl, rfl, rfl⟩)

theorem State.hbmReports_kept {W s0 a0 a1} (hW : 2147 &&& W = 2147) (h0 : Kept W s0 a0) :
    Kept W s0 (State.hbmReports a0 a1) := by
  fun_induction State.hbmReports a0 a1
  all_goals
    repeat' first
      | with_reducible assumption
      | with_reducible apply kept_ite
      | (with_reducible apply State.bump_kept; exact mask_trans (by decide) hW)
      | (with_reducible apply State.raise_kept; exact mask_trans (by decide) hW)
      | (with_reducible apply State.poison_kept; exact mask_trans (by decide) hW)
      | with_reducible apply_assumption
      | split

theorem State.hostLineRead_kept {W s0 a0 a1} (hW : 6243 &&& W = 6243) (h0 : Kept W s0 a0) :
    Kept W s0 (State.hostLineRead a0 a1) := by
  unfold State.hostLineRead
  apply kept_hostLine
  · exact mask_trans (by decide) hW
  refine kept_ite (State.raise_kept (mask_trans (by decide) hW) ?_) ?_
  all_goals exact State.check_kept (mask_trans (by decide) hW) (State.touch_kept (mask_trans (by decide) hW) h0)

theorem State.landed_kept {W s0 a0 a1} (hW : 131072 &&& W = 131072) (h0 : Kept W s0 a0) :
    Kept W s0 (State.landed a0 a1) := by
  unfold State.landed
  repeat' first
    | with_reducible assumption
    | fail_if_no_progress (with_reducible apply kept_flight; exact mask_trans (by decide) hW)

theorem State.levelNotice_kept {W s0 a0 a1 a2} (hW : 8194 &&& W = 8194) (h0 : Kept W s0 a0) :
    Kept W s0 (State.levelNotice a0 a1 a2) := by
  unfold State.levelNotice
  repeat' first
    | with_reducible assumption
    | with_reducible apply kept_ite
    | (with_reducible apply State.bump_kept; exact mask_trans (by decide) hW)
    | (with_reducible apply State.hearthIrq_kept; exact mask_trans (by decide) hW)

theorem State.objFree_kept {W s0 a0 a1} (hW : 3711044903011 &&& W = 3711044903011) (h0 : Kept W s0 a0) :
    Kept W s0 (State.objFree a0 a1) := by
  unfold State.objFree
  repeat' first
    | with_reducible assumption
    | with_reducible apply kept_ite
    | (with_reducible apply State.enterFault_kept; exact mask_trans (by decide) hW)
    | (with_reducible apply State.setObj_kept; exact mask_trans (by decide) hW)
    | with_reducible apply kept_foldl
    | with_reducible intro _ _ _
    | dsimp only
    | split

theorem State.objWait_kept {W s0 a0 a1 a2 a3 a4 a5} (hW : 3711044903011 &&& W = 3711044903011) (h0 : Kept W s0 a0) :
    Kept W s0 (State.objWait a0 a1 a2 a3 a4 a5) := by
  unfold State.objWait
  repeat' first
    | with_reducible assumption
    | with_reducible apply kept_ite
    | (with_reducible apply State.syncRefuse_kept; exact mask_trans (by decide) hW)
    | (with_reducible apply State.wake_kept; exact mask_trans (by decide) hW)
    | (with_reducible apply State.bump_kept; exact mask_trans (by decide) hW)
    | (with_reducible apply State.setObj_kept; exact mask_trans (by decide) hW)

theorem State.opCompletion_kept {W s0 a0 a1 a2} (hW : 3711044837475 &&& W = 3711044837475) (h0 : Kept W s0 a0) :
    Kept W s0 (State.opCompletion a0 a1 a2) := by
  unfold State.opCompletion
  repeat' first
    | with_reducible assumption
    | with_reducible apply kept_ite
    | (with_reducible apply State.setSeq_kept; exact mask_trans (by decide) hW)
    | (with_reducible apply State.release_kept; exact mask_trans (by decide) hW)
    | (with_reducible apply State.opFault_kept; exact mask_trans (by decide) hW)
    | dsimp only
    | split

theorem State.patrolRead_kept {W s0 a0 a1} (hW : 6243 &&& W = 6243) (h0 : Kept W s0 a0) :
    Kept W s0 (State.patrolRead a0 a1) := by
  unfold State.patrolRead
  repeat' first
    | with_reducible assumption
    | with_reducible apply kept_ite
    | (with_reducible apply State.check_kept; exact mask_trans (by decide) hW)
    | (with_reducible apply State.touch_kept; exact mask_trans (by decide) hW)
    | (with_reducible apply State.bump_kept; exact mask_trans (by decide) hW)
    | fail_if_no_progress (with_reducible apply kept_memctl; exact mask_trans (by decide) hW; exact ⟨rfl, rfl, rfl, rfl⟩)

theorem State.seqControl_kept {W s0 a0 a1 a2} (hW : 16384 &&& W = 16384) (h0 : Kept W s0 a0) :
    Kept W s0 (State.seqControl a0 a1 a2) := by
  unfold State.seqControl
  repeat' first
    | with_reducible assumption
    | (with_reducible apply State.setSeq_kept; exact mask_trans (by decide) hW)

theorem State.seqSet_kept {W s0 a0 a1 a2 a3 a4} (hW : 3711044837475 &&& W = 3711044837475) (h0 : Kept W s0 a0) :
    Kept W s0 (State.seqSet a0 a1 a2 a3 a4) := by
  unfold State.seqSet
  repeat' first
    | with_reducible assumption
    | (with_reducible apply State.seqGoto_kept; exact mask_trans (by decide) hW)
    | (with_reducible apply State.setSeq_kept; exact mask_trans (by decide) hW)

theorem State.syncSend_kept {W s0 a0 a1 a2 a3 a4 a5 a6} (hW : 3711044837475 &&& W = 3711044837475) (h0 : Kept W s0 a0) (h6 : ∀ x0, Kept W s0 x0 → Kept W s0 (a6 x0)) :
    Kept W s0 (State.syncSend a0 a1 a2 a3 a4 a5 a6) := by
  unfold State.syncSend
  repeat' first
    | with_reducible assumption
    | with_reducible apply kept_ite
    | (with_reducible apply State.instrFault_kept; exact mask_trans (by decide) hW)
    | fail_if_no_progress (with_reducible apply kept_flight; exact mask_trans (by decide) hW)
    | with_reducible apply_assumption

theorem State.takeEvHead_kept {W s0 a0} (hW : 1728 &&& W = 1728) (h0 : Kept W s0 a0) :
    Kept W s0 (State.takeEvHead a0) := by
  unfold State.takeEvHead
  repeat' first
    | with_reducible assumption
    | (with_reducible apply State.evDrain_kept; exact mask_trans (by decide) hW)
    | fail_if_no_progress (with_reducible apply kept_ev; exact mask_trans (by decide) hW)

theorem State.wqAccept_kept {W s0 a0 a1 a2} (hW : 8291 &&& W = 8291) (h0 : Kept W s0 a0) :
    Kept W s0 (State.wqAccept a0 a1 a2) := by
  unfold State.wqAccept
  repeat' first
    | with_reducible assumption
    | with_reducible apply kept_ite
    | (with_reducible apply State.setQueue_kept; exact mask_trans (by decide) hW)
    | (with_reducible apply State.levelNotice_kept; exact mask_trans (by decide) hW)
    | (with_reducible apply State.raise_kept; exact mask_trans (by decide) hW)
    | (with_reducible apply State.bump_kept; exact mask_trans (by decide) hW)

theorem State.wqWrite_kept {W s0 a0 a1 a2 a3 a4} (hW : 8291 &&& W = 8291) (h0 : Kept W s0 a0) (h3 : ∀ x0, Kept W s0 x0 → Kept W s0 (a3 x0)) (h4 : ∀ x0, Kept W s0 x0 → Kept W s0 (a4 x0)) :
    Kept W s0 (State.wqWrite a0 a1 a2 a3 a4) := by
  unfold State.wqWrite
  repeat' first
    | with_reducible assumption
    | with_reducible apply kept_ite
    | (with_reducible apply State.setQueue_kept; exact mask_trans (by decide) hW)
    | (with_reducible apply State.bumpWait_kept; exact mask_trans (by decide) hW)
    | (with_reducible apply State.wqAccept_kept; exact mask_trans (by decide) hW)
    | with_reducible apply_assumption

theorem execAddi_kept {W s0 a0 a1 a2} (hW : 3711044837475 &&& W = 3711044837475) (h2 : Kept W s0 a2) :
    KeptO W s0 (execAddi a0 a1 a2) := by
  unfold execAddi
  repeat' first
    | with_reducible assumption
    | with_reducible apply kept_next
    | (with_reducible apply State.issue_kept; exact mask_trans (by decide) hW)
    | (with_reducible apply State.seqSet_kept; exact mask_trans (by decide) hW)
    | with_reducible intro _

theorem execAlu_kept {W s0 a0 a1 a2} (hW : 3711044837475 &&& W = 3711044837475) (h2 : Kept W s0 a2) :
    KeptO W s0 (execAlu a0 a1 a2) := by
  unfold execAlu
  repeat' first
    | with_reducible assumption
    | with_reducible apply kept_next
    | (with_reducible apply State.issue_kept; exact mask_trans (by decide) hW)
    | (with_reducible apply State.seqSet_kept; exact mask_trans (by decide) hW)
    | with_reducible intro _

theorem execArrayMv_kept {W s0 a0 a1 a2} (hW : 3711044837475 &&& W = 3711044837475) (h2 : Kept W s0 a2) :
    KeptO W s0 (execArrayMv a0 a1 a2) := by
  unfold execArrayMv
  repeat' first
    | with_reducible assumption
    | with_reducible apply kept_next
    | (with_reducible apply State.enqueue_kept; exact mask_trans (by decide) hW)

theorem execArrayRead_kept {W s0 a0 a1 a2} (hW : 3711044837475 &&& W = 3711044837475) (h2 : Kept W s0 a2) :
    KeptO W s0 (execArrayRead a0 a1 a2) := by
  unfold execArrayRead
  repeat' first
    | with_reducible assumption
    | with_reducible apply kept_next
    | (with_reducible apply State.enqueue_kept; exact mask_trans (by decide) hW)

theorem execAtomicAdd_kept {W s0 a0 a1 a2} (hW : 3711044837475 &&& W = 3711044837475) (h2 : Kept W s0 a2) :
    KeptO W s0 (execAtomicAdd a0 a1 a2) := by
  unfold execAtomicAdd
  repeat' first
    | with_reducible assumption
    | with_reducible apply kept_next
    | (with_reducible apply State.enqueue_kept; exact mask_trans (by decide) hW)

theorem execAtomicClear_kept {W s0 a0 a1 a2} (hW : 3711044837475 &&& W = 3711044837475) (h2 : Kept W s0 a2) :
    KeptO W s0 (execAtomicClear a0 a1 a2) := by
  unfold execAtomicClear
  repeat' first
    | with_reducible assumption
    | with_reducible apply kept_next
    | (with_reducible apply State.enqueue_kept; exact mask_trans (by decide) hW)

theorem execAtomicClearOp_kept {W s0 a0 a1} (hW : 18531 &&& W = 18531) (h1 : Kept W s0 a1) :
    KeptO W s0 (execAtomicClearOp a0 a1) := by
  unfold execAtomicClearOp
  repeat' first
    | with_reducible assumption
    | with_reducible apply kept_next
    | with_reducible apply kept_ite
    | (with_reducible apply State.opRan_kept; exact mask_trans (by decide) hW)
    | (with_reducible apply State.clearTile_kept; exact mask_trans (by decide) hW)
    | (with_reducible apply State.raise_kept; exact mask_trans (by decide) hW)
    | (with_reducible apply State.bump_kept; exact mask_trans (by decide) hW)
    | with_reducible apply kept_foldl
    | with_reducible intro _ _ _
    | dsimp only
    | split

theorem execAttWalk_kept {W s0 a0 a1 a2} (hW : 3711044837475 &&& W = 3711044837475) (h2 : Kept W s0 a2) :
    KeptO W s0 (execAttWalk a0 a1 a2) := by
  unfold execAttWalk
  repeat' first
    | with_reducible assumption
    | with_reducible apply kept_next
    | (with_reducible apply State.enqueue_kept; exact mask_trans (by decide) hW)

theorem execBankPowerUpDone_kept {W s0 a0 a1 a2} (hW : 6144 &&& W = 6144) (h2 : Kept W s0 a2) :
    KeptO W s0 (execBankPowerUpDone a0 a1 a2) := by
  unfold execBankPowerUpDone
  repeat' first
    | with_reducible assumption
    | with_reducible apply kept_next
    | with_reducible apply kept_ite
    | (with_reducible apply State.zeroTiles_kept; exact mask_trans (by decide) hW)
    | fail_if_no_progress (with_reducible apply kept_memctl; exact mask_trans (by decide) hW; exact ⟨rfl, rfl, rfl, rfl⟩)

theorem execBranch_kept {W s0 a0 a1 a2} (hW : 3711044837475 &&& W = 3711044837475) (h2 : Kept W s0 a2) :
    KeptO W s0 (execBranch a0 a1 a2) := by
  unfold execBranch
  repeat' first
    | with_reducible assumption
    | with_reducible apply kept_next
    | (with_reducible apply State.issue_kept; exact mask_trans (by decide) hW)
    | (with_reducible apply State.seqGoto_kept; exact mask_trans (by decide) hW)
    | with_reducible intro _

theorem execChannelDrainDone_kept {W s0 a0 a1} (hW : 512 &&& W = 512) (h1 : Kept W s0 a1) :
    KeptO W s0 (execChannelDrainDone a0 a1) := by
  unfold execChannelDrainDone
  repeat' first
    | with_reducible assumption
    | with_reducible apply kept_next
    | with_reducible apply kept_ite
    | (with_reducible apply State.setChan_kept; exact mask_trans (by decide) hW)

theorem execChannelError_kept {W s0 a0 a1} (hW : 609 &&& W = 609) (h1 : Kept W s0 a1) :
    KeptO W s0 (execChannelError a0 a1) := by
  unfold execChannelError
  repeat' first
    | with_reducible assumption
    | with_reducible apply kept_next
    | with_reducible apply kept_ite
    | (with_reducible apply State.chanError_kept; exact mask_trans (by decide) hW)

theorem execCoalTime_kept {W s0 a0 a1} (hW : 640 &&& W = 640) (h1 : Kept W s0 a1) :
    KeptO W s0 (execCoalTime a0 a1) := by
  unfold execCoalTime
  repeat' first
    | with_reducible assumption
    | with_reducible apply kept_next
    | with_reducible apply kept_ite
    | (with_reducible apply State.interrupt_kept; exact mask_trans (by decide) hW)
    | (with_reducible apply State.setChan_kept; exact mask_trans (by decide) hW)

theorem execCopy_kept {W s0 a0 a1 a2} (hW : 3711044837475 &&& W = 3711044837475) (h2 : Kept W s0 a2) :
    KeptO W s0 (execCopy a0 a1 a2) := by
  unfold execCopy
  repeat' first
    | with_reducible assumption
    | with_reducible apply kept_next
    | (with_reducible apply State.enqueue_kept; exact mask_trans (by decide) hW)

theorem execDMv_kept {W s0 a0 a1 a2} (hW : 3711044837475 &&& W = 3711044837475) (h2 : Kept W s0 a2) :
    KeptO W s0 (execDMv a0 a1 a2) := by
  unfold execDMv
  repeat' first
    | with_reducible assumption
    | with_reducible apply kept_next
    | (with_reducible apply State.enqueue_kept; exact mask_trans (by decide) hW)

theorem execDVec_kept {W s0 a0 a1 a2} (hW : 3711044837475 &&& W = 3711044837475) (h2 : Kept W s0 a2) :
    KeptO W s0 (execDVec a0 a1 a2) := by
  unfold execDVec
  repeat' first
    | with_reducible assumption
    | with_reducible apply kept_next
    | (with_reducible apply State.enqueue_kept; exact mask_trans (by decide) hW)

theorem execDbPoll_kept {W s0 a0 a1} (hW : 2017 &&& W = 2017) (h1 : Kept W s0 a1) :
    KeptO W s0 (execDbPoll a0 a1) := by
  unfold execDbPoll
  repeat' first
    | with_reducible assumption
    | with_reducible apply kept_next
    | with_reducible apply kept_ite
    | (with_reducible apply State.hostWrites_kept; exact mask_trans (by decide) hW)
    | (with_reducible apply State.takeDoorbell_kept; exact mask_trans (by decide) hW)
    | (with_reducible apply State.takeEvHead_kept; exact mask_trans (by decide) hW)
    | with_reducible apply kept_foldl
    | with_reducible intro _ _ _

theorem execDoneSet_kept {W s0 a0 a1 a2} (hW : 3711044837475 &&& W = 3711044837475) (h2 : Kept W s0 a2) :
    KeptO W s0 (execDoneSet a0 a1 a2) := by
  unfold execDoneSet
  repeat' first
    | with_reducible assumption
    | with_reducible apply kept_next
    | (with_reducible apply State.issue_kept; exact mask_trans (by decide) hW)
    | (with_reducible apply State.seqGoto_kept; exact mask_trans (by decide) hW)
    | (with_reducible apply State.setSeq_kept; exact mask_trans (by decide) hW)
    | with_reducible intro _

theorem execDoneWait_kept {W s0 a0 a1 a2} (hW : 3711044837475 &&& W = 3711044837475) (h2 : Kept W s0 a2) :
    KeptO W s0 (execDoneWait a0 a1 a2) := by
  unfold execDoneWait
  repeat' first
    | with_reducible assumption
    | with_reducible apply kept_next
    | with_reducible apply kept_ite
    | (with_reducible apply State.issue_kept; exact mask_trans (by decide) hW)
    | (with_reducible apply State.seqGoto_kept; exact mask_trans (by decide) hW)
    | (with_reducible apply State.stall_kept; exact mask_trans (by decide) hW)
    | with_reducible intro _

theorem execDoorbellInvalidation_kept {W s0 a0 a1 a2} (hW : 2017 &&& W = 2017) (h2 : Kept W s0 a2) :
    KeptO W s0 (execDoorbellInvalidation a0 a1 a2) := by
  unfold execDoorbellInvalidation
  repeat' first
    | with_reducible assumption
    | with_reducible apply kept_next
    | with_reducible apply kept_ite
    | (with_reducible apply State.hostWrites_kept; exact mask_trans (by decide) hW)
    | (with_reducible apply State.takeEvHead_kept; exact mask_trans (by decide) hW)
    | (with_reducible apply State.takeDoorbell_kept; exact mask_trans (by decide) hW)

theorem execEventArrival_kept {W s0 a0 a1} (hW : 226 &&& W = 226) (h1 : Kept W s0 a1) :
    KeptO W s0 (execEventArrival a0 a1) := by
  unfold execEventArrival
  repeat' first
    | with_reducible assumption
    | with_reducible apply kept_next
    | (with_reducible apply State.evRecord_kept; exact mask_trans (by decide) hW)
    | fail_if_no_progress (with_reducible apply kept_time_ev; exact mask_trans (by decide) hW)
    | dsimp only
    | split

theorem execEventCatalogue_kept {W s0 a0 a1 a2 a3} (hW : 1920 &&& W = 1920) (h3 : Kept W s0 a3) :
    KeptO W s0 (execEventCatalogue a0 a1 a2 a3) := by
  unfold execEventCatalogue
  repeat' first
    | with_reducible assumption
    | with_reducible apply kept_next
    | (with_reducible apply State.descriptor_kept; exact mask_trans (by decide) hW)
    | (with_reducible apply State.finish_kept; exact mask_trans (by decide) hW)
    | (with_reducible apply State.hostPut_kept; exact mask_trans (by decide) hW)
    | with_reducible intro _ _ _

theorem execEventFlush_kept {W s0 a0 a1} (hW : 1984 &&& W = 1984) (h1 : Kept W s0 a1) :
    KeptO W s0 (execEventFlush a0 a1) := by
  unfold execEventFlush
  repeat' first
    | with_reducible assumption
    | with_reducible apply kept_next
    | with_reducible apply kept_ite
    | (with_reducible apply State.descriptor_kept; exact mask_trans (by decide) hW)
    | (with_reducible apply State.finish_kept; exact mask_trans (by decide) hW)
    | fail_if_no_progress (with_reducible apply kept_ev; exact mask_trans (by decide) hW)
    | with_reducible intro _ _ _

theorem execEventMask_kept {W s0 a0 a1 a2 a3} (hW : 1984 &&& W = 1984) (h3 : Kept W s0 a3) :
    KeptO W s0 (execEventMask a0 a1 a2 a3) := by
  unfold execEventMask
  repeat' first
    | with_reducible assumption
    | with_reducible apply kept_next
    | (with_reducible apply State.descriptor_kept; exact mask_trans (by decide) hW)
    | (with_reducible apply State.finish_kept; exact mask_trans (by decide) hW)
    | fail_if_no_progress (with_reducible apply kept_ev; exact mask_trans (by decide) hW)
    | with_reducible intro _ _ _

theorem execFence_kept {W s0 a0 a1 a2} (hW : 3711044837475 &&& W = 3711044837475) (h2 : Kept W s0 a2) :
    KeptO W s0 (execFence a0 a1 a2) := by
  unfold execFence
  repeat' first
    | with_reducible assumption
    | with_reducible apply kept_next
    | with_reducible apply kept_ite
    | (with_reducible apply State.issue_kept; exact mask_trans (by decide) hW)
    | (with_reducible apply State.seqGoto_kept; exact mask_trans (by decide) hW)
    | (with_reducible apply State.stall_kept; exact mask_trans (by decide) hW)
    | with_reducible intro _

theorem execHalt_kept {W s0 a0 a1 a2} (hW : 3711044837475 &&& W = 3711044837475) (h2 : Kept W s0 a2) :
    KeptO W s0 (execHalt a0 a1 a2) := by
  unfold execHalt
  repeat' first
    | with_reducible assumption
    | with_reducible apply kept_next
    | (with_reducible apply State.issue_kept; exact mask_trans (by decide) hW)
    | (with_reducible apply State.hearthIrq_kept; exact mask_trans (by decide) hW)
    | (with_reducible apply State.setSeq_kept; exact mask_trans (by decide) hW)
    | with_reducible intro _

theorem execHbmRowIdleClose_kept {W s0 a0 a1} (hW : 4096 &&& W = 4096) (h1 : Kept W s0 a1) :
    KeptO W s0 (execHbmRowIdleClose a0 a1) := by
  unfold execHbmRowIdleClose
  repeat' first
    | with_reducible assumption
    | with_reducible apply kept_next
    | fail_if_no_progress (with_reducible apply kept_memctl; exact mask_trans (by decide) hW; exact ⟨rfl, rfl, rfl, rfl⟩)

theorem execHdmDecoderCommit_kept {W s0 a0 a1} (hW : 1048576 &&& W = 1048576) (h1 : Kept W s0 a1) :
    KeptO W s0 (execHdmDecoderCommit a0 a1) := by
  unfold execHdmDecoderCommit
  repeat' first
    | with_reducible assumption
    | with_reducible apply kept_next
    | with_reducible apply kept_ite
    | fail_if_no_progress (with_reducible apply kept_hdmDecoder; exact mask_trans (by decide) hW)

theorem execHostMemRead_kept {W s0 a0 a1} (hW : 6243 &&& W = 6243) (h1 : Kept W s0 a1) :
    KeptO W s0 (execHostMemRead a0 a1) := by
  unfold execHostMemRead
  repeat' first
    | with_reducible assumption
    | with_reducible apply kept_next
    | with_reducible apply kept_ite
    | (with_reducible apply State.hostLineRead_kept; exact mask_trans (by decide) hW)

theorem execHostMemWrite_kept {W s0 a0 a1 a2} (hW : 6144 &&& W = 6144) (h2 : Kept W s0 a2) :
    KeptO W s0 (execHostMemWrite a0 a1 a2) := by
  unfold execHostMemWrite
  repeat' first
    | with_reducible assumption
    | with_reducible apply kept_next
    | with_reducible apply kept_ite
    | (with_reducible apply State.writePieces_kept; exact mask_trans (by decide) hW)

theorem execIntr_kept {W s0 a0 a1 a2} (hW : 3711044837475 &&& W = 3711044837475) (h2 : Kept W s0 a2) :
    KeptO W s0 (execIntr a0 a1 a2) := by
  unfold execIntr
  repeat' first
    | with_reducible assumption
    | with_reducible apply kept_next
    | (with_reducible apply State.issue_kept; exact mask_trans (by decide) hW)
    | (with_reducible apply State.seqGoto_kept; exact mask_trans (by decide) hW)
    | (with_reducible apply State.hearthIrq_kept; exact mask_trans (by decide) hW)
    | (with_reducible apply State.setSeq_kept; exact mask_trans (by decide) hW)
    | with_reducible intro _

theorem execJump_kept {W s0 a0 a1 a2} (hW : 3711044837475 &&& W = 3711044837475) (h2 : Kept W s0 a2) :
    KeptO W s0 (execJump a0 a1 a2) := by
  unfold execJump
  repeat' first
    | with_reducible assumption
    | with_reducible apply kept_next
    | (with_reducible apply State.issue_kept; exact mask_trans (by decide) hW)
    | (with_reducible apply State.seqGoto_kept; exact mask_trans (by decide) hW)
    | with_reducible intro _

theorem execJumpr_kept {W s0 a0 a1 a2} (hW : 3711044837475 &&& W = 3711044837475) (h2 : Kept W s0 a2) :
    KeptO W s0 (execJumpr a0 a1 a2) := by
  unfold execJumpr
  repeat' first
    | with_reducible assumption
    | with_reducible apply kept_next
    | (with_reducible apply State.issue_kept; exact mask_trans (by decide) hW)
    | (with_reducible apply State.seqGoto_kept; exact mask_trans (by decide) hW)
    | with_reducible intro _

theorem execKvAppend_kept {W s0 a0 a1 a2} (hW : 3711044837475 &&& W = 3711044837475) (h2 : Kept W s0 a2) :
    KeptO W s0 (execKvAppend a0 a1 a2) := by
  unfold execKvAppend
  repeat' first
    | with_reducible assumption
    | with_reducible apply kept_next
    | (with_reducible apply State.enqueue_kept; exact mask_trans (by decide) hW)

theorem execLd_kept {W s0 a0 a1 a2} (hW : 3711044843619 &&& W = 3711044843619) (h2 : Kept W s0 a2) :
    KeptO W s0 (execLd a0 a1 a2) := by
  unfold execLd
  repeat' first
    | with_reducible assumption
    | with_reducible apply kept_next
    | with_reducible apply kept_ite
    | (with_reducible apply State.issue_kept; exact mask_trans (by decide) hW)
    | (with_reducible apply State.read_kept; exact mask_trans (by decide) hW)
    | (with_reducible apply State.seqSet_kept; exact mask_trans (by decide) hW)
    | (with_reducible apply State.instrFault_kept; exact mask_trans (by decide) hW)
    | with_reducible intro _

theorem execLoop_kept {W s0 a0 a1 a2} (hW : 3711044837475 &&& W = 3711044837475) (h2 : Kept W s0 a2) :
    KeptO W s0 (execLoop a0 a1 a2) := by
  unfold execLoop
  repeat' first
    | with_reducible assumption
    | with_reducible apply kept_next
    | (with_reducible apply State.issue_kept; exact mask_trans (by decide) hW)
    | (with_reducible apply State.seqGoto_kept; exact mask_trans (by decide) hW)
    | (with_reducible apply State.setSeq_kept; exact mask_trans (by decide) hW)
    | with_reducible intro _

theorem execNop_kept {W s0 a0 a1 a2} (hW : 3711044837475 &&& W = 3711044837475) (h2 : Kept W s0 a2) :
    KeptO W s0 (execNop a0 a1 a2) := by
  unfold execNop
  repeat' first
    | with_reducible assumption
    | with_reducible apply kept_next
    | (with_reducible apply State.issue_kept; exact mask_trans (by decide) hW)
    | (with_reducible apply State.seqGoto_kept; exact mask_trans (by decide) hW)
    | with_reducible intro _

theorem execOpCompletion_kept {W s0 a0 a1 a2} (hW : 3711044837475 &&& W = 3711044837475) (h2 : Kept W s0 a2) :
    KeptO W s0 (execOpCompletion a0 a1 a2) := by
  unfold execOpCompletion
  repeat' first
    | with_reducible assumption
    | with_reducible apply kept_next
    | (with_reducible apply State.opCompletion_kept; exact mask_trans (by decide) hW)

theorem execPatrolRead_kept {W s0 a0 a1 a2} (hW : 6243 &&& W = 6243) (h2 : Kept W s0 a2) :
    KeptO W s0 (execPatrolRead a0 a1 a2) := by
  unfold execPatrolRead
  repeat' first
    | with_reducible assumption
    | with_reducible apply kept_next
    | with_reducible apply kept_ite
    | (with_reducible apply State.patrolRead_kept; exact mask_trans (by decide) hW)
    | (with_reducible apply State.hbmReports_kept; exact mask_trans (by decide) hW)

theorem execPbld_kept {W s0 a0 a1 a2} (hW : 3711044837475 &&& W = 3711044837475) (h2 : Kept W s0 a2) :
    KeptO W s0 (execPbld a0 a1 a2) := by
  unfold execPbld
  repeat' first
    | with_reducible assumption
    | with_reducible apply kept_next
    | with_reducible apply kept_ite
    | (with_reducible apply State.issue_kept; exact mask_trans (by decide) hW)
    | (with_reducible apply State.seqSet_kept; exact mask_trans (by decide) hW)
    | fail_if_no_progress (with_reducible apply kept_fresh; exact mask_trans (by decide) hW)
    | with_reducible intro _

theorem execPop_kept {W s0 a0 a1 a2} (hW : 3711044837475 &&& W = 3711044837475) (h2 : Kept W s0 a2) :
    KeptO W s0 (execPop a0 a1 a2) := by
  unfold execPop
  repeat' first
    | with_reducible assumption
    | with_reducible apply kept_next
    | (with_reducible apply State.issue_kept; exact mask_trans (by decide) hW)
    | (with_reducible apply State.stall_kept; exact mask_trans (by decide) hW)
    | (with_reducible apply State.seqGoto_kept; exact mask_trans (by decide) hW)
    | (with_reducible apply State.setSeq_kept; exact mask_trans (by decide) hW)
    | (with_reducible apply State.setQueue_kept; exact mask_trans (by decide) hW)
    | with_reducible intro _
    | dsimp only
    | split

theorem execPost_kept {W s0 a0 a1 a2} (hW : 3711044837475 &&& W = 3711044837475) (h2 : Kept W s0 a2) :
    KeptO W s0 (execPost a0 a1 a2) := by
  unfold execPost
  repeat' first
    | with_reducible assumption
    | with_reducible apply kept_next
    | (with_reducible apply State.issue_kept; exact mask_trans (by decide) hW)
    | (with_reducible apply State.syncSend_kept; exact mask_trans (by decide) hW)
    | (with_reducible apply State.seqGoto_kept; exact mask_trans (by decide) hW)
    | with_reducible intro _

theorem execPsumAdd_kept {W s0 a0 a1 a2} (hW : 3711044837475 &&& W = 3711044837475) (h2 : Kept W s0 a2) :
    KeptO W s0 (execPsumAdd a0 a1 a2) := by
  unfold execPsumAdd
  repeat' first
    | with_reducible assumption
    | with_reducible apply kept_next
    | (with_reducible apply State.enqueue_kept; exact mask_trans (by decide) hW)

theorem execPtmExchange_kept {W s0 a0 a1} (hW : 32 &&& W = 32) (h1 : Kept W s0 a1) :
    KeptO W s0 (execPtmExchange a0 a1) := by
  unfold execPtmExchange
  repeat' first
    | with_reducible assumption
    | with_reducible apply kept_next
    | fail_if_no_progress (with_reducible apply kept_time; exact mask_trans (by decide) hW)

theorem execPush_kept {W s0 a0 a1} (hW : 3711044843619 &&& W = 3711044843619) (h1 : Kept W s0 a1) :
    KeptO W s0 (execPush a0 a1) := by
  unfold execPush
  refine kept_next ?_
  split
  · rename_i q f
    apply State.issue_kept (mask_trans (by decide) hW) h1
    intro x
    have hr := State.read_kept (a0 := a1) (a1 := Reader.ofCore q) (a2 := a1.loc (x.get f.a).toNat) (a3 := 64 * tagFlits ((x.get f.b).toNat % 2 ^ 32)) (mask_trans (by decide : 6243 &&& 3711044843619 = 6243) hW) h1
    refine kept_ite ?_ (State.instrFault_kept (mask_trans (by decide) hW) hr)
    apply State.wqWrite_kept (mask_trans (by decide) hW) hr
    · intro s h
      exact State.stall_kept (mask_trans (by decide) hW) h
    · intro s h
      exact State.seqGoto_kept (mask_trans (by decide) hW) h
  · exact State.wqWrite_kept (mask_trans (by decide) hW) h1 (fun s h => h) (fun s h => h)

theorem execSeqLoad_kept {W s0 a0 a1 a2 a3 a4} (hW : 55395 &&& W = 55395) (h4 : Kept W s0 a4) :
    KeptO W s0 (execSeqLoad a0 a1 a2 a3 a4) := by
  unfold execSeqLoad
  repeat' first
    | with_reducible assumption
    | with_reducible apply kept_next
    | with_reducible apply kept_ite
    | (with_reducible apply State.seqControl_kept; exact mask_trans (by decide) hW)
    | (with_reducible apply State.read_kept; exact mask_trans (by decide) hW)
    | fail_if_no_progress (with_reducible apply kept_store; exact mask_trans (by decide) hW)

theorem execSeqResumeRetry_kept {W s0 a0 a1} (hW : 3711044837475 &&& W = 3711044837475) (h1 : Kept W s0 a1) :
    KeptO W s0 (execSeqResumeRetry a0 a1) := by
  unfold execSeqResumeRetry
  repeat' first
    | with_reducible assumption
    | with_reducible apply kept_next
    | with_reducible apply kept_ite
    | (with_reducible apply State.seqControl_kept; exact mask_trans (by decide) hW)
    | (with_reducible apply State.seqGoto_kept; exact mask_trans (by decide) hW)

theorem execSeqResumeSkip_kept {W s0 a0 a1} (hW : 3711044837475 &&& W = 3711044837475) (h1 : Kept W s0 a1) :
    KeptO W s0 (execSeqResumeSkip a0 a1) := by
  unfold execSeqResumeSkip
  repeat' first
    | with_reducible assumption
    | with_reducible apply kept_next
    | with_reducible apply kept_ite
    | (with_reducible apply State.seqControl_kept; exact mask_trans (by decide) hW)
    | (with_reducible apply State.seqGoto_kept; exact mask_trans (by decide) hW)
    | (with_reducible apply State.setSeq_kept; exact mask_trans (by decide) hW)

theorem execSeqStart_kept {W s0 a0 a1 a2} (hW : 3711044837475 &&& W = 3711044837475) (h2 : Kept W s0 a2) :
    KeptO W s0 (execSeqStart a0 a1 a2) := by
  unfold execSeqStart
  repeat' first
    | with_reducible assumption
    | with_reducible apply kept_next
    | with_reducible apply kept_ite
    | (with_reducible apply State.seqControl_kept; exact mask_trans (by decide) hW)
    | (with_reducible apply State.seqGoto_kept; exact mask_trans (by decide) hW)

theorem execSeqStop_kept {W s0 a0 a1} (hW : 16384 &&& W = 16384) (h1 : Kept W s0 a1) :
    KeptO W s0 (execSeqStop a0 a1) := by
  unfold execSeqStop
  repeat' first
    | with_reducible assumption
    | with_reducible apply kept_next
    | with_reducible apply kept_ite
    | (with_reducible apply State.setSeq_kept; exact mask_trans (by decide) hW)

theorem execSeti_kept {W s0 a0 a1 a2} (hW : 3711044837475 &&& W = 3711044837475) (h2 : Kept W s0 a2) :
    KeptO W s0 (execSeti a0 a1 a2) := by
  unfold execSeti
  repeat' first
    | with_reducible assumption
    | with_reducible apply kept_next
    | (with_reducible apply State.issue_kept; exact mask_trans (by decide) hW)
    | (with_reducible apply State.seqSet_kept; exact mask_trans (by decide) hW)
    | with_reducible intro _

theorem execSt_kept {W s0 a0 a1 a2} (hW : 3711044843619 &&& W = 3711044843619) (h2 : Kept W s0 a2) :
    KeptO W s0 (execSt a0 a1 a2) := by
  unfold execSt
  repeat' first
    | with_reducible assumption
    | with_reducible apply kept_next
    | with_reducible apply kept_ite
    | (with_reducible apply State.issue_kept; exact mask_trans (by decide) hW)
    | (with_reducible apply State.write_kept; exact mask_trans (by decide) hW)
    | (with_reducible apply State.seqGoto_kept; exact mask_trans (by decide) hW)
    | (with_reducible apply State.instrFault_kept; exact mask_trans (by decide) hW)
    | with_reducible intro _

theorem execSyncSet_kept {W s0 a0 a1 a2} (hW : 3711044837475 &&& W = 3711044837475) (h2 : Kept W s0 a2) :
    KeptO W s0 (execSyncSet a0 a1 a2) := by
  unfold execSyncSet
  repeat' first
    | with_reducible assumption
    | with_reducible apply kept_next
    | (with_reducible apply State.issue_kept; exact mask_trans (by decide) hW)
    | (with_reducible apply State.syncSend_kept; exact mask_trans (by decide) hW)
    | (with_reducible apply State.seqGoto_kept; exact mask_trans (by decide) hW)
    | with_reducible intro _

theorem execSyncSetArrival_kept {W s0 a0 a1} (hW : 3711044903011 &&& W = 3711044903011) (h1 : Kept W s0 a1) :
    KeptO W s0 (execSyncSetArrival a0 a1) := by
  unfold execSyncSetArrival
  repeat' first
    | with_reducible assumption
    | with_reducible apply kept_next
    | (with_reducible apply State.objSet_kept; exact mask_trans (by decide) hW)
    | (with_reducible apply State.landed_kept; exact mask_trans (by decide) hW)
    | split

theorem execSyncWaitArrival_kept {W s0 a0 a1} (hW : 3711044903011 &&& W = 3711044903011) (h1 : Kept W s0 a1) :
    KeptO W s0 (execSyncWaitArrival a0 a1) := by
  unfold execSyncWaitArrival
  repeat' first
    | with_reducible assumption
    | with_reducible apply kept_next
    | (with_reducible apply State.objWait_kept; exact mask_trans (by decide) hW)
    | (with_reducible apply State.landed_kept; exact mask_trans (by decide) hW)
    | split

theorem execSyncWaitLong_kept {W s0 a0 a1 a2} (hW : 65633 &&& W = 65633) (h2 : Kept W s0 a2) :
    KeptO W s0 (execSyncWaitLong a0 a1 a2) := by
  unfold execSyncWaitLong
  repeat' first
    | with_reducible assumption
    | with_reducible apply kept_next
    | with_reducible apply kept_ite
    | (with_reducible apply State.raise_kept; exact mask_trans (by decide) hW)
    | (with_reducible apply State.setObj_kept; exact mask_trans (by decide) hW)
    | dsimp only
    | split

theorem execTick_kept {W s0 a0 a1 a2} (hW : 3711044837475 &&& W = 3711044837475) (h2 : Kept W s0 a2) :
    KeptO W s0 (execTick a0 a1 a2) := by
  unfold execTick
  repeat' first
    | with_reducible assumption
    | with_reducible apply kept_next
    | (with_reducible apply State.issue_kept; exact mask_trans (by decide) hW)
    | (with_reducible apply State.domainRuns_kept; exact mask_trans (by decide) hW)
    | (with_reducible apply State.seqSet_kept; exact mask_trans (by decide) hW)
    | with_reducible intro _

theorem execTimeMark_kept {W s0 a0 a1 a2 a3} (hW : 1922 &&& W = 1922) (h3 : Kept W s0 a3) :
    KeptO W s0 (execTimeMark a0 a1 a2 a3) := by
  unfold execTimeMark
  repeat' first
    | with_reducible assumption
    | with_reducible apply kept_next
    | with_reducible apply kept_ite
    | (with_reducible apply State.descriptor_kept; exact mask_trans (by decide) hW)
    | (with_reducible apply State.finish_kept; exact mask_trans (by decide) hW)
    | (with_reducible apply State.setReg_kept; exact mask_trans (by decide) hW)
    | with_reducible intro _ _ _

theorem execWait_kept {W s0 a0 a1 a2} (hW : 3711044837475 &&& W = 3711044837475) (h2 : Kept W s0 a2) :
    KeptO W s0 (execWait a0 a1 a2) := by
  unfold execWait
  repeat' first
    | with_reducible assumption
    | with_reducible apply kept_next
    | (with_reducible apply State.issue_kept; exact mask_trans (by decide) hW)
    | (with_reducible apply State.syncSend_kept; exact mask_trans (by decide) hW)
    | (with_reducible apply State.stall_kept; exact mask_trans (by decide) hW)
    | with_reducible intro _

theorem execWqFlush_kept {W s0 a0 a1 a2} (hW : 8291 &&& W = 8291) (h2 : Kept W s0 a2) :
    KeptO W s0 (execWqFlush a0 a1 a2) := by
  unfold execWqFlush
  repeat' first
    | with_reducible assumption
    | with_reducible apply kept_next
    | (with_reducible apply State.raise_kept; exact mask_trans (by decide) hW)
    | (with_reducible apply State.bump_kept; exact mask_trans (by decide) hW)
    | (with_reducible apply State.setQueue_kept; exact mask_trans (by decide) hW)

theorem execWqWriteHeld_kept {W s0 a0 a1 a2} (hW : 8289 &&& W = 8289) (h2 : Kept W s0 a2) :
    KeptO W s0 (execWqWriteHeld a0 a1 a2) := by
  unfold execWqWriteHeld
  repeat' first
    | with_reducible assumption
    | with_reducible apply kept_next
    | (with_reducible apply State.raise_kept; exact mask_trans (by decide) hW)
    | (with_reducible apply State.setQueue_kept; exact mask_trans (by decide) hW)
    | dsimp only
    | split

end Sys2Proof.Machine
end

