-- ==== Sys2Proof/Laws/KeptArray.lean ====
section
/-! SUPPORT. What each operation leaves alone, and that it keeps the canonical form: engines, calibration and requests. -/

set_option linter.all false
set_option linter.unreachableTactic false
set_option linter.unusedTactic false
set_option linter.unusedVariables false

namespace Sys2Proof.Machine

theorem State.freeSlot_kept {W s0 a0 a1 a2} (hW : 2050 &&& W = 2050) (h0 : Kept W s0 a0) :
    Kept W s0 (State.freeSlot a0 a1 a2) := by
  unfold State.freeSlot
  repeat' first
    | with_reducible assumption
    | (with_reducible apply State.bump_kept; exact mask_trans (by decide) hW)
    | (with_reducible apply State.zeroTiles_kept; exact mask_trans (by decide) hW)
    | with_reducible apply kept_foldl
    | with_reducible intro _ _ _

theorem State.setPool_kept {W s0 a0 a1 a2} (hW : 68719476736 &&& W = 68719476736) (h0 : Kept W s0 a0) :
    Kept W s0 (State.setPool a0 a1 a2) := by
  unfold State.setPool
  repeat' first
    | with_reducible assumption
    | fail_if_no_progress (with_reducible apply kept_pools; exact mask_trans (by decide) hW)

theorem State.dropSlot_kept {W s0 a0 a1 a2} (hW : 68719478786 &&& W = 68719478786) (h0 : Kept W s0 a0) :
    Kept W s0 (State.dropSlot a0 a1 a2) := by
  unfold State.dropSlot
  repeat' first
    | with_reducible assumption
    | (with_reducible apply State.freeSlot_kept; exact mask_trans (by decide) hW)
    | (with_reducible apply State.setPool_kept; exact mask_trans (by decide) hW)

theorem State.setReq_kept {W s0 a0 a1 a2} (hW : 8589934592 &&& W = 8589934592) (h0 : Kept W s0 a0) :
    Kept W s0 (State.setReq a0 a1 a2) := by
  unfold State.setReq
  repeat' first
    | with_reducible assumption
    | fail_if_no_progress (with_reducible apply kept_reqs; exact mask_trans (by decide) hW)

theorem State.setTable_kept {W s0 a0 a1 a2} (hW : 34359738368 &&& W = 34359738368) (h0 : Kept W s0 a0) :
    Kept W s0 (State.setTable a0 a1 a2) := by
  unfold State.setTable
  repeat' first
    | with_reducible assumption
    | fail_if_no_progress (with_reducible apply kept_tables; exact mask_trans (by decide) hW)

theorem State.stopResume_kept {W s0 a0 a1} (hW : 111669151746 &&& W = 111669151746) (h0 : Kept W s0 a0) :
    Kept W s0 (State.stopResume a0 a1) := by
  unfold State.stopResume
  repeat' first
    | with_reducible assumption
    | (with_reducible apply State.dropSlot_kept; exact mask_trans (by decide) hW)
    | (with_reducible apply State.setReq_kept; exact mask_trans (by decide) hW)
    | (with_reducible apply State.setTable_kept; exact mask_trans (by decide) hW)
    | with_reducible apply kept_foldl
    | with_reducible intro _ _ _
    | split

theorem State.releaseExtent_kept {W s0 a0 a1} (hW : 8589934592 &&& W = 8589934592) (h0 : Kept W s0 a0) :
    Kept W s0 (State.releaseExtent a0 a1) := by
  unfold State.releaseExtent
  repeat' first
    | with_reducible assumption
    | (with_reducible apply State.setReq_kept; exact mask_trans (by decide) hW)

theorem State.stopMove_kept {W s0 a0 a1} (hW : 42949672960 &&& W = 42949672960) (h0 : Kept W s0 a0) :
    Kept W s0 (State.stopMove a0 a1) := by
  unfold State.stopMove
  repeat' first
    | with_reducible assumption
    | with_reducible apply kept_ite
    | (with_reducible apply State.releaseExtent_kept; exact mask_trans (by decide) hW)
    | (with_reducible apply State.setReq_kept; exact mask_trans (by decide) hW)
    | (with_reducible apply State.setTable_kept; exact mask_trans (by decide) hW)

theorem State.requestEvent_kept {W s0 a0 a1 a2 a3 a4} (hW : 1761 &&& W = 1761) (h0 : Kept W s0 a0) :
    Kept W s0 (State.requestEvent a0 a1 a2 a3 a4) := by
  unfold State.requestEvent
  repeat' first
    | with_reducible assumption
    | (with_reducible apply State.raise_kept; exact mask_trans (by decide) hW)
    | (with_reducible apply State.complete_kept; exact mask_trans (by decide) hW)

theorem State.setAdapter_kept {W s0 a0 a1 a2} (hW : 17179869184 &&& W = 17179869184) (h0 : Kept W s0 a0) :
    Kept W s0 (State.setAdapter a0 a1 a2) := by
  unfold State.setAdapter
  repeat' first
    | with_reducible assumption
    | fail_if_no_progress (with_reducible apply kept_adapters; exact mask_trans (by decide) hW)

theorem State.unpin_kept {W s0 a0 a1} (hW : 25769803776 &&& W = 25769803776) (h0 : Kept W s0 a0) :
    Kept W s0 (State.unpin a0 a1) := by
  unfold State.unpin
  repeat' first
    | with_reducible assumption
    | with_reducible apply kept_ite
    | (with_reducible apply State.setReq_kept; exact mask_trans (by decide) hW)
    | (with_reducible apply State.setAdapter_kept; exact mask_trans (by decide) hW)

theorem State.stageEdit_kept {W s0 a0 a1 a2} (hW : 34359738368 &&& W = 34359738368) (h0 : Kept W s0 a0) :
    Kept W s0 (State.stageEdit a0 a1 a2) := by
  unfold State.stageEdit
  repeat' first
    | with_reducible assumption
    | (with_reducible apply State.setTable_kept; exact mask_trans (by decide) hW)

theorem State.forget_kept {W s0 a0 a1} (hW : 137438953472 &&& W = 137438953472) (h0 : Kept W s0 a0) :
    Kept W s0 (State.forget a0 a1) := by
  unfold State.forget
  repeat' first
    | with_reducible assumption
    | fail_if_no_progress (with_reducible apply kept_step; exact mask_trans (by decide) hW)

theorem State.closeReq_kept {W s0 a0 a1 a2} (hW : 266287976163 &&& W = 266287976163) (h0 : Kept W s0 a0) :
    Kept W s0 (State.closeReq a0 a1 a2) := by
  unfold State.closeReq
  repeat' first
    | with_reducible assumption
    | with_reducible apply kept_ite
    | (with_reducible apply State.stopResume_kept; exact mask_trans (by decide) hW)
    | (with_reducible apply State.stopMove_kept; exact mask_trans (by decide) hW)
    | (with_reducible apply State.requestEvent_kept; exact mask_trans (by decide) hW)
    | (with_reducible apply State.releaseExtent_kept; exact mask_trans (by decide) hW)
    | (with_reducible apply State.unpin_kept; exact mask_trans (by decide) hW)
    | (with_reducible apply State.stageEdit_kept; exact mask_trans (by decide) hW)
    | (with_reducible apply State.forget_kept; exact mask_trans (by decide) hW)
    | (with_reducible apply State.setReq_kept; exact mask_trans (by decide) hW)

theorem State.pauseReq_kept {W s0 a0 a1 a2} (hW : 8589936353 &&& W = 8589936353) (h0 : Kept W s0 a0) :
    Kept W s0 (State.pauseReq a0 a1 a2) := by
  unfold State.pauseReq
  repeat' first
    | with_reducible assumption
    | (with_reducible apply State.requestEvent_kept; exact mask_trans (by decide) hW)
    | (with_reducible apply State.setReq_kept; exact mask_trans (by decide) hW)

theorem State.takeSlot_kept {W s0 a0 a1} (hW : 68719476835 &&& W = 68719476835) (h0 : Kept W s0 a0) :
    Kept W s0 (State.takeSlot a0 a1).2 := by
  unfold State.takeSlot
  repeat' first
    | with_reducible assumption
    | with_reducible apply kept_ite
    | (with_reducible apply State.bump_kept; exact mask_trans (by decide) hW)
    | (with_reducible apply State.setPool_kept; exact mask_trans (by decide) hW)
    | (with_reducible apply State.raise_kept; exact mask_trans (by decide) hW)

theorem State.takePage_kept {W s0 a0 a1} (hW : 68719476835 &&& W = 68719476835) (h0 : Kept W s0 a0) :
    Kept W s0 (State.takePage a0 a1).2 := by
  unfold State.takePage
  repeat' first
    | with_reducible assumption
    | with_reducible apply kept_ite_snd
    | (with_reducible apply State.takeSlot_kept; exact mask_trans (by decide) hW)
    | with_reducible apply kept_foldl_snd
    | with_reducible intro _ _ _

theorem State.takePages_kept {W s0 a0 a1 a2} (hW : 68719476835 &&& W = 68719476835) (h0 : Kept W s0 a0) :
    Kept W s0 (State.takePages a0 a1 a2).2 := by
  fun_induction State.takePages a0 a1 a2
  all_goals
    repeat' first
      | with_reducible assumption
      | (with_reducible apply State.takePage_kept; exact mask_trans (by decide) hW)
      | with_reducible apply_assumption

theorem State.appendPages_kept {W s0 a0 a1 a2 a3} (hW : 103079215203 &&& W = 103079215203) (h0 : Kept W s0 a0) :
    Kept W s0 (State.appendPages a0 a1 a2 a3) := by
  unfold State.appendPages
  repeat' first
    | with_reducible assumption
    | with_reducible apply kept_ite
    | (with_reducible apply State.setTable_kept; exact mask_trans (by decide) hW)
    | (with_reducible apply State.takePages_kept; exact mask_trans (by decide) hW)

theorem OpOut.join_kept {W s0 a0 a1 a2 a3} (hW : 0 &&& W = 0) (h0 : Kept W s0 a0.st) :
    Kept W s0 (OpOut.join a0 a1 a2 a3).st := by
  unfold OpOut.join
  repeat' with_reducible assumption

theorem State.setScan_kept {W s0 a0 a1 a2} (hW : 274877906944 &&& W = 274877906944) (h0 : Kept W s0 a0) :
    Kept W s0 (State.setScan a0 a1 a2) := by
  unfold State.setScan
  repeat' first
    | with_reducible assumption
    | fail_if_no_progress (with_reducible apply kept_det; exact mask_trans (by decide) hW)

theorem State.setSlot_kept {W s0 a0 a1 a2} (hW : 2147483648 &&& W = 2147483648) (h0 : Kept W s0 a0) :
    Kept W s0 (State.setSlot a0 a1 a2) := by
  unfold State.setSlot
  repeat' first
    | with_reducible assumption
    | fail_if_no_progress (with_reducible apply kept_slots; exact mask_trans (by decide) hW)

theorem State.setCal_kept {W s0 a0 a1 a2} (hW : 268435456 &&& W = 268435456) (h0 : Kept W s0 a0) :
    Kept W s0 (State.setCal a0 a1 a2) := by
  unfold State.setCal
  repeat' first
    | with_reducible assumption
    | fail_if_no_progress (with_reducible apply kept_cal; exact mask_trans (by decide) hW)

theorem State.calTrigger_kept {W s0 a0 a1 a2} (hW : 268435456 &&& W = 268435456) (h0 : Kept W s0 a0) :
    Kept W s0 (State.calTrigger a0 a1 a2) := by
  unfold State.calTrigger
  repeat' first
    | with_reducible assumption
    | with_reducible apply kept_ite
    | (with_reducible apply State.setCal_kept; exact mask_trans (by decide) hW)

theorem execCalRequest_kept {W s0 a0 a1 a2} (hW : 268435456 &&& W = 268435456) (h2 : Kept W s0 a2) :
    KeptO W s0 (execCalRequest a0 a1 a2) := by
  unfold execCalRequest
  repeat' first
    | with_reducible assumption
    | with_reducible apply kept_next
    | with_reducible apply kept_ite
    | (with_reducible apply State.calTrigger_kept; exact mask_trans (by decide) hW)

theorem State.adapterBoundary_kept {W s0 a0 a1} (hW : 17179873280 &&& W = 17179873280) (h0 : Kept W s0 a0) :
    Kept W s0 (State.adapterBoundary a0 a1) := by
  unfold State.adapterBoundary
  repeat' first
    | with_reducible assumption
    | (with_reducible apply State.setAdapter_kept; exact mask_trans (by decide) hW)
    | fail_if_no_progress (with_reducible apply kept_memctl; exact mask_trans (by decide) hW; exact ⟨rfl, rfl, rfl, rfl⟩)
    | with_reducible apply kept_foldl
    | with_reducible intro _ _ _

theorem State.addHold_kept {W s0 a0 a1} (hW : 34359738368 &&& W = 34359738368) (h0 : Kept W s0 a0) :
    Kept W s0 (State.addHold a0 a1) := by
  unfold State.addHold
  repeat' first
    | with_reducible assumption
    | (with_reducible apply State.setTable_kept; exact mask_trans (by decide) hW)

theorem State.setEngine_kept {W s0 a0 a1 a2} (hW : 2097152 &&& W = 2097152) (h0 : Kept W s0 a0) :
    Kept W s0 (State.setEngine a0 a1 a2) := by
  unfold State.setEngine
  repeat' first
    | with_reducible assumption
    | fail_if_no_progress (with_reducible apply kept_engines; exact mask_trans (by decide) hW)

theorem State.selectLayer_kept {W s0 a0 a1 a2} (hW : 2097154 &&& W = 2097154) (h0 : Kept W s0 a0) :
    Kept W s0 (State.selectLayer a0 a1 a2) := by
  unfold State.selectLayer
  repeat' first
    | with_reducible assumption
    | with_reducible apply kept_ite
    | (with_reducible apply State.setEngine_kept; exact mask_trans (by decide) hW)
    | (with_reducible apply State.bump_kept; exact mask_trans (by decide) hW)

theorem State.writeRecords_kept {W s0 a0 a1 a2 a3} (hW : 6243 &&& W = 6243) (h0 : Kept W s0 a0) :
    Kept W s0 (State.writeRecords a0 a1 a2 a3).st := by
  unfold State.writeRecords
  repeat' first
    | with_reducible assumption
    | with_reducible apply kept_ite_Wr
    | (with_reducible apply State.write_kept; exact mask_trans (by decide) hW)

theorem State.readCopy_kept {W s0 a0 a1 a2 a3 a4 a5 a6} (hW : 2147489891 &&& W = 2147489891) (h0 : Kept W s0 a0) :
    Kept W s0 (State.readCopy a0 a1 a2 a3 a4 a5 a6).st := by
  unfold State.readCopy
  repeat' first
    | with_reducible assumption
    | with_reducible apply kept_ite_Rd
    | (with_reducible apply State.readPieces_kept; exact mask_trans (by decide) hW)
    | (with_reducible apply State.setSlot_kept; exact mask_trans (by decide) hW)

theorem State.readLines_kept {W s0 a0 a1 a2 a3 a4 a5 a6 a7} (hW : 2147489891 &&& W = 2147489891) (h0 : Kept W s0 a0) (h7 : Kept W s0 a7.st) :
    Kept W s0 (State.readLines a0 a1 a2 a3 a4 a5 a6 a7).st := by
  fun_induction State.readLines a0 a1 a2 a3 a4 a5 a6 a7
  all_goals
    repeat' first
      | with_reducible assumption
      | with_reducible apply kept_ite_Rd
      | (with_reducible apply State.readCopy_kept; exact mask_trans (by decide) hW)
      | with_reducible apply_assumption

theorem State.readTile_kept {W s0 a0 a1 a2 a3 a4 a5} (hW : 2147489891 &&& W = 2147489891) (h0 : Kept W s0 a0) :
    Kept W s0 (State.readTile a0 a1 a2 a3 a4 a5).st := by
  unfold State.readTile
  repeat' first
    | with_reducible assumption
    | with_reducible apply kept_ite_CopyRd
    | (with_reducible apply State.readLines_kept; exact mask_trans (by decide) hW)
    | dsimp only
    | split

theorem State.countConv_kept {W s0 a0 a1 a2 a3 a4} (hW : 2097154 &&& W = 2097154) (h0 : Kept W s0 a0) :
    Kept W s0 (State.countConv a0 a1 a2 a3 a4) := by
  unfold State.countConv
  repeat' first
    | with_reducible assumption
    | (with_reducible apply State.bump_kept; exact mask_trans (by decide) hW)
    | (with_reducible apply State.setEngine_kept; exact mask_trans (by decide) hW)

theorem State.setBank_kept {W s0 a0 a1 a2 a3} (hW : 2097152 &&& W = 2097152) (h0 : Kept W s0 a0) :
    Kept W s0 (State.setBank a0 a1 a2 a3) := by
  unfold State.setBank
  repeat' first
    | with_reducible assumption
    | (with_reducible apply State.setEngine_kept; exact mask_trans (by decide) hW)

theorem State.scanHalt_kept {W s0 a0 a1} (hW : 71193378162304 &&& W = 71193378162304) (h0 : Kept W s0 a0) :
    Kept W s0 (State.scanHalt a0 a1) := by
  unfold State.scanHalt
  repeat' first
    | with_reducible assumption
    | with_reducible apply kept_ite
    | (with_reducible apply State.setScan_kept; exact mask_trans (by decide) hW)
    | (with_reducible apply State.setPosition_kept; exact mask_trans (by decide) hW)
    | (with_reducible apply State.finish_kept; exact mask_trans (by decide) hW)
    | fail_if_no_progress (with_reducible apply kept_hk; exact mask_trans (by decide) hW)
    | with_reducible apply kept_foldl
    | with_reducible intro _ _ _
    | dsimp only
    | split

theorem State.stow_kept {W s0 a0 a1 a2 a3} (hW : 6291456 &&& W = 6291456) (h0 : Kept W s0 a0) :
    Kept W s0 (State.stow a0 a1 a2 a3) := by
  unfold State.stow
  repeat' first
    | with_reducible assumption
    | (with_reducible apply State.setEngine_kept; exact mask_trans (by decide) hW)
    | fail_if_no_progress (with_reducible apply kept_attic; exact mask_trans (by decide) hW)
    | with_reducible apply kept_foldl
    | with_reducible intro _ _ _

theorem State.retire_kept {W s0 a0 a1 a2} (hW : 70368750731264 &&& W = 70368750731264) (h0 : Kept W s0 a0) :
    Kept W s0 (State.retire a0 a1 a2) := by
  unfold State.retire
  repeat' first
    | with_reducible assumption
    | with_reducible apply kept_ite
    | (with_reducible apply State.setPosition_kept; exact mask_trans (by decide) hW)
    | (with_reducible apply State.stow_kept; exact mask_trans (by decide) hW)

theorem State.ashAdd_kept {W s0 a0 a1} (hW : 1073741921 &&& W = 1073741921) (h0 : Kept W s0 a0) :
    Kept W s0 (State.ashAdd a0 a1) := by
  unfold State.ashAdd
  repeat' first
    | with_reducible assumption
    | with_reducible apply kept_ite
    | (with_reducible apply State.raise_kept; exact mask_trans (by decide) hW)
    | fail_if_no_progress (with_reducible apply kept_ash; exact mask_trans (by decide) hW)

theorem State.pauseDie_kept {W s0 a0 a1} (hW : 137438953569 &&& W = 137438953569) (h0 : Kept W s0 a0) :
    Kept W s0 (State.pauseDie a0 a1) := by
  unfold State.pauseDie
  repeat' first
    | with_reducible assumption
    | (with_reducible apply State.raise_kept; exact mask_trans (by decide) hW)
    | fail_if_no_progress (with_reducible apply kept_step; exact mask_trans (by decide) hW)

theorem State.loseCluster_kept {W s0 a0 a1 a2} (hW : 74630625126115 &&& W = 74630625126115) (h0 : Kept W s0 a0) :
    Kept W s0 (State.loseCluster a0 a1 a2) := by
  unfold State.loseCluster
  repeat' first
    | with_reducible assumption
    | with_reducible apply kept_ite
    | (with_reducible apply State.scanHalt_kept; exact mask_trans (by decide) hW)
    | (with_reducible apply State.abandon_kept; exact mask_trans (by decide) hW)
    | (with_reducible apply State.retire_kept; exact mask_trans (by decide) hW)
    | (with_reducible apply State.ashAdd_kept; exact mask_trans (by decide) hW)
    | (with_reducible apply State.pauseDie_kept; exact mask_trans (by decide) hW)
    | (with_reducible apply State.raise_kept; exact mask_trans (by decide) hW)
    | fail_if_no_progress (with_reducible apply kept_det; exact mask_trans (by decide) hW)
    | dsimp only
    | split

theorem State.faultRaise_kept {W s0 a0 a1} (hW : 74630625126115 &&& W = 74630625126115) (h0 : Kept W s0 a0) :
    Kept W s0 (State.faultRaise a0 a1) := by
  unfold State.faultRaise
  repeat' first
    | with_reducible assumption
    | with_reducible apply kept_ite
    | (with_reducible apply State.loseCluster_kept; exact mask_trans (by decide) hW)
    | (with_reducible apply State.raise_kept; exact mask_trans (by decide) hW)
    | fail_if_no_progress (with_reducible apply kept_det; exact mask_trans (by decide) hW)

theorem State.detect_kept {W s0 a0 a1 a2 a3 a4} (hW : 74630625126115 &&& W = 74630625126115) (h0 : Kept W s0 a0) :
    Kept W s0 (State.detect a0 a1 a2 a3 a4) := by
  unfold State.detect
  repeat' first
    | with_reducible assumption
    | with_reducible apply kept_ite
    | (with_reducible apply State.openWindow_kept; exact mask_trans (by decide) hW)
    | (with_reducible apply State.abandon_kept; exact mask_trans (by decide) hW)
    | (with_reducible apply State.faultRaise_kept; exact mask_trans (by decide) hW)
    | fail_if_no_progress (with_reducible apply kept_det; exact mask_trans (by decide) hW)

theorem State.refSamples_kept {W s0 a0 a1 a2 a3 a4} (hW : 74630893561571 &&& W = 74630893561571) (h0 : Kept W s0 a0) :
    Kept W s0 (State.refSamples a0 a1 a2 a3 a4) := by
  unfold State.refSamples
  repeat' first
    | with_reducible assumption
    | with_reducible apply kept_ite
    | (with_reducible apply State.setBank_kept; exact mask_trans (by decide) hW)
    | (with_reducible apply State.bump_kept; exact mask_trans (by decide) hW)
    | (with_reducible apply State.raise_kept; exact mask_trans (by decide) hW)
    | (with_reducible apply State.setEngine_kept; exact mask_trans (by decide) hW)
    | (with_reducible apply State.detect_kept; exact mask_trans (by decide) hW)
    | (with_reducible apply State.calTrigger_kept; exact mask_trans (by decide) hW)

theorem State.ashEngine_kept {W s0 a0 a1 a2 a3 a4 a5 a6 a7} (hW : 1073741921 &&& W = 1073741921) (h0 : Kept W s0 a0) :
    Kept W s0 (State.ashEngine a0 a1 a2 a3 a4 a5 a6 a7) := by
  unfold State.ashEngine
  repeat' first
    | with_reducible assumption
    | (with_reducible apply State.ashAdd_kept; exact mask_trans (by decide) hW)

theorem State.retireLane_kept {W s0 a0 a1 a2 a3 a4} (hW : 1075839075 &&& W = 1075839075) (h0 : Kept W s0 a0) :
    Kept W s0 (State.retireLane a0 a1 a2 a3 a4) := by
  unfold State.retireLane
  repeat' first
    | with_reducible assumption
    | with_reducible apply kept_ite
    | (with_reducible apply State.raise_kept; exact mask_trans (by decide) hW)
    | (with_reducible apply State.ashEngine_kept; exact mask_trans (by decide) hW)
    | (with_reducible apply State.bump_kept; exact mask_trans (by decide) hW)
    | (with_reducible apply State.setBank_kept; exact mask_trans (by decide) hW)

theorem State.retireColumn_kept {W s0 a0 a1 a2 a3 a4 a5 a6} (hW : 1075839075 &&& W = 1075839075) (h0 : Kept W s0 a0) :
    Kept W s0 (State.retireColumn a0 a1 a2 a3 a4 a5 a6) := by
  unfold State.retireColumn
  repeat' first
    | with_reducible assumption
    | with_reducible apply kept_ite
    | (with_reducible apply State.raise_kept; exact mask_trans (by decide) hW)
    | (with_reducible apply State.ashEngine_kept; exact mask_trans (by decide) hW)
    | (with_reducible apply State.bump_kept; exact mask_trans (by decide) hW)
    | (with_reducible apply State.setBank_kept; exact mask_trans (by decide) hW)

theorem State.confirm_kept {W s0 a0 a1 a2 a3 a4 a5 a6} (hW : 74630625126115 &&& W = 74630625126115) (h0 : Kept W s0 a0) :
    Kept W s0 (State.confirm a0 a1 a2 a3 a4 a5 a6) := by
  unfold State.confirm
  repeat' first
    | with_reducible assumption
    | with_reducible apply kept_ite
    | (with_reducible apply State.bump_kept; exact mask_trans (by decide) hW)
    | (with_reducible apply State.raise_kept; exact mask_trans (by decide) hW)
    | (with_reducible apply State.retireLane_kept; exact mask_trans (by decide) hW)
    | (with_reducible apply State.retireColumn_kept; exact mask_trans (by decide) hW)
    | (with_reducible apply State.detect_kept; exact mask_trans (by decide) hW)

theorem State.shadowSample_kept {W s0 a0 a1 a2 a3 a4 a5 a6} (hW : 74630625126115 &&& W = 74630625126115) (h0 : Kept W s0 a0) :
    Kept W s0 (State.shadowSample a0 a1 a2 a3 a4 a5 a6) := by
  unfold State.shadowSample
  repeat' first
    | with_reducible assumption
    | with_reducible apply kept_ite
    | (with_reducible apply State.setBank_kept; exact mask_trans (by decide) hW)
    | (with_reducible apply State.bump_kept; exact mask_trans (by decide) hW)
    | (with_reducible apply State.raise_kept; exact mask_trans (by decide) hW)
    | (with_reducible apply State.confirm_kept; exact mask_trans (by decide) hW)

theorem State.samples_kept {W s0 a0 a1 a2 a3 a4 a5 a6 a7} (hW : 74630893561571 &&& W = 74630893561571) (h0 : Kept W s0 a0) :
    Kept W s0 (State.samples a0 a1 a2 a3 a4 a5 a6 a7) := by
  unfold State.samples
  repeat' first
    | with_reducible assumption
    | with_reducible apply kept_ite
    | (with_reducible apply State.refSamples_kept; exact mask_trans (by decide) hW)
    | (with_reducible apply State.shadowSample_kept; exact mask_trans (by decide) hW)
    | (with_reducible apply State.bump_kept; exact mask_trans (by decide) hW)
    | (with_reducible apply State.setBank_kept; exact mask_trans (by decide) hW)
    | with_reducible apply kept_foldl
    | with_reducible intro _ _ _

theorem State.analogOp_kept {W s0 a0 a1 a2 a3 a4 a5 a6 a7 a8} (hW : 74633041051363 &&& W = 74633041051363) (h0 : Kept W s0 a0) :
    Kept W s0 (State.analogOp a0 a1 a2 a3 a4 a5 a6 a7 a8).st := by
  unfold State.analogOp
  repeat' first
    | with_reducible assumption
    | with_reducible apply kept_ite_OpOut
    | (with_reducible apply State.selectLayer_kept; exact mask_trans (by decide) hW)
    | (with_reducible apply State.raise_kept; exact mask_trans (by decide) hW)
    | (with_reducible apply State.writeRecords_kept; exact mask_trans (by decide) hW)
    | (with_reducible apply State.readTile_kept; exact mask_trans (by decide) hW)
    | (with_reducible apply State.setEngine_kept; exact mask_trans (by decide) hW)
    | (with_reducible apply State.bump_kept; exact mask_trans (by decide) hW)
    | (with_reducible apply State.countConv_kept; exact mask_trans (by decide) hW)
    | (with_reducible apply State.samples_kept; exact mask_trans (by decide) hW)
    | fail_if_no_progress (with_reducible apply kept_fresh; exact mask_trans (by decide) hW)
    | with_reducible apply kept_foldl
    | with_reducible intro _ _ _

theorem State.trouble_kept {W s0 a0 a1 a2 a3} (hW : 134217728 &&& W = 134217728) (h0 : Kept W s0 a0) :
    Kept W s0 (State.trouble a0 a1 a2 a3) := by
  unfold State.trouble
  repeat' first
    | with_reducible assumption
    | with_reducible apply kept_ite
    | fail_if_no_progress (with_reducible apply kept_troubles; exact mask_trans (by decide) hW)

theorem State.nonfiniteInput_kept {W s0 a0 a1 a2 a3 a4} (hW : 134217825 &&& W = 134217825) (h0 : Kept W s0 a0) :
    Kept W s0 (State.nonfiniteInput a0 a1 a2 a3 a4) := by
  unfold State.nonfiniteInput
  repeat' first
    | with_reducible assumption
    | (with_reducible apply State.trouble_kept; exact mask_trans (by decide) hW)
    | (with_reducible apply State.raise_kept; exact mask_trans (by decide) hW)

theorem State.kvTrouble_kept {W s0 a0 a1 a2} (hW : 134217825 &&& W = 134217825) (h0 : Kept W s0 a0) :
    Kept W s0 (State.kvTrouble a0 a1 a2) := by
  unfold State.kvTrouble
  repeat' first
    | with_reducible assumption
    | (with_reducible apply State.trouble_kept; exact mask_trans (by decide) hW)
    | (with_reducible apply State.raise_kept; exact mask_trans (by decide) hW)

theorem State.writeEntry_kept {W s0 a0 a1 a2 a3 a4 a5 a6} (hW : 6243 &&& W = 6243) (h0 : Kept W s0 a0) :
    Kept W s0 (State.writeEntry a0 a1 a2 a3 a4 a5 a6).st := by
  unfold State.writeEntry
  repeat' first
    | with_reducible assumption
    | with_reducible apply kept_ite_Wr
    | (with_reducible apply State.write_kept; exact mask_trans (by decide) hW)
    | with_reducible apply kept_foldl_Wr
    | with_reducible intro _ _ _

theorem State.append_kept {W s0 a0 a1 a2 a3 a4 a5 a6 a7} (hW : 134240355 &&& W = 134240355) (h0 : Kept W s0 a0) :
    Kept W s0 (State.append a0 a1 a2 a3 a4 a5 a6 a7) := by
  unfold State.append
  repeat' first
    | with_reducible assumption
    | with_reducible apply kept_ite
    | with_reducible apply kept_ite_Wr
    | (with_reducible apply State.opRan_kept; exact mask_trans (by decide) hW)
    | (with_reducible apply State.nonfiniteInput_kept; exact mask_trans (by decide) hW)
    | (with_reducible apply State.kvTrouble_kept; exact mask_trans (by decide) hW)
    | (with_reducible apply State.writeEntry_kept; exact mask_trans (by decide) hW)
    | with_reducible apply kept_foldl_Wr
    | with_reducible intro _ _ _
    | dsimp only
    | split

theorem State.holdSlot_kept {W s0 a0 a1 a2 a3 a4} (hW : 68719476736 &&& W = 68719476736) (h0 : Kept W s0 a0) :
    Kept W s0 (State.holdSlot a0 a1 a2 a3 a4) := by
  unfold State.holdSlot
  repeat' first
    | with_reducible assumption
    | (with_reducible apply State.setPool_kept; exact mask_trans (by decide) hW)

theorem State.cutPages_kept {W s0 a0 a1 a2} (hW : 103079215104 &&& W = 103079215104) (h0 : Kept W s0 a0) :
    Kept W s0 (State.cutPages a0 a1 a2) := by
  unfold State.cutPages
  repeat' first
    | with_reducible assumption
    | (with_reducible apply State.holdSlot_kept; exact mask_trans (by decide) hW)
    | (with_reducible apply State.setTable_kept; exact mask_trans (by decide) hW)
    | with_reducible apply kept_foldl
    | with_reducible intro _ _ _
    | split

theorem State.editPage_kept {W s0 a0 a1 a2} (hW : 103079215104 &&& W = 103079215104) (h0 : Kept W s0 a0) :
    Kept W s0 (State.editPage a0 a1 a2) := by
  unfold State.editPage
  repeat' first
    | with_reducible assumption
    | (with_reducible apply State.setTable_kept; exact mask_trans (by decide) hW)
    | (with_reducible apply State.cutPages_kept; exact mask_trans (by decide) hW)
    | dsimp only
    | split

theorem State.applyEdits_kept {W s0 a0 a1} (hW : 103079215104 &&& W = 103079215104) (h0 : Kept W s0 a0) :
    Kept W s0 (State.applyEdits a0 a1) := by
  unfold State.applyEdits
  repeat' first
    | with_reducible assumption
    | with_reducible apply kept_ite
    | (with_reducible apply State.setTable_kept; exact mask_trans (by decide) hW)
    | (with_reducible apply State.editPage_kept; exact mask_trans (by decide) hW)
    | with_reducible apply kept_foldl
    | with_reducible intro _ _ _

theorem State.seekSpare_kept {W s0 a0 a1 a2 a3 a4} (hW : 2097249 &&& W = 2097249) (h0 : Kept W s0 a0) :
    Kept W s0 (State.seekSpare a0 a1 a2 a3 a4) := by
  unfold State.seekSpare
  repeat' first
    | with_reducible assumption
    | (with_reducible apply State.setBank_kept; exact mask_trans (by decide) hW)
    | (with_reducible apply State.raise_kept; exact mask_trans (by decide) hW)
    | dsimp only
    | split

theorem State.mapChange_kept {W s0 a0 a1 a2 a3} (hW : 2097249 &&& W = 2097249) (h0 : Kept W s0 a0) :
    Kept W s0 (State.mapChange a0 a1 a2 a3) := by
  unfold State.mapChange
  repeat' first
    | with_reducible assumption
    | with_reducible apply kept_ite
    | (with_reducible apply State.setBank_kept; exact mask_trans (by decide) hW)
    | (with_reducible apply State.seekSpare_kept; exact mask_trans (by decide) hW)

theorem State.mapBoundary_kept {W s0 a0 a1 a2} (hW : 2097249 &&& W = 2097249) (h0 : Kept W s0 a0) :
    Kept W s0 (State.mapBoundary a0 a1 a2) := by
  unfold State.mapBoundary
  repeat' first
    | with_reducible assumption
    | (with_reducible apply State.mapChange_kept; exact mask_trans (by decide) hW)
    | (with_reducible apply State.setBank_kept; exact mask_trans (by decide) hW)
    | with_reducible apply kept_foldl
    | with_reducible intro _ _ _

theorem State.calCommit_kept {W s0 a0 a1 a2} (hW : 270532707 &&& W = 270532707) (h0 : Kept W s0 a0) :
    Kept W s0 (State.calCommit a0 a1 a2) := by
  unfold State.calCommit
  repeat' first
    | with_reducible assumption
    | (with_reducible apply State.setEngine_kept; exact mask_trans (by decide) hW)
    | (with_reducible apply State.setCal_kept; exact mask_trans (by decide) hW)
    | (with_reducible apply State.raise_kept; exact mask_trans (by decide) hW)
    | (with_reducible apply State.bump_kept; exact mask_trans (by decide) hW)
    | with_reducible apply kept_foldl
    | with_reducible intro _ _ _

theorem State.calStart_kept {W s0 a0 a1 a2} (hW : 270532608 &&& W = 270532608) (h0 : Kept W s0 a0) :
    Kept W s0 (State.calStart a0 a1 a2) := by
  unfold State.calStart
  repeat' first
    | with_reducible assumption
    | (with_reducible apply State.setCal_kept; exact mask_trans (by decide) hW)
    | (with_reducible apply State.setBank_kept; exact mask_trans (by decide) hW)
    | with_reducible apply kept_foldl
    | with_reducible intro _ _ _

theorem State.calCheck_kept {W s0 a0 a1} (hW : 270532608 &&& W = 270532608) (h0 : Kept W s0 a0) :
    Kept W s0 (State.calCheck a0 a1) := by
  unfold State.calCheck
  repeat' first
    | with_reducible assumption
    | with_reducible apply kept_ite
    | (with_reducible apply State.setCal_kept; exact mask_trans (by decide) hW)
    | (with_reducible apply State.calStart_kept; exact mask_trans (by decide) hW)

theorem State.arrayCal_kept {W s0 a0 a1 a2 a3 a4 a5} (hW : 74630893567715 &&& W = 74630893567715) (h0 : Kept W s0 a0) :
    Kept W s0 (State.arrayCal a0 a1 a2 a3 a4 a5) := by
  unfold State.arrayCal
  repeat' first
    | with_reducible assumption
    | with_reducible apply kept_ite
    | (with_reducible apply State.selectLayer_kept; exact mask_trans (by decide) hW)
    | (with_reducible apply State.setBank_kept; exact mask_trans (by decide) hW)
    | (with_reducible apply State.countConv_kept; exact mask_trans (by decide) hW)
    | (with_reducible apply State.samples_kept; exact mask_trans (by decide) hW)
    | (with_reducible apply State.write_kept; exact mask_trans (by decide) hW)
    | fail_if_no_progress (with_reducible apply kept_fresh; exact mask_trans (by decide) hW)
    | with_reducible apply kept_foldl
    | with_reducible intro _ _ _

theorem State.disableRef_kept {W s0 a0 a1 a2 a3 a4} (hW : 1075839075 &&& W = 1075839075) (h0 : Kept W s0 a0) :
    Kept W s0 (State.disableRef a0 a1 a2 a3 a4) := by
  unfold State.disableRef
  repeat' first
    | with_reducible assumption
    | with_reducible apply kept_ite
    | (with_reducible apply State.raise_kept; exact mask_trans (by decide) hW)
    | (with_reducible apply State.ashEngine_kept; exact mask_trans (by decide) hW)
    | (with_reducible apply State.bump_kept; exact mask_trans (by decide) hW)
    | (with_reducible apply State.setBank_kept; exact mask_trans (by decide) hW)

theorem State.opInvalid_kept {W s0 a0 a1 a2 a3 a4 a5} (hW : 16481 &&& W = 16481) (h0 : Kept W s0 a0) :
    Kept W s0 (State.opInvalid a0 a1 a2 a3 a4 a5) := by
  unfold State.opInvalid
  repeat' first
    | with_reducible assumption
    | (with_reducible apply State.opRan_kept; exact mask_trans (by decide) hW)
    | (with_reducible apply State.raise_kept; exact mask_trans (by decide) hW)

theorem State.arrayRead_kept {W s0 a0 a1 a2} (hW : 2119779 &&& W = 2119779) (h0 : Kept W s0 a0) :
    Kept W s0 (State.arrayRead a0 a1 a2) := by
  unfold State.arrayRead
  repeat' first
    | with_reducible assumption
    | with_reducible apply kept_ite
    | (with_reducible apply State.read_kept; exact mask_trans (by decide) hW)
    | (with_reducible apply State.opRan_kept; exact mask_trans (by decide) hW)
    | (with_reducible apply State.opInvalid_kept; exact mask_trans (by decide) hW)
    | (with_reducible apply State.selectLayer_kept; exact mask_trans (by decide) hW)
    | (with_reducible apply State.countConv_kept; exact mask_trans (by decide) hW)
    | (with_reducible apply State.bump_kept; exact mask_trans (by decide) hW)
    | (with_reducible apply State.write_kept; exact mask_trans (by decide) hW)
    | fail_if_no_progress (with_reducible apply kept_fresh; exact mask_trans (by decide) hW)
    | dsimp only
    | split

theorem State.badCodes_kept {W s0 a0 a1 a2 a3 a4} (hW : 137438953571 &&& W = 137438953571) (h0 : Kept W s0 a0) :
    Kept W s0 (State.badCodes a0 a1 a2 a3 a4) := by
  unfold State.badCodes
  repeat' first
    | with_reducible assumption
    | with_reducible apply kept_ite
    | (with_reducible apply State.bump_kept; exact mask_trans (by decide) hW)
    | (with_reducible apply State.raise_kept; exact mask_trans (by decide) hW)
    | fail_if_no_progress (with_reducible apply kept_step; exact mask_trans (by decide) hW)

theorem State.returnHeld_kept {W s0 a0 a1} (hW : 68719478786 &&& W = 68719478786) (h0 : Kept W s0 a0) :
    Kept W s0 (State.returnHeld a0 a1) := by
  unfold State.returnHeld
  repeat' first
    | with_reducible assumption
    | (with_reducible apply State.setPool_kept; exact mask_trans (by decide) hW)
    | (with_reducible apply State.freeSlot_kept; exact mask_trans (by decide) hW)
    | with_reducible apply kept_foldl
    | with_reducible intro _ _ _

theorem State.shrinkPool_kept {W s0 a0 a1} (hW : 68719476736 &&& W = 68719476736) (h0 : Kept W s0 a0) :
    Kept W s0 (State.shrinkPool a0 a1) := by
  unfold State.shrinkPool
  repeat' first
    | with_reducible assumption
    | with_reducible apply kept_ite
    | (with_reducible apply State.setPool_kept; exact mask_trans (by decide) hW)

theorem State.kvBoundary_kept {W s0 a0} (hW : 103079217154 &&& W = 103079217154) (h0 : Kept W s0 a0) :
    Kept W s0 (State.kvBoundary a0) := by
  unfold State.kvBoundary
  repeat' first
    | with_reducible assumption
    | (with_reducible apply State.applyEdits_kept; exact mask_trans (by decide) hW)
    | (with_reducible apply State.returnHeld_kept; exact mask_trans (by decide) hW)
    | (with_reducible apply State.shrinkPool_kept; exact mask_trans (by decide) hW)
    | with_reducible apply kept_foldl
    | with_reducible intro _ _ _

theorem State.resumeReq_kept {W s0 a0 a1} (hW : 8589936353 &&& W = 8589936353) (h0 : Kept W s0 a0) :
    Kept W s0 (State.resumeReq a0 a1) := by
  unfold State.resumeReq
  repeat' first
    | with_reducible assumption
    | (with_reducible apply State.requestEvent_kept; exact mask_trans (by decide) hW)
    | (with_reducible apply State.setReq_kept; exact mask_trans (by decide) hW)

theorem State.rewindReq_kept {W s0 a0 a1 a2 a3 a4} (hW : 42949672960 &&& W = 42949672960) (h0 : Kept W s0 a0) :
    Kept W s0 (State.rewindReq a0 a1 a2 a3 a4) := by
  unfold State.rewindReq
  repeat' first
    | with_reducible assumption
    | with_reducible apply kept_ite
    | (with_reducible apply State.stageEdit_kept; exact mask_trans (by decide) hW)
    | (with_reducible apply State.setReq_kept; exact mask_trans (by decide) hW)

theorem State.checkWindows_kept {W s0 a0 a1 a2 a3} (hW : 1075839075 &&& W = 1075839075) (h0 : Kept W s0 a0) :
    Kept W s0 (State.checkWindows a0 a1 a2 a3) := by
  unfold State.checkWindows
  repeat' first
    | with_reducible assumption
    | with_reducible apply kept_ite
    | (with_reducible apply State.retireColumn_kept; exact mask_trans (by decide) hW)
    | with_reducible apply kept_foldl
    | with_reducible intro _ _ _

theorem State.closeVisits_kept {W s0 a0 a1 a2} (hW : 1075839075 &&& W = 1075839075) (h0 : Kept W s0 a0) :
    Kept W s0 (State.closeVisits a0 a1 a2) := by
  unfold State.closeVisits
  repeat' first
    | with_reducible assumption
    | (with_reducible apply State.setBank_kept; exact mask_trans (by decide) hW)
    | (with_reducible apply State.checkWindows_kept; exact mask_trans (by decide) hW)
    | with_reducible apply kept_foldl
    | with_reducible intro _ _ _

theorem State.substitute_kept {W s0 a0 a1 a2} (hW : 70643624444001 &&& W = 70643624444001) (h0 : Kept W s0 a0) :
    Kept W s0 (State.substitute a0 a1 a2) := by
  unfold State.substitute
  repeat' first
    | with_reducible assumption
    | (with_reducible apply State.setPosition_kept; exact mask_trans (by decide) hW)
    | (with_reducible apply State.setEngine_kept; exact mask_trans (by decide) hW)
    | (with_reducible apply State.raise_kept; exact mask_trans (by decide) hW)
    | fail_if_no_progress (with_reducible apply kept_det; exact mask_trans (by decide) hW)
    | with_reducible apply kept_foldl
    | with_reducible intro _ _ _
    | dsimp only
    | split

theorem State.unstow_kept {W s0 a0 a1 a2 a3} (hW : 6291456 &&& W = 6291456) (h0 : Kept W s0 a0) :
    Kept W s0 (State.unstow a0 a1 a2 a3) := by
  unfold State.unstow
  repeat' first
    | with_reducible assumption
    | (with_reducible apply State.setEngine_kept; exact mask_trans (by decide) hW)
    | fail_if_no_progress (with_reducible apply kept_attic; exact mask_trans (by decide) hW)
    | with_reducible apply kept_foldl
    | with_reducible intro _ _ _

theorem State.calSave_kept {W s0 a0 a1 a2} (hW : 268435553 &&& W = 268435553) (h0 : Kept W s0 a0) :
    Kept W s0 (State.calSave a0 a1 a2) := by
  unfold State.calSave
  repeat' first
    | with_reducible assumption
    | with_reducible apply kept_ite
    | (with_reducible apply State.setCal_kept; exact mask_trans (by decide) hW)
    | (with_reducible apply State.raise_kept; exact mask_trans (by decide) hW)

theorem State.writeDigital_kept {W s0 a0 a1 a2} (hW : 6243 &&& W = 6243) (h0 : Kept W s0 a0) :
    Kept W s0 (State.writeDigital a0 a1 a2).1.st := by
  unfold State.writeDigital
  repeat' first
    | with_reducible assumption
    | (with_reducible apply State.write_kept; exact mask_trans (by decide) hW)
    | dsimp only
    | split

theorem State.setPasses_kept {W s0 a0 a1 a2} (hW : 8388608 &&& W = 8388608) (h0 : Kept W s0 a0) :
    Kept W s0 (State.setPasses a0 a1 a2) := by
  unfold State.setPasses
  repeat' first
    | with_reducible assumption
    | fail_if_no_progress (with_reducible apply kept_passes; exact mask_trans (by decide) hW)

theorem State.countTrouble_kept {W s0 a0 a1 a2} (hW : 2 &&& W = 2) (h0 : Kept W s0 a0) :
    Kept W s0 (State.countTrouble a0 a1 a2) := by
  unfold State.countTrouble
  repeat' first
    | with_reducible assumption
    | (with_reducible apply State.bump_kept; exact mask_trans (by decide) hW)

theorem State.setPass_kept {W s0 a0 a1 a2 a3} (hW : 8388608 &&& W = 8388608) (h0 : Kept W s0 a0) :
    Kept W s0 (State.setPass a0 a1 a2 a3) := by
  unfold State.setPass
  repeat' first
    | with_reducible assumption
    | (with_reducible apply State.setPasses_kept; exact mask_trans (by decide) hW)

theorem State.updRun_kept {W s0 a0 a1 a2 a3 a4} (hW : 33554432 &&& W = 33554432) (h0 : Kept W s0 a0) :
    Kept W s0 (State.updRun a0 a1 a2 a3 a4) := by
  unfold State.updRun
  repeat' first
    | with_reducible assumption
    | fail_if_no_progress (with_reducible apply kept_runs; exact mask_trans (by decide) hW)
    | split

theorem State.releasePass_kept {W s0 a0 a1 a2} (hW : 41959427 &&& W = 41959427) (h0 : Kept W s0 a0) :
    Kept W s0 (State.releasePass a0 a1 a2) := by
  unfold State.releasePass
  repeat' first
    | with_reducible assumption
    | with_reducible apply kept_ite
    | (with_reducible apply State.setSeq_kept; exact mask_trans (by decide) hW)
    | (with_reducible apply State.setPasses_kept; exact mask_trans (by decide) hW)
    | (with_reducible apply State.updRun_kept; exact mask_trans (by decide) hW)
    | (with_reducible apply State.bump_kept; exact mask_trans (by decide) hW)
    | (with_reducible apply State.bumpWait_kept; exact mask_trans (by decide) hW)
    | fail_if_no_progress (with_reducible apply kept_runs; exact mask_trans (by decide) hW)

theorem State.exhaust_kept {W s0 a0 a1 a2} (hW : 176177251 &&& W = 176177251) (h0 : Kept W s0 a0) :
    Kept W s0 (State.exhaust a0 a1 a2) := by
  unfold State.exhaust
  repeat' first
    | with_reducible assumption
    | (with_reducible apply State.releasePass_kept; exact mask_trans (by decide) hW)
    | (with_reducible apply State.updRun_kept; exact mask_trans (by decide) hW)
    | (with_reducible apply State.trouble_kept; exact mask_trans (by decide) hW)
    | (with_reducible apply State.raise_kept; exact mask_trans (by decide) hW)
    | (with_reducible apply State.bump_kept; exact mask_trans (by decide) hW)

theorem State.settle_kept {W s0 a0 a1 a2 a3} (hW : 176177251 &&& W = 176177251) (h0 : Kept W s0 a0) :
    Kept W s0 (State.settle a0 a1 a2 a3) := by
  unfold State.settle
  repeat' first
    | with_reducible assumption
    | with_reducible apply kept_ite
    | (with_reducible apply State.countTrouble_kept; exact mask_trans (by decide) hW)
    | (with_reducible apply State.setPass_kept; exact mask_trans (by decide) hW)
    | (with_reducible apply State.releasePass_kept; exact mask_trans (by decide) hW)
    | (with_reducible apply State.exhaust_kept; exact mask_trans (by decide) hW)
    | dsimp only
    | split

theorem State.closeDigital_kept {W s0 a0 a1 a2 a3} (hW : 176183395 &&& W = 176183395) (h0 : Kept W s0 a0) :
    Kept W s0 (State.closeDigital a0 a1 a2 a3) := by
  unfold State.closeDigital
  repeat' first
    | with_reducible assumption
    | with_reducible apply kept_ite
    | (with_reducible apply State.writeDigital_kept; exact mask_trans (by decide) hW)
    | (with_reducible apply State.opRan_kept; exact mask_trans (by decide) hW)
    | (with_reducible apply State.setPasses_kept; exact mask_trans (by decide) hW)
    | (with_reducible apply State.settle_kept; exact mask_trans (by decide) hW)

theorem State.commonClose_kept {W s0 a0 a1 a2 a3} (hW : 270532608 &&& W = 270532608) (h0 : Kept W s0 a0) :
    Kept W s0 (State.commonClose a0 a1 a2 a3) := by
  unfold State.commonClose
  repeat' first
    | with_reducible assumption
    | with_reducible apply kept_ite
    | (with_reducible apply State.setBank_kept; exact mask_trans (by decide) hW)
    | (with_reducible apply State.calTrigger_kept; exact mask_trans (by decide) hW)

theorem State.digitalOp_kept {W s0 a0 a1 a2 a3 a4 a5} (hW : 2147489891 &&& W = 2147489891) (h0 : Kept W s0 a0) :
    Kept W s0 (State.digitalOp a0 a1 a2 a3 a4 a5).st := by
  unfold State.digitalOp
  repeat' first
    | with_reducible assumption
    | with_reducible apply kept_ite
    | with_reducible apply kept_ite_OpOut
    | (with_reducible apply State.readTile_kept; exact mask_trans (by decide) hW)
    | (with_reducible apply State.raise_kept; exact mask_trans (by decide) hW)
    | (with_reducible apply OpOut.join_kept; exact mask_trans (by decide) hW)
    | with_reducible apply kept_foldl_OpOut
    | with_reducible intro _ _ _

theorem State.dropHold_kept {W s0 a0 a1 a2} (hW : 34359738368 &&& W = 34359738368) (h0 : Kept W s0 a0) :
    Kept W s0 (State.dropHold a0 a1 a2) := by
  unfold State.dropHold
  repeat' first
    | with_reducible assumption
    | (with_reducible apply State.setTable_kept; exact mask_trans (by decide) hW)

theorem State.encodeOut_kept {W s0 a0 a1 a2 a3 a4} (hW : 6243 &&& W = 6243) (h0 : Kept W s0 a0) :
    Kept W s0 (State.encodeOut a0 a1 a2 a3 a4).st := by
  unfold State.encodeOut
  repeat' first
    | with_reducible assumption
    | with_reducible apply kept_ite_Wr
    | (with_reducible apply State.bump_kept; exact mask_trans (by decide) hW)
    | (with_reducible apply State.write_kept; exact mask_trans (by decide) hW)

theorem State.encodeSource_kept {W s0 a0 a1 a2 a3 a4 a5} (hW : 6243 &&& W = 6243) (h0 : Kept W s0 a0) :
    Kept W s0 (State.encodeSource a0 a1 a2 a3 a4 a5).st := by
  unfold State.encodeSource
  repeat' first
    | with_reducible assumption
    | with_reducible apply kept_ite_InRd
    | (with_reducible apply State.read_kept; exact mask_trans (by decide) hW)
    | dsimp only
    | split

theorem State.inputStatus_kept {W s0 a0 a1 a2} (hW : 6243 &&& W = 6243) (h0 : Kept W s0 a0) :
    Kept W s0 (State.inputStatus a0 a1 a2).st := by
  unfold State.inputStatus
  repeat' first
    | with_reducible assumption
    | (with_reducible apply State.read_kept; exact mask_trans (by decide) hW)

theorem State.laneFound_kept {W s0 a0 a1 a2 a3 a4} (hW : 1075839075 &&& W = 1075839075) (h0 : Kept W s0 a0) :
    Kept W s0 (State.laneFound a0 a1 a2 a3 a4) := by
  unfold State.laneFound
  repeat' first
    | with_reducible assumption
    | with_reducible apply kept_ite
    | (with_reducible apply State.retireLane_kept; exact mask_trans (by decide) hW)
    | (with_reducible apply State.disableRef_kept; exact mask_trans (by decide) hW)

theorem State.lateTrouble_kept {W s0 a0 a1 a2 a3 a4} (hW : 33554432 &&& W = 33554432) (h0 : Kept W s0 a0) :
    Kept W s0 (State.lateTrouble a0 a1 a2 a3 a4) := by
  unfold State.lateTrouble
  repeat' first
    | with_reducible assumption
    | with_reducible apply kept_ite
    | (with_reducible apply State.updRun_kept; exact mask_trans (by decide) hW)
    | split

theorem State.merge_kept {W s0 a0 a1 a2 a3} (hW : 176183395 &&& W = 176183395) (h0 : Kept W s0 a0) :
    Kept W s0 (State.merge a0 a1 a2 a3) := by
  unfold State.merge
  repeat' first
    | with_reducible assumption
    | (with_reducible apply State.write_kept; exact mask_trans (by decide) hW)
    | (with_reducible apply State.settle_kept; exact mask_trans (by decide) hW)

theorem State.putPass_kept {W s0 a0 a1 a2 a3} (hW : 8388608 &&& W = 8388608) (h0 : Kept W s0 a0) :
    Kept W s0 (State.putPass a0 a1 a2 a3) := by
  unfold State.putPass
  repeat' first
    | with_reducible assumption
    | with_reducible apply kept_ite
    | (with_reducible apply State.setPass_kept; exact mask_trans (by decide) hW)
    | (with_reducible apply State.setPasses_kept; exact mask_trans (by decide) hW)

theorem State.opDone_kept {W s0 a0 a1 a2 a3 a4 a5} (hW : 176183395 &&& W = 176183395) (h0 : Kept W s0 a0) :
    Kept W s0 (State.opDone a0 a1 a2 a3 a4 a5) := by
  unfold State.opDone
  repeat' first
    | with_reducible assumption
    | with_reducible apply kept_ite
    | (with_reducible apply State.opRan_kept; exact mask_trans (by decide) hW)
    | (with_reducible apply State.putPass_kept; exact mask_trans (by decide) hW)
    | (with_reducible apply State.closeDigital_kept; exact mask_trans (by decide) hW)

theorem State.reportVec_kept {W s0 a0 a1 a2 a3} (hW : 97 &&& W = 97) (h0 : Kept W s0 a0) :
    Kept W s0 (State.reportVec a0 a1 a2 a3) := by
  unfold State.reportVec
  repeat' first
    | with_reducible assumption
    | with_reducible apply kept_ite
    | (with_reducible apply State.raise_kept; exact mask_trans (by decide) hW)

theorem State.opInput_kept {W s0 a0 a1 a2 a3 a4 a5 a6} (hW : 6243 &&& W = 6243) (h0 : Kept W s0 a0) :
    Kept W s0 (State.opInput a0 a1 a2 a3 a4 a5 a6).st := by
  unfold State.opInput
  repeat' first
    | with_reducible assumption
    | with_reducible apply kept_ite_InRd
    | (with_reducible apply State.read_kept; exact mask_trans (by decide) hW)
    | (with_reducible apply State.reportVec_kept; exact mask_trans (by decide) hW)
    | (with_reducible apply State.encodeSource_kept; exact mask_trans (by decide) hW)

theorem State.reachRung_kept {W s0 a0 a1 a2 a3 a4} (hW : 33554432 &&& W = 33554432) (h0 : Kept W s0 a0) :
    Kept W s0 (State.reachRung a0 a1 a2 a3 a4) := by
  unfold State.reachRung
  repeat' first
    | with_reducible assumption
    | (with_reducible apply State.updRun_kept; exact mask_trans (by decide) hW)

theorem State.setVerdict_kept {W s0 a0 a1 a2} (hW : 16777216 &&& W = 16777216) (h0 : Kept W s0 a0) :
    Kept W s0 (State.setVerdict a0 a1 a2) := by
  unfold State.setVerdict
  repeat' first
    | with_reducible assumption
    | fail_if_no_progress (with_reducible apply kept_verdicts; exact mask_trans (by decide) hW)

theorem State.openVerdict_kept {W s0 a0 a1 a2} (hW : 16777216 &&& W = 16777216) (h0 : Kept W s0 a0) :
    Kept W s0 (State.openVerdict a0 a1 a2) := by
  unfold State.openVerdict
  repeat' first
    | with_reducible assumption
    | with_reducible apply kept_ite
    | (with_reducible apply State.setVerdict_kept; exact mask_trans (by decide) hW)
    | split

theorem State.runOp_kept {W s0 a0 a1 a2 a3 a4 a5 a6} (hW : 74633041051363 &&& W = 74633041051363) (h0 : Kept W s0 a0) :
    Kept W s0 (State.runOp a0 a1 a2 a3 a4 a5 a6).st := by
  unfold State.runOp
  repeat' first
    | with_reducible assumption
    | with_reducible apply kept_ite_OpOut
    | (with_reducible apply State.analogOp_kept; exact mask_trans (by decide) hW)
    | (with_reducible apply State.digitalOp_kept; exact mask_trans (by decide) hW)

theorem State.startOp_kept {W s0 a0 a1 a2 a3 a4 a5 a6 a7 a8 a9} (hW : 74633041051363 &&& W = 74633041051363) (h0 : Kept W s0 a0) :
    Kept W s0 (State.startOp a0 a1 a2 a3 a4 a5 a6 a7 a8 a9) := by
  unfold State.startOp
  repeat' first
    | with_reducible assumption
    | with_reducible apply kept_ite
    | (with_reducible apply State.opInput_kept; exact mask_trans (by decide) hW)
    | (with_reducible apply State.opRan_kept; exact mask_trans (by decide) hW)
    | (with_reducible apply State.nonfiniteInput_kept; exact mask_trans (by decide) hW)
    | (with_reducible apply State.reachRung_kept; exact mask_trans (by decide) hW)
    | (with_reducible apply State.openVerdict_kept; exact mask_trans (by decide) hW)
    | (with_reducible apply State.runOp_kept; exact mask_trans (by decide) hW)
    | (with_reducible apply State.opDone_kept; exact mask_trans (by decide) hW)
    | split

theorem State.opStart_kept {W s0 a0 a1 a2 a3 a4 a5} (hW : 74633041051363 &&& W = 74633041051363) (h0 : Kept W s0 a0) :
    Kept W s0 (State.opStart a0 a1 a2 a3 a4 a5) := by
  unfold State.opStart
  repeat' first
    | with_reducible assumption
    | with_reducible apply kept_ite
    | (with_reducible apply State.read_kept; exact mask_trans (by decide) hW)
    | (with_reducible apply State.opRan_kept; exact mask_trans (by decide) hW)
    | (with_reducible apply State.inputStatus_kept; exact mask_trans (by decide) hW)
    | (with_reducible apply State.opInvalid_kept; exact mask_trans (by decide) hW)
    | (with_reducible apply State.bumpWait_kept; exact mask_trans (by decide) hW)
    | (with_reducible apply State.startOp_kept; exact mask_trans (by decide) hW)

theorem State.promoteRecord_kept {W s0 a0 a1} (hW : 8388608 &&& W = 8388608) (h0 : Kept W s0 a0) :
    Kept W s0 (State.promoteRecord a0 a1) := by
  unfold State.promoteRecord
  repeat' first
    | with_reducible assumption
    | (with_reducible apply State.setPasses_kept; exact mask_trans (by decide) hW)
    | with_reducible apply kept_foldl
    | with_reducible intro _ _ _

theorem State.psumAdd_kept {W s0 a0 a1 a2 a3} (hW : 6243 &&& W = 6243) (h0 : Kept W s0 a0) :
    Kept W s0 (State.psumAdd a0 a1 a2 a3).1.st := by
  unfold State.psumAdd
  repeat' first
    | with_reducible assumption
    | (with_reducible apply State.write_kept; exact mask_trans (by decide) hW)
    | dsimp only
    | split

theorem State.psumTrouble_kept {W s0 a0 a1 a2} (hW : 33554432 &&& W = 33554432) (h0 : Kept W s0 a0) :
    Kept W s0 (State.psumTrouble a0 a1 a2) := by
  unfold State.psumTrouble
  repeat' first
    | with_reducible assumption
    | with_reducible apply kept_ite
    | fail_if_no_progress (with_reducible apply kept_runs; exact mask_trans (by decide) hW)

theorem State.readAll_kept {W s0 a0 a1 a2} (hW : 6243 &&& W = 6243) (h0 : Kept W s0 a0) :
    Kept W s0 (State.readAll a0 a1 a2).1.st := by
  fun_induction State.readAll a0 a1 a2
  all_goals
    repeat' first
      | with_reducible assumption
      | (with_reducible apply State.read_kept; exact mask_trans (by decide) hW)
      | with_reducible apply_assumption

theorem State.readPage_kept {W s0 a0 a1 a2 a3 a4 a5} (hW : 6243 &&& W = 6243) (h0 : Kept W s0 a0) :
    Kept W s0 (State.readPage a0 a1 a2 a3 a4 a5).st := by
  unfold State.readPage
  repeat' first
    | with_reducible assumption
    | with_reducible apply kept_ite_PageRd
    | (with_reducible apply State.readAll_kept; exact mask_trans (by decide) hW)

theorem State.readPages_kept {W s0 a0 a1 a2 a3 a4 a5 a6} (hW : 137438959715 &&& W = 137438959715) (h0 : Kept W s0 a0) :
    Kept W s0 (State.readPages a0 a1 a2 a3 a4 a5 a6).st := by
  fun_induction State.readPages a0 a1 a2 a3 a4 a5 a6
  all_goals
    repeat' first
      | with_reducible assumption
      | (with_reducible apply State.raise_kept; exact mask_trans (by decide) hW)
      | (with_reducible apply State.readPage_kept; exact mask_trans (by decide) hW)
      | (with_reducible apply State.badCodes_kept; exact mask_trans (by decide) hW)
      | with_reducible apply_assumption

theorem State.recompute_kept {W s0 a0 a1 a2 a3 a4 a5 a6} (hW : 22627 &&& W = 22627) (h0 : Kept W s0 a0) :
    Kept W s0 (State.recompute a0 a1 a2 a3 a4 a5 a6) := by
  unfold State.recompute
  repeat' first
    | with_reducible assumption
    | with_reducible apply kept_ite
    | (with_reducible apply State.read_kept; exact mask_trans (by decide) hW)
    | (with_reducible apply State.opRan_kept; exact mask_trans (by decide) hW)
    | (with_reducible apply State.write_kept; exact mask_trans (by decide) hW)
    | (with_reducible apply State.bump_kept; exact mask_trans (by decide) hW)

theorem State.releaseRecord_kept {W s0 a0 a1} (hW : 41959427 &&& W = 41959427) (h0 : Kept W s0 a0) :
    Kept W s0 (State.releaseRecord a0 a1) := by
  unfold State.releaseRecord
  repeat' first
    | with_reducible assumption
    | (with_reducible apply State.releasePass_kept; exact mask_trans (by decide) hW)
    | with_reducible apply kept_foldl
    | with_reducible intro _ _ _

theorem State.rerun_kept {W s0 a0 a1 a2 a3} (hW : 74633041051363 &&& W = 74633041051363) (h0 : Kept W s0 a0) :
    Kept W s0 (State.rerun a0 a1 a2 a3).1 := by
  induction a2 generalizing a0 a3 with
  | nil => exact h0
  | cons k r ih =>
    unfold State.rerun
    have hx := fun b => State.encodeSource_kept (a0 := a0) (a1 := a1) (a2 := k) (a3 := a3.rung) (a4 := a0.blocksBefore a1 a3.eng a3.ops) (a5 := b) (mask_trans (by decide : 6243 &&& 74633041051363 = 6243) hW) h0
    extract_lets e nb x s1 p1 y
    have hx1 : Kept W s0 x.st := hx nb
    refine kept_ite_fst hx1 ?_
    have h1 : Kept W s0 s1 := by
      show Kept W s0 (match x.bad with | some j => x.st.nonfiniteInput a1 k.seq k.policy j | none => x.st)
      split
      · exact State.nonfiniteInput_kept (mask_trans (by decide) hW) hx1
      · exact hx1
    have hy : Kept W s0 y.st := State.runOp_kept (mask_trans (by decide) hW) h1
    exact kept_ite_fst hy (ih hy)

theorem State.repeatPass_kept {W s0 a0 a1 a2 a3} (hW : 74633041051363 &&& W = 74633041051363) (h0 : Kept W s0 a0) :
    Kept W s0 (State.repeatPass a0 a1 a2 a3) := by
  unfold State.repeatPass
  repeat' first
    | with_reducible assumption
    | with_reducible apply kept_ite
    | (with_reducible apply State.reachRung_kept; exact mask_trans (by decide) hW)
    | (with_reducible apply State.bump_kept; exact mask_trans (by decide) hW)
    | (with_reducible apply State.rerun_kept; exact mask_trans (by decide) hW)
    | (with_reducible apply State.setSeq_kept; exact mask_trans (by decide) hW)
    | (with_reducible apply State.setPasses_kept; exact mask_trans (by decide) hW)
    | (with_reducible apply State.setPass_kept; exact mask_trans (by decide) hW)
    | (with_reducible apply State.closeDigital_kept; exact mask_trans (by decide) hW)

theorem State.report_kept {W s0 a0 a1 a2 a3 a4} (hW : 192954467 &&& W = 192954467) (h0 : Kept W s0 a0) :
    Kept W s0 (State.report a0 a1 a2 a3 a4) := by
  unfold State.report
  repeat' first
    | with_reducible assumption
    | with_reducible apply kept_ite
    | (with_reducible apply State.setPass_kept; exact mask_trans (by decide) hW)
    | (with_reducible apply State.bump_kept; exact mask_trans (by decide) hW)
    | (with_reducible apply State.releaseRecord_kept; exact mask_trans (by decide) hW)
    | (with_reducible apply State.setVerdict_kept; exact mask_trans (by decide) hW)
    | (with_reducible apply State.exhaust_kept; exact mask_trans (by decide) hW)
    | (with_reducible apply State.promoteRecord_kept; exact mask_trans (by decide) hW)

theorem State.roundClose_kept {W s0 a0 a1 a2 a3} (hW : 1344274531 &&& W = 1344274531) (h0 : Kept W s0 a0) :
    Kept W s0 (State.roundClose a0 a1 a2 a3) := by
  unfold State.roundClose
  repeat' first
    | with_reducible assumption
    | with_reducible apply kept_ite
    | (with_reducible apply State.setBank_kept; exact mask_trans (by decide) hW)
    | (with_reducible apply State.commonClose_kept; exact mask_trans (by decide) hW)
    | (with_reducible apply State.laneFound_kept; exact mask_trans (by decide) hW)
    | (with_reducible apply State.checkWindows_kept; exact mask_trans (by decide) hW)
    | dsimp only
    | split

theorem State.storeVec_kept {W s0 a0 a1 a2 a3 a4} (hW : 6243 &&& W = 6243) (h0 : Kept W s0 a0) :
    Kept W s0 (State.storeVec a0 a1 a2 a3 a4).st := by
  unfold State.storeVec
  repeat' first
    | with_reducible assumption
    | with_reducible apply kept_ite_Wr
    | (with_reducible apply State.write_kept; exact mask_trans (by decide) hW)
    | (with_reducible apply State.encodeOut_kept; exact mask_trans (by decide) hW)

theorem State.vecOp_kept {W s0 a0 a1 a2 a3 a4 a5} (hW : 167794787 &&& W = 167794787) (h0 : Kept W s0 a0) :
    Kept W s0 (State.vecOp a0 a1 a2 a3 a4 a5) := by
  unfold State.vecOp
  repeat' first
    | with_reducible assumption
    | with_reducible apply kept_ite
    | (with_reducible apply State.readAll_kept; exact mask_trans (by decide) hW)
    | (with_reducible apply State.opRan_kept; exact mask_trans (by decide) hW)
    | (with_reducible apply State.nonfiniteInput_kept; exact mask_trans (by decide) hW)
    | (with_reducible apply State.storeVec_kept; exact mask_trans (by decide) hW)
    | (with_reducible apply State.lateTrouble_kept; exact mask_trans (by decide) hW)
    | fail_if_no_progress (with_reducible apply kept_fresh; exact mask_trans (by decide) hW)
    | dsimp only
    | split

theorem State.walkFault_kept {W s0 a0 a1 a2 a3 a4 a5} (hW : 1099645861987 &&& W = 1099645861987) (h0 : Kept W s0 a0) :
    Kept W s0 (State.walkFault a0 a1 a2 a3 a4 a5) := by
  unfold State.walkFault
  repeat' first
    | with_reducible assumption
    | with_reducible apply kept_ite
    | (with_reducible apply State.bump_kept; exact mask_trans (by decide) hW)
    | (with_reducible apply State.kvTrouble_kept; exact mask_trans (by decide) hW)
    | (with_reducible apply State.trouble_kept; exact mask_trans (by decide) hW)
    | (with_reducible apply State.opRan_kept; exact mask_trans (by decide) hW)
    | fail_if_no_progress (with_reducible apply kept_walks; exact mask_trans (by decide) hW)

theorem State.walkEnd_kept {W s0 a0 a1 a2 a3 a4} (hW : 1099645868131 &&& W = 1099645868131) (h0 : Kept W s0 a0) :
    Kept W s0 (State.walkEnd a0 a1 a2 a3 a4) := by
  unfold State.walkEnd
  repeat' first
    | with_reducible assumption
    | with_reducible apply kept_ite
    | with_reducible apply kept_ite_Wr
    | (with_reducible apply State.walkFault_kept; exact mask_trans (by decide) hW)
    | (with_reducible apply State.write_kept; exact mask_trans (by decide) hW)
    | (with_reducible apply State.opRan_kept; exact mask_trans (by decide) hW)
    | (with_reducible apply State.bump_kept; exact mask_trans (by decide) hW)
    | fail_if_no_progress (with_reducible apply kept_walks; exact mask_trans (by decide) hW)

theorem State.walk_kept {W s0 a0 a1 a2 a3 a4 a5 a6 a7} (hW : 1237084821603 &&& W = 1237084821603) (h0 : Kept W s0 a0) :
    Kept W s0 (State.walk a0 a1 a2 a3 a4 a5 a6 a7) := by
  unfold State.walk
  repeat' first
    | with_reducible assumption
    | with_reducible apply kept_ite
    | (with_reducible apply State.read_kept; exact mask_trans (by decide) hW)
    | (with_reducible apply State.opRan_kept; exact mask_trans (by decide) hW)
    | (with_reducible apply State.readPages_kept; exact mask_trans (by decide) hW)
    | (with_reducible apply State.walkFault_kept; exact mask_trans (by decide) hW)
    | (with_reducible apply State.recompute_kept; exact mask_trans (by decide) hW)
    | (with_reducible apply State.bump_kept; exact mask_trans (by decide) hW)
    | (with_reducible apply State.walkEnd_kept; exact mask_trans (by decide) hW)
    | fail_if_no_progress (with_reducible apply kept_walks; exact mask_trans (by decide) hW)
    | dsimp only
    | split

theorem State.writeBack_kept {W s0 a0 a1 a2 a3} (hW : 8411235 &&& W = 8411235) (h0 : Kept W s0 a0) :
    Kept W s0 (State.writeBack a0 a1 a2 a3) := by
  unfold State.writeBack
  repeat' first
    | with_reducible assumption
    | with_reducible apply kept_ite
    | (with_reducible apply State.write_kept; exact mask_trans (by decide) hW)
    | (with_reducible apply State.setSeq_kept; exact mask_trans (by decide) hW)
    | (with_reducible apply State.setPasses_kept; exact mask_trans (by decide) hW)
    | (with_reducible apply State.putBytes_kept; exact mask_trans (by decide) hW)
    | (with_reducible apply State.setPass_kept; exact mask_trans (by decide) hW)

theorem execAccumulatorWriteBack_kept {W s0 a0 a1 a2} (hW : 8411235 &&& W = 8411235) (h2 : Kept W s0 a2) :
    KeptO W s0 (execAccumulatorWriteBack a0 a1 a2) := by
  unfold execAccumulatorWriteBack
  repeat' first
    | with_reducible assumption
    | with_reducible apply kept_next
    | with_reducible apply kept_ite
    | (with_reducible apply State.writeBack_kept; exact mask_trans (by decide) hW)
    | split

theorem execArrayCalOp_kept {W s0 a0 a1 a2 a3 a4 a5} (hW : 74630893567715 &&& W = 74630893567715) (h5 : Kept W s0 a5) :
    KeptO W s0 (execArrayCalOp a0 a1 a2 a3 a4 a5) := by
  unfold execArrayCalOp
  repeat' first
    | with_reducible assumption
    | with_reducible apply kept_next
    | with_reducible apply kept_ite
    | (with_reducible apply State.arrayCal_kept; exact mask_trans (by decide) hW)
    | (with_reducible apply State.setQueue_kept; exact mask_trans (by decide) hW)
    | dsimp only
    | split

theorem execArrayMvOpStart_kept {W s0 a0 a1 a2 a3} (hW : 74633041051363 &&& W = 74633041051363) (h3 : Kept W s0 a3) :
    KeptO W s0 (execArrayMvOpStart a0 a1 a2 a3) := by
  unfold execArrayMvOpStart
  repeat' first
    | with_reducible assumption
    | with_reducible apply kept_next
    | with_reducible apply kept_ite
    | (with_reducible apply State.opStart_kept; exact mask_trans (by decide) hW)
    | split

theorem execArrayReadOp_kept {W s0 a0 a1 a2} (hW : 2119779 &&& W = 2119779) (h2 : Kept W s0 a2) :
    KeptO W s0 (execArrayReadOp a0 a1 a2) := by
  unfold execArrayReadOp
  repeat' first
    | with_reducible assumption
    | with_reducible apply kept_next
    | (with_reducible apply State.arrayRead_kept; exact mask_trans (by decide) hW)

theorem execAshList_kept {W s0 a0 a1 a2 a3 a4} (hW : 1920 &&& W = 1920) (h4 : Kept W s0 a4) :
    KeptO W s0 (execAshList a0 a1 a2 a3 a4) := by
  unfold execAshList
  repeat' first
    | with_reducible assumption
    | with_reducible apply kept_next
    | (with_reducible apply State.descriptor_kept; exact mask_trans (by decide) hW)
    | (with_reducible apply State.finish_kept; exact mask_trans (by decide) hW)
    | (with_reducible apply State.hostPut_kept; exact mask_trans (by decide) hW)
    | with_reducible intro _ _ _

theorem execAttWalkOp_kept {W s0 a0 a1} (hW : 1237084821603 &&& W = 1237084821603) (h1 : Kept W s0 a1) :
    KeptO W s0 (execAttWalkOp a0 a1) := by
  unfold execAttWalkOp
  repeat' first
    | with_reducible assumption
    | with_reducible apply kept_next
    | with_reducible apply kept_ite
    | with_reducible apply kept_ite_Rd
    | (with_reducible apply State.read_kept; exact mask_trans (by decide) hW)
    | (with_reducible apply State.opRan_kept; exact mask_trans (by decide) hW)
    | (with_reducible apply State.walk_kept; exact mask_trans (by decide) hW)
    | dsimp only
    | split

theorem execCalRunStaged_kept {W s0 a0 a1} (hW : 74630893561571 &&& W = 74630893561571) (h1 : Kept W s0 a1) :
    KeptO W s0 (execCalRunStaged a0 a1) := by
  unfold execCalRunStaged
  repeat' first
    | with_reducible assumption
    | with_reducible apply kept_next
    | with_reducible apply kept_ite
    | (with_reducible apply State.loseCluster_kept; exact mask_trans (by decide) hW)
    | (with_reducible apply State.raise_kept; exact mask_trans (by decide) hW)
    | (with_reducible apply State.setCal_kept; exact mask_trans (by decide) hW)
    | with_reducible apply kept_foldl
    | with_reducible intro _ _ _

theorem execCalSave_kept {W s0 a0 a1 a2} (hW : 268435553 &&& W = 268435553) (h2 : Kept W s0 a2) :
    KeptO W s0 (execCalSave a0 a1 a2) := by
  unfold execCalSave
  repeat' first
    | with_reducible assumption
    | with_reducible apply kept_next
    | with_reducible apply kept_ite
    | (with_reducible apply State.calSave_kept; exact mask_trans (by decide) hW)

theorem execCorrectionMerge_kept {W s0 a0 a1 a2} (hW : 176183395 &&& W = 176183395) (h2 : Kept W s0 a2) :
    KeptO W s0 (execCorrectionMerge a0 a1 a2) := by
  unfold execCorrectionMerge
  repeat' first
    | with_reducible assumption
    | with_reducible apply kept_next
    | with_reducible apply kept_ite
    | (with_reducible apply State.merge_kept; exact mask_trans (by decide) hW)
    | split

theorem execDMvPass_kept {W s0 a0 a1} (hW : 74633041051363 &&& W = 74633041051363) (h1 : Kept W s0 a1) :
    KeptO W s0 (execDMvPass a0 a1) := by
  unfold execDMvPass
  repeat' first
    | with_reducible assumption
    | with_reducible apply kept_next
    | (with_reducible apply State.opStart_kept; exact mask_trans (by decide) hW)
    | split

theorem execDVecOp_kept {W s0 a0 a1 a2 a3} (hW : 167794787 &&& W = 167794787) (h3 : Kept W s0 a3) :
    KeptO W s0 (execDVecOp a0 a1 a2 a3) := by
  unfold execDVecOp
  repeat' first
    | with_reducible assumption
    | with_reducible apply kept_next
    | with_reducible apply kept_ite
    | (with_reducible apply State.read_kept; exact mask_trans (by decide) hW)
    | (with_reducible apply State.opRan_kept; exact mask_trans (by decide) hW)
    | (with_reducible apply State.opInvalid_kept; exact mask_trans (by decide) hW)
    | (with_reducible apply State.vecOp_kept; exact mask_trans (by decide) hW)
    | dsimp only
    | split

theorem execFitRoundClose_kept {W s0 a0 a1 a2 a3} (hW : 1344274531 &&& W = 1344274531) (h3 : Kept W s0 a3) :
    KeptO W s0 (execFitRoundClose a0 a1 a2 a3) := by
  unfold execFitRoundClose
  repeat' first
    | with_reducible assumption
    | with_reducible apply kept_next
    | with_reducible apply kept_ite
    | (with_reducible apply State.roundClose_kept; exact mask_trans (by decide) hW)

theorem execKvAppendOp_kept {W s0 a0 a1} (hW : 134240355 &&& W = 134240355) (h1 : Kept W s0 a1) :
    KeptO W s0 (execKvAppendOp a0 a1) := by
  unfold execKvAppendOp
  repeat' first
    | with_reducible assumption
    | with_reducible apply kept_next
    | with_reducible apply kept_ite
    | (with_reducible apply State.read_kept; exact mask_trans (by decide) hW)
    | (with_reducible apply State.opRan_kept; exact mask_trans (by decide) hW)
    | (with_reducible apply State.opInvalid_kept; exact mask_trans (by decide) hW)
    | (with_reducible apply State.readAll_kept; exact mask_trans (by decide) hW)
    | (with_reducible apply State.append_kept; exact mask_trans (by decide) hW)
    | dsimp only
    | split

theorem execLayerD16Repeat_kept {W s0 a0 a1 a2 a3} (hW : 167772257 &&& W = 167772257) (h3 : Kept W s0 a3) :
    KeptO W s0 (execLayerD16Repeat a0 a1 a2 a3) := by
  unfold execLayerD16Repeat
  repeat' first
    | with_reducible assumption
    | with_reducible apply kept_next
    | with_reducible apply kept_ite
    | (with_reducible apply State.updRun_kept; exact mask_trans (by decide) hW)
    | (with_reducible apply State.trouble_kept; exact mask_trans (by decide) hW)
    | (with_reducible apply State.raise_kept; exact mask_trans (by decide) hW)
    | split

theorem execLayerStats_kept {W s0 a0 a1 a2 a3 a4 a5} (hW : 1920 &&& W = 1920) (h5 : Kept W s0 a5) :
    KeptO W s0 (execLayerStats a0 a1 a2 a3 a4 a5) := by
  unfold execLayerStats
  repeat' first
    | with_reducible assumption
    | with_reducible apply kept_next
    | (with_reducible apply State.descriptor_kept; exact mask_trans (by decide) hW)
    | (with_reducible apply State.finish_kept; exact mask_trans (by decide) hW)
    | (with_reducible apply State.hostPut_kept; exact mask_trans (by decide) hW)
    | with_reducible intro _ _ _

theorem execMaintCalRequest_kept {W s0 a0 a1 a2} (hW : 268437376 &&& W = 268437376) (h2 : Kept W s0 a2) :
    KeptO W s0 (execMaintCalRequest a0 a1 a2) := by
  unfold execMaintCalRequest
  repeat' first
    | with_reducible assumption
    | with_reducible apply kept_next
    | with_reducible apply kept_ite
    | (with_reducible apply State.descriptor_kept; exact mask_trans (by decide) hW)
    | (with_reducible apply State.finish_kept; exact mask_trans (by decide) hW)
    | (with_reducible apply State.calTrigger_kept; exact mask_trans (by decide) hW)
    | with_reducible apply kept_foldl
    | with_reducible intro _ _ _

theorem execPassRepeat_kept {W s0 a0 a1 a2} (hW : 74633041051363 &&& W = 74633041051363) (h2 : Kept W s0 a2) :
    KeptO W s0 (execPassRepeat a0 a1 a2) := by
  unfold execPassRepeat
  repeat' first
    | with_reducible assumption
    | with_reducible apply kept_next
    | with_reducible apply kept_ite
    | (with_reducible apply State.repeatPass_kept; exact mask_trans (by decide) hW)
    | split

theorem execPsumAddOp_kept {W s0 a0 a1} (hW : 33577059 &&& W = 33577059) (h1 : Kept W s0 a1) :
    KeptO W s0 (execPsumAddOp a0 a1) := by
  unfold execPsumAddOp
  repeat' first
    | with_reducible assumption
    | with_reducible apply kept_next
    | with_reducible apply kept_ite
    | (with_reducible apply State.opRan_kept; exact mask_trans (by decide) hW)
    | (with_reducible apply State.readAll_kept; exact mask_trans (by decide) hW)
    | (with_reducible apply State.psumAdd_kept; exact mask_trans (by decide) hW)
    | (with_reducible apply State.psumTrouble_kept; exact mask_trans (by decide) hW)
    | dsimp only
    | split

theorem execSegmentMerge_kept {W s0 a0 a1} (hW : 1099645868131 &&& W = 1099645868131) (h1 : Kept W s0 a1) :
    KeptO W s0 (execSegmentMerge a0 a1) := by
  unfold execSegmentMerge
  repeat' first
    | with_reducible assumption
    | with_reducible apply kept_next
    | with_reducible apply kept_ite
    | (with_reducible apply State.bump_kept; exact mask_trans (by decide) hW)
    | (with_reducible apply State.walkFault_kept; exact mask_trans (by decide) hW)
    | (with_reducible apply State.walkEnd_kept; exact mask_trans (by decide) hW)
    | fail_if_no_progress (with_reducible apply kept_walks; exact mask_trans (by decide) hW)
    | dsimp only
    | split

theorem execSpareProgramDone_kept {W s0 a0 a1 a2 a3 a4} (hW : 1075839073 &&& W = 1075839073) (h4 : Kept W s0 a4) :
    KeptO W s0 (execSpareProgramDone a0 a1 a2 a3 a4) := by
  unfold execSpareProgramDone
  repeat' first
    | with_reducible assumption
    | with_reducible apply kept_next
    | with_reducible apply kept_ite
    | (with_reducible apply State.setBank_kept; exact mask_trans (by decide) hW)
    | (with_reducible apply State.ashEngine_kept; exact mask_trans (by decide) hW)
    | (with_reducible apply State.seekSpare_kept; exact mask_trans (by decide) hW)
    | dsimp only
    | split

theorem execVerdictReport_kept {W s0 a0 a1 a2} (hW : 192954467 &&& W = 192954467) (h2 : Kept W s0 a2) :
    KeptO W s0 (execVerdictReport a0 a1 a2) := by
  unfold execVerdictReport
  repeat' first
    | with_reducible assumption
    | with_reducible apply kept_next
    | with_reducible apply kept_ite
    | (with_reducible apply State.report_kept; exact mask_trans (by decide) hW)
    | split

end Sys2Proof.Machine
end

