-- ==== Sys2Proof/Laws/KeptServing.lean ====
section
/-! SUPPORT. What each operation leaves alone, and that it keeps the canonical form: serving, fabric, windows and collectives. -/

set_option linter.all false
set_option linter.unreachableTactic false
set_option linter.unusedTactic false
set_option linter.unusedVariables false

namespace Sys2Proof.Machine

theorem State.setPort_kept {W s0 a0 a1 a2} (hW : 2199023255552 &&& W = 2199023255552) (h0 : Kept W s0 a0) :
    Kept W s0 (State.setPort a0 a1 a2) := by
  unfold State.setPort
  repeat' first
    | with_reducible assumption
    | fail_if_no_progress (with_reducible apply kept_fab; exact mask_trans (by decide) hW)

theorem State.dropPort_kept {W s0 a0 a1} (hW : 2199023255554 &&& W = 2199023255554) (h0 : Kept W s0 a0) :
    Kept W s0 (State.dropPort a0 a1) := by
  unfold State.dropPort
  repeat' first
    | with_reducible assumption
    | (with_reducible apply State.bump_kept; exact mask_trans (by decide) hW)
    | (with_reducible apply State.setPort_kept; exact mask_trans (by decide) hW)

theorem State.portTrain_kept {W s0 a0 a1} (hW : 2199023255552 &&& W = 2199023255552) (h0 : Kept W s0 a0) :
    Kept W s0 (State.portTrain a0 a1) := by
  unfold State.portTrain
  repeat' first
    | with_reducible assumption
    | (with_reducible apply State.setPort_kept; exact mask_trans (by decide) hW)

theorem State.reroute_kept {W s0 a0} (hW : 2199023255552 &&& W = 2199023255552) (h0 : Kept W s0 a0) :
    Kept W s0 (State.reroute a0) := by
  unfold State.reroute
  repeat' first
    | with_reducible assumption
    | fail_if_no_progress (with_reducible apply kept_fab; exact mask_trans (by decide) hW)

theorem execRetrain_kept {W s0 a0 a1} (hW : 2199023255554 &&& W = 2199023255554) (h1 : Kept W s0 a1) :
    KeptO W s0 (execRetrain a0 a1) := by
  unfold execRetrain
  repeat' first
    | with_reducible assumption
    | with_reducible apply kept_next
    | with_reducible apply kept_ite
    | (with_reducible apply State.dropPort_kept; exact mask_trans (by decide) hW)
    | (with_reducible apply State.bump_kept; exact mask_trans (by decide) hW)
    | (with_reducible apply State.portTrain_kept; exact mask_trans (by decide) hW)
    | (with_reducible apply State.setPort_kept; exact mask_trans (by decide) hW)
    | (with_reducible apply State.reroute_kept; exact mask_trans (by decide) hW)

theorem State.setWin_kept {W s0 a0 a1 a2} (hW : 2199023255552 &&& W = 2199023255552) (h0 : Kept W s0 a0) :
    Kept W s0 (State.setWin a0 a1 a2) := by
  unfold State.setWin
  repeat' first
    | with_reducible assumption
    | fail_if_no_progress (with_reducible apply kept_fab; exact mask_trans (by decide) hW)

theorem State.takeId_kept {W s0 a0 a1} (hW : 2199023255649 &&& W = 2199023255649) (h0 : Kept W s0 a0) :
    Kept W s0 (State.takeId a0 a1) := by
  unfold State.takeId
  repeat' first
    | with_reducible assumption
    | (with_reducible apply State.raise_kept; exact mask_trans (by decide) hW)
    | (with_reducible apply State.setWin_kept; exact mask_trans (by decide) hW)
    | fail_if_no_progress (with_reducible apply kept_fab; exact mask_trans (by decide) hW)

theorem State.enumEnd_kept {W s0 a0 a1 a2 a3} (hW : 2199023255649 &&& W = 2199023255649) (h0 : Kept W s0 a0) :
    Kept W s0 (State.enumEnd a0 a1 a2 a3) := by
  unfold State.enumEnd
  repeat' first
    | with_reducible assumption
    | (with_reducible apply State.raise_kept; exact mask_trans (by decide) hW)
    | fail_if_no_progress (with_reducible apply kept_fab; exact mask_trans (by decide) hW)

theorem State.depart_kept {W s0 a0 a1 a2} (hW : 2199023255554 &&& W = 2199023255554) (h0 : Kept W s0 a0) :
    Kept W s0 (State.depart a0 a1 a2) := by
  unfold State.depart
  repeat' first
    | with_reducible assumption
    | (with_reducible apply State.setPort_kept; exact mask_trans (by decide) hW)
    | (with_reducible apply State.bump_kept; exact mask_trans (by decide) hW)
    | fail_if_no_progress (with_reducible apply kept_fab; exact mask_trans (by decide) hW)

theorem State.transmit_kept {W s0 a0 a1 a2} (hW : 2199023255555 &&& W = 2199023255555) (h0 : Kept W s0 a0) :
    Kept W s0 (State.transmit a0 a1 a2) := by
  unfold State.transmit
  repeat' first
    | with_reducible assumption
    | with_reducible apply kept_ite
    | (with_reducible apply State.depart_kept; exact mask_trans (by decide) hW)
    | (with_reducible apply State.bumpWait_kept; exact mask_trans (by decide) hW)
    | (with_reducible apply State.setPort_kept; exact mask_trans (by decide) hW)

theorem State.enumSend_kept {W s0 a0 a1 a2 a3 a4 a5} (hW : 2199023255555 &&& W = 2199023255555) (h0 : Kept W s0 a0) :
    Kept W s0 (State.enumSend a0 a1 a2 a3 a4 a5) := by
  unfold State.enumSend
  repeat' first
    | with_reducible assumption
    | (with_reducible apply State.transmit_kept; exact mask_trans (by decide) hW)

theorem State.enumOn_kept {W s0 a0 a1 a2 a3} (hW : 2199023255651 &&& W = 2199023255651) (h0 : Kept W s0 a0) :
    Kept W s0 (State.enumOn a0 a1 a2 a3) := by
  unfold State.enumOn
  repeat' first
    | with_reducible assumption
    | with_reducible apply kept_ite
    | (with_reducible apply State.enumSend_kept; exact mask_trans (by decide) hW)
    | (with_reducible apply State.enumEnd_kept; exact mask_trans (by decide) hW)

theorem execEnumStart_kept {W s0 a0} (hW : 2199023255651 &&& W = 2199023255651) (h0 : Kept W s0 a0) :
    KeptO W s0 (execEnumStart a0) := by
  unfold execEnumStart
  repeat' first
    | with_reducible assumption
    | with_reducible apply kept_next
    | with_reducible apply kept_ite
    | (with_reducible apply State.raise_kept; exact mask_trans (by decide) hW)
    | (with_reducible apply State.takeId_kept; exact mask_trans (by decide) hW)
    | (with_reducible apply State.enumEnd_kept; exact mask_trans (by decide) hW)
    | (with_reducible apply State.enumOn_kept; exact mask_trans (by decide) hW)
    | fail_if_no_progress (with_reducible apply kept_fab; exact mask_trans (by decide) hW)

theorem execClearId_kept {W s0 a0} (hW : 2199023255649 &&& W = 2199023255649) (h0 : Kept W s0 a0) :
    KeptO W s0 (execClearId a0) := by
  unfold execClearId
  repeat' first
    | with_reducible assumption
    | with_reducible apply kept_next
    | with_reducible apply kept_ite
    | (with_reducible apply State.raise_kept; exact mask_trans (by decide) hW)
    | fail_if_no_progress (with_reducible apply kept_fab; exact mask_trans (by decide) hW)

theorem State.addLocal_kept {W s0 a0 a1 a2 a3 a4 a5} (hW : 3711044905059 &&& W = 3711044905059) (h0 : Kept W s0 a0) :
    Kept W s0 (State.addLocal a0 a1 a2 a3 a4 a5) := by
  fun_induction State.addLocal a0 a1 a2 a3 a4 a5
  all_goals
    repeat' first
      | with_reducible assumption
      | (with_reducible apply State.payload_kept; exact mask_trans (by decide) hW)
      | with_reducible apply_assumption

theorem State.addRemote_kept {W s0 a0 a1} (hW : 2199023255552 &&& W = 2199023255552) (h0 : Kept W s0 a0) :
    Kept W s0 (State.addRemote a0 a1) := by
  unfold State.addRemote
  repeat' first
    | with_reducible assumption
    | fail_if_no_progress (with_reducible apply kept_fab; exact mask_trans (by decide) hW)

theorem State.sendOut_kept {W s0 a0 a1} (hW : 2199023255555 &&& W = 2199023255555) (h0 : Kept W s0 a0) :
    KeptOpt W s0 (State.sendOut a0 a1) := by
  refine ⟨fun t e => ?_⟩
  obtain ⟨p, _, rfl⟩ := Option.map_eq_some_iff.1 e
  exact State.transmit_kept (mask_trans (by decide) hW) h0

theorem State.answer_kept {W s0 a0 a1} (hW : 2199023255555 &&& W = 2199023255555) (h0 : Kept W s0 a0) :
    Kept W s0 (State.answer a0 a1) := by
  unfold State.answer
  have := State.sendOut_kept (a1 := a1) (mask_trans (by decide) hW) h0
  cases h : a0.sendOut a1 with
  | none => exact h0
  | some t => exact this.of _ h

theorem State.takeOver_kept {W s0 a0} (hW : 3436166930531 &&& W = 3436166930531) (h0 : Kept W s0 a0) :
    Kept W s0 (State.takeOver a0) := by
  unfold State.takeOver
  repeat' first
    | with_reducible assumption
    | with_reducible apply kept_ite
    | (with_reducible apply State.dropStep_kept; exact mask_trans (by decide) hW)
    | (with_reducible apply State.raise_kept; exact mask_trans (by decide) hW)
    | fail_if_no_progress (with_reducible apply kept_time_step; exact mask_trans (by decide) hW)

theorem State.owe_kept {W s0 a0 a1 a2} (hW : 2199023255555 &&& W = 2199023255555) (h0 : Kept W s0 a0) :
    Kept W s0 (State.owe a0 a1 a2) := by
  unfold State.owe
  repeat' first
    | with_reducible assumption
    | with_reducible apply kept_ite
    | (with_reducible apply State.setPort_kept; exact mask_trans (by decide) hW)
    | (with_reducible apply State.transmit_kept; exact mask_trans (by decide) hW)

theorem State.receive_kept {W s0 a0 a1 a2 a3} (hW : 2199023255555 &&& W = 2199023255555) (h0 : Kept W s0 a0) (h3 : ∀ x0, Kept W s0 x0 → Kept W s0 (a3 x0)) :
    Kept W s0 (State.receive a0 a1 a2 a3) := by
  unfold State.receive
  repeat' first
    | with_reducible assumption
    | with_reducible apply kept_ite
    | (with_reducible apply State.owe_kept; exact mask_trans (by decide) hW)
    | (with_reducible apply State.bump_kept; exact mask_trans (by decide) hW)
    | with_reducible apply_assumption

theorem State.arrive_kept {W s0 a0 a1 a2 a3 a4} (hW : 2199023255555 &&& W = 2199023255555) (h0 : Kept W s0 a0) (h4 : ∀ x0, Kept W s0 x0 → Kept W s0 (a4 x0)) :
    Kept W s0 (State.arrive a0 a1 a2 a3 a4) := by
  unfold State.arrive
  repeat' first
    | with_reducible assumption
    | with_reducible apply kept_ite
    | (with_reducible apply State.receive_kept; exact mask_trans (by decide) hW)

theorem State.tagged_kept {W s0 a0 a1} (hW : 2199023255552 &&& W = 2199023255552) (h0 : Kept W s0 a0) :
    Kept W s0 (State.tagged a0 a1).1 := by
  unfold State.tagged
  repeat' first
    | with_reducible assumption
    | fail_if_no_progress (with_reducible apply kept_fab; exact mask_trans (by decide) hW)

theorem State.tagAll_kept {W s0 a0 a1} (hW : 2199023255552 &&& W = 2199023255552) (h0 : Kept W s0 a0) :
    Kept W s0 (State.tagAll a0 a1).1 := by
  fun_induction State.tagAll a0 a1
  all_goals
    repeat' first
      | with_reducible assumption
      | (with_reducible apply State.tagged_kept; exact mask_trans (by decide) hW)
      | with_reducible apply_assumption

theorem State.setRemote_kept {W s0 a0 a1 a2} (hW : 2199023255552 &&& W = 2199023255552) (h0 : Kept W s0 a0) :
    Kept W s0 (State.setRemote a0 a1 a2) := by
  unfold State.setRemote
  repeat' first
    | with_reducible assumption
    | fail_if_no_progress (with_reducible apply kept_fab; exact mask_trans (by decide) hW)

theorem State.failRemote_kept {W s0 a0 a1 a2 a3} (hW : 2199023255552 &&& W = 2199023255552) (h0 : Kept W s0 a0) :
    Kept W s0 (State.failRemote a0 a1 a2 a3) := by
  unfold State.failRemote
  repeat' first
    | with_reducible assumption
    | (with_reducible apply State.setRemote_kept; exact mask_trans (by decide) hW)

theorem State.issueFrame_kept {W s0 a0 a1 a2} (hW : 2199023255555 &&& W = 2199023255555) (h0 : Kept W s0 a0) :
    Kept W s0 (State.issueFrame a0 a1 a2) := by
  unfold State.issueFrame
  repeat' first
    | with_reducible assumption
    | with_reducible apply kept_ite
    | (with_reducible apply State.failRemote_kept; exact mask_trans (by decide) hW)
    | (with_reducible apply State.sendOut_kept; exact mask_trans (by decide) hW)
    | (with_reducible apply State.setRemote_kept; exact mask_trans (by decide) hW)
    | (with_reducible apply kept_of_opt; assumption)
    | dsimp only
    | split

theorem State.pump_kept {W s0 a0 a1} (hW : 2199023255555 &&& W = 2199023255555) (h0 : Kept W s0 a0) :
    Kept W s0 (State.pump a0 a1) := by
  unfold State.pump
  repeat' first
    | with_reducible assumption
    | with_reducible apply kept_ite
    | (with_reducible apply State.issueFrame_kept; exact mask_trans (by decide) hW)
    | with_reducible apply kept_foldl
    | with_reducible intro _ _ _

theorem State.launch_kept {W s0 a0 a1 a2 a3} (hW : 2199023255555 &&& W = 2199023255555) (h0 : Kept W s0 a0) :
    Kept W s0 (State.launch a0 a1 a2 a3) := by
  unfold State.launch
  repeat' first
    | with_reducible assumption
    | with_reducible apply kept_ite
    | (with_reducible apply State.tagAll_kept; exact mask_trans (by decide) hW)
    | (with_reducible apply State.addRemote_kept; exact mask_trans (by decide) hW)
    | (with_reducible apply State.pump_kept; exact mask_trans (by decide) hW)
    | (with_reducible apply State.failRemote_kept; exact mask_trans (by decide) hW)

theorem State.atomicFar_kept {W s0 a0 a1 a2} (hW : 2199023278179 &&& W = 2199023278179) (h0 : Kept W s0 a0) :
    Kept W s0 (State.atomicFar a0 a1 a2) := by
  unfold State.atomicFar
  repeat' first
    | with_reducible assumption
    | with_reducible apply kept_ite
    | (with_reducible apply State.opRan_kept; exact mask_trans (by decide) hW)
    | (with_reducible apply State.read_kept; exact mask_trans (by decide) hW)
    | (with_reducible apply State.launch_kept; exact mask_trans (by decide) hW)

theorem State.atomicGo_kept {W s0 a0 a1 a2} (hW : 3711044909155 &&& W = 3711044909155) (h0 : Kept W s0 a0) :
    Kept W s0 (State.atomicGo a0 a1 a2) := by
  unfold State.atomicGo
  repeat' first
    | with_reducible assumption
    | with_reducible apply kept_ite
    | (with_reducible apply State.atomicFar_kept; exact mask_trans (by decide) hW)
    | (with_reducible apply State.atomicStep_kept; exact mask_trans (by decide) hW)
    | split

theorem State.freeBytes_kept {W s0 a0 a1} (hW : 1 &&& W = 1) (h0 : Kept W s0 a0) :
    Kept W s0 (State.freeBytes a0 a1).2 := by
  unfold State.freeBytes
  repeat' first
    | with_reducible assumption
    | fail_if_no_progress (with_reducible apply kept_fresh; exact mask_trans (by decide) hW)

theorem State.setRing_kept {W s0 a0 a1 a2} (hW : 4398046511104 &&& W = 4398046511104) (h0 : Kept W s0 a0) :
    Kept W s0 (State.setRing a0 a1 a2) := by
  unfold State.setRing
  repeat' first
    | with_reducible assumption
    | fail_if_no_progress (with_reducible apply kept_topo; exact mask_trans (by decide) hW)

theorem State.clearRings_kept {W s0 a0 a1} (hW : 6597069766656 &&& W = 6597069766656) (h0 : Kept W s0 a0) :
    Kept W s0 (State.clearRings a0 a1) := by
  unfold State.clearRings
  repeat' first
    | with_reducible assumption
    | (with_reducible apply State.reroute_kept; exact mask_trans (by decide) hW)
    | (with_reducible apply State.setRing_kept; exact mask_trans (by decide) hW)
    | with_reducible apply kept_foldl
    | with_reducible intro _ _ _

theorem State.warnExpiry_kept {W s0 a0 a1} (hW : 8589934689 &&& W = 8589934689) (h0 : Kept W s0 a0) :
    Kept W s0 (State.warnExpiry a0 a1) := by
  unfold State.warnExpiry
  repeat' first
    | with_reducible assumption
    | (with_reducible apply State.raise_kept; exact mask_trans (by decide) hW)
    | (with_reducible apply State.setReq_kept; exact mask_trans (by decide) hW)

theorem State.moveFailed_kept {W s0 a0 a1 a2} (hW : 42949673057 &&& W = 42949673057) (h0 : Kept W s0 a0) :
    Kept W s0 (State.moveFailed a0 a1 a2) := by
  unfold State.moveFailed
  repeat' first
    | with_reducible assumption
    | (with_reducible apply State.raise_kept; exact mask_trans (by decide) hW)
    | (with_reducible apply State.stopMove_kept; exact mask_trans (by decide) hW)

theorem State.startMove_kept {W s0 a0 a1} (hW : 42949673057 &&& W = 42949673057) (h0 : Kept W s0 a0) :
    Kept W s0 (State.startMove a0 a1) := by
  unfold State.startMove
  repeat' first
    | with_reducible assumption
    | with_reducible apply kept_ite
    | (with_reducible apply State.setReq_kept; exact mask_trans (by decide) hW)
    | (with_reducible apply State.moveFailed_kept; exact mask_trans (by decide) hW)
    | (with_reducible apply State.setTable_kept; exact mask_trans (by decide) hW)
    | dsimp only
    | split

theorem State.topoBoundary_kept {W s0 a0} (hW : 6597069766753 &&& W = 6597069766753) (h0 : Kept W s0 a0) :
    Kept W s0 (State.topoBoundary a0) := by
  unfold State.topoBoundary
  repeat' first
    | with_reducible assumption
    | (with_reducible apply State.reroute_kept; exact mask_trans (by decide) hW)
    | (with_reducible apply State.raise_kept; exact mask_trans (by decide) hW)
    | (with_reducible apply State.setRing_kept; exact mask_trans (by decide) hW)
    | with_reducible apply kept_foldl
    | with_reducible intro _ _ _
    | dsimp only
    | split

theorem State.expire_kept {W s0 a0 a1} (hW : 25769805539 &&& W = 25769805539) (h0 : Kept W s0 a0) :
    Kept W s0 (State.expire a0 a1) := by
  unfold State.expire
  repeat' first
    | with_reducible assumption
    | (with_reducible apply State.releaseExtent_kept; exact mask_trans (by decide) hW)
    | (with_reducible apply State.unpin_kept; exact mask_trans (by decide) hW)
    | (with_reducible apply State.bump_kept; exact mask_trans (by decide) hW)
    | (with_reducible apply State.requestEvent_kept; exact mask_trans (by decide) hW)
    | (with_reducible apply State.setReq_kept; exact mask_trans (by decide) hW)

theorem State.resumeFailed_kept {W s0 a0 a1 a2 a3} (hW : 128849022691 &&& W = 128849022691) (h0 : Kept W s0 a0) :
    Kept W s0 (State.resumeFailed a0 a1 a2 a3) := by
  unfold State.resumeFailed
  repeat' first
    | with_reducible assumption
    | with_reducible apply kept_ite
    | (with_reducible apply State.finish_kept; exact mask_trans (by decide) hW)
    | (with_reducible apply State.bump_kept; exact mask_trans (by decide) hW)
    | (with_reducible apply State.requestEvent_kept; exact mask_trans (by decide) hW)
    | (with_reducible apply State.stopResume_kept; exact mask_trans (by decide) hW)
    | (with_reducible apply State.expire_kept; exact mask_trans (by decide) hW)

theorem State.callEnd_kept {W s0 a0 a1 a2 a3} (hW : 1664 &&& W = 1664) (h0 : Kept W s0 a0) :
    Kept W s0 (State.callEnd a0 a1 a2 a3) := by
  unfold State.callEnd
  repeat' first
    | with_reducible assumption
    | (with_reducible apply State.finish_kept; exact mask_trans (by decide) hW)
    | split

theorem State.callClose_kept {W s0 a0 a1 a2} (hW : 2199023257216 &&& W = 2199023257216) (h0 : Kept W s0 a0) :
    Kept W s0 (State.callClose a0 a1 a2) := by
  unfold State.callClose
  repeat' first
    | with_reducible assumption
    | with_reducible apply kept_ite
    | (with_reducible apply State.setWin_kept; exact mask_trans (by decide) hW)
    | (with_reducible apply State.callEnd_kept; exact mask_trans (by decide) hW)

theorem State.winOpen_kept {W s0 a0 a1 a2} (hW : 2199023255649 &&& W = 2199023255649) (h0 : Kept W s0 a0) :
    Kept W s0 (State.winOpen a0 a1 a2) := by
  unfold State.winOpen
  repeat' first
    | with_reducible assumption
    | (with_reducible apply State.raise_kept; exact mask_trans (by decide) hW)
    | (with_reducible apply State.setWin_kept; exact mask_trans (by decide) hW)

theorem State.windowOpen_kept {W s0 a0 a1} (hW : 2199023255649 &&& W = 2199023255649) (h0 : Kept W s0 a0) :
    Kept W s0 (State.windowOpen a0 a1).1 := by
  unfold State.windowOpen
  repeat' first
    | with_reducible assumption
    | with_reducible apply kept_ite_fst
    | (with_reducible apply State.winOpen_kept; exact mask_trans (by decide) hW)
    | dsimp only
    | split

theorem State.callOpen_kept {W s0 a0 a1 a2} (hW : 2199023257313 &&& W = 2199023257313) (h0 : Kept W s0 a0) :
    Kept W s0 (State.callOpen a0 a1 a2) := by
  unfold State.callOpen
  repeat' first
    | with_reducible assumption
    | (with_reducible apply State.windowOpen_kept; exact mask_trans (by decide) hW)
    | (with_reducible apply State.callEnd_kept; exact mask_trans (by decide) hW)

theorem State.callQuery_kept {W s0 a0 a1 a2 a3} (hW : 1921 &&& W = 1921) (h0 : Kept W s0 a0) :
    Kept W s0 (State.callQuery a0 a1 a2 a3) := by
  unfold State.callQuery
  repeat' first
    | with_reducible assumption
    | (with_reducible apply State.freeBytes_kept; exact mask_trans (by decide) hW)
    | (with_reducible apply State.callEnd_kept; exact mask_trans (by decide) hW)
    | (with_reducible apply State.hostPut_kept; exact mask_trans (by decide) hW)

theorem State.putUnit_kept {W s0 a0 a1 a2 a3 a4 a5} (hW : 2048 &&& W = 2048) (h0 : Kept W s0 a0) :
    Kept W s0 (State.putUnit a0 a1 a2 a3 a4 a5) := by
  unfold State.putUnit
  repeat' first
    | with_reducible assumption
    | (with_reducible apply State.putBytes_kept; exact mask_trans (by decide) hW)
    | with_reducible apply kept_foldl_fst
    | with_reducible intro _ _ _
    | dsimp only
    | split

theorem State.checkImage_kept {W s0 a0 a1 a2 a3} (hW : 2048 &&& W = 2048) (h0 : Kept W s0 a0) :
    Kept W s0 (State.checkImage a0 a1 a2 a3).1 := by
  unfold State.checkImage
  repeat' first
    | with_reducible assumption
    | (with_reducible apply State.putUnit_kept; exact mask_trans (by decide) hW)
    | with_reducible apply kept_foldl_fst
    | with_reducible intro _ _ _

theorem State.clearHalf_kept {W s0 a0 a1 a2} (hW : 2048 &&& W = 2048) (h0 : Kept W s0 a0) :
    Kept W s0 (State.clearHalf a0 a1 a2) := by
  unfold State.clearHalf
  repeat' first
    | with_reducible assumption
    | with_reducible apply kept_ite
    | (with_reducible apply State.clearTile_kept; exact mask_trans (by decide) hW)
    | (with_reducible apply State.putBytes_kept; exact mask_trans (by decide) hW)
    | with_reducible apply kept_foldl
    | with_reducible intro _ _ _

theorem State.goOn_kept {W s0 a0 a1 a2} (hW : 2199023255555 &&& W = 2199023255555) (h0 : Kept W s0 a0) :
    Kept W s0 (State.goOn a0 a1 a2) := by
  unfold State.goOn
  repeat' first
    | with_reducible assumption
    | (with_reducible apply State.tagAll_kept; exact mask_trans (by decide) hW)
    | (with_reducible apply State.pump_kept; exact mask_trans (by decide) hW)
    | (with_reducible apply State.addRemote_kept; exact mask_trans (by decide) hW)

theorem State.copyWrites_kept {W s0 a0 a1 a2 a3} (hW : 2199023278179 &&& W = 2199023278179) (h0 : Kept W s0 a0) :
    Kept W s0 (State.copyWrites a0 a1 a2 a3) := by
  unfold State.copyWrites
  repeat' first
    | with_reducible assumption
    | with_reducible apply kept_ite
    | with_reducible apply kept_ite_Rd
    | (with_reducible apply State.read_kept; exact mask_trans (by decide) hW)
    | (with_reducible apply State.opRan_kept; exact mask_trans (by decide) hW)
    | (with_reducible apply State.goOn_kept; exact mask_trans (by decide) hW)
    | (with_reducible apply State.write_kept; exact mask_trans (by decide) hW)

theorem State.dmaWrites_kept {W s0 a0 a1 a2 a3} (hW : 3711044909155 &&& W = 3711044909155) (h0 : Kept W s0 a0) :
    Kept W s0 (State.dmaWrites a0 a1 a2 a3) := by
  unfold State.dmaWrites
  repeat' first
    | with_reducible assumption
    | with_reducible apply kept_ite
    | (with_reducible apply State.dmaRun_kept; exact mask_trans (by decide) hW)
    | (with_reducible apply State.dmaEnd_kept; exact mask_trans (by decide) hW)
    | (with_reducible apply State.goOn_kept; exact mask_trans (by decide) hW)

theorem State.dmaCopyEnd_kept {W s0 a0 a1 a2 a3 a4} (hW : 3711044904675 &&& W = 3711044904675) (h0 : Kept W s0 a0) :
    Kept W s0 (State.dmaCopyEnd a0 a1 a2 a3 a4) := by
  unfold State.dmaCopyEnd
  repeat' first
    | with_reducible assumption
    | with_reducible apply kept_ite
    | (with_reducible apply State.finish_kept; exact mask_trans (by decide) hW)
    | (with_reducible apply State.objPost_kept; exact mask_trans (by decide) hW)

theorem State.dmaCopyRead_kept {W s0 a0 a1 a2} (hW : 6243 &&& W = 6243) (h0 : Kept W s0 a0) :
    Kept W s0 (State.dmaCopyRead a0 a1 a2).st := by
  unfold State.dmaCopyRead
  repeat' first
    | with_reducible assumption
    | with_reducible apply kept_ite_Rd
    | (with_reducible apply State.reportBlocked_kept; exact mask_trans (by decide) hW)
    | (with_reducible apply State.readPieces_kept; exact mask_trans (by decide) hW)
    | dsimp only
    | split

theorem State.dmaCopyWrite_kept {W s0 a0 a1 a2 a3} (hW : 3711044911075 &&& W = 3711044911075) (h0 : Kept W s0 a0) :
    Kept W s0 (State.dmaCopyWrite a0 a1 a2 a3) := by
  unfold State.dmaCopyWrite
  repeat' first
    | with_reducible assumption
    | with_reducible apply kept_ite
    | (with_reducible apply State.dmaCopyRead_kept; exact mask_trans (by decide) hW)
    | (with_reducible apply State.dmaCopyEnd_kept; exact mask_trans (by decide) hW)
    | (with_reducible apply State.poisonRange_kept; exact mask_trans (by decide) hW)
    | (with_reducible apply State.hostPut_kept; exact mask_trans (by decide) hW)
    | (with_reducible apply State.goOn_kept; exact mask_trans (by decide) hW)
    | (with_reducible apply State.reportBlocked_kept; exact mask_trans (by decide) hW)
    | (with_reducible apply State.writePieces_kept; exact mask_trans (by decide) hW)
    | with_reducible apply kept_foldl
    | with_reducible intro _ _ _
    | split

theorem State.setInstance_kept {W s0 a0 a1} (hW : 4398046511104 &&& W = 4398046511104) (h0 : Kept W s0 a0) :
    Kept W s0 (State.setInstance a0 a1) := by
  unfold State.setInstance
  repeat' first
    | with_reducible assumption
    | fail_if_no_progress (with_reducible apply kept_topo; exact mask_trans (by decide) hW)

theorem State.sendStage_kept {W s0 a0 a1 a2 a3 a4 a5 a6 a7 a8} (hW : 2199023255555 &&& W = 2199023255555) (h0 : Kept W s0 a0) :
    Kept W s0 (State.sendStage a0 a1 a2 a3 a4 a5 a6 a7 a8) := by
  unfold State.sendStage
  repeat' first
    | with_reducible assumption
    | (with_reducible apply State.launch_kept; exact mask_trans (by decide) hW)

theorem State.enterReduce_kept {W s0 a0 a1 a2 a3} (hW : 8109091416163 &&& W = 8109091416163) (h0 : Kept W s0 a0) :
    Kept W s0 (State.enterReduce a0 a1 a2 a3) := by
  unfold State.enterReduce
  repeat' first
    | with_reducible assumption
    | with_reducible apply kept_ite
    | (with_reducible apply State.setInstance_kept; exact mask_trans (by decide) hW)
    | (with_reducible apply State.addLocal_kept; exact mask_trans (by decide) hW)
    | (with_reducible apply State.sendStage_kept; exact mask_trans (by decide) hW)
    | with_reducible apply kept_foldl
    | with_reducible intro _ _ _

theorem State.collStart_kept {W s0 a0 a1 a2} (hW : 8109091416163 &&& W = 8109091416163) (h0 : Kept W s0 a0) :
    Kept W s0 (State.collStart a0 a1 a2) := by
  unfold State.collStart
  repeat' first
    | with_reducible assumption
    | (with_reducible apply State.enterReduce_kept; exact mask_trans (by decide) hW)

theorem State.rerunNow_kept {W s0 a0 a1 a2} (hW : 8109091416163 &&& W = 8109091416163) (h0 : Kept W s0 a0) :
    Kept W s0 (State.rerunNow a0 a1 a2) := by
  unfold State.rerunNow
  repeat' first
    | with_reducible assumption
    | (with_reducible apply State.clearHalf_kept; exact mask_trans (by decide) hW)
    | (with_reducible apply State.collStart_kept; exact mask_trans (by decide) hW)
    | (with_reducible apply State.bump_kept; exact mask_trans (by decide) hW)
    | fail_if_no_progress (with_reducible apply kept_topo; exact mask_trans (by decide) hW)

theorem State.sendRecord_kept {W s0 a0 a1 a2 a3 a4 a5 a6} (hW : 2199023255555 &&& W = 2199023255555) (h0 : Kept W s0 a0) :
    Kept W s0 (State.sendRecord a0 a1 a2 a3 a4 a5 a6) := by
  unfold State.sendRecord
  repeat' first
    | with_reducible assumption
    | (with_reducible apply State.launch_kept; exact mask_trans (by decide) hW)

theorem State.dropColl_kept {W s0 a0 a1} (hW : 2199023255552 &&& W = 2199023255552) (h0 : Kept W s0 a0) :
    Kept W s0 (State.dropColl a0 a1) := by
  unfold State.dropColl
  repeat' first
    | with_reducible assumption
    | fail_if_no_progress (with_reducible apply kept_fab; exact mask_trans (by decide) hW)

theorem State.collEnd_kept {W s0 a0 a1 a2 a3} (hW : 8109091416163 &&& W = 8109091416163) (h0 : Kept W s0 a0) :
    Kept W s0 (State.collEnd a0 a1 a2 a3) := by
  unfold State.collEnd
  repeat' first
    | with_reducible assumption
    | (with_reducible apply State.clearHalf_kept; exact mask_trans (by decide) hW)
    | (with_reducible apply State.putBytes_kept; exact mask_trans (by decide) hW)
    | (with_reducible apply State.bump_kept; exact mask_trans (by decide) hW)
    | (with_reducible apply State.objPost_kept; exact mask_trans (by decide) hW)
    | fail_if_no_progress (with_reducible apply kept_step_topo; exact mask_trans (by decide) hW)

theorem State.collFailed_kept {W s0 a0 a1 a2 a3} (hW : 8109091416163 &&& W = 8109091416163) (h0 : Kept W s0 a0) :
    Kept W s0 (State.collFailed a0 a1 a2 a3) := by
  unfold State.collFailed
  repeat' first
    | with_reducible assumption
    | (with_reducible apply State.poison_kept; exact mask_trans (by decide) hW)
    | (with_reducible apply State.bump_kept; exact mask_trans (by decide) hW)
    | (with_reducible apply State.raise_kept; exact mask_trans (by decide) hW)
    | (with_reducible apply State.collEnd_kept; exact mask_trans (by decide) hW)
    | fail_if_no_progress (with_reducible apply kept_topo; exact mask_trans (by decide) hW)
    | with_reducible apply kept_foldl
    | with_reducible intro _ _ _
    | dsimp only
    | split

theorem State.collFail_kept {W s0 a0 a1 a2 a3 a4 a5} (hW : 8109091416163 &&& W = 8109091416163) (h0 : Kept W s0 a0) :
    Kept W s0 (State.collFail a0 a1 a2 a3 a4 a5) := by
  unfold State.collFail
  repeat' first
    | with_reducible assumption
    | with_reducible apply kept_ite
    | (with_reducible apply State.bump_kept; exact mask_trans (by decide) hW)
    | (with_reducible apply State.raise_kept; exact mask_trans (by decide) hW)
    | (with_reducible apply State.rerunNow_kept; exact mask_trans (by decide) hW)
    | (with_reducible apply State.sendRecord_kept; exact mask_trans (by decide) hW)
    | (with_reducible apply State.dropColl_kept; exact mask_trans (by decide) hW)
    | (with_reducible apply State.collFailed_kept; exact mask_trans (by decide) hW)
    | with_reducible apply kept_foldl
    | with_reducible intro _ _ _

theorem State.endRemote_kept {W s0 a0 a1} (hW : 8111238905827 &&& W = 8111238905827) (h0 : Kept W s0 a0) :
    Kept W s0 (State.endRemote a0 a1) := by
  unfold State.endRemote
  repeat' first
    | with_reducible assumption
    | with_reducible apply kept_ite
    | (with_reducible apply State.opRan_kept; exact mask_trans (by decide) hW)
    | (with_reducible apply State.copyWrites_kept; exact mask_trans (by decide) hW)
    | (with_reducible apply State.dmaEnd_kept; exact mask_trans (by decide) hW)
    | (with_reducible apply State.dmaWrites_kept; exact mask_trans (by decide) hW)
    | (with_reducible apply State.dmaCopyEnd_kept; exact mask_trans (by decide) hW)
    | (with_reducible apply State.dmaCopyWrite_kept; exact mask_trans (by decide) hW)
    | (with_reducible apply State.collFail_kept; exact mask_trans (by decide) hW)
    | (with_reducible apply State.setSlot_kept; exact mask_trans (by decide) hW)
    | (with_reducible apply State.sendRecord_kept; exact mask_trans (by decide) hW)
    | dsimp only
    | split

theorem State.closeRemotes_kept {W s0 a0 a1} (hW : 8111238905827 &&& W = 8111238905827) (h1 : Kept W s0 a1) :
    Kept W s0 (State.closeRemotes a0 a1) := by
  fun_induction State.closeRemotes a0 a1
  all_goals
    repeat' first
      | with_reducible assumption
      | (with_reducible apply State.endRemote_kept; exact mask_trans (by decide) hW)
      | fail_if_no_progress (with_reducible apply kept_fab; exact mask_trans (by decide) hW)
      | with_reducible apply_assumption

theorem State.finalChunk_kept {W s0 a0 a1 a2} (hW : 2048 &&& W = 2048) (h0 : Kept W s0 a0) :
    Kept W s0 (State.finalChunk a0 a1 a2) := by
  unfold State.finalChunk
  repeat' first
    | with_reducible assumption
    | (with_reducible apply State.putBytes_kept; exact mask_trans (by decide) hW)
    | (with_reducible apply State.setTile_kept; exact mask_trans (by decide) hW)
    | with_reducible apply kept_foldl
    | with_reducible intro _ _ _

theorem State.enterGather_kept {W s0 a0 a1 a2 a3} (hW : 6597069766659 &&& W = 6597069766659) (h0 : Kept W s0 a0) :
    Kept W s0 (State.enterGather a0 a1 a2 a3) := by
  unfold State.enterGather
  repeat' first
    | with_reducible assumption
    | with_reducible apply kept_ite
    | (with_reducible apply State.setInstance_kept; exact mask_trans (by decide) hW)
    | (with_reducible apply State.sendStage_kept; exact mask_trans (by decide) hW)
    | with_reducible apply kept_foldl
    | with_reducible intro _ _ _

theorem State.nextStage_kept {W s0 a0 a1 a2} (hW : 8109091416163 &&& W = 8109091416163) (h0 : Kept W s0 a0) :
    Kept W s0 (State.nextStage a0 a1 a2) := by
  unfold State.nextStage
  repeat' first
    | with_reducible assumption
    | with_reducible apply kept_ite
    | (with_reducible apply State.enterReduce_kept; exact mask_trans (by decide) hW)
    | (with_reducible apply State.finalChunk_kept; exact mask_trans (by decide) hW)
    | (with_reducible apply State.enterGather_kept; exact mask_trans (by decide) hW)
    | (with_reducible apply State.collEnd_kept; exact mask_trans (by decide) hW)
    | (with_reducible apply State.collFail_kept; exact mask_trans (by decide) hW)

theorem State.collStep_kept {W s0 a0 a1} (hW : 8109091416163 &&& W = 8109091416163) (h0 : Kept W s0 a0) :
    Kept W s0 (State.collStep a0 a1) := by
  unfold State.collStep
  repeat' first
    | with_reducible assumption
    | with_reducible apply kept_ite
    | (with_reducible apply State.collFail_kept; exact mask_trans (by decide) hW)
    | (with_reducible apply State.setInstance_kept; exact mask_trans (by decide) hW)
    | (with_reducible apply State.nextStage_kept; exact mask_trans (by decide) hW)
    | dsimp only
    | split

theorem State.collAdvance_kept {W s0 a0 a1 a2} (hW : 8109091416163 &&& W = 8109091416163) (h0 : Kept W s0 a0) :
    Kept W s0 (State.collAdvance a0 a1 a2) := by
  fun_induction State.collAdvance a0 a1 a2
  all_goals
    repeat' first
      | with_reducible assumption
      | (with_reducible apply State.collStep_kept; exact mask_trans (by decide) hW)
      | with_reducible apply_assumption

theorem State.collBegin_kept {W s0 a0 a1} (hW : 8109091416163 &&& W = 8109091416163) (h0 : Kept W s0 a0) :
    Kept W s0 (State.collBegin a0 a1) := by
  unfold State.collBegin
  repeat' first
    | with_reducible assumption
    | with_reducible apply kept_ite
    | (with_reducible apply State.objSet_kept; exact mask_trans (by decide) hW)
    | (with_reducible apply State.collAdvance_kept; exact mask_trans (by decide) hW)
    | (with_reducible apply State.collStart_kept; exact mask_trans (by decide) hW)
    | fail_if_no_progress (with_reducible apply kept_topo; exact mask_trans (by decide) hW)
    | dsimp only
    | split

theorem State.sample_kept {W s0 a0 a1 a2 a3 a4} (hW : 1 &&& W = 1) (h0 : Kept W s0 a0) :
    Kept W s0 (State.sample a0 a1 a2 a3 a4).2 := by
  unfold State.sample
  repeat' first
    | with_reducible assumption
    | (with_reducible apply State.freeBelow_kept; exact mask_trans (by decide) hW)
    | split

theorem State.walkTree_kept {W s0 a0 a1 a2 a3 a4 a5 a6 a7 a8} (hW : 1 &&& W = 1) (h0 : Kept W s0 a0) :
    Kept W s0 (State.walkTree a0 a1 a2 a3 a4 a5 a6 a7 a8).st := by
  fun_induction State.walkTree a0 a1 a2 a3 a4 a5 a6 a7 a8
  all_goals
    repeat' first
      | with_reducible assumption
      | (with_reducible apply State.sample_kept; exact mask_trans (by decide) hW)
      | with_reducible apply_assumption

theorem State.exchangeCheck_kept {W s0 a0 a1 a2 a3} (hW : 2147 &&& W = 2147) (h0 : Kept W s0 a0) :
    Kept W s0 (State.exchangeCheck a0 a1 a2 a3) := by
  unfold State.exchangeCheck
  repeat' first
    | with_reducible assumption
    | with_reducible apply kept_ite
    | (with_reducible apply State.check_kept; exact mask_trans (by decide) hW)
    | (with_reducible apply State.poison_kept; exact mask_trans (by decide) hW)

theorem State.exchangeRun_kept {W s0 a0 a1 a2 a3 a4} (hW : 2147 &&& W = 2147) (h0 : Kept W s0 a0) :
    Kept W s0 (State.exchangeRun a0 a1 a2 a3 a4) := by
  unfold State.exchangeRun
  repeat' first
    | with_reducible assumption
    | (with_reducible apply State.exchangeCheck_kept; exact mask_trans (by decide) hW)
    | (with_reducible apply State.putBytes_kept; exact mask_trans (by decide) hW)

theorem State.exchange_kept {W s0 a0 a1 a2 a3 a4} (hW : 2147 &&& W = 2147) (h0 : Kept W s0 a0) :
    Kept W s0 (State.exchange a0 a1 a2 a3 a4) := by
  unfold State.exchange
  repeat' first
    | with_reducible assumption
    | with_reducible apply kept_ite
    | (with_reducible apply State.exchangeRun_kept; exact mask_trans (by decide) hW)
    | with_reducible apply kept_foldl
    | with_reducible intro _ _ _
    | split

theorem State.exchanges_kept {W s0 a0 a1 a2 a3 a4} (hW : 2147 &&& W = 2147) (h0 : Kept W s0 a0) :
    Kept W s0 (State.exchanges a0 a1 a2 a3 a4) := by
  unfold State.exchanges
  repeat' first
    | with_reducible assumption
    | (with_reducible apply State.exchange_kept; exact mask_trans (by decide) hW)
    | with_reducible apply kept_foldl
    | with_reducible intro _ _ _

theorem State.sampled_kept {W s0 a0 a1 a2 a3} (hW : 2147 &&& W = 2147) (h0 : Kept W s0 a0) :
    Kept W s0 (State.sampled a0 a1 a2 a3).st := by
  unfold State.sampled
  repeat' first
    | with_reducible assumption
    | with_reducible apply kept_ite_Sampled
    | (with_reducible apply State.walkTree_kept; exact mask_trans (by decide) hW)
    | (with_reducible apply State.bump_kept; exact mask_trans (by decide) hW)
    | (with_reducible apply State.exchanges_kept; exact mask_trans (by decide) hW)
    | (with_reducible apply State.sample_kept; exact mask_trans (by decide) hW)
    | dsimp only
    | split

theorem State.logDelivered_kept {W s0 a0 a1 a2} (hW : 137438953472 &&& W = 137438953472) (h0 : Kept W s0 a0) :
    Kept W s0 (State.logDelivered a0 a1 a2) := by
  unfold State.logDelivered
  repeat' first
    | with_reducible assumption
    | fail_if_no_progress (with_reducible apply kept_step; exact mask_trans (by decide) hW)

theorem State.deliver_kept {W s0 a0 a1 a2 a3 a4} (hW : 1666 &&& W = 1666) (h0 : Kept W s0 a0) :
    Kept W s0 (State.deliver a0 a1 a2 a3 a4) := by
  unfold State.deliver
  repeat' first
    | with_reducible assumption
    | with_reducible apply kept_ite
    | (with_reducible apply State.bump_kept; exact mask_trans (by decide) hW)
    | (with_reducible apply State.complete_kept; exact mask_trans (by decide) hW)

theorem State.deliverAll_kept {W s0 a0 a1 a2 a3} (hW : 1666 &&& W = 1666) (h0 : Kept W s0 a0) :
    Kept W s0 (State.deliverAll a0 a1 a2 a3) := by
  fun_induction State.deliverAll a0 a1 a2 a3
  all_goals
    repeat' first
      | with_reducible assumption
      | (with_reducible apply State.deliver_kept; exact mask_trans (by decide) hW)
      | with_reducible apply_assumption

theorem State.commitSeq_kept {W s0 a0 a1 a2} (hW : 180388630243 &&& W = 180388630243) (h0 : Kept W s0 a0) :
    Kept W s0 (State.commitSeq a0 a1 a2) := by
  unfold State.commitSeq
  repeat' first
    | with_reducible assumption
    | with_reducible apply kept_ite
    | (with_reducible apply State.sampled_kept; exact mask_trans (by decide) hW)
    | (with_reducible apply State.setReq_kept; exact mask_trans (by decide) hW)
    | (with_reducible apply State.stageEdit_kept; exact mask_trans (by decide) hW)
    | (with_reducible apply State.logDelivered_kept; exact mask_trans (by decide) hW)
    | (with_reducible apply State.deliverAll_kept; exact mask_trans (by decide) hW)
    | (with_reducible apply State.pauseReq_kept; exact mask_trans (by decide) hW)

theorem State.commitOne_kept {W s0 a0 a1} (hW : 180388630243 &&& W = 180388630243) (h0 : Kept W s0 a0) :
    Kept W s0 (State.commitOne a0 a1) := by
  unfold State.commitOne
  repeat' first
    | with_reducible assumption
    | with_reducible apply kept_ite
    | (with_reducible apply State.pauseReq_kept; exact mask_trans (by decide) hW)
    | (with_reducible apply State.stageEdit_kept; exact mask_trans (by decide) hW)
    | (with_reducible apply State.commitSeq_kept; exact mask_trans (by decide) hW)
    | split

theorem State.takeDraft_kept {W s0 a0 a1} (hW : 8589934592 &&& W = 8589934592) (h0 : Kept W s0 a0) :
    Kept W s0 (State.takeDraft a0 a1) := by
  unfold State.takeDraft
  repeat' first
    | with_reducible assumption
    | with_reducible apply kept_ite
    | (with_reducible apply State.setReq_kept; exact mask_trans (by decide) hW)

theorem State.commitStep_kept {W s0 a0 a1} (hW : 4578435141347 &&& W = 4578435141347) (h0 : Kept W s0 a0) :
    Kept W s0 (State.commitStep a0 a1) := by
  unfold State.commitStep
  repeat' first
    | with_reducible assumption
    | (with_reducible apply State.takeDraft_kept; exact mask_trans (by decide) hW)
    | (with_reducible apply State.commitOne_kept; exact mask_trans (by decide) hW)
    | fail_if_no_progress (with_reducible apply kept_step_topo; exact mask_trans (by decide) hW)
    | with_reducible apply kept_foldl
    | with_reducible intro _ _ _

theorem State.stewardFails_kept {W s0 a0} (hW : 38620539019363 &&& W = 38620539019363) (h0 : Kept W s0 a0) :
    Kept W s0 (State.stewardFails a0) := by
  unfold State.stewardFails
  repeat' first
    | with_reducible assumption
    | (with_reducible apply State.takeOver_kept; exact mask_trans (by decide) hW)
    | fail_if_no_progress (with_reducible apply kept_fw; exact mask_trans (by decide) hW)

theorem State.control_kept {W s0 a0 a1 a2 a3 a4} (hW : 2199023255555 &&& W = 2199023255555) (h0 : Kept W s0 a0) (h4 : ∀ x0, Kept W s0 x0 → Kept W s0 (a4 x0)) :
    Kept W s0 (State.control a0 a1 a2 a3 a4) := by
  unfold State.control
  repeat' first
    | with_reducible assumption
    | with_reducible apply kept_ite
    | (with_reducible apply State.receive_kept; exact mask_trans (by decide) hW)
    | (with_reducible apply State.bump_kept; exact mask_trans (by decide) hW)
    | with_reducible intro _
    | with_reducible apply_assumption

theorem State.copyStart_kept {W s0 a0 a1 a2} (hW : 2199023278179 &&& W = 2199023278179) (h0 : Kept W s0 a0) :
    Kept W s0 (State.copyStart a0 a1 a2) := by
  unfold State.copyStart
  repeat' first
    | with_reducible assumption
    | with_reducible apply kept_ite
    | (with_reducible apply State.copyLocal_kept; exact mask_trans (by decide) hW)
    | (with_reducible apply State.countClass_kept; exact mask_trans (by decide) hW)
    | (with_reducible apply State.opRan_kept; exact mask_trans (by decide) hW)
    | (with_reducible apply State.launch_kept; exact mask_trans (by decide) hW)

theorem State.countArrived_kept {W s0 a0 a1 a2 a3} (hW : 4398046511104 &&& W = 4398046511104) (h0 : Kept W s0 a0) :
    Kept W s0 (State.countArrived a0 a1 a2 a3) := by
  unfold State.countArrived
  repeat' first
    | with_reducible assumption
    | fail_if_no_progress (with_reducible apply kept_topo; exact mask_trans (by decide) hW)
    | dsimp only
    | split

theorem State.drainClass_kept {W s0 a0 a1 a2 a3} (hW : 2199023255554 &&& W = 2199023255554) (h0 : Kept W s0 a0) :
    Kept W s0 (State.drainClass a0 a1 a2 a3) := by
  fun_induction State.drainClass a0 a1 a2 a3
  all_goals
    repeat' first
      | with_reducible assumption
      | (with_reducible apply State.depart_kept; exact mask_trans (by decide) hW)
      | (with_reducible apply State.setPort_kept; exact mask_trans (by decide) hW)
      | with_reducible apply_assumption

theorem State.drainPort_kept {W s0 a0 a1} (hW : 2199023255554 &&& W = 2199023255554) (h0 : Kept W s0 a0) :
    Kept W s0 (State.drainPort a0 a1) := by
  unfold State.drainPort
  repeat' first
    | with_reducible assumption
    | (with_reducible apply State.drainClass_kept; exact mask_trans (by decide) hW)
    | with_reducible apply kept_foldl
    | with_reducible intro _ _ _

theorem State.credited_kept {W s0 a0 a1 a2} (hW : 2199023255554 &&& W = 2199023255554) (h0 : Kept W s0 a0) :
    Kept W s0 (State.credited a0 a1 a2) := by
  unfold State.credited
  repeat' first
    | with_reducible assumption
    | (with_reducible apply State.drainPort_kept; exact mask_trans (by decide) hW)
    | (with_reducible apply State.setPort_kept; exact mask_trans (by decide) hW)

theorem State.cutInstance_kept {W s0 a0 a1} (hW : 8109091416163 &&& W = 8109091416163) (h0 : Kept W s0 a0) :
    Kept W s0 (State.cutInstance a0 a1) := by
  unfold State.cutInstance
  repeat' first
    | with_reducible assumption
    | (with_reducible apply State.collFailed_kept; exact mask_trans (by decide) hW)
    | split

theorem State.stopRing_kept {W s0 a0 a1} (hW : 137438953472 &&& W = 137438953472) (h0 : Kept W s0 a0) :
    Kept W s0 (State.stopRing a0 a1) := by
  unfold State.stopRing
  repeat' first
    | with_reducible assumption
    | fail_if_no_progress (with_reducible apply kept_step; exact mask_trans (by decide) hW)

theorem State.memberLost_kept {W s0 a0 a1 a2 a3} (hW : 4535485464673 &&& W = 4535485464673) (h0 : Kept W s0 a0) :
    Kept W s0 (State.memberLost a0 a1 a2 a3) := by
  unfold State.memberLost
  repeat' first
    | with_reducible assumption
    | with_reducible apply kept_ite
    | (with_reducible apply State.setRing_kept; exact mask_trans (by decide) hW)
    | (with_reducible apply State.raise_kept; exact mask_trans (by decide) hW)
    | (with_reducible apply State.stopRing_kept; exact mask_trans (by decide) hW)
    | dsimp only
    | split

theorem State.failInstances_kept {W s0 a0 a1 a2} (hW : 0 &&& W = 0) (h0 : Kept W s0 a0) (h2 : ∀ x0 x1, Kept W s0 x0 → Kept W s0 (a2 x0 x1)) :
    Kept W s0 (State.failInstances a0 a1 a2) := by
  unfold State.failInstances
  repeat' first
    | with_reducible assumption
    | with_reducible apply kept_foldl

theorem State.cutLink_kept {W s0 a0 a1 a2 a3 a4} (hW : 7834213441635 &&& W = 7834213441635) (h0 : Kept W s0 a0) (h4 : ∀ x0 x1, Kept W s0 x0 → Kept W s0 (a4 x0 x1)) :
    Kept W s0 (State.cutLink a0 a1 a2 a3 a4) := by
  unfold State.cutLink
  repeat' first
    | with_reducible assumption
    | with_reducible apply kept_ite
    | (with_reducible apply State.memberLost_kept; exact mask_trans (by decide) hW)
    | (with_reducible apply State.failInstances_kept; exact mask_trans (by decide) hW)
    | (with_reducible apply State.abandon_kept; exact mask_trans (by decide) hW)
    | (with_reducible apply State.setRing_kept; exact mask_trans (by decide) hW)
    | (with_reducible apply State.raise_kept; exact mask_trans (by decide) hW)
    | (with_reducible apply State.stopRing_kept; exact mask_trans (by decide) hW)
    | (with_reducible apply State.reroute_kept; exact mask_trans (by decide) hW)
    | (with_reducible apply State.bump_kept; exact mask_trans (by decide) hW)
    | dsimp only
    | split

theorem State.dmaCommand_kept {W s0 a0 a1} (hW : 3711044909155 &&& W = 3711044909155) (h0 : Kept W s0 a0) :
    Kept W s0 (State.dmaCommand a0 a1) := by
  unfold State.dmaCommand
  repeat' first
    | with_reducible assumption
    | with_reducible apply kept_ite
    | (with_reducible apply State.setQueue_kept; exact mask_trans (by decide) hW)
    | (with_reducible apply State.dmaEnd_kept; exact mask_trans (by decide) hW)
    | (with_reducible apply State.dmaRun_kept; exact mask_trans (by decide) hW)
    | (with_reducible apply State.launch_kept; exact mask_trans (by decide) hW)
    | dsimp only
    | split

theorem State.dmaCopyStart_kept {W s0 a0 a1 a2} (hW : 3711044911075 &&& W = 3711044911075) (h0 : Kept W s0 a0) :
    Kept W s0 (State.dmaCopyStart a0 a1 a2) := by
  unfold State.dmaCopyStart
  repeat' first
    | with_reducible assumption
    | with_reducible apply kept_ite
    | (with_reducible apply State.finish_kept; exact mask_trans (by decide) hW)
    | (with_reducible apply State.launch_kept; exact mask_trans (by decide) hW)
    | (with_reducible apply State.dmaCopyWrite_kept; exact mask_trans (by decide) hW)

theorem State.fabricCall_kept {W s0 a0 a1 a2} (hW : 1920 &&& W = 1920) (h0 : Kept W s0 a0) (h2 : ∀ x0 x1, Kept W s0 x0 → Kept W s0 (a2 x0 x1)) :
    Kept W s0 (State.fabricCall a0 a1 a2) := by
  unfold State.fabricCall
  repeat' first
    | with_reducible assumption
    | (with_reducible apply State.descriptor_kept; exact mask_trans (by decide) hW)
    | with_reducible intro _ _ _
    | with_reducible apply_assumption
    | split

theorem State.fabricStop_kept {W s0 a0 a1 a2} (hW : 4535485464673 &&& W = 4535485464673) (h0 : Kept W s0 a0) :
    Kept W s0 (State.fabricStop a0 a1 a2) := by
  unfold State.fabricStop
  repeat' first
    | with_reducible assumption
    | (with_reducible apply State.raise_kept; exact mask_trans (by decide) hW)
    | (with_reducible apply State.stopRing_kept; exact mask_trans (by decide) hW)
    | (with_reducible apply State.setRing_kept; exact mask_trans (by decide) hW)

theorem State.settled_kept {W s0 a0} (hW : 8111238905827 &&& W = 8111238905827) (h0 : Kept W s0 a0) :
    Kept W s0 (State.settled a0) := by
  unfold State.settled
  repeat' first
    | with_reducible assumption
    | (with_reducible apply State.closeRemotes_kept; exact mask_trans (by decide) hW)

theorem State.frameDone_kept {W s0 a0 a1 a2 a3} (hW : 8111238905827 &&& W = 8111238905827) (h0 : Kept W s0 a0) :
    Kept W s0 (State.frameDone a0 a1 a2 a3) := by
  unfold State.frameDone
  repeat' first
    | with_reducible assumption
    | (with_reducible apply State.settled_kept; exact mask_trans (by decide) hW)
    | (with_reducible apply State.pump_kept; exact mask_trans (by decide) hW)
    | (with_reducible apply State.setRemote_kept; exact mask_trans (by decide) hW)

theorem State.hearthPost_kept {W s0 a0 a1 a2 a3} (hW : 8111238905827 &&& W = 8111238905827) (h0 : Kept W s0 a0) :
    Kept W s0 (State.hearthPost a0 a1 a2 a3) := by
  unfold State.hearthPost
  repeat' first
    | with_reducible assumption
    | with_reducible apply kept_ite
    | (with_reducible apply State.objPost_kept; exact mask_trans (by decide) hW)
    | (with_reducible apply State.settled_kept; exact mask_trans (by decide) hW)
    | (with_reducible apply State.launch_kept; exact mask_trans (by decide) hW)

theorem State.portFault_kept {W s0 a0 a1 a2} (hW : 2199023255651 &&& W = 2199023255651) (h0 : Kept W s0 a0) :
    Kept W s0 (State.portFault a0 a1 a2) := by
  unfold State.portFault
  repeat' first
    | with_reducible assumption
    | with_reducible apply kept_ite
    | (with_reducible apply State.dropPort_kept; exact mask_trans (by decide) hW)
    | (with_reducible apply State.setPort_kept; exact mask_trans (by decide) hW)
    | (with_reducible apply State.raise_kept; exact mask_trans (by decide) hW)
    | (with_reducible apply State.reroute_kept; exact mask_trans (by decide) hW)

theorem State.identified_kept {W s0 a0 a1 a2} (hW : 2199023255651 &&& W = 2199023255651) (h0 : Kept W s0 a0) :
    Kept W s0 (State.identified a0 a1 a2) := by
  unfold State.identified
  repeat' first
    | with_reducible assumption
    | with_reducible apply kept_ite
    | (with_reducible apply State.setPort_kept; exact mask_trans (by decide) hW)
    | (with_reducible apply State.reroute_kept; exact mask_trans (by decide) hW)
    | (with_reducible apply State.raise_kept; exact mask_trans (by decide) hW)
    | (with_reducible apply State.portFault_kept; exact mask_trans (by decide) hW)

theorem State.lateAnswer_kept {W s0 a0} (hW : 2 &&& W = 2) (h0 : Kept W s0 a0) :
    Kept W s0 (State.lateAnswer a0) := by
  unfold State.lateAnswer
  repeat' first
    | with_reducible assumption
    | (with_reducible apply State.bump_kept; exact mask_trans (by decide) hW)

theorem State.nack_kept {W s0 a0 a1 a2 a3} (hW : 2199023255555 &&& W = 2199023255555) (h0 : Kept W s0 a0) :
    Kept W s0 (State.nack a0 a1 a2 a3) := by
  unfold State.nack
  repeat' first
    | with_reducible assumption
    | with_reducible apply kept_ite
    | (with_reducible apply State.setWin_kept; exact mask_trans (by decide) hW)
    | (with_reducible apply State.answer_kept; exact mask_trans (by decide) hW)
    | (with_reducible apply State.bump_kept; exact mask_trans (by decide) hW)

theorem State.onRequest_kept {W s0 a0 a1 a2 a3 a4 a5} (hW : 1920 &&& W = 1920) (h0 : Kept W s0 a0) (h4 : ∀ x0 x1, Kept W s0 x0 → Kept W s0 (a4 x0 x1).1) :
    Kept W s0 (State.onRequest a0 a1 a2 a3 a4 a5) := by
  unfold State.onRequest
  repeat' first
    | with_reducible assumption
    | with_reducible apply kept_ite
    | (with_reducible apply State.descriptor_kept; exact mask_trans (by decide) hW)
    | (with_reducible apply State.finish_kept; exact mask_trans (by decide) hW)
    | with_reducible intro _ _ _
    | with_reducible apply_assumption

theorem State.payloads_kept {W s0 a0 a1 a2 a3 a4} (hW : 3711044905059 &&& W = 3711044905059) (h0 : Kept W s0 a0) :
    Kept W s0 (State.payloads a0 a1 a2 a3 a4).1 := by
  fun_induction State.payloads a0 a1 a2 a3 a4
  all_goals
    repeat' first
      | with_reducible assumption
      | (with_reducible apply State.raise_kept; exact mask_trans (by decide) hW)
      | (with_reducible apply State.payload_kept; exact mask_trans (by decide) hW)
      | with_reducible apply_assumption

theorem State.readServe_kept {W s0 a0 a1 a2} (hW : 2199023261795 &&& W = 2199023261795) (h0 : Kept W s0 a0) :
    Kept W s0 (State.readServe a0 a1 a2) := by
  unfold State.readServe
  repeat' first
    | with_reducible assumption
    | with_reducible apply kept_ite
    | (with_reducible apply State.arrive_kept; exact mask_trans (by decide) hW)
    | (with_reducible apply State.nack_kept; exact mask_trans (by decide) hW)
    | (with_reducible apply State.read_kept; exact mask_trans (by decide) hW)
    | (with_reducible apply State.answer_kept; exact mask_trans (by decide) hW)
    | with_reducible intro _

theorem State.recordArrived_kept {W s0 a0 a1 a2} (hW : 8109091416163 &&& W = 8109091416163) (h0 : Kept W s0 a0) :
    Kept W s0 (State.recordArrived a0 a1 a2) := by
  unfold State.recordArrived
  repeat' first
    | with_reducible assumption
    | with_reducible apply kept_ite
    | (with_reducible apply State.bump_kept; exact mask_trans (by decide) hW)
    | (with_reducible apply State.collAdvance_kept; exact mask_trans (by decide) hW)
    | (with_reducible apply State.rerunNow_kept; exact mask_trans (by decide) hW)
    | (with_reducible apply State.dropColl_kept; exact mask_trans (by decide) hW)
    | dsimp only
    | split

theorem State.repairDue_kept {W s0 a0 a1 a2 a3 a4} (hW : 7834213441635 &&& W = 7834213441635) (h0 : Kept W s0 a0) (h4 : ∀ x0 x1, Kept W s0 x0 → Kept W s0 (a4 x0 x1)) :
    Kept W s0 (State.repairDue a0 a1 a2 a3 a4) := by
  unfold State.repairDue
  repeat' first
    | with_reducible assumption
    | with_reducible apply kept_ite
    | (with_reducible apply State.fabricStop_kept; exact mask_trans (by decide) hW)
    | (with_reducible apply State.cutLink_kept; exact mask_trans (by decide) hW)
    | split

theorem State.repairNotice_kept {W s0 a0 a1 a2 a3 a4 a5 a6} (hW : 7834213441635 &&& W = 7834213441635) (h0 : Kept W s0 a0) (h6 : ∀ x0 x1, Kept W s0 x0 → Kept W s0 (a6 x0 x1)) :
    Kept W s0 (State.repairNotice a0 a1 a2 a3 a4 a5 a6) := by
  unfold State.repairNotice
  repeat' first
    | with_reducible assumption
    | with_reducible apply kept_ite
    | (with_reducible apply State.fabricStop_kept; exact mask_trans (by decide) hW)
    | (with_reducible apply State.cutLink_kept; exact mask_trans (by decide) hW)
    | fail_if_no_progress (with_reducible apply kept_topo; exact mask_trans (by decide) hW)

theorem State.retry_kept {W s0 a0 a1 a2} (hW : 8111238905827 &&& W = 8111238905827) (h0 : Kept W s0 a0) :
    Kept W s0 (State.retry a0 a1 a2) := by
  unfold State.retry
  repeat' first
    | with_reducible assumption
    | with_reducible apply kept_ite
    | (with_reducible apply State.sendOut_kept; exact mask_trans (by decide) hW)
    | (with_reducible apply State.bump_kept; exact mask_trans (by decide) hW)
    | (with_reducible apply State.setRemote_kept; exact mask_trans (by decide) hW)
    | (with_reducible apply State.settled_kept; exact mask_trans (by decide) hW)
    | (with_reducible apply State.failRemote_kept; exact mask_trans (by decide) hW)
    | (with_reducible apply State.raise_kept; exact mask_trans (by decide) hW)
    | (with_reducible apply kept_of_opt; assumption)
    | dsimp only
    | split

theorem State.serve_kept {W s0 a0 a1 a2 a3 a4} (hW : 2199023255555 &&& W = 2199023255555) (h0 : Kept W s0 a0) (h4 : ∀ x0, Kept W s0 x0 → Kept W s0 (a4 x0).1) :
    Kept W s0 (State.serve a0 a1 a2 a3 a4) := by
  unfold State.serve
  repeat' first
    | with_reducible assumption
    | with_reducible apply kept_ite
    | (with_reducible apply State.arrive_kept; exact mask_trans (by decide) hW)
    | (with_reducible apply State.nack_kept; exact mask_trans (by decide) hW)
    | (with_reducible apply State.answer_kept; exact mask_trans (by decide) hW)
    | with_reducible intro _
    | with_reducible apply_assumption

theorem State.startResume_kept {W s0 a0 a1 a2 a3} (hW : 111669149795 &&& W = 111669149795) (h0 : Kept W s0 a0) :
    Kept W s0 (State.startResume a0 a1 a2 a3) := by
  unfold State.startResume
  repeat' first
    | with_reducible assumption
    | (with_reducible apply State.takePages_kept; exact mask_trans (by decide) hW)
    | (with_reducible apply State.setTable_kept; exact mask_trans (by decide) hW)
    | (with_reducible apply State.setReq_kept; exact mask_trans (by decide) hW)
    | dsimp only
    | split

theorem State.tokenTaken_kept {W s0 a0 a1 a2} (hW : 2199023255651 &&& W = 2199023255651) (h0 : Kept W s0 a0) :
    Kept W s0 (State.tokenTaken a0 a1 a2) := by
  unfold State.tokenTaken
  repeat' first
    | with_reducible assumption
    | with_reducible apply kept_ite
    | (with_reducible apply State.enumEnd_kept; exact mask_trans (by decide) hW)
    | (with_reducible apply State.raise_kept; exact mask_trans (by decide) hW)
    | (with_reducible apply State.enumSend_kept; exact mask_trans (by decide) hW)
    | (with_reducible apply State.enumOn_kept; exact mask_trans (by decide) hW)
    | (with_reducible apply State.takeId_kept; exact mask_trans (by decide) hW)

theorem State.transit_kept {W s0 a0 a1 a2} (hW : 2199023255555 &&& W = 2199023255555) (h0 : Kept W s0 a0) :
    Kept W s0 (State.transit a0 a1 a2) := by
  unfold State.transit
  repeat' first
    | with_reducible assumption
    | with_reducible apply kept_ite
    | (with_reducible apply State.bump_kept; exact mask_trans (by decide) hW)
    | (with_reducible apply State.transmit_kept; exact mask_trans (by decide) hW)
    | (with_reducible apply State.answer_kept; exact mask_trans (by decide) hW)
    | dsimp only
    | split

theorem State.writeAll_kept {W s0 a0 a1 a2} (hW : 6243 &&& W = 6243) (h0 : Kept W s0 a0) :
    Kept W s0 (State.writeAll a0 a1 a2).st := by
  fun_induction State.writeAll a0 a1 a2
  all_goals
    repeat' first
      | with_reducible assumption
      | (with_reducible apply State.write_kept; exact mask_trans (by decide) hW)
      | with_reducible apply_assumption

theorem execAck_kept {W s0 a0 a1 a2} (hW : 8111238905827 &&& W = 8111238905827) (h2 : Kept W s0 a2) :
    KeptO W s0 (execAck a0 a1 a2) := by
  unfold execAck
  repeat' first
    | with_reducible assumption
    | with_reducible apply kept_next
    | (with_reducible apply State.arrive_kept; exact mask_trans (by decide) hW)
    | (with_reducible apply State.frameDone_kept; exact mask_trans (by decide) hW)
    | (with_reducible apply State.lateAnswer_kept; exact mask_trans (by decide) hW)
    | with_reducible intro _
    | split

theorem execAdapterInstall_kept {W s0 a0 a1 a2 a3 a4 a5 a6} (hW : 17179877347 &&& W = 17179877347) (h6 : Kept W s0 a6) :
    KeptO W s0 (execAdapterInstall a0 a1 a2 a3 a4 a5 a6) := by
  unfold execAdapterInstall
  repeat' first
    | with_reducible assumption
    | with_reducible apply kept_next
    | with_reducible apply kept_ite
    | (with_reducible apply State.descriptor_kept; exact mask_trans (by decide) hW)
    | (with_reducible apply State.finish_kept; exact mask_trans (by decide) hW)
    | (with_reducible apply State.writePieces_kept; exact mask_trans (by decide) hW)
    | (with_reducible apply State.copy_kept; exact mask_trans (by decide) hW)
    | (with_reducible apply State.declare_kept; exact mask_trans (by decide) hW)
    | (with_reducible apply State.setAdapter_kept; exact mask_trans (by decide) hW)
    | with_reducible apply kept_foldl
    | with_reducible intro _ _ _

theorem execAdapterQuery_kept {W s0 a0 a1 a2 a3} (hW : 1920 &&& W = 1920) (h3 : Kept W s0 a3) :
    KeptO W s0 (execAdapterQuery a0 a1 a2 a3) := by
  unfold execAdapterQuery
  repeat' first
    | with_reducible assumption
    | with_reducible apply kept_next
    | with_reducible apply kept_ite
    | (with_reducible apply State.descriptor_kept; exact mask_trans (by decide) hW)
    | (with_reducible apply State.finish_kept; exact mask_trans (by decide) hW)
    | (with_reducible apply State.hostPut_kept; exact mask_trans (by decide) hW)
    | with_reducible intro _ _ _

theorem execAdapterRemove_kept {W s0 a0 a1 a2} (hW : 17179871104 &&& W = 17179871104) (h2 : Kept W s0 a2) :
    KeptO W s0 (execAdapterRemove a0 a1 a2) := by
  unfold execAdapterRemove
  repeat' first
    | with_reducible assumption
    | with_reducible apply kept_next
    | with_reducible apply kept_ite
    | (with_reducible apply State.descriptor_kept; exact mask_trans (by decide) hW)
    | (with_reducible apply State.finish_kept; exact mask_trans (by decide) hW)
    | (with_reducible apply State.setAdapter_kept; exact mask_trans (by decide) hW)
    | with_reducible intro _ _ _

theorem execAddFx64_kept {W s0 a0 a1} (hW : 8111238905827 &&& W = 8111238905827) (h1 : Kept W s0 a1) :
    KeptO W s0 (execAddFx64 a0 a1) := by
  unfold execAddFx64
  repeat' first
    | with_reducible assumption
    | with_reducible apply kept_next
    | (with_reducible apply State.settled_kept; exact mask_trans (by decide) hW)
    | (with_reducible apply State.atomicGo_kept; exact mask_trans (by decide) hW)

theorem execAddI32Sat_kept {W s0 a0 a1} (hW : 8111238905827 &&& W = 8111238905827) (h1 : Kept W s0 a1) :
    KeptO W s0 (execAddI32Sat a0 a1) := by
  unfold execAddI32Sat
  repeat' first
    | with_reducible assumption
    | with_reducible apply kept_next
    | (with_reducible apply State.settled_kept; exact mask_trans (by decide) hW)
    | (with_reducible apply State.atomicGo_kept; exact mask_trans (by decide) hW)

theorem execAtomicAddFrame_kept {W s0 a0 a1 a2} (hW : 8109091416163 &&& W = 8109091416163) (h2 : Kept W s0 a2) :
    KeptO W s0 (execAtomicAddFrame a0 a1 a2) := by
  unfold execAtomicAddFrame
  repeat' first
    | with_reducible assumption
    | with_reducible apply kept_next
    | with_reducible apply kept_ite
    | (with_reducible apply State.serve_kept; exact mask_trans (by decide) hW)
    | (with_reducible apply State.payloads_kept; exact mask_trans (by decide) hW)
    | (with_reducible apply State.countArrived_kept; exact mask_trans (by decide) hW)
    | with_reducible apply kept_foldl
    | with_reducible intro _ _ _
    | with_reducible intro _

theorem execCleanReport_kept {W s0 a0 a1 a2 a3} (hW : 7834213441635 &&& W = 7834213441635) (h3 : Kept W s0 a3) :
    KeptO W s0 (execCleanReport a0 a1 a2 a3) := by
  unfold execCleanReport
  repeat' first
    | with_reducible assumption
    | with_reducible apply kept_next
    | with_reducible apply kept_ite
    | (with_reducible apply State.abandon_kept; exact mask_trans (by decide) hW)
    | fail_if_no_progress (with_reducible apply kept_topo; exact mask_trans (by decide) hW)

theorem execCollInstanceStart_kept {W s0 a0 a1} (hW : 8111238905827 &&& W = 8111238905827) (h1 : Kept W s0 a1) :
    KeptO W s0 (execCollInstanceStart a0 a1) := by
  unfold execCollInstanceStart
  repeat' first
    | with_reducible assumption
    | with_reducible apply kept_next
    | (with_reducible apply State.settled_kept; exact mask_trans (by decide) hW)
    | (with_reducible apply State.collBegin_kept; exact mask_trans (by decide) hW)

theorem execCollRecord_kept {W s0 a0 a1 a2} (hW : 8111238905827 &&& W = 8111238905827) (h2 : Kept W s0 a2) :
    KeptO W s0 (execCollRecord a0 a1 a2) := by
  unfold execCollRecord
  repeat' first
    | with_reducible assumption
    | with_reducible apply kept_next
    | with_reducible apply kept_ite_fst
    | (with_reducible apply State.settled_kept; exact mask_trans (by decide) hW)
    | (with_reducible apply State.serve_kept; exact mask_trans (by decide) hW)
    | (with_reducible apply State.writeAll_kept; exact mask_trans (by decide) hW)
    | (with_reducible apply State.recordArrived_kept; exact mask_trans (by decide) hW)
    | with_reducible apply kept_foldl
    | with_reducible intro _ _ _
    | with_reducible intro _

theorem execCollWait_kept {W s0 a0 a1} (hW : 8111238905827 &&& W = 8111238905827) (h1 : Kept W s0 a1) :
    KeptO W s0 (execCollWait a0 a1) := by
  unfold execCollWait
  repeat' first
    | with_reducible assumption
    | with_reducible apply kept_next
    | with_reducible apply kept_ite
    | (with_reducible apply State.settled_kept; exact mask_trans (by decide) hW)
    | (with_reducible apply State.collFail_kept; exact mask_trans (by decide) hW)
    | split

theorem execCopyOp_kept {W s0 a0 a1 a2} (hW : 8111238905827 &&& W = 8111238905827) (h2 : Kept W s0 a2) :
    KeptO W s0 (execCopyOp a0 a1 a2) := by
  unfold execCopyOp
  repeat' first
    | with_reducible assumption
    | with_reducible apply kept_next
    | with_reducible apply kept_ite
    | (with_reducible apply State.settled_kept; exact mask_trans (by decide) hW)
    | (with_reducible apply State.copyStart_kept; exact mask_trans (by decide) hW)
    | (with_reducible apply State.hbmReports_kept; exact mask_trans (by decide) hW)
    | split

theorem execCredit_kept {W s0 a0 a1 a2} (hW : 2199023255555 &&& W = 2199023255555) (h2 : Kept W s0 a2) :
    KeptO W s0 (execCredit a0 a1 a2) := by
  unfold execCredit
  repeat' first
    | with_reducible assumption
    | with_reducible apply kept_next
    | (with_reducible apply State.control_kept; exact mask_trans (by decide) hW)
    | (with_reducible apply State.credited_kept; exact mask_trans (by decide) hW)
    | with_reducible intro _

theorem execDmaCommand_kept {W s0 a0 a1 a2} (hW : 8111238905827 &&& W = 8111238905827) (h2 : Kept W s0 a2) :
    KeptO W s0 (execDmaCommand a0 a1 a2) := by
  unfold execDmaCommand
  repeat' first
    | with_reducible assumption
    | with_reducible apply kept_next
    | (with_reducible apply State.settled_kept; exact mask_trans (by decide) hW)
    | (with_reducible apply State.dmaCommand_kept; exact mask_trans (by decide) hW)
    | (with_reducible apply State.hbmReports_kept; exact mask_trans (by decide) hW)

theorem execDmaCopy_kept {W s0 a0 a1 a2} (hW : 8111238905827 &&& W = 8111238905827) (h2 : Kept W s0 a2) :
    KeptO W s0 (execDmaCopy a0 a1 a2) := by
  unfold execDmaCopy
  repeat' first
    | with_reducible assumption
    | with_reducible apply kept_next
    | (with_reducible apply State.settled_kept; exact mask_trans (by decide) hW)
    | (with_reducible apply State.descriptor_kept; exact mask_trans (by decide) hW)
    | (with_reducible apply State.dmaCopyStart_kept; exact mask_trans (by decide) hW)
    | with_reducible intro _ _ _

theorem execEmberHold_kept {W s0 a0 a1} (hW : 42949673057 &&& W = 42949673057) (h1 : Kept W s0 a1) :
    KeptO W s0 (execEmberHold a0 a1) := by
  unfold execEmberHold
  repeat' first
    | with_reducible assumption
    | with_reducible apply kept_next
    | with_reducible apply kept_ite
    | (with_reducible apply State.startMove_kept; exact mask_trans (by decide) hW)

theorem execEnumDone_kept {W s0 a0 a1 a2} (hW : 2199023255651 &&& W = 2199023255651) (h2 : Kept W s0 a2) :
    KeptO W s0 (execEnumDone a0 a1 a2) := by
  unfold execEnumDone
  repeat' first
    | with_reducible assumption
    | with_reducible apply kept_next
    | with_reducible apply kept_ite
    | (with_reducible apply State.control_kept; exact mask_trans (by decide) hW)
    | (with_reducible apply State.enumEnd_kept; exact mask_trans (by decide) hW)
    | (with_reducible apply State.enumSend_kept; exact mask_trans (by decide) hW)
    | with_reducible intro _

theorem execEnumToken_kept {W s0 a0 a1 a2} (hW : 2199023255651 &&& W = 2199023255651) (h2 : Kept W s0 a2) :
    KeptO W s0 (execEnumToken a0 a1 a2) := by
  unfold execEnumToken
  repeat' first
    | with_reducible assumption
    | with_reducible apply kept_next
    | with_reducible apply kept_ite
    | (with_reducible apply State.control_kept; exact mask_trans (by decide) hW)
    | (with_reducible apply State.tokenTaken_kept; exact mask_trans (by decide) hW)
    | (with_reducible apply State.bump_kept; exact mask_trans (by decide) hW)
    | with_reducible intro _

theorem execHoldMax_kept {W s0 a0 a1} (hW : 2199023255651 &&& W = 2199023255651) (h1 : Kept W s0 a1) :
    KeptO W s0 (execHoldMax a0 a1) := by
  unfold execHoldMax
  repeat' first
    | with_reducible assumption
    | with_reducible apply kept_next
    | with_reducible apply kept_ite
    | (with_reducible apply State.raise_kept; exact mask_trans (by decide) hW)
    | (with_reducible apply State.bump_kept; exact mask_trans (by decide) hW)
    | (with_reducible apply State.setPort_kept; exact mask_trans (by decide) hW)
    | dsimp only
    | split

theorem execIdentityMessage_kept {W s0 a0 a1 a2} (hW : 2199023255651 &&& W = 2199023255651) (h2 : Kept W s0 a2) :
    KeptO W s0 (execIdentityMessage a0 a1 a2) := by
  unfold execIdentityMessage
  repeat' first
    | with_reducible assumption
    | with_reducible apply kept_next
    | with_reducible apply kept_ite
    | (with_reducible apply State.control_kept; exact mask_trans (by decide) hW)
    | (with_reducible apply State.identified_kept; exact mask_trans (by decide) hW)
    | with_reducible intro _

theorem execNack_kept {W s0 a0 a1 a2 a3} (hW : 8111238905827 &&& W = 8111238905827) (h3 : Kept W s0 a3) :
    KeptO W s0 (execNack a0 a1 a2 a3) := by
  unfold execNack
  repeat' first
    | with_reducible assumption
    | with_reducible apply kept_next
    | (with_reducible apply State.arrive_kept; exact mask_trans (by decide) hW)
    | (with_reducible apply State.settled_kept; exact mask_trans (by decide) hW)
    | (with_reducible apply State.failRemote_kept; exact mask_trans (by decide) hW)
    | (with_reducible apply State.lateAnswer_kept; exact mask_trans (by decide) hW)
    | with_reducible intro _
    | split

theorem execPeatExpiryWarning_kept {W s0 a0 a1} (hW : 8589934689 &&& W = 8589934689) (h1 : Kept W s0 a1) :
    KeptO W s0 (execPeatExpiryWarning a0 a1) := by
  unfold execPeatExpiryWarning
  repeat' first
    | with_reducible assumption
    | with_reducible apply kept_next
    | with_reducible apply kept_ite
    | (with_reducible apply State.warnExpiry_kept; exact mask_trans (by decide) hW)

theorem execPeatMoveDone_kept {W s0 a0 a1} (hW : 8589934848 &&& W = 8589934848) (h1 : Kept W s0 a1) :
    KeptO W s0 (execPeatMoveDone a0 a1) := by
  unfold execPeatMoveDone
  repeat' first
    | with_reducible assumption
    | with_reducible apply kept_next
    | with_reducible apply kept_ite
    | (with_reducible apply State.setReq_kept; exact mask_trans (by decide) hW)
    | (with_reducible apply State.hostPut_kept; exact mask_trans (by decide) hW)
    | dsimp only
    | split

theorem execPeatMoveFailed_kept {W s0 a0 a1 a2} (hW : 42949673057 &&& W = 42949673057) (h2 : Kept W s0 a2) :
    KeptO W s0 (execPeatMoveFailed a0 a1 a2) := by
  unfold execPeatMoveFailed
  repeat' first
    | with_reducible assumption
    | with_reducible apply kept_next
    | with_reducible apply kept_ite
    | (with_reducible apply State.moveFailed_kept; exact mask_trans (by decide) hW)

theorem execPortFaultRetry_kept {W s0 a0 a1} (hW : 2199023255554 &&& W = 2199023255554) (h1 : Kept W s0 a1) :
    KeptO W s0 (execPortFaultRetry a0 a1) := by
  unfold execPortFaultRetry
  repeat' first
    | with_reducible assumption
    | with_reducible apply kept_next
    | with_reducible apply kept_ite
    | (with_reducible apply State.bump_kept; exact mask_trans (by decide) hW)
    | (with_reducible apply State.setPort_kept; exact mask_trans (by decide) hW)

theorem execPortFecLock_kept {W s0 a0 a1 a2} (hW : 2199023255651 &&& W = 2199023255651) (h2 : Kept W s0 a2) :
    KeptO W s0 (execPortFecLock a0 a1 a2) := by
  unfold execPortFecLock
  repeat' first
    | with_reducible assumption
    | with_reducible apply kept_next
    | with_reducible apply kept_ite
    | (with_reducible apply State.setPort_kept; exact mask_trans (by decide) hW)
    | (with_reducible apply State.raise_kept; exact mask_trans (by decide) hW)
    | (with_reducible apply State.transmit_kept; exact mask_trans (by decide) hW)

theorem execPortLockLoss_kept {W s0 a0 a1} (hW : 2199023255651 &&& W = 2199023255651) (h1 : Kept W s0 a1) :
    KeptO W s0 (execPortLockLoss a0 a1) := by
  unfold execPortLockLoss
  repeat' first
    | with_reducible assumption
    | with_reducible apply kept_next
    | with_reducible apply kept_ite
    | (with_reducible apply State.portFault_kept; exact mask_trans (by decide) hW)

theorem execPortSignalDetect_kept {W s0 a0 a1} (hW : 2199023255552 &&& W = 2199023255552) (h1 : Kept W s0 a1) :
    KeptO W s0 (execPortSignalDetect a0 a1) := by
  unfold execPortSignalDetect
  repeat' first
    | with_reducible assumption
    | with_reducible apply kept_next
    | with_reducible apply kept_ite
    | (with_reducible apply State.portTrain_kept; exact mask_trans (by decide) hW)

theorem execPortTrainTimeout_kept {W s0 a0 a1} (hW : 2199023255651 &&& W = 2199023255651) (h1 : Kept W s0 a1) :
    KeptO W s0 (execPortTrainTimeout a0 a1) := by
  unfold execPortTrainTimeout
  repeat' first
    | with_reducible assumption
    | with_reducible apply kept_next
    | with_reducible apply kept_ite
    | (with_reducible apply State.portFault_kept; exact mask_trans (by decide) hW)

theorem execPostFrame_kept {W s0 a0 a1 a2} (hW : 3711044903011 &&& W = 3711044903011) (h2 : Kept W s0 a2) :
    KeptO W s0 (execPostFrame a0 a1 a2) := by
  unfold execPostFrame
  repeat' first
    | with_reducible assumption
    | with_reducible apply kept_next
    | (with_reducible apply State.serve_kept; exact mask_trans (by decide) hW)
    | (with_reducible apply State.objPost_kept; exact mask_trans (by decide) hW)
    | with_reducible intro _

theorem execReadReq_kept {W s0 a0 a1 a2} (hW : 2199023261795 &&& W = 2199023261795) (h2 : Kept W s0 a2) :
    KeptO W s0 (execReadReq a0 a1 a2) := by
  unfold execReadReq
  repeat' first
    | with_reducible assumption
    | with_reducible apply kept_next
    | (with_reducible apply State.readServe_kept; exact mask_trans (by decide) hW)

theorem execReadTile_kept {W s0 a0 a1 a2} (hW : 8111238905827 &&& W = 8111238905827) (h2 : Kept W s0 a2) :
    KeptO W s0 (execReadTile a0 a1 a2) := by
  unfold execReadTile
  repeat' first
    | with_reducible assumption
    | with_reducible apply kept_next
    | (with_reducible apply State.arrive_kept; exact mask_trans (by decide) hW)
    | (with_reducible apply State.frameDone_kept; exact mask_trans (by decide) hW)
    | (with_reducible apply State.lateAnswer_kept; exact mask_trans (by decide) hW)
    | with_reducible intro _
    | split

theorem execRepairNotice_kept {W s0 a0 a1 a2 a3 a4 a5} (hW : 8109091416163 &&& W = 8109091416163) (h5 : Kept W s0 a5) :
    KeptO W s0 (execRepairNotice a0 a1 a2 a3 a4 a5) := by
  unfold execRepairNotice
  repeat' first
    | with_reducible assumption
    | with_reducible apply kept_next
    | (with_reducible apply State.repairNotice_kept; exact mask_trans (by decide) hW)
    | (with_reducible apply State.cutInstance_kept; exact mask_trans (by decide) hW)
    | with_reducible intro _ _ _

theorem execRepairWait_kept {W s0 a0 a1 a2 a3} (hW : 8109091416163 &&& W = 8109091416163) (h3 : Kept W s0 a3) :
    KeptO W s0 (execRepairWait a0 a1 a2 a3) := by
  unfold execRepairWait
  repeat' first
    | with_reducible assumption
    | with_reducible apply kept_next
    | (with_reducible apply State.repairDue_kept; exact mask_trans (by decide) hW)
    | (with_reducible apply State.cutInstance_kept; exact mask_trans (by decide) hW)
    | with_reducible intro _ _ _

theorem execRequestAppend_kept {W s0 a0 a1 a2 a3 a4 a5} (hW : 8589936512 &&& W = 8589936512) (h5 : Kept W s0 a5) :
    KeptO W s0 (execRequestAppend a0 a1 a2 a3 a4 a5) := by
  unfold execRequestAppend
  repeat' first
    | with_reducible assumption
    | with_reducible apply kept_next
    | with_reducible apply kept_ite_fst
    | (with_reducible apply State.onRequest_kept; exact mask_trans (by decide) hW)
    | (with_reducible apply State.setReq_kept; exact mask_trans (by decide) hW)
    | with_reducible intro _ _ _

theorem execRequestClose_kept {W s0 a0 a1 a2} (hW : 111669153666 &&& W = 111669153666) (h2 : Kept W s0 a2) :
    KeptO W s0 (execRequestClose a0 a1 a2) := by
  unfold execRequestClose
  repeat' first
    | with_reducible assumption
    | with_reducible apply kept_next
    | (with_reducible apply State.onRequest_kept; exact mask_trans (by decide) hW)
    | (with_reducible apply State.finish_kept; exact mask_trans (by decide) hW)
    | (with_reducible apply State.stopResume_kept; exact mask_trans (by decide) hW)
    | (with_reducible apply State.stopMove_kept; exact mask_trans (by decide) hW)
    | (with_reducible apply State.setReq_kept; exact mask_trans (by decide) hW)
    | with_reducible intro _ _ _
    | split

theorem execRequestDraft_kept {W s0 a0 a1 a2 a3 a4 a5} (hW : 8589936512 &&& W = 8589936512) (h5 : Kept W s0 a5) :
    KeptO W s0 (execRequestDraft a0 a1 a2 a3 a4 a5) := by
  unfold execRequestDraft
  repeat' first
    | with_reducible assumption
    | with_reducible apply kept_next
    | with_reducible apply kept_ite_fst
    | (with_reducible apply State.onRequest_kept; exact mask_trans (by decide) hW)
    | (with_reducible apply State.setReq_kept; exact mask_trans (by decide) hW)
    | with_reducible intro _ _ _

theorem execRequestExpired_kept {W s0 a0 a1} (hW : 25769805539 &&& W = 25769805539) (h1 : Kept W s0 a1) :
    KeptO W s0 (execRequestExpired a0 a1) := by
  unfold execRequestExpired
  repeat' first
    | with_reducible assumption
    | with_reducible apply kept_next
    | with_reducible apply kept_ite
    | (with_reducible apply State.expire_kept; exact mask_trans (by decide) hW)

theorem execRequestMigrate_kept {W s0 a0 a1 a2} (hW : 8589936512 &&& W = 8589936512) (h2 : Kept W s0 a2) :
    KeptO W s0 (execRequestMigrate a0 a1 a2) := by
  unfold execRequestMigrate
  repeat' first
    | with_reducible assumption
    | with_reducible apply kept_next
    | with_reducible apply kept_ite_fst
    | (with_reducible apply State.onRequest_kept; exact mask_trans (by decide) hW)
    | (with_reducible apply State.setReq_kept; exact mask_trans (by decide) hW)
    | with_reducible intro _ _ _

theorem execRequestOpen_kept {W s0 a0 a1 a2 a3 a4} (hW : 8589936512 &&& W = 8589936512) (h4 : Kept W s0 a4) :
    KeptO W s0 (execRequestOpen a0 a1 a2 a3 a4) := by
  unfold execRequestOpen
  repeat' first
    | with_reducible assumption
    | with_reducible apply kept_next
    | with_reducible apply kept_ite
    | (with_reducible apply State.descriptor_kept; exact mask_trans (by decide) hW)
    | (with_reducible apply State.setReq_kept; exact mask_trans (by decide) hW)
    | (with_reducible apply State.finish_kept; exact mask_trans (by decide) hW)
    | with_reducible intro _ _ _
    | dsimp only
    | split

theorem execRequestPause_kept {W s0 a0 a1 a2 a3 a4 a5 a6} (hW : 8589936512 &&& W = 8589936512) (h6 : Kept W s0 a6) :
    KeptO W s0 (execRequestPause a0 a1 a2 a3 a4 a5 a6) := by
  unfold execRequestPause
  repeat' first
    | with_reducible assumption
    | with_reducible apply kept_next
    | with_reducible apply kept_ite_fst
    | (with_reducible apply State.onRequest_kept; exact mask_trans (by decide) hW)
    | (with_reducible apply State.setReq_kept; exact mask_trans (by decide) hW)
    | with_reducible intro _ _ _

theorem execRequestQuery_kept {W s0 a0 a1 a2 a3} (hW : 1920 &&& W = 1920) (h3 : Kept W s0 a3) :
    KeptO W s0 (execRequestQuery a0 a1 a2 a3) := by
  unfold execRequestQuery
  repeat' first
    | with_reducible assumption
    | with_reducible apply kept_next
    | (with_reducible apply State.onRequest_kept; exact mask_trans (by decide) hW)
    | (with_reducible apply State.hostPut_kept; exact mask_trans (by decide) hW)
    | with_reducible intro _ _ _

theorem execRequestRenew_kept {W s0 a0 a1 a2 a3} (hW : 8589936512 &&& W = 8589936512) (h3 : Kept W s0 a3) :
    KeptO W s0 (execRequestRenew a0 a1 a2 a3) := by
  unfold execRequestRenew
  repeat' first
    | with_reducible assumption
    | with_reducible apply kept_next
    | with_reducible apply kept_ite_fst
    | (with_reducible apply State.onRequest_kept; exact mask_trans (by decide) hW)
    | (with_reducible apply State.setReq_kept; exact mask_trans (by decide) hW)
    | with_reducible intro _ _ _

theorem execRequestResume_kept {W s0 a0 a1 a2 a3} (hW : 111669151715 &&& W = 111669151715) (h3 : Kept W s0 a3) :
    KeptO W s0 (execRequestResume a0 a1 a2 a3) := by
  unfold execRequestResume
  repeat' first
    | with_reducible assumption
    | with_reducible apply kept_next
    | with_reducible apply kept_ite
    | (with_reducible apply State.descriptor_kept; exact mask_trans (by decide) hW)
    | (with_reducible apply State.finish_kept; exact mask_trans (by decide) hW)
    | (with_reducible apply State.setReq_kept; exact mask_trans (by decide) hW)
    | (with_reducible apply State.stopMove_kept; exact mask_trans (by decide) hW)
    | (with_reducible apply State.startResume_kept; exact mask_trans (by decide) hW)
    | with_reducible intro _ _ _

theorem execRequestRewind_kept {W s0 a0 a1 a2 a3 a4 a5} (hW : 8589936512 &&& W = 8589936512) (h5 : Kept W s0 a5) :
    KeptO W s0 (execRequestRewind a0 a1 a2 a3 a4 a5) := by
  unfold execRequestRewind
  repeat' first
    | with_reducible assumption
    | with_reducible apply kept_next
    | (with_reducible apply State.onRequest_kept; exact mask_trans (by decide) hW)
    | (with_reducible apply State.setReq_kept; exact mask_trans (by decide) hW)
    | with_reducible intro _ _ _
    | dsimp only
    | split

theorem execResumptionChecked_kept {W s0 a0 a1 a2 a3} (hW : 128849022691 &&& W = 128849022691) (h3 : Kept W s0 a3) :
    KeptO W s0 (execResumptionChecked a0 a1 a2 a3) := by
  unfold execResumptionChecked
  repeat' first
    | with_reducible assumption
    | with_reducible apply kept_next
    | with_reducible apply kept_ite
    | (with_reducible apply State.resumeFailed_kept; exact mask_trans (by decide) hW)
    | (with_reducible apply State.checkImage_kept; exact mask_trans (by decide) hW)
    | (with_reducible apply State.finish_kept; exact mask_trans (by decide) hW)
    | (with_reducible apply State.setReq_kept; exact mask_trans (by decide) hW)
    | dsimp only
    | split

theorem execRetryTime_kept {W s0 a0 a1 a2} (hW : 8111238905827 &&& W = 8111238905827) (h2 : Kept W s0 a2) :
    KeptO W s0 (execRetryTime a0 a1 a2) := by
  unfold execRetryTime
  repeat' first
    | with_reducible assumption
    | with_reducible apply kept_next
    | (with_reducible apply State.retry_kept; exact mask_trans (by decide) hW)

theorem execRewindNotice_kept {W s0 a0 a1} (hW : 274877906944 &&& W = 274877906944) (h1 : Kept W s0 a1) :
    KeptO W s0 (execRewindNotice a0 a1) := by
  unfold execRewindNotice
  repeat' first
    | with_reducible assumption
    | with_reducible apply kept_next
    | with_reducible apply kept_ite
    | (with_reducible apply State.openWindow_kept; exact mask_trans (by decide) hW)

theorem execStepAnnounce_kept {W s0 a0 a1 a2} (hW : 13194139533312 &&& W = 13194139533312) (h2 : Kept W s0 a2) :
    KeptO W s0 (execStepAnnounce a0 a1 a2) := by
  unfold execStepAnnounce
  repeat' first
    | with_reducible assumption
    | with_reducible apply kept_next
    | with_reducible apply kept_ite
    | fail_if_no_progress (with_reducible apply kept_topo; exact mask_trans (by decide) hW)
    | fail_if_no_progress (with_reducible apply kept_topo_inst; exact mask_trans (by decide) hW)
    | dsimp only
    | split

theorem execStepCommit_kept {W s0 a0 a1} (hW : 4578435141347 &&& W = 4578435141347) (h1 : Kept W s0 a1) :
    KeptO W s0 (execStepCommit a0 a1) := by
  unfold execStepCommit
  repeat' first
    | with_reducible assumption
    | with_reducible apply kept_next
    | with_reducible apply kept_ite
    | (with_reducible apply State.commitStep_kept; exact mask_trans (by decide) hW)

theorem execStewardCounterSync_kept {W s0 a0} (hW : 32 &&& W = 32) (h0 : Kept W s0 a0) :
    KeptO W s0 (execStewardCounterSync a0) := by
  unfold execStewardCounterSync
  repeat' first
    | with_reducible assumption
    | with_reducible apply kept_next
    | fail_if_no_progress (with_reducible apply kept_time; exact mask_trans (by decide) hW)

theorem execStewardHeartbeat_kept {W s0 a0} (hW : 137438953472 &&& W = 137438953472) (h0 : Kept W s0 a0) :
    KeptO W s0 (execStewardHeartbeat a0) := by
  unfold execStewardHeartbeat
  repeat' first
    | with_reducible assumption
    | with_reducible apply kept_next
    | fail_if_no_progress (with_reducible apply kept_step; exact mask_trans (by decide) hW)

theorem execStewardTimeout_kept {W s0 a0} (hW : 38620539019363 &&& W = 38620539019363) (h0 : Kept W s0 a0) :
    KeptO W s0 (execStewardTimeout a0) := by
  unfold execStewardTimeout
  repeat' first
    | with_reducible assumption
    | with_reducible apply kept_next
    | with_reducible apply kept_ite
    | (with_reducible apply State.stewardFails_kept; exact mask_trans (by decide) hW)

theorem execSyncPost_kept {W s0 a0 a1} (hW : 8111238905827 &&& W = 8111238905827) (h1 : Kept W s0 a1) :
    KeptO W s0 (execSyncPost a0 a1) := by
  unfold execSyncPost
  repeat' first
    | with_reducible assumption
    | with_reducible apply kept_next
    | (with_reducible apply State.objPost_kept; exact mask_trans (by decide) hW)
    | (with_reducible apply State.landed_kept; exact mask_trans (by decide) hW)
    | (with_reducible apply State.hearthPost_kept; exact mask_trans (by decide) hW)
    | split

theorem execTileWrite_kept {W s0 a0 a1 a2} (hW : 2199023261795 &&& W = 2199023261795) (h2 : Kept W s0 a2) :
    KeptO W s0 (execTileWrite a0 a1 a2) := by
  unfold execTileWrite
  repeat' first
    | with_reducible assumption
    | with_reducible apply kept_next
    | (with_reducible apply State.serve_kept; exact mask_trans (by decide) hW)
    | (with_reducible apply State.write_kept; exact mask_trans (by decide) hW)
    | with_reducible intro _

theorem execTileWriteMasked_kept {W s0 a0 a1 a2} (hW : 2199023261795 &&& W = 2199023261795) (h2 : Kept W s0 a2) :
    KeptO W s0 (execTileWriteMasked a0 a1 a2) := by
  unfold execTileWriteMasked
  repeat' first
    | with_reducible assumption
    | with_reducible apply kept_next
    | (with_reducible apply State.serve_kept; exact mask_trans (by decide) hW)
    | (with_reducible apply State.writeAll_kept; exact mask_trans (by decide) hW)
    | with_reducible intro _

theorem execTransitFrame_kept {W s0 a0 a1 a2 a3} (hW : 2199023255555 &&& W = 2199023255555) (h3 : Kept W s0 a3) :
    KeptO W s0 (execTransitFrame a0 a1 a2 a3) := by
  unfold execTransitFrame
  repeat' first
    | with_reducible assumption
    | with_reducible apply kept_next
    | with_reducible apply kept_ite
    | (with_reducible apply State.owe_kept; exact mask_trans (by decide) hW)
    | (with_reducible apply State.bump_kept; exact mask_trans (by decide) hW)
    | (with_reducible apply State.transit_kept; exact mask_trans (by decide) hW)

theorem execUncorrRateCheck_kept {W s0 a0 a1 a2 a3} (hW : 2199023255651 &&& W = 2199023255651) (h3 : Kept W s0 a3) :
    KeptO W s0 (execUncorrRateCheck a0 a1 a2 a3) := by
  unfold execUncorrRateCheck
  repeat' first
    | with_reducible assumption
    | with_reducible apply kept_next
    | with_reducible apply kept_ite
    | (with_reducible apply State.bump_kept; exact mask_trans (by decide) hW)
    | (with_reducible apply State.portFault_kept; exact mask_trans (by decide) hW)

theorem execWindowClose_kept {W s0 a0 a1 a2} (hW : 2199023257472 &&& W = 2199023257472) (h2 : Kept W s0 a2) :
    KeptO W s0 (execWindowClose a0 a1 a2) := by
  unfold execWindowClose
  repeat' first
    | with_reducible assumption
    | with_reducible apply kept_next
    | (with_reducible apply State.fabricCall_kept; exact mask_trans (by decide) hW)
    | (with_reducible apply State.callClose_kept; exact mask_trans (by decide) hW)
    | with_reducible intro _ _ _

theorem execWindowDrained_kept {W s0 a0 a1} (hW : 2199023257313 &&& W = 2199023257313) (h1 : Kept W s0 a1) :
    KeptO W s0 (execWindowDrained a0 a1) := by
  unfold execWindowDrained
  repeat' first
    | with_reducible assumption
    | with_reducible apply kept_next
    | with_reducible apply kept_ite
    | (with_reducible apply State.callEnd_kept; exact mask_trans (by decide) hW)
    | (with_reducible apply State.raise_kept; exact mask_trans (by decide) hW)
    | (with_reducible apply State.setWin_kept; exact mask_trans (by decide) hW)

theorem execWindowOpen_kept {W s0 a0 a1 a2} (hW : 2199023257569 &&& W = 2199023257569) (h2 : Kept W s0 a2) :
    KeptO W s0 (execWindowOpen a0 a1 a2) := by
  unfold execWindowOpen
  repeat' first
    | with_reducible assumption
    | with_reducible apply kept_next
    | (with_reducible apply State.fabricCall_kept; exact mask_trans (by decide) hW)
    | (with_reducible apply State.callOpen_kept; exact mask_trans (by decide) hW)
    | with_reducible intro _ _ _

theorem execWindowQuery_kept {W s0 a0 a1 a2 a3} (hW : 1921 &&& W = 1921) (h3 : Kept W s0 a3) :
    KeptO W s0 (execWindowQuery a0 a1 a2 a3) := by
  unfold execWindowQuery
  repeat' first
    | with_reducible assumption
    | with_reducible apply kept_next
    | (with_reducible apply State.fabricCall_kept; exact mask_trans (by decide) hW)
    | (with_reducible apply State.callQuery_kept; exact mask_trans (by decide) hW)
    | with_reducible intro _ _ _

end Sys2Proof.Machine
end

