-- ==== Sys2Proof/Laws/KeptSystem.lean ====
section
/-! SUPPORT. What each operation leaves alone, and that it keeps the canonical form: security, installation, tests, resets, housekeeping and bring-up. -/

set_option linter.all false
set_option linter.unreachableTactic false
set_option linter.unusedTactic false
set_option linter.unusedVariables false

namespace Sys2Proof.Machine

theorem State.sysStart_kept {W s0 a0 a1} (hW : 549755813985 &&& W = 549755813985) (h0 : Kept W s0 a0) :
    Kept W s0 (State.sysStart a0 a1) := by
  unfold State.sysStart
  repeat' first
    | with_reducible assumption
    | with_reducible apply kept_ite
    | (with_reducible apply State.raise_kept; exact mask_trans (by decide) hW)
    | fail_if_no_progress (with_reducible apply kept_hk; exact mask_trans (by decide) hW)

theorem execSyscalZero_kept {W s0 a0 a1} (hW : 549755813985 &&& W = 549755813985) (h1 : Kept W s0 a1) :
    KeptO W s0 (execSyscalZero a0 a1) := by
  unfold execSyscalZero
  repeat' first
    | with_reducible assumption
    | with_reducible apply kept_next
    | (with_reducible apply State.sysStart_kept; exact mask_trans (by decide) hW)

theorem execSyscalFull_kept {W s0 a0 a1} (hW : 549755813985 &&& W = 549755813985) (h1 : Kept W s0 a1) :
    KeptO W s0 (execSyscalFull a0 a1) := by
  unfold execSyscalFull
  repeat' first
    | with_reducible assumption
    | with_reducible apply kept_next
    | (with_reducible apply State.sysStart_kept; exact mask_trans (by decide) hW)

theorem execSyscalSave_kept {W s0 a0 a1} (hW : 549755813985 &&& W = 549755813985) (h1 : Kept W s0 a1) :
    KeptO W s0 (execSyscalSave a0 a1) := by
  unfold execSyscalSave
  repeat' first
    | with_reducible assumption
    | with_reducible apply kept_next
    | with_reducible apply kept_ite
    | (with_reducible apply State.sysStart_kept; exact mask_trans (by decide) hW)
    | fail_if_no_progress (with_reducible apply kept_hk; exact mask_trans (by decide) hW)

theorem execHkUrgCtrl_kept {W s0 a0 a1 a2 a3} (hW : 549755813890 &&& W = 549755813890) (h3 : Kept W s0 a3) :
    KeptO W s0 (execHkUrgCtrl a0 a1 a2 a3) := by
  unfold execHkUrgCtrl
  repeat' first
    | with_reducible assumption
    | with_reducible apply kept_next
    | with_reducible apply kept_ite
    | (with_reducible apply State.bump_kept; exact mask_trans (by decide) hW)
    | fail_if_no_progress (with_reducible apply kept_hk; exact mask_trans (by decide) hW)

theorem execHkTdacGo_kept {W s0 a0 a1} (hW : 549755813888 &&& W = 549755813888) (h1 : Kept W s0 a1) :
    KeptO W s0 (execHkTdacGo a0 a1) := by
  unfold execHkTdacGo
  repeat' first
    | with_reducible assumption
    | with_reducible apply kept_next
    | with_reducible apply kept_ite
    | fail_if_no_progress (with_reducible apply kept_hk; exact mask_trans (by decide) hW)

theorem State.setHkChan_kept {W s0 a0 a1 a2} (hW : 549755813888 &&& W = 549755813888) (h0 : Kept W s0 a0) :
    Kept W s0 (State.setHkChan a0 a1 a2) := by
  unfold State.setHkChan
  repeat' first
    | with_reducible assumption
    | fail_if_no_progress (with_reducible apply kept_hk; exact mask_trans (by decide) hW)

theorem State.clearShut_kept {W s0 a0 a1} (hW : 549755813888 &&& W = 549755813888) (h0 : Kept W s0 a0) :
    Kept W s0 (State.clearShut a0 a1) := by
  unfold State.clearShut
  repeat' first
    | with_reducible assumption
    | (with_reducible apply State.setHkChan_kept; exact mask_trans (by decide) hW)
    | with_reducible apply kept_foldl
    | with_reducible intro _ _ _

theorem State.setPartition_kept {W s0 a0 a1 a2} (hW : 549755813888 &&& W = 549755813888) (h0 : Kept W s0 a0) :
    Kept W s0 (State.setPartition a0 a1 a2) := by
  unfold State.setPartition
  repeat' first
    | with_reducible assumption
    | fail_if_no_progress (with_reducible apply kept_hk; exact mask_trans (by decide) hW)

theorem State.scanStart_kept {W s0 a0 a1 a2 a3 a4 a5} (hW : 70643622346752 &&& W = 70643622346752) (h0 : Kept W s0 a0) :
    Kept W s0 (State.scanStart a0 a1 a2 a3 a4 a5) := by
  unfold State.scanStart
  repeat' first
    | with_reducible assumption
    | with_reducible apply kept_ite
    | (with_reducible apply State.setScan_kept; exact mask_trans (by decide) hW)
    | (with_reducible apply State.setPosition_kept; exact mask_trans (by decide) hW)
    | dsimp only
    | split

theorem State.releaseScan_kept {W s0 a0 a1} (hW : 71193378160640 &&& W = 71193378160640) (h0 : Kept W s0 a0) :
    Kept W s0 (State.releaseScan a0 a1) := by
  unfold State.releaseScan
  repeat' first
    | with_reducible assumption
    | with_reducible apply kept_ite
    | (with_reducible apply State.setPartition_kept; exact mask_trans (by decide) hW)
    | (with_reducible apply State.scanStart_kept; exact mask_trans (by decide) hW)

theorem State.clearMdie_kept {W s0 a0 a1} (hW : 67584 &&& W = 67584) (h0 : Kept W s0 a0) :
    Kept W s0 (State.clearMdie a0 a1) := by
  unfold State.clearMdie
  repeat' first
    | with_reducible assumption
    | (with_reducible apply State.zeroTiles_kept; exact mask_trans (by decide) hW)
    | fail_if_no_progress (with_reducible apply kept_sync; exact mask_trans (by decide) hW)

theorem State.requestLost_kept {W s0 a0 a1 a2} (hW : 197568497377 &&& W = 197568497377) (h0 : Kept W s0 a0) :
    Kept W s0 (State.requestLost a0 a1 a2) := by
  unfold State.requestLost
  repeat' first
    | with_reducible assumption
    | with_reducible apply kept_ite
    | (with_reducible apply State.setTable_kept; exact mask_trans (by decide) hW)
    | (with_reducible apply State.forget_kept; exact mask_trans (by decide) hW)
    | (with_reducible apply State.unpin_kept; exact mask_trans (by decide) hW)
    | (with_reducible apply State.pauseReq_kept; exact mask_trans (by decide) hW)
    | (with_reducible apply State.setReq_kept; exact mask_trans (by decide) hW)
    | fail_if_no_progress (with_reducible apply kept_reqs; exact mask_trans (by decide) hW)

theorem State.restoreCord_kept {W s0 a0 a1} (hW : 2147483648 &&& W = 2147483648) (h0 : Kept W s0 a0) :
    Kept W s0 (State.restoreCord a0 a1) := by
  unfold State.restoreCord
  repeat' first
    | with_reducible assumption
    | (with_reducible apply State.setSlot_kept; exact mask_trans (by decide) hW)

theorem State.mdieReturns_kept {W s0 a0 a1} (hW : 2467458780897 &&& W = 2467458780897) (h0 : Kept W s0 a0) :
    Kept W s0 (State.mdieReturns a0 a1) := by
  unfold State.mdieReturns
  repeat' first
    | with_reducible assumption
    | (with_reducible apply State.clearMdie_kept; exact mask_trans (by decide) hW)
    | (with_reducible apply State.requestLost_kept; exact mask_trans (by decide) hW)
    | (with_reducible apply State.setPool_kept; exact mask_trans (by decide) hW)
    | (with_reducible apply State.restoreCord_kept; exact mask_trans (by decide) hW)
    | (with_reducible apply State.raise_kept; exact mask_trans (by decide) hW)
    | fail_if_no_progress (with_reducible apply kept_fab; exact mask_trans (by decide) hW)
    | with_reducible apply kept_foldl
    | with_reducible intro _ _ _

theorem State.releasePart_kept {W s0 a0 a1} (hW : 108845209030369 &&& W = 108845209030369) (h0 : Kept W s0 a0) :
    Kept W s0 (State.releasePart a0 a1) := by
  unfold State.releasePart
  repeat' first
    | with_reducible assumption
    | with_reducible apply kept_ite
    | (with_reducible apply State.clearShut_kept; exact mask_trans (by decide) hW)
    | (with_reducible apply State.releaseScan_kept; exact mask_trans (by decide) hW)
    | (with_reducible apply State.setPartition_kept; exact mask_trans (by decide) hW)
    | (with_reducible apply State.mdieReturns_kept; exact mask_trans (by decide) hW)
    | fail_if_no_progress (with_reducible apply kept_fw; exact mask_trans (by decide) hW)

theorem execHkPartRelease_kept {W s0 a0 a1} (hW : 108845209030369 &&& W = 108845209030369) (h1 : Kept W s0 a1) :
    KeptO W s0 (execHkPartRelease a0 a1) := by
  unfold execHkPartRelease
  repeat' first
    | with_reducible assumption
    | with_reducible apply kept_next
    | with_reducible apply kept_ite
    | (with_reducible apply State.releasePart_kept; exact mask_trans (by decide) hW)
    | (with_reducible apply State.raise_kept; exact mask_trans (by decide) hW)

theorem State.applyFuse_kept {W s0 a0 a1} (hW : 70369822900321 &&& W = 70369822900321) (h0 : Kept W s0 a0) :
    Kept W s0 (State.applyFuse a0 a1) := by
  unfold State.applyFuse
  repeat' first
    | with_reducible assumption
    | with_reducible apply kept_ite
    | (with_reducible apply State.ashAdd_kept; exact mask_trans (by decide) hW)
    | (with_reducible apply State.setPosition_kept; exact mask_trans (by decide) hW)
    | fail_if_no_progress (with_reducible apply kept_boot; exact mask_trans (by decide) hW)
    | fail_if_no_progress (with_reducible apply kept_attic; exact mask_trans (by decide) hW)

theorem State.flipEngine_kept {W s0 a0 a1 a2} (hW : 2097152 &&& W = 2097152) (h0 : Kept W s0 a0) :
    Kept W s0 (State.flipEngine a0 a1 a2) := by
  unfold State.flipEngine
  repeat' first
    | with_reducible assumption
    | (with_reducible apply State.setEngine_kept; exact mask_trans (by decide) hW)

theorem State.dropChecks_kept {W s0 a0 a1} (hW : 8796093023872 &&& W = 8796093023872) (h0 : Kept W s0 a0) :
    Kept W s0 (State.dropChecks a0 a1) := by
  unfold State.dropChecks
  repeat' first
    | with_reducible assumption
    | (with_reducible apply State.finish_kept; exact mask_trans (by decide) hW)
    | fail_if_no_progress (with_reducible apply kept_inst; exact mask_trans (by decide) hW)
    | with_reducible apply kept_foldl
    | with_reducible intro _ _ _
    | split

theorem State.flipSlot_kept {W s0 a0 a1} (hW : 8798511040225 &&& W = 8798511040225) (h0 : Kept W s0 a0) :
    Kept W s0 (State.flipSlot a0 a1) := by
  unfold State.flipSlot
  repeat' first
    | with_reducible assumption
    | (with_reducible apply State.flipEngine_kept; exact mask_trans (by decide) hW)
    | (with_reducible apply State.setSlot_kept; exact mask_trans (by decide) hW)
    | (with_reducible apply State.calTrigger_kept; exact mask_trans (by decide) hW)
    | (with_reducible apply State.dropChecks_kept; exact mask_trans (by decide) hW)
    | (with_reducible apply State.raise_kept; exact mask_trans (by decide) hW)
    | with_reducible apply kept_foldl
    | with_reducible intro _ _ _

theorem State.flipBoundary_kept {W s0 a0} (hW : 8798511040225 &&& W = 8798511040225) (h0 : Kept W s0 a0) :
    Kept W s0 (State.flipBoundary a0).1 := by
  unfold State.flipBoundary
  repeat' first
    | with_reducible assumption
    | with_reducible apply kept_ite
    | (with_reducible apply State.flipSlot_kept; exact mask_trans (by decide) hW)
    | (with_reducible apply State.finish_kept; exact mask_trans (by decide) hW)
    | (with_reducible apply State.flipEngine_kept; exact mask_trans (by decide) hW)
    | fail_if_no_progress (with_reducible apply kept_inst; exact mask_trans (by decide) hW)
    | with_reducible apply kept_foldl
    | with_reducible apply kept_foldl_fst
    | with_reducible intro _ _ _
    | dsimp only
    | split

theorem State.handOver_kept {W s0 a0 a1} (hW : 3436166930531 &&& W = 3436166930531) (h0 : Kept W s0 a0) :
    Kept W s0 (State.handOver a0 a1) := by
  unfold State.handOver
  repeat' first
    | with_reducible assumption
    | with_reducible apply kept_ite
    | (with_reducible apply State.takeOver_kept; exact mask_trans (by decide) hW)

theorem State.exchangeArrays_kept {W s0 a0 a1} (hW : 2097152 &&& W = 2097152) (h0 : Kept W s0 a0) :
    Kept W s0 (State.exchangeArrays a0 a1) := by
  unfold State.exchangeArrays
  repeat' first
    | with_reducible assumption
    | (with_reducible apply State.setEngine_kept; exact mask_trans (by decide) hW)
    | with_reducible apply kept_foldl
    | with_reducible intro _ _ _

theorem State.scanSwapIn_kept {W s0 a0 a1 a2} (hW : 74079791380579 &&& W = 74079791380579) (h0 : Kept W s0 a0) :
    Kept W s0 (State.scanSwapIn a0 a1 a2) := by
  unfold State.scanSwapIn
  repeat' first
    | with_reducible assumption
    | (with_reducible apply State.handOver_kept; exact mask_trans (by decide) hW)
    | (with_reducible apply State.setPosition_kept; exact mask_trans (by decide) hW)
    | (with_reducible apply State.reloadRegions_kept; exact mask_trans (by decide) hW)
    | (with_reducible apply State.setScan_kept; exact mask_trans (by decide) hW)
    | (with_reducible apply State.exchangeArrays_kept; exact mask_trans (by decide) hW)
    | (with_reducible apply State.raise_kept; exact mask_trans (by decide) hW)
    | fail_if_no_progress (with_reducible apply kept_det; exact mask_trans (by decide) hW)

theorem State.phaseEnds_kept {W s0 a0 a1} (hW : 524385 &&& W = 524385) (h0 : Kept W s0 a0) :
    Kept W s0 (State.phaseEnds a0 a1) := by
  unfold State.phaseEnds
  repeat' first
    | with_reducible assumption
    | (with_reducible apply State.raise_kept; exact mask_trans (by decide) hW)
    | fail_if_no_progress (with_reducible apply kept_boot; exact mask_trans (by decide) hW)

theorem State.arrayMargin_kept {W s0 a0 a1} (hW : 1076363363 &&& W = 1076363363) (h0 : Kept W s0 a0) :
    Kept W s0 (State.arrayMargin a0 a1) := by
  unfold State.arrayMargin
  repeat' first
    | with_reducible assumption
    | (with_reducible apply State.retireColumn_kept; exact mask_trans (by decide) hW)
    | (with_reducible apply State.phaseEnds_kept; exact mask_trans (by decide) hW)
    | (with_reducible apply State.disableRef_kept; exact mask_trans (by decide) hW)
    | with_reducible apply kept_foldl
    | with_reducible intro _ _ _

theorem State.attestBlock_kept {W s0 a0} (hW : 1 &&& W = 1) (h0 : Kept W s0 a0) :
    Kept W s0 (State.attestBlock a0).2 := by
  unfold State.attestBlock
  repeat' first
    | with_reducible assumption
    | (with_reducible apply State.freeBytes_kept; exact mask_trans (by decide) hW)

theorem State.attestReport_kept {W s0 a0 a1} (hW : 1 &&& W = 1) (h0 : Kept W s0 a0) :
    Kept W s0 (State.attestReport a0 a1).2 := by
  unfold State.attestReport
  repeat' first
    | with_reducible assumption
    | (with_reducible apply State.freeBytes_kept; exact mask_trans (by decide) hW)

theorem State.useLeaf_kept {W s0 a0} (hW : 17592186044513 &&& W = 17592186044513) (h0 : Kept W s0 a0) :
    Kept W s0 (State.useLeaf a0) := by
  unfold State.useLeaf
  repeat' first
    | with_reducible assumption
    | with_reducible apply kept_ite
    | (with_reducible apply State.raise_kept; exact mask_trans (by decide) hW)
    | fail_if_no_progress (with_reducible apply kept_sec; exact mask_trans (by decide) hW)

theorem State.signReport_kept {W s0 a0 a1 a2} (hW : 17592186046435 &&& W = 17592186046435) (h0 : Kept W s0 a0) :
    Kept W s0 (State.signReport a0 a1 a2) := by
  unfold State.signReport
  repeat' first
    | with_reducible assumption
    | (with_reducible apply State.attestBlock_kept; exact mask_trans (by decide) hW)
    | (with_reducible apply State.useLeaf_kept; exact mask_trans (by decide) hW)
    | (with_reducible apply State.finish_kept; exact mask_trans (by decide) hW)
    | (with_reducible apply State.bump_kept; exact mask_trans (by decide) hW)
    | (with_reducible apply State.hostPut_kept; exact mask_trans (by decide) hW)
    | fail_if_no_progress (with_reducible apply kept_sec; exact mask_trans (by decide) hW)

theorem State.signAll_kept {W s0 a0 a1} (hW : 17592186046435 &&& W = 17592186046435) (h0 : Kept W s0 a0) :
    Kept W s0 (State.signAll a0 a1) := by
  fun_induction State.signAll a0 a1
  all_goals
    repeat' first
      | with_reducible assumption
      | with_reducible apply kept_ite
      | (with_reducible apply State.signReport_kept; exact mask_trans (by decide) hW)
      | with_reducible apply_assumption
      | split

theorem State.signHeld_kept {W s0 a0} (hW : 17592186046435 &&& W = 17592186046435) (h0 : Kept W s0 a0) :
    Kept W s0 (State.signHeld a0) := by
  unfold State.signHeld
  repeat' first
    | with_reducible assumption
    | (with_reducible apply State.signAll_kept; exact mask_trans (by decide) hW)

theorem State.attestBoundary_kept {W s0 a0} (hW : 17592186046435 &&& W = 17592186046435) (h0 : Kept W s0 a0) :
    Kept W s0 (State.attestBoundary a0) := by
  unfold State.attestBoundary
  repeat' first
    | with_reducible assumption
    | with_reducible apply kept_ite
    | (with_reducible apply State.attestReport_kept; exact mask_trans (by decide) hW)
    | (with_reducible apply State.signHeld_kept; exact mask_trans (by decide) hW)
    | fail_if_no_progress (with_reducible apply kept_sec; exact mask_trans (by decide) hW)
    | with_reducible apply kept_foldl
    | with_reducible intro _ _ _

theorem State.stopProgramming_kept {W s0 a0 a1} (hW : 2097152 &&& W = 2097152) (h0 : Kept W s0 a0) :
    Kept W s0 (State.stopProgramming a0 a1) := by
  unfold State.stopProgramming
  repeat' first
    | with_reducible assumption
    | with_reducible apply kept_ite
    | (with_reducible apply State.setBank_kept; exact mask_trans (by decide) hW)
    | with_reducible apply kept_foldl
    | with_reducible intro _ _ _

theorem State.slotFailed_kept {W s0 a0 a1 a2 a3 a4} (hW : 2149580897 &&& W = 2149580897) (h0 : Kept W s0 a0) :
    Kept W s0 (State.slotFailed a0 a1 a2 a3 a4) := by
  unfold State.slotFailed
  repeat' first
    | with_reducible assumption
    | with_reducible apply kept_ite
    | (with_reducible apply State.raise_kept; exact mask_trans (by decide) hW)
    | (with_reducible apply State.setSlot_kept; exact mask_trans (by decide) hW)
    | (with_reducible apply State.stopProgramming_kept; exact mask_trans (by decide) hW)

theorem State.bankFailed_kept {W s0 a0 a1 a2 a3} (hW : 2149580897 &&& W = 2149580897) (h0 : Kept W s0 a0) :
    Kept W s0 (State.bankFailed a0 a1 a2 a3) := by
  unfold State.bankFailed
  repeat' first
    | with_reducible assumption
    | with_reducible apply kept_ite
    | (with_reducible apply State.raise_kept; exact mask_trans (by decide) hW)
    | (with_reducible apply State.setSlot_kept; exact mask_trans (by decide) hW)
    | (with_reducible apply State.setBank_kept; exact mask_trans (by decide) hW)
    | (with_reducible apply State.slotFailed_kept; exact mask_trans (by decide) hW)

theorem State.banksReady_kept {W s0 a0 a1} (hW : 2149580897 &&& W = 2149580897) (h0 : Kept W s0 a0) :
    Kept W s0 (State.banksReady a0 a1) := by
  unfold State.banksReady
  repeat' first
    | with_reducible assumption
    | with_reducible apply kept_ite
    | (with_reducible apply State.setBank_kept; exact mask_trans (by decide) hW)
    | (with_reducible apply State.raise_kept; exact mask_trans (by decide) hW)
    | (with_reducible apply State.setSlot_kept; exact mask_trans (by decide) hW)
    | with_reducible apply kept_foldl
    | with_reducible intro _ _ _

theorem State.beginBank_kept {W s0 a0 a1 a2} (hW : 2097249 &&& W = 2097249) (h0 : Kept W s0 a0) :
    Kept W s0 (State.beginBank a0 a1 a2) := by
  unfold State.beginBank
  repeat' first
    | with_reducible assumption
    | with_reducible apply kept_ite
    | (with_reducible apply State.setBank_kept; exact mask_trans (by decide) hW)
    | (with_reducible apply State.raise_kept; exact mask_trans (by decide) hW)

theorem State.fleetSlice_kept {W s0 a0 a1} (hW : 74630625126115 &&& W = 74630625126115) (h0 : Kept W s0 a0) :
    Kept W s0 (State.fleetSlice a0 a1) := by
  unfold State.fleetSlice
  repeat' first
    | with_reducible assumption
    | with_reducible apply kept_ite
    | (with_reducible apply State.bump_kept; exact mask_trans (by decide) hW)
    | (with_reducible apply State.openWindow_kept; exact mask_trans (by decide) hW)
    | (with_reducible apply State.raise_kept; exact mask_trans (by decide) hW)
    | (with_reducible apply State.faultRaise_kept; exact mask_trans (by decide) hW)
    | fail_if_no_progress (with_reducible apply kept_det; exact mask_trans (by decide) hW)
    | dsimp only
    | split

theorem State.damperApply_kept {W s0 a0 a1} (hW : 549755813888 &&& W = 549755813888) (h0 : Kept W s0 a0) :
    Kept W s0 (State.damperApply a0 a1) := by
  unfold State.damperApply
  repeat' first
    | with_reducible assumption
    | fail_if_no_progress (with_reducible apply kept_hk; exact mask_trans (by decide) hW)

theorem State.hkBoundary_kept {W s0 a0} (hW : 71193378160640 &&& W = 71193378160640) (h0 : Kept W s0 a0) :
    Kept W s0 (State.hkBoundary a0) := by
  unfold State.hkBoundary
  repeat' first
    | with_reducible assumption
    | (with_reducible apply State.damperApply_kept; exact mask_trans (by decide) hW)
    | (with_reducible apply State.releaseScan_kept; exact mask_trans (by decide) hW)
    | with_reducible apply kept_foldl
    | with_reducible intro _ _ _
    | dsimp only
    | split

theorem State.resetStatus_kept {W s0 a0 a1 a2} (hW : 35184372088832 &&& W = 35184372088832) (h0 : Kept W s0 a0) :
    Kept W s0 (State.resetStatus a0 a1 a2) := by
  unfold State.resetStatus
  repeat' first
    | with_reducible assumption
    | with_reducible apply kept_ite
    | fail_if_no_progress (with_reducible apply kept_fw; exact mask_trans (by decide) hW)

theorem State.resetEnd_kept {W s0 a0 a1 a2} (hW : 35184372090595 &&& W = 35184372090595) (h0 : Kept W s0 a0) :
    Kept W s0 (State.resetEnd a0 a1 a2) := by
  unfold State.resetEnd
  repeat' first
    | with_reducible assumption
    | with_reducible apply kept_ite
    | (with_reducible apply State.raise_kept; exact mask_trans (by decide) hW)
    | (with_reducible apply State.bump_kept; exact mask_trans (by decide) hW)
    | (with_reducible apply State.resetStatus_kept; exact mask_trans (by decide) hW)
    | (with_reducible apply State.finish_kept; exact mask_trans (by decide) hW)
    | fail_if_no_progress (with_reducible apply kept_fw; exact mask_trans (by decide) hW)
    | dsimp only
    | split

theorem State.setReceiver_kept {W s0 a0 a1 a2} (hW : 35184372088832 &&& W = 35184372088832) (h0 : Kept W s0 a0) :
    Kept W s0 (State.setReceiver a0 a1 a2) := by
  unfold State.setReceiver
  repeat' first
    | with_reducible assumption
    | fail_if_no_progress (with_reducible apply kept_fw; exact mask_trans (by decide) hW)

theorem State.positionReturns_kept {W s0 a0 a1 a2 a3} (hW : 105553116534883 &&& W = 105553116534883) (h0 : Kept W s0 a0) :
    Kept W s0 (State.positionReturns a0 a1 a2 a3) := by
  unfold State.positionReturns
  repeat' first
    | with_reducible assumption
    | with_reducible apply kept_ite
    | (with_reducible apply State.setPosition_kept; exact mask_trans (by decide) hW)
    | (with_reducible apply State.setReceiver_kept; exact mask_trans (by decide) hW)
    | (with_reducible apply State.reloadRegions_kept; exact mask_trans (by decide) hW)
    | fail_if_no_progress (with_reducible apply kept_fw; exact mask_trans (by decide) hW)

theorem State.restartTiles_kept {W s0 a0 a1 a2} (hW : 2097152 &&& W = 2097152) (h0 : Kept W s0 a0) :
    Kept W s0 (State.restartTiles a0 a1 a2) := by
  unfold State.restartTiles
  repeat' first
    | with_reducible assumption
    | with_reducible apply kept_ite
    | (with_reducible apply State.setBank_kept; exact mask_trans (by decide) hW)
    | with_reducible apply kept_foldl
    | with_reducible intro _ _ _

theorem State.bringupRun_kept {W s0 a0 a1} (hW : 270532707 &&& W = 270532707) (h0 : Kept W s0 a0) :
    Kept W s0 (State.bringupRun a0 a1) := by
  unfold State.bringupRun
  repeat' first
    | with_reducible assumption
    | with_reducible apply kept_ite
    | (with_reducible apply State.calTrigger_kept; exact mask_trans (by decide) hW)
    | (with_reducible apply State.calCommit_kept; exact mask_trans (by decide) hW)
    | (with_reducible apply State.calStart_kept; exact mask_trans (by decide) hW)

theorem State.resetDone_kept {W s0 a0 a1} (hW : 106103142883043 &&& W = 106103142883043) (h0 : Kept W s0 a0) :
    Kept W s0 (State.resetDone a0 a1) := by
  unfold State.resetDone
  repeat' first
    | with_reducible assumption
    | with_reducible apply kept_ite
    | (with_reducible apply State.positionReturns_kept; exact mask_trans (by decide) hW)
    | (with_reducible apply State.restartTiles_kept; exact mask_trans (by decide) hW)
    | (with_reducible apply State.bringupRun_kept; exact mask_trans (by decide) hW)
    | (with_reducible apply State.replan_kept; exact mask_trans (by decide) hW)
    | (with_reducible apply State.resetEnd_kept; exact mask_trans (by decide) hW)
    | fail_if_no_progress (with_reducible apply kept_hk; exact mask_trans (by decide) hW)
    | with_reducible apply kept_foldl
    | with_reducible intro _ _ _

theorem State.revertDone_kept {W s0 a0 a1} (hW : 105553116530401 &&& W = 105553116530401) (h0 : Kept W s0 a0) :
    Kept W s0 (State.revertDone a0 a1) := by
  unfold State.revertDone
  repeat' first
    | with_reducible assumption
    | with_reducible apply kept_ite
    | (with_reducible apply State.setPosition_kept; exact mask_trans (by decide) hW)
    | (with_reducible apply State.raise_kept; exact mask_trans (by decide) hW)
    | (with_reducible apply State.finish_kept; exact mask_trans (by decide) hW)
    | fail_if_no_progress (with_reducible apply kept_fw; exact mask_trans (by decide) hW)
    | with_reducible apply kept_foldl
    | with_reducible intro _ _ _
    | dsimp only
    | split

theorem State.firmwareRegion_kept {W s0 a0 a1} (hW : 4096 &&& W = 4096) (h0 : Kept W s0 a0) :
    Kept W s0 (State.firmwareRegion a0 a1) := by
  unfold State.firmwareRegion
  repeat' first
    | with_reducible assumption
    | (with_reducible apply State.setRegion_kept; exact mask_trans (by decide) hW)
    | with_reducible apply kept_foldl
    | with_reducible intro _ _ _

theorem State.switchFirmware_kept {W s0 a0 a1 a2} (hW : 35184372094691 &&& W = 35184372094691) (h0 : Kept W s0 a0) :
    Kept W s0 (State.switchFirmware a0 a1 a2) := by
  unfold State.switchFirmware
  repeat' first
    | with_reducible assumption
    | (with_reducible apply State.setReg_kept; exact mask_trans (by decide) hW)
    | (with_reducible apply State.firmwareRegion_kept; exact mask_trans (by decide) hW)
    | (with_reducible apply State.raise_kept; exact mask_trans (by decide) hW)
    | (with_reducible apply State.finish_kept; exact mask_trans (by decide) hW)
    | fail_if_no_progress (with_reducible apply kept_fw; exact mask_trans (by decide) hW)
    | with_reducible apply kept_foldl
    | with_reducible intro _ _ _
    | dsimp only
    | split

theorem State.setUpdate_kept {W s0 a0 a1} (hW : 35184372088832 &&& W = 35184372088832) (h0 : Kept W s0 a0) :
    Kept W s0 (State.setUpdate a0 a1) := by
  unfold State.setUpdate
  repeat' first
    | with_reducible assumption
    | fail_if_no_progress (with_reducible apply kept_fw; exact mask_trans (by decide) hW)

theorem State.updateBoundary_kept {W s0 a0} (hW : 105553116534499 &&& W = 105553116534499) (h0 : Kept W s0 a0) :
    Kept W s0 (State.updateBoundary a0) := by
  unfold State.updateBoundary
  repeat' first
    | with_reducible assumption
    | with_reducible apply kept_ite
    | (with_reducible apply State.revertDone_kept; exact mask_trans (by decide) hW)
    | (with_reducible apply State.switchFirmware_kept; exact mask_trans (by decide) hW)
    | (with_reducible apply State.setUpdate_kept; exact mask_trans (by decide) hW)
    | fail_if_no_progress (with_reducible apply kept_fw; exact mask_trans (by decide) hW)
    | dsimp only
    | split

theorem State.failTransfers_kept {W s0 a0} (hW : 128849022691 &&& W = 128849022691) (h0 : Kept W s0 a0) :
    Kept W s0 (State.failTransfers a0) := by
  unfold State.failTransfers
  repeat' first
    | with_reducible assumption
    | with_reducible apply kept_ite
    | (with_reducible apply State.freeBelow_kept; exact mask_trans (by decide) hW)
    | (with_reducible apply State.resumeFailed_kept; exact mask_trans (by decide) hW)
    | (with_reducible apply State.moveFailed_kept; exact mask_trans (by decide) hW)
    | with_reducible apply kept_foldl
    | with_reducible intro _ _ _
    | dsimp only
    | split

theorem State.mdieLost_kept {W s0 a0 a1} (hW : 3565015953123 &&& W = 3565015953123) (h0 : Kept W s0 a0) :
    Kept W s0 (State.mdieLost a0 a1) := by
  unfold State.mdieLost
  repeat' first
    | with_reducible assumption
    | (with_reducible apply State.failTransfers_kept; exact mask_trans (by decide) hW)
    | (with_reducible apply State.abandon_kept; exact mask_trans (by decide) hW)
    | fail_if_no_progress (with_reducible apply kept_step_fab; exact mask_trans (by decide) hW)

theorem State.clearCluster_kept {W s0 a0 a1} (hW : 2199023345664 &&& W = 2199023345664) (h0 : Kept W s0 a0) :
    Kept W s0 (State.clearCluster a0 a1) := by
  unfold State.clearCluster
  repeat' first
    | with_reducible assumption
    | fail_if_no_progress (with_reducible apply kept_fab; exact mask_trans (by decide) hW)
    | fail_if_no_progress (with_reducible apply kept_wq_seqs_sync; exact mask_trans (by decide) hW)

theorem State.startReceiver_kept {W s0 a0 a1 a2 a3 a4 a5} (hW : 35184372088832 &&& W = 35184372088832) (h0 : Kept W s0 a0) :
    Kept W s0 (State.startReceiver a0 a1 a2 a3 a4 a5) := by
  unfold State.startReceiver
  repeat' first
    | with_reducible assumption
    | (with_reducible apply State.setReceiver_kept; exact mask_trans (by decide) hW)

theorem State.positionResets_kept {W s0 a0 a1 a2} (hW : 107752139874304 &&& W = 107752139874304) (h0 : Kept W s0 a0) :
    Kept W s0 (State.positionResets a0 a1 a2) := by
  unfold State.positionResets
  repeat' first
    | with_reducible assumption
    | (with_reducible apply State.setPosition_kept; exact mask_trans (by decide) hW)
    | (with_reducible apply State.clearCluster_kept; exact mask_trans (by decide) hW)
    | (with_reducible apply State.startReceiver_kept; exact mask_trans (by decide) hW)

theorem State.loadCal_kept {W s0 a0 a1} (hW : 2097152 &&& W = 2097152) (h0 : Kept W s0 a0) :
    Kept W s0 (State.loadCal a0 a1) := by
  unfold State.loadCal
  repeat' first
    | with_reducible assumption
    | (with_reducible apply State.setBank_kept; exact mask_trans (by decide) hW)
    | with_reducible apply kept_foldl
    | with_reducible intro _ _ _

theorem State.resetStarts_kept {W s0 a0 a1} (hW : 109118134644451 &&& W = 109118134644451) (h0 : Kept W s0 a0) :
    Kept W s0 (State.resetStarts a0 a1) := by
  unfold State.resetStarts
  repeat' first
    | with_reducible assumption
    | with_reducible apply kept_ite
    | (with_reducible apply State.handOver_kept; exact mask_trans (by decide) hW)
    | (with_reducible apply State.takeOver_kept; exact mask_trans (by decide) hW)
    | (with_reducible apply State.mdieLost_kept; exact mask_trans (by decide) hW)
    | (with_reducible apply State.positionResets_kept; exact mask_trans (by decide) hW)
    | (with_reducible apply State.replan_kept; exact mask_trans (by decide) hW)
    | (with_reducible apply State.loadCal_kept; exact mask_trans (by decide) hW)
    | fail_if_no_progress (with_reducible apply kept_fw; exact mask_trans (by decide) hW)
    | with_reducible apply kept_foldl
    | with_reducible intro _ _ _

theorem State.resetBoundary_kept {W s0 a0} (hW : 109670306381539 &&& W = 109670306381539) (h0 : Kept W s0 a0) :
    Kept W s0 (State.resetBoundary a0) := by
  unfold State.resetBoundary
  repeat' first
    | with_reducible assumption
    | with_reducible apply kept_ite
    | (with_reducible apply State.resetEnd_kept; exact mask_trans (by decide) hW)
    | (with_reducible apply State.mdieReturns_kept; exact mask_trans (by decide) hW)
    | (with_reducible apply State.resetDone_kept; exact mask_trans (by decide) hW)
    | (with_reducible apply State.updateBoundary_kept; exact mask_trans (by decide) hW)
    | (with_reducible apply State.resetStarts_kept; exact mask_trans (by decide) hW)
    | with_reducible apply kept_foldl
    | with_reducible intro _ _ _

theorem State.scanBoundary_kept {W s0 a0} (hW : 74079789283427 &&& W = 74079789283427) (h0 : Kept W s0 a0) :
    Kept W s0 (State.scanBoundary a0) := by
  unfold State.scanBoundary
  repeat' first
    | with_reducible assumption
    | with_reducible apply kept_ite
    | (with_reducible apply State.handOver_kept; exact mask_trans (by decide) hW)
    | (with_reducible apply State.setPosition_kept; exact mask_trans (by decide) hW)
    | (with_reducible apply State.setScan_kept; exact mask_trans (by decide) hW)
    | (with_reducible apply State.reloadRegions_kept; exact mask_trans (by decide) hW)
    | with_reducible apply kept_foldl
    | with_reducible intro _ _ _

theorem State.buildDie_kept {W s0 a0 a1} (hW : 70643628638305 &&& W = 70643628638305) (h0 : Kept W s0 a0) :
    Kept W s0 (State.buildDie a0 a1) := by
  unfold State.buildDie
  repeat' first
    | with_reducible assumption
    | with_reducible apply kept_ite
    | (with_reducible apply State.stow_kept; exact mask_trans (by decide) hW)
    | (with_reducible apply State.unstow_kept; exact mask_trans (by decide) hW)
    | (with_reducible apply State.setPosition_kept; exact mask_trans (by decide) hW)
    | (with_reducible apply State.raise_kept; exact mask_trans (by decide) hW)
    | fail_if_no_progress (with_reducible apply kept_det; exact mask_trans (by decide) hW)
    | with_reducible apply kept_foldl
    | with_reducible intro _ _ _
    | dsimp only
    | split

theorem State.openHeld_kept {W s0 a0 a1} (hW : 1761 &&& W = 1761) (h0 : Kept W s0 a0) :
    Kept W s0 (State.openHeld a0 a1) := by
  unfold State.openHeld
  repeat' first
    | with_reducible assumption
    | (with_reducible apply State.openChannel_kept; exact mask_trans (by decide) hW)
    | (with_reducible apply State.setChan_kept; exact mask_trans (by decide) hW)
    | with_reducible apply kept_foldl
    | with_reducible intro _ _ _

theorem State.calibration_kept {W s0 a0 a1} (hW : 137710012131 &&& W = 137710012131) (h0 : Kept W s0 a0) :
    Kept W s0 (State.calibration a0 a1) := by
  unfold State.calibration
  repeat' first
    | with_reducible assumption
    | (with_reducible apply State.bringupRun_kept; exact mask_trans (by decide) hW)
    | (with_reducible apply State.loadCal_kept; exact mask_trans (by decide) hW)
    | (with_reducible apply State.mapBoundary_kept; exact mask_trans (by decide) hW)
    | (with_reducible apply State.phaseEnds_kept; exact mask_trans (by decide) hW)
    | (with_reducible apply State.raise_kept; exact mask_trans (by decide) hW)
    | (with_reducible apply State.openHeld_kept; exact mask_trans (by decide) hW)
    | (with_reducible apply State.evDrain_kept; exact mask_trans (by decide) hW)
    | fail_if_no_progress (with_reducible apply kept_boot_step; exact mask_trans (by decide) hW)
    | with_reducible apply kept_foldl
    | with_reducible intro _ _ _

theorem State.checkTile_kept {W s0 a0 a1 a2} (hW : 2149587043 &&& W = 2149587043) (h0 : Kept W s0 a0) :
    Kept W s0 (State.checkTile a0 a1 a2).1 := by
  unfold State.checkTile
  repeat' first
    | with_reducible assumption
    | (with_reducible apply State.readCopy_kept; exact mask_trans (by decide) hW)
    | (with_reducible apply State.countConv_kept; exact mask_trans (by decide) hW)
    | (with_reducible apply State.bump_kept; exact mask_trans (by decide) hW)
    | fail_if_no_progress (with_reducible apply kept_fresh; exact mask_trans (by decide) hW)
    | with_reducible apply kept_foldl_fst
    | with_reducible intro _ _ _

theorem State.checkTiles_kept {W s0 a0 a1 a2} (hW : 2149587043 &&& W = 2149587043) (h0 : Kept W s0 a0) :
    Kept W s0 (State.checkTiles a0 a1 a2).1 := by
  fun_induction State.checkTiles a0 a1 a2
  all_goals
    repeat' first
      | with_reducible assumption
      | (with_reducible apply State.checkTile_kept; exact mask_trans (by decide) hW)
      | with_reducible apply_assumption

theorem State.checksAfter_kept {W s0 a0 a1} (hW : 8796093022208 &&& W = 8796093022208) (h0 : Kept W s0 a0) :
    Kept W s0 (State.checksAfter a0 a1) := by
  unfold State.checksAfter
  repeat' first
    | with_reducible assumption
    | fail_if_no_progress (with_reducible apply kept_inst; exact mask_trans (by decide) hW)

theorem State.dropPart_kept {W s0 a0 a1} (hW : 2147483650 &&& W = 2147483650) (h0 : Kept W s0 a0) :
    Kept W s0 (State.dropPart a0 a1) := by
  unfold State.dropPart
  repeat' first
    | with_reducible assumption
    | with_reducible apply kept_ite
    | (with_reducible apply State.bump_kept; exact mask_trans (by decide) hW)
    | (with_reducible apply State.setSlot_kept; exact mask_trans (by decide) hW)

theorem State.chunkArrived_kept {W s0 a0 a1 a2 a3 a4} (hW : 8798240505858 &&& W = 8798240505858) (h0 : Kept W s0 a0) :
    Kept W s0 (State.chunkArrived a0 a1 a2 a3 a4) := by
  unfold State.chunkArrived
  repeat' first
    | with_reducible assumption
    | with_reducible apply kept_ite
    | (with_reducible apply State.setSlot_kept; exact mask_trans (by decide) hW)
    | (with_reducible apply State.bump_kept; exact mask_trans (by decide) hW)
    | (with_reducible apply State.dropPart_kept; exact mask_trans (by decide) hW)
    | fail_if_no_progress (with_reducible apply kept_inst; exact mask_trans (by decide) hW)
    | dsimp only
    | split

theorem State.leaveReset_kept {W s0 a0 a1 a2} (hW : 35184372090595 &&& W = 35184372090595) (h0 : Kept W s0 a0) :
    Kept W s0 (State.leaveReset a0 a1 a2) := by
  unfold State.leaveReset
  repeat' first
    | with_reducible assumption
    | with_reducible apply kept_ite
    | (with_reducible apply State.resetEnd_kept; exact mask_trans (by decide) hW)
    | fail_if_no_progress (with_reducible apply kept_fw; exact mask_trans (by decide) hW)

theorem State.losePosition_kept {W s0 a0 a1 a2 a3} (hW : 109814997214947 &&& W = 109814997214947) (h0 : Kept W s0 a0) :
    Kept W s0 (State.losePosition a0 a1 a2 a3) := by
  unfold State.losePosition
  repeat' first
    | with_reducible assumption
    | with_reducible apply kept_ite
    | (with_reducible apply State.setReceiver_kept; exact mask_trans (by decide) hW)
    | (with_reducible apply State.loseCluster_kept; exact mask_trans (by decide) hW)
    | (with_reducible apply State.ashAdd_kept; exact mask_trans (by decide) hW)
    | (with_reducible apply State.retire_kept; exact mask_trans (by decide) hW)
    | split

theorem State.resetFails_kept {W s0 a0 a1 a2} (hW : 109814997214947 &&& W = 109814997214947) (h0 : Kept W s0 a0) :
    Kept W s0 (State.resetFails a0 a1 a2) := by
  unfold State.resetFails
  repeat' first
    | with_reducible assumption
    | with_reducible apply kept_ite
    | (with_reducible apply State.startReceiver_kept; exact mask_trans (by decide) hW)
    | (with_reducible apply State.leaveReset_kept; exact mask_trans (by decide) hW)
    | (with_reducible apply State.losePosition_kept; exact mask_trans (by decide) hW)
    | fail_if_no_progress (with_reducible apply kept_fw; exact mask_trans (by decide) hW)
    | dsimp only
    | split

theorem State.positionFailed_kept {W s0 a0 a1 a2} (hW : 105829074993249 &&& W = 105829074993249) (h0 : Kept W s0 a0) :
    Kept W s0 (State.positionFailed a0 a1 a2) := by
  unfold State.positionFailed
  repeat' first
    | with_reducible assumption
    | (with_reducible apply State.buildDie_kept; exact mask_trans (by decide) hW)
    | (with_reducible apply State.ashAdd_kept; exact mask_trans (by decide) hW)
    | (with_reducible apply State.retire_kept; exact mask_trans (by decide) hW)
    | (with_reducible apply State.raise_kept; exact mask_trans (by decide) hW)
    | (with_reducible apply State.setReceiver_kept; exact mask_trans (by decide) hW)
    | fail_if_no_progress (with_reducible apply kept_boot; exact mask_trans (by decide) hW)

theorem State.chunkFails_kept {W s0 a0 a1 a2 a3} (hW : 109814997739235 &&& W = 109814997739235) (h0 : Kept W s0 a0) :
    Kept W s0 (State.chunkFails a0 a1 a2 a3) := by
  unfold State.chunkFails
  repeat' first
    | with_reducible assumption
    | with_reducible apply kept_ite
    | (with_reducible apply State.raise_kept; exact mask_trans (by decide) hW)
    | (with_reducible apply State.resetFails_kept; exact mask_trans (by decide) hW)
    | (with_reducible apply State.positionFailed_kept; exact mask_trans (by decide) hW)

theorem State.closeIntake_kept {W s0 a0 a1} (hW : 2199023257216 &&& W = 2199023257216) (h0 : Kept W s0 a0) :
    Kept W s0 (State.closeIntake a0 a1) := by
  unfold State.closeIntake
  repeat' first
    | with_reducible assumption
    | (with_reducible apply State.callClose_kept; exact mask_trans (by decide) hW)
    | split

theorem State.computeDown_kept {W s0 a0 a1} (hW : 108989551632483 &&& W = 108989551632483) (h0 : Kept W s0 a0) :
    Kept W s0 (State.computeDown a0 a1) := by
  unfold State.computeDown
  repeat' first
    | with_reducible assumption
    | with_reducible apply kept_ite
    | (with_reducible apply State.replan_kept; exact mask_trans (by decide) hW)
    | (with_reducible apply State.pauseDie_kept; exact mask_trans (by decide) hW)
    | (with_reducible apply State.abandon_kept; exact mask_trans (by decide) hW)
    | (with_reducible apply State.setCal_kept; exact mask_trans (by decide) hW)
    | (with_reducible apply State.stewardFails_kept; exact mask_trans (by decide) hW)

theorem State.damperMs_kept {W s0 a0} (hW : 3 &&& W = 3) (h0 : Kept W s0 a0) :
    Kept W s0 (State.damperMs a0) := by
  unfold State.damperMs
  repeat' first
    | with_reducible assumption
    | with_reducible apply kept_ite
    | (with_reducible apply State.freeBelow_kept; exact mask_trans (by decide) hW)
    | (with_reducible apply State.bump_kept; exact mask_trans (by decide) hW)

theorem State.displace_kept {W s0 a0 a1} (hW : 2147483648 &&& W = 2147483648) (h0 : Kept W s0 a0) :
    Kept W s0 (State.displace a0 a1) := by
  unfold State.displace
  repeat' first
    | with_reducible assumption
    | fail_if_no_progress (with_reducible apply kept_slots; exact mask_trans (by decide) hW)

theorem State.distribute_kept {W s0 a0 a1} (hW : 35184372088832 &&& W = 35184372088832) (h0 : Kept W s0 a0) :
    Kept W s0 (State.distribute a0 a1) := by
  unfold State.distribute
  repeat' first
    | with_reducible assumption
    | (with_reducible apply State.startReceiver_kept; exact mask_trans (by decide) hW)
    | fail_if_no_progress (with_reducible apply kept_fw; exact mask_trans (by decide) hW)
    | with_reducible apply kept_foldl
    | with_reducible intro _ _ _

theorem State.enroll_kept {W s0 a0 a1} (hW : 17592186044513 &&& W = 17592186044513) (h0 : Kept W s0 a0) :
    Kept W s0 (State.enroll a0 a1) := by
  unfold State.enroll
  repeat' first
    | with_reducible assumption
    | with_reducible apply kept_ite
    | (with_reducible apply State.raise_kept; exact mask_trans (by decide) hW)
    | fail_if_no_progress (with_reducible apply kept_sec; exact mask_trans (by decide) hW)

theorem State.placeChunk_kept {W s0 a0 a1 a2 a3 a4} (hW : 6144 &&& W = 6144) (h0 : Kept W s0 a0) :
    Kept W s0 (State.placeChunk a0 a1 a2 a3 a4) := by
  unfold State.placeChunk
  repeat' first
    | with_reducible assumption
    | with_reducible apply kept_ite
    | (with_reducible apply State.writePieces_kept; exact mask_trans (by decide) hW)
    | with_reducible apply kept_foldl
    | with_reducible intro _ _ _

theorem State.fetchChunk_kept {W s0 a0 a1} (hW : 109814997745379 &&& W = 109814997745379) (h0 : Kept W s0 a0) :
    Kept W s0 (State.fetchChunk a0 a1) := by
  unfold State.fetchChunk
  repeat' first
    | with_reducible assumption
    | with_reducible apply kept_ite
    | (with_reducible apply State.read_kept; exact mask_trans (by decide) hW)
    | (with_reducible apply State.bump_kept; exact mask_trans (by decide) hW)
    | (with_reducible apply State.setReceiver_kept; exact mask_trans (by decide) hW)
    | (with_reducible apply State.placeChunk_kept; exact mask_trans (by decide) hW)
    | (with_reducible apply State.chunkFails_kept; exact mask_trans (by decide) hW)
    | dsimp only
    | split

theorem State.firmware_kept {W s0 a0 a1} (hW : 35184372617313 &&& W = 35184372617313) (h0 : Kept W s0 a0) :
    Kept W s0 (State.firmware a0 a1) := by
  unfold State.firmware
  repeat' first
    | with_reducible assumption
    | with_reducible apply kept_ite
    | (with_reducible apply State.phaseEnds_kept; exact mask_trans (by decide) hW)
    | (with_reducible apply State.firmwareRegion_kept; exact mask_trans (by decide) hW)
    | fail_if_no_progress (with_reducible apply kept_fw; exact mask_trans (by decide) hW)
    | with_reducible apply kept_foldl
    | with_reducible intro _ _ _

theorem State.forwardBundle_kept {W s0 a0 a1 a2} (hW : 2199023255651 &&& W = 2199023255651) (h0 : Kept W s0 a0) :
    Kept W s0 (State.forwardBundle a0 a1 a2) := by
  unfold State.forwardBundle
  repeat' first
    | with_reducible assumption
    | with_reducible apply kept_ite
    | (with_reducible apply State.winOpen_kept; exact mask_trans (by decide) hW)
    | (with_reducible apply State.transmit_kept; exact mask_trans (by decide) hW)
    | with_reducible apply kept_foldl
    | with_reducible intro _ _ _
    | split

theorem State.jobEnd_kept {W s0 a0 a1 a2 a3 a4} (hW : 8796093023872 &&& W = 8796093023872) (h0 : Kept W s0 a0) :
    Kept W s0 (State.jobEnd a0 a1 a2 a3 a4) := by
  unfold State.jobEnd
  repeat' first
    | with_reducible assumption
    | (with_reducible apply State.finish_kept; exact mask_trans (by decide) hW)
    | (with_reducible apply State.setChan_kept; exact mask_trans (by decide) hW)
    | fail_if_no_progress (with_reducible apply kept_inst; exact mask_trans (by decide) hW)
    | dsimp only
    | split

theorem State.freeCord_kept {W s0 a0 a1} (hW : 10997263763072 &&& W = 10997263763072) (h0 : Kept W s0 a0) :
    Kept W s0 (State.freeCord a0 a1) := by
  unfold State.freeCord
  repeat' first
    | with_reducible assumption
    | with_reducible apply kept_ite
    | (with_reducible apply State.setSlot_kept; exact mask_trans (by decide) hW)
    | (with_reducible apply State.closeIntake_kept; exact mask_trans (by decide) hW)
    | (with_reducible apply State.jobEnd_kept; exact mask_trans (by decide) hW)
    | (with_reducible apply State.finish_kept; exact mask_trans (by decide) hW)
    | fail_if_no_progress (with_reducible apply kept_inst; exact mask_trans (by decide) hW)
    | with_reducible apply kept_foldl
    | with_reducible intro _ _ _
    | dsimp only
    | split

theorem State.fuseInvalid_kept {W s0 a0 a1} (hW : 70918500253793 &&& W = 70918500253793) (h0 : Kept W s0 a0) :
    Kept W s0 (State.fuseInvalid a0 a1) := by
  unfold State.fuseInvalid
  repeat' first
    | with_reducible assumption
    | (with_reducible apply State.setPosition_kept; exact mask_trans (by decide) hW)
    | (with_reducible apply State.raise_kept; exact mask_trans (by decide) hW)
    | (with_reducible apply State.setPartition_kept; exact mask_trans (by decide) hW)
    | with_reducible apply kept_foldl
    | with_reducible intro _ _ _

theorem State.groupRefused_kept {W s0 a0 a1} (hW : 8796093023872 &&& W = 8796093023872) (h0 : Kept W s0 a0) :
    Kept W s0 (State.groupRefused a0 a1) := by
  unfold State.groupRefused
  repeat' first
    | with_reducible assumption
    | (with_reducible apply State.finish_kept; exact mask_trans (by decide) hW)
    | fail_if_no_progress (with_reducible apply kept_inst; exact mask_trans (by decide) hW)
    | dsimp only
    | split

theorem State.halt_kept {W s0 a0 a1} (hW : 524288 &&& W = 524288) (h0 : Kept W s0 a0) :
    Kept W s0 (State.halt a0 a1) := by
  unfold State.halt
  repeat' first
    | with_reducible assumption
    | fail_if_no_progress (with_reducible apply kept_boot; exact mask_trans (by decide) hW)

theorem State.hbmTrain_kept {W s0 a0 a1} (hW : 2199023779937 &&& W = 2199023779937) (h0 : Kept W s0 a0) :
    Kept W s0 (State.hbmTrain a0 a1) := by
  unfold State.hbmTrain
  repeat' first
    | with_reducible assumption
    | with_reducible apply kept_ite
    | (with_reducible apply State.halt_kept; exact mask_trans (by decide) hW)
    | (with_reducible apply State.phaseEnds_kept; exact mask_trans (by decide) hW)
    | fail_if_no_progress (with_reducible apply kept_boot_fab; exact mask_trans (by decide) hW)

theorem State.watchRelease_kept {W s0 a0 a1} (hW : 549755813888 &&& W = 549755813888) (h0 : Kept W s0 a0) :
    Kept W s0 (State.watchRelease a0 a1) := by
  unfold State.watchRelease
  repeat' first
    | with_reducible assumption
    | with_reducible apply kept_ite
    | (with_reducible apply State.setPartition_kept; exact mask_trans (by decide) hW)

theorem State.moduleShutdown_kept {W s0 a0 a1 a2} (hW : 549755813985 &&& W = 549755813985) (h0 : Kept W s0 a0) :
    Kept W s0 (State.moduleShutdown a0 a1 a2) := by
  unfold State.moduleShutdown
  repeat' first
    | with_reducible assumption
    | with_reducible apply kept_ite
    | (with_reducible apply State.raise_kept; exact mask_trans (by decide) hW)
    | fail_if_no_progress (with_reducible apply kept_hk; exact mask_trans (by decide) hW)

theorem State.skipRun_kept {W s0 a0 a1} (hW : 268435456 &&& W = 268435456) (h0 : Kept W s0 a0) :
    Kept W s0 (State.skipRun a0 a1) := by
  unfold State.skipRun
  repeat' first
    | with_reducible assumption
    | with_reducible apply kept_ite
    | (with_reducible apply State.setCal_kept; exact mask_trans (by decide) hW)

theorem State.scanStop_kept {W s0 a0 a1 a2} (hW : 71193378162304 &&& W = 71193378162304) (h0 : Kept W s0 a0) :
    Kept W s0 (State.scanStop a0 a1 a2) := by
  unfold State.scanStop
  repeat' first
    | with_reducible assumption
    | with_reducible apply kept_ite
    | (with_reducible apply State.scanHalt_kept; exact mask_trans (by decide) hW)

theorem State.positionDown_kept {W s0 a0 a1 a2} (hW : 109815265650403 &&& W = 109815265650403) (h0 : Kept W s0 a0) :
    Kept W s0 (State.positionDown a0 a1 a2) := by
  unfold State.positionDown
  repeat' first
    | with_reducible assumption
    | with_reducible apply kept_ite
    | (with_reducible apply State.skipRun_kept; exact mask_trans (by decide) hW)
    | (with_reducible apply State.abandon_kept; exact mask_trans (by decide) hW)
    | (with_reducible apply State.scanStop_kept; exact mask_trans (by decide) hW)
    | (with_reducible apply State.leaveReset_kept; exact mask_trans (by decide) hW)
    | (with_reducible apply State.losePosition_kept; exact mask_trans (by decide) hW)
    | (with_reducible apply State.stewardFails_kept; exact mask_trans (by decide) hW)
    | split

theorem State.partDown_kept {W s0 a0 a1} (hW : 109944114671331 &&& W = 109944114671331) (h0 : Kept W s0 a0) :
    Kept W s0 (State.partDown a0 a1) := by
  unfold State.partDown
  repeat' first
    | with_reducible assumption
    | with_reducible apply kept_ite
    | (with_reducible apply State.positionDown_kept; exact mask_trans (by decide) hW)
    | (with_reducible apply State.computeDown_kept; exact mask_trans (by decide) hW)
    | (with_reducible apply State.mdieLost_kept; exact mask_trans (by decide) hW)

theorem State.partitionShutdown_kept {W s0 a0 a1 a2} (hW : 109944114671331 &&& W = 109944114671331) (h0 : Kept W s0 a0) :
    Kept W s0 (State.partitionShutdown a0 a1 a2) := by
  unfold State.partitionShutdown
  repeat' first
    | with_reducible assumption
    | with_reducible apply kept_ite
    | (with_reducible apply State.setPartition_kept; exact mask_trans (by decide) hW)
    | (with_reducible apply State.partDown_kept; exact mask_trans (by decide) hW)
    | (with_reducible apply State.raise_kept; exact mask_trans (by decide) hW)

theorem State.shutLevel_kept {W s0 a0 a1 a2} (hW : 109944114671331 &&& W = 109944114671331) (h0 : Kept W s0 a0) :
    Kept W s0 (State.shutLevel a0 a1 a2) := by
  unfold State.shutLevel
  repeat' first
    | with_reducible assumption
    | with_reducible apply kept_ite
    | (with_reducible apply State.bump_kept; exact mask_trans (by decide) hW)
    | (with_reducible apply State.setHkChan_kept; exact mask_trans (by decide) hW)
    | (with_reducible apply State.moduleShutdown_kept; exact mask_trans (by decide) hW)
    | (with_reducible apply State.partitionShutdown_kept; exact mask_trans (by decide) hW)

theorem State.throttleLevel_kept {W s0 a0 a1 a2} (hW : 549755813890 &&& W = 549755813890) (h0 : Kept W s0 a0) :
    Kept W s0 (State.throttleLevel a0 a1 a2) := by
  unfold State.throttleLevel
  repeat' first
    | with_reducible assumption
    | with_reducible apply kept_ite
    | (with_reducible apply State.bump_kept; exact mask_trans (by decide) hW)
    | (with_reducible apply State.setHkChan_kept; exact mask_trans (by decide) hW)

theorem State.warnLevel_kept {W s0 a0 a1 a2} (hW : 549755813987 &&& W = 549755813987) (h0 : Kept W s0 a0) :
    Kept W s0 (State.warnLevel a0 a1 a2) := by
  unfold State.warnLevel
  repeat' first
    | with_reducible assumption
    | with_reducible apply kept_ite
    | (with_reducible apply State.raise_kept; exact mask_trans (by decide) hW)
    | (with_reducible apply State.bump_kept; exact mask_trans (by decide) hW)
    | (with_reducible apply State.setHkChan_kept; exact mask_trans (by decide) hW)

theorem State.hkAct_kept {W s0 a0 a1} (hW : 109944114671331 &&& W = 109944114671331) (h0 : Kept W s0 a0) :
    Kept W s0 (State.hkAct a0 a1) := by
  unfold State.hkAct
  repeat' first
    | with_reducible assumption
    | with_reducible apply kept_ite
    | (with_reducible apply State.watchRelease_kept; exact mask_trans (by decide) hW)
    | (with_reducible apply State.shutLevel_kept; exact mask_trans (by decide) hW)
    | (with_reducible apply State.throttleLevel_kept; exact mask_trans (by decide) hW)
    | (with_reducible apply State.warnLevel_kept; exact mask_trans (by decide) hW)

theorem State.hkBreak_kept {W s0 a0 a1 a2 a3} (hW : 109944114671331 &&& W = 109944114671331) (h0 : Kept W s0 a0) :
    Kept W s0 (State.hkBreak a0 a1 a2 a3) := by
  unfold State.hkBreak
  repeat' first
    | with_reducible assumption
    | (with_reducible apply State.raise_kept; exact mask_trans (by decide) hW)
    | (with_reducible apply State.bump_kept; exact mask_trans (by decide) hW)
    | (with_reducible apply State.setHkChan_kept; exact mask_trans (by decide) hW)
    | (with_reducible apply State.hkAct_kept; exact mask_trans (by decide) hW)
    | fail_if_no_progress (with_reducible apply kept_hk; exact mask_trans (by decide) hW)

theorem State.sysTake_kept {W s0 a0 a1 a2} (hW : 549755813889 &&& W = 549755813889) (h0 : Kept W s0 a0) :
    Kept W s0 (State.sysTake a0 a1 a2) := by
  unfold State.sysTake
  repeat' first
    | with_reducible assumption
    | with_reducible apply kept_ite
    | (with_reducible apply State.freeBelow_kept; exact mask_trans (by decide) hW)
    | fail_if_no_progress (with_reducible apply kept_hk; exact mask_trans (by decide) hW)

theorem State.hkConvert_kept {W s0 a0 a1 a2 a3 a4} (hW : 109944114671331 &&& W = 109944114671331) (h0 : Kept W s0 a0) :
    Kept W s0 (State.hkConvert a0 a1 a2 a3 a4) := by
  unfold State.hkConvert
  repeat' first
    | with_reducible assumption
    | with_reducible apply kept_ite
    | (with_reducible apply State.hkAct_kept; exact mask_trans (by decide) hW)
    | (with_reducible apply State.setHkChan_kept; exact mask_trans (by decide) hW)
    | (with_reducible apply State.hkBreak_kept; exact mask_trans (by decide) hW)
    | (with_reducible apply State.raise_kept; exact mask_trans (by decide) hW)
    | (with_reducible apply State.sysTake_kept; exact mask_trans (by decide) hW)
    | (with_reducible apply State.moduleShutdown_kept; exact mask_trans (by decide) hW)

theorem State.hkDiagnose_kept {W s0 a0 a1 a2 a3} (hW : 109944114671331 &&& W = 109944114671331) (h0 : Kept W s0 a0) :
    Kept W s0 (State.hkDiagnose a0 a1 a2 a3) := by
  unfold State.hkDiagnose
  repeat' first
    | with_reducible assumption
    | with_reducible apply kept_ite
    | (with_reducible apply State.setHkChan_kept; exact mask_trans (by decide) hW)
    | (with_reducible apply State.hkBreak_kept; exact mask_trans (by decide) hW)
    | fail_if_no_progress (with_reducible apply kept_hk; exact mask_trans (by decide) hW)

theorem State.keepRetired_kept {W s0 a0 a1 a2} (hW : 70368744439808 &&& W = 70368744439808) (h0 : Kept W s0 a0) :
    Kept W s0 (State.keepRetired a0 a1 a2) := by
  unfold State.keepRetired
  repeat' first
    | with_reducible assumption
    | with_reducible apply kept_ite
    | (with_reducible apply State.setPosition_kept; exact mask_trans (by decide) hW)

theorem State.sigFailed_kept {W s0 a0 a1 a2 a3} (hW : 99 &&& W = 99) (h0 : Kept W s0 a0) :
    Kept W s0 (State.sigFailed a0 a1 a2 a3) := by
  unfold State.sigFailed
  repeat' first
    | with_reducible assumption
    | (with_reducible apply State.bump_kept; exact mask_trans (by decide) hW)
    | (with_reducible apply State.raise_kept; exact mask_trans (by decide) hW)

theorem State.verify_kept {W s0 a0 a1 a2 a3 a4 a5 a6} (hW : 99 &&& W = 99) (h0 : Kept W s0 a0) :
    Kept W s0 (State.verify a0 a1 a2 a3 a4 a5 a6).1 := by
  unfold State.verify
  repeat' first
    | with_reducible assumption
    | with_reducible apply kept_ite_fst
    | (with_reducible apply State.sigFailed_kept; exact mask_trans (by decide) hW)
    | split

theorem State.pickSteward_kept {W s0 a0 a1} (hW : 99 &&& W = 99) (h0 : Kept W s0 a0) :
    Kept W s0 (State.pickSteward a0 a1).1 := by
  unfold State.pickSteward
  repeat' first
    | with_reducible assumption
    | with_reducible apply kept_ite_fst
    | (with_reducible apply State.verify_kept; exact mask_trans (by decide) hW)

theorem State.kindling_kept {W s0 a0 a1} (hW : 35321811566691 &&& W = 35321811566691) (h0 : Kept W s0 a0) :
    Kept W s0 (State.kindling a0 a1) := by
  unfold State.kindling
  repeat' first
    | with_reducible assumption
    | with_reducible apply kept_ite
    | (with_reducible apply State.halt_kept; exact mask_trans (by decide) hW)
    | (with_reducible apply State.pickSteward_kept; exact mask_trans (by decide) hW)
    | (with_reducible apply State.phaseEnds_kept; exact mask_trans (by decide) hW)
    | fail_if_no_progress (with_reducible apply kept_boot_fw; exact mask_trans (by decide) hW)
    | fail_if_no_progress (with_reducible apply kept_boot_step_fw; exact mask_trans (by decide) hW)
    | dsimp only
    | split

theorem State.marchFails_kept {W s0 a0 a1} (hW : 70369818706017 &&& W = 70369818706017) (h0 : Kept W s0 a0) :
    Kept W s0 (State.marchFails a0 a1) := by
  unfold State.marchFails
  repeat' first
    | with_reducible assumption
    | (with_reducible apply State.ashAdd_kept; exact mask_trans (by decide) hW)
    | (with_reducible apply State.setPosition_kept; exact mask_trans (by decide) hW)
    | (with_reducible apply State.raise_kept; exact mask_trans (by decide) hW)
    | fail_if_no_progress (with_reducible apply kept_boot; exact mask_trans (by decide) hW)

theorem State.sramFound_kept {W s0 a0 a1} (hW : 524385 &&& W = 524385) (h0 : Kept W s0 a0) :
    Kept W s0 (State.sramFound a0 a1) := by
  unfold State.sramFound
  repeat' first
    | with_reducible assumption
    | (with_reducible apply State.raise_kept; exact mask_trans (by decide) hW)
    | fail_if_no_progress (with_reducible apply kept_boot; exact mask_trans (by decide) hW)

theorem State.rowFound_kept {W s0 a0 a1} (hW : 524385 &&& W = 524385) (h0 : Kept W s0 a0) :
    Kept W s0 (State.rowFound a0 a1) := by
  unfold State.rowFound
  repeat' first
    | with_reducible assumption
    | with_reducible apply kept_ite
    | (with_reducible apply State.raise_kept; exact mask_trans (by decide) hW)
    | fail_if_no_progress (with_reducible apply kept_boot; exact mask_trans (by decide) hW)

theorem State.pickBundle_kept {W s0 a0 a1} (hW : 99 &&& W = 99) (h0 : Kept W s0 a0) :
    Kept W s0 (State.pickBundle a0 a1).1 := by
  unfold State.pickBundle
  repeat' first
    | with_reducible assumption
    | with_reducible apply kept_ite_fst
    | (with_reducible apply State.verify_kept; exact mask_trans (by decide) hW)

theorem State.memoryTest_kept {W s0 a0 a1} (hW : 35184372619363 &&& W = 35184372619363) (h0 : Kept W s0 a0) :
    Kept W s0 (State.memoryTest a0 a1) := by
  unfold State.memoryTest
  have hm : Kept W s0 { a0 with mem := {} } := kept_allMem (mask_trans (by decide) hW) (mask_trans (by decide) hW) (fun _ => rfl) h0
  have h1 : Kept W s0 (a1.srams.foldl (fun s x => s.sramFound x) (a1.rows.foldl (fun s x => s.rowFound x) { a0 with mem := {} })) := by
    apply kept_foldl
    · intro s x h
      exact State.sramFound_kept (mask_trans (by decide) hW) h
    · apply kept_foldl _ _ hm
      intro s x h
      exact State.rowFound_kept (mask_trans (by decide) hW) h
  generalize (a1.srams.foldl (fun s x => s.sramFound x) (a1.rows.foldl (fun s x => s.rowFound x) { a0 with mem := {} })) = s1 at h1 ⊢
  have h2 := State.pickBundle_kept (a1 := a1) (mask_trans (by decide) hW) h1
  dsimp only
  generalize s1.pickBundle a1 = p at h2 ⊢
  obtain ⟨s2, copy, code⟩ := p
  cases copy with
  | none => exact State.halt_kept (mask_trans (by decide) hW) h2
  | some n =>
    apply State.phaseEnds_kept (mask_trans (by decide) hW)
    apply State.distribute_kept (mask_trans (by decide) hW)
    apply State.writePieces_kept (mask_trans (by decide) hW)
    iterate 6 apply State.setReg_kept (mask_trans (by decide) hW)
    exact kept_boot_fw (mask_trans (by decide) hW) h2

theorem State.object_kept {W s0 a0 a1 a2 a3 a4} (hW : 6243 &&& W = 6243) (h0 : Kept W s0 a0) :
    Kept W s0 (State.object a0 a1 a2 a3 a4).st := by
  unfold State.object
  repeat' first
    | with_reducible assumption
    | with_reducible apply kept_ite_Rd
    | (with_reducible apply State.read_kept; exact mask_trans (by decide) hW)

theorem State.onSlot_kept {W s0 a0 a1 a2 a3 a4} (hW : 1920 &&& W = 1920) (h0 : Kept W s0 a0) (h4 : ∀ x0 x1, Kept W s0 x0 → Kept W s0 (a4 x0 x1)) :
    Kept W s0 (State.onSlot a0 a1 a2 a3 a4) := by
  unfold State.onSlot
  repeat' first
    | with_reducible assumption
    | with_reducible apply kept_ite
    | (with_reducible apply State.descriptor_kept; exact mask_trans (by decide) hW)
    | (with_reducible apply State.finish_kept; exact mask_trans (by decide) hW)
    | with_reducible intro _ _ _
    | with_reducible apply_assumption

theorem State.partitions_kept {W s0 a0 a1} (hW : 71194458718305 &&& W = 71194458718305) (h0 : Kept W s0 a0) :
    Kept W s0 (State.partitions a0 a1) := by
  unfold State.partitions
  repeat' first
    | with_reducible assumption
    | (with_reducible apply State.applyFuse_kept; exact mask_trans (by decide) hW)
    | (with_reducible apply State.fuseInvalid_kept; exact mask_trans (by decide) hW)
    | (with_reducible apply State.keepRetired_kept; exact mask_trans (by decide) hW)
    | (with_reducible apply State.marchFails_kept; exact mask_trans (by decide) hW)
    | (with_reducible apply State.buildDie_kept; exact mask_trans (by decide) hW)
    | (with_reducible apply State.phaseEnds_kept; exact mask_trans (by decide) hW)
    | fail_if_no_progress (with_reducible apply kept_boot; exact mask_trans (by decide) hW)
    | with_reducible apply kept_foldl
    | with_reducible intro _ _ _

theorem State.placeManifest_kept {W s0 a0 a1 a2 a3 a4} (hW : 2147483648 &&& W = 2147483648) (h0 : Kept W s0 a0) :
    Kept W s0 (State.placeManifest a0 a1 a2 a3 a4).1 := by
  unfold State.placeManifest
  repeat' first
    | with_reducible assumption
    | with_reducible apply kept_ite_fst
    | (with_reducible apply State.displace_kept; exact mask_trans (by decide) hW)
    | (with_reducible apply State.setSlot_kept; exact mask_trans (by decide) hW)
    | dsimp only
    | split

theorem State.placeRecord_kept {W s0 a0 a1 a2 a3 a4 a5} (hW : 2147489792 &&& W = 2147489792) (h0 : Kept W s0 a0) :
    Kept W s0 (State.placeRecord a0 a1 a2 a3 a4 a5) := by
  unfold State.placeRecord
  repeat' first
    | with_reducible assumption
    | (with_reducible apply State.writePieces_kept; exact mask_trans (by decide) hW)
    | (with_reducible apply State.setSlot_kept; exact mask_trans (by decide) hW)

theorem State.stowAll_kept {W s0 a0} (hW : 6291456 &&& W = 6291456) (h0 : Kept W s0 a0) :
    Kept W s0 (State.stowAll a0) := by
  unfold State.stowAll
  repeat' first
    | with_reducible assumption
    | with_reducible apply kept_ite
    | (with_reducible apply State.stow_kept; exact mask_trans (by decide) hW)
    | with_reducible apply kept_foldl
    | with_reducible intro _ _ _

theorem State.powerOff_kept {W s0 a0 a1} (hW : 140737488353918 &&& W = 140737488353918) (h0 : Kept W s0 a0) :
    Kept W s0 (State.powerOff a0 a1) := by
  unfold State.powerOff
  refine ⟨fun p hp => ?_, h0.pending, h0.part, fun hs => ?_⟩
  · have hb : ∀ i, Nat.testBit 140737488353918 i = true → W.testBit i = true := fun i hi => mask_bit hW hi
    cases p <;> first | exact h0.only _ hp | exact Bool.noConfusion ((hb _ (by decide)).symm.trans hp)
  · have := h0.wf hs
    simp only [State.wf, Bool.and_eq_true] at this ⊢
    exact ⟨⟨rfl, rfl⟩, this.2⟩

theorem State.programRequest_kept {W s0 a0 a1 a2} (hW : 2149580897 &&& W = 2149580897) (h0 : Kept W s0 a0) :
    Kept W s0 (State.programRequest a0 a1 a2) := by
  unfold State.programRequest
  repeat' first
    | with_reducible assumption
    | with_reducible apply kept_ite
    | (with_reducible apply State.slotFailed_kept; exact mask_trans (by decide) hW)
    | (with_reducible apply State.beginBank_kept; exact mask_trans (by decide) hW)
    | dsimp only
    | split

theorem State.retireTile_kept {W s0 a0 a1} (hW : 1075839075 &&& W = 1075839075) (h0 : Kept W s0 a0) :
    Kept W s0 (State.retireTile a0 a1) := by
  unfold State.retireTile
  repeat' first
    | with_reducible assumption
    | with_reducible apply kept_ite
    | (with_reducible apply State.retireColumn_kept; exact mask_trans (by decide) hW)
    | (with_reducible apply State.raise_kept; exact mask_trans (by decide) hW)
    | with_reducible apply kept_foldl
    | with_reducible intro _ _ _

theorem State.repairTile_kept {W s0 a0 a1 a2} (hW : 6144 &&& W = 6144) (h0 : Kept W s0 a0) :
    Kept W s0 (State.repairTile a0 a1 a2) := by
  unfold State.repairTile
  repeat' first
    | with_reducible assumption
    | with_reducible apply kept_ite
    | (with_reducible apply State.writePieces_kept; exact mask_trans (by decide) hW)
    | with_reducible apply kept_foldl
    | with_reducible intro _ _ _

theorem State.readback_kept {W s0 a0 a1 a2} (hW : 3223328867 &&& W = 3223328867) (h0 : Kept W s0 a0) :
    Kept W s0 (State.readback a0 a1 a2).1 := by
  unfold State.readback
  repeat' first
    | with_reducible assumption
    | with_reducible apply kept_ite_fst
    | (with_reducible apply State.checkTiles_kept; exact mask_trans (by decide) hW)
    | (with_reducible apply State.setSlot_kept; exact mask_trans (by decide) hW)
    | (with_reducible apply State.bump_kept; exact mask_trans (by decide) hW)
    | (with_reducible apply State.retireTile_kept; exact mask_trans (by decide) hW)
    | (with_reducible apply State.raise_kept; exact mask_trans (by decide) hW)
    | (with_reducible apply State.repairTile_kept; exact mask_trans (by decide) hW)
    | with_reducible apply kept_foldl
    | with_reducible intro _ _ _

theorem State.stageBundle_kept {W s0 a0 a1 a2 a3 a4} (hW : 35184372090595 &&& W = 35184372090595) (h0 : Kept W s0 a0) :
    Kept W s0 (State.stageBundle a0 a1 a2 a3 a4) := by
  unfold State.stageBundle
  repeat' first
    | with_reducible assumption
    | with_reducible apply kept_ite
    | with_reducible apply kept_ite_fst
    | (with_reducible apply State.verify_kept; exact mask_trans (by decide) hW)
    | (with_reducible apply State.finish_kept; exact mask_trans (by decide) hW)
    | fail_if_no_progress (with_reducible apply kept_fw; exact mask_trans (by decide) hW)
    | dsimp only
    | split

theorem State.receiveChunk_kept {W s0 a0 a1 a2 a3 a4} (hW : 35184372096739 &&& W = 35184372096739) (h0 : Kept W s0 a0) :
    Kept W s0 (State.receiveChunk a0 a1 a2 a3 a4) := by
  unfold State.receiveChunk
  repeat' first
    | with_reducible assumption
    | with_reducible apply kept_ite
    | (with_reducible apply State.writePieces_kept; exact mask_trans (by decide) hW)
    | (with_reducible apply State.stageBundle_kept; exact mask_trans (by decide) hW)
    | fail_if_no_progress (with_reducible apply kept_fw; exact mask_trans (by decide) hW)

theorem State.regulatorTrip_kept {W s0 a0 a1} (hW : 140737488353918 &&& W = 140737488353918) (h0 : Kept W s0 a0) :
    Kept W s0 (State.regulatorTrip a0 a1) := by
  unfold State.regulatorTrip
  repeat' first
    | with_reducible assumption
    | with_reducible apply kept_ite
    | (with_reducible apply State.powerOff_kept; exact mask_trans (by decide) hW)

theorem State.restored_kept {W s0 a0 a1} (hW : 2147483648 &&& W = 2147483648) (h0 : Kept W s0 a0) :
    Kept W s0 (State.restored a0 a1) := by
  unfold State.restored
  repeat' first
    | with_reducible assumption
    | with_reducible apply kept_ite
    | (with_reducible apply State.setSlot_kept; exact mask_trans (by decide) hW)

theorem State.roundStart_kept {W s0 a0} (hW : 549755813888 &&& W = 549755813888) (h0 : Kept W s0 a0) :
    Kept W s0 (State.roundStart a0) := by
  unfold State.roundStart
  repeat' first
    | with_reducible assumption
    | (with_reducible apply State.setHkChan_kept; exact mask_trans (by decide) hW)
    | fail_if_no_progress (with_reducible apply kept_hk; exact mask_trans (by decide) hW)
    | with_reducible apply kept_foldl
    | with_reducible intro _ _ _

theorem State.scanResult_kept {W s0 a0 a1 a2 a3} (hW : 274877908610 &&& W = 274877908610) (h0 : Kept W s0 a0) :
    Kept W s0 (State.scanResult a0 a1 a2 a3) := by
  unfold State.scanResult
  repeat' first
    | with_reducible assumption
    | with_reducible apply kept_ite
    | (with_reducible apply State.bump_kept; exact mask_trans (by decide) hW)
    | (with_reducible apply State.setScan_kept; exact mask_trans (by decide) hW)
    | (with_reducible apply State.finish_kept; exact mask_trans (by decide) hW)
    | dsimp only
    | split

theorem State.setPattern_kept {W s0 a0 a1 a2} (hW : 274877906944 &&& W = 274877906944) (h0 : Kept W s0 a0) :
    Kept W s0 (State.setPattern a0 a1 a2) := by
  unfold State.setPattern
  repeat' first
    | with_reducible assumption
    | fail_if_no_progress (with_reducible apply kept_det; exact mask_trans (by decide) hW)

theorem State.shardArrived_kept {W s0 a0 a1 a2} (hW : 8798240505856 &&& W = 8798240505856) (h0 : Kept W s0 a0) :
    Kept W s0 (State.shardArrived a0 a1 a2) := by
  unfold State.shardArrived
  repeat' first
    | with_reducible assumption
    | with_reducible apply kept_ite
    | (with_reducible apply State.setSlot_kept; exact mask_trans (by decide) hW)
    | fail_if_no_progress (with_reducible apply kept_inst; exact mask_trans (by decide) hW)

theorem State.shardFailed_kept {W s0 a0 a1 a2 a3} (hW : 8796093023874 &&& W = 8796093023874) (h0 : Kept W s0 a0) :
    Kept W s0 (State.shardFailed a0 a1 a2 a3) := by
  unfold State.shardFailed
  repeat' first
    | with_reducible assumption
    | (with_reducible apply State.jobEnd_kept; exact mask_trans (by decide) hW)
    | (with_reducible apply State.bump_kept; exact mask_trans (by decide) hW)

theorem State.shardPassed_kept {W s0 a0 a1 a2 a3} (hW : 8798240513666 &&& W = 8798240513666) (h0 : Kept W s0 a0) :
    Kept W s0 (State.shardPassed a0 a1 a2 a3) := by
  unfold State.shardPassed
  repeat' first
    | with_reducible assumption
    | (with_reducible apply State.placeRecord_kept; exact mask_trans (by decide) hW)
    | (with_reducible apply State.setSlot_kept; exact mask_trans (by decide) hW)
    | (with_reducible apply State.checksAfter_kept; exact mask_trans (by decide) hW)
    | (with_reducible apply State.jobEnd_kept; exact mask_trans (by decide) hW)
    | (with_reducible apply State.bump_kept; exact mask_trans (by decide) hW)
    | with_reducible apply kept_foldl
    | with_reducible intro _ _ _

theorem State.shardCheck_kept {W s0 a0 a1 a2} (hW : 8798240513666 &&& W = 8798240513666) (h0 : Kept W s0 a0) :
    Kept W s0 (State.shardCheck a0 a1 a2) := by
  unfold State.shardCheck
  repeat' first
    | with_reducible assumption
    | with_reducible apply kept_ite
    | (with_reducible apply State.jobEnd_kept; exact mask_trans (by decide) hW)
    | (with_reducible apply State.bump_kept; exact mask_trans (by decide) hW)
    | (with_reducible apply State.shardFailed_kept; exact mask_trans (by decide) hW)
    | (with_reducible apply State.shardPassed_kept; exact mask_trans (by decide) hW)
    | dsimp only
    | split

theorem State.spareReady_kept {W s0 a0 a1 a2 a3 a4} (hW : 2097152 &&& W = 2097152) (h0 : Kept W s0 a0) :
    Kept W s0 (State.spareReady a0 a1 a2 a3 a4) := by
  unfold State.spareReady
  repeat' first
    | with_reducible assumption
    | with_reducible apply kept_ite
    | (with_reducible apply State.setBank_kept; exact mask_trans (by decide) hW)

theorem State.stageRound_kept {W s0 a0 a1} (hW : 549755813888 &&& W = 549755813888) (h0 : Kept W s0 a0) :
    Kept W s0 (State.stageRound a0 a1) := by
  unfold State.stageRound
  repeat' first
    | with_reducible assumption
    | fail_if_no_progress (with_reducible apply kept_hk; exact mask_trans (by decide) hW)

theorem State.takeBuffers_kept {W s0 a0 a1 a2} (hW : 515 &&& W = 515) (h0 : Kept W s0 a0) :
    Kept W s0 (State.takeBuffers a0 a1 a2) := by
  unfold State.takeBuffers
  repeat' first
    | with_reducible assumption
    | with_reducible apply kept_ite
    | (with_reducible apply State.bumpWait_kept; exact mask_trans (by decide) hW)
    | (with_reducible apply State.setChan_kept; exact mask_trans (by decide) hW)

theorem State.takeChunk_kept {W s0 a0 a1 a2} (hW : 35184372094976 &&& W = 35184372094976) (h0 : Kept W s0 a0) :
    Kept W s0 (State.takeChunk a0 a1 a2) := by
  unfold State.takeChunk
  repeat' first
    | with_reducible assumption
    | with_reducible apply kept_ite
    | (with_reducible apply State.setReceiver_kept; exact mask_trans (by decide) hW)
    | (with_reducible apply State.placeChunk_kept; exact mask_trans (by decide) hW)

theorem State.verifyFail_kept {W s0 a0 a1 a2 a3 a4 a5} (hW : 1075839073 &&& W = 1075839073) (h0 : Kept W s0 a0) :
    Kept W s0 (State.verifyFail a0 a1 a2 a3 a4 a5) := by
  unfold State.verifyFail
  repeat' first
    | with_reducible assumption
    | with_reducible apply kept_ite
    | (with_reducible apply State.ashEngine_kept; exact mask_trans (by decide) hW)
    | (with_reducible apply State.setBank_kept; exact mask_trans (by decide) hW)

theorem State.tileProgram_kept {W s0 a0 a1 a2 a3 a4 a5 a6 a7 a8} (hW : 3223328867 &&& W = 3223328867) (h0 : Kept W s0 a0) :
    Kept W s0 (State.tileProgram a0 a1 a2 a3 a4 a5 a6 a7 a8) := by
  unfold State.tileProgram
  repeat' first
    | with_reducible assumption
    | with_reducible apply kept_ite
    | (with_reducible apply State.readLines_kept; exact mask_trans (by decide) hW)
    | (with_reducible apply State.setBank_kept; exact mask_trans (by decide) hW)
    | (with_reducible apply State.verifyFail_kept; exact mask_trans (by decide) hW)
    | (with_reducible apply State.bankFailed_kept; exact mask_trans (by decide) hW)
    | (with_reducible apply State.banksReady_kept; exact mask_trans (by decide) hW)
    | (with_reducible apply State.spareReady_kept; exact mask_trans (by decide) hW)
    | (with_reducible apply State.bump_kept; exact mask_trans (by decide) hW)
    | with_reducible apply kept_foldl
    | with_reducible intro _ _ _

theorem State.verifyBytes_kept {W s0 a0 a1 a2 a3 a4 a5 a6} (hW : 99 &&& W = 99) (h0 : Kept W s0 a0) :
    Kept W s0 (State.verifyBytes a0 a1 a2 a3 a4 a5 a6).1 := by
  unfold State.verifyBytes
  repeat' first
    | with_reducible assumption
    | (with_reducible apply State.verify_kept; exact mask_trans (by decide) hW)

theorem execAttest_kept {W s0 a0 a1 a2 a3} (hW : 17592186046336 &&& W = 17592186046336) (h3 : Kept W s0 a3) :
    KeptO W s0 (execAttest a0 a1 a2 a3) := by
  unfold execAttest
  repeat' first
    | with_reducible assumption
    | with_reducible apply kept_next
    | with_reducible apply kept_ite
    | (with_reducible apply State.descriptor_kept; exact mask_trans (by decide) hW)
    | (with_reducible apply State.finish_kept; exact mask_trans (by decide) hW)
    | fail_if_no_progress (with_reducible apply kept_sec; exact mask_trans (by decide) hW)
    | with_reducible intro _ _ _

theorem execAttestRateTurn_kept {W s0 a0} (hW : 17592186046435 &&& W = 17592186046435) (h0 : Kept W s0 a0) :
    KeptO W s0 (execAttestRateTurn a0) := by
  unfold execAttestRateTurn
  repeat' first
    | with_reducible assumption
    | with_reducible apply kept_next
    | with_reducible apply kept_ite
    | (with_reducible apply State.signHeld_kept; exact mask_trans (by decide) hW)

theorem execAutoRelease_kept {W s0 a0 a1} (hW : 108845209030369 &&& W = 108845209030369) (h1 : Kept W s0 a1) :
    KeptO W s0 (execAutoRelease a0 a1) := by
  unfold execAutoRelease
  repeat' first
    | with_reducible assumption
    | with_reducible apply kept_next
    | with_reducible apply kept_ite
    | (with_reducible apply State.releasePart_kept; exact mask_trans (by decide) hW)

theorem execBankProgramRequest_kept {W s0 a0 a1 a2 a3} (hW : 2149580897 &&& W = 2149580897) (h3 : Kept W s0 a3) :
    KeptO W s0 (execBankProgramRequest a0 a1 a2 a3) := by
  unfold execBankProgramRequest
  repeat' first
    | with_reducible assumption
    | with_reducible apply kept_next
    | with_reducible apply kept_ite
    | (with_reducible apply State.programRequest_kept; exact mask_trans (by decide) hW)

theorem execBootPhase_kept {W s0 a0 a1} (hW : 108715561459427 &&& W = 108715561459427) (h1 : Kept W s0 a1) :
    KeptO W s0 (execBootPhase a0 a1) := by
  unfold execBootPhase
  repeat' first
    | with_reducible assumption
    | with_reducible apply kept_next
    | with_reducible apply kept_ite
    | (with_reducible apply State.kindling_kept; exact mask_trans (by decide) hW)
    | (with_reducible apply State.partitions_kept; exact mask_trans (by decide) hW)
    | (with_reducible apply State.hbmTrain_kept; exact mask_trans (by decide) hW)
    | (with_reducible apply State.memoryTest_kept; exact mask_trans (by decide) hW)
    | (with_reducible apply State.firmware_kept; exact mask_trans (by decide) hW)
    | (with_reducible apply State.arrayMargin_kept; exact mask_trans (by decide) hW)
    | (with_reducible apply State.phaseEnds_kept; exact mask_trans (by decide) hW)
    | (with_reducible apply State.calibration_kept; exact mask_trans (by decide) hW)
    | fail_if_no_progress (with_reducible apply kept_boot_hk; exact mask_trans (by decide) hW)
    | dsimp only
    | split

theorem execChainChunkForward_kept {W s0 a0 a1} (hW : 8111238905827 &&& W = 8111238905827) (h1 : Kept W s0 a1) :
    KeptO W s0 (execChainChunkForward a0 a1) := by
  unfold execChainChunkForward
  repeat' first
    | with_reducible assumption
    | with_reducible apply kept_next
    | with_reducible apply kept_ite
    | (with_reducible apply State.settled_kept; exact mask_trans (by decide) hW)
    | (with_reducible apply State.launch_kept; exact mask_trans (by decide) hW)
    | (with_reducible apply State.setSlot_kept; exact mask_trans (by decide) hW)
    | dsimp only
    | split

theorem execChunkReady_kept {W s0 a0 a1 a2 a3 a4} (hW : 8798240505858 &&& W = 8798240505858) (h4 : Kept W s0 a4) :
    KeptO W s0 (execChunkReady a0 a1 a2 a3 a4) := by
  unfold execChunkReady
  repeat' first
    | with_reducible assumption
    | with_reducible apply kept_next
    | with_reducible apply kept_ite
    | (with_reducible apply State.chunkArrived_kept; exact mask_trans (by decide) hW)

theorem execCordGroupConfirm_kept {W s0 a0 a1 a2} (hW : 8796093023872 &&& W = 8796093023872) (h2 : Kept W s0 a2) :
    KeptO W s0 (execCordGroupConfirm a0 a1 a2) := by
  unfold execCordGroupConfirm
  repeat' first
    | with_reducible assumption
    | with_reducible apply kept_next
    | with_reducible apply kept_ite
    | (with_reducible apply State.groupRefused_kept; exact mask_trans (by decide) hW)
    | fail_if_no_progress (with_reducible apply kept_inst; exact mask_trans (by decide) hW)
    | dsimp only
    | split

theorem execCordGroupQuery_kept {W s0 a0 a1} (hW : 8796093022208 &&& W = 8796093022208) (h1 : Kept W s0 a1) :
    KeptO W s0 (execCordGroupQuery a0 a1) := by
  unfold execCordGroupQuery
  repeat' first
    | with_reducible assumption
    | with_reducible apply kept_next
    | with_reducible apply kept_ite
    | fail_if_no_progress (with_reducible apply kept_inst; exact mask_trans (by decide) hW)

theorem execCurrentLimit_kept {W s0 a0 a1} (hW : 549755813888 &&& W = 549755813888) (h1 : Kept W s0 a1) :
    KeptO W s0 (execCurrentLimit a0 a1) := by
  unfold execCurrentLimit
  repeat' first
    | with_reducible assumption
    | with_reducible apply kept_next
    | with_reducible apply kept_ite
    | fail_if_no_progress (with_reducible apply kept_hk; exact mask_trans (by decide) hW)

theorem execDamperDecision_kept {W s0 a0} (hW : 549755813985 &&& W = 549755813985) (h0 : Kept W s0 a0) :
    KeptO W s0 (execDamperDecision a0) := by
  unfold execDamperDecision
  repeat' first
    | with_reducible assumption
    | with_reducible apply kept_next
    | with_reducible apply kept_ite
    | (with_reducible apply State.raise_kept; exact mask_trans (by decide) hW)
    | fail_if_no_progress (with_reducible apply kept_hk; exact mask_trans (by decide) hW)
    | with_reducible apply kept_foldl
    | with_reducible intro _ _ _

theorem execDamperStageApply_kept {W s0 a0 a1} (hW : 549755813888 &&& W = 549755813888) (h1 : Kept W s0 a1) :
    KeptO W s0 (execDamperStageApply a0 a1) := by
  unfold execDamperStageApply
  repeat' first
    | with_reducible assumption
    | with_reducible apply kept_next
    | with_reducible apply kept_ite
    | (with_reducible apply State.damperApply_kept; exact mask_trans (by decide) hW)

theorem execFleetLoad_kept {W s0 a0 a1 a2 a3 a4} (hW : 274877908963 &&& W = 274877908963) (h4 : Kept W s0 a4) :
    KeptO W s0 (execFleetLoad a0 a1 a2 a3 a4) := by
  unfold execFleetLoad
  repeat' first
    | with_reducible assumption
    | with_reducible apply kept_next
    | with_reducible apply kept_ite
    | (with_reducible apply State.descriptor_kept; exact mask_trans (by decide) hW)
    | (with_reducible apply State.finish_kept; exact mask_trans (by decide) hW)
    | (with_reducible apply State.verify_kept; exact mask_trans (by decide) hW)
    | (with_reducible apply State.setPattern_kept; exact mask_trans (by decide) hW)
    | with_reducible intro _ _ _
    | dsimp only
    | split

theorem execFleetRemove_kept {W s0 a0 a1 a2} (hW : 274877908864 &&& W = 274877908864) (h2 : Kept W s0 a2) :
    KeptO W s0 (execFleetRemove a0 a1 a2) := by
  unfold execFleetRemove
  repeat' first
    | with_reducible assumption
    | with_reducible apply kept_next
    | with_reducible apply kept_ite
    | (with_reducible apply State.descriptor_kept; exact mask_trans (by decide) hW)
    | (with_reducible apply State.finish_kept; exact mask_trans (by decide) hW)
    | (with_reducible apply State.setPattern_kept; exact mask_trans (by decide) hW)
    | with_reducible intro _ _ _

theorem execFleetSet_kept {W s0 a0 a1 a2 a3} (hW : 274877908864 &&& W = 274877908864) (h3 : Kept W s0 a3) :
    KeptO W s0 (execFleetSet a0 a1 a2 a3) := by
  unfold execFleetSet
  repeat' first
    | with_reducible assumption
    | with_reducible apply kept_next
    | with_reducible apply kept_ite
    | (with_reducible apply State.descriptor_kept; exact mask_trans (by decide) hW)
    | (with_reducible apply State.finish_kept; exact mask_trans (by decide) hW)
    | (with_reducible apply State.setPattern_kept; exact mask_trans (by decide) hW)
    | with_reducible intro _ _ _

theorem execFwActivate_kept {W s0 a0 a1} (hW : 105553116530560 &&& W = 105553116530560) (h1 : Kept W s0 a1) :
    KeptO W s0 (execFwActivate a0 a1) := by
  unfold execFwActivate
  repeat' first
    | with_reducible assumption
    | with_reducible apply kept_next
    | with_reducible apply kept_ite
    | (with_reducible apply State.descriptor_kept; exact mask_trans (by decide) hW)
    | (with_reducible apply State.finish_kept; exact mask_trans (by decide) hW)
    | (with_reducible apply State.setPosition_kept; exact mask_trans (by decide) hW)
    | fail_if_no_progress (with_reducible apply kept_fw; exact mask_trans (by decide) hW)
    | with_reducible apply kept_foldl
    | with_reducible intro _ _ _
    | dsimp only
    | split

theorem execFwChunkFetch_kept {W s0 a0 a1 a2} (hW : 109814997745379 &&& W = 109814997745379) (h2 : Kept W s0 a2) :
    KeptO W s0 (execFwChunkFetch a0 a1 a2) := by
  unfold execFwChunkFetch
  repeat' first
    | with_reducible assumption
    | with_reducible apply kept_next
    | with_reducible apply kept_ite
    | (with_reducible apply State.fetchChunk_kept; exact mask_trans (by decide) hW)
    | (with_reducible apply State.bump_kept; exact mask_trans (by decide) hW)
    | (with_reducible apply State.receiveChunk_kept; exact mask_trans (by decide) hW)
    | split

theorem execFwChunkReceive_kept {W s0 a0 a1 a2} (hW : 35184372094976 &&& W = 35184372094976) (h2 : Kept W s0 a2) :
    KeptO W s0 (execFwChunkReceive a0 a1 a2) := by
  unfold execFwChunkReceive
  repeat' first
    | with_reducible assumption
    | with_reducible apply kept_next
    | (with_reducible apply State.takeChunk_kept; exact mask_trans (by decide) hW)

theorem execFwQuery_kept {W s0 a0 a1 a2} (hW : 1920 &&& W = 1920) (h2 : Kept W s0 a2) :
    KeptO W s0 (execFwQuery a0 a1 a2) := by
  unfold execFwQuery
  repeat' first
    | with_reducible assumption
    | with_reducible apply kept_next
    | (with_reducible apply State.descriptor_kept; exact mask_trans (by decide) hW)
    | (with_reducible apply State.finish_kept; exact mask_trans (by decide) hW)
    | (with_reducible apply State.hostPut_kept; exact mask_trans (by decide) hW)
    | with_reducible intro _ _ _

theorem execFwStage_kept {W s0 a0 a1 a2 a3 a4 a5 a6 a7 a8 a9 a10 a11 a12} (hW : 37383395352547 &&& W = 37383395352547) (h12 : Kept W s0 a12) :
    KeptO W s0 (execFwStage a0 a1 a2 a3 a4 a5 a6 a7 a8 a9 a10 a11 a12) := by
  unfold execFwStage
  repeat' first
    | with_reducible assumption
    | with_reducible apply kept_next
    | with_reducible apply kept_ite
    | (with_reducible apply State.descriptor_kept; exact mask_trans (by decide) hW)
    | (with_reducible apply State.finish_kept; exact mask_trans (by decide) hW)
    | (with_reducible apply State.object_kept; exact mask_trans (by decide) hW)
    | (with_reducible apply State.writePieces_kept; exact mask_trans (by decide) hW)
    | (with_reducible apply State.stageBundle_kept; exact mask_trans (by decide) hW)
    | (with_reducible apply State.forwardBundle_kept; exact mask_trans (by decide) hW)
    | fail_if_no_progress (with_reducible apply kept_fw; exact mask_trans (by decide) hW)
    | with_reducible intro _ _ _

theorem execGroupCommitTimeout_kept {W s0 a0} (hW : 8796093023872 &&& W = 8796093023872) (h0 : Kept W s0 a0) :
    KeptO W s0 (execGroupCommitTimeout a0) := by
  unfold execGroupCommitTimeout
  repeat' first
    | with_reducible assumption
    | with_reducible apply kept_next
    | with_reducible apply kept_ite
    | (with_reducible apply State.groupRefused_kept; exact mask_trans (by decide) hW)
    | split

theorem execHkSlotConversion_kept {W s0 a0 a1 a2 a3} (hW : 109944114671331 &&& W = 109944114671331) (h3 : Kept W s0 a3) :
    KeptO W s0 (execHkSlotConversion a0 a1 a2 a3) := by
  unfold execHkSlotConversion
  repeat' first
    | with_reducible assumption
    | with_reducible apply kept_next
    | with_reducible apply kept_ite
    | (with_reducible apply State.roundStart_kept; exact mask_trans (by decide) hW)
    | (with_reducible apply State.hkDiagnose_kept; exact mask_trans (by decide) hW)
    | (with_reducible apply State.hkConvert_kept; exact mask_trans (by decide) hW)
    | fail_if_no_progress (with_reducible apply kept_hk; exact mask_trans (by decide) hW)
    | dsimp only
    | split

theorem execHssTreeBuilt_kept {W s0 a0} (hW : 17592186046435 &&& W = 17592186046435) (h0 : Kept W s0 a0) :
    KeptO W s0 (execHssTreeBuilt a0) := by
  unfold execHssTreeBuilt
  repeat' first
    | with_reducible assumption
    | with_reducible apply kept_next
    | with_reducible apply kept_ite
    | (with_reducible apply State.signHeld_kept; exact mask_trans (by decide) hW)
    | fail_if_no_progress (with_reducible apply kept_sec; exact mask_trans (by decide) hW)

theorem execIdentity_kept {W s0 a0 a1 a2} (hW : 1920 &&& W = 1920) (h2 : Kept W s0 a2) :
    KeptO W s0 (execIdentity a0 a1 a2) := by
  unfold execIdentity
  repeat' first
    | with_reducible assumption
    | with_reducible apply kept_next
    | (with_reducible apply State.descriptor_kept; exact mask_trans (by decide) hW)
    | (with_reducible apply State.finish_kept; exact mask_trans (by decide) hW)
    | (with_reducible apply State.hostPut_kept; exact mask_trans (by decide) hW)
    | with_reducible intro _ _ _

theorem execInject_kept {W s0 a0 a1 a2 a3 a4 a5 a6 a7} (hW : 2099072 &&& W = 2099072) (h7 : Kept W s0 a7) :
    KeptO W s0 (execInject a0 a1 a2 a3 a4 a5 a6 a7) := by
  unfold execInject
  repeat' first
    | with_reducible assumption
    | with_reducible apply kept_next
    | with_reducible apply kept_ite
    | (with_reducible apply State.descriptor_kept; exact mask_trans (by decide) hW)
    | (with_reducible apply State.finish_kept; exact mask_trans (by decide) hW)
    | (with_reducible apply State.setBank_kept; exact mask_trans (by decide) hW)
    | with_reducible intro _ _ _

theorem execInputOutOfRange_kept {W s0 a0 a1} (hW : 549755813985 &&& W = 549755813985) (h1 : Kept W s0 a1) :
    KeptO W s0 (execInputOutOfRange a0 a1) := by
  unfold execInputOutOfRange
  repeat' first
    | with_reducible assumption
    | with_reducible apply kept_next
    | with_reducible apply kept_ite
    | (with_reducible apply State.raise_kept; exact mask_trans (by decide) hW)
    | fail_if_no_progress (with_reducible apply kept_hk; exact mask_trans (by decide) hW)

theorem execInputOvercurrent_kept {W s0 a0} (hW : 140737488353918 &&& W = 140737488353918) (h0 : Kept W s0 a0) :
    KeptO W s0 (execInputOvercurrent a0) := by
  unfold execInputOvercurrent
  repeat' first
    | with_reducible assumption
    | with_reducible apply kept_next
    | (with_reducible apply State.regulatorTrip_kept; exact mask_trans (by decide) hW)

theorem execInputOvervolt_kept {W s0 a0} (hW : 140737488353918 &&& W = 140737488353918) (h0 : Kept W s0 a0) :
    KeptO W s0 (execInputOvervolt a0) := by
  unfold execInputOvervolt
  repeat' first
    | with_reducible assumption
    | with_reducible apply kept_next
    | (with_reducible apply State.regulatorTrip_kept; exact mask_trans (by decide) hW)

theorem execInputUndervolt_kept {W s0 a0} (hW : 140737488353918 &&& W = 140737488353918) (h0 : Kept W s0 a0) :
    KeptO W s0 (execInputUndervolt a0) := by
  unfold execInputUndervolt
  repeat' first
    | with_reducible assumption
    | with_reducible apply kept_next
    | (with_reducible apply State.regulatorTrip_kept; exact mask_trans (by decide) hW)

theorem execKeyEnroll_kept {W s0 a0 a1 a2 a3 a4} (hW : 17592186046435 &&& W = 17592186046435) (h4 : Kept W s0 a4) :
    KeptO W s0 (execKeyEnroll a0 a1 a2 a3 a4) := by
  unfold execKeyEnroll
  repeat' first
    | with_reducible assumption
    | with_reducible apply kept_next
    | with_reducible apply kept_ite
    | (with_reducible apply State.descriptor_kept; exact mask_trans (by decide) hW)
    | (with_reducible apply State.verifyBytes_kept; exact mask_trans (by decide) hW)
    | (with_reducible apply State.finish_kept; exact mask_trans (by decide) hW)
    | (with_reducible apply State.enroll_kept; exact mask_trans (by decide) hW)
    | with_reducible intro _ _ _

theorem execMcastChunk_kept {W s0 a0 a1 a2} (hW : 37383395352291 &&& W = 37383395352291) (h2 : Kept W s0 a2) :
    KeptO W s0 (execMcastChunk a0 a1 a2) := by
  unfold execMcastChunk
  repeat' first
    | with_reducible assumption
    | with_reducible apply kept_next
    | with_reducible apply kept_ite
    | (with_reducible apply State.receive_kept; exact mask_trans (by decide) hW)
    | (with_reducible apply State.transmit_kept; exact mask_trans (by decide) hW)
    | (with_reducible apply State.receiveChunk_kept; exact mask_trans (by decide) hW)
    | fail_if_no_progress (with_reducible apply kept_fw; exact mask_trans (by decide) hW)
    | with_reducible intro _
    | dsimp only
    | split

theorem execModuleShutdownTrip_kept {W s0 a0} (hW : 140737488353918 &&& W = 140737488353918) (h0 : Kept W s0 a0) :
    KeptO W s0 (execModuleShutdownTrip a0) := by
  unfold execModuleShutdownTrip
  repeat' first
    | with_reducible assumption
    | with_reducible apply kept_next
    | with_reducible apply kept_ite
    | (with_reducible apply State.powerOff_kept; exact mask_trans (by decide) hW)

theorem execPartitionReset_kept {W s0 a0 a1 a2 a3 a4 a5} (hW : 35184372090752 &&& W = 35184372090752) (h5 : Kept W s0 a5) :
    KeptO W s0 (execPartitionReset a0 a1 a2 a3 a4 a5) := by
  unfold execPartitionReset
  repeat' first
    | with_reducible assumption
    | with_reducible apply kept_next
    | with_reducible apply kept_ite
    | (with_reducible apply State.descriptor_kept; exact mask_trans (by decide) hW)
    | (with_reducible apply State.finish_kept; exact mask_trans (by decide) hW)
    | (with_reducible apply State.resetStatus_kept; exact mask_trans (by decide) hW)
    | fail_if_no_progress (with_reducible apply kept_fw; exact mask_trans (by decide) hW)
    | with_reducible intro _ _ _

theorem execPowerOn_kept {W s0 a0} (hW : 549756338285 &&& W = 549756338285) (h0 : Kept W s0 a0) :
    KeptO W s0 (execPowerOn a0) := by
  unfold execPowerOn
  repeat' first
    | with_reducible assumption
    | with_reducible apply kept_next
    | with_reducible apply kept_ite
    | (with_reducible apply State.raise_kept; exact mask_trans (by decide) hW)
    | fail_if_no_progress (with_reducible apply kept_live_staged_boot_hk; exact mask_trans (by decide) hW)

theorem execPoweredHour_kept {W s0 a0} (hW : 524288 &&& W = 524288) (h0 : Kept W s0 a0) :
    KeptO W s0 (execPoweredHour a0) := by
  unfold execPoweredHour
  repeat' first
    | with_reducible assumption
    | with_reducible apply kept_next
    | with_reducible apply kept_ite
    | fail_if_no_progress (with_reducible apply kept_boot; exact mask_trans (by decide) hW)

theorem execReadbackCheckDone_kept {W s0 a0 a1} (hW : 8799316352739 &&& W = 8799316352739) (h1 : Kept W s0 a1) :
    KeptO W s0 (execReadbackCheckDone a0 a1) := by
  unfold execReadbackCheckDone
  repeat' first
    | with_reducible assumption
    | with_reducible apply kept_next
    | with_reducible apply kept_ite
    | (with_reducible apply State.readback_kept; exact mask_trans (by decide) hW)
    | (with_reducible apply State.finish_kept; exact mask_trans (by decide) hW)
    | (with_reducible apply State.restored_kept; exact mask_trans (by decide) hW)
    | fail_if_no_progress (with_reducible apply kept_inst; exact mask_trans (by decide) hW)
    | dsimp only
    | split

theorem execReadbackCheckStart_kept {W s0 a0} (hW : 8798240505856 &&& W = 8798240505856) (h0 : Kept W s0 a0) :
    KeptO W s0 (execReadbackCheckStart a0) := by
  unfold execReadbackCheckStart
  repeat' first
    | with_reducible assumption
    | with_reducible apply kept_next
    | with_reducible apply kept_ite
    | (with_reducible apply State.setSlot_kept; exact mask_trans (by decide) hW)
    | fail_if_no_progress (with_reducible apply kept_inst; exact mask_trans (by decide) hW)
    | dsimp only
    | split

theorem execRecoveryGo_kept {W s0 a0 a1 a2 a3} (hW : 35184372613219 &&& W = 35184372613219) (h3 : Kept W s0 a3) :
    KeptO W s0 (execRecoveryGo a0 a1 a2 a3) := by
  unfold execRecoveryGo
  repeat' first
    | with_reducible assumption
    | with_reducible apply kept_next
    | with_reducible apply kept_ite
    | with_reducible apply kept_ite_fst
    | (with_reducible apply State.verify_kept; exact mask_trans (by decide) hW)
    | fail_if_no_progress (with_reducible apply kept_boot; exact mask_trans (by decide) hW)
    | fail_if_no_progress (with_reducible apply kept_boot_fw; exact mask_trans (by decide) hW)

theorem execRegulatorFault_kept {W s0 a0} (hW : 140737488353918 &&& W = 140737488353918) (h0 : Kept W s0 a0) :
    KeptO W s0 (execRegulatorFault a0) := by
  unfold execRegulatorFault
  repeat' first
    | with_reducible assumption
    | with_reducible apply kept_next
    | (with_reducible apply State.regulatorTrip_kept; exact mask_trans (by decide) hW)

theorem execResetTimeout_kept {W s0 a0 a1 a2 a3} (hW : 109814997214947 &&& W = 109814997214947) (h3 : Kept W s0 a3) :
    KeptO W s0 (execResetTimeout a0 a1 a2 a3) := by
  unfold execResetTimeout
  repeat' first
    | with_reducible assumption
    | with_reducible apply kept_next
    | with_reducible apply kept_ite
    | (with_reducible apply State.resetFails_kept; exact mask_trans (by decide) hW)

theorem execRollbackAdvance_kept {W s0 a0 a1 a2} (hW : 17592186046433 &&& W = 17592186046433) (h2 : Kept W s0 a2) :
    KeptO W s0 (execRollbackAdvance a0 a1 a2) := by
  unfold execRollbackAdvance
  repeat' first
    | with_reducible assumption
    | with_reducible apply kept_next
    | with_reducible apply kept_ite
    | (with_reducible apply State.descriptor_kept; exact mask_trans (by decide) hW)
    | (with_reducible apply State.finish_kept; exact mask_trans (by decide) hW)
    | (with_reducible apply State.raise_kept; exact mask_trans (by decide) hW)
    | fail_if_no_progress (with_reducible apply kept_sec; exact mask_trans (by decide) hW)
    | with_reducible intro _ _ _

theorem execRoundEnd_kept {W s0 a0} (hW : 549755813891 &&& W = 549755813891) (h0 : Kept W s0 a0) :
    KeptO W s0 (execRoundEnd a0) := by
  unfold execRoundEnd
  repeat' first
    | with_reducible assumption
    | with_reducible apply kept_next
    | with_reducible apply kept_ite
    | (with_reducible apply State.stageRound_kept; exact mask_trans (by decide) hW)
    | (with_reducible apply State.bump_kept; exact mask_trans (by decide) hW)
    | (with_reducible apply State.setReg_kept; exact mask_trans (by decide) hW)
    | (with_reducible apply State.damperMs_kept; exact mask_trans (by decide) hW)
    | fail_if_no_progress (with_reducible apply kept_hk; exact mask_trans (by decide) hW)

theorem execScan_kept {W s0 a0 a1 a2 a3 a4} (hW : 70643622348672 &&& W = 70643622348672) (h4 : Kept W s0 a4) :
    KeptO W s0 (execScan a0 a1 a2 a3 a4) := by
  unfold execScan
  repeat' first
    | with_reducible assumption
    | with_reducible apply kept_next
    | with_reducible apply kept_ite
    | (with_reducible apply State.descriptor_kept; exact mask_trans (by decide) hW)
    | (with_reducible apply State.scanStart_kept; exact mask_trans (by decide) hW)
    | (with_reducible apply State.finish_kept; exact mask_trans (by decide) hW)
    | with_reducible intro _ _ _
    | dsimp only
    | split

theorem execScanDone_kept {W s0 a0 a1 a2} (hW : 74630625126115 &&& W = 74630625126115) (h2 : Kept W s0 a2) :
    KeptO W s0 (execScanDone a0 a1 a2) := by
  unfold execScanDone
  repeat' first
    | with_reducible assumption
    | with_reducible apply kept_next
    | with_reducible apply kept_ite
    | (with_reducible apply State.scanResult_kept; exact mask_trans (by decide) hW)
    | (with_reducible apply State.setPosition_kept; exact mask_trans (by decide) hW)
    | (with_reducible apply State.unstow_kept; exact mask_trans (by decide) hW)
    | (with_reducible apply State.raise_kept; exact mask_trans (by decide) hW)
    | (with_reducible apply State.loseCluster_kept; exact mask_trans (by decide) hW)
    | (with_reducible apply State.ashAdd_kept; exact mask_trans (by decide) hW)
    | (with_reducible apply State.retire_kept; exact mask_trans (by decide) hW)
    | dsimp only
    | split

theorem execScanSchedule_kept {W s0 a0} (hW : 70643622346752 &&& W = 70643622346752) (h0 : Kept W s0 a0) :
    KeptO W s0 (execScanSchedule a0) := by
  unfold execScanSchedule
  repeat' first
    | with_reducible assumption
    | with_reducible apply kept_next
    | with_reducible apply kept_ite
    | (with_reducible apply State.scanStart_kept; exact mask_trans (by decide) hW)
    | fail_if_no_progress (with_reducible apply kept_det; exact mask_trans (by decide) hW)
    | dsimp only
    | split

theorem execShardCheckDone_kept {W s0 a0 a1 a2} (hW : 8798240513666 &&& W = 8798240513666) (h2 : Kept W s0 a2) :
    KeptO W s0 (execShardCheckDone a0 a1 a2) := by
  unfold execShardCheckDone
  repeat' first
    | with_reducible assumption
    | with_reducible apply kept_next
    | (with_reducible apply State.shardCheck_kept; exact mask_trans (by decide) hW)

theorem execSlotFree_kept {W s0 a0 a1} (hW : 2147483648 &&& W = 2147483648) (h1 : Kept W s0 a1) :
    KeptO W s0 (execSlotFree a0 a1) := by
  unfold execSlotFree
  repeat' first
    | with_reducible assumption
    | with_reducible apply kept_next
    | with_reducible apply kept_ite
    | (with_reducible apply State.setSlot_kept; exact mask_trans (by decide) hW)

theorem execTestQuery_kept {W s0 a0 a1 a2 a3 a4} (hW : 1920 &&& W = 1920) (h4 : Kept W s0 a4) :
    KeptO W s0 (execTestQuery a0 a1 a2 a3 a4) := by
  unfold execTestQuery
  repeat' first
    | with_reducible assumption
    | with_reducible apply kept_next
    | with_reducible apply kept_ite
    | (with_reducible apply State.descriptor_kept; exact mask_trans (by decide) hW)
    | (with_reducible apply State.finish_kept; exact mask_trans (by decide) hW)
    | (with_reducible apply State.hostPut_kept; exact mask_trans (by decide) hW)
    | with_reducible intro _ _ _

theorem execTileProgramDone_kept {W s0 a0 a1 a2 a3 a4 a5 a6} (hW : 3223328867 &&& W = 3223328867) (h6 : Kept W s0 a6) :
    KeptO W s0 (execTileProgramDone a0 a1 a2 a3 a4 a5 a6) := by
  unfold execTileProgramDone
  repeat' first
    | with_reducible assumption
    | with_reducible apply kept_next
    | with_reducible apply kept_ite
    | (with_reducible apply State.tileProgram_kept; exact mask_trans (by decide) hW)
    | dsimp only
    | split

theorem execUrgentConversionDone_kept {W s0 a0 a1 a2} (hW : 549755813888 &&& W = 549755813888) (h2 : Kept W s0 a2) :
    KeptO W s0 (execUrgentConversionDone a0 a1 a2) := by
  unfold execUrgentConversionDone
  repeat' first
    | with_reducible assumption
    | with_reducible apply kept_next
    | fail_if_no_progress (with_reducible apply kept_hk; exact mask_trans (by decide) hW)
    | dsimp only
    | split

theorem execWeightAbort_kept {W s0 a0 a1 a2} (hW : 10997265860480 &&& W = 10997265860480) (h2 : Kept W s0 a2) :
    KeptO W s0 (execWeightAbort a0 a1 a2) := by
  unfold execWeightAbort
  repeat' first
    | with_reducible assumption
    | with_reducible apply kept_next
    | (with_reducible apply State.onSlot_kept; exact mask_trans (by decide) hW)
    | (with_reducible apply State.finish_kept; exact mask_trans (by decide) hW)
    | (with_reducible apply State.freeCord_kept; exact mask_trans (by decide) hW)
    | (with_reducible apply State.stopProgramming_kept; exact mask_trans (by decide) hW)
    | with_reducible intro _ _ _

theorem execWeightChain_kept {W s0 a0 a1 a2 a3 a4} (hW : 2201170741217 &&& W = 2201170741217) (h4 : Kept W s0 a4) :
    KeptO W s0 (execWeightChain a0 a1 a2 a3 a4) := by
  unfold execWeightChain
  repeat' first
    | with_reducible assumption
    | with_reducible apply kept_next
    | with_reducible apply kept_ite
    | (with_reducible apply State.onSlot_kept; exact mask_trans (by decide) hW)
    | (with_reducible apply State.setSlot_kept; exact mask_trans (by decide) hW)
    | (with_reducible apply State.closeIntake_kept; exact mask_trans (by decide) hW)
    | (with_reducible apply State.finish_kept; exact mask_trans (by decide) hW)
    | (with_reducible apply State.winOpen_kept; exact mask_trans (by decide) hW)
    | with_reducible intro _ _ _
    | dsimp only
    | split

theorem execWeightCheck_kept {W s0 a0 a1 a2 a3} (hW : 8796093024128 &&& W = 8796093024128) (h3 : Kept W s0 a3) :
    KeptO W s0 (execWeightCheck a0 a1 a2 a3) := by
  unfold execWeightCheck
  repeat' first
    | with_reducible assumption
    | with_reducible apply kept_next
    | with_reducible apply kept_ite
    | (with_reducible apply State.onSlot_kept; exact mask_trans (by decide) hW)
    | (with_reducible apply State.finish_kept; exact mask_trans (by decide) hW)
    | fail_if_no_progress (with_reducible apply kept_inst; exact mask_trans (by decide) hW)
    | with_reducible intro _ _ _

theorem execWeightCommit_kept {W s0 a0 a1 a2 a3} (hW : 8796093024128 &&& W = 8796093024128) (h3 : Kept W s0 a3) :
    KeptO W s0 (execWeightCommit a0 a1 a2 a3) := by
  unfold execWeightCommit
  repeat' first
    | with_reducible assumption
    | with_reducible apply kept_next
    | with_reducible apply kept_ite
    | (with_reducible apply State.onSlot_kept; exact mask_trans (by decide) hW)
    | (with_reducible apply State.finish_kept; exact mask_trans (by decide) hW)
    | fail_if_no_progress (with_reducible apply kept_inst; exact mask_trans (by decide) hW)
    | with_reducible intro _ _ _

theorem execWeightKey_kept {W s0 a0 a1 a2 a3 a4 a5} (hW : 2147485568 &&& W = 2147485568) (h5 : Kept W s0 a5) :
    KeptO W s0 (execWeightKey a0 a1 a2 a3 a4 a5) := by
  unfold execWeightKey
  repeat' first
    | with_reducible assumption
    | with_reducible apply kept_next
    | with_reducible apply kept_ite
    | (with_reducible apply State.onSlot_kept; exact mask_trans (by decide) hW)
    | (with_reducible apply State.finish_kept; exact mask_trans (by decide) hW)
    | (with_reducible apply State.setSlot_kept; exact mask_trans (by decide) hW)
    | with_reducible intro _ _ _
    | dsimp only
    | split

theorem execWeightManifest_kept {W s0 a0 a1 a2 a3 a4 a5 a6 a7 a8} (hW : 2147491811 &&& W = 2147491811) (h8 : Kept W s0 a8) :
    KeptO W s0 (execWeightManifest a0 a1 a2 a3 a4 a5 a6 a7 a8) := by
  unfold execWeightManifest
  repeat' first
    | with_reducible assumption
    | with_reducible apply kept_next
    | with_reducible apply kept_ite
    | (with_reducible apply State.descriptor_kept; exact mask_trans (by decide) hW)
    | (with_reducible apply State.finish_kept; exact mask_trans (by decide) hW)
    | (with_reducible apply State.object_kept; exact mask_trans (by decide) hW)
    | (with_reducible apply State.verifyBytes_kept; exact mask_trans (by decide) hW)
    | (with_reducible apply State.placeManifest_kept; exact mask_trans (by decide) hW)
    | with_reducible intro _ _ _
    | dsimp only
    | split

theorem execWeightQuery_kept {W s0 a0 a1 a2 a3} (hW : 1920 &&& W = 1920) (h3 : Kept W s0 a3) :
    KeptO W s0 (execWeightQuery a0 a1 a2 a3) := by
  unfold execWeightQuery
  repeat' first
    | with_reducible assumption
    | with_reducible apply kept_next
    | (with_reducible apply State.onSlot_kept; exact mask_trans (by decide) hW)
    | (with_reducible apply State.finish_kept; exact mask_trans (by decide) hW)
    | (with_reducible apply State.hostPut_kept; exact mask_trans (by decide) hW)
    | with_reducible intro _ _ _

theorem execWeightRemove_kept {W s0 a0 a1 a2} (hW : 10997265860480 &&& W = 10997265860480) (h2 : Kept W s0 a2) :
    KeptO W s0 (execWeightRemove a0 a1 a2) := by
  unfold execWeightRemove
  repeat' first
    | with_reducible assumption
    | with_reducible apply kept_next
    | with_reducible apply kept_ite
    | (with_reducible apply State.onSlot_kept; exact mask_trans (by decide) hW)
    | (with_reducible apply State.finish_kept; exact mask_trans (by decide) hW)
    | (with_reducible apply State.freeCord_kept; exact mask_trans (by decide) hW)
    | (with_reducible apply State.stopProgramming_kept; exact mask_trans (by decide) hW)
    | with_reducible intro _ _ _

theorem execWeightShard_kept {W s0 a0 a1 a2 a3 a4 a5 a6 a7 a8} (hW : 8798240514019 &&& W = 8798240514019) (h8 : Kept W s0 a8) :
    KeptO W s0 (execWeightShard a0 a1 a2 a3 a4 a5 a6 a7 a8) := by
  unfold execWeightShard
  repeat' first
    | with_reducible assumption
    | with_reducible apply kept_next
    | with_reducible apply kept_ite
    | (with_reducible apply State.onSlot_kept; exact mask_trans (by decide) hW)
    | (with_reducible apply State.finish_kept; exact mask_trans (by decide) hW)
    | (with_reducible apply State.bump_kept; exact mask_trans (by decide) hW)
    | (with_reducible apply State.object_kept; exact mask_trans (by decide) hW)
    | (with_reducible apply State.shardArrived_kept; exact mask_trans (by decide) hW)
    | (with_reducible apply State.takeBuffers_kept; exact mask_trans (by decide) hW)
    | with_reducible intro _ _ _

end Sys2Proof.Machine
end

