-- ==== Sys2Proof/Laws/KeptBoundary.lean ====
section
/-! SUPPORT. What each operation leaves alone, and that it keeps the canonical form: step boundaries, programs and register writes. -/

set_option linter.all false
set_option linter.unreachableTactic false
set_option linter.unusedTactic false
set_option linter.unusedVariables false

namespace Sys2Proof.Machine

theorem State.deadline_kept {W s0 a0 a1} (hW : 266287976163 &&& W = 266287976163) (h0 : Kept W s0 a0) :
    Kept W s0 (State.deadline a0 a1).1 := by
  unfold State.deadline
  repeat' first
    | with_reducible assumption
    | with_reducible apply kept_ite_fst
    | (with_reducible apply State.closeReq_kept; exact mask_trans (by decide) hW)
    | (with_reducible apply State.pauseReq_kept; exact mask_trans (by decide) hW)

theorem State.freshTree_kept {W s0 a0 a1} (hW : 8589934594 &&& W = 8589934594) (h0 : Kept W s0 a0) :
    Kept W s0 (State.freshTree a0 a1) := by
  unfold State.freshTree
  repeat' first
    | with_reducible assumption
    | with_reducible apply kept_ite
    | (with_reducible apply State.bump_kept; exact mask_trans (by decide) hW)
    | (with_reducible apply State.setReq_kept; exact mask_trans (by decide) hW)
    | dsimp only
    | split

theorem State.pinAdapter_kept {W s0 a0 a1} (hW : 25769803776 &&& W = 25769803776) (h0 : Kept W s0 a0) :
    KeptOpt W s0 (State.pinAdapter a0 a1) := by
  unfold State.pinAdapter
  repeat' first
    | with_reducible assumption
    | (with_reducible apply State.unpin_kept; exact mask_trans (by decide) hW)
    | (with_reducible apply State.setReq_kept; exact mask_trans (by decide) hW)
    | (with_reducible apply State.setAdapter_kept; exact mask_trans (by decide) hW)
    | with_reducible apply kept_opt_ok
    | with_reducible exact kept_opt_no
    | with_reducible apply kept_ite_opt
    | dsimp only
    | split

theorem Forming.take_kept {W s0 a0 a1 a2 a3} (hW : 111669149795 &&& W = 111669149795) (h0 : Kept W s0 a0.st) :
    Kept W s0 (Forming.take a0 a1 a2 a3).st := by
  unfold Forming.take
  repeat' first
    | with_reducible assumption
    | (with_reducible apply State.appendPages_kept; exact mask_trans (by decide) hW)
    | (with_reducible apply State.setTable_kept; exact mask_trans (by decide) hW)
    | (with_reducible apply State.bump_kept; exact mask_trans (by decide) hW)
    | (with_reducible apply State.setReq_kept; exact mask_trans (by decide) hW)

theorem Forming.consider_kept {W s0 a0 a1} (hW : 266287976163 &&& W = 266287976163) (h0 : Kept W s0 a0.st) :
    Kept W s0 (Forming.consider a0 a1).st := by
  unfold Forming.consider
  repeat' first
    | with_reducible assumption
    | with_reducible apply kept_ite_Forming
    | (with_reducible apply State.deadline_kept; exact mask_trans (by decide) hW)
    | (with_reducible apply State.freshTree_kept; exact mask_trans (by decide) hW)
    | (with_reducible apply State.pauseReq_kept; exact mask_trans (by decide) hW)
    | (with_reducible apply State.bump_kept; exact mask_trans (by decide) hW)
    | (with_reducible apply State.pinAdapter_kept; exact mask_trans (by decide) hW)
    | (with_reducible apply Forming.take_kept; exact mask_trans (by decide) hW)
    | with_reducible apply kept_foldl
    | with_reducible intro _ _ _
    | (with_reducible apply kept_of_opt; assumption)
    | dsimp only
    | split

theorem State.after_kept {W s0 a0 a1} (hW : 0 &&& W = 0) (h0 : Kept W s0 a0) (h1 : KeptO W s0 a1) :
    Kept W s0 (State.after a0 a1) := by
  unfold State.after
  split
  · exact h1.of _ rfl
  · exact h0

theorem State.acts_kept {W s0 a0 a1} (h0 : Kept W s0 a0) (h1 : ∀ x ∈ a1, ∀ s, Kept W s0 s → KeptO W s0 (x.2 s)) :
    Kept W s0 (State.acts a0 a1) := by
  induction a1 generalizing a0 with
  | nil => exact h0
  | cons x r ih =>
    refine ih (kept_ite ?_ h0) (fun y hy => h1 y (List.mem_cons_of_mem _ hy))
    exact State.after_kept (W := W) (by simp) h0 (h1 x (by simp) _ h0)

theorem State.chCtrl_kept {W s0 a0 a1 a2} (hW : 2017 &&& W = 2017) (h0 : Kept W s0 a0) :
    Kept W s0 (State.chCtrl a0 a1 a2) := by
  unfold State.chCtrl
  repeat' first
    | with_reducible assumption
    | with_reducible apply State.acts_kept
    | with_reducible exact acts_nil
    | with_reducible apply acts_cons
    | (with_reducible apply execChCtrlOpen_kept; exact mask_trans (by decide) hW)
    | (with_reducible apply execChCtrlClose_kept; exact mask_trans (by decide) hW)
    | (with_reducible apply execChCtrlReset_kept; exact mask_trans (by decide) hW)
    | with_reducible intro _
    | split

theorem State.sysCal_kept {W s0 a0 a1} (hW : 549755813985 &&& W = 549755813985) (h0 : Kept W s0 a0) :
    Kept W s0 (State.sysCal a0 a1) := by
  unfold State.sysCal
  repeat' first
    | with_reducible assumption
    | (with_reducible apply State.after_kept; exact mask_trans (by decide) hW)
    | (with_reducible apply execSyscalZero_kept; exact mask_trans (by decide) hW)
    | (with_reducible apply execSyscalFull_kept; exact mask_trans (by decide) hW)
    | (with_reducible apply execSyscalSave_kept; exact mask_trans (by decide) hW)
    | dsimp only
    | split

theorem State.urgent_kept {W s0 a0 a1} (hW : 549755813891 &&& W = 549755813891) (h0 : Kept W s0 a0) :
    Kept W s0 (State.urgent a0 a1) := by
  unfold State.urgent
  repeat' first
    | with_reducible assumption
    | (with_reducible apply State.freeBelow_kept; exact mask_trans (by decide) hW)
    | (with_reducible apply State.after_kept; exact mask_trans (by decide) hW)
    | (with_reducible apply execHkUrgCtrl_kept; exact mask_trans (by decide) hW)

theorem State.hkAction_kept {W s0 a0 a1 a2} (hW : 108845209030371 &&& W = 108845209030371) (h0 : Kept W s0 a0) :
    Kept W s0 (State.hkAction a0 a1 a2) := by
  unfold State.hkAction
  repeat' first
    | with_reducible assumption
    | with_reducible apply kept_ite
    | (with_reducible apply State.sysCal_kept; exact mask_trans (by decide) hW)
    | (with_reducible apply State.urgent_kept; exact mask_trans (by decide) hW)
    | with_reducible apply State.acts_kept
    | with_reducible exact acts_nil
    | with_reducible apply acts_cons
    | (with_reducible apply execHkTdacGo_kept; exact mask_trans (by decide) hW)
    | (with_reducible apply execHkPartRelease_kept; exact mask_trans (by decide) hW)
    | (with_reducible apply execHkCtrClear_kept; exact mask_trans (by decide) hW)
    | with_reducible intro _

theorem State.portAction_kept {W s0 a0 a1 a2 a3} (hW : 2199023255651 &&& W = 2199023255651) (h0 : Kept W s0 a0) :
    Kept W s0 (State.portAction a0 a1 a2 a3) := by
  unfold State.portAction
  repeat' first
    | with_reducible assumption
    | with_reducible apply State.acts_kept
    | with_reducible exact acts_nil
    | with_reducible apply acts_cons
    | (with_reducible apply execRetrain_kept; exact mask_trans (by decide) hW)
    | (with_reducible apply execGpCtrClear_kept; exact mask_trans (by decide) hW)
    | (with_reducible apply execEnumStart_kept; exact mask_trans (by decide) hW)
    | (with_reducible apply execClearId_kept; exact mask_trans (by decide) hW)
    | (with_reducible apply execFabCtrClear_kept; exact mask_trans (by decide) hW)
    | (with_reducible apply execTopoCtrClear_kept; exact mask_trans (by decide) hW)
    | with_reducible intro _

theorem State.mdieAction_kept {W s0 a0 a1 a2 a3} (hW : 2 &&& W = 2) (h0 : Kept W s0 a0) :
    Kept W s0 (State.mdieAction a0 a1 a2 a3) := by
  unfold State.mdieAction
  repeat' first
    | with_reducible assumption
    | with_reducible apply State.acts_kept
    | with_reducible exact acts_nil
    | with_reducible apply acts_cons
    | (with_reducible apply execMemCtrClear_kept; exact mask_trans (by decide) hW)
    | (with_reducible apply execKvCtrClear_kept; exact mask_trans (by decide) hW)
    | (with_reducible apply execServeCtrClear_kept; exact mask_trans (by decide) hW)
    | (with_reducible apply execSyncCtrClear_kept; exact mask_trans (by decide) hW)
    | (with_reducible apply execWtCtrClear_kept; exact mask_trans (by decide) hW)
    | with_reducible intro _

theorem State.dieAction_kept {W s0 a0 a1 a2 a3} (hW : 268439554 &&& W = 268439554) (h0 : Kept W s0 a0) :
    Kept W s0 (State.dieAction a0 a1 a2 a3) := by
  unfold State.dieAction
  repeat' first
    | with_reducible assumption
    | with_reducible apply State.acts_kept
    | with_reducible exact acts_nil
    | with_reducible apply acts_cons
    | (with_reducible apply execAeCtrClear_kept; exact mask_trans (by decide) hW)
    | (with_reducible apply execDcCtrClear_kept; exact mask_trans (by decide) hW)
    | (with_reducible apply execCalRequest_kept; exact mask_trans (by decide) hW)
    | (with_reducible apply execCalCtrClear_kept; exact mask_trans (by decide) hW)
    | (with_reducible apply execSpCtrClear_kept; exact mask_trans (by decide) hW)
    | (with_reducible apply execAttCtrClear_kept; exact mask_trans (by decide) hW)
    | (with_reducible apply execWqCtrClear_kept; exact mask_trans (by decide) hW)
    | (with_reducible apply execSeCtrClear_kept; exact mask_trans (by decide) hW)
    | with_reducible intro _

theorem State.action_kept {W s0 a0 a1 a2 a3} (hW : 108845477470179 &&& W = 108845477470179) (h0 : Kept W s0 a0) :
    Kept W s0 (State.action a0 a1 a2 a3) := by
  unfold State.action
  repeat' first
    | with_reducible assumption
    | with_reducible apply kept_ite
    | (with_reducible apply State.chCtrl_kept; exact mask_trans (by decide) hW)
    | with_reducible apply State.acts_kept
    | with_reducible exact acts_nil
    | with_reducible apply acts_cons
    | (with_reducible apply execEvCtrlEnable_kept; exact mask_trans (by decide) hW)
    | (with_reducible apply execEvCtrlDisable_kept; exact mask_trans (by decide) hW)
    | (with_reducible apply execEvCtrClear_kept; exact mask_trans (by decide) hW)
    | (with_reducible apply State.hkAction_kept; exact mask_trans (by decide) hW)
    | (with_reducible apply execPwrCtrClear_kept; exact mask_trans (by decide) hW)
    | (with_reducible apply execBootCtrClear_kept; exact mask_trans (by decide) hW)
    | (with_reducible apply execSecCtrClear_kept; exact mask_trans (by decide) hW)
    | (with_reducible apply State.portAction_kept; exact mask_trans (by decide) hW)
    | (with_reducible apply State.mdieAction_kept; exact mask_trans (by decide) hW)
    | (with_reducible apply State.dieAction_kept; exact mask_trans (by decide) hW)
    | with_reducible intro _
    | split

theorem State.addAtom_kept {W s0 a0 a1 a2} (hW : 6144 &&& W = 6144) (h0 : Kept W s0 a0) :
    Kept W s0 (State.addAtom a0 a1 a2) := by
  unfold State.addAtom
  repeat' first
    | with_reducible assumption
    | (with_reducible apply State.setTile_kept; exact mask_trans (by decide) hW)
    | fail_if_no_progress (with_reducible apply kept_memctl; exact mask_trans (by decide) hW; exact ⟨rfl, rfl, rfl, rfl⟩)
    | with_reducible apply kept_foldl
    | with_reducible intro _ _ _

theorem State.logStep_kept {W s0 a0 a1 a2} (hW : 146028888064 &&& W = 146028888064) (h0 : Kept W s0 a0) :
    Kept W s0 (State.logStep a0 a1 a2) := by
  unfold State.logStep
  repeat' first
    | with_reducible assumption
    | (with_reducible apply State.setReq_kept; exact mask_trans (by decide) hW)
    | fail_if_no_progress (with_reducible apply kept_step; exact mask_trans (by decide) hW)
    | with_reducible apply kept_foldl
    | with_reducible intro _ _ _

theorem State.admission_kept {W s0 a0} (hW : 266287976163 &&& W = 266287976163) (h0 : Kept W s0 a0) :
    Kept W s0 (State.admission a0) := by
  unfold State.admission
  repeat' first
    | with_reducible assumption
    | (with_reducible apply Forming.consider_kept; exact mask_trans (by decide) hW)
    | (with_reducible apply State.logStep_kept; exact mask_trans (by decide) hW)
    | fail_if_no_progress (with_reducible apply kept_step; exact mask_trans (by decide) hW)
    | with_reducible apply kept_foldl_Forming
    | with_reducible intro _ _ _
    | dsimp only
    | split

theorem State.applyPolicies_kept {W s0 a0} (hW : 67108876 &&& W = 67108876) (h0 : Kept W s0 a0) :
    Kept W s0 (State.applyPolicies a0) := by
  unfold State.applyPolicies
  repeat' first
    | with_reducible assumption
    | fail_if_no_progress (with_reducible apply kept_live_staged_stats; exact mask_trans (by decide) hW)

theorem State.commitEnds_kept {W s0 a0} (hW : 1680 &&& W = 1680) (h0 : Kept W s0 a0) :
    Kept W s0 (State.commitEnds a0) := by
  unfold State.commitEnds
  repeat' first
    | with_reducible assumption
    | with_reducible apply kept_ite
    | (with_reducible apply State.finish_kept; exact mask_trans (by decide) hW)
    | fail_if_no_progress (with_reducible apply kept_commit; exact mask_trans (by decide) hW)
    | dsimp only
    | split

theorem State.powerBanks_kept {W s0 a0 a1 a2} (hW : 4096 &&& W = 4096) (h0 : Kept W s0 a0) :
    Kept W s0 (State.powerBanks a0 a1 a2) := by
  unfold State.powerBanks
  repeat' first
    | with_reducible assumption
    | fail_if_no_progress (with_reducible apply kept_memctl; exact mask_trans (by decide) hW; exact ⟨rfl, rfl, rfl, rfl⟩)

theorem State.applyCommit_kept {W s0 a0 a1} (hW : 67638942 &&& W = 67638942) (h0 : Kept W s0 a0) :
    Kept W s0 (State.applyCommit a0 a1) := by
  unfold State.applyCommit
  repeat' first
    | with_reducible assumption
    | (with_reducible apply State.applyPolicies_kept; exact mask_trans (by decide) hW)
    | (with_reducible apply State.setReg_kept; exact mask_trans (by decide) hW)
    | (with_reducible apply State.commitEnds_kept; exact mask_trans (by decide) hW)
    | (with_reducible apply State.powerBanks_kept; exact mask_trans (by decide) hW)
    | fail_if_no_progress (with_reducible apply kept_live_commit_boot; exact mask_trans (by decide) hW)

theorem State.truncated_kept {W s0 a0 a1 a2} (hW : 8589936355 &&& W = 8589936355) (h0 : Kept W s0 a0) :
    Kept W s0 (State.truncated a0 a1 a2) := by
  unfold State.truncated
  repeat' first
    | with_reducible assumption
    | with_reducible apply kept_ite
    | (with_reducible apply State.pauseReq_kept; exact mask_trans (by decide) hW)
    | (with_reducible apply State.bump_kept; exact mask_trans (by decide) hW)
    | (with_reducible apply State.requestEvent_kept; exact mask_trans (by decide) hW)

theorem State.markTouched_kept {W s0 a0 a1 a2} (hW : 42949674723 &&& W = 42949674723) (h0 : Kept W s0 a0) :
    Kept W s0 (State.markTouched a0 a1 a2) := by
  unfold State.markTouched
  repeat' first
    | with_reducible assumption
    | with_reducible apply kept_ite
    | (with_reducible apply State.truncated_kept; exact mask_trans (by decide) hW)
    | (with_reducible apply State.stopMove_kept; exact mask_trans (by decide) hW)
    | (with_reducible apply State.bump_kept; exact mask_trans (by decide) hW)
    | (with_reducible apply State.setReq_kept; exact mask_trans (by decide) hW)
    | dsimp only
    | split

theorem State.applyWindow_kept {W s0 a0 a1} (hW : 42949674723 &&& W = 42949674723) (h0 : Kept W s0 a0) :
    Kept W s0 (State.applyWindow a0 a1) := by
  unfold State.applyWindow
  repeat' first
    | with_reducible assumption
    | (with_reducible apply State.raise_kept; exact mask_trans (by decide) hW)
    | (with_reducible apply State.markTouched_kept; exact mask_trans (by decide) hW)
    | with_reducible apply kept_foldl
    | with_reducible intro _ _ _

theorem State.applyWindows_kept {W s0 a0} (hW : 317827581667 &&& W = 317827581667) (h0 : Kept W s0 a0) :
    Kept W s0 (State.applyWindows a0) := by
  unfold State.applyWindows
  repeat' first
    | with_reducible assumption
    | (with_reducible apply State.applyWindow_kept; exact mask_trans (by decide) hW)
    | fail_if_no_progress (with_reducible apply kept_det; exact mask_trans (by decide) hW)
    | with_reducible apply kept_foldl
    | with_reducible intro _ _ _

theorem State.exerciseDone_kept {W s0 a0 a1 a2} (hW : 74079791380579 &&& W = 74079791380579) (h0 : Kept W s0 a0) :
    Kept W s0 (State.exerciseDone a0 a1 a2) := by
  unfold State.exerciseDone
  repeat' first
    | with_reducible assumption
    | with_reducible apply kept_ite
    | (with_reducible apply State.setPosition_kept; exact mask_trans (by decide) hW)
    | (with_reducible apply State.scanSwapIn_kept; exact mask_trans (by decide) hW)
    | with_reducible apply kept_foldl
    | with_reducible intro _ _ _

theorem State.arrayBoundary_kept {W s0 a0} (hW : 82878837194467 &&& W = 82878837194467) (h0 : Kept W s0 a0) :
    Kept W s0 (State.arrayBoundary a0) := by
  unfold State.arrayBoundary
  repeat' first
    | with_reducible assumption
    | (with_reducible apply State.mapBoundary_kept; exact mask_trans (by decide) hW)
    | (with_reducible apply State.flipBoundary_kept; exact mask_trans (by decide) hW)
    | (with_reducible apply State.calCommit_kept; exact mask_trans (by decide) hW)
    | (with_reducible apply State.exerciseDone_kept; exact mask_trans (by decide) hW)
    | (with_reducible apply State.setCal_kept; exact mask_trans (by decide) hW)
    | (with_reducible apply State.calCheck_kept; exact mask_trans (by decide) hW)
    | fail_if_no_progress (with_reducible apply kept_epoch; exact mask_trans (by decide) hW)
    | with_reducible apply kept_foldl
    | with_reducible intro _ _ _

theorem State.writeRw_kept {W s0 a0 a1 a2 a3 a4 a5} (hW : 99 &&& W = 99) (h0 : Kept W s0 a0) :
    Kept W s0 (State.writeRw a0 a1 a2 a3 a4 a5) := by
  unfold State.writeRw
  repeat' first
    | with_reducible assumption
    | (with_reducible apply State.raise_kept; exact mask_trans (by decide) hW)
    | (with_reducible apply State.setReg_kept; exact mask_trans (by decide) hW)
    | split

theorem State.stageReg_kept {W s0 a0 a1 a2 a3} (hW : 8 &&& W = 8) (h0 : Kept W s0 a0) :
    Kept W s0 (State.stageReg a0 a1 a2 a3) := by
  unfold State.stageReg
  repeat' first
    | with_reducible assumption
    | fail_if_no_progress (with_reducible apply kept_staged; exact mask_trans (by decide) hW)
    | dsimp only
    | split

theorem State.writeReg_kept {W s0 a0 a1 a2 a3 a4} (hW : 108845477470187 &&& W = 108845477470187) (h0 : Kept W s0 a0) :
    Kept W s0 (State.writeReg a0 a1 a2 a3 a4) := by
  unfold State.writeReg
  repeat' first
    | with_reducible assumption
    | with_reducible apply kept_ite
    | (with_reducible apply State.writeRw_kept; exact mask_trans (by decide) hW)
    | (with_reducible apply State.stageReg_kept; exact mask_trans (by decide) hW)
    | (with_reducible apply State.action_kept; exact mask_trans (by decide) hW)
    | split

theorem State.stageTick_kept {W s0 a0} (hW : 2 &&& W = 2) (h0 : Kept W s0 a0) :
    Kept W s0 (State.stageTick a0) := by
  unfold State.stageTick
  repeat' first
    | with_reducible assumption
    | (with_reducible apply State.setReg_kept; exact mask_trans (by decide) hW)

theorem State.bar0Write_kept {W s0 a0 a1 a2 a3} (hW : 108845477470187 &&& W = 108845477470187) (h0 : Kept W s0 a0) :
    Kept W s0 (State.bar0Write a0 a1 a2 a3) := by
  unfold State.bar0Write
  repeat' first
    | with_reducible assumption
    | with_reducible apply kept_ite
    | (with_reducible apply State.writeReg_kept; exact mask_trans (by decide) hW)
    | (with_reducible apply State.stageTick_kept; exact mask_trans (by decide) hW)
    | with_reducible apply kept_foldl
    | with_reducible intro _ _ _

theorem State.barError_kept {W s0 a0 a1 a2} (hW : 97 &&& W = 97) (h0 : Kept W s0 a0) :
    Kept W s0 (State.barError a0 a1 a2) := by
  unfold State.barError
  repeat' first
    | with_reducible assumption
    | (with_reducible apply State.raise_kept; exact mask_trans (by decide) hW)

theorem State.portSwitch_kept {W s0 a0 a1} (hW : 2199023255554 &&& W = 2199023255554) (h0 : Kept W s0 a0) :
    Kept W s0 (State.portSwitch a0 a1) := by
  unfold State.portSwitch
  repeat' first
    | with_reducible assumption
    | with_reducible apply kept_ite
    | (with_reducible apply State.setPort_kept; exact mask_trans (by decide) hW)
    | (with_reducible apply State.dropPort_kept; exact mask_trans (by decide) hW)
    | (with_reducible apply State.reroute_kept; exact mask_trans (by decide) hW)

theorem State.blockSwitch_kept {W s0 a0 a1 a2} (hW : 6597069766678 &&& W = 6597069766678) (h0 : Kept W s0 a0) :
    Kept W s0 (State.blockSwitch a0 a1 a2) := by
  unfold State.blockSwitch
  repeat' first
    | with_reducible assumption
    | with_reducible apply kept_ite
    | (with_reducible apply State.portSwitch_kept; exact mask_trans (by decide) hW)
    | (with_reducible apply State.clearRings_kept; exact mask_trans (by decide) hW)
    | fail_if_no_progress (with_reducible apply kept_live_commit; exact mask_trans (by decide) hW)

theorem State.excludeAll_kept {W s0 a0} (hW : 146028889825 &&& W = 146028889825) (h0 : Kept W s0 a0) :
    Kept W s0 (State.excludeAll a0) := by
  unfold State.excludeAll
  repeat' first
    | with_reducible assumption
    | (with_reducible apply State.pauseReq_kept; exact mask_trans (by decide) hW)
    | fail_if_no_progress (with_reducible apply kept_step; exact mask_trans (by decide) hW)
    | with_reducible apply kept_foldl
    | with_reducible intro _ _ _

theorem State.park_kept {W s0 a0 a1} (hW : 42949674723 &&& W = 42949674723) (h0 : Kept W s0 a0) :
    Kept W s0 (State.park a0 a1) := by
  unfold State.park
  repeat' first
    | with_reducible assumption
    | with_reducible apply kept_ite
    | (with_reducible apply State.setTable_kept; exact mask_trans (by decide) hW)
    | (with_reducible apply State.stageEdit_kept; exact mask_trans (by decide) hW)
    | (with_reducible apply State.setReq_kept; exact mask_trans (by decide) hW)
    | (with_reducible apply State.bump_kept; exact mask_trans (by decide) hW)
    | (with_reducible apply State.requestEvent_kept; exact mask_trans (by decide) hW)
    | (with_reducible apply State.warnExpiry_kept; exact mask_trans (by decide) hW)

theorem State.hostPause_kept {W s0 a0 a1} (hW : 42949674721 &&& W = 42949674721) (h0 : Kept W s0 a0) :
    Kept W s0 (State.hostPause a0 a1) := by
  unfold State.hostPause
  repeat' first
    | with_reducible assumption
    | with_reducible apply kept_ite
    | (with_reducible apply State.pauseReq_kept; exact mask_trans (by decide) hW)
    | (with_reducible apply State.startMove_kept; exact mask_trans (by decide) hW)

theorem State.rewinds_kept {W s0 a0 a1} (hW : 42949674721 &&& W = 42949674721) (h0 : Kept W s0 a0) :
    Kept W s0 (State.rewinds a0 a1) := by
  unfold State.rewinds
  repeat' first
    | with_reducible assumption
    | with_reducible apply kept_ite
    | (with_reducible apply State.rewindReq_kept; exact mask_trans (by decide) hW)
    | (with_reducible apply State.requestEvent_kept; exact mask_trans (by decide) hW)
    | (with_reducible apply State.pauseReq_kept; exact mask_trans (by decide) hW)
    | split

theorem State.unpark_kept {W s0 a0 a1} (hW : 42949674723 &&& W = 42949674723) (h0 : Kept W s0 a0) :
    Kept W s0 (State.unpark a0 a1) := by
  unfold State.unpark
  repeat' first
    | with_reducible assumption
    | with_reducible apply kept_ite
    | (with_reducible apply State.setTable_kept; exact mask_trans (by decide) hW)
    | (with_reducible apply State.setReq_kept; exact mask_trans (by decide) hW)
    | (with_reducible apply State.bump_kept; exact mask_trans (by decide) hW)
    | (with_reducible apply State.releaseExtent_kept; exact mask_trans (by decide) hW)
    | (with_reducible apply State.resumeReq_kept; exact mask_trans (by decide) hW)

theorem State.requestBoundary_kept {W s0 a0 a1} (hW : 266287976163 &&& W = 266287976163) (h0 : Kept W s0 a0) :
    Kept W s0 (State.requestBoundary a0 a1) := by
  unfold State.requestBoundary
  repeat' first
    | with_reducible assumption
    | with_reducible apply kept_ite
    | (with_reducible apply State.park_kept; exact mask_trans (by decide) hW)
    | (with_reducible apply State.closeReq_kept; exact mask_trans (by decide) hW)
    | (with_reducible apply State.hostPause_kept; exact mask_trans (by decide) hW)
    | (with_reducible apply State.resumeReq_kept; exact mask_trans (by decide) hW)
    | (with_reducible apply State.rewinds_kept; exact mask_trans (by decide) hW)
    | (with_reducible apply State.unpark_kept; exact mask_trans (by decide) hW)

theorem State.requestsBoundary_kept {W s0 a0} (hW : 266287976163 &&& W = 266287976163) (h0 : Kept W s0 a0) :
    Kept W s0 (State.requestsBoundary a0) := by
  unfold State.requestsBoundary
  repeat' first
    | with_reducible assumption
    | (with_reducible apply State.requestBoundary_kept; exact mask_trans (by decide) hW)
    | with_reducible apply kept_foldl
    | with_reducible intro _ _ _

theorem State.endEngine_kept {W s0 a0 a1} (hW : 1075839075 &&& W = 1075839075) (h0 : Kept W s0 a0) :
    Kept W s0 (State.endEngine a0 a1) := by
  unfold State.endEngine
  repeat' first
    | with_reducible assumption
    | (with_reducible apply State.setEngine_kept; exact mask_trans (by decide) hW)
    | (with_reducible apply State.closeVisits_kept; exact mask_trans (by decide) hW)

theorem State.endStep_kept {W s0 a0} (hW : 138766450787 &&& W = 138766450787) (h0 : Kept W s0 a0) :
    Kept W s0 (State.endStep a0) := by
  unfold State.endStep
  repeat' first
    | with_reducible assumption
    | (with_reducible apply State.endEngine_kept; exact mask_trans (by decide) hW)
    | fail_if_no_progress (with_reducible apply kept_verdicts_runs_stats_troubles_step; exact mask_trans (by decide) hW)
    | with_reducible apply kept_foldl
    | with_reducible intro _ _ _

theorem State.substituteLost_kept {W s0 a0 a1} (hW : 70781063403619 &&& W = 70781063403619) (h0 : Kept W s0 a0) :
    Kept W s0 (State.substituteLost a0 a1) := by
  unfold State.substituteLost
  repeat' first
    | with_reducible assumption
    | with_reducible apply kept_ite
    | (with_reducible apply State.reloadRegions_kept; exact mask_trans (by decide) hW)
    | (with_reducible apply State.substitute_kept; exact mask_trans (by decide) hW)
    | (with_reducible apply State.pauseDie_kept; exact mask_trans (by decide) hW)
    | (with_reducible apply State.raise_kept; exact mask_trans (by decide) hW)
    | fail_if_no_progress (with_reducible apply kept_det; exact mask_trans (by decide) hW)

theorem State.pinLayer_kept {W s0 a0 a1 a2} (hW : 67108961 &&& W = 67108961) (h0 : Kept W s0 a0) :
    Kept W s0 (State.pinLayer a0 a1 a2) := by
  unfold State.pinLayer
  repeat' first
    | with_reducible assumption
    | with_reducible apply kept_ite
    | (with_reducible apply State.raise_kept; exact mask_trans (by decide) hW)
    | fail_if_no_progress (with_reducible apply kept_stats; exact mask_trans (by decide) hW)
    | split

theorem State.pinBoundary_kept {W s0 a0} (hW : 67108961 &&& W = 67108961) (h0 : Kept W s0 a0) :
    Kept W s0 (State.pinBoundary a0) := by
  unfold State.pinBoundary
  repeat' first
    | with_reducible assumption
    | (with_reducible apply State.pinLayer_kept; exact mask_trans (by decide) hW)
    | with_reducible apply kept_foldl
    | with_reducible intro _ _ _
    | split

theorem State.rejected_kept {W s0 a0 a1 a2} (hW : 2 &&& W = 2) (h0 : Kept W s0 a0) :
    Kept W s0 (State.rejected a0 a1 a2) := by
  unfold State.rejected
  repeat' first
    | with_reducible assumption
    | (with_reducible apply State.setReg_kept; exact mask_trans (by decide) hW)

theorem State.commitBoundary_kept {W s0 a0} (hW : 67638942 &&& W = 67638942) (h0 : Kept W s0 a0) :
    Kept W s0 (State.commitBoundary a0) := by
  unfold State.commitBoundary
  repeat' first
    | with_reducible assumption
    | with_reducible apply kept_ite
    | (with_reducible apply State.finish_kept; exact mask_trans (by decide) hW)
    | (with_reducible apply State.rejected_kept; exact mask_trans (by decide) hW)
    | (with_reducible apply State.applyCommit_kept; exact mask_trans (by decide) hW)
    | fail_if_no_progress (with_reducible apply kept_commit; exact mask_trans (by decide) hW)
    | dsimp only
    | split

theorem State.boundaryWork_kept {W s0 a0} (hW : 140733188112383 &&& W = 140733188112383) (h0 : Kept W s0 a0) :
    Kept W s0 (State.boundaryWork a0) := by
  unfold State.boundaryWork
  repeat' first
    | with_reducible assumption
    | (with_reducible apply State.kvBoundary_kept; exact mask_trans (by decide) hW)
    | (with_reducible apply State.requestsBoundary_kept; exact mask_trans (by decide) hW)
    | (with_reducible apply State.applyWindows_kept; exact mask_trans (by decide) hW)
    | (with_reducible apply State.endStep_kept; exact mask_trans (by decide) hW)
    | (with_reducible apply State.adapterBoundary_kept; exact mask_trans (by decide) hW)
    | (with_reducible apply State.arrayBoundary_kept; exact mask_trans (by decide) hW)
    | (with_reducible apply State.substituteLost_kept; exact mask_trans (by decide) hW)
    | (with_reducible apply State.pinBoundary_kept; exact mask_trans (by decide) hW)
    | (with_reducible apply State.topoBoundary_kept; exact mask_trans (by decide) hW)
    | (with_reducible apply State.attestBoundary_kept; exact mask_trans (by decide) hW)
    | (with_reducible apply State.commitBoundary_kept; exact mask_trans (by decide) hW)
    | (with_reducible apply State.hkBoundary_kept; exact mask_trans (by decide) hW)
    | (with_reducible apply State.resetBoundary_kept; exact mask_trans (by decide) hW)
    | (with_reducible apply State.scanBoundary_kept; exact mask_trans (by decide) hW)
    | with_reducible apply kept_foldl
    | with_reducible intro _ _ _

theorem State.boundary_kept {W s0 a0 a1} (hW : 140733192306687 &&& W = 140733192306687) (h0 : Kept W s0 a0) :
    Kept W s0 (State.boundary a0 a1) := by
  unfold State.boundary
  repeat' first
    | with_reducible assumption
    | (with_reducible apply State.admission_kept; exact mask_trans (by decide) hW)
    | (with_reducible apply State.excludeAll_kept; exact mask_trans (by decide) hW)
    | (with_reducible apply State.fleetSlice_kept; exact mask_trans (by decide) hW)
    | (with_reducible apply State.boundaryWork_kept; exact mask_trans (by decide) hW)
    | fail_if_no_progress (with_reducible apply kept_topo_inst; exact mask_trans (by decide) hW)
    | with_reducible apply kept_foldl
    | with_reducible intro _ _ _

theorem State.closeWindows_kept {W s0 a0 a1} (hW : 2199023255552 &&& W = 2199023255552) (h0 : Kept W s0 a0) :
    Kept W s0 (State.closeWindows a0 a1) := by
  unfold State.closeWindows
  repeat' first
    | with_reducible assumption
    | with_reducible apply kept_ite
    | (with_reducible apply State.setWin_kept; exact mask_trans (by decide) hW)
    | with_reducible apply kept_foldl
    | with_reducible intro _ _ _

theorem State.collWindow_kept {W s0 a0 a1 a2} (hW : 2199023255649 &&& W = 2199023255649) (h0 : Kept W s0 a0) :
    KeptOpt W s0 (State.collWindow a0 a1 a2) := by
  unfold State.collWindow
  generalize (List.range 1023).reverse.find? (fun n => (a0.win n).st == .closed) = o
  cases o with
  | none => exact kept_opt_no
  | some n => exact kept_ite_opt (kept_opt_ok (State.winOpen_kept (mask_trans (by decide) hW) h0)) kept_opt_no

theorem State.fabricRun_kept {W s0 a0 a1 a2 a3} (hW : 2199023257569 &&& W = 2199023257569) (h0 : Kept W s0 a0) :
    Kept W s0 (State.fabricRun a0 a1 a2 a3) := by
  unfold State.fabricRun
  repeat' first
    | with_reducible assumption
    | (with_reducible apply State.callOpen_kept; exact mask_trans (by decide) hW)
    | (with_reducible apply State.callClose_kept; exact mask_trans (by decide) hW)
    | (with_reducible apply State.callQuery_kept; exact mask_trans (by decide) hW)
    | (with_reducible apply State.finish_kept; exact mask_trans (by decide) hW)
    | split

theorem State.freeAtoms_kept {W s0 a0 a1} (hW : 6144 &&& W = 6144) (h0 : Kept W s0 a0) :
    Kept W s0 (State.freeAtoms a0 a1) := by
  unfold State.freeAtoms
  apply kept_foldl
  · intro s r h
    apply kept_foldl _ _ h
    intro s i h
    exact State.setTile_kept (mask_trans (by decide) hW) h
  · exact kept_atomGuard (mask_trans (by decide) hW) (mask_trans (by decide) hW) (fun h => wf_eraseRanges _ _ _ h) h0

theorem State.placeParts_kept {W s0 a0 a1 a2 a3} (hW : 6243 &&& W = 6243) (h0 : Kept W s0 a0) :
    Kept W s0 (State.placeParts a0 a1 a2 a3) := by
  unfold State.placeParts
  repeat' first
    | with_reducible assumption
    | with_reducible apply kept_ite
    | (with_reducible apply State.write_kept; exact mask_trans (by decide) hW)
    | with_reducible apply kept_foldl
    | with_reducible intro _ _ _

theorem State.resetShadows_kept {W s0 a0 a1} (hW : 2097152 &&& W = 2097152) (h0 : Kept W s0 a0) :
    Kept W s0 (State.resetShadows a0 a1) := by
  unfold State.resetShadows
  repeat' first
    | with_reducible assumption
    | (with_reducible apply State.setEngine_kept; exact mask_trans (by decide) hW)
    | with_reducible apply kept_foldl
    | with_reducible intro _ _ _

theorem State.setStats_kept {W s0 a0 a1 a2 a3} (hW : 67108864 &&& W = 67108864) (h0 : Kept W s0 a0) :
    Kept W s0 (State.setStats a0 a1 a2 a3) := by
  unfold State.setStats
  repeat' first
    | with_reducible assumption
    | fail_if_no_progress (with_reducible apply kept_stats; exact mask_trans (by decide) hW)

theorem State.setPolicies_kept {W s0 a0 a1 a2 a3} (hW : 28 &&& W = 28) (h0 : Kept W s0 a0) :
    Kept W s0 (State.setPolicies a0 a1 a2 a3) := by
  unfold State.setPolicies
  repeat' first
    | with_reducible assumption
    | fail_if_no_progress (with_reducible apply kept_live_staged_commit; exact mask_trans (by decide) hW)

theorem State.raiseSlots_kept {W s0 a0 a1} (hW : 68719476736 &&& W = 68719476736) (h0 : Kept W s0 a0) :
    Kept W s0 (State.raiseSlots a0 a1) := by
  unfold State.raiseSlots
  repeat' first
    | with_reducible assumption
    | with_reducible apply kept_ite
    | (with_reducible apply State.setPool_kept; exact mask_trans (by decide) hW)
    | with_reducible apply kept_foldl
    | with_reducible intro _ _ _

theorem State.installed_kept {W s0 a0 a1 a2 a3 a4} (hW : 73083656319 &&& W = 73083656319) (h0 : Kept W s0 a0) :
    Kept W s0 (State.installed a0 a1 a2 a3 a4) := by
  unfold State.installed
  repeat' first
    | with_reducible assumption
    | (with_reducible apply State.addAtom_kept; exact mask_trans (by decide) hW)
    | (with_reducible apply State.placeParts_kept; exact mask_trans (by decide) hW)
    | (with_reducible apply State.resetShadows_kept; exact mask_trans (by decide) hW)
    | (with_reducible apply State.setStats_kept; exact mask_trans (by decide) hW)
    | (with_reducible apply State.setPolicies_kept; exact mask_trans (by decide) hW)
    | (with_reducible apply State.raiseSlots_kept; exact mask_trans (by decide) hW)
    | fail_if_no_progress (with_reducible apply kept_images; exact mask_trans (by decide) hW)
    | with_reducible apply kept_foldl
    | with_reducible intro _ _ _

theorem State.takeObject_kept {W s0 a0 a1} (hW : 65536 &&& W = 65536) (h0 : KeptEx2 W s0 a0) :
    KeptEx2 W s0 (State.takeObject a0 a1) := by
  rcases a0 with e | ⟨s, l⟩
  · exact kept_ex2_no
  · unfold State.takeObject
    dsimp only
    generalize s.freeObj a1 = o
    cases o with
    | none => exact kept_ex2_no
    | some n => exact kept_ex2_ok (State.setObj_kept (mask_trans (by decide) hW) (h0.of _ _ rfl))

theorem State.takeObjects_kept {W s0 a0 a1} (hW : 65536 &&& W = 65536) (h0 : Kept W s0 a0) :
    KeptEx2 W s0 (State.takeObjects a0 a1) := by
  have key : ∀ (l : List Nat) (x : Except Reject (State × List Nat)), KeptEx2 W s0 x → KeptEx2 W s0 (l.foldl State.takeObject x) := by
    intro l
    induction l with
    | nil => exact fun _ h => h
    | cons y r ih => exact fun x h => ih _ (State.takeObject_kept (mask_trans (by decide) hW) h)
  exact key _ _ (kept_ex2_ok h0)

theorem State.takeRegions_kept {W s0 a0 a1 a2} (hW : 6243 &&& W = 6243) (h0 : Kept W s0 a0) :
    KeptEx W s0 (State.takeRegions a0 a1 a2) := by
  induction a2 generalizing a0 with
  | nil => exact kept_ex_ok h0
  | cons r t ih =>
    unfold State.takeRegions
    refine kept_ite_ex kept_ex_no (ih ?_)
    split
    · exact State.copy_kept (mask_trans (by decide) hW) (State.declare_kept (mask_trans (by decide) hW) h0)
    · exact State.declare_kept (mask_trans (by decide) hW) h0

theorem State.takeWindow_kept {W s0 a0 a1} (hW : 2199023255649 &&& W = 2199023255649) (h0 : KeptEx W s0 a0) :
    KeptEx W s0 (State.takeWindow a0 a1) := by
  cases a0 with
  | error e => exact kept_ex_no
  | ok s =>
    have hc := State.collWindow_kept (W := W) (a0 := s) (a1 := a1.1) (a2 := a1.2) (mask_trans (by decide) hW) (h0.of _ rfl)
    unfold State.takeWindow
    dsimp only
    generalize s.collWindow a1.1 a1.2 = o at hc ⊢
    cases o with
    | none => exact kept_ex_no
    | some t => exact kept_ex_ok (hc.of _ rfl)

theorem State.takeWindows_kept {W s0 a0 a1} (hW : 2199023255649 &&& W = 2199023255649) (h0 : Kept W s0 a0) :
    KeptEx W s0 (State.takeWindows a0 a1) := by
  have key : ∀ (l : List _) (x : Except Reject State), KeptEx W s0 x → KeptEx W s0 (l.foldl State.takeWindow x) := by
    intro l
    induction l with
    | nil => exact fun _ h => h
    | cons y r ih => exact fun x h => ih _ (State.takeWindow_kept (mask_trans (by decide) hW) h)
  exact key _ _ (kept_ex_ok h0)

theorem State.loadImage_kept {W s0 a0 a1 a2 a3 a4} (hW : 2272106977407 &&& W = 2272106977407) (h0 : Kept W s0 a0) :
    KeptEx W s0 (State.loadImage a0 a1 a2 a3 a4) := by
  unfold State.loadImage
  repeat' first
    | with_reducible assumption
    | (with_reducible apply State.takeObjects_kept; exact mask_trans (by decide) hW)
    | (with_reducible apply State.takeRegions_kept; exact mask_trans (by decide) hW)
    | (with_reducible apply State.takeWindows_kept; exact mask_trans (by decide) hW)
    | (with_reducible apply State.installed_kept; exact mask_trans (by decide) hW)
    | with_reducible apply kept_ex_ok
    | with_reducible exact kept_ex_no
    | (with_reducible apply kept_of_ex; assumption)
    | (with_reducible apply kept_of_ex2; assumption)
    | split

theorem State.stageEntry_kept {W s0 a0 a1} (hW : 8 &&& W = 8) (h0 : Kept W s0 a0) :
    Kept W s0 (State.stageEntry a0 a1) := by
  unfold State.stageEntry
  repeat' first
    | with_reducible assumption
    | with_reducible apply kept_ite
    | (with_reducible apply State.stageReg_kept; exact mask_trans (by decide) hW)
    | fail_if_no_progress (with_reducible apply kept_staged; exact mask_trans (by decide) hW)
    | split

theorem State.unloaded_kept {W s0 a0 a1 a2} (hW : 3715406985343 &&& W = 3715406985343) (h0 : Kept W s0 a0) :
    Kept W s0 (State.unloaded a0 a1 a2) := by
  unfold State.unloaded
  repeat' first
    | with_reducible assumption
    | (with_reducible apply State.objFree_kept; exact mask_trans (by decide) hW)
    | (with_reducible apply State.closeWindows_kept; exact mask_trans (by decide) hW)
    | (with_reducible apply State.freeAtoms_kept; exact mask_trans (by decide) hW)
    | (with_reducible apply State.freeRegions_kept; exact mask_trans (by decide) hW)
    | (with_reducible apply State.setStats_kept; exact mask_trans (by decide) hW)
    | (with_reducible apply State.setPolicies_kept; exact mask_trans (by decide) hW)
    | fail_if_no_progress (with_reducible apply kept_images; exact mask_trans (by decide) hW)
    | with_reducible apply kept_foldl
    | with_reducible intro _ _ _

theorem execBar0InvalidAccess_kept {W s0 a0 a1 a2 a3} (hW : 97 &&& W = 97) (h3 : Kept W s0 a3) :
    KeptO W s0 (execBar0InvalidAccess a0 a1 a2 a3) := by
  unfold execBar0InvalidAccess
  repeat' first
    | with_reducible assumption
    | with_reducible apply kept_next
    | with_reducible apply kept_ite
    | (with_reducible apply State.barError_kept; exact mask_trans (by decide) hW)

theorem execBar0Write_kept {W s0 a0 a1 a2 a3} (hW : 108845477470187 &&& W = 108845477470187) (h3 : Kept W s0 a3) :
    KeptO W s0 (execBar0Write a0 a1 a2 a3) := by
  unfold execBar0Write
  repeat' first
    | with_reducible assumption
    | with_reducible apply kept_next
    | with_reducible apply kept_ite
    | (with_reducible apply State.bar0Write_kept; exact mask_trans (by decide) hW)
    | (with_reducible apply State.barError_kept; exact mask_trans (by decide) hW)

theorem execBlockSafePointSwitch_kept {W s0 a0 a1} (hW : 6597069768342 &&& W = 6597069768342) (h1 : Kept W s0 a1) :
    KeptO W s0 (execBlockSafePointSwitch a0 a1) := by
  unfold execBlockSafePointSwitch
  repeat' first
    | with_reducible assumption
    | with_reducible apply kept_next
    | with_reducible apply kept_ite
    | (with_reducible apply State.commitEnds_kept; exact mask_trans (by decide) hW)
    | (with_reducible apply State.blockSwitch_kept; exact mask_trans (by decide) hW)
    | split

theorem execConfigCheck_kept {W s0 a0 a1 a2} (hW : 1920 &&& W = 1920) (h2 : Kept W s0 a2) :
    KeptO W s0 (execConfigCheck a0 a1 a2) := by
  unfold execConfigCheck
  repeat' first
    | with_reducible assumption
    | with_reducible apply kept_next
    | (with_reducible apply State.descriptor_kept; exact mask_trans (by decide) hW)
    | (with_reducible apply State.finish_kept; exact mask_trans (by decide) hW)
    | with_reducible intro _ _ _
    | split

theorem execConfigCommit_kept {W s0 a0 a1 a2} (hW : 1938 &&& W = 1938) (h2 : Kept W s0 a2) :
    KeptO W s0 (execConfigCommit a0 a1 a2) := by
  unfold execConfigCommit
  repeat' first
    | with_reducible assumption
    | with_reducible apply kept_next
    | (with_reducible apply State.descriptor_kept; exact mask_trans (by decide) hW)
    | (with_reducible apply State.finish_kept; exact mask_trans (by decide) hW)
    | (with_reducible apply State.rejected_kept; exact mask_trans (by decide) hW)
    | fail_if_no_progress (with_reducible apply kept_commit; exact mask_trans (by decide) hW)
    | with_reducible intro _ _ _
    | dsimp only
    | split

theorem execConfigDiscard_kept {W s0 a0 a1} (hW : 1930 &&& W = 1930) (h1 : Kept W s0 a1) :
    KeptO W s0 (execConfigDiscard a0 a1) := by
  unfold execConfigDiscard
  repeat' first
    | with_reducible assumption
    | with_reducible apply kept_next
    | (with_reducible apply State.descriptor_kept; exact mask_trans (by decide) hW)
    | (with_reducible apply State.finish_kept; exact mask_trans (by decide) hW)
    | (with_reducible apply State.stageTick_kept; exact mask_trans (by decide) hW)
    | fail_if_no_progress (with_reducible apply kept_staged; exact mask_trans (by decide) hW)
    | with_reducible intro _ _ _

theorem execConfigStage_kept {W s0 a0 a1 a2 a3} (hW : 1930 &&& W = 1930) (h3 : Kept W s0 a3) :
    KeptO W s0 (execConfigStage a0 a1 a2 a3) := by
  unfold execConfigStage
  repeat' first
    | with_reducible assumption
    | with_reducible apply kept_next
    | with_reducible apply kept_ite
    | (with_reducible apply State.descriptor_kept; exact mask_trans (by decide) hW)
    | (with_reducible apply State.finish_kept; exact mask_trans (by decide) hW)
    | (with_reducible apply State.stageTick_kept; exact mask_trans (by decide) hW)
    | (with_reducible apply State.stageEntry_kept; exact mask_trans (by decide) hW)
    | with_reducible apply kept_foldl
    | with_reducible intro _ _ _

theorem execEmptyStepBoundary_kept {W s0 a0} (hW : 140733192306687 &&& W = 140733192306687) (h0 : Kept W s0 a0) :
    KeptO W s0 (execEmptyStepBoundary a0) := by
  unfold execEmptyStepBoundary
  repeat' first
    | with_reducible assumption
    | with_reducible apply kept_next
    | with_reducible apply kept_ite
    | (with_reducible apply State.boundary_kept; exact mask_trans (by decide) hW)

theorem execProgramLoad_kept {W s0 a0 a1 a2 a3 a4 a5} (hW : 2272106979327 &&& W = 2272106979327) (h5 : Kept W s0 a5) :
    KeptO W s0 (execProgramLoad a0 a1 a2 a3 a4 a5) := by
  unfold execProgramLoad
  repeat' first
    | with_reducible assumption
    | with_reducible apply kept_next
    | with_reducible apply kept_ite
    | (with_reducible apply State.descriptor_kept; exact mask_trans (by decide) hW)
    | (with_reducible apply State.finish_kept; exact mask_trans (by decide) hW)
    | (with_reducible apply State.loadImage_kept; exact mask_trans (by decide) hW)
    | with_reducible intro _ _ _
    | (with_reducible apply kept_of_ex; assumption)
    | split

theorem execProgramRun_kept {W s0 a0 a1 a2 a3 a4 a5 a6} (hW : 3711044845539 &&& W = 3711044845539) (h6 : Kept W s0 a6) :
    KeptO W s0 (execProgramRun a0 a1 a2 a3 a4 a5 a6) := by
  unfold execProgramRun
  repeat' first
    | with_reducible assumption
    | with_reducible apply kept_next
    | with_reducible apply kept_ite
    | (with_reducible apply State.descriptor_kept; exact mask_trans (by decide) hW)
    | (with_reducible apply State.finish_kept; exact mask_trans (by decide) hW)
    | (with_reducible apply State.fabricRun_kept; exact mask_trans (by decide) hW)
    | (with_reducible apply State.write_kept; exact mask_trans (by decide) hW)
    | (with_reducible apply State.seqGoto_kept; exact mask_trans (by decide) hW)
    | (with_reducible apply State.seqControl_kept; exact mask_trans (by decide) hW)
    | with_reducible apply kept_foldl
    | with_reducible intro _ _ _
    | dsimp only
    | split

theorem execProgramUnload_kept {W s0 a0 a1 a2} (hW : 3715406987263 &&& W = 3715406987263) (h2 : Kept W s0 a2) :
    KeptO W s0 (execProgramUnload a0 a1 a2) := by
  unfold execProgramUnload
  repeat' first
    | with_reducible assumption
    | with_reducible apply kept_next
    | with_reducible apply kept_ite
    | (with_reducible apply State.descriptor_kept; exact mask_trans (by decide) hW)
    | (with_reducible apply State.finish_kept; exact mask_trans (by decide) hW)
    | (with_reducible apply State.unloaded_kept; exact mask_trans (by decide) hW)
    | with_reducible intro _ _ _
    | split

theorem execRegionRelease_kept {W s0 a0 a1 a2 a3 a4 a5} (hW : 6016 &&& W = 6016) (h5 : Kept W s0 a5) :
    KeptO W s0 (execRegionRelease a0 a1 a2 a3 a4 a5) := by
  unfold execRegionRelease
  repeat' first
    | with_reducible assumption
    | with_reducible apply kept_next
    | with_reducible apply kept_ite
    | (with_reducible apply State.descriptor_kept; exact mask_trans (by decide) hW)
    | (with_reducible apply State.finish_kept; exact mask_trans (by decide) hW)
    | (with_reducible apply State.setRegion_kept; exact mask_trans (by decide) hW)
    | with_reducible intro _ _ _
    | dsimp only
    | split

theorem execStepBoundary_kept {W s0 a0 a1} (hW : 140733192306687 &&& W = 140733192306687) (h1 : Kept W s0 a1) :
    KeptO W s0 (execStepBoundary a0 a1) := by
  unfold execStepBoundary
  repeat' first
    | with_reducible assumption
    | with_reducible apply kept_next
    | with_reducible apply kept_ite
    | (with_reducible apply State.boundary_kept; exact mask_trans (by decide) hW)

end Sys2Proof.Machine
end

