-- ==== Sys2Proof/Laws/State.lean ====
section
/-! SUPPORT. What reading a field of the state gives after each shared update. -/

namespace Sys2Proof.Machine

/-! ### Read after write -/

@[simp] theorem State.reg_setReg (s : State) (a v b : Nat) : (s.setReg a v).reg b = if b = a then v else s.reg b := by
  simp only [State.reg, State.setReg, Tab.get_set]
  split
  · subst_vars
    rw [← Nat.xor_assoc, Nat.xor_self, Nat.zero_xor]
  · rfl

@[simp] theorem State.reg_bump (s : State) (a n b : Nat) : (s.bump a n).reg b = if b = a then min (2 ^ 64 - 1) (s.reg a + n) else s.reg b := by
  simp [State.bump]

theorem State.reg_clearRegs (s : State) (l : List Nat) (b : Nat) : (s.clearRegs l).reg b = if b ∈ l then 0 else s.reg b := by
  induction l generalizing s with
  | nil => simp [State.clearRegs]
  | cons a r ih =>
    simp only [State.clearRegs, ih, State.reg_setReg, List.mem_cons]
    by_cases h : b ∈ r <;> by_cases h2 : b = a <;> simp [h, h2]

theorem State.clearRegs_eq (s : State) (l : List Nat) : s.clearRegs l = { s with regs := (s.clearRegs l).regs } := by
  induction l generalizing s with
  | nil => rfl
  | cons a r ih => rw [State.clearRegs, ih]; rfl

@[simp] theorem State.chan_setChan (s : State) (c : Nat) (x : Chan) (d : Nat) : (s.setChan c x).chan d = if d = c then x else s.chan d :=
  Tab.get_set _ _ _ _

@[simp] theorem State.seq_setSeq (s : State) (c : Nat) (x : Sequencer) (d : Nat) : (s.setSeq c x).seq d = if d = c then x else s.seq d :=
  Tab.get_set _ _ _ _

@[simp] theorem State.obj_setObj (s : State) (c : Nat) (x : SyncObj) (d : Nat) : (s.setObj c x).obj d = if d = c then x else s.obj d :=
  Tab.get_set _ _ _ _

@[simp] theorem State.tile_setTile (s : State) (c : Nat) (x : Tile) (d : Nat) : (s.setTile c x).tile d = if d = c then x else s.tile d :=
  Tab.get_set _ _ _ _

@[simp] theorem State.queue_setQueue (s : State) (c : Nat) (x : Queue) (d : Nat) : (s.setQueue c x).queue d = if d = c then x else s.queue d :=
  Tab.get_set _ _ _ _

@[simp] theorem State.req_setReq (s : State) (c : Nat) (x : Req) (d : Nat) : (s.setReq c x).req d = if d = c then x else s.req d :=
  Tab.get_set _ _ _ _

@[simp] theorem State.slot_setSlot (s : State) (c : Nat) (x : Slot) (d : Nat) : (s.setSlot c x).slot d = if d = c then x else s.slot d :=
  Tab.get_set _ _ _ _

@[simp] theorem State.port_setPort (s : State) (c : Nat) (x : Port) (d : Nat) : (s.setPort c x).port d = if d = c then x else s.port d :=
  Tab.get_set _ _ _ _

@[simp] theorem State.win_setWin (s : State) (c : Nat) (x : Win) (d : Nat) : (s.setWin c x).win d = if d = c then x else s.win d :=
  Tab.get_set _ _ _ _

@[simp] theorem State.engine_setEngine (s : State) (c : Nat) (x : Engine) (d : Nat) : (s.setEngine c x).engine d = if d = c then x else s.engine d :=
  Tab.get_set _ _ _ _

@[simp] theorem State.adapter_setAdapter (s : State) (c : Nat) (x : Adapter) (d : Nat) : (s.setAdapter c x).adapter d = if d = c then x else s.adapter d :=
  Tab.get_set _ _ _ _

@[simp] theorem State.pool_setPool (s : State) (c : Nat) (x : Pool) (d : Nat) : (s.setPool c x).pool d = if d = c then x else s.pool d :=
  Tab.get_set _ _ _ _

@[simp] theorem State.table_setTable (s : State) (c : Nat) (x : PageTable) (d : Nat) : (s.setTable c x).table d = if d = c then x else s.table d :=
  Tab.get_set _ _ _ _

@[simp] theorem State.passesOf_setPasses (s : State) (c : Nat) (x : List Pass) (d : Nat) : (s.setPasses c x).passesOf d = if d = c then x else s.passesOf d :=
  Tab.get_set _ _ _ _

@[simp] theorem State.verdict_setVerdict (s : State) (c : Nat) (x : Verdict) (d : Nat) : (s.setVerdict c x).verdict d = if d = c then x else s.verdict d :=
  Tab.get_set _ _ _ _

@[simp] theorem State.dieCal_setCal (s : State) (c : Nat) (x : DieCal) (d : Nat) : (s.setCal c x).dieCal d = if d = c then x else s.dieCal d :=
  Tab.get_set _ _ _ _

@[simp] theorem State.ring_setRing (s : State) (c : Nat) (x : Ring) (d : Nat) : (s.setRing c x).ring d = if d = c then x else s.ring d :=
  Tab.get_set _ _ _ _

@[simp] theorem State.scan_setScan (s : State) (c : Nat) (x : Scan) (d : Nat) : (s.setScan c x).scan d = if d = c then x else s.scan d :=
  Tab.get_set _ _ _ _

@[simp] theorem State.hkChan_setHkChan (s : State) (c : Nat) (x : HkChan) (d : Nat) : (s.setHkChan c x).hkChan d = if d = c then x else s.hkChan d :=
  Tab.get_set _ _ _ _

@[simp] theorem State.partition_setPartition (s : State) (c : Nat) (x : Partition) (d : Nat) : (s.setPartition c x).partition d = if d = c then x else s.partition d :=
  Tab.get_set _ _ _ _

@[simp] theorem State.receiver_setReceiver (s : State) (c : Nat) (x : Receiver) (d : Nat) : (s.setReceiver c x).receiver d = if d = c then x else s.receiver d :=
  Tab.get_set _ _ _ _

@[simp] theorem State.pattern_setPattern (s : State) (c : Nat) (x : Pattern) (d : Nat) : (s.setPattern c x).pattern d = if d = c then x else s.pattern d :=
  Tab.get_set _ _ _ _

/-! ### Every other field -/

@[simp] theorem State.setReg_pending (s : State) (a v : Nat) : (s.setReg a v).pending = s.pending := rfl
@[simp] theorem State.setReg_fresh (s : State) (a v : Nat) : (s.setReg a v).fresh = s.fresh := rfl
@[simp] theorem State.setReg_part (s : State) (a v : Nat) : (s.setReg a v).part = s.part := rfl
@[simp] theorem State.setReg_live (s : State) (a v : Nat) : (s.setReg a v).live = s.live := rfl
@[simp] theorem State.setReg_staged (s : State) (a v : Nat) : (s.setReg a v).staged = s.staged := rfl
@[simp] theorem State.setReg_commit (s : State) (a v : Nat) : (s.setReg a v).commit = s.commit := rfl
@[simp] theorem State.setReg_time (s : State) (a v : Nat) : (s.setReg a v).time = s.time := rfl
@[simp] theorem State.setReg_ev (s : State) (a v : Nat) : (s.setReg a v).ev = s.ev := rfl
@[simp] theorem State.setReg_irq (s : State) (a v : Nat) : (s.setReg a v).irq = s.irq := rfl
@[simp] theorem State.setReg_hmem (s : State) (a v : Nat) : (s.setReg a v).hmem = s.hmem := rfl
@[simp] theorem State.setReg_chans (s : State) (a v : Nat) : (s.setReg a v).chans = s.chans := rfl
@[simp] theorem State.setReg_cq (s : State) (a v : Nat) : (s.setReg a v).cq = s.cq := rfl
@[simp] theorem State.setReg_mem (s : State) (a v : Nat) : (s.setReg a v).mem = s.mem := rfl
@[simp] theorem State.setReg_wq (s : State) (a v : Nat) : (s.setReg a v).wq = s.wq := rfl
@[simp] theorem State.setReg_seqs (s : State) (a v : Nat) : (s.setReg a v).seqs = s.seqs := rfl
@[simp] theorem State.setReg_store (s : State) (a v : Nat) : (s.setReg a v).store = s.store := rfl
@[simp] theorem State.setReg_sync (s : State) (a v : Nat) : (s.setReg a v).sync = s.sync := rfl
@[simp] theorem State.setReg_flight (s : State) (a v : Nat) : (s.setReg a v).flight = s.flight := rfl
@[simp] theorem State.setReg_pos (s : State) (a v : Nat) : (s.setReg a v).pos = s.pos := rfl
@[simp] theorem State.setReg_boot (s : State) (a v : Nat) : (s.setReg a v).boot = s.boot := rfl
@[simp] theorem State.setReg_hdmDecoder (s : State) (a v : Nat) : (s.setReg a v).hdmDecoder = s.hdmDecoder := rfl
@[simp] theorem State.setReg_engines (s : State) (a v : Nat) : (s.setReg a v).engines = s.engines := rfl
@[simp] theorem State.setReg_attic (s : State) (a v : Nat) : (s.setReg a v).attic = s.attic := rfl
@[simp] theorem State.setReg_passes (s : State) (a v : Nat) : (s.setReg a v).passes = s.passes := rfl
@[simp] theorem State.setReg_verdicts (s : State) (a v : Nat) : (s.setReg a v).verdicts = s.verdicts := rfl
@[simp] theorem State.setReg_runs (s : State) (a v : Nat) : (s.setReg a v).runs = s.runs := rfl
@[simp] theorem State.setReg_stats (s : State) (a v : Nat) : (s.setReg a v).stats = s.stats := rfl
@[simp] theorem State.setReg_troubles (s : State) (a v : Nat) : (s.setReg a v).troubles = s.troubles := rfl
@[simp] theorem State.setReg_cal (s : State) (a v : Nat) : (s.setReg a v).cal = s.cal := rfl
@[simp] theorem State.setReg_epoch (s : State) (a v : Nat) : (s.setReg a v).epoch = s.epoch := rfl
@[simp] theorem State.setReg_ash (s : State) (a v : Nat) : (s.setReg a v).ash = s.ash := rfl
@[simp] theorem State.setReg_slots (s : State) (a v : Nat) : (s.setReg a v).slots = s.slots := rfl
@[simp] theorem State.setReg_images (s : State) (a v : Nat) : (s.setReg a v).images = s.images := rfl
@[simp] theorem State.setReg_reqs (s : State) (a v : Nat) : (s.setReg a v).reqs = s.reqs := rfl
@[simp] theorem State.setReg_adapters (s : State) (a v : Nat) : (s.setReg a v).adapters = s.adapters := rfl
@[simp] theorem State.setReg_tables (s : State) (a v : Nat) : (s.setReg a v).tables = s.tables := rfl
@[simp] theorem State.setReg_pools (s : State) (a v : Nat) : (s.setReg a v).pools = s.pools := rfl
@[simp] theorem State.setReg_step (s : State) (a v : Nat) : (s.setReg a v).step = s.step := rfl
@[simp] theorem State.setReg_det (s : State) (a v : Nat) : (s.setReg a v).det = s.det := rfl
@[simp] theorem State.setReg_hk (s : State) (a v : Nat) : (s.setReg a v).hk = s.hk := rfl
@[simp] theorem State.setReg_walks (s : State) (a v : Nat) : (s.setReg a v).walks = s.walks := rfl
@[simp] theorem State.setReg_fab (s : State) (a v : Nat) : (s.setReg a v).fab = s.fab := rfl
@[simp] theorem State.setReg_topo (s : State) (a v : Nat) : (s.setReg a v).topo = s.topo := rfl
@[simp] theorem State.setReg_inst (s : State) (a v : Nat) : (s.setReg a v).inst = s.inst := rfl
@[simp] theorem State.setReg_sec (s : State) (a v : Nat) : (s.setReg a v).sec = s.sec := rfl
@[simp] theorem State.setReg_fw (s : State) (a v : Nat) : (s.setReg a v).fw = s.fw := rfl
@[simp] theorem State.setReg_plan (s : State) (a v : Nat) : (s.setReg a v).plan = s.plan := rfl

@[simp] theorem State.bump_pending (s : State) (a n : Nat) : (s.bump a n).pending = s.pending := rfl
@[simp] theorem State.bump_fresh (s : State) (a n : Nat) : (s.bump a n).fresh = s.fresh := rfl
@[simp] theorem State.bump_part (s : State) (a n : Nat) : (s.bump a n).part = s.part := rfl
@[simp] theorem State.bump_live (s : State) (a n : Nat) : (s.bump a n).live = s.live := rfl
@[simp] theorem State.bump_staged (s : State) (a n : Nat) : (s.bump a n).staged = s.staged := rfl
@[simp] theorem State.bump_commit (s : State) (a n : Nat) : (s.bump a n).commit = s.commit := rfl
@[simp] theorem State.bump_time (s : State) (a n : Nat) : (s.bump a n).time = s.time := rfl
@[simp] theorem State.bump_ev (s : State) (a n : Nat) : (s.bump a n).ev = s.ev := rfl
@[simp] theorem State.bump_irq (s : State) (a n : Nat) : (s.bump a n).irq = s.irq := rfl
@[simp] theorem State.bump_hmem (s : State) (a n : Nat) : (s.bump a n).hmem = s.hmem := rfl
@[simp] theorem State.bump_chans (s : State) (a n : Nat) : (s.bump a n).chans = s.chans := rfl
@[simp] theorem State.bump_cq (s : State) (a n : Nat) : (s.bump a n).cq = s.cq := rfl
@[simp] theorem State.bump_mem (s : State) (a n : Nat) : (s.bump a n).mem = s.mem := rfl
@[simp] theorem State.bump_wq (s : State) (a n : Nat) : (s.bump a n).wq = s.wq := rfl
@[simp] theorem State.bump_seqs (s : State) (a n : Nat) : (s.bump a n).seqs = s.seqs := rfl
@[simp] theorem State.bump_store (s : State) (a n : Nat) : (s.bump a n).store = s.store := rfl
@[simp] theorem State.bump_sync (s : State) (a n : Nat) : (s.bump a n).sync = s.sync := rfl
@[simp] theorem State.bump_flight (s : State) (a n : Nat) : (s.bump a n).flight = s.flight := rfl
@[simp] theorem State.bump_pos (s : State) (a n : Nat) : (s.bump a n).pos = s.pos := rfl
@[simp] theorem State.bump_boot (s : State) (a n : Nat) : (s.bump a n).boot = s.boot := rfl
@[simp] theorem State.bump_hdmDecoder (s : State) (a n : Nat) : (s.bump a n).hdmDecoder = s.hdmDecoder := rfl
@[simp] theorem State.bump_engines (s : State) (a n : Nat) : (s.bump a n).engines = s.engines := rfl
@[simp] theorem State.bump_attic (s : State) (a n : Nat) : (s.bump a n).attic = s.attic := rfl
@[simp] theorem State.bump_passes (s : State) (a n : Nat) : (s.bump a n).passes = s.passes := rfl
@[simp] theorem State.bump_verdicts (s : State) (a n : Nat) : (s.bump a n).verdicts = s.verdicts := rfl
@[simp] theorem State.bump_runs (s : State) (a n : Nat) : (s.bump a n).runs = s.runs := rfl
@[simp] theorem State.bump_stats (s : State) (a n : Nat) : (s.bump a n).stats = s.stats := rfl
@[simp] theorem State.bump_troubles (s : State) (a n : Nat) : (s.bump a n).troubles = s.troubles := rfl
@[simp] theorem State.bump_cal (s : State) (a n : Nat) : (s.bump a n).cal = s.cal := rfl
@[simp] theorem State.bump_epoch (s : State) (a n : Nat) : (s.bump a n).epoch = s.epoch := rfl
@[simp] theorem State.bump_ash (s : State) (a n : Nat) : (s.bump a n).ash = s.ash := rfl
@[simp] theorem State.bump_slots (s : State) (a n : Nat) : (s.bump a n).slots = s.slots := rfl
@[simp] theorem State.bump_images (s : State) (a n : Nat) : (s.bump a n).images = s.images := rfl
@[simp] theorem State.bump_reqs (s : State) (a n : Nat) : (s.bump a n).reqs = s.reqs := rfl
@[simp] theorem State.bump_adapters (s : State) (a n : Nat) : (s.bump a n).adapters = s.adapters := rfl
@[simp] theorem State.bump_tables (s : State) (a n : Nat) : (s.bump a n).tables = s.tables := rfl
@[simp] theorem State.bump_pools (s : State) (a n : Nat) : (s.bump a n).pools = s.pools := rfl
@[simp] theorem State.bump_step (s : State) (a n : Nat) : (s.bump a n).step = s.step := rfl
@[simp] theorem State.bump_det (s : State) (a n : Nat) : (s.bump a n).det = s.det := rfl
@[simp] theorem State.bump_hk (s : State) (a n : Nat) : (s.bump a n).hk = s.hk := rfl
@[simp] theorem State.bump_walks (s : State) (a n : Nat) : (s.bump a n).walks = s.walks := rfl
@[simp] theorem State.bump_fab (s : State) (a n : Nat) : (s.bump a n).fab = s.fab := rfl
@[simp] theorem State.bump_topo (s : State) (a n : Nat) : (s.bump a n).topo = s.topo := rfl
@[simp] theorem State.bump_inst (s : State) (a n : Nat) : (s.bump a n).inst = s.inst := rfl
@[simp] theorem State.bump_sec (s : State) (a n : Nat) : (s.bump a n).sec = s.sec := rfl
@[simp] theorem State.bump_fw (s : State) (a n : Nat) : (s.bump a n).fw = s.fw := rfl
@[simp] theorem State.bump_plan (s : State) (a n : Nat) : (s.bump a n).plan = s.plan := rfl

@[simp] theorem State.setChan_pending (s : State) (c : Nat) (x : Chan) : (s.setChan c x).pending = s.pending := rfl
@[simp] theorem State.setChan_fresh (s : State) (c : Nat) (x : Chan) : (s.setChan c x).fresh = s.fresh := rfl
@[simp] theorem State.setChan_part (s : State) (c : Nat) (x : Chan) : (s.setChan c x).part = s.part := rfl
@[simp] theorem State.setChan_regs (s : State) (c : Nat) (x : Chan) : (s.setChan c x).regs = s.regs := rfl
@[simp] theorem State.setChan_live (s : State) (c : Nat) (x : Chan) : (s.setChan c x).live = s.live := rfl
@[simp] theorem State.setChan_staged (s : State) (c : Nat) (x : Chan) : (s.setChan c x).staged = s.staged := rfl
@[simp] theorem State.setChan_commit (s : State) (c : Nat) (x : Chan) : (s.setChan c x).commit = s.commit := rfl
@[simp] theorem State.setChan_time (s : State) (c : Nat) (x : Chan) : (s.setChan c x).time = s.time := rfl
@[simp] theorem State.setChan_ev (s : State) (c : Nat) (x : Chan) : (s.setChan c x).ev = s.ev := rfl
@[simp] theorem State.setChan_irq (s : State) (c : Nat) (x : Chan) : (s.setChan c x).irq = s.irq := rfl
@[simp] theorem State.setChan_hmem (s : State) (c : Nat) (x : Chan) : (s.setChan c x).hmem = s.hmem := rfl
@[simp] theorem State.setChan_cq (s : State) (c : Nat) (x : Chan) : (s.setChan c x).cq = s.cq := rfl
@[simp] theorem State.setChan_mem (s : State) (c : Nat) (x : Chan) : (s.setChan c x).mem = s.mem := rfl
@[simp] theorem State.setChan_wq (s : State) (c : Nat) (x : Chan) : (s.setChan c x).wq = s.wq := rfl
@[simp] theorem State.setChan_seqs (s : State) (c : Nat) (x : Chan) : (s.setChan c x).seqs = s.seqs := rfl
@[simp] theorem State.setChan_store (s : State) (c : Nat) (x : Chan) : (s.setChan c x).store = s.store := rfl
@[simp] theorem State.setChan_sync (s : State) (c : Nat) (x : Chan) : (s.setChan c x).sync = s.sync := rfl
@[simp] theorem State.setChan_flight (s : State) (c : Nat) (x : Chan) : (s.setChan c x).flight = s.flight := rfl
@[simp] theorem State.setChan_pos (s : State) (c : Nat) (x : Chan) : (s.setChan c x).pos = s.pos := rfl
@[simp] theorem State.setChan_boot (s : State) (c : Nat) (x : Chan) : (s.setChan c x).boot = s.boot := rfl
@[simp] theorem State.setChan_hdmDecoder (s : State) (c : Nat) (x : Chan) : (s.setChan c x).hdmDecoder = s.hdmDecoder := rfl
@[simp] theorem State.setChan_engines (s : State) (c : Nat) (x : Chan) : (s.setChan c x).engines = s.engines := rfl
@[simp] theorem State.setChan_attic (s : State) (c : Nat) (x : Chan) : (s.setChan c x).attic = s.attic := rfl
@[simp] theorem State.setChan_passes (s : State) (c : Nat) (x : Chan) : (s.setChan c x).passes = s.passes := rfl
@[simp] theorem State.setChan_verdicts (s : State) (c : Nat) (x : Chan) : (s.setChan c x).verdicts = s.verdicts := rfl
@[simp] theorem State.setChan_runs (s : State) (c : Nat) (x : Chan) : (s.setChan c x).runs = s.runs := rfl
@[simp] theorem State.setChan_stats (s : State) (c : Nat) (x : Chan) : (s.setChan c x).stats = s.stats := rfl
@[simp] theorem State.setChan_troubles (s : State) (c : Nat) (x : Chan) : (s.setChan c x).troubles = s.troubles := rfl
@[simp] theorem State.setChan_cal (s : State) (c : Nat) (x : Chan) : (s.setChan c x).cal = s.cal := rfl
@[simp] theorem State.setChan_epoch (s : State) (c : Nat) (x : Chan) : (s.setChan c x).epoch = s.epoch := rfl
@[simp] theorem State.setChan_ash (s : State) (c : Nat) (x : Chan) : (s.setChan c x).ash = s.ash := rfl
@[simp] theorem State.setChan_slots (s : State) (c : Nat) (x : Chan) : (s.setChan c x).slots = s.slots := rfl
@[simp] theorem State.setChan_images (s : State) (c : Nat) (x : Chan) : (s.setChan c x).images = s.images := rfl
@[simp] theorem State.setChan_reqs (s : State) (c : Nat) (x : Chan) : (s.setChan c x).reqs = s.reqs := rfl
@[simp] theorem State.setChan_adapters (s : State) (c : Nat) (x : Chan) : (s.setChan c x).adapters = s.adapters := rfl
@[simp] theorem State.setChan_tables (s : State) (c : Nat) (x : Chan) : (s.setChan c x).tables = s.tables := rfl
@[simp] theorem State.setChan_pools (s : State) (c : Nat) (x : Chan) : (s.setChan c x).pools = s.pools := rfl
@[simp] theorem State.setChan_step (s : State) (c : Nat) (x : Chan) : (s.setChan c x).step = s.step := rfl
@[simp] theorem State.setChan_det (s : State) (c : Nat) (x : Chan) : (s.setChan c x).det = s.det := rfl
@[simp] theorem State.setChan_hk (s : State) (c : Nat) (x : Chan) : (s.setChan c x).hk = s.hk := rfl
@[simp] theorem State.setChan_walks (s : State) (c : Nat) (x : Chan) : (s.setChan c x).walks = s.walks := rfl
@[simp] theorem State.setChan_fab (s : State) (c : Nat) (x : Chan) : (s.setChan c x).fab = s.fab := rfl
@[simp] theorem State.setChan_topo (s : State) (c : Nat) (x : Chan) : (s.setChan c x).topo = s.topo := rfl
@[simp] theorem State.setChan_inst (s : State) (c : Nat) (x : Chan) : (s.setChan c x).inst = s.inst := rfl
@[simp] theorem State.setChan_sec (s : State) (c : Nat) (x : Chan) : (s.setChan c x).sec = s.sec := rfl
@[simp] theorem State.setChan_fw (s : State) (c : Nat) (x : Chan) : (s.setChan c x).fw = s.fw := rfl
@[simp] theorem State.setChan_plan (s : State) (c : Nat) (x : Chan) : (s.setChan c x).plan = s.plan := rfl

@[simp] theorem State.interrupt_pending (s : State) (n : Nat) : (s.interrupt n).pending = s.pending := rfl
@[simp] theorem State.interrupt_fresh (s : State) (n : Nat) : (s.interrupt n).fresh = s.fresh := rfl
@[simp] theorem State.interrupt_part (s : State) (n : Nat) : (s.interrupt n).part = s.part := rfl
@[simp] theorem State.interrupt_regs (s : State) (n : Nat) : (s.interrupt n).regs = s.regs := rfl
@[simp] theorem State.interrupt_live (s : State) (n : Nat) : (s.interrupt n).live = s.live := rfl
@[simp] theorem State.interrupt_staged (s : State) (n : Nat) : (s.interrupt n).staged = s.staged := rfl
@[simp] theorem State.interrupt_commit (s : State) (n : Nat) : (s.interrupt n).commit = s.commit := rfl
@[simp] theorem State.interrupt_time (s : State) (n : Nat) : (s.interrupt n).time = s.time := rfl
@[simp] theorem State.interrupt_ev (s : State) (n : Nat) : (s.interrupt n).ev = s.ev := rfl
@[simp] theorem State.interrupt_hmem (s : State) (n : Nat) : (s.interrupt n).hmem = s.hmem := rfl
@[simp] theorem State.interrupt_chans (s : State) (n : Nat) : (s.interrupt n).chans = s.chans := rfl
@[simp] theorem State.interrupt_cq (s : State) (n : Nat) : (s.interrupt n).cq = s.cq := rfl
@[simp] theorem State.interrupt_mem (s : State) (n : Nat) : (s.interrupt n).mem = s.mem := rfl
@[simp] theorem State.interrupt_wq (s : State) (n : Nat) : (s.interrupt n).wq = s.wq := rfl
@[simp] theorem State.interrupt_seqs (s : State) (n : Nat) : (s.interrupt n).seqs = s.seqs := rfl
@[simp] theorem State.interrupt_store (s : State) (n : Nat) : (s.interrupt n).store = s.store := rfl
@[simp] theorem State.interrupt_sync (s : State) (n : Nat) : (s.interrupt n).sync = s.sync := rfl
@[simp] theorem State.interrupt_flight (s : State) (n : Nat) : (s.interrupt n).flight = s.flight := rfl
@[simp] theorem State.interrupt_pos (s : State) (n : Nat) : (s.interrupt n).pos = s.pos := rfl
@[simp] theorem State.interrupt_boot (s : State) (n : Nat) : (s.interrupt n).boot = s.boot := rfl
@[simp] theorem State.interrupt_hdmDecoder (s : State) (n : Nat) : (s.interrupt n).hdmDecoder = s.hdmDecoder := rfl
@[simp] theorem State.interrupt_engines (s : State) (n : Nat) : (s.interrupt n).engines = s.engines := rfl
@[simp] theorem State.interrupt_attic (s : State) (n : Nat) : (s.interrupt n).attic = s.attic := rfl
@[simp] theorem State.interrupt_passes (s : State) (n : Nat) : (s.interrupt n).passes = s.passes := rfl
@[simp] theorem State.interrupt_verdicts (s : State) (n : Nat) : (s.interrupt n).verdicts = s.verdicts := rfl
@[simp] theorem State.interrupt_runs (s : State) (n : Nat) : (s.interrupt n).runs = s.runs := rfl
@[simp] theorem State.interrupt_stats (s : State) (n : Nat) : (s.interrupt n).stats = s.stats := rfl
@[simp] theorem State.interrupt_troubles (s : State) (n : Nat) : (s.interrupt n).troubles = s.troubles := rfl
@[simp] theorem State.interrupt_cal (s : State) (n : Nat) : (s.interrupt n).cal = s.cal := rfl
@[simp] theorem State.interrupt_epoch (s : State) (n : Nat) : (s.interrupt n).epoch = s.epoch := rfl
@[simp] theorem State.interrupt_ash (s : State) (n : Nat) : (s.interrupt n).ash = s.ash := rfl
@[simp] theorem State.interrupt_slots (s : State) (n : Nat) : (s.interrupt n).slots = s.slots := rfl
@[simp] theorem State.interrupt_images (s : State) (n : Nat) : (s.interrupt n).images = s.images := rfl
@[simp] theorem State.interrupt_reqs (s : State) (n : Nat) : (s.interrupt n).reqs = s.reqs := rfl
@[simp] theorem State.interrupt_adapters (s : State) (n : Nat) : (s.interrupt n).adapters = s.adapters := rfl
@[simp] theorem State.interrupt_tables (s : State) (n : Nat) : (s.interrupt n).tables = s.tables := rfl
@[simp] theorem State.interrupt_pools (s : State) (n : Nat) : (s.interrupt n).pools = s.pools := rfl
@[simp] theorem State.interrupt_step (s : State) (n : Nat) : (s.interrupt n).step = s.step := rfl
@[simp] theorem State.interrupt_det (s : State) (n : Nat) : (s.interrupt n).det = s.det := rfl
@[simp] theorem State.interrupt_hk (s : State) (n : Nat) : (s.interrupt n).hk = s.hk := rfl
@[simp] theorem State.interrupt_walks (s : State) (n : Nat) : (s.interrupt n).walks = s.walks := rfl
@[simp] theorem State.interrupt_fab (s : State) (n : Nat) : (s.interrupt n).fab = s.fab := rfl
@[simp] theorem State.interrupt_topo (s : State) (n : Nat) : (s.interrupt n).topo = s.topo := rfl
@[simp] theorem State.interrupt_inst (s : State) (n : Nat) : (s.interrupt n).inst = s.inst := rfl
@[simp] theorem State.interrupt_sec (s : State) (n : Nat) : (s.interrupt n).sec = s.sec := rfl
@[simp] theorem State.interrupt_fw (s : State) (n : Nat) : (s.interrupt n).fw = s.fw := rfl
@[simp] theorem State.interrupt_plan (s : State) (n : Nat) : (s.interrupt n).plan = s.plan := rfl

@[simp] theorem State.raise_pending (s : State) (k : Code) (x : Src) (l : List Nat) (c : Code) : (s.raise k x l c).pending = s.pending := rfl
@[simp] theorem State.raise_part (s : State) (k : Code) (x : Src) (l : List Nat) (c : Code) : (s.raise k x l c).part = s.part := rfl
@[simp] theorem State.raise_regs (s : State) (k : Code) (x : Src) (l : List Nat) (c : Code) : (s.raise k x l c).regs = s.regs := rfl
@[simp] theorem State.raise_live (s : State) (k : Code) (x : Src) (l : List Nat) (c : Code) : (s.raise k x l c).live = s.live := rfl
@[simp] theorem State.raise_staged (s : State) (k : Code) (x : Src) (l : List Nat) (c : Code) : (s.raise k x l c).staged = s.staged := rfl
@[simp] theorem State.raise_commit (s : State) (k : Code) (x : Src) (l : List Nat) (c : Code) : (s.raise k x l c).commit = s.commit := rfl
@[simp] theorem State.raise_irq (s : State) (k : Code) (x : Src) (l : List Nat) (c : Code) : (s.raise k x l c).irq = s.irq := rfl
@[simp] theorem State.raise_hmem (s : State) (k : Code) (x : Src) (l : List Nat) (c : Code) : (s.raise k x l c).hmem = s.hmem := rfl
@[simp] theorem State.raise_chans (s : State) (k : Code) (x : Src) (l : List Nat) (c : Code) : (s.raise k x l c).chans = s.chans := rfl
@[simp] theorem State.raise_cq (s : State) (k : Code) (x : Src) (l : List Nat) (c : Code) : (s.raise k x l c).cq = s.cq := rfl
@[simp] theorem State.raise_mem (s : State) (k : Code) (x : Src) (l : List Nat) (c : Code) : (s.raise k x l c).mem = s.mem := rfl
@[simp] theorem State.raise_wq (s : State) (k : Code) (x : Src) (l : List Nat) (c : Code) : (s.raise k x l c).wq = s.wq := rfl
@[simp] theorem State.raise_seqs (s : State) (k : Code) (x : Src) (l : List Nat) (c : Code) : (s.raise k x l c).seqs = s.seqs := rfl
@[simp] theorem State.raise_store (s : State) (k : Code) (x : Src) (l : List Nat) (c : Code) : (s.raise k x l c).store = s.store := rfl
@[simp] theorem State.raise_sync (s : State) (k : Code) (x : Src) (l : List Nat) (c : Code) : (s.raise k x l c).sync = s.sync := rfl
@[simp] theorem State.raise_flight (s : State) (k : Code) (x : Src) (l : List Nat) (c : Code) : (s.raise k x l c).flight = s.flight := rfl
@[simp] theorem State.raise_pos (s : State) (k : Code) (x : Src) (l : List Nat) (c : Code) : (s.raise k x l c).pos = s.pos := rfl
@[simp] theorem State.raise_boot (s : State) (k : Code) (x : Src) (l : List Nat) (c : Code) : (s.raise k x l c).boot = s.boot := rfl
@[simp] theorem State.raise_hdmDecoder (s : State) (k : Code) (x : Src) (l : List Nat) (c : Code) : (s.raise k x l c).hdmDecoder = s.hdmDecoder := rfl
@[simp] theorem State.raise_engines (s : State) (k : Code) (x : Src) (l : List Nat) (c : Code) : (s.raise k x l c).engines = s.engines := rfl
@[simp] theorem State.raise_attic (s : State) (k : Code) (x : Src) (l : List Nat) (c : Code) : (s.raise k x l c).attic = s.attic := rfl
@[simp] theorem State.raise_passes (s : State) (k : Code) (x : Src) (l : List Nat) (c : Code) : (s.raise k x l c).passes = s.passes := rfl
@[simp] theorem State.raise_verdicts (s : State) (k : Code) (x : Src) (l : List Nat) (c : Code) : (s.raise k x l c).verdicts = s.verdicts := rfl
@[simp] theorem State.raise_runs (s : State) (k : Code) (x : Src) (l : List Nat) (c : Code) : (s.raise k x l c).runs = s.runs := rfl
@[simp] theorem State.raise_stats (s : State) (k : Code) (x : Src) (l : List Nat) (c : Code) : (s.raise k x l c).stats = s.stats := rfl
@[simp] theorem State.raise_troubles (s : State) (k : Code) (x : Src) (l : List Nat) (c : Code) : (s.raise k x l c).troubles = s.troubles := rfl
@[simp] theorem State.raise_cal (s : State) (k : Code) (x : Src) (l : List Nat) (c : Code) : (s.raise k x l c).cal = s.cal := rfl
@[simp] theorem State.raise_epoch (s : State) (k : Code) (x : Src) (l : List Nat) (c : Code) : (s.raise k x l c).epoch = s.epoch := rfl
@[simp] theorem State.raise_ash (s : State) (k : Code) (x : Src) (l : List Nat) (c : Code) : (s.raise k x l c).ash = s.ash := rfl
@[simp] theorem State.raise_slots (s : State) (k : Code) (x : Src) (l : List Nat) (c : Code) : (s.raise k x l c).slots = s.slots := rfl
@[simp] theorem State.raise_images (s : State) (k : Code) (x : Src) (l : List Nat) (c : Code) : (s.raise k x l c).images = s.images := rfl
@[simp] theorem State.raise_reqs (s : State) (k : Code) (x : Src) (l : List Nat) (c : Code) : (s.raise k x l c).reqs = s.reqs := rfl
@[simp] theorem State.raise_adapters (s : State) (k : Code) (x : Src) (l : List Nat) (c : Code) : (s.raise k x l c).adapters = s.adapters := rfl
@[simp] theorem State.raise_tables (s : State) (k : Code) (x : Src) (l : List Nat) (c : Code) : (s.raise k x l c).tables = s.tables := rfl
@[simp] theorem State.raise_pools (s : State) (k : Code) (x : Src) (l : List Nat) (c : Code) : (s.raise k x l c).pools = s.pools := rfl
@[simp] theorem State.raise_step (s : State) (k : Code) (x : Src) (l : List Nat) (c : Code) : (s.raise k x l c).step = s.step := rfl
@[simp] theorem State.raise_det (s : State) (k : Code) (x : Src) (l : List Nat) (c : Code) : (s.raise k x l c).det = s.det := rfl
@[simp] theorem State.raise_hk (s : State) (k : Code) (x : Src) (l : List Nat) (c : Code) : (s.raise k x l c).hk = s.hk := rfl
@[simp] theorem State.raise_walks (s : State) (k : Code) (x : Src) (l : List Nat) (c : Code) : (s.raise k x l c).walks = s.walks := rfl
@[simp] theorem State.raise_fab (s : State) (k : Code) (x : Src) (l : List Nat) (c : Code) : (s.raise k x l c).fab = s.fab := rfl
@[simp] theorem State.raise_topo (s : State) (k : Code) (x : Src) (l : List Nat) (c : Code) : (s.raise k x l c).topo = s.topo := rfl
@[simp] theorem State.raise_inst (s : State) (k : Code) (x : Src) (l : List Nat) (c : Code) : (s.raise k x l c).inst = s.inst := rfl
@[simp] theorem State.raise_sec (s : State) (k : Code) (x : Src) (l : List Nat) (c : Code) : (s.raise k x l c).sec = s.sec := rfl
@[simp] theorem State.raise_fw (s : State) (k : Code) (x : Src) (l : List Nat) (c : Code) : (s.raise k x l c).fw = s.fw := rfl
@[simp] theorem State.raise_plan (s : State) (k : Code) (x : Src) (l : List Nat) (c : Code) : (s.raise k x l c).plan = s.plan := rfl

@[simp] theorem State.setTile_pending (s : State) (t : Nat) (w : Tile) : (s.setTile t w).pending = s.pending := rfl
@[simp] theorem State.setTile_fresh (s : State) (t : Nat) (w : Tile) : (s.setTile t w).fresh = s.fresh := rfl
@[simp] theorem State.setTile_part (s : State) (t : Nat) (w : Tile) : (s.setTile t w).part = s.part := rfl
@[simp] theorem State.setTile_regs (s : State) (t : Nat) (w : Tile) : (s.setTile t w).regs = s.regs := rfl
@[simp] theorem State.setTile_live (s : State) (t : Nat) (w : Tile) : (s.setTile t w).live = s.live := rfl
@[simp] theorem State.setTile_staged (s : State) (t : Nat) (w : Tile) : (s.setTile t w).staged = s.staged := rfl
@[simp] theorem State.setTile_commit (s : State) (t : Nat) (w : Tile) : (s.setTile t w).commit = s.commit := rfl
@[simp] theorem State.setTile_time (s : State) (t : Nat) (w : Tile) : (s.setTile t w).time = s.time := rfl
@[simp] theorem State.setTile_ev (s : State) (t : Nat) (w : Tile) : (s.setTile t w).ev = s.ev := rfl
@[simp] theorem State.setTile_irq (s : State) (t : Nat) (w : Tile) : (s.setTile t w).irq = s.irq := rfl
@[simp] theorem State.setTile_hmem (s : State) (t : Nat) (w : Tile) : (s.setTile t w).hmem = s.hmem := rfl
@[simp] theorem State.setTile_chans (s : State) (t : Nat) (w : Tile) : (s.setTile t w).chans = s.chans := rfl
@[simp] theorem State.setTile_cq (s : State) (t : Nat) (w : Tile) : (s.setTile t w).cq = s.cq := rfl
@[simp] theorem State.setTile_wq (s : State) (t : Nat) (w : Tile) : (s.setTile t w).wq = s.wq := rfl
@[simp] theorem State.setTile_seqs (s : State) (t : Nat) (w : Tile) : (s.setTile t w).seqs = s.seqs := rfl
@[simp] theorem State.setTile_store (s : State) (t : Nat) (w : Tile) : (s.setTile t w).store = s.store := rfl
@[simp] theorem State.setTile_sync (s : State) (t : Nat) (w : Tile) : (s.setTile t w).sync = s.sync := rfl
@[simp] theorem State.setTile_flight (s : State) (t : Nat) (w : Tile) : (s.setTile t w).flight = s.flight := rfl
@[simp] theorem State.setTile_pos (s : State) (t : Nat) (w : Tile) : (s.setTile t w).pos = s.pos := rfl
@[simp] theorem State.setTile_boot (s : State) (t : Nat) (w : Tile) : (s.setTile t w).boot = s.boot := rfl
@[simp] theorem State.setTile_hdmDecoder (s : State) (t : Nat) (w : Tile) : (s.setTile t w).hdmDecoder = s.hdmDecoder := rfl
@[simp] theorem State.setTile_engines (s : State) (t : Nat) (w : Tile) : (s.setTile t w).engines = s.engines := rfl
@[simp] theorem State.setTile_attic (s : State) (t : Nat) (w : Tile) : (s.setTile t w).attic = s.attic := rfl
@[simp] theorem State.setTile_passes (s : State) (t : Nat) (w : Tile) : (s.setTile t w).passes = s.passes := rfl
@[simp] theorem State.setTile_verdicts (s : State) (t : Nat) (w : Tile) : (s.setTile t w).verdicts = s.verdicts := rfl
@[simp] theorem State.setTile_runs (s : State) (t : Nat) (w : Tile) : (s.setTile t w).runs = s.runs := rfl
@[simp] theorem State.setTile_stats (s : State) (t : Nat) (w : Tile) : (s.setTile t w).stats = s.stats := rfl
@[simp] theorem State.setTile_troubles (s : State) (t : Nat) (w : Tile) : (s.setTile t w).troubles = s.troubles := rfl
@[simp] theorem State.setTile_cal (s : State) (t : Nat) (w : Tile) : (s.setTile t w).cal = s.cal := rfl
@[simp] theorem State.setTile_epoch (s : State) (t : Nat) (w : Tile) : (s.setTile t w).epoch = s.epoch := rfl
@[simp] theorem State.setTile_ash (s : State) (t : Nat) (w : Tile) : (s.setTile t w).ash = s.ash := rfl
@[simp] theorem State.setTile_slots (s : State) (t : Nat) (w : Tile) : (s.setTile t w).slots = s.slots := rfl
@[simp] theorem State.setTile_images (s : State) (t : Nat) (w : Tile) : (s.setTile t w).images = s.images := rfl
@[simp] theorem State.setTile_reqs (s : State) (t : Nat) (w : Tile) : (s.setTile t w).reqs = s.reqs := rfl
@[simp] theorem State.setTile_adapters (s : State) (t : Nat) (w : Tile) : (s.setTile t w).adapters = s.adapters := rfl
@[simp] theorem State.setTile_tables (s : State) (t : Nat) (w : Tile) : (s.setTile t w).tables = s.tables := rfl
@[simp] theorem State.setTile_pools (s : State) (t : Nat) (w : Tile) : (s.setTile t w).pools = s.pools := rfl
@[simp] theorem State.setTile_step (s : State) (t : Nat) (w : Tile) : (s.setTile t w).step = s.step := rfl
@[simp] theorem State.setTile_det (s : State) (t : Nat) (w : Tile) : (s.setTile t w).det = s.det := rfl
@[simp] theorem State.setTile_hk (s : State) (t : Nat) (w : Tile) : (s.setTile t w).hk = s.hk := rfl
@[simp] theorem State.setTile_walks (s : State) (t : Nat) (w : Tile) : (s.setTile t w).walks = s.walks := rfl
@[simp] theorem State.setTile_fab (s : State) (t : Nat) (w : Tile) : (s.setTile t w).fab = s.fab := rfl
@[simp] theorem State.setTile_topo (s : State) (t : Nat) (w : Tile) : (s.setTile t w).topo = s.topo := rfl
@[simp] theorem State.setTile_inst (s : State) (t : Nat) (w : Tile) : (s.setTile t w).inst = s.inst := rfl
@[simp] theorem State.setTile_sec (s : State) (t : Nat) (w : Tile) : (s.setTile t w).sec = s.sec := rfl
@[simp] theorem State.setTile_fw (s : State) (t : Nat) (w : Tile) : (s.setTile t w).fw = s.fw := rfl
@[simp] theorem State.setTile_plan (s : State) (t : Nat) (w : Tile) : (s.setTile t w).plan = s.plan := rfl

@[simp] theorem State.putBytes_pending (s : State) (a : Nat) (l : List Byte) : (s.putBytes a l).pending = s.pending := rfl
@[simp] theorem State.putBytes_fresh (s : State) (a : Nat) (l : List Byte) : (s.putBytes a l).fresh = s.fresh := rfl
@[simp] theorem State.putBytes_part (s : State) (a : Nat) (l : List Byte) : (s.putBytes a l).part = s.part := rfl
@[simp] theorem State.putBytes_regs (s : State) (a : Nat) (l : List Byte) : (s.putBytes a l).regs = s.regs := rfl
@[simp] theorem State.putBytes_live (s : State) (a : Nat) (l : List Byte) : (s.putBytes a l).live = s.live := rfl
@[simp] theorem State.putBytes_staged (s : State) (a : Nat) (l : List Byte) : (s.putBytes a l).staged = s.staged := rfl
@[simp] theorem State.putBytes_commit (s : State) (a : Nat) (l : List Byte) : (s.putBytes a l).commit = s.commit := rfl
@[simp] theorem State.putBytes_time (s : State) (a : Nat) (l : List Byte) : (s.putBytes a l).time = s.time := rfl
@[simp] theorem State.putBytes_ev (s : State) (a : Nat) (l : List Byte) : (s.putBytes a l).ev = s.ev := rfl
@[simp] theorem State.putBytes_irq (s : State) (a : Nat) (l : List Byte) : (s.putBytes a l).irq = s.irq := rfl
@[simp] theorem State.putBytes_hmem (s : State) (a : Nat) (l : List Byte) : (s.putBytes a l).hmem = s.hmem := rfl
@[simp] theorem State.putBytes_chans (s : State) (a : Nat) (l : List Byte) : (s.putBytes a l).chans = s.chans := rfl
@[simp] theorem State.putBytes_cq (s : State) (a : Nat) (l : List Byte) : (s.putBytes a l).cq = s.cq := rfl
@[simp] theorem State.putBytes_wq (s : State) (a : Nat) (l : List Byte) : (s.putBytes a l).wq = s.wq := rfl
@[simp] theorem State.putBytes_seqs (s : State) (a : Nat) (l : List Byte) : (s.putBytes a l).seqs = s.seqs := rfl
@[simp] theorem State.putBytes_store (s : State) (a : Nat) (l : List Byte) : (s.putBytes a l).store = s.store := rfl
@[simp] theorem State.putBytes_sync (s : State) (a : Nat) (l : List Byte) : (s.putBytes a l).sync = s.sync := rfl
@[simp] theorem State.putBytes_flight (s : State) (a : Nat) (l : List Byte) : (s.putBytes a l).flight = s.flight := rfl
@[simp] theorem State.putBytes_pos (s : State) (a : Nat) (l : List Byte) : (s.putBytes a l).pos = s.pos := rfl
@[simp] theorem State.putBytes_boot (s : State) (a : Nat) (l : List Byte) : (s.putBytes a l).boot = s.boot := rfl
@[simp] theorem State.putBytes_hdmDecoder (s : State) (a : Nat) (l : List Byte) : (s.putBytes a l).hdmDecoder = s.hdmDecoder := rfl
@[simp] theorem State.putBytes_engines (s : State) (a : Nat) (l : List Byte) : (s.putBytes a l).engines = s.engines := rfl
@[simp] theorem State.putBytes_attic (s : State) (a : Nat) (l : List Byte) : (s.putBytes a l).attic = s.attic := rfl
@[simp] theorem State.putBytes_passes (s : State) (a : Nat) (l : List Byte) : (s.putBytes a l).passes = s.passes := rfl
@[simp] theorem State.putBytes_verdicts (s : State) (a : Nat) (l : List Byte) : (s.putBytes a l).verdicts = s.verdicts := rfl
@[simp] theorem State.putBytes_runs (s : State) (a : Nat) (l : List Byte) : (s.putBytes a l).runs = s.runs := rfl
@[simp] theorem State.putBytes_stats (s : State) (a : Nat) (l : List Byte) : (s.putBytes a l).stats = s.stats := rfl
@[simp] theorem State.putBytes_troubles (s : State) (a : Nat) (l : List Byte) : (s.putBytes a l).troubles = s.troubles := rfl
@[simp] theorem State.putBytes_cal (s : State) (a : Nat) (l : List Byte) : (s.putBytes a l).cal = s.cal := rfl
@[simp] theorem State.putBytes_epoch (s : State) (a : Nat) (l : List Byte) : (s.putBytes a l).epoch = s.epoch := rfl
@[simp] theorem State.putBytes_ash (s : State) (a : Nat) (l : List Byte) : (s.putBytes a l).ash = s.ash := rfl
@[simp] theorem State.putBytes_slots (s : State) (a : Nat) (l : List Byte) : (s.putBytes a l).slots = s.slots := rfl
@[simp] theorem State.putBytes_images (s : State) (a : Nat) (l : List Byte) : (s.putBytes a l).images = s.images := rfl
@[simp] theorem State.putBytes_reqs (s : State) (a : Nat) (l : List Byte) : (s.putBytes a l).reqs = s.reqs := rfl
@[simp] theorem State.putBytes_adapters (s : State) (a : Nat) (l : List Byte) : (s.putBytes a l).adapters = s.adapters := rfl
@[simp] theorem State.putBytes_tables (s : State) (a : Nat) (l : List Byte) : (s.putBytes a l).tables = s.tables := rfl
@[simp] theorem State.putBytes_pools (s : State) (a : Nat) (l : List Byte) : (s.putBytes a l).pools = s.pools := rfl
@[simp] theorem State.putBytes_step (s : State) (a : Nat) (l : List Byte) : (s.putBytes a l).step = s.step := rfl
@[simp] theorem State.putBytes_det (s : State) (a : Nat) (l : List Byte) : (s.putBytes a l).det = s.det := rfl
@[simp] theorem State.putBytes_hk (s : State) (a : Nat) (l : List Byte) : (s.putBytes a l).hk = s.hk := rfl
@[simp] theorem State.putBytes_walks (s : State) (a : Nat) (l : List Byte) : (s.putBytes a l).walks = s.walks := rfl
@[simp] theorem State.putBytes_fab (s : State) (a : Nat) (l : List Byte) : (s.putBytes a l).fab = s.fab := rfl
@[simp] theorem State.putBytes_topo (s : State) (a : Nat) (l : List Byte) : (s.putBytes a l).topo = s.topo := rfl
@[simp] theorem State.putBytes_inst (s : State) (a : Nat) (l : List Byte) : (s.putBytes a l).inst = s.inst := rfl
@[simp] theorem State.putBytes_sec (s : State) (a : Nat) (l : List Byte) : (s.putBytes a l).sec = s.sec := rfl
@[simp] theorem State.putBytes_fw (s : State) (a : Nat) (l : List Byte) : (s.putBytes a l).fw = s.fw := rfl
@[simp] theorem State.putBytes_plan (s : State) (a : Nat) (l : List Byte) : (s.putBytes a l).plan = s.plan := rfl

@[simp] theorem State.hostPut_pending (s : State) (a : Nat) (l : List Byte) : (s.hostPut a l).pending = s.pending := rfl
@[simp] theorem State.hostPut_fresh (s : State) (a : Nat) (l : List Byte) : (s.hostPut a l).fresh = s.fresh := rfl
@[simp] theorem State.hostPut_part (s : State) (a : Nat) (l : List Byte) : (s.hostPut a l).part = s.part := rfl
@[simp] theorem State.hostPut_regs (s : State) (a : Nat) (l : List Byte) : (s.hostPut a l).regs = s.regs := rfl
@[simp] theorem State.hostPut_live (s : State) (a : Nat) (l : List Byte) : (s.hostPut a l).live = s.live := rfl
@[simp] theorem State.hostPut_staged (s : State) (a : Nat) (l : List Byte) : (s.hostPut a l).staged = s.staged := rfl
@[simp] theorem State.hostPut_commit (s : State) (a : Nat) (l : List Byte) : (s.hostPut a l).commit = s.commit := rfl
@[simp] theorem State.hostPut_time (s : State) (a : Nat) (l : List Byte) : (s.hostPut a l).time = s.time := rfl
@[simp] theorem State.hostPut_ev (s : State) (a : Nat) (l : List Byte) : (s.hostPut a l).ev = s.ev := rfl
@[simp] theorem State.hostPut_irq (s : State) (a : Nat) (l : List Byte) : (s.hostPut a l).irq = s.irq := rfl
@[simp] theorem State.hostPut_chans (s : State) (a : Nat) (l : List Byte) : (s.hostPut a l).chans = s.chans := rfl
@[simp] theorem State.hostPut_cq (s : State) (a : Nat) (l : List Byte) : (s.hostPut a l).cq = s.cq := rfl
@[simp] theorem State.hostPut_mem (s : State) (a : Nat) (l : List Byte) : (s.hostPut a l).mem = s.mem := rfl
@[simp] theorem State.hostPut_wq (s : State) (a : Nat) (l : List Byte) : (s.hostPut a l).wq = s.wq := rfl
@[simp] theorem State.hostPut_seqs (s : State) (a : Nat) (l : List Byte) : (s.hostPut a l).seqs = s.seqs := rfl
@[simp] theorem State.hostPut_store (s : State) (a : Nat) (l : List Byte) : (s.hostPut a l).store = s.store := rfl
@[simp] theorem State.hostPut_sync (s : State) (a : Nat) (l : List Byte) : (s.hostPut a l).sync = s.sync := rfl
@[simp] theorem State.hostPut_flight (s : State) (a : Nat) (l : List Byte) : (s.hostPut a l).flight = s.flight := rfl
@[simp] theorem State.hostPut_pos (s : State) (a : Nat) (l : List Byte) : (s.hostPut a l).pos = s.pos := rfl
@[simp] theorem State.hostPut_boot (s : State) (a : Nat) (l : List Byte) : (s.hostPut a l).boot = s.boot := rfl
@[simp] theorem State.hostPut_hdmDecoder (s : State) (a : Nat) (l : List Byte) : (s.hostPut a l).hdmDecoder = s.hdmDecoder := rfl
@[simp] theorem State.hostPut_engines (s : State) (a : Nat) (l : List Byte) : (s.hostPut a l).engines = s.engines := rfl
@[simp] theorem State.hostPut_attic (s : State) (a : Nat) (l : List Byte) : (s.hostPut a l).attic = s.attic := rfl
@[simp] theorem State.hostPut_passes (s : State) (a : Nat) (l : List Byte) : (s.hostPut a l).passes = s.passes := rfl
@[simp] theorem State.hostPut_verdicts (s : State) (a : Nat) (l : List Byte) : (s.hostPut a l).verdicts = s.verdicts := rfl
@[simp] theorem State.hostPut_runs (s : State) (a : Nat) (l : List Byte) : (s.hostPut a l).runs = s.runs := rfl
@[simp] theorem State.hostPut_stats (s : State) (a : Nat) (l : List Byte) : (s.hostPut a l).stats = s.stats := rfl
@[simp] theorem State.hostPut_troubles (s : State) (a : Nat) (l : List Byte) : (s.hostPut a l).troubles = s.troubles := rfl
@[simp] theorem State.hostPut_cal (s : State) (a : Nat) (l : List Byte) : (s.hostPut a l).cal = s.cal := rfl
@[simp] theorem State.hostPut_epoch (s : State) (a : Nat) (l : List Byte) : (s.hostPut a l).epoch = s.epoch := rfl
@[simp] theorem State.hostPut_ash (s : State) (a : Nat) (l : List Byte) : (s.hostPut a l).ash = s.ash := rfl
@[simp] theorem State.hostPut_slots (s : State) (a : Nat) (l : List Byte) : (s.hostPut a l).slots = s.slots := rfl
@[simp] theorem State.hostPut_images (s : State) (a : Nat) (l : List Byte) : (s.hostPut a l).images = s.images := rfl
@[simp] theorem State.hostPut_reqs (s : State) (a : Nat) (l : List Byte) : (s.hostPut a l).reqs = s.reqs := rfl
@[simp] theorem State.hostPut_adapters (s : State) (a : Nat) (l : List Byte) : (s.hostPut a l).adapters = s.adapters := rfl
@[simp] theorem State.hostPut_tables (s : State) (a : Nat) (l : List Byte) : (s.hostPut a l).tables = s.tables := rfl
@[simp] theorem State.hostPut_pools (s : State) (a : Nat) (l : List Byte) : (s.hostPut a l).pools = s.pools := rfl
@[simp] theorem State.hostPut_step (s : State) (a : Nat) (l : List Byte) : (s.hostPut a l).step = s.step := rfl
@[simp] theorem State.hostPut_det (s : State) (a : Nat) (l : List Byte) : (s.hostPut a l).det = s.det := rfl
@[simp] theorem State.hostPut_hk (s : State) (a : Nat) (l : List Byte) : (s.hostPut a l).hk = s.hk := rfl
@[simp] theorem State.hostPut_walks (s : State) (a : Nat) (l : List Byte) : (s.hostPut a l).walks = s.walks := rfl
@[simp] theorem State.hostPut_fab (s : State) (a : Nat) (l : List Byte) : (s.hostPut a l).fab = s.fab := rfl
@[simp] theorem State.hostPut_topo (s : State) (a : Nat) (l : List Byte) : (s.hostPut a l).topo = s.topo := rfl
@[simp] theorem State.hostPut_inst (s : State) (a : Nat) (l : List Byte) : (s.hostPut a l).inst = s.inst := rfl
@[simp] theorem State.hostPut_sec (s : State) (a : Nat) (l : List Byte) : (s.hostPut a l).sec = s.sec := rfl
@[simp] theorem State.hostPut_fw (s : State) (a : Nat) (l : List Byte) : (s.hostPut a l).fw = s.fw := rfl
@[simp] theorem State.hostPut_plan (s : State) (a : Nat) (l : List Byte) : (s.hostPut a l).plan = s.plan := rfl

@[simp] theorem State.setSeq_pending (s : State) (q : Nat) (x : Sequencer) : (s.setSeq q x).pending = s.pending := rfl
@[simp] theorem State.setSeq_fresh (s : State) (q : Nat) (x : Sequencer) : (s.setSeq q x).fresh = s.fresh := rfl
@[simp] theorem State.setSeq_part (s : State) (q : Nat) (x : Sequencer) : (s.setSeq q x).part = s.part := rfl
@[simp] theorem State.setSeq_regs (s : State) (q : Nat) (x : Sequencer) : (s.setSeq q x).regs = s.regs := rfl
@[simp] theorem State.setSeq_live (s : State) (q : Nat) (x : Sequencer) : (s.setSeq q x).live = s.live := rfl
@[simp] theorem State.setSeq_staged (s : State) (q : Nat) (x : Sequencer) : (s.setSeq q x).staged = s.staged := rfl
@[simp] theorem State.setSeq_commit (s : State) (q : Nat) (x : Sequencer) : (s.setSeq q x).commit = s.commit := rfl
@[simp] theorem State.setSeq_time (s : State) (q : Nat) (x : Sequencer) : (s.setSeq q x).time = s.time := rfl
@[simp] theorem State.setSeq_ev (s : State) (q : Nat) (x : Sequencer) : (s.setSeq q x).ev = s.ev := rfl
@[simp] theorem State.setSeq_irq (s : State) (q : Nat) (x : Sequencer) : (s.setSeq q x).irq = s.irq := rfl
@[simp] theorem State.setSeq_hmem (s : State) (q : Nat) (x : Sequencer) : (s.setSeq q x).hmem = s.hmem := rfl
@[simp] theorem State.setSeq_chans (s : State) (q : Nat) (x : Sequencer) : (s.setSeq q x).chans = s.chans := rfl
@[simp] theorem State.setSeq_cq (s : State) (q : Nat) (x : Sequencer) : (s.setSeq q x).cq = s.cq := rfl
@[simp] theorem State.setSeq_mem (s : State) (q : Nat) (x : Sequencer) : (s.setSeq q x).mem = s.mem := rfl
@[simp] theorem State.setSeq_wq (s : State) (q : Nat) (x : Sequencer) : (s.setSeq q x).wq = s.wq := rfl
@[simp] theorem State.setSeq_store (s : State) (q : Nat) (x : Sequencer) : (s.setSeq q x).store = s.store := rfl
@[simp] theorem State.setSeq_sync (s : State) (q : Nat) (x : Sequencer) : (s.setSeq q x).sync = s.sync := rfl
@[simp] theorem State.setSeq_flight (s : State) (q : Nat) (x : Sequencer) : (s.setSeq q x).flight = s.flight := rfl
@[simp] theorem State.setSeq_pos (s : State) (q : Nat) (x : Sequencer) : (s.setSeq q x).pos = s.pos := rfl
@[simp] theorem State.setSeq_boot (s : State) (q : Nat) (x : Sequencer) : (s.setSeq q x).boot = s.boot := rfl
@[simp] theorem State.setSeq_hdmDecoder (s : State) (q : Nat) (x : Sequencer) : (s.setSeq q x).hdmDecoder = s.hdmDecoder := rfl
@[simp] theorem State.setSeq_engines (s : State) (q : Nat) (x : Sequencer) : (s.setSeq q x).engines = s.engines := rfl
@[simp] theorem State.setSeq_attic (s : State) (q : Nat) (x : Sequencer) : (s.setSeq q x).attic = s.attic := rfl
@[simp] theorem State.setSeq_passes (s : State) (q : Nat) (x : Sequencer) : (s.setSeq q x).passes = s.passes := rfl
@[simp] theorem State.setSeq_verdicts (s : State) (q : Nat) (x : Sequencer) : (s.setSeq q x).verdicts = s.verdicts := rfl
@[simp] theorem State.setSeq_runs (s : State) (q : Nat) (x : Sequencer) : (s.setSeq q x).runs = s.runs := rfl
@[simp] theorem State.setSeq_stats (s : State) (q : Nat) (x : Sequencer) : (s.setSeq q x).stats = s.stats := rfl
@[simp] theorem State.setSeq_troubles (s : State) (q : Nat) (x : Sequencer) : (s.setSeq q x).troubles = s.troubles := rfl
@[simp] theorem State.setSeq_cal (s : State) (q : Nat) (x : Sequencer) : (s.setSeq q x).cal = s.cal := rfl
@[simp] theorem State.setSeq_epoch (s : State) (q : Nat) (x : Sequencer) : (s.setSeq q x).epoch = s.epoch := rfl
@[simp] theorem State.setSeq_ash (s : State) (q : Nat) (x : Sequencer) : (s.setSeq q x).ash = s.ash := rfl
@[simp] theorem State.setSeq_slots (s : State) (q : Nat) (x : Sequencer) : (s.setSeq q x).slots = s.slots := rfl
@[simp] theorem State.setSeq_images (s : State) (q : Nat) (x : Sequencer) : (s.setSeq q x).images = s.images := rfl
@[simp] theorem State.setSeq_reqs (s : State) (q : Nat) (x : Sequencer) : (s.setSeq q x).reqs = s.reqs := rfl
@[simp] theorem State.setSeq_adapters (s : State) (q : Nat) (x : Sequencer) : (s.setSeq q x).adapters = s.adapters := rfl
@[simp] theorem State.setSeq_tables (s : State) (q : Nat) (x : Sequencer) : (s.setSeq q x).tables = s.tables := rfl
@[simp] theorem State.setSeq_pools (s : State) (q : Nat) (x : Sequencer) : (s.setSeq q x).pools = s.pools := rfl
@[simp] theorem State.setSeq_step (s : State) (q : Nat) (x : Sequencer) : (s.setSeq q x).step = s.step := rfl
@[simp] theorem State.setSeq_det (s : State) (q : Nat) (x : Sequencer) : (s.setSeq q x).det = s.det := rfl
@[simp] theorem State.setSeq_hk (s : State) (q : Nat) (x : Sequencer) : (s.setSeq q x).hk = s.hk := rfl
@[simp] theorem State.setSeq_walks (s : State) (q : Nat) (x : Sequencer) : (s.setSeq q x).walks = s.walks := rfl
@[simp] theorem State.setSeq_fab (s : State) (q : Nat) (x : Sequencer) : (s.setSeq q x).fab = s.fab := rfl
@[simp] theorem State.setSeq_topo (s : State) (q : Nat) (x : Sequencer) : (s.setSeq q x).topo = s.topo := rfl
@[simp] theorem State.setSeq_inst (s : State) (q : Nat) (x : Sequencer) : (s.setSeq q x).inst = s.inst := rfl
@[simp] theorem State.setSeq_sec (s : State) (q : Nat) (x : Sequencer) : (s.setSeq q x).sec = s.sec := rfl
@[simp] theorem State.setSeq_fw (s : State) (q : Nat) (x : Sequencer) : (s.setSeq q x).fw = s.fw := rfl
@[simp] theorem State.setSeq_plan (s : State) (q : Nat) (x : Sequencer) : (s.setSeq q x).plan = s.plan := rfl

@[simp] theorem State.setQueue_pending (s : State) (g : Nat) (x : Queue) : (s.setQueue g x).pending = s.pending := rfl
@[simp] theorem State.setQueue_fresh (s : State) (g : Nat) (x : Queue) : (s.setQueue g x).fresh = s.fresh := rfl
@[simp] theorem State.setQueue_part (s : State) (g : Nat) (x : Queue) : (s.setQueue g x).part = s.part := rfl
@[simp] theorem State.setQueue_regs (s : State) (g : Nat) (x : Queue) : (s.setQueue g x).regs = s.regs := rfl
@[simp] theorem State.setQueue_live (s : State) (g : Nat) (x : Queue) : (s.setQueue g x).live = s.live := rfl
@[simp] theorem State.setQueue_staged (s : State) (g : Nat) (x : Queue) : (s.setQueue g x).staged = s.staged := rfl
@[simp] theorem State.setQueue_commit (s : State) (g : Nat) (x : Queue) : (s.setQueue g x).commit = s.commit := rfl
@[simp] theorem State.setQueue_time (s : State) (g : Nat) (x : Queue) : (s.setQueue g x).time = s.time := rfl
@[simp] theorem State.setQueue_ev (s : State) (g : Nat) (x : Queue) : (s.setQueue g x).ev = s.ev := rfl
@[simp] theorem State.setQueue_irq (s : State) (g : Nat) (x : Queue) : (s.setQueue g x).irq = s.irq := rfl
@[simp] theorem State.setQueue_hmem (s : State) (g : Nat) (x : Queue) : (s.setQueue g x).hmem = s.hmem := rfl
@[simp] theorem State.setQueue_chans (s : State) (g : Nat) (x : Queue) : (s.setQueue g x).chans = s.chans := rfl
@[simp] theorem State.setQueue_cq (s : State) (g : Nat) (x : Queue) : (s.setQueue g x).cq = s.cq := rfl
@[simp] theorem State.setQueue_mem (s : State) (g : Nat) (x : Queue) : (s.setQueue g x).mem = s.mem := rfl
@[simp] theorem State.setQueue_seqs (s : State) (g : Nat) (x : Queue) : (s.setQueue g x).seqs = s.seqs := rfl
@[simp] theorem State.setQueue_store (s : State) (g : Nat) (x : Queue) : (s.setQueue g x).store = s.store := rfl
@[simp] theorem State.setQueue_sync (s : State) (g : Nat) (x : Queue) : (s.setQueue g x).sync = s.sync := rfl
@[simp] theorem State.setQueue_flight (s : State) (g : Nat) (x : Queue) : (s.setQueue g x).flight = s.flight := rfl
@[simp] theorem State.setQueue_pos (s : State) (g : Nat) (x : Queue) : (s.setQueue g x).pos = s.pos := rfl
@[simp] theorem State.setQueue_boot (s : State) (g : Nat) (x : Queue) : (s.setQueue g x).boot = s.boot := rfl
@[simp] theorem State.setQueue_hdmDecoder (s : State) (g : Nat) (x : Queue) : (s.setQueue g x).hdmDecoder = s.hdmDecoder := rfl
@[simp] theorem State.setQueue_engines (s : State) (g : Nat) (x : Queue) : (s.setQueue g x).engines = s.engines := rfl
@[simp] theorem State.setQueue_attic (s : State) (g : Nat) (x : Queue) : (s.setQueue g x).attic = s.attic := rfl
@[simp] theorem State.setQueue_passes (s : State) (g : Nat) (x : Queue) : (s.setQueue g x).passes = s.passes := rfl
@[simp] theorem State.setQueue_verdicts (s : State) (g : Nat) (x : Queue) : (s.setQueue g x).verdicts = s.verdicts := rfl
@[simp] theorem State.setQueue_runs (s : State) (g : Nat) (x : Queue) : (s.setQueue g x).runs = s.runs := rfl
@[simp] theorem State.setQueue_stats (s : State) (g : Nat) (x : Queue) : (s.setQueue g x).stats = s.stats := rfl
@[simp] theorem State.setQueue_troubles (s : State) (g : Nat) (x : Queue) : (s.setQueue g x).troubles = s.troubles := rfl
@[simp] theorem State.setQueue_cal (s : State) (g : Nat) (x : Queue) : (s.setQueue g x).cal = s.cal := rfl
@[simp] theorem State.setQueue_epoch (s : State) (g : Nat) (x : Queue) : (s.setQueue g x).epoch = s.epoch := rfl
@[simp] theorem State.setQueue_ash (s : State) (g : Nat) (x : Queue) : (s.setQueue g x).ash = s.ash := rfl
@[simp] theorem State.setQueue_slots (s : State) (g : Nat) (x : Queue) : (s.setQueue g x).slots = s.slots := rfl
@[simp] theorem State.setQueue_images (s : State) (g : Nat) (x : Queue) : (s.setQueue g x).images = s.images := rfl
@[simp] theorem State.setQueue_reqs (s : State) (g : Nat) (x : Queue) : (s.setQueue g x).reqs = s.reqs := rfl
@[simp] theorem State.setQueue_adapters (s : State) (g : Nat) (x : Queue) : (s.setQueue g x).adapters = s.adapters := rfl
@[simp] theorem State.setQueue_tables (s : State) (g : Nat) (x : Queue) : (s.setQueue g x).tables = s.tables := rfl
@[simp] theorem State.setQueue_pools (s : State) (g : Nat) (x : Queue) : (s.setQueue g x).pools = s.pools := rfl
@[simp] theorem State.setQueue_step (s : State) (g : Nat) (x : Queue) : (s.setQueue g x).step = s.step := rfl
@[simp] theorem State.setQueue_det (s : State) (g : Nat) (x : Queue) : (s.setQueue g x).det = s.det := rfl
@[simp] theorem State.setQueue_hk (s : State) (g : Nat) (x : Queue) : (s.setQueue g x).hk = s.hk := rfl
@[simp] theorem State.setQueue_walks (s : State) (g : Nat) (x : Queue) : (s.setQueue g x).walks = s.walks := rfl
@[simp] theorem State.setQueue_fab (s : State) (g : Nat) (x : Queue) : (s.setQueue g x).fab = s.fab := rfl
@[simp] theorem State.setQueue_topo (s : State) (g : Nat) (x : Queue) : (s.setQueue g x).topo = s.topo := rfl
@[simp] theorem State.setQueue_inst (s : State) (g : Nat) (x : Queue) : (s.setQueue g x).inst = s.inst := rfl
@[simp] theorem State.setQueue_sec (s : State) (g : Nat) (x : Queue) : (s.setQueue g x).sec = s.sec := rfl
@[simp] theorem State.setQueue_fw (s : State) (g : Nat) (x : Queue) : (s.setQueue g x).fw = s.fw := rfl
@[simp] theorem State.setQueue_plan (s : State) (g : Nat) (x : Queue) : (s.setQueue g x).plan = s.plan := rfl

@[simp] theorem State.setObj_pending (s : State) (n : Nat) (x : SyncObj) : (s.setObj n x).pending = s.pending := rfl
@[simp] theorem State.setObj_fresh (s : State) (n : Nat) (x : SyncObj) : (s.setObj n x).fresh = s.fresh := rfl
@[simp] theorem State.setObj_part (s : State) (n : Nat) (x : SyncObj) : (s.setObj n x).part = s.part := rfl
@[simp] theorem State.setObj_regs (s : State) (n : Nat) (x : SyncObj) : (s.setObj n x).regs = s.regs := rfl
@[simp] theorem State.setObj_live (s : State) (n : Nat) (x : SyncObj) : (s.setObj n x).live = s.live := rfl
@[simp] theorem State.setObj_staged (s : State) (n : Nat) (x : SyncObj) : (s.setObj n x).staged = s.staged := rfl
@[simp] theorem State.setObj_commit (s : State) (n : Nat) (x : SyncObj) : (s.setObj n x).commit = s.commit := rfl
@[simp] theorem State.setObj_time (s : State) (n : Nat) (x : SyncObj) : (s.setObj n x).time = s.time := rfl
@[simp] theorem State.setObj_ev (s : State) (n : Nat) (x : SyncObj) : (s.setObj n x).ev = s.ev := rfl
@[simp] theorem State.setObj_irq (s : State) (n : Nat) (x : SyncObj) : (s.setObj n x).irq = s.irq := rfl
@[simp] theorem State.setObj_hmem (s : State) (n : Nat) (x : SyncObj) : (s.setObj n x).hmem = s.hmem := rfl
@[simp] theorem State.setObj_chans (s : State) (n : Nat) (x : SyncObj) : (s.setObj n x).chans = s.chans := rfl
@[simp] theorem State.setObj_cq (s : State) (n : Nat) (x : SyncObj) : (s.setObj n x).cq = s.cq := rfl
@[simp] theorem State.setObj_mem (s : State) (n : Nat) (x : SyncObj) : (s.setObj n x).mem = s.mem := rfl
@[simp] theorem State.setObj_wq (s : State) (n : Nat) (x : SyncObj) : (s.setObj n x).wq = s.wq := rfl
@[simp] theorem State.setObj_seqs (s : State) (n : Nat) (x : SyncObj) : (s.setObj n x).seqs = s.seqs := rfl
@[simp] theorem State.setObj_store (s : State) (n : Nat) (x : SyncObj) : (s.setObj n x).store = s.store := rfl
@[simp] theorem State.setObj_flight (s : State) (n : Nat) (x : SyncObj) : (s.setObj n x).flight = s.flight := rfl
@[simp] theorem State.setObj_pos (s : State) (n : Nat) (x : SyncObj) : (s.setObj n x).pos = s.pos := rfl
@[simp] theorem State.setObj_boot (s : State) (n : Nat) (x : SyncObj) : (s.setObj n x).boot = s.boot := rfl
@[simp] theorem State.setObj_hdmDecoder (s : State) (n : Nat) (x : SyncObj) : (s.setObj n x).hdmDecoder = s.hdmDecoder := rfl
@[simp] theorem State.setObj_engines (s : State) (n : Nat) (x : SyncObj) : (s.setObj n x).engines = s.engines := rfl
@[simp] theorem State.setObj_attic (s : State) (n : Nat) (x : SyncObj) : (s.setObj n x).attic = s.attic := rfl
@[simp] theorem State.setObj_passes (s : State) (n : Nat) (x : SyncObj) : (s.setObj n x).passes = s.passes := rfl
@[simp] theorem State.setObj_verdicts (s : State) (n : Nat) (x : SyncObj) : (s.setObj n x).verdicts = s.verdicts := rfl
@[simp] theorem State.setObj_runs (s : State) (n : Nat) (x : SyncObj) : (s.setObj n x).runs = s.runs := rfl
@[simp] theorem State.setObj_stats (s : State) (n : Nat) (x : SyncObj) : (s.setObj n x).stats = s.stats := rfl
@[simp] theorem State.setObj_troubles (s : State) (n : Nat) (x : SyncObj) : (s.setObj n x).troubles = s.troubles := rfl
@[simp] theorem State.setObj_cal (s : State) (n : Nat) (x : SyncObj) : (s.setObj n x).cal = s.cal := rfl
@[simp] theorem State.setObj_epoch (s : State) (n : Nat) (x : SyncObj) : (s.setObj n x).epoch = s.epoch := rfl
@[simp] theorem State.setObj_ash (s : State) (n : Nat) (x : SyncObj) : (s.setObj n x).ash = s.ash := rfl
@[simp] theorem State.setObj_slots (s : State) (n : Nat) (x : SyncObj) : (s.setObj n x).slots = s.slots := rfl
@[simp] theorem State.setObj_images (s : State) (n : Nat) (x : SyncObj) : (s.setObj n x).images = s.images := rfl
@[simp] theorem State.setObj_reqs (s : State) (n : Nat) (x : SyncObj) : (s.setObj n x).reqs = s.reqs := rfl
@[simp] theorem State.setObj_adapters (s : State) (n : Nat) (x : SyncObj) : (s.setObj n x).adapters = s.adapters := rfl
@[simp] theorem State.setObj_tables (s : State) (n : Nat) (x : SyncObj) : (s.setObj n x).tables = s.tables := rfl
@[simp] theorem State.setObj_pools (s : State) (n : Nat) (x : SyncObj) : (s.setObj n x).pools = s.pools := rfl
@[simp] theorem State.setObj_step (s : State) (n : Nat) (x : SyncObj) : (s.setObj n x).step = s.step := rfl
@[simp] theorem State.setObj_det (s : State) (n : Nat) (x : SyncObj) : (s.setObj n x).det = s.det := rfl
@[simp] theorem State.setObj_hk (s : State) (n : Nat) (x : SyncObj) : (s.setObj n x).hk = s.hk := rfl
@[simp] theorem State.setObj_walks (s : State) (n : Nat) (x : SyncObj) : (s.setObj n x).walks = s.walks := rfl
@[simp] theorem State.setObj_fab (s : State) (n : Nat) (x : SyncObj) : (s.setObj n x).fab = s.fab := rfl
@[simp] theorem State.setObj_topo (s : State) (n : Nat) (x : SyncObj) : (s.setObj n x).topo = s.topo := rfl
@[simp] theorem State.setObj_inst (s : State) (n : Nat) (x : SyncObj) : (s.setObj n x).inst = s.inst := rfl
@[simp] theorem State.setObj_sec (s : State) (n : Nat) (x : SyncObj) : (s.setObj n x).sec = s.sec := rfl
@[simp] theorem State.setObj_fw (s : State) (n : Nat) (x : SyncObj) : (s.setObj n x).fw = s.fw := rfl
@[simp] theorem State.setObj_plan (s : State) (n : Nat) (x : SyncObj) : (s.setObj n x).plan = s.plan := rfl

@[simp] theorem State.setEngine_pending (s : State) (e : Nat) (x : Engine) : (s.setEngine e x).pending = s.pending := rfl
@[simp] theorem State.setEngine_fresh (s : State) (e : Nat) (x : Engine) : (s.setEngine e x).fresh = s.fresh := rfl
@[simp] theorem State.setEngine_part (s : State) (e : Nat) (x : Engine) : (s.setEngine e x).part = s.part := rfl
@[simp] theorem State.setEngine_regs (s : State) (e : Nat) (x : Engine) : (s.setEngine e x).regs = s.regs := rfl
@[simp] theorem State.setEngine_live (s : State) (e : Nat) (x : Engine) : (s.setEngine e x).live = s.live := rfl
@[simp] theorem State.setEngine_staged (s : State) (e : Nat) (x : Engine) : (s.setEngine e x).staged = s.staged := rfl
@[simp] theorem State.setEngine_commit (s : State) (e : Nat) (x : Engine) : (s.setEngine e x).commit = s.commit := rfl
@[simp] theorem State.setEngine_time (s : State) (e : Nat) (x : Engine) : (s.setEngine e x).time = s.time := rfl
@[simp] theorem State.setEngine_ev (s : State) (e : Nat) (x : Engine) : (s.setEngine e x).ev = s.ev := rfl
@[simp] theorem State.setEngine_irq (s : State) (e : Nat) (x : Engine) : (s.setEngine e x).irq = s.irq := rfl
@[simp] theorem State.setEngine_hmem (s : State) (e : Nat) (x : Engine) : (s.setEngine e x).hmem = s.hmem := rfl
@[simp] theorem State.setEngine_chans (s : State) (e : Nat) (x : Engine) : (s.setEngine e x).chans = s.chans := rfl
@[simp] theorem State.setEngine_cq (s : State) (e : Nat) (x : Engine) : (s.setEngine e x).cq = s.cq := rfl
@[simp] theorem State.setEngine_mem (s : State) (e : Nat) (x : Engine) : (s.setEngine e x).mem = s.mem := rfl
@[simp] theorem State.setEngine_wq (s : State) (e : Nat) (x : Engine) : (s.setEngine e x).wq = s.wq := rfl
@[simp] theorem State.setEngine_seqs (s : State) (e : Nat) (x : Engine) : (s.setEngine e x).seqs = s.seqs := rfl
@[simp] theorem State.setEngine_store (s : State) (e : Nat) (x : Engine) : (s.setEngine e x).store = s.store := rfl
@[simp] theorem State.setEngine_sync (s : State) (e : Nat) (x : Engine) : (s.setEngine e x).sync = s.sync := rfl
@[simp] theorem State.setEngine_flight (s : State) (e : Nat) (x : Engine) : (s.setEngine e x).flight = s.flight := rfl
@[simp] theorem State.setEngine_pos (s : State) (e : Nat) (x : Engine) : (s.setEngine e x).pos = s.pos := rfl
@[simp] theorem State.setEngine_boot (s : State) (e : Nat) (x : Engine) : (s.setEngine e x).boot = s.boot := rfl
@[simp] theorem State.setEngine_hdmDecoder (s : State) (e : Nat) (x : Engine) : (s.setEngine e x).hdmDecoder = s.hdmDecoder := rfl
@[simp] theorem State.setEngine_attic (s : State) (e : Nat) (x : Engine) : (s.setEngine e x).attic = s.attic := rfl
@[simp] theorem State.setEngine_passes (s : State) (e : Nat) (x : Engine) : (s.setEngine e x).passes = s.passes := rfl
@[simp] theorem State.setEngine_verdicts (s : State) (e : Nat) (x : Engine) : (s.setEngine e x).verdicts = s.verdicts := rfl
@[simp] theorem State.setEngine_runs (s : State) (e : Nat) (x : Engine) : (s.setEngine e x).runs = s.runs := rfl
@[simp] theorem State.setEngine_stats (s : State) (e : Nat) (x : Engine) : (s.setEngine e x).stats = s.stats := rfl
@[simp] theorem State.setEngine_troubles (s : State) (e : Nat) (x : Engine) : (s.setEngine e x).troubles = s.troubles := rfl
@[simp] theorem State.setEngine_cal (s : State) (e : Nat) (x : Engine) : (s.setEngine e x).cal = s.cal := rfl
@[simp] theorem State.setEngine_epoch (s : State) (e : Nat) (x : Engine) : (s.setEngine e x).epoch = s.epoch := rfl
@[simp] theorem State.setEngine_ash (s : State) (e : Nat) (x : Engine) : (s.setEngine e x).ash = s.ash := rfl
@[simp] theorem State.setEngine_slots (s : State) (e : Nat) (x : Engine) : (s.setEngine e x).slots = s.slots := rfl
@[simp] theorem State.setEngine_images (s : State) (e : Nat) (x : Engine) : (s.setEngine e x).images = s.images := rfl
@[simp] theorem State.setEngine_reqs (s : State) (e : Nat) (x : Engine) : (s.setEngine e x).reqs = s.reqs := rfl
@[simp] theorem State.setEngine_adapters (s : State) (e : Nat) (x : Engine) : (s.setEngine e x).adapters = s.adapters := rfl
@[simp] theorem State.setEngine_tables (s : State) (e : Nat) (x : Engine) : (s.setEngine e x).tables = s.tables := rfl
@[simp] theorem State.setEngine_pools (s : State) (e : Nat) (x : Engine) : (s.setEngine e x).pools = s.pools := rfl
@[simp] theorem State.setEngine_step (s : State) (e : Nat) (x : Engine) : (s.setEngine e x).step = s.step := rfl
@[simp] theorem State.setEngine_det (s : State) (e : Nat) (x : Engine) : (s.setEngine e x).det = s.det := rfl
@[simp] theorem State.setEngine_hk (s : State) (e : Nat) (x : Engine) : (s.setEngine e x).hk = s.hk := rfl
@[simp] theorem State.setEngine_walks (s : State) (e : Nat) (x : Engine) : (s.setEngine e x).walks = s.walks := rfl
@[simp] theorem State.setEngine_fab (s : State) (e : Nat) (x : Engine) : (s.setEngine e x).fab = s.fab := rfl
@[simp] theorem State.setEngine_topo (s : State) (e : Nat) (x : Engine) : (s.setEngine e x).topo = s.topo := rfl
@[simp] theorem State.setEngine_inst (s : State) (e : Nat) (x : Engine) : (s.setEngine e x).inst = s.inst := rfl
@[simp] theorem State.setEngine_sec (s : State) (e : Nat) (x : Engine) : (s.setEngine e x).sec = s.sec := rfl
@[simp] theorem State.setEngine_fw (s : State) (e : Nat) (x : Engine) : (s.setEngine e x).fw = s.fw := rfl
@[simp] theorem State.setEngine_plan (s : State) (e : Nat) (x : Engine) : (s.setEngine e x).plan = s.plan := rfl

@[simp] theorem State.setReq_pending (s : State) (i : Nat) (r : Req) : (s.setReq i r).pending = s.pending := rfl
@[simp] theorem State.setReq_fresh (s : State) (i : Nat) (r : Req) : (s.setReq i r).fresh = s.fresh := rfl
@[simp] theorem State.setReq_part (s : State) (i : Nat) (r : Req) : (s.setReq i r).part = s.part := rfl
@[simp] theorem State.setReq_regs (s : State) (i : Nat) (r : Req) : (s.setReq i r).regs = s.regs := rfl
@[simp] theorem State.setReq_live (s : State) (i : Nat) (r : Req) : (s.setReq i r).live = s.live := rfl
@[simp] theorem State.setReq_staged (s : State) (i : Nat) (r : Req) : (s.setReq i r).staged = s.staged := rfl
@[simp] theorem State.setReq_commit (s : State) (i : Nat) (r : Req) : (s.setReq i r).commit = s.commit := rfl
@[simp] theorem State.setReq_time (s : State) (i : Nat) (r : Req) : (s.setReq i r).time = s.time := rfl
@[simp] theorem State.setReq_ev (s : State) (i : Nat) (r : Req) : (s.setReq i r).ev = s.ev := rfl
@[simp] theorem State.setReq_irq (s : State) (i : Nat) (r : Req) : (s.setReq i r).irq = s.irq := rfl
@[simp] theorem State.setReq_hmem (s : State) (i : Nat) (r : Req) : (s.setReq i r).hmem = s.hmem := rfl
@[simp] theorem State.setReq_chans (s : State) (i : Nat) (r : Req) : (s.setReq i r).chans = s.chans := rfl
@[simp] theorem State.setReq_cq (s : State) (i : Nat) (r : Req) : (s.setReq i r).cq = s.cq := rfl
@[simp] theorem State.setReq_mem (s : State) (i : Nat) (r : Req) : (s.setReq i r).mem = s.mem := rfl
@[simp] theorem State.setReq_wq (s : State) (i : Nat) (r : Req) : (s.setReq i r).wq = s.wq := rfl
@[simp] theorem State.setReq_seqs (s : State) (i : Nat) (r : Req) : (s.setReq i r).seqs = s.seqs := rfl
@[simp] theorem State.setReq_store (s : State) (i : Nat) (r : Req) : (s.setReq i r).store = s.store := rfl
@[simp] theorem State.setReq_sync (s : State) (i : Nat) (r : Req) : (s.setReq i r).sync = s.sync := rfl
@[simp] theorem State.setReq_flight (s : State) (i : Nat) (r : Req) : (s.setReq i r).flight = s.flight := rfl
@[simp] theorem State.setReq_pos (s : State) (i : Nat) (r : Req) : (s.setReq i r).pos = s.pos := rfl
@[simp] theorem State.setReq_boot (s : State) (i : Nat) (r : Req) : (s.setReq i r).boot = s.boot := rfl
@[simp] theorem State.setReq_hdmDecoder (s : State) (i : Nat) (r : Req) : (s.setReq i r).hdmDecoder = s.hdmDecoder := rfl
@[simp] theorem State.setReq_engines (s : State) (i : Nat) (r : Req) : (s.setReq i r).engines = s.engines := rfl
@[simp] theorem State.setReq_attic (s : State) (i : Nat) (r : Req) : (s.setReq i r).attic = s.attic := rfl
@[simp] theorem State.setReq_passes (s : State) (i : Nat) (r : Req) : (s.setReq i r).passes = s.passes := rfl
@[simp] theorem State.setReq_verdicts (s : State) (i : Nat) (r : Req) : (s.setReq i r).verdicts = s.verdicts := rfl
@[simp] theorem State.setReq_runs (s : State) (i : Nat) (r : Req) : (s.setReq i r).runs = s.runs := rfl
@[simp] theorem State.setReq_stats (s : State) (i : Nat) (r : Req) : (s.setReq i r).stats = s.stats := rfl
@[simp] theorem State.setReq_troubles (s : State) (i : Nat) (r : Req) : (s.setReq i r).troubles = s.troubles := rfl
@[simp] theorem State.setReq_cal (s : State) (i : Nat) (r : Req) : (s.setReq i r).cal = s.cal := rfl
@[simp] theorem State.setReq_epoch (s : State) (i : Nat) (r : Req) : (s.setReq i r).epoch = s.epoch := rfl
@[simp] theorem State.setReq_ash (s : State) (i : Nat) (r : Req) : (s.setReq i r).ash = s.ash := rfl
@[simp] theorem State.setReq_slots (s : State) (i : Nat) (r : Req) : (s.setReq i r).slots = s.slots := rfl
@[simp] theorem State.setReq_images (s : State) (i : Nat) (r : Req) : (s.setReq i r).images = s.images := rfl
@[simp] theorem State.setReq_adapters (s : State) (i : Nat) (r : Req) : (s.setReq i r).adapters = s.adapters := rfl
@[simp] theorem State.setReq_tables (s : State) (i : Nat) (r : Req) : (s.setReq i r).tables = s.tables := rfl
@[simp] theorem State.setReq_pools (s : State) (i : Nat) (r : Req) : (s.setReq i r).pools = s.pools := rfl
@[simp] theorem State.setReq_step (s : State) (i : Nat) (r : Req) : (s.setReq i r).step = s.step := rfl
@[simp] theorem State.setReq_det (s : State) (i : Nat) (r : Req) : (s.setReq i r).det = s.det := rfl
@[simp] theorem State.setReq_hk (s : State) (i : Nat) (r : Req) : (s.setReq i r).hk = s.hk := rfl
@[simp] theorem State.setReq_walks (s : State) (i : Nat) (r : Req) : (s.setReq i r).walks = s.walks := rfl
@[simp] theorem State.setReq_fab (s : State) (i : Nat) (r : Req) : (s.setReq i r).fab = s.fab := rfl
@[simp] theorem State.setReq_topo (s : State) (i : Nat) (r : Req) : (s.setReq i r).topo = s.topo := rfl
@[simp] theorem State.setReq_inst (s : State) (i : Nat) (r : Req) : (s.setReq i r).inst = s.inst := rfl
@[simp] theorem State.setReq_sec (s : State) (i : Nat) (r : Req) : (s.setReq i r).sec = s.sec := rfl
@[simp] theorem State.setReq_fw (s : State) (i : Nat) (r : Req) : (s.setReq i r).fw = s.fw := rfl
@[simp] theorem State.setReq_plan (s : State) (i : Nat) (r : Req) : (s.setReq i r).plan = s.plan := rfl

@[simp] theorem State.setSlot_pending (s : State) (i : Nat) (x : Slot) : (s.setSlot i x).pending = s.pending := rfl
@[simp] theorem State.setSlot_fresh (s : State) (i : Nat) (x : Slot) : (s.setSlot i x).fresh = s.fresh := rfl
@[simp] theorem State.setSlot_part (s : State) (i : Nat) (x : Slot) : (s.setSlot i x).part = s.part := rfl
@[simp] theorem State.setSlot_regs (s : State) (i : Nat) (x : Slot) : (s.setSlot i x).regs = s.regs := rfl
@[simp] theorem State.setSlot_live (s : State) (i : Nat) (x : Slot) : (s.setSlot i x).live = s.live := rfl
@[simp] theorem State.setSlot_staged (s : State) (i : Nat) (x : Slot) : (s.setSlot i x).staged = s.staged := rfl
@[simp] theorem State.setSlot_commit (s : State) (i : Nat) (x : Slot) : (s.setSlot i x).commit = s.commit := rfl
@[simp] theorem State.setSlot_time (s : State) (i : Nat) (x : Slot) : (s.setSlot i x).time = s.time := rfl
@[simp] theorem State.setSlot_ev (s : State) (i : Nat) (x : Slot) : (s.setSlot i x).ev = s.ev := rfl
@[simp] theorem State.setSlot_irq (s : State) (i : Nat) (x : Slot) : (s.setSlot i x).irq = s.irq := rfl
@[simp] theorem State.setSlot_hmem (s : State) (i : Nat) (x : Slot) : (s.setSlot i x).hmem = s.hmem := rfl
@[simp] theorem State.setSlot_chans (s : State) (i : Nat) (x : Slot) : (s.setSlot i x).chans = s.chans := rfl
@[simp] theorem State.setSlot_cq (s : State) (i : Nat) (x : Slot) : (s.setSlot i x).cq = s.cq := rfl
@[simp] theorem State.setSlot_mem (s : State) (i : Nat) (x : Slot) : (s.setSlot i x).mem = s.mem := rfl
@[simp] theorem State.setSlot_wq (s : State) (i : Nat) (x : Slot) : (s.setSlot i x).wq = s.wq := rfl
@[simp] theorem State.setSlot_seqs (s : State) (i : Nat) (x : Slot) : (s.setSlot i x).seqs = s.seqs := rfl
@[simp] theorem State.setSlot_store (s : State) (i : Nat) (x : Slot) : (s.setSlot i x).store = s.store := rfl
@[simp] theorem State.setSlot_sync (s : State) (i : Nat) (x : Slot) : (s.setSlot i x).sync = s.sync := rfl
@[simp] theorem State.setSlot_flight (s : State) (i : Nat) (x : Slot) : (s.setSlot i x).flight = s.flight := rfl
@[simp] theorem State.setSlot_pos (s : State) (i : Nat) (x : Slot) : (s.setSlot i x).pos = s.pos := rfl
@[simp] theorem State.setSlot_boot (s : State) (i : Nat) (x : Slot) : (s.setSlot i x).boot = s.boot := rfl
@[simp] theorem State.setSlot_hdmDecoder (s : State) (i : Nat) (x : Slot) : (s.setSlot i x).hdmDecoder = s.hdmDecoder := rfl
@[simp] theorem State.setSlot_engines (s : State) (i : Nat) (x : Slot) : (s.setSlot i x).engines = s.engines := rfl
@[simp] theorem State.setSlot_attic (s : State) (i : Nat) (x : Slot) : (s.setSlot i x).attic = s.attic := rfl
@[simp] theorem State.setSlot_passes (s : State) (i : Nat) (x : Slot) : (s.setSlot i x).passes = s.passes := rfl
@[simp] theorem State.setSlot_verdicts (s : State) (i : Nat) (x : Slot) : (s.setSlot i x).verdicts = s.verdicts := rfl
@[simp] theorem State.setSlot_runs (s : State) (i : Nat) (x : Slot) : (s.setSlot i x).runs = s.runs := rfl
@[simp] theorem State.setSlot_stats (s : State) (i : Nat) (x : Slot) : (s.setSlot i x).stats = s.stats := rfl
@[simp] theorem State.setSlot_troubles (s : State) (i : Nat) (x : Slot) : (s.setSlot i x).troubles = s.troubles := rfl
@[simp] theorem State.setSlot_cal (s : State) (i : Nat) (x : Slot) : (s.setSlot i x).cal = s.cal := rfl
@[simp] theorem State.setSlot_epoch (s : State) (i : Nat) (x : Slot) : (s.setSlot i x).epoch = s.epoch := rfl
@[simp] theorem State.setSlot_ash (s : State) (i : Nat) (x : Slot) : (s.setSlot i x).ash = s.ash := rfl
@[simp] theorem State.setSlot_images (s : State) (i : Nat) (x : Slot) : (s.setSlot i x).images = s.images := rfl
@[simp] theorem State.setSlot_reqs (s : State) (i : Nat) (x : Slot) : (s.setSlot i x).reqs = s.reqs := rfl
@[simp] theorem State.setSlot_adapters (s : State) (i : Nat) (x : Slot) : (s.setSlot i x).adapters = s.adapters := rfl
@[simp] theorem State.setSlot_tables (s : State) (i : Nat) (x : Slot) : (s.setSlot i x).tables = s.tables := rfl
@[simp] theorem State.setSlot_pools (s : State) (i : Nat) (x : Slot) : (s.setSlot i x).pools = s.pools := rfl
@[simp] theorem State.setSlot_step (s : State) (i : Nat) (x : Slot) : (s.setSlot i x).step = s.step := rfl
@[simp] theorem State.setSlot_det (s : State) (i : Nat) (x : Slot) : (s.setSlot i x).det = s.det := rfl
@[simp] theorem State.setSlot_hk (s : State) (i : Nat) (x : Slot) : (s.setSlot i x).hk = s.hk := rfl
@[simp] theorem State.setSlot_walks (s : State) (i : Nat) (x : Slot) : (s.setSlot i x).walks = s.walks := rfl
@[simp] theorem State.setSlot_fab (s : State) (i : Nat) (x : Slot) : (s.setSlot i x).fab = s.fab := rfl
@[simp] theorem State.setSlot_topo (s : State) (i : Nat) (x : Slot) : (s.setSlot i x).topo = s.topo := rfl
@[simp] theorem State.setSlot_inst (s : State) (i : Nat) (x : Slot) : (s.setSlot i x).inst = s.inst := rfl
@[simp] theorem State.setSlot_sec (s : State) (i : Nat) (x : Slot) : (s.setSlot i x).sec = s.sec := rfl
@[simp] theorem State.setSlot_fw (s : State) (i : Nat) (x : Slot) : (s.setSlot i x).fw = s.fw := rfl
@[simp] theorem State.setSlot_plan (s : State) (i : Nat) (x : Slot) : (s.setSlot i x).plan = s.plan := rfl

@[simp] theorem State.setPort_pending (s : State) (p : Nat) (x : Port) : (s.setPort p x).pending = s.pending := rfl
@[simp] theorem State.setPort_fresh (s : State) (p : Nat) (x : Port) : (s.setPort p x).fresh = s.fresh := rfl
@[simp] theorem State.setPort_part (s : State) (p : Nat) (x : Port) : (s.setPort p x).part = s.part := rfl
@[simp] theorem State.setPort_regs (s : State) (p : Nat) (x : Port) : (s.setPort p x).regs = s.regs := rfl
@[simp] theorem State.setPort_live (s : State) (p : Nat) (x : Port) : (s.setPort p x).live = s.live := rfl
@[simp] theorem State.setPort_staged (s : State) (p : Nat) (x : Port) : (s.setPort p x).staged = s.staged := rfl
@[simp] theorem State.setPort_commit (s : State) (p : Nat) (x : Port) : (s.setPort p x).commit = s.commit := rfl
@[simp] theorem State.setPort_time (s : State) (p : Nat) (x : Port) : (s.setPort p x).time = s.time := rfl
@[simp] theorem State.setPort_ev (s : State) (p : Nat) (x : Port) : (s.setPort p x).ev = s.ev := rfl
@[simp] theorem State.setPort_irq (s : State) (p : Nat) (x : Port) : (s.setPort p x).irq = s.irq := rfl
@[simp] theorem State.setPort_hmem (s : State) (p : Nat) (x : Port) : (s.setPort p x).hmem = s.hmem := rfl
@[simp] theorem State.setPort_chans (s : State) (p : Nat) (x : Port) : (s.setPort p x).chans = s.chans := rfl
@[simp] theorem State.setPort_cq (s : State) (p : Nat) (x : Port) : (s.setPort p x).cq = s.cq := rfl
@[simp] theorem State.setPort_mem (s : State) (p : Nat) (x : Port) : (s.setPort p x).mem = s.mem := rfl
@[simp] theorem State.setPort_wq (s : State) (p : Nat) (x : Port) : (s.setPort p x).wq = s.wq := rfl
@[simp] theorem State.setPort_seqs (s : State) (p : Nat) (x : Port) : (s.setPort p x).seqs = s.seqs := rfl
@[simp] theorem State.setPort_store (s : State) (p : Nat) (x : Port) : (s.setPort p x).store = s.store := rfl
@[simp] theorem State.setPort_sync (s : State) (p : Nat) (x : Port) : (s.setPort p x).sync = s.sync := rfl
@[simp] theorem State.setPort_flight (s : State) (p : Nat) (x : Port) : (s.setPort p x).flight = s.flight := rfl
@[simp] theorem State.setPort_pos (s : State) (p : Nat) (x : Port) : (s.setPort p x).pos = s.pos := rfl
@[simp] theorem State.setPort_boot (s : State) (p : Nat) (x : Port) : (s.setPort p x).boot = s.boot := rfl
@[simp] theorem State.setPort_hdmDecoder (s : State) (p : Nat) (x : Port) : (s.setPort p x).hdmDecoder = s.hdmDecoder := rfl
@[simp] theorem State.setPort_engines (s : State) (p : Nat) (x : Port) : (s.setPort p x).engines = s.engines := rfl
@[simp] theorem State.setPort_attic (s : State) (p : Nat) (x : Port) : (s.setPort p x).attic = s.attic := rfl
@[simp] theorem State.setPort_passes (s : State) (p : Nat) (x : Port) : (s.setPort p x).passes = s.passes := rfl
@[simp] theorem State.setPort_verdicts (s : State) (p : Nat) (x : Port) : (s.setPort p x).verdicts = s.verdicts := rfl
@[simp] theorem State.setPort_runs (s : State) (p : Nat) (x : Port) : (s.setPort p x).runs = s.runs := rfl
@[simp] theorem State.setPort_stats (s : State) (p : Nat) (x : Port) : (s.setPort p x).stats = s.stats := rfl
@[simp] theorem State.setPort_troubles (s : State) (p : Nat) (x : Port) : (s.setPort p x).troubles = s.troubles := rfl
@[simp] theorem State.setPort_cal (s : State) (p : Nat) (x : Port) : (s.setPort p x).cal = s.cal := rfl
@[simp] theorem State.setPort_epoch (s : State) (p : Nat) (x : Port) : (s.setPort p x).epoch = s.epoch := rfl
@[simp] theorem State.setPort_ash (s : State) (p : Nat) (x : Port) : (s.setPort p x).ash = s.ash := rfl
@[simp] theorem State.setPort_slots (s : State) (p : Nat) (x : Port) : (s.setPort p x).slots = s.slots := rfl
@[simp] theorem State.setPort_images (s : State) (p : Nat) (x : Port) : (s.setPort p x).images = s.images := rfl
@[simp] theorem State.setPort_reqs (s : State) (p : Nat) (x : Port) : (s.setPort p x).reqs = s.reqs := rfl
@[simp] theorem State.setPort_adapters (s : State) (p : Nat) (x : Port) : (s.setPort p x).adapters = s.adapters := rfl
@[simp] theorem State.setPort_tables (s : State) (p : Nat) (x : Port) : (s.setPort p x).tables = s.tables := rfl
@[simp] theorem State.setPort_pools (s : State) (p : Nat) (x : Port) : (s.setPort p x).pools = s.pools := rfl
@[simp] theorem State.setPort_step (s : State) (p : Nat) (x : Port) : (s.setPort p x).step = s.step := rfl
@[simp] theorem State.setPort_det (s : State) (p : Nat) (x : Port) : (s.setPort p x).det = s.det := rfl
@[simp] theorem State.setPort_hk (s : State) (p : Nat) (x : Port) : (s.setPort p x).hk = s.hk := rfl
@[simp] theorem State.setPort_walks (s : State) (p : Nat) (x : Port) : (s.setPort p x).walks = s.walks := rfl
@[simp] theorem State.setPort_topo (s : State) (p : Nat) (x : Port) : (s.setPort p x).topo = s.topo := rfl
@[simp] theorem State.setPort_inst (s : State) (p : Nat) (x : Port) : (s.setPort p x).inst = s.inst := rfl
@[simp] theorem State.setPort_sec (s : State) (p : Nat) (x : Port) : (s.setPort p x).sec = s.sec := rfl
@[simp] theorem State.setPort_fw (s : State) (p : Nat) (x : Port) : (s.setPort p x).fw = s.fw := rfl
@[simp] theorem State.setPort_plan (s : State) (p : Nat) (x : Port) : (s.setPort p x).plan = s.plan := rfl

@[simp] theorem State.setWin_pending (s : State) (n : Nat) (w : Win) : (s.setWin n w).pending = s.pending := rfl
@[simp] theorem State.setWin_fresh (s : State) (n : Nat) (w : Win) : (s.setWin n w).fresh = s.fresh := rfl
@[simp] theorem State.setWin_part (s : State) (n : Nat) (w : Win) : (s.setWin n w).part = s.part := rfl
@[simp] theorem State.setWin_regs (s : State) (n : Nat) (w : Win) : (s.setWin n w).regs = s.regs := rfl
@[simp] theorem State.setWin_live (s : State) (n : Nat) (w : Win) : (s.setWin n w).live = s.live := rfl
@[simp] theorem State.setWin_staged (s : State) (n : Nat) (w : Win) : (s.setWin n w).staged = s.staged := rfl
@[simp] theorem State.setWin_commit (s : State) (n : Nat) (w : Win) : (s.setWin n w).commit = s.commit := rfl
@[simp] theorem State.setWin_time (s : State) (n : Nat) (w : Win) : (s.setWin n w).time = s.time := rfl
@[simp] theorem State.setWin_ev (s : State) (n : Nat) (w : Win) : (s.setWin n w).ev = s.ev := rfl
@[simp] theorem State.setWin_irq (s : State) (n : Nat) (w : Win) : (s.setWin n w).irq = s.irq := rfl
@[simp] theorem State.setWin_hmem (s : State) (n : Nat) (w : Win) : (s.setWin n w).hmem = s.hmem := rfl
@[simp] theorem State.setWin_chans (s : State) (n : Nat) (w : Win) : (s.setWin n w).chans = s.chans := rfl
@[simp] theorem State.setWin_cq (s : State) (n : Nat) (w : Win) : (s.setWin n w).cq = s.cq := rfl
@[simp] theorem State.setWin_mem (s : State) (n : Nat) (w : Win) : (s.setWin n w).mem = s.mem := rfl
@[simp] theorem State.setWin_wq (s : State) (n : Nat) (w : Win) : (s.setWin n w).wq = s.wq := rfl
@[simp] theorem State.setWin_seqs (s : State) (n : Nat) (w : Win) : (s.setWin n w).seqs = s.seqs := rfl
@[simp] theorem State.setWin_store (s : State) (n : Nat) (w : Win) : (s.setWin n w).store = s.store := rfl
@[simp] theorem State.setWin_sync (s : State) (n : Nat) (w : Win) : (s.setWin n w).sync = s.sync := rfl
@[simp] theorem State.setWin_flight (s : State) (n : Nat) (w : Win) : (s.setWin n w).flight = s.flight := rfl
@[simp] theorem State.setWin_pos (s : State) (n : Nat) (w : Win) : (s.setWin n w).pos = s.pos := rfl
@[simp] theorem State.setWin_boot (s : State) (n : Nat) (w : Win) : (s.setWin n w).boot = s.boot := rfl
@[simp] theorem State.setWin_hdmDecoder (s : State) (n : Nat) (w : Win) : (s.setWin n w).hdmDecoder = s.hdmDecoder := rfl
@[simp] theorem State.setWin_engines (s : State) (n : Nat) (w : Win) : (s.setWin n w).engines = s.engines := rfl
@[simp] theorem State.setWin_attic (s : State) (n : Nat) (w : Win) : (s.setWin n w).attic = s.attic := rfl
@[simp] theorem State.setWin_passes (s : State) (n : Nat) (w : Win) : (s.setWin n w).passes = s.passes := rfl
@[simp] theorem State.setWin_verdicts (s : State) (n : Nat) (w : Win) : (s.setWin n w).verdicts = s.verdicts := rfl
@[simp] theorem State.setWin_runs (s : State) (n : Nat) (w : Win) : (s.setWin n w).runs = s.runs := rfl
@[simp] theorem State.setWin_stats (s : State) (n : Nat) (w : Win) : (s.setWin n w).stats = s.stats := rfl
@[simp] theorem State.setWin_troubles (s : State) (n : Nat) (w : Win) : (s.setWin n w).troubles = s.troubles := rfl
@[simp] theorem State.setWin_cal (s : State) (n : Nat) (w : Win) : (s.setWin n w).cal = s.cal := rfl
@[simp] theorem State.setWin_epoch (s : State) (n : Nat) (w : Win) : (s.setWin n w).epoch = s.epoch := rfl
@[simp] theorem State.setWin_ash (s : State) (n : Nat) (w : Win) : (s.setWin n w).ash = s.ash := rfl
@[simp] theorem State.setWin_slots (s : State) (n : Nat) (w : Win) : (s.setWin n w).slots = s.slots := rfl
@[simp] theorem State.setWin_images (s : State) (n : Nat) (w : Win) : (s.setWin n w).images = s.images := rfl
@[simp] theorem State.setWin_reqs (s : State) (n : Nat) (w : Win) : (s.setWin n w).reqs = s.reqs := rfl
@[simp] theorem State.setWin_adapters (s : State) (n : Nat) (w : Win) : (s.setWin n w).adapters = s.adapters := rfl
@[simp] theorem State.setWin_tables (s : State) (n : Nat) (w : Win) : (s.setWin n w).tables = s.tables := rfl
@[simp] theorem State.setWin_pools (s : State) (n : Nat) (w : Win) : (s.setWin n w).pools = s.pools := rfl
@[simp] theorem State.setWin_step (s : State) (n : Nat) (w : Win) : (s.setWin n w).step = s.step := rfl
@[simp] theorem State.setWin_det (s : State) (n : Nat) (w : Win) : (s.setWin n w).det = s.det := rfl
@[simp] theorem State.setWin_hk (s : State) (n : Nat) (w : Win) : (s.setWin n w).hk = s.hk := rfl
@[simp] theorem State.setWin_walks (s : State) (n : Nat) (w : Win) : (s.setWin n w).walks = s.walks := rfl
@[simp] theorem State.setWin_topo (s : State) (n : Nat) (w : Win) : (s.setWin n w).topo = s.topo := rfl
@[simp] theorem State.setWin_inst (s : State) (n : Nat) (w : Win) : (s.setWin n w).inst = s.inst := rfl
@[simp] theorem State.setWin_sec (s : State) (n : Nat) (w : Win) : (s.setWin n w).sec = s.sec := rfl
@[simp] theorem State.setWin_fw (s : State) (n : Nat) (w : Win) : (s.setWin n w).fw = s.fw := rfl
@[simp] theorem State.setWin_plan (s : State) (n : Nat) (w : Win) : (s.setWin n w).plan = s.plan := rfl

end Sys2Proof.Machine
end

