-- ==== Sys2Proof/Laws/Ops.lean ====
section
/-! SUPPORT. What the shared operations on completions and descriptors can do, said once. -/

namespace Sys2Proof.Machine

@[simp] theorem State.chan_interrupt (s : State) (v e : Nat) : (s.interrupt v).chan e = s.chan e := rfl
@[simp] theorem State.cq_interrupt (s : State) (v : Nat) : (s.interrupt v).cq = s.cq := rfl

/-- The interrupt rule touches the channel's interrupt bookkeeping and the vector, nothing else of the rings. -/
theorem State.coalesce_facts (s : State) (c : Nat) (now : Bool) :
    (s.coalesce c now).cq = s.cq ∧ (∀ e, e ≠ c → (s.coalesce c now).chan e = s.chan e)
      ∧ ∃ n b, (s.coalesce c now).chan c = { s.chan c with sinceIrq := n, coalRun := b } := by
  simp only [State.coalesce]
  split
  · exact ⟨rfl, fun e he => by simp [he], 0, false, by simp⟩
  · exact ⟨rfl, fun e he => by simp [he], (s.chan c).sinceIrq + 1, true, by simp⟩

/-- A completion written into the ring takes the next slot. -/
theorem State.cqWrite_facts (s : State) (c : Nat) (e : Completion) (now : Bool) :
    (s.cqWrite c e now).cq = Tab.set s.cq (cqKey c ((s.chan c).written % 2 ^ (s.chan c).cqLog)) { e with phase := (s.chan c).written / 2 ^ (s.chan c).cqLog % 2 == 0 }
      ∧ (∀ d, d ≠ c → (s.cqWrite c e now).chan d = s.chan d)
      ∧ ∃ n b, (s.cqWrite c e now).chan c = { s.chan c with written := add32 (s.chan c).written 1, sinceIrq := n, coalRun := b } := by
  simp only [State.cqWrite]
  obtain ⟨h1, h2, n, b, h3⟩ := State.coalesce_facts (State.setChan { s with cq := Tab.set s.cq (cqKey c ((s.chan c).written % 2 ^ (s.chan c).cqLog)) { e with phase := (s.chan c).written / 2 ^ (s.chan c).cqLog % 2 == 0 } } c { s.chan c with written := add32 (s.chan c).written 1 }) c now
  refine ⟨h1, fun d hd => ?_, n, b, ?_⟩
  · rw [h2 d hd, State.chan_setChan, if_neg hd]; rfl
  · rw [h3, State.chan_setChan, if_pos rfl]

theorem State.complete_closed (s : State) (c : Nat) (e : Completion) (now : Bool) (h : (s.chan c).isOpen = false) : s.complete c e now = s := by
  simp [State.complete, h]

theorem State.complete_spills (s : State) (c : Nat) (e : Completion) (now : Bool) (h : (s.chan c).isOpen = true)
    (hf : (s.chan c).cqFull = true ∨ (s.chan c).spill ≠ []) : s.complete c e now = s.setChan c { s.chan c with spill := (s.chan c).spill ++ [e] } := by
  rcases hf with hf | hf <;> simp [State.complete, h, hf]

theorem State.complete_writes (s : State) (c : Nat) (e : Completion) (now : Bool) (h : (s.chan c).isOpen = true)
    (hf : (s.chan c).cqFull = false) (hs : (s.chan c).spill = []) : s.complete c e now = s.cqWrite c e now := by
  simp [State.complete, h, hf, hs]

/-- A descriptor that is performed. -/
theorem State.descriptor_runs (s : State) (h : Hdr) (cls : Nat) (k : State → Desc → State) (h1 : s.canStart h = true) (h2 : s.headerStatus h cls = .OK) :
    s.descriptor h cls k = k (s.start h) (s.descOf h) := by
  simp [State.descriptor, h1, h2]

/-- A descriptor that waits. -/
theorem State.descriptor_waits (s : State) (h : Hdr) (cls : Nat) (k : State → Desc → State) (h1 : s.canStart h = false) : s.descriptor h cls k = s := by
  simp [State.descriptor, h1]

/-- A descriptor that is refused. -/
theorem State.descriptor_refused (s : State) (h : Hdr) (cls : Nat) (k : State → Desc → State) (h1 : s.canStart h = true) (h2 : s.headerStatus h cls ≠ .OK) :
    s.descriptor h cls k = (s.start h).finish (s.descOf h) (s.headerStatus h cls) 0 0 := by
  simp [State.descriptor, h1, h2]

/-! ### Generated: what a start and a finish leave alone -/

theorem State.hostWrites_eq (s : State) (l : List HostWrite) : s.hostWrites l = { s with hmem := (s.hostWrites l).hmem } := by
  induction l generalizing s with
  | nil => rfl
  | cons w r ih => rw [State.hostWrites, ih]

/-- A start changes the channel and what the host has written meanwhile, nothing else. -/
theorem State.start_eq (s : State) (h : Hdr) : s.start h = { s with chans := (s.start h).chans, hmem := (s.start h).hmem } := by
  unfold State.start; rw [State.hostWrites_eq]; rfl

theorem State.coalesce_eq (s : State) (c : Nat) (n : Bool) : s.coalesce c n = { s with chans := (s.coalesce c n).chans, irq := (s.coalesce c n).irq } := by
  simp only [State.coalesce]; split <;> rfl

theorem State.cqWrite_eq (s : State) (c : Nat) (e : Completion) (n : Bool) :
    s.cqWrite c e n = { s with chans := (s.cqWrite c e n).chans, cq := (s.cqWrite c e n).cq, irq := (s.cqWrite c e n).irq } := by
  simp only [State.cqWrite]; rw [State.coalesce_eq]; rfl

theorem State.complete_eq (s : State) (c : Nat) (e : Completion) (n : Bool) :
    s.complete c e n = { s with chans := (s.complete c e n).chans, cq := (s.complete c e n).cq, irq := (s.complete c e n).irq } := by
  simp only [State.complete]
  split
  · rfl
  · split
    · rfl
    · rw [State.cqWrite_eq]

/-- A finish changes the channel, its completion ring and its interrupt, nothing else. -/
theorem State.finish_eq (s : State) (d : Desc) (c : Code) (a b : Nat) (l t : Bool) :
    s.finish d c a b l t = { s with chans := (s.finish d c a b l t).chans, cq := (s.finish d c a b l t).cq, irq := (s.finish d c a b l t).irq } := by
  unfold State.finish; rw [State.complete_eq]; rfl

@[simp] theorem State.start_pending (s : State) (h : Hdr) : (s.start h).pending = s.pending := by rw [State.start_eq]
@[simp] theorem State.start_fresh (s : State) (h : Hdr) : (s.start h).fresh = s.fresh := by rw [State.start_eq]
@[simp] theorem State.start_part (s : State) (h : Hdr) : (s.start h).part = s.part := by rw [State.start_eq]
@[simp] theorem State.start_regs (s : State) (h : Hdr) : (s.start h).regs = s.regs := by rw [State.start_eq]
@[simp] theorem State.start_live (s : State) (h : Hdr) : (s.start h).live = s.live := by rw [State.start_eq]
@[simp] theorem State.start_staged (s : State) (h : Hdr) : (s.start h).staged = s.staged := by rw [State.start_eq]
@[simp] theorem State.start_commit (s : State) (h : Hdr) : (s.start h).commit = s.commit := by rw [State.start_eq]
@[simp] theorem State.start_time (s : State) (h : Hdr) : (s.start h).time = s.time := by rw [State.start_eq]
@[simp] theorem State.start_ev (s : State) (h : Hdr) : (s.start h).ev = s.ev := by rw [State.start_eq]
@[simp] theorem State.start_irq (s : State) (h : Hdr) : (s.start h).irq = s.irq := by rw [State.start_eq]
@[simp] theorem State.start_cq (s : State) (h : Hdr) : (s.start h).cq = s.cq := by rw [State.start_eq]
@[simp] theorem State.start_mem (s : State) (h : Hdr) : (s.start h).mem = s.mem := by rw [State.start_eq]
@[simp] theorem State.start_wq (s : State) (h : Hdr) : (s.start h).wq = s.wq := by rw [State.start_eq]
@[simp] theorem State.start_seqs (s : State) (h : Hdr) : (s.start h).seqs = s.seqs := by rw [State.start_eq]
@[simp] theorem State.start_store (s : State) (h : Hdr) : (s.start h).store = s.store := by rw [State.start_eq]
@[simp] theorem State.start_sync (s : State) (h : Hdr) : (s.start h).sync = s.sync := by rw [State.start_eq]
@[simp] theorem State.start_flight (s : State) (h : Hdr) : (s.start h).flight = s.flight := by rw [State.start_eq]
@[simp] theorem State.start_pos (s : State) (h : Hdr) : (s.start h).pos = s.pos := by rw [State.start_eq]
@[simp] theorem State.start_boot (s : State) (h : Hdr) : (s.start h).boot = s.boot := by rw [State.start_eq]
@[simp] theorem State.start_hdmDecoder (s : State) (h : Hdr) : (s.start h).hdmDecoder = s.hdmDecoder := by rw [State.start_eq]
@[simp] theorem State.start_engines (s : State) (h : Hdr) : (s.start h).engines = s.engines := by rw [State.start_eq]
@[simp] theorem State.start_attic (s : State) (h : Hdr) : (s.start h).attic = s.attic := by rw [State.start_eq]
@[simp] theorem State.start_passes (s : State) (h : Hdr) : (s.start h).passes = s.passes := by rw [State.start_eq]
@[simp] theorem State.start_verdicts (s : State) (h : Hdr) : (s.start h).verdicts = s.verdicts := by rw [State.start_eq]
@[simp] theorem State.start_runs (s : State) (h : Hdr) : (s.start h).runs = s.runs := by rw [State.start_eq]
@[simp] theorem State.start_stats (s : State) (h : Hdr) : (s.start h).stats = s.stats := by rw [State.start_eq]
@[simp] theorem State.start_troubles (s : State) (h : Hdr) : (s.start h).troubles = s.troubles := by rw [State.start_eq]
@[simp] theorem State.start_cal (s : State) (h : Hdr) : (s.start h).cal = s.cal := by rw [State.start_eq]
@[simp] theorem State.start_epoch (s : State) (h : Hdr) : (s.start h).epoch = s.epoch := by rw [State.start_eq]
@[simp] theorem State.start_ash (s : State) (h : Hdr) : (s.start h).ash = s.ash := by rw [State.start_eq]
@[simp] theorem State.start_slots (s : State) (h : Hdr) : (s.start h).slots = s.slots := by rw [State.start_eq]
@[simp] theorem State.start_images (s : State) (h : Hdr) : (s.start h).images = s.images := by rw [State.start_eq]
@[simp] theorem State.start_reqs (s : State) (h : Hdr) : (s.start h).reqs = s.reqs := by rw [State.start_eq]
@[simp] theorem State.start_adapters (s : State) (h : Hdr) : (s.start h).adapters = s.adapters := by rw [State.start_eq]
@[simp] theorem State.start_tables (s : State) (h : Hdr) : (s.start h).tables = s.tables := by rw [State.start_eq]
@[simp] theorem State.start_pools (s : State) (h : Hdr) : (s.start h).pools = s.pools := by rw [State.start_eq]
@[simp] theorem State.start_step (s : State) (h : Hdr) : (s.start h).step = s.step := by rw [State.start_eq]
@[simp] theorem State.start_det (s : State) (h : Hdr) : (s.start h).det = s.det := by rw [State.start_eq]
@[simp] theorem State.start_hk (s : State) (h : Hdr) : (s.start h).hk = s.hk := by rw [State.start_eq]
@[simp] theorem State.start_walks (s : State) (h : Hdr) : (s.start h).walks = s.walks := by rw [State.start_eq]
@[simp] theorem State.start_fab (s : State) (h : Hdr) : (s.start h).fab = s.fab := by rw [State.start_eq]
@[simp] theorem State.start_topo (s : State) (h : Hdr) : (s.start h).topo = s.topo := by rw [State.start_eq]
@[simp] theorem State.start_inst (s : State) (h : Hdr) : (s.start h).inst = s.inst := by rw [State.start_eq]
@[simp] theorem State.start_sec (s : State) (h : Hdr) : (s.start h).sec = s.sec := by rw [State.start_eq]
@[simp] theorem State.start_fw (s : State) (h : Hdr) : (s.start h).fw = s.fw := by rw [State.start_eq]
@[simp] theorem State.start_plan (s : State) (h : Hdr) : (s.start h).plan = s.plan := by rw [State.start_eq]

@[simp] theorem State.finish_pending (s : State) (d : Desc) (c : Code) (a b : Nat) (l t : Bool) : (s.finish d c a b l t).pending = s.pending := by rw [State.finish_eq]
@[simp] theorem State.finish_fresh (s : State) (d : Desc) (c : Code) (a b : Nat) (l t : Bool) : (s.finish d c a b l t).fresh = s.fresh := by rw [State.finish_eq]
@[simp] theorem State.finish_part (s : State) (d : Desc) (c : Code) (a b : Nat) (l t : Bool) : (s.finish d c a b l t).part = s.part := by rw [State.finish_eq]
@[simp] theorem State.finish_regs (s : State) (d : Desc) (c : Code) (a b : Nat) (l t : Bool) : (s.finish d c a b l t).regs = s.regs := by rw [State.finish_eq]
@[simp] theorem State.finish_live (s : State) (d : Desc) (c : Code) (a b : Nat) (l t : Bool) : (s.finish d c a b l t).live = s.live := by rw [State.finish_eq]
@[simp] theorem State.finish_staged (s : State) (d : Desc) (c : Code) (a b : Nat) (l t : Bool) : (s.finish d c a b l t).staged = s.staged := by rw [State.finish_eq]
@[simp] theorem State.finish_commit (s : State) (d : Desc) (c : Code) (a b : Nat) (l t : Bool) : (s.finish d c a b l t).commit = s.commit := by rw [State.finish_eq]
@[simp] theorem State.finish_time (s : State) (d : Desc) (c : Code) (a b : Nat) (l t : Bool) : (s.finish d c a b l t).time = s.time := by rw [State.finish_eq]
@[simp] theorem State.finish_ev (s : State) (d : Desc) (c : Code) (a b : Nat) (l t : Bool) : (s.finish d c a b l t).ev = s.ev := by rw [State.finish_eq]
@[simp] theorem State.finish_hmem (s : State) (d : Desc) (c : Code) (a b : Nat) (l t : Bool) : (s.finish d c a b l t).hmem = s.hmem := by rw [State.finish_eq]
@[simp] theorem State.finish_mem (s : State) (d : Desc) (c : Code) (a b : Nat) (l t : Bool) : (s.finish d c a b l t).mem = s.mem := by rw [State.finish_eq]
@[simp] theorem State.finish_wq (s : State) (d : Desc) (c : Code) (a b : Nat) (l t : Bool) : (s.finish d c a b l t).wq = s.wq := by rw [State.finish_eq]
@[simp] theorem State.finish_seqs (s : State) (d : Desc) (c : Code) (a b : Nat) (l t : Bool) : (s.finish d c a b l t).seqs = s.seqs := by rw [State.finish_eq]
@[simp] theorem State.finish_store (s : State) (d : Desc) (c : Code) (a b : Nat) (l t : Bool) : (s.finish d c a b l t).store = s.store := by rw [State.finish_eq]
@[simp] theorem State.finish_sync (s : State) (d : Desc) (c : Code) (a b : Nat) (l t : Bool) : (s.finish d c a b l t).sync = s.sync := by rw [State.finish_eq]
@[simp] theorem State.finish_flight (s : State) (d : Desc) (c : Code) (a b : Nat) (l t : Bool) : (s.finish d c a b l t).flight = s.flight := by rw [State.finish_eq]
@[simp] theorem State.finish_pos (s : State) (d : Desc) (c : Code) (a b : Nat) (l t : Bool) : (s.finish d c a b l t).pos = s.pos := by rw [State.finish_eq]
@[simp] theorem State.finish_boot (s : State) (d : Desc) (c : Code) (a b : Nat) (l t : Bool) : (s.finish d c a b l t).boot = s.boot := by rw [State.finish_eq]
@[simp] theorem State.finish_hdmDecoder (s : State) (d : Desc) (c : Code) (a b : Nat) (l t : Bool) : (s.finish d c a b l t).hdmDecoder = s.hdmDecoder := by rw [State.finish_eq]
@[simp] theorem State.finish_engines (s : State) (d : Desc) (c : Code) (a b : Nat) (l t : Bool) : (s.finish d c a b l t).engines = s.engines := by rw [State.finish_eq]
@[simp] theorem State.finish_attic (s : State) (d : Desc) (c : Code) (a b : Nat) (l t : Bool) : (s.finish d c a b l t).attic = s.attic := by rw [State.finish_eq]
@[simp] theorem State.finish_passes (s : State) (d : Desc) (c : Code) (a b : Nat) (l t : Bool) : (s.finish d c a b l t).passes = s.passes := by rw [State.finish_eq]
@[simp] theorem State.finish_verdicts (s : State) (d : Desc) (c : Code) (a b : Nat) (l t : Bool) : (s.finish d c a b l t).verdicts = s.verdicts := by rw [State.finish_eq]
@[simp] theorem State.finish_runs (s : State) (d : Desc) (c : Code) (a b : Nat) (l t : Bool) : (s.finish d c a b l t).runs = s.runs := by rw [State.finish_eq]
@[simp] theorem State.finish_stats (s : State) (d : Desc) (c : Code) (a b : Nat) (l t : Bool) : (s.finish d c a b l t).stats = s.stats := by rw [State.finish_eq]
@[simp] theorem State.finish_troubles (s : State) (d : Desc) (c : Code) (a b : Nat) (l t : Bool) : (s.finish d c a b l t).troubles = s.troubles := by rw [State.finish_eq]
@[simp] theorem State.finish_cal (s : State) (d : Desc) (c : Code) (a b : Nat) (l t : Bool) : (s.finish d c a b l t).cal = s.cal := by rw [State.finish_eq]
@[simp] theorem State.finish_epoch (s : State) (d : Desc) (c : Code) (a b : Nat) (l t : Bool) : (s.finish d c a b l t).epoch = s.epoch := by rw [State.finish_eq]
@[simp] theorem State.finish_ash (s : State) (d : Desc) (c : Code) (a b : Nat) (l t : Bool) : (s.finish d c a b l t).ash = s.ash := by rw [State.finish_eq]
@[simp] theorem State.finish_slots (s : State) (d : Desc) (c : Code) (a b : Nat) (l t : Bool) : (s.finish d c a b l t).slots = s.slots := by rw [State.finish_eq]
@[simp] theorem State.finish_images (s : State) (d : Desc) (c : Code) (a b : Nat) (l t : Bool) : (s.finish d c a b l t).images = s.images := by rw [State.finish_eq]
@[simp] theorem State.finish_reqs (s : State) (d : Desc) (c : Code) (a b : Nat) (l t : Bool) : (s.finish d c a b l t).reqs = s.reqs := by rw [State.finish_eq]
@[simp] theorem State.finish_adapters (s : State) (d : Desc) (c : Code) (a b : Nat) (l t : Bool) : (s.finish d c a b l t).adapters = s.adapters := by rw [State.finish_eq]
@[simp] theorem State.finish_tables (s : State) (d : Desc) (c : Code) (a b : Nat) (l t : Bool) : (s.finish d c a b l t).tables = s.tables := by rw [State.finish_eq]
@[simp] theorem State.finish_pools (s : State) (d : Desc) (c : Code) (a b : Nat) (l t : Bool) : (s.finish d c a b l t).pools = s.pools := by rw [State.finish_eq]
@[simp] theorem State.finish_step (s : State) (d : Desc) (c : Code) (a b : Nat) (l t : Bool) : (s.finish d c a b l t).step = s.step := by rw [State.finish_eq]
@[simp] theorem State.finish_det (s : State) (d : Desc) (c : Code) (a b : Nat) (l t : Bool) : (s.finish d c a b l t).det = s.det := by rw [State.finish_eq]
@[simp] theorem State.finish_hk (s : State) (d : Desc) (c : Code) (a b : Nat) (l t : Bool) : (s.finish d c a b l t).hk = s.hk := by rw [State.finish_eq]
@[simp] theorem State.finish_walks (s : State) (d : Desc) (c : Code) (a b : Nat) (l t : Bool) : (s.finish d c a b l t).walks = s.walks := by rw [State.finish_eq]
@[simp] theorem State.finish_fab (s : State) (d : Desc) (c : Code) (a b : Nat) (l t : Bool) : (s.finish d c a b l t).fab = s.fab := by rw [State.finish_eq]
@[simp] theorem State.finish_topo (s : State) (d : Desc) (c : Code) (a b : Nat) (l t : Bool) : (s.finish d c a b l t).topo = s.topo := by rw [State.finish_eq]
@[simp] theorem State.finish_inst (s : State) (d : Desc) (c : Code) (a b : Nat) (l t : Bool) : (s.finish d c a b l t).inst = s.inst := by rw [State.finish_eq]
@[simp] theorem State.finish_sec (s : State) (d : Desc) (c : Code) (a b : Nat) (l t : Bool) : (s.finish d c a b l t).sec = s.sec := by rw [State.finish_eq]
@[simp] theorem State.finish_fw (s : State) (d : Desc) (c : Code) (a b : Nat) (l t : Bool) : (s.finish d c a b l t).fw = s.fw := by rw [State.finish_eq]
@[simp] theorem State.finish_plan (s : State) (d : Desc) (c : Code) (a b : Nat) (l t : Bool) : (s.finish d c a b l t).plan = s.plan := by rw [State.finish_eq]

@[simp] theorem State.reg_start (s : State) (h : Hdr) (n : Nat) : (s.start h).reg n = s.reg n := by simp [State.reg]
@[simp] theorem State.reg_finish (s : State) (d : Desc) (c : Code) (a b : Nat) (l t : Bool) (n : Nat) : (s.finish d c a b l t).reg n = s.reg n := by simp [State.reg]
@[simp] theorem State.cfg_start (s : State) (h : Hdr) (n : Nat) : (s.start h).cfg n = s.cfg n := by simp [State.cfg]
@[simp] theorem State.cfg_finish (s : State) (d : Desc) (c : Code) (a b : Nat) (l t : Bool) (n : Nat) : (s.finish d c a b l t).cfg n = s.cfg n := by simp [State.cfg]
@[simp] theorem State.req_start (s : State) (h : Hdr) (n : Nat) : (s.start h).req n = s.req n := by simp [State.req]
@[simp] theorem State.req_finish (s : State) (d : Desc) (c : Code) (a b : Nat) (l t : Bool) (n : Nat) : (s.finish d c a b l t).req n = s.req n := by simp [State.req]
@[simp] theorem State.table_start (s : State) (h : Hdr) (n : Nat) : (s.start h).table n = s.table n := by simp [State.table]
@[simp] theorem State.table_finish (s : State) (d : Desc) (c : Code) (a b : Nat) (l t : Bool) (n : Nat) : (s.finish d c a b l t).table n = s.table n := by simp [State.table]
@[simp] theorem State.pool_start (s : State) (h : Hdr) (n : Nat) : (s.start h).pool n = s.pool n := by simp [State.pool]
@[simp] theorem State.pool_finish (s : State) (d : Desc) (c : Code) (a b : Nat) (l t : Bool) (n : Nat) : (s.finish d c a b l t).pool n = s.pool n := by simp [State.pool]
@[simp] theorem State.adapter_start (s : State) (h : Hdr) (n : Nat) : (s.start h).adapter n = s.adapter n := by simp [State.adapter]
@[simp] theorem State.adapter_finish (s : State) (d : Desc) (c : Code) (a b : Nat) (l t : Bool) (n : Nat) : (s.finish d c a b l t).adapter n = s.adapter n := by simp [State.adapter]
@[simp] theorem State.slot_start (s : State) (h : Hdr) (n : Nat) : (s.start h).slot n = s.slot n := by simp [State.slot]
@[simp] theorem State.slot_finish (s : State) (d : Desc) (c : Code) (a b : Nat) (l t : Bool) (n : Nat) : (s.finish d c a b l t).slot n = s.slot n := by simp [State.slot]
@[simp] theorem State.engine_start (s : State) (h : Hdr) (n : Nat) : (s.start h).engine n = s.engine n := by simp [State.engine]
@[simp] theorem State.engine_finish (s : State) (d : Desc) (c : Code) (a b : Nat) (l t : Bool) (n : Nat) : (s.finish d c a b l t).engine n = s.engine n := by simp [State.engine]
@[simp] theorem State.seq_start (s : State) (h : Hdr) (n : Nat) : (s.start h).seq n = s.seq n := by simp [State.seq]
@[simp] theorem State.seq_finish (s : State) (d : Desc) (c : Code) (a b : Nat) (l t : Bool) (n : Nat) : (s.finish d c a b l t).seq n = s.seq n := by simp [State.seq]
@[simp] theorem State.obj_start (s : State) (h : Hdr) (n : Nat) : (s.start h).obj n = s.obj n := by simp [State.obj]
@[simp] theorem State.obj_finish (s : State) (d : Desc) (c : Code) (a b : Nat) (l t : Bool) (n : Nat) : (s.finish d c a b l t).obj n = s.obj n := by simp [State.obj]
@[simp] theorem State.tile_start (s : State) (h : Hdr) (n : Nat) : (s.start h).tile n = s.tile n := by simp [State.tile]
@[simp] theorem State.tile_finish (s : State) (d : Desc) (c : Code) (a b : Nat) (l t : Bool) (n : Nat) : (s.finish d c a b l t).tile n = s.tile n := by simp [State.tile]
@[simp] theorem State.queue_start (s : State) (h : Hdr) (n : Nat) : (s.start h).queue n = s.queue n := by simp [State.queue]
@[simp] theorem State.queue_finish (s : State) (d : Desc) (c : Code) (a b : Nat) (l t : Bool) (n : Nat) : (s.finish d c a b l t).queue n = s.queue n := by simp [State.queue]
@[simp] theorem State.port_start (s : State) (h : Hdr) (n : Nat) : (s.start h).port n = s.port n := by simp [State.port]
@[simp] theorem State.port_finish (s : State) (d : Desc) (c : Code) (a b : Nat) (l t : Bool) (n : Nat) : (s.finish d c a b l t).port n = s.port n := by simp [State.port]
@[simp] theorem State.win_start (s : State) (h : Hdr) (n : Nat) : (s.start h).win n = s.win n := by simp [State.win]
@[simp] theorem State.win_finish (s : State) (d : Desc) (c : Code) (a b : Nat) (l t : Bool) (n : Nat) : (s.finish d c a b l t).win n = s.win n := by simp [State.win]

theorem State.image_start (s : State) (h : Hdr) (n : Nat) : (s.start h).image n = s.image n := by simp [State.image]

end Sys2Proof.Machine
end

