-- ==== Sys2Proof/WellFormed.lean ====
section
/-! DEFINITION. Well-formed commands: every index names a unit that the TX8 can have, and every field fits the bits that the manual gives it (R7, R16, R19, R20, R87, R306, R330, Tables 9-4, 9-6, 9-8, 11-9, 13-6). -/

namespace Sys2Proof

/-- An index below a number of units. -/
def ix (n i : Nat) : Bool := decide (i < n)

/-- A field of `w` bits. -/
def fits (w x : Nat) : Bool := decide (x < 2 ^ w)

/-- Table 9-4: a channel and a TAG of 8 bytes. -/
def Hdr.wf (h : Hdr) : Bool := ix 256 h.chan && fits 64 h.tag

/-- Table 10-3. -/
def SeqFields.wf (f : SeqFields) : Bool :=
  ix 16 f.a && ix 16 f.b && ix 16 f.c && ix 8 f.d && fits 11 f.mod && fits 32 f.imm

/-- Table 11-3. -/
def Frame.wf (f : Frame) : Bool :=
  fits 4 f.kind && fits 4 f.count && fits 8 f.tag && fits 16 f.src && fits 16 f.dst && fits 48 f.addr && fits 32 f.fcrc

/-- Table 9-8. -/
def DmaCopy.wf (c : DmaCopy) : Bool :=
  fits 64 c.src && fits 64 c.dst && fits 64 c.len && fits 64 c.alt && fits 2 c.srcSpace && fits 2 c.dstSpace && fits 16 c.sync

/-- Whether a command is one that the manual's tables can give. -/
def Instr.wf (i : Instr) : Bool :=
  match i with
  | .bar0Write off _ value => fits 20 off && fits 64 value
  | .bar0InvalidAccess _ off _ => fits 20 off
  | .aeCtrClear d v => ix 8 d && fits 32 v
  | .dcCtrClear d v => ix 8 d && fits 32 v
  | .calCtrClear d v => ix 8 d && fits 32 v
  | .calRequest d v => ix 8 d && fits 32 v
  | .spCtrClear d v => ix 8 d && fits 32 v
  | .memCtrClear m v => ix 4 m && fits 32 v
  | .kvCtrClear m v => ix 4 m && fits 32 v
  | .attCtrClear d v => ix 8 d && fits 32 v
  | .serveCtrClear m v => ix 4 m && fits 32 v
  | .wqCtrClear d v => ix 8 d && fits 32 v
  | .syncCtrClear m v => ix 4 m && fits 32 v
  | .gpCtrClear p v => ix 16 p && fits 32 v
  | .fabCtrClear v => fits 32 v
  | .topoCtrClear v => fits 32 v
  | .wtCtrClear v => fits 32 v
  | .seCtrClear d v => ix 8 d && fits 32 v
  | .hkCtrClear v => fits 32 v
  | .pwrCtrClear v => fits 32 v
  | .bootCtrClear v => fits 32 v
  | .secCtrClear v => fits 32 v
  | .evCtrClear v => fits 32 v
  | .chCtrlOpen c _ _ => ix 256 c
  | .chCtrlClose c => ix 256 c
  | .channelDrainDone c => ix 256 c
  | .chCtrlReset c => ix 256 c
  | .channelError c => ix 256 c
  | .evCtrlEnable => true
  | .evCtrlDisable => true
  | .doorbellInvalidation line _ => ix 257 line
  | .dbPoll _ => true
  | .coalTime c => ix 256 c
  | .requestOpen h params tokens count => h.wf && fits 64 params && fits 64 tokens && fits 32 count
  | .requestAppend h handle _ tokens count => h.wf && fits 32 handle && fits 64 tokens && fits 32 count
  | .requestDraft h handle forLength nodes tree => h.wf && fits 32 handle && fits 32 forLength && fits 8 nodes && fits 64 tree
  | .requestPause h handle _ target ttl hold => h.wf && fits 32 handle && fits 3 target && fits 32 ttl && fits 32 hold
  | .requestResume h handle _ => h.wf && fits 32 handle
  | .requestRenew h handle ttl => h.wf && fits 32 handle && fits 32 ttl
  | .requestRewind h handle position token _ => h.wf && fits 32 handle && fits 32 position && fits 32 token
  | .requestMigrate h handle => h.wf && fits 32 handle
  | .requestClose h handle => h.wf && fits 32 handle
  | .requestQuery h handle buffer => h.wf && fits 32 handle && fits 64 buffer
  | .programLoad h image source length _ => h.wf && fits 16 image && fits 64 source && fits 64 length
  | .programRun h image entry args length ret => h.wf && fits 16 image && fits 16 entry && fits 64 args && fits 64 length && fits 64 ret
  | .programUnload h image => h.wf && fits 16 image
  | .regionRelease h die cluster core base => h.wf && fits 8 die && fits 8 cluster && fits 8 core && fits 32 base
  | .dmaCopy h c => h.wf && c.wf
  | .adapterInstall h slot source length home _ => h.wf && fits 16 slot && fits 64 source && fits 64 length && fits 48 home
  | .adapterRemove h slot => h.wf && fits 16 slot
  | .adapterQuery h slot buffer => h.wf && fits 16 slot && fits 64 buffer
  | .configStage h list count => h.wf && fits 64 list && fits 32 count
  | .configCheck h seq => h.wf && fits 32 seq
  | .configCommit h seq => h.wf && fits 32 seq
  | .configDiscard h => h.wf
  | .emptyStepBoundary => true
  | .blockSafePointSwitch block => ix 19 block
  | .timeMark h hostTime _ => h.wf && fits 64 hostTime
  | .eventMask h mask severity => h.wf && fits 256 mask && fits 8 severity
  | .eventFlush h => h.wf
  | .maintCalRequest h mask => h.wf && fits 8 mask
  | .layerStats h image first count buffer => h.wf && fits 16 image && fits 16 first && fits 16 count && fits 64 buffer
  | .ashList h first count buffer => h.wf && fits 32 first && fits 32 count && fits 64 buffer
  | .eventCatalogue h buffer length => h.wf && fits 64 buffer && fits 64 length
  | .partitionReset h scope die cluster _ => h.wf && fits 8 scope && fits 8 die && fits 8 cluster
  | .fwStage h space _ _ last source length _ _ _ _ _ => h.wf && fits 1 space && fits 16 last && fits 64 source && fits 64 length
  | .fwActivate h => h.wf
  | .fwQuery h buffer => h.wf && fits 64 buffer
  | .identity h buffer => h.wf && fits 64 buffer
  | .attest h buffer nonce => h.wf && fits 64 buffer && nonce.length == 32
  | .keyEnroll h source length _ => h.wf && fits 64 source && fits 64 length
  | .rollbackAdvance h counter => h.wf && fits 8 counter
  | .weightManifest h slot space source length _ _ _ => h.wf && fits 16 slot && fits 1 space && fits 64 source && fits 64 length
  | .weightKey h slot source length _ => h.wf && fits 16 slot && fits 64 source && fits 64 length
  | .weightShard h slot space _ _ shard source _ => h.wf && fits 16 slot && fits 1 space && fits 32 shard && fits 64 source
  | .shardCheckDone _ _ => true
  | .weightChain h slot _ _ => h.wf && fits 16 slot
  | .weightCommit h slot _ => h.wf && fits 16 slot
  | .weightRemove h slot => h.wf && fits 16 slot
  | .weightCheck h slot shard => h.wf && fits 16 slot && fits 32 shard
  | .weightQuery h slot buffer => h.wf && fits 16 slot && fits 64 buffer
  | .weightAbort h slot => h.wf && fits 16 slot
  | .groupCommitTimeout => true
  | .scan h die cluster mode => h.wf && fits 8 die && fits 8 cluster && fits 8 mode
  | .fleetLoad h slot _ _ => h.wf && fits 8 slot
  | .fleetSet h slot _ => h.wf && fits 16 slot
  | .fleetRemove h slot => h.wf && fits 16 slot
  | .inject h q n layer lane offset steps => h.wf && ix 576 q && ix 4 n && ix 64 layer && ix 528 lane && fits 16 offset && fits 32 steps
  | .testQuery h die cluster buffer => h.wf && fits 8 die && fits 8 cluster && fits 64 buffer
  | .windowOpen via args => via.all Hdr.wf && args.length == 32
  | .windowClose via n => via.all Hdr.wf && ix 1024 n
  | .windowDrained n => ix 1024 n
  | .windowQuery via n buffer => via.all Hdr.wf && ix 1024 n && fits 64 buffer
  | .stepBoundary _ => true
  | .stepCommit _ => true
  | .stewardHeartbeat => true
  | .stewardTimeout => true
  | .stewardCounterSync => true
  | .eventArrival _ => true
  | .emberHold _ => true
  | .peatMoveDone _ => true
  | .peatMoveFailed _ _ => true
  | .peatExpiryWarning _ => true
  | .requestExpired _ => true
  | .resumptionChecked _ _ _ => true
  | .nop q f => ix 576 q && f.wf
  | .halt q f => ix 576 q && f.wf
  | .seti q f => ix 576 q && f.wf
  | .addi q f => ix 576 q && f.wf
  | .alu q f => ix 576 q && f.wf
  | .ld q f => ix 576 q && f.wf
  | .st q f => ix 576 q && f.wf
  | .jump q f => ix 576 q && f.wf
  | .branch q f => ix 576 q && f.wf
  | .jumpr q f => ix 576 q && f.wf
  | .loop q f => ix 576 q && f.wf
  | .pop q f => ix 576 q && f.wf
  | .pbld q f => ix 576 q && f.wf
  | .push _ => true
  | .arrayMv q f => ix 576 q && f.wf
  | .arrayRead q f => ix 576 q && f.wf
  | .dMv q f => ix 576 q && f.wf
  | .dVec q f => ix 576 q && f.wf
  | .psumAdd q f => ix 576 q && f.wf
  | .kvAppend q f => ix 576 q && f.wf
  | .attWalk q f => ix 576 q && f.wf
  | .copy q f => ix 576 q && f.wf
  | .atomicAdd q f => ix 576 q && f.wf
  | .atomicClear q f => ix 576 q && f.wf
  | .post q f => ix 576 q && f.wf
  | .wait q f => ix 576 q && f.wf
  | .syncSet q f => ix 576 q && f.wf
  | .doneWait q f => ix 576 q && f.wf
  | .doneSet q f => ix 576 q && f.wf
  | .fence q f => ix 576 q && f.wf
  | .intr q f => ix 576 q && f.wf
  | .tick q f => ix 576 q && f.wf
  | .opCompletion q _ => ix 576 q
  | .seqLoad q a _ n => ix 576 q && fits 22 a && fits 12 n
  | .seqStart q _ => ix 576 q
  | .seqStop q => ix 576 q
  | .seqResumeRetry q => ix 576 q
  | .seqResumeSkip q => ix 576 q
  | .wqFlush g mask => ix 72 g && fits 16 mask
  | .wqWriteHeld g writer => ix 72 g && ix 9 writer
  | .dmaCommand g _ => ix 72 g
  | .arrayMvOpStart q n _ => ix 576 q && ix 4 n
  | .accumulatorWriteBack q _ => ix 576 q
  | .correctionMerge q _ => ix 576 q
  | .passRepeat q _ => ix 576 q
  | .layerD16Repeat image layer seq => fits 16 image && ix 4096 layer && ix 1048576 seq
  | .verdictReport q _ => ix 576 q
  | .arrayReadOp q n => ix 576 q && ix 4 n
  | .arrayCalOp q n layer seed area => ix 576 q && ix 4 n && ix 64 layer && fits 32 seed && fits 64 area
  | .dMvPass q => ix 576 q
  | .dVecOp q _ seq => ix 576 q && ix 1048576 seq
  | .kvAppendOp q => ix 576 q
  | .attWalkOp q => ix 576 q
  | .segmentMerge q => ix 576 q
  | .psumAddOp q => ix 576 q
  | .copyOp q _ => ix 576 q
  | .addFx64 q => ix 576 q
  | .addI32Sat q => ix 576 q
  | .atomicClearOp q => ix 576 q
  | .syncPost _ => true
  | .syncWaitArrival _ => true
  | .syncSetArrival _ => true
  | .syncWaitLong obj _ => ix 4096 obj
  | .hostMemWrite w _ => fits 64 w
  | .hostMemRead w => fits 64 w
  | .patrolRead m _ => ix 4 m
  | .hbmRowIdleClose _ => true
  | .bankPowerUpDone q b => ix 576 q && ix 16 b
  | .fitRoundClose q n lane => ix 576 q && ix 4 n && ix 528 lane
  | .calRunStaged d => ix 8 d
  | .calSave d _ => ix 8 d
  | .bankProgramRequest q n b => ix 576 q && ix 4 n && ix 2 b
  | .tileProgramDone q n layer _ _ _ => ix 576 q && ix 4 n && ix 64 layer
  | .spareProgramDone q n b _ => ix 576 q && ix 4 n && ix 2 b
  | .readbackCheckStart => true
  | .readbackCheckDone _ => true
  | .chainChunkForward slot => fits 16 slot
  | .chunkReady slot shard _ length => fits 16 slot && fits 32 shard && fits 64 length
  | .slotFree slot => fits 16 slot
  | .portSignalDetect p => ix 16 p
  | .portFecLock p lanes => ix 16 p && ix 4 lanes
  | .portTrainTimeout p => ix 16 p
  | .portLockLoss p => ix 16 p
  | .uncorrRateCheck p _ _ => ix 16 p
  | .portFaultRetry p => ix 16 p
  | .retrain p => ix 16 p
  | .identityMessage p f => ix 16 p && Frame.wf f
  | .credit p f => ix 16 p && Frame.wf f
  | .enumStart => true
  | .enumToken p f => ix 16 p && Frame.wf f
  | .enumDone p f => ix 16 p && Frame.wf f
  | .clearId => true
  | .tileWrite p f => ix 16 p && Frame.wf f
  | .tileWriteMasked p f => ix 16 p && Frame.wf f
  | .atomicAddFrame p f => ix 16 p && Frame.wf f
  | .readReq p f => ix 16 p && Frame.wf f
  | .readTile p f => ix 16 p && Frame.wf f
  | .postFrame p f => ix 16 p && Frame.wf f
  | .ack p f => ix 16 p && Frame.wf f
  | .nack p f _ => ix 16 p && Frame.wf f
  | .mcastChunk p f => ix 16 p && Frame.wf f
  | .transitFrame p f _ => ix 16 p && Frame.wf f
  | .retryTime _ _ => true
  | .holdMax p => ix 16 p
  | .collInstanceStart _ => true
  | .collRecord p f => ix 16 p && Frame.wf f
  | .collWait _ => true
  | .repairWait d l _ => ix 3 d && ix 64 l
  | .repairNotice d l origin seq _ => ix 3 d && ix 64 l && fits 16 origin && fits 16 seq
  | .stepAnnounce n _ => fits 64 n
  | .cleanReport m n _ => fits 16 m && fits 64 n
  | .rewindNotice first => fits 64 first
  | .scanSchedule => true
  | .scanDone _ _ => true
  | .hkSlotConversion raw _ _ => fits 16 raw
  | .moduleShutdownTrip => true
  | .roundEnd => true
  | .damperDecision => true
  | .damperStageApply i => ix 12 i
  | .hkUrgCtrl v _ _ => fits 32 v
  | .hkTdacGo v => fits 32 v
  | .syscalZero e => ix 8 e
  | .syscalFull e => ix 8 e
  | .syscalSave e => ix 8 e
  | .hkPartRelease v => fits 32 v
  | .autoRelease p => ix 84 p
  | .inputUndervolt => true
  | .inputOvervolt => true
  | .inputOvercurrent => true
  | .regulatorFault => true
  | .inputOutOfRange _ => true
  | .currentLimit _ => true
  | .powerOn => true
  | .bootPhase _ => true
  | .recoveryGo v _ _ => fits 32 v
  | .poweredHour => true
  | .fwChunkReceive t _ => ix 72 t
  | .fwChunkFetch t _ => ix 72 t
  | .resetTimeout d p _ => ix 8 d && ix 9 p
  | .hssTreeBuilt => true
  | .cordGroupQuery tag => fits 32 tag
  | .cordGroupConfirm m _ => fits 16 m
  | .hdmDecoderCommit _ => true
  | .ptmExchange root => fits 64 root
  | .urgentConversionDone raw _ => fits 16 raw
  | .attestRateTurn => true

end Sys2Proof
end

