-- ==== Sys2Proof/Tests/Slice0.lean ====
section
/-! SUPPORT. Tests: the checks of well-formedness refuse an ill-formed term each; worked examples of the manual; for every statement with hypotheses a state and operands that meet them, clause by clause. -/

set_option maxRecDepth 100000

namespace Sys2Proof.Tests

open Sys2Proof.Machine

/-- A module that has come up, with channel 0 open and one descriptor fetched. -/
def base : State := { boot := { phase := 9 }, hk := { powered := true, rounds := 1 }, chans := [(0, { st := .opened, fetched := 1 })] }

/-- A plain header on channel 0. -/
def h0 : Hdr := { chan := 0 }

/-- `base` with `v` as register `a`. -/
def withReg (s : State) (a v : Nat) : State := s.setReg a v

/-- The registers an access covers: start, width, access code, and whether it has writable bits. -/
def covers (off width : Nat) : List (Nat × Nat × Acc × Bool) := (coveredRegs off width).map (fun x => (x.2, x.1.width, x.1.acc, x.1.mask &&& (2 ^ x.1.width - 1) != 0))

/-- `base` with `c` as channel 0. -/
def withChan (c : Chan) : State := { base with chans := [(0, c)] }

/-- `base` with entry 0 as `r` beside image 0. -/
def withReq (r : Req) : State := { base with reqs := [(0, r)], images := [(0, some {})] }

/-! ### Statements on the block as a whole -/

/-- CommandsKeepToTheirZones, EveryStepKeepsCanonicalForm, EveryStepTakesItsCommandAndAnswersAState. -/
theorem test_met_steps :
    (({ base with pending := [.evCtrlDisable] } : State).wf = true ∧ ∃ t, step { base with pending := [.evCtrlDisable] } = .next t)
    ∧ (∃ t, exec .evCtrlDisable base = .next t) ∧ base.pending = [] :=
  ⟨⟨by decide, _, rfl⟩, ⟨_, rfl⟩, rfl⟩

/-- CounterClearsClearExactlyTheirCounters: the first and the last die of a TX8, bit 0 set and clear. -/
theorem test_met_counterClears : base.fits 0 = true ∧ base.fits 7 = true ∧ bitOf 1 0 = true ∧ bitOf 2 0 = false := by decide

/-- CountersSaturate: a counter at its end, and an event source with a domain. -/
theorem test_met_counters : (withReg base fabTotals.head! (2 ^ 64 - 1)).reg fabTotals.head! < 2 ^ 64 ∧ (Src.ofDie 0).dom ≠ 0 := by decide

/-- Bar0WriteFollowsTheAccessCode: each access code, a locked and a free register, and a hole. -/
theorem test_met_bar0 :
    (barAligned 0xFFFF8 8 = true ∧ covers 0xFFFF8 8 = [])
    ∧ (barAligned Reg.VER_RING 8 = true ∧ covers Reg.VER_RING 8 = [(Reg.VER_RING, 64, .ro, false)] ∧ base.absentBlock Reg.VER_RING = false)
    ∧ (covers (chReg 1 Reg.CH_SQ_BASE) 8 = [(chReg 1 Reg.CH_SQ_BASE, 64, .rw, true)] ∧ base.locked (chReg 1 Reg.CH_SQ_BASE) = none
      ∧ base.locked (chReg 0 Reg.CH_SQ_BASE) ≠ none ∧ base.reg (chReg 0 Reg.CH_SQ_BASE) < 2 ^ 64) := by decide

/-- Bar0WriteFollowsTheAccessCode: a staged register and an action. -/
theorem test_met_bar0Staged :
    (covers (memReg 0 Reg.SERVE_TIME_CFG) 4 = [(memReg 0 Reg.SERVE_TIME_CFG, 32, .st, true)] ∧ base.stagedReg (memReg 0 Reg.SERVE_TIME_CFG) < 2 ^ 32)
    ∧ (covers (chReg 255 Reg.CH_CTRL) 4 = [(chReg 255 Reg.CH_CTRL, 32, .wo, false)] ∧ blockAt (chReg 255 Reg.CH_CTRL) = some (.channel 255, Reg.CH_CTRL)) := by decide

/-- OtherAccessesAreNotPerformed: a wrong width, and a wrong alignment. -/
theorem test_met_barErrors : (¬ ((2 = 4 ∨ 2 = 8) ∧ 0 % 2 = 0)) ∧ ¬ ((8 = 4 ∨ 8 = 8) ∧ 4 % 8 = 0) := by decide

/-! ### Channels, descriptors and events -/

/-- A channel set up with 64-slot rings and every offer of the module. -/
def ready64 : State :=
  ((((((base.setReg (chReg 1 Reg.CH_SQ_BASE) 0x10000).setReg (chReg 1 Reg.CH_CQ_BASE) 0x20000).setReg (chReg 1 Reg.CH_DB_ADDR) 0x30000).setReg
    (chReg 1 Reg.CH_CFG) 0xC6).setReg (chReg 1 Reg.CH_ABI_OFFER) (base.reg Reg.VER_ABI)).setReg (chReg 1 Reg.CH_RING_OFFER) (base.reg Reg.VER_RING)).setReg (chReg 1 Reg.CH_DESC_OFFER) (base.reg Reg.VER_DESC)

/-- ActionWritesPerformTheirCommand: a channel in each state of Table 9-2. -/
theorem test_met_actions :
    ((base.chan 1).st = .closed ∧ bitOf 1 0 = true) ∧ ((base.chan 0).st = .opened ∧ bitOf 2 1 = true)
    ∧ (((withChan { st := .error }).chan 0).st = .error ∧ bitOf 4 2 = true) ∧ ((withChan { st := .draining }).chan 0).st = .draining := by decide

/-- ChannelsAndDoorbells: opens that pass (rings of 64 slots) and that fail (ring size, alignment, version, doorbell read), before and at READY. -/
theorem test_met_opens :
    (ready64.openCheck 1 true = .OK ∧ (ready64.chan 1).st = .closed ∧ ready64.ready = true)
    ∧ ready64.openCheck 1 false = .HOST_ACCESS ∧ (ready64.setReg (chReg 1 Reg.CH_CFG) 0xC5).openCheck 1 true = .CFG_RANGE
    ∧ (ready64.setReg (chReg 1 Reg.CH_CFG) (16 + 32 * 21)).openCheck 1 true = .CFG_RANGE ∧ (ready64.setReg (chReg 1 Reg.CH_DB_ADDR) 0x30020).openCheck 1 true = .ALIGN
    ∧ (ready64.setReg (chReg 1 Reg.CH_ABI_OFFER) 0).openCheck 1 true = .VERSION_NONE
    ∧ (({ ready64 with boot := {} } : State).ready = false ∧ (({ ready64 with boot := {} } : State).chan 1).st = .closed) ∧ (base.chan 0).st ≠ .closed := by decide

/-- ChannelsAndDoorbells: closing, draining, errors, and a doorbell line one past the ring, at its end, and past the last completion. -/
theorem test_met_doorbells :
    ((base.chan 0).st = .opened ∧ (base.chan 1).st ≠ .opened ∧ (base.chan 0).st ≠ .error)
    ∧ (let x : State := withChan { st := .draining, fetched := 3, started := 3 }
       (x.chan 0).st = .draining ∧ (x.chan 0).started = (x.chan 0).fetched ∧ (x.chan 0).outstanding = [] ∧ (x.chan 0).spill = [])
    ∧ (withChan { st := .error }).chan 0 = { st := .error }
    ∧ (let c : Chan := { st := .opened, cfg := 0xC6 }
       c.isOpen = true ∧ c.overrun 64 0 = false ∧ c.overrun 65 0 = true ∧ c.overrun 0 1 = true ∧ c.spill = []
        ∧ ((withChan c).hostNat c.dbAddr 4, (withChan c).hostNat (c.dbAddr + 4) 4) = (0, 0) ∧ (({ withChan c with hmem := Tab.setList [] 0 [65#8] } : State).hostNat c.dbAddr 4 = 65)
        ∧ (withChan c).ready = true ∧ (withChan c).part.pcie = false)
    ∧ (({ base with ev := { enabled := true } } : State).ev.enabled = true) ∧ (({ base with part := { pcie := true } } : State).part.pcie = true ∧ base.ev.enabled = false)
    ∧ (let c : Chan := { st := .opened, cfg := 0x400, coalRun := true }
       c.isOpen = true ∧ c.irqEn = true ∧ c.coalRun = true) := by decide

/-- ChannelsAndDoorbells under PCIe: channel 0 is the only open one. -/
theorem test_met_dbPoll : ∀ e, e ≠ 0 → (base.chan e).isOpen = false := by
  intro e he
  have h : Tab.get base.chans e = ({} : Chan) := by simp [base, Tab.get, Ne.symm he]; rfl
  simp [State.chan, h, Chan.isOpen]

/-- Channel 0 permits no class. -/
def noPermit : State := { base with live := { regs := [(stgReg Reg.CH_PERMIT, resetOf (stgReg Reg.CH_PERMIT))] } }

/-- DescriptorsStartAndComplete: a channel that starts nothing, one that starts, each refusal of the header, and rings with room, full and behind a spill. -/
theorem test_met_descriptors :
    ((Instr.eventFlush h0).hostDescriptor = some (h0, clsEvent) ∧ (withChan {}).canStart h0 = false ∧ base.canStart h0 = true)
    ∧ (base.canStart { chan := 0, newer := true } = true ∧ base.permits 0 clsEvent = true)
    ∧ (noPermit.permits 0 clsEvent = false ∧ noPermit.canStart h0 = true)
    ∧ (base.accepts h0 clsEvent = true ∧ base.accepts { chan := 0, reserved := true } clsEvent = false)
    ∧ (let c : Chan := { st := .opened, cfg := 0xC6, written := 63 }
       c.isOpen = true ∧ c.cqFull = false ∧ c.spill = [])
    ∧ (let c : Chan := { st := .opened, cfg := 0xC6, written := 64 }
       c.isOpen = true ∧ c.cqFull = true) ∧ ({} : Chan).isOpen = false := by decide

/-- The event ring of 64 slots is on and empty. -/
def evOn : State := { base.setReg (evReg Reg.EV_CFG) 6 with ev := { enabled := true } }

/-- An event on its way. -/
def ev0 : EvRec := { code := .CHANNEL_ERROR, src := Src.host, count := 0, args := [] }

/-- EventsAndTheirRing: an event on its way, a ring with its last free slot, a full one, a masked severity is not tested (its numbers are the firmware's), and the enable's checks. -/
theorem test_met_events :
    (let s : State := { evOn with ev := { evOn.ev with inFlight := [ev0], written := 63 } }
     s.ev.inFlight[0]? = some ev0 ∧ s.evMasked ev0.code = false
      ∧ (s.ready && s.ev.enabled && !s.ev.failed && s.ev.held.isEmpty && !s.evFull) = true)
    ∧ (let s : State := { evOn with ev := { evOn.ev with inFlight := [ev0], written := 64 } }
       (s.ready && s.ev.enabled && !s.ev.failed && s.ev.held.isEmpty && !s.evFull) = false ∧ s.ev.held.length < 65536)
    ∧ (let s : State := base.setReg (evReg Reg.EV_CFG) 16
       s.ev.enabled = false ∧ 6 ≤ bitsOf s.evCfg 0 5 ∧ bitsOf s.evCfg 0 5 ≤ 16 ∧ s.reg (evReg Reg.EV_RING_BASE) % 4096 = 0 ∧ s.reg (evReg Reg.EV_DB_ADDR) % 64 = 0
        ∧ s.ev.held = [] ∧ s.ev.dropped = 0)
    ∧ bitsOf (base.setReg (evReg Reg.EV_CFG) 5).evCfg 0 5 < 6
    ∧ (base.accepts h0 clsEvent = true ∧ base.accepts h0 clsMaint = true ∧ base.ev.held = []) := by decide

/-- EventsAndTheirRing: a mask that masks every code, whatever its number; and 65,536 records held. -/
theorem test_met_eventsHeld :
    ({ base with ev := { mask := 2 ^ 256 - 1 } } : State).evMasked .CHANNEL_ERROR = true
    ∧ ({ base with ev := { held := List.replicate 65536 { ev := ev0, stamp := 0, seq := 0, phase := false } } } : State).ev.held.length = 65536 := by
  refine ⟨?_, List.length_replicate⟩
  have h : ∀ n, n < 256 → bitOf (2 ^ 256 - 1) n = true := by decide
  simp only [State.evMasked, Bool.or_eq_true, Bool.and_eq_true]
  exact .inl ⟨by decide, h _ (Nat.mod_lt _ (by decide))⟩

/-! ### Requests -/

/-- A parameter block of 64 zeros but for byte 8 (MAX_LENGTH) and byte 5 bit 7 (no adapter). -/
def blk (n : Nat) (bare : Bool) : List Byte :=
  List.replicate 5 0#8 ++ [if bare then 0x80#8 else 0#8] ++ List.replicate 2 0#8 ++ leBytes 4 n ++ List.replicate 52 0#8

/-- `base` with image 0 loaded and the block `bs` at host address 0. -/
def withBlk (bs : List Byte) : State := { base with images := [(0, some {})], hmem := Tab.setList [] 0 bs }

/-- A full request table: every one of the 1,048,576 entries OPEN. -/
def full : List (Nat × Req) := (List.range (4 * 262144)).map (fun i => (i, { st := .opened }))

theorem full_count (n m : Nat) (h : m < 4) :
    (((List.range (4 * n)).map (fun i => (i, ({ st := .opened } : Req)))).filter (fun e => e.1 % 4 == m && e.2.st != .closed)).length = n := by
  induction n with
  | zero => rfl
  | succ n ih =>
    have e : 4 * (n + 1) = 4 * n + 1 + 1 + 1 + 1 := by omega
    rw [e]
    simp only [List.range_succ, List.map_append, List.filter_append, List.length_append, ih]
    have a0 : (4 * n) % 4 = 0 := by omega
    have a1 : (4 * n + 1) % 4 = 1 := by omega
    have a2 : (4 * n + 1 + 1) % 4 = 2 := by omega
    have a3 : (4 * n + 1 + 1 + 1) % 4 = 3 := by omega
    match m, h with
    | 0, _ => simp [a0, a1, a2, a3]
    | 1, _ => simp [a0, a1, a2, a3]
    | 2, _ => simp [a0, a1, a2, a3]
    | 3, _ => simp [a0, a1, a2, a3]

/-- RequestOpenFillsAnEntry: the table is full. -/
theorem test_met_requestTableFull : ({ base with reqs := full } : State).freeReq = none := by
  have h : ∀ m, m < 4 → (full.filter (fun e => e.1 % 4 == m && e.2.st != .closed)).length = 262144 := fun m h => full_count 262144 m h
  simp [State.freeReq, h, List.range_succ]

/-- RequestOpenFillsAnEntry: a free entry, a reserved field, an absent image, lengths at and past MAX_LENGTH and the context, and a retiring adapter. -/
theorem test_met_requestOpen :
    (let s := withBlk (blk 0x100000 true)
     let p := parseParams ((s.start h0).hostRead 0 64)
     s.accepts h0 clsRequest = true ∧ p.reserved = false ∧ (s.start h0).image p.image = some {} ∧ p.maxLength = 0x100000 ∧ p.topK ≤ 1024 ∧ p.temp = 0#32 ∧ p.noAdapter = true
      ∧ (s.start h0).freeReq = some 0)
    ∧ (let s := withBlk (blk 0x100001 true)
       ({} : Image).context < (parseParams (s.hostRead 0 64)).maxLength)
    ∧ (parseParams (List.replicate 63 0#8 ++ [1#8])).reserved = true
    ∧ (parseParams (base.hostRead 0 64)).reserved = false ∧ base.image 0 = none
    ∧ (let s : State := { withBlk (blk 1 false) with adapters := [(0, { retiring := true })] }
       (parseParams (s.hostRead 0 64)).noAdapter = false ∧ (s.adapter 0).retiring = true) := by decide

/-- RequestOperationsCheckTheHandle: each refusal. -/
theorem test_met_requestHandle :
    (Instr.requestClose h0 (2 ^ 20)).requestStates = some (h0, 2 ^ 20, [.opened, .active, .ember, .peat, .expired])
    ∧ (((withReq { st := .active }).start h0).req (2 ^ 20 % 2 ^ 20)).incarnation ≠ 2 ^ 20 / 2 ^ 20
    ∧ (((withReq { st := .active, chan := 1 }).start h0).req 0).chan ≠ h0.chan
    ∧ ReqState.active ∉ [ReqState.opened, .ember, .peat] ∧ (withReq { st := .active }).accepts h0 clsRequest = true := by decide

/-- RequestOperationsChangeTheirEntry, RequestResume: an entry of the channel in each state. -/
theorem test_met_onEntry : ∀ t ∈ [ReqState.opened, .active, .ember, .peat, .expired], (withReq { st := t }).onEntry h0 0 { st := t } := by
  intro t ht
  fin_cases ht <;> exact ⟨by decide, by decide, rfl, rfl⟩

/-- RequestOperationsChangeTheirEntry: what the entry and the operands are in each clause. -/
theorem test_met_requestChange :
    (let r : Req := { st := .opened, maxLength := 4 }
     r.maxLength < r.length + 5 ∧ r.length + 4 ≤ r.maxLength ∧ r.st ≠ .peat)
    ∧ treeOk [] = false ∧ treeOk [(0xFF, 1), (0, 2)] = true ∧ treeOk [(0xFF, 1), (1, 2)] = false
    ∧ (({ base with hmem := [(0, 0xFF#8)] } : State).treeNodes 0 1 = [(0xFF, 0)])
    ∧ base.peatEnabled 0 = false ∧ ({ st := .active } : Req).tier ≠ .moving
    ∧ (479 < 480 ∧ 480 ≤ 1 + 479 ∧ 0 + 479 < 480)
    ∧ (({ base with adapters := [(0, { live := [{ number := 1 }] })] } : State).adapter 0).live ≠ [] ∧ (base.adapter 0).live = [] := by decide

/-- RequestResume: room for the pages, and none (an image that is not loaded). -/
theorem test_met_resume :
    ((withReq { st := .peat }).setReq 0 { st := .peat }).resumeShort 0 = false ∧ (({ base with reqs := [(0, { st := .peat })] } : State).setReq 0 { st := .peat }).resumeShort 0 = true := by decide

/-- Peat target 1 in use as kind 1 (GLOSA) or 2 (CXL_HOST), of 65,536 units. -/
def withPeat (k : Nat) (r : Req) (t : PageTable) : State :=
  { withReq r with live := { regs := [(memReg 0 (Reg.PEAT_TGT_SIZE + 16), 2 ^ 48 * k + 2 ^ 32)] }, tables := [(0, t)], time := { tick := 10 ^ 9 } }

/-- PeatTier: a move that starts, ends and fails, to each kind of target. -/
theorem test_met_peatMoves :
    (let s := withPeat 1 { st := .ember, hold := 1, peatTarget := 1 } { valid := true }
     (s.req 0).tier = .ember ∧ s.peatEnabled 1 = true ∧ (s.req 0).pauseTick + (s.req 0).hold * 10 ^ 9 ≤ s.time.tick
      ∧ ((s.setReq 0 { s.req 0 with wantMove := false }).peatFit 0 1).isSome = true ∧ (s.table 0).holdStatus = .OK)
    ∧ (let s := withPeat 2 { st := .ember, tier := .moving, peatTarget := 1 } { valid := true }
       s.peatKind 1 = 2 ∧ s.image (s.req 0).image = some {} ∧ (s.req 0).moved = false)
    ∧ (let s := withPeat 1 { st := .ember, tier := .moving, peatTarget := 1 } { valid := true }
       s.peatKind 1 = 1) ∧ base.peatEnabled 1 = false ∧ base.peatEnabled 0 = false := by decide

/-- PeatTier: a warning due at its first tick and one tick before, an expiry, and a resumption that runs. -/
theorem test_met_peatExpiry :
    (let s := withPeat 1 { st := .peat, expiry := 10 ^ 9 } {}
     (s.req 0).st = .peat ∧ (s.req 0).warned = false ∧ (s.req 0).expiry ≤ s.time.tick + s.warnLead * 10 ^ 9 ∧ (s.req 0).resuming = none ∧ (s.req 0).checked = false
      ∧ (s.req 0).expiry ≤ s.time.tick)
    ∧ (let s := withPeat 1 { st := .peat, expiry := 10 ^ 9 + 1 } {}
       s.time.tick < (s.req 0).expiry)
    ∧ (let s := withPeat 1 { st := .peat, expiry := 2 ^ 63 } {}
       s.time.tick + s.warnLead * 10 ^ 9 < (s.req 0).expiry)
    ∧ (let s := withPeat 1 { st := .peat, peatTarget := 1, resuming := some (base.descOf h0) } {}
       (s.req 0).resuming ≠ none ∧ s.image (s.req 0).image = some {} ∧ s.peatKind (s.req 0).peatTarget ≠ 2) := by decide

theorem companion_tail (r : Req) : r.companion.drop 128 = (Tab.getList r.ring 0 480).flatMap (leBytes 4) := rfl

/-- The digests of an empty request, and the image that carries them. -/
def kd0 : List Byte := dig48 (kvDigestOf [])
def rd0 : List Byte := dig48 (recDigestOf (({} : Req).entry 0) ({} : Req).companion)

/-- PeatTier: the image that a resumption checks, with a digest that disagrees and with all agreeing. -/
theorem test_met_peatImage :
    ((base.checkImage 0 {} []).2 = some 0) ∧ ((withReq { kvDigest := kd0, recDigest := rd0 }).checkImage 0 {} (List.replicate 16 0#8 ++ kd0 ++ rd0)).2 = none := by
  refine ⟨rfl, ?_⟩
  have hk : kd0.length = 48 := by simp [kd0, dig48]
  have hr : rd0.length = 48 := by simp [rd0, dig48]
  have h1 : (List.replicate 16 0#8 ++ kd0 ++ rd0).drop 16 = kd0 ++ rd0 := by simp [List.drop_append]
  have h2 : (List.replicate 16 0#8 ++ kd0 ++ rd0).drop 64 = rd0 := by simp [hk]
  have hq : (withReq { kvDigest := kd0, recDigest := rd0 }).req 0 = { kvDigest := kd0, recDigest := rd0 } := rfl
  have hrd : dig48 (recDigestOf (({ kvDigest := kd0, recDigest := rd0 } : Req).entry 0) ({ kvDigest := kd0, recDigest := rd0 } : Req).companion) = rd0 := by
    simp only [rd0, recDigestOf, companion_tail]
    rfl
  simp only [State.checkImage, hq, State.unitList, hrd, h1, h2]
  have hkd : dig48 (kvDigestOf []) = kd0 := rfl
  simp [hk, hr, hkd]

/-- TimeAndTakeOver: a mark, root times, each link, and a takeover at its first tick and one before. -/
theorem test_met_time :
    base.accepts h0 clsTimeMark = true ∧ base.time.ptm = none
    ∧ (({ base with time := { tick := 3, ptm := some (3, 2 ^ 64 - 1) } } : State).time.ptm = some (3, 2 ^ 64 - 1))
    ∧ base.part.pcie = false
    ∧ (let s : State := { base with time := { tick := base.stewardTimeout * 100000 } }
       s.step.heartbeat + s.stewardTimeout * 100000 ≤ s.time.tick ∧ s.standbyDie ≠ none ∧ s.ready = true)
    ∧ (0 < base.stewardTimeout) ∧ (let s : State := { base with time := { tick := base.stewardTimeout * 100000 - 1 } }
       s.time.tick < s.step.heartbeat + s.stewardTimeout * 100000)
    ∧ (let s : State := { base with step := { running := true } }
       s.step.running = true ∧ s.step.committed = false) := by decide

/-- Adapters: a slot in each condition, the last slot and the one past it. -/
theorem test_met_adapters :
    base.accepts h0 clsAdapter = true ∧ (base.start h0).installStatus 1023 [] = .OK ∧ 1023 < 1024
    ∧ (({ base with adapters := [(0, { retiring := true })] } : State).adapter 0).retiring = true
    ∧ (let x := ({ base with adapters := [(0, { live := List.replicate 3 { number := 1 }, next := some { number := 2 } })] } : State).adapter 0
       x.retiring = false ∧ 4 ≤ x.live.length + (if x.next.isSome then 1 else 0)) := by decide

/-! ### Programs, windows, copies and configurations -/

/-- Whether a load is accepted. -/
def loads (s : State) (g : Image) : Bool := match s.loadImage 1 0 0 (Image.widened g) with | .ok _ => true | .error _ => false

/-- ProgramLoad: accepted, refused by a test, no version, a number in use. -/
theorem test_met_programLoad :
    base.accepts h0 clsProgram = true
    ∧ (settle (offerList (base.reg Reg.VER_IMAGE)) ({} : Image).offers ≠ 0 ∧ loads (base.start h0) {} = true)
    ∧ (loads (base.start h0) { verdicts := [1024] } = true ∧ loads (base.start h0) { verdicts := [1025] } = false)
    ∧ settle (offerList (base.reg Reg.VER_IMAGE)) ({ offers := [0x0902] } : Image).offers = 0
    ∧ (withReq {}).image 0 ≠ none ∧ base.image 0xFFFE = none := by decide

/-- An image with one entry that starts core 0 at index 5 and names a region of it. -/
def runImage : Image := { entries := [{ entry := 4, starts := [(0, 5)], regions := [(0, 4096)], args := 0 }] }

/-- `base` with that image loaded, and its region lost or not. -/
def withRun (lost : Bool) (seqs : Tab Sequencer) : State :=
  { base with images := [(0, some runImage)], seqs := seqs, mem := { regions := [(0, { valid := true, base := 4096, tiles := 1, lost := lost, resident := true })] } }

/-- ProgramsRunAndUnload: each test of a run, the arguments' write, an unload, and a region that is released. -/
theorem test_met_programRun :
    base.accepts h0 clsProgram = true ∧ 65536 < 65537 ∧ base.image 0 = none
    ∧ (withRun false []).image 0 = some runImage ∧ runImage.entries.find? (fun e => e.entry == 5) = none
    ∧ runImage.entries.find? (fun e => e.entry == 4) = runImage.entries.head?
    ∧ runImage.entries.all (fun e => ((withRun true []).start h0).namesLost e && !((withRun false []).start h0).namesLost e
        && e.starts.any (fun x => ((withRun false [(0, { st := .running })]).seq x.1).st != .idle) && e.starts.all (fun x => ((withRun false []).seq x.1).st == .idle)
        && (((withRun false []).start h0).write Src.steward {} e.args (((withRun false []).start h0).hostRead 0 8)).code == .OK) = true
    ∧ ((withReq { st := .active }).imageUsed 0 = true ∧ (withReq {}).imageUsed 0 = false ∧ (withReq {}).image 0 = some {})
    ∧ (let r := (withRun false []).region (coreKey 0 0 0) 0
       r.valid = true ∧ r.resident = true ∧ r.base = 4096 ∧ (withRun false []).fits 0 = true)
    ∧ (({ base with part := { variant := .tx4 } } : State).fits 7 = false ∧ ¬ 7 < 7) := by decide

/-- A window of one page of HBM for modules 1 to 2, with the number `n`. -/
def winArgs (n : Nat) : List Byte := leBytes 8 0x800000000 ++ leBytes 8 4096 ++ leBytes 2 1 ++ leBytes 2 2 ++ leBytes 1 1 ++ leBytes 1 1 ++ leBytes 4 0 ++ leBytes 2 n ++ leBytes 4 0

/-- `base` with window 1023 in state `w`. -/
def withWin (w : Win) : State := { base with fab := { wins := [(1023, w)] } }

/-- Windows: opens by number and by search, a refused one, and the states of a window. -/
theorem test_met_windows :
    (base.winStatus (parseWin (winArgs 1023)) (winReserved (winArgs 1023)) = .OK ∧ base.winEntry (parseWin (winArgs 1023)) = some 1023 ∧ base.winEntry (parseWin (winArgs 0xFFFF)) = some 0)
    ∧ base.winStatus (parseWin (winArgs 1024)) (winReserved (winArgs 1024)) ≠ .OK
    ∧ (base.start h0).winStatus (parseWin []) (winReserved []) ≠ .OK ∧ (base.start h0).winStatus (parseWin (winArgs 5)) (winReserved (winArgs 5)) = .OK
    ∧ ((withWin { st := .opened }).win 1023).st = .opened ∧ (base.win 0).st ≠ .opened
    ∧ (((withWin { st := .draining, call := some (base.descOf h0) }).win 1023).st = .draining ∧ ((withWin { st := .draining }).win 1023).call = none)
    ∧ (base.win 0).st ≠ .draining ∧ base.accepts h0 clsProgram = true := by decide

/-- DmaCopies: no remote operation has ended; each refusal; a copy to and from the module. -/
theorem test_met_dmaCopies :
    endedRemote base.fab.remotes = none ∧ base.accepts h0 3 = true
    ∧ (let c : DmaCopy := { src := 0, dst := 0x800000000, len := 64 }
       (base.start h0).dmaCopyStatus c = .OK ∧ isFar (base.loc c.dst) = false ∧ (base.start h0).blocked (piecesOf (base.loc c.dst) c.len) = none)
    ∧ (let c : DmaCopy := { src := 0x800000000, dst := 0, len := 64, srcSpace := 1, dstSpace := 0, post := true, sync := 4095 }
       (base.start h0).dmaCopyStatus c = .OK ∧ isFar (base.loc c.src) = false ∧ ((base.start h0).dmaCopyRead c []).code = .OK)
    ∧ ((base.start h0).dmaCopyStatus { len := 2 ^ 40, srcSpace := 1, dstSpace := 1 } = .OK ∧ (base.start h0).dmaCopyStatus { len := 2 ^ 40 + 1 } = .DMA_FORMAT
      ∧ (base.start h0).dmaCopyStatus { len := 64, sync := 4096 } = .DMA_FORMAT ∧ (base.start h0).dmaCopyStatus { len := 64, srcSpace := 2, src := 2 ^ 60 } = .ADDRESS_UNMAPPED
      ∧ (base.start h0).dmaCopyStatus { len := 32, dst := 2 ^ 63 + 2 ^ 48 } = .REMOTE_ALIGN) := by decide

/-- One list entry at host address 0. -/
def withList (target value : Nat) : State := { base with hmem := Tab.setList [] 0 (leBytes 4 target ++ leBytes 4 0 ++ leBytes 8 value) }

/-- ConfigSets: lists with a good entry, one beyond its width, one that names no ST register; the verdicts on a set. -/
theorem test_met_configLists :
    base.accepts h0 clsConfig = true
    ∧ (∀ e ∈ ((withList (memReg 0 Reg.SERVE_CFG) 5).start h0).stageList 0 1, (withList (memReg 0 Reg.SERVE_CFG) 5).stageable e = true)
    ∧ (∃ e ∈ ((withList (memReg 0 Reg.SERVE_CFG) (2 ^ 32)).start h0).stageList 0 1, (withList (memReg 0 Reg.SERVE_CFG) (2 ^ 32)).stageable e = false)
    ∧ ∃ e ∈ ((withList (memReg 0 Reg.SERVE_CFG + 1) 5).start h0).stageList 0 1, (withList (memReg 0 Reg.SERVE_CFG + 1) 5).stageable e = false := by decide

/-- A staged set that breaks a rule: STEP_SEQ_MAX 0. -/
def badSet : State := { base with staged := { regs := [(memReg 0 Reg.SERVE_CFG, resetOf (memReg 0 Reg.SERVE_CFG))] } }

theorem test_met_configVerdicts :
    (base.start h0).verdictOf base.staged = none ∧ ((badSet.start h0).verdictOf badSet.staged).isSome = true ∧ 1 ≠ base.stageSeq ∧ 0 = base.stageSeq
    ∧ base.commit.buffer = none := by decide +kernel

/-- A commit that waits for block 18 alone, or for blocks 16 and 18. -/
def withCommit (l : List Nat) : State := { base with commit := { buffer := some { set := {}, chan := 0, ring := 0, tag := 0, irq := false }, blocks := l } }

/-- ConfigSets, BoundariesAndSafePoints: a boundary that can be made and one that cannot, commits that wait. -/
theorem test_met_boundaries :
    (withCommit []).commit.buffer ≠ none ∧ State.reset.atBoundary = false ∧ (base.ready = true ∧ base.step.running = false)
    ∧ ((withCommit []).commit.blocks = [] ∧ (withCommit [18]).commit.blocks ≠ [] ∧ (withCommit [18]).hk.slot = 0)
    ∧ (({ base with step := { running := true } } : State).step.running = true ∧ ({ base with step := { running := true } } : State).atBoundary = false)
    ∧ 17 ∉ (withCommit [18]).commit.blocks ∧ (16 ≤ 16 ∧ (withCommit [16, 18]).commit.blocks = [16, 18]) := by decide

/-- AdmissionKeepsTheStepLimits: a boundary that answers, and two requests of unlike priority in order. -/
theorem test_met_admission :
    (base.atBoundary = true ∧ ∃ t, exec (.stepBoundary []) base = .next t)
    ∧ (let s : State := { base with reqs := [(0, { priority := 1 }), (1, {}), (2, {})] }
       (s.req 0).priority > (s.req 1).priority ∧ s.admitBefore 0 1 = true ∧ s.admitBefore 1 2 = true) :=
  ⟨⟨by decide, _, rfl⟩, by decide⟩

/-- A running step with request 0 of image 0 (one logit) admitted. -/
def withStep (a : Admit) (r : Req) : State := { withReq r with images := [(0, some { vocab := 1, logits := 0x800000000 })], step := { num := 1, running := true, admitted := [a] } }

/-- StepCommits: a step of none, a chunk, a sampled token, a trouble; and the states in which nothing commits. -/
theorem test_met_stepCommits :
    (base.step.running = false ∧ ({ base with step := { running := true, committed := true } } : State).step.committed = true)
    ∧ (let s : State := { base with step := { running := true } }
       s.step.running = true ∧ s.step.committed = false ∧ s.step.abandoned = false ∧ s.mayCommit = true ∧ s.step.admitted = [])
    ∧ (let s := withStep { idx := 0, feed := [7], sample := false } { st := .active, input := [7, 8], maxLength := 9 }
       s.mayCommit = true ∧ s.troubles = [] ∧ (s.req 0).temp = 0#32)
    ∧ (let s := withStep { idx := 0, feed := [7] } { st := .active, input := [7], maxLength := 2 }
       (s.logitsRow { vocab := 1, logits := 0x800000000 } 0).any F32.isNaN = false ∧ 0 + 1 < (s.req 0).maxLength ∧ argmax (s.logitsRow { vocab := 1, logits := 0x800000000 } 0) = 0)
    ∧ (let s : State := { withStep { idx := 0, feed := [7] } { st := .active } with troubles := [{ seq := 0, reason := 6 }] }
       s.troubles = [{ seq := 0, reason := 6 }] ∧ s.mayCommit = true) := by decide

/-! ### Arrays, passes, calibration -/

/-- One A4 payload of block 0: 128 codes of which the first is the marker, one outlier. -/
def markPayload : Payload72 := { data := 8#8 :: List.replicate 63 0#8, tail := [0#8, 1#8, 0#8, 0#8, 0#8, 0#8, 0#8, 1#8] }

/-- DigitsAddUpToTheCode: a block placed with a marker, and codes at the ends of their ranges. -/
theorem test_met_digits :
    (placeBlock 0 [markPayload] 0).map (fun x => x.marks.getD 0 false) = some true ∧ (7 : Int).natAbs ≤ 7 ∧ (-127 : Int).natAbs ≤ 127
    ∧ (markerCode 0 8 = true ∧ 8 < 16) ∧ (markerCode 1 128 = true ∧ 128 < 256) := by decide

/-- `base` with die 0's calibration as `c`. -/
def withCal (c : DieCal) : State := { base with cal := [(0, c)] }

/-- CalibrationCommands: fitted and absent dies, runs in each phase, and a lane whose round is full, with one sample short of it, and past the last lane. -/
theorem test_met_calibration :
    (bitOf 1 0 = true ∧ base.fits 0 = true ∧ ({ base with part := { variant := .tx2 } } : State).fits 7 = false)
    ∧ base.accepts h0 clsMaint = true ∧ (base.dieCal 0).run ≠ 2
    ∧ (((withCal { run := 2 }).dieCal 0).run = 2 ∧ ((withCal { run := 2 }).dieCal 0).beyond = [])
    ∧ ((withCal { run := 2, beyond := [(0, 0)] }).dieCal 0).beyond = [(0, 0)]
    ∧ (let full : LaneCal := { cur0 := { n := base.fitWindow 0 / 4 } }
       let s : State := { base with engines := [(0, { a := { lanes := [(511, full)] } })] }
       511 < 512 ∧ (s.bank 0 0).common.degraded = false ∧ (s.engine 0).active = 0 ∧ s.fitWindow (coreDie 0) / 4 ≤ ((s.bank 0 0).lane 511).cur0.n + ((s.bank 0 0).lane 511).cur1.n
        ∧ ((s.bank 0 0).lane 510).cur0.n + ((s.bank 0 0).lane 510).cur1.n < s.fitWindow (coreDie 0) / 4 ∧ 528 ≤ 528) := by decide

/-- An op block whose input lies in core 0's scratchpad, with source address `src`, action, rung and block number. -/
def opBytes (src action rung block : Nat) : List Byte :=
  leBytes 8 (coreBase 0 + 0x2040) ++ leBytes 8 src ++ leBytes 8 (coreBase 0 + 0x4000) ++ leBytes 8 0 ++ leBytes 1 (action + 4 * rung) ++ leBytes 1 0 ++ leBytes 1 block ++ leBytes 29 0

/-- `base` with one op of core 0 queued at its unit, its op block `bs`, and a layer of the format. -/
def withOp (opc : Nat) (u : OpUnit) (bs : List Byte) (format : Nat) : State :=
  { base with seqs := [(0, { ops := [{ opc := opc, unit := u, a := coreBase 0 }] })], mem := { bytes := Tab.setList [] (coreBase 0) bs }
              engines := [(0, { a := { st := .active, layers := if format = 0 then [] else [(0, { format := format })] } })] }

/-- ArrayOpsStart: the oldest op of its unit, each reason, an accepted op, and an op block that cannot be read. -/
theorem test_met_arrayOps :
    (let s := withOp 0x10 (.eng 0) (opBytes 4096 0 0 0) 1
     let r := s.read (Reader.ofCore 0) (coreBase 0) 64
     let k := parseOpBlock s.loc r.bytes
     (s.seq 0).next (.eng 0) 0x10 = some { opc := 0x10, unit := .eng 0, a := coreBase 0 } ∧ s.repeatWaits 0 0 = false ∧ r.code = .OK ∧ r.st.keptPass 0 0 false = none
      ∧ k.action = 0 ∧ k.source ≠ 0 ∧ r.st.passRung 0 0 k false (fieldAt (r.st.inputStatus 0 k).bytes 36 1 % 4) < 2 ∧ (r.st.layer (engineKey 0 0) k.layer).format ≠ 0 ∧ k.rung < 2
      ∧ (r.st.inputStatus 0 k).code = .OK ∧ r.st.setsUsed 0 0 < 2)
    ∧ (base.seq 0).next (.eng 0) 0x10 = none ∧ ((withOp 0x14 .dEng [] 0).seq 0).next .dEng 0x14 ≠ none
    ∧ (let s := withOp 0x10 (.eng 0) (opBytes 0 3 0 0) 0
       let k := parseOpBlock s.loc (s.read (Reader.ofCore 0) (coreBase 0) 64).bytes
       k.action = 3 ∧ k.source = 0 ∧ (s.layer (engineKey 0 0) k.layer).format = 0)
    ∧ (({ withOp 0x10 (.eng 0) [] 0 with mem := { poweringUp := [(0, 1)] } } : State).read (Reader.ofCore 0) (coreBase 0) 64).code ≠ .OK := by decide

/-- ArrayOpsStart: ARRAY_READ of an EMPTY layer, of its last block and of the one beyond; a calibration packet. -/
theorem test_met_arrayRead :
    (∀ b ∈ [0, 1], let s := withOp 0x11 (.eng 0) (opBytes 1 0 0 b) 1
     let r := s.read (Reader.ofCore 0) (coreBase 0) 64
     (s.seq 0).next (.eng 0) 0x11 ≠ none ∧ r.code = .OK ∧ (r.st.layer (engineKey 0 0) 0).format ≠ 0
      ∧ (decide ((r.st.layer (engineKey 0 0) 0).blocks < (parseOpBlock s.loc r.bytes).block) = (b == 1)))
    ∧ (let s := withOp 0x11 (.eng 0) (opBytes 1 0 0 0) 0
       (s.layer (engineKey 0 0) 0).format = 0)
    ∧ base.calPacket 0 = none ∧ ({ base with wq := [(0, { pkts := [{ tag := 0x400 }] })] } : State).calPacket 0 = some { tag := 0x400 } ∧ (base.seq 0).ops = [] := by decide

/-- `base` with `p` as the one pass of core 0, and verdict record 5. -/
def withPass (p : Pass) (v : Verdict) : State := { base with passes := [(0, [p])], verdicts := [(5, v)] }

/-- The last op of a pass that a verdict record judges, under a layer-scope policy. -/
def judged : OpBlock := { verdict := some 5 }

/-- PassesEnd: a pass in each phase, a write-back that can be made, trouble of each kind, and a pass that a verdict record judges. -/
theorem test_met_passes :
    (((withPass {} {}).passesOf 0)[0]? = some ({} : Pass) ∧ (base.passesOf 0)[0]? = none ∧ ({} : Pass).phase ≠ .closing)
    ∧ (let p : Pass := { phase := .closing, ops := [{ out := coreBase 0 }] }
       let w := (withPass p {}).write (Src.ofEngine (engineKey 0 p.eng)) { format := 1, overflow := setOverflow p.acc } p.last.out (setTileBytes p.acc)
       p.last.records = 0 ∧ w.code = .OK)
    ∧ (let p : Pass := { phase := .written, acc := [(0, 2 ^ 63 - 1), (511, -2 ^ 63)] }
       p.corr = [] ∧ Tab.wf p.acc = true ∧ ∀ x ∈ p.acc, fitsInt 64 x.2 = true)
    ∧ base.judge ({} : Pass).last = none
    ∧ (({ rung := 3, mask := 1 } : Pass).mask ≠ 0 ∧ ({ rung := 2, mask := 1 } : Pass).rung ≠ 3)
    ∧ (let r : LayerRun := { image := 1, layer := 2, seq := 3, late := true, base := 2 }
       ({ base with runs := [r] } : State).run? 1 2 3 = some r ∧ base.run? 1 2 3 = none ∧ r.force = false ∧ r.base < 3) := by decide

theorem test_met_verdicts :
    (let p : Pass := { phase := .judging, ops := [judged], rung := 1 }
     let s : State := { withPass p { st := .opened, passes := 2, clean := 1, rung := 1 } with live := { policy := [(layerKey 0 0, 2 ^ 2)] } }
     s.judge p.last = some 5 ∧ (s.verdict 5).rung ≤ p.rung ∧ p.mask = 0 ∧ (s.verdict 5).passes ≤ (s.verdict 5).clean + 1 ∧ ({ passes := 3, clean := 1 } : Verdict).clean + 1 < 3
      ∧ 1 < ({ rung := 2 } : Verdict).rung) := by decide

/-! ### Sequencers, queues and memory -/

/-- The sequencer of core 0 as `x`, running with the word of `opc f` at its index. -/
def withSeq (opc : Nat) (f : SeqFields) (x : Sequencer := {}) (pc : Nat := 0) : State :=
  { base with seqs := [(0, { x with st := .running, pc := pc })], store := Tab.set [] (storeKey 0 pc) (BitVec.ofNat 64 (instrWord opc f)) }

/-- Fields that every opcode with an operand a takes. -/
def fa : SeqFields := { a := 15 }

/-- RegisterInstructions, ControlInstructions, EngineInstructionsQueueTheirOp: each opcode is issued, at index 0 and, as a jump, at the last index. -/
theorem test_met_issuing :
    (∀ opc ∈ [0x00, 0x01, 0x07, 0x08, 0x09, 0x0A, 0x10, 0x11, 0x14, 0x15, 0x16, 0x17, 0x18, 0x1A, 0x1B, 0x1C, 0x20, 0x21, 0x22, 0x23, 0x24, 0x25, 0x26], (withSeq opc {}).issuing 0 opc {})
    ∧ (∀ opc ∈ [0x02, 0x03, 0x04, 0x05, 0x06, 0x0B, 0x0C, 0x0D, 0x27], (withSeq opc fa).issuing 0 opc fa) := by
  unfold State.issuing
  constructor <;> decide

/-- Behind index 0 an empty word, a NOP; at the last index a jump back; no opcode beyond the store or at 0x3F. -/
theorem test_met_holdsOpcode :
    (withSeq 0x00 {}).holdsOpcode 0 1 ∧ (withSeq 0x07 {} {} 4095).holdsOpcode 0 0 ∧ (withSeq 0x07 {} {} 4095).issuing 0 0x07 {} ∧ ¬ (withSeq 0x3F {}).holdsOpcode 0 0
    ∧ ¬ (withSeq 0x00 {}).holdsOpcode 0 4096 := by
  unfold State.holdsOpcode State.issuing
  decide

/-- LoadsAndStores: the last eight bytes of the core's scratchpad, the first address beyond it, a misaligned one. -/
theorem test_met_loads :
    (let at_ := fun (n : Nat) => withSeq 0x05 { a := 2, b := 1 } { a := [(1, BitVec.ofNat 64 n)] }
     let addr := fun (s : State) => s.loc ((s.seq 0).get 1 + (BitVec.ofNat 32 0).signExtend 64).toNat
     let own := fun (a : Nat) => a % 8 = 0 ∧ coreBase 0 ≤ a ∧ a < coreBase 0 + 2 ^ 22 ∧ coreCluster 0 < 8
     own (addr (at_ (coreBase 0 + 2 ^ 22 - 8))) ∧ ¬ own (addr (at_ (coreBase 0 + 2 ^ 22))) ∧ ¬ own (addr (at_ (coreBase 0 + 4)))
      ∧ ((at_ (coreBase 0 + 2 ^ 22 - 8)).read (Reader.ofCore 0) (coreBase 0 + 2 ^ 22 - 8) 8).code = .OK
      ∧ ((at_ 0).write (Src.ofCore 0) {} (coreBase 0 + 2 ^ 22 - 8) (leBytes 8 7)).code = .OK) := by decide

/-- EngineInstructionsQueueTheirOp: one op short of a full queue and a full one. -/
theorem test_met_queues :
    (Instr.arrayMv 0 {}).queues = some (0, 0x10, {}, .eng 0)
    ∧ (let x : Sequencer := { ops := List.replicate 3 { unit := .eng 0 } }
       (x.ops.filter (·.unit == .eng 0)).length + (x.ran.filter (·.op.unit == .eng 0)).length < 4)
    ∧ (let x : Sequencer := { ops := List.replicate 15 { unit := .copy }, ran := [{ op := { unit := .copy } }] }
       16 ≤ (x.ops.filter (·.unit == .copy)).length + (x.ran.filter (·.op.unit == .copy)).length) := by decide

/-- ControlInstructions: the last object and the one beyond, counters reached and not, ops outstanding and none. -/
theorem test_met_control :
    (4095 % 4096 + 0 % 4096 ≤ 4095 ∧ 4095 < 4095 % 4096 + 1 % 4096) ∧ (23 % 32 < 24) ∧ 5 % 2 ^ 16 ≤ Tab.get [(1, 5)] 1 ∧ Tab.get [(1, 4)] 1 < 5 % 2 ^ 16
    ∧ ({} : Sequencer).ops = [] ∧ ({ ran := [{}] } : Sequencer).ran ≠ [] := by decide

/-- HearthCommandsAndOpCompletion: a sequencer in each state, ops that ended well and badly. -/
theorem test_met_hearth :
    ((base.seq 0).st = .idle ∧ (base.seq 0).st ≠ .faulted ∧ (base.seq 0).stopping = false ∧ (base.seq 0).faultPending = false)
    ∧ (let s : State := { base with seqs := [(0, { st := .faulted, fault := { pc := 4094 } })] }
       (s.seq 0).st = .faulted ∧ (s.seq 0).st ≠ .idle ∧ (s.seq 0).fault.pc + 1 ≤ 4095)
    ∧ (let x : Sequencer := { st := .running, ran := [{}, { status := .BANK_OFF }] }
       x.ran[0]? = some ({} : Ran) ∧ x.st ≠ .stalled ∧ x.ran[1]? = some { status := .BANK_OFF } ∧ abandons .BANK_OFF = false) := by decide

/-- WorkQueuePackets: a full queue and one with its last stage free, tags taken and refused, packets of each kind, held writers. -/
theorem test_met_workQueues :
    (List.replicate 32 ({} : Packet)).length = 32 ∧ (List.replicate 31 ({} : Packet)).length < 32 ∧ ({} : Queue).held.any (·.writer == 8) = false
    ∧ tagRefused (tagSetWriter 0xE0 8) = false ∧ tagRefused (tagSetWriter 0x120 8) = true
    ∧ ((base.read (Reader.ofCore 0) (coreBase 0) 64).code = .OK)
    ∧ (let mine := fun p : Packet => tagDest p.tag = coreIndex 0 ∧ tagKind p.tag ≠ 2
       let p : Packet := { tag := 1 }
       mine p ∧ ¬ mine { tag := 0x20 } ∧ ¬ mine { tag := 0x400 } ∧ (∀ y ∈ [({ tag := 0 } : Packet)], mine y → tagPriority y.tag < tagPriority p.tag)
        ∧ ∀ y ∈ [({ tag := 1 } : Packet)], mine y → tagPriority y.tag ≤ tagPriority p.tag)
    ∧ (∀ h ∈ [({ writer := 2, reported := true } : Held)], h.writer = 2 → h.reported = true) ∧ ∃ h ∈ [({ writer := 2 } : Held)], h.writer = 2 ∧ h.reported = false := by decide

/-- MemoryReadsAndWrites: a range in HBM that crosses tiles, one with a bank that is off, and one past the memory. -/
theorem test_met_memory :
    base.blocked (piecesOf 0x8000007FF 4096) = none
    ∧ (({ base with mem := { poweringUp := [(0, 1)] } } : State).blocked (piecesOf (coreBase 0 + 2 ^ 18 - 8) 16)).isSome = true
    ∧ (base.blocked (piecesOf (2 ^ 47) 1)).isSome = true := by decide

theorem test_met_plain : base.plain 0x800000000 8192 := fun _ _ _ => ⟨rfl, rfl, rfl⟩

/-- A host window of 1 unit at its reset offset, with patrol reads off on M-die 0. -/
def withHdm : State := { base with live := { regs := Tab.set [(memReg 0 Reg.MEM_CFG, 2)] (stgReg Reg.HOST_CFG) (resetOf (stgReg Reg.HOST_CFG) / 512 * 512 + 1 ^^^ resetOf (stgReg Reg.HOST_CFG)) } }

/-- HostLinesPatrolAndBanks: the first and the last line, the one beyond, one off its boundary; patrol on and off; a bank powering up. -/
theorem test_met_hostLines :
    withHdm.hdmHas 0 64 = true ∧ withHdm.hdmHas (2 ^ 28 - 64) 64 = true ∧ withHdm.hdmHas (2 ^ 28) 64 = false ∧ withHdm.hdmHas 32 64 = false ∧ withHdm.hdmHas 0 63 = false
    ∧ bitOf (base.cfg (memReg 0 Reg.MEM_CFG)) 1 = true ∧ bitOf (withHdm.cfg (memReg 0 Reg.MEM_CFG)) 1 = false
    ∧ bitOf (Tab.get ({ base with mem := { poweringUp := [(0, 2 ^ 15)] } } : State).mem.poweringUp 0) 15 = true ∧ bitOf (Tab.get base.mem.poweringUp 0) 0 = false := by decide

/-! ### Copies, atomic adds, vectors, attention -/

/-- QueuedCopies: a copy between HBM and a scratchpad, a bank that is off at the destination, a remote side off its boundary, and a unit that waits. -/
theorem test_met_queuedCopies :
    ((withOp 0x1A .copy [] 0).seq 0).next .copy 0x1A = some { opc := 0x1A, unit := .copy, a := coreBase 0 } ∧ endedRemote (withOp 0x1A .copy [] 0).fab.remotes = none
    ∧ base.copyBusy 0 = false ∧ ({ base with fab := { remotes := [{ issuer := .op 0 {}, frames := [{}] }] } } : State).copyBusy 0 = true
    ∧ endedRemote [{ issuer := .op 0 {}, frames := [{}] }] = none
    ∧ isFar 0x800000000 = false ∧ (base.hbmReports []).blocked (piecesOf 0x800000000 4096) = none ∧ (base.hbmReports []).blocked (piecesOf (coreBase 0) 4096) = none
    ∧ (({ base with mem := { poweringUp := [(0, 1)] } } : State).blocked (piecesOf (coreBase 0) 64)).isSome = true
    ∧ (isFar (2 ^ 64 + 32) = true ∧ (2 ^ 64 + 32) % 64 ≠ 0) := by decide

/-- A queued ATOMIC_ADD of core 0 into one tile of HBM that is a target of `i32`. -/
def withAtom (mod c : Nat) (i32 declared : Bool) : State :=
  { base with
      seqs := [(0, { ops := [{ opc := 0x1B, unit := .copy, a := coreBase 0, b := 0x800000000, c := c, mod := mod }, { opc := 0x1C, unit := .copy, a := 0x800000000, b := 1 }] })]
      mem := { atoms := if declared then [{ base := 0x800000000, tiles := 1, i32 := i32 }] else [] } }

/-- AtomicUnits: a last payload and one that more follow, of both forms; each refusal; a clear. -/
theorem test_met_atomics :
    (let s := withAtom 0 8 false true
     let o : Op := { opc := 0x1B, unit := .copy, a := coreBase 0, b := 0x800000000, c := 8 }
     (s.seq 0).next .copy 0x1B = some o ∧ (s.nextPayload 0 o).1.code = .OK ∧ (s.nextPayload 0 o).1.st.payloadStatus (s.nextPayload 0 o).2 = .OK ∧ o.c ≤ o.prog + (s.nextPayload 0 o).2.words.length)
    ∧ (let s := withAtom 0 9 false true
       let o : Op := { opc := 0x1B, unit := .copy, a := coreBase 0, b := 0x800000000, c := 9 }
       o.prog + (s.nextPayload 0 o).2.words.length < o.c)
    ∧ (let s := withAtom 1 16 true true
       let o : Op := { opc := 0x1B, unit := .copy, a := coreBase 0, b := 0x800000000, c := 16, mod := 1 }
       (s.nextPayload 0 o).1.st.payloadStatus (s.nextPayload 0 o).2 = .OK ∧ o.c ≤ o.prog + (s.nextPayload 0 o).2.words.length
        ∧ ((withAtom 1 16 false true).nextPayload 0 o).1.st.payloadStatus ((withAtom 1 16 false true).nextPayload 0 o).2 = .ATOMIC_TYPE
        ∧ ((withAtom 1 16 true false).nextPayload 0 o).1.st.payloadStatus ((withAtom 1 16 true false).nextPayload 0 o).2 = .ATOMIC_NO_TARGET)
    ∧ (let s : State := { base with seqs := [(0, { ops := [{ opc := 0x1C, unit := .copy, a := 0x800000000, b := 1 }] })], mem := (withAtom 0 0 false true).mem }
       (s.seq 0).next .copy 0x1C = some { opc := 0x1C, unit := .copy, a := 0x800000000, b := 1 } ∧ (∀ i, i < 1 → (s.atomAt (0x800000000 + 4096 * i)).isSome = true)
        ∧ s.atomAt (0x800000000 + 4096 * 1) = none) := by decide

/-- A D_VEC block: `vop` over 2 elements into BF16 or a form of `format`. -/
def vecBytes (vop format : Nat) : List Byte :=
  leBytes 1 vop ++ leBytes 1 format ++ leBytes 2 0 ++ leBytes 4 2 ++ leBytes 8 (coreBase 0 + 0x1000) ++ leBytes 8 (coreBase 0 + 0x2000) ++ leBytes 8 (coreBase 0 + 0x3000) ++ leBytes 32 0

/-- A queued op of core 0 with its block `bs`, beside tiles `t`. -/
def withDop (opc : Nat) (bs : List Byte) (t : Tab Tile) : State :=
  { base with seqs := [(0, { ops := [{ opc := opc, unit := .dEng, a := coreBase 0, b := coreBase 0 + 4096 }] })], mem := { bytes := Tab.setList [] (coreBase 0) bs, tiles := t } }

/-- VectorPartialAndAppendOps: a valid block of each kind, a reserved one, partials of each form and none. -/
theorem test_met_vectors :
    (∀ vop ∈ [1, 2, 5], let s := withDop 0x15 (vecBytes vop 0) []
     let b := parseVecBlock s.loc (s.read (Reader.ofCore 0) (coreBase 0) 64).bytes
     (s.seq 0).next .dEng 0x15 ≠ none ∧ (s.read (Reader.ofCore 0) (coreBase 0) 64).code = .OK ∧ b.invalid = false ∧ ((s.read (Reader.ofCore 0) (coreBase 0) 64).st.readAll (Reader.ofCore 0) b.inputs).1.code = .OK
      ∧ b.vop = vop ∧ b.format < 2)
    ∧ (parseVecBlock base.loc (vecBytes 8 0)).invalid = true
    ∧ (∀ f ∈ [1, 2], let s := withDop 0x16 [] [(coreBase 0 / 4096, { format := f }), (coreBase 0 / 4096 + 1, { format := f })]
     (s.seq 0).next .dEng 0x16 ≠ none ∧ s.heldAt 0 (coreBase 0) = false ∧ s.psumBad (coreBase 0) = false ∧ s.psumBad (coreBase 0 + 4096) = false ∧ s.blocked [(coreBase 0, 4096), (coreBase 0 + 4096, 4096)] = none
      ∧ (s.tile (coreBase 0 / 4096)).format = f ∧ (s.tile (coreBase 0 / 4096)).k = (s.tile (coreBase 0 / 4096 + 1)).k)
    ∧ base.psumBad (coreBase 0) = true
    ∧ ({ base with passes := [(0, [{ phase := .held, ops := [{ out := coreBase 0 }] }])] } : State).heldAt 0 (coreBase 0) = true := by decide

theorem test_met_plainTiles (f : Nat) (t : Tab Tile) (h : t = [(coreBase 0 / 4096, { format := f }), (coreBase 0 / 4096 + 1, { format := f })]) :
    (withDop 0x16 [] t).plain (coreBase 0) 4096 ∧ (withDop 0x16 [] t).plain (coreBase 0 + 4096) 4096 := by
  subst h
  constructor <;> intro n h1 h2
  · have e : n = coreBase 0 / 4096 := by have := (by decide : coreBase 0 % 4096 = 0); omega
    subst e; exact ⟨rfl, rfl, rfl⟩
  · have e : n = coreBase 0 / 4096 + 1 := by have := (by decide : coreBase 0 % 4096 = 0); omega
    subst e; exact ⟨rfl, rfl, rfl⟩

/-- An image with one head, a request of it with one page, and a queued op of core 0 with its block. -/
def withKv (opc : Nat) (bs : List Byte) (pages : List (List (Option Nat))) (length : Nat) : State :=
  { withDop opc bs [] with
      images := [(0, some { heads := [{ block := 0, head := 0, home := 0, width := 1 }] })], reqs := [(0, { st := .active, length := length })]
      tables := [(0, { valid := true, pages := pages })] }

/-- An append block of one token at position `base`. -/
def appendBytes (base : Nat) : List Byte := leBytes 8 (coreBase 0 + 0x1000) ++ leBytes 8 (coreBase 0 + 0x2000) ++ leBytes 7 0 ++ leBytes 1 1 ++ leBytes 8 base

/-- VectorPartialAndAppendOps: an append at the last slot of its page, past it, and below LENGTH. -/
theorem test_met_append :
    (let s := withKv 0x17 (appendBytes 255) [[some 0, none, none, none]] 255
     let r := s.read (Reader.ofCore 0) (coreBase 0) 32
     let b := parseAppend s.loc r.bytes
     let x := r.st.readAll (Reader.ofCore 0) [(b.k, 4 * 32), (b.v, 4 * 32)]
     let ks := f32s 32 (x.2.getD 0 [])
     r.code = .OK ∧ b.base + b.w ≤ (s.table b.seq).pages.length * 256 ∧ s.snapLength b.seq ≤ b.base ∧ b.w = 1 ∧ (s.headOf b.seq b.layer b.head).isSome = true ∧ x.1.code = .OK
      ∧ (match s.headOf b.seq b.layer b.head with | some (g, h) => (match s.place b.seq (b.base / 256) g h with | .ok _ => true | .error _ => false) && decide (h.width = 1) | none => false) = true
      ∧ nonfinite (ks ++ ks) = none ∧ ∀ y ∈ encodeKv false (scaled 0x3F800000#32 ks), y.range = false)
    ∧ (let s := withKv 0x17 (appendBytes 256) [[some 0, none, none, none]] 255
       let b := parseAppend s.loc (s.read (Reader.ofCore 0) (coreBase 0) 32).bytes
       (s.table b.seq).pages.length * 256 < b.base + b.w)
    ∧ (let s := withKv 0x17 (appendBytes 254) [[some 0, none, none, none]] 255
       let b := parseAppend s.loc (s.read (Reader.ofCore 0) (coreBase 0) 32).bytes
       b.base < s.snapLength b.seq ∧ b.base + b.w ≤ (s.table b.seq).pages.length * 256) := by decide

/-- A walk record of one row at position 0 in `n` segments. -/
def walkBytes (n flags : Nat) : List Byte :=
  leBytes 7 0 ++ leBytes 1 1 ++ leBytes 1 1 ++ leBytes 1 0 ++ leBytes 2 1 ++ leBytes 2 1 ++ leBytes 1 n ++ leBytes 1 flags ++ leBytes 8 0 ++ leBytes 8 (coreBase 0 + 0x1000) ++ leBytes 8 (coreBase 0 + 0x2000)
    ++ leBytes 16 0 ++ leBytes 4 0x3F800000 ++ leBytes 4 0x3F800000

/-- AttentionWalks: a record that passes and one that fails; its pages and segments. -/
theorem test_met_walks :
    (let s := withKv 0x18 (walkBytes 1 0) [[some 0, none, none, none]] 0
     let rd := s.read (Reader.ofCore 0) (coreBase 0) 64
     let r := parseWalk s.loc rd.bytes
     let rq := rd.st.read (Reader.ofCore 0) r.q 33
     (s.seq 0).next .dEng 0x18 ≠ none ∧ Tab.get s.walks 0 = none ∧ rd.code = .OK ∧ r.kind ≠ 2 ∧ r.recompute = false ∧ rd.st.walkReason r rd.bytes (parentsOf r []) = none ∧ rq.code = .OK) := by decide

/-- The same with exponents of 1 at the page's first slot, in an area of their own. -/
def withExps : State :=
  let s := withKv 0x18 (walkBytes 1 0) [[some 0, none, none, none]] 0
  { s with
      live := { regs := [(memReg 0 Reg.KV_EXP_OFS, 0x100000)] }
      mem := { s.mem with bytes := Tab.setList (Tab.setList s.mem.bytes 0x100000 (List.replicate 4 127#8)) 0x100400 (List.replicate 4 127#8) } }

theorem test_met_walkRuns :
    (let s := withExps
     let r := parseWalk s.loc (walkBytes 1 0)
     match s.headOf 0 0 0 with
     | some (g, h) => (let rp := s.readPages 0 g h r 0 [0]
         rp.code == .OK && ((segmentsOf 1 1).map (walkSegment r 0 [] (queryVecs r (List.replicate 33 0#8)) rp.pages)).all (fun x => x.all (fun y => !y.bad)))
     | none => false) = true := by decide +kernel

theorem test_met_walkRefused :
    (let s := withKv 0x18 (walkBytes 1 4) [[some 0, none, none, none]] 0
     s.walkReason (parseWalk s.loc (walkBytes 1 4)) (walkBytes 1 4) [] ≠ none) := by decide

theorem test_met_walkPages :
    (let s := withKv 0x18 (walkBytes 1 0) [[none, none, none, none]] 0
     (match s.headOf 0 0 0 with | some (g, h) => (s.readPages 0 g h (parseWalk s.loc (walkBytes 1 0)) 0 [0]).code == .KV_PAGE_MISSING | none => false) = true)
    ∧ (parseWalk base.loc (walkBytes 1 2)).recompute = true ∧ (segmentsOf 3 2).length = 2 := by decide

/-- AttentionWalks: partials to merge, the last of them, sums beyond binary32, and outputs that can be written. -/
theorem test_met_merges :
    (let w : Walk := { op := {}, record := [], own := [{}], rest := [[{}], [{}]] }
     let s : State := { base with walks := [(0, some w)] }
     Tab.get s.walks 0 = some w ∧ ((w.own.zip [{}]).map (fun x => mergePart x.1 x.2)).all WalkPart.ok = true)
    ∧ ([({ l := 0x7F800000#32 } : WalkPart)].all WalkPart.ok = false) ∧ (∀ w, Tab.get base.walks 0 = some w → w.rest = [])
    ∧ [({ l := 0#32 } : WalkPart)].any (fun p => (finishPart 0x3F800000#32 p).isNone) = true
    ∧ [({ l := 0x3F800000#32, o := [0x3F800000#32] } : WalkPart)].map (finishPart 0x3F800000#32) = [[0x3F800000#32]].map some
    ∧ base.blocked (piecesOf (coreBase 0) 128) = none := by
  refine ⟨by decide, by decide, fun w h => ?_, by decide⟩
  exact absurd (show (none : Option Walk) = some w from h) (by simp)

/-! ### Objects, the DMA and cords -/

/-- `base` with object 4095 allocated at `v`, and one message on its way to it or to the free object 0. -/
def withObj (v : Nat) (ws : List Waiter) (y : SyncMsg) : State :=
  { base with sync := [(4095, { val := v, allocated := true, waiters := ws })], flight := [y], seqs := [(0, { st := .stalled, cause := .wait })] }

/-- SynchronisationObjects: each kind of message, a waiter that goes on, conditions at their ends, the free object. -/
theorem test_met_objects :
    (∀ k ∈ [SyncKind.post, .set, .wait], (withObj 0 [{ who := .seq 0, target := 1 }] { kind := k, obj := 4095, val := 1 }).flight[0]? = some { kind := k, obj := 4095, val := 1 })
    ∧ (let s := withObj 0 [{ who := .seq 0, target := 1 }] { obj := 4095, val := 1 }
       (s.obj 4095).allocated = true ∧ (s.obj 0).allocated = false ∧ waitHolds false 1 1 = true ∧ waitHolds false 0 1 = false ∧ waitHolds false (2 ^ 31) 1 = true ∧ waitHolds false (2 ^ 31 + 1) 1 = false
        ∧ waitHolds true 1 1 = true ∧ (s.seq 0).st = .stalled ∧ (s.seq 0).cause = .wait ∧ (s.seq 0).stopping = false ∧ (s.obj 4095).waiters[0]? = some { who := .seq 0, target := 1 }
        ∧ (s.obj 4095).waiters[1]? = none) := by decide

theorem test_met_objectsQuiet : ∀ j, ((withObj 0 [] {}).seq j).faultPending = false := by
  intro j
  by_cases h : j = 0
  · subst h; rfl
  · have e : Tab.get (withObj 0 [] {}).seqs j = ({} : Sequencer) := by simp [withObj, Tab.get, Ne.symm h]; rfl
    simp [State.seq, e]

/-- A DMA command: 64 bytes of OP, flags, ELEM and addresses, then its words. -/
def dmaBytes (op elem a0 a1 a2 : Nat) (w : List Nat) : List Byte :=
  leBytes 1 op ++ leBytes 3 0 ++ leBytes 4 elem ++ leBytes 8 a0 ++ leBytes 8 a1 ++ leBytes 8 a2 ++ leBytes 8 0 ++ w.flatMap (leBytes 4) ++ leBytes (4 * (6 - w.length)) 0

/-- Cluster 0's queue holds one DMA packet with these flits, from writer 8 or from core 0. -/
def withDma (bs : List Byte) (writer : Nat) : State := { base with wq := [(0, { pkts := [{ flits := bs, tag := 0x300 + 2048 * writer, writer := writer, doneAddr := coreBase 0 }] })] }

/-- DmaCommands: no command, one that waits, each refusal at its bounds, one element, an index at its limit. -/
theorem test_met_dma :
    base.dmaBusy 0 = false ∧ ({ base with fab := { remotes := [{ issuer := .dma 0 {}, frames := [{}] }] } } : State).dmaBusy 0 = true ∧ (base.queue 0).pkts = []
    ∧ (let bs := dmaBytes 1 4 0x800000000 (coreBase 0) 0 [1, 1]
       let c := parseDma base.loc bs
       (bestPacket 8 (fun _ => true) ((withDma bs 8).queue 0).pkts).isSome = true ∧ c.refusal = .OK ∧ c.farRange = false ∧ c.post = false ∧ c.op = 1 ∧ c.word 0 = 1 ∧ c.word 1 = 1
        ∧ (withDma bs 8).blocked (piecesOf c.a0 c.elem) = none ∧ (withDma bs 8).blocked (piecesOf c.a1 c.elem) = none ∧ c.altValid = false)
    ∧ (∀ e ∈ [0, 3, 5, 1048577], (parseDma base.loc (dmaBytes 1 e 0x800000000 (coreBase 0) 0 [1, 1])).refusal = .DMA_FORMAT)
    ∧ (parseDma base.loc (dmaBytes 1 1048576 0x800000000 0 0 [1, 1])).refusal = .OK ∧ (parseDma base.loc (dmaBytes 5 4 0 64 128 [1, 1])).refusal = .DMA_FORMAT
    ∧ (parseDma base.loc (dmaBytes 1 64 0x800000000 0x800000020 0 [1, 1])).refusal = .DMA_OVERLAP
    ∧ (let c := parseDma base.loc (dmaBytes 2 64 0x800000000 (coreBase 0) 0x800010000 [1, 0])
       c.refusal = .OK ∧ c.op = 2 ∧ c.word 0 = 1 ∧ c.word 1 ≤ base.natAt c.a2 4 ∧ base.blocked (piecesOf c.a2 4) = none)
    ∧ (0 < 8 ∧ dmaFaults .OK = false ∧ (base.seq (0 * 8 + 0)).st ≠ .stalled ∧ base.blocked (piecesOf (coreBase 0) 16) = none) := by decide

/-- `base` with cord slot 0 as `x`. -/
def withSlot (x : Slot) : State := { base with slots := [(0, x)] }

/-- WeightOpsOnASlot: a slot in each state, its shards, its key. -/
theorem test_met_slots :
    base.accepts h0 clsWeight = true ∧ 8 ≤ 8 ∧ (base.slot 0).st = .free
    ∧ (∀ st ∈ [SlotState.loading, .ready, .active, .standby, .restoring, .failed], ((withSlot { st := st }).slot 0).st = st)
    ∧ (let x : Slot := { st := .active, shards := 2, passed := [0] }
       x.shards ≤ 2 ∧ 1 < x.shards ∧ x.duplicate 0 false = true ∧ x.duplicate 1 false = false ∧ x.key = none)
    ∧ base.keyless < 4 ∧ (let s : State := { withSlot { st := .loading } with inst := { jobs := List.replicate 4 {} } }
       4 ≤ s.keyless)
    ∧ (let e := leBytes 2 1 ++ leBytes 190 0
       (withSlot { st := .loading }).envelopeOk 0 e = true ∧ base.envelopeOk 0 [] = false) := by decide

/-- A signature block behind a manifest of `n` bytes. -/
def sigBytes (n kind security : Nat) : List Byte :=
  leBytes 2 1 ++ leBytes 1 kind ++ leBytes 1 0 ++ leBytes 4 n ++ leBytes 8 security ++ leBytes 8 1 ++ leBytes 136 0

/-- A manifest of one shard with one tile, of MAJOR version `major`, with `tiles` tiles. -/
def manifestBytes (major tiles : Nat) : List Byte :=
  leBytes 4 7 ++ leBytes 2 (256 * major) ++ leBytes 1 1 ++ leBytes 1 0 ++ leBytes 4 1 ++ leBytes 4 tiles ++ leBytes 8 0 ++ leBytes 8 0 ++ leBytes 8 0 ++ leBytes 8 4096 ++ leBytes 208 0
    ++ leBytes 48 0 ++ leBytes 4 64 ++ leBytes 4 0 ++ leBytes 2 1 ++ leBytes 6 0 ++ sigBytes 320 5 0

/-- WeightOpsOnASlot: a manifest that passes, and one that each check refuses. -/
theorem test_met_manifests :
    (let bs := manifestBytes 1 1
     let b := parseSig bs (256 + 64 * fieldAt bs 8 4)
     let formed := b.formed && b.kind == 5 && fieldAt bs 24 8 == b.security
     let t1 := base.displace [(0, base.targetBank 0)]
     base.sigMask formed 5 b.keyId {} = 0 ∧ base.sigMask formed 5 b.keyId { ecdsa := false } ≠ 0 ∧ base.rollback 3 ≤ b.security ∧ b.security < ({ base with sec := { counters := [(3, 1)] } } : State).rollback 3
      ∧ fieldAt bs 4 2 / 256 = 1 ∧ manifestFormed bs = true ∧ base.refusedEngine [0] = none ∧ t1.manifestSlot 0xFF = some 0
      ∧ (manifestUnits bs).length = 8)
    ∧ fieldAt (manifestBytes 2 1) 4 2 / 256 ≠ 1 ∧ manifestFormed (manifestBytes 1 131073) = false ∧ manifestFormed (manifestBytes 1 131072) = true
    ∧ (({ base with engines := [(0, { a := { st := .programming } })] } : State).refusedEngine [0]).isSome = true
    ∧ ({ base with slots := (List.range 8).map (fun i => (i, { st := .ready })) } : State).manifestSlot 0xFF = none := by decide +kernel

/-- An M-die with 16 units of copy space. -/
def withCopy : State := { base with live := { regs := [(memReg 0 Reg.CORD_AREA, 2 ^ 36 * 16)] } }

theorem test_met_copySpace : (withCopy.allocRuns (manifestUnits (manifestBytes 1 1))).isSome = true ∧ base.allocRuns (List.replicate 8 (2 ^ 40)) = none := by decide +kernel

/-- ShardChecksAndChains: jobs with a key, none, chunks in order and out of it, chains of each kind. -/
theorem test_met_shards :
    base.nextJob = none
    ∧ (let x : Slot := { st := .loading, shards := 1, key := some [] }
       let s : State := { withSlot x with inst := { jobs := [{}] } }
       s.nextJob = some {} ∧ x.duplicate 0 false = false ∧ ([] : List Byte).length = x.shardLen 0 ∧ [(0#8)].length ≠ x.shardLen 0 ∧ s.faultyRecord x 0 [] 0 [] (shardRecords [] (x.tileCount 0) 0) = none
        ∧ x.fits (shardRecords [] (x.tileCount 0) 0) = true ∧ ({ x with passed := [0] } : Slot).duplicate 0 false = true)
    ∧ (let x : Slot := { st := .loading, shards := 1, pred := some 3, succ := some 4 }
       x.pred ≠ none ∧ 0 < x.shards ∧ x.part = none ∧ (1 ≠ 0) ∧ ({ x with part := some (0, 1, []) } : Slot).part = some (0, 1, []) ∧ x.intake = none)
    ∧ (let s := withSlot { st := .loading, succ := some 4, forward := [{}], unfreed := 3 }
       (s.slot 0).forward = [{}] ∧ (s.slot 0).succ = some 4 ∧ (s.slot 0).unfreed < 4)
    ∧ (4 ≤ (4 : Nat)) ∧ (base.slot 0).forward = [] := by decide

/-- ShardChecksAndChains: a record that fails, and an intake window that opens and one that cannot. -/
theorem test_met_intake :
    (let x : Slot := { st := .loading, shards := 1, key := some [], manifest := leBytes 256 0 ++ leBytes 48 0 ++ leBytes 4 64 ++ leBytes 4 0 ++ leBytes 2 1 ++ leBytes 6 0 }
     ((withSlot x).faultyRecord x 0 (leBytes 64 0) 0 [] (shardRecords (leBytes 64 0) (x.tileCount 0) 0)).isSome = true)
    ∧ (let w : WinArgs := { base := intakeBase, size := intakeSize, srcFirst := 3, srcLast := 3, rights := 1, ports := 1 }
       base.winEntry w = some 0 ∧ base.winStatus w false = .OK ∧ ({ base with fab := { wins := [(5, { st := .opened, args := w })] } } : State).winStatus w false ≠ .OK) := by decide

/-- A module of a ring of two in dimension 0, at position `p`, with an image that takes part in it. -/
def withGroup (p : Nat) : State :=
  { base with
      images := [(0, some { colls := [{ id := 0, dims := 1 }] })], fab := { idValid := true, id := 5 }
      live := { regs := [(fabReg Reg.TOPO_DIM0, 3 + 128 * p)], coord := [(5, 2 ^ 37 + 65536 * p), (9, 2 ^ 37 + 65536 * (1 - p))] } }

/-- CommitsAndReadBack: the lead and the other member of a group, slots that may flip, confirmations, the timeout at its first tick and one before. -/
theorem test_met_groups :
    ((withGroup 0).inGroup = true ∧ (withGroup 0).isLead = true ∧ (withGroup 0).groupOthers = [9] ∧ (withGroup 1).inGroup = true ∧ (withGroup 1).isLead = false ∧ base.inGroup = false)
    ∧ ((withSlot { st := .ready }).flipStatus 0 = .OK ∧ (withSlot { st := .standby, targets := [(0, 0)] }).flipStatus 0 ≠ .OK ∧ (base.slot 0).st ≠ .ready)
    ∧ (let g : GroupCommit := { desc := base.descOf h0, slot := 0, since := 0 }
       (withGroup 0).inst.group = none ∧ ({ withGroup 0 with inst := { group := some g } } : State).inst.group = some g ∧ 9 ∈ (withGroup 0).groupOthers ∧ 5 ∉ (withGroup 0).groupOthers
        ∧ (∀ k ∈ (withGroup 0).groupOthers, k = 9 ∨ k ∈ g.confirmed) ∧ 0 + 100000000 ≤ ({ base with time := { tick := 100000000 } } : State).time.tick
        ∧ ({ base with time := { tick := 99999999 } } : State).time.tick < 0 + 100000000)
    ∧ (∃ k ∈ [9, 11], k ≠ 9 ∧ k ∉ ([] : List Nat)) := by decide

/-- CommitsAndReadBack: checks of an ACTIVE slot's last shard, of one beyond, and the read-back turn. -/
theorem test_met_readback :
    (let s := withSlot { st := .active, shards := 2 }
     (s.slot 0).st = .active ∧ 1 < (s.slot 0).shards ∧ (s.slot 0).shards ≤ 2 ∧ s.inst.turn = 7 ∧ (s.inst.turn + 1 + 0) % 8 = 0)
    ∧ base.readbackEn ≠ ({ base with live := { regs := [(wtReg Reg.WT_CFG, 2 ^ 28)] } } : State).readbackEn := by decide

/-- ShardChecksAndChains: a shard whose digest agrees. -/
theorem test_met_digest (m : List Byte) (h : m = List.replicate 256 0#8 ++ fitBytes 48 (Config.sha384 []) ++ List.replicate 16 0#8) :
    fitBytes 48 (Config.sha384 []) = ({ manifest := m } : Slot).digest 0 := by
  have hl : (fitBytes 48 (Config.sha384 [])).length = 48 := by simp [fitBytes]
  subst h
  simp [Slot.digest, Slot.entry, hl, List.take_append]

/-! ### Programming, security, scans -/

/-- A LOADING slot with one tile, layer 0 of engine 0, for bank A. -/
def progSlot : Slot := { st := .loading, cord := 7, targets := [(0, 0)], dir := [(tileKey 0 0, { valid := true, format := 1, cols := 1 })] }

/-- `base` with that slot and engine 0's bank A as `b`. -/
def withBank (b : Bank) : State := { withSlot progSlot with engines := [(0, { a := b })] }

/-- Programming: a bank that may start, one worn, all engines busy, no source. -/
theorem test_met_programming :
    base.progSource 0 0 = none ∧ (withBank {}).progSource 0 0 = some (0, 0) ∧ (withBank {}).dieDown (engDie 0) = false ∧ ((withBank {}).bank 0 0).st = .empty
    ∧ progSlot.tilesOf 0 = [0] ∧ (∃ l ∈ progSlot.tilesOf 0, ((withBank {}).bank 0 0).holds l 7 = false)
    ∧ (({ cycles := bankLimit - 1 } : Bank).cycles < bankLimit ∧ bankLimit ≤ ({ cycles := bankLimit } : Bank).cycles)
    ∧ (withBank {}).programming < (withBank {}).progEngines ∧ ({ withBank {} with live := { regs := [(wtReg Reg.WT_CFG, (base.cfg (wtReg Reg.WT_CFG) / 256 % 64) * 256)] } } : State).progEngines ≤ 0 := by decide

/-- Programming: a tile that its bank's programming has read, with its lines. -/
theorem test_met_tileDone :
    (let s := withBank { st := .programming }
     let t := Tab.get (s.slot 0).dir (tileKey 0 0)
     let r := s.readLines (engCore 0) 0 (engDie 0) t true (List.range (t.blocks + 1))
       { st := s, tile := { format := t.format, blocks := t.blocks, cols := t.cols, tag := t.tag, codes := List.replicate (t.blocks + 1) [], exps := List.replicate (t.blocks + 1) [] } }
     (s.bank 0 0).st = .programming ∧ s.progSource 0 0 = some (0, 0) ∧ (s.engine 0).spareFirst = false ∧ 0 ∈ (s.slot 0).tilesOf 0 ∧ (s.bank 0 0).holds 0 7 = false ∧ r.code = .OK
      ∧ (s.bank 0 0).coveredCount 0 ≤ 32 ∧ r.tile.format ≠ 0) := by decide

/-- Programming: copy lines that cannot be read, and spare columns to verify. -/
theorem test_met_spares :
    (let s : State := { base with engines := [(0, { a := { st := .active, work := [{ layer := 1 }] }, sel := some (0, 1) })] }
     (s.bank 0 0).work = [{ layer := 1 }] ∧ 0 = (s.engine 0).active ∧ (s.engine 0).sel = some (0, 1))
    ∧ (let s : State := { base with engines := [(0, { a := { st := .active, work := [{ layer := 1 }] } })] }
       (s.engine 0).sel ≠ some (0, 1) ∧ (base.bank 0 0).work = []) := by decide

/-- An enrolment object of OP `op` into slot `n` with SEQ `seq`, and its signature block. -/
def enrollBytes (n op seq : Nat) : List Byte :=
  leBytes 2 1 ++ leBytes 1 n ++ leBytes 1 op ++ leBytes 4 1 ++ leBytes 8 0 ++ leBytes 8 seq ++ leBytes 232 0 ++ sigBytes 256 6 0

/-- `base` with enrolment permitted and `bs` at host address 0. -/
def withObject (bs : List Byte) : State :=
  { base with live := { regs := [(secReg Reg.SEC_CFG, if bitOf (base.cfg (secReg Reg.SEC_CFG)) 8 then 0 else 256)] }, hmem := Tab.setList [] 0 bs }

/-- SecurityOps: enrolments that hold and that are refused, leaves left and none, counters, rates. -/
theorem test_met_security :
    base.accepts h0 clsMaint = true
    ∧ (∀ op ∈ [1, 2], let s := withObject (enrollBytes 7 op 1)
     let bs := (s.start h0).hostRead 0 416
     let b := parseSig bs 256
     (s.start h0).sigMask (b.formed && b.kind == 6) 6 b.keyId {} = 0 ∧ enrollFormed bs = true ∧ (s.start h0).enrollReason bs b.keyId = 0 ∧ fieldAt bs 3 1 = op)
    ∧ (base.sigMask false 6 1 {} ≠ 0) ∧ (let s := withObject (enrollBytes 7 1 0)
     s.enrollReason (s.hostRead 0 416) 1 ≠ 0 ∧ enrollFormed (s.hostRead 0 416) = true)
    ∧ (hssLeaves ≤ ({ base with sec := { leaves := hssLeaves } } : State).sec.leaves ∧ base.sec.leaves < hssLeaves) ∧ (4 ≤ 4 ∧ 3 < 4)
    ∧ (base.sec.edge = false ∧ ({ base with sec := { edge := true } } : State).sec.edge = true ∧ base.sec.second = base.time.tick / tickSecond
      ∧ ({ base with time := { tick := tickSecond } } : State).sec.second ≠ tickSecond / tickSecond)
    ∧ (let s : State := { base with sec := { attests := [{ desc := base.descOf h0, buffer := 0, nonce := [], report := some [1#8] }] } }
       s.maySign = true ∧ ({ s with sec := { s.sec with edge := true } } : State).maySign = false) := by decide

/-- `base` with scans off. -/
def noScan : State := { base with live := { regs := [(dieReg 0 Reg.SE_CFG, 2 ^ 22)] } }

/-- ScansAndFleetPatterns: each refusal, each mode, a schedule and its ends. -/
theorem test_met_scans :
    base.accepts h0 clsTest = true ∧ 7 % 4 = 3 ∧ base.scanTarget 0 8 = none ∧ base.scanTarget 0 7 = some 7 ∧ base.scanTarget 0 0x100 = some 8 ∧ base.scanTarget 0 0xF8 = none
    ∧ (base.scanning = none ∧ ({ base with det := { scans := [(1, { st := 1 })] } } : State).scanning = some 1) ∧ (base.scanEn = true ∧ noScan.scanEn = false)
    ∧ (base.swapSpare 0 = some 8 ∧ ({ base with pos := [(8, { known := true, st := .retired })] } : State).swapSpare 0 = none)
    ∧ (base.dieCovers 0 = false ∧ ({ base with pos := [(0, { known := true, logical := 0, covered := true })] } : State).dieCovers 0 = true)
    ∧ (base.ready = true ∧ base.scanHeld = false ∧ base.scanNext = some (0, 0))
    ∧ (let s : State := { base with det := { scans := [(0, { st := 2, mode := 2 })] } }
       s.scanning = some 0 ∧ (s.scan 0).st = 2 ∧ (s.scan 0).mode = 2)
    ∧ (let s : State := { base with det := { scans := [(0, { st := 2, mode := 1, desc := some (base.descOf h0) })] } }
       s.scanning = some 0 ∧ (s.scan 0).mode ≠ 2 ∧ (s.position 0 (s.scan 0).position).st ≠ .fusedOff ∧ (s.scan 0).desc = some (base.descOf h0))
    ∧ ({ base with det := { scans := [(0, { st := 1 })] } } : State).scanHeld = true := by decide

/-- ScansAndFleetPatterns: pattern slots at their ends, each check of a pattern, injections. -/
theorem test_met_fleet :
    (15 < 16 ∧ 16 ≤ 16)
    ∧ (let g : FleetImage := { cycles := [base.sliceCycles] }
       base.sigMask g.formed 4 g.keyId {} = 0 ∧ base.sigMask g.formed 4 99 {} ≠ 0 ∧ base.rollback 2 ≤ g.security ∧ g.security < ({ base with sec := { counters := [(2, 1)] } } : State).rollback 2
        ∧ (∀ c ∈ g.cycles, c ≤ base.sliceCycles) ∧ ∃ c ∈ [base.sliceCycles + 1], base.sliceCycles < c)
    ∧ ((base.pattern 0).loaded = false ∧ (({ base with det := { patterns := [(15, { loaded := true })] } } : State).pattern 15).loaded = true)
    ∧ (base.fits (coreDie 0) = true ∧ ({ base with part := { variant := .tx2 } } : State).fits (coreDie 575) = false)
    ∧ (base.injectEn ≠ ({ base with live := { regs := [(dieReg 0 Reg.SE_CFG, 2 ^ 23)] } } : State).injectEn) ∧ (527 < 528 ∧ 3 < 4 ∧ 63 < 64 ∧ coreCluster 0 < 8) ∧ 7 < 8 := by decide

/-! ### Resets, firmware, bring-up -/

/-- `base` with the firmware part `x`. -/
def withFw (x : Fw) : State := { base with fw := x }

/-- ResetsAndFirmware: resets of each scope and what refuses them. -/
theorem test_met_resets :
    (base.fits 0 = true ∧ base.posOf 0 7 = some 7 ∧ base.fw.update = none ∧ base.fw.resets = [] ∧ (base.scan 0).st = 0 ∧ base.dieCovers 0 = false)
    ∧ (3 < 4 ∧ ¬ 4 ≤ 3) ∧ (base.posOf 0 8 = none) ∧ (withFw { update := some {} }).fw.update ≠ none
    ∧ (∃ r ∈ (withFw { resets := [{ scope := 3, die := 1 }] }).fw.resets, r.scope = 3 ∧ r.die = 1) ∧ (∃ r ∈ [({ scope := 1, die := 0 } : Reset)], r.scope ≠ 3 ∧ r.die = 0)
    ∧ ({ base with part := { variant := .tx4 } } : State).fits 7 = false := by decide

/-- ResetsAndFirmware: a bundle to stage, each check of it, receptions and updates. -/
theorem test_met_bundles :
    (base.fw.staged = none ∧ (withFw { staged := some {} }).fw.staged ≠ none ∧ base.fw.receive = none)
    ∧ (let b : Bundle := {}
       base.sigMask b.formed 2 b.keyId {} = 0 ∧ base.sigMask b.formed 1 b.keyId {} = 0 ∧ base.sigMask b.formed 1 b.keyId { hss := false } ≠ 0 ∧ base.rollback 0 ≤ b.security ∧ base.rollback 0 ≤ b.stewardSecurity
        ∧ b.peerMin ≤ base.fw.live.version ∧ base.fw.live.version < ({ peerMin := 1 } : Bundle).peerMin ∧ b.security < ({ base with sec := { counters := [(0, 1)] } } : State).rollback 0)
    ∧ (∃ e ∈ base.chans, e.2.isOpen = true ∧ ∀ v ∈ offerList 0x0105, v = 0 ∨ v / 256 ≠ e.2.abiVer / 256)
    ∧ (∀ e ∈ (withChan { st := .opened, abiVer := 0x0103 }).chans, e.2.isOpen = true → ∃ v ∈ offerList 0x0105, v ≠ 0 ∧ v / 256 = e.2.abiVer / 256)
    ∧ ((base.start h0).object 0 0 64 []).code = .OK ∧ ((base.start h0).object 1 (2 ^ 47) 64 []).code ≠ .OK
    ∧ (let s := withFw {}
       let w : WinArgs := { base := s.updateBase, size := fwHalfSize, srcFirst := s.moduleId + 1, srcLast := 3, rights := 4, ports := 1 }
       s.winEntry w = some 0 ∧ s.winStatus w false = .OK) := by decide

/-- ResetsAndFirmware: positions past their time, one tick before, and in a live update. -/
theorem test_met_resetTimeouts :
    (let s : State := { withFw { resets := [{ scope := 1, positions := [8], running := true }] } with time := { tick := base.resetTimeout * tickSecond } }
     0 + s.resetTimeout * tickSecond ≤ s.time.tick ∧ 8 ∈ [8])
    ∧ 0 < base.resetTimeout * tickSecond
    ∧ ((withFw { resets := [{ scope := 1, positions := [8], running := true, update := true, live := false }], update := some {} }).fw.update = some {}) := by decide

theorem crcStep_lt (c : Nat) (b : Byte) (h : c < 2 ^ 32) : crcStep c b < 2 ^ 32 := by
  unfold crcStep
  have hb : c ^^^ b.toNat < 2 ^ 32 := Nat.xor_lt_two_pow h (by have := b.isLt; omega)
  generalize c ^^^ b.toNat = x at hb
  generalize List.range 8 = l
  induction l generalizing x with
  | nil => exact hb
  | cons _ l ih =>
    apply ih
    dsimp only
    split
    · exact Nat.xor_lt_two_pow (by omega) (by decide)
    · omega

theorem crc32c_lt (bs : List Byte) : crc32c bs < 2 ^ 32 := by
  have : ∀ c, c < 2 ^ 32 → bs.foldl crcStep c < 2 ^ 32 := by
    induction bs with
    | nil => exact fun _ h => h
    | cons b bs ih => exact fun c h => ih _ (crcStep_lt c b h)
  exact Nat.xor_lt_two_pow (this _ (by decide)) (by decide)

theorem seal_ok (f : Frame) (h : Frame.formOk f = true) : Frame.ok (Frame.seal f) = true := by
  have e : Frame.formOk (Frame.seal f) = Frame.formOk f := rfl
  have c : Frame.crc (Frame.seal f) = Frame.crc f := rfl
  have g : (Frame.seal f).fcrc = Frame.crc f := rfl
  simp [Frame.ok, e, c, g, h]

/-- A chunk of `kind` and number `n` of run 0, version 0. -/
def chunkBytes (kind n total len : Nat) : List Byte :=
  let head := leBytes 2 kind ++ leBytes 2 0 ++ leBytes 4 0 ++ leBytes 4 n ++ leBytes 4 total ++ leBytes 4 len
  head ++ leBytes 4 (crc32c (head ++ List.replicate 4096 0#8)) ++ leBytes 8 0 ++ List.replicate 4096 0#8

theorem leBytes_length (w v : Nat) : (leBytes w v).length = w := by
  induction w generalizing v <;> simp_all [leBytes]

theorem leNat_leBytes4 (c : Nat) (h : c < 2 ^ 32) : leNat (leBytes 4 c) = c := by
  simp only [leBytes, leNat, BitVec.toNat_ofNat]
  omega

theorem chunk_ok (kind n total len : Nat) : (parseChunk (chunkBytes kind n total len)).ok = true := by
  unfold parseChunk chunkBytes
  generalize hh : leBytes 2 kind ++ leBytes 2 0 ++ leBytes 4 0 ++ leBytes 4 n ++ leBytes 4 total ++ leBytes 4 len = head
  have h20 : head.length = 20 := by subst hh; simp [leBytes_length]
  generalize hz : List.replicate 4096 0#8 = z
  have h4096 : z.length = 4096 := by subst hz; exact List.length_replicate
  have hc := crc32c_lt (head ++ z)
  have e : head ++ leBytes 4 (crc32c (head ++ z)) ++ leBytes 8 0 ++ z = head ++ (leBytes 4 (crc32c (head ++ z)) ++ (leBytes 8 0 ++ z)) := by simp only [List.append_assoc]
  have d32 : (head ++ (leBytes 4 (crc32c (head ++ z)) ++ (leBytes 8 0 ++ z))).drop 32 = z := by
    rw [show 32 = head.length + 12 from by rw [h20], ← List.drop_drop, List.drop_left, ← List.append_assoc, List.drop_left' (by simp [leBytes_length])]
  simp only [e, d32, fieldAt, Bool.and_eq_true, beq_iff_eq]
  rw [List.take_of_length_le (Nat.le_of_eq h4096), List.take_left' h20, List.drop_left' h20, List.take_left' (leBytes_length 4 _), leNat_leBytes4 _ hc]
  simp [leBytes_length, h20, h4096]

/-- ResetsAndFirmware: a chunk, an END marker and a chunk with a bad CRC. -/
theorem test_met_chunks :
    ((parseChunk (chunkBytes 2 0 1 4096)).ok = true ∧ (parseChunk (chunkBytes 2 0 1 4096)).isEnd = false)
    ∧ ((parseChunk (chunkBytes 2 1 1 0)).ok = true ∧ (parseChunk (chunkBytes 2 1 1 0)).isEnd = true) ∧ (parseChunk []).ok = false :=
  ⟨⟨chunk_ok .., by decide⟩, ⟨chunk_ok .., by decide⟩, by decide⟩

/-- ResetsAndFirmware: receivers that lack a chunk, whose place can be read or not, and tries left or none. -/
theorem test_met_receivers :
    (let r : Receiver := { active := true, images := [(2, 1)], fetch := true }
     let s := withFw { receivers := [(71, r)] }
     (s.receiver 71).active = true ∧ missingChunk r.images r.got (fun k => (r.fetch || decide (r.last + tickSecond ≤ s.time.tick)) || r.ended.contains k) = some (2, 0)
      ∧ missingChunk r.images [(2, 0)] (fun _ => true) = none ∧ 71 < 72 ∧ (∃ x ∈ r.images, x.1 = 2 ∧ 0 < x.2) ∧ r.tries + 1 < s.fetchTries ∧ s.fetchTries ≤ s.fetchTries - 1 + 1)
    ∧ (let x : FwReceive := { desc := base.descOf h0, bundle := { images := [(2, 1)] }, sig := {}, stewardSig := {} }
       let s : State := { withFw { receive := some x } with time := { tick := tickSecond } }
       s.fw.receive = some x ∧ x.last + tickSecond ≤ s.time.tick ∧ missingChunk x.bundle.images x.chunks (fun _ => true) = some (2, 0) ∧ (2, 0) ∉ x.chunks
        ∧ missingChunk x.bundle.images (x.chunks ++ [(2, 0)]) (fun _ => true) = none ∧ missingChunk [(2, 2)] ([] ++ [(2, 0)]) (fun _ => true) ≠ none)
    ∧ tickSecond - 1 < 0 + tickSecond := by decide

/-- `base` with port 1 as `x`, as module 5. -/
def withPort (p : Nat) (x : Port) : State := { base with fab := { idValid := true, id := 5, ports := [(p, x)] } }

/-- ResetsAndFirmware: a multicast chunk on G1, whole and not. -/
theorem test_met_mcast :
    (withPort 1 { st := .up }).portUp 1 = true ∧ Frame.ok (Frame.seal { kind := fkChunk, body := chunkBytes 2 0 1 4096 }) = true ∧ Frame.ok { kind := fkChunk } = false
    ∧ (withPort 1 { st := .up }).portUp 0 = false :=
  ⟨by decide, seal_ok _ (by decide +kernel), by decide, by decide⟩

/-- A module that has power, in phase `n`, after a round. -/
def inPhase (n : Nat) : State := { boot := { phase := n }, hk := { powered := true, rounds := 1 } }

/-- BringUp: power applied and not, causes latched, each phase and what stops it. -/
theorem test_met_bringUp :
    (State.reset.hk.powered = false ∧ State.reset.hk.shutdown = none ∧ State.reset.hk.latch = 0 ∧ ({ hk := { latch := 2 } } : State).hk.latch ≠ 0 ∧ ({ hk := { shutdown := some [3, 4] } } : State).hk.shutdown = some [3, 4])
    ∧ ((inPhase 0).hk.powered = true ∧ ({ hk := { powered := true } } : State).hk.rounds = 0 ∧ (inPhase 0).hk.rounds ≠ 0)
    ∧ (let w : BootWork := { stewards := [{}, {}], bundles := [{}, {}] }
       ((inPhase 1).pickSteward w).2 = (some 0, 0) ∧ ((inPhase 1).pickSteward { stewards := [{ formed := false }, {}] }).2 = (some 1, 1)
        ∧ ((inPhase 1).pickSteward { stewards := [{ formed := false }, { formed := false }] }).2.1 = none ∧ ((inPhase 4).pickBundle w).2 = (some 0, 0)
        ∧ ((inPhase 4).pickBundle { bundles := [{ bundle := { formed := false } }, { bundle := { formed := false } }] }).2.1 = none)
    ∧ ((inPhase 1).fits 0 = true ∧ (inPhase 1).powers 72 = true ∧ (inPhase 1).powers 76 = true ∧ 0 ∉ ({} : BootWork).badFuses ∧ 0 ∈ ({ badFuses := [0, 4] } : BootWork).badFuses)
    ∧ ((∃ e ∈ ({ inPhase 5 with fw := { receivers := [(0, { active := true, images := [(2, 1)] })] } } : State).fw.receivers, e.2.active = true ∧ e.2.complete = false) ∧ (inPhase 5).fw.receivers = [])
    ∧ (2 ≤ (inPhase 9).boot.phase ∧ (inPhase 1).boot.phase < 2)
    ∧ (bitOf 3 0 = true ∧ bitsOf 3 1 14 = 1 ∧ bitsOf (1 + 2 * 12288) 1 14 = 12288 ∧ bitsOf 3 15 1 = 0 ∧ bitsOf (3 + 2 ^ 15) 15 1 = 1)
    ∧ ((inPhase 10).sigMask true 1 1 {} = 0 ∧ (inPhase 10).sigMask false 1 1 {} ≠ 0 ∧ ({ inPhase 10 with sec := { counters := [(0, 1)] } } : State).rollback 0 = 1) := by decide

/-! ### Ports and frames -/

/-- PortsAndEnumeration: a port in each state, times at their ends, frames held. -/
theorem test_met_ports :
    (base.port 0).st = .down ∧ base.portEnabled 0 = true ∧ ({ base with live := { regs := [(portReg 0 Reg.GP_CFG, 1)] } } : State).portEnabled 0 = false
    ∧ (∀ st ∈ [PortSt.disabled, .training, .settling, .up, .fault], ((withPort 15 { st := st }).port 15).st = st) ∧ base.lanesOk 0 3 = true ∧ base.lanesOk 0 0 = false
    ∧ (let s : State := { withPort 0 { st := .training } with time := { tick := 30 * tickSecond } }
       (s.port 0).since + 30 * tickSecond ≤ s.time.tick ∧ ((s.port 0).queue = [] ∧ 2 ≤ (s.port 0).mgmt) ∧ 30 * tickSecond - 1 < (s.port 0).since + 30 * tickSecond)
    ∧ (base.retrainMax 0 ≤ base.retrainMax 0 - 1 + 1 ∧ 0 < base.retrainMax 0 ∧ base.uncorrLimit 0 < base.uncorrLimit 0 + 1)
    ∧ (let s : State := { withPort 0 { queue := [{}] } with time := { tick := base.holdMax * 1000000 + 1 } }
       (s.port 0).queue = [{}] ∧ 0 + s.holdMax * 1000000 < s.time.tick ∧ ¬ s.time.tick - 1 > 0 + s.holdMax * 1000000) := by decide

/-- A CONTROL frame with the message `kind` and its fields. -/
def control (kind : Nat) (rest : List Byte) : Frame := Frame.seal { kind := fkControl, body := leBytes 1 kind ++ rest ++ List.replicate (63 - rest.length) 0#8 }

/-- PortsAndEnumeration: each CONTROL message in the states that take it, neighbours of each kind. -/
theorem test_met_control_messages :
    (∀ k ∈ [1, 2, 3, 4], Frame.ok (control k []) = true ∧ fieldAt (control k []).body 0 1 = k) ∧ Frame.ok { kind := fkControl } = false
    ∧ (let s := withPort 1 { st := .settling }
       let y : Identity := { serial := 1, id := 6, valid := true, endpoint := false, sorano := false, port := 0, offer := s.reg Reg.VER_LINK }
       s.refuseNeighbour 1 y = 0 ∧ s.linkVer y ≠ 0 ∧ s.refuseNeighbour 1 { y with id := 5 } = 7 ∧ s.linkVer { y with offer := 0 } = 0 ∧ s.refuseNeighbour 1 { y with endpoint := true } = 4)
    ∧ (let s := withPort 1 { st := .up }
       (((s.bump (portReg 1 Reg.GP_RX_FRAMES_TOTAL) 1).owe 1 (control 2 [])).port 1).queue = [] ∧ (s.port 1).nport = 0 ∧ s.fab.enum ≠ 1 ∧ s.part.serial = 0)
    ∧ (({ base with fab := { enum := 1 } } : State).fab.enum = 1 ∧ base.fab.idValid = false ∧ (withPort 1 {}).fab.id < 0xFFFF ∧ 0xFFFE < 0xFFFF)
    ∧ (∃ e ∈ (withWin { st := .draining }).fab.wins, e.2.st ≠ .closed) ∧ base.fab.remotes = [] := by decide +kernel

/-- Module 5 with its port 1 in UP and one window for module 6 onto a page of HBM and object 7, with the rights `r`; frames for module 6 leave by port 1. -/
def withWindow (r : Nat) (st : WinState) : State :=
  { base with
      fab := { idValid := true, id := 5, ports := [(1, { st := .up })], route := [(6, 17)]
               wins := [(3, { st := st, used := true, args := { base := 0x800000000, size := 4096, srcFirst := 6, srcLast := 6, rights := r, ports := 1, objCount := 1, objBase := 7 } })] } }

/-- A frame of a kind for this module from module 6, with a body of zeros. -/
def frame6 (kind addr : Nat) : Frame := Frame.seal { kind := kind, src := 6, dst := 5, addr := addr, body := List.replicate (bodyLen kind 0) 0#8 }

/-- FrameService: a frame of each kind is as it must be. -/
theorem test_met_frameForms : ∀ k ∈ [1, 2, 3, 4, 6], Frame.ok (frame6 k (if k = 6 then 7 else 0x800000000)) = true := by
  intro k hk
  refine seal_ok _ ?_
  revert k
  decide +kernel

/-- FrameService: each kind of frame through the window, and each check that fails. -/
theorem test_met_frames :
    (let s := withWindow 7 .opened
     (∀ k ∈ [1, 2, 4], (s.ingress 1 (frame6 k 0x800000000)).code = .OK) ∧ (s.ingress 1 (frame6 6 7)).code = .OK ∧ s.portUp 1 = true
        ∧ maskBlocks (frame6 2 0x800000000) = [] ∧ (s.ingress 1 (frame6 1 0x800001000)).code = .WINDOW_NONE ∧ (s.ingress 1 { frame6 1 0x800000000 with src := 7 }).code = .WINDOW_SOURCE)
    ∧ (((withWindow 7 .draining).ingress 1 (frame6 1 0x800000000)).code = .WINDOW_CLOSED) ∧ (((withWindow 2 .opened).ingress 1 (frame6 1 0x800000000)).code = .WINDOW_RIGHTS)
    ∧ (base.ingress 1 (frame6 1 0x800000000)).code = .FABRIC_NOT_ENUMERATED
    ∧ ((withWindow 7 .opened).exit 6 = some 1 ∧ ((withWindow 7 .opened).port 1).queue = [] ∧ 2 ≤ ((withWindow 7 .opened).port 1).rsp ∧ (withWindow 7 .opened).exit 9 = none)
    ∧ ((base.obj 7).allocated = false ∧ (({ base with sync := [(7, { allocated := true })] } : State).obj 7).allocated = true) := by decide +kernel

/-- FrameService: atomic payloads well formed and with a fault, targets under reset, frames in transit and aborted. -/
theorem test_met_payloads :
    payloadFault (List.replicate 68 0#8 ++ [1#8, 0#8, 0#8, 4#8]) = none ∧ payloadFault (List.replicate 71 0#8 ++ [4#8]) = some 68 ∧ payloadFault (List.replicate 71 0#8 ++ [9#8]) = some 71
    ∧ (let s : State := { withWindow 7 .opened with pos := [(0, { known := true, logical := 0, resetting := true })] }
       s.targetResetting { frame6 1 0x800000000 with addr := coreBase 0 } = true ∧ s.targetResetting (frame6 1 0x800000000) = false)
    ∧ (let s := withWindow 7 .opened
       s.fab.idValid = true ∧ 6 ≠ s.fab.id ∧ ((s.bump (portReg 1 Reg.GP_RX_FRAMES_TOTAL) 1).owe 1 (frame6 1 0)).exit 6 = some 1 ∧ 1 < 14) := by decide +kernel

/-! ### Remote frames, collectives, rings -/

/-- `withPort 1` in UP with module 6 behind it and the remote operation `x`. -/
def withRemote (x : Remote) : State :=
  { withPort 1 { st := .up } with fab := { idValid := true, id := 5, ports := [(1, { st := .up })], route := [(6, 17)], remotes := [x] }, time := { tick := 2550000 } }

/-- A sent frame of `kind` for module 6. -/
def sentFrame (kind resends : Nat) : RFrame := { frame := { kind := kind, tag := 9, dst := 6, addr := 64 }, module := 6, sent := true, resends := resends }

/-- An answer of `kind` from module 6. -/
def answer6 (kind tag : Nat) : Frame := Frame.seal { kind := kind, tag := tag, src := 6, dst := 5, addr := 64, body := List.replicate (bodyLen kind 0) 0#8 }

/-- AnswersAndCollectives: an answer of each kind is as it must be. -/
theorem test_met_answerForms : ∀ k ∈ [fkTile, fkAck, fkNack], Frame.ok (answer6 k 9) = true := by
  intro k hk
  refine seal_ok _ ?_
  revert k
  decide +kernel

/-- AnswersAndCollectives: answers that fit and do not, frames to send again and given up. -/
theorem test_met_answers :
    (let s := withRemote { frames := [sentFrame fkRead 0] }
     s.portUp 1 = true ∧ s.portUp 0 = false
      ∧ (∀ k ∈ [fkTile, fkAck, fkNack], ((s.bump (portReg 1 Reg.GP_RX_FRAMES_TOTAL) 1).owe 1 (answer6 k 9)).answered (answer6 k 9) = some (0, 0)) ∧ s.answered (answer6 fkAck 8) = none
      ∧ (0 + s.retryTime ≤ s.time.tick ∧ 0 < s.retryTime) ∧ fkRead ∈ [fkWrite, fkMasked, fkRead] ∧ fkPost ∉ [fkWrite, fkMasked, fkRead] ∧ 0 < s.retryLimit ∧ s.retryLimit ≤ 7
      ∧ s.exit 6 = some 1 ∧ s.exit 9 = none ∧ (s.remote 0).frames[0]? = some (sentFrame fkRead 0) ∧ (s.remote 0).frames[1]? = none)
    ∧ Frame.ok { kind := fkAck } = false
    ∧ (∃ x : Remote, (withRemote x).fab.remotes = [x] ∧ x.failed = none ∧ x.frames = [sentFrame fkRead 0, sentFrame fkRead 1] ∧ (sentFrame fkRead 1).sent = true)
    ∧ (∃ x : Remote, (withRemote x).fab.remotes = [x] ∧ x.issuer = .post 3 ∧ x.failed = none ∧ x.frames = [sentFrame fkPost 0]) :=
  ⟨by decide +kernel, by decide +kernel, ⟨{ frames := [sentFrame fkRead 0, sentFrame fkRead 1] }, rfl, rfl, rfl, rfl⟩, ⟨{ issuer := .post 3, frames := [sentFrame fkPost 0] }, rfl, rfl, rfl, rfl⟩⟩

/-- The definition of one collective over dimension 0. -/
def coll0 : ImageColl := { id := 2, dims := 1, start := 7, words := 64, recs := 0x800000000 }

/-- Module 5 at place `pos` of a ring of four in dimension 0, with the spare position `spare`, REPLICA `rep`, TOPO_CFG `cfg`, the ring state `r` and one image with `coll0`. -/
def withRing (pos spare rep cfg : Nat) (r : Ring) : State :=
  let set (a v : Nat) : Nat × Nat := (a, resetOf a ^^^ v)
  { base with
      fab := { idValid := true, id := 5, ports := [(1, { st := .up })] }
      live := { regs := [set (fabReg Reg.TOPO_CFG) cfg, set (fabReg Reg.TOPO_DIM0) (4 + pos * 2 ^ 7 + spare * 2 ^ 21 + rep * 2 ^ 28)]
                coord := [(4, 2 ^ 37), (6, 2 ^ 37 + 2 * 2 ^ 16), (7, 2 ^ 37 + 3 * 2 ^ 16)] }
      topo := { rings := [(0, r)] }
      images := [(0, some { colls := [coll0] })]
      sync := [(7, { allocated := true, val := 1 })]
      time := { tick := 100000000 } }

/-- AnswersAndCollectives: instances that start, wait, fail, end and are run again, records of each kind, a COLL_RECORD frame. -/
theorem test_met_collectives :
    (let s := withRing 1 127 0 7 {}
     let x : Instance := { key := 0 }
     let t : State := { s with topo := { s.topo with instances := [x] } }
     endedRemote s.fab.remotes = none ∧ s.collDef 0 = some coll0 ∧ s.collDef 1 = none ∧ s.instanceOf 0 = none ∧ (s.obj coll0.start).allocated = true ∧ waitHolds false (s.obj coll0.start).val coll0.count = true
      ∧ coll0.stages ≠ [] ∧ t.instanceOf 0 = some x ∧ x.start + t.collWait ≤ t.time.tick ∧ ¬ t.time.tick < x.start + t.collWait ∧ waitHolds false 0 coll0.count = false
      ∧ s.collRetry = true ∧ x.attempt = 0 ∧ (withRing 1 127 0 3 {}).collRetry = false
      ∧ s.recAt 0 = none ∧ s.recAt 0x800000000 = some (0, coll0) ∧ (∃ d ∈ coll0.stages, 6 ∈ s.members d) ∧ (∀ d ∈ coll0.stages, 9 ∉ s.members d))
    ∧ (({ type := 3, dim := 0, sender := 1, flags := 0, id := 2, number := 0, step := 0, digest := 0, first := 0, words := 0 } : CollRec).matches coll0 { key := 0 } 3 0 1 = true)
    ∧ (parseRec (CollRec.bytes { type := 3, dim := 0, sender := 1, flags := 0, id := 2, number := 0, step := 0, digest := 0, first := 0, words := 0 })).type = 3
    ∧ (({ base with time := { tick := 1 } } : State).time.tick < 5 + base.collWait) := by decide +kernel

/-- AnswersAndCollectives: records through the window, and without one. -/
theorem test_met_records :
    (let s := withWindow 7 .opened
     let f := Frame.seal { frame6 2 0x800000000 with body := List.replicate (bodyLen 2 0) 0#8 }
     let r := (s.bump (portReg 1 Reg.GP_RX_FRAMES_TOTAL) 1).owe 1 f
     (r.ingress 1 f).code = .OK ∧ (r.writeAll (Src.port 1) (maskBlocks f)).code = .OK ∧ (r.ingress 1 { f with src := 7 }).code ≠ .OK) ∧ fkMasked = 2 := by decide +kernel

/-- RingsAndStepGroups: a link down and not, rings whole and cut, a spare ready or none, repair on and off. -/
theorem test_met_rings :
    (let s := withRing 1 127 0 0x17 {}
     s.linkDown 0 3 = none ∧ ({ s with fab := { idValid := true, id := 5 } } : State).linkDown 0 1 = some 0 ∧ 0 + s.repairWait ≤ s.time.tick ∧ 0 < s.repairWait
      ∧ s.sorano = false ∧ s.linkRepair = true ∧ (withRing 1 127 0 0x16 {}).linkRepair = false ∧ (withRing 1 127 0 0x1F {}).sorano = true ∧ (s.ring 0).stopped = false
      ∧ (0, 1, 6, 1) ∉ s.topo.notices ∧ 2 ≤ s.ringSize 0 ∧ (s.ring 0).cut = none ∧ (s.ring 0).cutB ≠ some 1)
    ∧ ((withRing 1 127 0 7 { stopped := true }).ring 0).stopped = true ∧ ((withRing 1 127 0 7 { cut := some 0 }).ring 0).cut = some 0 ∧ ((withRing 1 127 0 7 { cut := some 0 }).ring 0).cutB = none
    ∧ enclosed 4 0 1 = some 1 ∧ enclosed 4 1 0 = some 1 ∧ enclosed 4 0 3 = some 0 ∧ enclosed 4 0 2 = none
    ∧ (let s := withRing 1 3 0 7 {}
       s.sparePos 0 ≠ 0x7F ∧ s.substEn = true ∧ s.moduleAt 0 (s.sparePos 0) = some 7)
    ∧ (withRing 1 127 1 7 {}).sparePos 0 = 0x7F ∧ (withRing 1 127 1 7 {}).replica 0 = true ∧ (withRing 1 127 0 7 {}).replica 0 = false ∧ (withRing 1 127 0 5 {}).substEn = false := by decide

/-- RingsAndStepGroups: a lead, a member with a promised flip, a module in no group, a running step. -/
theorem test_met_stepGroups :
    ((withRing 0 127 0 7 {}).inGroup = true) ∧ (({ withRing 1 127 0 7 {} with step := { running := true } } : State).step.num = 0)
    ∧ ((withRing 1 127 0 7 {}).inGroup = true ∧ (withRing 1 127 0 7 {}).isLead = false) ∧ base.inGroup = false
    ∧ (let s := { withRing 0 127 0 7 {} with live := { regs := (withRing 0 127 0 7 {}).live.regs, coord := [(6, 2 ^ 37 + 2 ^ 16)] } }
       s.isLead = true ∧ s.inGroup = true)
    ∧ ({ withRing 1 127 0 7 {} with inst := { promised := some 3 } } : State).inst.promised = some 3 := by decide

/-! ### Housekeeping and power -/

/-- A module with power and the housekeeping state `x` beside it. -/
def withHk (x : Hk) : State := { base with hk := x }

/-- HousekeepingRound: slots, diagnoses due and not, coefficients waiting, raw codes at each bound. -/
theorem test_met_hkSlots :
    (withHk {}).hk.powered = false ∧ (withHk { powered := true, slot := 128 }).hk.slot = 128 ∧ (withHk { powered := true, slot := 127 }).hk.slot < 128
    ∧ base.hkScanned 0 = true ∧ base.hkScanned 128 = false ∧ ({ base with part := { variant := .tx4 } } : State).hkScanned 64 = false
    ∧ (∀ e ∈ (withHk { diag := [(1, 5, 256)] }).hk.diag, e.2.1 ≠ 5 ∨ (withHk { diag := [(1, 5, 256)] }).hk.rounds < e.1)
    ∧ ((withHk { rounds := 1, diag := [(1, 5, 256)] }).hk.diag = [(1, 5, 256)] ∧ 1 ≤ (withHk { rounds := 1, diag := [(1, 5, 256)] }).hk.rounds)
    ∧ (withHk { coefNext := [(120, [3, 16384])] }).hk.coefNext = [(120, [3, 16384])]
    ∧ (hkHbm 84 = true ∧ hkHbm 0 = false ∧ hkTemp 0 = true ∧ hkTemp 96 = false ∧ (0xFFF0 ≤ 0xFFF0 ∧ 0xFFEF < 0xFFF0 ∧ 0xF ≤ 0xF ∧ 0xF < 0x10) ∧ ((-641 : Int) < -640 ∧ (2400 : Int) < 2401)) := by decide

/-- A channel 96 as `x`, and partitions as `p`. -/
def withChans (x : HkChan) (p : Tab Partition) : State := withHk { powered := true, rounds := 1, chans := [(96, x), (0, x)], parts := p }

/-- HousekeepingRound: conversions good, faulty, recovering and not diagnosed; each level at its thresholds. -/
theorem test_met_conversions :
    (let x : HkChan := {}
     ((withChans x []).hkChan 96).broken = 0 ∧ hkTemp 96 = false ∧ hkFault 96 1000 (hkReading 96 x 1000 0).1 1 false = 0 ∧ hkFault 96 0xFFFF (hkReading 96 x 0xFFFF 0).1 1 false ≠ 0
      ∧ x.warn = false ∧ x.throttle = false ∧ x.shut = false)
    ∧ (let x : HkChan := { broken := 4, diagOk := true, valid := [1, 2, 3, 4, 5, 6, 7] }
       ((withChans x []).hkChan 96).broken ≠ 0 ∧ x.diagOk = true ∧ x.valid.length = 7 ∧ (∃ y ∈ x.valid, y ≠ 1000))
    ∧ ((withChans { broken := 4 } []).hkChan 96).diagOk = false
    ∧ decide (((64 * 256 : Int) - 64 * 256).natAbs ≤ base.diagTol) = true
    ∧ decide (((0xFFFF : Int) - 64 * 256).natAbs ≤ base.diagTol) = false
    ∧ (hkTemp 0 = true ∧ hkPart 0 < 84 ∧ ((withChans {} [(0, { down := true })]).partition 0).down = true)
    ∧ ((withChans { warn := true, throttle := true, shut := true } []).hkChan 0).warn = true ∧ (hkPart 92 = 84 ∧ hkPart 0 ≠ 84) := by decide

/-- HousekeepingRound: rounds, power over, within and far under the limit, decisions. -/
theorem test_met_powerStages :
    (let s := withHk { powered := true, rounds := 1, slot := 128, overRounds := 2, underRounds := 49 }
     128 ≤ s.hk.slot ∧ s.powerLimit < s.powerLimit + 1 ∧ 2 ≤ s.hk.overRounds ∧ 49 ≤ s.hk.underRounds ∧ 0 + s.powerMargin < s.powerLimit ∧ s.powerLimit ≤ s.powerLimit + s.powerMargin ∧ (withHk {}).hk.overRounds < 2
      ∧ 0 ∈ s.dies ++ [8, 9, 10, 11] ∧ 12 ∉ s.dies ++ [8, 9, 10, 11] ∧ s.hk.rounds ≠ 0 ∧ (withHk { powered := true }).hk.rounds = 0)
    ∧ ((withChans { throttle := true, reading := 1632 } []).damperNext 0 ≠ Tab.get (withChans { throttle := true, reading := 1632 } []).hk.stage 0)
    ∧ ((withChans { broken := 1 } []).hkChan 96).broken ≠ 0 := by decide

/-- HousekeepingRound: urgent requests, diagnoses by TDAC and system calibrations, free and busy. -/
theorem test_met_hkCommands :
    (withHk { powered := true, urgConv := some 5 }).hk.urgConv = some 5 ∧ base.hkScanned 5 = true ∧ (withHk { powered := true }).hk.urgConv = none
    ∧ (bitOf (2 ^ 17 + 5 * 2 ^ 10 + 256) 17 = true ∧ base.hkScanned (bitsOf (2 ^ 17 + 5 * 2 ^ 10 + 256) 10 7) = true ∧ bitOf 0 17 = false)
    ∧ (withHk { powered := true, sys := { running := true } }).hk.sys.running = true ∧ (withHk { powered := true }).hk.sys.running = false := by decide

/-- PowerAndPartitions: power and none, trips armed and not, partitions up, down, in each kind, cool and warm. -/
theorem test_met_partitions :
    base.hk.powered = true ∧ (withHk {}).hk.powered = false ∧ (withHk { powered := true, tripArmed := true, shutdown := some [5, 92] }).hk.shutdown = some (5 :: [92]) ∧ (withHk { inputRange := true }).hk.inputRange = true
    ∧ (withHk {}).hk.tripArmed = false ∧ base.hk.inputRange = false
    ∧ (∀ x ∈ ([{ down := true }, { down := true, retired := true, ready := true }, {}, { down := true, releasing := true }] : List Partition), ((withChans {} [(0, x)]).partition 0) = x)
    ∧ (withChans {} [(0, { down := true })]).coolEnough 0 = true ∧ (withChans { reading := 1440 } []).coolEnough 0 = false
    ∧ bitsOf ((withChans {} []).reg (hkReg Reg.HK_PART_SEL)) 0 7 = 0 ∧ bitOf 1 0 = true ∧ bitOf 2 0 = false
    ∧ (base.scanning = none) ∧ ({ base with det := { scans := [(0, { st := 2 })] } } : State).scanning ≠ none := by decide

/-- PowerAndPartitions: automatic release when its hold has passed, requests beside a memory-side die, a bank kept. -/
theorem test_met_release :
    (let s : State := { withHk { powered := true, rounds := 1, parts := [(0, { down := true, ready := true })] } with
                          live := { regs := [(hkReg Reg.HK_CFG, resetOf (hkReg Reg.HK_CFG) ^^^ (2 ^ 5 + 3 * 2 ^ 6))] }
                          time := { tick := 3 * tickSecond } }
     s.autoRelease = true ∧ (s.partition 0).ready = true ∧ s.coolEnough 0 = true ∧ 0 + s.releaseHold * tickSecond ≤ s.time.tick ∧ ¬ s.time.tick - 1 ≥ 0 + s.releaseHold * tickSecond)
    ∧ ((∀ e ∈ (withReq { st := .active }).reqs, ((withReq { st := .active }).req e.1).resuming = none ∧ (((withReq { st := .active }).req e.1).st ≠ .ember ∨ ((withReq { st := .active }).req e.1).tier ≠ .moving))
        ∧ ∃ e ∈ (withReq { st := .active }).reqs, e.2.st = .active)
    ∧ ({ st := .programming } : Bank).st = .programming ∧ ({} : Bank).st ≠ .programming := by decide

/-! ### Ill-formed terms -/

/-- Each check refuses a term: an index, a field, a header, an instruction's fields, a frame, a copy. -/
theorem test_illFormed :
    ix 8 8 = false ∧ fits 32 (2 ^ 32) = false ∧ Hdr.wf { chan := 256 } = false ∧ Hdr.wf { chan := 0, tag := 2 ^ 64 } = false ∧ SeqFields.wf { a := 16 } = false ∧ SeqFields.wf { mod := 2 ^ 11 } = false
    ∧ Frame.wf { src := 2 ^ 16 } = false ∧ DmaCopy.wf { srcSpace := 4 } = false
    ∧ Instr.wf (.aeCtrClear 8 1) = false ∧ Instr.wf (.bar0Write (2 ^ 20) 4 0) = false ∧ Instr.wf (.chCtrlClose 256) = false ∧ Instr.wf (.calRequest 7 3) = true := by decide

/-! ### Worked examples of the manual -/

/-- R514's example: the access at 0x0_824A that R510 allows covers STG_MIN[36] and STG_MIN[37]; the calibration epoch of C5 is at 0xC_6310. -/
theorem test_r514_addresses : (coveredRegs 0x8248 4).map (·.2) = [0x8248, 0x824A] ∧ dieReg 5 0x310 = 0xC6310 ∧ (coveredRegs 0xC6310 4).map (·.2) = [0xC6310] := by decide

/-- Chapter 0: G9's block starts at 0x3_4800 and C4's at 0xB_8000. -/
theorem test_blockAddresses : portReg 9 0 = 0x34800 ∧ dieReg 4 0 = 0xB8000 := by decide

/-- The published check value of CRC-32C. -/
theorem test_crc32c : crc32c ((["1", "2", "3", "4", "5", "6", "7", "8", "9"].flatMap (fun x => x.toList)).map (fun c => BitVec.ofNat 8 c.toNat)) = 0xE3069283 := by decide

/-- The published first word of Philox4x32-10 for a key and a counter of zeros. -/
theorem test_philox : philoxWord 0 0 = 0x6627E8D5 := by decide

/-- R43's example: the block of 2.6, -1.3, 0.75 and 0.25 takes E8 0x7E; R45's packing of its codes. -/
theorem test_r43_block :
    (let b := encodeBlock 7 [0x40266666#32, 0xBFA66666#32, 0x3F400000#32, 0x3E800000#32] [false, false, false, false]
     b.e8 = 0x7E ∧ b.codes = [5, -3, 2, 0] ∧ b.range = false) ∧ encodeInt 4 (-3) = 0b1101 := by decide

/-- The example of R59: two blocks reduced exactly to 0x0270_0000. -/
theorem test_r59_reduction : shifted (-106 + 300) (-5) + shifted (64 - 93) (-3) = 0x02700000 ∧ shifted (-106 + 300) (-5) = 101711872 := by decide

/-- The example of R61: with the scale 0.375, that word is 0x3F6A_0000; 0 and an underflow give +0. -/
theorem test_r60_conversion : F32.mul 0x3FC00000#32 0x3E800000#32 = 0x3EC00000#32 ∧ ba64ToF32 0x02700000 0x3EC00000#32 = some 0x3F6A0000#32 ∧ ba64ToF32 0 0x3EC00000#32 = some 0#32
    ∧ ba64ToF32 (-1) 0x00800000#32 = some 0#32 := by decide

/-- R72's example: the digits of -7 in A4 and of +90 in A8. -/
theorem test_r72_digits : (List.range 2).map (fun k => digit k (-7)) = [-3, -1] ∧ (List.range 4).map (fun k => digit k 90) = [2, 2, 1, 1] := by decide

/-- The example of R77: six parts in slice 0 and two in slice 1; block 0 is converted by halves. -/
theorem test_r77_plan :
    (let plan := fun (sl : Nat) (n lo hi : List Nat) =>
       let p : PlanIn := { n := n, lo := lo, hi := hi, same := List.replicate 7 true }
       (p.half sl 4 4 0 ++ p.half sl 8 4 4).map (fun x => (x.first, x.drives, x.half))
     plan 0 [52, 30, 14, 40, 30, 8, 9, 40] [26, 15, 7, 20, 15, 4, 4, 20] [26, 15, 7, 20, 15, 4, 5, 20]
       = [(0, [0], some 0), (0, [0], some 1), (1, [1, 2], none), (3, [3], none), (4, [4, 5, 6], none), (7, [7], none)]
     ∧ plan 1 [3, 0, 5, 2, 6, 4, 0, 7] [] [] = [(0, [0, 2, 3], none), (4, [4, 5, 7], none)]) := by decide

/-- The sums of the fit example of R137. -/
def fitSums : Sums :=
  [(-40, -40), (-20, -20), (0, 1), (10, 11), (30, 31), (50, 52), (70, 72), (90, 92)].foldl (fun a p => a.add p.1 p.2) {}

/-- R137's example: the sums, and the codes of the fitted gain and of the offset less its tap (R144's example). -/
theorem test_r137_fit :
    fitSums.n = 8 ∧ fitSums.sx = 190 ∧ fitSums.sc = 199 ∧ fitSums.sxx = 18500 ∧ fitSums.sxc = 18960
    ∧ fitSums.fit.map (fun f => (gainCode f.g, ofsCode (D64.sub f.o (tapOfs 2)), D64.round (D64.mul f.r (D64.ofInt 1000)))) = some (577, 117, 300) := by decide +kernel

/-- R144's example: at 62 °C, with 520 at P1 and 600 at P2, the code 577 moves them to 527 and 610. -/
theorem test_r144_learn : calLearn [0, 520, 600, 0, 0] (62 * 16) 577 = [0, 527, 610, 0, 0] := by decide +kernel

/-- R193's examples: FX64 sums that pass 2^63 in any order, and an I32 word whose order shows. -/
theorem test_r193_orders :
    (let add := fun (vs : List Int) => vs.foldl (fun s v => State.addFx s (Src.ofCore 0) 0 0x800000000 v) base
     (∀ vs ∈ [[2 ^ 62, 2 ^ 62, -2 ^ 62], [-2 ^ 62, 2 ^ 62, (2 : Int) ^ 62]], (add vs).natAt 0x800000000 8 = 0x4000000000000000 ∧ ((add vs).tile (0x800000000 / 4096)).overflow = false))
    ∧ (let add := fun (vs : List Int) => vs.foldl (fun s v => State.addI32 s 0 0x800000000 v) (base.putRaw 0x800000000 (leBytes 4 2147483000))
       (add [1000, -1000]).natAt 0x800000000 4 = 2147482647 ∧ ((add [1000, -1000]).tile (0x800000000 / 4096)).sat = true
       ∧ (add [-1000, 1000]).natAt 0x800000000 4 = 2147483000 ∧ ((add [-1000, 1000]).tile (0x800000000 / 4096)).sat = false) := by decide +kernel

/-- The frame address example of R212: group slot 1,000, block 40, KV head 2 and position 4,100 at KV4. -/
theorem test_r212_frame :
    (let s : State := { base with
                          live := { regs := [(memReg 0 Reg.KV_POOL_CFG, resetOf (memReg 0 Reg.KV_POOL_CFG) ^^^ 2), (memReg 0 Reg.KV_POOL_OFS, resetOf (memReg 0 Reg.KV_POOL_OFS) ^^^ 0x100000000),
                                              (memReg 0 Reg.KV_EXP_OFS, resetOf (memReg 0 Reg.KV_EXP_OFS) ^^^ 0x700000000)] } }
     let f := 1000 * 216 + 40 * 3 + 2
     let x : PagePlace := { elems := s.frameElems 0 f, exps := s.frameExps 0 f }
     x.elems = 0x1D30E8000 ∧ x.exps = 0x70D30E800
       ∧ (x.runs true 4).map (·.1) = [0x1D30E8100, 0x1D30EC100, 0x70D30E810, 0x70D30EC10]) := by decide +kernel

/-- R243's example: nodes 0 and 2 have children 1 and 2, 3 and 4; the accepted nodes carry 512 and 40. -/
theorem test_r242_children :
    (let ns := [(0xFF, 905), (0, 77), (0, 512), (2, 40), (2, 6100), (3, 13)]
     treeOk ns = true ∧ childWith ns 0 512 = some 2 ∧ childWith ns 2 40 = some 3 ∧ childWith ns 3 2718 = none) := by decide

/-- R281's example: offers of 2.3 and 1.5, of 1.2 alone and of 3.0 alone against ring versions 1.3 and 2.1. -/
theorem test_r281_versions :
    settle (offerList 0x01050203) (offerList 0x01030201) = 0x0201 ∧ settle (offerList 0x0102) (offerList 0x01030201) = 0x0102 ∧ settle (offerList 0x0300) (offerList 0x01030201) = 0 := by decide

/-- A packet with a tag and nothing else. -/
def packet (pri dest kind : Nat) : Packet := { tag := pri + 2 ^ 5 * dest + 2 ^ 9 * kind }

/-- R304's example: the order of POPs, and what the flush of sequencer 3 leaves and counts. -/
theorem test_r304_flush :
    (let p1 := packet 2 3 0
     let p2 := packet 5 3 0
     let p3 := packet 5 8 1
     let p4 := { packet 5 3 0 with writer := 1 }
     let p5 := packet 0 3 2
     let p6 := { packet 5 3 0 with writer := 8 }
     let s := base.setQueue 0 { pkts := [p1, p2, p3, p4, p5, p6] }
     (s.popPacket 0 3 = some p2 ∧ (base.setQueue 0 { pkts := [p1, p3, p4, p5, p6] }).popPacket 0 3 = some p4 ∧ (base.setQueue 0 { pkts := [p1, p3, p5, p6] }).popPacket 0 3 = some p6
       ∧ (base.setQueue 0 { pkts := [p1, p3, p5] }).popPacket 0 3 = some p1 ∧ (base.setQueue 0 { pkts := [p3, p5] }).popPacket 0 3 = none)
     ∧ (s.queue 0).pkts.filter (fun p => !bitOf (2 ^ 3) (tagDest p.tag)) = [p3]) := by decide

/-- R367's example with seed 3: the digests of A, of B and of their sum, and B's with bit 40 of its second word flipped. -/
theorem test_r367_digests :
    digestOf 3 1 [5, -2, 0, 7] = 564 ∧ digestOf 3 1 [1, 4, -3, 2] = 120 ∧ digestOf 3 1 [6, 2, -3, 9] = 684 ∧ digestOf 3 1 [1, 4 + 2 ^ 40, -3, 2] = 9895604650104 := by decide +kernel

/-- R445's example: FS_CODE 30,000 over 412 to 31,150 gives the GAIN 15,991, and the code 20,000 reads 19,118. -/
theorem test_r445_gain : rneDiv (30000 * 16384) (31150 - 412) = 15991 ∧ hkCorrect 412 15991 20000 = 19118 := by decide

/-- The Damper example of R449: C3's stage at 102.1, 103.0, 100.4 and 97.8 °C. -/
theorem test_r449_damper :
    (let at_ := fun (stage : Nat) (t : Int) (hot : Bool) => ({ base with hk := { chans := [(31, { reading := t, throttle := hot })], stage := [(3, stage)] } } : State).damperNext 3
     at_ 0 1634 true = 1 ∧ at_ 1 1648 true = 2 ∧ at_ 2 1606 true = 2 ∧ at_ 2 1565 false = 1 ∧ at_ 1 1550 false = 0) := by decide

/-- R239's greedy choice: the largest logit, the lowest index on a tie. -/
theorem test_r239_greedy : sampleToken 0#32 0 0 0 [0x3F800000#32, 0x40000000#32, 0x40000000#32] = some 1 := by decide

end Sys2Proof.Tests
end

section
/-! PROOFS of the family 00_scope: counters (R12) and BAR0 accesses (R4, R8 to R10). -/

namespace Sys2Proof.Machine

/-! ### Counters (R12, R27) -/

@[simp] theorem State.domainRuns_tick (s : State) (x : Src) : (s.domainRuns x).time.tick = s.time.tick := rfl

theorem State.foldl_domainRuns_tick (l : List Src) (s : State) : (l.foldl State.domainRuns s).time.tick = s.time.tick := by
  induction l generalizing s with
  | nil => rfl
  | cons x r ih => rw [List.foldl_cons, ih, State.domainRuns_tick]

theorem State.idle_tick (s : State) : s.idle.time.tick = (s.time.tick + 1) % 2 ^ 64 :=
  State.foldl_domainRuns_tick _ _

theorem State.clock_domainRuns_same (s : State) (x : Src) (hx : x.dom ≠ 0) :
    (s.domainRuns x).clock x = (s.clock x + Config.free s.fresh) % 2 ^ 64 := by
  simp [State.clock, State.domainRuns, hx]

theorem State.reg_bump_same (s : State) (a n : Nat) :
    (s.bump a n).reg a = if s.reg a + n < 2 ^ 64 then s.reg a + n else 2 ^ 64 - 1 := by
  rw [State.reg_bump, if_pos rfl]
  split <;> omega

/-- Settles O6: a bump is a minimum with the all-ones value, and the time counters are reduced modulo 2^64. -/
theorem countersSaturate : Obligations.CountersSaturate := by
  refine ⟨fun s a n _ => ⟨s.reg_bump_same a n, fun b hb => ?_, rfl⟩, fun s => ?_, fun s x hx => ?_⟩
  · rw [State.reg_bump, if_neg hb]
  · rw [State.idle_tick]
    split
    · next h => rw [h, Nat.mod_self]
    · rfl
  · rw [s.clock_domainRuns_same x hx]
    exact ⟨rfl, Nat.mod_lt _ (by decide)⟩

/-! ### Accesses that are not performed (R10) -/

theorem barAligned_iff (off width : Nat) : barAligned off width = true ↔ (width = 4 ∨ width = 8) ∧ off % width = 0 := by
  simp [barAligned]

theorem barAligned_eq_false {off width : Nat} (h : ¬ ((width = 4 ∨ width = 8) ∧ off % width = 0)) : barAligned off width = false :=
  Bool.eq_false_iff.mpr fun ha => h ((barAligned_iff off width).mp ha)

theorem exec_bar0Write (s : State) (off width v : Nat) :
    exec (.bar0Write off width v) s = .next (if barAligned off width then s.bar0Write off width v else s.barError off width) := rfl

theorem exec_bar0InvalidAccess (s : State) (write : Bool) (off width : Nat) :
    exec (.bar0InvalidAccess write off width) s = .next (if barAligned off width then s else s.barError off width) := rfl

theorem State.bar0Read_unaligned (s : State) {off width : Nat} (h : barAligned off width = false) :
    s.bar0Read off width = 2 ^ (32 * ((width + 3) / 4)) - 1 := by
  have bits : 8 * ((width + 3) / 4 * 4) = 32 * ((width + 3) / 4) := by omega
  rw [State.bar0Read, h, if_neg Bool.false_ne_true, bits]

/-- Settles O9: an access is performed only where `barAligned` holds, and any other raises the event. -/
theorem otherAccessesAreNotPerformed : Obligations.OtherAccessesAreNotPerformed := by
  intro s off width v write h
  have ha := barAligned_eq_false h
  refine ⟨?_, ?_, ?_⟩
  · rw [exec_bar0InvalidAccess, ha]; rfl
  · rw [exec_bar0Write, ha]; rfl
  · rintro k rfl
    exact s.bar0Read_unaligned ha

/-! ### An access that covers one register whole (R8, R510) -/

theorem overlay_whole {old n v : Nat} (start : Nat) (hold : old < 256 ^ n) (hv : v < 256 ^ n) : overlay old start n start n v = v := by
  simp [overlay, Nat.div_eq_of_lt hold, Nat.mod_eq_of_lt hv]

theorem two_pow_eight_mul (n : Nat) : 2 ^ (8 * n) = 256 ^ n := by rw [Nat.pow_mul]

section Whole

variable {r : RegRow} {off width : Nat}

/-- A write of the whole register replaces its value. -/
theorem past_whole {old v : Nat} (hr : r.width = 8 * width) (hold : old < 2 ^ r.width) (hv : v < 2 ^ r.width) :
    r.past old off off width v = v := by
  rw [hr, two_pow_eight_mul] at hold hv
  have bytes : r.width / 8 = width := by omega
  rw [RegRow.past, bytes, overlay_whole off hold hv]

theorem part_whole {v : Nat} (hr : r.width = 8 * width) (hv : v < 2 ^ r.width) : r.part off off width v = v :=
  past_whole hr (Nat.two_pow_pos _) hv

/-- A write of the whole register covers every writable bit it has. -/
theorem touched_whole (hr : r.width = 8 * width) (hw : width = 4 ∨ width = 8) :
    r.touched off off width = (r.mask &&& (2 ^ r.width - 1) != 0) := by
  have bytes : r.width / 8 = width := by omega
  have ones : r.part off off width (2 ^ 64 - 1) = 2 ^ r.width - 1 := by
    rw [hr, two_pow_eight_mul, RegRow.part, RegRow.past, bytes]
    rcases hw with rfl | rfl <;> simp [overlay]
  rw [RegRow.touched, ones, Nat.and_comm]

end Whole

/-! ### One covered register under its access code (R8, R263, R284, R297) -/

section Codes

variable {s : State} {r : RegRow} {off width v : Nat}

theorem State.bar0Write_covering_none (h : coveredRegs off width = []) : s.bar0Write off width v = s := by
  simp [State.bar0Write, State.coversSt, h]

/-- An access that covers one register treats that one, and counts in STAGE_SEQ only if it is staged. -/
theorem State.bar0Write_covering_one {a : Nat} (h : coveredRegs off width = [(r, a)]) :
    s.bar0Write off width v = if r.acc == .st && !s.absentBlock a && r.touched a off width
      then (s.writeReg off width v (r, a)).stageTick else s.writeReg off width v (r, a) := by
  simp [State.bar0Write, State.coversSt, h]

theorem State.bar0Write_unstaged {a : Nat} (h : coveredRegs off width = [(r, a)]) (hc : r.acc ≠ .st) :
    s.bar0Write off width v = s.writeReg off width v (r, a) := by
  simp [State.bar0Write_covering_one h, hc]

theorem State.writeReg_ro {a : Nat} (hc : r.acc = .ro) : s.writeReg off width v (r, a) = s := by
  simp [State.writeReg, hc]

theorem State.writeReg_rw {a : Nat} (hc : r.acc = .rw) (hf : s.absentBlock a = false) (ht : r.touched a off width = true) :
    s.writeReg off width v (r, a) = s.writeRw r a off width v := by
  simp [State.writeReg, hc, hf, ht]

theorem State.writeReg_st {a : Nat} (hc : r.acc = .st) (hf : s.absentBlock a = false) :
    s.writeReg off width v (r, a) = s.stageReg a r.mask (r.past (s.stagedReg a) a off width v) := by
  simp [State.writeReg, hc, hf]

theorem State.writeReg_wo {a o : Nat} {b : Blk} (hc : r.acc = .wo) (hf : s.absentBlock a = false) (hb : blockAt a = some (b, o)) :
    s.writeReg off width v (r, a) = s.action b o (r.part a off width v) := by
  simp [State.writeReg, hc, hf, hb]

theorem State.writeRw_free {a : Nat} (h : s.locked a = none) :
    s.writeRw r a off width v = s.setReg a (r.past (s.reg a) a off width v &&& r.mask) := by
  simp [State.writeRw, h]

theorem State.writeRw_locked {a : Nat} {l : List Nat} (h : s.locked a = some l) :
    s.writeRw r a off width v = s.raise .CHANNEL_REG_LOCKED Src.host l := by
  simp [State.writeRw, h]

end Codes

theorem exec_bar0Write_aligned (s : State) {off width : Nat} (v : Nat) (h : barAligned off width = true) :
    exec (.bar0Write off width v) s = .next (s.bar0Write off width v) := by
  rw [exec_bar0Write, if_pos h]

/-- Settles O8: the write is that of the one covered register, whose whole value the access gives. -/
theorem bar0WriteFollowsTheAccessCode : Obligations.Bar0WriteFollowsTheAccessCode := by
  intro s off width v ha
  simp only [exec_bar0Write_aligned s v ha, Host.Outcome.next.injEq]
  refine ⟨State.bar0Write_covering_none, fun r hone hr hfit hv => ?_⟩
  have touched (hm : r.mask &&& (2 ^ r.width - 1) ≠ 0) : r.touched off off width = true := by
    rw [touched_whole hr ((barAligned_iff off width).mp ha).1]
    exact bne_iff_ne.mpr hm
  refine ⟨fun hc => ?ro, fun hc hm hold => ?rw, fun hc hm hold => ?st, fun b o hc hb => ?wo⟩
  case ro => rw [State.bar0Write_unstaged hone (by simp [hc]), State.writeReg_ro hc]
  case rw =>
    rw [State.bar0Write_unstaged hone (by simp [hc]), State.writeReg_rw hc hfit (touched hm)]
    refine ⟨fun hl => ?_, fun l hl => State.writeRw_locked hl⟩
    rw [State.writeRw_free hl, past_whole hr hold hv]
  case st =>
    rw [State.bar0Write_covering_one hone, State.writeReg_st hc hfit, past_whole hr hold hv]
    simp [hc, hfit, touched hm]
  case wo => rw [State.bar0Write_unstaged hone (by simp [hc]), State.writeReg_wo hc hfit hb, part_whole hr hv]

/-! ### Actions of a WO register (R8, R263, R297) -/

/-- Actions whose flag is clear do nothing. -/
theorem State.acts_filter (s : State) (l : List (Bool × (State → Host.Outcome State Fault Refusal))) :
    s.acts (l.filter (·.1)) = s.acts l := by
  induction l generalizing s with
  | nil => rfl
  | cons x r ih =>
    obtain ⟨_ | _, f⟩ := x
    · exact ih s
    · exact ih (s.after (f s))

@[simp] theorem State.after_next (s t : State) : s.after (.next t) = t := rfl

/-- Where one action alone is flagged, the list performs it. -/
theorem State.next_acts {s t : State} {l : List (Bool × (State → Host.Outcome State Fault Refusal))}
    {f : State → Host.Outcome State Fault Refusal} (hl : l.filter (·.1) = [(true, f)]) (hf : f s = .next t) :
    f s = .next (s.acts l) := by
  have one : s.acts l = s.after (f s) := by rw [← State.acts_filter, hl]; rfl
  rw [one, hf, State.after_next]

theorem exec_channel_actions (s : State) (c v : Nat) :
    ((s.chan c).st = .closed → bitOf v 0 = true → exec (.chCtrlOpen c true []) s = .next (s.action (.channel c) Reg.CH_CTRL v))
    ∧ ((s.chan c).st = .opened → bitOf v 1 = true → exec (.chCtrlClose c) s = .next (s.action (.channel c) Reg.CH_CTRL v))
    ∧ ((s.chan c).st = .error → bitOf v 2 = true → exec (.chCtrlReset c) s = .next (s.action (.channel c) Reg.CH_CTRL v))
    ∧ ((s.chan c).st = .draining → s.action (.channel c) Reg.CH_CTRL v = s) := by
  have ctrl : s.action (.channel c) Reg.CH_CTRL v = s.chCtrl c v := rfl
  rw [ctrl, State.chCtrl]
  refine ⟨fun hs hb => ?_, fun hs hb => ?_, fun hs hb => ?_, fun hs => by rw [hs]⟩
  all_goals rw [hs, hb]; exact State.next_acts rfl rfl

/-- The blocks of which the module has one, and the tables that stand in G0's and M0's blocks alone. -/
theorem exec_single_block_actions (s : State) (v : Nat) :
    exec (.evCtrClear v) s = .next (s.action .event Reg.EV_CTR_CLEAR v) ∧ exec (.pwrCtrClear v) s = .next (s.action .power Reg.PWR_CTR_CLEAR v)
    ∧ exec (.bootCtrClear v) s = .next (s.action .security Reg.BOOT_CTR_CLEAR v) ∧ exec (.secCtrClear v) s = .next (s.action .security Reg.SEC_CTR_CLEAR v)
    ∧ exec (.hkCtrClear v) s = .next (s.action .hk Reg.HK_CTR_CLEAR v) ∧ exec (.hkTdacGo v) s = .next (s.action .hk Reg.HK_TDAC_CTRL v)
    ∧ exec (.hkPartRelease v) s = .next (s.action .hk Reg.HK_PART_RELEASE v)
    ∧ exec (.fabCtrClear v) s = .next (s.action (.port 0) Reg.FAB_CTR_CLEAR v) ∧ exec (.topoCtrClear v) s = .next (s.action (.port 0) Reg.TOPO_CTR_CLEAR v)
    ∧ exec (.wtCtrClear v) s = .next (s.action (.mdie 0) Reg.WT_CTR_CLEAR v) := by
  refine ⟨?_, ?_, ?_, ?_, ?_, ?_, ?_, ?_, ?_, ?_⟩
  all_goals exact State.next_acts rfl rfl

theorem exec_port_actions (s : State) (p v : Nat) :
    exec (.gpCtrClear p v) s = .next (s.action (.port p) Reg.GP_CTR_CLEAR v)
    ∧ (bitOf v 0 = true → exec (.retrain p) s = .next (s.action (.port p) Reg.GP_CTRL v)) := by
  refine ⟨State.next_acts ?_ rfl, fun hb => State.next_acts ?_ rfl⟩
  · cases (p == 0) <;> rfl
  · rw [hb]; cases (p == 0) <;> rfl

theorem exec_mdie_actions (s : State) (m v : Nat) :
    exec (.memCtrClear m v) s = .next (s.action (.mdie m) Reg.MEM_CTR_CLEAR v) ∧ exec (.kvCtrClear m v) s = .next (s.action (.mdie m) Reg.KV_CTR_CLEAR v)
    ∧ exec (.serveCtrClear m v) s = .next (s.action (.mdie m) Reg.SERVE_CTR_CLEAR v)
    ∧ exec (.syncCtrClear m v) s = .next (s.action (.mdie m) Reg.SYNC_CTR_CLEAR v) := by
  refine ⟨State.next_acts ?_ rfl, State.next_acts ?_ rfl, State.next_acts ?_ rfl, State.next_acts ?_ rfl⟩
  all_goals cases (m == 0) <;> rfl

theorem exec_die_actions (s : State) (d v : Nat) :
    exec (.aeCtrClear d v) s = .next (s.action (.die d) Reg.AE_CTR_CLEAR v) ∧ exec (.dcCtrClear d v) s = .next (s.action (.die d) Reg.DC_CTR_CLEAR v)
    ∧ exec (.calRequest d v) s = .next (s.action (.die d) Reg.CAL_REQUEST v) ∧ exec (.calCtrClear d v) s = .next (s.action (.die d) Reg.CAL_CTR_CLEAR v)
    ∧ exec (.spCtrClear d v) s = .next (s.action (.die d) Reg.SP_CTR_CLEAR v) ∧ exec (.attCtrClear d v) s = .next (s.action (.die d) Reg.ATT_CTR_CLEAR v)
    ∧ exec (.wqCtrClear d v) s = .next (s.action (.die d) Reg.WQ_CTR_CLEAR v) ∧ exec (.seCtrClear d v) s = .next (s.action (.die d) Reg.SE_CTR_CLEAR v) := by
  refine ⟨?_, ?_, ?_, ?_, ?_, ?_, ?_, ?_⟩
  all_goals exact State.next_acts rfl rfl

/-- Settles O10: the register's offset flags its own action alone. -/
theorem actionWritesPerformTheirCommand : Obligations.ActionWritesPerformTheirCommand := fun s =>
  ⟨exec_channel_actions s, exec_single_block_actions s, exec_port_actions s, exec_mdie_actions s, exec_die_actions s⟩

end Sys2Proof.Machine
end

section
/-! PROOFS of the family 01_architecture: events and their ring (R28, R289, R290, R297), and the commit of a step (R33, R235, R239, R240). -/

namespace Sys2Proof.Machine

/-! ### The record of an event that arrives (R28, R290) -/

/-- The collector can write a record at once: the ring is on and has space, and nothing waits before it (R290). -/
def State.evTakes (s : State) : Bool := s.ready && s.ev.enabled && !s.ev.failed && s.ev.held.isEmpty && !s.evFull

/-- Event `i` has left the path to the collector, and LAST holds the stamp (R28). -/
def State.arrived (s : State) (i : Nat) : State :=
  { s with ev := { s.ev with inFlight := s.ev.inFlight.eraseIdx i }, time := { s.time with lastStamp := s.time.tick } }

/-- The record that a ring slot takes: the event with its stamp, the next SEQ and the PHASE of the ring's round (R289). -/
def State.evLine (s : State) (e : EvRec) (stamp : Nat) : EvLine :=
  { ev := e, stamp := stamp, seq := s.ev.seq, phase := s.ev.written / s.evSize % 2 == 0 }

theorem exec_eventArrival {s : State} {i : Nat} {e : EvRec} (h : s.ev.inFlight[i]? = some e) :
    exec (.eventArrival i) s = .next ((s.arrived i).evRecord e s.time.tick) := by
  show execEventArrival i s = _
  rw [execEventArrival, h]
  rfl

section Record

variable {s : State} {e : EvRec} {stamp : Nat}

theorem State.evRecord_masked (hm : s.evMasked e.code = true) : s.evRecord e stamp = s := by
  rw [State.evRecord, if_pos hm]

theorem State.evRecord_takes (hm : s.evMasked e.code = false) (hf : s.evTakes = true) : s.evRecord e stamp = s.evWrite e stamp := by
  rw [State.evRecord, if_neg (Bool.eq_false_iff.mp hm)]
  exact if_pos hf

theorem State.evRecord_waits (hm : s.evMasked e.code = false) (hf : s.evTakes = false) :
    s.evRecord e stamp =
      if s.ev.held.length < 65536 then { s with ev := { s.ev with held := s.ev.held ++ [{ ev := e, stamp := stamp, seq := 0, phase := false }] } }
      else { s with ev := { s.ev with dropped := s.ev.dropped + 1, dropLast := stamp, dropFirst := if s.ev.dropped = 0 then stamp else s.ev.dropFirst } }.bump
        (evReg Reg.EV_LOST_TOTAL) 1 := by
  rw [State.evRecord, if_neg (Bool.eq_false_iff.mp hm)]
  exact if_neg (Bool.eq_false_iff.mp hf)

end Record

/-- The interrupt rule of the event ring counts records since the last interrupt, and changes nothing else of the ring. -/
theorem State.evCoalesce_eq (s : State) :
    s.evCoalesce = { s with ev := { s.ev with sinceIrq := s.evCoalesce.ev.sinceIrq }, irq := s.evCoalesce.irq } := by
  simp only [State.evCoalesce]
  split <;> rfl

/-- What a record written into the ring changes: its slot, the two counts and the interrupt. -/
theorem State.evWrite_eq (s : State) (e : EvRec) (stamp : Nat) :
    s.evWrite e stamp =
      { s with ev := { s.ev with ring := Tab.set s.ev.ring (s.ev.written % s.evSize) (some (s.evLine e stamp)), written := (s.ev.written + 1) % 2 ^ 32
                                 seq := (s.ev.seq + 1) % 2 ^ 32, sinceIrq := (s.evWrite e stamp).ev.sinceIrq }
               irq := (s.evWrite e stamp).irq } := by
  rw [State.evWrite, State.evCoalesce_eq]
  rfl

/-- An unmasked event that the ring takes is written into the next slot, whatever the interrupt rule does. -/
theorem exec_eventArrival_writes {s : State} {i : Nat} {e : EvRec} (h : s.ev.inFlight[i]? = some e) (hm : s.evMasked e.code = false)
    (hf : s.evTakes = true) :
    ∃ n q, exec (.eventArrival i) s =
      .next { s with ev := { s.ev with inFlight := s.ev.inFlight.eraseIdx i, ring := Tab.set s.ev.ring (s.ev.written % s.evSize) (some (s.evLine e s.time.tick))
                                       written := (s.ev.written + 1) % 2 ^ 32, seq := (s.ev.seq + 1) % 2 ^ 32, sinceIrq := n }
                     time := { s.time with lastStamp := s.time.tick }, irq := q } := by
  refine ⟨((s.arrived i).evWrite e s.time.tick).ev.sinceIrq, ((s.arrived i).evWrite e s.time.tick).irq, ?_⟩
  rw [exec_eventArrival h, State.evRecord_takes (s := s.arrived i) hm hf, State.evWrite_eq]
  rfl

/-! ### The ring starts and stops, and the event descriptors (R272, R273, R290, R297) -/

theorem State.descriptor_accepted {s : State} {h : Hdr} {cls : Nat} (ha : s.accepts h cls = true) (k : State → Desc → State) :
    s.descriptor h cls k = k (s.start h) (s.descOf h) := by
  simp only [State.accepts, Bool.and_eq_true, beq_iff_eq] at ha
  exact s.descriptor_runs h cls k ha.1 ha.2

/-- With nothing held and nothing dropped, draining writes no record. -/
theorem State.evDrain_nothing {s : State} (hheld : s.ev.held = []) (hdrop : s.ev.dropped = 0) (n : Nat) : s.evDrain n = s := by
  cases n with
  | zero => rfl
  | succ n => simp [State.evDrain, hheld, hdrop]

/-- Table 9-18: the values with which the ring can be started (log 26). -/
def State.evStarts (s : State) : Prop :=
  s.ev.enabled = false ∧ 6 ≤ bitsOf s.evCfg 0 5 ∧ bitsOf s.evCfg 0 5 ≤ 16 ∧ s.reg (evReg Reg.EV_RING_BASE) % 4096 = 0
    ∧ s.reg (evReg Reg.EV_DB_ADDR) % 64 = 0

/-- The ring enabled anew, at slot 0. -/
def State.evStarted (s : State) : State :=
  { s with ev := { s.ev with enabled := true, failed := false, written := 0, head := 0, sinceIrq := 0 } }

theorem State.evEnable_starts {s : State} (h : s.evStarts) : s.evEnable = s.evStarted.evDrain (s.ev.held.length + 1) := by
  obtain ⟨hoff, hlo, hhi, hbase, hdb⟩ := h
  refine if_neg ?_
  rw [hoff, hbase, hdb, decide_eq_false (Nat.not_lt.mpr hlo), decide_eq_false (Nat.not_lt.mpr hhi)]
  decide

theorem State.evEnable_refused {s : State} (h : ¬ s.evStarts) : s.evEnable = s := by
  refine if_pos ?_
  by_contra hc
  refine h ?_
  simp only [Bool.or_eq_true, bne_iff_ne, decide_eq_true_eq, not_or, Nat.not_lt, Decidable.not_not, Bool.not_eq_true] at hc
  obtain ⟨⟨⟨⟨hoff, hlo⟩, hhi⟩, hbase⟩, hdb⟩ := hc
  exact ⟨hoff, hlo, hhi, hbase, hdb⟩

theorem exec_evCtrlEnable (s : State) : exec .evCtrlEnable s = .next s.evEnable := rfl

theorem exec_eventMask {s : State} {h : Hdr} (ha : s.accepts h clsEvent = true) (mask sev : Nat) :
    exec (.eventMask h mask sev) s
      = .next (State.finish { s.start h with ev := { s.ev with mask := mask % 2 ^ 256, minSeverity := sev } } (s.descOf h) .OK 0 0) := by
  show execEventMask h mask sev s = _
  rw [execEventMask, State.descriptor_accepted ha, State.start_ev]

theorem exec_eventFlush {s : State} {h : Hdr} (ha : s.accepts h clsEvent = true) :
    exec (.eventFlush h) s = .next (if s.ev.held.isEmpty then (s.start h).finish (s.descOf h) .OK 0 0
      else { s.start h with ev := { s.ev with flushes := s.ev.flushes ++ [(s.descOf h, s.ev.held.length)] } }) := by
  show execEventFlush h s = _
  rw [execEventFlush, State.descriptor_accepted ha, State.start_ev]

theorem exec_eventCatalogue {s : State} {h : Hdr} (ha : s.accepts h clsMaint = true) (buffer n : Nat) :
    exec (.eventCatalogue h buffer n) s
      = .next (((s.start h).hostPut buffer ((List.range (min n Config.catalogueLength)).map Config.catalogueByte)).finish (s.descOf h) .OK
          Config.catalogueLength 0) := by
  show execEventCatalogue h buffer n s = _
  rw [execEventCatalogue, State.descriptor_accepted ha]

/-- Settles O13: an arrival is one of the four cases of `evRecord`, and ENABLE starts the ring where `evStarts` holds. -/
theorem eventsAndTheirRing : Obligations.EventsAndTheirRing := by
  refine ⟨fun s i e he => ⟨fun hm => ?masked, fun hm hf => ?written, fun hm hf hlen => ?held, fun hm hf hlen => ?dropped⟩,
    fun s h => ⟨fun hoff hlo hhi hbase hdb hheld hdrop => ?starts, fun hbad => ?refused, rfl, fun ha => exec_eventMask ha,
      fun ha hheld => ?flushed, fun ha hheld => ?flushes, fun ha => exec_eventCatalogue ha⟩⟩
  case masked =>
    rw [exec_eventArrival he, State.evRecord_masked (s := s.arrived i) hm]
    rfl
  case written =>
    obtain ⟨n, q, hx⟩ := exec_eventArrival_writes he hm hf
    exact ⟨_, hx, Tab.get_set_same s.ev.ring (s.ev.written % s.evSize) (some (s.evLine e s.time.tick)),
      fun k hk => Tab.get_set_other s.ev.ring (some (s.evLine e s.time.tick)) hk, rfl, rfl, rfl, rfl, rfl⟩
  case held =>
    rw [exec_eventArrival he, State.evRecord_waits (s := s.arrived i) hm hf]
    exact congrArg _ (if_pos hlen)
  case dropped =>
    rw [exec_eventArrival he, State.evRecord_waits (s := s.arrived i) hm hf]
    refine ⟨_, congrArg _ (if_neg (Nat.not_lt.mpr hlen)), rfl, rfl, rfl, ?_⟩
    rw [State.reg_bump, if_pos rfl]
    rfl
  case starts =>
    rw [exec_evCtrlEnable, State.evEnable_starts ⟨hoff, hlo, hhi, hbase, hdb⟩, State.evDrain_nothing (s := s.evStarted) hheld hdrop]
    rfl
  case refused =>
    rw [exec_evCtrlEnable, State.evEnable_refused]
    rintro ⟨hoff, hlo, hhi, hbase, hdb⟩
    rcases hbad with hon | hlt | hgt | hne | hne
    · simp [hoff] at hon
    · omega
    · omega
    · exact hne hbase
    · exact hne hdb
  case flushed => rw [exec_eventFlush ha, hheld]; rfl
  case flushes => rw [exec_eventFlush ha, if_neg (by simpa using hheld)]

/-! ### What the shared operations of a commit leave alone -/

@[simp] theorem State.complete_reqs (s : State) (c : Nat) (e : Completion) (now : Bool) : (s.complete c e now).reqs = s.reqs := by
  rw [State.complete_eq]
@[simp] theorem State.complete_step (s : State) (c : Nat) (e : Completion) (now : Bool) : (s.complete c e now).step = s.step := by
  rw [State.complete_eq]

/-- A delivery counts a late token and writes a completion, nothing else. -/
theorem State.deliver_eq (s : State) (i pos token : Nat) (last : Bool) :
    s.deliver i pos token last =
      { s with regs := (s.deliver i pos token last).regs, chans := (s.deliver i pos token last).chans
               cq := (s.deliver i pos token last).cq, irq := (s.deliver i pos token last).irq } := by
  simp only [State.deliver]
  rw [State.complete_eq]
  split <;> rfl

theorem State.deliverAll_eq (s : State) (i pos : Nat) (ts : List Nat) :
    s.deliverAll i pos ts =
      { s with regs := (s.deliverAll i pos ts).regs, chans := (s.deliverAll i pos ts).chans
               cq := (s.deliverAll i pos ts).cq, irq := (s.deliverAll i pos ts).irq } := by
  induction ts generalizing s pos with
  | nil => rfl
  | cons t r ih => rw [State.deliverAll, ih, State.deliver_eq]

@[simp] theorem State.req_deliverAll (s : State) (i pos : Nat) (ts : List Nat) (j : Nat) : (s.deliverAll i pos ts).req j = s.req j := by
  rw [State.deliverAll_eq]; rfl
@[simp] theorem State.deliverAll_step (s : State) (i pos : Nat) (ts : List Nat) : (s.deliverAll i pos ts).step = s.step := by
  rw [State.deliverAll_eq]
@[simp] theorem State.deliverAll_mem (s : State) (i pos : Nat) (ts : List Nat) : (s.deliverAll i pos ts).mem = s.mem := by
  rw [State.deliverAll_eq]

/-- The TRUNCATE that a commit stages where the sequence has a page table (R206). -/
def State.stageLength (s : State) (i n : Nat) : State := if (s.table i).valid then s.stageEdit i (.truncate n 0) else s

theorem State.stageLength_eq (s : State) (i n : Nat) : s.stageLength i n = { s with tables := (s.stageLength i n).tables } := by
  rw [State.stageLength]
  split <;> rfl

@[simp] theorem State.req_stageLength (s : State) (i n j : Nat) : (s.stageLength i n).req j = s.req j := by
  rw [State.stageLength_eq]; rfl
@[simp] theorem State.stageLength_step (s : State) (i n : Nat) : (s.stageLength i n).step = s.step := by rw [State.stageLength_eq]
@[simp] theorem State.stageLength_mem (s : State) (i n : Nat) : (s.stageLength i n).mem = s.mem := by rw [State.stageLength_eq]
@[simp] theorem State.stageLength_cq (s : State) (i n : Nat) : (s.stageLength i n).cq = s.cq := by rw [State.stageLength_eq]

@[simp] theorem State.req_logDelivered (s : State) (i n j : Nat) : (s.logDelivered i n).req j = s.req j := rfl
@[simp] theorem State.logDelivered_mem (s : State) (i n : Nat) : (s.logDelivered i n).mem = s.mem := rfl
@[simp] theorem State.logDelivered_cq (s : State) (i n : Nat) : (s.logDelivered i n).cq = s.cq := rfl
@[simp] theorem State.logDelivered_committed (s : State) (i n : Nat) : (s.logDelivered i n).step.committed = s.step.committed := rfl
@[simp] theorem State.logDelivered_journal (s : State) (i n : Nat) : (s.logDelivered i n).step.journal = s.step.journal := rfl

/-- A pause changes the entry's state, its reason and the tick of the pause. -/
theorem State.req_pauseReq_same (s : State) (i reason : Nat) :
    (s.pauseReq i reason).req i = { s.req i with st := .ember, reason := reason, pauseTick := s.time.tick, wantPause := false } := by
  simp [State.pauseReq, State.requestEvent, State.req, State.setReq]

@[simp] theorem State.pauseReq_step (s : State) (i reason : Nat) : (s.pauseReq i reason).step = s.step := by
  simp [State.pauseReq, State.requestEvent]

/-! ### The commit of one sequence (R239, R240) -/

/-- The entry of a sequence whose tokens `ts`, sampled from position `p` on, are all delivered at tick `now`; the last one is the pending token. -/
def Req.committed (r : Req) (a : Admit) (p now : Nat) (ts : List Nat) : Req :=
  { r with length := p + (ts.length - 1), token := ts.getLast?, input := r.input.drop (a.feed.length - (if r.token.isSome then 1 else 0))
           tree := none, ring := ringPut (ringPut r.ring a.base a.feed) p ts, lastCommit := now, delivered := r.delivered + ts.length }

theorem cutStop_of_no_stop {stop ts : List Nat} (h : ∀ t ∈ ts, stop.contains t = false) : cutStop stop ts = ts := by
  induction ts with
  | nil => rfl
  | cons t r ih =>
    obtain ⟨ht, hr⟩ := List.forall_mem_cons.mp h
    rw [cutStop, ht, ih hr]
    rfl

/-- Sampled tokens that all lie below MAX_LENGTH, none of them a stop token, are all delivered, and the sequence goes on. -/
theorem State.commitSeq_delivers {s : State} {a : Admit} {g : Image} {p : Nat} {ts : List Nat}
    (hx : s.sampled a g (s.req a.idx) = { st := s, tokens := ts, first := p }) (hfit : ts.length ≤ (s.req a.idx).maxLength - p)
    (hstop : ∀ t ∈ ts, g.stop.contains t = false) :
    s.commitSeq a g
      = (((s.setReq a.idx ((s.req a.idx).committed a p s.time.tick ts)).stageLength a.idx (p + (ts.length - 1))).deliverAll a.idx p ts).logDelivered
          a.idx ts.length := by
  cases ts with
  | nil => simp [State.commitSeq, hx, cutStop, State.stageLength, Req.committed]
  | cons t r =>
    obtain ⟨l, hl⟩ : ∃ l, (t :: r).getLast? = some l := ⟨_, List.getLast?_eq_some_getLast (List.cons_ne_nil t r)⟩
    have goesOn : g.stop.contains l = false := hstop l (List.mem_of_getLast? hl)
    simp only [State.commitSeq, hx, List.take_of_length_le hfit, cutStop_of_no_stop hstop, hl, goesOn]
    simp [State.stageLength, Req.committed, hl, Nat.add_sub_assoc]

/-- A prefill chunk that leaves input pending samples nothing (R239). -/
theorem State.sampled_chunk (s : State) {a : Admit} (g : Image) (r : Req) (ht : a.tree = none) (hs : a.sample = false) :
    s.sampled a g r = { st := s, tokens := [], first := a.base + a.feed.length } := by
  simp [State.sampled, ht, hs]

/-- At temperature 0 the last row of a sequence gives the token of its largest logit (R239). -/
theorem State.sampled_greedy (s : State) {a : Admit} (g : Image) (r : Req) (ht : a.tree = none) (hs : a.sample = true) (htemp : r.temp = 0#32)
    (hnan : (s.logitsRow g (a.row + a.feed.length - 1)).any F32.isNaN = false) :
    s.sampled a g r = { st := s, tokens := [argmax (s.logitsRow g (a.row + a.feed.length - 1))], first := a.base + a.feed.length } := by
  simp [State.sampled, State.sample, sampleToken, ht, hs, htemp, hnan]

theorem State.commitOne_clean {s : State} {a : Admit} {g : Image} (ht : s.troubles = []) (hg : s.image (s.req a.idx).image = some g) :
    s.commitOne a = s.commitSeq a g := by
  simp [State.commitOne, ht, hg]

theorem State.commitOne_trouble {s : State} {a : Admit} {x : SeqTrouble} (ht : s.troubles = [x]) (hx : x.seq = a.idx) :
    s.commitOne a = (s.stageLength a.idx a.base).pauseReq a.idx x.reason := by
  simp [State.commitOne, State.stageLength, ht, hx]

/-! ### The commit of the step (R33, R235) -/

/-- The step is committed under its number before its sequences are: the journal is complete. -/
def State.journaled (s : State) : State :=
  { s with step := { s.step with committed := true, journal := s.step.num, attempt := 0, faultAddr := [], rerun := [] }
           topo := { s.topo with lastClean := s.step.num } }

@[simp] theorem State.journaled_committed (s : State) : s.journaled.step.committed = true := rfl
@[simp] theorem State.journaled_journal (s : State) : s.journaled.step.journal = s.step.num := rfl
@[simp] theorem State.journaled_cq (s : State) : s.journaled.cq = s.cq := rfl
@[simp] theorem State.journaled_mem (s : State) : s.journaled.mem = s.mem := rfl
@[simp] theorem State.req_journaled (s : State) (i : Nat) : s.journaled.req i = s.req i := rfl

/-- A step that STEP_COMMIT commits: it runs, it has been neither committed nor abandoned, and the lead lets it (R375). -/
def State.canCommit (s : State) : Prop := s.step.running = true ∧ s.step.committed = false ∧ s.step.abandoned = false ∧ s.mayCommit = true

theorem exec_stepCommit_refused {s : State} (l : List (Nat × List (Nat × Nat))) (h : ¬ s.canCommit) : exec (.stepCommit l) s = .next s := by
  refine congrArg _ (if_neg fun hc => h ?_)
  simpa [State.canCommit, and_assoc] using hc

theorem exec_stepCommit {s : State} (h : s.canCommit) : exec (.stepCommit []) s = .next (s.step.admitted.foldl State.commitOne s.journaled) := by
  obtain ⟨hrun, hcom, hab, hmay⟩ := h
  exact congrArg _ (if_pos (by simp [hrun, hcom, hab, hmay]))

/-- A step of one sequence. -/
theorem exec_stepCommit_one {s : State} {a : Admit} (h : s.canCommit) (ha : s.step.admitted = [a]) :
    exec (.stepCommit []) s = .next (s.journaled.commitOne a) := by
  rw [exec_stepCommit h, ha]
  rfl

/-- A lone sequence without trouble whose sampled tokens are all delivered. -/
theorem exec_stepCommit_delivers {s : State} {a : Admit} {g : Image} {p : Nat} {ts : List Nat} (h : s.canCommit) (ha : s.step.admitted = [a])
    (ht : s.troubles = []) (hg : s.image (s.req a.idx).image = some g)
    (hx : s.journaled.sampled a g (s.req a.idx) = { st := s.journaled, tokens := ts, first := p })
    (hfit : ts.length ≤ (s.req a.idx).maxLength - p) (hstop : ∀ t ∈ ts, g.stop.contains t = false) :
    exec (.stepCommit []) s = .next ((((s.journaled.setReq a.idx ((s.req a.idx).committed a p s.time.tick ts)).stageLength a.idx
      (p + (ts.length - 1))).deliverAll a.idx p ts).logDelivered a.idx ts.length) := by
  rw [exec_stepCommit_one h ha, State.commitOne_clean (s := s.journaled) ht hg, State.commitSeq_delivers (s := s.journaled) hx hfit hstop]
  rfl

/-- Settles O28: a commit is the journal's and then each sequence's; a lone sequence's is that of its sampled tokens, none for a chunk and the argmax for a greedy one. -/
theorem stepCommits : Obligations.StepCommits := by
  intro s
  refine ⟨fun l hno => exec_stepCommit_refused l ?refused, fun hrun hcom hab hmay => ⟨fun hnone => ?none, fun a g ha hg htree => ?one⟩⟩
  case refused =>
    rintro ⟨hrun, hcom, hab, hmay⟩
    simp [hrun, hcom, hab, hmay] at hno
  case none =>
    have hx := exec_stepCommit ⟨hrun, hcom, hab, hmay⟩
    rw [hnone] at hx
    exact ⟨s.journaled, hx, rfl, rfl, rfl, rfl, rfl⟩
  case one =>
    have hc : s.canCommit := ⟨hrun, hcom, hab, hmay⟩
    refine ⟨fun ht hs => ?chunk, fun ht hs htemp hnan hlen hstop => ?greedy, fun x ht hx => ?trouble⟩
    case chunk =>
      have hx := exec_stepCommit_delivers hc ha ht hg (s.journaled.sampled_chunk g _ htree hs) (Nat.zero_le _) (by simp)
      refine ⟨_, hx, ?_⟩
      simp [State.deliverAll, Req.committed]
    case greedy =>
      have hx := exec_stepCommit_delivers (ts := [argmax (s.logitsRow g (a.row + a.feed.length - 1))]) hc ha ht hg
        (s.journaled.sampled_greedy g _ htree hs htemp hnan) (Nat.le_sub_of_add_le' hlen) (List.forall_mem_singleton.mpr hstop)
      refine ⟨_, hx, ?_⟩
      simp [Req.committed, ringPut]
    case trouble =>
      refine ⟨_, (exec_stepCommit_one hc ha).trans (congrArg _ (State.commitOne_trouble (s := s.journaled) ht hx)), ?_⟩
      simp [State.req_pauseReq_same]

end Sys2Proof.Machine
end

section
/-! PROOFS of the family 02_number_formats: the load of an image (R36, R188, R203, R279, R281, R314, R346, R358) and the D-engine's vector op, PSUM_ADD and KV_APPEND (R58, R115, R186, R207, R211, R212, R311). -/

namespace Sys2Proof.Machine

/-! ### What an access to memory leaves alone (R163, R177, R183, R199) -/

theorem Kept.atoms {W : Nat} {s t : State} (h : Kept W s t) (hW : W.testBit Zone.memctl.bit = false) : t.mem.atoms = s.mem.atoms :=
  (h.only .memctl hW).1

theorem Kept.seqs {W : Nat} {s t : State} (h : Kept W s t) (hW : W.testBit Zone.seqs.bit = false) : t.seqs = s.seqs :=
  h.only .seqs hW

theorem State.foldl_touchUnit_eq (l : List Nat) (f : Nat → Nat) (n : Nat) (s : State) :
    l.foldl (fun s i => s.touchUnit n (f i)) s =
      { s with mem := { s.mem with row := (l.foldl (fun s i => s.touchUnit n (f i)) s).mem.row } } := by
  induction l generalizing s with
  | nil => rfl
  | cons i r ih => rw [List.foldl_cons, ih]; rfl

/-- Touching a piece opens rows, nothing else. -/
theorem State.touch_eq (s : State) (p : Piece) : s.touch p = { s with mem := { s.mem with row := (s.touch p).mem.row } } := by
  rw [State.touch]
  split
  · exact State.foldl_touchUnit_eq _ _ _ _
  · rfl

/-- Waiting moves counters, by amounts the model leaves open, and nothing else. -/
theorem State.waited_eq (s : State) (src : Src) (a : Nat) :
    s.waited src a = { s with fresh := (s.waited src a).fresh, regs := (s.waited src a).regs
                              mem := { s.mem with coreWait := (s.waited src a).mem.coreWait } } := by
  simp only [State.waited]
  split <;> split <;> rfl

@[simp] theorem State.touch_atoms (s : State) (p : Piece) : (s.touch p).mem.atoms = s.mem.atoms := by rw [State.touch_eq]
@[simp] theorem State.touch_bytes (s : State) (p : Piece) : (s.touch p).mem.bytes = s.mem.bytes := by rw [State.touch_eq]
@[simp] theorem State.touch_tiles (s : State) (p : Piece) : (s.touch p).mem.tiles = s.mem.tiles := by rw [State.touch_eq]
@[simp] theorem State.waited_atoms (s : State) (src : Src) (a : Nat) : (s.waited src a).mem.atoms = s.mem.atoms := by rw [State.waited_eq]
@[simp] theorem State.waited_bytes (s : State) (src : Src) (a : Nat) : (s.waited src a).mem.bytes = s.mem.bytes := by rw [State.waited_eq]
@[simp] theorem State.waited_tiles (s : State) (src : Src) (a : Nat) : (s.waited src a).mem.tiles = s.mem.tiles := by rw [State.waited_eq]

@[simp] theorem State.reportBlocked_mem (s : State) (a : Nat) (c : Code) (src : Src) : (s.reportBlocked a c src).mem = s.mem := by
  simp only [State.reportBlocked]
  split <;> rfl

/-- A piece that is read opens its rows, and its checks touch counters, check words and events. -/
theorem State.readPiece_kept_touched (s : State) (r : Reader) (p : Piece) : Kept 2147 (s.touch p) (s.readPiece r p).st := by
  have guarded : Kept 2147 (s.touch p) ((s.touch p).guardRead (p.1 / 4096)) := State.guardRead_kept rfl (Kept.refl _ _)
  simp only [State.readPiece]
  split
  · exact State.check_kept rfl guarded
  · split
    · split
      · exact State.countPoison_kept rfl (State.bump_kept rfl guarded)
      · exact State.bump_kept rfl guarded
    · exact State.check_kept rfl guarded

theorem State.readChecked_kept_touched (s : State) (r : Reader) (p : Piece) : Kept 2147 (s.touch p) (s.readChecked r p).st := by
  simp only [State.readChecked]
  split
  · exact State.reduceCheck_kept rfl (s.readPiece_kept_touched r p)
  · exact s.readPiece_kept_touched r p

/-! ### Accesses declare no atomic target region (R188) -/

@[simp] theorem State.readChecked_atoms (s : State) (r : Reader) (p : Piece) : (s.readChecked r p).st.mem.atoms = s.mem.atoms :=
  ((s.readChecked_kept_touched r p).atoms rfl).trans (s.touch_atoms p)

@[simp] theorem State.readPieces_atoms (s : State) (r : Reader) (l : List Piece) : (s.readPieces r l).st.mem.atoms = s.mem.atoms := by
  induction l generalizing s with
  | nil => rfl
  | cons p t ih =>
    simp only [State.readPieces]
    split
    · exact (ih _).trans (s.readChecked_atoms r p)
    · exact s.readChecked_atoms r p

@[simp] theorem State.read_atoms (s : State) (r : Reader) (a n : Nat) : (s.read r a n).st.mem.atoms = s.mem.atoms := by
  simp only [State.read]
  split <;> simp

@[simp] theorem State.writePiece_atoms (s : State) (st : Tile) (a : Nat) (bs : List Byte) : (s.writePiece st a bs).mem.atoms = s.mem.atoms := by
  simp only [State.writePiece]
  split <;> simp [State.setTile, State.putBytes]

@[simp] theorem State.writePieces_atoms (s : State) (st : Nat → Tile) (bs : List Byte) (l : List Piece) :
    (s.writePieces st bs l).mem.atoms = s.mem.atoms := by
  induction l generalizing s bs with
  | nil => rfl
  | cons p t ih => rw [State.writePieces, ih, State.writePiece_atoms]

@[simp] theorem State.write_atoms (s : State) (src : Src) (st : Tile) (a : Nat) (bs : List Byte) :
    (s.write src st a bs).st.mem.atoms = s.mem.atoms := by
  simp only [State.write]
  split <;> simp

@[simp] theorem State.poisonRange_atoms (s : State) (a n : Nat) : (s.poisonRange a n).mem.atoms = s.mem.atoms :=
  (State.poisonRange_kept rfl (Kept.refl 2048 s)).atoms rfl

@[simp] theorem State.copy_atoms (s : State) (r : Reader) (a b n : Nat) : (s.copy r a b n).st.mem.atoms = s.mem.atoms := by
  simp only [State.copy]
  split
  · simp
  · split
    · simp
    · split <;> simp

/-! ### What a load takes (R179, R314, R360) -/

@[simp] theorem State.declare_atoms (s : State) (q : Nat) (r : Region) : (s.declare q r).mem.atoms = s.mem.atoms := by
  simp only [State.declare]
  split <;> rfl

theorem State.takeRegions_atoms {s t : State} {image : Nat} {l : List ImageRegion} (h : s.takeRegions image l = .ok t) :
    t.mem.atoms = s.mem.atoms := by
  induction l generalizing s with
  | nil => cases h; rfl
  | cons r l ih =>
    simp only [State.takeRegions] at h
    split at h
    · cases h
    · rw [ih h]
      split <;> simp

/-- A declaration adds one region, and its tiles' new check words declare none. -/
theorem State.addAtom_atoms (s : State) (image : Nat) (x : ImageAtom × Nat) : ∃ r, (s.addAtom image x).mem.atoms = s.mem.atoms ++ [r] := by
  simp only [State.addAtom]
  exact ⟨_, (kept_foldl (W := 2048) _ (fun _ _ h => State.setTile_kept rfl h) (Kept.refl _ _)).atoms rfl⟩

theorem State.foldl_addAtom_atoms (image : Nat) (l : List (ImageAtom × Nat)) (s : State) :
    ∃ rs, (l.foldl (fun s x => s.addAtom image x) s).mem.atoms = s.mem.atoms ++ rs ∧ rs.length = l.length := by
  induction l generalizing s with
  | nil => exact ⟨[], by simp⟩
  | cons x l ih =>
    obtain ⟨r, hr⟩ := s.addAtom_atoms image x
    obtain ⟨rs, hrs, hlen⟩ := ih (s.addAtom image x)
    exact ⟨r :: rs, by simp [hrs, hr], by simp [hlen]⟩

theorem State.placeParts_atoms (s : State) (source length : Nat) (g : Image) : (s.placeParts source length g).mem.atoms = s.mem.atoms := by
  rw [State.placeParts]
  generalize g.parts = l
  induction l generalizing s with
  | nil => rfl
  | cons p l ih =>
    rw [List.foldl_cons, ih]
    split <;> simp

/-! ### An accepted load (R188, R203, R314) -/

/-- An accepted load but for its image's entry and its pools' slots: parts placed, atomic targets declared, policies and records begun. -/
def State.furnished (s : State) (image source length : Nat) (g : Image) : State :=
  (((g.atoms.zipIdx.foldl (fun s x => s.addAtom image x) (s.placeParts source length g)).setPolicies image g.layers true).setStats image g.layers true).resetShadows g

theorem State.installed_eq (s : State) (image source length : Nat) (g : Image) :
    s.installed image source length g =
      { (s.furnished image source length g).raiseSlots g with images := Tab.set (s.furnished image source length g).images image (some g) } := rfl

theorem State.furnished_kept (s : State) (image source length : Nat) (g : Image) : Kept 69212287 s (s.furnished image source length g) :=
  State.resetShadows_kept rfl (State.setStats_kept rfl (State.setPolicies_kept rfl
    (kept_foldl _ (fun _ _ h => State.addAtom_kept rfl h) (State.placeParts_kept rfl (Kept.refl _ s)))))

/-- An installed image stands under its number, and no other number changes. -/
theorem State.image_installed (s : State) (image source length : Nat) (g : Image) (j : Nat) :
    (s.installed image source length g).image j = if j = image then some g else s.image j := by
  rw [State.image, State.installed_eq, Tab.get_set, (s.furnished_kept image source length g).only .images rfl]
  rfl

theorem State.furnished_atoms (s : State) (image source length : Nat) (g : Image) :
    ∃ l, (s.furnished image source length g).mem.atoms = s.mem.atoms ++ l ∧ l.length = g.atoms.length := by
  obtain ⟨l, hl, hlen⟩ := State.foldl_addAtom_atoms image g.atoms.zipIdx (s.placeParts source length g)
  have begun : ∀ t : State, Kept 69206044 t (((t.setPolicies image g.layers true).setStats image g.layers true).resetShadows g) := fun t =>
    State.resetShadows_kept rfl (State.setStats_kept rfl (State.setPolicies_kept rfl (Kept.refl _ t)))
  rw [s.placeParts_atoms] at hl
  exact ⟨l, ((begun _).atoms rfl).trans hl, by rw [hlen, List.length_zipIdx]⟩

theorem State.installed_atoms (s : State) (image source length : Nat) (g : Image) :
    ∃ l, (s.installed image source length g).mem.atoms = s.mem.atoms ++ l ∧ l.length = g.atoms.length := by
  obtain ⟨l, hl, hlen⟩ := s.furnished_atoms image source length g
  exact ⟨l, ((State.raiseSlots_kept rfl (Kept.refl 68719476736 _)).atoms rfl).trans hl, hlen⟩

/-- A load that passes every test installs its image, linked to the objects it took, into a state that has the images and the atomic targets it had. -/
theorem State.loadImage_ok {s u : State} {image source length : Nat} {g : Image} (h : s.loadImage image source length g = .ok u) :
    ∃ t ns, u = State.installed t image source length (Image.linked g ns) ∧ t.images = s.images ∧ t.mem.atoms = s.mem.atoms := by
  simp only [State.loadImage] at h
  split at h
  · cases h
  split at h
  · cases h
  next x hobj =>
    split at h
    · cases h
    next t hreg =>
      split at h
      · cases h
      next w hwin =>
        have objects : Kept 65536 s x.1 := (State.takeObjects_kept rfl (Kept.refl _ s)).of x.1 x.2 hobj
        have regions : Kept 6243 x.1 t := (State.takeRegions_kept rfl (Kept.refl _ x.1)).of t hreg
        have windows : Kept 2199023255649 t w := (State.takeWindows_kept rfl (Kept.refl _ t)).of w hwin
        refine ⟨w, x.2, (Except.ok.inj h).symm, ?_, ?_⟩
        · rw [windows.only .images rfl, regions.only .images rfl, objects.only .images rfl]
        · rw [windows.atoms rfl, State.takeRegions_atoms hreg, objects.atoms rfl]

/-! ### The descriptor PROGRAM LOAD (R279, R281, R346) -/

/-- The completion of a load whose number is free and whose version is settled: its first failing test, or the version. -/
def State.loadAnswer (s : State) (d : Desc) (v : Nat) : Except Reject State → State
  | .error e => s.finish d e.1 e.2 0
  | .ok u => u.finish d .OK v 0

/-- The checks of a load stand in this order (log 7), before the tests of its image. -/
theorem exec_programLoad {s : State} {h : Hdr} (ha : s.accepts h clsProgram = true) (image source length : Nat) (img : Image) :
    exec (.programLoad h image source length img) s = .next (
      if image = 0xFFFF then (s.start h).finish (s.descOf h) .IMAGE_RESERVED 0 0
      else if (s.image image).isSome then (s.start h).finish (s.descOf h) .IMAGE_IN_USE 0 0
      else if settle (offerList (s.reg Reg.VER_IMAGE)) img.offers = 0 then (s.start h).finish (s.descOf h) .VERSION_NONE 0 0
      else (s.start h).loadAnswer (s.descOf h) (settle (offerList (s.reg Reg.VER_IMAGE)) img.offers)
        ((s.start h).loadImage image source length (Image.widened img))) := by
  have sameImage : (s.start h).image image = s.image image := congrArg (Tab.get · image) (s.start_images h)
  have sameVersion : (s.start h).imageVersion img = settle (offerList (s.reg Reg.VER_IMAGE)) img.offers := by
    simp only [State.imageVersion, State.reg, State.start_regs]
  show execProgramLoad h image source length img s = _
  rw [execProgramLoad, State.descriptor_accepted ha, sameImage, sameVersion]
  rfl

/-- Settles O21: a load is refused by the first check or test that fails, and otherwise installs its linked image. -/
theorem programLoad : Obligations.ProgramLoad := by
  intro s h image source length img ha
  simp only [exec_programLoad ha, Host.Outcome.next.injEq]
  refine ⟨fun hres => ?reserved, fun hres himg => ?inUse, fun hres himg hv => ?noVersion, fun hres himg hv e he => ?refused,
    fun hres himg hv u hu => ⟨?accepted, ?image, ?others, ?atoms⟩⟩
  case reserved => rw [if_pos hres]
  case inUse => rw [if_neg hres, if_pos (Option.isSome_iff_ne_none.mpr himg)]
  case noVersion => rw [if_neg hres, himg, if_neg (by simp), if_pos hv]
  case refused => rw [if_neg hres, himg, if_neg (by simp), if_neg hv, he]; rfl
  case accepted => rw [if_neg hres, himg, if_neg (by simp), if_neg hv, hu]; rfl
  all_goals obtain ⟨t, ns, rfl, himages, hatoms⟩ := State.loadImage_ok hu
  case image => exact ⟨ns, by rw [State.image_installed, if_pos rfl]⟩
  case others =>
    intro j hj
    rw [State.image_installed, if_neg hj, State.image, himages, State.start_images]
    rfl
  case atoms =>
    obtain ⟨l, hl, hlen⟩ := t.installed_atoms image source length (Image.linked (Image.widened img) ns)
    exact ⟨l, by rw [hl, hatoms, State.start_mem], hlen⟩

/-! ### Numbers in bytes (R11, R54) -/

@[simp] theorem length_leBytes (n v : Nat) : (leBytes n v).length = n := by
  induction n generalizing v with
  | zero => rfl
  | succ n ih => rw [leBytes, List.length_cons, ih]

theorem leNat_leBytes (n v : Nat) : leNat (leBytes n v) = v % 256 ^ n := by
  induction n generalizing v with
  | zero => simp [leBytes, leNat, Nat.mod_one]
  | succ n ih => exact (congrArg (v % 256 + 256 * ·) (ih (v / 256))).trans (by rw [Nat.pow_succ' (m := 256), Nat.mod_mul])

theorem signed_eq_bmod {w : Nat} (hw : 0 < w) (v : Nat) : signed w v = (v : Int).bmod (2 ^ w) := by
  obtain ⟨k, rfl⟩ := Nat.exists_eq_succ_of_ne_zero hw.ne'
  have half : ((2 ^ (k + 1) : Nat) + 1) / 2 = 2 ^ k := by omega
  simp only [signed, Int.bmod, Nat.succ_eq_add_one, Nat.add_sub_cancel]
  generalize hm : 2 ^ (k + 1) = m at half ⊢
  omega

/-- Coding an integer in `w` bits and reading the code back keeps it modulo 2^w. -/
theorem signed_encodeInt {w : Nat} (hw : 0 < w) (x : Int) : signed w (encodeInt w x) = x.bmod (2 ^ w) := by
  have code : ((encodeInt w x : Nat) : Int) = x % (2 ^ w : Nat) := Int.toNat_of_nonneg (Int.emod_nonneg _ (by positivity))
  rw [signed_eq_bmod hw, code, Int.emod_bmod]

theorem encodeInt_lt (w : Nat) (x : Int) : encodeInt w x < 2 ^ w := by
  have h := Int.emod_lt_of_pos x (by positivity : (0 : Int) < (2 ^ w : Nat))
  have h0 := Int.emod_nonneg x (by positivity : ((2 ^ w : Nat) : Int) ≠ 0)
  simp only [encodeInt]
  omega

theorem clampInt_eq (lo hi x : Int) (h : lo ≤ hi) : clampInt lo hi x = max lo (min hi x) := by
  simp only [clampInt]
  split
  · omega
  · split <;> omega

/-! ### Words of memory (R11) -/

theorem chunkNats_eq (w n : Nat) (bs : List Byte) : chunkNats w n bs = (List.range n).map (fun k => leNat ((bs.drop (w * k)).take w)) := by
  induction n generalizing bs with
  | zero => rfl
  | succ n ih =>
    rw [chunkNats, ih, List.range_succ_eq_map]
    simp [Nat.mul_add, Nat.add_comm w]

@[simp] theorem length_chunkNats (w n : Nat) (bs : List Byte) : (chunkNats w n bs).length = n := by simp [chunkNats_eq]

@[simp] theorem length_f32s (n : Nat) (bs : List Byte) : (f32s n bs).length = n := by simp [f32s]

/-- Words laid one after another are read back word by word, whatever follows them. -/
theorem chunkNats_flatMap_leBytes (w : Nat) (l : List Nat) (rest : List Byte) :
    chunkNats w l.length (l.flatMap (leBytes w) ++ rest) = l.map (· % 256 ^ w) := by
  induction l with
  | nil => rfl
  | cons v l ih =>
    have here : ((v :: l).flatMap (leBytes w) ++ rest).take w = leBytes w v := by simp
    have next : ((v :: l).flatMap (leBytes w) ++ rest).drop w = l.flatMap (leBytes w) ++ rest := by simp
    rw [List.length_cons, chunkNats, here, next, ih, leNat_leBytes, List.map_cons]

theorem getList_eq_map {α : Type} [Inhabited α] [DecidableEq α] (t : Tab α) (a n : Nat) :
    Tab.getList t a n = (List.range n).map (fun i => Tab.get t (a + i)) := by
  induction n generalizing a with
  | zero => rfl
  | succ n ih =>
    rw [Tab.getList, ih, List.range_succ_eq_map]
    simp [Nat.add_assoc, Nat.add_comm 1]

theorem State.bytesAt_drop_take (s : State) (a : Nat) {i w n : Nat} (h : i + w ≤ n) : ((s.bytesAt a n).drop i).take w = s.bytesAt (a + i) w := by
  simp only [State.bytesAt, getList_eq_map]
  refine List.ext_getElem (by simp; omega) fun k h1 h2 => ?_
  simp [Nat.add_assoc]

/-- The words of a stretch of memory. -/
theorem State.chunkNats_bytesAt (s : State) (a : Nat) {w n m : Nat} (h : w * n ≤ m) :
    chunkNats w n (s.bytesAt a m) = (List.range n).map (fun k => s.natAt (a + w * k) w) := by
  rw [chunkNats_eq]
  refine List.map_congr_left fun k hk => ?_
  have fits : w * k + w ≤ m := Nat.le_trans (Nat.mul_succ w k ▸ Nat.mul_le_mul_left w (List.mem_range.mp hk)) h
  rw [s.bytesAt_drop_take a fits, State.natAt]

/-- A word written is the word read. -/
theorem State.natAt_written {u : State} {t : Tab Byte} {b w k : Nat} {l : List Nat} {rest : List Byte}
    (h : u.mem.bytes = Tab.setList t b (l.flatMap (leBytes w) ++ rest)) (hk : k < l.length) :
    u.natAt (b + w * k) w = l[k] % 256 ^ w := by
  have stored : u.bytesAt b (l.flatMap (leBytes w) ++ rest).length = l.flatMap (leBytes w) ++ rest := by
    rw [State.bytesAt, h, Tab.getList_setList_same]
  have fits : w * l.length ≤ (l.flatMap (leBytes w) ++ rest).length := by simp [List.length_flatMap, Nat.mul_comm w]
  have words := (u.chunkNats_bytesAt b fits).symm.trans (stored ▸ chunkNats_flatMap_leBytes w l rest)
  simpa [hk] using congrArg (·[k]?) words

/-! ### Reads (R163, R177, R178) -/

/-- A check without an alternative source repairs nothing (R178). -/
theorem State.check_bytes (s : State) {r : Reader} (hr : r.alt = none) (t : Nat) : (s.check r t).st.mem.bytes = s.mem.bytes := by
  have failed : (s.countFail r).mem = s.mem := by simp only [State.countFail]; split <;> rfl
  have poisoned : (s.countPoison r).mem = s.mem := by simp only [State.countPoison]; split <;> rfl
  have nowhere : (s.countFail r).counterpart r t = none := by simp only [State.counterpart, hr]
  simp only [State.check, nowhere]
  split
  · rw [poisoned]
  · split
    · rfl
    · exact (congrArg Mem.bytes failed : (s.countFail r).mem.bytes = s.mem.bytes)

theorem State.guardRead_bytes (s : State) (t : Nat) : (s.guardRead t).mem.bytes = s.mem.bytes := by
  simp only [State.guardRead]
  split
  · split <;> rfl
  · rfl

theorem State.reduceCheck_bytes (s : State) (r : Reader) (t : Nat) : (s.reduceCheck r t).st.mem.bytes = s.mem.bytes := by
  simp only [State.reduceCheck]
  split
  · split <;> rfl
  · rfl

theorem State.readPiece_bytes (s : State) {r : Reader} (hr : r.alt = none) (p : Piece) : (s.readPiece r p).st.mem.bytes = s.mem.bytes := by
  have guarded : ((s.touch p).guardRead (p.1 / 4096)).mem.bytes = s.mem.bytes := by rw [State.guardRead_bytes, State.touch_bytes]
  have poisoned (u : State) : (u.countPoison r).mem.bytes = u.mem.bytes := by simp only [State.countPoison]; split <;> rfl
  simp only [State.readPiece]
  split
  · rw [State.check_bytes _ hr, guarded]
  · split
    · split
      · rw [poisoned, State.bump_mem, guarded]
      · rw [State.bump_mem, guarded]
    · refine (State.check_bytes _ ?_ _).trans guarded
      exact hr

theorem State.readChecked_bytes (s : State) {r : Reader} (hr : r.alt = none) (p : Piece) : (s.readChecked r p).st.mem.bytes = s.mem.bytes := by
  simp only [State.readChecked]
  split
  · rw [State.reduceCheck_bytes, s.readPiece_bytes hr]
  · exact s.readPiece_bytes hr p

theorem State.readPieces_bytes (s : State) {r : Reader} (hr : r.alt = none) (l : List Piece) : (s.readPieces r l).st.mem.bytes = s.mem.bytes := by
  induction l generalizing s with
  | nil => rfl
  | cons p t ih =>
    simp only [State.readPieces]
    split
    · exact (ih _).trans (s.readChecked_bytes hr p)
    · exact s.readChecked_bytes hr p

/-- A read without an alternative source leaves every byte as it is. -/
theorem State.read_bytes (s : State) {r : Reader} (hr : r.alt = none) (a n : Nat) : (s.read r a n).st.mem.bytes = s.mem.bytes := by
  simp only [State.read]
  split
  · simp
  · rw [State.readPieces_bytes _ hr, State.waited_bytes]

/-! ### Ops that end (R308) -/

@[simp] theorem State.opRan_mem (s : State) (q : Nat) (o : Op) (c : Code) (reason addr : Nat) (hold : Bool) :
    (s.opRan q o c reason addr hold).mem = s.mem := rfl

/-- An op that has run on a state with the sequencers of `s` has ended. -/
theorem State.ended_opRan {s t : State} (h : t.seqs = s.seqs) (q : Nat) (o : Op) (c : Code) (reason addr : Nat) :
    s.ended (t.opRan q o c reason addr) q o c reason addr := by
  have same (j : Nat) : t.seq j = s.seq j := congrArg (Tab.get · j) h
  simp only [State.ended, State.opRan, State.seq_setSeq, if_true, same, true_and]
  intro j hj
  rw [if_neg hj]

theorem State.ended_opInvalid {s t : State} (h : t.seqs = s.seqs) (q n : Nat) (o : Op) (reason : Code) (tag : Nat) :
    s.ended (t.opInvalid q n o reason tag) q o .ARRAY_OP_INVALID (statusNumber reason) o.a :=
  State.ended_opRan (t := t.raise _ _ _) h q o _ _ _

theorem State.read_seqs (s : State) (r : Reader) (a n : Nat) : (s.read r a n).st.seqs = s.seqs :=
  (State.read_kept rfl (Kept.refl 6243 s)).seqs rfl

/-! ### The vector op (R311) -/

theorem State.updRun_eq (s : State) (i n seq : Nat) (f : LayerRun → LayerRun) : s.updRun i n seq f = { s with runs := (s.updRun i n seq f).runs } := by
  rw [State.updRun]
  split <;> rfl

theorem State.lateTrouble_eq (s : State) (b : VecBlock) (t : TensorRef) (seq : Nat) (ys : List (Option F32)) :
    s.lateTrouble b t seq ys = { s with runs := (s.lateTrouble b t seq ys).runs } := by
  simp only [State.lateTrouble]
  split
  · split
    · exact State.updRun_eq _ _ _ _ _
    · rfl
  · rfl

/-- A D_VEC whose block reads: refused where the block is reserved, performed otherwise. -/
theorem exec_dVecOp {s : State} {q : Nat} {o : Op} (hn : (s.seq q).next .dEng 0x15 = some o) {r : Rd}
    (hr : s.read (Reader.ofCore q) o.a 64 = r) (hok : r.code = .OK) (t : TensorRef) (seq : Nat) :
    exec (.dVecOp q t seq) s = .next (if (parseVecBlock s.loc r.bytes).invalid then r.st.opInvalid q 0 o .FORMAT_INVALID 0
      else r.st.vecOp q o (parseVecBlock s.loc r.bytes) t seq) := by
  show execDVecOp q t seq s = _
  simp only [execDVecOp, hn, hr, hok, ne_eq, not_true_eq_false, if_false]

/-- The state in which a vector op stores its result: a ROTATE has drawn its free values (log 42). -/
def State.drawn (s : State) (b : VecBlock) : State := if b.vop = 5 then { s with fresh := s.fresh + b.count } else s

theorem State.drawn_seqs (s : State) (b : VecBlock) : (s.drawn b).seqs = s.seqs := by
  rw [State.drawn]
  split <;> rfl

/-- A vector op whose inputs read stores its result, unless an encode meets an element that is not finite. -/
theorem State.vecOp_stores {s : State} {q : Nat} {b : VecBlock} {x : Rd} {ins : List (List Byte)}
    (hx : s.readAll (Reader.ofCore q) b.inputs = (x, ins)) (hok : x.code = .OK)
    (hfin : b.format < 2 ∨ nonfinite ((b.result x.st.fresh ins).map (·.getD 0#32)) = none) (o : Op) (t : TensorRef) (seq : Nat) :
    s.vecOp q o b t seq =
      let w := (x.st.drawn b).storeVec q b t (b.result x.st.fresh ins)
      (w.st.lateTrouble b t seq (b.result x.st.fresh ins)).opRan q o w.code 0 w.addr := by
  have delivered : (if 2 ≤ b.format then nonfinite ((b.result x.st.fresh ins).map (·.getD 0#32)) else none) = none := by
    rcases hfin with hraw | hfin
    · exact if_neg (Nat.not_le.mpr hraw)
    · rw [hfin, ite_self]
  simp only [State.vecOp, hx, hok, delivered, ne_eq, not_true_eq_false, if_false]
  rfl

theorem State.storeVec_seqs (s : State) (q : Nat) (b : VecBlock) (t : TensorRef) (ys : List (Option F32)) : (s.storeVec q b t ys).st.seqs = s.seqs :=
  (State.storeVec_kept rfl (Kept.refl 6243 s)).seqs rfl

theorem exec_dVecOp_reserved {s : State} {q : Nat} {o : Op} (hn : (s.seq q).next .dEng 0x15 = some o) {r : Rd}
    (hr : s.read (Reader.ofCore q) o.a 64 = r) (hok : r.code = .OK) (hbad : (parseVecBlock s.loc r.bytes).invalid = true) (t : TensorRef) (seq : Nat) :
    ∃ u : State, exec (.dVecOp q t seq) s = .next u
      ∧ s.ended u q o .ARRAY_OP_INVALID (statusNumber .FORMAT_INVALID) o.a ∧ u.mem.bytes = s.mem.bytes := by
  refine ⟨_, (exec_dVecOp hn hr hok t seq).trans (by rw [if_pos hbad]), State.ended_opInvalid ?_ q 0 o .FORMAT_INVALID 0, ?_⟩
  · exact hr ▸ s.read_seqs _ _ _
  · exact hr ▸ s.read_bytes rfl o.a 64

theorem exec_dVecOp_stores {s : State} {q : Nat} {o : Op} (hn : (s.seq q).next .dEng 0x15 = some o) {r : Rd}
    (hr : s.read (Reader.ofCore q) o.a 64 = r) (hok : r.code = .OK) {b : VecBlock} (hb : parseVecBlock s.loc r.bytes = b) (hgood : b.invalid = false)
    {x : Rd} {ins : List (List Byte)} (hx : r.st.readAll (Reader.ofCore q) b.inputs = (x, ins)) (hxok : x.code = .OK)
    (hfin : b.format < 2 ∨ nonfinite ((b.result x.st.fresh ins).map (·.getD 0#32)) = none) (t : TensorRef) (seq : Nat) {w : Wr}
    (hw : (x.st.drawn b).storeVec q b t (b.result x.st.fresh ins) = w) :
    ∃ u : State, exec (.dVecOp q t seq) s = .next u ∧ s.ended u q o w.code 0 w.addr ∧ u.mem = w.st.mem := by
  have run := exec_dVecOp hn hr hok t seq
  rw [hb, hgood, if_neg Bool.false_ne_true, State.vecOp_stores hx hxok hfin, hw] at run
  have block : Kept 6243 s r.st := hr ▸ State.read_kept rfl (Kept.refl 6243 s)
  have read : Kept 6243 s x.st := kept_fst_Rd hx (State.readAll_kept rfl block)
  have stored : w.st.seqs = s.seqs := by rw [← hw, State.storeVec_seqs, State.drawn_seqs, read.seqs rfl]
  refine ⟨_, run, State.ended_opRan ?_ q o w.code 0 w.addr, ?_⟩
  · rw [State.lateTrouble_eq, ← stored]
  · rw [State.opRan_mem, State.lateTrouble_eq]

/-- ADD and MUL are element by element. -/
theorem VecBlock.result_elementwise {b : VecBlock} (h : b.vop = 1 ∨ b.vop = 2) (fresh : Nat) (ins : List (List Byte)) {i : Nat} (hi : i < b.count) :
    (b.result fresh ins).getD i none = some ((if b.vop = 1 then F32.add else F32.mul)
      ((f32s b.count (ins.getD 0 [])).getD i 0#32) ((f32s b.count (ins.getD 1 [])).getD i 0#32)) := by
  have h0 : i < (f32s b.count (ins.getD 0 [])).length := by rwa [length_f32s]
  have h1 : i < (f32s b.count (ins.getD 1 [])).length := by rwa [length_f32s]
  rcases h with h | h
  all_goals
    rw [List.getD_eq_getElem _ _ h0, List.getD_eq_getElem _ _ h1]
    simp [VecBlock.result, h, hi]

/-! ### Whole tiles (R172, R176, R177) -/

@[simp] theorem State.reach_touch (s : State) (p : Piece) (a : Nat) : (s.touch p).reach a = s.reach a := by rw [State.touch_eq]; rfl
@[simp] theorem State.reach_waited (s : State) (src : Src) (b a : Nat) : (s.waited src b).reach a = s.reach a := by rw [State.waited_eq]; rfl
@[simp] theorem State.tile_touch (s : State) (p : Piece) (t : Nat) : (s.touch p).tile t = s.tile t := by rw [State.tile, State.touch_tiles]; rfl
@[simp] theorem State.tile_waited (s : State) (src : Src) (b t : Nat) : (s.waited src b).tile t = s.tile t := by
  rw [State.tile, State.waited_tiles]; rfl

@[simp] theorem State.atomAt_touch (s : State) (p : Piece) (a : Nat) : (s.touch p).atomAt a = s.atomAt a := by
  rw [State.atomAt, State.touch_atoms]; rfl
@[simp] theorem State.atomAt_waited (s : State) (src : Src) (b a : Nat) : (s.waited src b).atomAt a = s.atomAt a := by
  rw [State.atomAt, State.waited_atoms]; rfl

/-- The pieces of one whole tile. -/
theorem piecesOf_tile {a : Nat} (ha : a % 4096 = 0) : piecesOf a 4096 = [(a, 4096)] := by
  simp [piecesOf, pieces, ha]

theorem State.blocked_eq_none_iff (s : State) (l : List Piece) : s.blocked l = none ↔ ∀ p ∈ l, s.reach p.1 = .OK := by
  induction l with
  | nil => simp [State.blocked]
  | cons p l ih =>
    rw [State.blocked, List.forall_mem_cons, ← ih]
    split <;> simp_all

/-- The state after a good whole tile has been read: time has passed and its rows are open. -/
def State.tileRead (s : State) (src : Src) (a : Nat) : State := (s.waited src a).touch (a, 4096)

@[simp] theorem State.tileRead_bytes (s : State) (src : Src) (a : Nat) : (s.tileRead src a).mem.bytes = s.mem.bytes := by simp [State.tileRead]
@[simp] theorem State.atomAt_tileRead (s : State) (src : Src) (a b : Nat) : (s.tileRead src a).atomAt b = s.atomAt b := by simp [State.tileRead]
@[simp] theorem State.tile_tileRead (s : State) (src : Src) (a t : Nat) : (s.tileRead src a).tile t = s.tile t := by simp [State.tileRead]
@[simp] theorem State.reach_tileRead (s : State) (src : Src) (a b : Nat) : (s.tileRead src a).reach b = s.reach b := by simp [State.tileRead]
@[simp] theorem State.natAt_tileRead (s : State) (src : Src) (a b n : Nat) : (s.tileRead src a).natAt b n = s.natAt b n := by
  simp [State.natAt, State.bytesAt]

theorem State.tileRead_seqs (s : State) (src : Src) (a : Nat) : (s.tileRead src a).seqs = s.seqs :=
  (State.touch_kept rfl (State.waited_kept rfl (Kept.refl 4099 s))).seqs rfl

/-- A tile that can be reached, checks good and is no atomic target. -/
structure State.GoodTile (s : State) (a : Nat) : Prop where
  aligned : a % 4096 = 0
  reach : s.reach a = .OK
  unpoisoned : (s.tile (a / 4096)).poisoned = false
  crc : (s.tile (a / 4096)).syndrome = 0
  ordinary : (s.tile (a / 4096)).atomic = false
  unowned : s.atomAt a = none

theorem State.GoodTile.tileRead {s : State} {a : Nat} (h : s.GoodTile a) (src : Src) (b : Nat) : (s.tileRead src b).GoodTile a where
  aligned := h.aligned
  reach := by rw [State.reach_tileRead, h.reach]
  unpoisoned := by rw [State.tile_tileRead, h.unpoisoned]
  crc := by rw [State.tile_tileRead, h.crc]
  ordinary := by rw [State.tile_tileRead, h.ordinary]
  unowned := by rw [State.atomAt_tileRead, h.unowned]

theorem State.guardRead_ordinary {s : State} {t : Nat} (h : (s.tile t).atomic = false) : s.guardRead t = s := by
  simp only [State.guardRead, h, Bool.false_and, Bool.false_eq_true, if_false]
  split <;> rfl

theorem State.check_good {s : State} {t : Nat} (hp : (s.tile t).poisoned = false) (hs : (s.tile t).syndrome = 0) (r : Reader) :
    s.check r t = { st := s } := by
  simp [State.check, hp, hs]

theorem State.readChecked_goodTile {s : State} {a : Nat} (h : s.GoodTile a) (r : Reader) :
    s.readChecked r (a, 4096) = { st := s.touch (a, 4096) } := by
  have place : 4096 * (a / 4096) = a := by have := h.aligned; omega
  have whole : s.readPiece r (a, 4096) = { st := s.touch (a, 4096) } := by
    rw [State.readPiece, if_pos rfl, State.guardRead_ordinary (by rw [State.tile_touch, h.ordinary]),
      State.check_good (by rw [State.tile_touch, h.unpoisoned]) (by rw [State.tile_touch, h.crc])]
  have free : (s.touch (a, 4096)).atomAt (4096 * (a / 4096)) = none := by rw [State.atomAt_touch, place, h.unowned]
  simp [State.readChecked, whole, State.reduceCheck, free]

theorem State.read_goodTile {s : State} {a : Nat} (h : s.GoodTile a) (r : Reader) :
    s.read r a 4096 = { st := s.tileRead r.src a, bytes := s.bytesAt a 4096 } := by
  have free : s.blocked [(a, 4096)] = none := (s.blocked_eq_none_iff _).mpr (by simpa using h.reach)
  have waiting : (s.waited r.src a).GoodTile a := by
    refine ⟨h.aligned, ?_, ?_, ?_, ?_, ?_⟩ <;> simp [h.reach, h.unpoisoned, h.crc, h.ordinary, h.unowned]
  simp [State.read, piecesOf_tile h.aligned, free, State.readPieces, State.readChecked_goodTile waiting, State.tileRead, State.bytesAt]

/-- Two good tiles read one after the other. -/
theorem State.readAll_goodTiles {s : State} {a b : Nat} (ha : s.GoodTile a) (hb : s.GoodTile b) (r : Reader) :
    s.readAll r [(a, 4096), (b, 4096)] =
      ({ st := (s.tileRead r.src a).tileRead r.src b }, [s.bytesAt a 4096, s.bytesAt b 4096]) := by
  simp [State.readAll, State.read_goodTile ha, State.read_goodTile (State.GoodTile.tileRead hb r.src a), State.bytesAt]

/-- A write of one whole tile. -/
theorem State.write_tile {s : State} {b : Nat} {bs : List Byte} (hb : b % 4096 = 0) (hr : s.reach b = .OK) (hlen : bs.length = 4096)
    (src : Src) (st : Tile) : s.write src st b bs = { st := (s.waited src b).writePiece st b bs } := by
  have free : s.blocked [(b, 4096)] = none := (s.blocked_eq_none_iff _).mpr (by simpa using hr)
  simp [State.write, hlen, piecesOf_tile hb, free, State.writePieces, List.take_of_length_le]

theorem State.writePiece_bytes (s : State) (st : Tile) (b : Nat) (bs : List Byte) :
    (s.writePiece st b bs).mem.bytes = Tab.setList s.mem.bytes b bs := by
  simp only [State.writePiece]
  split <;> simp [State.setTile, State.putBytes]

theorem State.tile_writePiece {s : State} {b : Nat} {bs : List Byte} (hb : b % 4096 = 0) (hlen : bs.length = 4096) (st : Tile) :
    (s.writePiece st b bs).tile (b / 4096) = Tile.written (s.tile (b / 4096)) st := by
  have put : (((s.touch (b, bs.length)).putBytes b bs).tile (b / 4096)) = s.tile (b / 4096) := State.tile_touch s _ _
  rw [State.writePiece, if_pos ⟨hlen, hb⟩, State.tile_setTile, if_pos rfl, put]

/-! ### PSUM_ADD (R58, R186) -/

theorem State.psumBad_eq_false {s : State} {a : Nat} (h : s.psumBad a = false) : a % 4096 = 0 ∧ (s.tile (a / 4096)).atomic = false := by
  simp only [State.psumBad, Bool.or_eq_false_iff, bne_eq_false_iff_eq] at h
  exact ⟨h.2, h.1.2⟩

/-- An operand that PSUM_ADD does not refuse, that can be reached and is plain, is a good tile. -/
theorem State.goodTile_of_plain {s : State} {a : Nat} (hbad : s.psumBad a = false) (hr : s.reach a = .OK) (hp : s.plain a 4096) : s.GoodTile a := by
  obtain ⟨aligned, ordinary⟩ := State.psumBad_eq_false hbad
  have place : 4096 * (a / 4096) = a := by omega
  obtain ⟨unpoisoned, crc, unowned⟩ := hp (a / 4096) le_rfl (by omega)
  exact ⟨aligned, hr, unpoisoned, crc, ordinary, place ▸ unowned⟩

theorem exec_psumAddOp_held {s : State} {q : Nat} {o : Op} (hn : (s.seq q).next .dEng 0x16 = some o) (hh : s.heldAt q o.a = true) :
    exec (.psumAddOp q) s = .next s := by
  show execPsumAddOp q s = _
  simp only [execPsumAddOp, hn, hh, if_true]

theorem exec_psumAddOp_bad {s : State} {q : Nat} {o : Op} (hn : (s.seq q).next .dEng 0x16 = some o) (hh : s.heldAt q o.a = false)
    (hbad : s.psumBad o.a = true ∨ s.psumBad o.b = true) : exec (.psumAddOp q) s = .next (s.opRan q o .PSUM_FORMAT 0 o.a) := by
  have bad : (s.psumBad o.a || s.psumBad o.b) = true := Bool.or_eq_true_iff.mpr hbad
  show execPsumAddOp q s = _
  simp only [execPsumAddOp, hn, hh, bad, if_true, Bool.false_eq_true, if_false]

theorem exec_psumAddOp_adds {s : State} {q : Nat} {o : Op} (hn : (s.seq q).next .dEng 0x16 = some o) (hh : s.heldAt q o.a = false)
    (hbadA : s.psumBad o.a = false) (hbadB : s.psumBad o.b = false) (ha : s.GoodTile o.a) (hb : s.GoodTile o.b) :
    exec (.psumAddOp q) s = .next (
      let x := ((s.tileRead (Src.ofCore q) o.a).tileRead (Src.ofCore q) o.b).psumAdd q o.a o.b
      (x.1.st.psumTrouble x.2 o.a).opRan q o x.1.code 0 x.1.addr) := by
  show execPsumAddOp q s = _
  simp only [execPsumAddOp, hn, hh, hbadA, hbadB, State.readAll_goodTiles ha hb, Bool.or_self, Bool.false_eq_true, if_false, ne_eq, not_true_eq_false]
  rfl

theorem State.psumTrouble_eq (s : State) (mask a : Nat) : s.psumTrouble mask a = { s with runs := (s.psumTrouble mask a).runs } := by
  rw [State.psumTrouble]
  split <;> rfl

/-- The sums of two partial tiles, word by word of `w` bytes. -/
def State.psums (s : State) (w a b : Nat) : List Int :=
  (List.range 512).map (fun k => signed (8 * w) (s.natAt (a + w * k) w) + signed (8 * w) (s.natAt (b + w * k) w))

@[simp] theorem State.length_psums (s : State) (w a b : Nat) : (s.psums w a b).length = 512 := by simp [State.psums]

theorem State.getElem_psums (s : State) (w a b : Nat) {k : Nat} (hk : k < (s.psums w a b).length) :
    (s.psums w a b)[k] = signed (8 * w) (s.natAt (a + w * k) w) + signed (8 * w) (s.natAt (b + w * k) w) := by
  simp [State.psums]

/-- Some sum has a property. -/
theorem State.any_psums (s : State) (w a b : Nat) (p : Int → Bool) : (s.psums w a b).any p = true ↔
    ∃ k, k < 512 ∧ p (signed (8 * w) (s.natAt (a + w * k) w) + signed (8 * w) (s.natAt (b + w * k) w)) = true := by
  simp only [State.psums, List.any_map, List.any_eq_true, List.mem_range, Function.comp_apply]

theorem not_fitsInt_64 (x : Int) : (!fitsInt 64 x) = true ↔ x < -2 ^ 63 ∨ 2 ^ 63 ≤ x := by
  simp [fitsInt]

theorem not_fitsInt_32 (x : Int) : (!fitsInt 32 x) = true ↔ x < -2147483648 ∨ 2147483647 < x := by
  simp [fitsInt]
  omega

/-- The words of two tiles read and added pair by pair are the sums. -/
theorem State.zip_words_eq_psums (s : State) (a b : Nat) {w m : Nat} (h : w * 512 ≤ m) :
    ((chunkNats w 512 (s.bytesAt a m)).zip (chunkNats w 512 (s.bytesAt b m))).map (fun p => signed (8 * w) p.1 + signed (8 * w) p.2) = s.psums w a b := by
  rw [s.chunkNats_bytesAt a h, s.chunkNats_bytesAt b h, List.zip_map', List.map_map]
  rfl

/-- The sums as the words of `w` bytes that a target takes. -/
def sumWords (w : Nat) (l : List Int) : List Byte := l.flatMap (fun x => leBytes w (encodeInt (8 * w) x))

/-- The status of the sum of two partial tiles before its own overflow or saturation: what either carries. -/
def eitherStatus (x y : Tile) : Tile := { overflow := x.overflow || y.overflow, sat := x.sat || y.sat }

/-- Two FX64 partials are added modulo 2^64. -/
theorem State.psumAdd_fx64 {s : State} {a b : Nat} (hx : (s.tile (a / 4096)).format = 1) (hy : (s.tile (b / 4096)).format = 1)
    (ha : a % 4096 = 0) (hb : b % 4096 = 0) (q : Nat) :
    ∃ m, s.psumAdd q a b = (s.write (Src.ofCore q)
      { eitherStatus (s.tile (a / 4096)) (s.tile (b / 4096)) with
        format := 1
        overflow := (eitherStatus (s.tile (a / 4096)) (s.tile (b / 4096))).overflow || (s.psums 8 a b).any (fun w => !fitsInt 64 w) }
      b (sumWords 8 (s.psums 8 a b)), m) := by
  have placeA : 4096 * (a / 4096) = a := by omega
  have placeB : 4096 * (b / 4096) = b := by omega
  have words : ((s.partialWords (a / 4096)).zip (s.partialWords (b / 4096))).map (fun p => p.1 + p.2) = s.psums 8 a b := by
    rw [← s.zip_words_eq_psums a b (m := 4096) (by decide)]
    simp [State.partialWords, hx, hy, placeA, placeB, List.zip_map, Function.comp_def]
  simp only [State.psumAdd, hx, hy, words]
  exact ⟨_, rfl⟩

/-- Two I32 partials of one K are added and limited to int32. -/
theorem State.psumAdd_i32 {s : State} {a b : Nat} (hx : (s.tile (a / 4096)).format = 2) (hy : (s.tile (b / 4096)).format = 2)
    (hk : (s.tile (a / 4096)).k = (s.tile (b / 4096)).k) (q : Nat) :
    ∃ m, s.psumAdd q a b = (s.write (Src.ofCore q)
      { eitherStatus (s.tile (a / 4096)) (s.tile (b / 4096)) with
        format := 2, k := (s.tile (a / 4096)).k
        sat := (eitherStatus (s.tile (a / 4096)) (s.tile (b / 4096))).sat || (s.psums 4 a b).any (fun w => !fitsInt 32 w) }
      b (sumWords 4 ((s.psums 4 a b).map (clampInt (-2147483648) 2147483647)) ++ leBytes 2048 0), m) := by
  have words := s.zip_words_eq_psums a b (w := 4) (m := 2048) (by decide)
  simp only [State.psumAdd, hx, hy, hk, and_self, if_true, words, sumWords, List.flatMap_map]
  exact ⟨_, rfl⟩

theorem length_sumWords (w : Nat) (l : List Int) : (sumWords w l).length = w * l.length := by
  simp [sumWords, List.length_flatMap, Nat.mul_comm w]

/-- A target's words as numbers. -/
theorem State.signed_natAt_sumWords {u : State} {t : Tab Byte} {b w k : Nat} {l : List Int} {rest : List Byte} (hw : 0 < w)
    (h : u.mem.bytes = Tab.setList t b (sumWords w l ++ rest)) (hk : k < l.length) :
    signed (8 * w) (u.natAt (b + w * k) w) = l[k].bmod (2 ^ (8 * w)) := by
  rw [sumWords, ← List.flatMap_map] at h
  have code := encodeInt_lt (8 * w) l[k]
  rw [Nat.pow_mul] at code
  rw [State.natAt_written h (by simpa using hk), List.getElem_map, Nat.mod_eq_of_lt code, signed_encodeInt (by omega)]

/-- PSUM_ADD of two good tiles writes its target whole and ends OK. -/
theorem exec_psumAddOp_writes {s : State} {q : Nat} {o : Op} {st : Tile} {bs : List Byte} {m : Nat} (hn : (s.seq q).next .dEng 0x16 = some o)
    (hh : s.heldAt q o.a = false) (hbadA : s.psumBad o.a = false) (hbadB : s.psumBad o.b = false) (ha : s.GoodTile o.a) (hb : s.GoodTile o.b)
    (hadd : ((s.tileRead (Src.ofCore q) o.a).tileRead (Src.ofCore q) o.b).psumAdd q o.a o.b
      = (((s.tileRead (Src.ofCore q) o.a).tileRead (Src.ofCore q) o.b).write (Src.ofCore q) st o.b bs, m)) (hlen : bs.length = 4096) :
    ∃ u : State, exec (.psumAddOp q) s = .next u ∧ s.ended u q o .OK 0 0 ∧ u.mem.bytes = Tab.setList s.mem.bytes o.b bs
      ∧ u.tile (o.b / 4096) = Tile.written (s.tile (o.b / 4096)) st := by
  have reached : ((s.tileRead (Src.ofCore q) o.a).tileRead (Src.ofCore q) o.b).reach o.b = .OK := by simp [hb.reach]
  have hx := exec_psumAddOp_adds hn hh hbadA hbadB ha hb
  rw [hadd, State.write_tile hb.aligned reached hlen] at hx
  refine ⟨_, hx, State.ended_opRan ?seqs q o .OK 0 0, ?bytes, ?tile⟩
  case seqs =>
    rw [State.psumTrouble_eq]
    refine ((State.writePiece_kept rfl (State.waited_kept rfl (Kept.refl 6243 _))).seqs rfl).trans ?_
    rw [State.tileRead_seqs, State.tileRead_seqs]
  case bytes =>
    rw [State.opRan_mem, State.psumTrouble_eq]
    simp [State.writePiece_bytes]
  case tile =>
    rw [State.tile, State.opRan_mem, State.psumTrouble_eq]
    refine (State.tile_writePiece hb.aligned hlen st).trans ?_
    simp

/-- Two plain FX64 partials: each word is the sum modulo 2^64, and OVERFLOW says where one did not fit. -/
theorem exec_psumAddOp_fx64 {s : State} {q : Nat} {o : Op} (hn : (s.seq q).next .dEng 0x16 = some o) (hh : s.heldAt q o.a = false)
    (hbadA : s.psumBad o.a = false) (hbadB : s.psumBad o.b = false) (ha : s.GoodTile o.a) (hb : s.GoodTile o.b)
    (hx : (s.tile (o.a / 4096)).format = 1) (hy : (s.tile (o.b / 4096)).format = 1) :
    ∃ u : State, exec (.psumAddOp q) s = .next u ∧ s.ended u q o .OK 0 0
      ∧ u.mem.bytes = Tab.setList s.mem.bytes o.b (sumWords 8 (s.psums 8 o.a o.b))
      ∧ (u.tile (o.b / 4096)).format = 1
      ∧ (u.tile (o.b / 4096)).overflow = ((s.tile (o.a / 4096)).overflow || (s.tile (o.b / 4096)).overflow
          || (s.psums 8 o.a o.b).any (fun x => !fitsInt 64 x)) := by
  have sameSums : ((s.tileRead (Src.ofCore q) o.a).tileRead (Src.ofCore q) o.b).psums 8 o.a o.b = s.psums 8 o.a o.b := by simp [State.psums]
  obtain ⟨m, hadd⟩ := State.psumAdd_fx64 (s := (s.tileRead (Src.ofCore q) o.a).tileRead (Src.ofCore q) o.b) (by simpa using hx) (by simpa using hy)
    ha.aligned hb.aligned q
  rw [sameSums, State.tile_tileRead, State.tile_tileRead, State.tile_tileRead, State.tile_tileRead] at hadd
  obtain ⟨u, hu, hend, hbytes, htile⟩ := exec_psumAddOp_writes hn hh hbadA hbadB ha hb hadd (by simp [length_sumWords])
  exact ⟨u, hu, hend, hbytes, by rw [htile]; rfl, by rw [htile]; rfl⟩

/-- Two plain I32 partials of one K: each word is the sum limited to int32, and SAT says where one did not fit. -/
theorem exec_psumAddOp_i32 {s : State} {q : Nat} {o : Op} (hn : (s.seq q).next .dEng 0x16 = some o) (hh : s.heldAt q o.a = false)
    (hbadA : s.psumBad o.a = false) (hbadB : s.psumBad o.b = false) (ha : s.GoodTile o.a) (hb : s.GoodTile o.b)
    (hx : (s.tile (o.a / 4096)).format = 2) (hy : (s.tile (o.b / 4096)).format = 2) (hk : (s.tile (o.a / 4096)).k = (s.tile (o.b / 4096)).k) :
    ∃ u : State, exec (.psumAddOp q) s = .next u ∧ s.ended u q o .OK 0 0
      ∧ u.mem.bytes = Tab.setList s.mem.bytes o.b (sumWords 4 ((s.psums 4 o.a o.b).map (clampInt (-2147483648) 2147483647)) ++ leBytes 2048 0)
      ∧ (u.tile (o.b / 4096)).format = 2 ∧ (u.tile (o.b / 4096)).k = (s.tile (o.a / 4096)).k
      ∧ (u.tile (o.b / 4096)).sat = ((s.tile (o.a / 4096)).sat || (s.tile (o.b / 4096)).sat || (s.psums 4 o.a o.b).any (fun x => !fitsInt 32 x)) := by
  have sameSums : ((s.tileRead (Src.ofCore q) o.a).tileRead (Src.ofCore q) o.b).psums 4 o.a o.b = s.psums 4 o.a o.b := by simp [State.psums]
  obtain ⟨m, hadd⟩ := State.psumAdd_i32 (s := (s.tileRead (Src.ofCore q) o.a).tileRead (Src.ofCore q) o.b) (by simpa using hx) (by simpa using hy)
    (by simpa using hk) q
  rw [sameSums, State.tile_tileRead, State.tile_tileRead, State.tile_tileRead, State.tile_tileRead] at hadd
  obtain ⟨u, hu, hend, hbytes, htile⟩ := exec_psumAddOp_writes hn hh hbadA hbadB ha hb hadd (by simp [length_sumWords])
  exact ⟨u, hu, hend, hbytes, by rw [htile]; rfl, by rw [htile]; rfl, by rw [htile]; rfl⟩

theorem bmod_two_pow_64 (x : Int) : x.bmod (2 ^ 64) = (x + 2 ^ 63) % 2 ^ 64 - 2 ^ 63 := by
  simp only [Int.bmod]
  omega

theorem bmod_clampInt_32 (x : Int) : (clampInt (-2147483648) 2147483647 x).bmod (2 ^ 32) = max (-2147483648) (min 2147483647 x) := by
  rw [clampInt_eq _ _ _ (by decide), Int.bmod]
  omega

/-! ### KV_APPEND (R207, R211, R212) -/

theorem exec_kvAppendOp_slotRange {s : State} {q : Nat} {o : Op} (hn : (s.seq q).next .dEng 0x17 = some o) {r : Rd}
    (hr : s.read (Reader.ofCore q) o.a 32 = r) (hok : r.code = .OK) {b : AppendBlock} (hb : parseAppend s.loc r.bytes = b)
    (h : (s.table b.seq).pages.length * 256 < b.base + b.w) :
    exec (.kvAppendOp q) s = .next (r.st.opRan q o .KV_SLOT_RANGE 0 o.a) := by
  show execKvAppendOp q s = _
  simp only [execKvAppendOp, hn, hr, hok, hb, h, ne_eq, not_true_eq_false, if_false, if_true]

theorem exec_kvAppendOp_overwrite {s : State} {q : Nat} {o : Op} (hn : (s.seq q).next .dEng 0x17 = some o) {r : Rd}
    (hr : s.read (Reader.ofCore q) o.a 32 = r) (hok : r.code = .OK) {b : AppendBlock} (hb : parseAppend s.loc r.bytes = b)
    (hfit : b.base + b.w ≤ (s.table b.seq).pages.length * 256) (h : b.base < s.snapLength b.seq) :
    exec (.kvAppendOp q) s = .next (r.st.opRan q o .KV_OVERWRITE 0 o.a) := by
  show execKvAppendOp q s = _
  simp only [execKvAppendOp, hn, hr, hok, hb, Nat.not_lt.mpr hfit, h, ne_eq, not_true_eq_false, if_false, if_true]

/-- A KV_APPEND whose block reads and that no check refuses appends the K and V vectors it reads. -/
theorem exec_kvAppendOp_appends {s : State} {q : Nat} {o : Op} (hn : (s.seq q).next .dEng 0x17 = some o) {r : Rd}
    (hr : s.read (Reader.ofCore q) o.a 32 = r) (hok : r.code = .OK) {b : AppendBlock} (hb : parseAppend s.loc r.bytes = b)
    (hfit : b.base + b.w ≤ (s.table b.seq).pages.length * 256) (hnew : s.snapLength b.seq ≤ b.base) {g : Image} {h : ImageHead}
    (hhead : s.headOf b.seq b.layer b.head = some (g, h)) {x : Rd} {ins : List (List Byte)}
    (hx : r.st.readAll (Reader.ofCore q) [(b.k, 4 * (32 * h.width * b.w)), (b.v, 4 * (32 * h.width * b.w))] = (x, ins)) (hxok : x.code = .OK) :
    exec (.kvAppendOp q) s = .next (x.st.append q o b g h (f32s (32 * h.width * b.w) (ins.getD 0 [])) (f32s (32 * h.width * b.w) (ins.getD 1 []))) := by
  show execKvAppendOp q s = _
  simp only [execKvAppendOp, hn, hr, hok, hb, Nat.not_lt.mpr hfit, Nat.not_lt.mpr hnew, hhead, hx, hxok, ne_eq, not_true_eq_false, if_false]

/-- One token whose elements are finite and whose blocks hold their range is written at its place. -/
theorem State.append_one {s : State} {q : Nat} {o : Op} {b : AppendBlock} {g : Image} {h : ImageHead} {ks vs : List F32} {e : PagePlace}
    (hw : b.w = 1) (hk : ks.length = 32 * h.width) (hv : vs.length = 32 * h.width) (hfin : nonfinite (ks ++ vs) = none)
    (hrange : ∀ y ∈ encodeKv g.kv4 (scaled h.skv ks) ++ encodeKv g.kv4 (scaled h.skv vs), y.range = false)
    (hplace : s.place b.seq (b.base / 256) g h = .ok e) :
    s.append q o b g h ks vs =
      let w := s.writeEntry q g.kv4 e (b.base % 256) (encodeKv g.kv4 (scaled h.skv ks)) (encodeKv g.kv4 (scaled h.skv vs))
      w.st.opRan q o w.code 0 w.addr := by
  have inRange : (encodeKv g.kv4 (scaled h.skv ks)).any (·.range) = false ∧ (encodeKv g.kv4 (scaled h.skv vs)).any (·.range) = false := by
    simpa only [List.any_eq_false, Bool.not_eq_true, List.forall_mem_append] using hrange
  simp [State.append, hfin, hw, ← hk, hv.trans hk.symm ▸ List.take_length (l := vs), inRange, hplace, List.take_of_length_le]

/-- A read leaves the pages of every sequence where they are. -/
theorem State.place_kept {s t : State} (h : Kept 6243 s t) (i p : Nat) (g : Image) (x : ImageHead) : t.place i p g x = s.place i p g x := by
  have tables : t.tables = s.tables := h.only .tables rfl
  have pools : t.pools = s.pools := h.only .pools rfl
  have live : t.live = s.live := h.only .live rfl
  simp only [State.place, State.table, State.pool, State.frameElems, State.frameExps, State.frameSize, State.poolKv4, State.fld, State.cfg,
    tables, pools, live] <;> rfl

/-- A KV_APPEND of one token writes its entry at its place and ends with the write's status. -/
theorem exec_kvAppendOp_one {s : State} {q : Nat} {o : Op} (hn : (s.seq q).next .dEng 0x17 = some o) {r : Rd}
    (hr : s.read (Reader.ofCore q) o.a 32 = r) (hok : r.code = .OK) {b : AppendBlock} (hb : parseAppend s.loc r.bytes = b)
    (hfit : b.base + b.w ≤ (s.table b.seq).pages.length * 256) (hnew : s.snapLength b.seq ≤ b.base) (hone : b.w = 1) {g : Image} {h : ImageHead}
    (hhead : s.headOf b.seq b.layer b.head = some (g, h)) {x : Rd} {ins : List (List Byte)}
    (hx : r.st.readAll (Reader.ofCore q) [(b.k, 4 * (32 * h.width)), (b.v, 4 * (32 * h.width))] = (x, ins)) (hxok : x.code = .OK)
    {e : PagePlace} (hplace : s.place b.seq (b.base / 256) g h = .ok e) {ks vs : List F32} (hks : f32s (32 * h.width) (ins.getD 0 []) = ks)
    (hvs : f32s (32 * h.width) (ins.getD 1 []) = vs) (hfin : nonfinite (ks ++ vs) = none)
    (hrange : ∀ y ∈ encodeKv g.kv4 (scaled h.skv ks) ++ encodeKv g.kv4 (scaled h.skv vs), y.range = false) {w : Wr}
    (hw : x.st.writeEntry q g.kv4 e (b.base % 256) (encodeKv g.kv4 (scaled h.skv ks)) (encodeKv g.kv4 (scaled h.skv vs)) = w) :
    ∃ u : State, exec (.kvAppendOp q) s = .next u ∧ s.ended u q o w.code 0 w.addr ∧ u.mem = w.st.mem := by
  have block : Kept 6243 s r.st := hr ▸ State.read_kept rfl (Kept.refl 6243 s)
  have read : Kept 6243 s x.st := kept_fst_Rd hx (State.readAll_kept rfl block)
  have written : Kept 6243 s w.st := hw ▸ State.writeEntry_kept rfl read
  have run := exec_kvAppendOp_appends hn hr hok hb hfit hnew hhead (by rw [hone, Nat.mul_one]; exact hx) hxok
  rw [hone, Nat.mul_one, hks, hvs, State.append_one hone (hks ▸ length_f32s _ _) (hvs ▸ length_f32s _ _) hfin hrange
    ((State.place_kept read _ _ g h).trans hplace), hw] at run
  exact ⟨_, run, State.ended_opRan (written.seqs rfl) q o w.code 0 w.addr, rfl⟩

/-- Settles O43: each op is its own case; the sums of PSUM_ADD are read back from the words written. -/
theorem vectorPartialAndAppendOps : Obligations.VectorPartialAndAppendOps := by
  intro s q o
  refine ⟨fun hn r b hr hok hb t seq => ⟨fun hbad => ?reserved, fun hgood x ins hx hxok => ⟨fun hfin => ?stored, fun hop i hi => ?elements⟩⟩,
    fun hn => ⟨fun hh => exec_psumAddOp_held hn hh, fun hh hbad => ?notPartial, fun hh hbadA hbadB hfree hpa hpb => ?sums⟩,
    fun hn r b hr hok hb => ⟨fun hpast => ?slotRange, fun hfit hold => ?overwrite,
      fun hfit hnew hone g h x ins e hhead hx hxok hplace => ?appended⟩⟩
  case reserved => exact exec_dVecOp_reserved hn hr hok (hb ▸ hbad) t seq
  case stored => exact exec_dVecOp_stores hn hr hok hb hgood hx hxok hfin t seq rfl
  case elements => exact b.result_elementwise hop x.st.fresh ins hi
  case notPartial => exact ⟨_, exec_psumAddOp_bad hn hh hbad, State.ended_opRan rfl q o _ 0 _, rfl⟩
  case sums =>
    have reached := (s.blocked_eq_none_iff _).mp hfree
    have ha := State.goodTile_of_plain hbadA (reached (o.a, 4096) (by simp)) hpa
    have hb := State.goodTile_of_plain hbadB (reached (o.b, 4096) (by simp)) hpb
    refine ⟨fun hx hy => ?fx64, fun hx hy hk => ?i32⟩
    case fx64 =>
      obtain ⟨u, hu, hend, hbytes, hformat, hover⟩ := exec_psumAddOp_fx64 hn hh hbadA hbadB ha hb hx hy
      refine ⟨u, hu, hend, fun k hk => ?word, hformat, ?overflow, fun c hc => ?elsewhere⟩
      case word =>
        rw [State.signed_natAt_sumWords (w := 8) (rest := []) (by decide) (by simpa using hbytes) (by simpa using hk), State.getElem_psums,
          bmod_two_pow_64]
      case overflow => simp only [hover, Bool.or_eq_true, or_assoc, State.any_psums, not_fitsInt_64]
      case elsewhere => rw [hbytes, Tab.get_setList_other _ _ _ _ (by simpa [length_sumWords] using hc)]
    case i32 =>
      obtain ⟨u, hu, hend, hbytes, hformat, hscale, hsat⟩ := exec_psumAddOp_i32 hn hh hbadA hbadB ha hb hx hy hk
      refine ⟨u, hu, hend, fun k hk => ?limited, hformat, hscale, ?saturated⟩
      case limited =>
        rw [State.signed_natAt_sumWords (w := 4) (by decide) hbytes (by simpa using hk), List.getElem_map, State.getElem_psums, bmod_clampInt_32]
      case saturated => simp only [hsat, Bool.or_eq_true, or_assoc, State.any_psums, not_fitsInt_32]
  case slotRange =>
    exact ⟨_, exec_kvAppendOp_slotRange hn hr hok hb hpast, State.ended_opRan (hr ▸ s.read_seqs _ _ _) q o _ 0 _, hr ▸ s.read_bytes rfl o.a 32⟩
  case overwrite =>
    exact ⟨_, exec_kvAppendOp_overwrite hn hr hok hb hfit hold, State.ended_opRan (hr ▸ s.read_seqs _ _ _) q o _ 0 _, hr ▸ s.read_bytes rfl o.a 32⟩
  case appended =>
    intro ks vs ek ev hfin hrange w
    exact exec_kvAppendOp_one hn hr hok hb hfit hnew hone hhead hx hxok hplace rfl rfl hfin hrange rfl

end Sys2Proof.Machine
end

section
/-! PROOFS of the family 03_analogue_engine: the digits of an activation code (R42, R64, R72), and the starts of array ops (R86, R87, R95 to R97, R110, R151, R310). -/

namespace Sys2Proof.Machine

/-! ### Signed digits (R72) -/

/-- The digit of a slice is the code's sign times the base-4 digit of its magnitude. -/
theorem digit_eq_sign_mul (sl : Nat) (q : Int) : digit sl q = q.sign * ((q.natAbs / 4 ^ sl % 4 : Nat) : Int) := by
  rw [digit]
  obtain hneg | rfl | hpos := Int.lt_trichotomy q 0
  · rw [if_pos hneg, Int.sign_eq_neg_one_of_neg hneg, Int.neg_one_mul]
  · simp
  · rw [if_neg (Int.not_lt.mpr hpos.le), Int.sign_eq_one_of_pos hpos, Int.one_mul]

@[simp] theorem digit_zero (sl : Nat) : digit sl 0 = 0 := by
  rw [digit_eq_sign_mul, Int.sign_zero, Int.zero_mul]

theorem natAbs_digit (sl : Nat) (q : Int) : (digit sl q).natAbs = q.natAbs / 4 ^ sl % 4 := by
  rw [digit]
  split <;> simp only [Int.natAbs_neg, Int.natAbs_natCast]

/-- Bits [2s + 1 : 2s] of a magnitude are its base-4 digit `s`. -/
theorem shiftRight_and_three (m sl : Nat) : m >>> (2 * sl) &&& 3 = m / 4 ^ sl % 4 := by
  rw [Nat.shiftRight_eq_div_pow, Nat.pow_mul, show (3 : Nat) = 2 ^ 2 - 1 from rfl, Nat.and_two_pow_sub_one_eq_mod]

/-- The digits of the first `n` slices add up to the magnitude's part below `4 ^ n`, with the code's sign. -/
theorem sum_digits (n : Nat) (q : Int) :
    ∑ sl ∈ Finset.range n, 4 ^ sl * digit sl q = q.sign * ((q.natAbs % 4 ^ n : Nat) : Int) := by
  induction n with
  | zero => simp [Nat.mod_one]
  | succ n ih =>
    rw [Finset.sum_range_succ, ih, digit_eq_sign_mul, Nat.mod_pow_succ]
    push_cast
    ring

/-- `n` slices hold every code below `4 ^ n` whole. -/
theorem sum_digits_eq_self {n : Nat} {q : Int} (h : q.natAbs < 4 ^ n) : ∑ sl ∈ Finset.range n, 4 ^ sl * digit sl q = q := by
  rw [sum_digits, Nat.mod_eq_of_lt h, Int.sign_mul_natAbs]

theorem markerCode_a4 (c : Nat) : markerCode 0 c = true ↔ c = 8 := by simp [markerCode]
theorem markerCode_a8 (c : Nat) : markerCode 1 c = true ↔ c = 128 := by simp [markerCode]

/-- A block that is placed holds 0 for each code that spells the marker (R42, R64). -/
theorem placeBlock_codes {rung b : Nat} {ps : List Payload72} {x : VBlock} (h : placeBlock rung ps b = some x) :
    ∃ cs : List Nat, x.codes = cs.map (fun c => if markerCode rung c then 0 else signed (codeBits rung) c) ∧ x.marks = cs.map (markerCode rung) := by
  simp only [placeBlock] at h
  split at h
  · cases h
  · split at h
    · cases h
      exact ⟨_, rfl, rfl⟩
    · cases h

theorem placeBlock_marked {rung b i : Nat} {ps : List Payload72} {x : VBlock} (h : placeBlock rung ps b = some x) (hi : x.marks.getD i false = true) :
    x.codes.getD i 0 = 0 := by
  obtain ⟨cs, hcodes, hmarks⟩ := placeBlock_codes h
  rw [hmarks, List.getD_eq_getElem?_getD, List.getElem?_map] at hi
  rw [hcodes, List.getD_eq_getElem?_getD, List.getElem?_map]
  cases hc : cs[i]? with
  | none => rfl
  | some c =>
    have marker : markerCode rung c = true := by simpa [hc] using hi
    simp [marker]

/-- Settles O29: the digits are the base-4 digits of the magnitude under the code's sign, so the first `n` add up to any code below `4 ^ n`. -/
theorem digitsAddUpToTheCode : Obligations.DigitsAddUpToTheCode := by
  refine ⟨rfl, rfl, digit_zero, fun n h _ => (markerCode_a4 n).mp h, fun n h _ => (markerCode_a8 n).mp h,
    fun ps rung b x h i hi sl => ?marked, fun q sl => ?bits, fun q hq => ⟨?sumA4, ?topA4⟩, fun q hq => ⟨?sumA8, ?topA8⟩⟩
  case marked => rw [placeBlock_marked h hi, digit_zero]
  case bits => rw [shiftRight_and_three, digit_eq_sign_mul]
  case sumA4 => simpa [Finset.sum_range_succ] using sum_digits_eq_self (n := 2) (q := q) (by omega)
  case sumA8 => simpa [Finset.sum_range_succ] using sum_digits_eq_self (n := 4) (q := q) (by omega)
  case topA4 => rw [natAbs_digit]; omega
  case topA8 => rw [natAbs_digit]; omega

/-! ### The start of an op on its engine (R86, R87, R310) -/

theorem exec_arrayMvOpStart_none {s : State} {q n : Nat} (hn : (s.seq q).next (.eng n) 0x10 = none) (sh : Bool) :
    exec (.arrayMvOpStart q n sh) s = .next s := by
  show execArrayMvOpStart q n sh s = _
  simp only [execArrayMvOpStart, hn]

theorem exec_arrayMvOpStart_some {s : State} {q n : Nat} {o : Op} (hn : (s.seq q).next (.eng n) 0x10 = some o) (sh : Bool) :
    exec (.arrayMvOpStart q n sh) s = .next (if s.repeatWaits q n then s else s.opStart q n false sh o) := by
  show execArrayMvOpStart q n sh s = _
  simp only [execArrayMvOpStart, hn]

/-- A repeat that waits goes ahead of the engine's queue (R111). -/
theorem exec_arrayMvOpStart_repeatWaits {s : State} {q n : Nat} (hw : s.repeatWaits q n = true) (sh : Bool) :
    exec (.arrayMvOpStart q n sh) s = .next s := by
  cases hn : (s.seq q).next (.eng n) 0x10 with
  | none => exact exec_arrayMvOpStart_none hn sh
  | some o => rw [exec_arrayMvOpStart_some hn, if_pos hw]

theorem exec_dMvPass_none {s : State} {q : Nat} (hn : (s.seq q).next .dEng 0x14 = none) : exec (.dMvPass q) s = .next s := by
  show execDMvPass q s = _
  simp only [execDMvPass, hn]

theorem exec_dMvPass_some {s : State} {q : Nat} {o : Op} (hn : (s.seq q).next .dEng 0x14 = some o) :
    exec (.dMvPass q) s = .next (s.opStart q (o.mod % 4) true false o) := by
  show execDMvPass q s = _
  simp only [execDMvPass, hn]

theorem State.opStart_unread {s : State} {q : Nat} {o : Op} (h : (s.read (Reader.ofCore q) o.a 64).code ≠ .OK) (n : Nat) (dig sh : Bool) :
    s.opStart q n dig sh o = (s.read (Reader.ofCore q) o.a 64).st.opRan q o (s.read (Reader.ofCore q) o.a 64).code 0 (s.read (Reader.ofCore q) o.a 64).addr := by
  simp only [State.opStart, h, ne_eq, not_false_eq_true, if_true]

/-- The rung at which the first op of a pass starts: its input's status record carries the encoded one. -/
def State.firstRung (s : State) (q n : Nat) (k : OpBlock) (dig : Bool) : Nat :=
  s.passRung q n k dig (fieldAt (s.inputStatus q k).bytes 36 1 % 4)

/-- FORMAT, last block, COLS and tag of the tile that the first op of a pass uses: the layer of the ACTIVE bank below rung 2, its copy in memory from there. -/
def State.firstTile (s : State) (q n : Nat) (k : OpBlock) (dig : Bool) : Nat × Nat × Nat × Nat :=
  let z := s.layer (engineKey q n) k.layer
  if s.firstRung q n k dig < 2 then (z.format, z.blocks, z.cols, z.tag) else s.tileHead (engineKey q n) k.layer

theorem State.firstTile_analog (s : State) {q n : Nat} {k : OpBlock} {dig : Bool} (h : s.firstRung q n k dig < 2) :
    s.firstTile q n k dig = ((s.layer (engineKey q n) k.layer).format, (s.layer (engineKey q n) k.layer).blocks,
      (s.layer (engineKey q n) k.layer).cols, (s.layer (engineKey q n) k.layer).tag) :=
  if_pos h

/-- The pass that an op opens. -/
def State.firstPass (s : State) (q n : Nat) (k : OpBlock) (dig : Bool) (o : Op) : Pass :=
  { eng := n, rung := s.firstRung q n k dig, base := s.effectiveRung k.image k.policy k.seq, digital := dig, op := o }

section First

variable {s : State} {q n : Nat} {dig : Bool} {o : Op} {r : Rd} {k : OpBlock}
  (hr : s.read (Reader.ofCore q) o.a 64 = r) (hok : r.code = .OK) (hk : parseOpBlock s.loc r.bytes = k) (hkept : r.st.keptPass q n dig = none)

include hr hok hk hkept

/-- Where the engine keeps no pass: the checks of R86, the read of the input and the wait for a free set stand before the opening of a pass. -/
theorem State.opStart_unkept (sh : Bool) : s.opStart q n dig sh o =
    if opRefusal k dig none (r.st.firstTile q n k dig).1 ≠ .OK then
      r.st.opInvalid q n o (opRefusal k dig none (r.st.firstTile q n k dig).1) (r.st.firstTile q n k dig).2.2.2
    else if (r.st.inputStatus q k).code ≠ .OK then
      (r.st.inputStatus q k).st.opRan q o (r.st.inputStatus q k).code 0 (r.st.inputStatus q k).addr
    else if r.st.firstRung q n k dig < 2 ∧ 2 ≤ r.st.setsUsed q n then s.bumpWait (dieReg (coreDie q) Reg.AE_SET_WAIT_TOTAL)
    else (r.st.inputStatus q k).st.startOp q n (r.st.passesOf q).length sh o k (r.st.firstPass q n k dig o)
      ((r.st.firstTile q n k dig).2.1 + 1) (r.st.inputStatus q k).bytes := by
  rw [State.opStart, hr, if_neg (not_not.mpr hok), hk, hkept]
  simp only [Option.bind_none, Option.isNone_none, true_and]
  rfl

/-- Where the engine keeps no pass, an op that a check of R86 fails is refused with that reason. -/
theorem State.opStart_refused {c : Code} (hc : opRefusal k dig none (r.st.firstTile q n k dig).1 = c) (hbad : c ≠ .OK) (sh : Bool) :
    s.opStart q n dig sh o = r.st.opInvalid q n o c (r.st.firstTile q n k dig).2.2.2 := by
  rw [State.opStart_unkept hr hok hk hkept, hc, if_pos hbad]

/-- Where the engine keeps no pass, an op that passes the checks, whose input reads and for which a set is free opens a pass. -/
theorem State.opStart_opens (hc : opRefusal k dig none (r.st.firstTile q n k dig).1 = .OK) (hin : (r.st.inputStatus q k).code = .OK)
    (hfree : r.st.setsUsed q n < 2) (sh : Bool) :
    s.opStart q n dig sh o = (r.st.inputStatus q k).st.startOp q n (r.st.passesOf q).length sh o k (r.st.firstPass q n k dig o)
      ((r.st.firstTile q n k dig).2.1 + 1) (r.st.inputStatus q k).bytes := by
  rw [State.opStart_unkept hr hok hk hkept, if_neg (not_not.mpr hc), if_neg (not_not.mpr hin), if_neg (fun h => Nat.not_le.mpr hfree h.2)]

end First

/-! ### The checks of R86 -/

/-- With no pass kept, an op that neither opens nor is a pass of its own breaks the pass rule. -/
theorem opRefusal_passRule {k : OpBlock} (h : k.action = 2 ∨ k.action = 3) (dig : Bool) (format : Nat) :
    opRefusal k dig none format = .PASS_RULE := by
  obtain h | h := h <;> simp [opRefusal, h]

/-- An op that opens a pass where none is kept breaks no pass rule: its source, its layer and its rung are checked. -/
theorem opRefusal_opening {k : OpBlock} (h : k.action = 0 ∨ k.action = 1) (dig : Bool) (format : Nat) :
    opRefusal k dig none format = if k.source = 0 then .NO_SOURCE else if format = 0 then .LAYER_EMPTY
      else if (if dig then decide (k.rung < 2) else decide (2 ≤ k.rung)) then .FORMAT_INVALID else .OK := by
  obtain h | h := h <;> simp [opRefusal, h]

/-! ### ARRAY_READ (R95 to R97) -/

theorem exec_arrayReadOp_none {s : State} {q n : Nat} (hn : (s.seq q).next (.eng n) 0x11 = none) : exec (.arrayReadOp q n) s = .next s := by
  show execArrayReadOp q n s = _
  simp only [execArrayReadOp, State.arrayRead, hn]

/-- The engine `e` has selected the layer, read one block of it and counted its 128 conversions, in core `q`'s totals too. -/
def State.readCounted (s : State) (q e : Nat) (k : OpBlock) : State :=
  let s1 := s.selectLayer e k.layer
  let ro := s1.readBlock e k.layer k.block
  ((({ s1 with fresh := s1.fresh + 528 * 128 } : State).countConv e 128 ro.clips 0).bump (dieReg (coreDie q) Reg.AE_READ_AMBIG_TOTAL) ro.amb).bump
    (dieReg (coreDie q) Reg.AE_READ_MARGIN_TOTAL) ro.marg

/-- What a read of the block writes: 512 code lines and the status of Table 3-16. -/
def State.readResult (s : State) (e : Nat) (k : OpBlock) : List Byte :=
  let s1 := s.selectLayer e k.layer
  let ro := s1.readBlock e k.layer k.block
  ro.lines ++ s1.readStatus e k.layer k.block ro

section Read

variable {s : State} {q n : Nat} {o : Op} {r : Rd} {k : OpBlock} (hn : (s.seq q).next (.eng n) 0x11 = some o)
  (hr : s.read (Reader.ofCore q) o.a 64 = r) (hok : r.code = .OK) (hk : parseOpBlock s.loc r.bytes = k)

include hn hr hok hk

theorem exec_arrayReadOp_layerEmpty (hz : (r.st.layer (engineKey q n) k.layer).format = 0) :
    exec (.arrayReadOp q n) s = .next (r.st.opInvalid q n o .LAYER_EMPTY (r.st.layer (engineKey q n) k.layer).tag) := by
  show execArrayReadOp q n s = _
  simp only [execArrayReadOp, State.arrayRead, hn, hr, hok, hk, hz, ne_eq, not_true_eq_false, if_false, if_true]

theorem exec_arrayReadOp_blockRange (hz : (r.st.layer (engineKey q n) k.layer).format ≠ 0)
    (hb : (r.st.layer (engineKey q n) k.layer).blocks < k.block) :
    exec (.arrayReadOp q n) s = .next (r.st.opInvalid q n o .BLOCK_RANGE (r.st.layer (engineKey q n) k.layer).tag) := by
  show execArrayReadOp q n s = _
  simp only [execArrayReadOp, State.arrayRead, hn, hr, hok, hk, hz, hb, ne_eq, not_true_eq_false, if_false, if_true]

/-- A read that is not refused writes its result where the op names and ends with the write's status. -/
theorem exec_arrayReadOp_reads (hz : (r.st.layer (engineKey q n) k.layer).format ≠ 0) (hb : k.block ≤ (r.st.layer (engineKey q n) k.layer).blocks) :
    exec (.arrayReadOp q n) s = .next (
      let w := (r.st.readCounted q (engineKey q n) k).write (Src.ofEngine q) {} k.out (r.st.readResult (engineKey q n) k)
      w.st.opRan q o w.code 0 w.addr) := by
  show execArrayReadOp q n s = _
  simp only [execArrayReadOp, State.arrayRead, hn, hr, hok, hk, hz, Nat.not_lt.mpr hb, ne_eq, not_true_eq_false, if_false]
  rfl

end Read

theorem State.engine_bump (s : State) (a c e : Nat) : (s.bump a c).engine e = s.engine e := rfl

@[simp] theorem Engine.conv_setBank (x : Engine) (b : Nat) (y : Bank) : (x.setBank b y).conv = x.conv := by
  rw [Engine.setBank]
  split <;> rfl

/-- A layer select counts no conversion. -/
theorem State.conv_selectLayer (s : State) (e l : Nat) : ((s.selectLayer e l).engine e).conv = (s.engine e).conv := by
  simp only [State.selectLayer]
  split
  · rfl
  · refine (apply_ite (fun t : State => (t.engine e).conv) _ _ _).trans ?_
    simp only [State.engine_bump, State.engine_setEngine, if_true, Engine.conv_setBank, ite_self]

theorem State.conv_countConv (s : State) (e conv clips refs : Nat) :
    ((s.countConv e conv clips refs).engine e).conv = min (2 ^ 64 - 1) ((s.engine e).conv + conv) := by
  simp only [State.countConv, State.engine_bump, State.engine_setEngine, if_true]

/-- The 128 rows of a read are 128 conversions. -/
theorem State.conv_readCounted (s : State) (q e : Nat) (k : OpBlock) :
    ((s.readCounted q e k).engine e).conv = min (2 ^ 64 - 1) ((s.engine e).conv + 128) := by
  simp only [State.readCounted, State.engine_bump, State.conv_countConv]
  rw [← s.conv_selectLayer e k.layer]
  rfl

/-- Four two-bit codes make a byte (R40). -/
theorem length_packCodes : ∀ l : List Nat, (packCodes l).length = l.length / 4
  | a :: b :: c :: d :: r => by simp only [packCodes, List.length_cons, length_packCodes r]; omega
  | [] | [_] | [_, _] | [_, _, _] => by simp [packCodes]

theorem State.length_readColumn (s : State) (e b l col : Nat) (d : Int) (free : Nat) : (s.readColumn e b l col d free).length = 128 := by
  simp [State.readColumn]

/-- A read that adds one code line of 32 bytes for each column. -/
theorem length_lines_foldl {f : ReadOut → Nat → ReadOut} (hf : ∀ o c, (f o c).lines.length = o.lines.length + 32) (l : List Nat) (o : ReadOut) :
    (l.foldl f o).lines.length = o.lines.length + 32 * l.length := by
  induction l generalizing o with
  | nil => rfl
  | cons c l ih => rw [List.foldl_cons, ih, hf, List.length_cons]; omega

/-- The 512 columns of a block are 512 code lines (R96). -/
theorem State.length_readBlock (s : State) (e l b : Nat) : (s.readBlock e l b).lines.length = 32 * 512 := by
  rw [State.readBlock, length_lines_foldl]
  · simp
  · intro o c
    dsimp only
    split <;> simp [length_packCodes, State.length_readColumn]

theorem State.length_readStatus (s : State) (e l b : Nat) (o : ReadOut) : (s.readStatus e l b o).length = 96 := by
  simp [State.readStatus]

theorem State.length_readResult (s : State) (e : Nat) (k : OpBlock) : (s.readResult e k).length = 32 * 512 + 96 := by
  simp [State.readResult, State.length_readBlock, State.length_readStatus]

/-! ### ARRAY_CAL (R151) -/

theorem exec_arrayCalOp_none {s : State} {q : Nat} (hp : s.calPacket q = none) (n l seed area : Nat) :
    exec (.arrayCalOp q n l seed area) s = .next s := by
  show execArrayCalOp q n l seed area s = _
  simp only [execArrayCalOp, hp]

theorem exec_arrayCalOp_takes {s : State} {q n : Nat} {p : Packet} (hp : s.calPacket q = some p) (hidle : ∀ o ∈ (s.seq q).ops, o.unit ≠ .eng n)
    (l seed area : Nat) : exec (.arrayCalOp q n l seed area) s =
      .next ((s.setQueue (q / 8) { s.queue (q / 8) with pkts := (s.queue (q / 8)).pkts.erase p }).arrayCal q n l seed area) := by
  have idle : (s.seq q).ops.any (fun o => o.unit == .eng n) = false := by simpa using hidle
  show execArrayCalOp q n l seed area s = _
  simp only [execArrayCalOp, hp, idle, Bool.false_eq_true, if_false]

/-- Settles O31: each command's branches are its lemmas; an op that opens a pass meets the checks of R86 with no pass kept. -/
theorem arrayOpsStart : Obligations.ArrayOpsStart := by
  intro s q n
  refine ⟨fun sh h => h.elim (exec_arrayMvOpStart_none · sh) (exec_arrayMvOpStart_repeatWaits · sh), exec_dMvPass_none,
    fun sh o hn hw => ?started, fun o => exec_dMvPass_some, ?start, exec_arrayReadOp_none, ?read,
    fun l seed area hp => exec_arrayCalOp_none hp n l seed area, fun l seed area p hp hidle => exec_arrayCalOp_takes hp hidle l seed area⟩
  case started => rw [exec_arrayMvOpStart_some hn, hw, if_neg Bool.false_ne_true]
  case start =>
    intro dig sh o r k t
    refine ⟨fun h => State.opStart_unread h n dig sh, fun hok hkept => ⟨fun ha => ?passRule, fun ha hs => ?noSource,
      fun ha hs hrung hz => ?layerEmpty, fun ha hs hrung hz hdig hk hin hfree => ?opens⟩⟩
    case passRule => exact ⟨_, State.opStart_refused rfl hok rfl hkept (opRefusal_passRule ha dig _) (by decide) sh⟩
    case noSource => exact ⟨_, State.opStart_refused rfl hok rfl hkept ((opRefusal_opening ha dig _).trans (if_pos hs)) (by decide) sh⟩
    case layerEmpty =>
      have tile := t.firstTile_analog hrung
      have refusal : opRefusal k dig none (t.firstTile q n k dig).1 = .LAYER_EMPTY := by
        rw [opRefusal_opening ha, if_neg hs, tile, if_pos hz]
      rw [State.opStart_refused rfl hok rfl hkept refusal (by decide) sh, tile]
    case opens =>
      have tile := t.firstTile_analog hrung
      have accepted : opRefusal k dig none (t.firstTile q n k dig).1 = .OK := by
        rw [opRefusal_opening ha, if_neg hs, tile, if_neg hz, hdig]
        simpa using hk
      refine ⟨t.firstPass q n k dig o, rfl, rfl, rfl, rfl, rfl, rfl, rfl, ?_⟩
      rw [State.opStart_opens rfl hok rfl hkept accepted hin hfree sh, tile]
  case read =>
    intro o hn r k z
    exact ⟨fun hok hz => exec_arrayReadOp_layerEmpty hn rfl hok rfl hz, fun hok hz hb => exec_arrayReadOp_blockRange hn rfl hok rfl hz hb,
      fun hok hz hb => ⟨_, _, r.st.length_readResult (engineKey q n) k, r.st.conv_readCounted q (engineKey q n) k,
        exec_arrayReadOp_reads hn rfl hok rfl hz hb⟩⟩

end Sys2Proof.Machine
end

section
/-! PROOFS of the family 05_array_calibration: triggers, runs and saves (R145 to R147), the close of a lane's round (R135, R156), and the queries LAYER_STATS and ASH_LIST (R121, R159). -/

namespace Sys2Proof.Machine

/-! ### Triggers (R146) -/

/-- The agent's state with the triggers of `mask` held as well. -/
def DieCal.holding (c : DieCal) (mask : Nat) : DieCal := { c with pending := c.pending ||| mask }

theorem State.calTrigger_fitted {s : State} {d : Nat} (h : s.fits d = true) (mask : Nat) :
    s.calTrigger d mask = s.setCal d ((s.dieCal d).holding mask) :=
  if_pos h

theorem State.calTrigger_absent {s : State} {d : Nat} (h : s.fits d = false) (mask : Nat) : s.calTrigger d mask = s :=
  if_neg (Bool.eq_false_iff.mp h)

theorem State.calTrigger_eq (s : State) (d mask : Nat) : s.calTrigger d mask = { s with cal := (s.calTrigger d mask).cal } := by
  cases h : s.fits d with
  | true => rw [State.calTrigger_fitted h]; rfl
  | false => rw [State.calTrigger_absent h]

@[simp] theorem State.fits_calTrigger (s : State) (d mask k : Nat) : (s.calTrigger d mask).fits k = s.fits k := by
  rw [State.calTrigger_eq]; rfl

theorem State.dieCal_calTrigger_same {s : State} {d : Nat} (h : s.fits d = true) (mask : Nat) :
    (s.calTrigger d mask).dieCal d = (s.dieCal d).holding mask := by
  rw [State.calTrigger_fitted h, State.dieCal_setCal, if_pos rfl]

theorem State.dieCal_calTrigger_other (s : State) {d k : Nat} (h : k ≠ d) (mask : Nat) : (s.calTrigger d mask).dieCal k = s.dieCal k := by
  cases hd : s.fits d with
  | true => rw [State.calTrigger_fitted hd, State.dieCal_setCal, if_neg h]
  | false => rw [State.calTrigger_absent hd]

/-- A write to CAL_REQUEST triggers its die alone, and only with bit 0. -/
theorem exec_calRequest (s : State) (d v : Nat) :
    exec (.calRequest d v) s = .next (if bitOf v 0 then s.calTrigger d calREQUEST else s) := rfl

theorem exec_calRequest_ignored {s : State} {d v : Nat} (h : bitOf v 0 = false ∨ s.fits d = false) : exec (.calRequest d v) s = .next s := by
  rw [exec_calRequest]
  obtain h | h := h
  · rw [h, if_neg Bool.false_ne_true]
  · rw [State.calTrigger_absent h, ite_self]

/-- REQUEST is triggered on each die of a list that a mask names. -/
def State.requestAll (s : State) (mask : Nat) (ds : List Nat) : State :=
  ds.foldl (fun s i => if bitOf mask i then s.calTrigger i calREQUEST else s) s

theorem State.requestAll_cons (s : State) (mask d : Nat) (ds : List Nat) :
    s.requestAll mask (d :: ds) = (if bitOf mask d then s.calTrigger d calREQUEST else s).requestAll mask ds := rfl

theorem State.requestAll_eq (s : State) (mask : Nat) (ds : List Nat) : s.requestAll mask ds = { s with cal := (s.requestAll mask ds).cal } := by
  induction ds generalizing s with
  | nil => rfl
  | cons d ds ih =>
    rw [State.requestAll_cons, ih]
    split
    · rw [State.calTrigger_eq]
    · rfl

/-- A die outside the list keeps its triggers. -/
theorem State.dieCal_requestAll_other (s : State) (mask : Nat) {ds : List Nat} {k : Nat} (h : k ∉ ds) :
    (s.requestAll mask ds).dieCal k = s.dieCal k := by
  induction ds generalizing s with
  | nil => rfl
  | cons d ds ih =>
    obtain ⟨hd, hds⟩ := not_or.mp (mt List.mem_cons.mpr h)
    rw [State.requestAll_cons, ih _ hds]
    split
    · exact s.dieCal_calTrigger_other hd _
    · rfl

/-- A die of the list holds the trigger when the mask names it and it is fitted. -/
theorem State.dieCal_requestAll_mem (s : State) (mask : Nat) {ds : List Nat} (hds : ds.Nodup) {k : Nat} (h : k ∈ ds) :
    (s.requestAll mask ds).dieCal k = if bitOf mask k = true ∧ s.fits k = true then (s.dieCal k).holding calREQUEST else s.dieCal k := by
  induction ds generalizing s with
  | nil => exact absurd h List.not_mem_nil
  | cons d ds ih =>
    obtain ⟨hd, hds⟩ := List.nodup_cons.mp hds
    rw [State.requestAll_cons]
    obtain rfl | hk := List.mem_cons.mp h
    · rw [State.dieCal_requestAll_other _ _ hd]
      cases hm : bitOf mask k with
      | false => simp
      | true => cases hf : s.fits k <;> simp [State.calTrigger_absent, State.dieCal_calTrigger_same, hf]
    · have hne : k ≠ d := fun e => hd (e ▸ hk)
      rw [ih _ hds hk]
      cases bitOf mask d <;> simp [State.dieCal_calTrigger_other _ hne]

@[simp] theorem State.dieCal_start (s : State) (h : Hdr) (k : Nat) : (s.start h).dieCal k = s.dieCal k := by
  rw [State.dieCal, State.start_cal]; rfl

@[simp] theorem State.fits_start (s : State) (h : Hdr) (k : Nat) : (s.start h).fits k = s.fits k := by
  rw [State.fits, State.start_part]; rfl

theorem exec_maintCalRequest {s : State} {h : Hdr} (ha : s.accepts h clsMaint = true) (mask : Nat) :
    exec (.maintCalRequest h mask) s = .next (((s.start h).requestAll mask (List.range 8)).finish (s.descOf h) .OK 0 0) := by
  show execMaintCalRequest h mask s = _
  rw [execMaintCalRequest, State.descriptor_accepted ha]
  rfl

/-! ### Runs and saves (R141, R145, R147) -/

/-- An engine out of range is reported, and its cluster is lost with cause 7 of R159. -/
def State.loseEngine (s : State) (x : Nat × Nat) : State :=
  (s.raise .CAL_ENGINE_RANGE (Src.ofCore (engCore x.1)) [x.1, x.2]).loseCluster (engCore x.1 / 8) (some 7)

theorem exec_calRunStaged_idle {s : State} {d : Nat} (h : (s.dieCal d).run ≠ 2) : exec (.calRunStaged d) s = .next s :=
  congrArg Host.Outcome.next (if_pos h)

/-- A COMPUTING run becomes STAGED, and then each engine beyond its range costs its cluster. -/
theorem exec_calRunStaged_computing {s : State} {d : Nat} (h : (s.dieCal d).run = 2) :
    exec (.calRunStaged d) s = .next ((s.dieCal d).beyond.foldl State.loseEngine (s.setCal d { s.dieCal d with run := 3 })) :=
  congrArg Host.Outcome.next (if_neg (not_not.mpr h))

theorem exec_calSave_fitted {s : State} {d : Nat} (h : s.fits d = true) (ok : Bool) : exec (.calSave d ok) s = .next (s.calSave d ok) :=
  congrArg Host.Outcome.next (if_pos h)

theorem exec_calSave_absent {s : State} {d : Nat} (h : s.fits d = false) (ok : Bool) : exec (.calSave d ok) s = .next s :=
  congrArg Host.Outcome.next (if_neg (Bool.eq_false_iff.mp h))

/-- A save that verifies changes the calibration of its die alone, and SAVE_FAILED is clear. -/
theorem State.calSave_verified (s : State) (d : Nat) : ∃ c : DieCal, c.saveFailed = false ∧ s.calSave d true = s.setCal d c :=
  ⟨_, rfl, rfl⟩

/-! ### Reads of a lane after what a finding does (R93, R155 to R158) -/

@[simp] theorem Bank.lane_setLane (y : Bank) (k : Nat) (x : LaneCal) (l : Nat) : (y.setLane k x).lane l = if l = k then x else y.lane l :=
  Tab.get_set _ _ _ _

@[simp] theorem Bank.lane_stage (y : Bank) (c : ColChange) (l : Nat) : (y.stage c).lane l = y.lane l := rfl

@[simp] theorem Engine.bank_setBank_same (x : Engine) (b : Nat) (y : Bank) : (x.setBank b y).bank b = y := by
  unfold Engine.setBank Engine.bank
  split <;> rfl

@[simp] theorem State.bank_setBank_same (s : State) (e b : Nat) (y : Bank) : (s.setBank e b y).bank e b = y := by
  simp [State.bank, State.setBank]

theorem State.bank_congr {s t : State} (h : t.engines = s.engines) (e b : Nat) : t.bank e b = s.bank e b := by
  rw [State.bank, State.engine, h]; rfl

@[simp] theorem State.bank_raise (s : State) (k : Code) (x : Src) (l : List Nat) (c : Code) (e b : Nat) : (s.raise k x l c).bank e b = s.bank e b :=
  State.bank_congr (s.raise_engines k x l c) e b

@[simp] theorem State.bank_bump (s : State) (a n e b : Nat) : (s.bump a n).bank e b = s.bank e b :=
  State.bank_congr rfl e b

@[simp] theorem State.bank_ashEngine (s : State) (e0 b0 kind cause layer index : Nat) (all : Bool) (e b : Nat) :
    (s.ashEngine e0 b0 kind cause layer index all).bank e b = s.bank e b :=
  have kept : Kept 1073741921 s (s.ashEngine e0 b0 kind cause layer index all) := State.ashEngine_kept rfl (Kept.refl _ s)
  State.bank_congr (kept.only .engines rfl) e b

/-- A column's retirement is staged in its map; no lane's sums change. -/
@[simp] theorem State.lane_retireColumn (s : State) (e b layer lane cause : Nat) (resid : D64) (l : Nat) :
    ((s.retireColumn e b layer lane cause resid).bank e b).lane l = (s.bank e b).lane l := by
  simp only [State.retireColumn]
  split
  · rfl
  · split <;> simp

@[simp] theorem State.lane_checkWindows (s : State) (e b lane l : Nat) : ((s.checkWindows e b lane).bank e b).lane l = (s.bank e b).lane l := by
  refine List.foldlRecOn (motive := fun t : State => (t.bank e b).lane l = (s.bank e b).lane l) _ _ rfl fun t ht k _ => ?_
  dsimp only
  split
  · rw [State.lane_retireColumn, ht]
  · exact ht

/-! ### The close of a round (R135) -/

/-- The sums of a lane's round, its closed rounds and the tick of the last close. -/
def LaneCal.window (x : LaneCal) : Sums × Sums × List Round × Nat := (x.cur0, x.cur1, x.rounds, x.lastClose)

/-- The lane when its round closes: its sums empty, the round first of at most four. -/
def LaneCal.closed (x : LaneCal) (temp : Int) (now : Nat) : LaneCal :=
  { x with cur0 := {}, cur1 := {}, rounds := ({ h0 := x.cur0, h1 := x.cur1, temp := temp } :: x.rounds).take 4, lastClose := now }

/-- A lane path's retirement leaves the lane's window. -/
@[simp] theorem State.window_retireLane (s : State) (e b l cause : Nat) :
    (((s.retireLane e b l cause).bank e b).lane l).window = ((s.bank e b).lane l).window := by
  simp only [State.retireLane]
  split
  · rfl
  · split
    · simp [LaneCal.window]
    · simp

/-- A finding at a data lane is its retirement (R156). -/
theorem State.window_laneFound (s : State) (e b cause : Nat) {l : Nat} (hl : l < 512) :
    (((s.laneFound e b l cause).bank e b).lane l).window = ((s.bank e b).lane l).window := by
  rw [State.laneFound, if_pos hl, State.window_retireLane]

theorem State.window_setLane (s : State) (e b l : Nat) (y : Bank) (x : LaneCal) :
    (((s.setBank e b (y.setLane l x)).bank e b).lane l).window = x.window := by
  rw [State.bank_setBank_same, Bank.lane_setLane, if_pos rfl]

/-- A data lane's round closes: whatever its fit, its coefficients and its findings, its window is that of the closed round. -/
theorem State.window_roundClose (s : State) (e b : Nat) {l : Nat} (hl : l < 512) (hd : (s.bank e b).common.degraded = false) :
    (((s.roundClose e b l).bank e b).lane l).window = (((s.bank e b).lane l).closed (s.dieTemp (engDie e)) s.time.tick).window := by
  have notCommon : ¬ (512 ≤ l ∨ (s.bank e b).common.degraded = true) := by simp [hd, hl]
  unfold State.roundClose
  extract_lets d y x round x1 fit ts t stuck x2 s1 s2 c gh s3 s5
  have fitted : ((s2.bank e b).lane l).window = (x.closed (s.dieTemp d) s.time.tick).window := by
    rw [show s2 = s1 from if_neg notCommon, State.window_setLane]
    rfl
  have learned : ((s3.bank e b).lane l).window = (x.closed (s.dieTemp d) s.time.tick).window := by
    unfold s3
    clear_value fit
    split
    · exact fitted
    · extract_lets own oown x3 x4 s4
      have coefficients : ((s4.bank e b).lane l).window = (x.closed (s.dieTemp d) s.time.tick).window := s2.window_setLane e b l _ x4
      split
      · rw [State.window_laneFound _ _ _ _ hl, coefficients]
      · exact coefficients
  have found : ((s5.bank e b).lane l).window = ((s3.bank e b).lane l).window := by
    unfold s5
    split
    · exact s3.window_laneFound e b 4 hl
    · rfl
  rw [if_pos hl, State.lane_checkWindows, found, learned]

/-- A round is closed only of a lane below 528, and only when it is full (R135). -/
theorem exec_fitRoundClose (s : State) (q n l : Nat) :
    exec (.fitRoundClose q n l) s = .next (
      let x := (s.bank (engineKey q n) (s.engine (engineKey q n)).active).lane l
      if l < 528 ∧ s.fitWindow (coreDie q) / 4 ≤ x.cur0.n + x.cur1.n then s.roundClose (engineKey q n) (s.engine (engineKey q n)).active l else s) := rfl

/-! ### The queries (R121, R159) -/

theorem exec_layerStats {s : State} {h : Hdr} (ha : s.accepts h clsMaint = true) (image first n buffer : Nat) :
    exec (.layerStats h image first n buffer) s
      = .next (((s.start h).hostPut buffer ((List.range n).flatMap (fun i => s.layerStat image (first + i)))).finish (s.descOf h) .OK 0 0) := by
  have sameStats : (s.start h).layerStat = s.layerStat := by rw [State.start_eq]; rfl
  show execLayerStats h image first n buffer s = _
  rw [execLayerStats, State.descriptor_accepted ha, sameStats]

theorem exec_ashList {s : State} {h : Hdr} (ha : s.accepts h clsMaint = true) (first n buffer : Nat) :
    exec (.ashList h first n buffer) s
      = .next (((s.start h).hostPut buffer (leBytes 4 s.ash.entries.length ++ leBytes 4 s.ash.lost ++ leBytes 24 0
          ++ ((s.ash.entries.drop first).take n).flatMap AshEntry.bytes)).finish (s.descOf h) .OK 0 0) := by
  show execAshList h first n buffer s = _
  rw [execAshList, State.descriptor_accepted ha, State.start_ash]

/-- Settles O30: a trigger changes its die alone, a run's engines out of range are lost in turn, and a finding leaves the window of the lane whose round closes. -/
theorem calibrationCommands : Obligations.CalibrationCommands := by
  intro s d
  refine ⟨fun v hv hd => ?request, fun v => exec_calRequest_ignored, fun h mask ha => ?maintRequest, exec_calRunStaged_idle,
    fun hr hb => ?inRange, fun e b hr hb => ?beyond, fun hd => ?saved, fun hd => exec_calSave_fitted hd false, fun hd ok => exec_calSave_absent hd ok,
    fun q n l => ⟨fun hno => ?filling, fun hl hdeg hfull => ?closes⟩,
    fun h image first n buffer ha => exec_layerStats ha image first n buffer, fun h first n buffer ha => exec_ashList ha first n buffer⟩
  case request =>
    rw [exec_calRequest, if_pos hv, State.calTrigger_fitted hd, DieCal.holding]
  case maintRequest =>
    refine ⟨_, exec_maintCalRequest ha mask, State.requestAll_eq _ _ _, fun k => ?_⟩
    by_cases hk : k < 8
    · rw [State.dieCal_requestAll_mem _ _ List.nodup_range (List.mem_range.mpr hk)]
      simp only [hk, true_and, State.dieCal_start, State.fits_start, DieCal.holding]
    · rw [State.dieCal_requestAll_other _ _ (mt List.mem_range.mp hk), State.dieCal_start, if_neg fun h => hk h.1]
  case inRange => rw [exec_calRunStaged_computing hr, hb, List.foldl_nil]
  case beyond => rw [exec_calRunStaged_computing hr, hb, List.foldl_cons, List.foldl_nil, State.loseEngine]
  case saved =>
    obtain ⟨c, hc, hsave⟩ := s.calSave_verified d
    refine ⟨s.setCal d c, hsave ▸ exec_calSave_fitted hd true, ?_, rfl, fun k hk => ?_⟩
    · rw [State.dieCal_setCal, if_pos rfl, hc]
    · rw [State.dieCal_setCal, if_neg hk]
  case filling =>
    rw [exec_fitRoundClose]
    exact congrArg Host.Outcome.next (if_neg fun h => hno.elim (Nat.not_le.mpr h.1) (Nat.not_lt.mpr h.2))
  case closes =>
    have window := s.window_roundClose (engineKey q n) (s.engine (engineKey q n)).active hl hdeg
    obtain ⟨hcur0, hcur1, hrounds, hclose⟩ : _ ∧ _ ∧ _ ∧ _ := by simpa only [LaneCal.window, Prod.mk.injEq] using window
    refine ⟨_, ?_, hcur0, hcur1, hclose, _, rfl, rfl, hrounds⟩
    rw [exec_fitRoundClose]
    exact congrArg Host.Outcome.next (if_pos ⟨Nat.lt_trans hl (by decide), hfull⟩)

end Sys2Proof.Machine
end

section
/-! PROOFS of the family 06_scratchpad_and_memory: reads and writes of memory (R163, R176, R177, R182). -/

namespace Sys2Proof.Tab

theorem setList_append {α : Type} [Inhabited α] [DecidableEq α] (t : Tab α) (k : Nat) (xs ys : List α) :
    Tab.setList t k (xs ++ ys) = Tab.setList (Tab.setList t k xs) (k + xs.length) ys := by
  induction xs generalizing t k with
  | nil => rfl
  | cons x xs ih =>
    have next : k + 1 + xs.length = k + (x :: xs).length := by rw [List.length_cons]; omega
    rw [List.cons_append, Tab.setList, ih, Tab.setList, next]

theorem getList_add {α : Type} [Inhabited α] [DecidableEq α] (t : Tab α) (k m n : Nat) :
    Tab.getList t k (m + n) = Tab.getList t k m ++ Tab.getList t (k + m) n := by
  induction m generalizing k with
  | zero => simp [Tab.getList]
  | succ m ih => rw [Nat.succ_add, Tab.getList, ih, Tab.getList, List.cons_append, Nat.add_right_comm k 1 m, Nat.add_assoc k m 1]

end Sys2Proof.Tab

namespace Sys2Proof.Machine

/-! ### A range cut at tile boundaries -/

/-- The list cuts the `n` bytes at `a` into stretches that follow one another, none of them empty and each within one tile. -/
inductive Cut : Nat → Nat → List Piece → Prop
  | nil (a : Nat) : Cut a 0 []
  | cons {a l n : Nat} {ps : List Piece} (some : 0 < l) (within : a % 4096 + l ≤ 4096) (rest : Cut (a + l) n ps) : Cut a (l + n) ((a, l) :: ps)

/-- Fuel for each tile that the range meets is enough. -/
theorem cut_pieces (f a n : Nat) (h : n = 0 ∨ a % 4096 + n ≤ 4096 * f) : Cut a n (pieces f a n) := by
  induction f generalizing a n with
  | zero =>
    obtain rfl : n = 0 := by omega
    exact .nil a
  | succ f ih =>
    rw [pieces]
    split
    · next hn => exact hn ▸ .nil a
    · next hn =>
      obtain ⟨l, hl⟩ : ∃ l, min n (4096 - a % 4096) = l := ⟨_, rfl⟩
      obtain ⟨m, rfl⟩ : ∃ m, n = l + m := ⟨n - l, by omega⟩
      dsimp only
      rw [hl, Nat.add_sub_cancel_left]
      exact .cons (by omega) (by omega) (ih _ _ (by omega))

theorem cut_piecesOf (a n : Nat) : Cut a n (piecesOf a n) := cut_pieces _ a n (.inr (by omega))

/-- A piece lies in the range. -/
theorem Cut.mem {a n : Nat} {l : List Piece} (h : Cut a n l) {p : Piece} (hp : p ∈ l) : a ≤ p.1 ∧ p.1 < a + n := by
  induction h with
  | nil => cases hp
  | cons some _ _ ih =>
    obtain rfl | hp := List.mem_cons.mp hp
    · exact ⟨Nat.le_refl _, by dsimp only; omega⟩
    · obtain ⟨lo, hi⟩ := ih hp
      omega

/-- The pieces' entries are the range's. -/
theorem Cut.flatMap_getList {α : Type} [Inhabited α] [DecidableEq α] {a n : Nat} {l : List Piece} (h : Cut a n l) (t : Tab α) :
    l.flatMap (fun p => Tab.getList t p.1 p.2) = Tab.getList t a n := by
  induction h with
  | nil => rfl
  | cons _ _ _ ih => rw [List.flatMap_cons, ih, Tab.getList_add]

/-! ### What an access leaves reachable (R163, R182) -/

/-- Nothing that an access does to memory, counters and events decides what can be reached. -/
theorem Kept.reach {s t : State} (h : Kept 2147 s t) (a : Nat) : t.reach a = s.reach a := by
  obtain ⟨-, -, -, -, up, -⟩ := h.only .memctl rfl
  have pos : t.pos = s.pos := h.only .pos rfl
  have det : t.det = s.det := h.only .det rfl
  have hk : t.hk = s.hk := h.only .hk rfl
  have live : t.live = s.live := h.only .live rfl
  simp only [State.reach, State.resetting, State.dieDown, State.posOf, State.position, State.bankDown, h.part, up, pos, det, hk, live] <;> rfl

theorem State.blocked_congr {s t : State} (h : ∀ a, t.reach a = s.reach a) (l : List Piece) : t.blocked l = s.blocked l := by
  induction l with
  | nil => rfl
  | cons p l ih => rw [State.blocked, State.blocked, ih, h]

@[simp] theorem State.reach_readChecked (s : State) (r : Reader) (p : Piece) (a : Nat) : (s.readChecked r p).st.reach a = s.reach a :=
  ((s.readChecked_kept_touched r p).reach a).trans (s.reach_touch p a)

@[simp] theorem State.reach_readPieces (s : State) (r : Reader) (l : List Piece) (a : Nat) : (s.readPieces r l).st.reach a = s.reach a := by
  induction l generalizing s with
  | nil => rfl
  | cons p l ih =>
    simp only [State.readPieces]
    split
    · exact (ih _).trans (s.reach_readChecked r p a)
    · exact s.reach_readChecked r p a

@[simp] theorem State.reach_reportBlocked (s : State) (x : Nat) (c : Code) (src : Src) (a : Nat) : (s.reportBlocked x c src).reach a = s.reach a :=
  (State.reportBlocked_kept rfl (Kept.refl 2147 s)).reach a

@[simp] theorem State.reach_read (s : State) (r : Reader) (x n a : Nat) : (s.read r x n).st.reach a = s.reach a := by
  simp only [State.read]
  split <;> simp

@[simp] theorem State.reach_writePiece (s : State) (st : Tile) (b : Nat) (bs : List Byte) (a : Nat) : (s.writePiece st b bs).reach a = s.reach a := by
  simp only [State.writePiece]
  refine Eq.trans ?_ (s.reach_touch (b, bs.length) a)
  split <;> rfl

@[simp] theorem State.reach_writePieces (s : State) (st : Nat → Tile) (bs : List Byte) (l : List Piece) (a : Nat) :
    (s.writePieces st bs l).reach a = s.reach a := by
  induction l generalizing s bs with
  | nil => rfl
  | cons p l ih => rw [State.writePieces, ih, State.reach_writePiece]

@[simp] theorem State.reach_write (s : State) (src : Src) (st : Tile) (x : Nat) (bs : List Byte) (a : Nat) : (s.write src st x bs).st.reach a = s.reach a := by
  simp only [State.write]
  split <;> simp

@[simp] theorem State.reach_poisonRange (s : State) (x n a : Nat) : (s.poisonRange x n).reach a = s.reach a :=
  (State.poisonRange_kept rfl (Kept.refl 2147 s)).reach a

@[simp] theorem State.reach_copy (s : State) (r : Reader) (x y n a : Nat) : (s.copy r x y n).st.reach a = s.reach a := by
  simp only [State.copy]
  split
  · simp
  · split
    · simp
    · split <;> simp

/-! ### What a read changes (R163, R177, R190) -/

/-- Of memory, only check words, open rows and waiting times differ. -/
def State.SameStore (s t : State) : Prop :=
  t.mem = { s.mem with tiles := t.mem.tiles, row := t.mem.row, coreWait := t.mem.coreWait }

theorem State.SameStore.refl (s : State) : s.SameStore s := rfl

theorem State.SameStore.trans {s t u : State} (h : s.SameStore t) (k : t.SameStore u) : s.SameStore u := by
  rw [State.SameStore] at h k ⊢
  rw [k, h]

theorem State.sameStore_of_mem {s t : State} (h : t.mem = s.mem) : s.SameStore t := by
  rw [State.SameStore, h]

section SameStore

variable {s t : State} (h : s.SameStore t)

include h

theorem State.SameStore.bytes : t.mem.bytes = s.mem.bytes := by rw [h]
theorem State.SameStore.guard : t.mem.guard = s.mem.guard := by rw [h]
theorem State.SameStore.atoms : t.mem.atoms = s.mem.atoms := by rw [h]
theorem State.SameStore.patrol : t.mem.patrol = s.mem.patrol := by rw [h]

theorem State.SameStore.bytesAt (a n : Nat) : t.bytesAt a n = s.bytesAt a n := by rw [State.bytesAt, h.bytes]; rfl
theorem State.SameStore.atomAt (a : Nat) : t.atomAt a = s.atomAt a := by rw [State.atomAt, h.atoms]; rfl

end SameStore

theorem State.sameStore_touch (s : State) (p : Piece) : s.SameStore (s.touch p) := by rw [State.touch_eq]; rfl
theorem State.sameStore_waited (s : State) (src : Src) (a : Nat) : s.SameStore (s.waited src a) := by rw [State.waited_eq]; rfl

@[simp] theorem State.countFail_mem (s : State) (r : Reader) : (s.countFail r).mem = s.mem := by
  rw [State.countFail]
  split <;> rfl

@[simp] theorem State.countPoison_mem (s : State) (r : Reader) : (s.countPoison r).mem = s.mem := by
  rw [State.countPoison]
  split <;> rfl

theorem State.sameStore_guardRead (s : State) (t : Nat) : s.SameStore (s.guardRead t) := by
  simp only [State.guardRead]
  split
  · split <;> rfl
  · rfl

/-- A check without an alternative source changes at most the tile's check word (R177, R178). -/
theorem State.sameStore_check (s : State) {r : Reader} (hr : r.alt = none) (t : Nat) : s.SameStore (s.check r t).st := by
  have nowhere : (s.countFail r).counterpart r t = none := by simp only [State.counterpart, hr]
  simp only [State.check, nowhere]
  split
  · exact State.sameStore_of_mem (s.countPoison_mem r)
  · split
    · rfl
    · exact (State.sameStore_of_mem (s.countFail_mem r)).trans rfl

theorem State.sameStore_reduceCheck (s : State) (r : Reader) (t : Nat) : s.SameStore (s.reduceCheck r t).st := by
  simp only [State.reduceCheck]
  split
  · split <;> rfl
  · rfl

theorem State.sameStore_readChecked (s : State) {r : Reader} (hr : r.alt = none) (p : Piece) : s.SameStore (s.readChecked r p).st := by
  have opened : s.SameStore ((s.touch p).guardRead (p.1 / 4096)) := (s.sameStore_touch p).trans (State.sameStore_guardRead _ _)
  have checked : s.SameStore (s.readPiece r p).st := by
    simp only [State.readPiece]
    split
    · exact opened.trans (State.sameStore_check _ hr _)
    · split
      · split
        · exact opened.trans (State.sameStore_of_mem (State.countPoison_mem _ r))
        · exact opened
      · exact opened.trans (State.sameStore_check _ (r := { r with die := none, mdie := _ }) hr _)
  simp only [State.readChecked]
  split
  · exact checked.trans (State.sameStore_reduceCheck _ r _)
  · exact checked

theorem State.sameStore_readPieces (s : State) {r : Reader} (hr : r.alt = none) (l : List Piece) : s.SameStore (s.readPieces r l).st := by
  induction l generalizing s with
  | nil => rfl
  | cons p l ih =>
    simp only [State.readPieces]
    split
    · exact (s.sameStore_readChecked hr p).trans (ih _)
    · exact s.sameStore_readChecked hr p

theorem State.sameStore_read (s : State) {r : Reader} (hr : r.alt = none) (a n : Nat) : s.SameStore (s.read r a n).st := by
  simp only [State.read]
  split
  · exact State.sameStore_of_mem (s.reportBlocked_mem _ _ _)
  · exact (s.sameStore_waited r.src a).trans (State.sameStore_readPieces _ hr _)

/-! ### Reads of tiles that check good (R177, R190, R413) -/

/-- Nothing but OVERFLOW bits, open rows and waiting times of memory differs: every tile checks as it did. -/
structure State.Alike (s t : State) : Prop where
  store : s.SameStore t
  poisoned : ∀ i, (t.tile i).poisoned = (s.tile i).poisoned
  syndrome : ∀ i, (t.tile i).syndrome = (s.tile i).syndrome

theorem State.Alike.refl (s : State) : s.Alike s := ⟨.refl s, fun _ => rfl, fun _ => rfl⟩

theorem State.Alike.trans {s t u : State} (h : s.Alike t) (k : t.Alike u) : s.Alike u :=
  ⟨h.store.trans k.store, fun i => (k.poisoned i).trans (h.poisoned i), fun i => (k.syndrome i).trans (h.syndrome i)⟩

theorem State.alike_of_mem {s t : State} (h : t.mem = s.mem) : s.Alike t := by
  have tiles (i : Nat) : t.tile i = s.tile i := by rw [State.tile, h]; rfl
  exact ⟨State.sameStore_of_mem h, fun i => by rw [tiles], fun i => by rw [tiles]⟩

theorem State.alike_touch (s : State) (p : Piece) : s.Alike (s.touch p) :=
  ⟨s.sameStore_touch p, fun _ => by rw [State.tile_touch], fun _ => by rw [State.tile_touch]⟩

theorem State.alike_waited (s : State) (src : Src) (a : Nat) : s.Alike (s.waited src a) :=
  ⟨s.sameStore_waited src a, fun _ => by rw [State.tile_waited], fun _ => by rw [State.tile_waited]⟩

/-- A guard read sets at most OVERFLOW (R190). -/
theorem State.alike_guardRead (s : State) (t : Nat) : s.Alike (s.guardRead t) := by
  have overflow (a : Nat) : s.Alike ((s.setTile t { s.tile t with overflow := true }).bump a 1) := by
    refine ⟨rfl, fun i => ?_, fun i => ?_⟩
    all_goals
      rw [show ((s.setTile t { s.tile t with overflow := true }).bump a 1).tile i = _ from State.tile_setTile s t _ i]
      split
      · next h => rw [h]
      · rfl
  simp only [State.guardRead]
  split
  · split
    · exact overflow _
    · exact .refl s
  · exact .refl s

/-- The tile of a piece checks good and lies in no atomic target region. -/
def State.goodPiece (s : State) (p : Piece) : Prop :=
  (s.tile (p.1 / 4096)).poisoned = false ∧ (s.tile (p.1 / 4096)).syndrome = 0 ∧ s.atomAt (4096 * (p.1 / 4096)) = none

theorem State.Alike.goodPiece {s t : State} (h : s.Alike t) {p : Piece} (hp : s.goodPiece p) : t.goodPiece p := by
  rw [State.goodPiece, h.poisoned, h.syndrome, h.store.atomAt]
  exact hp

/-- A plain range consists of good pieces. -/
theorem State.plain.goodPiece {s : State} {a n : Nat} (h : s.plain a n) {p : Piece} (hp : p ∈ piecesOf a n) : s.goodPiece p := by
  obtain ⟨lo, hi⟩ := (cut_piecesOf a n).mem hp
  exact h (p.1 / 4096) (Nat.div_le_div_right lo) (by omega)

theorem State.Alike.plain {s t : State} (h : s.Alike t) {a n : Nat} (hp : s.plain a n) : t.plain a n := by
  intro i lo hi
  rw [h.poisoned, h.syndrome, h.store.atomAt]
  exact hp i lo hi

theorem State.readPiece_good {s : State} {p : Piece} (hp : s.goodPiece p) (r : Reader) : ∃ u, s.readPiece r p = { st := u } ∧ s.Alike u := by
  have opened : s.Alike ((s.touch p).guardRead (p.1 / 4096)) := (s.alike_touch p).trans (State.alike_guardRead _ _)
  obtain ⟨unpoisoned, crc, -⟩ := opened.goodPiece hp
  simp only [State.readPiece, State.check_good unpoisoned crc, unpoisoned, Bool.false_eq_true, if_false]
  split
  · exact ⟨_, rfl, opened⟩
  · split
    · exact ⟨_, rfl, opened.trans (State.alike_of_mem rfl)⟩
    · exact ⟨_, rfl, opened⟩

theorem State.readChecked_good {s : State} {p : Piece} (hp : s.goodPiece p) (r : Reader) : ∃ u, s.readChecked r p = { st := u } ∧ s.Alike u := by
  obtain ⟨u, hread, alike⟩ := State.readPiece_good hp r
  obtain ⟨-, -, free⟩ := alike.goodPiece hp
  exact ⟨u, by simp [State.readChecked, hread, State.reduceCheck, free], alike⟩

theorem State.readPieces_good (r : Reader) (l : List Piece) {s : State} (hl : ∀ p ∈ l, s.goodPiece p) :
    ∃ u, s.readPieces r l = { st := u, bytes := l.flatMap (fun p => s.bytesAt p.1 p.2) } ∧ s.Alike u := by
  induction l generalizing s with
  | nil => exact ⟨s, rfl, .refl s⟩
  | cons p l ih =>
    obtain ⟨hp, hl⟩ := List.forall_mem_cons.mp hl
    obtain ⟨t, hread, alike⟩ := State.readChecked_good hp r
    obtain ⟨u, hrest, alike'⟩ := ih (s := t) fun y hy => alike.goodPiece (hl y hy)
    refine ⟨u, ?_, alike.trans alike'⟩
    simp [State.readPieces, hread, hrest, alike.store.bytesAt]

/-- A read of a plain range that can be reached gives its bytes as they stand. -/
theorem State.read_plain {s : State} {a n : Nat} (hfree : s.blocked (piecesOf a n) = none) (hp : s.plain a n) (r : Reader) :
    ∃ u, s.read r a n = { st := u, bytes := s.bytesAt a n } ∧ s.Alike u := by
  have waiting := s.alike_waited r.src a
  obtain ⟨u, hread, alike⟩ := State.readPieces_good r (piecesOf a n) fun p hp' => waiting.goodPiece (hp.goodPiece hp')
  refine ⟨u, ?_, waiting.trans alike⟩
  have whole : (piecesOf a n).flatMap (fun p => s.bytesAt p.1 p.2) = s.bytesAt a n := (cut_piecesOf a n).flatMap_getList s.mem.bytes
  simp only [State.read, hfree, hread, waiting.store.bytesAt, whole]

theorem State.bytesAt_eq_map (s : State) (a n : Nat) : s.bytesAt a n = (List.range n).map (fun i => Tab.get s.mem.bytes (a + i)) :=
  getList_eq_map _ _ _

@[simp] theorem State.length_bytesAt (s : State) (a n : Nat) : (s.bytesAt a n).length = n := by simp [State.bytesAt_eq_map]

/-! ### Writes (R163, R176) -/

theorem State.writePieces_bytes (st : Nat → Tile) {a n : Nat} {l : List Piece} (h : Cut a n l) (s : State) {bs : List Byte} (hlen : bs.length = n) :
    (s.writePieces st bs l).mem.bytes = Tab.setList s.mem.bytes a bs := by
  induction h generalizing s bs with
  | nil => rw [List.length_eq_zero_iff.mp hlen]; rfl
  | @cons a l n ps _ _ _ ih =>
    have taken : (bs.take l).length = l := by rw [List.length_take]; omega
    have dropped : (bs.drop l).length = n := by rw [List.length_drop]; omega
    rw [State.writePieces, ih _ dropped, State.writePiece_bytes]
    conv_rhs => rw [← List.take_append_drop l bs, Tab.setList_append, taken]

/-- A write that can be reached puts its bytes. -/
theorem State.write_bytes {s : State} {a : Nat} {bs : List Byte} (hfree : s.blocked (piecesOf a bs.length) = none) (src : Src) (st : Tile) :
    (s.write src st a bs).st.mem.bytes = Tab.setList s.mem.bytes a bs := by
  simp only [State.write, hfree]
  rw [State.writePieces_bytes _ (cut_piecesOf a bs.length) _ rfl, State.waited_bytes]

theorem get_setList_byte (t : Tab Byte) (a x : Nat) (bs : List Byte) :
    Tab.get (Tab.setList t a bs) x = if a ≤ x ∧ x < a + bs.length then bs.getD (x - a) 0#8 else Tab.get t x :=
  Tab.get_setList t a x bs

/-- Settles O39: the pieces of a range are its stretches in turn, so a write puts its bytes in turn and a read of good tiles gathers them. -/
theorem memoryReadsAndWrites : Obligations.MemoryReadsAndWrites := by
  intro s rd src st a n bs
  refine ⟨fun hfree => ⟨?code, fun x => ?bytes⟩, fun hfree hp => ?read, fun x c hx => ?unread, fun x c hx => ?unwritten⟩
  case code => simp only [State.write, hfree]
  case bytes => rw [State.write_bytes hfree, get_setList_byte]
  case read =>
    obtain ⟨u, hread, alike⟩ := State.read_plain hfree hp rd
    rw [hread]
    exact ⟨rfl, s.bytesAt_eq_map a n, alike.store.bytes⟩
  case unread => simp [State.read, hx]
  case unwritten => simp [State.write, hx]

end Sys2Proof.Machine
end

section
/-! PROOFS of the family 06_scratchpad_and_memory: the host's window, patrol, rows and banks (R176, R177, R181, R183, R185, R260, R262), copies (R171, R172, R178, R352). -/

namespace Sys2Proof.Machine

/-! ### A tile's check (R177, R178) -/

/-- A tile that has failed its check is poisoned, and the failure counted and reported. -/
def State.crcFailed (s : State) (r : Reader) (t : Nat) (args : List Nat) : State := ((s.countFail r).poison t).raise .TILE_CRC r.src args

/-- A check without an alternative source finds a tile poisoned, good or failing. -/
theorem State.check_cases (s : State) {r : Reader} (hr : r.alt = none) (t : Nat) :
    ((s.tile t).poisoned = true ∧ s.check r t = { st := s.countPoison r, code := .TILE_POISONED })
    ∨ ((s.tile t).poisoned = false ∧ (s.tile t).syndrome = 0 ∧ s.check r t = { st := s })
    ∨ ((s.tile t).poisoned = false ∧ (s.tile t).syndrome ≠ 0 ∧ ∃ args, s.check r t = { st := s.crcFailed r t args, code := .TILE_CRC }) := by
  have nowhere : (s.countFail r).counterpart r t = none := by simp only [State.counterpart, hr]
  simp only [State.check, nowhere]
  cases hp : (s.tile t).poisoned with
  | true => exact .inl ⟨rfl, rfl⟩
  | false =>
    by_cases hs : (s.tile t).syndrome = 0
    · exact .inr (.inl ⟨rfl, hs, by simp [hs]⟩)
    · exact .inr (.inr ⟨rfl, hs, _, by simp only [hs, Bool.false_eq_true, if_false, State.crcFailed]; rfl⟩)

theorem State.tile_congr {s t : State} (h : t.mem = s.mem) (i : Nat) : t.tile i = s.tile i := by rw [State.tile, h]; rfl

/-- Reading a failed tile's check word: poisoned. -/
theorem State.poisoned_crcFailed (s : State) (r : Reader) (t : Nat) (args : List Nat) : ((s.crcFailed r t args).tile t).poisoned = true := by
  rw [State.crcFailed, State.tile_congr (State.raise_mem _ _ _ _ _), State.poison, State.tile_setTile, if_pos rfl]

section Check

variable (s : State) {r : Reader} (hr : r.alt = none) (t : Nat)

include hr

theorem State.check_code_ne_OK : (s.check r t).code ≠ .OK ↔ (s.tile t).poisoned = true ∨ (s.tile t).syndrome ≠ 0 := by
  obtain ⟨hp, hc⟩ | ⟨hp, hs, hc⟩ | ⟨hp, hs, args, hc⟩ := s.check_cases hr t
  · simp [hc, hp]
  · simp [hc, hp, hs]
  · simp [hc, hs]

/-- After its check a tile is poisoned exactly where the check did not find it good. -/
theorem State.poisoned_check : ((s.check r t).st.tile t).poisoned = ((s.check r t).code != .OK) := by
  obtain ⟨hp, hc⟩ | ⟨hp, hs, hc⟩ | ⟨hp, hs, args, hc⟩ := s.check_cases hr t
  · rw [hc, State.tile_congr (s.countPoison_mem r), hp]; rfl
  · rw [hc, hp]; rfl
  · rw [hc, State.poisoned_crcFailed]; rfl

theorem State.tile_check_of_match (h : (s.tile t).syndrome = 0) : (s.check r t).st.tile t = s.tile t := by
  obtain ⟨hp, hc⟩ | ⟨hp, hs, hc⟩ | ⟨hp, hs, args, hc⟩ := s.check_cases hr t
  · rw [hc, State.tile_congr (s.countPoison_mem r)]
  · rw [hc]
  · exact absurd h hs

/-- A check by an M-die counts nothing but the failing check. -/
theorem State.reg_check_mdie (hd : r.die = none) {a : Nat} (ha : a ≠ memReg r.mdie Reg.MEM_CRC_FAIL_TOTAL) : (s.check r t).st.reg a = s.reg a := by
  have failed : (s.countFail r).reg a = s.reg a := by rw [State.countFail, hd, State.reg_bump, if_neg ha]
  obtain ⟨hp, hc⟩ | ⟨hp, hs, hc⟩ | ⟨hp, hs, args, hc⟩ := s.check_cases hr t
  · rw [hc, State.countPoison, hd]
  · rw [hc]
  · rw [hc]; exact failed

end Check

/-! ### The host-managed window (R260, R262) -/

theorem exec_hostMemWrite (s : State) (w : Nat) (bs : List Byte) : exec (.hostMemWrite w bs) s = .next (
    if s.hdmHas w bs.length then s.writePieces (fun _ => {}) bs (piecesOf (s.hdmAddr w) bs.length) else s) := by
  show execHostMemWrite w bs s = _
  rw [execHostMemWrite]

theorem exec_hostMemRead (s : State) (w : Nat) : exec (.hostMemRead w) s = .next (if s.hdmHas w 64 then s.hostLineRead w else s) := by
  show execHostMemRead w s = _
  rw [execHostMemRead]

/-- The check of a line's tile, once the access has opened its row. -/
def State.lineCheck (s : State) (w : Nat) : Check :=
  (s.touch (s.hdmAddr w, 64)).check { Reader.ofMdie (w / 4096 % 8 / 2) with who := 1 } (s.hdmAddr w / 4096)

/-- A line and its poison indication are shown to the host. -/
def State.showLine (s : State) (line : List Byte) (bad : Bool) : State := { s with mem := { s.mem with hostLine := line, hostPoison := bad } }

@[simp] theorem State.showLine_bytes (s : State) (line : List Byte) (bad : Bool) : (s.showLine line bad).mem.bytes = s.mem.bytes := rfl
@[simp] theorem State.showLine_line (s : State) (line : List Byte) (bad : Bool) : (s.showLine line bad).mem.hostLine = line := rfl
@[simp] theorem State.showLine_poison (s : State) (line : List Byte) (bad : Bool) : (s.showLine line bad).mem.hostPoison = bad := rfl
@[simp] theorem State.tile_showLine (s : State) (line : List Byte) (bad : Bool) (t : Nat) : (s.showLine line bad).tile t = s.tile t := rfl

/-- The line read is shown as it stands, with the outcome of its tile's check, whose event changes no memory. -/
theorem State.hostLineRead_eq (s : State) (w : Nat) : ∃ u : State, u.mem = (s.lineCheck w).st.mem
    ∧ s.hostLineRead w = u.showLine (s.bytesAt (s.hdmAddr w) 64) ((s.lineCheck w).code != .OK) := by
  refine ⟨_, ?_, rfl⟩
  split
  · rw [State.raise_mem, State.lineCheck]
  · rw [State.lineCheck]

theorem State.sameStore_lineCheck (s : State) (w : Nat) : s.SameStore (s.lineCheck w).st :=
  (s.sameStore_touch _).trans (State.sameStore_check _ rfl _)

theorem State.lineCheck_code_ne_OK (s : State) (w : Nat) :
    (s.lineCheck w).code ≠ .OK ↔ (s.tile (s.hdmAddr w / 4096)).poisoned = true ∨ (s.tile (s.hdmAddr w / 4096)).syndrome ≠ 0 := by
  rw [State.lineCheck, State.check_code_ne_OK _ rfl, State.tile_touch]

theorem State.poisoned_lineCheck (s : State) (w : Nat) :
    ((s.lineCheck w).st.tile (s.hdmAddr w / 4096)).poisoned = ((s.lineCheck w).code != .OK) :=
  State.poisoned_check _ rfl _

/-! ### Patrol (R185) -/

theorem exec_patrolRead (s : State) (m : Nat) (e : List HbmReport) : exec (.patrolRead m e) s = .next (
    if bitOf (s.cfg (memReg m Reg.MEM_CFG)) 1 then (s.hbmReports e).patrolRead m else s) := rfl

/-- The check of a patrol read's tile. -/
def State.patrolCheck (s : State) (m : Nat) : Check :=
  (s.touch (4096 * patrolTile m (Tab.get s.mem.patrol m), 4096)).check { Reader.ofMdie m with who := 2 } (patrolTile m (Tab.get s.mem.patrol m))

/-- The place of the next patrol read. -/
def nextPatrol (i : Nat) : Nat := if passTiles ≤ i + 1 then 0 else i + 1

/-- The state of a patrol read after its check, the pass one place on. -/
def State.patrolled (s : State) (m : Nat) : State :=
  { (s.patrolCheck m).st with
    mem := { (s.patrolCheck m).st.mem with patrol := Tab.set (s.patrolCheck m).st.mem.patrol m (nextPatrol (Tab.get s.mem.patrol m)) } }

/-- A patrol read checks its tile and steps the pass, whose last tile is counted. -/
theorem State.patrolRead_eq (s : State) (m : Nat) : s.patrolRead m =
    if passTiles ≤ Tab.get s.mem.patrol m + 1 then (s.patrolled m).bump (memReg m Reg.MEM_PATROL_PASS_TOTAL) 1 else s.patrolled m := by
  simp only [State.patrolRead, State.patrolled, State.patrolCheck, nextPatrol, decide_eq_true_eq]

theorem State.patrolRead_mem (s : State) (m : Nat) : (s.patrolRead m).mem = (s.patrolled m).mem := by
  rw [State.patrolRead_eq]
  split <;> rfl

theorem State.sameStore_patrolCheck (s : State) (m : Nat) : s.SameStore (s.patrolCheck m).st :=
  (s.sameStore_touch _).trans (State.sameStore_check _ rfl _)

theorem State.reg_patrolCheck (s : State) (m : Nat) :
    (s.patrolCheck m).st.reg (memReg m Reg.MEM_PATROL_PASS_TOTAL) = s.reg (memReg m Reg.MEM_PATROL_PASS_TOTAL) := by
  have other : memReg m Reg.MEM_PATROL_PASS_TOTAL ≠ memReg m Reg.MEM_CRC_FAIL_TOTAL := by
    simp [memReg, Reg.MEM_PATROL_PASS_TOTAL, Reg.MEM_CRC_FAIL_TOTAL]
  have opened (p : Piece) (a : Nat) : (s.touch p).reg a = s.reg a := by rw [State.touch_eq]; rfl
  exact (State.reg_check_mdie _ rfl _ rfl other).trans (opened _ _)

theorem State.reg_patrolRead (s : State) (m : Nat) : (s.patrolRead m).reg (memReg m Reg.MEM_PATROL_PASS_TOTAL) =
    if passTiles ≤ Tab.get s.mem.patrol m + 1 then min (2 ^ 64 - 1) (s.reg (memReg m Reg.MEM_PATROL_PASS_TOTAL) + 1)
    else s.reg (memReg m Reg.MEM_PATROL_PASS_TOTAL) := by
  have checked : (s.patrolled m).reg (memReg m Reg.MEM_PATROL_PASS_TOTAL) = s.reg (memReg m Reg.MEM_PATROL_PASS_TOTAL) := s.reg_patrolCheck m
  rw [State.patrolRead_eq]
  split
  · rw [State.reg_bump, if_pos rfl, checked]
  · exact checked

theorem State.patrolRead_bytes (s : State) (m : Nat) : (s.patrolRead m).mem.bytes = s.mem.bytes := by
  rw [State.patrolRead_mem, State.patrolled, (s.sameStore_patrolCheck m).bytes]

theorem State.patrolRead_patrol (s : State) (m : Nat) : Tab.get (s.patrolRead m).mem.patrol m = nextPatrol (Tab.get s.mem.patrol m) := by
  rw [State.patrolRead_mem, State.patrolled, Tab.get_set_same]

theorem State.tile_patrolRead (s : State) (m t : Nat) : (s.patrolRead m).tile t = (s.patrolCheck m).st.tile t := by
  rw [State.tile, State.patrolRead_mem, State.patrolled, State.tile]

/-- A tile whose check fails on patrol is poisoned. -/
theorem State.patrolRead_poisons {s : State} {m : Nat} (h : (s.tile (patrolTile m (Tab.get s.mem.patrol m))).syndrome ≠ 0) :
    ((s.patrolRead m).tile (patrolTile m (Tab.get s.mem.patrol m))).poisoned = true := by
  have failed : (s.patrolCheck m).code ≠ .OK := (State.check_code_ne_OK _ rfl _).mpr (.inr (by rwa [State.tile_touch]))
  rw [State.tile_patrolRead, State.patrolCheck, State.poisoned_check _ rfl]
  exact bne_iff_ne.mpr failed

theorem State.tile_patrolRead_of_match {s : State} {m : Nat} (h : (s.tile (patrolTile m (Tab.get s.mem.patrol m))).syndrome = 0) :
    (s.patrolRead m).tile (patrolTile m (Tab.get s.mem.patrol m)) = s.tile (patrolTile m (Tab.get s.mem.patrol m)) := by
  rw [State.tile_patrolRead, State.patrolCheck, State.tile_check_of_match _ rfl _ (by rwa [State.tile_touch]), State.tile_touch]

/-! ### Rows and banks (R176, R181, R183) -/

/-- The state of a bank that has no row open. -/
def State.rowClosed (s : State) (b : Nat) : State := { s with mem := { s.mem with row := Tab.set s.mem.row b 0 } }

theorem State.get_zeroTiles_bytes (s : State) (a n x : Nat) :
    Tab.get (s.zeroTiles a n).mem.bytes x = if a ≤ x ∧ x < a + 4096 * n then 0#8 else Tab.get s.mem.bytes x :=
  Tab.get_eraseRange _ _ _ _

theorem State.tile_zeroTiles (s : State) (a n t : Nat) :
    (s.zeroTiles a n).tile t = if a / 4096 ≤ t ∧ t < a / 4096 + n then {} else s.tile t :=
  Tab.get_eraseRange _ _ _ _

theorem bitOf_sub_two_pow {v b : Nat} (h : bitOf v b = true) : bitOf (v - 2 ^ b) b = false := by
  simp only [bitOf, beq_iff_eq, beq_eq_false_iff_ne] at h ⊢
  have cleared : (v - 2 ^ b * 1) / 2 ^ b = v / 2 ^ b - 1 := Nat.sub_mul_div v (2 ^ b) 1
  rw [Nat.mul_one] at cleared
  omega

/-- The state of a bank that has powered up. -/
def State.bankUp (s : State) (q b : Nat) : State :=
  let s1 := s.zeroTiles (coreBase q + b * 2 ^ 18) 64
  { s1 with mem := { s1.mem with poweringUp := Tab.set s1.mem.poweringUp q (Tab.get s1.mem.poweringUp q - 2 ^ b) } }

theorem exec_bankPowerUpDone (s : State) (q b : Nat) : exec (.bankPowerUpDone q b) s = .next (
    if bitOf (Tab.get s.mem.poweringUp q) b then s.bankUp q b else s) := rfl

theorem State.bankUp_bytes (s : State) (q b x : Nat) : Tab.get (s.bankUp q b).mem.bytes x =
    if coreBase q + b * 2 ^ 18 ≤ x ∧ x < coreBase q + b * 2 ^ 18 + 2 ^ 18 then 0#8 else Tab.get s.mem.bytes x := by
  have size : coreBase q + b * 2 ^ 18 + 4096 * 64 = coreBase q + b * 2 ^ 18 + 2 ^ 18 := by norm_num
  rw [← size, ← State.get_zeroTiles_bytes, State.bankUp]

theorem State.tile_bankUp (s : State) (q b : Nat) {i : Nat} (hi : i < 64) : (s.bankUp q b).tile ((coreBase q + b * 2 ^ 18) / 4096 + i) = {} := by
  rw [State.tile, State.bankUp]
  exact (s.tile_zeroTiles _ 64 _).trans (if_pos (by omega))

theorem State.bankUp_poweringUp (s : State) (q b : Nat) :
    (s.bankUp q b).mem.poweringUp = Tab.set s.mem.poweringUp q (Tab.get s.mem.poweringUp q - 2 ^ b) := rfl

/-- Settles O40: a line is its pieces, a check has three outcomes, and a bank's power-up clears its 64 tiles. -/
theorem hostLinesPatrolAndBanks : Obligations.HostLinesPatrolAndBanks := by
  refine ⟨fun s w bs hw => ?write, fun s w bs hw => ?noWrite, fun s w hw => ?read, fun s w hw => ?noRead, fun s m e s' hs' hen => ?patrol,
    fun s m e hen => ?noPatrol, fun s b => ?row, fun s q b hb => ?bank, fun s q b hb => ?noBank⟩
  case write =>
    refine ⟨_, (exec_hostMemWrite s w bs).trans (by rw [if_pos hw]), fun x => ?_⟩
    rw [State.writePieces_bytes _ (cut_piecesOf _ _) _ rfl, get_setList_byte]
  case noWrite => rw [exec_hostMemWrite, hw, if_neg Bool.false_ne_true]
  case read =>
    obtain ⟨u, hu, hread⟩ := s.hostLineRead_eq w
    refine ⟨s.hostLineRead w, by rw [exec_hostMemRead, if_pos hw], ?_⟩
    rw [hread, State.tile_showLine, State.showLine_line, State.showLine_bytes, State.showLine_poison, State.tile_congr hu, s.poisoned_lineCheck w,
      ← s.lineCheck_code_ne_OK w, hu]
    exact ⟨s.bytesAt_eq_map _ 64, (s.sameStore_lineCheck w).bytes, bne_iff_ne, rfl⟩
  case noRead => rw [exec_hostMemRead, hw, if_neg Bool.false_ne_true]
  case patrol =>
    subst hs'
    exact ⟨_, by rw [exec_patrolRead, if_pos hen], State.patrolRead_bytes _ m, State.patrolRead_patrol _ m, State.reg_patrolRead _ m,
      State.patrolRead_poisons, State.tile_patrolRead_of_match⟩
  case noPatrol => rw [exec_patrolRead, hen, if_neg Bool.false_ne_true]
  case row => exact ⟨s.rowClosed b, rfl, Tab.get_set_same s.mem.row b 0, fun j hj => Tab.get_set_other s.mem.row 0 hj, rfl⟩
  case bank =>
    refine ⟨s.bankUp q b, by rw [exec_bankPowerUpDone, if_pos hb], ?_, fun j hj => ?_, s.bankUp_bytes q b, fun i => s.tile_bankUp q b⟩
    · rw [State.bankUp_poweringUp, Tab.get_set_same, bitOf_sub_two_pow hb]
    · rw [State.bankUp_poweringUp, Tab.get_set_other _ _ hj]
  case noBank => rw [exec_bankPowerUpDone, hb, if_neg Bool.false_ne_true]

/-! ### Remote operations that have not ended (R354) -/

/-- No remote operation has ended. -/
def State.Quiet (s : State) : Prop := endedRemote s.fab.remotes = none

theorem State.Quiet.settled {s : State} (h : s.Quiet) : s.settled = s := by
  rw [State.settled, State.closeRemotes, show endedRemote s.fab.remotes = none from h]

theorem State.Quiet.of_fab {s t : State} (h : s.Quiet) (hf : t.fab = s.fab) : t.Quiet := by
  rw [State.Quiet, hf]
  exact h

/-! ### COPY (R171, R172, R178, R352) -/

/-- A copy whose sides can be reached, from tiles that check good, brings the bytes as they stand. -/
theorem State.copy_plain {s : State} {a b n : Nat} (hsrc : s.blocked (piecesOf a n) = none) (hdst : s.blocked (piecesOf b n) = none)
    (hp : s.plain a n) (r : Reader) : ∃ u, s.copy r a b n = { st := u, bytes := s.bytesAt a n }
      ∧ u.mem.bytes = Tab.setList s.mem.bytes b (s.bytesAt a n) := by
  have waiting := s.alike_waited r.src b
  have reached : (s.waited r.src b).blocked (piecesOf a n) = none := (State.blocked_congr (s.reach_waited r.src b) _).trans hsrc
  obtain ⟨u, hread, alike⟩ := State.read_plain reached (waiting.plain hp) r
  rw [waiting.store.bytesAt] at hread
  refine ⟨u.writePieces (s.dataStatus a b) (s.bytesAt a n) (piecesOf b n), by simp only [State.copy, hdst, hread, if_true], ?_⟩
  rw [State.writePieces_bytes _ (cut_piecesOf b n) _ (s.length_bytesAt a n), alike.store.bytes, waiting.store.bytes]

/-- The bytes of a range laid at another place. -/
theorem get_setList_bytesAt (s : State) (a b n x : Nat) :
    Tab.get (Tab.setList s.mem.bytes b (s.bytesAt a n)) x = if b ≤ x ∧ x < b + n then Tab.get s.mem.bytes (a + (x - b)) else Tab.get s.mem.bytes x := by
  rw [get_setList_byte, State.length_bytesAt]
  split
  · have inside : x - b < n := by omega
    simp [State.bytesAt_eq_map, inside]
  · rfl

theorem State.countClass_mem (s : State) (q : Nat) (o : Op) : (s.countClass q o).mem = s.mem := by
  rw [State.countClass]
  split <;> rfl

theorem State.reach_countClass (s : State) (q : Nat) (o : Op) (a : Nat) : (s.countClass q o).reach a = s.reach a :=
  (State.countClass_kept rfl (Kept.refl 2147 s)).reach a

theorem exec_copyOp_busy {s : State} {q : Nat} {o : Op} (hn : (s.seq q).next .copy 0x1A = some o) (hb : s.copyBusy q = true) (e : List HbmReport) :
    exec (.copyOp q e) s = .next s := by
  show execCopyOp q e s = _
  simp only [execCopyOp, hn, hb, if_true]

/-- A copy that starts and leaves the remote operations as they are. -/
theorem exec_copyOp_ends {s t : State} {q : Nat} {o : Op} {e : List HbmReport} {c : Code} {a : Nat} (hn : (s.seq q).next .copy 0x1A = some o)
    (hb : s.copyBusy q = false) (hq : s.Quiet) (hstart : (s.hbmReports e).copyStart q o = t.opRan q o c 0 a) (hk : Kept 6243 (s.hbmReports e) t) :
    exec (.copyOp q e) s = .next (t.opRan q o c 0 a) ∧ s.ended (t.opRan q o c 0 a) q o c 0 a := by
  have reported : Kept 2147 s (s.hbmReports e) := State.hbmReports_kept rfl (Kept.refl _ s)
  have fab : t.fab = s.fab := (hk.only .fab rfl).trans (reported.only .fab rfl)
  have quiet : (t.opRan q o c 0 a).Quiet := hq.of_fab fab
  refine ⟨?_, State.ended_opRan ((hk.seqs rfl).trans (reported.seqs rfl)) q o c 0 a⟩
  show execCopyOp q e s = _
  simp only [execCopyOp, hn, hb, Bool.false_eq_true, if_false, hstart, quiet.settled]

theorem State.copyStart_local {s : State} {o : Op} (ha : isFar o.a = false) (hb : isFar o.b = false) (q : Nat) :
    s.copyStart q o = (
      let x := (s.countClass q o).copy (Reader.ofCore q) o.a o.b o.c
      x.st.opRan q o x.code 0 x.addr) := by
  rw [State.copyStart, ha, hb]
  rfl

theorem State.copyStart_misaligned {s : State} {o : Op} (ha : isFar o.a = true) (hm : o.a % 64 ≠ 0 ∨ o.c % 64 ≠ 0) (q : Nat) :
    s.copyStart q o = (s.countClass q o).opRan q o .REMOTE_ALIGN 0 o.a := by
  have misaligned : farMisaligned o.a o.c = true := by simpa [farMisaligned, ha] using hm
  rw [State.copyStart, ha, misaligned]
  rfl

theorem State.countClass_kept_run (s : State) (q : Nat) (o : Op) : Kept 6243 s (s.countClass q o) := State.countClass_kept rfl (Kept.refl _ s)

/-- Settles O41: a local copy reads its source whole before it writes, and no part of it touches another module. -/
theorem queuedCopies : Obligations.QueuedCopies := by
  intro s q o hn hq
  refine ⟨fun hb e => exec_copyOp_busy hn hb e, ?_⟩
  rintro e s' rfl
  have counted := (s.hbmReports e).countClass_kept_run q o
  have copied : Kept 6243 (s.hbmReports e) (((s.hbmReports e).countClass q o).copy (Reader.ofCore q) o.a o.b o.c).st := State.copy_kept rfl counted
  have reached (l : List Piece) : ((s.hbmReports e).countClass q o).blocked l = (s.hbmReports e).blocked l :=
    State.blocked_congr ((s.hbmReports e).reach_countClass q o) l
  have same : (s.hbmReports e).Alike ((s.hbmReports e).countClass q o) := State.alike_of_mem ((s.hbmReports e).countClass_mem q o)
  refine ⟨fun hb ha hb' hsrc hdst hp => ?copies, fun hb ha hb' x c hx => ?blocked, fun hb ha hm => ?misaligned⟩
  case copies =>
    obtain ⟨u, hu, hbytes⟩ := State.copy_plain ((reached _).trans hsrc) ((reached _).trans hdst) (same.plain hp) (Reader.ofCore q)
    rw [hu] at copied
    obtain ⟨hx, hend⟩ := exec_copyOp_ends hn hb hq ((State.copyStart_local ha hb' q).trans (by rw [hu])) copied
    refine ⟨_, hx, hend, fun x => ?_⟩
    rw [State.opRan_mem, hbytes, get_setList_bytesAt, same.store.bytes]
  case blocked =>
    have stopped : ((s.hbmReports e).countClass q o).copy (Reader.ofCore q) o.a o.b o.c
        = { st := ((s.hbmReports e).countClass q o).reportBlocked x c (Reader.ofCore q).src, code := c, addr := x } := by
      simp only [State.copy, (reached _).trans hx]
    rw [stopped] at copied
    obtain ⟨hx, hend⟩ := exec_copyOp_ends hn hb hq ((State.copyStart_local ha hb' q).trans (by rw [stopped])) copied
    exact ⟨_, hx, hend, by rw [State.opRan_mem, State.reportBlocked_mem, same.store.bytes]⟩
  case misaligned =>
    obtain ⟨hx, hend⟩ := exec_copyOp_ends hn hb hq (State.copyStart_misaligned ha hm q) counted
    exact ⟨_, hx, hend, by rw [State.opRan_mem, State.countClass_mem]⟩

/-! ### DMA_COPY (R172, R178, R352) -/

theorem exec_dmaCopy {s : State} {h : Hdr} (ha : s.accepts h 3 = true) (c : DmaCopy) :
    exec (.dmaCopy h c) s = .next ((s.start h).dmaCopyStart (s.descOf h) c).settled := by
  show execDmaCopy h c s = _
  rw [execDmaCopy, State.descriptor_accepted ha]

theorem State.dmaCopyStart_refused {s : State} {c : DmaCopy} (h : s.dmaCopyStatus c ≠ .OK) (d : Desc) :
    s.dmaCopyStart d c = s.finish d (s.dmaCopyStatus c) 0 0 := by
  simp only [State.dmaCopyStart, if_pos h]

/-- Between sides of this module and the host a copy is performed at once. -/
theorem State.dmaCopyStart_near {s : State} {c : DmaCopy} (h : s.dmaCopyStatus c = .OK) (hs : s.sideFar c.srcSpace c.src = false)
    (hd : s.sideFar c.dstSpace c.dst = false) (d : Desc) : s.dmaCopyStart d c = s.dmaCopyWrite d c default := by
  simp only [State.dmaCopyStart, h, hs, hd, ne_eq, not_true_eq_false, if_false, Bool.or_self, Bool.false_eq_true]

@[simp] theorem State.loc_start (s : State) (h : Hdr) (a : Nat) : (s.start h).loc a = s.loc a := by rw [State.start_eq]; rfl

/-- Settles O24: a refusal is the first of `dmaCopyStatus`, and a copy between the host and the module reads and then writes. -/
theorem dmaCopies : Obligations.DmaCopies := by
  refine ⟨fun s hq => State.Quiet.settled hq, fun s h c ha => ?_⟩
  simp only [exec_dmaCopy ha, Host.Outcome.next.injEq]
  refine ⟨fun hf => ?format, fun e he hbad => ?refused, fun hok hs hd hnear hfree hpost => ?toModule, fun hok hs hd hnear hread hpost => ?toHost⟩
  case format =>
    have status : (s.start h).dmaCopyStatus c = .DMA_FORMAT := if_pos hf
    rw [State.dmaCopyStart_refused (by simp [status]), status]
  case refused =>
    subst he
    rw [State.dmaCopyStart_refused hbad]
  case toModule =>
    have nearSrc : (s.start h).sideFar c.srcSpace c.src = false := by simp [State.sideFar, hs]
    have nearDst : (s.start h).sideFar c.dstSpace c.dst = false := by simp [State.sideFar, hnear]
    have places : (s.start h).spacePieces c.dstSpace c.dst c.len = piecesOf (s.loc c.dst) c.len := by simp [State.spacePieces, hd]
    rw [State.dmaCopyStart_near hok nearSrc nearDst]
    have read : (s.start h).dmaCopyRead c (default : Remote).far = { st := s.start h, bytes := (s.start h).hostRead c.src c.len } := if_pos hs
    have inModule : c.dstSpace ≠ 0 := by rw [hd]; decide
    simp only [State.dmaCopyWrite, read, inModule, nearDst, places, hfree, State.dmaCopyEnd, hpost, ne_eq, not_true_eq_false, if_false,
      Bool.false_eq_true]
  case toHost =>
    have nearSrc : (s.start h).sideFar c.srcSpace c.src = false := by simp [State.sideFar, hnear]
    have nearDst : (s.start h).sideFar c.dstSpace c.dst = false := by simp [State.sideFar, hd]
    rw [State.dmaCopyStart_near hok nearSrc nearDst]
    have none : (default : Remote).far = [] := rfl
    simp only [State.dmaCopyWrite, none, hread, hd, State.dmaCopyEnd, hpost, ne_eq, not_true_eq_false, if_false, if_true]

end Sys2Proof.Machine
end

section
/-! PROOFS of the family 06_scratchpad_and_memory: PROGRAM RUN, UNLOAD and REGION_RELEASE (R180, R279, R314, R346). -/

namespace Sys2Proof.Machine

/-! ### RUN (R180, R346) -/

section Run

variable {s : State} {h : Hdr} (ha : s.accepts h clsProgram = true) {image entry args len ret : Nat}

include ha

theorem exec_programRun_tooLong (hlen : 65536 < len) :
    exec (.programRun h image entry args len ret) s = .next ((s.start h).finish (s.descOf h) .DESC_FORMAT 0 0) := by
  show execProgramRun h image entry args len ret s = _
  rw [execProgramRun, State.descriptor_accepted ha, if_pos hlen]

variable (hlen : len ≤ 65536) (hres : image ≠ 0xFFFF)

include hlen hres

theorem exec_programRun_absent (hg : s.image image = none) :
    exec (.programRun h image entry args len ret) s = .next ((s.start h).finish (s.descOf h) .IMAGE_ABSENT 0 0) := by
  show execProgramRun h image entry args len ret s = _
  rw [execProgramRun, State.descriptor_accepted ha, if_neg (Nat.not_lt.mpr hlen), if_neg hres, State.image_start, hg]

variable {g : Image} (hg : s.image image = some g)

include hg

theorem exec_programRun_noEntry (he : g.entries.find? (fun e => e.entry == entry) = none) :
    exec (.programRun h image entry args len ret) s = .next ((s.start h).finish (s.descOf h) .DESC_FORMAT 0 0) := by
  show execProgramRun h image entry args len ret s = _
  rw [execProgramRun, State.descriptor_accepted ha, if_neg (Nat.not_lt.mpr hlen), if_neg hres, State.image_start, hg]
  simp only [he]

/-- The checks of an entry that the image has: LOST regions, busy sequencers, and the place of its arguments. -/
theorem exec_programRun_entry {e : ImageEntry} (he : g.entries.find? (fun e => e.entry == entry) = some e) :
    exec (.programRun h image entry args len ret) s = .next (
      if (s.start h).namesLost e then (s.start h).finish (s.descOf h) .REGION_LOST 0 0
      else if e.starts.any (fun x => (s.seq x.1).st != .idle) then (s.start h).finish (s.descOf h) .SEQ_BUSY 0 0
      else
        let w := (s.start h).write Src.steward {} e.args ((s.start h).hostRead args len)
        if w.code ≠ .OK then w.st.finish (s.descOf h) w.code 0 0
        else (e.starts.foldl (fun s x => (s.seqControl x.1 .OK).seqGoto x.1 x.2) w.st).finish (s.descOf h) .OK ret 0) := by
  show execProgramRun h image entry args len ret s = _
  rw [execProgramRun, State.descriptor_accepted ha, if_neg (Nat.not_lt.mpr hlen), if_neg hres, State.image_start, hg]
  simp only [he, State.seq_start]

end Run

/-! ### UNLOAD (R188, R314) -/

/-- No region of the image stays an atomic target. -/
theorem State.freeAtoms_atoms (s : State) (image : Nat) : (s.freeAtoms image).mem.atoms = s.mem.atoms.filter (fun r => r.image != image) := by
  simp only [State.freeAtoms]
  exact (kept_foldl (W := 2048) _ (fun _ _ h => kept_foldl _ (fun _ _ h => State.setTile_kept rfl h) h) (Kept.refl _ _)).atoms rfl

/-- An image unloaded but for its entry: its objects, regions, atomic targets, windows, policies and records are freed. -/
def State.vacated (s : State) (image : Nat) (g : Image) : State :=
  ((((((g.objects.foldl (fun s n => s.objFree n) s).freeRegions image).freeAtoms image).closeWindows g).setPolicies image g.layers false).setStats image
    g.layers false)

/-- The image's entry is gone. -/
def State.withoutImage (s : State) (image : Nat) : State := { s with images := Tab.set s.images image none }

@[simp] theorem State.withoutImage_mem (s : State) (image : Nat) : (s.withoutImage image).mem = s.mem := rfl

theorem State.image_withoutImage (s : State) (image j : Nat) : (s.withoutImage image).image j = if j = image then none else s.image j := by
  rw [State.image, State.withoutImage, Tab.get_set, State.image]

theorem State.unloaded_eq (s : State) (image : Nat) (g : Image) : s.unloaded image g = (s.vacated image g).withoutImage image := rfl

theorem State.vacated_kept (s : State) (image : Nat) (g : Image) : Kept 3711112018047 s (s.vacated image g) :=
  State.setStats_kept rfl (State.setPolicies_kept rfl (State.closeWindows_kept rfl (State.freeAtoms_kept rfl (State.freeRegions_kept rfl
    (kept_foldl _ (fun _ _ h => State.objFree_kept rfl h) (Kept.refl _ s))))))

theorem State.image_unloaded (s : State) (image : Nat) (g : Image) (j : Nat) :
    (s.unloaded image g).image j = if j = image then none else s.image j := by
  rw [State.unloaded_eq, State.image_withoutImage, State.image, (s.vacated_kept image g).only .images rfl]
  rfl

theorem State.vacated_atoms (s : State) (image : Nat) (g : Image) : ∃ l : List AtomRegion,
    (s.vacated image g).mem.atoms = l.filter (fun r => r.image != image) := by
  have closed (t : State) : Kept 2199090364444 t (((t.closeWindows g).setPolicies image g.layers false).setStats image g.layers false) :=
    State.setStats_kept rfl (State.setPolicies_kept rfl (State.closeWindows_kept rfl (Kept.refl _ t)))
  refine ⟨((g.objects.foldl (fun s n => s.objFree n) s).freeRegions image).mem.atoms, ?_⟩
  rw [State.vacated, (closed _).atoms rfl, State.freeAtoms_atoms]

theorem State.unloaded_atoms (s : State) (image : Nat) (g : Image) {a : AtomRegion} (ha : a ∈ (s.unloaded image g).mem.atoms) : a.image ≠ image := by
  obtain ⟨l, hl⟩ := s.vacated_atoms image g
  rw [State.unloaded_eq, State.withoutImage_mem, hl] at ha
  obtain ⟨-, other⟩ := List.mem_filter.mp ha
  exact bne_iff_ne.mp other

section Unload

variable {s : State} {h : Hdr} (ha : s.accepts h clsProgram = true) {image : Nat}

include ha

theorem exec_programUnload_reserved (hres : image = 0xFFFF) :
    exec (.programUnload h image) s = .next ((s.start h).finish (s.descOf h) .IMAGE_RESERVED 0 0) := by
  show execProgramUnload h image s = _
  rw [execProgramUnload, State.descriptor_accepted ha, if_pos hres]

variable (hres : image ≠ 0xFFFF)

include hres

theorem exec_programUnload_absent (hg : s.image image = none) :
    exec (.programUnload h image) s = .next ((s.start h).finish (s.descOf h) .IMAGE_ABSENT 0 0) := by
  show execProgramUnload h image s = _
  rw [execProgramUnload, State.descriptor_accepted ha, if_neg hres, State.image_start, hg]

theorem exec_programUnload_loaded {g : Image} (hg : s.image image = some g) :
    exec (.programUnload h image) s = .next (
      if s.imageUsed image then (s.start h).finish (s.descOf h) .IMAGE_IN_USE 0 0
      else ((s.start h).unloaded image g).finish (s.descOf h) .OK 0 0) := by
  have sameUse : (s.start h).imageUsed image = s.imageUsed image := by rw [State.imageUsed, State.start_reqs]; rfl
  show execProgramUnload h image s = _
  rw [execProgramUnload, State.descriptor_accepted ha, if_neg hres, State.image_start, hg, sameUse]

end Unload

/-! ### REGION_RELEASE (R4, R180) -/

/-- Entry `i` of a core's table holds a RESIDENT region that begins at `base`. -/
def State.residentAt (s : State) (q base i : Nat) : Bool := (s.region q i).valid && (s.region q i).resident && (s.region q i).base == base

theorem exec_regionRelease {s : State} {h : Hdr} (ha : s.accepts h clsProgram = true) (die k c base : Nat) :
    exec (.regionRelease h die k c base) s = .next (
      if 7 < die ∨ 7 < k ∨ 7 < c then (s.start h).finish (s.descOf h) .DESC_FORMAT 0 0
      else if !s.fits die then (s.start h).finish (s.descOf h) .TARGET_ABSENT 0 0
      else match (List.range 32).find? (s.residentAt (coreKey die k c) base) with
        | none => (s.start h).finish (s.descOf h) .OK 0 0
        | some i => ((s.start h).setRegion (coreKey die k c) i {}).finish (s.descOf h) .OK 0 0) := by
  have sameRegion : (s.start h).region = s.region := by rw [State.start_eq]; rfl
  show execRegionRelease h die k c base s = _
  rw [execRegionRelease, State.descriptor_accepted ha, State.fits_start, sameRegion]
  rfl

theorem State.residentAt_iff (s : State) (q base i : Nat) :
    s.residentAt q base i = true ↔ (s.region q i).valid = true ∧ (s.region q i).resident = true ∧ (s.region q i).base = base := by
  simp [State.residentAt, and_assoc]

/-- Settles O22: each descriptor's checks stand in their order before its work. -/
theorem programsRunAndUnload : Obligations.ProgramsRunAndUnload := by
  intro s h image ha
  refine ⟨fun entry args len ret => ⟨exec_programRun_tooLong ha, exec_programRun_absent ha, fun g hlen hres hg =>
      ⟨exec_programRun_noEntry ha hlen hres hg, fun e he => ⟨fun hlost => ?lost, fun hheld hbusy => ?busy, fun hheld hidle hw => ?runs⟩⟩⟩,
    fun hres => ?reserved, fun hres hg => ?absent, fun g hres hg hu => ?inUse, fun g hres hg hu => ?unloads,
    fun die k c base => ⟨fun hbad => ?range, fun hd hk hc hf => ?notFitted, fun hd hk hc hf j hj hfirst hv hr hb => ?released⟩⟩
  case lost => rw [exec_programRun_entry ha hlen hres hg he, if_pos hlost]
  case busy =>
    have busy : e.starts.any (fun x => (s.seq x.1).st != .idle) = true := by simpa using hbusy
    rw [exec_programRun_entry ha hlen hres hg he, hheld, if_neg Bool.false_ne_true, if_pos busy]
  case runs =>
    have idle : e.starts.any (fun x => (s.seq x.1).st != .idle) = false := by simpa using hidle
    rw [exec_programRun_entry ha hlen hres hg he, hheld, if_neg Bool.false_ne_true, idle, if_neg Bool.false_ne_true]
    exact congrArg _ (if_neg (not_not.mpr hw))
  case reserved => exact exec_programUnload_reserved ha hres
  case absent => exact exec_programUnload_absent ha hres hg
  case inUse => rw [exec_programUnload_loaded ha hres hg, if_pos hu]
  case unloads =>
    refine ⟨(s.start h).unloaded image g, ?_, ?_, fun j hj => ?_, fun a => State.unloaded_atoms _ image g⟩
    · rw [exec_programUnload_loaded ha hres hg, hu, if_neg Bool.false_ne_true]
    · rw [State.image_unloaded, if_pos rfl]
    · rw [State.image_unloaded, if_neg hj, State.image_start]
  case range => rw [exec_regionRelease ha, if_pos hbad]
  case notFitted => rw [exec_regionRelease ha, if_neg (by omega), hf]; rfl
  case released =>
    have found : (List.range 32).find? (s.residentAt (coreKey die k c) base) = some j := by
      refine List.find?_range_eq_some.mpr ⟨(s.residentAt_iff _ _ _).mpr ⟨hv, hr, hb⟩, List.mem_range.mpr hj, fun i hi => ?_⟩
      simpa using fun hx => hfirst i hi ((s.residentAt_iff _ _ _).mp hx)
    rw [exec_regionRelease ha, if_neg (by omega), hf, found]
    rfl

end Sys2Proof.Machine
end

section
/-! PROOFS of the family 06_scratchpad_and_memory: the cluster DMA (R194 to R198, R312). -/

namespace Sys2Proof.Machine

/-! ### Refusals and statuses (R197, Table 6-10) -/

theorem DmaCmd.refusal_format {c : DmaCmd} (h : c.op = 0 ∨ 4 < c.op ∨ c.elem < 4 ∨ 1048576 < c.elem ∨ c.elem % 4 ≠ 0 ∨ c.word 0 = 0) :
    c.refusal = .DMA_FORMAT := by
  refine if_pos ?_
  tauto

theorem DmaCmd.refusal_overlap {c : DmaCmd} (h : c.refusal ≠ .DMA_FORMAT) :
    c.refusal = if rangesOverlap c.ranges then .DMA_OVERLAP else .OK := by
  rw [DmaCmd.refusal] at h ⊢
  split at h
  · exact absurd rfl h
  · next hf => rw [if_neg hf]

theorem DmaCmd.refusal_cases (c : DmaCmd) : c.refusal = .OK ∨ c.refusal = .DMA_FORMAT ∨ c.refusal = .DMA_OVERLAP := by
  by_cases h : c.refusal = .DMA_FORMAT
  · exact .inr (.inl h)
  · rw [DmaCmd.refusal_overlap h]
    split
    · exact .inr (.inr rfl)
    · exact .inl rfl

/-- A refused command moves nothing and reports its refusal. -/
theorem State.dmaRun_refused (s : State) {c : DmaCmd} (h : c.refusal ≠ .OK) (g : Nat) (far : Tab Byte) :
    s.dmaRun g c far = { st := s, codes := [c.refusal] } := if_pos h

/-- Who reads for a command of cluster `g`. -/
def dmaReader (g : Nat) (c : DmaCmd) : Reader := { Reader.ofCluster g with alt := if c.altValid then some (c.a0, c.alt) else none }

/-- The work of a command that is not refused. -/
def dmaWork (rd : Reader) (c : DmaCmd) (r : DmaRun) : DmaRun :=
  match c.op with
  | 1 => dmaStrided rd c r
  | 2 => dmaIndexed rd false c r
  | 3 => dmaIndexed rd true c r
  | _ => dmaMerge rd c (c.word 0 + c.word 1) 0 0 none none none r

/-- A command that is not refused does its work, and what it skipped is counted. -/
theorem State.dmaRun_accepted (s : State) {c : DmaCmd} (h : c.refusal = .OK) (g : Nat) (far : Tab Byte) :
    s.dmaRun g c far = { dmaWork (dmaReader g c) c { st := s, far := far } with
      st := (dmaWork (dmaReader g c) c { st := s, far := far }).st.bump (dieReg (g / 9) Reg.DMA_SKIPPED_TOTAL)
        (dmaWork (dmaReader g c) c { st := s, far := far }).skipped } := if_neg (not_not.mpr h)

theorem DmaRun.status_refused {c : DmaCmd} (h : c.refusal ≠ .OK) {r : DmaRun} (hr : r.codes = [c.refusal]) : r.status = c.refusal := by
  obtain hc | hc | hc := c.refusal_cases
  · exact absurd hc h
  all_goals rw [DmaRun.status, hr, hc]; rfl

/-! ### A run leaves reachable what was (R163) -/

/-- The same addresses can be reached in both states. -/
def State.SameReach (s t : State) : Prop := ∀ a, t.reach a = s.reach a

theorem DmaRun.sameReach_get (r : DmaRun) (rd : Reader) (a n : Nat) : r.st.SameReach (r.get rd a n).1.st := fun x => by
  rw [DmaRun.get]
  split
  · rfl
  · exact r.st.reach_read rd a n x

theorem DmaRun.sameReach_move (r : DmaRun) (rd : Reader) (a b n : Nat) : r.st.SameReach (r.move rd a b n).st := fun x => by
  have got := r.sameReach_get rd a n x
  simp only [DmaRun.move]
  split
  · exact r.st.reach_copy rd a b n x
  · split
    · exact got
    · split
      · exact got
      · exact (State.reach_write _ _ _ _ _ x).trans got

theorem sameReach_foldl {α : Type} {s : State} {f : DmaRun → α → DmaRun} (hf : ∀ (r : DmaRun) x, r.st.SameReach (f r x).st) (l : List α) {r : DmaRun}
    (h : s.SameReach r.st) : s.SameReach (l.foldl f r).st := by
  induction l generalizing r with
  | nil => exact h
  | cons x l ih => exact ih fun a => (hf r x a).trans (h a)

theorem sameReach_dmaStrided (rd : Reader) (c : DmaCmd) (r : DmaRun) : r.st.SameReach (dmaStrided rd c r).st :=
  sameReach_foldl (fun _ _ => sameReach_foldl (fun x _ => DmaRun.sameReach_move x rd _ _ _) _ fun _ => rfl) _ fun _ => rfl

theorem sameReach_dmaIndexed (rd : Reader) (scatter : Bool) (c : DmaCmd) (r : DmaRun) : r.st.SameReach (dmaIndexed rd scatter c r).st := by
  refine sameReach_foldl (fun r n a => ?_) _ fun _ => rfl
  have index : r.st.SameReach (dmaIndex rd c r n).1.st := r.sameReach_get rd (c.a2 + 4 * n) 4
  split
  · next r1 h => rw [h] at index; exact index a
  · next r1 x h =>
    rw [h] at index
    split
    · exact index a
    · split
      · exact (r1.sameReach_move rd _ _ _ a).trans (index a)
      · exact (r1.sameReach_move rd _ _ _ a).trans (index a)

theorem sameReach_dmaMerge (rd : Reader) (c : DmaCmd) (f i j : Nat) (last pa pb : Option Nat) (r : DmaRun) :
    r.st.SameReach (dmaMerge rd c f i j last pa pb r).st := by
  fun_induction dmaMerge rd c f i j last pa pb r with
  | case1 => exact fun _ => rfl
  | case2 => exact fun _ => rfl
  | case3 => exact fun _ => rfl
  | case4 => assumption
  | case5 => rename_i ih; exact fun x => (ih x).trans (DmaRun.sameReach_move _ rd _ _ _ x)

theorem sameReach_dmaWork (rd : Reader) (c : DmaCmd) (r : DmaRun) : r.st.SameReach (dmaWork rd c r).st := by
  rw [dmaWork]
  split
  · exact sameReach_dmaStrided rd c r
  · exact sameReach_dmaIndexed rd false c r
  · exact sameReach_dmaIndexed rd true c r
  · exact sameReach_dmaMerge rd c _ _ _ _ _ _ r

theorem State.sameReach_dmaRun (s : State) (g : Nat) (c : DmaCmd) (far : Tab Byte) : s.SameReach (s.dmaRun g c far).st := by
  by_cases h : c.refusal = .OK
  · rw [State.dmaRun_accepted s h]
    exact sameReach_dmaWork (dmaReader g c) c { st := s, far := far }
  · rw [State.dmaRun_refused s h]
    exact fun _ => rfl

/-! ### One element (R195, R198) -/

section One

variable {s : State} {c : DmaCmd} (hnear : c.farRange = false) {rd : Reader} {u : State}

include hnear

theorem DmaCmd.near : isFar c.a0 = false ∧ isFar c.a1 = false ∧ isFar c.a2 = false := by
  simpa only [DmaCmd.farRange, Bool.or_eq_false_iff, and_assoc] using hnear

/-- One strided element is one copy. -/
theorem dmaWork_strided_one (hop : c.op = 1) (h0 : c.word 0 = 1) (h1 : c.word 1 = 1) {bs : List Byte}
    (hcopy : s.copy rd c.a0 c.a1 c.elem = { st := u, bytes := bs }) : dmaWork rd c { st := s } = { st := u, codes := [.OK], out := 1 } := by
  obtain ⟨near0, near1, -⟩ := DmaCmd.near hnear
  have moved : ({ st := s } : DmaRun).move rd c.a0 c.a1 c.elem = { st := u, codes := [.OK], out := 1 } := by
    simp [DmaRun.move, near0, near1, hcopy]
  simp [dmaWork, hop, dmaStrided, h0, h1, moved]

/-- One index at its limit or above is skipped. -/
theorem dmaWork_index_skipped (hop : c.op = 2 ∨ c.op = 3) (h0 : c.word 0 = 1) (hread : s.read rd c.a2 4 = { st := u, bytes := s.bytesAt c.a2 4 })
    (hlimit : c.word 1 ≤ s.natAt c.a2 4) : dmaWork rd c { st := s } = { st := u, codes := [.INDEX_RANGE, .OK], skipped := 1 } := by
  obtain ⟨-, -, near2⟩ := DmaCmd.near hnear
  have index : dmaIndex rd c { st := s } 0 = ({ st := u, codes := [.OK] }, some (s.natAt c.a2 4)) := by
    simp [dmaIndex, DmaRun.get, near2, hread, State.natAt]
  have skipped (scatter : Bool) : dmaIndexed rd scatter c { st := s } = { st := u, codes := [.INDEX_RANGE, .OK], skipped := 1 } := by
    simp [dmaIndexed, h0, index, hlimit]
  obtain hop | hop := hop
  · simp [dmaWork, hop, skipped]
  · simp [dmaWork, hop, skipped]

end One

/-- One strided element between sides that can be reached is brought as it stands. -/
theorem State.dmaRun_strided_one (s : State) {c : DmaCmd} (hok : c.refusal = .OK) (hnear : c.farRange = false) (hop : c.op = 1) (h0 : c.word 0 = 1)
    (h1 : c.word 1 = 1) (hsrc : s.blocked (piecesOf c.a0 c.elem) = none) (hdst : s.blocked (piecesOf c.a1 c.elem) = none) (hp : s.plain c.a0 c.elem)
    (g : Nat) : ∃ u, s.dmaRun g c [] = { st := u, codes := [.OK], out := 1 }
      ∧ u.mem.bytes = Tab.setList s.mem.bytes c.a1 (s.bytesAt c.a0 c.elem) := by
  obtain ⟨u, hcopy, bytes⟩ := State.copy_plain hsrc hdst hp (dmaReader g c)
  exact ⟨u.bump (dieReg (g / 9) Reg.DMA_SKIPPED_TOTAL) 0, by rw [State.dmaRun_accepted s hok, dmaWork_strided_one hnear hop h0 h1 hcopy], bytes⟩

theorem State.dmaRun_index_skipped (s : State) {c : DmaCmd} (hok : c.refusal = .OK) (hnear : c.farRange = false) (hop : c.op = 2 ∨ c.op = 3)
    (h0 : c.word 0 = 1) (hfree : s.blocked (piecesOf c.a2 4) = none) (hp : s.plain c.a2 4) (hlimit : c.word 1 ≤ s.natAt c.a2 4) (g : Nat) :
    ∃ u, s.dmaRun g c [] = { st := u, codes := [.INDEX_RANGE, .OK], skipped := 1 } ∧ u.mem.bytes = s.mem.bytes := by
  obtain ⟨u, hread, alike⟩ := State.read_plain hfree hp (dmaReader g c)
  exact ⟨u.bump (dieReg (g / 9) Reg.DMA_SKIPPED_TOTAL) 1, by rw [State.dmaRun_accepted s hok, dmaWork_index_skipped hnear hop h0 hread hlimit],
    alike.store.bytes⟩

/-! ### The best packet (R301) -/

theorem bestPacket_eq_none {dest : Nat} {l : List Packet} (h : ∀ p ∈ l, tagDest p.tag ≠ dest) (ok : Packet → Bool) : bestPacket dest ok l = none := by
  induction l with
  | nil => rfl
  | cons p l ih =>
    obtain ⟨hp, hl⟩ := List.forall_mem_cons.mp h
    rw [bestPacket, if_neg fun hx => hp hx.1, ih hl]

theorem exec_dmaCommand (s : State) (g : Nat) : exec (.dmaCommand g []) s = .next (s.dmaCommand g).settled := rfl

theorem State.dmaCommand_busy {s : State} {g : Nat} (h : s.dmaBusy g = true) : s.dmaCommand g = s := if_pos h

theorem State.dmaCommand_nothing {s : State} {g : Nat} (h : s.dmaBusy g = false) (hp : bestPacket 8 (fun _ => true) (s.queue g).pkts = none) :
    s.dmaCommand g = s := by
  simp only [State.dmaCommand, h, hp, Bool.false_eq_true, if_false]

/-- The packet has left the cluster's queue. -/
def State.dmaTaken (s : State) (g : Nat) (p : Packet) : State := s.setQueue g { s.queue g with pkts := (s.queue g).pkts.erase p }

/-- A command that is refused, or that has no remote range, runs at once. -/
theorem State.dmaCommand_near {s : State} {g : Nat} (h : s.dmaBusy g = false) {p : Packet} (hp : bestPacket 8 (fun _ => true) (s.queue g).pkts = some p)
    (hn : (parseDma s.loc p.flits).refusal ≠ .OK ∨ (parseDma s.loc p.flits).farRange = false) :
    s.dmaCommand g = (s.dmaTaken g p).dmaEnd g p (parseDma s.loc p.flits) ((s.dmaTaken g p).dmaRun g (parseDma s.loc p.flits) []) := by
  have near : (parseDma s.loc p.flits).refusal ≠ .OK ∨ (!(parseDma s.loc p.flits).farRange) = true := hn.imp_right fun h => by rw [h]; rfl
  simp only [State.dmaCommand, h, hp, Bool.false_eq_true, if_false, if_pos near]
  rfl

/-! ### Completions (Table 6-10, R308, R312) -/

@[simp] theorem length_dmaCompletion (r : DmaRun) : (dmaCompletion r).length = 16 := by simp [dmaCompletion]

theorem State.queue_hearthIrq (s : State) (g : Nat) : (s.hearthIrq g).queue g = { s.queue g with hearthIrq := (s.queue g).hearthIrq + 1 } := by
  rw [State.queue, State.hearthIrq, Tab.get_upd_same]
  rfl

theorem State.dmaEnd_hearth (s : State) {g : Nat} {p : Packet} {c : DmaCmd} (hpost : c.post = false) (hw : p.writer = 8) (r : DmaRun) :
    s.dmaEnd g p c r = r.st.hearthIrq g := by
  simp [State.dmaEnd, hpost, hw]

theorem State.release_not_stalled {s : State} {q : Nat} (h : (s.seq q).st ≠ .stalled) : s.release q = s := if_neg fun hx => h hx.1

/-- The done counter that a packet names rises, where DONE_VALID is set (R308). -/
def State.dmaDone (s : State) (q : Nat) (p : Packet) : State :=
  if tagDoneValid p.tag then s.setSeq q ((s.seq q).done (tagDone p.tag)) else s

theorem State.dmaDone_eq (s : State) (q : Nat) (p : Packet) : s.dmaDone q p = { s with seqs := (s.dmaDone q p).seqs } := by
  rw [State.dmaDone]
  split <;> rfl

theorem State.dmaDone_counter (s : State) (q : Nat) (p : Packet) (d : Nat) : Tab.get ((s.dmaDone q p).seq q).d d =
    if tagDoneValid p.tag = true ∧ d = tagDone p.tag then min 0xFFFF (Tab.get (s.seq q).d d + 1) else Tab.get (s.seq q).d d := by
  rw [State.dmaDone]
  split
  · next hv =>
    rw [State.seq_setSeq, if_pos rfl, Sequencer.done, Tab.get_set]
    by_cases hd : d = tagDone p.tag
    · subst hd; simp [hv]
    · simp [hd]
  · next hv => rw [if_neg fun h => hv h.1]

/-- A completion without a fault, for a sequencer that does not stall: 16 bytes in its core's scratchpad, and with DONE_VALID the done counter. -/
theorem State.dmaEnd_seq (s : State) {g : Nat} {p : Packet} {c : DmaCmd} {r : DmaRun} (hpost : c.post = false) (hw : p.writer < 8)
    (hf : dmaFaults r.status = false) {w : State} (hwrite : (r.st.write (Src.ofCluster g) {} p.doneAddr (dmaCompletion r)).st = w)
    (hst : (w.seq (g * 8 + p.writer)).st ≠ .stalled) : s.dmaEnd g p c r = w.dmaDone (g * 8 + p.writer) p := by
  have counted : ((w.setSeq (g * 8 + p.writer) ((w.seq (g * 8 + p.writer)).done (tagDone p.tag))).seq (g * 8 + p.writer)).st ≠ .stalled := by
    rw [State.seq_setSeq, if_pos rfl]
    exact hst
  simp only [State.dmaEnd, hpost, Bool.false_eq_true, false_and, if_false, if_neg hw.ne, hf, hwrite, State.release_not_stalled counted, State.dmaDone]

/-- Settles O46: a command is refused, or run as one element where the statement has one; its completion is that of its issuer. -/
theorem dmaCommands : Obligations.DmaCommands := by
  intro s g hq
  have quiet : s.Quiet := hq
  refine ⟨fun hb => ?busy, fun hb hnone => ?nothing, fun hb p hp => ?taken, fun c => ⟨DmaCmd.refusal_format, fun hf ho => ?overlap, fun ho => ?apart⟩⟩
  case busy => rw [exec_dmaCommand, State.dmaCommand_busy hb, quiet.settled]
  case nothing => rw [exec_dmaCommand, State.dmaCommand_nothing hb (bestPacket_eq_none hnone _), quiet.settled]
  case overlap => rw [DmaCmd.refusal_overlap hf, if_pos ho]
  case apart =>
    obtain hc | hc | hc := c.refusal_cases
    · exact .inl hc
    · exact .inr hc
    · exact .inl (by rw [DmaCmd.refusal_overlap (by simp [hc]), ho]; rfl)
  case taken =>
    intro c s1 r
    have ran : Kept 6243 s1 r.st := State.dmaRun_kept rfl (Kept.refl _ s1)
    have wq : r.st.wq = s1.wq := ran.only .wq rfl
    have seqs : r.st.seqs = s.seqs := ran.seqs rfl
    have fab : r.st.fab = s.fab := ran.only .fab rfl
    have queue : r.st.queue g = { s.queue g with pkts := (s.queue g).pkts.erase p } := by
      rw [State.queue, wq]
      exact Tab.get_set_same _ _ _
    have free (l : List Piece) (hl : s.blocked l = none) : s1.blocked l = none :=
      (State.blocked_congr (s := s) (t := s1) (fun _ => rfl) l).trans hl
    have same : s.Alike s1 := State.alike_of_mem rfl
    refine ⟨fun hbad => ?refused, fun hn hpost hw => ?hearth, fun hn hpost hw hf hst hfree => ?sequencer,
      fun hok hnear hop h0 h1 hsrc hdst hpl halt => ?element, fun hok hnear hop h0 hsrc hpl halt hlimit => ?skipped⟩
    case refused =>
      have run : r = { st := s1, codes := [c.refusal] } := s1.dmaRun_refused hbad g []
      exact ⟨DmaRun.status_refused hbad (by rw [run]), by rw [run], by rw [run], by rw [run]⟩
    case hearth =>
      have done : s.dmaCommand g = r.st.hearthIrq g := (State.dmaCommand_near hb hp hn).trans (State.dmaEnd_hearth _ hpost hw r)
      have calm : (r.st.hearthIrq g).Quiet := quiet.of_fab fab
      refine ⟨r.st.hearthIrq g, by rw [exec_dmaCommand, done, calm.settled], rfl, ?_, ?_⟩
      · rw [State.queue_hearthIrq, queue]
      · rw [State.queue_hearthIrq, queue]
    case sequencer =>
      obtain ⟨w, hwrite⟩ : ∃ w, (r.st.write (Src.ofCluster g) {} p.doneAddr (dmaCompletion r)).st = w := ⟨_, rfl⟩
      have wrote : Kept 6243 r.st w := hwrite ▸ State.write_kept rfl (Kept.refl _ _)
      have sameSeq (j : Nat) : w.seq j = s.seq j := by rw [State.seq, wrote.seqs rfl, seqs]; rfl
      have reached : r.st.blocked (piecesOf p.doneAddr (dmaCompletion r).length) = none := by
        rw [length_dmaCompletion, State.blocked_congr (s1.sameReach_dmaRun g c [])]
        exact free _ hfree
      have bytes : w.mem.bytes = Tab.setList r.st.mem.bytes p.doneAddr (dmaCompletion r) := hwrite ▸ State.write_bytes reached _ _
      have sameQueue : w.queue g = r.st.queue g := by rw [State.queue, wrote.only .wq rfl]; rfl
      have done : s.dmaCommand g = w.dmaDone (g * 8 + p.writer) p :=
        (State.dmaCommand_near hb hp hn).trans (State.dmaEnd_seq _ hpost hw hf hwrite (by rwa [sameSeq]))
      have calm : (w.dmaDone (g * 8 + p.writer) p).Quiet := quiet.of_fab (by rw [State.dmaDone_eq]; exact (wrote.only .fab rfl).trans fab)
      refine ⟨w.dmaDone (g * 8 + p.writer) p, by rw [exec_dmaCommand, done, calm.settled], ?_, fun x => ?_, fun d => ?_⟩
      · rw [State.dmaDone_eq]
        exact congrArg Queue.pkts (sameQueue.trans queue)
      · rw [State.dmaDone_eq]
        exact (congrArg (Tab.get · x) bytes).trans (by rw [get_setList_byte, length_dmaCompletion]; rfl)
      · rw [State.dmaDone_counter, sameSeq]
    case element =>
      obtain ⟨u, run, bytes⟩ := s1.dmaRun_strided_one hok hnear hop h0 h1 (free _ hsrc) (free _ hdst) (same.plain hpl) g
      have run : r = _ := run
      exact ⟨by rw [run]; rfl, by rw [run], fun x => by rw [run]; exact (congrArg (Tab.get · x) bytes).trans (get_setList_bytesAt s _ _ _ _)⟩
    case skipped =>
      obtain ⟨u, run, bytes⟩ := s1.dmaRun_index_skipped hok hnear hop h0 (free _ hsrc) (same.plain hpl) hlimit g
      have run : r = _ := run
      exact ⟨by rw [run]; rfl, by rw [run], by rw [run], by rw [run]; exact bytes⟩

end Sys2Proof.Machine
end

section
/-! PROOFS of the family 06_scratchpad_and_memory: the atomic add units and the clear of atomic tiles (R188 to R193). -/

namespace Sys2Proof.Machine

/-! ### Words of memory after a write of one (R190, R191) -/

theorem State.natAt_congr {s t : State} {a n : Nat} (h : ∀ x, a ≤ x → x < a + n → Tab.get t.mem.bytes x = Tab.get s.mem.bytes x) :
    t.natAt a n = s.natAt a n := by
  rw [State.natAt, State.natAt, State.bytesAt_eq_map, State.bytesAt_eq_map]
  refine congrArg leNat (List.map_congr_left fun i hi => ?_)
  have := List.mem_range.mp hi
  exact h _ (by omega) (by omega)

theorem State.natAt_stored {s : State} {t : Tab Byte} {a w v : Nat} (h : s.mem.bytes = Tab.setList t a (leBytes w v)) : s.natAt a w = v % 256 ^ w := by
  have stored := Tab.getList_setList_same t a (leBytes w v)
  rw [length_leBytes] at stored
  rw [State.natAt, State.bytesAt, h, stored, leNat_leBytes]

/-! ### One FX64 addition (R190) -/

/-- The value of a 72-bit word. -/
def wrap72 (x : Int) : Int := (x + 2 ^ 71) % 2 ^ 72 - 2 ^ 71

theorem bmod_two_pow_72 (x : Int) : x.bmod (2 ^ 72) = wrap72 x := by
  simp only [Int.bmod, wrap72]
  omega

/-- The 64 bits in memory and the multiple of 2^64 beside them make up the word. -/
theorem bmod_add_guard (y : Int) : y.bmod (2 ^ 64) + (y - y.bmod (2 ^ 64)) / (2 ^ 64 : Nat) * (2 ^ 64 : Nat) = y := by
  simp only [Int.bmod]
  omega

/-- An addition stores the low 64 bits of the sum, and the rest as guard bits. -/
theorem State.addFx_store (s : State) (src : Src) (m a : Nat) (v : Int) :
    (s.addFx src m a v).mem.bytes = Tab.setList s.mem.bytes a (leBytes 8 (encodeInt 64 (wrap72 (s.fxWord a + v))))
    ∧ (s.addFx src m a v).mem.guard = Tab.set s.mem.guard (a / 8)
        ((wrap72 (s.fxWord a + v) - (wrap72 (s.fxWord a + v)).bmod (2 ^ 64)) / (2 ^ 64 : Nat)) := by
  have sum : signed 72 (encodeInt 72 (s.fxWord a + v)) = wrap72 (s.fxWord a + v) := by
    rw [signed_encodeInt (by decide), bmod_two_pow_72]
  have low : signed 64 (encodeInt 64 (wrap72 (s.fxWord a + v))) = (wrap72 (s.fxWord a + v)).bmod (2 ^ 64) := signed_encodeInt (by decide) _
  simp only [State.addFx, sum, low]
  generalize wrap72 (s.fxWord a + v) = y
  generalize (y - y.bmod (2 ^ 64)) / (2 ^ 64 : Nat) = g
  generalize leBytes 8 (encodeInt 64 y) = bs
  split
  · exact ⟨rfl, rfl⟩
  · exact ⟨rfl, rfl⟩

theorem State.fxWord_addFx_same (s : State) (src : Src) (m a : Nat) (v : Int) : (s.addFx src m a v).fxWord a = wrap72 (s.fxWord a + v) := by
  obtain ⟨bytes, guard⟩ := s.addFx_store src m a v
  have code := encodeInt_lt 64 (wrap72 (s.fxWord a + v))
  rw [State.fxWord, State.natAt_stored bytes, Nat.mod_eq_of_lt (by exact code), signed_encodeInt (by decide), guard, Tab.get_set_same, bmod_add_guard]

theorem State.get_addFx_other (s : State) (src : Src) (m a : Nat) (v : Int) {x : Nat} (h : x < a ∨ a + 8 ≤ x) :
    Tab.get (s.addFx src m a v).mem.bytes x = Tab.get s.mem.bytes x := by
  rw [(s.addFx_store src m a v).1, Tab.get_setList_other _ _ _ _ (by simpa using h)]

theorem State.fxWord_addFx_other (s : State) (src : Src) (m a : Nat) (v : Int) {b : Nat} (h : b + 8 ≤ a ∨ a + 8 ≤ b) :
    (s.addFx src m a v).fxWord b = s.fxWord b := by
  have word : (s.addFx src m a v).natAt b 8 = s.natAt b 8 := State.natAt_congr fun x _ _ => s.get_addFx_other src m a v (by omega)
  rw [State.fxWord, word, (s.addFx_store src m a v).2, Tab.get_set_other _ _ (by omega)]
  rfl

/-! ### One int32 addition (R191) -/

theorem State.addI32_bytes (s : State) (m a : Nat) (v : Int) : (s.addI32 m a v).mem.bytes
    = Tab.setList s.mem.bytes a (leBytes 4 (encodeInt 32 (clampInt (-2147483648) 2147483647 (signed 32 (s.natAt a 4) + v)))) := by
  simp only [State.addI32]
  split <;> rfl

theorem State.get_addI32_other (s : State) (m a : Nat) (v : Int) {x : Nat} (h : x < a ∨ a + 4 ≤ x) :
    Tab.get (s.addI32 m a v).mem.bytes x = Tab.get s.mem.bytes x := by
  rw [s.addI32_bytes m a v, Tab.get_setList_other _ _ _ _ (by simpa using h)]

theorem State.natAt_addI32_other (s : State) (m a : Nat) (v : Int) {b : Nat} (h : b + 4 ≤ a ∨ a + 4 ≤ b) : (s.addI32 m a v).natAt b 4 = s.natAt b 4 :=
  State.natAt_congr fun x _ _ => s.get_addI32_other m a v (by omega)

theorem State.signed_addI32_same (s : State) (m a : Nat) (v : Int) :
    signed 32 ((s.addI32 m a v).natAt a 4) = max (-2147483648) (min 2147483647 (signed 32 (s.natAt a 4) + v)) := by
  have code := encodeInt_lt 32 (clampInt (-2147483648) 2147483647 (signed 32 (s.natAt a 4) + v))
  rw [State.natAt_stored (s.addI32_bytes m a v), Nat.mod_eq_of_lt (by exact code), signed_encodeInt (by decide), bmod_clampInt_32]

/-! ### The words of a payload (R190, R191) -/

theorem State.addWords_fx_cons (s : State) (src : Src) (m a : Nat) (v : Int) (ws : List Int) :
    s.addWords src m false a (v :: ws) = (s.addFx src m a v).addWords src m false (a + 8) ws := by
  simp only [State.addWords, Bool.false_eq_true, if_false]

theorem State.addWords_i32_cons (s : State) (src : Src) (m a : Nat) (v : Int) (ws : List Int) :
    s.addWords src m true a (v :: ws) = (s.addI32 m a v).addWords src m true (a + 4) ws := by
  simp only [State.addWords, if_true]

theorem State.get_addWords_fx_other (src : Src) (m : Nat) (ws : List Int) (s : State) (a : Nat) {x : Nat} (h : x < a ∨ a + 8 * ws.length ≤ x) :
    Tab.get (s.addWords src m false a ws).mem.bytes x = Tab.get s.mem.bytes x := by
  induction ws generalizing s a with
  | nil => rfl
  | cons v ws ih =>
    rw [List.length_cons] at h
    rw [State.addWords_fx_cons, ih _ _ (by omega), s.get_addFx_other src m a v (by omega)]

theorem State.fxWord_addWords_below (src : Src) (m : Nat) (ws : List Int) (s : State) {a b : Nat} (h : b + 8 ≤ a) :
    (s.addWords src m false a ws).fxWord b = s.fxWord b := by
  induction ws generalizing s a with
  | nil => rfl
  | cons v ws ih => rw [State.addWords_fx_cons, ih _ (by omega), s.fxWord_addFx_other src m a v (.inl h)]

/-- Each FX64 word takes its own addend. -/
theorem State.fxWord_addWords (src : Src) (m : Nat) (ws : List Int) (s : State) (a : Nat) {i : Nat} (hi : i < ws.length) :
    (s.addWords src m false a ws).fxWord (a + 8 * i) = wrap72 (s.fxWord (a + 8 * i) + ws.getD i 0) := by
  induction ws generalizing s a i with
  | nil => exact absurd hi (Nat.not_lt_zero i)
  | cons v ws ih =>
    rw [State.addWords_fx_cons]
    cases i with
    | zero =>
      rw [show a + 8 * 0 = a from rfl, State.fxWord_addWords_below _ _ _ _ (by omega), State.fxWord_addFx_same, List.getD_cons_zero]
    | succ i =>
      have place : a + 8 * (i + 1) = a + 8 + 8 * i := by omega
      rw [place, ih _ _ (Nat.lt_of_succ_lt_succ hi), s.fxWord_addFx_other src m a v (by omega), List.getD_cons_succ]

theorem State.get_addWords_i32_other (src : Src) (m : Nat) (ws : List Int) (s : State) (a : Nat) {x : Nat} (h : x < a ∨ a + 4 * ws.length ≤ x) :
    Tab.get (s.addWords src m true a ws).mem.bytes x = Tab.get s.mem.bytes x := by
  induction ws generalizing s a with
  | nil => rfl
  | cons v ws ih =>
    rw [List.length_cons] at h
    rw [State.addWords_i32_cons, ih _ _ (by omega), s.get_addI32_other m a v (by omega)]

/-- Each int32 word takes its own addend. -/
theorem State.signed_addWords (src : Src) (m : Nat) (ws : List Int) (s : State) (a : Nat) {i : Nat} (hi : i < ws.length) :
    signed 32 ((s.addWords src m true a ws).natAt (a + 4 * i) 4)
      = max (-2147483648) (min 2147483647 (signed 32 (s.natAt (a + 4 * i) 4) + ws.getD i 0)) := by
  induction ws generalizing s a i with
  | nil => exact absurd hi (Nat.not_lt_zero i)
  | cons v ws ih =>
    rw [State.addWords_i32_cons]
    cases i with
    | zero =>
      have below : ((s.addI32 m a v).addWords src m true (a + 4) ws).natAt a 4 = (s.addI32 m a v).natAt a 4 :=
        State.natAt_congr fun x _ _ => State.get_addWords_i32_other _ _ _ _ _ (by omega)
      rw [show a + 4 * 0 = a from rfl, below, State.signed_addI32_same, List.getD_cons_zero]
    | succ i =>
      have place : a + 4 * (i + 1) = a + 4 + 4 * i := by omega
      rw [place, ih _ _ (Nat.lt_of_succ_lt_succ hi), s.natAt_addI32_other m a v (by omega), List.getD_cons_succ]

/-! ### A payload that is applied (R189, R191, R413) -/

/-- The words of a payload added, with its tile's SAT, its digest and its count. -/
def State.payloadAdded (s : State) (src : Src) (m : Nat) (p : Payload) : State :=
  let s1 := s.addWords src m p.i32 p.target p.words
  let s2 := if p.i32 && p.sticky then s1.setTile (p.target / 4096) { s1.tile (p.target / 4096) with sat := true } else s1
  (s2.sumDigest p).bump (memReg m (if p.i32 then Reg.ATOM_I32_WORDS_TOTAL else Reg.ATOM_FX64_WORDS_TOTAL)) p.words.length

theorem State.sumDigest_store (s : State) (p : Payload) : (s.sumDigest p).mem.bytes = s.mem.bytes ∧ (s.sumDigest p).mem.guard = s.mem.guard := by
  simp only [State.sumDigest]
  split
  · split
    · exact ⟨rfl, rfl⟩
    · exact ⟨rfl, rfl⟩
  · exact ⟨rfl, rfl⟩

/-- The words are what an accepted payload stores. -/
theorem State.payloadAdded_store (s : State) (src : Src) (m : Nat) (p : Payload) :
    (s.payloadAdded src m p).mem.bytes = (s.addWords src m p.i32 p.target p.words).mem.bytes
    ∧ (s.payloadAdded src m p).mem.guard = (s.addWords src m p.i32 p.target p.words).mem.guard := by
  simp only [State.payloadAdded, State.bump_mem, State.sumDigest_store]
  split
  · exact ⟨rfl, rfl⟩
  · exact ⟨rfl, rfl⟩

theorem State.payloadAdded_kept (s : State) (src : Src) (m : Nat) (p : Payload) : Kept 2147 s (s.payloadAdded src m p) := by
  have added : Kept 2147 s (s.addWords src m p.i32 p.target p.words) := State.addWords_kept rfl (Kept.refl _ s)
  refine State.bump_kept rfl (State.sumDigest_kept rfl ?_)
  split
  · exact State.setTile_kept rfl added
  · exact added

theorem State.payload_accepted {s : State} {p : Payload} (h : s.payloadStatus p = .OK) (src : Src) (d : Nat) :
    s.payload src d p = match p.obj with
      | some n => if objMdie n = s.payloadMdie p d then
          (s.payloadAdded src (s.payloadMdie p d) p).objPost n 1 (coreKey src.die src.cluster src.core) else s.payloadAdded src (s.payloadMdie p d) p
      | none => s.payloadAdded src (s.payloadMdie p d) p := by
  rw [State.payload, if_pos h]
  rfl

theorem State.payload_refused {s : State} {p : Payload} (h : s.payloadStatus p ≠ .OK) (src : Src) (d : Nat) :
    s.payload src d p =
      (s.bump (memReg (s.payloadMdie p d) Reg.ATOM_REFUSED_TOTAL) 1).raise .ATOMIC_REFUSED src [p.target] (s.payloadStatus p) := by
  rw [State.payload, if_neg h]

/-- A payload without an object posts nothing. -/
theorem State.payload_unposted {s : State} {p : Payload} (h : s.payloadStatus p = .OK) (hobj : p.obj = none) (src : Src) (d : Nat) :
    s.payload src d p = s.payloadAdded src (s.payloadMdie p d) p := by
  rw [State.payload_accepted h, hobj]

/-- The post of a payload's object stores nothing. -/
theorem State.payload_store {s : State} {p : Payload} (h : s.payloadStatus p = .OK) (src : Src) (d : Nat) :
    (s.payload src d p).mem.bytes = (s.addWords src (s.payloadMdie p d) p.i32 p.target p.words).mem.bytes
    ∧ (s.payload src d p).mem.guard = (s.addWords src (s.payloadMdie p d) p.i32 p.target p.words).mem.guard := by
  have added := s.payloadAdded_store src (s.payloadMdie p d) p
  rw [State.payload_accepted h]
  split
  · next n _ =>
    split
    · have posted : Kept 3711044903011 (s.payloadAdded src (s.payloadMdie p d) p)
          ((s.payloadAdded src (s.payloadMdie p d) p).objPost n 1 (coreKey src.die src.cluster src.core)) := State.objPost_kept rfl (Kept.refl _ _)
      obtain ⟨bytes, -, guard, -⟩ := posted.only .memory rfl
      rw [bytes, guard]
      exact added
    · exact added
  · exact added

/-! ### A step that a fault abandons ends no remote operation (R236, R414) -/

theorem endedRemote_eq_none_iff (l : List Remote) : endedRemote l = none ↔ ∀ r ∈ l, (r.failed.isSome || r.frames.isEmpty) = false := by
  induction l with
  | nil => simp [endedRemote]
  | cons r l ih =>
    rw [endedRemote, List.forall_mem_cons, ← ih]
    cases r.failed.isSome || r.frames.isEmpty <;> simp

section Quiet

variable {s : State} (h : s.Quiet)

include h

theorem State.Quiet.raise (k : Code) (x : Src) (l : List Nat) (c : Code) : (s.raise k x l c).Quiet := h
theorem State.Quiet.bump (a n : Nat) : (s.bump a n).Quiet := h
theorem State.Quiet.setSeq (q : Nat) (x : Sequencer) : (s.setSeq q x).Quiet := h
theorem State.Quiet.setObj (n : Nat) (x : SyncObj) : (s.setObj n x).Quiet := h
theorem State.Quiet.hearthIrq (g : Nat) : (s.hearthIrq g).Quiet := h

/-- What ends with a step are operations that had not ended, and nothing new is outstanding. -/
theorem State.Quiet.dropStep : s.dropStep.Quiet := by
  have fewer : endedRemote (s.fab.remotes.filter (fun r => !r.issuer.queued)) = none :=
    (endedRemote_eq_none_iff _).mpr fun r hr => (endedRemote_eq_none_iff _).mp h r (List.mem_filter.mp hr).1
  have flushed (l : List Nat) (t : State) : Kept 8291 t (l.foldl (fun s g => s.flushQueue g) t) :=
    kept_foldl _ (fun _ _ h => State.flushQueue_kept rfl h) (Kept.refl _ t)
  rw [State.dropStep]
  exact State.Quiet.of_fab (s := { s with fab := { s.fab with remotes := s.fab.remotes.filter (fun r => !r.issuer.queued) } }) fewer
    ((flushed _ _).only .fab rfl)

theorem State.Quiet.setStep (x : StepSt) : State.Quiet { s with step := x } := h

theorem State.Quiet.abandon (cls : DetClass) (c : Code) (addr : Nat) (seqs : List Nat) : (s.abandon cls c addr seqs).Quiet := by
  simp only [State.abandon]
  split
  · exact h
  · split
    · exact (((h.setStep _).raise _ _ _ _).bump _ _).dropStep.raise _ _ _ _
    · exact (((h.setStep _).raise _ _ _ _).bump _ _).dropStep

theorem State.Quiet.openWindow (w : Window) : (s.openWindow w).Quiet := h

theorem State.Quiet.faultDetected (c : Code) (addr : Nat) (seqs : List Nat) : (s.faultDetected c addr seqs).Quiet := by
  simp only [State.faultDetected]
  split
  · exact h
  · exact (h.openWindow _).abandon _ _ _ _

theorem State.Quiet.enterFault (q : Nat) (r : FaultRec) : (s.enterFault q r).Quiet := by
  rw [State.enterFault]
  exact ((((h.setSeq _ _).bump _ _).hearthIrq _).raise _ _ _ _).faultDetected _ _ _

theorem State.Quiet.seqGoto (q pc : Nat) : (s.seqGoto q pc).Quiet := by
  simp only [State.seqGoto, State.instrFault]
  split
  · exact h.enterFault _ _
  · split
    · exact h.setSeq _ _
    · split
      · exact h.enterFault _ _
      · split
        · exact (h.setSeq _ _).enterFault _ _
        · exact h.setSeq _ _

theorem State.Quiet.wake (w : Who) : (s.wake w).Quiet := by
  simp only [State.wake]
  split
  · split
    · exact h.seqGoto _ _
    · exact h
  · exact h

omit h in
theorem State.Quiet.wakeAll (l : List Waiter) {s : State} (h : s.Quiet) : (s.wakeAll l).Quiet := by
  induction l generalizing s with
  | nil => exact h
  | cons w l ih => exact ih (h.wake w.who)

/-- A post without a requester to answer ends no remote operation. -/
theorem State.Quiet.objPost (n δ req : Nat) : (s.objPost n δ req).Quiet := by
  rw [State.objPost]
  split
  · exact State.Quiet.wakeAll _ ((h.setObj _ _).bump _ _)
  · exact (h.bump _ _).raise _ _ _ _

end Quiet

theorem State.Quiet.payload {s : State} (h : s.Quiet) (src : Src) (d : Nat) (p : Payload) : (s.payload src d p).Quiet := by
  by_cases hc : s.payloadStatus p = .OK
  · have added : (s.payloadAdded src (s.payloadMdie p d) p).Quiet := h.of_fab ((s.payloadAdded_kept src _ p).only .fab rfl)
    rw [State.payload_accepted hc]
    split
    · split
      · exact added.objPost _ _ _
      · exact added
    · exact added
  · rw [State.payload_refused hc]
    exact h.of_fab rfl

/-! ### The op goes on behind its payload (R193) -/

/-- The op once a payload is sent and answered with `c`: its first refusal stays. -/
def Op.sent (o : Op) (p : Payload) (c : Code) : Op :=
  { o with prog := o.prog + p.words.length, bad := if o.bad = .OK then c else o.bad, badAddr := if o.bad = .OK then p.target else o.badAddr }

/-- The op goes on, or has run with its last payload. -/
def State.payloadSent (s : State) (q : Nat) (o : Op) (p : Payload) (c : Code) : State :=
  let s2 := s.setSeq q { s.seq q with ops := (s.seq q).ops.map (fun y => if y = o then o.sent p c else y) }
  if o.c ≤ o.prog + p.words.length then s2.opRan q (o.sent p c) (o.sent p c).bad 0 (if (o.sent p c).bad = .OK then 0 else (o.sent p c).badAddr) else s2

theorem State.payloadSent_eq (s : State) (q : Nat) (o : Op) (p : Payload) (c : Code) :
    s.payloadSent q o p c = { s with seqs := (s.payloadSent q o p c).seqs } := by
  simp only [State.payloadSent]
  split <;> rfl

@[simp] theorem State.payloadSent_mem (s : State) (q : Nat) (o : Op) (p : Payload) (c : Code) : (s.payloadSent q o p c).mem = s.mem := by
  rw [State.payloadSent_eq]
@[simp] theorem State.payloadSent_ev (s : State) (q : Nat) (o : Op) (p : Payload) (c : Code) : (s.payloadSent q o p c).ev = s.ev := by
  rw [State.payloadSent_eq]
theorem State.reg_payloadSent (s : State) (q : Nat) (o : Op) (p : Payload) (c : Code) (a : Nat) : (s.payloadSent q o p c).reg a = s.reg a := by
  rw [State.payloadSent_eq]; rfl

/-- After its last payload the op has run, with the status of its first refusal. -/
theorem State.payloadSent_last {o : Op} {p : Payload} (h : o.c ≤ o.prog + p.words.length) (s : State) (q : Nat) :
    ∃ z : Op, ((s.payloadSent q o p .OK).seq q).ran
        = (s.seq q).ran ++ [{ op := z, status := o.bad, reason := 0, addr := if o.bad = .OK then 0 else o.badAddr }] ∧ z.pc = o.pc ∧ z.d = o.d := by
  refine ⟨o.sent p .OK, ?_, rfl, rfl⟩
  have status : (o.sent p .OK).bad = o.bad := by
    rw [Op.sent]
    split
    · next hb => exact hb.symm
    · rfl
  simp only [State.payloadSent, if_pos h, State.opRan, State.seq_setSeq, if_true, status]
  by_cases hb : o.bad = .OK
  · simp [hb]
  · simp [hb, Op.sent]

/-- Before its last payload the op stays in its queue, behind what it has sent. -/
theorem State.payloadSent_goes_on {o : Op} {p : Payload} (h : o.prog + p.words.length < o.c) {s : State} {q : Nat} (ho : o ∈ (s.seq q).ops) (c : Code) :
    ((s.payloadSent q o p c).seq q).ran = (s.seq q).ran
    ∧ ∃ z ∈ ((s.payloadSent q o p c).seq q).ops, z.prog = o.prog + p.words.length ∧ z.pc = o.pc ∧ z.b = o.b := by
  simp only [State.payloadSent, if_neg (Nat.not_le.mpr h), State.seq_setSeq, if_true, true_and]
  exact ⟨o.sent p c, List.mem_map.mpr ⟨o, ho, if_pos rfl⟩, rfl, rfl, rfl⟩

theorem Sequencer.next_mem {x : Sequencer} {u : OpUnit} {opc : Nat} {o : Op} (h : x.next u opc = some o) : o ∈ x.ops := by
  simp only [Sequencer.next] at h
  split at h
  · next y hy =>
    split at h
    · exact Option.some.inj h ▸ List.mem_of_find?_eq_some hy
    · cases h
  · cases h

/-! ### The commands of the atomic units (R188 to R191) -/

/-- The command of an atomic unit, by the type of its words. -/
def addInstr (q : Nat) (i32 : Bool) : Instr := if i32 then .addI32Sat q else .addFx64 q

theorem exec_addInstr (q : Nat) (i32 : Bool) (s : State) : exec (addInstr q i32) s = .next (s.atomicGo q i32).settled := by
  cases i32
  · show execAddFx64 q s = _
    rw [execAddFx64]
  · show execAddI32Sat q s = _
    rw [execAddI32Sat]

section Add

variable {s : State} {q : Nat} {o : Op} {r : Rd} {p : Payload} (hq : s.Quiet) (hn : (s.seq q).next .copy 0x1B = some o) (hnear : isFar o.b = false)
  (hp : s.nextPayload q o = (r, p)) (hok : r.code = .OK)

section Next

include hp

theorem State.nextPayload_read : r = s.read (Reader.ofCore q) (o.a + (if o.mod % 2 = 1 then 4 else 8) * o.prog)
    ((if o.mod % 2 = 1 then 4 else 8) * min (if o.mod % 2 = 1 then 16 else 8) (o.c - o.prog)) :=
  (congrArg Prod.fst hp).symm

theorem State.nextPayload_i32 : p.i32 = (o.mod % 2 == 1) :=
  (congrArg (fun x => x.2.i32) hp).symm

theorem State.nextPayload_obj (h : o.mod < 2) : p.obj = none := by
  have unnamed : bitOf o.mod 1 = false := by simp [bitOf]; omega
  refine (congrArg (fun x => x.2.obj) hp).symm.trans ?_
  simp [State.nextPayload, unnamed]

theorem State.sameStore_nextPayload : s.SameStore r.st := by
  rw [State.nextPayload_read hp]
  exact s.sameStore_read rfl _ _

theorem State.nextPayload_kept_read : Kept 6243 s r.st := by
  rw [State.nextPayload_read hp]
  exact State.read_kept rfl (Kept.refl _ s)

end Next

include hq hn hnear hp hok

/-- The payload is applied or refused, and the op goes on behind it. -/
theorem exec_addInstr_payload {i32 : Bool} (hi : (o.mod % 2 == 1) = i32) : exec (addInstr q i32) s
    = .next ((r.st.payload (Src.ofCore q) (coreDie q) p).payloadSent q o p (r.st.payloadStatus p)) := by
  have go : s.atomicGo q i32 = (r.st.payload (Src.ofCore q) (coreDie q) p).payloadSent q o p (r.st.payloadStatus p) := by
    simp only [State.atomicGo, State.atomicStep, hn, hnear, hi, hp, hok, bne_self_eq_false, Bool.or_self, Bool.false_eq_true, ne_eq,
      not_true_eq_false, if_false]
    rfl
  have sent : ((r.st.payload (Src.ofCore q) (coreDie q) p).payloadSent q o p (r.st.payloadStatus p)).Quiet := by
    have read : r.st.Quiet := hq.of_fab ((State.nextPayload_kept_read hp).only .fab rfl)
    exact (read.payload (Src.ofCore q) (coreDie q) p).of_fab (by rw [State.payloadSent_eq])
  rw [exec_addInstr, go, sent.settled]

/-- An accepted payload stores its words alone. -/
theorem exec_addInstr_accepted {i32 : Bool} (hi : (o.mod % 2 == 1) = i32) (hacc : r.st.payloadStatus p = .OK) :
    ∃ u : State, exec (addInstr q i32) s = .next u
      ∧ u.mem.bytes = (r.st.addWords (Src.ofCore q) (r.st.payloadMdie p (coreDie q)) i32 p.target p.words).mem.bytes
      ∧ u.mem.guard = (r.st.addWords (Src.ofCore q) (r.st.payloadMdie p (coreDie q)) i32 p.target p.words).mem.guard
      ∧ (o.mod < 2 → o.c ≤ o.prog + p.words.length → ∃ z : Op, (u.seq q).ran
          = (s.seq q).ran ++ [{ op := z, status := o.bad, reason := 0, addr := if o.bad = .OK then 0 else o.badAddr }] ∧ z.pc = o.pc ∧ z.d = o.d)
      ∧ (o.mod < 2 → o.prog + p.words.length < o.c → (u.seq q).ran = (s.seq q).ran
          ∧ ∃ z ∈ (u.seq q).ops, z.prog = o.prog + p.words.length ∧ z.pc = o.pc ∧ z.b = o.b) := by
  have kind : p.i32 = i32 := (State.nextPayload_i32 hp).trans hi
  obtain ⟨bytes, guard⟩ := State.payload_store hacc (Src.ofCore q) (coreDie q)
  have sameSeq (hm : o.mod < 2) : (r.st.payload (Src.ofCore q) (coreDie q) p).seq q = s.seq q := by
    have added := r.st.payloadAdded_kept (Src.ofCore q) (r.st.payloadMdie p (coreDie q)) p
    rw [State.payload_unposted hacc (State.nextPayload_obj hp hm), State.seq, added.seqs rfl, (State.nextPayload_kept_read hp).seqs rfl]
    rfl
  have run := exec_addInstr_payload hq hn hnear hp hok hi
  rw [hacc] at run
  refine ⟨_, run, by rw [State.payloadSent_mem, bytes, kind], by rw [State.payloadSent_mem, guard, kind], fun hm hlast => ?_, fun hm hmore => ?_⟩
  · rw [← sameSeq hm]
    exact State.payloadSent_last hlast _ q
  · rw [← sameSeq hm]
    exact State.payloadSent_goes_on hmore (by rw [sameSeq hm]; exact Sequencer.next_mem hn) .OK

/-- A refused payload stores nothing, is counted and reported (R193). -/
theorem exec_addInstr_refused {i32 : Bool} (hi : (o.mod % 2 == 1) = i32) (href : r.st.payloadStatus p ≠ .OK) :
    ∃ (u : State) (l : List EvRec) (e : EvRec), exec (addInstr q i32) s = .next u
      ∧ u.mem.bytes = s.mem.bytes ∧ u.mem.guard = s.mem.guard ∧ u.ev.inFlight = l ++ [e] ∧ e.code = .ATOMIC_REFUSED ∧ e.args = [p.target]
      ∧ e.status = r.st.payloadStatus p ∧ u.reg (memReg (r.st.payloadMdie p (coreDie q)) Reg.ATOM_REFUSED_TOTAL)
        = min (2 ^ 64 - 1) (r.st.reg (memReg (r.st.payloadMdie p (coreDie q)) Reg.ATOM_REFUSED_TOTAL) + 1) := by
  have same := State.sameStore_nextPayload hp
  have run := exec_addInstr_payload hq hn hnear hp hok hi
  rw [State.payload_refused href] at run
  refine ⟨_, _, _, run, ?_, ?_, by rw [State.payloadSent_ev]; rfl, rfl, rfl, rfl, ?_⟩
  · rw [State.payloadSent_mem, State.raise_mem, State.bump_mem, same.bytes]
  · rw [State.payloadSent_mem, State.raise_mem, State.bump_mem, same.guard]
  · rw [State.reg_payloadSent]
    exact (State.reg_bump _ _ _ _).trans (if_pos rfl)

end Add

theorem State.SameStore.natAt {s t : State} (h : s.SameStore t) (a n : Nat) : t.natAt a n = s.natAt a n := by
  rw [State.natAt, h.bytesAt]; rfl

theorem State.SameStore.fxWord {s t : State} (h : s.SameStore t) (a : Nat) : t.fxWord a = s.fxWord a := by
  rw [State.fxWord, h.natAt, h.guard]; rfl

/-- FX64 words are the bytes with their guard bits. -/
theorem State.fxWord_congr {s t : State} (hb : t.mem.bytes = s.mem.bytes) (hg : t.mem.guard = s.mem.guard) (a : Nat) : t.fxWord a = s.fxWord a := by
  have word : t.natAt a 8 = s.natAt a 8 := State.natAt_congr fun x _ _ => by rw [hb]
  rw [State.fxWord, State.fxWord, word, hg]

/-! ### The clear of atomic tiles (R192) -/

theorem State.get_clearTile_bytes (s : State) (t x : Nat) :
    Tab.get (s.clearTile t).mem.bytes x = if 4096 * t ≤ x ∧ x < 4096 * t + 4096 then 0#8 else Tab.get s.mem.bytes x := by
  have kept : (s.clearTile t).mem.bytes = (s.zeroTiles (4096 * t) 1).mem.bytes := by
    rw [State.clearTile]
    generalize s.zeroTiles (4096 * t) 1 = u
    rfl
  rw [kept, State.get_zeroTiles_bytes, Nat.mul_one]

/-- A cleared tile keeps what makes it a target. -/
def Tile.cleared (w : Tile) : Tile := { atomic := w.atomic, format := w.format, k := w.k }

theorem State.tile_clearTile (s : State) (t j : Nat) : (s.clearTile t).tile j = if j = t then (s.tile t).cleared else s.tile j := by
  have zeroed : (s.zeroTiles (4096 * t) 1).tile j = if j = t then {} else s.tile j := by
    rw [State.tile_zeroTiles]
    exact if_congr (by omega) rfl rfl
  refine (State.tile_setTile (s.zeroTiles (4096 * t) 1) t (s.tile t).cleared j).trans ?_
  rw [zeroed]
  split <;> rfl

/-- `n` tiles from tile `t` upwards are cleared. -/
def State.clearTiles (s : State) (t n : Nat) : State := (List.range n).foldl (fun s i => s.clearTile (t + i)) s

theorem State.clearTiles_succ (s : State) (t n : Nat) : s.clearTiles t (n + 1) = (s.clearTiles t n).clearTile (t + n) := by
  simp [State.clearTiles, List.range_succ]

theorem State.get_clearTiles_bytes (s : State) (t n x : Nat) :
    Tab.get (s.clearTiles t n).mem.bytes x = if 4096 * t ≤ x ∧ x < 4096 * t + 4096 * n then 0#8 else Tab.get s.mem.bytes x := by
  induction n with
  | zero => exact (if_neg (by omega)).symm
  | succ n ih =>
    rw [State.clearTiles_succ, State.get_clearTile_bytes, ih]
    by_cases last : 4096 * (t + n) ≤ x ∧ x < 4096 * (t + n) + 4096
    · rw [if_pos last, if_pos (by omega)]
    · rw [if_neg last]
      exact if_congr (by omega) rfl rfl

theorem State.tile_clearTiles (s : State) (t n j : Nat) : (s.clearTiles t n).tile j = if t ≤ j ∧ j < t + n then (s.tile j).cleared else s.tile j := by
  induction n with
  | zero => exact (if_neg (by omega)).symm
  | succ n ih =>
    rw [State.clearTiles_succ, State.tile_clearTile]
    by_cases last : j = t + n
    · subst last
      have before : (s.clearTiles t n).tile (t + n) = s.tile (t + n) := ih.trans (if_neg (by omega))
      rw [if_pos rfl, before, if_pos (by omega)]
    · rw [if_neg last, ih]
      exact if_congr (by omega) rfl rfl

theorem State.clearTiles_seqs (s : State) (t n : Nat) : (s.clearTiles t n).seqs = s.seqs :=
  (kept_foldl (W := 2048) _ (fun _ _ h => State.clearTile_kept rfl h) (Kept.refl _ s)).seqs rfl

theorem State.clearOk_iff (s : State) (a n : Nat) : s.clearOk a n = true ↔ ∀ i, i < n → (s.atomAt (a + 4096 * i)).isSome = true := by
  simp [State.clearOk]

theorem exec_atomicClearOp_clears {s : State} {q : Nat} {o : Op} (hn : (s.seq q).next .copy 0x1C = some o) (h : s.clearOk o.a o.b = true) :
    exec (.atomicClearOp q) s = .next ((s.clearTiles (o.a / 4096) o.b).opRan q o .OK 0 0) := by
  show execAtomicClearOp q s = _
  simp only [execAtomicClearOp, hn, h, if_true]
  rfl

theorem exec_atomicClearOp_refused {s : State} {q : Nat} {o : Op} (hn : (s.seq q).next .copy 0x1C = some o) (h : s.clearOk o.a o.b = false) :
    ∃ t : State, t.seqs = s.seqs ∧ t.mem = s.mem ∧ exec (.atomicClearOp q) s = .next (t.opRan q o .ATOMIC_NO_TARGET 0 o.a) := by
  refine ⟨(s.bump (memReg (((locate s.part.variant o.a).mdie).getD (coreDie q / 2)) Reg.ATOM_REFUSED_TOTAL) 1).raise .ATOMIC_REFUSED (Src.ofCore q) [o.a]
    .ATOMIC_NO_TARGET, State.raise_seqs _ _ _ _ _, State.raise_mem _ _ _ _ _, ?_⟩
  show execAtomicClearOp q s = _
  simp only [execAtomicClearOp, hn, h, Bool.false_eq_true, if_false]

/-- Settles O42: a payload is its words added one by one, or nothing; a clear is its tiles cleared one by one. -/
theorem atomicUnits : Obligations.AtomicUnits := by
  intro s q hq
  refine ⟨fun o r p hn hnear hp hok => ⟨fun hm hacc => ?fx64, fun hm hacc => ?int32, fun c hc hbad i hi => ?refused⟩,
    fun o hn hall => ?clears, fun o i hn hi hnone => ?notTargets⟩
  case fx64 =>
    obtain ⟨u, hx, bytes, guard, last, more⟩ := exec_addInstr_accepted (i32 := false) hq hn hnear hp hok (by simp [hm]) hacc
    have same := State.sameStore_nextPayload hp
    refine ⟨u, hx, fun i hi => ?_, fun x hout => ?_, fun h0 => last (by omega), fun h0 => more (by omega)⟩
    · rw [State.fxWord_congr bytes guard, State.fxWord_addWords _ _ _ _ _ hi, same.fxWord, wrap72]
    · rw [bytes, State.get_addWords_fx_other _ _ _ _ _ hout, same.bytes]
  case int32 =>
    obtain ⟨u, hx, bytes, -, last, -⟩ := exec_addInstr_accepted (i32 := true) hq hn hnear hp hok (by simp [hm]) hacc
    have same := State.sameStore_nextPayload hp
    refine ⟨u, hx, fun i hi => ?_, fun x hout => ?_, fun h1 => last (by omega)⟩
    · have word : u.natAt (p.target + 4 * i) 4
          = (r.st.addWords (Src.ofCore q) (r.st.payloadMdie p (coreDie q)) true p.target p.words).natAt (p.target + 4 * i) 4 :=
        State.natAt_congr fun x _ _ => by rw [bytes]
      rw [word, State.signed_addWords _ _ _ _ _ hi, same.natAt]
    · rw [bytes, State.get_addWords_i32_other _ _ _ _ _ hout, same.bytes]
  case refused =>
    subst hc
    obtain ⟨rfl, hm⟩ | ⟨rfl, hm⟩ : (i = addInstr q false ∧ o.mod % 2 = 0) ∨ (i = addInstr q true ∧ o.mod % 2 = 1) := by simpa [addInstr] using hi
    · exact exec_addInstr_refused hq hn hnear hp hok (by simp [hm]) hbad
    · exact exec_addInstr_refused hq hn hnear hp hok (by simp [hm]) hbad
  case clears =>
    refine ⟨_, exec_atomicClearOp_clears hn ((s.clearOk_iff _ _).mpr hall), State.ended_opRan (s.clearTiles_seqs _ _) q o _ 0 _, fun x => ?_,
      fun i hi => ?_, fun t ht => ?_⟩
    · rw [State.opRan_mem, State.get_clearTiles_bytes]
    · exact (s.tile_clearTiles _ _ _).trans (if_pos (by omega))
    · exact (s.tile_clearTiles _ _ _).trans (if_neg (by omega))
  case notTargets =>
    have bad : s.clearOk o.a o.b = false := by
      refine Bool.eq_false_iff.mpr fun h => ?_
      have found := (s.clearOk_iff _ _).mp h i hi
      simp [hnone] at found
    obtain ⟨t, seqs, mem, hx⟩ := exec_atomicClearOp_refused hn bad
    exact ⟨_, hx, State.ended_opRan seqs q o _ 0 _, mem⟩

end Sys2Proof.Machine
end

section
/-! PROOFS of the family 07_attention_and_kv_cache: attention walks, the merge of their segments and their end (R213, R216, R217, R220 to R222, R227). -/

namespace Sys2Proof.Machine

/-! ### Accesses leave image heads alone (R213) -/

theorem Kept.headOf {s t : State} (h : Kept 6243 s t) (i block head : Nat) : t.headOf i block head = s.headOf i block head := by
  have images : t.images = s.images := h.only .images rfl
  have reqs : t.reqs = s.reqs := h.only .reqs rfl
  simp only [State.headOf, State.image, State.req, images, reqs]

/-! ### The walker of a core (R221) -/

/-- The state with core `q`'s walker holding `w`. -/
def State.setWalk (s : State) (q : Nat) (w : Option Walk) : State := { s with walks := Tab.set s.walks q w }

@[simp] theorem State.setWalk_mem (s : State) (q : Nat) (w : Option Walk) : (s.setWalk q w).mem = s.mem := rfl
@[simp] theorem State.setWalk_seqs (s : State) (q : Nat) (w : Option Walk) : (s.setWalk q w).seqs = s.seqs := rfl
@[simp] theorem State.reg_setWalk (s : State) (q : Nat) (w : Option Walk) (a : Nat) : (s.setWalk q w).reg a = s.reg a := rfl
@[simp] theorem State.get_setWalk (s : State) (q : Nat) (w : Option Walk) : Tab.get (s.setWalk q w).walks q = w := Tab.get_set_same _ _ _

@[simp] theorem State.reg_opRan (s : State) (q : Nat) (o : Op) (c : Code) (reason addr a : Nat) (hold : Bool) :
    (s.opRan q o c reason addr hold).reg a = s.reg a := rfl

@[simp] theorem State.opRan_walks (s : State) (q : Nat) (o : Op) (c : Code) (reason addr : Nat) (hold : Bool) :
    (s.opRan q o c reason addr hold).walks = s.walks := rfl

/-! ### A walk that meets a fault (R115, R227) -/

@[simp] theorem State.trouble_mem (s : State) (i c : Nat) (l : List Nat) : (s.trouble i c l).mem = s.mem := by
  rw [State.trouble]
  split <;> rfl

@[simp] theorem State.trouble_walks (s : State) (i c : Nat) (l : List Nat) : (s.trouble i c l).walks = s.walks := by
  rw [State.trouble]
  split <;> rfl

@[simp] theorem State.trouble_seqs (s : State) (i c : Nat) (l : List Nat) : (s.trouble i c l).seqs = s.seqs := by
  rw [State.trouble]
  split <;> rfl

@[simp] theorem State.kvTrouble_mem (s : State) (i b : Nat) : (s.kvTrouble i b).mem = s.mem := State.trouble_mem _ _ _ _
@[simp] theorem State.kvTrouble_walks (s : State) (i b : Nat) : (s.kvTrouble i b).walks = s.walks := State.trouble_walks _ _ _ _
@[simp] theorem State.kvTrouble_seqs (s : State) (i b : Nat) : (s.kvTrouble i b).seqs = s.seqs := State.trouble_seqs _ _ _ _

/-- A fault frees the walker, leaves memory as it is and ends the op. -/
theorem State.walkFault_opRan (s : State) (q : Nat) (o : Op) (r : WalkRec) (c : Code) (a : Nat) :
    ∃ u : State, u.seqs = s.seqs ∧ u.mem = s.mem ∧ u.walks = Tab.set s.walks q none ∧ s.walkFault q o r c a = u.opRan q o c 0 a := by
  refine ⟨_, ?_, ?_, ?_, rfl⟩
  all_goals
    split
    · simp
    · split <;> simp

theorem State.ended_walkFault {s t : State} (h : t.seqs = s.seqs) (q : Nat) (o : Op) (r : WalkRec) (c : Code) (a : Nat) :
    s.ended (t.walkFault q o r c a) q o c 0 a := by
  obtain ⟨u, seqs, -, -, hu⟩ := t.walkFault_opRan q o r c a
  rw [hu]
  exact State.ended_opRan (seqs.trans h) q o c 0 a

@[simp] theorem State.walkFault_mem (s : State) (q : Nat) (o : Op) (r : WalkRec) (c : Code) (a : Nat) : (s.walkFault q o r c a).mem = s.mem := by
  obtain ⟨u, -, mem, -, hu⟩ := s.walkFault_opRan q o r c a
  rw [hu, State.opRan_mem, mem]

theorem State.walkFault_frees (s : State) (q : Nat) (o : Op) (r : WalkRec) (c : Code) (a : Nat) : Tab.get (s.walkFault q o r c a).walks q = none := by
  obtain ⟨u, -, -, walks, hu⟩ := s.walkFault_opRan q o r c a
  rw [hu]
  exact (congrArg (Tab.get · q) walks).trans (Tab.get_set_same _ _ _)

/-! ### The end of a walk (R217, R220) -/

theorem leBytes_zero (n : Nat) : leBytes n 0 = List.replicate n 0#8 := by
  induction n with
  | zero => rfl
  | succ n ih => rw [leBytes, Nat.zero_div, ih, List.replicate_succ]

/-- What a walk with the rows `ys` writes at OUT_ADDR. -/
def WalkRec.output (r : WalkRec) (ys : List (List F32)) : List Byte :=
  ys.flatMap (fun y => y.flatMap (fun v => leBytes 4 v.toNat)) ++ List.replicate ((r.padded - r.rows) * r.g * 128 * r.width) 0#8

theorem State.walkEnd_range {s : State} {r : WalkRec} {ps : List WalkPart} (h : (ps.any fun p => (finishPart r.skv p).isNone) = true) (q : Nat) (o : Op) :
    s.walkEnd q o r ps = s.walkFault q o r .KV_RANGE r.out := by
  have out : ((ps.map (finishPart r.skv)).any (·.isNone)) = true := by rw [List.any_map]; exact h
  simp only [State.walkEnd, out, if_true]

/-- The state that a walk leaves once its outputs stand in `s`, its op aside. -/
def State.walkCounted (s : State) (q : Nat) (r : WalkRec) : State :=
  ((s.bump (dieReg (coreDie q) Reg.ATT_WALK_TOTAL) 1).bump (dieReg (coreDie q) Reg.ATT_PAD_ROW_TOTAL) (r.padded - r.rows)).setWalk q none

theorem State.walkEnd_outputs {s : State} {r : WalkRec} {ps : List WalkPart} {ys : List (List F32)} (h : ps.map (finishPart r.skv) = ys.map some)
    (hsave : r.save = false) (hfree : s.blocked (piecesOf r.out (r.output ys).length) = none) (q : Nat) (o : Op) :
    s.walkEnd q o r ps = ((s.write (Src.ofCore q) {} r.out (r.output ys)).st.walkCounted q r).opRan q o .OK 0 0 := by
  have every : ((ys.map some).any (·.isNone)) = false := by simp
  have out : (ys.map some).flatMap (fun y => (y.getD []).flatMap (fun v => leBytes 4 v.toNat)) ++ leBytes ((r.padded - r.rows) * r.g * 128 * r.width) 0
      = r.output ys := by
    rw [leBytes_zero, List.flatMap_map]
    rfl
  have performed : (s.write (Src.ofCore q) {} r.out (r.output ys)).code = .OK := by simp only [State.write, hfree]
  simp only [State.walkEnd, h, every, out, performed, hsave, Bool.false_eq_true, ne_eq, not_true_eq_false, if_false]
  rfl

@[simp] theorem State.walkCounted_mem (s : State) (q : Nat) (r : WalkRec) : (s.walkCounted q r).mem = s.mem := rfl
@[simp] theorem State.walkCounted_seqs (s : State) (q : Nat) (r : WalkRec) : (s.walkCounted q r).seqs = s.seqs := rfl
@[simp] theorem State.get_walkCounted (s : State) (q : Nat) (r : WalkRec) : Tab.get (s.walkCounted q r).walks q = none := State.get_setWalk _ _ _

theorem State.reg_walkCounted (s : State) (q : Nat) (r : WalkRec) : (s.walkCounted q r).reg (dieReg (coreDie q) Reg.ATT_WALK_TOTAL)
    = min (2 ^ 64 - 1) (s.reg (dieReg (coreDie q) Reg.ATT_WALK_TOTAL) + 1) := by
  have other : dieReg (coreDie q) Reg.ATT_WALK_TOTAL ≠ dieReg (coreDie q) Reg.ATT_PAD_ROW_TOTAL := by simp [dieReg]
  rw [State.walkCounted, State.reg_setWalk, State.reg_bump, if_neg other, State.reg_bump, if_pos rfl]

theorem State.write_seqs (s : State) (src : Src) (st : Tile) (a : Nat) (bs : List Byte) : (s.write src st a bs).st.seqs = s.seqs :=
  (State.write_kept rfl (Kept.refl 6243 s)).seqs rfl

/-! ### The walk of a checked record (R216, R221) -/

section Walk

variable {s : State} {q : Nat} {o : Op} {bs : List Byte} {r : WalkRec} {g : Image} {h : ImageHead} {ps : List Nat} {rq : Rd} {rp : PageRd}
  (hq : s.read (Reader.ofCore q) r.q (r.padded * r.g * 33 * r.width) = rq) (hqok : rq.code = .OK)
  (hp : rq.st.readPages q g h r (s.walkBase r + r.rows - 1) (List.range ((s.walkBase r + r.rows - 1) / 256 + 1)) = rp)

include hq hp

theorem State.walkPages_kept : Kept 137438959715 s rp.st := by
  have queries : Kept 137438959715 s rq.st := hq ▸ State.read_kept rfl (Kept.refl _ s)
  exact hp ▸ State.readPages_kept rfl queries

include hqok

theorem State.walk_pageFault (hbad : rp.code ≠ .OK) : s.walk q o bs r g h ps = rp.st.walkFault q o r rp.code rp.addr := by
  simp only [State.walk, hq, hqok, hp, hbad, ne_eq, not_true_eq_false, not_false_eq_true, if_false, if_true]

theorem State.walk_recompute (hpok : rp.code = .OK) (hre : r.recompute = true) :
    s.walk q o bs r g h ps = rp.st.recompute q o r (ancestors ps) (queryVecs r rq.bytes) rp.pages := by
  simp only [State.walk, hq, hqok, hp, hpok, hre, ne_eq, not_true_eq_false, if_false, if_true]

section Segments

variable (hpok : rp.code = .OK) (hre : r.recompute = false) {segs : List (List RowRun)}
  (hsegs : (segmentsOf ((s.walkBase r + r.rows - 1) / 256 + 1) (min r.segments ((s.walkBase r + r.rows - 1) / 256 + 1))).map
    (walkSegment r (s.walkBase r) (ancestors ps) (queryVecs r rq.bytes) rp.pages) = segs)
  (hgood : (segs.any fun x => x.any (·.bad)) = false) {p : List WalkPart} {t : List (List WalkPart)} (hparts : segs.map (fun x => x.map (·.part)) = p :: t)

include hpok hre hsegs hgood hparts

/-- A walk without range trouble in one segment ends. -/
theorem State.walk_ends (hlast : t = []) : s.walk q o bs r g h ps = (rp.st.bump (dieReg (coreDie q) Reg.ATT_RESCALE_TOTAL)
    ((segs.flatMap (fun x => x.map (·.rescales))).foldl (· + ·) 0)).walkEnd q o r p := by
  have last : t.isEmpty = true := List.isEmpty_iff.mpr hlast
  simp only [State.walk, hq, hqok, hp, hpok, hre, hsegs, hgood, hparts, last, Bool.false_eq_true, ne_eq, not_true_eq_false, if_false, if_true]

/-- The segments of a walk without range trouble wait in their order behind segment 0's. -/
theorem State.walk_waits (hmore : t ≠ []) : s.walk q o bs r g h ps = (rp.st.bump (dieReg (coreDie q) Reg.ATT_RESCALE_TOTAL)
    ((segs.flatMap (fun x => x.map (·.rescales))).foldl (· + ·) 0)).setWalk q (some { op := o, record := bs, own := p, rest := t }) := by
  have more : t.isEmpty = false := List.isEmpty_eq_false_iff.mpr hmore
  simp only [State.walk, hq, hqok, hp, hpok, hre, hsegs, hgood, hparts, more, Bool.false_eq_true, ne_eq, not_true_eq_false, if_false]
  rfl

end Segments

end Walk

/-! ### The op ATT_WALK (R213, R217, R221) -/

theorem exec_attWalkOp_waits {s : State} {q : Nat} {o : Op} (hn : (s.seq q).next .dEng 0x18 = some o) (hbusy : Tab.get s.walks q ≠ none) :
    exec (.attWalkOp q) s = .next s := by
  have held : (Tab.get s.walks q).isSome = true := Option.isSome_iff_ne_none.mpr hbusy
  show execAttWalkOp q s = _
  simp only [execAttWalkOp, hn, held, if_true]

section Record

variable {s : State} {q : Nat} {o : Op} {rd : Rd} {r : WalkRec} {rt : Rd} (hn : (s.seq q).next .dEng 0x18 = some o) (hidle : Tab.get s.walks q = none)
  (hrd : s.read (Reader.ofCore q) o.a 64 = rd) (hok : rd.code = .OK) (hr : parseWalk s.loc rd.bytes = r)
  (ht : (if r.kind = 2 then rd.st.read (Reader.ofCore q) r.tree 64 else { st := rd.st }) = rt) (htok : rt.code = .OK)

section Kept

include hrd ht

theorem State.walkRecord_kept : Kept 6243 s rt.st := by
  have record : Kept 6243 s rd.st := hrd ▸ State.read_kept rfl (Kept.refl _ s)
  rw [← ht]
  split
  · exact State.read_kept rfl record
  · exact record

end Kept

include hn hidle hrd hok hr ht htok

theorem exec_attWalkOp_refused {c : Nat} (hbad : rt.st.walkReason r rd.bytes (parentsOf r rt.bytes) = some c) :
    exec (.attWalkOp q) s = .next (rt.st.opRan q o .ATT_RECORD_INVALID c o.a) := by
  show execAttWalkOp q s = _
  simp only [execAttWalkOp, hn, hidle, hrd, hok, hr, ht, htok, hbad, Option.isSome_none, Bool.false_eq_true, ne_eq, not_true_eq_false, if_false]

theorem exec_attWalkOp_walks (hgood : rt.st.walkReason r rd.bytes (parentsOf r rt.bytes) = none) {g : Image} {h : ImageHead}
    (hhead : s.headOf r.seq r.layer r.head = some (g, h)) :
    exec (.attWalkOp q) s = .next (rt.st.walk q o rd.bytes r g h (parentsOf r rt.bytes)) := by
  have head : rt.st.headOf r.seq r.layer r.head = some (g, h) := ((State.walkRecord_kept hrd ht).headOf _ _ _).trans hhead
  show execAttWalkOp q s = _
  simp only [execAttWalkOp, hn, hidle, hrd, hok, hr, ht, htok, hgood, head, Option.isSome_none, Bool.false_eq_true, ne_eq, not_true_eq_false, if_false]

end Record

/-! ### SEGMENT_MERGE (R222) -/

theorem exec_segmentMerge_idle {s : State} {q : Nat} (h : ∀ w, Tab.get s.walks q = some w → w.rest = []) : exec (.segmentMerge q) s = .next s := by
  show execSegmentMerge q s = _
  rw [execSegmentMerge]
  cases hw : Tab.get s.walks q with
  | none => rfl
  | some w => simp only [h w hw]

/-- Segment 0's partials after the merge of the next segment's. -/
def Walk.merged (w : Walk) (k : List WalkPart) : List WalkPart := (w.own.zip k).map (fun x => mergePart x.1 x.2)

/-- The state in which a merge of partials `k` has been counted: one whose sums are all zero is not (R222). -/
def State.mergeCounted (s : State) (q : Nat) (k : List WalkPart) : State :=
  s.bump (dieReg (coreDie q) Reg.ATT_MERGE_TOTAL) (if k.all (fun x => F32.isZero x.l) then 0 else 1)

section Merge

variable {s : State} {q : Nat} {w : Walk} {k : List WalkPart} {t : List (List WalkPart)} (hw : Tab.get s.walks q = some w) (hrest : w.rest = k :: t)

include hw hrest

theorem exec_segmentMerge_faults (hbad : (w.merged k).all WalkPart.ok = false) : exec (.segmentMerge q) s
    = .next ((s.mergeCounted q k).walkFault q w.op (parseWalk s.loc w.record) .KV_RANGE (parseWalk s.loc w.record).out) := by
  rw [Walk.merged] at hbad
  show execSegmentMerge q s = _
  simp only [execSegmentMerge, hw, hrest, hbad, Bool.not_false, if_true]
  rfl

theorem exec_segmentMerge_ends (hfin : (w.merged k).all WalkPart.ok = true) (hlast : t = []) : exec (.segmentMerge q) s
    = .next ((s.mergeCounted q k).walkEnd q w.op (parseWalk s.loc w.record) (w.merged k)) := by
  have last : t.isEmpty = true := List.isEmpty_iff.mpr hlast
  rw [Walk.merged] at hfin
  show execSegmentMerge q s = _
  simp only [execSegmentMerge, hw, hrest, hfin, last, Bool.not_true, Bool.false_eq_true, if_false, if_true]
  rfl

theorem exec_segmentMerge_goes_on (hfin : (w.merged k).all WalkPart.ok = true) (hmore : t ≠ []) : exec (.segmentMerge q) s
    = .next ((s.mergeCounted q k).setWalk q (some { w with own := w.merged k, rest := t })) := by
  have more : t.isEmpty = false := List.isEmpty_eq_false_iff.mpr hmore
  rw [Walk.merged] at hfin
  show execSegmentMerge q s = _
  simp only [execSegmentMerge, hw, hrest, hfin, more, Bool.not_true, Bool.false_eq_true, if_false]
  rfl

end Merge

/-- Settles O44: the record's reads and checks lead to one walk, whose segments wait, merge and end. -/
theorem attentionWalks : Obligations.AttentionWalks := by
  refine ⟨fun s q o hn => ⟨exec_attWalkOp_waits hn, fun hidle rd hrd hok => ?record⟩, fun s q => exec_segmentMerge_idle,
    fun s q w k t hw hrest => ?merge, fun s q o r ps h => ?range, fun s q o r ps ys h hsave => ?outputs⟩
  case record =>
    intro r rt hkind hother htok ps
    have ht : (if r.kind = 2 then rd.st.read (Reader.ofCore q) r.tree 64 else { st := rd.st }) = rt := by
      split
      · next hk => exact (hkind hk).symm
      · next hk => exact (hother hk).symm
    have record : Kept 6243 s rt.st := State.walkRecord_kept hrd ht
    refine ⟨fun c hbad => ?refused, fun hgood g h hhead rq hrq hqok => ?walks⟩
    case refused =>
      exact ⟨_, exec_attWalkOp_refused hn hidle hrd hok rfl ht htok hbad, State.ended_opRan (record.seqs rfl) q o _ c _, rfl⟩
    case walks =>
      intro base np rp hrp
      have run := exec_attWalkOp_walks hn hidle hrd hok rfl ht htok hgood hhead
      have seqs : rp.st.seqs = s.seqs := ((State.walkPages_kept hrq hrp).seqs rfl).trans (record.seqs rfl)
      refine ⟨fun hbad => ?pageFault, fun hpok hre => ?recomputes, fun hpok hre segs hsegs hfin p t hparts => ?segments⟩
      case pageFault =>
        rw [State.walk_pageFault hrq hqok hrp hbad] at run
        exact ⟨_, run, State.ended_walkFault seqs q o r _ _, State.walkFault_frees _ _ _ _ _ _, State.walkFault_mem _ _ _ _ _ _⟩
      case recomputes => rw [run, State.walk_recompute hrq hqok hrp hpok hre]
      case segments =>
        have good : (segs.any fun x => x.any (·.bad)) = false := by simpa only [List.any_eq_false, Bool.not_eq_true] using hfin
        refine ⟨fun hmore => ?waits, fun hlast => ?ends⟩
        case waits =>
          rw [State.walk_waits hrq hqok hrp hpok hre hsegs.symm good hparts hmore] at run
          exact ⟨_, run, State.get_setWalk _ _ _, rfl, congrArg (Tab.get · q) seqs⟩
        case ends => rw [run, State.walk_ends hrq hqok hrp hpok hre hsegs.symm good hparts hlast]
  case merge =>
    exact ⟨fun hfin hmore => ⟨_, exec_segmentMerge_goes_on hw hrest hfin hmore, State.get_setWalk _ _ _, rfl, rfl⟩, exec_segmentMerge_ends hw hrest,
      fun hbad => ⟨_, exec_segmentMerge_faults hw hrest hbad, State.ended_walkFault rfl q w.op _ _ _, State.walkFault_frees _ _ _ _ _ _,
        State.walkFault_mem _ _ _ _ _ _⟩⟩
  case range =>
    rw [State.walkEnd_range h]
    exact ⟨State.ended_walkFault rfl q o r _ _, State.walkFault_frees _ _ _ _ _ _, State.walkFault_mem _ _ _ _ _ _⟩
  case outputs =>
    intro out hfree
    have written : r.output ys = out := rfl
    rw [State.walkEnd_outputs h hsave hfree, written]
    refine ⟨State.ended_opRan ?_ q o .OK 0 0, ?_, ?_, fun x => ?_⟩
    · rw [State.walkCounted_seqs, State.write_seqs]
    · rw [State.opRan_walks, State.get_walkCounted]
    · rw [State.reg_opRan, State.reg_walkCounted]
    · rw [State.opRan_mem, State.walkCounted_mem, State.write_bytes hfree, get_setList_byte]

end Sys2Proof.Machine
end

section
/-! PROOFS of the family 08_request_serving: the operations on a request's handle (R232, R234, R240, R241, R244, R245, R249, R252, R276), RESUME (R250, R251, R265) and the adapter descriptors (R252 to R254). -/

namespace Sys2Proof.Machine

/-! ### The check of the handle (R232, R234, R276) -/

section Handle

variable {s : State} {chan x : Nat}

theorem State.handleStatus_stale (hi : (s.req (x % 2 ^ 20)).incarnation ≠ x / 2 ^ 20) (any : Bool) (ok : Req → Bool) :
    s.handleStatus chan x any ok = .REQUEST_STALE := if_pos hi

variable (hi : (s.req (x % 2 ^ 20)).incarnation = x / 2 ^ 20)

include hi

theorem State.handleStatus_channel (hopen : (s.req (x % 2 ^ 20)).st ≠ .closed) (hchan : (s.req (x % 2 ^ 20)).chan ≠ chan) (ok : Req → Bool) :
    s.handleStatus chan x false ok = .REQUEST_CHANNEL := by
  rw [State.handleStatus, if_neg (not_not.mpr hi), if_pos ⟨hopen, hchan, rfl⟩]

/-- A fresh handle of the channel's own or of a closed entry: the state alone decides. -/
theorem State.handleStatus_own (hown : (s.req (x % 2 ^ 20)).st = .closed ∨ (s.req (x % 2 ^ 20)).chan = chan) (any : Bool) (ok : Req → Bool) :
    s.handleStatus chan x any ok = if ok (s.req (x % 2 ^ 20)) then .OK else .REQUEST_STATE := by
  have notForeign : ¬ ((s.req (x % 2 ^ 20)).st ≠ .closed ∧ (s.req (x % 2 ^ 20)).chan ≠ chan ∧ !any) := fun ⟨hopen, hchan, _⟩ => hown.elim hopen hchan
  rw [State.handleStatus, if_neg (not_not.mpr hi), if_neg notForeign]
  cases ok (s.req (x % 2 ^ 20)) <;> rfl

end Handle

section OnRequest

variable {s : State} {h : Hdr} {x : Nat} {ok : Req → Bool} {k : State → Nat → State × Code} {any : Bool} {c : Code}

theorem State.onRequest_refused (ha : s.accepts h clsRequest = true) (hs : (s.start h).handleStatus h.chan x any ok = c) (hc : c ≠ .OK) :
    s.onRequest h x ok k any = (s.start h).finish (s.descOf h) c 0 0 := by
  rw [State.onRequest, State.descriptor_accepted ha, hs, if_neg hc]

theorem State.onRequest_performs (ha : s.accepts h clsRequest = true) (hs : (s.start h).handleStatus h.chan x any ok = .OK) {t : State}
    (hk : k (s.start h) (x % 2 ^ 20) = (t, c)) : s.onRequest h x ok k any = t.finish (s.descOf h) c 0 0 := by
  rw [State.onRequest, State.descriptor_accepted ha, hs, if_pos rfl, hk]

end OnRequest

/-- Each operation of Table 8-6 is performed through the check of its handle, against the states that it lists. -/
theorem exec_of_requestStates {c : Instr} {h : Hdr} {x : Nat} {l : List ReqState} (hc : c.requestStates = some (h, x, l)) (s : State) :
    ∃ ok k, exec c s = .next (s.onRequest h x ok k) ∧ ∀ r : Req, ok r = l.contains r.st := by
  unfold Instr.requestStates at hc
  split at hc <;> cases hc
  all_goals
    refine ⟨_, _, rfl, fun r => ?_⟩
    generalize r.st = st
    cases st <;> rfl

/-- Settles O15: each operation is performed through the check of its handle, which answers with the first refusal that applies. -/
theorem requestOperationsCheckTheHandle : Obligations.RequestOperationsCheckTheHandle := by
  intro s c h x l hc ha r
  obtain ⟨ok, k, run, listed⟩ := exec_of_requestStates hc s
  rw [run]
  refine ⟨fun hi => ?stale, fun hi hopen hchan => ?channel, fun hi hown hst => ?state⟩
  case stale => rw [State.onRequest_refused ha (State.handleStatus_stale hi _ _) (by decide)]
  case channel => rw [State.onRequest_refused ha (State.handleStatus_channel hi hopen hchan _) (by decide)]
  case state =>
    have unlisted : ok r = false := by simpa [listed] using hst
    have refusal := (State.handleStatus_own hi hown false ok).trans (if_neg (ne_true_of_eq_false unlisted))
    rw [State.onRequest_refused ha refusal (by decide)]

/-! ### Operations on an entry of the descriptor's own channel (Table 8-6, R276) -/

/-- The length that a request reaches when `count` more tokens are appended (R240). -/
def Req.lengthWith (r : Req) (keep : Bool) (count : Nat) : Nat :=
  r.length + (if keep && r.token.isSome then 1 else 0) + r.input.length + (r.late.map (fun y => y.2.length)).foldl (· + ·) 0 + count

theorem rewindToken_ring {r : Req} {l : Nat} (hl : l < r.length) (hring : r.length ≤ l + 479) (token : Nat) (valid : Bool) :
    rewindToken r l token valid = some (some (Tab.get r.ring (l % 480))) := by
  rw [rewindToken, if_neg (fun hend => hl.ne hend.1), if_pos hring]

theorem rewindToken_given {r : Req} {l : Nat} (hpast : l + 479 < r.length) (token : Nat) (valid : Bool) :
    rewindToken r l token valid = if valid then some (some token) else none := by
  rw [rewindToken, if_neg (fun hend => by omega), if_neg (by omega)]

theorem State.req_setReq_same (s : State) (i : Nat) (r : Req) : (s.setReq i r).req i = r := Tab.get_set_same _ _ _

theorem State.req_setReq_other (s : State) {i j : Nat} (r : Req) (hj : j ≠ i) : (s.setReq i r).req j = s.req j := Tab.get_set_other _ _ hj

/-- A change of one entry more is a change of the request table alone. -/
theorem State.setReq_reqs_only {s t : State} (h : s = { t with reqs := s.reqs }) (i : Nat) (r : Req) :
    s.setReq i r = { t with reqs := (s.setReq i r).reqs } := by
  rw [h]
  rfl

theorem State.stopMove_still {s : State} {i : Nat} (h : (s.req i).tier ≠ .moving) : s.stopMove i = s.setReq i { s.req i with wantMove := false } :=
  if_neg (fun hm => h hm.1)

section Entry

variable {s : State} {h : Hdr} {x : Nat} {r : Req} (he : s.onEntry h x r)

include he

theorem State.onEntry.accepted : s.accepts h clsRequest = true := he.1

theorem State.onEntry.handleStatus (any : Bool) (ok : Req → Bool) :
    (s.start h).handleStatus h.chan x any ok = if ok r then .OK else .REQUEST_STATE := by
  obtain ⟨-, rfl, hi, hchan⟩ := he
  exact State.handleStatus_own hi (.inr hchan) any ok

theorem State.onEntry.performs {ok : Req → Bool} {k : State → Nat → State × Code} {any : Bool} {t : State} {c : Code} (hok : ok r = true)
    (hk : k (s.start h) (x % 2 ^ 20) = (t, c)) : s.onRequest h x ok k any = t.finish (s.descOf h) c 0 0 :=
  State.onRequest_performs he.accepted ((he.handleStatus any ok).trans (if_pos hok)) hk

section Append

variable {keep : Bool} {tokens count : Nat} (hst : r.st = .opened ∨ r.st = .ember ∨ r.st = .peat)

include hst

theorem exec_requestAppend_tooLong (hlong : r.maxLength < r.lengthWith keep count) :
    exec (.requestAppend h x keep tokens count) s = .next ((s.start h).finish (s.descOf h) .REQUEST_RANGE 0 0) := by
  obtain ⟨-, rfl, -, -⟩ := id he
  show execRequestAppend h x keep tokens count s = _
  rw [execRequestAppend, he.performs (by simpa [or_assoc] using hst) (if_pos hlong)]

theorem exec_requestAppend_adds (hfits : r.lengthWith keep count ≤ r.maxLength) :
    exec (.requestAppend h x keep tokens count) s = .next (((s.start h).setReq (x % 2 ^ 20)
      (if r.st = .peat then { r with late := r.late ++ [(keep, (s.start h).tokens tokens count)] }
       else { r with input := r.input ++ (s.start h).tokens tokens count, token := if keep then r.token else none })).finish (s.descOf h) .OK 0 0) := by
  obtain ⟨-, rfl, -, -⟩ := id he
  show execRequestAppend h x keep tokens count s = _
  rw [execRequestAppend, he.performs (by simpa [or_assoc] using hst) (if_neg (Nat.not_lt.mpr hfits))]

end Append

theorem exec_requestDraft {len n tree : Nat} (hst : r.st = .active) (hmode : r.draftMode = 1) : exec (.requestDraft h x len n tree) s = .next (
    if treeOk ((s.start h).treeNodes tree n) then
      ((s.start h).setReq (x % 2 ^ 20) { r with tree := some { forLength := len, nodes := (s.start h).treeNodes tree n } }).finish (s.descOf h) .OK 0 0
    else (s.start h).finish (s.descOf h) .TREE_ORDER 0 0) := by
  obtain ⟨-, rfl, -, -⟩ := id he
  have takes : ((((s.start h).req (x % 2 ^ 20)).st == .active) && (((s.start h).req (x % 2 ^ 20)).draftMode == 1)) = true := by rw [hst, hmode]; rfl
  show execRequestDraft h x len n tree s = _
  rw [execRequestDraft]
  split
  · next hord => rw [he.performs takes (if_neg (by rw [hord]; exact Bool.false_ne_true))]
  · next hord => rw [he.performs takes (if_pos (by simpa using hord))]

section Pause

variable {toPeat : Bool} {target ttl hold : Nat}

theorem exec_requestPause_disabled (hst : r.st = .active ∨ r.st = .ember) (hpeat : toPeat = true ∨ hold ≠ 0)
    (hoff : (s.start h).peatEnabled target = false) :
    exec (.requestPause h x toPeat target ttl hold) s = .next ((s.start h).finish (s.descOf h) .PEAT_TARGET_DISABLED 0 0) := by
  show execRequestPause h x toPeat target ttl hold s = _
  rw [execRequestPause, he.performs (by simpa using hst) (if_pos (by simpa [hoff] using hpeat))]

/-- A pause to the Ember tier without a hold needs no target (R245). -/
theorem exec_requestPause_ember (hst : r.st = .active) (htier : r.tier ≠ .moving) : exec (.requestPause h x false target ttl 0) s
    = .next (((s.start h).setReq (x % 2 ^ 20) { r with peatTarget := target, ttl := ttl, hold := 0, wantMove := false, wantPause := true }).finish
        (s.descOf h) .OK 0 0) := by
  obtain ⟨-, rfl, -, -⟩ := id he
  show execRequestPause h x false target ttl 0 s = _
  rw [execRequestPause, he.performs (by simpa using Or.inl hst) ((if_neg (by simp)).trans ((if_neg (by simp)).trans (if_neg htier))), hst]
  rfl

end Pause

section Renew

variable {ttl : Nat}

theorem exec_requestRenew_expired (hst : r.st = .expired) :
    exec (.requestRenew h x ttl) s = .next ((s.start h).finish (s.descOf h) .REQUEST_EXPIRED 0 0) := by
  obtain ⟨-, rfl, -, -⟩ := id he
  show execRequestRenew h x ttl s = _
  rw [execRequestRenew, he.performs (by simpa using Or.inl (Or.inr hst)) (if_pos hst)]

theorem exec_requestRenew_peat (hst : r.st = .peat) : exec (.requestRenew h x ttl) s
    = .next (((s.start h).setReq (x % 2 ^ 20) { r with ttl := ttl, warned := false, expiry := s.time.tick + ttl * 10 ^ 9 }).finish
        (s.descOf h) .OK 0 0) := by
  obtain ⟨-, rfl, -, -⟩ := id he
  show execRequestRenew h x ttl s = _
  rw [execRequestRenew, he.performs (by simpa using Or.inl (Or.inl hst)) (if_neg (by rw [hst]; decide)), if_pos hst, State.start_time]
  rfl

end Renew

section Rewind

variable {l token : Nat} {valid : Bool} (hst : r.st = .active ∨ r.st = .ember)

include hst

theorem exec_requestRewind_refused (hr : r.length < l ∨ rewindToken r l token valid = none) :
    exec (.requestRewind h x l token valid) s = .next ((s.start h).finish (s.descOf h) .REWIND_RANGE 0 0) := by
  have unnoted : (if r.length < l then none else rewindToken r l token valid) = none := by
    split
    · rfl
    · next hle => exact hr.resolve_left hle
  obtain ⟨-, rfl, -, -⟩ := id he
  show execRequestRewind h x l token valid s = _
  rw [execRequestRewind, he.performs (by simpa using hst) rfl, unnoted]

theorem exec_requestRewind_notes (hl : l ≤ r.length) {t : Option Nat} (ht : rewindToken r l token valid = some t) :
    exec (.requestRewind h x l token valid) s
      = .next (((s.start h).setReq (x % 2 ^ 20) { r with wantRewind := some (l, t) }).finish (s.descOf h) .OK 0 0) := by
  obtain ⟨-, rfl, -, -⟩ := id he
  show execRequestRewind h x l token valid s = _
  rw [execRequestRewind, he.performs (by simpa using hst) rfl, if_neg (Nat.not_lt.mpr hl), ht]

end Rewind

section Migrate

variable (hst : r.st = .active ∨ r.st = .ember ∨ r.st = .peat)

include hst

theorem exec_requestMigrate_none (hno : r.noAdapter = true ∨ ((s.start h).adapter r.slot).live = []) :
    exec (.requestMigrate h x) s = .next ((s.start h).finish (s.descOf h) .ADAPTER_NONE 0 0) := by
  obtain ⟨-, rfl, -, -⟩ := id he
  show execRequestMigrate h x s = _
  rw [execRequestMigrate, he.performs (by simpa [or_assoc] using hst) (if_pos (by simpa using hno))]

theorem exec_requestMigrate_notes (hwith : r.noAdapter = false) (hlive : ((s.start h).adapter r.slot).live ≠ []) :
    exec (.requestMigrate h x) s = .next (((s.start h).setReq (x % 2 ^ 20) { r with migrate := true }).finish (s.descOf h) .OK 0 0) := by
  obtain ⟨-, rfl, -, -⟩ := id he
  show execRequestMigrate h x s = _
  rw [execRequestMigrate, he.performs (by simpa [or_assoc] using hst) (if_neg (by rw [hwith]; simpa using hlive))]

end Migrate

/-- A request with no transfer in progress: its wish to move is dropped and the close is noted (R251). -/
theorem exec_requestClose_still (hst : r.st ≠ .closed) (hres : r.resuming = none) (htier : r.tier ≠ .moving) : exec (.requestClose h x) s
    = .next ((((s.start h).setReq (x % 2 ^ 20) { r with wantMove := false }).setReq (x % 2 ^ 20) { r with wantMove := false, wantClose := true }).finish
        (s.descOf h) .OK 0 0) := by
  obtain ⟨-, rfl, -, -⟩ := id he
  show execRequestClose h x s = _
  rw [execRequestClose, he.performs (by simpa using hst) rfl]
  split
  · next d hd => rw [hres] at hd; cases hd
  · rw [State.stopMove_still htier, State.req_setReq_same]

theorem exec_requestQuery (buffer : Nat) : exec (.requestQuery h x buffer) s
    = .next (((s.start h).hostPut buffer (r.entry (x % 2 ^ 20) ++ ((s.start h).table (x % 2 ^ 20)).header (x % 2 ^ 20))).finish (s.descOf h) .OK 0 0) := by
  obtain ⟨-, rfl, -, -⟩ := id he
  show execRequestQuery h x buffer s = _
  rw [execRequestQuery, he.performs rfl rfl]

end Entry

/-- Settles O16: each operation's own lemma gives what it leaves in the entry. -/
theorem requestOperationsChangeTheirEntry : Obligations.RequestOperationsChangeTheirEntry := by
  intro s h x r he t d i held
  refine ⟨fun keep tokens count hst => ?append,
    fun len n tree hst hmode => ⟨fun hbad => ?disorder, fun hgood => ?drafts⟩, fun target ttl => exec_requestPause_ember he,
    fun toPeat target ttl hold => exec_requestPause_disabled he, fun ttl => exec_requestRenew_peat he, fun ttl => exec_requestRenew_expired he,
    fun l token valid hst => ⟨fun hpast => exec_requestRewind_refused he hst (.inl hpast),
      fun hl hring => exec_requestRewind_notes he hst hl.le (rewindToken_ring hl hring token valid), fun hl hv => ?noToken, fun hl hv => ?token⟩,
    fun hst => ⟨exec_requestMigrate_none he hst, exec_requestMigrate_notes he hst⟩, fun hst hres htier => ?closes, exec_requestQuery he⟩
  case append =>
    exact ⟨exec_requestAppend_tooLong he hst, fun hfits hnot => by rw [exec_requestAppend_adds he hst hfits, if_neg hnot],
      fun hfits hpeat => by rw [exec_requestAppend_adds he hst hfits, if_pos hpeat]⟩
  case disorder => rw [exec_requestDraft he hst hmode, hbad, if_neg Bool.false_ne_true]
  case drafts => rw [exec_requestDraft he hst hmode, if_pos hgood]
  case noToken => exact exec_requestRewind_refused he hst (.inr (by rw [rewindToken_given hl, hv, if_neg Bool.false_ne_true]))
  case token => exact exec_requestRewind_notes he hst (by omega) (by rw [rewindToken_given hl, if_pos hv])
  case closes =>
    refine ⟨_, exec_requestClose_still he hst hres htier, ?_, fun j hj => ?_, rfl⟩
    · exact State.req_setReq_same _ _ _
    · rw [State.req_setReq_other _ _ hj, State.req_setReq_other _ _ hj]

/-! ### RESUME (R250, R251, R265, R276) -/

@[simp] theorem State.table_setReq (s : State) (i : Nat) (r : Req) (j : Nat) : (s.setReq i r).table j = s.table j := rfl

section StartResume

variable {s : State} {i : Nat}

/-- Room for a resumption is only known of a loaded image. -/
theorem State.image_of_resumeShort (h : s.resumeShort i = false) : ∃ g, s.image (s.req i).image = some g := by
  cases hg : s.image (s.req i).image with
  | none => simp [State.resumeShort, hg] at h
  | some g => exact ⟨g, rfl⟩

/-- The pages that a resumption takes, and the state with their slots allocated (R250 step 1). -/
def State.resumePages (s : State) (i : Nat) (g : Image) : List (List (Option Nat)) × State := s.takePages g.mdies (((s.req i).length + 255) / 256)

theorem State.resumePages_keeps (s : State) (i : Nat) (g : Image) : Kept 68719476835 s (s.resumePages i g).2 :=
  State.takePages_kept rfl (Kept.refl _ s)

/-- The table of a request whose resumption has taken its pages (R250 step 2). -/
def State.restoring (s : State) (i : Nat) (g : Image) : PageTable :=
  let x := s.resumePages i g
  { x.2.table i with valid := true, pages := x.1, length := (s.req i).length, draft := 0, tier := .moving, holds := [(x.2.table i).gen], edits := [.restore] }

/-- Taking pages leaves every entry, so the resumption is noted in the one that stood before. -/
theorem State.startResume_eq {g : Image} (hg : s.image (s.req i).image = some g) (d : Desc) (keep : Bool) :
    s.startResume i d keep = ((s.resumePages i g).2.setTable i (s.restoring i g)).setReq i
      { s.req i with resuming := some d, keepPeat := keep, tier := .moving, checked := false } := by
  have same : (s.resumePages i g).2.req i = s.req i := congrArg (Tab.get · i) ((s.resumePages_keeps i g).only .reqs rfl)
  calc s.startResume i d keep
      = ((s.resumePages i g).2.setTable i (s.restoring i g)).setReq i
          { (s.resumePages i g).2.req i with resuming := some d, keepPeat := keep, tier := .moving, checked := false } := by
        rw [State.startResume, hg]
        rfl
    _ = _ := by rw [same]

end StartResume

section Resume

variable {s : State} {h : Hdr} {x : Nat} {r : Req} (he : s.onEntry h x r) (keep : Bool)

include he

theorem exec_requestResume_unlisted (hember : r.st ≠ .ember) (hpeat : r.st ≠ .peat) :
    exec (.requestResume h x keep) s = .next ((s.start h).finish (s.descOf h) .REQUEST_STATE 0 0) := by
  have unlisted : ¬ (r.st == .ember || (r.st == .peat && r.resuming.isNone)) = true := by simp [hember, hpeat]
  show execRequestResume h x keep s = _
  rw [execRequestResume, State.descriptor_accepted he.accepted]
  simp only [he.handleStatus, if_neg unlisted]
  rfl

theorem exec_requestResume_ember (hst : r.st = .ember) (htier : r.tier ≠ .moving) : exec (.requestResume h x keep) s
    = .next (((((s.start h).setReq (x % 2 ^ 20) { r with chan := h.chan }).setReq (x % 2 ^ 20) { r with chan := h.chan, wantMove := false }).setReq
        (x % 2 ^ 20) { r with chan := h.chan, wantMove := false, wantResume := true }).finish (s.descOf h) .OK 0 0) := by
  have listed : (r.st == .ember || (r.st == .peat && r.resuming.isNone)) = true := by rw [hst]; rfl
  have entry := (s.start h).req_setReq_same (x % 2 ^ 20) { r with chan := h.chan }
  obtain ⟨-, hr, -, -⟩ := id he
  show execRequestResume h x keep s = _
  rw [execRequestResume, State.descriptor_accepted he.accepted]
  simp only [he.handleStatus, if_pos listed, ← hr, if_pos hst, ne_eq, not_true_eq_false, if_false]
  rw [State.stopMove_still (by rw [entry]; exact htier), entry, State.req_setReq_same]

/-- The entry already names the descriptor's channel, so that taking it changes nothing. -/
theorem exec_requestResume_peat (hst : r.st = .peat) (hres : r.resuming = none) : exec (.requestResume h x keep) s = .next (
    if ((s.start h).setReq (x % 2 ^ 20) r).resumeShort (x % 2 ^ 20) then (s.start h).finish (s.descOf h) .EMBER_FULL 0 0
    else ((s.start h).setReq (x % 2 ^ 20) r).startResume (x % 2 ^ 20) (s.descOf h) keep) := by
  have listed : (r.st == .ember || (r.st == .peat && r.resuming.isNone)) = true := by rw [hst, hres]; rfl
  have parked : r.st ≠ .ember := by rw [hst]; decide
  obtain ⟨-, hr, -, hchan⟩ := id he
  have taken : { r with chan := h.chan } = r := by rw [← hchan]
  show execRequestResume h x keep s = _
  rw [execRequestResume, State.descriptor_accepted he.accepted]
  simp only [he.handleStatus, if_pos listed, ← hr, taken, if_neg parked, ne_eq, not_true_eq_false, if_false]

end Resume

/-- Settles O17: the state of the entry says which of the three resumptions runs. -/
theorem requestResume : Obligations.RequestResume := by
  intro s h x keep r he t d i t1
  have entry : t1.req i = r := State.req_setReq_same _ _ _
  refine ⟨fun hst htier => ?ember, fun hst hres hshort => ?short, fun hst hres hroom => ?starts, exec_requestResume_unlisted he keep⟩
  case ember =>
    refine ⟨_, exec_requestResume_ember he keep hst htier, State.setReq_reqs_only (State.setReq_reqs_only (State.setReq_reqs_only rfl _ _) _ _) _ _, ?_, fun j hj => ?_⟩
    · exact State.req_setReq_same _ _ _
    · rw [State.req_setReq_other _ _ hj, State.req_setReq_other _ _ hj, State.req_setReq_other _ _ hj]
  case short => rw [exec_requestResume_peat he keep hst hres, if_pos hshort]
  case starts =>
    obtain ⟨g, hg⟩ := State.image_of_resumeShort hroom
    refine ⟨t1.startResume i d keep, ?_, ?_⟩
    · rw [exec_requestResume_peat he keep hst hres, hroom, if_neg Bool.false_ne_true]
    · rw [State.startResume_eq hg, State.req_setReq_same, entry, State.table_setReq, State.table_setTable, if_pos rfl]
      exact ⟨rfl, rfl, rfl, hst, rfl, rfl, (t1.resumePages_keeps i g).only .cq rfl⟩

/-! ### Adapters (R252 to R254) -/

theorem State.installStatus_range {s : State} {slot : Nat} (h : 1023 < slot) (rs : List ImageRegion) : s.installStatus slot rs = .DESC_FORMAT :=
  if_pos h

theorem State.installStatus_retiring {s : State} {slot : Nat} (h : slot ≤ 1023) (hret : (s.adapter slot).retiring = true) (rs : List ImageRegion) :
    s.installStatus slot rs = .ADAPTER_RETIRING := by
  rw [State.installStatus, if_neg (Nat.not_lt.mpr h), if_pos hret]

theorem State.installStatus_full {s : State} {slot : Nat} (h : slot ≤ 1023) (hret : (s.adapter slot).retiring = false)
    (hfull : 4 ≤ (s.adapter slot).live.length + (if (s.adapter slot).next.isSome then 1 else 0)) (rs : List ImageRegion) :
    s.installStatus slot rs = .ADAPTER_VERSIONS_FULL := by
  rw [State.installStatus, if_neg (Nat.not_lt.mpr h), hret, if_neg Bool.false_ne_true, if_pos hfull]

section Adapters

variable {s : State} {h : Hdr} (ha : s.accepts h clsAdapter = true) {slot : Nat}

include ha

section Install

variable {src len home : Nat} {rs : List ImageRegion}

theorem exec_adapterInstall_refused {c : Code} (hs : (s.start h).installStatus slot rs = c) (hc : c ≠ .OK) :
    exec (.adapterInstall h slot src len home rs) s = .next ((s.start h).finish (s.descOf h) c 0 0) := by
  show execAdapterInstall h slot src len home rs s = _
  rw [execAdapterInstall, State.descriptor_accepted ha, hs, if_pos hc]

/-- Whatever the package's bytes and regions come to, the slot's next version is written last. -/
theorem exec_adapterInstall_installs (hs : (s.start h).installStatus slot rs = .OK) :
    ∃ w : State, exec (.adapterInstall h slot src len home rs) s = .next ((w.setAdapter slot
      { s.adapter slot with last := ((s.adapter slot).last + 1) % 2 ^ 16, next := some { number := ((s.adapter slot).last + 1) % 2 ^ 16 } }).finish
        (s.descOf h) .OK (((s.adapter slot).last + 1) % 2 ^ 16) 0) := by
  have run : exec (.adapterInstall h slot src len home rs) s = execAdapterInstall h slot src len home rs s := rfl
  rw [run, execAdapterInstall, State.descriptor_accepted ha, hs, if_neg (not_not.mpr rfl), State.adapter_start]
  exact ⟨_, rfl⟩

end Install

theorem exec_adapterRemove : exec (.adapterRemove h slot) s = .next (
    if 1023 < slot then (s.start h).finish (s.descOf h) .DESC_FORMAT 0 0
    else ((s.start h).setAdapter slot { s.adapter slot with retiring := true }).finish (s.descOf h) .OK 0 0) := by
  show execAdapterRemove h slot s = _
  rw [execAdapterRemove, State.descriptor_accepted ha, State.adapter_start]

theorem exec_adapterQuery (b : Nat) : exec (.adapterQuery h slot b) s = .next (
    if 1023 < slot then (s.start h).finish (s.descOf h) .DESC_FORMAT 0 0
    else ((s.start h).hostPut b ((List.range 4).flatMap (s.adapter slot).record)).finish (s.descOf h) .OK 0 0) := by
  show execAdapterQuery h slot b s = _
  rw [execAdapterQuery, State.descriptor_accepted ha, State.adapter_start]

end Adapters

/-- Settles O20: the first check of an install that fails is its answer, and an accepted one writes the slot last. -/
theorem adapters : Obligations.Adapters := by
  intro s h slot ha t d x
  have same : t.adapter slot = x := State.adapter_start s h slot
  refine ⟨fun src len home rs hout => ?range, fun src len home rs hin hret => ?retiring, fun src len home rs hin hret hfull => ?full,
    fun src len home rs hs => ?installs, fun hout => ?noRemove, fun hin => ?removes, fun hout b => ?noQuery, fun hin b => ?queries⟩
  case range => exact exec_adapterInstall_refused ha (State.installStatus_range hout rs) (by decide)
  case retiring => exact exec_adapterInstall_refused ha (State.installStatus_retiring hin (by rw [same]; exact hret) rs) (by decide)
  case full => exact exec_adapterInstall_refused ha (State.installStatus_full hin (by rw [same]; exact hret) (by rw [same]; exact hfull) rs) (by decide)
  case installs =>
    obtain ⟨w, run⟩ := exec_adapterInstall_installs ha hs
    refine ⟨_, run, ?_⟩
    rw [State.adapter_setAdapter, if_pos rfl]
    exact ⟨rfl, rfl, rfl⟩
  case noRemove => rw [exec_adapterRemove ha, if_pos hout]
  case removes => rw [exec_adapterRemove ha, if_neg (Nat.not_lt.mpr hin)]
  case noQuery => rw [exec_adapterQuery ha, if_pos hout]
  case queries => rw [exec_adapterQuery ha, if_neg (Nat.not_lt.mpr hin)]

end Sys2Proof.Machine
end

section
/-! PROOFS of the family 09_host_interface: what every step answers (R266, R273, R434, R512). -/

namespace Sys2Proof.Machine

/-! ### Every command answers a state and leaves the queue (R434, R512) -/

/-- The mask of every zone: what keeps to it is bound by nothing but the queue, the part and the canonical form. -/
def everyZone : Nat := 2 ^ 47 - 1

theorem exec_answers (c : Instr) (s : State) : ∃ t, exec c s = .next t := by
  cases c <;> exact ⟨_, rfl⟩

/-- Arm by arm of the dispatch, each command keeps what its own lemma says. -/
theorem exec_kept (c : Instr) (s : State) : KeptO everyZone s (exec c s) := by
  have same := Kept.refl everyZone s
  cases c with
  | bar0Write => exact execBar0Write_kept rfl same
  | bar0InvalidAccess write => exact execBar0InvalidAccess_kept (a0 := write) rfl same
  | aeCtrClear => exact execAeCtrClear_kept rfl same
  | dcCtrClear => exact execDcCtrClear_kept rfl same
  | calCtrClear => exact execCalCtrClear_kept rfl same
  | calRequest => exact execCalRequest_kept rfl same
  | spCtrClear => exact execSpCtrClear_kept rfl same
  | memCtrClear => exact execMemCtrClear_kept rfl same
  | kvCtrClear => exact execKvCtrClear_kept rfl same
  | attCtrClear => exact execAttCtrClear_kept rfl same
  | serveCtrClear => exact execServeCtrClear_kept rfl same
  | wqCtrClear => exact execWqCtrClear_kept rfl same
  | syncCtrClear => exact execSyncCtrClear_kept rfl same
  | gpCtrClear => exact execGpCtrClear_kept rfl same
  | fabCtrClear => exact execFabCtrClear_kept rfl same
  | topoCtrClear => exact execTopoCtrClear_kept rfl same
  | wtCtrClear => exact execWtCtrClear_kept rfl same
  | seCtrClear => exact execSeCtrClear_kept rfl same
  | hkCtrClear => exact execHkCtrClear_kept rfl same
  | pwrCtrClear => exact execPwrCtrClear_kept rfl same
  | bootCtrClear => exact execBootCtrClear_kept rfl same
  | secCtrClear => exact execSecCtrClear_kept rfl same
  | evCtrClear => exact execEvCtrClear_kept rfl same
  | chCtrlOpen => exact execChCtrlOpen_kept rfl same
  | chCtrlClose => exact execChCtrlClose_kept rfl same
  | channelDrainDone => exact execChannelDrainDone_kept rfl same
  | chCtrlReset => exact execChCtrlReset_kept rfl same
  | channelError => exact execChannelError_kept rfl same
  | evCtrlEnable => exact execEvCtrlEnable_kept rfl same
  | evCtrlDisable => exact execEvCtrlDisable_kept rfl same
  | doorbellInvalidation => exact execDoorbellInvalidation_kept rfl same
  | dbPoll => exact execDbPoll_kept rfl same
  | coalTime => exact execCoalTime_kept rfl same
  | requestOpen => exact execRequestOpen_kept rfl same
  | requestAppend => exact execRequestAppend_kept rfl same
  | requestDraft => exact execRequestDraft_kept rfl same
  | requestPause => exact execRequestPause_kept rfl same
  | requestResume => exact execRequestResume_kept rfl same
  | requestRenew => exact execRequestRenew_kept rfl same
  | requestRewind => exact execRequestRewind_kept rfl same
  | requestMigrate => exact execRequestMigrate_kept rfl same
  | requestClose => exact execRequestClose_kept rfl same
  | requestQuery => exact execRequestQuery_kept rfl same
  | programLoad => exact execProgramLoad_kept rfl same
  | programRun => exact execProgramRun_kept rfl same
  | programUnload => exact execProgramUnload_kept rfl same
  | regionRelease => exact execRegionRelease_kept rfl same
  | dmaCopy => exact execDmaCopy_kept rfl same
  | adapterInstall => exact execAdapterInstall_kept rfl same
  | adapterRemove => exact execAdapterRemove_kept rfl same
  | adapterQuery => exact execAdapterQuery_kept rfl same
  | configStage => exact execConfigStage_kept rfl same
  | configCheck => exact execConfigCheck_kept rfl same
  | configCommit => exact execConfigCommit_kept rfl same
  | configDiscard => exact execConfigDiscard_kept rfl same
  | emptyStepBoundary => exact execEmptyStepBoundary_kept rfl same
  | blockSafePointSwitch => exact execBlockSafePointSwitch_kept rfl same
  | timeMark => exact execTimeMark_kept rfl same
  | eventMask => exact execEventMask_kept rfl same
  | eventFlush => exact execEventFlush_kept rfl same
  | maintCalRequest => exact execMaintCalRequest_kept rfl same
  | layerStats => exact execLayerStats_kept rfl same
  | ashList => exact execAshList_kept rfl same
  | eventCatalogue => exact execEventCatalogue_kept rfl same
  | partitionReset => exact execPartitionReset_kept rfl same
  | fwStage => exact execFwStage_kept rfl same
  | fwActivate => exact execFwActivate_kept rfl same
  | fwQuery => exact execFwQuery_kept rfl same
  | identity => exact execIdentity_kept rfl same
  | attest => exact execAttest_kept rfl same
  | keyEnroll => exact execKeyEnroll_kept rfl same
  | rollbackAdvance => exact execRollbackAdvance_kept rfl same
  | weightManifest => exact execWeightManifest_kept rfl same
  | weightKey => exact execWeightKey_kept rfl same
  | weightShard => exact execWeightShard_kept rfl same
  | shardCheckDone => exact execShardCheckDone_kept rfl same
  | weightChain h slot pred succ => exact execWeightChain_kept (a0 := h) (a1 := slot) (a2 := pred) (a3 := succ) (a4 := s) rfl same
  | weightCommit => exact execWeightCommit_kept rfl same
  | weightRemove => exact execWeightRemove_kept rfl same
  | weightCheck => exact execWeightCheck_kept rfl same
  | weightQuery => exact execWeightQuery_kept rfl same
  | weightAbort => exact execWeightAbort_kept rfl same
  | groupCommitTimeout => exact execGroupCommitTimeout_kept rfl same
  | scan => exact execScan_kept rfl same
  | fleetLoad => exact execFleetLoad_kept rfl same
  | fleetSet => exact execFleetSet_kept rfl same
  | fleetRemove => exact execFleetRemove_kept rfl same
  | inject => exact execInject_kept rfl same
  | testQuery => exact execTestQuery_kept rfl same
  | windowOpen => exact execWindowOpen_kept rfl same
  | windowClose => exact execWindowClose_kept rfl same
  | windowDrained => exact execWindowDrained_kept rfl same
  | windowQuery => exact execWindowQuery_kept rfl same
  | stepBoundary => exact execStepBoundary_kept rfl same
  | stepCommit => exact execStepCommit_kept rfl same
  | stewardHeartbeat => exact execStewardHeartbeat_kept rfl same
  | stewardTimeout => exact execStewardTimeout_kept rfl same
  | stewardCounterSync => exact execStewardCounterSync_kept rfl same
  | eventArrival => exact execEventArrival_kept rfl same
  | emberHold => exact execEmberHold_kept rfl same
  | peatMoveDone => exact execPeatMoveDone_kept rfl same
  | peatMoveFailed => exact execPeatMoveFailed_kept rfl same
  | peatExpiryWarning => exact execPeatExpiryWarning_kept rfl same
  | requestExpired => exact execRequestExpired_kept rfl same
  | resumptionChecked => exact execResumptionChecked_kept rfl same
  | nop => exact execNop_kept rfl same
  | halt => exact execHalt_kept rfl same
  | seti => exact execSeti_kept rfl same
  | addi => exact execAddi_kept rfl same
  | alu => exact execAlu_kept rfl same
  | ld => exact execLd_kept rfl same
  | st => exact execSt_kept rfl same
  | jump => exact execJump_kept rfl same
  | branch => exact execBranch_kept rfl same
  | jumpr => exact execJumpr_kept rfl same
  | loop => exact execLoop_kept rfl same
  | pop => exact execPop_kept rfl same
  | pbld => exact execPbld_kept rfl same
  | push => exact execPush_kept rfl same
  | arrayMv => exact execArrayMv_kept rfl same
  | arrayRead => exact execArrayRead_kept rfl same
  | dMv => exact execDMv_kept rfl same
  | dVec => exact execDVec_kept rfl same
  | psumAdd => exact execPsumAdd_kept rfl same
  | kvAppend => exact execKvAppend_kept rfl same
  | attWalk => exact execAttWalk_kept rfl same
  | copy => exact execCopy_kept rfl same
  | atomicAdd => exact execAtomicAdd_kept rfl same
  | atomicClear => exact execAtomicClear_kept rfl same
  | post => exact execPost_kept rfl same
  | wait => exact execWait_kept rfl same
  | syncSet => exact execSyncSet_kept rfl same
  | doneWait => exact execDoneWait_kept rfl same
  | doneSet => exact execDoneSet_kept rfl same
  | fence => exact execFence_kept rfl same
  | intr => exact execIntr_kept rfl same
  | tick => exact execTick_kept rfl same
  | opCompletion => exact execOpCompletion_kept rfl same
  | seqLoad => exact execSeqLoad_kept rfl same
  | seqStart => exact execSeqStart_kept rfl same
  | seqStop => exact execSeqStop_kept rfl same
  | seqResumeRetry => exact execSeqResumeRetry_kept rfl same
  | seqResumeSkip => exact execSeqResumeSkip_kept rfl same
  | wqFlush => exact execWqFlush_kept rfl same
  | wqWriteHeld => exact execWqWriteHeld_kept rfl same
  | dmaCommand => exact execDmaCommand_kept rfl same
  | arrayMvOpStart => exact execArrayMvOpStart_kept rfl same
  | accumulatorWriteBack => exact execAccumulatorWriteBack_kept rfl same
  | correctionMerge => exact execCorrectionMerge_kept rfl same
  | passRepeat => exact execPassRepeat_kept rfl same
  | layerD16Repeat => exact execLayerD16Repeat_kept rfl same
  | verdictReport => exact execVerdictReport_kept rfl same
  | arrayReadOp => exact execArrayReadOp_kept rfl same
  | arrayCalOp => exact execArrayCalOp_kept rfl same
  | dMvPass => exact execDMvPass_kept rfl same
  | dVecOp => exact execDVecOp_kept rfl same
  | kvAppendOp => exact execKvAppendOp_kept rfl same
  | attWalkOp => exact execAttWalkOp_kept rfl same
  | segmentMerge => exact execSegmentMerge_kept rfl same
  | psumAddOp => exact execPsumAddOp_kept rfl same
  | copyOp => exact execCopyOp_kept rfl same
  | addFx64 => exact execAddFx64_kept rfl same
  | addI32Sat => exact execAddI32Sat_kept rfl same
  | atomicClearOp => exact execAtomicClearOp_kept rfl same
  | syncPost => exact execSyncPost_kept rfl same
  | syncWaitArrival => exact execSyncWaitArrival_kept rfl same
  | syncSetArrival => exact execSyncSetArrival_kept rfl same
  | syncWaitLong => exact execSyncWaitLong_kept rfl same
  | hostMemWrite => exact execHostMemWrite_kept rfl same
  | hostMemRead => exact execHostMemRead_kept rfl same
  | patrolRead => exact execPatrolRead_kept rfl same
  | hbmRowIdleClose => exact execHbmRowIdleClose_kept rfl same
  | bankPowerUpDone => exact execBankPowerUpDone_kept rfl same
  | fitRoundClose => exact execFitRoundClose_kept rfl same
  | calRunStaged => exact execCalRunStaged_kept rfl same
  | calSave => exact execCalSave_kept rfl same
  | bankProgramRequest => exact execBankProgramRequest_kept rfl same
  | tileProgramDone => exact execTileProgramDone_kept rfl same
  | spareProgramDone => exact execSpareProgramDone_kept rfl same
  | readbackCheckStart => exact execReadbackCheckStart_kept rfl same
  | readbackCheckDone => exact execReadbackCheckDone_kept rfl same
  | chainChunkForward => exact execChainChunkForward_kept rfl same
  | chunkReady => exact execChunkReady_kept rfl same
  | slotFree => exact execSlotFree_kept rfl same
  | portSignalDetect => exact execPortSignalDetect_kept rfl same
  | portFecLock => exact execPortFecLock_kept rfl same
  | portTrainTimeout => exact execPortTrainTimeout_kept rfl same
  | portLockLoss => exact execPortLockLoss_kept rfl same
  | uncorrRateCheck => exact execUncorrRateCheck_kept rfl same
  | portFaultRetry => exact execPortFaultRetry_kept rfl same
  | retrain => exact execRetrain_kept rfl same
  | identityMessage => exact execIdentityMessage_kept rfl same
  | credit => exact execCredit_kept rfl same
  | enumStart => exact execEnumStart_kept rfl same
  | enumToken => exact execEnumToken_kept rfl same
  | enumDone => exact execEnumDone_kept rfl same
  | clearId => exact execClearId_kept rfl same
  | tileWrite => exact execTileWrite_kept rfl same
  | tileWriteMasked => exact execTileWriteMasked_kept rfl same
  | atomicAddFrame => exact execAtomicAddFrame_kept rfl same
  | readReq => exact execReadReq_kept rfl same
  | readTile => exact execReadTile_kept rfl same
  | postFrame => exact execPostFrame_kept rfl same
  | ack => exact execAck_kept rfl same
  | nack => exact execNack_kept rfl same
  | mcastChunk => exact execMcastChunk_kept rfl same
  | transitFrame => exact execTransitFrame_kept rfl same
  | retryTime => exact execRetryTime_kept rfl same
  | holdMax => exact execHoldMax_kept rfl same
  | collInstanceStart => exact execCollInstanceStart_kept rfl same
  | collRecord => exact execCollRecord_kept rfl same
  | collWait => exact execCollWait_kept rfl same
  | repairWait => exact execRepairWait_kept rfl same
  | repairNotice => exact execRepairNotice_kept rfl same
  | stepAnnounce => exact execStepAnnounce_kept rfl same
  | cleanReport => exact execCleanReport_kept rfl same
  | rewindNotice => exact execRewindNotice_kept rfl same
  | scanSchedule => exact execScanSchedule_kept rfl same
  | scanDone => exact execScanDone_kept rfl same
  | hkSlotConversion => exact execHkSlotConversion_kept rfl same
  | moduleShutdownTrip => exact execModuleShutdownTrip_kept rfl same
  | roundEnd => exact execRoundEnd_kept rfl same
  | damperDecision => exact execDamperDecision_kept rfl same
  | damperStageApply => exact execDamperStageApply_kept rfl same
  | hkUrgCtrl => exact execHkUrgCtrl_kept rfl same
  | hkTdacGo => exact execHkTdacGo_kept rfl same
  | syscalZero => exact execSyscalZero_kept rfl same
  | syscalFull => exact execSyscalFull_kept rfl same
  | syscalSave => exact execSyscalSave_kept rfl same
  | hkPartRelease => exact execHkPartRelease_kept rfl same
  | autoRelease => exact execAutoRelease_kept rfl same
  | inputUndervolt => exact execInputUndervolt_kept rfl same
  | inputOvervolt => exact execInputOvervolt_kept rfl same
  | inputOvercurrent => exact execInputOvercurrent_kept rfl same
  | regulatorFault => exact execRegulatorFault_kept rfl same
  | inputOutOfRange => exact execInputOutOfRange_kept rfl same
  | currentLimit => exact execCurrentLimit_kept rfl same
  | powerOn => exact execPowerOn_kept rfl same
  | bootPhase => exact execBootPhase_kept rfl same
  | recoveryGo => exact execRecoveryGo_kept rfl same
  | poweredHour => exact execPoweredHour_kept rfl same
  | fwChunkReceive => exact execFwChunkReceive_kept rfl same
  | fwChunkFetch => exact execFwChunkFetch_kept rfl same
  | resetTimeout => exact execResetTimeout_kept rfl same
  | hssTreeBuilt => exact execHssTreeBuilt_kept rfl same
  | cordGroupQuery => exact execCordGroupQuery_kept rfl same
  | cordGroupConfirm => exact execCordGroupConfirm_kept rfl same
  | hdmDecoderCommit => exact execHdmDecoderCommit_kept rfl same
  | ptmExchange => exact execPtmExchange_kept rfl same
  | urgentConversionDone => exact execUrgentConversionDone_kept rfl same
  | attestRateTurn => exact execAttestRateTurn_kept rfl same

theorem exec_keeps_pending {c : Instr} {s t : State} (h : exec c s = .next t) : t.pending = s.pending :=
  ((exec_kept c s).of t h).pending

theorem State.idle_pending (s : State) : s.idle.pending = s.pending :=
  (kept_foldl (W := everyZone) s.domains (fun _ _ => State.domainRuns_kept rfl) (kept_time rfl (.refl _ s))).pending

/-- Settles O2: an empty queue idles, and a command works on the state that already lacks it in the queue. -/
theorem everyStepTakesItsCommandAndAnswersAState : Obligations.EveryStepTakesItsCommandAndAnswersAState := by
  refine ⟨fun s => ?answers, fun s t h => ?takes⟩
  case answers =>
    cases hp : s.pending with
    | nil => exact ⟨s.idle, by rw [step, hp]⟩
    | cons c r =>
      obtain ⟨t, ht⟩ := exec_answers c { s with pending := r }
      exact ⟨t, by rw [step, hp]; exact ht⟩
  case takes =>
    rw [step] at h
    split at h
    · next hp =>
      cases h
      rw [s.idle_pending, hp, List.tail_nil]
    · next c r hp => rw [exec_keeps_pending h, hp, List.tail_cons]

end Sys2Proof.Machine
end

section
/-! PROOFS of the family 09_host_interface: channels and doorbells (R263 to R271, R281, R460). -/

namespace Sys2Proof.Machine

/-! ### Channel control (R263 to R266, R460) -/

section Control

variable {s : State} {c : Nat}

/-- What a channel holds once it has opened: its registers latched and its versions settled (R263, R281). -/
def State.latched (s : State) (c : Nat) : Chan :=
  let ver := fun (o r : Nat) => Machine.settle (offerList (s.reg (chReg c o))) (offerList (s.reg r))
  { st := .opened, sqBase := s.reg (chReg c Reg.CH_SQ_BASE), cqBase := s.reg (chReg c Reg.CH_CQ_BASE)
    dbAddr := s.reg (chReg c Reg.CH_DB_ADDR), cfg := s.reg (chReg c Reg.CH_CFG)
    ringVer := ver Reg.CH_RING_OFFER Reg.VER_RING, descVer := ver Reg.CH_DESC_OFFER Reg.VER_DESC
    abiVer := ver Reg.CH_ABI_OFFER Reg.VER_ABI }

theorem exec_chCtrlOpen (ok : Bool) : exec (.chCtrlOpen c ok []) s = .next (
    if (s.chan c).st ≠ .closed then s else if s.ready then s.openChannel c ok else s.setChan c { s.chan c with openHeld := true }) := rfl

theorem State.openChannel_opens {ok : Bool} (h : s.openCheck c ok = .OK) : s.openChannel c ok = (s.setChan c (s.latched c)).takeDoorbell c := if_pos h

theorem State.openChannel_fails {ok : Bool} {e : Code} (h : s.openCheck c ok = e) (he : e ≠ .OK) :
    s.openChannel c ok = (s.setChan c { s.chan c with err := errorNumber e, openHeld := false }).raise .CHANNEL_OPEN_FAILED Src.host [c] e := by
  rw [← h] at he ⊢
  exact if_neg he

theorem exec_chCtrlOpen_ready {ok : Bool} (hst : (s.chan c).st = .closed) (hr : s.ready = true) :
    exec (.chCtrlOpen c ok []) s = .next (s.openChannel c ok) := by
  rw [exec_chCtrlOpen, if_neg (not_not.mpr hst), if_pos hr]

theorem exec_chCtrlClose : exec (.chCtrlClose c) s = .next (if (s.chan c).st = .opened then s.setChan c { s.chan c with st := .draining } else s) := rfl

theorem exec_channelDrainDone : exec (.channelDrainDone c) s = .next (
    if (s.chan c).st = .draining ∧ (s.chan c).drained then s.setChan c { s.chan c with st := .closed } else s) := rfl

theorem exec_chCtrlReset : exec (.chCtrlReset c) s = .next (if (s.chan c).st = .error then s.setChan c { s.chan c with st := .closed } else s) := rfl

theorem exec_channelError : exec (.channelError c) s = .next (if (s.chan c).isOpen then s.chanError c .HOST_ACCESS else s) := rfl

theorem Chan.isOpen_iff (x : Chan) : x.isOpen = true ↔ x.st = .opened ∨ x.st = .draining := by simp [Chan.isOpen]

theorem Chan.drained_iff (x : Chan) : x.drained = true ↔ x.started = x.fetched ∧ x.outstanding = [] ∧ x.spill = [] := by
  simp [Chan.drained, and_assoc]

end Control

/-! ### A doorbell line that is read (R266, R268, R270) -/

section Doorbell

variable {s : State} {c : Nat}

theorem State.takeDoorbell_overruns (h : (s.chan c).overrun (s.hostNat (s.chan c).dbAddr 4) (s.hostNat ((s.chan c).dbAddr + 4) 4) = true) :
    s.takeDoorbell c = s.chanError c .RING_OVERRUN := if_pos h

/-- The channel with the counts that its line holds. -/
def State.counted (s : State) (c : Nat) : Chan :=
  let x := s.chan c
  let tail := s.hostNat x.dbAddr 4
  { x with sqTail := tail, cqHead := s.hostNat (x.dbAddr + 4) 4, fetched := if x.st = .opened then tail else x.fetched }

theorem State.takeDoorbell_counts (h : (s.chan c).overrun (s.hostNat (s.chan c).dbAddr 4) (s.hostNat ((s.chan c).dbAddr + 4) 4) = false) :
    s.takeDoorbell c = (s.setChan c (s.counted c)).drainSpill c (s.chan c).spill.length := if_neg (Bool.eq_false_iff.mp h)

theorem State.drainSpill_chan_other {e : Nat} (he : e ≠ c) (n : Nat) : (s.drainSpill c n).chan e = s.chan e := by
  induction n generalizing s with
  | zero => rfl
  | succ n ih =>
    rw [State.drainSpill]
    split
    · rfl
    · split
      · rfl
      · rw [ih, (State.cqWrite_facts _ _ _ _).2.1 e he, State.chan_setChan, if_neg he]

theorem State.chan_raise (s : State) (k : Code) (x : Src) (l : List Nat) (st : Code) (e : Nat) : (s.raise k x l st).chan e = s.chan e := rfl

/-- A channel's line concerns no other channel, and leaves the event ring on or off. -/
theorem State.takeDoorbell_elsewhere :
    (∀ e, e ≠ c → (s.takeDoorbell c).chan e = s.chan e) ∧ (s.takeDoorbell c).ev.enabled = s.ev.enabled := by
  by_cases h : (s.chan c).overrun (s.hostNat (s.chan c).dbAddr 4) (s.hostNat ((s.chan c).dbAddr + 4) 4) = true
  · rw [State.takeDoorbell_overruns h]
    refine ⟨fun e he => ?_, rfl⟩
    rw [State.chanError, State.chan_raise, State.chan_setChan, if_neg he]
  · rw [State.takeDoorbell_counts (Bool.eq_false_iff.mpr h)]
    refine ⟨fun e he => by rw [State.drainSpill_chan_other he, State.chan_setChan, if_neg he], ?_⟩
    have kept : Kept 1664 (s.setChan c (s.counted c)) _ := State.drainSpill_kept (a1 := c) (a2 := (s.chan c).spill.length) rfl (.refl _ _)
    exact congrArg Events.enabled (kept.only .ev rfl)

theorem exec_doorbellInvalidation : exec (.doorbellInvalidation c []) s = .next (
    if s.part.pcie || !s.ready then s
    else if c = 256 then (if s.ev.enabled then s.takeEvHead else s)
    else if (s.chan c).isOpen then s.takeDoorbell c else s) := rfl

/-- A read of every line takes the one that is open. -/
def State.poll (s : State) (e : Nat) : State := if (s.chan e).isOpen then s.takeDoorbell e else s

theorem State.foldl_poll_closed {l : List Nat} (h : ∀ e ∈ l, (s.chan e).isOpen = false) : l.foldl State.poll s = s := by
  induction l with
  | nil => rfl
  | cons e r ih =>
    have skips : s.poll e = s := if_neg (Bool.eq_false_iff.mp (h e List.mem_cons_self))
    rw [List.foldl_cons, skips, ih (fun x hx => h x (List.mem_cons_of_mem _ hx))]

theorem State.foldl_poll_one {l : List Nat} (hl : l.Nodup) (hc : c ∈ l) (hopen : (s.chan c).isOpen = true)
    (others : ∀ e, e ≠ c → (s.chan e).isOpen = false) : l.foldl State.poll s = s.takeDoorbell c := by
  obtain ⟨before, after, rfl⟩ := List.append_of_mem hc
  obtain ⟨-, hafter, hne⟩ := List.nodup_append.mp hl
  have first : before.foldl State.poll s = s := State.foldl_poll_closed fun e he => others e (hne e he c List.mem_cons_self)
  have taken : s.poll c = s.takeDoorbell c := if_pos hopen
  rw [List.foldl_append, first, List.foldl_cons, taken]
  refine State.foldl_poll_closed fun e he => ?_
  have hec : e ≠ c := fun h => (List.nodup_cons.mp hafter).1 (h ▸ he)
  rw [State.takeDoorbell_elsewhere.1 e hec, others e hec]

theorem exec_dbPoll : exec (.dbPoll []) s = .next (
    if !s.part.pcie || !s.ready then s
    else if ((List.range 256).foldl State.poll s).ev.enabled then ((List.range 256).foldl State.poll s).takeEvHead
    else (List.range 256).foldl State.poll s) := by
  show execDbPoll [] s = _
  unfold execDbPoll State.hostWrites State.poll
  dsimp only

end Doorbell

/-! ### COAL_TIME (R271) -/

theorem exec_coalTime (s : State) (c : Nat) : exec (.coalTime c) s = .next (
    if (s.chan c).isOpen && (s.chan c).irqEn && (s.chan c).coalRun then (s.setChan c { s.chan c with sinceIrq := 0, coalRun := false }).interrupt c
    else s) := rfl

theorem State.irq_interrupt (s : State) (v w : Nat) : Tab.get (s.interrupt v).irq w = if w = v then Tab.get s.irq v + 1 else Tab.get s.irq w :=
  Tab.get_upd s.irq v w (· + 1)

/-- Settles O11: each command's equation gives what it does in each state, and a poll comes down to the one open channel. -/
theorem channelsAndDoorbells : Obligations.ChannelsAndDoorbells := by
  refine ⟨fun s c => ?control, ?doorbells⟩
  case control =>
    refine ⟨fun ok hst hr => ⟨fun e he hno => ?fails, fun h => ?opens⟩, fun ok hst hr => ?held, fun ok hst => ?unheeded, fun hst => ?closes, fun hst => ?notOpen,
      fun hst hstarted hout hspill => ?drained, fun hst => ?resets, fun hst => ?noError, fun hst => ?errs⟩
    case fails => rw [exec_chCtrlOpen_ready hst hr, State.openChannel_fails he hno]
    case opens =>
      refine ⟨s.latched c, rfl, rfl, rfl, rfl, rfl, rfl, rfl, rfl, rfl, rfl, rfl, ?_⟩
      rw [exec_chCtrlOpen_ready hst hr, State.openChannel_opens h]
    case held => rw [exec_chCtrlOpen, if_neg (not_not.mpr hst), hr, if_neg Bool.false_ne_true]
    case unheeded => rw [exec_chCtrlOpen, if_pos hst]
    case closes => rw [exec_chCtrlClose, if_pos hst]
    case notOpen => rw [exec_chCtrlClose, if_neg hst]
    case drained => rw [exec_channelDrainDone, if_pos ⟨hst, (Chan.drained_iff _).mpr ⟨hstarted, hout, hspill⟩⟩]
    case resets => rw [exec_chCtrlReset, if_pos hst]
    case noError => rw [exec_chCtrlReset, if_neg hst]
    case errs =>
      rw [exec_channelError, if_pos ((Chan.isOpen_iff _).mpr hst)]
      rfl
  case doorbells =>
    intro s c hr x tail head
    have line (hcxl : s.part.pcie = false) : ¬ (s.part.pcie || !s.ready) = true := by rw [hcxl, hr]; decide
    have read (hcxl : s.part.pcie = false) (hc : c ≠ 256) (hopen : x.isOpen = true) : exec (.doorbellInvalidation c []) s = .next (s.takeDoorbell c) := by
      rw [exec_doorbellInvalidation, if_neg (line hcxl), if_neg hc, if_pos hopen]
    refine ⟨fun hcxl hc hopen hover => ?overruns, fun hcxl hc hopen hfits hspill => ?counts, fun hcxl hon => ?events, fun hpcie => ?unread, fun hcxl => ?unpolled,
      fun hpcie others hc hopen hoff => ?polls, fun hopen hirq hrun => ?interrupts⟩
    case overruns =>
      rw [read hcxl hc hopen, State.takeDoorbell_overruns hover]
      rfl
    case counts =>
      have counted : s.takeDoorbell c = s.setChan c (s.counted c) := by
        rw [State.takeDoorbell_counts hfits, show (s.chan c).spill = [] from hspill]
        rfl
      refine ⟨_, read hcxl hc hopen, ?_, ?_, State.takeDoorbell_elsewhere.1⟩
      · rw [counted, State.chan_setChan, if_pos rfl]
        rfl
      · rw [counted]
        rfl
    case events => rw [exec_doorbellInvalidation, if_neg (line hcxl), if_pos rfl, if_pos hon]
    case unread => rw [exec_doorbellInvalidation, hpcie]; rfl
    case unpolled => rw [exec_dbPoll, hcxl]; rfl
    case polls =>
      have gate : ¬ (!s.part.pcie || !s.ready) = true := by rw [hpcie, hr]; decide
      have off : ¬ (s.takeDoorbell c).ev.enabled = true := by rw [State.takeDoorbell_elsewhere.2, hoff]; decide
      rw [exec_dbPoll, if_neg gate, State.foldl_poll_one List.nodup_range (List.mem_range.mpr hc) hopen others, if_neg off]
    case interrupts =>
      refine ⟨(s.setChan c { x with sinceIrq := 0, coalRun := false }).interrupt c, ?_, ?_, ?_, ?_, rfl, fun v hv => ⟨?_, ?_⟩⟩
      · rw [exec_coalTime, if_pos (by rw [hopen, hirq, hrun]; rfl)]
      · rw [State.chan_interrupt, State.chan_setChan, if_pos rfl]
      · rw [State.chan_interrupt, State.chan_setChan, if_pos rfl]
      · rw [State.irq_interrupt, if_pos rfl]
        rfl
      · rw [State.irq_interrupt, if_neg hv]
        rfl
      · rw [State.chan_interrupt, State.chan_setChan, if_neg hv]

end Sys2Proof.Machine
end

section
/-! PROOFS of the family 09_host_interface: descriptors and completions (R266, R270 to R272). -/

namespace Sys2Proof.Machine

/-! ### Descriptors that wait and that are refused (R270, R272) -/

theorem State.fabricCall_some (s : State) (h : Hdr) (k : State → Option Desc → State) :
    s.fabricCall (some h) k = s.descriptor h clsProgram fun t d => k t (some d) := rfl

/-- Each descriptor command is performed through the check of its header, against the class of its table. -/
theorem exec_of_hostDescriptor {c : Instr} {h : Hdr} {cls : Nat} (hc : c.hostDescriptor = some (h, cls)) (s : State) :
    ∃ k, exec c s = .next (s.descriptor h cls k) := by
  unfold Instr.hostDescriptor at hc
  split at hc <;> cases hc
  case h_52 | h_53 | h_54 => exact ⟨_, congrArg Host.Outcome.next (s.fabricCall_some _ _)⟩
  all_goals exact ⟨_, rfl⟩

section Status

variable {s : State} {h : Hdr} {cls : Nat}

theorem State.headerStatus_newer (hn : h.newer = true) : s.headerStatus h cls = .DESC_UNSUPPORTED := if_pos hn

theorem State.headerStatus_withheld (hn : h.newer = false) (hp : s.permits h.chan cls = false) : s.headerStatus h cls = .DESC_NOT_PERMITTED := by
  rw [State.headerStatus, hn, hp]
  rfl

theorem State.headerStatus_reserved (hn : h.newer = false) (hp : s.permits h.chan cls = true) (hr : h.reserved = true) :
    s.headerStatus h cls = .DESC_FORMAT := by
  rw [State.headerStatus, hn, hp, hr]
  rfl

theorem State.descriptor_status (hs : s.canStart h = true) {c : Code} (hc : s.headerStatus h cls = c) (hno : c ≠ .OK) (k : State → Desc → State) :
    s.descriptor h cls k = (s.start h).finish (s.descOf h) c 0 0 := by
  rw [State.descriptor_refused s h cls k hs (hc.trans_ne hno), hc]

end Status

/-! ### The completion that a finish writes (R266, R270, R271) -/

/-- Whether it writes, spills or discards, a completion changes no list of outstanding descriptors and no other channel. -/
theorem State.complete_chan (s : State) (c : Nat) (e : Completion) (now : Bool) :
    ((s.complete c e now).chan c).outstanding = (s.chan c).outstanding ∧ ∀ d, d ≠ c → (s.complete c e now).chan d = s.chan d := by
  by_cases hopen : (s.chan c).isOpen = true
  · by_cases hwaits : (s.chan c).cqFull = true ∨ (s.chan c).spill ≠ []
    · rw [State.complete_spills s c e now hopen hwaits]
      exact ⟨by rw [State.chan_setChan, if_pos rfl], fun d hd => by rw [State.chan_setChan, if_neg hd]⟩
    · obtain ⟨hroom, hnone⟩ := not_or.mp hwaits
      obtain ⟨-, others, n, b, same⟩ := s.cqWrite_facts c e now
      rw [State.complete_writes s c e now hopen (Bool.not_eq_true _ ▸ hroom) (not_not.mp hnone)]
      exact ⟨by rw [same], others⟩
  · rw [State.complete_closed s c e now (Bool.not_eq_true _ ▸ hopen)]
    exact ⟨rfl, fun _ _ => rfl⟩

/-- The completion of a descriptor: TAG, STATUS, the descriptor's place in the ring and the results. -/
def Desc.completion (d : Desc) (st : Code) (r0 r1 : Nat) : Completion := { tag := d.tag, status := st, aux := d.ring, r0 := r0, r1 := r1 }

/-- The state in which a descriptor is no longer among its channel's outstanding ones. -/
def State.without (s : State) (d : Desc) : State := s.setChan d.chan { s.chan d.chan with outstanding := (s.chan d.chan).outstanding.erase d }

section Finish

variable {s : State} {d : Desc} {st : Code} {r0 r1 : Nat}

theorem State.finish_completes : s.finish d st r0 r1 = (s.without d).complete d.chan (d.completion st r0 r1) d.irq := rfl

theorem State.chan_without : (s.without d).chan d.chan = { s.chan d.chan with outstanding := (s.chan d.chan).outstanding.erase d } := by
  rw [State.without, State.chan_setChan, if_pos rfl]

theorem State.finish_outstanding : ((s.finish d st r0 r1).chan d.chan).outstanding = (s.chan d.chan).outstanding.erase d := by
  rw [State.finish_completes, (State.complete_chan _ _ _ _).1, State.chan_without]

theorem State.finish_chan_other {e : Nat} (he : e ≠ d.chan) : (s.finish d st r0 r1).chan e = s.chan e := by
  rw [State.finish_completes, (State.complete_chan _ _ _ _).2 e he, State.without, State.chan_setChan, if_neg he]

/-- In an open channel with room the completion takes the ring's next slot. -/
theorem State.finish_writes (hopen : (s.chan d.chan).isOpen = true) (hroom : (s.chan d.chan).cqFull = false) (hnone : (s.chan d.chan).spill = []) :
    ((s.finish d st r0 r1).chan d.chan).written = add32 (s.chan d.chan).written 1
    ∧ (s.finish d st r0 r1).cq = Tab.set s.cq (cqKey d.chan ((s.chan d.chan).written % 2 ^ (s.chan d.chan).cqLog))
        { d.completion st r0 r1 with phase := (s.chan d.chan).written / 2 ^ (s.chan d.chan).cqLog % 2 == 0 } := by
  obtain ⟨ring, -, n, b, after⟩ := (s.without d).cqWrite_facts d.chan (d.completion st r0 r1) d.irq
  rw [State.chan_without] at ring after
  rw [State.finish_completes, State.complete_writes, after, ring]
  · exact ⟨rfl, rfl⟩
  all_goals rwa [State.chan_without]

/-- Behind a full ring or a spill the completion waits as the last of the spill. -/
theorem State.finish_spills (hopen : (s.chan d.chan).isOpen = true) (hwaits : (s.chan d.chan).cqFull = true ∨ (s.chan d.chan).spill ≠ []) :
    ((s.finish d st r0 r1).chan d.chan).spill = (s.chan d.chan).spill ++ [d.completion st r0 r1]
    ∧ ((s.finish d st r0 r1).chan d.chan).written = (s.chan d.chan).written ∧ (s.finish d st r0 r1).cq = s.cq := by
  rw [State.finish_completes, State.complete_spills, State.chan_setChan, if_pos rfl, State.chan_without]
  · exact ⟨rfl, rfl, rfl⟩
  all_goals rwa [State.chan_without]

theorem State.finish_closed (hclosed : (s.chan d.chan).isOpen = false) :
    ((s.finish d st r0 r1).chan d.chan).spill = (s.chan d.chan).spill
    ∧ ((s.finish d st r0 r1).chan d.chan).written = (s.chan d.chan).written ∧ (s.finish d st r0 r1).cq = s.cq := by
  rw [State.finish_completes, State.complete_closed, State.chan_without]
  · exact ⟨rfl, rfl, rfl⟩
  · rwa [State.chan_without]

end Finish

/-- Settles O12: the header's check decides what a descriptor does, and `finish` writes its completion, lets it wait behind the ring or discards it. -/
theorem descriptorsStartAndComplete : Obligations.DescriptorsStartAndComplete := by
  refine ⟨fun s c h cls hc => ?descriptor, ?completion⟩
  case descriptor =>
    obtain ⟨k, run⟩ := exec_of_hostDescriptor hc s
    rw [run]
    refine ⟨fun hwaits => ?_, fun hstarts => ⟨fun hn => ?_, fun hn hp => ?_, fun hn hp hr => ?_⟩⟩
    · rw [State.descriptor_waits s h cls k hwaits]
    · rw [State.descriptor_status hstarts (State.headerStatus_newer hn) (by decide)]
    · rw [State.descriptor_status hstarts (State.headerStatus_withheld hn hp) (by decide)]
    · rw [State.descriptor_status hstarts (State.headerStatus_reserved hn hp hr) (by decide)]
  case completion =>
    intro s d st r0 r1 x y slot
    refine ⟨State.finish_outstanding, fun e he => State.finish_chan_other he, fun hopen hroom hnone => ?_, State.finish_spills, State.finish_closed⟩
    obtain ⟨count, ring⟩ := State.finish_writes (st := st) (r0 := r0) (r1 := r1) hopen hroom hnone
    rw [ring]
    exact ⟨count, Tab.get_set_same _ _ _, fun k hk => Tab.get_set_other _ _ hk⟩

end Sys2Proof.Machine
end

section
/-! PROOFS of the family 09_host_interface: time marks and PTM (R291, R292), the HDM decoder (R261), and the standby steward (R30, R235, R236, R490). -/

namespace Sys2Proof.Machine

/-! ### Time marks (R291, R292) -/

section Mark

variable {s : State} {h : Hdr} (ha : s.accepts h clsTimeMark = true)

theorem State.ptmAt_start (s : State) (h : Hdr) (t : Nat) : (s.start h).ptmAt t = s.ptmAt t := by
  rw [State.ptmAt, State.ptmAt, State.start_time]

theorem State.ptmAt_none (hp : s.time.ptm = none) (t : Nat) : s.ptmAt t = 0 := by
  rw [State.ptmAt, hp]

/-- At its own tick an exchange gives the root time that it carried. -/
theorem State.ptmAt_exchange {t root : Nat} (hp : s.time.ptm = some (t, root)) (hr : root < 2 ^ 64) : s.ptmAt t = root := by
  simp only [State.ptmAt, hp]
  omega

/-- The two registers that record the latest mark. -/
def State.marked (s : State) (host : Nat) : State :=
  (s.setReg (evReg Reg.TM_LAST_TICK) s.time.tick).setReg (evReg Reg.TM_LAST_HOST) host

theorem State.reg_marked (s : State) (host a : Nat) : (s.marked host).reg a =
    if a = evReg Reg.TM_LAST_HOST then host else if a = evReg Reg.TM_LAST_TICK then s.time.tick else s.reg a := by
  rw [State.marked, State.reg_setReg, State.reg_setReg]

include ha

theorem exec_timeMark (host : Nat) (changed : Bool) : exec (.timeMark h host changed) s = .next (
    if changed then (s.start h).finish (s.descOf h) .OK s.time.tick (s.ptmAt s.time.tick) false true
    else ((s.start h).marked host).finish (s.descOf h) .OK s.time.tick (s.ptmAt s.time.tick)) := by
  show execTimeMark h host changed s = _
  rw [execTimeMark, State.descriptor_accepted ha, State.marked]
  simp only [State.ptmAt_start, State.start_time]

end Mark

theorem exec_hdmDecoderCommit (s : State) (b : Bool) : exec (.hdmDecoderCommit b) s = .next (if s.part.pcie then s else { s with hdmDecoder := b }) := rfl

/-! ### The standby takes over (R30, R236, R490) -/

theorem exec_stewardTimeout (s : State) : exec .stewardTimeout s = .next (
    if s.step.heartbeat + s.stewardTimeout * 100000 ≤ s.time.tick ∧ s.standbyDie.isSome ∧ s.ready then s.stewardFails else s) := rfl

/-- The tick of a takeover lies past the last stamp, and is never behind the standby's own counter. -/
theorem State.stewardFails_tick (s : State) : s.time.lastStamp < s.stewardFails.time.tick ∧ s.time.standby ≤ s.stewardFails.time.tick := by
  have reaches : max s.time.standby (s.time.lastStamp + 1) ≤ s.stewardFails.time.tick := le_max_left _ _
  omega

/-- A step is lost to a takeover while it runs and its commit is not complete. -/
theorem State.stewardFails_step (s : State) : s.stewardFails.step.standby = !s.step.standby
    ∧ s.stewardFails.step.running = (if s.step.running && !s.step.committed then false else s.step.running)
    ∧ s.stewardFails.step.admitted = (if s.step.running && !s.step.committed then [] else s.step.admitted) := ⟨rfl, rfl, rfl⟩

theorem State.stewardFails_raises (s : State) : ∃ n l, s.stewardFails.ev.inFlight = l ++ [{ code := .STEWARD_CHANGED, src := Src.steward, count := n, args :=
    [s.time.lastStamp, max s.time.standby (s.time.lastStamp + 1), s.step.num, b2n (s.step.running && !s.step.committed)] }] := ⟨_, _, rfl⟩

/-- Settles O19: each command's equation gives what it records, and a takeover's tick, step and event follow from their own lemmas. -/
theorem timeAndTakeOver : Obligations.TimeAndTakeOver := by
  refine ⟨fun s h host => ⟨fun ha ptm hp => ?marks, fun hp => State.ptmAt_none hp, fun root t => ⟨rfl, fun hp hr ht => ?exchanged⟩,
    fun b hcxl => ?kept, fun b hpcie => ?ignored⟩, fun _ => rfl, fun _ => rfl, fun s hbeat => ?alive, fun s hlate hstandby hr => ?takesOver⟩
  case marks =>
    subst hp
    refine ⟨⟨(s.start h).marked host, exec_timeMark ha host false, rfl, ?_, ?_, fun a htick hhost => ?_⟩, exec_timeMark ha host true⟩
    · rw [State.reg_marked, if_neg (by decide), if_pos rfl, State.start_time]
    · rw [State.reg_marked, if_pos rfl]
    · rw [State.reg_marked, if_neg hhost, if_neg htick, State.reg_start]
  case exchanged =>
    subst ht
    exact State.ptmAt_exchange hp hr
  case kept => rw [exec_hdmDecoderCommit, hcxl, if_neg Bool.false_ne_true]
  case ignored => rw [exec_hdmDecoderCommit, if_pos hpcie]
  case alive => rw [exec_stewardTimeout, if_neg fun hlate => Nat.not_le.mpr hbeat hlate.1]
  case takesOver =>
    obtain ⟨hstamp, hown⟩ := s.stewardFails_tick
    obtain ⟨active, running, admitted⟩ := s.stewardFails_step
    refine ⟨s.stewardFails, ?_, hstamp, hown, active, fun hrun hopen => ?_, fun hkept => ?_, s.stewardFails_raises⟩
    · rw [exec_stewardTimeout, if_pos ⟨hlate, Option.isSome_iff_ne_none.mpr hstandby, hr⟩]
    · rw [running, admitted, hrun, hopen]
      exact ⟨rfl, rfl⟩
    · have complete : ¬ (s.step.running && !s.step.committed) = true := by
        rcases hkept with h | h <;> simp [h]
      rw [running, admitted, if_neg complete, if_neg complete]
      exact ⟨rfl, rfl⟩

end Sys2Proof.Machine
end

section
/-! PROOFS of the family 09_host_interface: the staged set, the verdict on it and its commit (R284 to R286, R288). -/

namespace Sys2Proof.Machine

/-! ### The staged set (R284) -/

theorem State.stageReg_eq (s : State) (a mask v : Nat) : s.stageReg a mask v = { s with staged := (s.stageReg a mask v).staged } := by
  simp only [State.stageReg]
  split
  · split <;> rfl
  · rfl

theorem State.stageEntry_eq (s : State) (e : Nat × Nat) : s.stageEntry e = { s with staged := (s.stageEntry e).staged } := by
  simp only [State.stageEntry]
  split
  · rfl
  · split
    · rw [State.stageReg_eq]
    · rfl

/-- Entries of a list change the staged set alone. -/
theorem State.foldl_stageEntry_eq (s : State) (l : List (Nat × Nat)) : l.foldl State.stageEntry s = { s with staged := (l.foldl State.stageEntry s).staged } := by
  induction l generalizing s with
  | nil => rfl
  | cons e r ih => rw [List.foldl_cons, ih, State.stageEntry_eq]

theorem State.stageSeq_start (s : State) (h : Hdr) : (s.start h).stageSeq = s.stageSeq := State.reg_start s h _

theorem State.stageSeq_stageTick (s : State) : s.stageTick.stageSeq = (s.stageSeq + 1) % 2 ^ 32 := by
  rw [State.stageSeq, State.stageTick, State.reg_setReg, if_pos rfl, State.stageSeq]

theorem State.reg_stageTick_other (s : State) {a : Nat} (ha : a ≠ stgReg Reg.STAGE_SEQ) : s.stageTick.reg a = s.reg a := by
  rw [State.stageTick, State.reg_setReg, if_neg ha]

theorem State.stageable_start (s : State) (h : Hdr) : (s.start h).stageable = s.stageable := by
  funext e
  simp only [State.stageable, State.hasLayer, State.image_start, State.absentBlock, State.fits_start]

section Stage

variable {s : State} {h : Hdr} (ha : s.accepts h clsConfig = true) {a n : Nat}

include ha

theorem exec_configStage : exec (.configStage h a n) s = .next (
    if !((s.start h).stageList a n).all s.stageable then (s.start h).finish (s.descOf h) .CONFIG_TARGET 0 0
    else if n = 0 then (s.start h).finish (s.descOf h) .OK s.stageSeq 0
    else (((s.start h).stageList a n).foldl State.stageEntry (s.start h)).stageTick.finish (s.descOf h) .OK
      (((s.start h).stageList a n).foldl State.stageEntry (s.start h)).stageTick.stageSeq 0) := by
  show execConfigStage h a n s = _
  rw [execConfigStage, State.descriptor_accepted ha, State.stageable_start, State.stageSeq_start]

theorem exec_configDiscard : exec (.configDiscard h) s = .next (
    State.finish (State.stageTick { s.start h with staged := (s.start h).live }) (s.descOf h) .OK 0 0) := by
  show execConfigDiscard h s = _
  rw [execConfigDiscard, State.descriptor_accepted ha]

end Stage

/-! ### The rule that is reported (R285) -/

/-- The order in which failing rules are reported: the lower TARGET, then the lower reason. -/
theorem Broken.before_iff (x y : Broken) : x.before y = true ↔ x.1 < y.1 ∨ (x.1 = y.1 ∧ x.2 ≤ y.2) := by
  simp [Broken.before]

theorem Broken.before_total {x y : Broken} (h : ¬ x.before y = true) : y.before x = true := by
  rw [Broken.before_iff] at *
  omega

theorem Broken.before_trans {x y z : Broken} (hxy : x.before y = true) (hyz : y.before z = true) : x.before z = true := by
  rw [Broken.before_iff] at *
  omega

theorem Broken.before_refl (x : Broken) : x.before x = true := (Broken.before_iff x x).mpr (.inr ⟨rfl, le_rfl⟩)

theorem firstBroken_eq_none {l : List Broken} : firstBroken l = none ↔ l = [] := by
  cases l with
  | nil => exact iff_of_true rfl rfl
  | cons x r =>
    rw [firstBroken]
    cases firstBroken r <;> simp

theorem firstBroken_least {l : List Broken} {x : Broken} (h : firstBroken l = some x) : x ∈ l ∧ ∀ y ∈ l, x.before y = true := by
  induction l generalizing x with
  | nil => cases h
  | cons z r ih =>
    rw [firstBroken] at h
    cases hr : firstBroken r with
    | none =>
      rw [hr] at h
      cases h
      cases firstBroken_eq_none.mp hr
      exact ⟨List.mem_singleton_self z, fun y hy => List.mem_singleton.mp hy ▸ z.before_refl⟩
    | some w =>
      obtain ⟨hw, least⟩ := ih hr
      rw [hr] at h
      simp only [Option.some.injEq] at h
      split at h
      · next hz =>
        cases h
        exact ⟨List.mem_cons_self, List.forall_mem_cons.mpr ⟨z.before_refl, fun y hy => Broken.before_trans hz (least y hy)⟩⟩
      · next hz =>
        cases h
        exact ⟨List.mem_cons_of_mem _ hw, List.forall_mem_cons.mpr ⟨Broken.before_total hz, least⟩⟩

theorem State.verdictOf_eq_none (s : State) (c : ConfigSet) : s.verdictOf c = none ↔ s.broken c = [] := by
  rw [State.verdictOf, Option.map_eq_none_iff, firstBroken_eq_none]

theorem State.verdictOf_eq_some {s : State} {c : ConfigSet} {r a : Nat} (h : s.verdictOf c = some (r, a)) : firstBroken (s.broken c) = some (a, r) := by
  obtain ⟨x, hx, heq⟩ := Option.map_eq_some_iff.mp h
  cases heq
  exact hx

/-! ### CHECK and COMMIT (R285, R286) -/

section Commit

variable {s : State} {h : Hdr} {seq : Nat}

theorem State.checkStaged_changed (hs : seq ≠ s.stageSeq) : s.checkStaged seq = some (0x0801, 0) := if_pos hs

theorem State.checkStaged_current (hs : seq = s.stageSeq) : s.checkStaged seq = s.verdictOf s.staged := if_neg (not_not.mpr hs)

theorem State.start_checkStaged_changed (hs : seq ≠ s.stageSeq) : (s.start h).checkStaged seq = some (0x0801, 0) :=
  State.checkStaged_changed (by rwa [State.stageSeq_start])

theorem State.start_checkStaged_current (hs : seq = s.stageSeq) : (s.start h).checkStaged seq = (s.start h).verdictOf s.staged := by
  rw [State.checkStaged_current (by rwa [State.stageSeq_start]), State.start_staged]

variable (ha : s.accepts h clsConfig = true)

include ha

theorem exec_configCheck_rejects {r a : Nat} (hv : (s.start h).checkStaged seq = some (r, a)) :
    exec (.configCheck h seq) s = .next ((s.start h).finish (s.descOf h) .COMMIT_REJECTED r a) := by
  show execConfigCheck h seq s = _
  rw [execConfigCheck, State.descriptor_accepted ha, hv]

theorem exec_configCheck_passes (hv : (s.start h).checkStaged seq = none) :
    exec (.configCheck h seq) s = .next ((s.start h).finish (s.descOf h) .OK 0 0) := by
  show execConfigCheck h seq s = _
  rw [execConfigCheck, State.descriptor_accepted ha, hv]

theorem exec_configCommit_pending (hp : s.commit.buffer ≠ none) :
    exec (.configCommit h seq) s = .next (((s.start h).rejected 0x0802 0).finish (s.descOf h) .COMMIT_REJECTED 0x0802 0) := by
  show execConfigCommit h seq s = _
  rw [execConfigCommit, State.descriptor_accepted ha]
  simp only [State.start_commit, if_pos (Option.isSome_iff_ne_none.mpr hp)]

variable (hp : s.commit.buffer = none)

include hp

theorem exec_configCommit_rejects {r a : Nat} (hv : (s.start h).checkStaged seq = some (r, a)) :
    exec (.configCommit h seq) s = .next (((s.start h).rejected r a).finish (s.descOf h) .COMMIT_REJECTED r a) := by
  show execConfigCommit h seq s = _
  rw [execConfigCommit, State.descriptor_accepted ha]
  simp only [State.start_commit, hp, Option.isSome_none, Bool.false_eq_true, if_false, hv]

/-- The copy that an accepted commit keeps: the staged set, with the descriptor that waits for it. -/
def Desc.pending (d : Desc) (c : ConfigSet) : Pending := { set := c, chan := d.chan, ring := d.ring, tag := d.tag, irq := d.irq }

theorem exec_configCommit_accepts (hv : (s.start h).checkStaged seq = none) :
    exec (.configCommit h seq) s = .next { s.start h with commit := { s.commit with buffer := some ((s.descOf h).pending s.staged) } } := by
  show execConfigCommit h seq s = _
  rw [execConfigCommit, State.descriptor_accepted ha]
  simp only [State.start_commit, State.start_staged, hp, Option.isSome_none, Bool.false_eq_true, if_false, hv]
  rfl

end Commit

/-- Settles O25: a list is staged by `stageEntry` in order, and of the broken rules `firstBroken` picks the least. -/
theorem configSets : Obligations.ConfigSets := by
  refine ⟨?staging, fun s c => ⟨s.verdictOf_eq_none c, fun r a hv => ?least⟩, ?verdicts⟩
  case staging =>
    intro s h ha t d
    refine ⟨fun a n hbad => ?refused, fun a => ?empty, fun a n hn hgood => ?staged, ?discard⟩
    case refused =>
      obtain ⟨e, he, hno⟩ := hbad
      have notAll : (t.stageList a n).all s.stageable = false := List.all_eq_false.mpr ⟨e, he, by rw [hno]; exact Bool.false_ne_true⟩
      rw [exec_configStage ha, if_pos (by rw [notAll]; rfl)]
    case empty => rw [exec_configStage ha]; rfl
    case staged =>
      have same := t.foldl_stageEntry_eq (t.stageList a n)
      have seq : ((t.stageList a n).foldl State.stageEntry t).stageSeq = s.stageSeq := by rw [same]; exact s.stageSeq_start h
      refine ⟨((t.stageList a n).foldl State.stageEntry t).stageTick, ?_, ?_, rfl, ?_, fun r hr => ?_⟩
      · rw [exec_configStage ha, if_neg (by rw [List.all_eq_true.mpr hgood]; exact Bool.false_ne_true), if_neg hn, State.stageSeq_stageTick, seq]
      · rw [State.stageTick, same]; rfl
      · rw [State.stageSeq_stageTick, seq]
      · rw [State.reg_stageTick_other _ hr, same]; exact s.reg_start h r
    case discard =>
      refine ⟨_, exec_configDiscard ha, s.start_live h, ?_, rfl⟩
      rw [State.stageSeq_stageTick]
      exact congrArg (fun n => (n + 1) % 2 ^ 32) (s.stageSeq_start h)
  case least =>
    obtain ⟨hmem, hleast⟩ := firstBroken_least (State.verdictOf_eq_some hv)
    exact ⟨hmem, fun x hx => (Broken.before_iff _ x).mp (hleast x hx)⟩
  case verdicts =>
    intro s h seq ha t d
    refine ⟨fun hs => ?_, fun r a hs hv => ?_, fun hs hv => ?_, exec_configCommit_pending ha, fun hp hs => ?_, fun r a hp hs hv => ?_,
      fun hp hs hv => ⟨d.pending s.staged, rfl, rfl, ?_⟩⟩
    · exact exec_configCheck_rejects ha (State.start_checkStaged_changed hs)
    · exact exec_configCheck_rejects ha ((State.start_checkStaged_current hs).trans hv)
    · exact exec_configCheck_passes ha ((State.start_checkStaged_current hs).trans hv)
    · exact exec_configCommit_rejects ha hp (State.start_checkStaged_changed hs)
    · exact exec_configCommit_rejects ha hp ((State.start_checkStaged_current hs).trans hv)
    · exact exec_configCommit_accepts ha hp ((State.start_checkStaged_current hs).trans hv)

end Sys2Proof.Machine
end

section
/-! PROOFS of the family 10_queues_sequencers_and_sync: the instructions of Table 10-4 that act within a core (R305 to R309, R312). -/

namespace Sys2Proof.Machine

/-! ### One sequencer changes -/

/-- From `s` to `t` only the sequencer of core `q` changes, and is then `y`. -/
def State.onlySeq (s t : State) (q : Nat) (y : Sequencer) : Prop :=
  t = { s with seqs := t.seqs } ∧ (∀ j, j ≠ q → t.seq j = s.seq j) ∧ t.seq q = y

theorem State.seq_congr {s t : State} (h : t.seqs = s.seqs) (j : Nat) : t.seq j = s.seq j := congrArg (Tab.get · j) h

theorem State.seq_setSeq_same (s : State) (q : Nat) (y : Sequencer) : (s.setSeq q y).seq q = y := by rw [State.seq_setSeq, if_pos rfl]

theorem State.seq_setSeq_other (s : State) {q j : Nat} (y : Sequencer) (h : j ≠ q) : (s.setSeq q y).seq j = s.seq j := by
  rw [State.seq_setSeq, if_neg h]

theorem State.onlySeq_setSeq (s : State) (q : Nat) (y : Sequencer) : s.onlySeq (s.setSeq q y) q y :=
  ⟨rfl, fun _ hj => s.seq_setSeq_other y hj, s.seq_setSeq_same q y⟩

theorem State.onlySeq.frame {s t : State} {q : Nat} {y : Sequencer} (h : s.onlySeq t q y) : t = { s with seqs := t.seqs } := h.1
theorem State.onlySeq.others {s t : State} {q : Nat} {y : Sequencer} (h : s.onlySeq t q y) : ∀ j, j ≠ q → t.seq j = s.seq j := h.2.1
theorem State.onlySeq.here {s t : State} {q : Nat} {y : Sequencer} (h : s.onlySeq t q y) : t.seq q = y := h.2.2

theorem State.onlySeq.trans {s t u : State} {q : Nat} {x y : Sequencer} (h : s.onlySeq t q x) (k : t.onlySeq u q y) : s.onlySeq u q y := by
  obtain ⟨ht, hother, -⟩ := h
  obtain ⟨hu, kother, ky⟩ := k
  refine ⟨?_, fun j hj => (kother j hj).trans (hother j hj), ky⟩
  rw [hu, ht]

/-- The sequencer, running on at index `n`. -/
def Sequencer.onAt (x : Sequencer) (n : Nat) : Sequencer := { x with st := .running, cause := .none, pc := n }

/-- A sequencer that neither a STOP nor a fault waits for goes on at an index that holds an opcode (R305, R307). -/
theorem State.seqGoto_runs {s : State} {q n : Nat} (hstop : (s.seq q).stopping = false) (hfault : (s.seq q).faultPending = false)
    (hn : s.holdsOpcode q n) : s.seqGoto q n = s.setSeq q ((s.seq q).onAt n) := by
  obtain ⟨hrange, huses⟩ := hn
  have listed : ¬ (usesOf (wordOpc (s.storeAt q n))).isNone = true := by simpa using huses
  have unfaulted : ¬ (s.seq q).faultPending = true := by simp [hfault]
  have unstopped : ¬ (s.seq q).stopping = true := by simp [hstop]
  exact (if_neg unfaulted).trans ((if_neg unstopped).trans ((if_neg (Nat.not_lt.mpr hrange)).trans (if_neg listed)))

theorem State.onlySeq_seqGoto {s : State} {q n : Nat} (hstop : (s.seq q).stopping = false) (hfault : (s.seq q).faultPending = false)
    (hn : s.holdsOpcode q n) : s.onlySeq (s.seqGoto q n) q ((s.seq q).onAt n) := by
  rw [State.seqGoto_runs hstop hfault hn]
  exact s.onlySeq_setSeq q _

/-- The sequencer becomes `y`, which goes on at index `n`. -/
theorem State.onlySeq_setSeq_seqGoto (s : State) {q n : Nat} {y : Sequencer} (hstop : y.stopping = false) (hfault : y.faultPending = false)
    (hn : s.holdsOpcode q n) : s.onlySeq ((s.setSeq q y).seqGoto q n) q (y.onAt n) := by
  have set := s.seq_setSeq_same q y
  have goes := State.onlySeq_seqGoto (s := s.setSeq q y) (n := n) (by rwa [set]) (by rwa [set]) hn
  rw [set] at goes
  exact (s.onlySeq_setSeq q y).trans goes

theorem State.onlySeq_stall (s : State) (q : Nat) (c : Stall) : s.onlySeq (s.stall q c) q { s.seq q with st := .stalled, cause := c } :=
  s.onlySeq_setSeq q _

/-! ### Registers (R306) -/

theorem Sequencer.get_put (x : Sequencer) (r j : Nat) (v : Word) : (x.put r v).get j = if j = r ∧ r ≠ 0 then v else x.get j := by
  by_cases hr : r = 0
  · simp [Sequencer.put, hr]
  · by_cases hj : j = 0
    · simp [Sequencer.get, hj, Ne.symm hr]
    · simp [Sequencer.get, Sequencer.put, hr, hj, Tab.get_set]

theorem Sequencer.put_eq (x : Sequencer) (r : Nat) (v : Word) : x.put r v = { x with a := (x.put r v).a } := by
  rw [Sequencer.put]
  split <;> rfl

theorem Sequencer.put_stopping (x : Sequencer) (r : Nat) (v : Word) : (x.put r v).stopping = x.stopping := by rw [Sequencer.put_eq]
theorem Sequencer.put_faultPending (x : Sequencer) (r : Nat) (v : Word) : (x.put r v).faultPending = x.faultPending := by rw [Sequencer.put_eq]

theorem Sequencer.wrote_put (x : Sequencer) (n r : Nat) (v : Word) : x.wrote ((x.put r v).onAt n) n r v := by
  have get (j : Nat) : ((x.put r v).onAt n).get j = if j = r ∧ r ≠ 0 then v else x.get j := x.get_put r j v
  refine ⟨rfl, rfl, ?_, fun j hj => ?_, ?_⟩
  · rw [get]
    by_cases hr : r = 0 <;> simp [hr, Sequencer.get]
  · rw [get, if_neg fun h => hj h.1]
  · conv_lhs => rw [Sequencer.put_eq]
    rfl

/-! ### Issue (R306, R307) -/

section Issue

variable {s : State} {q opc : Nat} {f : SeqFields} (h : s.issuing q opc f)

include h

theorem State.issuing.quiet : (s.seq q).stopping = false ∧ (s.seq q).faultPending = false := by
  obtain ⟨-, hstop, hfault, -⟩ := h
  exact ⟨hstop, hfault⟩

/-- The sequencer issues the instruction on itself as it stands. -/
theorem State.issuing.issue (c : Stall) (k : Sequencer → State) : s.issue q opc f c k = k (s.seq q) := by
  obtain ⟨hrun, -, -, hfit, hpc, hword, hfields⟩ := h
  have issues : s.issues q opc f c = true := by simp [State.issues, hrun, hfit, hpc, hword]
  simp only [State.issue, issues, hfields, if_true]

theorem State.issuing.fields : fieldsOk opc f = true := by
  obtain ⟨-, -, -, -, -, -, hfields⟩ := h
  exact hfields

theorem State.issuing.next (c : Stall) (k : Sequencer → State) :
    (Host.Outcome.next (s.issue q opc f c k) : Host.Outcome State Fault Refusal) = .next (k (s.seq q)) := congrArg _ (h.issue c k)

theorem State.issuing.running : (s.seq q).st = .running := by
  obtain ⟨hrun, -⟩ := h
  exact hrun

theorem State.issuing.pc_lt : (s.seq q).pc < 4096 := by
  obtain ⟨-, -, -, -, hpc, -⟩ := h
  exact Nat.lt_succ_of_le hpc

/-- In a state in which its sequencer still stands as it issued, the sequencer goes on at index `n`. -/
theorem State.issuing.goes_on {t : State} (same : t.seq q = s.seq q) {n : Nat} (hn : t.holdsOpcode q n) :
    t.onlySeq (t.seqGoto q n) q ((s.seq q).onAt n) := by
  rw [← same]
  exact State.onlySeq_seqGoto (by rw [same, h.quiet.1]) (by rw [same, h.quiet.2]) hn

/-- A register is written, and the sequencer goes on at index `n`. -/
theorem State.issuing.writes (t : State) {n : Nat} (r : Nat) (v : Word) (hn : t.holdsOpcode q n) :
    t.onlySeq ((t.setSeq q ((s.seq q).put r v)).seqGoto q n) q (((s.seq q).put r v).onAt n) :=
  t.onlySeq_setSeq_seqGoto (by rw [Sequencer.put_stopping, h.quiet.1]) (by rw [Sequencer.put_faultPending, h.quiet.2]) hn

end Issue

/-! ### The register instructions (Table 10-4) -/

theorem State.onlySeq.wrote {s t : State} {x : Sequencer} {q n r : Nat} {v : Word} (h : s.onlySeq t q ((x.put r v).onAt n)) :
    t = { s with seqs := t.seqs } ∧ (∀ j, j ≠ q → t.seq j = s.seq j) ∧ x.wrote (t.seq q) n r v := by
  obtain ⟨frame, others, hq⟩ := h
  exact ⟨frame, others, hq ▸ x.wrote_put n r v⟩

/-- What a field that R306 allows says of MOD: it lies below the bits that the opcode defines. -/
theorem fieldsOk_mod {opc : Nat} {f : SeqFields} {u : Uses} (hu : usesOf opc = some u) (h : fieldsOk opc f = true) :
    f.mod = f.mod &&& u.mod ∧ reservedMod opc f.mod = false := by
  simp only [fieldsOk, hu, Bool.and_eq_true, beq_iff_eq, Bool.not_eq_true'] at h
  exact ⟨h.1.2, h.2⟩

/-- The comparison that a BRANCH makes, by the codes of Table 10-4. -/
theorem cmpHolds_iff {m : Nat} (hm : m < 6) (x y : Word) : cmpHolds m x y = true ↔
    (m = 0 ∧ x = y) ∨ (m = 1 ∧ x ≠ y) ∨ (m = 2 ∧ x.toInt < y.toInt) ∨ (m = 3 ∧ y.toInt ≤ x.toInt) ∨ (m = 4 ∧ x.toNat < y.toNat) ∨ (m = 5 ∧ y.toNat ≤ x.toNat) := by
  interval_cases m <;> simp [cmpHolds, BitVec.slt, BitVec.ult]

/-- A BRANCH that R306 allows makes one of the comparisons 0 to 5 (log 22). -/
theorem branch_mod {f : SeqFields} (h : fieldsOk 0x08 f = true) : f.mod < 6 := by
  obtain ⟨hmask, hres⟩ := fieldsOk_mod (u := { a := true, b := true, mod := 7 }) rfl h
  have : f.mod ≤ 7 := hmask ▸ Nat.and_le_right
  simp [reservedMod] at hres
  omega

theorem exec_alu {s : State} {q : Nat} {f : SeqFields} (h : s.issuing q 0x04 f) : exec (.alu q f) s = .next (
    (s.setSeq q ((s.seq q).put f.a (aluOp f.mod ((s.seq q).get f.b) ((s.seq q).get f.c)))).seqGoto q ((s.seq q).pc + 1)) := by
  obtain ⟨hmask, -⟩ := fieldsOk_mod (u := { a := true, b := true, c := true, mod := 0xF }) rfl h.fields
  have code : f.mod % 16 = f.mod := Nat.mod_eq_of_lt (Nat.lt_succ_of_le (hmask ▸ Nat.and_le_right))
  refine (h.next _ _).trans ?_
  rw [State.seqSet, code]

theorem exec_branch {s : State} {q : Nat} {f : SeqFields} (h : s.issuing q 0x08 f) : exec (.branch q f) s = .next (
    s.seqGoto q (if cmpHolds f.mod ((s.seq q).get f.a) ((s.seq q).get f.b) then f.imm % 2 ^ 32 else (s.seq q).pc + 1)) := by
  have code : f.mod % 8 = f.mod := Nat.mod_eq_of_lt (by have := branch_mod h.fields; omega)
  refine (h.next _ _).trans ?_
  rw [code]

theorem aluOp_meaning (op : Nat) (y z : Word) :
    (op = 0 → (aluOp op y z).toNat = (y.toNat + z.toNat) % 2 ^ 64) ∧ (op = 1 → (aluOp op y z).toNat = (2 ^ 64 + y.toNat - z.toNat) % 2 ^ 64)
    ∧ (op = 2 → aluOp op y z = y &&& z) ∧ (op = 3 → aluOp op y z = y ||| z) ∧ (op = 4 → aluOp op y z = y ^^^ z)
    ∧ (op = 5 → (aluOp op y z).toNat = y.toNat * 2 ^ (z.toNat % 64) % 2 ^ 64) ∧ (op = 6 → (aluOp op y z).toNat = y.toNat / 2 ^ (z.toNat % 64))
    ∧ (op = 7 → (aluOp op y z).toInt = y.toInt / 2 ^ (z.toNat % 64)) ∧ (op = 8 → (aluOp op y z).toNat = y.toNat * z.toNat % 2 ^ 64)
    ∧ (op = 9 → (aluOp op y z).toInt = min y.toInt z.toInt) ∧ (op = 10 → (aluOp op y z).toInt = max y.toInt z.toInt) := by
  refine ⟨?_, ?_, ?_, ?_, ?_, ?_, ?_, ?_, ?_, ?_, ?_⟩ <;> rintro rfl <;> simp only [aluOp]
  · exact BitVec.toNat_add y z
  · rw [BitVec.toNat_sub]; omega
  · rw [BitVec.toNat_shiftLeft, Nat.shiftLeft_eq]
  · rw [BitVec.toNat_ushiftRight, Nat.shiftRight_eq_div_pow]
  · rw [BitVec.toInt_sshiftRight, Int.shiftRight_eq_div_pow]; rfl
  · exact BitVec.toNat_mul y z
  · split <;> simp_all [BitVec.slt, le_of_lt]
  · split <;> simp_all [BitVec.slt, le_of_lt]

/-- SETI with MOD 1 replaces the high half of its register (Table 10-4). -/
theorem high_half (imm : Nat) (w : Word) : (BitVec.ofNat 64 (imm % 2 ^ 32 * 2 ^ 32 + w.toNat % 2 ^ 32)).toNat / 2 ^ 32 = imm % 2 ^ 32
    ∧ (BitVec.ofNat 64 (imm % 2 ^ 32 * 2 ^ 32 + w.toNat % 2 ^ 32)).toNat % 2 ^ 32 = w.toNat % 2 ^ 32 := by
  rw [BitVec.toNat_ofNat]
  omega

/-- Settles O33: each instruction goes on at its index, with its register's new value where it writes one. -/
theorem registerInstructions : Obligations.RegisterInstructions := by
  intro s q f x
  refine ⟨fun h hn => ⟨_, h.next _ _, h.goes_on rfl hn⟩, fun h hn => ?seti, fun h hn => ?addi, fun h hn => ?alu,
    fun h hn => ⟨_, h.next _ _, h.goes_on rfl hn⟩, fun h n hto hn => ?branch, fun h hn => ⟨_, h.next _ _, h.goes_on rfl hn⟩, fun h n hto hn => ?loop⟩
  case seti =>
    obtain ⟨frame, others, wrote⟩ := (h.writes s f.a _ hn).wrote
    refine ⟨_, _, h.next _ _, frame, others, wrote, fun low => ?_, fun high => ?_⟩
    · rw [if_neg (by omega)]; rfl
    · rw [if_pos high]
      exact high_half f.imm (x.get f.a)
  case addi =>
    obtain ⟨frame, others, wrote⟩ := (h.writes s f.a (x.get f.b + immWord f.imm) hn).wrote
    refine ⟨_, _, h.next _ _, frame, others, wrote, ?_⟩
    rw [BitVec.ofInt_add, BitVec.ofInt_toInt]
    rfl
  case alu =>
    obtain ⟨frame, others, wrote⟩ := (h.writes s f.a (aluOp f.mod (x.get f.b) (x.get f.c)) hn).wrote
    exact ⟨_, _, exec_alu h, frame, others, wrote, aluOp_meaning _ _ _⟩
  case branch =>
    have goal : n = if cmpHolds f.mod (x.get f.a) (x.get f.b) then f.imm % 2 ^ 32 else x.pc + 1 :=
      hto.trans (if_congr (cmpHolds_iff (branch_mod h.fields) _ _).symm rfl rfl)
    exact ⟨_, goal ▸ exec_branch h, h.goes_on rfl hn⟩
  case loop =>
    have goal : n = if x.get f.a - 1#64 = 0#64 then x.pc + 1 else f.imm % 2 ^ 32 := hto.trans (if_congr sub_eq_zero.symm rfl rfl)
    exact ⟨_, goal ▸ h.next _ _, (h.writes s f.a _ hn).wrote⟩

/-! ### Faults that do not abandon the step (R312, R414) -/

/-- The sequencer in FAULTED with its record. -/
def Sequencer.faulted (x : Sequencer) (r : FaultRec) : Sequencer :=
  { x with st := .faulted, cause := .none, fault := r, faultPending := false, stopping := false }

section Fault

variable {s : State} {r : FaultRec} (h : abandons r.status = false)

include h

/-- The fault is recorded, counted, reported and interrupts the Hearth core. -/
theorem State.enterFault_stays (q : Nat) : s.enterFault q r =
    (((s.setSeq q ((s.seq q).faulted r)).bump
      (dieReg (coreDie q) Reg.SEQ_FAULT_TOTAL) 1).hearthIrq (q / 8)).raise .SEQ_FAULT (Src.ofCore q) [q, r.pc, r.reason, r.word, r.opAddr] r.status := by
  rw [State.enterFault, State.faultDetected, if_pos (by rw [h]; rfl)]
  rfl

theorem State.enterFault_eq (q : Nat) : s.enterFault q r =
    { s with seqs := (s.enterFault q r).seqs, regs := (s.enterFault q r).regs, wq := (s.enterFault q r).wq
             time := (s.enterFault q r).time, fresh := (s.enterFault q r).fresh, ev := (s.enterFault q r).ev } := by
  rw [State.enterFault_stays h]
  rfl

theorem State.enterFault_mem (q : Nat) : (s.enterFault q r).mem = s.mem := by rw [State.enterFault_eq h]
theorem State.enterFault_store (q : Nat) : (s.enterFault q r).store = s.store := by rw [State.enterFault_eq h]
theorem State.enterFault_sync (q : Nat) : (s.enterFault q r).sync = s.sync := by rw [State.enterFault_eq h]
theorem State.enterFault_flight (q : Nat) : (s.enterFault q r).flight = s.flight := by rw [State.enterFault_eq h]

theorem State.seqs_enterFault (q : Nat) : (s.enterFault q r).seqs = (s.setSeq q ((s.seq q).faulted r)).seqs := by
  rw [State.enterFault_stays h]
  rfl

theorem State.seq_enterFault_same (q : Nat) : (s.enterFault q r).seq q = (s.seq q).faulted r :=
  (State.seq_congr (State.seqs_enterFault h q) q).trans (s.seq_setSeq_same q _)

theorem State.seq_enterFault_other {q j : Nat} (hj : j ≠ q) : (s.enterFault q r).seq j = s.seq j :=
  (State.seq_congr (State.seqs_enterFault h q) j).trans (s.seq_setSeq_other _ hj)

theorem State.reg_enterFault (q : Nat) {a : Nat} (ha : a ≠ dieReg (coreDie q) Reg.SEQ_FAULT_TOTAL) : (s.enterFault q r).reg a = s.reg a := by
  rw [State.enterFault_stays h]
  exact (State.reg_bump _ _ _ _).trans (if_neg ha)

theorem State.inFlight_enterFault (q : Nat) : ∃ e, (s.enterFault q r).ev.inFlight = s.ev.inFlight ++ [e] := by
  rw [State.enterFault_stays h]
  exact ⟨_, rfl⟩

end Fault

/-! ### LD and ST (R307) -/

theorem Kept.seq {W : Nat} {s t : State} (h : Kept W s t) (hW : W.testBit Zone.seqs.bit = false) (j : Nat) : t.seq j = s.seq j :=
  State.seq_congr (h.seqs hW) j

theorem State.holdsOpcode_congr {s t : State} (h : t.store = s.store) {q n : Nat} (hn : s.holdsOpcode q n) : t.holdsOpcode q n := by
  rw [State.holdsOpcode, State.storeAt, h]
  exact hn

theorem ownAddr_iff (q a : Nat) : ownAddr q a = true ↔ a % 8 = 0 ∧ coreBase q ≤ a ∧ a < coreBase q + 2 ^ 22 ∧ coreCluster q < 8 := by
  simp [ownAddr, and_assoc]

section Access

variable {s : State} {q : Nat} {f : SeqFields}

/-- The address of an LD or ST. -/
def State.seqAddr (s : State) (q : Nat) (f : SeqFields) : Nat := s.loc ((s.seq q).get f.b + immWord f.imm).toNat

theorem exec_ld_reads (h : s.issuing q 0x05 f) (hown : ownAddr q (s.seqAddr q f) = true) {r : Rd} (hr : s.read (Reader.ofCore q) (s.seqAddr q f) 8 = r)
    (hok : r.code = .OK) : exec (.ld q f) s = .next (r.st.seqSet q (s.seq q) f.a (BitVec.ofNat 64 (leNat r.bytes))) := by
  subst hr
  exact (h.next _ _).trans (congrArg _ ((if_pos hown).trans (if_pos hok)))

theorem exec_st_writes (h : s.issuing q 0x06 f) (hown : ownAddr q (s.seqAddr q f) = true) {r : Wr}
    (hr : s.write (Src.ofCore q) {} (s.seqAddr q f) (leBytes 8 ((s.seq q).get f.a).toNat) = r) (hok : r.code = .OK) :
    exec (.st q f) s = .next (r.st.seqGoto q ((s.seq q).pc + 1)) := by
  subst hr
  exact (h.next _ _).trans (congrArg _ ((if_pos hown).trans (if_pos hok)))

theorem exec_ld_faults (h : s.issuing q 0x05 f) (hown : ¬ ownAddr q (s.seqAddr q f) = true) :
    exec (.ld q f) s = .next (s.instrFault q (s.seq q).pc .SEQ_ADDRESS (s.seqAddr q f)) := (h.next _ _).trans (congrArg _ (if_neg hown))

theorem exec_st_faults (h : s.issuing q 0x06 f) (hown : ¬ ownAddr q (s.seqAddr q f) = true) :
    exec (.st q f) s = .next (s.instrFault q (s.seq q).pc .SEQ_ADDRESS (s.seqAddr q f)) := (h.next _ _).trans (congrArg _ (if_neg hown))

end Access

/-- The record of an instruction fault (Table 10-7). -/
def State.instrRecord (s : State) (q pc : Nat) (c : Code) (a : Nat) : FaultRec :=
  { pc := pc % 2 ^ 16, status := c, instruction := true, word := s.storeAt q (pc % 4096), opAddr := a, stamp := s.cClock (coreDie q) }

/-- An instruction that faults leaves memory and the registers alone; its record names the index and the address. -/
theorem State.instrFault_facts {s : State} {q opc : Nat} {f : SeqFields} (h : s.issuing q opc f) {c : Code} (hc : abandons c = false) (a : Nat) :
    let t := s.instrFault q (s.seq q).pc c a
    t.mem = s.mem ∧ (t.seq q).st = .faulted ∧ (t.seq q).a = (s.seq q).a ∧ (t.seq q).fault.status = c ∧ (t.seq q).fault.opAddr = a
      ∧ (t.seq q).fault.pc = (s.seq q).pc := by
  intro t
  have stays : abandons (s.instrRecord q (s.seq q).pc c a).status = false := hc
  have pc : (s.seq q).pc % 2 ^ 16 = (s.seq q).pc := Nat.mod_eq_of_lt (Nat.lt_trans h.pc_lt (by decide))
  have here : t.seq q = (s.seq q).faulted (s.instrRecord q (s.seq q).pc c a) := State.seq_enterFault_same stays q
  rw [here]
  exact ⟨State.enterFault_mem stays q, rfl, rfl, rfl, rfl, pc⟩

/-- Settles O34: an access to the core's own scratchpad is performed before the sequencer goes on, any other is an instruction fault. -/
theorem loadsAndStores : Obligations.LoadsAndStores := by
  intro s q f x a own
  have iff : ownAddr q a = true ↔ own := ownAddr_iff q a
  refine ⟨fun h hown r hr hok hn => ?ld, fun h hown r hr hok hn => ?st, fun hnot h => ⟨_, exec_ld_faults h (mt iff.mp hnot), State.instrFault_facts h rfl _⟩,
    fun hnot h => ⟨_, exec_st_faults h (mt iff.mp hnot), State.instrFault_facts h rfl _⟩⟩
  case ld =>
    have kept : Kept 6243 s r.st := hr ▸ State.read_kept rfl (Kept.refl _ s)
    obtain ⟨frame, others, wrote⟩ := (h.writes r.st f.a (BitVec.ofNat 64 (leNat r.bytes)) (State.holdsOpcode_congr (kept.only .store rfl) hn)).wrote
    exact ⟨_, exec_ld_reads h (iff.mpr hown) hr hok, frame, fun j hj => (others j hj).trans (kept.seq rfl j), wrote⟩
  case st =>
    have kept : Kept 6243 s r.st := hr ▸ State.write_kept rfl (Kept.refl _ s)
    obtain ⟨frame, others, went⟩ := h.goes_on (kept.seq rfl q) (State.holdsOpcode_congr (kept.only .store rfl) hn)
    exact ⟨_, exec_st_writes h (iff.mpr hown) hr hok, frame, fun j hj => (others j hj).trans (kept.seq rfl j), went⟩

/-! ### Engine instructions (R308, R309) -/

theorem exec_of_queues {i : Instr} {q opc : Nat} {f : SeqFields} {u : OpUnit} (h : i.queues = some (q, opc, f, u)) (s : State) :
    exec i s = .next (s.enqueue q opc f u) := by
  unfold Instr.queues at h
  split at h <;> cases h
  all_goals rfl

/-- The op that an engine instruction queues, with the values of its registers. -/
def State.opOf (s : State) (q opc : Nat) (f : SeqFields) (u : OpUnit) : Op :=
  { opc := opc, unit := u, a := s.loc ((s.seq q).get f.a).toNat, b := s.loc ((s.seq q).get f.b).toNat, c := ((s.seq q).get f.c).toNat
    d := f.d, mod := f.mod, imm := f.imm, pc := (s.seq q).pc, word := instrWord opc f }

section Enqueue

variable {s : State} {q opc : Nat} {f : SeqFields} (h : s.issuing q opc f) {u : OpUnit}

include h

theorem State.enqueue_full (hfull : u.depth ≤ (s.seq q).queued u) : s.enqueue q opc f u = s.stall q .opQueue :=
  (h.issue _ _).trans (if_pos hfull)

theorem State.enqueue_joins (hroom : ¬ u.depth ≤ (s.seq q).queued u) : s.enqueue q opc f u =
    (s.setSeq q { s.seq q with ops := (s.seq q).ops ++ [s.opOf q opc f u] }).seqGoto q ((s.seq q).pc + 1) := by
  refine (h.issue _ _).trans ((if_neg hroom).trans ?_)
  simp only [h.running, reduceCtorEq, if_false]
  rfl

end Enqueue

/-- Settles O35: the unit's queue has room, and the op joins it, or is full, and the sequencer stalls. -/
theorem engineInstructionsQueueTheirOp : Obligations.EngineInstructionsQueueTheirOp := by
  intro s i q opc f u hi h x n full
  have depth : u.depth = full := by cases u <;> rfl
  refine ⟨fun hroom hn => ?joins, fun hfull => ?stalls⟩
  case joins =>
    have joined := s.onlySeq_setSeq_seqGoto (y := { x with ops := x.ops ++ [s.opOf q opc f u] }) h.quiet.1 h.quiet.2 hn
    obtain ⟨frame, others, here⟩ := joined
    exact ⟨_, s.opOf q opc f u, (exec_of_queues hi s).trans (congrArg _ (State.enqueue_joins h (Nat.not_le.mpr (hroom.trans_eq depth.symm)))), frame, others, here,
      rfl, rfl, rfl, rfl, rfl, rfl, rfl, rfl, rfl⟩
  case stalls => exact ⟨_, (exec_of_queues hi s).trans (congrArg _ (State.enqueue_full h (depth.trans_le hfull))), s.onlySeq_stall q .opQueue⟩

/-! ### Interrupts to the Hearth core (R307) -/

theorem State.queue_hearthIrq_other (s : State) {g j : Nat} (h : j ≠ g) : (s.hearthIrq g).queue j = s.queue j := by
  rw [State.queue, State.hearthIrq, Tab.get_upd_other _ _ h]
  rfl

/-- From `s` to `t` the sequencer of core `q` becomes `y`, and the Hearth core of its cluster is interrupted once. -/
theorem State.onlySeq.interrupts {s t : State} {q : Nat} {y z : Sequencer} (h : ((s.setSeq q z).hearthIrq (q / 8)).onlySeq t q y) :
    t = { s with seqs := t.seqs, wq := t.wq } ∧ ((∀ j, j ≠ q → t.seq j = s.seq j) ∧ t.seq q = y)
      ∧ (t.queue (q / 8)).hearthIrq = (s.queue (q / 8)).hearthIrq + 1 ∧ ∀ g, g ≠ q / 8 → t.queue g = s.queue g := by
  obtain ⟨frame, others, here⟩ := h
  have queue (g : Nat) : t.queue g = ((s.setSeq q z).hearthIrq (q / 8)).queue g := by rw [frame]; rfl
  refine ⟨by rw [frame]; rfl, ⟨fun j hj => (others j hj).trans (s.seq_setSeq_other z hj), here⟩, ?_, fun g hg => ?_⟩
  · rw [queue, State.queue_hearthIrq]
    rfl
  · rw [queue, State.queue_hearthIrq_other _ hg]
    rfl

theorem exec_halt {s : State} {q : Nat} {f : SeqFields} (h : s.issuing q 0x01 f) :
    exec (.halt q f) s = .next ((s.setSeq q { s.seq q with st := .idle, pc := (s.seq q).pc + 1 }).hearthIrq (q / 8)) := h.next _ _

theorem exec_intr {s : State} {q : Nat} {f : SeqFields} (h : s.issuing q 0x26 f) : exec (.intr q f) s = .next (
    ((s.setSeq q { s.seq q with hearthCode := f.imm % 256 }).hearthIrq (q / 8)).seqGoto q ((s.seq q).pc + 1)) := h.next _ _

/-! ### Object operations that leave a core (R307, R315) -/

section Send

variable {s : State} {q opc : Nat} {f : SeqFields}

/-- The message of a POST, WAIT or SYNC_SET. -/
def State.syncMsg (s : State) (q : Nat) (f : SeqFields) (k : SyncKind) (eq : Bool) : SyncMsg :=
  { kind := k, obj := objOf (s.seq q) f, val := ((s.seq q).get f.a).toNat % 2 ^ 32, eq := eq, who := .seq q, pc := (s.seq q).pc, word := s.storeAt q (s.seq q).pc }

/-- The message is on its way. -/
def State.sending (s : State) (q : Nat) (f : SeqFields) (k : SyncKind) (eq : Bool) : State := { s with flight := s.flight ++ [s.syncMsg q f k eq] }

theorem State.syncSend_sends (hobj : objOf (s.seq q) f ≤ 4095) (k : SyncKind) (eq : Bool) (go : State → State) :
    s.syncSend q (s.seq q) f k eq go = go (s.sending q f k eq) := if_neg (Nat.not_lt.mpr hobj)

theorem State.syncSend_faults (hobj : 4095 < objOf (s.seq q) f) (k : SyncKind) (eq : Bool) (go : State → State) :
    s.syncSend q (s.seq q) f k eq go = s.instrFault q (s.seq q).pc .SEQ_OBJECT_RANGE (objOf (s.seq q) f) := if_pos hobj

theorem exec_post (h : s.issuing q 0x20 f) : exec (.post q f) s = .next (
    s.syncSend q (s.seq q) f .post false (·.seqGoto q ((s.seq q).pc + 1))) := h.next _ _

theorem exec_syncSet (h : s.issuing q 0x22 f) : exec (.syncSet q f) s = .next (
    s.syncSend q (s.seq q) f .set false (·.seqGoto q ((s.seq q).pc + 1))) := h.next _ _

theorem exec_wait (h : s.issuing q 0x21 f) : exec (.wait q f) s = .next (s.syncSend q (s.seq q) f .wait (f.mod == 1) (·.stall q .wait)) := by
  obtain ⟨hmask, -⟩ := fieldsOk_mod (u := { a := true, b := true, mod := 1 }) rfl h.fields
  have code : f.mod % 2 = f.mod := Nat.mod_eq_of_lt (Nat.lt_succ_of_le (hmask ▸ Nat.and_le_right))
  refine (h.next _ _).trans ?_
  rw [code]

theorem State.onlySeq.sent {t : State} {k : SyncKind} {eq : Bool} {y : Sequencer} (h : (s.sending q f k eq).onlySeq t q y) :
    t = { s with seqs := t.seqs, flight := t.flight } ∧ (∀ j, j ≠ q → t.seq j = s.seq j) ∧ ∃ m : SyncMsg, t.flight = s.flight ++ [m]
      ∧ m.kind = k ∧ m.obj = objOf (s.seq q) f ∧ m.val = ((s.seq q).get f.a).toNat % 2 ^ 32 ∧ m.eq = eq ∧ m.who = .seq q ∧ m.pc = (s.seq q).pc := by
  obtain ⟨frame, others, -⟩ := h
  exact ⟨by rw [frame]; rfl, others, s.syncMsg q f k eq, congrArg State.flight frame, rfl, rfl, rfl, rfl, rfl, rfl⟩

end Send

/-! ### TICK, PBLD, DONE_WAIT and FENCE (R307, R308) -/

section Waits

variable {s : State} {q : Nat} {f : SeqFields}

/-- The clock of the core's die has moved on, by an amount the model leaves open (log 11). -/
def State.clocked (s : State) (q : Nat) : State := s.domainRuns (Src.ofDie (coreDie q))

theorem exec_tick (h : s.issuing q 0x27 f) : exec (.tick q f) s = .next (
    (s.clocked q).seqSet q (s.seq q) f.a (BitVec.ofNat 64 ((s.clocked q).cClock (coreDie q)))) := h.next _ _

theorem State.onlySeq.clocked {t : State} {y : Sequencer} (h : (s.clocked q).onlySeq t q y) :
    t = { s with seqs := t.seqs, time := t.time, fresh := t.fresh } ∧ (s.clocked q).cClock (coreDie q) = t.cClock (coreDie q) := by
  obtain ⟨frame, -, -⟩ := h
  exact ⟨by rw [frame]; rfl, by rw [frame]; rfl⟩

theorem exec_pbld (h : s.issuing q 0x0C f) (hw : f.imm % 32 < 24) : exec (.pbld q f) s = .next (
    s.seqSet q (s.seq q) f.a (BitVec.ofNat 64 (leNat (((s.seq q).pbuf.drop (8 * (f.imm % 32))).take 8)))) :=
  (h.next _ _).trans (congrArg _ (if_pos hw))

theorem exec_doneWait (h : s.issuing q 0x23 f) : exec (.doneWait q f) s = .next (
    if f.imm % 2 ^ 16 ≤ Tab.get (s.seq q).d f.d then s.seqGoto q ((s.seq q).pc + 1) else s.stall q .doneWait) := h.next _ _

theorem exec_fence (h : s.issuing q 0x25 f) : exec (.fence q f) s = .next (
    if (s.seq q).ops = [] ∧ (s.seq q).ran = [] then s.seqGoto q ((s.seq q).pc + 1) else s.stall q .fence) :=
  (h.next _ _).trans (congrArg _ (if_congr (by simp) rfl rfl))

end Waits

/-- Settles O36: each instruction's equation gives the state it leaves, in which its sequencer goes on, stalls, idles or faults. -/
theorem controlInstructions : Obligations.ControlInstructions := by
  intro s q f x went obj sent
  refine ⟨fun h => ?halt, fun h hn => ?intr, fun h hn => ?tick, fun h hn hw => ?pbld, fun h hn hobj => ?post, fun h hn hobj => ?set, fun h hobj => ?wait,
    fun hobj i opc hi h => ?range, fun h hd hn => ?reached, fun h hd => ?waits, fun h hn => ?doneSet, fun h hops hran hn => ?clear, fun h hout => ?fence⟩
  case halt =>
    have done : ((s.setSeq q { x with st := .idle, pc := x.pc + 1 }).hearthIrq (q / 8)).onlySeq _ q { x with st := .idle, pc := x.pc + 1 } :=
      ⟨rfl, fun _ _ => rfl, s.seq_setSeq_same q _⟩
    obtain ⟨frame, ⟨others, here⟩, irq⟩ := done.interrupts
    exact ⟨_, exec_halt h, frame, others, here, irq⟩
  case intr =>
    have set : ((s.setSeq q { x with hearthCode := f.imm % 256 }).hearthIrq (q / 8)).seq q = { x with hearthCode := f.imm % 256 } := s.seq_setSeq_same q _
    have goes := State.onlySeq_seqGoto (s := (s.setSeq q { x with hearthCode := f.imm % 256 }).hearthIrq (q / 8)) (by rw [set]; exact h.quiet.1)
      (by rw [set]; exact h.quiet.2) hn
    rw [set] at goes
    exact ⟨_, exec_intr h, goes.interrupts⟩
  case tick =>
    obtain ⟨-, others, wrote⟩ := (h.writes (s.clocked q) f.a (BitVec.ofNat 64 ((s.clocked q).cClock (coreDie q))) hn).wrote
    obtain ⟨frame, clock⟩ := (h.writes (s.clocked q) f.a (BitVec.ofNat 64 ((s.clocked q).cClock (coreDie q))) hn).clocked
    exact ⟨_, exec_tick h, frame, others, clock ▸ wrote⟩
  case pbld =>
    obtain ⟨frame, others, wrote⟩ := (h.writes s f.a _ hn).wrote
    exact ⟨_, exec_pbld h hw, frame, others, wrote⟩
  case post =>
    have goes := h.goes_on (t := s.sending q f .post false) rfl hn
    exact ⟨_, (exec_post h).trans (congrArg _ (State.syncSend_sends hobj _ _ _)), goes.sent, goes.others, goes.here⟩
  case set =>
    have goes := h.goes_on (t := s.sending q f .set false) rfl hn
    exact ⟨_, (exec_syncSet h).trans (congrArg _ (State.syncSend_sends hobj _ _ _)), goes.sent, goes.others, goes.here⟩
  case wait =>
    have stalls := (s.sending q f .wait (f.mod == 1)).onlySeq_stall q .wait
    exact ⟨_, (exec_wait h).trans (congrArg _ (State.syncSend_sends hobj _ _ _)), stalls.sent, stalls.here⟩
  case range =>
    have faults : exec i s = .next (s.instrFault q x.pc .SEQ_OBJECT_RANGE obj) := by
      simp only [List.mem_cons, Prod.mk.injEq, List.not_mem_nil, or_false] at hi
      obtain ⟨rfl, rfl⟩ | ⟨rfl, rfl⟩ | ⟨rfl, rfl⟩ := hi
      · exact (exec_post h).trans (congrArg _ (State.syncSend_faults hobj _ _ _))
      · exact (exec_wait h).trans (congrArg _ (State.syncSend_faults hobj _ _ _))
      · exact (exec_syncSet h).trans (congrArg _ (State.syncSend_faults hobj _ _ _))
    obtain ⟨-, st, -, status, addr, -⟩ := State.instrFault_facts h (c := .SEQ_OBJECT_RANGE) rfl obj
    exact ⟨_, faults, State.enterFault_flight (r := s.instrRecord q x.pc .SEQ_OBJECT_RANGE obj) rfl q, st, status, addr⟩
  case reached => exact ⟨_, (exec_doneWait h).trans (congrArg _ (if_pos hd)), h.goes_on rfl hn⟩
  case waits => exact ⟨_, (exec_doneWait h).trans (congrArg _ (if_neg (Nat.not_le.mpr hd))), s.onlySeq_stall q .doneWait⟩
  case doneSet =>
    have goes := s.onlySeq_setSeq_seqGoto (y := { x with d := Tab.set x.d f.d (f.imm % 2 ^ 16) }) h.quiet.1 h.quiet.2 hn
    exact ⟨_, _, h.next _ _, goes.frame, ⟨goes.others, goes.here⟩, rfl, Tab.get_set_same _ _ _, fun j hj => Tab.get_set_other _ _ hj⟩
  case clear => exact ⟨_, (exec_fence h).trans (congrArg _ (if_pos ⟨hops, hran⟩)), h.goes_on rfl hn⟩
  case fence => exact ⟨_, (exec_fence h).trans (congrArg _ (if_neg (by tauto))), s.onlySeq_stall q .fence⟩

end Sys2Proof.Machine
end

section
/-! PROOFS of the family 10_queues_sequencers_and_sync: the Hearth core's commands to a sequencer and the completion of its ops (R305, R308, R312, R313). -/

namespace Sys2Proof.Machine

/-! ### Commands of the Hearth core (R305, R313) -/

section Hearth

variable {s : State} {q : Nat}

theorem State.onlySeq_seqControl (s : State) (q : Nat) (c : Code) : s.onlySeq (s.seqControl q c) q { s.seq q with control := c } := s.onlySeq_setSeq q _

/-- The words that a LOAD of `n` instructions from index `i` on stores; the store ends at index 4,095 (log 66). -/
def loadWords (i n : Nat) (bs : List Byte) : List Word := ((chunkNats 8 n bs).map (BitVec.ofNat 64)).take (4096 - i)

theorem length_loadWords (i n : Nat) (bs : List Byte) : (loadWords i n bs).length = min (4096 - i) n := by simp [loadWords]

theorem getD_loadWords {i n k : Nat} (hk : k < n) (hi : i + k ≤ 4095) (bs : List Byte) :
    (loadWords i n bs).getD k 0 = BitVec.ofNat 64 (leNat ((bs.drop (8 * k)).take 8)) := by
  have here : k < 4096 - i := by omega
  simp [loadWords, chunkNats_eq, List.getElem?_take_of_lt here, hk]

/-- The state in which a LOAD has filled the store. -/
def State.storeLoaded (s : State) (q a i n : Nat) : State :=
  let r := s.read (Reader.ofCore q) (coreBase q + a) (8 * n)
  { r.st with store := Tab.setList r.st.store (storeKey q i) (loadWords i n r.bytes) }

theorem exec_seqLoad_busy (h : (s.seq q).st ≠ .idle) (a i n : Nat) : exec (.seqLoad q a i n) s = .next (s.seqControl q .SEQ_BUSY) :=
  congrArg _ (if_pos h)

theorem exec_seqLoad_idle (h : (s.seq q).st = .idle) (a i n : Nat) : exec (.seqLoad q a i n) s = .next ((s.storeLoaded q a i n).seqControl q .OK) :=
  congrArg _ (if_neg (not_not.mpr h))

theorem State.seq_storeLoaded (s : State) (q a i n j : Nat) : (s.storeLoaded q a i n).seq j = s.seq j :=
  State.seq_congr (s.read_seqs (Reader.ofCore q) (coreBase q + a) (8 * n)) j

theorem State.storeAt_storeLoaded (s : State) (q a i n p k : Nat) : (s.storeLoaded q a i n).storeAt p k =
    if storeKey q i ≤ storeKey p k ∧ storeKey p k < storeKey q i + min (4096 - i) n then
      ((loadWords i n (s.read (Reader.ofCore q) (coreBase q + a) (8 * n)).bytes).getD (storeKey p k - storeKey q i) 0).toNat
    else s.storeAt p k := by
  have kept : (s.read (Reader.ofCore q) (coreBase q + a) (8 * n)).st.store = s.store := (State.read_kept rfl (Kept.refl 6243 s)).only .store rfl
  rw [State.storeAt, State.storeLoaded, Tab.get_setList, length_loadWords, kept]
  split <;> rfl

/-- Within its range a LOAD stores the words that it read. -/
theorem State.storeAt_storeLoaded_in (s : State) {q a i n k : Nat} (hk : k < n) (hi : i + k ≤ 4095) : (s.storeLoaded q a i n).storeAt q (i + k) =
    leNat (((s.read (Reader.ofCore q) (coreBase q + a) (8 * n)).bytes.drop (8 * k)).take 8) % 2 ^ 64 := by
  have at' : storeKey q (i + k) - storeKey q i = k := by simp only [storeKey]; omega
  rw [State.storeAt_storeLoaded, if_pos (by simp only [storeKey]; omega), at', getD_loadWords hk hi, BitVec.toNat_ofNat]

/-- Beside its range a LOAD leaves every store alone. -/
theorem State.storeAt_storeLoaded_out (s : State) {q a i n p k : Nat} (hk : k ≤ 4095) (hout : p ≠ q ∨ k < i ∨ i + n ≤ k) :
    (s.storeLoaded q a i n).storeAt p k = s.storeAt p k := by
  rw [State.storeAt_storeLoaded, if_neg (by simp only [storeKey]; omega)]

theorem exec_seqStart_busy (h : (s.seq q).st ≠ .idle) (i : Nat) : exec (.seqStart q i) s = .next (s.seqControl q .SEQ_BUSY) := congrArg _ (if_pos h)

theorem exec_seqStart_idle (h : (s.seq q).st = .idle) (i : Nat) : exec (.seqStart q i) s = .next ((s.seqControl q .OK).seqGoto q i) :=
  congrArg _ (if_neg (not_not.mpr h))

/-- The sequencer as a STOP leaves it (R305; log 68). -/
def Sequencer.stopped (x : Sequencer) : Sequencer :=
  if x.st = .stalled then { x with stopping := true, control := .OK } else { x with st := .idle, cause := .none, control := .OK }

theorem exec_seqStop (s : State) (q : Nat) : exec (.seqStop q) s = .next (s.setSeq q (s.seq q).stopped) :=
  congrArg Host.Outcome.next (apply_ite (s.setSeq q) _ _ _).symm

theorem exec_seqResumeRetry_busy (h : (s.seq q).st ≠ .faulted) : exec (.seqResumeRetry q) s = .next (s.seqControl q .SEQ_BUSY) :=
  congrArg _ (if_pos h)

theorem exec_seqResumeRetry_faulted (h : (s.seq q).st = .faulted) :
    exec (.seqResumeRetry q) s = .next ((s.seqControl q .OK).seqGoto q (s.seq q).fault.pc) := congrArg _ (if_neg (not_not.mpr h))

/-- The sequencer as a RESUME by skip takes it up: the done counter of an op's fault has risen (R313). -/
def Sequencer.skipped (x : Sequencer) : Sequencer := { if x.fault.instruction then x else x.done x.fault.done with control := .OK }

theorem exec_seqResumeSkip_busy (h : (s.seq q).st ≠ .faulted) : exec (.seqResumeSkip q) s = .next (s.seqControl q .SEQ_BUSY) :=
  congrArg _ (if_pos h)

theorem exec_seqResumeSkip_faulted (h : (s.seq q).st = .faulted) :
    exec (.seqResumeSkip q) s = .next ((s.setSeq q (s.seq q).skipped).seqGoto q ((s.seq q).fault.pc + 1)) := congrArg _ (if_neg (not_not.mpr h))

theorem Sequencer.get_done (x : Sequencer) (d k : Nat) :
    Tab.get (x.done d).d k = if k = d then min 0xFFFF (Tab.get x.d k + 1) else Tab.get x.d k := by
  rw [Sequencer.done, Tab.get_set]
  split
  · next hk => rw [hk]
  · rfl

theorem Sequencer.skipped_eq (x : Sequencer) : x.skipped = { x with control := .OK, d := x.skipped.d } := by
  rw [Sequencer.skipped]
  split <;> rfl

theorem Sequencer.get_skipped (x : Sequencer) (k : Nat) :
    Tab.get x.skipped.d k = if x.fault.instruction = false ∧ k = x.fault.done then min 0xFFFF (Tab.get x.d k + 1) else Tab.get x.d k := by
  cases hx : x.fault.instruction
  · simpa [Sequencer.skipped, hx] using x.get_done x.fault.done k
  · simp [Sequencer.skipped, hx]

end Hearth

/-! ### Ops that end (R308, R312) -/

theorem State.opFault_running {s : State} {q : Nat} (h : (s.seq q).st = .running) (r : FaultRec) : s.opFault q r = s.enterFault q r := by
  simp only [State.opFault, h]

section Completion

variable {s : State} {q i : Nat} {r : Ran} (hr : (s.seq q).ran[i]? = some r) (hfree : r.hold = false)

include hr hfree

theorem exec_opCompletion_ok (hok : r.status = .OK) (hst : (s.seq q).st ≠ .stalled) : ∃ t, exec (.opCompletion q i) s = .next t
    ∧ s.onlySeq t q ({ s.seq q with ran := (s.seq q).ran.eraseIdx i }.done r.op.d) := by
  refine ⟨_, ?_, (s.onlySeq_setSeq q { s.seq q with ran := (s.seq q).ran.eraseIdx i }).trans (State.onlySeq_setSeq _ q _)⟩
  show Host.Outcome.next (s.opCompletion q i) = _
  have set := s.seq_setSeq_same q { s.seq q with ran := (s.seq q).ran.eraseIdx i }
  simp only [State.opCompletion, hr, hfree, Bool.false_eq_true, if_false, hok, if_true, set]
  rw [State.release_not_stalled]
  rw [State.seq_setSeq_same]
  exact hst

/-- The record of the fault of an op (Table 10-7). -/
def State.opRecord (s : State) (q : Nat) (r : Ran) : FaultRec :=
  { pc := r.op.pc, status := r.status, reason := r.reason, done := r.op.d, word := r.op.word, opAddr := r.addr, stamp := s.cClock (coreDie q), seqs := s.opSeqs r.op }

theorem exec_opCompletion_faults (hbad : r.status ≠ .OK) (hstays : abandons r.status = false) (hst : (s.seq q).st = .running) :
    exec (.opCompletion q i) s = .next ((s.setSeq q { s.seq q with ran := (s.seq q).ran.eraseIdx i }).enterFault q (s.opRecord q r)) := by
  show Host.Outcome.next (s.opCompletion q i) = _
  have set := s.seq_setSeq_same q { s.seq q with ran := (s.seq q).ran.eraseIdx i }
  simp only [State.opCompletion, hr, hfree, Bool.false_eq_true, if_false, hbad]
  rw [State.opFault_running (by rw [set]; exact hst), State.release_not_stalled]
  · rfl
  · rw [State.seq_enterFault_same hstays]
    simp [Sequencer.faulted]

end Completion

/-- Settles O37: each command finds its sequencer in the state that R305 asks for, or reports SEQ_BUSY; an op that has run leaves the list of those that have. -/
theorem hearthCommandsAndOpCompletion : Obligations.HearthCommandsAndOpCompletion := by
  intro s q x busy
  have refuses := s.onlySeq_seqControl q .SEQ_BUSY
  refine ⟨fun h => ⟨fun a i n => ⟨_, exec_seqLoad_busy h a i n, refuses⟩, fun i => ⟨_, exec_seqStart_busy h i, refuses⟩⟩,
    fun h => ⟨⟨_, exec_seqResumeRetry_busy h, refuses⟩, ⟨_, exec_seqResumeSkip_busy h, refuses⟩⟩, fun h a i n r hr => ?load, fun h hstop hfault i hn => ?start,
    ?stop, fun h hstop hfault hn => ?retry, fun h hstop hfault hn => ?skip, fun i r hr hfree hok hst => ?completes, fun i r hr hfree hbad hstays hst => ?faults⟩
  case load =>
    subst hr
    obtain ⟨frame, others, here⟩ := (s.storeLoaded q a i n).onlySeq_seqControl q .OK
    have store (p k : Nat) : ((s.storeLoaded q a i n).seqControl q .OK).storeAt p k = (s.storeLoaded q a i n).storeAt p k := rfl
    exact ⟨_, exec_seqLoad_idle h a i n, rfl, by rw [here, State.seq_storeLoaded], fun j hj => (others j hj).trans (s.seq_storeLoaded q a i n j),
      fun k hk hi => (store _ _).trans (s.storeAt_storeLoaded_in hk hi), fun p k hk hout => (store _ _).trans (s.storeAt_storeLoaded_out hk hout)⟩
  case start => exact ⟨_, exec_seqStart_idle h i, s.onlySeq_setSeq_seqGoto (y := { x with control := .OK }) hstop hfault hn⟩
  case stop => exact ⟨_, exec_seqStop s q, s.onlySeq_setSeq q _⟩
  case retry => exact ⟨_, exec_seqResumeRetry_faulted h, s.onlySeq_setSeq_seqGoto (y := { x with control := .OK }) hstop hfault hn⟩
  case skip =>
    have same := x.skipped_eq
    obtain ⟨frame, others, here⟩ := s.onlySeq_setSeq_seqGoto (y := x.skipped) (by rw [same]; exact hstop) (by rw [same]; exact hfault) hn
    refine ⟨_, exec_seqResumeSkip_faulted h, frame, others, ?_, fun k => ?_⟩
    · rw [here, same]
      rfl
    · rw [here]
      exact x.get_skipped k
  case completes =>
    obtain ⟨t, done, frame, others, here⟩ := exec_opCompletion_ok hr hfree hok hst
    exact ⟨t, done, frame, others, by rw [here]; rfl, fun k => by rw [here]; exact Sequencer.get_done _ _ k⟩
  case faults =>
    have faulted := State.seq_enterFault_same (s := s.setSeq q { x with ran := x.ran.eraseIdx i }) (r := s.opRecord q r) hstays q
    rw [State.seq_setSeq_same] at faulted
    refine ⟨_, exec_opCompletion_faults hr hfree hbad hstays hst, ?_⟩
    rw [faulted]
    exact ⟨rfl, rfl, rfl, rfl, rfl, rfl⟩

end Sys2Proof.Machine
end

section
/-! PROOFS of the family 10_queues_sequencers_and_sync: packets of the cluster work queue (R299 to R304, Table 10-1). -/

namespace Sys2Proof.Machine

/-! ### The queue of one cluster -/

theorem State.queue_setQueue_same (s : State) (g : Nat) (x : Queue) : (s.setQueue g x).queue g = x := by rw [State.queue_setQueue, if_pos rfl]

theorem State.queue_setQueue_other (s : State) {g j : Nat} (x : Queue) (h : j ≠ g) : (s.setQueue g x).queue j = s.queue j := by
  rw [State.queue_setQueue, if_neg h]

theorem State.queue_congr {s t : State} (h : t.wq = s.wq) (g : Nat) : t.queue g = s.queue g := congrArg (Tab.get · g) h

theorem State.onlySeq.queue {s t : State} {q : Nat} {y : Sequencer} (h : s.onlySeq t q y) (g : Nat) : t.queue g = s.queue g := by
  obtain ⟨frame, -, -⟩ := h
  exact State.queue_congr (congrArg State.wq frame) g

theorem State.reg_raise (s : State) (k : Code) (x : Src) (l : List Nat) (c : Code) (a : Nat) : (s.raise k x l c).reg a = s.reg a := rfl

theorem State.length_inFlight_raise (s : State) (k : Code) (x : Src) (l : List Nat) (c : Code) :
    (s.raise k x l c).ev.inFlight.length = s.ev.inFlight.length + 1 := List.length_append

/-! ### A packet that is written (R299, R300, R302) -/

/-- The notice of R302 interrupts the Hearth core and is counted. -/
theorem State.levelNotice_eq (s : State) (g n : Nat) :
    s.levelNotice g n = { s with wq := (s.levelNotice g n).wq, regs := (s.levelNotice g n).regs } := by
  rw [State.levelNotice]
  split <;> rfl

theorem State.queue_levelNotice (s : State) (g n : Nat) : ∃ k, (s.levelNotice g n).queue g = { s.queue g with hearthIrq := k } := by
  rw [State.levelNotice]
  split
  · exact ⟨_, s.queue_hearthIrq g⟩
  · exact ⟨_, rfl⟩

theorem State.queue_levelNotice_other (s : State) {g j : Nat} (h : j ≠ g) (n : Nat) : (s.levelNotice g n).queue j = s.queue j := by
  rw [State.levelNotice]
  split
  · exact s.queue_hearthIrq_other h
  · rfl

theorem State.reg_levelNotice (s : State) (g n : Nat) {a : Nat} (ha : a ≠ dieReg (g / 9) Reg.WQ_LEVEL_TOTAL) : (s.levelNotice g n).reg a = s.reg a := by
  rw [State.levelNotice]
  split
  · exact (State.reg_bump _ _ _ _).trans (if_neg ha)
  · rfl

section Write

variable (s : State) (g : Nat) (p : Packet)

/-- The state in which a packet finds a free stage: the wait of a held writer has been counted (log 4). -/
def State.wqWaited : State :=
  if (s.queue g).held.any (·.writer == p.writer) then s.bumpWait (dieReg (g / 9) Reg.WQ_HOLD_CYCLES_TOTAL) else s

/-- The state in which the queue sees the packet's tag: its writer is no longer held, and the notice is given. -/
def State.wqEntered : State :=
  (s.setQueue g { s.queue g with held := (s.queue g).held.filter (·.writer != p.writer) }).levelNotice g (s.queue g).pkts.length

theorem State.wqWaited_eq : s.wqWaited g p = { s with fresh := (s.wqWaited g p).fresh, regs := (s.wqWaited g p).regs } := by
  rw [State.wqWaited]
  split <;> rfl

theorem State.wqWaited_kept : Kept 8291 s (s.wqWaited g p) := by
  rw [State.wqWaited]
  split
  · exact State.bumpWait_kept rfl (Kept.refl _ s)
  · exact Kept.refl _ s

theorem State.reg_wqWaited {a : Nat} (ha : a ≠ dieReg (g / 9) Reg.WQ_HOLD_CYCLES_TOTAL) : (s.wqWaited g p).reg a = s.reg a := by
  rw [State.wqWaited]
  split
  · exact (State.reg_bump _ _ _ _).trans (if_neg ha)
  · rfl

theorem State.queue_wqWaited (j : Nat) : (s.wqWaited g p).queue j = s.queue j := State.queue_congr (by rw [State.wqWaited_eq]) j

theorem State.wqEntered_eq : s.wqEntered g p = { s with wq := (s.wqEntered g p).wq, regs := (s.wqEntered g p).regs } := by
  conv_lhs => rw [State.wqEntered, State.levelNotice_eq]
  rfl

theorem State.queue_wqEntered : ((s.wqEntered g p).queue g).pkts = (s.queue g).pkts
    ∧ ((s.wqEntered g p).queue g).held = (s.queue g).held.filter (·.writer != p.writer) := by
  obtain ⟨k, hk⟩ := (s.setQueue g { s.queue g with held := (s.queue g).held.filter (·.writer != p.writer) }).queue_levelNotice g (s.queue g).pkts.length
  rw [State.wqEntered, hk, State.queue_setQueue_same]
  exact ⟨rfl, rfl⟩

theorem State.queue_wqEntered_other {j : Nat} (h : j ≠ g) : (s.wqEntered g p).queue j = s.queue j :=
  (State.queue_levelNotice_other _ h _).trans (s.queue_setQueue_other _ h)

theorem State.reg_wqEntered {a : Nat} (ha : a ≠ dieReg (g / 9) Reg.WQ_LEVEL_TOTAL) : (s.wqEntered g p).reg a = s.reg a :=
  State.reg_levelNotice _ g _ ha

/-- The state in which the writer of a packet is held (R299). -/
def State.wqHeld : State :=
  if (s.queue g).held.any (·.writer == p.writer) then s else s.setQueue g { s.queue g with held := (s.queue g).held ++ [{ writer := p.writer }] }

theorem State.wqHeld_eq : s.wqHeld g p = { s with wq := (s.wqHeld g p).wq } := by
  rw [State.wqHeld]
  split <;> rfl

theorem State.queue_wqHeld : ((s.wqHeld g p).queue g).pkts = (s.queue g).pkts := by
  rw [State.wqHeld]
  split
  · rfl
  · rw [State.queue_setQueue_same]

variable {s g p}

theorem State.wqWrite_full (h : 32 ≤ (s.queue g).pkts.length) (held done : State → State) : s.wqWrite g p held done = held (s.wqHeld g p) := if_pos h

theorem State.wqWrite_room (h : (s.queue g).pkts.length < 32) (held done : State → State) :
    s.wqWrite g p held done = done ((s.wqWaited g p).wqAccept g p) := if_neg (Nat.not_le.mpr h)

/-- The packet with the writer that the queue sets in its tag (Table 10-1). -/
def Packet.written (p : Packet) : Packet := { p with tag := tagSetWriter p.tag p.writer }

theorem State.wqAccept_takes (h : tagRefused p.written.tag = false) : s.wqAccept g p =
    (s.wqEntered g p).setQueue g { (s.wqEntered g p).queue g with pkts := ((s.wqEntered g p).queue g).pkts ++ [p.written] } :=
  if_neg (by rw [Packet.written] at h; simp [h])

theorem State.wqAccept_refuses (h : tagRefused p.written.tag = true) : s.wqAccept g p =
    ((s.wqEntered g p).bump (dieReg (g / 9) Reg.WQ_REFUSED_TOTAL) 1).raise .WQ_PACKET_INVALID (Src.ofCluster g) [g, p.writer, p.written.tag] := if_pos h

/-- A packet that is taken joins the end of its queue, and only that queue changes. -/
theorem State.queue_wqAccept_takes (h : tagRefused p.written.tag = false) :
    ((s.wqAccept g p).queue g).pkts = (s.queue g).pkts ++ [p.written] ∧ ((s.wqAccept g p).queue g).held = (s.queue g).held.filter (·.writer != p.writer)
      ∧ ∀ j, j ≠ g → (s.wqAccept g p).queue j = s.queue j := by
  obtain ⟨pkts, held⟩ := s.queue_wqEntered g p
  rw [State.wqAccept_takes h]
  refine ⟨?_, ?_, fun j hj => (State.queue_setQueue_other _ _ hj).trans (s.queue_wqEntered_other g p hj)⟩
  · rw [State.queue_setQueue_same, pkts]
  · rw [State.queue_setQueue_same]
    exact held

end Write

/-! ### PUSH (R299, Table 10-4) -/

/-- The packet that a Hearth core writes. -/
def hearthPacket (l : List Byte) (tag : Nat) : Packet := { flits := (List.range (64 * tagFlits tag)).map (fun i => l.getD i 0), tag := tag, writer := 8 }

theorem hearthPacket_tag (l : List Byte) (tag : Nat) : (hearthPacket l tag).written.tag = tagSetWriter tag 8 := rfl

theorem exec_push_hearth (s : State) (g : Nat) (l : List Byte) (tag : Nat) :
    exec (.push (.hearth g l tag)) s = .next (s.wqWrite g (hearthPacket l tag) id id) := rfl

section Push

variable {s : State} {q : Nat} {f : SeqFields}

/-- The packet that a PUSH writes from the flits that it has read. -/
def State.pushPacket (s : State) (q : Nat) (f : SeqFields) (bs : List Byte) : Packet :=
  { flits := bs, tag := ((s.seq q).get f.b).toNat % 2 ^ 32, writer := coreIndex q, doneAddr := ((s.seq q).get f.c).toNat, pc := (s.seq q).pc
    word := s.storeAt q (s.seq q).pc }

theorem State.pushPacket_tag (s : State) (q : Nat) (f : SeqFields) (bs : List Byte) :
    (s.pushPacket q f bs).written.tag = tagSetWriter (((s.seq q).get f.b).toNat % 2 ^ 32) (coreIndex q) := rfl

theorem exec_push_seq (h : s.issuing q 0x0D f) {r : Rd}
    (hr : s.read (Reader.ofCore q) (s.loc ((s.seq q).get f.a).toNat) (64 * tagFlits (((s.seq q).get f.b).toNat % 2 ^ 32)) = r) (hok : r.code = .OK) :
    exec (.push (.seq q f)) s = .next (
      r.st.wqWrite (q / 8) (s.pushPacket q f r.bytes) (·.stall q .push) (·.seqGoto q ((s.seq q).pc + 1))) := by
  subst hr
  exact (h.next _ _).trans (congrArg _ (if_pos hok))

end Push

/-! ### POP (R301) -/

section Best

variable {dest : Nat} {ok : Packet → Bool}

theorem bestPacket_none {l : List Packet} (h : ∀ p ∈ l, ¬ (tagDest p.tag = dest ∧ ok p = true)) : bestPacket dest ok l = none := by
  induction l with
  | nil => rfl
  | cons p l ih =>
    obtain ⟨hp, hl⟩ := List.forall_mem_cons.mp h
    rw [bestPacket, if_neg hp, ih hl]

theorem bestPacket_mem {l : List Packet} {y : Packet} (h : bestPacket dest ok l = some y) : y ∈ l ∧ tagDest y.tag = dest ∧ ok y = true := by
  induction l with
  | nil => cases h
  | cons p l ih =>
    rw [bestPacket] at h
    split at h
    · next hp =>
      split at h
      · next z hz =>
        split at h <;> cases h
        · exact ⟨List.mem_cons_of_mem p (ih hz).1, (ih hz).2⟩
        · exact ⟨List.mem_cons_self, hp⟩
      · cases h
        exact ⟨List.mem_cons_self, hp⟩
    · exact ⟨List.mem_cons_of_mem p (ih h).1, (ih h).2⟩

/-- The first of the packets of the highest priority is read before every other. -/
theorem bestPacket_first {a b : List Packet} {p : Packet} (hp : tagDest p.tag = dest ∧ ok p = true)
    (ha : ∀ y ∈ a, tagDest y.tag = dest ∧ ok y = true → tagPriority y.tag < tagPriority p.tag)
    (hb : ∀ y ∈ b, tagDest y.tag = dest ∧ ok y = true → tagPriority y.tag ≤ tagPriority p.tag) : bestPacket dest ok (a ++ p :: b) = some p := by
  induction a with
  | nil =>
    rw [List.nil_append, bestPacket, if_pos hp]
    cases hbest : bestPacket dest ok b with
    | none => rfl
    | some y =>
      obtain ⟨hy, hmatch⟩ := bestPacket_mem hbest
      exact if_neg (Nat.not_lt.mpr (hb y hy hmatch))
  | cons z a ih =>
    obtain ⟨hz, hrest⟩ := List.forall_mem_cons.mp ha
    rw [List.cons_append, bestPacket, ih hrest]
    split
    · next hmatch => exact if_pos (hz hmatch)
    · rfl

end Best

theorem State.popPacket_none {s : State} {g c : Nat} (h : ∀ p ∈ (s.queue g).pkts, ¬ (tagDest p.tag = c ∧ tagKind p.tag ≠ 2)) : s.popPacket g c = none :=
  bestPacket_none fun p hp hx => h p hp ⟨hx.1, bne_iff_ne.mp hx.2⟩

theorem State.popPacket_first {s : State} {g c : Nat} {a b : List Packet} {p : Packet} (hl : (s.queue g).pkts = a ++ p :: b)
    (hp : tagDest p.tag = c ∧ tagKind p.tag ≠ 2) (ha : ∀ y ∈ a, tagDest y.tag = c ∧ tagKind y.tag ≠ 2 → tagPriority y.tag < tagPriority p.tag)
    (hb : ∀ y ∈ b, tagDest y.tag = c ∧ tagKind y.tag ≠ 2 → tagPriority y.tag ≤ tagPriority p.tag) : s.popPacket g c = some p := by
  have mine (y : Packet) : (tagDest y.tag = c ∧ (tagKind y.tag != 2) = true) ↔ (tagDest y.tag = c ∧ tagKind y.tag ≠ 2) := by rw [bne_iff_ne]
  rw [State.popPacket, hl]
  exact bestPacket_first ((mine p).mpr hp) (fun y hy h => ha y hy ((mine y).mp h)) (fun y hy h => hb y hy ((mine y).mp h))

theorem Sequencer.get_putAll (ws : List Word) (x : Sequencer) {r : Nat} (hr : 0 < r) (j : Nat) :
    (x.putAll r ws).get j = if r ≤ j ∧ j < r + ws.length then ws.getD (j - r) 0#64 else x.get j := by
  induction ws generalizing x r with
  | nil => exact (if_neg (by simp)).symm
  | cons w ws ih =>
    rw [Sequencer.putAll, ih _ (Nat.succ_pos r), Sequencer.get_put, List.length_cons]
    obtain hj | rfl | hj := lt_trichotomy j r
    · rw [if_neg (by omega), if_neg (by omega), if_neg (by omega)]
    · rw [if_neg (by omega), if_pos ⟨rfl, hr.ne'⟩, if_pos (by omega)]
      simp
    · have step : j - r = j - (r + 1) + 1 := by omega
      by_cases hin : j < r + 1 + ws.length
      · rw [if_pos ⟨hj, hin⟩, if_pos (by omega), step]
        rfl
      · rw [if_neg (by omega), if_neg (by omega), if_neg (by omega)]

theorem Sequencer.putAll_eq (ws : List Word) (x : Sequencer) (r : Nat) : x.putAll r ws = { x with a := (x.putAll r ws).a } := by
  induction ws generalizing x r with
  | nil => rfl
  | cons w ws ih => rw [Sequencer.putAll, ih, Sequencer.put_eq]

theorem Sequencer.takePacket_eq (x : Sequencer) (r : Nat) (p : Packet) :
    x.takePacket r p = { x with a := (x.takePacket r p).a, pbuf := p.flits.drop 64 ++ x.pbuf.drop (p.flits.drop 64).length } := by
  simp only [Sequencer.takePacket]
  rw [Sequencer.putAll_eq, Sequencer.put_eq]

theorem Sequencer.get_onAt (x : Sequencer) (n r : Nat) : (x.onAt n).get r = x.get r := rfl

theorem Sequencer.get_congr {x y : Sequencer} (h : y.a = x.a) (j : Nat) : y.get j = x.get j := by
  rw [Sequencer.get, h]
  rfl

theorem getD_chunkWords {n k : Nat} (hk : k < n) (bs : List Byte) :
    ((chunkNats 8 n bs).map (BitVec.ofNat 64)).getD k 0#64 = BitVec.ofNat 64 (leNat ((bs.drop (8 * k)).take 8)) := by
  simp [chunkNats_eq, hk]

/-- A word of flit 0 is that of the packet. -/
theorem take_drop_flit {k : Nat} (hk : k < 8) (bs : List Byte) : ((bs.take 64).drop (8 * k)).take 8 = (bs.drop (8 * k)).take 8 := by
  rw [List.drop_take, List.take_take, min_eq_left (by omega)]

theorem Sequencer.takePacket_regs (x : Sequencer) (r : Nat) (p : Packet) :
    (x.takePacket r p).a = ((x.put r (BitVec.ofNat 64 p.tag)).putAll 8 ((chunkNats 8 8 (p.flits.take 64)).map (BitVec.ofNat 64))).a := by
  simp only [Sequencer.takePacket]

theorem Sequencer.get_takePacket_tag (x : Sequencer) {r : Nat} (hr : 0 < r) (h8 : r < 8) (p : Packet) : (x.takePacket r p).get r = BitVec.ofNat 64 p.tag := by
  rw [Sequencer.get_congr (x.takePacket_regs r p), Sequencer.get_putAll _ _ (by decide), if_neg (by omega), Sequencer.get_put, if_pos ⟨rfl, hr.ne'⟩]

theorem Sequencer.get_takePacket_flit (x : Sequencer) (r : Nat) (p : Packet) {k : Nat} (hk : k < 8) :
    (x.takePacket r p).get (8 + k) = BitVec.ofNat 64 (leNat ((p.flits.drop (8 * k)).take 8)) := by
  have words : ((chunkNats 8 8 (p.flits.take 64)).map (BitVec.ofNat 64)).length = 8 := by simp
  rw [Sequencer.get_congr (x.takePacket_regs r p), Sequencer.get_putAll _ _ (by decide), if_pos (by rw [words]; omega), Nat.add_sub_cancel_left,
    getD_chunkWords hk, take_drop_flit hk]

theorem Sequencer.takePacket_pbuf (x : Sequencer) (r : Nat) (p : Packet) : (x.takePacket r p).pbuf.take (p.flits.length - 64) = p.flits.drop 64 := by
  rw [Sequencer.takePacket_eq, ← List.length_drop]
  exact List.take_left

section Pop

variable {s : State} {q : Nat} {f : SeqFields} (h : s.issuing q 0x0B f)

include h

theorem exec_pop_nothing (hp : s.popPacket (q / 8) (coreIndex q) = none) : exec (.pop q f) s = .next (s.stall q .pop) := by
  refine (h.next _ _).trans ?_
  simp only [hp]

theorem exec_pop_takes {p : Packet} (hp : s.popPacket (q / 8) (coreIndex q) = some p) : exec (.pop q f) s = .next (
    ((s.setQueue (q / 8) { s.queue (q / 8) with pkts := (s.queue (q / 8)).pkts.erase p }).setSeq q ((s.seq q).takePacket f.a p)).seqGoto q
      ((s.seq q).pc + 1)) := by
  refine (h.next _ _).trans ?_
  simp only [hp]

end Pop

/-! ### Flush and held writers (R303, R304) -/

theorem exec_wqFlush (s : State) (g mask : Nat) : exec (.wqFlush g mask) s = .next (
    ((s.setQueue g { s.queue g with pkts := (s.queue g).pkts.filter (fun p => !bitOf mask (tagDest p.tag)) }).bump (dieReg (g / 9) Reg.WQ_FLUSH_DISCARD_TOTAL)
      ((s.queue g).pkts.filter (fun p => bitOf mask (tagDest p.tag))).length).raise .WQ_FLUSHED (Src.ofCluster g)
        [g, ((s.queue g).pkts.filter (fun p => bitOf mask (tagDest p.tag))).length]) := rfl

/-- The queue with every held record of a writer reported. -/
def Queue.reportHeld (x : Queue) (w : Nat) : Queue := { x with held := x.held.map (fun h => if h.writer = w then { h with reported := true } else h) }

theorem exec_wqWriteHeld_none {s : State} {g w : Nat} (h : ∀ x ∈ (s.queue g).held, x.writer = w → x.reported = true) :
    exec (.wqWriteHeld g w) s = .next s := by
  have none : (s.queue g).held.find? (fun h => h.writer == w && !h.reported) = none := List.find?_eq_none.mpr fun x hx => by simpa using h x hx
  show execWqWriteHeld g w s = _
  simp only [execWqWriteHeld, none]

theorem exec_wqWriteHeld_reports {s : State} {g w : Nat} (h : ∃ x ∈ (s.queue g).held, x.writer = w ∧ x.reported = false) :
    exec (.wqWriteHeld g w) s = .next ((s.setQueue g ((s.queue g).reportHeld w)).raise .WQ_WRITE_HELD (Src.ofCluster g) [g, w]) := by
  obtain ⟨x, hx, hw, hr⟩ := h
  obtain ⟨y, hy⟩ := Option.isSome_iff_exists.mp ((List.find?_isSome (p := fun h => h.writer == w && !h.reported)).mpr ⟨x, hx, by simp [hw, hr]⟩)
  show execWqWriteHeld g w s = _
  simp only [execWqWriteHeld, hy]
  rfl

theorem Queue.reportHeld_reported (x : Queue) (w : Nat) : ∀ h ∈ (x.reportHeld w).held, h.writer = w → h.reported = true := by
  intro h hh hw
  obtain ⟨y, -, rfl⟩ := List.mem_map.mp hh
  split at hw
  · next hy => rw [if_pos hy]
  · next hy => exact absurd hw hy

/-- Settles O38: a write finds the queue full or a free stage, a POP takes the first packet of the highest priority, and a report marks its record. -/
theorem workQueuePackets : Obligations.WorkQueuePackets := by
  refine ⟨?hearth, ?push, ?pop, ?flush, fun s g w hall => exec_wqWriteHeld_none hall, ?report⟩
  case hearth =>
    intro s g l tag x
    refine ⟨fun hfull hnew => ?held, fun hroom htag => ?taken, fun hroom htag => ?refused⟩
    case held =>
      have held : s.wqWrite g (hearthPacket l tag) id id = s.setQueue g { x with held := x.held ++ [{ writer := 8 }] } :=
        (State.wqWrite_full hfull _ _).trans (if_neg (ne_true_of_eq_false hnew))
      exact ⟨_, (exec_push_hearth s g l tag).trans (congrArg _ held), rfl, fun j hj => s.queue_setQueue_other _ hj, s.queue_setQueue_same g _⟩
    case taken =>
      rw [← hearthPacket_tag l] at htag
      obtain ⟨pkts, held, others⟩ := State.queue_wqAccept_takes (s := s.wqWaited g (hearthPacket l tag)) (g := g) htag
      simp only [State.queue_wqWaited] at pkts held others
      exact ⟨_, _, (exec_push_hearth s g l tag).trans (congrArg _ (State.wqWrite_room hroom _ _)), pkts, hearthPacket_tag l tag, rfl, by simp [Packet.written, hearthPacket], held, others⟩
    case refused =>
      rw [← hearthPacket_tag l] at htag
      refine ⟨_, (exec_push_hearth s g l tag).trans (congrArg _ ((State.wqWrite_room hroom _ _).trans (State.wqAccept_refuses htag))), ?_, ?_, ?_⟩
      · exact (State.queue_wqEntered _ _ _).1.trans (congrArg Queue.pkts (State.queue_wqWaited _ _ _ _))
      · rw [State.reg_raise, State.reg_bump, if_pos rfl, State.reg_wqEntered _ _ _ (by simp), State.reg_wqWaited _ _ _ (by simp)]
      · have ev : ((s.wqWaited g (hearthPacket l tag)).wqEntered g (hearthPacket l tag)).ev = s.ev := by rw [State.wqEntered_eq, State.wqWaited_eq]
        exact (State.length_inFlight_raise _ _ _ _ _).trans (congrArg (fun e : Events => e.inFlight.length + 1) ev)
  case push =>
    intro s q f h x tag r hr hok
    have kept : Kept 6243 s r.st := hr ▸ State.read_kept rfl (Kept.refl _ s)
    have queue (g : Nat) : r.st.queue g = s.queue g := State.queue_congr (kept.only .wq rfl) g
    refine ⟨fun hfull => ?held, fun hroom htag hn => ?taken⟩
    case held =>
      have full : 32 ≤ (r.st.queue (q / 8)).pkts.length := by rwa [queue]
      have stalls := (r.st.wqHeld (q / 8) (s.pushPacket q f r.bytes)).onlySeq_stall q .push
      have same : (r.st.wqHeld (q / 8) (s.pushPacket q f r.bytes)).seq q = s.seq q := (State.seq_congr (by rw [State.wqHeld_eq]) q).trans (kept.seq rfl q)
      refine ⟨_, (exec_push_seq h hr hok).trans (congrArg _ (State.wqWrite_full full _ _)), by rw [stalls.here, same], ?_⟩
      exact (congrArg Queue.pkts (stalls.queue _)).trans ((State.queue_wqHeld _ _ _).trans (congrArg _ (queue _)))
    case taken =>
      have room : (r.st.queue (q / 8)).pkts.length < 32 := by rwa [queue]
      have accepted : tagRefused (s.pushPacket q f r.bytes).written.tag = false := by rw [State.pushPacket_tag]; exact htag
      obtain ⟨pkts, -, -⟩ := State.queue_wqAccept_takes (s := r.st.wqWaited (q / 8) (s.pushPacket q f r.bytes)) (g := q / 8) accepted
      rw [State.queue_wqWaited, queue] at pkts
      have entered : Kept 8291 r.st ((r.st.wqWaited (q / 8) (s.pushPacket q f r.bytes)).wqAccept (q / 8) (s.pushPacket q f r.bytes)) :=
        State.wqAccept_kept rfl (r.st.wqWaited_kept _ _)
      have goes := h.goes_on ((entered.seq rfl q).trans (kept.seq rfl q))
        (State.holdsOpcode_congr (entered.only .store rfl) (State.holdsOpcode_congr (kept.only .store rfl) hn))
      exact ⟨_, _, (exec_push_seq h hr hok).trans (congrArg _ (State.wqWrite_room room _ _)), goes.here,
        (congrArg Queue.pkts (goes.queue _)).trans pkts, s.pushPacket_tag q f r.bytes, rfl, rfl, rfl⟩
  case pop =>
    intro s q f h x l mine
    refine ⟨fun hnone => ?nothing, fun a p b hl hp ha hb hn => ?takes⟩
    case nothing =>
      obtain ⟨frame, -, here⟩ := s.onlySeq_stall q .pop
      exact ⟨_, exec_pop_nothing h (State.popPacket_none hnone), frame, here⟩
    case takes =>
      have taken := State.popPacket_first hl hp ha hb
      have quiet := x.takePacket_eq f.a p
      have goes := (s.setQueue (q / 8) { s.queue (q / 8) with pkts := l.erase p }).onlySeq_setSeq_seqGoto (q := q) (y := x.takePacket f.a p)
        (by rw [quiet]; exact h.quiet.1) (by rw [quiet]; exact h.quiet.2) hn
      refine ⟨_, exec_pop_takes h taken, by rw [goes.frame]; rfl, fun g hg => ?_, ?_, ?_⟩
      · rw [goes.queue, State.queue_setQueue_other _ _ hg]
      · rw [goes.queue, State.queue_setQueue_same]
      rw [goes.here]
      exact ⟨rfl, rfl, fun h0 h8 => (Sequencer.get_onAt _ _ _).trans (x.get_takePacket_tag h0 h8 p),
        fun _ k hk => (Sequencer.get_onAt _ _ _).trans (x.get_takePacket_flit f.a p hk), x.takePacket_pbuf f.a p⟩
  case flush =>
    intro s g mask
    exact ⟨_, _, exec_wqFlush s g mask, s.queue_setQueue_same g _, fun j hj => s.queue_setQueue_other _ hj, rfl, rfl, rfl, rfl⟩
  case report =>
    intro s g w hsome
    have queue : (((s.setQueue g ((s.queue g).reportHeld w)).raise .WQ_WRITE_HELD (Src.ofCluster g) [g, w])).queue g = (s.queue g).reportHeld w :=
      s.queue_setQueue_same g _
    refine ⟨_, _, exec_wqWriteHeld_reports hsome, ?_, ?_, rfl, rfl, rfl⟩
    · rw [queue]
      rfl
    · rw [queue]
      exact (s.queue g).reportHeld_reported w

end Sys2Proof.Machine
end

section
/-! PROOFS of the family 10_queues_sequencers_and_sync: synchronisation objects (R314 to R316, Table 10-8). -/

namespace Sys2Proof.Machine

/-! ### Sequencers move without abandoning the step -/

/-- From `s` to `t` sequencers go on, stop or fault, and no step is abandoned: beside them only the counters of faults, events, clocks and interrupts of Hearth cores change. -/
structure State.Moves (s t : State) : Prop where
  frame : t = { s with seqs := t.seqs, regs := t.regs, wq := t.wq, time := t.time, fresh := t.fresh, ev := t.ev }
  counters : ∀ a, (∀ d, a ≠ dieReg d Reg.SEQ_FAULT_TOTAL) → t.reg a = s.reg a
  events : ∃ l, t.ev.inFlight = s.ev.inFlight ++ l

theorem State.Moves.refl (s : State) : s.Moves s := ⟨rfl, fun _ _ => rfl, [], by simp⟩

theorem State.Moves.trans {s t u : State} (h : s.Moves t) (k : t.Moves u) : s.Moves u := by
  obtain ⟨l, hl⟩ := h.events
  obtain ⟨m, hm⟩ := k.events
  refine ⟨?_, fun a ha => (k.counters a ha).trans (h.counters a ha), l ++ m, by rw [hm, hl, List.append_assoc]⟩
  rw [k.frame, h.frame]

theorem State.Moves.sync {s t : State} (h : s.Moves t) : t.sync = s.sync := by rw [h.frame]
theorem State.Moves.flight {s t : State} (h : s.Moves t) : t.flight = s.flight := by rw [h.frame]
theorem State.Moves.store {s t : State} (h : s.Moves t) : t.store = s.store := by rw [h.frame]

theorem State.moves_setSeq (s : State) (q : Nat) (x : Sequencer) : s.Moves (s.setSeq q x) := ⟨rfl, fun _ _ => rfl, [], (List.append_nil _).symm⟩

theorem State.moves_enterFault (s : State) {r : FaultRec} (h : abandons r.status = false) (q : Nat) : s.Moves (s.enterFault q r) :=
  ⟨State.enterFault_eq h q, fun _ ha => State.reg_enterFault h q (ha _), (State.inFlight_enterFault h q).imp' (fun e => [e]) fun _ he => he⟩

/-- No fault waits for the end of a stall. -/
def State.unfaulted (s : State) : Prop := ∀ j, (s.seq j).faultPending = false

theorem State.unfaulted_setSeq {s : State} (h : s.unfaulted) {q : Nat} {x : Sequencer} (hx : x.faultPending = false) : (s.setSeq q x).unfaulted := by
  intro j
  rw [State.seq_setSeq]
  split
  · exact hx
  · exact h j

theorem State.unfaulted_enterFault {s : State} (h : s.unfaulted) {r : FaultRec} (hr : abandons r.status = false) (q : Nat) : (s.enterFault q r).unfaulted := by
  intro j
  rw [State.seq_congr (State.seqs_enterFault hr q)]
  exact State.unfaulted_setSeq h (x := (s.seq q).faulted r) rfl j

/-- An instruction fault moves its sequencer alone. -/
theorem State.instrFault_moves {s : State} (h : s.unfaulted) {c : Code} (hc : abandons c = false) (q pc a : Nat) :
    s.Moves (s.instrFault q pc c a) ∧ (s.instrFault q pc c a).unfaulted ∧ ∀ j, j ≠ q → (s.instrFault q pc c a).seq j = s.seq j := by
  have stays : abandons (s.instrRecord q pc c a).status = false := hc
  exact ⟨s.moves_enterFault stays q, State.unfaulted_enterFault h stays q, fun _ hj => State.seq_enterFault_other stays hj⟩

/-- What a sequencer does that goes on and for which no fault waits: only it moves, and no fault then waits. -/
theorem State.seqGoto_moves {s : State} (h : s.unfaulted) (q pc : Nat) :
    s.Moves (s.seqGoto q pc) ∧ (s.seqGoto q pc).unfaulted ∧ ∀ j, j ≠ q → (s.seqGoto q pc).seq j = s.seq j := by
  have unfaulted : ¬ (s.seq q).faultPending = true := ne_true_of_eq_false (h q)
  have set (x : Sequencer) (hx : x.faultPending = false) :
      s.Moves (s.setSeq q x) ∧ (s.setSeq q x).unfaulted ∧ ∀ j, j ≠ q → (s.setSeq q x).seq j = s.seq j :=
    ⟨s.moves_setSeq q x, State.unfaulted_setSeq h hx, fun _ hj => s.seq_setSeq_other x hj⟩
  simp only [State.seqGoto, if_neg unfaulted]
  split
  · exact set _ (h q)
  · split
    · exact State.instrFault_moves h rfl q _ _
    · split
      · obtain ⟨moves, quiet, others⟩ := set { s.seq q with pc := pc } (h q)
        obtain ⟨moves', quiet', others'⟩ := State.instrFault_moves quiet (c := .SEQ_OPCODE) rfl q pc 0
        exact ⟨moves.trans moves', quiet', fun j hj => (others' j hj).trans (others j hj)⟩
      · exact set _ (h q)

/-! ### Waiters that are woken (R308, R315) -/

/-- The sequencer of core `q` waits for an object, and can go on behind its WAIT. -/
def State.waits (s : State) (q : Nat) : Prop :=
  (s.seq q).st = .stalled ∧ (s.seq q).cause = .wait ∧ (s.seq q).stopping = false ∧ s.holdsOpcode q ((s.seq q).pc + 1)

theorem State.wake_waits {s : State} (h : s.unfaulted) {q : Nat} (hq : s.waits q) : (s.wake (.seq q)).seq q = (s.seq q).onAt ((s.seq q).pc + 1) := by
  obtain ⟨hst, hcause, hstop, hn⟩ := hq
  have goes : s.wake (.seq q) = s.seqGoto q ((s.seq q).pc + 1) := if_pos ⟨hst, hcause⟩
  rw [goes]
  exact (State.onlySeq_seqGoto hstop (h q) hn).here

theorem State.wake_moves {s : State} (h : s.unfaulted) (w : Who) : s.Moves (s.wake w) ∧ (s.wake w).unfaulted := by
  cases w with
  | seq q =>
    simp only [State.wake]
    split
    · exact ⟨(s.seqGoto_moves h q _).1, (s.seqGoto_moves h q _).2.1⟩
    · exact ⟨.refl s, h⟩
  | hearth g => exact ⟨.refl s, h⟩
  | dma g => exact ⟨.refl s, h⟩

/-- A wake leaves alone every sequencer that it does not name, and one that does not stall. -/
theorem State.seq_wake_of {s : State} (h : s.unfaulted) {w : Who} {q : Nat} (hq : w ≠ .seq q ∨ (s.seq q).st ≠ .stalled) : (s.wake w).seq q = s.seq q := by
  cases w with
  | seq p =>
    simp only [State.wake]
    split
    · next hw =>
      refine (s.seqGoto_moves h p _).2.2 q ?_
      rintro rfl
      exact hq.elim (fun hne => hne rfl) (fun hst => hst hw.1)
    · rfl
  | hearth g => rfl
  | dma g => rfl

theorem State.wakeAll_moves {s : State} (h : s.unfaulted) (l : List Waiter) : s.Moves (s.wakeAll l) := by
  induction l generalizing s with
  | nil => exact .refl s
  | cons w l ih =>
    obtain ⟨moves, unfaulted⟩ := s.wake_moves h w.who
    exact moves.trans (ih unfaulted)

theorem State.seq_wakeAll_not_stalled {s : State} (h : s.unfaulted) (l : List Waiter) {q : Nat} (hq : (s.seq q).st ≠ .stalled) :
    (s.wakeAll l).seq q = s.seq q := by
  induction l generalizing s with
  | nil => rfl
  | cons w l ih =>
    have here : (s.wake w.who).seq q = s.seq q := State.seq_wake_of h (.inr hq)
    exact (ih (s.wake_moves h w.who).2 (by rwa [here])).trans here

/-- A sequencer that is among those woken goes on behind its WAIT. -/
theorem State.seq_wakeAll_woken {s : State} (h : s.unfaulted) {l : List Waiter} {q : Nat} (hl : ∃ w ∈ l, w.who = .seq q) (hq : s.waits q) :
    (s.wakeAll l).seq q = (s.seq q).onAt ((s.seq q).pc + 1) := by
  induction l generalizing s with
  | nil => simp at hl
  | cons w l ih =>
    obtain ⟨moves, unfaulted⟩ := s.wake_moves h w.who
    by_cases hw : w.who = .seq q
    · have here := State.wake_waits h hq
      rw [← hw] at here
      exact (State.seq_wakeAll_not_stalled unfaulted l (by rw [here]; exact nofun)).trans here
    · have here : (s.wake w.who).seq q = s.seq q := State.seq_wake_of h (.inl hw)
      have still : (s.wake w.who).waits q := by
        obtain ⟨hst, hcause, hstop, hn⟩ := hq
        rw [State.waits, here]
        exact ⟨hst, hcause, hstop, State.holdsOpcode_congr moves.store hn⟩
      have among : ∃ w ∈ l, w.who = .seq q := by
        obtain ⟨v, hv, hwho⟩ := hl
        exact ⟨v, (List.mem_cons.mp hv).resolve_left fun e => hw (e ▸ hwho), hwho⟩
      exact (ih unfaulted among still).trans (by rw [here])

/-! ### POST and SET (R315) -/

theorem State.obj_congr {s t : State} (h : t.sync = s.sync) (n : Nat) : t.obj n = s.obj n := congrArg (Tab.get · n) h

section Take

variable {s : State} (h : s.unfaulted) (n v : Nat)

/-- The object has taken its value, and the waiters whose condition holds have left it. -/
def State.objTaken (s : State) (n v : Nat) : State :=
  (s.setObj n { s.obj n with val := v, waiters := (s.obj n).waiters.filter (fun w => !w.holds v) }).bump (memReg (objMdie n) Reg.SYNC_POST_TOTAL) 1

include h

theorem State.objTake_moves : (s.objTaken n v).Moves (s.objTake n v) := State.wakeAll_moves (s := s.objTaken n v) h _

theorem State.obj_objTake_same : (s.objTake n v).obj n = { s.obj n with val := v, waiters := (s.obj n).waiters.filter (fun w => !w.holds v) } :=
  (State.obj_congr (State.objTake_moves h n v).sync n).trans ((State.obj_setObj _ _ _ _).trans (if_pos rfl))

theorem State.obj_objTake_other {j : Nat} (hj : j ≠ n) : (s.objTake n v).obj j = s.obj j :=
  (State.obj_congr (State.objTake_moves h n v).sync j).trans ((State.obj_setObj _ _ _ _).trans (if_neg hj))

theorem State.reg_objTake : (s.objTake n v).reg (memReg (objMdie n) Reg.SYNC_POST_TOTAL)
    = min (2 ^ 64 - 1) (s.reg (memReg (objMdie n) Reg.SYNC_POST_TOTAL) + 1) := by
  refine ((State.objTake_moves h n v).counters _ fun d => ?_).trans ((State.reg_bump _ _ _ _).trans (if_pos rfl))
  show 0x40000 + 0x4000 * objMdie n + 0x818 ≠ 0x80000 + 0xE000 * d + 0x638
  omega

theorem State.seq_objTake_woken {w : Waiter} (hw : w ∈ (s.obj n).waiters) (hv : w.holds v = true) {q : Nat} (hq : w.who = .seq q) (hwaits : s.waits q) :
    (s.objTake n v).seq q = (s.seq q).onAt ((s.seq q).pc + 1) :=
  State.seq_wakeAll_woken (s := s.objTaken n v) h ⟨w, List.mem_filter.mpr ⟨hw, hv⟩, hq⟩ hwaits

end Take

/-! ### WAIT (R315, R316) -/

section Wait

variable {s : State} {n v : Nat} {eq : Bool} {who : Who} (ha : (s.obj n).allocated = true) (m : Option SyncMsg)

include ha

theorem State.objWait_satisfied (hv : waitHolds eq (s.obj n).val v = true) : s.objWait n v eq who m = s.wake who := by
  simp [State.objWait, ha, hv]

theorem State.objWait_recorded (hv : waitHolds eq (s.obj n).val v = false) : s.objWait n v eq who m =
    (s.setObj n { s.obj n with waiters := (s.obj n).waiters ++ [{ who := who, target := v, eq := eq }] }).bump (memReg (objMdie n) Reg.SYNC_WAIT_TOTAL) 1 := by
  simp [State.objWait, ha, hv]

theorem State.objPost_allocated (δ req : Nat) : s.objPost n δ req m = s.objTake n (((s.obj n).val + δ) % 2 ^ 32) := if_pos ha

theorem State.objSet_allocated (req : Nat) : s.objSet n v req m = s.objTake n (v % 2 ^ 32) := if_pos ha

end Wait

theorem waitHolds_eq_iff {c v : Nat} (hc : c < 2 ^ 32) (hv : v < 2 ^ 32) : waitHolds true c v = true ↔ c = v := by
  rw [waitHolds, if_pos rfl, beq_iff_eq, Nat.mod_eq_of_lt hc, Nat.mod_eq_of_lt hv]

theorem waitHolds_ge_iff {c v : Nat} (hv : v < 2 ^ 32) : waitHolds false c v = true ↔ (c + 2 ^ 32 - v) % 2 ^ 32 < 2 ^ 31 := by
  rw [waitHolds, if_neg Bool.false_ne_true, decide_eq_true_iff, sub32, Nat.mod_eq_of_lt hv]

/-! ### An object that is not ALLOCATED (R314) -/

section Refuse

variable {s : State} {n : Nat} (ha : (s.obj n).allocated = false)

include ha

theorem State.objPost_free (δ req : Nat) (m : Option SyncMsg) : s.objPost n δ req m = s.syncRefuse n req m := by simp [State.objPost, ha]

theorem State.objSet_free (v req : Nat) (m : Option SyncMsg) : s.objSet n v req m = s.syncRefuse n req m := by simp [State.objSet, ha]

theorem State.objWait_free (v : Nat) (eq : Bool) (who : Who) (m : Option SyncMsg) : s.objWait n v eq who m = s.syncRefuse n who.number m := by
  simp [State.objWait, ha]

end Refuse

/-- The refusal has been counted and reported. -/
def State.syncRefused (s : State) (n req : Nat) : State :=
  (s.bump (memReg (objMdie n) Reg.SYNC_REFUSED_TOTAL) 1).raise .SYNC_REFUSED (Src.ofMdie (objMdie n)) [n, req]

/-- The record with which a refusal faults the sequencer of a message. -/
def State.refusal (s : State) (n q : Nat) (y : SyncMsg) : FaultRec :=
  { pc := y.pc, status := .SYNC_FREE, instruction := true, word := y.word, opAddr := n, stamp := s.cClock (coreDie q) }

theorem State.opFault_moves (s : State) {r : FaultRec} (h : abandons r.status = false) (q : Nat) : s.Moves (s.opFault q r) := by
  simp only [State.opFault]
  split
  · exact s.moves_enterFault h q
  · split
    · exact .refl s
    · exact s.moves_setSeq _ _
  · exact .refl s

theorem State.syncRefuse_seq (s : State) (n req : Nat) {y : SyncMsg} {q : Nat} (hq : y.who = .seq q) : s.syncRefuse n req (some y) =
    if y.kind = .wait ∧ (s.seq q).st = .stalled ∧ (s.seq q).cause = .wait then (s.syncRefused n req).enterFault q (s.refusal n q y)
    else (s.syncRefused n req).opFault q (s.refusal n q y) := by
  simp only [State.syncRefuse, hq]
  rfl

theorem State.syncRefuse_moves (s : State) (n req : Nat) (y : SyncMsg) : (s.syncRefused n req).Moves (s.syncRefuse n req (some y)) := by
  cases hq : y.who with
  | seq q =>
    rw [State.syncRefuse_seq s n req hq]
    split
    · exact State.moves_enterFault _ rfl q
    · exact State.opFault_moves _ rfl q
  | hearth g => simp only [State.syncRefuse, hq]; exact .refl _
  | dma g => simp only [State.syncRefuse, hq]; exact .refl _

/-- A refusal faults the running sequencer that sent the message. -/
theorem State.syncRefuse_running (s : State) (n req : Nat) {y : SyncMsg} {q : Nat} (hq : y.who = .seq q) (hst : (s.seq q).st = .running) :
    (s.syncRefuse n req (some y)).seq q = (s.seq q).faulted (s.refusal n q y) := by
  rw [State.syncRefuse_seq s n req hq, if_neg (by simp [hst]), State.opFault_running (s := s.syncRefused n req) hst]
  exact State.seq_enterFault_same (s := s.syncRefused n req) rfl q

theorem State.reg_syncRefuse (s : State) (n req : Nat) (y : SyncMsg) : (s.syncRefuse n req (some y)).reg (memReg (objMdie n) Reg.SYNC_REFUSED_TOTAL)
    = min (2 ^ 64 - 1) (s.reg (memReg (objMdie n) Reg.SYNC_REFUSED_TOTAL) + 1) := by
  refine ((s.syncRefuse_moves n req y).counters _ fun d => ?_).trans ((State.reg_bump _ _ _ _).trans (if_pos rfl))
  show 0x40000 + 0x4000 * objMdie n + 0x828 ≠ 0x80000 + 0xE000 * d + 0x638
  omega

theorem State.inFlight_syncRefuse (s : State) (n req : Nat) (y : SyncMsg) :
    ∃ l e, (s.syncRefuse n req (some y)).ev.inFlight = s.ev.inFlight ++ e :: l ∧ e.code = .SYNC_REFUSED ∧ e.args = [n, req] := by
  obtain ⟨l, hl⟩ := (s.syncRefuse_moves n req y).events
  exact ⟨l, _, hl.trans (List.append_assoc _ _ _), rfl, rfl⟩

/-! ### Messages that arrive (R317) -/

section Arrival

variable {s : State} {i : Nat} {y : SyncMsg} (hy : s.flight[i]? = some y)

include hy

theorem State.flightAt_kind {k : SyncKind} (hk : y.kind = k) : s.flightAt i k = some y := by simp [State.flightAt, hy, hk]

theorem exec_syncPost_flight (hk : y.kind = .post) :
    exec (.syncPost (.flight i)) s = .next ((s.landed i).objPost y.obj y.val y.who.number (some y)) := by
  show execSyncPost (.flight i) s = _
  simp only [execSyncPost, State.flightAt_kind hy hk]

theorem exec_syncSet_flight (hk : y.kind = .set) :
    exec (.syncSetArrival (.flight i)) s = .next ((s.landed i).objSet y.obj y.val y.who.number (some y)) := by
  show execSyncSetArrival (.flight i) s = _
  simp only [execSyncSetArrival, State.flightAt_kind hy hk]

theorem exec_syncWait_flight (hk : y.kind = .wait) :
    exec (.syncWaitArrival (.flight i)) s = .next ((s.landed i).objWait y.obj y.val y.eq y.who (some y)) := by
  show execSyncWaitArrival (.flight i) s = _
  simp only [execSyncWaitArrival, State.flightAt_kind hy hk]

/-- A message to an object that is not ALLOCATED is refused, whatever its kind. -/
theorem exec_flight_refused (ha : (s.obj y.obj).allocated = false) {c : Instr}
    (hc : (c, y.kind) ∈ [(Instr.syncPost (.flight i), SyncKind.post), (Instr.syncSetArrival (.flight i), .set), (Instr.syncWaitArrival (.flight i), .wait)]) :
    exec c s = .next ((s.landed i).syncRefuse y.obj y.who.number (some y)) := by
  have free : ((s.landed i).obj y.obj).allocated = false := ha
  simp only [List.mem_cons, Prod.mk.injEq, List.not_mem_nil, or_false] at hc
  obtain ⟨rfl, hk⟩ | ⟨rfl, hk⟩ | ⟨rfl, hk⟩ := hc
  · rw [exec_syncPost_flight hy hk, State.objPost_free free]
  · rw [exec_syncSet_flight hy hk, State.objSet_free free]
  · rw [exec_syncWait_flight hy hk, State.objWait_free free]

end Arrival

section Hearth

variable (s : State) (g : Nat) {n : Nat} (v : Nat) (e : Bool)

theorem exec_syncPost_hearth (hn : n < 4096) : exec (.syncPost (.hearth g n v e)) s = .next (s.objPost n v (Who.hearth g).number) := by
  show Host.Outcome.next (s.hearthPost g n v) = _
  rw [State.hearthPost, if_pos (.inr hn), Nat.mod_eq_of_lt (by omega)]

theorem exec_syncSet_hearth : exec (.syncSetArrival (.hearth g n v e)) s = .next (s.objSet n v (Who.hearth g).number) := rfl

theorem exec_syncWait_hearth : exec (.syncWaitArrival (.hearth g n v e)) s = .next (s.objWait n v e (.hearth g)) := rfl

end Hearth

/-! ### A long wait (R316) -/

section Long

variable {s : State} {n i : Nat}

theorem exec_syncWaitLong_none (h : (s.obj n).waiters[i]? = none) : exec (.syncWaitLong n i) s = .next s := by
  show execSyncWaitLong n i s = _
  simp only [execSyncWaitLong, h]

theorem exec_syncWaitLong_some {w : Waiter} (h : (s.obj n).waiters[i]? = some w) : exec (.syncWaitLong n i) s = .next (
    if w.reported then s
    else (s.setObj n { s.obj n with waiters := (s.obj n).waiters.set i { w with reported := true } }).raise .SYNC_WAIT_LONG (Src.ofMdie (objMdie n))
      [n, w.target, (s.obj n).val, w.who.number]) := by
  show execSyncWaitLong n i s = _
  simp only [execSyncWaitLong, h]

end Long

/-- Settles O45: a message lands at its object, which takes it, records it or refuses it; what follows moves sequencers alone. -/
theorem synchronisationObjects : Obligations.SynchronisationObjects := by
  refine ⟨?flight, ?hearth, fun c v hc hv => ⟨waitHolds_eq_iff hc hv, waitHolds_ge_iff hv⟩, ?long⟩
  case flight =>
    intro s i y hy hquiet x moved
    have quiet : (s.landed i).unfaulted := hquiet
    have landed (ha : x.allocated = true) : ((s.landed i).obj y.obj).allocated = true := ha
    have take (hx : x.allocated = true) (v : Nat) : moved ((s.landed i).objTake y.obj v) v := by
      have here := State.obj_objTake_same quiet y.obj v
      exact ⟨(State.objTake_moves quiet y.obj v).flight, by rw [here], by rw [here]; exact hx, fun j hj => State.obj_objTake_other quiet y.obj v hj,
        by rw [here]; rfl, State.reg_objTake quiet y.obj v,
        fun w hw hv q hq hst hcause hstop hn => State.seq_objTake_woken quiet y.obj v hw hv hq ⟨hst, hcause, hstop, hn⟩⟩
    refine ⟨fun hk ha => ?post, fun hk ha => ?set, fun hk ha hv => ?recorded, fun hk ha hv => ?satisfied, fun ha c k hc hk => ?refused⟩
    case post =>
      exact ⟨_, (exec_syncPost_flight hy hk).trans (congrArg _ (State.objPost_allocated (landed ha) _ _ _)), take ha _⟩
    case set =>
      exact ⟨_, (exec_syncSet_flight hy hk).trans (congrArg _ (State.objSet_allocated (landed ha) _ _)), take ha _⟩
    case recorded =>
      have unmet : waitHolds y.eq ((s.landed i).obj y.obj).val y.val = false := hv
      exact ⟨_, (exec_syncWait_flight hy hk).trans (congrArg _ (State.objWait_recorded (landed ha) _ unmet)), rfl, (State.obj_setObj _ _ _ _).trans (if_pos rfl), rfl,
        (State.reg_bump _ _ _ _).trans (if_pos rfl)⟩
    case satisfied =>
      have met : waitHolds y.eq ((s.landed i).obj y.obj).val y.val = true := hv
      obtain ⟨moves, -⟩ := (s.landed i).wake_moves quiet y.who
      refine ⟨_, (exec_syncWait_flight hy hk).trans (congrArg _ (State.objWait_satisfied (landed ha) _ met)), moves.flight, moves.sync,
        fun q hq hst hcause hstop hn => ?_⟩
      rw [hq]
      exact State.wake_waits quiet ⟨hst, hcause, hstop, hn⟩
    case refused =>
      subst hk
      have moves := (s.landed i).syncRefuse_moves y.obj y.who.number y
      obtain ⟨l, e, events, code, args⟩ := (s.landed i).inFlight_syncRefuse y.obj y.who.number y
      refine ⟨_, exec_flight_refused hy ha hc, moves.flight, moves.sync, (s.landed i).reg_syncRefuse y.obj y.who.number y,
        ⟨l, e, y.who.number, events, code, args, fun q hq => by rw [hq]; rfl⟩, fun q hq hst => ?_⟩
      have faulted := (s.landed i).syncRefuse_running y.obj y.who.number hq hst
      rw [faulted]
      exact ⟨rfl, rfl, rfl⟩
  case hearth =>
    intro s g n v e hn hquiet ha
    refine ⟨⟨_, (exec_syncPost_hearth s g v e hn).trans (congrArg _ (State.objPost_allocated ha _ _ _)), ?_⟩,
      ⟨_, (exec_syncSet_hearth s g v e).trans (congrArg _ (State.objSet_allocated ha _ _)), ?_⟩, fun hv =>
      ⟨_, (exec_syncWait_hearth s g v e).trans (congrArg _ (State.objWait_recorded ha _ hv)), (State.obj_setObj _ _ _ _).trans (if_pos rfl)⟩,
      fun hv => (exec_syncWait_hearth s g v e).trans (congrArg _ (State.objWait_satisfied ha _ hv))⟩
    · rw [State.obj_objTake_same hquiet]
    · rw [State.obj_objTake_same hquiet]
  case long =>
    intro s n i
    refine ⟨exec_syncWaitLong_none, fun w hw => ⟨fun hrep => ?reported, fun hnew => ?reports⟩⟩
    case reported => rw [exec_syncWaitLong_some hw, if_pos hrep]
    case reports =>
      refine ⟨_, _, (exec_syncWaitLong_some hw).trans (congrArg _ (if_neg (ne_true_of_eq_false hnew))), ?_, rfl, rfl, rfl⟩
      exact (State.obj_setObj _ _ _ _).trans (if_pos rfl)

end Sys2Proof.Machine
end

section
/-! PROOFS of the family 10_queues_sequencers_and_sync: frames for this module and frames in transit (R324, R332, R333, R342, R348, R349, Tables 11-4 and 11-10). -/

namespace Sys2Proof.Machine

/-! ### What leaves by a port (R335) -/

/-- A frame that enters a port's transmit queue, or leaves, changes ports, counters and what has been sent. -/
theorem State.transmit_eq (s : State) (p : Nat) (f : Frame) : s.transmit p f =
    { s with fresh := (s.transmit p f).fresh, regs := (s.transmit p f).regs
             fab := { s.fab with ports := (s.transmit p f).fab.ports, sent := (s.transmit p f).fab.sent } } := by
  simp only [State.transmit]
  split <;> rfl

/-- Register `a` is none of those that count what leaves by a port. -/
def offPort (a : Nat) : Prop := ∀ p, a ≠ portReg p Reg.GP_TX_FRAMES_TOTAL ∧ a ≠ portReg p Reg.GP_CREDIT_WAIT_TOTAL

/-- The fabric's counters lie below the first port's, which repeat with the ports' stride. -/
theorem offPort_fabReg {r : Nat} (hr : r < 0x800) (tx : r ≠ 0x38) (wait : r ≠ 0x60) : offPort (fabReg r) := fun p =>
  show 0x30000 + r ≠ 0x30000 + 0x800 * p + 0x38 ∧ 0x30000 + r ≠ 0x30000 + 0x800 * p + 0x60 by omega

theorem State.reg_transmit (s : State) (p : Nat) (f : Frame) {a : Nat} (ha : offPort a) : (s.transmit p f).reg a = s.reg a := by
  obtain ⟨tx, wait⟩ := ha p
  simp only [State.transmit]
  split
  · exact (State.reg_bump _ _ _ _).trans (if_neg tx)
  · exact (State.reg_bump _ _ _ _).trans (if_neg wait)

theorem State.transmit_departs {s : State} {p : Nat} {f : Frame} (hq : (s.port p).queue = []) (hc : (Frame.seal f).units ≤ (s.port p).credit (Frame.seal f).cls) :
    s.transmit p f = s.depart p (Frame.seal f) := if_pos (by rw [hq]; simpa using hc)

theorem State.answer_exit {s : State} {f : Frame} {x : Nat} (h : s.exit f.dst = some x) : s.answer f = s.transmit x f := by
  simp [State.answer, State.sendOut, h]

theorem State.answer_cases (s : State) (f : Frame) : s.answer f = s ∨ ∃ x, s.answer f = s.transmit x f := by
  cases h : s.exit f.dst with
  | none => exact .inl (by simp [State.answer, State.sendOut, h])
  | some x => exact .inr ⟨x, State.answer_exit h⟩

theorem State.answer_eq (s : State) (f : Frame) : s.answer f =
    { s with fresh := (s.answer f).fresh, regs := (s.answer f).regs
             fab := { s.fab with ports := (s.answer f).fab.ports, sent := (s.answer f).fab.sent } } := by
  obtain h | ⟨x, h⟩ := s.answer_cases f
  · rw [h]
  · rw [h]
    exact s.transmit_eq x f

theorem State.reg_answer (s : State) (f : Frame) {a : Nat} (ha : offPort a) : (s.answer f).reg a = s.reg a := by
  obtain h | ⟨x, h⟩ := s.answer_cases f
  · rw [h]
  · rw [h, s.reg_transmit x f ha]

theorem State.exit_congr {s t : State} (hr : t.fab.route = s.fab.route) (hp : t.fab.ports = s.fab.ports) (m : Nat) : t.exit m = s.exit m := by
  have port : t.port = s.port := funext fun n => congrArg (Tab.get · n) hp
  rw [State.exit, State.exit, State.portUp, State.portUp, hr, port]

/-! ### Frames that arrive (R333, R335) -/

theorem State.owe_eq (s : State) (p : Nat) (f : Frame) : s.owe p f =
    { s with fresh := (s.owe p f).fresh, regs := (s.owe p f).regs, fab := { s.fab with ports := (s.owe p f).fab.ports, sent := (s.owe p f).fab.sent } } := by
  simp only [State.owe]
  split
  · rfl
  · conv_lhs => rw [State.transmit_eq]
    rfl

theorem State.reg_owe (s : State) (p : Nat) (f : Frame) {a : Nat} (ha : offPort a) : (s.owe p f).reg a = s.reg a := by
  simp only [State.owe]
  split
  · rfl
  · exact State.reg_transmit _ p _ ha

/-- A frame has been received on a port: it is counted, and its units are owed. -/
def State.received (s : State) (p : Nat) (f : Frame) : State := (s.bump (portReg p Reg.GP_RX_FRAMES_TOTAL) 1).owe p f

theorem State.received_part (s : State) (p : Nat) (f : Frame) : (s.received p f).part = s.part := by rw [State.received, State.owe_eq]; rfl
theorem State.received_mem (s : State) (p : Nat) (f : Frame) : (s.received p f).mem = s.mem := by rw [State.received, State.owe_eq]; rfl
theorem State.received_sync (s : State) (p : Nat) (f : Frame) : (s.received p f).sync = s.sync := by rw [State.received, State.owe_eq]; rfl

/-- A frame of kind `kind`, for this module, arrives on a port in UP. -/
def State.arrives (s : State) (p : Nat) (f : Frame) (kind : Nat) : Prop :=
  s.portUp p = true ∧ f.kind = kind ∧ p < 16 ∧ (f.dst = s.moduleId ∨ s.fab.idValid = false)

section Arrive

variable {s : State} {p : Nat} {f : Frame} {kind : Nat}

theorem State.arrive_none (h : s.portUp p = false ∨ f.kind ≠ kind ∨ 16 ≤ p ∨ (f.dst ≠ s.moduleId ∧ s.fab.idValid = true)) (k : State → State) :
    s.arrive p f kind k = s := by
  refine if_neg fun hx => ?_
  obtain ⟨up, here, range, dst⟩ := hx
  obtain h | h | h | ⟨h, valid⟩ := h
  · exact Bool.false_ne_true (h.symm.trans up)
  · exact h here
  · omega
  · simp [h, valid] at dst

variable (h : s.arrives p f kind)

include h

theorem State.arrive_received (k : State → State) : s.arrive p f kind k =
    if Frame.ok f then k (s.received p f) else (s.received p f).bump (portReg p Reg.GP_FCRC_FAIL_TOTAL) 1 := by
  obtain ⟨up, here, range, dst⟩ := h
  exact if_pos ⟨up, here, range, dst.imp_right (by simp)⟩

theorem State.arrive_dropped (hbad : Frame.ok f = false) (k : State → State) :
    s.arrive p f kind k = (s.received p f).bump (portReg p Reg.GP_FCRC_FAIL_TOTAL) 1 :=
  (State.arrive_received h k).trans (if_neg (ne_true_of_eq_false hbad))

theorem State.arrive_served (hok : Frame.ok f = true) (k : State → State) : s.arrive p f kind k = k (s.received p f) :=
  (State.arrive_received h k).trans (if_pos hok)

end Arrive

/-! ### The service of request frames (R349) -/

/-- A frame that passes the checks at ingress is served; the first check that fails is answered with a NACK. -/
def State.checked (t : State) (p : Nat) (f : Frame) (k : State → State) : State :=
  if (t.ingress p f).code ≠ .OK then t.nack f (t.ingress p f).code (t.ingress p f).window else k t

/-- The answer to an access that gave a status. -/
def State.acked (t : State) (f : Frame) (c : Code) (window : Nat) : State :=
  if c = .OK then t.answer (replyTo f fkAck (ackBody .OK f window)) else t.nack f c window

section Service

variable (s : State) (p : Nat) (f : Frame)

theorem exec_tileWrite : exec (.tileWrite p f) s = .next (s.arrive p f fkWrite fun t => t.checked p f fun t =>
    (t.write (Src.port p) {} f.target f.body).st.acked f (t.write (Src.port p) {} f.target f.body).code (t.ingress p f).window) := rfl

theorem exec_tileWriteMasked : exec (.tileWriteMasked p f) s = .next (s.arrive p f fkMasked fun t => t.checked p f fun t =>
    (t.writeAll (Src.port p) (maskBlocks f)).st.acked f (t.writeAll (Src.port p) (maskBlocks f)).code (t.ingress p f).window) := rfl

/-- The additions of a frame's payloads that are well formed are counted for the collective they belong to (R367). -/
def State.arrivedFrom (t : State) (f : Frame) (l : List (List Byte)) : State :=
  l.foldl (fun s b => if (payloadFault b).isSome then s else s.countArrived f.src (framePayload f.addr b).target (framePayload f.addr b).words) t

theorem exec_atomicAddFrame : exec (.atomicAddFrame p f) s = .next (s.arrive p f fkAtomic fun t => t.checked p f fun t =>
    let x := t.payloads (Src.port p) f.addr .OK (cut 72 (f.count + 1) f.body)
    (x.1.arrivedFrom f (cut 72 (f.count + 1) f.body)).acked f x.2 (t.ingress p f).window) := rfl

theorem exec_postFrame : exec (.postFrame p f) s = .next (s.arrive p f fkPost fun t => t.checked p f fun t =>
    (t.objPost f.addr (fieldAt f.body 0 4) (reqModule f.src)).acked f (if (t.obj f.addr).allocated then .OK else .SYNC_FREE) (t.ingress p f).window) := rfl

theorem exec_readReq : exec (.readReq p f) s = .next (s.arrive p f fkRead fun t => t.checked p f fun t =>
    let r := t.read { mdie := ((locate t.part.variant f.target).mdie).getD 0, src := Src.port p } f.target 4096
    if r.code = .OK then r.st.answer (replyTo f fkTile r.bytes) else r.st.nack f r.code (t.ingress p f).window) := rfl

variable {s p f}

theorem State.checked_passes {t : State} (hg : (t.ingress p f).code = .OK) (k : State → State) : t.checked p f k = k t := if_neg (not_not.mpr hg)

theorem State.checked_refuses {t : State} (hg : (t.ingress p f).code ≠ .OK) (k : State → State) :
    t.checked p f k = t.nack f (t.ingress p f).code (t.ingress p f).window := if_pos hg

/-- The request frames that are served: each is checked in the same way. -/
theorem exec_of_requestFrame {c : Instr} {k : Nat} (hc : (c, k) ∈ [(Instr.tileWrite p f, 1), (Instr.tileWriteMasked p f, 2), (Instr.atomicAddFrame p f, 3),
    (Instr.readReq p f, 4), (Instr.postFrame p f, 6)]) (s : State) : ∃ service, exec c s = .next (s.arrive p f k fun t => t.checked p f service) := by
  simp only [List.mem_cons, Prod.mk.injEq, List.not_mem_nil, or_false] at hc
  obtain ⟨rfl, rfl⟩ | ⟨rfl, rfl⟩ | ⟨rfl, rfl⟩ | ⟨rfl, rfl⟩ | ⟨rfl, rfl⟩ := hc
  exacts [⟨_, exec_tileWrite s p f⟩, ⟨_, exec_tileWriteMasked s p f⟩, ⟨_, exec_atomicAddFrame s p f⟩, ⟨_, exec_readReq s p f⟩, ⟨_, exec_postFrame s p f⟩]

end Service

/-! ### The checks at ingress (Table 11-10) -/

section Ingress

variable {s : State} {p : Nat} {f : Frame}

theorem State.ingress_not_enumerated (h : s.fab.idValid = false) : s.ingress p f = { code := .FABRIC_NOT_ENUMERATED } := if_pos (by rw [h]; rfl)

theorem find_opened_none (h : ∀ e ∈ s.fab.wins, e.2.st = .opened → e.2.named f = false) : s.fab.wins.find? (fun e => e.2.st == .opened && e.2.named f) = none :=
  List.find?_eq_none.mpr fun e he => by simpa using h e he

theorem find_used_none (h : ∀ e ∈ s.fab.wins, e.2.used = true → e.2.named f = false) : s.fab.wins.find? (fun e => e.2.used && e.2.named f) = none :=
  List.find?_eq_none.mpr fun e he => by simpa using h e he

theorem State.ingress_none (hv : s.fab.idValid = true) (ho : ∀ e ∈ s.fab.wins, e.2.st = .opened → e.2.named f = false)
    (hu : ∀ e ∈ s.fab.wins, e.2.used = true → e.2.named f = false) : s.ingress p f = { code := .WINDOW_NONE } := by
  simp only [State.ingress, hv, find_opened_none ho, find_used_none hu, Bool.not_true, Bool.false_eq_true, if_false]

theorem State.ingress_closed (hv : s.fab.idValid = true) (ho : ∀ e ∈ s.fab.wins, e.2.st = .opened → e.2.named f = false)
    (hu : ∃ e ∈ s.fab.wins, e.2.used = true ∧ e.2.named f = true) : (s.ingress p f).code = .WINDOW_CLOSED := by
  obtain ⟨e, he, used, named⟩ := hu
  obtain ⟨w, hw⟩ := Option.isSome_iff_exists.mp ((List.find?_isSome (p := fun e : Nat × Win => e.2.used && e.2.named f)).mpr ⟨e, he, by simp [used, named]⟩)
  simp only [State.ingress, hv, find_opened_none ho, hw, Bool.not_true, Bool.false_eq_true, if_false]

variable {n : Nat} {w : Win}

/-- With one window, open and named by the frame, the checks 4 to 7 decide. -/
theorem State.ingress_one (hv : s.fab.idValid = true) (hw : s.fab.wins = [(n, w)]) (ho : w.st = .opened) (hn : w.named f = true) : s.ingress p f =
    if f.src < w.args.srcFirst ∨ w.args.srcLast < f.src ∨ (!w.args.takes p) = true then { code := .WINDOW_SOURCE, window := n }
    else if (!w.args.right f.kind) = true then { code := .WINDOW_RIGHTS, window := n }
    else if f.kind ≠ fkPost ∧ w.args.base + w.args.size < f.target + extentOf f then { code := .WINDOW_RANGE, window := n }
    else if s.targetResetting f then { code := .PARTITION_RESETTING, window := n }
    else { code := .OK, window := n } := by
  have found : [(n, w)].find? (fun e => e.2.st == .opened && e.2.named f) = some (n, w) := by simp [ho, hn]
  simp only [State.ingress, hv, hw, found, Bool.not_true, Bool.false_eq_true, if_false]

end Ingress

/-! ### NACKs (R332, R350) -/

section Nack

variable (s : State) (f : Frame) (c : Code) (n : Nat)

/-- A frame refused by a draining window has been noted there. -/
def State.refusedBy : State :=
  if c = .WINDOW_CLOSED ∧ (s.win n).st = .draining then s.setWin n { s.win n with refused := (s.win n).refused + 1 } else s

/-- The counter of the NACKs of a status. -/
def nackReg : Nat := fabReg (if c = .WINDOW_CLOSED then Reg.WIN_NACK_CLOSED_TOTAL else Reg.WIN_NACK_OTHER_TOTAL)

theorem State.nack_answers : s.nack f c n = ((s.refusedBy c n).bump (nackReg c) 1).answer (replyTo f fkNack (ackBody c f n)) := rfl

theorem State.refusedBy_eq : s.refusedBy c n = { s with fab := { s.fab with wins := (s.refusedBy c n).fab.wins } } := by
  rw [State.refusedBy]
  split <;> rfl

theorem offPort_nackReg : offPort (nackReg c) := by
  rw [nackReg]
  split
  · exact offPort_fabReg (r := 0x418) (by decide) (by decide) (by decide)
  · exact offPort_fabReg (r := 0x420) (by decide) (by decide) (by decide)

theorem State.reg_nack : (s.nack f c n).reg (nackReg c) = min (2 ^ 64 - 1) (s.reg (nackReg c) + 1) := by
  have noted : (s.refusedBy c n).reg (nackReg c) = s.reg (nackReg c) := by rw [State.refusedBy_eq]; rfl
  rw [State.nack_answers, State.reg_answer _ _ (offPort_nackReg c), State.reg_bump, if_pos rfl, noted]

theorem State.nack_mem : (s.nack f c n).mem = s.mem := by
  rw [State.nack_answers, State.answer_eq, State.refusedBy_eq]
  rfl

theorem State.nack_sync : (s.nack f c n).sync = s.sync := by
  rw [State.nack_answers, State.answer_eq, State.refusedBy_eq]
  rfl

theorem State.win_nack (m : Nat) : (s.nack f c n).win m = (s.refusedBy c n).win m := by
  rw [State.nack_answers, State.answer_eq]
  rfl

theorem length_ackBody : (ackBody c f n).length = 8 := by simp [ackBody]

/-- A NACK is well formed: its body is 8 bytes, of which those reserved are 0. -/
theorem Frame.ok_nack : Frame.ok (Frame.seal (replyTo f fkNack (ackBody c f n))) = true := by
  have form : Frame.formOk (Frame.seal (replyTo f fkNack (ackBody c f n))) = true := by
    have reserved : fieldAt (ackBody c f n) 3 1 = 0 ∧ fieldAt (ackBody c f n) 6 2 = 0 := ⟨rfl, rfl⟩
    simp [Frame.formOk, Frame.seal, replyTo, bodyLen, fkNack, length_ackBody, reserved]
  rw [Frame.ok, form, Bool.true_and]
  exact beq_self_eq_true _

/-- A NACK that finds its port's queue empty and a unit of credit leaves at once. -/
theorem State.nack_leaves {x : Nat} (hx : s.exit f.src = some x) (hq : (s.port x).queue = []) (hc : 1 ≤ (s.port x).rsp) :
    (s.nack f c n).fab.sent = s.fab.sent ++ [(x, Frame.seal (replyTo f fkNack (ackBody c f n)))] := by
  have ports : ((s.refusedBy c n).bump (nackReg c) 1).fab.ports = s.fab.ports := by rw [State.refusedBy_eq]; rfl
  have route : ((s.refusedBy c n).bump (nackReg c) 1).fab.route = s.fab.route := by rw [State.refusedBy_eq]; rfl
  have sent : ((s.refusedBy c n).bump (nackReg c) 1).fab.sent = s.fab.sent := by rw [State.refusedBy_eq]; rfl
  have port : ((s.refusedBy c n).bump (nackReg c) 1).port x = s.port x := congrArg (Tab.get · x) ports
  have units : (Frame.seal (replyTo f fkNack (ackBody c f n))).units = 1 := by simp [Frame.units, Frame.seal, replyTo, length_ackBody]
  rw [State.nack_answers, State.answer_exit ((State.exit_congr route ports _).trans hx), State.transmit_departs (by rw [port]; exact hq) (by rw [port, units]; exact hc)]
  exact congrArg (· ++ _) sent

end Nack

/-! ### The payloads of an ATOMIC_ADD frame (R64) -/

section Payloads

variable (s : State) (o : Src) (a : Nat) (c : Code) {b : List Byte} (l : List (List Byte))

theorem State.payloads_fault {n : Nat} (h : payloadFault b = some n) : s.payloads o a c (b :: l) =
    (s.raise .FLIT_FORMAT_ERROR o [fieldAt b 71 1, n]).payloads o a (if c = .OK then .FLIT_FORMAT_ERROR else c) l := by
  simp only [State.payloads, h]

theorem State.payloads_applied (h : payloadFault b = none) : s.payloads o a c (b :: l) =
    (s.payload o 0 (framePayload a b)).payloads o a (if c = .OK then s.payloadStatus (framePayload a b) else c) l := by
  simp only [State.payloads, h]

/-- A payload of neither type is refused at its type byte. -/
theorem payloadFault_type (h4 : fieldAt b 71 1 ≠ 4) (h5 : fieldAt b 71 1 ≠ 5) : payloadFault b = some 71 := by
  rw [payloadFault]
  split
  · exact absurd ‹_› h4
  · exact absurd ‹_› h5
  · rfl

end Payloads

/-! ### Frames in transit (R342, R343) -/

section Transit

variable {s : State} {p : Nat} {f : Frame}

/-- A frame for another module, neither CONTROL nor CHUNK, arrives on a port in UP of an enumerated module. -/
def State.passesBy (s : State) (p : Nat) (f : Frame) : Prop :=
  s.portUp p = true ∧ p < 16 ∧ s.fab.idValid = true ∧ f.dst ≠ s.fab.id ∧ f.kind ≠ fkControl ∧ f.kind ≠ fkChunk

theorem exec_transitFrame_none (h : ¬ s.passesBy p f) (ab : Bool) : exec (.transitFrame p f ab) s = .next s := congrArg Host.Outcome.next (if_neg h)

theorem exec_transitFrame_aborted (h : s.passesBy p f) :
    exec (.transitFrame p f true) s = .next ((s.received p f).bump (portReg p Reg.GP_TRANSIT_TOTAL) 1) := congrArg Host.Outcome.next (if_pos h)

theorem exec_transitFrame_whole (h : s.passesBy p f) : exec (.transitFrame p f false) s = .next ((s.received p f).transit p f) :=
  congrArg Host.Outcome.next (if_pos h)

/-- The port by which a frame leaves is the destination's own when it is an ENDPOINT port (R342). -/
theorem State.exit_endpoint {m x : Nat} (h : s.exit m = some x) : (endpointPort x && (s.port x).nid != m) = false := by
  obtain ⟨⟨-, -, own⟩, hx⟩ := Option.ite_none_right_eq_some.mp h
  obtain rfl := Option.some.inj hx
  cases endpoint : endpointPort (Tab.get s.fab.route m % 16)
  · rfl
  · simp only [endpoint, Bool.not_true, Bool.false_or, Bool.and_eq_true, beq_iff_eq] at own
    rw [own.2, bne_self_eq_false, Bool.and_false]

theorem State.transit_forwards {x : Nat} (hp : p < 14) (hx : s.exit f.dst = some x) :
    s.transit p f = (s.transmit x f).bump (portReg p Reg.GP_TRANSIT_TOTAL) 1 := by
  have ring : endpointPort p = false := by simpa [endpointPort] using hp
  simp [State.transit, ring, hx, State.exit_endpoint hx]

/-- The answer to a frame that no route takes. -/
def unroutable (s : State) (f : Frame) : Frame := { replyTo f fkNack (ackBody .FABRIC_UNREACHABLE f 0xFFFF) with src := s.moduleId }

/-- A frame that arrived on an ENDPOINT port, or that no route takes, is counted and answered. -/
theorem State.transit_unroutable (h : 14 ≤ p ∨ s.exit f.dst = none) : s.transit p f =
    if endpointPort p then (s.bump (fabReg Reg.FRAME_UNROUTABLE_TOTAL) 1).transmit p (unroutable s f)
    else (s.bump (fabReg Reg.FRAME_UNROUTABLE_TOTAL) 1).answer (unroutable s f) := by
  obtain h | h := h
  · simp [State.transit, endpointPort, h]
    rfl
  · simp [State.transit, h]
    rfl

theorem State.transit_counts (h : 14 ≤ p ∨ s.exit f.dst = none) :
    (s.transit p f).reg (fabReg Reg.FRAME_UNROUTABLE_TOTAL) = min (2 ^ 64 - 1) (s.reg (fabReg Reg.FRAME_UNROUTABLE_TOTAL) + 1) := by
  have off : offPort (fabReg Reg.FRAME_UNROUTABLE_TOTAL) := offPort_fabReg (r := 0x438) (by decide) (by decide) (by decide)
  rw [State.transit_unroutable h]
  split
  · rw [State.reg_transmit _ _ _ off, State.reg_bump, if_pos rfl]
  · rw [State.reg_answer _ _ off, State.reg_bump, if_pos rfl]

theorem State.transit_mem (h : 14 ≤ p ∨ s.exit f.dst = none) : (s.transit p f).mem = s.mem := by
  rw [State.transit_unroutable h]
  split
  · rw [State.transmit_eq]
    rfl
  · rw [State.answer_eq]
    rfl

theorem State.received_reg_unroutable (s : State) (p : Nat) (f : Frame) :
    (s.received p f).reg (fabReg Reg.FRAME_UNROUTABLE_TOTAL) = s.reg (fabReg Reg.FRAME_UNROUTABLE_TOTAL) := by
  have rx : fabReg Reg.FRAME_UNROUTABLE_TOTAL ≠ portReg p Reg.GP_RX_FRAMES_TOTAL := show 0x30000 + 0x438 ≠ 0x30000 + 0x800 * p + 0x40 by omega
  rw [State.received, State.reg_owe _ _ _ (offPort_fabReg (r := 0x438) (by decide) (by decide) (by decide)), State.reg_bump, if_neg rx]

end Transit

/-! ### What each request frame does -/

section Served

variable {s : State} {p : Nat} {f : Frame} {k : Nat}

/-- A well-formed frame that passes the checks is served. -/
theorem State.arrive_checked (h : s.arrives p f k) (hok : Frame.ok f = true) (hg : ((s.received p f).ingress p f).code = .OK) (service : State → State) :
    s.arrive p f k (fun t => t.checked p f service) = service (s.received p f) :=
  (State.arrive_served h hok _).trans (State.checked_passes hg service)

theorem State.arrive_refused (h : s.arrives p f k) (hok : Frame.ok f = true) (hg : ((s.received p f).ingress p f).code ≠ .OK) (service : State → State) :
    s.arrive p f k (fun t => t.checked p f service) =
      (s.received p f).nack f ((s.received p f).ingress p f).code ((s.received p f).ingress p f).window :=
  (State.arrive_served h hok _).trans (State.checked_refuses hg service)

variable (hok : Frame.ok f = true) (hg : ((s.received p f).ingress p f).code = .OK)

include hok hg

theorem exec_tileWrite_served (h : s.arrives p f fkWrite) : exec (.tileWrite p f) s = .next (
    ((s.received p f).write (Src.port p) {} f.target f.body).st.acked f ((s.received p f).write (Src.port p) {} f.target f.body).code ((s.received p f).ingress p f).window) := by
  rw [exec_tileWrite, State.arrive_checked h hok hg]

theorem exec_tileWriteMasked_served (h : s.arrives p f fkMasked) : exec (.tileWriteMasked p f) s = .next (
    ((s.received p f).writeAll (Src.port p) (maskBlocks f)).st.acked f ((s.received p f).writeAll (Src.port p) (maskBlocks f)).code ((s.received p f).ingress p f).window) := by
  rw [exec_tileWriteMasked, State.arrive_checked h hok hg]

theorem exec_atomicAddFrame_served (h : s.arrives p f fkAtomic) : exec (.atomicAddFrame p f) s = .next (
    let x := (s.received p f).payloads (Src.port p) f.addr .OK (cut 72 (f.count + 1) f.body)
    (x.1.arrivedFrom f (cut 72 (f.count + 1) f.body)).acked f x.2 ((s.received p f).ingress p f).window) := by
  rw [exec_atomicAddFrame, State.arrive_checked h hok hg]

theorem exec_postFrame_served (h : s.arrives p f fkPost) : exec (.postFrame p f) s = .next (
    ((s.received p f).objPost f.addr (fieldAt f.body 0 4) (reqModule f.src)).acked f (if (s.obj f.addr).allocated then .OK else .SYNC_FREE)
      ((s.received p f).ingress p f).window) := by
  have obj : (s.received p f).obj f.addr = s.obj f.addr := congrArg (Tab.get · f.addr) (s.received_sync p f)
  rw [exec_postFrame, State.arrive_checked h hok hg, obj]

theorem exec_readReq_served (h : s.arrives p f fkRead) : exec (.readReq p f) s = .next (
    let r := (s.received p f).read { mdie := ((locate s.part.variant f.target).mdie).getD 0, src := Src.port p } f.target 4096
    if r.code = .OK then r.st.answer (replyTo f fkTile r.bytes) else r.st.nack f r.code ((s.received p f).ingress p f).window) := by
  rw [exec_readReq, State.arrive_checked h hok hg, State.received_part]

end Served

/-- Settles O56: each request frame is received, checked and served in turn, the checks at ingress go by the windows, and a frame for another module takes its route. -/
theorem frameService : Obligations.FrameService := by
  refine ⟨fun s p f c k hc => ?_, fun s p f => ⟨State.ingress_not_enumerated, State.ingress_none, State.ingress_closed, fun n w hv hw ho hn => ?_⟩,
    fun s f c n => ⟨s.reg_nack f c n, s.nack_mem f c n, s.nack_sync f c n, fun closed draining => ?_, fun x hx hq hc => ?_⟩,
    fun s o a c b l => ⟨rfl, fun n h => s.payloads_fault o a c l h, s.payloads_applied o a c l, payloadFault_type⟩, fun s p f ab => ?_⟩
  · obtain ⟨service, hexec⟩ := exec_of_requestFrame hc s
    refine ⟨fun h => hexec.trans (congrArg _ (State.arrive_none h _)), fun up kind range dst => ?_⟩
    have arrives : s.arrives p f k := ⟨up, kind, range, dst⟩
    refine ⟨fun hbad => hexec.trans (congrArg _ (State.arrive_dropped arrives hbad _)),
      fun hok hg => hexec.trans (congrArg _ (State.arrive_refused arrives hok hg _)), fun hok hg => ⟨?_, ?_, ?_, ?_, ?_⟩⟩
    · rintro rfl w rfl
      obtain rfl : c = .tileWrite p f := by simpa using hc
      exact exec_tileWrite_served hok hg arrives
    · rintro rfl
      obtain rfl : c = .tileWriteMasked p f := by simpa using hc
      have served := exec_tileWriteMasked_served hok hg arrives
      refine ⟨fun none => ?_, fun w hw => by rw [hw]; exact served⟩
      rw [none] at served
      exact served
    · rintro rfl x y rfl rfl
      obtain rfl : c = .atomicAddFrame p f := by simpa using hc
      exact exec_atomicAddFrame_served hok hg arrives
    · rintro rfl w rfl
      obtain rfl : c = .readReq p f := by simpa using hc
      exact exec_readReq_served hok hg arrives
    · rintro rfl
      obtain rfl : c = .postFrame p f := by simpa using hc
      have served := exec_postFrame_served hok hg arrives
      refine ⟨fun h => ?_, fun h => ?_⟩ <;> rw [h] at served <;> exact served
  · rw [State.ingress_one hv hw ho hn]
    refine ⟨fun source => if_pos (by simpa using source), fun first last takes => ?_⟩
    rw [if_neg (by simp [takes]; omega)]
    refine ⟨fun right => if_pos (by simp [right]), fun right post range => ?_, fun right range => ?_⟩
    · rw [if_neg (by simp [right]), if_pos ⟨post, range⟩]
    · rw [if_neg (by simp [right]), if_neg (by omega)]
      exact ⟨fun resetting => if_pos resetting, fun running => if_neg (by simp [running])⟩
  · rw [State.win_nack, State.refusedBy, if_pos ⟨closed, draining⟩, State.win_setWin, if_pos rfl]
  · exact ⟨_, s.nack_leaves f c n hx hq (by omega), rfl, rfl, rfl, rfl, rfl, rfl, Frame.ok_nack f c n⟩
  · refine ⟨fun h => exec_transitFrame_none ?_ ab, fun up range valid dst control chunk => ?_⟩
    · rintro ⟨up, range, valid, dst, control, chunk⟩
      obtain h | h | h | h | h | h := h
      exacts [Bool.false_ne_true (h.symm.trans up), absurd range (Nat.not_lt.mpr h), Bool.false_ne_true (h.symm.trans valid), dst h, control h, chunk h]
    · have passes : s.passesBy p f := ⟨up, range, valid, dst, control, chunk⟩
      refine ⟨fun _ => exec_transitFrame_aborted passes, fun _ => ⟨fun x ring hx => ?_, fun h => ⟨_, exec_transitFrame_whole passes, ?_, ?_⟩⟩⟩
      · exact (exec_transitFrame_whole passes).trans (congrArg _ (State.transit_forwards ring hx))
      · exact (State.transit_counts h).trans (congrArg (fun v => min (2 ^ 64 - 1) (v + 1)) (s.received_reg_unroutable p f))
      · exact (State.transit_mem h).trans (s.received_mem p f)

end Sys2Proof.Machine
end

section
/-! PROOFS of the family 11_glosa_fabric: windows (R345 to R347, R350). -/

namespace Sys2Proof.Machine

/-! ### Calls of the fabric service (R346) -/

section Calls

variable (via : Option Hdr) (args : List Byte) (n b : Nat) (s : State)

theorem exec_windowOpen : exec (.windowOpen via args) s = .next (s.fabricCall via fun t d => t.callOpen args d) := rfl

theorem exec_windowClose : exec (.windowClose via n) s = .next (s.fabricCall via fun t d => t.callClose n d) := rfl

theorem exec_windowQuery : exec (.windowQuery via n b) s = .next (s.fabricCall via fun t d => t.callQuery n b d) := rfl

variable {s}

/-- A call by an accepted descriptor works on the state that has started it. -/
theorem State.fabricCall_accepted {h : Hdr} (ha : s.accepts h clsProgram = true) (k : State → Option Desc → State) :
    s.fabricCall (some h) k = k (s.start h) (some (s.descOf h)) := State.descriptor_accepted ha fun t d => k t (some d)

end Calls

/-! ### WINDOW_OPEN (R347) -/

section Open

variable {s : State} {args : List Byte}

/-- The first check of an open is that it has an entry to take. -/
theorem State.winEntry_of_winStatus {x : WinArgs} {reserved : Bool} (h : s.winStatus x reserved = .OK) : ∃ n, s.winEntry x = some n := by
  cases hn : s.winEntry x with
  | some n => exact ⟨n, rfl⟩
  | none =>
    rw [State.winStatus, if_pos (by rw [hn]; rfl)] at h
    split at h <;> exact nomatch h

theorem State.windowOpen_accepted {n : Nat} (h : s.winStatus (parseWin args) (winReserved args) = .OK) (hn : s.winEntry (parseWin args) = some n) :
    s.windowOpen args = (s.winOpen n (parseWin args), .OK, n) := by
  simp only [State.windowOpen, hn, h, if_true]

theorem State.windowOpen_refused (h : s.winStatus (parseWin args) (winReserved args) ≠ .OK) :
    s.windowOpen args = (s, s.winStatus (parseWin args) (winReserved args), 0) := by
  cases hn : s.winEntry (parseWin args) <;> simp only [State.windowOpen, hn, h, if_false]

theorem State.callOpen_accepted {n : Nat} (h : s.winStatus (parseWin args) (winReserved args) = .OK) (hn : s.winEntry (parseWin args) = some n) (d : Option Desc) :
    s.callOpen args d = (s.winOpen n (parseWin args)).callEnd d .OK n := by
  rw [State.callOpen, State.windowOpen_accepted h hn]

theorem State.callOpen_refused (h : s.winStatus (parseWin args) (winReserved args) ≠ .OK) (d : Option Desc) :
    s.callOpen args d = s.callEnd d (s.winStatus (parseWin args) (winReserved args)) 0 := by
  rw [State.callOpen, State.windowOpen_refused h]

/-- An open changes its own entry of the table, nothing of the others. -/
theorem State.win_winOpen (s : State) (n : Nat) (x : WinArgs) (j : Nat) :
    (s.winOpen n x).win j = if j = n then { st := .opened, args := x, used := true } else s.win j := s.win_setWin n _ j

end Open

/-! ### WINDOW_CLOSE and the end of a drain (R350) -/

section Close

variable {s : State} {n : Nat}

theorem State.callClose_drains (hn : n < 1024) (ho : (s.win n).st = .opened) (d : Option Desc) :
    s.callClose n d = s.setWin n { s.win n with st := .draining, refused := 0, call := d } := if_pos ⟨ho, hn⟩

theorem State.callClose_refused (h : 1024 ≤ n ∨ (s.win n).st ≠ .opened) (d : Option Desc) : s.callClose n d = s.callEnd d .WINDOW_STATE 0 := by
  refine if_neg fun ⟨ho, hn⟩ => ?_
  exact h.elim (fun h => absurd hn (Nat.not_lt.mpr h)) (fun h => h ho)

/-- The window has drained: it is CLOSED, with the frames refused meanwhile reported. -/
def State.winClosed (s : State) (n : Nat) : State :=
  (s.setWin n { s.win n with st := .closed, call := none }).raise .WINDOW_CLOSED (Src.port 0) [n, (s.win n).refused]

theorem exec_windowDrained (hd : (s.win n).st = .draining) : exec (.windowDrained n) s = .next ((s.winClosed n).callEnd (s.win n).call .OK n) :=
  congrArg Host.Outcome.next (if_pos hd)

theorem exec_windowDrained_none (hd : (s.win n).st ≠ .draining) : exec (.windowDrained n) s = .next s := congrArg Host.Outcome.next (if_neg hd)

end Close

/-- Settles O23: a call is the same with and without a descriptor but for its completion, and an open's first check finds its entry. -/
theorem windows : Obligations.Windows := by
  refine fun s => ⟨fun args hok => ?_, fun args hno => ?_, fun h args ha => ⟨fun n hok hn => ?_, ?_⟩, fun n hn ho => ?_, fun h n ha hn ho => ?_, fun h n ha hno => ?_,
    fun n d hd hc => ?_, fun n hd hc => ?_, fun n hd => exec_windowDrained_none hd, fun h n b ha => ⟨((s.start h).freeBytes 64).1, ?_, ?_⟩⟩
  · obtain ⟨n, hn⟩ := State.winEntry_of_winStatus hok
    refine ⟨n, hn, congrArg Host.Outcome.next (State.callOpen_accepted hok hn none), ?_, ?_, fun j hj => ?_⟩
    · rw [State.win_winOpen, if_pos rfl]
    · rw [State.win_winOpen, if_pos rfl]
    · rw [State.win_winOpen, if_neg hj]
  · exact congrArg Host.Outcome.next (State.callOpen_refused hno none)
  · rw [exec_windowOpen, State.fabricCall_accepted ha, State.callOpen_accepted hok hn]
    rfl
  · rintro c rfl hno
    rw [exec_windowOpen, State.fabricCall_accepted ha, State.callOpen_refused hno]
    rfl
  · exact congrArg Host.Outcome.next (State.callClose_drains hn ho none)
  · rw [exec_windowClose, State.fabricCall_accepted ha, State.callClose_drains hn (by rwa [State.win_start]), State.win_start]
  · rw [exec_windowClose, State.fabricCall_accepted ha, State.callClose_refused (by rwa [State.win_start])]
    rfl
  · rw [exec_windowDrained hd, hc]
    rfl
  · rw [exec_windowDrained hd, hc]
    rfl
  · simp [State.freeBytes]
  · rw [exec_windowQuery, State.fabricCall_accepted ha, State.callQuery, State.freeBytes, State.start_fresh]
    rfl

end Sys2Proof.Machine
end

section
/-! PROOFS of the family 11_glosa_fabric: the states of a port, its IDENTITY, credits and held frames (R323, R325 to R329, R335, R336). -/

namespace Sys2Proof.Machine

/-! ### What the shared operations of a port leave alone -/

theorem State.raise_event (s : State) (k : Code) (x : Src) (l : List Nat) :
    ∃ v, (s.raise k x l).ev.inFlight = s.ev.inFlight ++ [v] ∧ v.code = k ∧ v.args = l := ⟨_, rfl, rfl, rfl⟩

section Ports

variable (s : State) (p : Nat)

@[simp] theorem State.port_bump (a n i : Nat) : (s.bump a n).port i = s.port i := rfl

@[simp] theorem State.port_raise (k : Code) (x : Src) (l : List Nat) (c : Code) (i : Nat) : (s.raise k x l c).port i = s.port i := rfl

@[simp] theorem State.port_reroute (i : Nat) : s.reroute.port i = s.port i := rfl

@[simp] theorem State.reg_reroute (a : Nat) : s.reroute.reg a = s.reg a := rfl

@[simp] theorem State.reg_setPort (x : Port) (a : Nat) : (s.setPort p x).reg a = s.reg a := rfl

theorem State.port_setPort_same (x : Port) : (s.setPort p x).port p = x := (s.port_setPort p x p).trans (if_pos rfl)

theorem State.port_setPort_other (x : Port) {i : Nat} (hi : i ≠ p) : (s.setPort p x).port i = s.port i := (s.port_setPort p x i).trans (if_neg hi)

theorem Port.takeCredit_eq (x : Port) (c n : Nat) :
    x.takeCredit c n = { x with req := (x.takeCredit c n).req, rsp := (x.takeCredit c n).rsp, mgmt := (x.takeCredit c n).mgmt } := by
  simp only [Port.takeCredit]
  split
  · rfl
  · split <;> rfl

/-- A frame that enters a port's queue, or leaves, changes that port's credits and queue. -/
theorem State.port_transmit_same (f : Frame) : ∃ a b c q, (s.transmit p f).port p = { s.port p with req := a, rsp := b, mgmt := c, queue := q } := by
  simp only [State.transmit]
  split
  · exact ⟨_, _, _, _, (s.port_setPort_same p _).trans (Port.takeCredit_eq _ _ _)⟩
  · exact ⟨_, _, _, _, s.port_setPort_same p _⟩

theorem State.port_transmit_other (f : Frame) {i : Nat} (hi : i ≠ p) : (s.transmit p f).port i = s.port i := by
  simp only [State.transmit]
  split
  · exact s.port_setPort_other p _ hi
  · exact s.port_setPort_other p _ hi

theorem State.transmit_ev (f : Frame) : (s.transmit p f).ev = s.ev := by rw [State.transmit_eq]

/-- A port that leaves UP has dropped its queue (R329); any other stays as it is. -/
def State.leftUp : State := if (s.port p).st = .up then s.dropPort p else s

theorem State.leftUp_of_up (h : (s.port p).st = .up) : s.leftUp p = s.dropPort p := if_pos h

theorem State.leftUp_of_not_up (h : (s.port p).st ≠ .up) : s.leftUp p = s := if_neg h

theorem State.port_dropPort_same : (s.dropPort p).port p = { s.port p with queue := [], owed := (0, 0, 0), left := s.time.tick } := s.port_setPort_same p _

theorem State.port_leftUp_other {i : Nat} (hi : i ≠ p) : (s.leftUp p).port i = s.port i := by
  rw [State.leftUp]
  split
  · exact s.port_setPort_other p _ hi
  · rfl

theorem State.leftUp_ev : (s.leftUp p).ev = s.ev := by
  rw [State.leftUp]
  split <;> rfl

theorem State.reg_leftUp_drop (h : (s.port p).st = .up) : (s.leftUp p).reg (portReg p Reg.GP_DROP_TOTAL) =
    min (2 ^ 64 - 1) (s.reg (portReg p Reg.GP_DROP_TOTAL) + (s.port p).queue.length) := by
  rw [s.leftUp_of_up p h]
  exact (State.reg_bump _ _ _ _).trans (if_pos rfl)

theorem State.reg_leftUp_of_ne {a : Nat} (ha : a ≠ portReg p Reg.GP_DROP_TOTAL) : (s.leftUp p).reg a = s.reg a := by
  rw [State.leftUp]
  split
  · exact (State.reg_bump _ _ _ _).trans (if_neg ha)
  · rfl

end Ports

/-! ### Entry into FAULT (R328, R329) -/

section Fault

variable (s : State) (p c : Nat)

/-- The attempt that now fails is the last of RETRAIN_MAX in a row. -/
def State.exhausted : Bool := decide (s.retrainMax p ≤ (s.port p).attempts + 1) && (s.port p).st != .up

/-- The port has entered FAULT and reported it. -/
def State.faulted : State :=
  ((s.leftUp p).setPort p { (s.leftUp p).port p with
      st := .fault, cause := if s.exhausted p then 6 else c, attempts := if (s.port p).st = .up then 0 else (s.port p).attempts + 1
      since := s.time.tick, lanes := 0 }).raise .GLOSA_PORT_DOWN (Src.port p) [p, if s.exhausted p then 6 else c, (s.port p).nid]

theorem State.exhausted_of_up (h : (s.port p).st = .up) : s.exhausted p = false := by simp [State.exhausted, h]

theorem State.portFault_eq : s.portFault p c =
    if (s.port p).st = .up then (s.faulted p c).reroute
    else if s.exhausted p then (s.faulted p c).raise .GLOSA_PORT_FAILED (Src.port p) [p] else s.faulted p c := by
  by_cases h : (s.port p).st = .up
  · simp [State.portFault, State.faulted, State.leftUp, State.exhausted, h]
  · simp [State.portFault, State.faulted, State.leftUp, State.exhausted, h]

theorem State.port_portFault (i : Nat) : (s.portFault p c).port i = (s.faulted p c).port i := by
  rw [State.portFault_eq]
  split
  · exact State.port_reroute _ i
  · split
    · exact State.port_raise _ _ _ _ _ i
    · rfl

theorem State.port_faulted (i : Nat) : (s.faulted p c).port i = if i = p then { (s.leftUp p).port p with
    st := .fault, cause := if s.exhausted p then 6 else c, attempts := if (s.port p).st = .up then 0 else (s.port p).attempts + 1
    since := s.time.tick, lanes := 0 } else (s.leftUp p).port i := by
  rw [State.faulted, State.port_raise, State.port_setPort]

theorem State.port_portFault_same : (s.portFault p c).port p = { (s.leftUp p).port p with
    st := .fault, cause := if s.exhausted p then 6 else c, attempts := if (s.port p).st = .up then 0 else (s.port p).attempts + 1
    since := s.time.tick, lanes := 0 } := by
  rw [State.port_portFault, State.port_faulted, if_pos rfl]

theorem State.port_portFault_other {i : Nat} (hi : i ≠ p) : (s.portFault p c).port i = s.port i := by
  rw [State.port_portFault, State.port_faulted, if_neg hi, s.port_leftUp_other p hi]

theorem State.reg_faulted (a : Nat) : (s.faulted p c).reg a = (s.leftUp p).reg a := by
  rw [State.faulted, State.reg_raise, State.reg_setPort]

theorem State.reg_portFault (a : Nat) : (s.portFault p c).reg a = (s.leftUp p).reg a := by
  rw [State.portFault_eq, ← s.reg_faulted p c]
  split
  · exact State.reg_reroute _ a
  · split
    · exact State.reg_raise _ _ _ _ _ a
    · rfl

/-- A port that has used up its attempts reports that too. -/
theorem State.portFault_exhausted : ∃ l, (s.portFault p c).ev.inFlight = (s.faulted p c).ev.inFlight ++ l ∧ l.length = (s.exhausted p).toNat := by
  rw [State.portFault_eq]
  split
  · next up => exact ⟨[], (List.append_nil _).symm, by rw [s.exhausted_of_up p up]; rfl⟩
  · split
    · next out => exact ⟨_, rfl, by rw [out]; rfl⟩
    · next goes => exact ⟨[], (List.append_nil _).symm, by rw [eq_false_of_ne_true goes]; rfl⟩

/-- A fault is reported with its cause and the neighbour's ID. -/
theorem State.portFault_events : ∃ v l, (s.portFault p c).ev.inFlight = s.ev.inFlight ++ v :: l
    ∧ v.code = .GLOSA_PORT_DOWN ∧ v.args = [p, if s.exhausted p then 6 else c, (s.port p).nid] ∧ l.length = (s.exhausted p).toNat := by
  have down : ∃ v, (s.faulted p c).ev.inFlight = s.ev.inFlight ++ [v] ∧ v.code = .GLOSA_PORT_DOWN
      ∧ v.args = [p, if s.exhausted p then 6 else c, (s.port p).nid] := by
    rw [← s.leftUp_ev p, ← State.setPort_ev (s.leftUp p) p]
    exact State.raise_event _ _ _ _
  obtain ⟨v, hv, code, args⟩ := down
  obtain ⟨l, hl, count⟩ := s.portFault_exhausted p c
  refine ⟨v, l, ?_, code, args, count⟩
  rw [hl, hv, List.append_assoc, List.singleton_append]

end Fault

/-! ### Training (R323, R326) -/

section Training

variable {s : State} {p : Nat}

theorem State.port_portTrain_same (s : State) (p : Nat) : (s.portTrain p).port p =
    { s.port p with st := .training, since := s.time.tick, lanes := 0, full := !(bitOf (s.gpCfg p) 1 && (s.port p).saved.isSome)
                    req := 16384, rsp := 15360, mgmt := 1024, owed := (0, 0, 0) } := s.port_setPort_same p _

/-- A training is full but with FAST_TRAIN and saved settings (R326). -/
theorem not_fast_iff {α : Type} (b : Bool) (o : Option α) : (!(b && o.isSome)) = true ↔ b = false ∨ o = none := by
  cases b <;> cases o <;> simp

theorem exec_portSignalDetect (h : (s.port p).st = .down) (he : s.portEnabled p = true) (hp : p < 16) :
    exec (.portSignalDetect p) s = .next (s.portTrain p) := congrArg Host.Outcome.next (if_pos ⟨h, he, hp⟩)

theorem exec_portSignalDetect_none (h : (s.port p).st ≠ .down ∨ s.portEnabled p = false) : exec (.portSignalDetect p) s = .next s := by
  refine congrArg Host.Outcome.next (if_neg fun ⟨hd, he, _⟩ => ?_)
  exact h.elim (fun h => h hd) (fun h => Bool.false_ne_true (h.symm.trans he))

/-- The port is SETTLING on the lanes that trained, and fewer than four are reported. -/
def State.settles (s : State) (p l : Nat) : State :=
  let t := s.setPort p { s.port p with st := .settling, lanes := l }
  if l = 3 then t else t.raise .GLOSA_PORT_DEGRADED (Src.port p) [p, l]

theorem State.port_settles (s : State) (p l i : Nat) : (s.settles p l).port i = (s.setPort p { s.port p with st := .settling, lanes := l }).port i := by
  simp only [State.settles]
  split <;> rfl

theorem State.settles_sent (s : State) (p l : Nat) : (s.settles p l).fab.sent = s.fab.sent := by
  simp only [State.settles]
  split <;> rfl

theorem State.settles_events (s : State) (p l : Nat) : (s.settles p l).ev.inFlight.length = s.ev.inFlight.length + if l = 3 then 0 else 1 := by
  simp only [State.settles]
  split
  · rfl
  · exact State.length_inFlight_raise _ _ _ _ _

/-- What this module says of itself does not depend on the state of its ports. -/
theorem State.identityFrame_settles (s : State) (p l : Nat) : (s.settles p l).identityFrame p = s.identityFrame p := by
  simp only [State.settles]
  split <;> rfl

theorem exec_portFecLock {l : Nat} (h : (s.port p).st = .training) (hl : s.lanesOk p l = true) :
    exec (.portFecLock p l) s = .next ((s.settles p l).transmit p (s.identityFrame p)) := by
  refine congrArg Host.Outcome.next ((if_pos ⟨h, hl⟩).trans ?_)
  exact congrArg ((s.settles p l).transmit p) (s.identityFrame_settles p l)

theorem exec_portFecLock_none {l : Nat} (h : (s.port p).st ≠ .training ∨ s.lanesOk p l = false) : exec (.portFecLock p l) s = .next s := by
  refine congrArg Host.Outcome.next (if_neg fun ⟨ht, hl⟩ => ?_)
  exact h.elim (fun h => h ht) (fun h => Bool.false_ne_true (h.symm.trans hl))

/-- An IDENTITY is a MGMT frame of two units. -/
theorem units_identityFrame (s : State) (p : Nat) : (Frame.seal (s.identityFrame p)).units = 2 := by
  simp [Frame.units, Frame.seal, State.identityFrame]

/-- An IDENTITY that finds its port's queue empty and two units of credit leaves at once. -/
theorem State.identity_leaves {l : Nat} (hq : (s.port p).queue = []) (hc : 2 ≤ (s.port p).mgmt) :
    ((s.settles p l).transmit p (s.identityFrame p)).fab.sent = s.fab.sent ++ [(p, Frame.seal (s.identityFrame p))] := by
  have port : (s.settles p l).port p = { s.port p with st := .settling, lanes := l } := (s.port_settles p l p).trans (s.port_setPort_same p _)
  have queue : ((s.settles p l).port p).queue = [] := by rw [port]; exact hq
  have credit : (Frame.seal (s.identityFrame p)).units ≤ ((s.settles p l).port p).credit (Frame.seal (s.identityFrame p)).cls := by
    rw [port, units_identityFrame]
    exact hc
  rw [State.transmit_departs queue credit, ← s.settles_sent p l]
  rfl

/-- FEC lock leaves the port SETTLING on its lanes. -/
theorem State.port_locked (s : State) (p l : Nat) (f : Frame) :
    (((s.settles p l).transmit p f).port p).st = .settling ∧ (((s.settles p l).transmit p f).port p).lanes = l := by
  obtain ⟨a, b, c, q, h⟩ := (s.settles p l).port_transmit_same p f
  rw [h, s.port_settles p l p, State.port_setPort_same]
  exact ⟨rfl, rfl⟩

theorem State.port_locked_other (s : State) (p l : Nat) (f : Frame) {i : Nat} (hi : i ≠ p) : ((s.settles p l).transmit p f).port i = s.port i :=
  (State.port_transmit_other _ p f hi).trans ((s.port_settles p l i).trans (s.port_setPort_other p _ hi))

theorem exec_portTrainTimeout (h : (s.port p).st = .training) (ht : (s.port p).since + 30 * tickSecond ≤ s.time.tick) :
    exec (.portTrainTimeout p) s = .next (s.portFault p 2) := congrArg Host.Outcome.next (if_pos ⟨h, ht⟩)

theorem exec_portTrainTimeout_none (h : (s.port p).st ≠ .training ∨ s.time.tick < (s.port p).since + 30 * tickSecond) :
    exec (.portTrainTimeout p) s = .next s := by
  refine congrArg Host.Outcome.next (if_neg fun ⟨hs, ht⟩ => ?_)
  exact h.elim (fun h => h hs) (fun h => absurd ht (Nat.not_le.mpr h))

end Training

/-! ### A port in UP, and one that tries again (R328, R329) -/

section Up

variable {s : State} {p : Nat}

theorem State.portUp_iff (s : State) (p : Nat) : s.portUp p = true ↔ (s.port p).st = .up := beq_iff_eq

theorem State.portUp_eq_false (h : (s.port p).st ≠ .up) : s.portUp p = false := beq_eq_false_iff_ne.mpr h

theorem exec_portLockLoss (h : (s.port p).st = .up) : exec (.portLockLoss p) s = .next (s.portFault p 1) :=
  congrArg Host.Outcome.next (if_pos ((s.portUp_iff p).mpr h))

theorem exec_portLockLoss_none (h : (s.port p).st ≠ .up) : exec (.portLockLoss p) s = .next s :=
  congrArg Host.Outcome.next (if_neg (mt (s.portUp_iff p).mp h))

theorem exec_uncorrRateCheck (a b : Nat) (h : (s.port p).st = .up) : exec (.uncorrRateCheck p a b) s = .next (
    let t := (s.bump (portReg p Reg.GP_FEC_CORR_TOTAL) a).bump (portReg p Reg.GP_FEC_UNCORR_TOTAL) b
    if s.uncorrLimit p < b then t.portFault p 5 else t) := congrArg Host.Outcome.next (if_pos ((s.portUp_iff p).mpr h))

theorem exec_uncorrRateCheck_none (a b : Nat) (h : (s.port p).st ≠ .up) : exec (.uncorrRateCheck p a b) s = .next s :=
  congrArg Host.Outcome.next (if_neg (mt (s.portUp_iff p).mp h))

theorem exec_portFaultRetry (h : (s.port p).st = .fault) (hc : (s.port p).cause ≠ 6) (he : s.portEnabled p = true)
    (ht : (s.port p).since + tickSecond ≤ s.time.tick) :
    exec (.portFaultRetry p) s = .next ((s.setPort p { s.port p with st := .down }).bump (portReg p Reg.GP_RETRAIN_TOTAL) 1) :=
  congrArg Host.Outcome.next (if_pos ⟨h, hc, he, ht⟩)

theorem exec_portFaultRetry_none (h : (s.port p).st ≠ .fault ∨ (s.port p).cause = 6 ∨ s.portEnabled p = false ∨ s.time.tick < (s.port p).since + tickSecond) :
    exec (.portFaultRetry p) s = .next s := by
  refine congrArg Host.Outcome.next (if_neg fun ⟨hs, hc, he, ht⟩ => ?_)
  obtain h | h | h | h := h
  exacts [h hs, hc h, Bool.false_ne_true (h.symm.trans he), absurd ht (Nat.not_le.mpr h)]

/-- The port trains anew, with its attempts at 0. -/
def State.retrained (s : State) (p : Nat) : State :=
  (((s.leftUp p).setPort p { (s.leftUp p).port p with attempts := 0, cause := 0 }).portTrain p).bump (portReg p Reg.GP_RETRAIN_TOTAL) 1

theorem exec_retrain (h : (s.port p).st ≠ .disabled) (hp : p < 16) :
    exec (.retrain p) s = .next (if (s.port p).st = .up then (s.retrained p).reroute else s.retrained p) := by
  have takes : ¬ ((s.port p).st = .disabled ∨ 16 ≤ p) := fun g => g.elim h (Nat.not_le.mpr hp)
  refine congrArg Host.Outcome.next ((if_neg takes).trans ?_)
  by_cases up : (s.port p).st = .up <;> simp [State.retrained, State.leftUp, up]

theorem exec_retrain_none (h : (s.port p).st = .disabled) : exec (.retrain p) s = .next s := congrArg Host.Outcome.next (if_pos (.inl h))

theorem State.port_retrained_same (s : State) (p : Nat) : ∃ t f, (s.retrained p).port p = { (s.leftUp p).port p with
    attempts := 0, cause := 0, st := .training, since := t, lanes := 0, full := f, req := 16384, rsp := 15360, mgmt := 1024, owed := (0, 0, 0) } := by
  have train := State.port_portTrain_same ((s.leftUp p).setPort p { (s.leftUp p).port p with attempts := 0, cause := 0 }) p
  rw [State.port_setPort_same] at train
  rw [State.retrained, State.port_bump, train]
  exact ⟨_, _, rfl⟩

theorem State.port_retrained_other (s : State) {p i : Nat} (hi : i ≠ p) : (s.retrained p).port i = s.port i := by
  rw [State.retrained, State.port_bump, State.portTrain, State.port_setPort_other _ _ _ hi, State.port_setPort_other _ _ _ hi, s.port_leftUp_other p hi]

theorem State.reg_retrained (s : State) (p : Nat) :
    (s.retrained p).reg (portReg p Reg.GP_RETRAIN_TOTAL) = min (2 ^ 64 - 1) (s.reg (portReg p Reg.GP_RETRAIN_TOTAL) + 1) := by
  have apart : portReg p Reg.GP_RETRAIN_TOTAL ≠ portReg p Reg.GP_DROP_TOTAL := show 0x30000 + 0x800 * p + 0x58 ≠ 0x30000 + 0x800 * p + 0x50 by omega
  rw [State.retrained, State.reg_bump, if_pos rfl, State.portTrain, State.reg_setPort, State.reg_setPort, s.reg_leftUp_of_ne p apart]

end Up

/-! ### Frames held too long (R336) -/

section Held

variable {s : State} {p : Nat}

theorem exec_holdMax_empty (h : (s.port p).queue = []) : exec (.holdMax p) s = .next s := by
  show execHoldMax p s = _
  simp only [execHoldMax, h]

variable {q : QFrame} {r : List QFrame} (hq : (s.port p).queue = q :: r)

include hq

theorem exec_holdMax_waits (h : s.time.tick ≤ q.since + s.holdMax * 1000000) : exec (.holdMax p) s = .next s := by
  show execHoldMax p s = _
  simp only [execHoldMax, hq, if_neg (Nat.not_lt.mpr h)]

theorem exec_holdMax_drops (h : q.since + s.holdMax * 1000000 < s.time.tick) : exec (.holdMax p) s = .next (
    ((s.setPort p { s.port p with queue := r }).bump (portReg p Reg.GP_DROP_TOTAL) 1).raise .GLOSA_HOLD_EXPIRED (Src.port p) [p, q.frame.cls]) := by
  show execHoldMax p s = _
  simp only [execHoldMax, hq, if_pos h]

end Held

end Sys2Proof.Machine
end

section
/-! PROOFS of the family 11_glosa_fabric: CONTROL messages and enumeration (R325, R327, R335, R337 to R339). -/

namespace Sys2Proof.Machine

/-! ### CONTROL messages (R333, R335) -/

section Control

variable {s : State} {p : Nat} {f : Frame}

/-- A CONTROL frame arrives on a port that takes it. -/
def State.controls (s : State) (p : Nat) (f : Frame) : Prop :=
  ((s.port p).st = .up ∨ (s.port p).st = .settling) ∧ f.kind = fkControl ∧ p < 16

theorem State.control_none (h : ¬ s.controls p f) (msg : Nat) (k : State → State) : s.control p f msg k = s := if_neg h

theorem State.control_dropped (h : s.controls p f) {msg : Nat} (hbad : Frame.ok f = false ∨ fieldAt f.body 0 1 ≠ msg) (k : State → State) :
    s.control p f msg k = (s.received p f).bump (portReg p Reg.GP_FCRC_FAIL_TOTAL) 1 := by
  refine (if_pos h).trans ?_
  by_cases hok : Frame.ok f = true
  · exact (if_pos hok).trans (if_neg (hbad.resolve_left (by simp [hok])))
  · exact if_neg hok

theorem State.control_served (h : s.controls p f) {msg : Nat} (hok : Frame.ok f = true) (hm : fieldAt f.body 0 1 = msg) (k : State → State) :
    s.control p f msg k = k (s.received p f) := ((if_pos h).trans (if_pos hok)).trans (if_pos hm)

/-- The units of a CONTROL frame are owed until another frame's return them. -/
theorem State.received_control (s : State) (p : Nat) (hk : f.kind = fkControl) : ∃ o, s.received p f =
    (s.bump (portReg p Reg.GP_RX_FRAMES_TOTAL) 1).setPort p { s.port p with owed := o } := ⟨_, if_pos hk⟩

theorem State.received_fab (s : State) (p : Nat) (f : Frame) :
    (s.received p f).fab = { s.fab with ports := (s.received p f).fab.ports, sent := (s.received p f).fab.sent } := by
  conv_lhs => rw [State.received, State.owe_eq]
  rfl

theorem State.received_enum (s : State) (p : Nat) (f : Frame) : (s.received p f).fab.enum = s.fab.enum := by rw [State.received_fab]
theorem State.received_idValid (s : State) (p : Nat) (f : Frame) : (s.received p f).fab.idValid = s.fab.idValid := by rw [State.received_fab]
theorem State.received_id (s : State) (p : Nat) (f : Frame) : (s.received p f).fab.id = s.fab.id := by rw [State.received_fab]
theorem State.received_remotes (s : State) (p : Nat) (f : Frame) : (s.received p f).fab.remotes = s.fab.remotes := by rw [State.received_fab]

/-- What a neighbour said in its IDENTITY stays while a CONTROL frame is received. -/
theorem State.nport_received (s : State) (p : Nat) (hk : f.kind = fkControl) (i : Nat) : ((s.received p f).port i).nport = (s.port i).nport := by
  obtain ⟨o, h⟩ := s.received_control p hk
  rw [h, State.port_setPort]
  split
  · next hi => rw [hi]
  · rfl

end Control

/-! ### IDENTITY (R325, R327) -/

section Identity

variable {s : State} {p : Nat} {f : Frame}

theorem exec_identityMessage (h : (s.port p).st = .settling) :
    exec (.identityMessage p f) s = .next (s.control p f 1 fun t => t.identified p (parseIdentity f.body)) := congrArg Host.Outcome.next (if_pos h)

theorem exec_identityMessage_none (h : (s.port p).st ≠ .settling ∨ f.kind ≠ fkControl ∨ 16 ≤ p) : exec (.identityMessage p f) s = .next s := by
  by_cases hs : (s.port p).st = .settling
  · rw [exec_identityMessage hs, State.control_none]
    rintro ⟨-, hk, hp⟩
    exact (h.resolve_left (not_not.mpr hs)).elim (fun h => h hk) (fun h => absurd hp (Nat.not_lt.mpr h))
  · exact congrArg Host.Outcome.next (if_neg hs)

/-- The version settled with a neighbour does not depend on the frames received. -/
theorem State.linkVer_received (s : State) (p : Nat) (hk : f.kind = fkControl) (y : Identity) : (s.received p f).linkVer y = s.linkVer y := by
  obtain ⟨o, h⟩ := s.received_control p hk
  have apart : Reg.VER_LINK ≠ portReg p Reg.GP_RX_FRAMES_TOTAL := show 0x30 ≠ 0x30000 + 0x800 * p + 0x40 by omega
  have ver : (s.received p f).reg Reg.VER_LINK = s.reg Reg.VER_LINK := by
    rw [h]
    exact (State.reg_bump _ _ _ _).trans (if_neg apart)
  rw [State.linkVer, State.linkVer, ver]

section Refuse

variable {y : Identity}

theorem State.refuseNeighbour_version (h : s.linkVer y = 0) : s.refuseNeighbour p y = 3 := if_pos h

theorem State.refuseNeighbour_kind (hv : s.linkVer y ≠ 0) (h : endpointPort p ≠ y.endpoint) : s.refuseNeighbour p y = 4 :=
  (if_neg hv).trans (if_pos (bne_iff_ne.mpr h))

/-- A neighbour of a settled version and of the port's kind is refused for its ID alone. -/
theorem State.refuseNeighbour_id (hv : s.linkVer y ≠ 0) (h : endpointPort p = y.endpoint) :
    s.refuseNeighbour p y = 7 ↔ y.valid = true ∧ s.fab.idValid = true ∧ y.id = s.fab.id := by
  rw [State.refuseNeighbour, if_neg hv, if_neg (by simp [h])]
  simp [and_assoc]

end Refuse

variable (s p) (y : Identity)

/-- The port knows its neighbour. -/
def State.acquainted : State :=
  s.setPort p { s.port p with nid := y.id, nidValid := y.valid, nport := y.port, nkind := if y.sorano then 1 else if y.endpoint then 2 else 0, serial := y.serial }

variable {s p y}

theorem State.identified_refused (h : s.refuseNeighbour p y ≠ 0) : ((s.identified p y).port p).st = .fault := by
  have faults : (((s.acquainted p y).portFault p (s.refuseNeighbour p y)).port p).st = .fault := by rw [State.port_portFault_same]
  have goes : s.identified p y = if s.refuseNeighbour p y = 7 then
      ((s.acquainted p y).portFault p (s.refuseNeighbour p y)).raise .GLOSA_ID_CONFLICT (Src.port p) [p, y.id]
    else (s.acquainted p y).portFault p (s.refuseNeighbour p y) := if_neg h
  rw [goes]
  split <;> exact faults

theorem State.identified_accepted (h : s.refuseNeighbour p y = 0) :
    ((s.identified p y).port p).st = .up ∧ ((s.identified p y).port p).nid = y.id ∧ ((s.identified p y).port p).ver = s.linkVer y
      ∧ ((s.identified p y).port p).attempts = 0
      ∧ ∃ v, (s.identified p y).ev.inFlight = s.ev.inFlight ++ [v] ∧ v.code = .GLOSA_PORT_UP ∧ v.args = [p, s.linkVer y, y.id] := by
  have goes : ∃ g, s.identified p y = (((s.acquainted p y).setPort p { (s.acquainted p y).port p with
      st := .up, ver := s.linkVer y, cause := 0, attempts := 0, since := s.time.tick, saved := g }).raise .GLOSA_PORT_UP (Src.port p)
        [p, s.linkVer y, y.id]).reroute := ⟨_, if_pos h⟩
  obtain ⟨g, goes⟩ := goes
  have port : (s.identified p y).port p = { (s.acquainted p y).port p with
      st := .up, ver := s.linkVer y, cause := 0, attempts := 0, since := s.time.tick, saved := g } := by
    rw [goes, State.port_reroute, State.port_raise, State.port_setPort_same]
  have known : ((s.acquainted p y).port p).nid = y.id := by rw [State.acquainted, State.port_setPort_same]
  rw [port]
  refine ⟨rfl, known, rfl, rfl, ?_⟩
  rw [goes]
  exact State.raise_event _ _ _ _

end Identity

/-! ### CREDIT (R335) -/

section Credit

variable {s : State} {p : Nat} {f : Frame}

theorem exec_credit (p : Nat) (f : Frame) (s : State) : exec (.credit p f) s = .next (s.control p f 2 fun t => t.credited p f.body) := rfl

/-- With nothing queued nothing leaves. -/
theorem State.drainPort_empty (h : (s.port p).queue = []) : s.drainPort p = s := by
  have stays (c : Nat) : s.drainClass p c (s.port p).queue.length = s := by rw [h]; rfl
  simp only [State.drainPort, List.foldl_cons, List.foldl_nil, stays]

theorem State.credited_empty (h : (s.port p).queue = []) (bs : List Byte) : s.credited p bs =
    s.setPort p { s.port p with req := (s.port p).req + fieldAt bs 4 4, rsp := (s.port p).rsp + fieldAt bs 8 4, mgmt := (s.port p).mgmt + fieldAt bs 12 4 } := by
  refine State.drainPort_empty ?_
  rw [State.port_setPort_same]
  exact h

end Credit

/-! ### Enumeration (R337 to R339) -/

section Enum

variable {s : State}

theorem State.takeId_event (s : State) (n : Nat) : ∃ v, (s.takeId n).ev.inFlight = s.ev.inFlight ++ [v] ∧ v.code = .MODULE_ID_ASSIGNED ∧ v.args = [n] :=
  State.raise_event _ _ _ _

theorem State.win_takeId (s : State) (n : Nat) : ((s.takeId n).win 1023).st = .opened := by
  have h := State.win_setWin { s with fab := { s.fab with idValid := true, id := n } } 1023
    { st := .opened, used := true, args := { base := mailboxBase, size := mailboxSize, srcFirst := 0, srcLast := 0xFFFF, rights := 1, ports := 1, number := 1023 } } 1023
  exact congrArg Win.st (h.trans (if_pos rfl))

/-- A message of enumeration changes ports and what has been sent. -/
theorem State.enumSend_eq (s : State) (p msg next flags head : Nat) : s.enumSend p msg next flags head =
    { s with fresh := (s.enumSend p msg next flags head).fresh, regs := (s.enumSend p msg next flags head).regs
             fab := { s.fab with ports := (s.enumSend p msg next flags head).fab.ports, sent := (s.enumSend p msg next flags head).fab.sent } } :=
  s.transmit_eq _ _

/-- Off the head the token goes on or ENUM_DONE goes back. -/
theorem State.enumOn_member (s : State) (next head : Nat) : ∃ p msg, s.enumOn next head false = s.enumSend p msg next 0 head := by
  simp only [State.enumOn, Bool.false_eq_true, if_false]
  split
  · exact ⟨0, 3, rfl⟩
  · exact ⟨1, 4, rfl⟩

theorem State.tokenTaken_own {next head : Nat} (h : s.fab.enum = 1) (hh : head = s.part.serial) : s.tokenTaken next head = s.enumEnd next true false :=
  (if_pos h).trans (if_pos hh)

theorem State.tokenTaken_conflict {next head : Nat} (h : s.fab.enum = 1) (hh : head ≠ s.part.serial) :
    s.tokenTaken next head = s.raise .ENUM_CONFLICT (Src.port 1) [head] := (if_pos h).trans (if_neg hh)

theorem State.tokenTaken_keeps {next head : Nat} (h : s.fab.enum ≠ 1) (hv : s.fab.idValid = true) (hid : s.fab.id < 0xFFFF) :
    s.tokenTaken next head = s.enumOn (max next (s.fab.id + 1)) head false :=
  (if_neg h).trans ((if_pos hv).trans (if_neg (Nat.not_le.mpr hid)))

theorem State.tokenTaken_takes {next head : Nat} (h : s.fab.enum ≠ 1) (hv : s.fab.idValid = false) (hn : next < 0xFFFF) :
    s.tokenTaken next head = (s.takeId next).enumOn (next + 1) head false :=
  (if_neg h).trans ((if_neg (ne_true_of_eq_false hv)).trans ((if_neg (by omega)).trans (if_neg (by omega))))

variable {p : Nat} {f : Frame}

theorem exec_enumToken (h : (s.port p).st = .up) : exec (.enumToken p f) s = .next (s.control p f 3 fun t =>
    if p = 1 ∧ (t.port 1).nport = 0 then t.tokenTaken (fieldAt f.body 4 2) (fieldAt f.body 8 8)
    else t.bump (portReg p Reg.GP_FCRC_FAIL_TOTAL) 1) := congrArg Host.Outcome.next (if_pos ((s.portUp_iff p).mpr h))

theorem exec_enumDone (h : (s.port p).st = .up) : exec (.enumDone p f) s = .next (s.control p f 4 fun t =>
    if t.fab.enum = 1 ∧ fieldAt f.body 8 8 = t.part.serial then
      t.enumEnd (fieldAt f.body 4 2) (bitOf (fieldAt f.body 6 1) 0) (bitOf (fieldAt f.body 6 1) 1)
    else t.enumSend 1 4 (fieldAt f.body 4 2) (fieldAt f.body 6 1) (fieldAt f.body 8 8)) :=
  congrArg Host.Outcome.next (if_pos ((s.portUp_iff p).mpr h))

/-- Messages of enumeration are taken on a port in UP alone. -/
theorem exec_enum_none (h : (s.port p).st ≠ .up ∨ f.kind ≠ fkControl ∨ 16 ≤ p) :
    exec (.enumToken p f) s = .next s ∧ exec (.enumDone p f) s = .next s := by
  by_cases up : (s.port p).st = .up
  · have none : ¬ s.controls p f := fun ⟨_, hk, hp⟩ =>
      (h.resolve_left (not_not.mpr up)).elim (fun h => h hk) (fun h => absurd hp (Nat.not_lt.mpr h))
    rw [exec_enumToken up, exec_enumDone up, State.control_none none, State.control_none none]
    exact ⟨rfl, rfl⟩
  · have down : ¬ s.portUp p = true := mt (s.portUp_iff p).mp up
    exact ⟨congrArg Host.Outcome.next (if_neg down), congrArg Host.Outcome.next (if_neg down)⟩

/-- A run starts at its head with the ID it has, or with ENUM_BASE. -/
def State.enumerates (s : State) : State :=
  let t := if s.fab.idValid then s else s.takeId (s.fld (fabReg Reg.ENUM_CFG) 0 16)
  { t with fab := { t.fab with enum := 1, ringClosed := false, exhausted := false } }

theorem exec_enumStart_refused (h : s.fab.enum = 1) : exec .enumStart s = .next (s.raise .FAB_CTRL_REFUSED (Src.port 0) [0]) :=
  congrArg Host.Outcome.next (if_pos h)

theorem exec_enumStart (h : s.fab.enum ≠ 1) : exec .enumStart s = .next (
    if 0xFFFF ≤ s.enumerates.fab.id then s.enumerates.enumEnd 0xFFFF false true
    else s.enumerates.enumOn (s.enumerates.fab.id + 1) s.part.serial true) := congrArg Host.Outcome.next (if_neg h)

/-- The head's token goes out, or the run ends at once. -/
theorem State.enumOn_head (s : State) (next head : Nat) :
    s.enumOn next head true = s.enumSend 0 3 next 1 head ∨ s.enumOn next head true = s.enumEnd next false false := by
  simp only [State.enumOn, if_true]
  split
  · exact .inl rfl
  · exact .inr rfl

/-- A run that starts keeps the head's ID, and is under way or has ended. -/
theorem exec_enumStart_runs (h : s.fab.enum ≠ 1) : ∃ u : State, exec .enumStart s = .next u
    ∧ u.fab.idValid = s.enumerates.fab.idValid ∧ u.fab.id = s.enumerates.fab.id ∧ (u.fab.enum = 1 ∨ u.fab.enum = 2) := by
  rw [exec_enumStart h]
  refine ⟨_, rfl, ?_⟩
  split
  · exact ⟨rfl, rfl, .inr rfl⟩
  · obtain goes | ends := s.enumerates.enumOn_head (s.enumerates.fab.id + 1) s.part.serial
    · rw [goes, State.enumSend_eq]
      exact ⟨rfl, rfl, .inl rfl⟩
    · rw [ends]
      exact ⟨rfl, rfl, .inr rfl⟩

theorem exec_clearId_refused (h : (∃ e ∈ s.fab.wins, e.2.st ≠ .closed) ∨ s.fab.remotes ≠ []) :
    exec .clearId s = .next (s.raise .FAB_CTRL_REFUSED (Src.port 0) [1]) := by
  refine congrArg Host.Outcome.next (if_pos ?_)
  obtain ⟨e, he, hst⟩ | h := h
  · rw [Bool.or_eq_true, List.any_eq_true]
    exact .inl ⟨e, he, bne_iff_ne.mpr hst⟩
  · simp [h]

theorem exec_clearId (h : ∀ e ∈ s.fab.wins, e.2.st = .closed) (hr : s.fab.remotes = []) :
    exec .clearId s = .next { s with fab := { s.fab with idValid := false, id := 0 } } := by
  have closed : s.fab.wins.any (fun e => e.2.st != .closed) = false := List.any_eq_false.mpr fun e he => by simp [h e he]
  exact congrArg Host.Outcome.next (if_neg (by simp [closed, hr]))

end Enum

/-- Settles O55: each event acts in the one state of its port that it needs, a fault and RETRAIN drop a port's queue where it was UP, and each message of enumeration is one case of the token or of ENUM_DONE. -/
theorem portsAndEnumeration : Obligations.PortsAndEnumeration := by
  refine ⟨fun s p hp => ⟨fun hd he => ?detect, exec_portSignalDetect_none, fun l ht hl => ?lock, fun l => exec_portFecLock_none, exec_portTrainTimeout,
      exec_portTrainTimeout_none, exec_portLockLoss, exec_portLockLoss_none, exec_uncorrRateCheck_none, fun a b t up ht => ?rate, fun c => ?fault,
      fun hf hc he ht => ?retry, exec_portFaultRetry_none, exec_retrain_none, fun h => ?retrain, exec_holdMax_empty,
      fun q r hq => ⟨exec_holdMax_waits hq, fun h => ⟨_, exec_holdMax_drops hq h, State.port_setPort_same _ _ _, fun i hi => State.port_setPort_other _ _ _ hi,
        (State.reg_bump _ _ _ _).trans (if_pos rfl), State.raise_event _ _ _ _⟩⟩⟩,
    fun s p f => ⟨exec_identityMessage_none, fun h => ?credit, exec_enum_none, fun st hk hp => ?identity, fun st hk hp => ?credited, fun up hk hp => ?enum⟩,
    fun s n g a b => ⟨⟨rfl, rfl, rfl, rfl⟩, State.tokenTaken_own, State.tokenTaken_conflict, fun he hv hn => ?takes, State.tokenTaken_keeps⟩,
    fun s => ⟨fun h => ?refused, fun he hv hid => ?keeps, fun he hv => ?head, fun h => ?busy, fun h hr => ?clear⟩⟩
  case detect =>
    refine ⟨_, exec_portSignalDetect hd he hp, ?_, ?_, ?_, ?_, ?_, ?_, fun i hi => s.port_setPort_other p _ hi, rfl⟩ <;> rw [State.port_portTrain_same]
    exact not_fast_iff _ _
  case lock =>
    obtain ⟨st, lanes⟩ := s.port_locked p l (s.identityFrame p)
    exact ⟨_, exec_portFecLock ht hl, st, lanes, State.identity_leaves, fun i hi => s.port_locked_other p l _ hi,
      (congrArg (fun e : Events => e.inFlight.length) (State.transmit_ev _ _ _)).trans (s.settles_events p l)⟩
  case rate => rw [exec_uncorrRateCheck a b up, ht]
  case fault =>
    have port := s.port_portFault_same p c
    obtain ⟨v, l, events, code, args, count⟩ := s.portFault_events p c
    refine ⟨?_, ?_, ?_, ?_, fun i hi => s.port_portFault_other p c hi, fun up => ⟨?_, ?_, ?_⟩, fun down => ?_, ⟨v, ?_, code, args⟩, ?_⟩
    · rw [port]
    · rw [port]; rfl
    · rw [port]
    · rw [port]
    · rw [port, s.leftUp_of_up p up, s.port_dropPort_same]
    · rw [port]; exact if_pos up
    · rw [State.reg_portFault, s.reg_leftUp_drop p up]
    · rw [port]; exact if_neg down
    · rw [events]; simp
    · rw [events, List.length_append, List.length_cons, count]
      show _ = _ + if s.exhausted p = true then 2 else 1
      cases s.exhausted p <;> rfl
  case retry =>
    exact ⟨_, exec_portFaultRetry hf hc he ht, State.port_setPort_same _ _ _, fun i hi => State.port_setPort_other _ _ _ hi, (State.reg_bump _ _ _ _).trans (if_pos rfl)⟩
  case retrain =>
    have goes : ∃ u : State, exec (.retrain p) s = .next u ∧ (∀ i, u.port i = (s.retrained p).port i) ∧ ∀ a, u.reg a = (s.retrained p).reg a := by
      refine ⟨_, exec_retrain h hp, ?_, ?_⟩ <;> intro i <;> split <;> rfl
    obtain ⟨u, hu, ports, regs⟩ := goes
    obtain ⟨t, g, port⟩ := s.port_retrained_same p
    refine ⟨u, hu, ?_, ?_, ?_, fun i hi => (ports i).trans (s.port_retrained_other hi), fun up => ?_, (regs _).trans (s.reg_retrained p)⟩
    · rw [ports, port]
    · rw [ports, port]
    · rw [ports, port]
    · rw [ports, port, s.leftUp_of_up p up, s.port_dropPort_same]
  case credit =>
    rw [exec_credit, State.control_none]
    rintro ⟨hst, hk, hp⟩
    obtain ⟨up, settling⟩ | h | h := h
    exacts [hst.elim up settling, h hk, absurd hp (Nat.not_lt.mpr h)]
  case identity =>
    have takes : s.controls p f := ⟨.inr st, hk, hp⟩
    refine ⟨fun bad => ?_, fun hok hm => ⟨?_, fun ok => ?_, State.identified_refused, fun hv => ?_, fun hv he => ?_, fun hv he => ?_⟩⟩
    · rw [exec_identityMessage st, State.control_dropped takes bad]
      rfl
    · rw [exec_identityMessage st, State.control_served takes hok hm]
      rfl
    · rw [← s.linkVer_received p hk]
      exact State.identified_accepted ok
    · exact State.refuseNeighbour_version ((s.linkVer_received p hk _).trans hv)
    · exact State.refuseNeighbour_kind (s := s.received p f) (by rwa [s.linkVer_received p hk]) he
    · rw [← s.received_idValid p f, ← s.received_id p f]
      exact State.refuseNeighbour_id (s := s.received p f) (by rwa [s.linkVer_received p hk]) he
  case credited =>
    have takes : s.controls p f := ⟨st, hk, hp⟩
    refine ⟨fun bad => ?_, fun hok hm hq => ⟨(s.received p f).credited p f.body, ?_, ?_⟩⟩
    · rw [exec_credit, State.control_dropped takes bad]
      rfl
    · rw [exec_credit, State.control_served takes hok hm]
    · rw [State.credited_empty (s := s.received p f) hq, State.port_setPort_same]
      exact ⟨rfl, rfl, rfl, fun i hi => State.port_setPort_other _ _ _ hi⟩
  case enum =>
    have takes : s.controls p f := ⟨.inl up, hk, hp⟩
    have nport := s.nport_received p hk 1
    refine ⟨fun bad => ?_, fun hok hm h1 hn => ?_, fun bad => ?_, fun hok hm he hs => ?_, fun hok hm h => ?_⟩
    · by_cases served : Frame.ok f = true ∧ fieldAt f.body 0 1 = 3
      · have astray : ¬ (p = 1 ∧ ((s.received p f).port 1).nport = 0) := by
          rw [nport]
          rintro ⟨h1, hn⟩
          obtain h | h | h | h := bad
          exacts [Bool.false_ne_true (h.symm.trans served.1), h served.2, h h1, h hn]
        rw [exec_enumToken up, State.control_served takes served.1 served.2, if_neg astray]
        rfl
      · rw [exec_enumToken up, State.control_dropped takes (by simpa using not_and_or.mp served)]
        rfl
    · rw [exec_enumToken up, State.control_served takes hok hm, if_pos ⟨h1, nport.trans hn⟩]
      rfl
    · rw [exec_enumDone up, State.control_dropped takes bad]
      rfl
    · rw [exec_enumDone up, State.control_served takes hok hm, if_pos ⟨(s.received_enum p f).trans he, hs.trans (congrArg Part.serial (s.received_part p f)).symm⟩]
      rfl
    · have passes : ¬ ((s.received p f).fab.enum = 1 ∧ fieldAt f.body 8 8 = (s.received p f).part.serial) := by
        rw [s.received_enum p f, s.received_part p f]
        rintro ⟨he, hs⟩
        exact h.elim (fun h => h he) (fun h => h hs)
      rw [exec_enumDone up, State.control_served takes hok hm, if_neg passes]
      rfl
  case takes =>
    obtain ⟨q, msg, sends⟩ := (s.takeId n).enumOn_member (n + 1) g
    obtain ⟨v, events, assigned⟩ := s.takeId_event n
    rw [State.tokenTaken_takes he hv hn, sends, State.enumSend_eq]
    exact ⟨rfl, rfl, s.win_takeId n, v, by rw [events]; simp, assigned⟩
  case refused =>
    obtain ⟨v, told⟩ := s.raise_event .FAB_CTRL_REFUSED (Src.port 0) [0]
    exact ⟨_, v, exec_enumStart_refused h, rfl, told⟩
  case keeps =>
    have own : s.enumerates = { s with fab := { s.fab with enum := 1, ringClosed := false, exhausted := false } } := by simp only [State.enumerates, hv, if_true]
    rw [exec_enumStart he, own, if_neg (Nat.not_le.mpr hid)]
  case head =>
    have base : s.enumerates.fab.idValid = true ∧ s.enumerates.fab.id = s.fld (fabReg Reg.ENUM_CFG) 0 16 := by
      simp only [State.enumerates, hv, Bool.false_eq_true, if_false]
      exact ⟨rfl, rfl⟩
    obtain ⟨u, hu, valid, id, enum⟩ := exec_enumStart_runs he
    exact ⟨u, hu, valid.trans base.1, id.trans base.2, enum⟩
  case busy =>
    obtain ⟨v, told⟩ := s.raise_event .FAB_CTRL_REFUSED (Src.port 0) [1]
    exact ⟨_, v, exec_clearId_refused h, rfl, told⟩
  case clear => exact ⟨_, exec_clearId h hr, rfl, rfl, rfl, rfl⟩

end Sys2Proof.Machine
end

section
/-! PROOFS of the family 11_glosa_fabric: answers to remote frames, resends and time-outs (R332, R352 to R354). -/

namespace Sys2Proof.Machine

/-! ### The operation that an answer names (R353, R354) -/

/-- A frame is answered by `f`: it has been sent, to `f`'s module, with its TAG and ADDR. -/
def RFrame.answeredBy (y : RFrame) (f : Frame) : Bool := y.sent && y.module == f.src && y.frame.tag == f.tag && y.frame.addr == f.addr

theorem RFrame.answeredBy_iff (y : RFrame) (f : Frame) :
    y.answeredBy f = true ↔ y.sent = true ∧ y.module = f.src ∧ y.frame.tag = f.tag ∧ y.frame.addr = f.addr := by
  simp [RFrame.answeredBy, and_assoc]

section Answered

variable {s : State} {f : Frame}

theorem State.answered_eq (s : State) (f : Frame) : s.answered f = (s.fab.remotes.findIdx? (fun r => r.frames.any (·.answeredBy f))).map
    (fun i => (i, (s.remote i).frames.findIdx (·.answeredBy f))) := rfl

theorem State.answered_none (h : ∀ x ∈ s.fab.remotes, ∀ y ∈ x.frames, ¬ (y.sent = true ∧ y.module = f.src ∧ y.frame.tag = f.tag ∧ y.frame.addr = f.addr)) :
    s.answered f = none := by
  rw [State.answered_eq, Option.map_eq_none_iff, List.findIdx?_eq_none_iff]
  intro x hx
  rw [List.any_eq_false]
  exact fun y hy => mt (y.answeredBy_iff f).mp (h x hx y hy)

theorem State.answered_some {i j : Nat} (h : s.answered f = some (i, j)) :
    ∃ x y, s.fab.remotes[i]? = some x ∧ x.frames[j]? = some y ∧ y.answeredBy f = true := by
  rw [State.answered_eq, Option.map_eq_some_iff] at h
  obtain ⟨i', hi, heq⟩ := h
  obtain ⟨rfl, rfl⟩ := Prod.mk.inj heq
  obtain ⟨hlt, hany, -⟩ := List.findIdx?_eq_some_iff_getElem.mp hi
  have remote : s.remote i' = s.fab.remotes[i'] := (List.getElem_eq_getD default).symm
  have found := List.findIdx_lt_length_of_exists (List.any_eq_true.mp hany)
  refine ⟨_, _, List.getElem?_eq_getElem hlt, ?_, List.findIdx_getElem (w := found)⟩
  rw [remote]
  exact List.getElem?_eq_getElem found

end Answered

/-- An answer is taken by its operation, or is late. -/
def State.takes (t : State) (f : Frame) (k : Nat → Nat → State) : State :=
  match t.answered f with
  | some (i, j) => k i j
  | none => t.lateAnswer

theorem State.takes_some {t : State} {f : Frame} {i j : Nat} (h : t.answered f = some (i, j)) (k : Nat → Nat → State) : t.takes f k = k i j := by
  rw [State.takes, h]

theorem State.takes_none {t : State} {f : Frame} (h : t.answered f = none) (k : Nat → Nat → State) :
    t.takes f k = t.bump (fabReg Reg.REMOTE_TIMEOUT_TOTAL) 1 := by
  rw [State.takes, h]
  rfl

section Answers

variable (p : Nat) (f : Frame) (s : State)

theorem exec_ack : exec (.ack p f) s = .next (s.arrive p f fkAck fun t => t.takes f fun i j => t.frameDone i j none) := rfl

theorem exec_readTile : exec (.readTile p f) s =
    .next (s.arrive p f fkTile fun t => t.takes f fun i j => t.frameDone i j (some (f.src * 2 ^ 48 + f.target, f.body))) := rfl

theorem exec_nack (c : Code) : exec (.nack p f c) s = .next (s.arrive p f fkNack fun t => t.takes f fun i _ => (t.failRemote i c f.target).settled) := rfl

variable {p f}

/-- Answers of each kind arrive in the same way. -/
theorem exec_of_answer {c : Instr} {k : Nat}
    (hc : (c, k) ∈ [(Instr.readTile p f, fkTile), (Instr.ack p f, fkAck)] ++ [Instr.nack p f .OK, Instr.nack p f .WINDOW_NONE, Instr.nack p f .TILE_POISONED].map (fun i => (i, fkNack))) :
    ∃ taken : State → Nat → Nat → State, exec c s = .next (s.arrive p f k fun t => t.takes f (taken t)) := by
  simp only [List.map_cons, List.map_nil, List.cons_append, List.nil_append, List.mem_cons, Prod.mk.injEq, List.not_mem_nil, or_false] at hc
  obtain ⟨rfl, rfl⟩ | ⟨rfl, rfl⟩ | ⟨rfl, rfl⟩ | ⟨rfl, rfl⟩ | ⟨rfl, rfl⟩ := hc
  exacts [⟨_, exec_readTile p f s⟩, ⟨_, exec_ack p f s⟩, ⟨_, exec_nack p f s .OK⟩, ⟨_, exec_nack p f s .WINDOW_NONE⟩, ⟨_, exec_nack p f s .TILE_POISONED⟩]

end Answers

/-! ### A frame leaves its operation (R352 to R354) -/

section Done

variable {s : State}

theorem State.remote_setRemote (s : State) (i n : Nat) (r : Remote) :
    (s.setRemote i r).remote n = if n = i ∧ i < s.fab.remotes.length then r else s.remote n := by
  simp only [State.remote, State.setRemote, List.getD_eq_getElem?_getD, List.getElem?_set]
  by_cases hn : n = i
  · subst hn
    by_cases hl : n < s.fab.remotes.length <;> simp [hl]
  · simp [hn, Ne.symm hn]

/-- A frame that has been sent is not issued. -/
theorem mayIssue_sent {fs : List RFrame} (h : ∀ y ∈ fs, y.sent = true) (j : Nat) : mayIssue fs j = false := by
  rw [mayIssue]
  split
  · rfl
  · next x hx => simp [h x (List.mem_of_getElem? hx)]

/-- With every frame sent there is none to issue. -/
theorem State.pump_sent {i : Nat} (h : ∀ y ∈ (s.remote i).frames, y.sent = true) : s.pump i = s :=
  List.foldl_fixed' (fun j => if_neg (by simp [mayIssue_sent h])) _

theorem State.Quiet.closeRemotes (h : s.Quiet) (n : Nat) : State.closeRemotes n s = s := by
  cases n with
  | zero => rfl
  | succ n => rw [State.closeRemotes, show endedRemote s.fab.remotes = none from h]

/-- An operation that has ended is closed. -/
theorem State.settled_ended {i : Nat} (h : endedRemote s.fab.remotes = some i) :
    s.settled = State.closeRemotes 4095 (State.endRemote { s with fab := { s.fab with remotes := s.fab.remotes.eraseIdx i } } (s.remote i)) := by
  rw [State.settled, State.closeRemotes, h]

/-- The answered frame `j` has left operation `i`, with the bytes of a READ_TILE. -/
def State.unframed (s : State) (i j : Nat) (far : Option (Nat × List Byte)) : State :=
  s.setRemote i { s.remote i with
    frames := (s.remote i).frames.eraseIdx j
    far := match far with | some (a, bs) => Tab.setList (s.remote i).far a bs | none => (s.remote i).far }

theorem State.frameDone_eq (s : State) (i j : Nat) (far : Option (Nat × List Byte)) : s.frameDone i j far = ((s.unframed i j far).pump i).settled := rfl

section One

variable {x : Remote} (hx : s.fab.remotes = [x])

include hx

theorem State.remotes_unframed (far : Option (Nat × List Byte)) : (s.unframed 0 0 far).fab.remotes =
    [{ x with frames := x.frames.eraseIdx 0, far := match far with | some (a, bs) => Tab.setList x.far a bs | none => x.far }] := by
  have remote : s.remote 0 = x := by rw [State.remote, hx]; rfl
  show s.fab.remotes.set 0 _ = _
  rw [hx, remote]
  rfl

/-- Of two frames the second, sent as well, is waited for. -/
theorem State.frameDone_waits {y z : RFrame} (hf : x.failed = none) (hyz : x.frames = [y, z]) (hz : z.sent = true) (far : Option (Nat × List Byte)) :
    (s.frameDone 0 0 far).fab.remotes =
      [{ x with frames := [z], far := match far with | some (a, bs) => Tab.setList x.far a bs | none => x.far }] := by
  have left := State.remotes_unframed hx far
  rw [hyz] at left
  have frames : ((s.unframed 0 0 far).remote 0).frames = [z] := by rw [State.remote, left]; rfl
  have quiet : (s.unframed 0 0 far).Quiet := by
    rw [State.Quiet, left, endedRemote_eq_none_iff]
    simp [hf]
  rw [State.frameDone_eq, State.pump_sent (by rw [frames]; simpa using hz), quiet.settled]
  exact left

/-- A post ends with its frame's answer. -/
theorem State.frameDone_post {g : Nat} {y : RFrame} (hi : x.issuer = .post g) (hf : x.failed = none) (hy : x.frames = [y]) :
    s.frameDone 0 0 none = { s with fab := { s.fab with remotes := [] } } := by
  have left := State.remotes_unframed hx none
  rw [hy] at left
  have remote : (s.unframed 0 0 none).remote 0 = { x with frames := [] } := by rw [State.remote, left]; rfl
  have ended : endedRemote (s.unframed 0 0 none).fab.remotes = some 0 := by
    rw [left, endedRemote, if_pos (by rw [Bool.or_eq_true]; exact .inr rfl)]
  have closes : (State.endRemote { s with fab := { s.fab with remotes := [] } } { x with frames := [] }) = { s with fab := { s.fab with remotes := [] } } := by
    simp only [State.endRemote, hi, hf]
  rw [State.frameDone_eq, State.pump_sent (by rw [remote]; exact nofun), State.settled_ended ended, remote, left]
  refine (congrArg (State.closeRemotes 4095) closes).trans ?_
  exact State.Quiet.closeRemotes (s := { s with fab := { s.fab with remotes := [] } }) rfl _

end One

end Done

/-! ### Frames unanswered for RETRY_TIME (R353) -/

theorem idempotent_iff (k : Nat) : idempotent k = true ↔ k ∈ [fkWrite, fkMasked, fkRead] := by
  simp [idempotent, or_assoc]

theorem exec_retryTime (i j : Nat) (s : State) : exec (.retryTime i j) s = .next (s.retry i j) := rfl

section Retry

variable {s : State} {i j : Nat}

theorem State.retry_none (h : (s.remote i).frames[j]? = none) : s.retry i j = s := by
  simp only [State.retry, h]

variable {y : RFrame} (hy : (s.remote i).frames[j]? = some y)

include hy

theorem State.retry_waits (h : y.sent = false ∨ s.time.tick < y.since + s.retryTime) : s.retry i j = s := by
  have waits : (!y.sent || decide (s.time.tick < y.since + s.retryTime)) = true := by simpa using h
  simp only [State.retry, hy, waits, if_true]

variable (hs : y.sent = true) (ht : y.since + s.retryTime ≤ s.time.tick)

include hs ht

/-- A frame that is due is sent again while it may be, and its operation fails after that. -/
theorem State.retry_due : s.retry i j =
    if (idempotent y.frame.kind && decide (y.resends < s.retryLimit)) = true then
      match s.sendOut y.frame with
      | some t => (t.setRemote i { s.remote i with
          frames := (s.remote i).frames.set j { y with since := s.time.tick, resends := y.resends + 1 } }).bump (fabReg Reg.REMOTE_RETRY_TOTAL) 1
      | none => (s.failRemote i .FABRIC_UNREACHABLE y.frame.target).settled
    else (((s.failRemote i (if idempotent y.frame.kind then .REMOTE_TIMEOUT else .REMOTE_UNKNOWN) y.frame.target).bump (fabReg Reg.REMOTE_TIMEOUT_TOTAL) 1).raise
      .REMOTE_TIMEOUT (Src.port 0) [y.module, y.frame.kind, y.frame.target]).settled := by
  have due : ¬ (!y.sent || decide (s.time.tick < y.since + s.retryTime)) = true := by simpa [hs] using ht
  simp only [State.retry, hy, if_neg due] <;> rfl

theorem State.retry_fails (h : y.frame.kind ∉ [fkWrite, fkMasked, fkRead] ∨ s.retryLimit ≤ y.resends) : s.retry i j =
    (((s.failRemote i (if y.frame.kind ∈ [fkWrite, fkMasked, fkRead] then .REMOTE_TIMEOUT else .REMOTE_UNKNOWN) y.frame.target).bump
      (fabReg Reg.REMOTE_TIMEOUT_TOTAL) 1).raise .REMOTE_TIMEOUT (Src.port 0) [y.module, y.frame.kind, y.frame.target]).settled := by
  have spent : ¬ (idempotent y.frame.kind && decide (y.resends < s.retryLimit)) = true := by
    rw [Bool.and_eq_true, decide_eq_true_iff, idempotent_iff]
    rintro ⟨hk, hr⟩
    exact h.elim (fun h => h hk) (fun h => absurd hr (Nat.not_lt.mpr h))
  rw [State.retry_due hy hs ht, if_neg spent]
  simp only [idempotent_iff]

variable (hk : y.frame.kind ∈ [fkWrite, fkMasked, fkRead]) (hr : y.resends < s.retryLimit)

include hk hr

theorem State.retry_again : s.retry i j = match s.sendOut y.frame with
    | some t => (t.setRemote i { s.remote i with
        frames := (s.remote i).frames.set j { y with since := s.time.tick, resends := y.resends + 1 } }).bump (fabReg Reg.REMOTE_RETRY_TOTAL) 1
    | none => (s.failRemote i .FABRIC_UNREACHABLE y.frame.target).settled := by
  have again : (idempotent y.frame.kind && decide (y.resends < s.retryLimit)) = true := by
    rw [Bool.and_eq_true, decide_eq_true_iff, idempotent_iff]
    exact ⟨hk, hr⟩
  rw [State.retry_due hy hs ht, if_pos again]

theorem State.retry_unreachable (h : s.exit y.frame.dst = none) : s.retry i j = (s.failRemote i .FABRIC_UNREACHABLE y.frame.target).settled := by
  rw [State.retry_again hy hs ht hk hr, State.sendOut, h]
  rfl

/-- The frame leaves again by its route, and that is noted with it. -/
theorem State.retry_resends {p : Nat} (h : s.exit y.frame.dst = some p) : s.retry i j =
    ((s.transmit p y.frame).setRemote i { s.remote i with
      frames := (s.remote i).frames.set j { y with since := s.time.tick, resends := y.resends + 1 } }).bump (fabReg Reg.REMOTE_RETRY_TOTAL) 1 := by
  rw [State.retry_again hy hs ht hk hr, State.sendOut, h]
  rfl

end Retry

theorem State.transmit_remotes (s : State) (p : Nat) (f : Frame) : (s.transmit p f).fab.remotes = s.fab.remotes := by rw [State.transmit_eq]

theorem State.remote_transmit (s : State) (p : Nat) (f : Frame) (n : Nat) : (s.transmit p f).remote n = s.remote n :=
  congrArg (fun l : List Remote => l.getD n default) (s.transmit_remotes p f)

theorem State.reg_transmit_retry (s : State) (p : Nat) (f : Frame) :
    (s.transmit p f).reg (fabReg Reg.REMOTE_RETRY_TOTAL) = s.reg (fabReg Reg.REMOTE_RETRY_TOTAL) :=
  s.reg_transmit p f (offPort_fabReg (r := 0x428) (by decide) (by decide) (by decide))

end Sys2Proof.Machine
end

section
/-! PROOFS of the family 11_glosa_fabric: collectives: the start of an Instance, its records, its failure and its end (R359, R366 to R369). -/

namespace Sys2Proof.Machine

/-! ### Events that have arisen stay (R28) -/

/-- What has been reported in `s` still is in `t`. -/
def State.Reports (s t : State) : Prop := s.ev.inFlight <+: t.ev.inFlight

theorem State.Reports.refl (s : State) : s.Reports s := List.prefix_rfl

theorem State.Reports.trans {s t u : State} (h : s.Reports t) (k : t.Reports u) : s.Reports u := List.IsPrefix.trans h k

theorem State.Reports.of_ev {s t : State} (h : t.ev = s.ev) : s.Reports t := by
  rw [State.Reports, h]

theorem State.Reports.mem {s t : State} (h : s.Reports t) {v : EvRec} (hv : v ∈ s.ev.inFlight) : v ∈ t.ev.inFlight := List.IsPrefix.mem hv h

theorem Kept.reports {W : Nat} {s t : State} (h : Kept W s t) (hW : W.testBit Zone.ev.bit = false) : s.Reports t := .of_ev (h.only .ev hW)

theorem State.reports_raise (s : State) (k : Code) (x : Src) (l : List Nat) (c : Code) : s.Reports (s.raise k x l c) := List.prefix_append _ _

theorem State.reports_bump (s : State) (a n : Nat) : s.Reports (s.bump a n) := List.prefix_rfl

theorem State.reports_foldl {α : Type} {f : State → α → State} (hf : ∀ (s : State) x, s.Reports (f s x)) (l : List α) (s : State) : s.Reports (l.foldl f s) := by
  induction l generalizing s with
  | nil => exact .refl s
  | cons x l ih => exact (hf s x).trans (ih (f s x))

theorem State.mem_raise (s : State) (k : Code) (x : Src) (l : List Nat) : ∃ v ∈ (s.raise k x l).ev.inFlight, v.code = k ∧ v.args = l :=
  ⟨_, List.mem_append_right _ (List.mem_singleton.mpr rfl), rfl, rfl⟩

/-! ### Sequencers that go on, or fault, leave the fabric's account alone (R308, R414) -/

/-- From `s` to `t` the runs of collectives noted in the step and the counters of the fabric stay, and no event is lost; the step may have been abandoned. -/
structure State.Spares (s t : State) : Prop where
  runs : t.step.collRuns = s.step.collRuns
  counters : ∀ a < 0x40000, t.reg a = s.reg a
  events : s.Reports t

section Spares

theorem State.Spares.refl (s : State) : s.Spares s := ⟨rfl, fun _ _ => rfl, .refl s⟩

theorem State.Spares.trans {s t u : State} (h : s.Spares t) (k : t.Spares u) : s.Spares u :=
  ⟨k.runs.trans h.runs, fun a ha => (k.counters a ha).trans (h.counters a ha), h.events.trans k.events⟩

theorem State.spares_raise (s : State) (k : Code) (x : Src) (l : List Nat) (c : Code) : s.Spares (s.raise k x l c) :=
  ⟨rfl, fun _ _ => rfl, s.reports_raise k x l c⟩

/-- The registers of memory controllers and dies lie above the fabric's. -/
theorem State.spares_bump (s : State) {a : Nat} (ha : 0x40000 ≤ a) (n : Nat) : s.Spares (s.bump a n) :=
  ⟨rfl, fun b hb => (s.reg_bump a n b).trans (if_neg (by omega)), s.reports_bump a n⟩

theorem dieReg_ge (d r : Nat) : 0x40000 ≤ dieReg d r := show 0x40000 ≤ 0x80000 + 0xE000 * d + r by omega

theorem memReg_ge (m r : Nat) : 0x40000 ≤ memReg m r := show 0x40000 ≤ 0x40000 + 0x4000 * m + r by omega

theorem State.spares_foldl {α : Type} {f : State → α → State} (hf : ∀ (s : State) x, s.Spares (f s x)) (l : List α) (s : State) : s.Spares (l.foldl f s) := by
  induction l generalizing s with
  | nil => exact .refl s
  | cons x l ih => exact (hf s x).trans (ih (f s x))

theorem Kept.spares {W : Nat} {s t : State} (h : Kept W s t) (hs : W.testBit Zone.step.bit = false) (hr : W.testBit Zone.regs.bit = false)
    (hev : W.testBit Zone.ev.bit = false) : s.Spares t :=
  ⟨congrArg StepSt.collRuns (h.only .step hs), fun a _ => congrArg (fun t => resetOf a ^^^ Tab.get t a) (h.only .regs hr), h.reports hev⟩

variable (s : State)

theorem State.spares_setSeq (q : Nat) (x : Sequencer) : s.Spares (s.setSeq q x) := ⟨rfl, fun _ _ => rfl, .refl s⟩

theorem State.spares_setQueue (g : Nat) (x : Queue) : s.Spares (s.setQueue g x) := ⟨rfl, fun _ _ => rfl, .refl s⟩

theorem State.spares_flushQueue (g : Nat) : s.Spares (s.flushQueue g) :=
  (s.spares_setQueue g _).trans ((State.spares_bump _ (dieReg_ge _ _) _).trans (State.spares_raise _ _ _ _ _))

theorem State.spares_dropStep : s.Spares s.dropStep :=
  State.Spares.trans (t := { s.stopSequencers with
      passes := [], verdicts := [], runs := [], troubles := [], flight := [], walks := []
      fab := { s.fab with remotes := s.fab.remotes.filter (fun r => !r.issuer.queued) } })
    ⟨rfl, fun _ _ => rfl, .refl s⟩ (State.spares_foldl (fun t g => t.spares_flushQueue g) _ _)

/-- The step in progress as an abandonment leaves it (R414, R415). -/
def StepSt.givenUp (t : StepSt) (addr : Nat) (seqs : List Nat) : StepSt :=
  { t with abandoned := true, attempt := t.attempt + 1, faultAddr := addr :: t.faultAddr
           excluded := if t.attempt != 0 && t.faultAddr.contains addr then t.excluded ++ (if seqs.isEmpty then t.admitted.map Admit.idx else seqs) else t.excluded
           rerun := t.admitted.map Admit.idx }

/-- The step has been abandoned, and what it held dropped. -/
def State.stepDropped (s : State) (cls : DetClass) (c : Code) (addr : Nat) (seqs : List Nat) : State :=
  ((State.raise { s with step := s.step.givenUp addr seqs } .STEP_ABANDONED Src.steward [s.step.num, cls.code, statusNumber c, addr] c).bump
    (dieReg s.stewardDie Reg.SE_STEP_ABANDON_TOTAL) 1).dropStep

theorem State.abandon_eq (cls : DetClass) (c : Code) (addr : Nat) (seqs : List Nat) : s.abandon cls c addr seqs =
    if !s.step.running || s.step.committed || s.step.abandoned then s
    else if s.step.attempt != 0 && s.step.faultAddr.contains addr then (s.stepDropped cls c addr seqs).raise .FAULT_PERSISTENT Src.steward [addr]
    else s.stepDropped cls c addr seqs := rfl

/-- A step that is abandoned keeps the runs of collectives that it has noted. -/
theorem State.spares_stepDropped (cls : DetClass) (c : Code) (addr : Nat) (seqs : List Nat) : s.Spares (s.stepDropped cls c addr seqs) :=
  State.Spares.trans (t := { s with step := s.step.givenUp addr seqs }) ⟨rfl, fun _ _ => rfl, .refl s⟩
    ((State.spares_raise _ _ _ _ _).trans ((State.spares_bump _ (dieReg_ge _ _) _).trans (State.spares_dropStep _)))

theorem State.spares_abandon (cls : DetClass) (c : Code) (addr : Nat) (seqs : List Nat) : s.Spares (s.abandon cls c addr seqs) := by
  rw [State.abandon_eq]
  split
  · exact .refl s
  · split
    · exact (s.spares_stepDropped _ _ _ _).trans (State.spares_raise _ _ _ _ _)
    · exact s.spares_stepDropped _ _ _ _

theorem State.spares_openWindow (w : Window) : s.Spares (s.openWindow w) := ⟨rfl, fun _ _ => rfl, .refl s⟩

theorem State.spares_faultDetected (c : Code) (addr : Nat) (seqs : List Nat) : s.Spares (s.faultDetected c addr seqs) := by
  simp only [State.faultDetected]
  split
  · exact .refl s
  · exact (s.spares_openWindow _).trans (State.spares_abandon _ _ _ _ _)

theorem State.spares_hearthIrq (g : Nat) : s.Spares (s.hearthIrq g) := ⟨rfl, fun _ _ => rfl, .refl s⟩

theorem State.spares_enterFault (q : Nat) (r : FaultRec) : s.Spares (s.enterFault q r) :=
  (s.spares_setSeq q _).trans ((State.spares_bump _ (dieReg_ge _ _) _).trans ((State.spares_hearthIrq _ _).trans
    ((State.spares_raise _ _ _ _ _).trans (State.spares_faultDetected _ _ _ _))))

theorem State.spares_seqGoto (q pc : Nat) : s.Spares (s.seqGoto q pc) := by
  simp only [State.seqGoto, State.instrFault]
  split
  · exact s.spares_enterFault _ _
  · split
    · exact s.spares_setSeq _ _
    · split
      · exact s.spares_enterFault _ _
      · split
        · exact (s.spares_setSeq _ _).trans (State.spares_enterFault _ _ _)
        · exact s.spares_setSeq _ _

theorem State.spares_wake (w : Who) : s.Spares (s.wake w) := by
  cases w with
  | seq q =>
    simp only [State.wake]
    split
    · exact s.spares_seqGoto _ _
    · exact .refl s
  | hearth g => exact .refl s
  | dma g => exact .refl s

theorem State.spares_wakeAll (l : List Waiter) (s : State) : s.Spares (s.wakeAll l) := by
  induction l generalizing s with
  | nil => exact .refl s
  | cons w l ih => exact (s.spares_wake w.who).trans (ih _)

theorem State.spares_objTaken (n v : Nat) : s.Spares (s.objTaken n v) :=
  State.Spares.trans (t := s.setObj n { s.obj n with val := v, waiters := (s.obj n).waiters.filter (fun w => !w.holds v) }) ⟨rfl, fun _ _ => rfl, .refl s⟩
    (State.spares_bump _ (memReg_ge _ _) _)

theorem State.spares_objTake (n v : Nat) : s.Spares (s.objTake n v) := (s.spares_objTaken n v).trans (State.spares_wakeAll _ _)

/-- A post without a requester to answer. -/
theorem State.spares_objPost (n δ req : Nat) : s.Spares (s.objPost n δ req) := by
  rw [State.objPost]
  split
  · exact s.spares_objTake _ _
  · exact (s.spares_bump (memReg_ge _ _) _).trans (State.spares_raise _ _ _ _ _)

theorem State.objPost_topo (n δ req : Nat) : (s.objPost n δ req).topo = s.topo :=
  (State.objPost_kept rfl (Kept.refl 3711044903011 s)).only .topo rfl

theorem State.objSet_topo (n v req : Nat) : (s.objSet n v req).topo = s.topo :=
  (State.objSet_kept rfl (Kept.refl 3711044903011 s)).only .topo rfl

/-- Whatever the waiters do that are woken, the object keeps the value that it took. -/
theorem State.val_objTake (n v : Nat) : ((s.objTake n v).obj n).val = v := by
  have woken : (s.objTake n v).sync = (s.objTaken n v).sync :=
    (State.wakeAll_kept (a0 := s.objTaken n v) rfl (Kept.refl 3711044837475 _)).only .sync rfl
  rw [State.obj_congr woken]
  exact congrArg SyncObj.val ((State.obj_setObj _ _ _ _).trans (if_pos rfl))

end Spares

/-! ### The start of an Instance (R359) -/

/-- The `Instance` that starts. -/
def State.nextInstance (s : State) (key : Nat) : Instance :=
  { key := key, number := Tab.get s.topo.started key % 2 ^ 16, step := s.step.num, start := s.time.tick }

/-- START_OBJ is 0 again, and the `Instance` has been counted and runs. -/
def State.instanceBegun (s : State) (key : Nat) (c : ImageColl) : State :=
  let t := s.objSet c.start 0 reqColl
  { t with topo := { t.topo with started := Tab.set t.topo.started key (Tab.get s.topo.started key + 1), instances := t.topo.instances ++ [s.nextInstance key] } }

section Start

variable {s : State} {key : Nat}

theorem exec_collInstanceStart (key : Nat) (s : State) : exec (.collInstanceStart key) s = .next (s.collBegin key).settled := rfl

theorem State.collBegin_undefined (h : s.collDef key = none) : s.collBegin key = s := by simp only [State.collBegin, h]

variable {c : ImageColl} (hc : s.collDef key = some c)

include hc

theorem State.collBegin_waits (h : s.instanceOf key ≠ none ∨ (s.obj c.start).allocated = false ∨ waitHolds false (s.obj c.start).val c.count = false ∨ c.stages = []) :
    s.collBegin key = s := by
  have waits : ((s.instanceOf key).isSome || !waitHolds false (s.obj c.start).val c.count || !(s.obj c.start).allocated || c.stages.isEmpty) = true := by
    simp only [Bool.or_eq_true, Bool.not_eq_true', List.isEmpty_iff]
    obtain h | h | h | h := h
    exacts [.inl (.inl (.inl (Option.isSome_iff_ne_none.mpr h))), .inl (.inr h), .inl (.inl (.inr h)), .inr h]
  simp only [State.collBegin, hc, waits, if_true]

theorem State.collBegin_starts (hi : s.instanceOf key = none) (ha : (s.obj c.start).allocated = true) (hw : waitHolds false (s.obj c.start).val c.count = true)
    (hs : c.stages ≠ []) : s.collBegin key = ((s.instanceBegun key c).collStart c (s.nextInstance key)).collAdvance key 16 := by
  have goes : ¬ ((s.instanceOf key).isSome || !waitHolds false (s.obj c.start).val c.count || !(s.obj c.start).allocated || c.stages.isEmpty) = true := by
    simp [hi, ha, hw, hs]
  simp only [State.collBegin, hc, if_neg goes]
  rfl

omit hc in
theorem State.instanceBegun_facts (s : State) (key : Nat) {c : ImageColl} (ha : (s.obj c.start).allocated = true) :
    ((s.instanceBegun key c).obj c.start).val = 0 ∧ Tab.get (s.instanceBegun key c).topo.started key = Tab.get s.topo.started key + 1
      ∧ (s.instanceBegun key c).topo.instances = s.topo.instances ++ [s.nextInstance key] := by
  have topo := s.objSet_topo c.start 0 reqColl
  refine ⟨?_, by simp only [State.instanceBegun, Tab.get_set, if_true], congrArg (fun t : Topo => t.instances ++ [s.nextInstance key]) topo⟩
  show ((s.objSet c.start 0 reqColl).obj c.start).val = 0
  rw [State.objSet_allocated ha]
  exact s.val_objTake _ _

end Start

section Wait

variable {s : State} {key : Nat}

theorem exec_collWait_undefined (h : s.collDef key = none) : exec (.collWait key) s = .next s := by
  show execCollWait key s = _
  cases hx : s.instanceOf key <;> simp only [execCollWait, h, hx]

theorem exec_collWait_none (h : s.instanceOf key = none) : exec (.collWait key) s = .next s := by
  show execCollWait key s = _
  simp only [execCollWait, h]

theorem exec_collWait {c : ImageColl} {x : Instance} (hc : s.collDef key = some c) (hx : s.instanceOf key = some x) : exec (.collWait key) s =
    .next (if x.start + s.collWait ≤ s.time.tick then (s.collFail c x .COLL_TIMEOUT none [0, 0]).settled else s) := by
  show execCollWait key s = _
  simp only [execCollWait, hc, hx]

end Wait

/-! ### The end of an Instance (R359) -/

section End

variable (s : State) (c : ImageColl) (x : Instance) (e : Code)

theorem State.clearHalf_keeps (n : Nat) : Kept 2048 s (s.clearHalf c n) := State.clearHalf_kept rfl (Kept.refl _ s)

/-- The bytes that an end writes at STATUS (R359). -/
def statusBytes : List Byte :=
  leBytes 2 x.number ++ leBytes 2 (statusNumber e) ++ leBytes 1 (b2n x.overflow + 2 * b2n x.sat + 4 * b2n x.unchecked + 8 * b2n x.rerun)
    ++ leBytes 1 ((c.stages.map (fun d => (s.members d).length)).foldl (· * ·) 1) ++ leBytes 2 0 ++ leBytes 8 x.step

/-- STATUS has been written and the ACC half cleared. -/
def State.endWritten : State := (s.putBytes c.status (statusBytes s c x e)).clearHalf c x.number

/-- The `Instance` has been taken out, and its run noted. -/
def State.instanceOut (t : State) (x : Instance) : State :=
  { t with topo := { t.topo with instances := t.topo.instances.filter (fun y => y.key != x.key)
                                 arrived := t.topo.arrived.filter (fun e => e.1 / 512 != x.key * 2 + x.number % 2) }
           step := { t.step with collRuns := (x.step, x.key) :: t.step.collRuns } }

theorem State.collEnd_eq : s.collEnd c x e = (((s.endWritten c x e).instanceOut x).objPost c.done 1 reqColl).bump (fabReg Reg.COLL_RUN_TOTAL) 1 := rfl

theorem State.endWritten_keeps : Kept 2048 s (s.endWritten c x e) := State.clearHalf_kept rfl (State.putBytes_kept rfl (Kept.refl _ s))

theorem State.collEnd_instances : (s.collEnd c x e).topo.instances = s.topo.instances.filter (fun y => y.key != x.key) := by
  have written : (s.endWritten c x e).topo = s.topo := (s.endWritten_keeps c x e).only .topo rfl
  rw [State.collEnd_eq, State.bump_topo, State.objPost_topo, State.instanceOut, written]

theorem State.mem_collEnd_instances (y : Instance) : y ∈ (s.collEnd c x e).topo.instances ↔ y ∈ s.topo.instances ∧ y.key ≠ x.key := by
  rw [State.collEnd_instances, List.mem_filter, bne_iff_ne]

theorem State.collEnd_runs : (s.collEnd c x e).step.collRuns = (x.step, x.key) :: s.step.collRuns := by
  have written : (s.endWritten c x e).step = s.step := (s.endWritten_keeps c x e).only .step rfl
  rw [State.collEnd_eq, State.bump_step, (State.spares_objPost _ _ _ _).runs, State.instanceOut, written]

theorem State.collEnd_counts :
    (s.collEnd c x e).reg (fabReg Reg.COLL_RUN_TOTAL) = min (2 ^ 64 - 1) (s.reg (fabReg Reg.COLL_RUN_TOTAL) + 1) := by
  have written : (s.endWritten c x e).regs = s.regs := (s.endWritten_keeps c x e).only .regs rfl
  have before : (((s.endWritten c x e).instanceOut x).objPost c.done 1 reqColl).reg (fabReg Reg.COLL_RUN_TOTAL) = s.reg (fabReg Reg.COLL_RUN_TOTAL) := by
    rw [(State.spares_objPost _ _ _ _).counters _ (by decide), State.reg, State.reg, ← written]
    rfl
  rw [State.collEnd_eq, State.reg_bump, if_pos rfl, before]

theorem State.reports_collEnd : s.Reports (s.collEnd c x e) :=
  ((s.endWritten_keeps c x e).reports rfl).trans
    (State.Reports.trans (t := (s.endWritten c x e).instanceOut x) (.refl _) ((State.spares_objPost _ _ _ _).events.trans (State.reports_bump _ _ _)))

end End

/-! ### Additions of this member's own words (R361) -/

section Local

variable (s : State)

theorem State.reports_addFx (src : Src) (m a : Nat) (v : Int) : s.Reports (s.addFx src m a v) := by
  simp only [State.addFx]
  split
  · exact .refl s
  · exact List.prefix_append _ _

theorem State.reports_addI32 (m a : Nat) (v : Int) : s.Reports (s.addI32 m a v) := by
  simp only [State.addI32]
  split <;> exact .refl s

theorem State.reports_addWords (src : Src) (m : Nat) (i32 : Bool) (ws : List Int) (s : State) (a : Nat) : s.Reports (s.addWords src m i32 a ws) := by
  induction ws generalizing s a with
  | nil => exact .refl s
  | cons v ws ih =>
    cases i32
    · rw [State.addWords_fx_cons]
      exact (s.reports_addFx src m a v).trans (ih _ _)
    · rw [State.addWords_i32_cons]
      exact (s.reports_addI32 m a v).trans (ih _ _)

theorem State.reports_payloadAdded (src : Src) (m : Nat) (p : Payload) : s.Reports (s.payloadAdded src m p) := by
  refine (State.reports_addWords src m p.i32 p.words s p.target).trans (.of_ev ?_)
  simp only [State.payloadAdded, State.bump_ev, State.sumDigest]
  split
  · split <;> split <;> rfl
  · split <;> rfl

theorem State.reports_payload (src : Src) (d : Nat) {p : Payload} (hobj : p.obj = none) : s.Reports (s.payload src d p) := by
  by_cases h : s.payloadStatus p = .OK
  · rw [State.payload_unposted h hobj]
    exact s.reports_payloadAdded src _ p
  · rw [State.payload_refused h]
    exact State.reports_raise _ _ _ _ _

theorem State.reports_addLocal (c : ImageColl) (k : Int) (n : Nat) (s : State) (a : Nat) (ws : List Int) : s.Reports (s.addLocal c k n a ws) := by
  induction n generalizing s a ws with
  | zero => exact .refl s
  | succ n ih =>
    simp only [State.addLocal]
    split
    · exact .refl s
    · exact (s.reports_payload _ _ rfl).trans (ih _ _ _)

end Local

/-! ### An attempt that starts, and one that runs again (R361, R368) -/

section Rerun

variable (s : State) (c : ImageColl) (x : Instance)

/-- What a stage sends leaves every event and every `Instance` as it is. -/
theorem State.sendStage_keeps (m type d digest : Nat) (span : Nat × Nat) (fs : List Frame) : Kept 2199023255555 s (s.sendStage c x m type d digest span fs) :=
  State.sendStage_kept rfl (Kept.refl _ s)

theorem State.addLocal_topo (k : Int) (n a : Nat) (ws : List Int) : (s.addLocal c k n a ws).topo = s.topo :=
  (State.addLocal_kept rfl (Kept.refl 3711044905059 s)).only .topo rfl

theorem State.foldl_topo {α : Type} {f : State → α → State} (hf : ∀ s x, (f s x).topo = s.topo) (l : List α) (s : State) : (l.foldl f s).topo = s.topo := by
  induction l generalizing s with
  | nil => rfl
  | cons x l ih => exact (ih (f s x)).trans (hf s x)

theorem State.reports_enterReduce (k : Nat) : s.Reports (s.enterReduce c x k) := by
  simp only [State.enterReduce]
  refine State.Reports.trans (t := s.setInstance _) (.of_ev rfl) (State.reports_foldl (fun t e => ?_) _ _)
  split
  · exact State.reports_addLocal _ _ _ _ _ _
  · exact (t.sendStage_keeps _ _ _ _ _ _ _ _).reports rfl

/-- A stage that starts is that of its `Instance`. -/
theorem State.enterReduce_instances (k : Nat) :
    ∃ own, (s.enterReduce c x k).topo.instances = (s.setInstance { x with stage := k, passed := [], own := own }).topo.instances := by
  simp only [State.enterReduce]
  refine ⟨_, congrArg Topo.instances (State.foldl_topo (fun t e => ?_) _ _)⟩
  split
  · exact t.addLocal_topo _ _ _ _ _
  · exact (t.sendStage_keeps _ _ _ _ _ _ _ _).only .topo rfl

/-- The second attempt of an `Instance`. -/
def Instance.again (x : Instance) (own : Nat) : Instance :=
  { x with attempt := 1, rerun := true, overflow := false, sat := false, unchecked := false, stage := 0, passed := [], sums := [], own := own }

/-- The half of the failed attempt is cleared, and what arrived for it forgotten. -/
def State.rerunCleared : State :=
  let t := s.clearHalf c x.number
  { t with topo := { t.topo with arrived := t.topo.arrived.filter (fun e => e.1 / 512 != x.key * 2 + x.number % 2) } }.bump (fabReg Reg.COLL_RERUN_TOTAL) 1

theorem State.rerunNow_eq : s.rerunNow c x = (s.rerunCleared c x).enterReduce c
    { x with attempt := 1, rerun := true, overflow := false, sat := false, unchecked := false, passed := [], sums := [] } 0 := rfl

theorem State.rerunCleared_instances : (s.rerunCleared c x).topo.instances = s.topo.instances := by
  have cleared : (s.clearHalf c x.number).topo = s.topo := (s.clearHalf_keeps c x.number).only .topo rfl
  show (s.clearHalf c x.number).topo.instances = s.topo.instances
  rw [cleared]

theorem State.reports_rerunNow : s.Reports (s.rerunNow c x) :=
  State.Reports.trans (.of_ev ((s.clearHalf_keeps c x.number).only .ev rfl)) (State.reports_enterReduce (s.rerunCleared c x) _ _ _)

theorem State.rerunNow_instances : ∃ own, (s.rerunNow c x).topo.instances = s.topo.instances.map (fun y => if y.key = x.key then x.again own else y) := by
  obtain ⟨own, h⟩ := (s.rerunCleared c x).enterReduce_instances c
    { x with attempt := 1, rerun := true, overflow := false, sat := false, unchecked := false, passed := [], sums := [] } 0
  refine ⟨own, ?_⟩
  rw [State.rerunNow_eq, h, State.setInstance, s.rerunCleared_instances c x]
  rfl

variable {s x}

/-- The `Instance` of a definition, once replaced, is the new one. -/
theorem State.instanceOf_replaced {t : State} {z : Instance} (hx : s.instanceOf x.key = some x) (hz : z.key = x.key)
    (ht : t.topo.instances = s.topo.instances.map (fun y => if y.key = x.key then z else y)) : t.instanceOf x.key = some z := by
  have found (l : List Instance) (h : l.find? (fun y => y.key == x.key) = some x) :
      (l.map (fun y => if y.key = x.key then z else y)).find? (fun y => y.key == x.key) = some z := by
    induction l with
    | nil => exact nomatch h
    | cons y l ih =>
      by_cases hy : y.key = x.key
      · simp [hy, hz]
      · rw [List.find?_cons_of_neg (by simpa using hy)] at h
        rw [List.map_cons, if_neg hy, List.find?_cons_of_neg (by simpa using hy)]
        exact ih h
  rw [State.instanceOf, ht]
  exact found _ hx

end Rerun

/-! ### An attempt that fails (R368, R369) -/

section Fail

variable (s : State) (c : ImageColl) (x : Instance) (e : Code) (m : Option Nat) (l : List Nat)

/-- The failure of an attempt has been reported. -/
def State.failTold : State :=
  (s.raise e (Src.ofMdie 0) ([x.key, x.stage, m.getD 0xFFFF, s.moduleId] ++ l)).bump (fabReg Reg.COLL_MISMATCH_TOTAL) (if e = .COLL_MISMATCH then 1 else 0)

/-- The other members have been told to run the `Instance` again, and the attempt's own frames are given up. -/
def State.rerunTold : State :=
  c.stages.foldl (fun s d => (s.members d).foldl (fun s m =>
    if m = s.moduleId then s else s.sendRecord x.key x.number x.attempt m (recAddr c d (s.myPlace d) 3) (s.recordOf c x 3 d 0 (0, 0)).bytes) s) (s.dropColl x)

theorem State.rerunTold_keeps : Kept 2199023255555 s (s.rerunTold c x) :=
  kept_foldl _ (fun _ _ h => kept_foldl _ (fun _ _ h => kept_ite h (State.sendRecord_kept rfl h)) h) (State.dropColl_kept rfl (Kept.refl _ s))

variable {s x}

theorem State.collFail_reruns (hr : s.collRetry = true) (ha : x.attempt = 0) :
    s.collFail c x e m l = ((s.failTold x e m l).rerunTold c x).rerunNow c x := by
  refine if_pos ?_
  rw [Bool.and_eq_true, beq_iff_eq]
  exact ⟨hr, ha⟩

theorem State.collFail_ends (h : s.collRetry = false ∨ x.attempt ≠ 0) : s.collFail c x e m l = (s.failTold x e m l).collFailed c x m := by
  refine if_neg ?_
  rw [Bool.and_eq_true, beq_iff_eq]
  rintro ⟨hr, ha⟩
  exact h.elim (fun h => Bool.false_ne_true (h.symm.trans hr)) (fun h => h ha)

variable (s x)

/-- The sender of the mismatch is noted. -/
def State.senderNoted : State :=
  match m with
  | some m => { s with topo := { s.topo with suspects := (m, x.step) :: s.topo.suspects } }
  | none => s

/-- The sender of the mismatch is noted, and OUT poisoned. -/
def State.outPoisoned : State :=
  (piecesOf c.out (c.words * c.word)).foldl (fun s p => s.poison (p.1 / 4096)) (s.senderNoted x m)

theorem State.collFailed_eq : ∃ args, s.collFailed c x m =
    (((s.outPoisoned c x m).collEnd c x .COLL_FAILED).raise .COLL_FAILED (Src.ofMdie 0) args).bump (fabReg Reg.COLL_FAIL_TOTAL) 1 := ⟨_, rfl⟩

theorem State.reports_outPoisoned : s.Reports (s.outPoisoned c x m) := by
  have noted : (s.senderNoted x m).ev = s.ev := by cases m <;> rfl
  exact .trans (.of_ev noted) (State.reports_foldl (f := fun t (p : Nat × Nat) => t.poison (p.1 / 4096)) (fun _ _ => .of_ev rfl) _ _)

theorem State.reports_collFailed : s.Reports (s.collFailed c x m) := by
  obtain ⟨args, h⟩ := s.collFailed_eq c x m
  rw [h]
  exact (s.reports_outPoisoned c x m).trans ((State.reports_collEnd _ _ _ _).trans (State.reports_raise _ _ _ _ _))

/-- Whatever follows a failure, it has been reported. -/
theorem State.reports_collFail : (s.failTold x e m l).Reports (s.collFail c x e m l) := by
  by_cases h : s.collRetry = true ∧ x.attempt = 0
  · rw [State.collFail_reruns c e m l h.1 h.2]
    exact ((State.rerunTold_keeps _ c x).reports rfl).trans (State.reports_rerunNow _ c x)
  · rw [State.collFail_ends c e m l (by simpa using not_and_or.mp h)]
    exact State.reports_collFailed _ c x m

theorem State.collFail_event : ∃ v ∈ (s.collFail c x e m l).ev.inFlight, v.code = e ∧ v.args = [x.key, x.stage, m.getD 0xFFFF, s.moduleId] ++ l := by
  obtain ⟨v, hv, told⟩ := s.mem_raise e (Src.ofMdie 0) ([x.key, x.stage, m.getD 0xFFFF, s.moduleId] ++ l)
  exact ⟨v, (s.reports_collFail c x e m l).mem hv, told⟩

variable {s x}

/-- The `Instance` runs again as attempt 1. -/
theorem State.collFail_again (hr : s.collRetry = true) (ha : x.attempt = 0) (hx : s.instanceOf x.key = some x) :
    ∃ own, (s.collFail c x e m l).instanceOf x.key = some (x.again own) := by
  rw [State.collFail_reruns c e m l hr ha]
  obtain ⟨own, h⟩ := ((s.failTold x e m l).rerunTold c x).rerunNow_instances c x
  have told : ((s.failTold x e m l).rerunTold c x).topo.instances = s.topo.instances :=
    congrArg Topo.instances ((State.rerunTold_keeps (s.failTold x e m l) c x).only .topo rfl)
  rw [told] at h
  exact ⟨own, State.instanceOf_replaced hx rfl h⟩

theorem State.collFail_out (h : s.collRetry = false ∨ x.attempt ≠ 0) : let u := s.collFail c x e m l
    (∀ y ∈ u.topo.instances, y.key ≠ x.key) ∧ (∃ v ∈ u.ev.inFlight, v.code = .COLL_FAILED) ∧ (x.step, x.key) ∈ u.step.collRuns := by
  obtain ⟨args, failed⟩ := (s.failTold x e m l).collFailed_eq c x m
  rw [State.collFail_ends c e m l h, failed]
  obtain ⟨v, hv, code, -⟩ := State.mem_raise (((s.failTold x e m l).outPoisoned c x m).collEnd c x .COLL_FAILED) .COLL_FAILED (Src.ofMdie 0) args
  refine ⟨fun y hy => ((State.mem_collEnd_instances _ c x .COLL_FAILED y).mp hy).2, ⟨v, hv, code⟩, ?_⟩
  have runs := State.collEnd_runs ((s.failTold x e m l).outPoisoned c x m) c x .COLL_FAILED
  exact runs.symm ▸ List.mem_cons_self

end Fail

/-! ### Records that arrive (R366, R368) -/

section Records

variable {s : State} {m a key : Nat} {c : ImageColl}

theorem State.recordArrived_elsewhere (h : s.recAt a = none) : s.recordArrived m a = s := by
  simp only [State.recordArrived, h]

variable (hr : s.recAt a = some (key, c))

include hr

theorem State.recordArrived_stranger (h : ∀ d ∈ c.stages, m ∉ s.members d) : s.recordArrived m a = s.bump (fabReg Reg.COLL_MISMATCH_TOTAL) 1 := by
  have stranger : c.stages.any (fun d => (s.members d).contains m) = false := List.any_eq_false.mpr fun d hd => by simp [h d hd]
  simp only [State.recordArrived, hr, stranger, Bool.not_false, if_true]

/-- A live member's record lets its stage be checked, or reruns the attempt. -/
theorem State.recordArrived_member (h : ∃ d ∈ c.stages, m ∈ s.members d) : s.recordArrived m a = match s.instanceOf key with
    | some x =>
      if (parseRec (s.bytesAt a 64)).type = 3 then
        (if (parseRec (s.bytesAt a 64)).matches c x 3 (parseRec (s.bytesAt a 64)).dim (parseRec (s.bytesAt a 64)).sender = true ∧ x.attempt = 0 then
          ((s.dropColl x).rerunNow c x).collAdvance key 16 else s)
      else s.collAdvance key 16
    | none => s := by
  obtain ⟨d, hd, hm⟩ := h
  have member : c.stages.any (fun d => (s.members d).contains m) = true := List.any_eq_true.mpr ⟨d, hd, by simpa using hm⟩
  simp only [State.recordArrived, hr, member, Bool.not_true, Bool.false_eq_true, if_false] <;> rfl

end Records

section CollRecord

variable {s : State} {p : Nat} {f : Frame}

/-- What a record's blocks do once they are written, with the status of the write. -/
def State.recordWritten (t : State) (p : Nat) (f : Frame) : State × Code :=
  let w := t.writeAll (Src.port p) (maskBlocks f)
  if w.code = .OK then ((maskBlocks f).foldl (fun s b => s.recordArrived f.src b.1) w.st, .OK) else (w.st, w.code)

theorem exec_collRecord (p : Nat) (f : Frame) (s : State) : exec (.collRecord p f) s = .next (s.arrive p f fkMasked fun t => t.checked p f fun t =>
    (t.recordWritten p f).1.acked f (t.recordWritten p f).2 (t.ingress p f).window).settled := rfl

/-- A record is served as a masked write, and its blocks then arrive. -/
theorem exec_collRecord_served (h : s.arrives p f fkMasked) (hok : Frame.ok f = true) (hg : ((s.received p f).ingress p f).code = .OK) :
    exec (.collRecord p f) s = .next (((s.received p f).recordWritten p f).1.acked f ((s.received p f).recordWritten p f).2
      ((s.received p f).ingress p f).window).settled := by
  rw [exec_collRecord, State.arrive_checked h hok hg]

theorem State.recordWritten_ok {t : State} (h : (t.writeAll (Src.port p) (maskBlocks f)).code = .OK) :
    t.recordWritten p f = ((maskBlocks f).foldl (fun s b => s.recordArrived f.src b.1) (t.writeAll (Src.port p) (maskBlocks f)).st, .OK) := if_pos h

theorem State.recordWritten_refused {t : State} (h : (t.writeAll (Src.port p) (maskBlocks f)).code ≠ .OK) :
    t.recordWritten p f = ((t.writeAll (Src.port p) (maskBlocks f)).st, (t.writeAll (Src.port p) (maskBlocks f)).code) := if_neg h

end CollRecord

/-- Settles O57: an answer goes to the operation it names, a frame that is due goes out again or fails, and an attempt that fails has been reported whatever follows it. -/
theorem answersAndCollectives : Obligations.AnswersAndCollectives := by
  refine ⟨fun s p f c k hc => ?answers, fun s f i j h => ?named, fun s x y z a bs hx hf hyz hz => ⟨State.frameDone_waits hx hf hyz hz none, State.frameDone_waits hx hf hyz hz (some (a, bs))⟩,
    fun s x g y hx hi hf hy => ⟨_, State.frameDone_post hx hi hf hy, rfl, rfl⟩, fun s i j => ?retry, fun s key hq => ?start, fun s c x e m l => ?fail,
    fun s c x e => ⟨s.mem_collEnd_instances c x e, s.collEnd_runs c x e, s.collEnd_counts c x e⟩, fun s m a => ?record, fun s p f => ?frame⟩
  case answers =>
    obtain ⟨taken, hexec⟩ := exec_of_answer s hc
    refine ⟨fun h => hexec.trans (congrArg _ (State.arrive_none h _)), fun up kind range dst => ?_⟩
    have arrives : s.arrives p f k := ⟨up, kind, range, dst⟩
    refine ⟨fun bad => hexec.trans (congrArg _ (State.arrive_dropped arrives bad _)), fun hok none => ?_, fun hok i j h => ⟨?_, ?_, ?_⟩⟩
    · refine hexec.trans (congrArg _ ((State.arrive_served arrives hok _).trans (State.takes_none (State.answered_none ?_) _)))
      rw [s.received_remotes p f]
      exact none
    · rintro rfl
      obtain rfl : c = .ack p f := by simpa using hc
      rw [exec_ack, State.arrive_served arrives hok, State.takes_some (t := s.received p f) h]
      rfl
    · rintro rfl
      obtain rfl : c = .readTile p f := by simpa using hc
      rw [exec_readTile, State.arrive_served arrives hok, State.takes_some (t := s.received p f) h]
      rfl
    · rintro st rfl
      rw [exec_nack, State.arrive_served arrives hok, State.takes_some (t := s.received p f) h]
      rfl
  case named =>
    obtain ⟨x, y, hx, hy, hit⟩ := State.answered_some h
    exact ⟨x, y, hx, hy, (y.answeredBy_iff f).mp hit⟩
  case retry =>
    refine ⟨fun h => congrArg Host.Outcome.next (State.retry_none h), fun y hy => ⟨fun h => congrArg Host.Outcome.next (State.retry_waits hy h), fun hs ht hk hr => ⟨fun h => ?_, fun h hi => ?_⟩,
      fun hs ht h => congrArg Host.Outcome.next (State.retry_fails hy hs ht h)⟩⟩
    · exact congrArg Host.Outcome.next (State.retry_unreachable hy hs ht hk hr h)
    · obtain ⟨p, hp⟩ := Option.ne_none_iff_exists'.mp h
      have length : i < (s.transmit p y.frame).fab.remotes.length := by rwa [s.transmit_remotes]
      refine ⟨_, congrArg Host.Outcome.next (State.retry_resends hy hs ht hk hr hp), ?_, ?_, fun n hn => ?_⟩
      · exact (State.remote_setRemote _ _ _ _).trans (if_pos ⟨rfl, length⟩)
      · exact ((State.reg_bump _ _ _ _).trans (if_pos rfl)).trans (congrArg (fun v => min (2 ^ 64 - 1) (v + 1)) (s.reg_transmit_retry p y.frame))
      · exact ((State.remote_setRemote _ _ _ _).trans (if_neg fun h => hn h.1)).trans (s.remote_transmit p y.frame n)
  case start =>
    have quiet : s.Quiet := hq
    refine ⟨fun h => ⟨?_, exec_collWait_undefined h⟩, exec_collWait_none, fun c hc => ⟨fun h => ?_, fun hi ha hw hs => ?_, fun x hx => ⟨fun h => ?_, fun h => ?_⟩⟩⟩
    · rw [exec_collInstanceStart, State.collBegin_undefined h, quiet.settled]
    · rw [exec_collInstanceStart, State.collBegin_waits hc h, quiet.settled]
    · obtain ⟨val, started, instances⟩ := s.instanceBegun_facts key ha
      refine ⟨s.instanceBegun key c, s.nextInstance key, rfl, rfl, rfl, rfl, rfl, val, started, instances, ?_⟩
      rw [exec_collInstanceStart, State.collBegin_starts hc hi ha hw hs]
    · rw [exec_collWait hc hx, if_neg (Nat.not_le.mpr h)]
    · rw [exec_collWait hc hx, if_pos h]
  case fail =>
    refine ⟨s.collFail_event c x e m l, fun hr ha hx => ?_, State.collFail_out c e m l⟩
    obtain ⟨own, again⟩ := State.collFail_again c e m l hr ha hx
    exact ⟨_, again, rfl, rfl, rfl, rfl, rfl⟩
  case record =>
    refine ⟨State.recordArrived_elsewhere, fun key c hr => ⟨State.recordArrived_stranger hr, fun hm => ⟨fun none => ?_, fun x hx => ⟨fun other => ?_, fun rerun hmatch ha => ?_, fun rerun h => ?_⟩⟩⟩⟩
    · rw [State.recordArrived_member hr hm, none]
    · rw [State.recordArrived_member hr hm, hx]
      exact if_neg other
    · rw [State.recordArrived_member hr hm, hx]
      exact (if_pos rerun).trans (if_pos ⟨hmatch, ha⟩)
    · rw [State.recordArrived_member hr hm, hx]
      refine (if_pos rerun).trans (if_neg fun ⟨hmatch, ha⟩ => ?_)
      exact h.elim (fun h => Bool.false_ne_true (h.symm.trans hmatch)) (fun h => h ha)
  case frame =>
    refine ⟨fun h => ?_, fun up kind range dst => ?_⟩
    · rw [exec_collRecord, State.arrive_none h]
    · have arrives : s.arrives p f fkMasked := ⟨up, kind, range, dst⟩
      refine ⟨fun bad => ?_, fun hok hg => ?_, fun hok hg hw => ?_, fun hok hg hw => ?_⟩
      · rw [exec_collRecord, State.arrive_dropped arrives bad]
        rfl
      · rw [exec_collRecord, State.arrive_refused arrives hok hg]
        rfl
      · rw [exec_collRecord_served arrives hok hg, State.recordWritten_refused (t := s.received p f) hw]
        exact congrArg (fun t : State => Host.Outcome.next t.settled) (if_neg hw)
      · rw [exec_collRecord_served arrives hok hg, State.recordWritten_ok (t := s.received p f) hw]
        rfl

end Sys2Proof.Machine
end

section
/-! PROOFS of the family 95_what_each_step_holds: what every command leaves alone, and the canonical form (R8, R11, R286, R511). -/

namespace Sys2Proof.Machine

/-! ### Zones of a command -/

/-- The mask of the listed zones. -/
noncomputable def zoneMask : List Zone → Nat
  | [] => 0
  | p :: ps => 2 ^ p.bit ||| zoneMask ps

theorem Zone.bit_eq_ctorIdx (p : Zone) : p.bit = p.ctorIdx := by
  cases p <;> rfl

theorem Zone.bit_injective {p q : Zone} (h : p.bit = q.bit) : p = q := by
  rw [← Zone.ofNat_ctorIdx p, ← Zone.ofNat_ctorIdx q, ← p.bit_eq_ctorIdx, h, q.bit_eq_ctorIdx]

theorem testBit_zoneMask (p : Zone) : ∀ ps : List Zone, (zoneMask ps).testBit p.bit = true ↔ p ∈ ps
  | [] => by simp [zoneMask]
  | q :: ps => by
    have here : (2 ^ q.bit).testBit p.bit = true ↔ p = q := by
      rw [Nat.testBit_two_pow, decide_eq_true_iff]
      exact ⟨fun h => (Zone.bit_injective h).symm, fun h => h ▸ rfl⟩
    rw [zoneMask, Nat.testBit_lor, Bool.or_eq_true, here, testBit_zoneMask p ps, List.mem_cons]

/-- The command keeps to the zones listed for it. -/
def Touched (s : State) (c : Instr) : Prop := KeptO (zoneMask (touches c)) s (exec c s)

/-- Each arm of the dispatch keeps to the zones listed for its command: the mask that its own lemma asks for lies within theirs. -/
theorem exec_keeps_zones (s : State) (c : Instr) : Touched s c := by
  induction c with dsimp only [Touched, touches]
  | bar0Write off width value => exact execBar0Write_kept rfl (.refl _ s)
  | bar0InvalidAccess write off width => exact execBar0InvalidAccess_kept (a0 := write) rfl (.refl _ s)
  | aeCtrClear d v => exact execAeCtrClear_kept rfl (.refl _ s)
  | dcCtrClear d v => exact execDcCtrClear_kept rfl (.refl _ s)
  | calCtrClear d v => exact execCalCtrClear_kept rfl (.refl _ s)
  | calRequest d v => exact execCalRequest_kept rfl (.refl _ s)
  | spCtrClear d v => exact execSpCtrClear_kept rfl (.refl _ s)
  | memCtrClear m v => exact execMemCtrClear_kept rfl (.refl _ s)
  | kvCtrClear m v => exact execKvCtrClear_kept rfl (.refl _ s)
  | attCtrClear d v => exact execAttCtrClear_kept rfl (.refl _ s)
  | serveCtrClear m v => exact execServeCtrClear_kept rfl (.refl _ s)
  | wqCtrClear d v => exact execWqCtrClear_kept rfl (.refl _ s)
  | syncCtrClear m v => exact execSyncCtrClear_kept rfl (.refl _ s)
  | gpCtrClear p v => exact execGpCtrClear_kept rfl (.refl _ s)
  | fabCtrClear v => exact execFabCtrClear_kept rfl (.refl _ s)
  | topoCtrClear v => exact execTopoCtrClear_kept rfl (.refl _ s)
  | wtCtrClear v => exact execWtCtrClear_kept rfl (.refl _ s)
  | seCtrClear d v => exact execSeCtrClear_kept rfl (.refl _ s)
  | hkCtrClear v => exact execHkCtrClear_kept rfl (.refl _ s)
  | pwrCtrClear v => exact execPwrCtrClear_kept rfl (.refl _ s)
  | bootCtrClear v => exact execBootCtrClear_kept rfl (.refl _ s)
  | secCtrClear v => exact execSecCtrClear_kept rfl (.refl _ s)
  | evCtrClear v => exact execEvCtrClear_kept rfl (.refl _ s)
  | chCtrlOpen c dbOk host => exact execChCtrlOpen_kept rfl (.refl _ s)
  | chCtrlClose c => exact execChCtrlClose_kept rfl (.refl _ s)
  | channelDrainDone c => exact execChannelDrainDone_kept rfl (.refl _ s)
  | chCtrlReset c => exact execChCtrlReset_kept rfl (.refl _ s)
  | channelError c => exact execChannelError_kept rfl (.refl _ s)
  | evCtrlEnable => exact execEvCtrlEnable_kept rfl (.refl _ s)
  | evCtrlDisable => exact execEvCtrlDisable_kept rfl (.refl _ s)
  | doorbellInvalidation line host => exact execDoorbellInvalidation_kept rfl (.refl _ s)
  | dbPoll host => exact execDbPoll_kept rfl (.refl _ s)
  | coalTime c => exact execCoalTime_kept rfl (.refl _ s)
  | requestOpen h params tokens count => exact execRequestOpen_kept rfl (.refl _ s)
  | requestAppend h handle keep tokens count => exact execRequestAppend_kept rfl (.refl _ s)
  | requestDraft h handle forLength nodes tree => exact execRequestDraft_kept rfl (.refl _ s)
  | requestPause h handle toPeat target ttl hold => exact execRequestPause_kept rfl (.refl _ s)
  | requestResume h handle keepPeat => exact execRequestResume_kept rfl (.refl _ s)
  | requestRenew h handle ttl => exact execRequestRenew_kept rfl (.refl _ s)
  | requestRewind h handle position token valid => exact execRequestRewind_kept rfl (.refl _ s)
  | requestMigrate h handle => exact execRequestMigrate_kept rfl (.refl _ s)
  | requestClose h handle => exact execRequestClose_kept rfl (.refl _ s)
  | requestQuery h handle buffer => exact execRequestQuery_kept rfl (.refl _ s)
  | programLoad h image source length img => exact execProgramLoad_kept rfl (.refl _ s)
  | programRun h image entry args length ret => exact execProgramRun_kept rfl (.refl _ s)
  | programUnload h image => exact execProgramUnload_kept rfl (.refl _ s)
  | regionRelease h die cluster core base => exact execRegionRelease_kept rfl (.refl _ s)
  | dmaCopy h c => exact execDmaCopy_kept rfl (.refl _ s)
  | adapterInstall h slot source length home regions => exact execAdapterInstall_kept rfl (.refl _ s)
  | adapterRemove h slot => exact execAdapterRemove_kept rfl (.refl _ s)
  | adapterQuery h slot buffer => exact execAdapterQuery_kept rfl (.refl _ s)
  | configStage h list count => exact execConfigStage_kept rfl (.refl _ s)
  | configCheck h seq => exact execConfigCheck_kept rfl (.refl _ s)
  | configCommit h seq => exact execConfigCommit_kept rfl (.refl _ s)
  | configDiscard h => exact execConfigDiscard_kept rfl (.refl _ s)
  | emptyStepBoundary => exact execEmptyStepBoundary_kept rfl (.refl _ s)
  | blockSafePointSwitch block => exact execBlockSafePointSwitch_kept rfl (.refl _ s)
  | timeMark h hostTime stewardChanged => exact execTimeMark_kept rfl (.refl _ s)
  | eventMask h mask severity => exact execEventMask_kept rfl (.refl _ s)
  | eventFlush h => exact execEventFlush_kept rfl (.refl _ s)
  | maintCalRequest h mask => exact execMaintCalRequest_kept rfl (.refl _ s)
  | layerStats h image first count buffer => exact execLayerStats_kept rfl (.refl _ s)
  | ashList h first count buffer => exact execAshList_kept rfl (.refl _ s)
  | eventCatalogue h buffer length => exact execEventCatalogue_kept rfl (.refl _ s)
  | partitionReset h scope die cluster force => exact execPartitionReset_kept rfl (.refl _ s)
  | fwStage h space receive forward last source length far b sig stewardSig chunks => exact execFwStage_kept rfl (.refl _ s)
  | fwActivate h => exact execFwActivate_kept rfl (.refl _ s)
  | fwQuery h buffer => exact execFwQuery_kept rfl (.refl _ s)
  | identity h buffer => exact execIdentity_kept rfl (.refl _ s)
  | attest h buffer nonce => exact execAttest_kept rfl (.refl _ s)
  | keyEnroll h source length sig => exact execKeyEnroll_kept rfl (.refl _ s)
  | rollbackAdvance h counter => exact execRollbackAdvance_kept rfl (.refl _ s)
  | weightManifest h slot space source length far engines sig => exact execWeightManifest_kept rfl (.refl _ s)
  | weightKey h slot source length key => exact execWeightKey_kept rfl (.refl _ s)
  | weightShard h slot space restore repair shard source far => exact execWeightShard_kept rfl (.refl _ s)
  | shardCheckDone tagOk plain => exact execShardCheckDone_kept rfl (.refl _ s)
  | weightChain h slot pred succ => exact execWeightChain_kept (a0 := h) (a1 := slot) (a2 := pred) (a3 := succ) (a4 := s) rfl (.refl _ s)
  | weightCommit h slot group => exact execWeightCommit_kept rfl (.refl _ s)
  | weightRemove h slot => exact execWeightRemove_kept rfl (.refl _ s)
  | weightCheck h slot shard => exact execWeightCheck_kept rfl (.refl _ s)
  | weightQuery h slot buffer => exact execWeightQuery_kept rfl (.refl _ s)
  | weightAbort h slot => exact execWeightAbort_kept rfl (.refl _ s)
  | groupCommitTimeout => exact execGroupCommitTimeout_kept rfl (.refl _ s)
  | scan h die cluster mode => exact execScan_kept rfl (.refl _ s)
  | fleetLoad h slot img sig => exact execFleetLoad_kept rfl (.refl _ s)
  | fleetSet h slot enable => exact execFleetSet_kept rfl (.refl _ s)
  | fleetRemove h slot => exact execFleetRemove_kept rfl (.refl _ s)
  | inject h q n layer lane offset steps => exact execInject_kept rfl (.refl _ s)
  | testQuery h die cluster buffer => exact execTestQuery_kept rfl (.refl _ s)
  | windowOpen via args => exact execWindowOpen_kept rfl (.refl _ s)
  | windowClose via n => exact execWindowClose_kept rfl (.refl _ s)
  | windowDrained n => exact execWindowDrained_kept rfl (.refl _ s)
  | windowQuery via n buffer => exact execWindowQuery_kept rfl (.refl _ s)
  | stepBoundary slices => exact execStepBoundary_kept rfl (.refl _ s)
  | stepCommit drafts => exact execStepCommit_kept rfl (.refl _ s)
  | stewardHeartbeat => exact execStewardHeartbeat_kept rfl (.refl _ s)
  | stewardTimeout => exact execStewardTimeout_kept rfl (.refl _ s)
  | stewardCounterSync => exact execStewardCounterSync_kept rfl (.refl _ s)
  | eventArrival idx => exact execEventArrival_kept rfl (.refl _ s)
  | emberHold idx => exact execEmberHold_kept rfl (.refl _ s)
  | peatMoveDone idx => exact execPeatMoveDone_kept rfl (.refl _ s)
  | peatMoveFailed idx status => exact execPeatMoveFailed_kept rfl (.refl _ s)
  | peatExpiryWarning idx => exact execPeatExpiryWarning_kept rfl (.refl _ s)
  | requestExpired idx => exact execRequestExpired_kept rfl (.refl _ s)
  | resumptionChecked idx readStatus image => exact execResumptionChecked_kept rfl (.refl _ s)
  | nop q f => exact execNop_kept rfl (.refl _ s)
  | halt q f => exact execHalt_kept rfl (.refl _ s)
  | seti q f => exact execSeti_kept rfl (.refl _ s)
  | addi q f => exact execAddi_kept rfl (.refl _ s)
  | alu q f => exact execAlu_kept rfl (.refl _ s)
  | ld q f => exact execLd_kept rfl (.refl _ s)
  | st q f => exact execSt_kept rfl (.refl _ s)
  | jump q f => exact execJump_kept rfl (.refl _ s)
  | branch q f => exact execBranch_kept rfl (.refl _ s)
  | jumpr q f => exact execJumpr_kept rfl (.refl _ s)
  | loop q f => exact execLoop_kept rfl (.refl _ s)
  | pop q f => exact execPop_kept rfl (.refl _ s)
  | pbld q f => exact execPbld_kept rfl (.refl _ s)
  | push w => exact execPush_kept rfl (.refl _ s)
  | arrayMv q f => exact execArrayMv_kept rfl (.refl _ s)
  | arrayRead q f => exact execArrayRead_kept rfl (.refl _ s)
  | dMv q f => exact execDMv_kept rfl (.refl _ s)
  | dVec q f => exact execDVec_kept rfl (.refl _ s)
  | psumAdd q f => exact execPsumAdd_kept rfl (.refl _ s)
  | kvAppend q f => exact execKvAppend_kept rfl (.refl _ s)
  | attWalk q f => exact execAttWalk_kept rfl (.refl _ s)
  | copy q f => exact execCopy_kept rfl (.refl _ s)
  | atomicAdd q f => exact execAtomicAdd_kept rfl (.refl _ s)
  | atomicClear q f => exact execAtomicClear_kept rfl (.refl _ s)
  | post q f => exact execPost_kept rfl (.refl _ s)
  | wait q f => exact execWait_kept rfl (.refl _ s)
  | syncSet q f => exact execSyncSet_kept rfl (.refl _ s)
  | doneWait q f => exact execDoneWait_kept rfl (.refl _ s)
  | doneSet q f => exact execDoneSet_kept rfl (.refl _ s)
  | fence q f => exact execFence_kept rfl (.refl _ s)
  | intr q f => exact execIntr_kept rfl (.refl _ s)
  | tick q f => exact execTick_kept rfl (.refl _ s)
  | opCompletion q idx => exact execOpCompletion_kept rfl (.refl _ s)
  | seqLoad q a idx n => exact execSeqLoad_kept rfl (.refl _ s)
  | seqStart q idx => exact execSeqStart_kept rfl (.refl _ s)
  | seqStop q => exact execSeqStop_kept rfl (.refl _ s)
  | seqResumeRetry q => exact execSeqResumeRetry_kept rfl (.refl _ s)
  | seqResumeSkip q => exact execSeqResumeSkip_kept rfl (.refl _ s)
  | wqFlush g mask => exact execWqFlush_kept rfl (.refl _ s)
  | wqWriteHeld g writer => exact execWqWriteHeld_kept rfl (.refl _ s)
  | dmaCommand g ecc => exact execDmaCommand_kept rfl (.refl _ s)
  | arrayMvOpStart q n shadow => exact execArrayMvOpStart_kept rfl (.refl _ s)
  | accumulatorWriteBack q idx => exact execAccumulatorWriteBack_kept rfl (.refl _ s)
  | correctionMerge q idx => exact execCorrectionMerge_kept rfl (.refl _ s)
  | passRepeat q idx => exact execPassRepeat_kept rfl (.refl _ s)
  | layerD16Repeat image layer seq => exact execLayerD16Repeat_kept rfl (.refl _ s)
  | verdictReport q idx => exact execVerdictReport_kept rfl (.refl _ s)
  | arrayReadOp q n => exact execArrayReadOp_kept rfl (.refl _ s)
  | arrayCalOp q n layer seed area => exact execArrayCalOp_kept rfl (.refl _ s)
  | dMvPass q => exact execDMvPass_kept rfl (.refl _ s)
  | dVecOp q t seq => exact execDVecOp_kept rfl (.refl _ s)
  | kvAppendOp q => exact execKvAppendOp_kept rfl (.refl _ s)
  | attWalkOp q => exact execAttWalkOp_kept rfl (.refl _ s)
  | segmentMerge q => exact execSegmentMerge_kept rfl (.refl _ s)
  | psumAddOp q => exact execPsumAddOp_kept rfl (.refl _ s)
  | copyOp q ecc => exact execCopyOp_kept rfl (.refl _ s)
  | addFx64 q => exact execAddFx64_kept rfl (.refl _ s)
  | addI32Sat q => exact execAddI32Sat_kept rfl (.refl _ s)
  | atomicClearOp q => exact execAtomicClearOp_kept rfl (.refl _ s)
  | syncPost m => exact execSyncPost_kept rfl (.refl _ s)
  | syncWaitArrival m => exact execSyncWaitArrival_kept rfl (.refl _ s)
  | syncSetArrival m => exact execSyncSetArrival_kept rfl (.refl _ s)
  | syncWaitLong obj idx => exact execSyncWaitLong_kept rfl (.refl _ s)
  | hostMemWrite w bytes => exact execHostMemWrite_kept rfl (.refl _ s)
  | hostMemRead w => exact execHostMemRead_kept rfl (.refl _ s)
  | patrolRead m ecc => exact execPatrolRead_kept rfl (.refl _ s)
  | hbmRowIdleClose bank => exact execHbmRowIdleClose_kept rfl (.refl _ s)
  | bankPowerUpDone q b => exact execBankPowerUpDone_kept rfl (.refl _ s)
  | fitRoundClose q n lane => exact execFitRoundClose_kept rfl (.refl _ s)
  | calRunStaged d => exact execCalRunStaged_kept rfl (.refl _ s)
  | calSave d ok => exact execCalSave_kept rfl (.refl _ s)
  | bankProgramRequest q n b => exact execBankProgramRequest_kept rfl (.refl _ s)
  | tileProgramDone q n layer bad badSpares refBad => exact execTileProgramDone_kept rfl (.refl _ s)
  | spareProgramDone q n b ok => exact execSpareProgramDone_kept rfl (.refl _ s)
  | readbackCheckStart => exact execReadbackCheckStart_kept rfl (.refl _ s)
  | readbackCheckDone idx => exact execReadbackCheckDone_kept rfl (.refl _ s)
  | chainChunkForward slot => exact execChainChunkForward_kept rfl (.refl _ s)
  | chunkReady slot shard k length => exact execChunkReady_kept rfl (.refl _ s)
  | slotFree slot => exact execSlotFree_kept rfl (.refl _ s)
  | portSignalDetect p => exact execPortSignalDetect_kept rfl (.refl _ s)
  | portFecLock p lanes => exact execPortFecLock_kept rfl (.refl _ s)
  | portTrainTimeout p => exact execPortTrainTimeout_kept rfl (.refl _ s)
  | portLockLoss p => exact execPortLockLoss_kept rfl (.refl _ s)
  | uncorrRateCheck p corr uncorr => exact execUncorrRateCheck_kept rfl (.refl _ s)
  | portFaultRetry p => exact execPortFaultRetry_kept rfl (.refl _ s)
  | retrain p => exact execRetrain_kept rfl (.refl _ s)
  | identityMessage p f => exact execIdentityMessage_kept rfl (.refl _ s)
  | credit p f => exact execCredit_kept rfl (.refl _ s)
  | enumStart => exact execEnumStart_kept rfl (.refl _ s)
  | enumToken p f => exact execEnumToken_kept rfl (.refl _ s)
  | enumDone p f => exact execEnumDone_kept rfl (.refl _ s)
  | clearId => exact execClearId_kept rfl (.refl _ s)
  | tileWrite p f => exact execTileWrite_kept rfl (.refl _ s)
  | tileWriteMasked p f => exact execTileWriteMasked_kept rfl (.refl _ s)
  | atomicAddFrame p f => exact execAtomicAddFrame_kept rfl (.refl _ s)
  | readReq p f => exact execReadReq_kept rfl (.refl _ s)
  | readTile p f => exact execReadTile_kept rfl (.refl _ s)
  | postFrame p f => exact execPostFrame_kept rfl (.refl _ s)
  | ack p f => exact execAck_kept rfl (.refl _ s)
  | nack p f status => exact execNack_kept rfl (.refl _ s)
  | mcastChunk p f => exact execMcastChunk_kept rfl (.refl _ s)
  | transitFrame p f abort => exact execTransitFrame_kept rfl (.refl _ s)
  | retryTime idx j => exact execRetryTime_kept rfl (.refl _ s)
  | holdMax p => exact execHoldMax_kept rfl (.refl _ s)
  | collInstanceStart key => exact execCollInstanceStart_kept rfl (.refl _ s)
  | collRecord p f => exact execCollRecord_kept rfl (.refl _ s)
  | collWait key => exact execCollWait_kept rfl (.refl _ s)
  | repairWait d l spareReady => exact execRepairWait_kept rfl (.refl _ s)
  | repairNotice d l origin seq spareReady => exact execRepairNotice_kept rfl (.refl _ s)
  | stepAnnounce n flip => exact execStepAnnounce_kept rfl (.refl _ s)
  | cleanReport m n clean => exact execCleanReport_kept rfl (.refl _ s)
  | rewindNotice first => exact execRewindNotice_kept rfl (.refl _ s)
  | scanSchedule => exact execScanSchedule_kept rfl (.refl _ s)
  | scanDone passed chain => exact execScanDone_kept rfl (.refl _ s)
  | hkSlotConversion raw code fail => exact execHkSlotConversion_kept rfl (.refl _ s)
  | moduleShutdownTrip => exact execModuleShutdownTrip_kept rfl (.refl _ s)
  | roundEnd => exact execRoundEnd_kept rfl (.refl _ s)
  | damperDecision => exact execDamperDecision_kept rfl (.refl _ s)
  | damperStageApply idx => exact execDamperStageApply_kept rfl (.refl _ s)
  | hkUrgCtrl v busy left => exact execHkUrgCtrl_kept rfl (.refl _ s)
  | hkTdacGo v => exact execHkTdacGo_kept rfl (.refl _ s)
  | syscalZero e => exact execSyscalZero_kept rfl (.refl _ s)
  | syscalFull e => exact execSyscalFull_kept rfl (.refl _ s)
  | syscalSave e => exact execSyscalSave_kept rfl (.refl _ s)
  | hkPartRelease v => exact execHkPartRelease_kept rfl (.refl _ s)
  | autoRelease p => exact execAutoRelease_kept rfl (.refl _ s)
  | inputUndervolt => exact execInputUndervolt_kept rfl (.refl _ s)
  | inputOvervolt => exact execInputOvervolt_kept rfl (.refl _ s)
  | inputOvercurrent => exact execInputOvercurrent_kept rfl (.refl _ s)
  | regulatorFault => exact execRegulatorFault_kept rfl (.refl _ s)
  | inputOutOfRange out => exact execInputOutOfRange_kept rfl (.refl _ s)
  | currentLimit past => exact execCurrentLimit_kept rfl (.refl _ s)
  | powerOn => exact execPowerOn_kept rfl (.refl _ s)
  | bootPhase w => exact execBootPhase_kept rfl (.refl _ s)
  | recoveryGo v steward bundle => exact execRecoveryGo_kept rfl (.refl _ s)
  | poweredHour => exact execPoweredHour_kept rfl (.refl _ s)
  | fwChunkReceive t chunk => exact execFwChunkReceive_kept rfl (.refl _ s)
  | fwChunkFetch t far => exact execFwChunkFetch_kept rfl (.refl _ s)
  | resetTimeout d p selfTest => exact execResetTimeout_kept rfl (.refl _ s)
  | hssTreeBuilt => exact execHssTreeBuilt_kept rfl (.refl _ s)
  | cordGroupQuery tag => exact execCordGroupQuery_kept rfl (.refl _ s)
  | cordGroupConfirm m yes => exact execCordGroupConfirm_kept rfl (.refl _ s)
  | hdmDecoderCommit commit => exact execHdmDecoderCommit_kept rfl (.refl _ s)
  | ptmExchange root => exact execPtmExchange_kept rfl (.refl _ s)
  | urgentConversionDone raw code => exact execUrgentConversionDone_kept rfl (.refl _ s)
  | attestRateTurn => exact execAttestRateTurn_kept rfl (.refl _ s)

/-- Settles O4: a zone that is not listed has its bit clear in the command's mask. -/
theorem commandsKeepToTheirZones : Obligations.CommandsKeepToTheirZones := by
  intro c s t h
  have kept := (exec_keeps_zones s c).of t h
  exact ⟨kept.part, fun p hp => kept.only p (Bool.eq_false_iff.mpr fun hb => hp ((testBit_zoneMask p _).mp hb))⟩

/-! ### Canonical form -/

theorem State.idle_keeps (s : State) : Kept everyZone s s.idle :=
  kept_foldl s.domains (fun _ _ => State.domainRuns_kept rfl) (kept_time rfl (.refl _ s))

/-- Settles O3: an idle step moves counters of time only, and every command keeps the canonical form. -/
theorem everyStepKeepsCanonicalForm : Obligations.EveryStepKeepsCanonicalForm := by
  intro s t hs h
  rw [step] at h
  split at h
  · cases h
    exact s.idle_keeps.wf hs
  · next c r _ => exact ((exec_kept c { s with pending := r }).of t h).wf hs

end Sys2Proof.Machine
end

section
/-! PROOFS of the family 18_register_index: a step (R512), the counter clears (R513) and the reset state (R511). -/

namespace Sys2Proof.Tab

/-- A table without the keys that a test refuses. -/
theorem get_filter_keys {α : Type} [Inhabited α] (p : Nat → Bool) (k : Nat) :
    ∀ t : Tab α, Tab.get (t.filter fun e => p e.1) k = if p k then Tab.get t k else default
  | [] => by simp [Tab.get]
  | (j, v) :: r => by
    have rest := get_filter_keys p k r
    by_cases hj : j = k
    · subst hj
      cases hp : p j <;> simp [Tab.get, hp, rest]
    · cases hp : p j <;> simp [Tab.get, hp, hj, rest]

end Sys2Proof.Tab

namespace Sys2Proof.Machine

/-! ### A step (R512) -/

/-- Settles O1, by the two cases of the queue. -/
theorem stepRunsTheFrontCommand : Obligations.StepRunsTheFrontCommand :=
  ⟨fun s c r h => by rw [step, h], fun s h => by rw [step, h]⟩

/-! ### Counter clears (R513) -/

section Clears

variable {s : State} {c : Nat → Instr} {as : List Nat}

/-- A command whose write of 1 clears the registers `as`, and whose write of 0 does nothing, clears exactly those. -/
theorem clearsExactly_of_ctrClear (run : ∀ v, exec (c v) s = .next (s.ctrClear v as)) : ClearsExactly c as s := by
  refine ⟨fun v hv => ⟨s.clearRegs as, ?_, State.clearRegs_eq s as, fun a ha => ?_, fun a ha => ?_⟩, fun v hv => ?_⟩
  · rw [run, State.ctrClear, if_pos hv]
  · rw [State.reg_clearRegs, if_pos ha]
  · rw [State.reg_clearRegs, if_neg ha]
  · rw [run, State.ctrClear, hv]
    rfl

/-- The same of a clear in the block of a fitted die (R4). -/
theorem clearsExactly_of_dieClear {d : Nat} (fits : s.fits d = true) (run : ∀ v, exec (c v) s = .next (s.dieClear d v as)) : ClearsExactly c as s :=
  clearsExactly_of_ctrClear fun v => by rw [run, State.dieClear, if_pos fits]

end Clears

section Waits

variable {s : State} {d v : Nat}

/-- The counters `as` at 0, and the waits of the cores of a die (Table 6-11). -/
noncomputable def State.spCleared (s : State) (d : Nat) (as : List Nat) : State :=
  { s.clearRegs as with mem := { s.mem with coreWait := s.mem.coreWait.filter (fun e => coreDie e.1 != d) } }

theorem State.clearRegs_mem (s : State) (as : List Nat) : (s.clearRegs as).mem = s.mem := by rw [State.clearRegs_eq]

theorem State.reg_spCleared (s : State) (d : Nat) (as : List Nat) (b : Nat) : (s.spCleared d as).reg b = if b ∈ as then 0 else s.reg b := s.reg_clearRegs as b

theorem State.spCleared_eq (s : State) (d : Nat) (as : List Nat) :
    s.spCleared d as = { s with regs := (s.spCleared d as).regs, mem := { s.mem with coreWait := (s.spCleared d as).mem.coreWait } } := by
  rw [State.spCleared, State.clearRegs_eq]

theorem exec_spCtrClear_clears (fits : s.fits d = true) (hv : bitOf v 0 = true) : exec (.spCtrClear d v) s = .next (s.spCleared d (spTotals d)) := by
  have run : s.dieClear d v (spTotals d) = s.clearRegs (spTotals d) := by rw [State.dieClear, if_pos fits, State.ctrClear, if_pos hv]
  show execSpCtrClear .. = _
  rw [execSpCtrClear, run, fits, hv, State.spCleared, ← s.clearRegs_mem (spTotals d)]
  rfl

theorem exec_spCtrClear_waits (fits : s.fits d = true) (hv : bitOf v 0 = false) : exec (.spCtrClear d v) s = .next s := by
  have run : s.dieClear d v (spTotals d) = s := by rw [State.dieClear, if_pos fits, State.ctrClear, hv]; rfl
  show execSpCtrClear .. = _
  rw [execSpCtrClear, run, fits, hv]
  rfl

end Waits

/-- Settles O5: every clear but SP's is one of the two shared ones. -/
theorem counterClearsClearExactlyTheirCounters : Obligations.CounterClearsClearExactlyTheirCounters := fun s => by
  refine ⟨fun d fits => ⟨?_, ?_, ?_, ?_, ?_, ?_, fun v hv => ?sp, fun v hv => exec_spCtrClear_waits fits hv⟩, fun m => ⟨?_, ?_, ?_, ?_⟩, fun p => ?_, ?_, ?_, ?_, ?_, ?_, ?_, ?_, ?_⟩
  case sp =>
    refine ⟨_, exec_spCtrClear_clears fits hv, State.spCleared_eq s d _, fun a ha => ?_, fun a ha => ?_, fun q => ?_⟩
    · rw [State.reg_spCleared, if_pos ha]
    · rw [State.reg_spCleared, if_neg ha]
    · refine (Tab.get_filter_keys (fun k => coreDie k != d) q s.mem.coreWait).trans ?_
      by_cases hq : coreDie q = d <;> simp [hq]
  all_goals first | exact clearsExactly_of_dieClear fits fun _ => rfl | exact clearsExactly_of_ctrClear fun _ => rfl

/-! ### The reset state (R511) -/

/-- Settles O7: at reset every table is empty, so each register reads its Reset column. -/
theorem resetState : Obligations.ResetState := by
  refine ⟨rfl, rfl, fun a => ⟨Nat.xor_zero _, Nat.xor_zero _, ?_⟩, fun c => rfl, rfl, rfl⟩
  rw [State.stagedReg]
  cases pwrOffDie a with
  | none => exact Nat.xor_zero _
  | some d =>
    dsimp only
    split <;> rfl

end Sys2Proof.Machine
end

section
/-! PROOFS of the family 12_collectives_and_topology: the repair of rings and step groups (R375 to R379, R383, R414, R419). -/

namespace Sys2Proof.Machine

/-! ### A cut leaves the rings as the repair finds them (R378) -/

theorem State.collEnd_rings (s : State) (c : ImageColl) (x : Instance) (e : Code) : (s.collEnd c x e).topo.rings = s.topo.rings := by
  have written : (s.endWritten c x e).topo = s.topo := (s.endWritten_keeps c x e).only .topo rfl
  rw [State.collEnd_eq, State.bump_topo, State.objPost_topo, State.instanceOut, written]

theorem State.collFailed_rings (s : State) (c : ImageColl) (x : Instance) : (s.collFailed c x none).topo.rings = s.topo.rings := by
  obtain ⟨args, failed⟩ := s.collFailed_eq c x none
  have poisoned : (s.outPoisoned c x none).topo = s.topo := State.foldl_topo (f := fun t (p : Nat × Nat) => t.poison (p.1 / 4096)) (fun _ _ => rfl) _ s
  rw [failed]
  exact .trans (congrArg Topo.rings ((State.bump_topo _ _ _).trans (State.raise_topo _ _ _ _ _))) ((State.collEnd_rings _ c x _).trans (congrArg Topo.rings poisoned))

/-- The collective under way, if there is one, has failed. -/
noncomputable def State.collCut (s : State) (x : Instance) (g : Option ImageColl) : State := match g with | some c => s.collFailed c x none | none => s

theorem State.cutInstance_rings (s : State) (x : Instance) : (s.cutInstance x).topo.rings = s.topo.rings := by
  have each (g : Option ImageColl) : (s.collCut x g).topo.rings = s.topo.rings := by
    cases g with
    | none => rfl
    | some c => exact s.collFailed_rings c x
  exact each (s.collDef x.key)

section Cut

variable (s : State) (d l : Nat)

/-- The instances that a cut meets have failed, and the step is given up (R376). -/
noncomputable def State.ringAbandoned : State := (s.failInstances d State.cutInstance).abandon .transport .OK 0 []

theorem State.foldl_cutInstance_rings (xs : List Instance) (s : State) : (xs.foldl State.cutInstance s).topo.rings = s.topo.rings := by
  induction xs generalizing s with
  | nil => rfl
  | cons x xs ih => exact (ih (s.cutInstance x)).trans (s.cutInstance_rings x)

theorem State.failInstances_rings : (s.failInstances d State.cutInstance).topo.rings = s.topo.rings := State.foldl_cutInstance_rings _ s

theorem State.abandon_topo (cls : DetClass) (c : Code) (addr : Nat) (seqs : List Nat) : (s.abandon cls c addr seqs).topo = s.topo :=
  (State.abandon_kept rfl (Kept.refl 3436166930531 s)).only .topo rfl

theorem State.ring_ringAbandoned (e : Nat) : (s.ringAbandoned d).ring e = s.ring e :=
  congrArg (Tab.get · e) ((congrArg Topo.rings ((s.failInstances d State.cutInstance).abandon_topo _ _ _ _)).trans (s.failInstances_rings d))

theorem State.ringAbandoned_keeps : Kept 8109091416163 s (s.ringAbandoned d) :=
  State.abandon_kept rfl (State.failInstances_kept rfl (Kept.refl _ s) fun _ _ h => State.cutInstance_kept rfl h)

theorem State.ringRequests_ringAbandoned (e : Nat) : (s.ringAbandoned d).ringRequests e = s.ringRequests e := by
  have reqs : (s.ringAbandoned d).reqs = s.reqs := (s.ringAbandoned_keeps d).only .reqs rfl
  have images : (s.ringAbandoned d).images = s.images := (s.ringAbandoned_keeps d).only .images rfl
  simp only [State.ringRequests, State.image, reqs, images]

/-- The cut of link `l` has been reported, counted and routed around. -/
noncomputable def State.cutReported : State := ((s.raise .TOPO_CUT Src.steward [d, l]).bump (fabReg Reg.TOPO_REPAIR_TOTAL) 1).reroute

theorem State.ring_cutReported (e : Nat) : (s.cutReported d l).ring e = s.ring e := rfl
theorem State.cutReported_step : (s.cutReported d l).step = s.step := rfl

theorem State.cutReported_event : ∃ v ∈ (s.cutReported d l).ev.inFlight, v.code = .TOPO_CUT ∧ v.args = [d, l] := State.mem_raise _ _ _ _

theorem State.reports_cutReported : s.Reports (s.cutReported d l) := State.reports_raise _ _ _ _ _

theorem State.ring_setRing_same (r : Ring) : (s.setRing d r).ring d = r := Tab.get_set_same _ _ _

theorem State.ring_setRing_other (r : Ring) {e : Nat} (h : e ≠ d) : (s.setRing d r).ring e = s.ring e := Tab.get_set_other _ _ h

theorem State.stopRing_excludes : ∀ i ∈ s.ringRequests d, i ∈ (s.stopRing d).step.excluded := fun _ hi => List.mem_append_right _ hi

end Cut

/-! ### A member that is lost (R378) -/

section Lost

variable (s : State) (d k : Nat)

/-- The ring without its member at position `k`. -/
noncomputable def Ring.without (r : Ring) (k : Nat) : Ring := { r with state := 2, lost := k :: r.lost.filter (· != k) }

/-- The module at position `k` is out of its ring. -/
noncomputable def State.memberOut : State := s.setRing d ((s.ring d).without k)

/-- What becomes of the place of a member that is out, by the module at the ring's spare position. -/
noncomputable def State.placeTaken (s : State) (d k : Nat) (b : Bool) (x : Option Nat) : State :=
  match x with
  | some m => if b then (s.memberOut d k).setRing d { (s.memberOut d k).ring d with awaiting := some (s.logical d k, m) }
      else ((s.memberOut d k).stopRing d).raise .TOPO_SPARE_PROGRAMMING Src.steward [d, k, m]
  | none => if s.replica d then s.memberOut d k else ((s.memberOut d k).stopRing d).raise .TOPO_MEMBER_LOST Src.steward [d, k, 1]

variable {s d k}

theorem State.memberLost_spare {b : Bool} {m : Nat} (hs : s.sparePos d ≠ 0x7F) (he : s.substEn = true) (hm : s.moduleAt d (s.sparePos d) = some m) :
    s.memberLost d k b = s.placeTaken d k b (some m) :=
  congrArg (s.placeTaken d k b) ((if_pos ⟨hs, he⟩).trans hm)

theorem State.memberLost_noSpare {b : Bool} (h : s.sparePos d = 0x7F ∨ s.substEn = false) : s.memberLost d k b = s.placeTaken d k b none :=
  congrArg (s.placeTaken d k b) (if_neg fun hs => h.elim hs.1 fun he => Bool.false_ne_true (he.symm.trans hs.2))

variable (s d k)

theorem State.ring_memberOut : (s.memberOut d k).ring d = (s.ring d).without k := State.ring_setRing_same _ _ _

/-- Whatever becomes of its place, the member is out. -/
theorem State.ring_placeTaken (b : Bool) (x : Option Nat) : ∃ o, (s.placeTaken d k b x).ring d = { (s.ring d).without k with awaiting := o } := by
  cases x with
  | none => exact iteInduction (motive := fun t : State => ∃ o, t.ring d = { (s.ring d).without k with awaiting := o }) (fun _ => ⟨_, s.ring_memberOut d k⟩) fun _ => ⟨_, s.ring_memberOut d k⟩
  | some m =>
    cases b with
    | false => exact ⟨_, s.ring_memberOut d k⟩
    | true => exact ⟨_, (State.ring_setRing_same _ _ _).trans (congrArg (fun r : Ring => { r with awaiting := some (s.logical d k, m) }) (s.ring_memberOut d k))⟩

theorem State.ring_memberLost (b : Bool) : ∃ o, (s.memberLost d k b).ring d = { (s.ring d).without k with awaiting := o } := s.ring_placeTaken d k b _

theorem State.memberLost_lost (b : Bool) : k ∈ ((s.memberLost d k b).ring d).lost := by
  obtain ⟨o, out⟩ := s.ring_memberLost d k b
  exact (congrArg Ring.lost out).symm ▸ List.mem_cons_self

theorem State.memberLost_state (b : Bool) : ((s.memberLost d k b).ring d).state = 2 := by
  obtain ⟨o, out⟩ := s.ring_memberLost d k b
  exact congrArg Ring.state out

variable {s d k}

theorem State.memberLost_substituted {b : Bool} {m : Nat} (hs : s.sparePos d ≠ 0x7F) (he : s.substEn = true) (hm : s.moduleAt d (s.sparePos d) = some m) (hb : b = true) :
    ((s.memberLost d k b).ring d).awaiting = some (s.logical d k, m) ∧ (s.memberLost d k b).step = s.step ∧ (s.memberLost d k b).ev = s.ev := by
  rw [State.memberLost_spare hs he hm, hb]
  exact ⟨congrArg Ring.awaiting (State.ring_setRing_same (s.memberOut d k) d _), rfl, rfl⟩

theorem State.memberLost_programming {b : Bool} {m : Nat} (hs : s.sparePos d ≠ 0x7F) (he : s.substEn = true) (hm : s.moduleAt d (s.sparePos d) = some m) (hb : b = false) :
    (∀ i ∈ s.ringRequests d, i ∈ (s.memberLost d k b).step.excluded) ∧ ∃ v ∈ (s.memberLost d k b).ev.inFlight, v.code = .TOPO_SPARE_PROGRAMMING ∧ v.args = [d, k, m] := by
  rw [State.memberLost_spare hs he hm, hb]
  exact ⟨(s.memberOut d k).stopRing_excludes d, State.mem_raise _ _ _ _⟩

theorem State.memberLost_replica {b : Bool} (hno : s.sparePos d = 0x7F ∨ s.substEn = false) (hr : s.replica d = true) :
    (s.memberLost d k b).step = s.step ∧ (s.memberLost d k b).ev = s.ev := by
  rw [State.memberLost_noSpare hno, State.placeTaken, if_pos hr]
  exact ⟨rfl, rfl⟩

theorem State.memberLost_shard {b : Bool} (hno : s.sparePos d = 0x7F ∨ s.substEn = false) (hr : s.replica d = false) :
    (∀ i ∈ s.ringRequests d, i ∈ (s.memberLost d k b).step.excluded) ∧ ∃ v ∈ (s.memberLost d k b).ev.inFlight, v.code = .TOPO_MEMBER_LOST := by
  rw [State.memberLost_noSpare hno, State.placeTaken, hr]
  exact ⟨(s.memberOut d k).stopRing_excludes d, (State.mem_raise _ _ _ _).imp fun v => .imp_right And.left⟩

end Lost

/-! ### The cut of a link (R376 to R379) -/

section Links

variable {s : State} {d l : Nat} (b : Bool)

/-- The ring `r` with its first cut at link `l`. -/
noncomputable def Ring.cutAt (r : Ring) (l : Nat) : Ring := { r with cut := some l, state := 1, seq := (r.seq + 1) % 2 ^ 16 }

/-- The ring `r` with its second cut at link `l`. -/
noncomputable def Ring.cutAlso (r : Ring) (l : Nat) : Ring := { r with cutB := some l, seq := (r.seq + 1) % 2 ^ 16 }

/-- The ring has its first cut, once the step is given up. -/
noncomputable def State.cutOnce (s : State) (d l : Nat) : State := (s.ringAbandoned d).setRing d ((s.ring d).cutAt l)

/-- The ring whose second cut is link `l`, once the step is given up. -/
noncomputable def State.cutTwice (s : State) (d l : Nat) : State :=
  (s.ringAbandoned d).setRing d ((s.ring d).cutAlso l)

theorem State.ring_cutTwice (s : State) (d l : Nat) : (s.cutTwice d l).ring d = (s.ring d).cutAlso l := State.ring_setRing_same _ _ _

/-- Two cuts that enclose no single position split the ring (R379). -/
noncomputable def State.ringSplit (s : State) (d a l : Nat) : State :=
  ((s.setRing d { s.ring d with state := 3 }).stopRing d).raise .TOPO_SPLIT Src.steward [d, a, l]

theorem State.ring_ringSplit (s : State) (d a l : Nat) : (s.ringSplit d a l).ring d = { s.ring d with state := 3 } :=
  State.ring_setRing_same s d { s.ring d with state := 3 }

theorem State.ringSplit_event (s : State) (d a l : Nat) : ∃ v ∈ (s.ringSplit d a l).ev.inFlight, v.code = .TOPO_SPLIT ∧ v.args = [d, a, l] :=
  State.mem_raise _ _ _ _

theorem State.ringSplit_excludes (s : State) (d a l : Nat) : ∀ i ∈ s.ringRequests d, i ∈ (s.ringSplit d a l).step.excluded :=
  fun _ hi => List.mem_append_right _ hi

theorem State.ringRequests_cutTwice (s : State) (d l : Nat) : (s.cutTwice d l).ringRequests d = s.ringRequests d := s.ringRequests_ringAbandoned d d

/-- What a second cut makes of its ring, by the position that the two cuts enclose. -/
noncomputable def State.cutAgain (s : State) (d a l : Nat) (b : Bool) : Option Nat → State
  | some k => s.memberLost d k b
  | none => s.ringSplit d a l

/-- What a cut makes of its ring, by the cut that the ring has already. -/
noncomputable def State.cutTo (s : State) (d l : Nat) (b : Bool) : Option Nat → State
  | none => s.cutOnce d l
  | some a => (s.cutTwice d l).cutAgain d a l b (if (s.ring d).cutB.isSome then none else enclosed (s.ringSize d) a l)

theorem State.cutLink_unseen (hcut : (s.ring d).cut ≠ some l) (hother : (s.ring d).cutB ≠ some l) :
    s.cutLink d l b State.cutInstance = (s.cutTo d l b (s.ring d).cut).cutReported d l := if_neg fun seen => seen.elim hcut hother

theorem State.cutLink_first (hcut : (s.ring d).cut = none) (hother : (s.ring d).cutB ≠ some l) : s.cutLink d l b State.cutInstance = (s.cutOnce d l).cutReported d l :=
  (State.cutLink_unseen b (fun h => Option.some_ne_none l (h.symm.trans hcut)) hother).trans (congrArg (fun x => (s.cutTo d l b x).cutReported d l) hcut)

theorem State.cutLink_second {a : Nat} {x : Option Nat} (hcut : (s.ring d).cut = some a) (hne : a ≠ l) (hone : (s.ring d).cutB = none) (hx : enclosed (s.ringSize d) a l = x) :
    s.cutLink d l b State.cutInstance = ((s.cutTwice d l).cutAgain d a l b x).cutReported d l :=
  (State.cutLink_unseen b (fun h => hne (Option.some.inj (hcut.symm.trans h))) fun h => Option.some_ne_none l (h.symm.trans hone)).trans
    ((congrArg (fun x => (s.cutTo d l b x).cutReported d l) hcut).trans
      (congrArg (fun x => ((s.cutTwice d l).cutAgain d a l b x).cutReported d l) ((if_neg (fun h => Bool.false_ne_true ((congrArg Option.isSome hone).symm.trans h))).trans hx)))

theorem State.ring_cutLink_first (hcut : (s.ring d).cut = none) (hother : (s.ring d).cutB ≠ some l) : (s.cutLink d l b State.cutInstance).ring d = (s.ring d).cutAt l :=
  (congrArg (State.ring · d) (State.cutLink_first b hcut hother)).trans (State.ring_setRing_same _ _ _)

theorem State.cutLink_first_other (hcut : (s.ring d).cut = none) (hother : (s.ring d).cutB ≠ some l) {e : Nat} (he : e ≠ d) : (s.cutLink d l b State.cutInstance).ring e = s.ring e :=
  (congrArg (State.ring · e) (State.cutLink_first b hcut hother)).trans ((State.ring_setRing_other _ _ _ he).trans (s.ring_ringAbandoned d e))

theorem State.cutLink_first_event (hcut : (s.ring d).cut = none) (hother : (s.ring d).cutB ≠ some l) :
    ∃ v ∈ (s.cutLink d l b State.cutInstance).ev.inFlight, v.code = .TOPO_CUT ∧ v.args = [d, l] :=
  State.cutLink_first b hcut hother ▸ State.cutReported_event _ d l

section Second

variable {a : Nat} (hcut : (s.ring d).cut = some a) (hne : a ≠ l) (hone : (s.ring d).cutB = none)
include hcut hne hone

theorem State.cutLink_split (h : enclosed (s.ringSize d) a l = none) :
    ((s.cutLink d l b State.cutInstance).ring d).cutB = some l ∧ ((s.cutLink d l b State.cutInstance).ring d).state = 3
      ∧ (∃ v ∈ (s.cutLink d l b State.cutInstance).ev.inFlight, v.code = .TOPO_SPLIT ∧ v.args = [d, a, l]) ∧ ∀ i ∈ s.ringRequests d, i ∈ (s.cutLink d l b State.cutInstance).step.excluded := by
  rw [State.cutLink_second b hcut hne hone h]
  have split := (((s.cutTwice d l).ringSplit d a l).ring_cutReported d l d).trans ((s.cutTwice d l).ring_ringSplit d a l)
  obtain ⟨v, hv, told⟩ := (s.cutTwice d l).ringSplit_event d a l
  exact ⟨(congrArg Ring.cutB split).trans (congrArg Ring.cutB (s.ring_cutTwice d l)), congrArg Ring.state split, ⟨v, (State.reports_cutReported _ d l).mem hv, told⟩,
    fun i hi => ((s.cutTwice d l).ringSplit d a l).cutReported_step d l ▸ (s.cutTwice d l).ringSplit_excludes d a l i (s.ringRequests_cutTwice d l ▸ hi)⟩

theorem State.cutLink_lost {k : Nat} (h : enclosed (s.ringSize d) a l = some k) :
    ((s.cutLink d l b State.cutInstance).ring d).cutB = some l ∧ ((s.cutLink d l b State.cutInstance).ring d).state = 2
      ∧ k ∈ ((s.cutLink d l b State.cutInstance).ring d).lost ∧ ∃ v ∈ (s.cutLink d l b State.cutInstance).ev.inFlight, v.code = .TOPO_CUT ∧ v.args = [d, l] := by
  rw [State.cutLink_second b hcut hne hone h]
  obtain ⟨o, out⟩ := (s.cutTwice d l).ring_memberLost d k b
  exact ⟨(congrArg Ring.cutB out).trans (congrArg Ring.cutB (s.ring_cutTwice d l)), congrArg Ring.state out, (congrArg Ring.lost out).symm ▸ List.mem_cons_self, State.cutReported_event _ d l⟩

end Second

end Links

/-! ### Positions between two cuts (R378) -/

theorem enclosed_one_of (n a b k : Nat) (h : enclosed n a b = some k) : k = a ∨ k = b :=
  iteInduction (motive := fun o => o = some k → k = a ∨ k = b) (fun _ e => .inr (Option.some.inj e).symm) (fun _ e => .inl (Option.some.inj (Option.ite_none_right_eq_some.mp e).2).symm) h

theorem ahead_iff {n a b : Nat} (hn : 1 < n) (ha : a < n) (hb : b < n) : (b + n - a) % n = 1 ↔ (a + 1) % n = b := by
  have cancel : (b + n - a + a) % n = b :=
    (congrArg (· % n) (Nat.sub_add_cancel (ha.le.trans (Nat.le_add_left n b)))).trans ((Nat.add_mod_right b n).trans (Nat.mod_eq_of_lt hb))
  have one : 1 % n = 1 := Nat.mod_eq_of_lt hn
  have swap : (a + 1) % n = (1 + a) % n := congrArg (· % n) (Nat.add_comm a 1)
  exact ⟨fun h => swap.trans (Eq.trans (Nat.ModEq.add_right a (h.trans one.symm)).symm cancel),
    fun h => Eq.trans (Nat.ModEq.add_right_cancel' a (cancel.trans (h.symm.trans swap))) one⟩

theorem enclosed_next_iff {n a b : Nat} (hn : 2 < n) (ha : a < n) (hb : b < n) : enclosed n a b = some b ↔ (a + 1) % n = b := by
  refine .trans ⟨fun h => Decidable.byContradiction fun behind => ?_, fun h => if_pos h⟩ (ahead_iff (Nat.lt_of_succ_lt hn) ha hb)
  obtain ⟨one, same⟩ := Option.ite_none_right_eq_some.mp ((if_neg behind).symm.trans h)
  have whole : (b + n - b) % n = 0 := (congrArg (· % n) (Nat.add_sub_cancel_left b n)).trans (Nat.mod_self n)
  exact Nat.one_ne_zero (Eq.trans (Option.some.inj same ▸ one).symm whole)

/-! ### Links that stay down, and notices (R376, R377, R383) -/

section Links

variable {s : State} {d l : Nat}

theorem State.linkDown_facts {t : Nat} (h : s.linkDown d l = some t) :
    2 ≤ s.ringSize d ∧ l < s.ringSize d ∧ (l = s.ringPos d ∨ (l + 1) % s.ringSize d = s.ringPos d) := by
  obtain ⟨size, rest⟩ := not_or.mp (Option.ite_none_left_eq_some.mp h).1
  obtain ⟨inside, here⟩ := not_or.mp rest
  refine ⟨Nat.not_lt.mp size, Nat.not_le.mp inside, Decidable.byContradiction fun none => here ?_⟩
  exact Bool.and_eq_true_iff.mpr ⟨congrArg Bool.not (beq_false_of_ne (not_or.mp none).1), congrArg Bool.not (beq_false_of_ne (not_or.mp none).2)⟩

/-- What a link that stays down does to its ring: a stop in Sorano mode or with REPAIR_EN at 0, else a cut. -/
noncomputable def State.linkLost (s : State) (d l : Nat) (b : Bool) : State :=
  if s.sorano || !s.linkRepair then (if (s.ring d).stopped then s else s.fabricStop d l) else s.cutLink d l b State.cutInstance

variable {b : Bool}

theorem linkStops_iff : (s.sorano || !s.linkRepair) = true ↔ s.sorano = true ∨ s.linkRepair = false := Bool.or_eq_true_iff.trans (or_congr_right (Iff.of_eq (Bool.not_eq_true' _)))

theorem State.linkLost_stopped (h : s.sorano = true ∨ s.linkRepair = false) (hst : (s.ring d).stopped = true) : s.linkLost d l b = s :=
  (if_pos (linkStops_iff.mpr h)).trans (if_pos hst)

theorem State.linkLost_stops (h : s.sorano = true ∨ s.linkRepair = false) (hst : (s.ring d).stopped = false) : s.linkLost d l b = s.fabricStop d l :=
  (if_pos (linkStops_iff.mpr h)).trans (if_neg (Bool.eq_false_iff.mp hst))

theorem State.linkLost_cuts (hs : s.sorano = false) (hr : s.linkRepair = true) : s.linkLost d l b = s.cutLink d l b State.cutInstance :=
  if_neg fun h => (linkStops_iff.mp h).elim (Bool.eq_false_iff.mp hs) fun h => Bool.false_ne_true (h.symm.trans hr)

/-- What the link does once it has been down from tick `x`. -/
noncomputable def State.repairWaited (s : State) (d l : Nat) (b : Bool) (x : Option Nat) : State :=
  match x with | none => s | some t => if s.time.tick < t + s.repairWait then s else s.linkLost d l b

theorem exec_repairWait_up (h : s.linkDown d l = none) : exec (.repairWait d l b) s = .next s :=
  congrArg (fun x => Host.Outcome.next (s.repairWaited d l b x)) h

theorem exec_repairWait_early {t : Nat} (h : s.linkDown d l = some t) (early : s.time.tick < t + s.repairWait) : exec (.repairWait d l b) s = .next s :=
  (congrArg (fun x => Host.Outcome.next (s.repairWaited d l b x)) h).trans (congrArg Host.Outcome.next (if_pos early))

theorem exec_repairWait_due {t : Nat} (h : s.linkDown d l = some t) (due : t + s.repairWait ≤ s.time.tick) {u : State} (hu : s.linkLost d l b = u) : exec (.repairWait d l b) s = .next u :=
  (congrArg (fun x => Host.Outcome.next (s.repairWaited d l b x)) h).trans (congrArg Host.Outcome.next ((if_neg (Nat.not_lt.mpr due)).trans hu))

/-- A notice is recorded as seen. -/
noncomputable def State.noticed (s : State) (n : Nat × Nat × Nat × Nat) : State := { s with topo := { s.topo with notices := n :: s.topo.notices } }

theorem exec_repairNotice_seen {o n : Nat} (h : (d, l, o, n) ∈ s.topo.notices ∨ s.ringSize d < 2) : exec (.repairNotice d l o n b) s = .next s :=
  congrArg Host.Outcome.next (if_pos (h.imp_left List.contains_iff_mem.mpr))

theorem exec_repairNotice_new {o n : Nat} (h : (d, l, o, n) ∉ s.topo.notices) (hsize : 2 ≤ s.ringSize d) {u : State} (hu : (s.noticed (d, l, o, n)).linkLost d l b = u) :
    exec (.repairNotice d l o n b) s = .next u :=
  congrArg Host.Outcome.next ((if_neg fun seen => seen.elim (fun hc => h (List.contains_iff_mem.mp hc)) (Nat.not_lt.mpr hsize)).trans hu)

end Links

/-! ### Step groups (R375, R414, R419) -/

section Group

variable {s : State}

theorem exec_stepAnnounce_stays (h : s.inGroup = false ∨ s.isLead = true) (n : Nat) (fl : Bool) : exec (.stepAnnounce n fl) s = .next s :=
  congrArg Host.Outcome.next (if_neg fun on => h.elim (fun h => Bool.false_ne_true (h.symm.trans (Bool.and_eq_true_iff.mp on).1))
    fun h => Bool.false_ne_true ((congrArg Bool.not h).symm.trans (Bool.and_eq_true_iff.mp on).2))

/-- A member has heard of the lead's step. -/
noncomputable def State.announced (s : State) (n : Nat) : State := { s with topo := { s.topo with announced := some n } }

/-- It flips the slot that it promised. -/
noncomputable def State.promiseKept (s : State) (i : Nat) : State := { s with inst := { s.inst with promised := none, flips := s.inst.flips ++ [(i, none)] } }

/-- It flips the slot `x` that it promised, if it promised one, where the step is the flip step. -/
noncomputable def State.flipsAt (s : State) (n : Nat) (fl : Bool) (x : Option Nat) : State :=
  match x with | some i => if fl then (s.announced n).promiseKept i else s.announced n | none => s.announced n

theorem State.flipsAt_facts (n : Nat) (fl : Bool) : (s.flipsAt n fl s.inst.promised).topo.announced = some n ∧ (s.flipsAt n fl s.inst.promised).step = s.step
    ∧ (fl = false ∨ s.inst.promised = none → (s.flipsAt n fl s.inst.promised).inst = s.inst)
    ∧ ∀ i, fl = true → s.inst.promised = some i → (s.flipsAt n fl s.inst.promised).inst.promised = none ∧ (s.flipsAt n fl s.inst.promised).inst.flips = s.inst.flips ++ [(i, none)] := by
  cases s.inst.promised with
  | none => exact ⟨rfl, rfl, fun _ => rfl, fun i _ h => (Option.some_ne_none i h.symm).elim⟩
  | some i =>
    cases fl with
    | false => exact ⟨rfl, rfl, fun _ => rfl, fun i h => (Bool.false_ne_true h).elim⟩
    | true => exact ⟨rfl, rfl, fun h => h.elim (fun h => (Bool.false_ne_true h.symm).elim) fun h => (Option.some_ne_none i h).elim, fun j _ h => ⟨rfl, Option.some.inj h ▸ rfl⟩⟩

section Member

variable (hg : s.inGroup = true) (hl : s.isLead = false)
include hg hl

theorem exec_stepAnnounce_member (n : Nat) (fl : Bool) : exec (.stepAnnounce n fl) s = .next (s.flipsAt n fl s.inst.promised) :=
  congrArg Host.Outcome.next (if_pos (Bool.and_eq_true_iff.mpr ⟨hg, congrArg Bool.not hl⟩))

end Member

/-- The lead holds the clean report of module `m`. -/
noncomputable def State.cleanHeard (s : State) (m : Nat) : State := { s with topo := { s.topo with clean := m :: s.topo.clean.filter (· != m) } }

/-- A member knows that every report is clean. -/
noncomputable def State.goHeard (s : State) : State := { s with topo := { s.topo with go := true } }

theorem State.mayCommit_goHeard (hl : s.isLead = false) : s.goHeard.mayCommit = true :=
  Bool.or_eq_true_iff.mpr (.inr (if_neg (Bool.eq_false_iff.mp hl)))

theorem exec_cleanReport_stays (m : Nat) {n : Nat} (cl : Bool) (h : s.inGroup = false ∨ s.step.running = false ∨ n ≠ s.step.num) :
    exec (.cleanReport m n cl) s = .next s := by
  refine congrArg Host.Outcome.next (if_neg fun on => ?_)
  obtain ⟨up, now⟩ := Bool.and_eq_true_iff.mp on
  obtain ⟨member, running⟩ := Bool.and_eq_true_iff.mp up
  exact h.elim (fun h => Bool.false_ne_true (h.symm.trans member)) fun h => h.elim (fun h => Bool.false_ne_true (h.symm.trans running)) fun h => h (beq_iff_eq.mp now)

theorem exec_cleanReport_counts (hg : s.inGroup = true) (hr : s.step.running = true) {m n : Nat} (hn : n = s.step.num) (cl : Bool) : exec (.cleanReport m n cl) s = .next (
    if !cl then s.abandon .transport .OK 0 []
    else if s.isLead then s.cleanHeard m
    else s.goHeard) :=
  congrArg Host.Outcome.next (if_pos (Bool.and_eq_true_iff.mpr ⟨Bool.and_eq_true_iff.mpr ⟨hg, hr⟩, beq_iff_eq.mpr hn⟩))

theorem mem_cons_filter_ne (k m : Nat) (l : List Nat) : k ∈ m :: l.filter (· != m) ↔ k = m ∨ k ∈ l := by
  rw [List.mem_cons, List.mem_filter, bne_iff_ne]
  exact ⟨.imp_right And.left, fun h => (eq_or_ne k m).imp_right fun ne => ⟨h.resolve_left ne, ne⟩⟩

end Group

/-- Settles O58: a repair by its rules for links, notices, first and second cuts and lost members, then the messages of a step group. -/
theorem ringsAndStepGroups : Obligations.RingsAndStepGroups := by
  refine ⟨fun s d l b => ⟨exec_repairWait_up, fun t ht => ⟨exec_repairWait_early ht, fun h => ⟨fun hs hst => exec_repairWait_due ht h (State.linkLost_stopped hs hst),
      fun hs hst => exec_repairWait_due ht h (State.linkLost_stops hs hst), fun hs hr => exec_repairWait_due ht h (State.linkLost_cuts hs hr)⟩⟩⟩,
    fun s d l t => State.linkDown_facts,
    fun s d l o n b => ⟨exec_repairNotice_seen, fun hn hsize t ht => ⟨fun hs hst => exec_repairNotice_new hn hsize (ht ▸ State.linkLost_stopped (s := s.noticed (d, l, o, n)) hs hst),
      fun hs hst => exec_repairNotice_new hn hsize (ht ▸ State.linkLost_stops (s := s.noticed (d, l, o, n)) hs hst),
      fun hs hr => exec_repairNotice_new hn hsize (ht ▸ State.linkLost_cuts (s := s.noticed (d, l, o, n)) hs hr)⟩⟩,
    ?cut,
    fun n a b hn ha hb => ⟨enclosed_next_iff hn ha hb, enclosed_one_of n a b⟩,
    ?member,
    fun s d l => ⟨congrArg Ring.stopped (State.ring_setRing_same s d _), s.stopRing_excludes d, State.mem_raise _ _ _ _⟩,
    fun s n fl => ⟨fun h => exec_stepAnnounce_stays h n fl, fun hg hl => ⟨_, exec_stepAnnounce_member hg hl n fl, ?announce⟩⟩,
    fun s m n cl => ⟨exec_cleanReport_stays m cl, fun hg hr hn => ⟨fun hc => (exec_cleanReport_counts hg hr hn cl).trans (congrArg Host.Outcome.next (if_pos (congrArg Bool.not hc))), fun hc hl => ?counts, fun hc hl => ?goes⟩⟩,
    fun s n => ⟨fun h => congrArg Host.Outcome.next (if_neg (Bool.eq_false_iff.mp h)), fun h => congrArg Host.Outcome.next (if_pos h)⟩⟩
  case cut =>
    intro s d l b r u
    exact ⟨fun hcut hother => ⟨congrArg Ring.cut (State.ring_cutLink_first b hcut hother), congrArg Ring.state (State.ring_cutLink_first b hcut hother), congrArg Ring.seq (State.ring_cutLink_first b hcut hother),
        congrArg (fun r : Ring => r.cut.getD _) (State.ring_cutLink_first b hcut hother), fun e he => State.cutLink_first_other b hcut hother he, State.cutLink_first_event b hcut hother⟩,
      fun a hcut hne hone => ⟨State.cutLink_split b hcut hne hone, fun k => State.cutLink_lost b hcut hne hone⟩⟩
  case member =>
    intro s d k b u
    exact ⟨s.memberLost_lost d k b, s.memberLost_state d k b, fun m hs he hm => ⟨fun hb => State.memberLost_substituted hs he hm hb, fun hb => State.memberLost_programming hs he hm hb⟩,
      fun hno hr => State.memberLost_replica hno hr, fun hno hr => State.memberLost_shard hno hr⟩
  case announce => exact s.flipsAt_facts n fl
  case counts => exact ⟨_, (exec_cleanReport_counts hg hr hn cl).trans (congrArg Host.Outcome.next ((if_neg (fun h => Bool.false_ne_true ((congrArg Bool.not hc).symm.trans h))).trans (if_pos hl))),
      fun k => mem_cons_filter_ne k m _, rfl, rfl⟩
  case goes => exact ⟨_, (exec_cleanReport_counts hg hr hn cl).trans (congrArg Host.Outcome.next ((if_neg (fun h => Bool.false_ne_true ((congrArg Bool.not hc).symm.trans h))).trans (if_neg (Bool.eq_false_iff.mp hl)))),
      rfl, rfl, rfl, State.mayCommit_goHeard hl⟩

end Sys2Proof.Machine
end

section
/-! PROOFS of the family 13_weight_installation: the ops on a cord slot (R386, R390 to R393, R405, R506, R507). -/

namespace Sys2Proof.Machine

/-- What each step of a fold keeps, the fold keeps. -/
theorem State.foldl_keeps {α β : Type} (g : State → β) {f : State → α → State} (hf : ∀ s x, g (f s x) = g s) (l : List α) (s : State) : g (l.foldl f s) = g s := by
  induction l generalizing s with
  | nil => rfl
  | cons x l ih => exact (ih _).trans (hf s x)

/-! ### Ops on a slot and the states that each lists (Table 13-6) -/

section OnSlot

variable {s : State} {h : Hdr} {i : Nat} {ok : SlotState → Bool} {k : State → Desc → State} (ha : s.accepts h clsWeight = true)
include ha

theorem State.onSlot_runs (hi : i < 8) (hst : ok (s.slot i).st = true) : s.onSlot h i ok k = k (s.start h) (s.descOf h) :=
  (State.descriptor_accepted ha _).trans (if_pos ⟨hi, s.slot_start h i ▸ hst⟩)

/-- An op on a slot in a state that it does not list. -/
theorem State.onSlot_refused (hno : 8 ≤ i ∨ ok (s.slot i).st = false) :
    s.onSlot h i ok k = (s.start h).finish (s.descOf h) .CORD_STATE 0 0 :=
  (State.descriptor_accepted ha _).trans (if_neg fun hc => hno.elim (Nat.not_le.mpr hc.1) fun hf => Bool.false_ne_true ((s.slot_start h i ▸ hf : ok ((s.start h).slot i).st = false).symm.trans hc.2))

end OnSlot

theorem SlotState.isOneOf_two {x a b : SlotState} (h : x = a ∨ x = b) : (x == a || x == b) = true := Bool.or_eq_true_iff.mpr (h.imp beq_iff_eq.mpr beq_iff_eq.mpr)

theorem SlotState.isOneOf_three {x a b c : SlotState} (h : x = a ∨ x = b ∨ x = c) : (x == a || x == b || x == c) = true :=
  Bool.or_eq_true_iff.mpr ((or_assoc.mpr h).imp SlotState.isOneOf_two beq_iff_eq.mpr)

/-! ### Verification of a signed object (R498, R504) -/

section Verify

variable {s : State} {formed : Bool} {kind id security : Nat} {sig : SigOut}

theorem State.verify_signature (hm : s.sigMask formed kind id sig ≠ 0) (counter : Option Nat) :
    s.verify formed kind id security counter sig = (s.sigFailed kind id (s.sigMask formed kind id sig), .signature) := if_pos hm

variable (hm : s.sigMask formed kind id sig = 0)
include hm

theorem State.verify_uncounted : s.verify formed kind id security none sig = (s, .accepted) := if_neg (not_not.mpr hm)

theorem State.verify_counted (n : Nat) :
    s.verify formed kind id security (some n) sig = (s, if security < s.rollback n then .rollback else .accepted) := if_neg (not_not.mpr hm)

theorem State.verify_rollback {n : Nat} (h : security < s.rollback n) : s.verify formed kind id security (some n) sig = (s, .rollback) :=
  (State.verify_counted hm n).trans (congrArg (Prod.mk s) (if_pos h))

theorem State.verify_accepted {n : Nat} (h : s.rollback n ≤ security) : s.verify formed kind id security (some n) sig = (s, .accepted) :=
  (State.verify_counted hm n).trans (congrArg (Prod.mk s) (if_neg (Nat.not_lt.mpr h)))

end Verify

/-! ### MANIFEST (R386, R390, R393) -/

/-- The signature block behind a manifest's shard table. -/
noncomputable def manifestSig (bs : List Byte) : SigBlock := parseSig bs (256 + 64 * fieldAt bs 8 4)

/-- The block is formed for a cord, and of the manifest's own SECURITY_VERSION. -/
noncomputable def manifestSigFormed (bs : List Byte) : Bool := (manifestSig bs).formed && (manifestSig bs).kind == 5 && fieldAt bs 24 8 == (manifestSig bs).security

/-- How a manifest that has been verified completes. -/
noncomputable def manifestEnd (d : Desc) (i : Nat) (bs : List Byte) (es : List Nat) (v : State × Verified) : State :=
  match v.2 with
  | .signature => v.1.finish d .MANIFEST_SIGNATURE 0 0
  | .rollback => v.1.finish d .MANIFEST_ROLLBACK 0 0
  | .accepted =>
    let x := v.1.placeManifest i bs es (manifestSig bs).keyId
    x.1.finish d x.2.1 x.2.2.1 x.2.2.2

/-- The manifest `bs` is verified. -/
noncomputable def State.manifestVerified (t : State) (bs : List Byte) (sig : SigOut) : State × Verified :=
  t.verify (manifestSigFormed bs) 5 (manifestSig bs).keyId (manifestSig bs).security (some 3) sig

/-- A manifest that has been read is verified and placed. -/
noncomputable def manifestRead (d : Desc) (i : Nat) (es : List Nat) (sig : SigOut) (r : Rd) : State :=
  if r.code ≠ .OK then r.st.finish d r.code 0 0 else manifestEnd d i r.bytes es (r.st.manifestVerified r.bytes sig)

section Manifest

variable {s : State} {h : Hdr} {i sp src len : Nat} {far : List Byte} {es : List Nat} {sig : SigOut} (ha : s.accepts h clsWeight = true)
include ha

theorem exec_weightManifest_state (hne : i ≠ 0xFF) (hno : (s.slot i).st ≠ .free ∨ 8 ≤ i) :
    exec (.weightManifest h i sp src len far es sig) s = .next ((s.start h).finish (s.descOf h) .CORD_STATE 0 0) :=
  congrArg Host.Outcome.next ((State.descriptor_accepted ha _).trans (if_pos ⟨hne, s.slot_start h i ▸ hno.symm⟩))

variable (hfree : i = 0xFF ∨ (i < 8 ∧ (s.slot i).st = .free)) (hsp : sp % 2 = 0)
include hfree hsp

theorem exec_weightManifest_verified : exec (.weightManifest h i sp src len far es sig) s = .next (
    manifestEnd (s.descOf h) i ((s.start h).hostRead src len) es ((s.start h).manifestVerified ((s.start h).hostRead src len) sig)) := by
  have takes : ¬ (i ≠ 0xFF ∧ (8 ≤ i ∨ ((s.start h).slot i).st ≠ .free)) := fun hc =>
    hfree.elim hc.1 fun hf => hc.2.elim (Nat.not_le.mpr hf.1) fun h' => h' (s.slot_start h i ▸ hf.2)
  exact congrArg Host.Outcome.next ((State.descriptor_accepted ha _).trans ((if_neg takes).trans
    ((congrArg (manifestRead (s.descOf h) i es sig) (if_pos hsp)).trans (if_neg (not_not.mpr rfl)))))

theorem exec_weightManifest_unsigned (hm : (s.start h).sigMask (manifestSigFormed ((s.start h).hostRead src len)) 5 (manifestSig ((s.start h).hostRead src len)).keyId sig ≠ 0) :
    exec (.weightManifest h i sp src len far es sig) s = .next (((s.start h).sigFailed 5 (manifestSig ((s.start h).hostRead src len)).keyId
      ((s.start h).sigMask (manifestSigFormed ((s.start h).hostRead src len)) 5 (manifestSig ((s.start h).hostRead src len)).keyId sig)).finish (s.descOf h) .MANIFEST_SIGNATURE 0 0) :=
  (exec_weightManifest_verified ha hfree hsp).trans (congrArg (fun v => Host.Outcome.next (manifestEnd (s.descOf h) i ((s.start h).hostRead src len) es v)) (State.verify_signature hm _))

variable (hm : (s.start h).sigMask (manifestSigFormed ((s.start h).hostRead src len)) 5 (manifestSig ((s.start h).hostRead src len)).keyId sig = 0)
include hm

theorem exec_weightManifest_older (hr : (manifestSig ((s.start h).hostRead src len)).security < (s.start h).rollback 3) :
    exec (.weightManifest h i sp src len far es sig) s = .next ((s.start h).finish (s.descOf h) .MANIFEST_ROLLBACK 0 0) :=
  (exec_weightManifest_verified ha hfree hsp).trans (congrArg (fun v => Host.Outcome.next (manifestEnd (s.descOf h) i ((s.start h).hostRead src len) es v)) (State.verify_rollback hm hr))

theorem exec_weightManifest_placed (hr : (s.start h).rollback 3 ≤ (manifestSig ((s.start h).hostRead src len)).security) {t : State} {c : Code} {r0 r1 : Nat}
    (hp : (s.start h).placeManifest i ((s.start h).hostRead src len) es (manifestSig ((s.start h).hostRead src len)).keyId = (t, c, r0, r1)) :
    exec (.weightManifest h i sp src len far es sig) s = .next (t.finish (s.descOf h) c r0 r1) :=
  (exec_weightManifest_verified ha hfree hsp).trans ((congrArg (fun v => Host.Outcome.next (manifestEnd (s.descOf h) i ((s.start h).hostRead src len) es v)) (State.verify_accepted hm hr)).trans
    (congrArg (fun x : State × Code × Nat × Nat => Host.Outcome.next (x.1.finish (s.descOf h) x.2.1 x.2.2.1 x.2.2.2)) hp))

end Manifest

section Place

variable {s : State} {i : Nat} {bs : List Byte} {es : List Nat} {signer : Nat}

/-- The manifest goes into the slot `y` with the units `x`, where there are both. -/
noncomputable def State.placedIn (s : State) (bs : List Byte) (es : List Nat) (signer : Nat) (t : State) (x : Option (List Nat)) (y : Option Nat) : State × Code × Nat × Nat :=
  match x, y with
  | none, _ => (s, .CORD_AREA_FULL, 0, 0)
  | some _, none => (s, .CORD_SLOTS_FULL, 0, 0)
  | some us, some j => (t.setSlot j (Slot.ofManifest bs (es.map fun e => (e, s.targetBank e)) us signer), .OK, j, 0)

/-- A formed manifest is placed, if no engine is refused. -/
noncomputable def State.placedOn (s : State) (i : Nat) (bs : List Byte) (es : List Nat) (signer : Nat) (x : Option (Nat × Code)) : State × Code × Nat × Nat :=
  match x with
  | some (e, c) => (s, c, 0, e)
  | none =>
    let t := s.displace (es.map fun e => (e, s.targetBank e))
    s.placedIn bs es signer t (t.allocRuns (manifestUnits bs)) (t.manifestSlot i)

theorem State.placeManifest_version (hv : fieldAt bs 4 2 / 256 ≠ 1) : s.placeManifest i bs es signer = (s, .MANIFEST_VERSION, 0, 0) := if_pos hv

variable (hv : fieldAt bs 4 2 / 256 = 1)
include hv

theorem State.placeManifest_format (hf : manifestFormed bs = false) : s.placeManifest i bs es signer = (s, .CORD_FORMAT, 0, 0) :=
  (if_neg (not_not.mpr hv)).trans (if_pos (congrArg Bool.not hf))

variable (hf : manifestFormed bs = true)
include hf

theorem State.placeManifest_formed : s.placeManifest i bs es signer = s.placedOn i bs es signer (s.refusedEngine es) :=
  (if_neg (not_not.mpr hv)).trans (if_neg fun h => Bool.false_ne_true ((congrArg Bool.not hf).symm.trans h))

theorem State.placeManifest_engine {e : Nat} {c : Code} (he : s.refusedEngine es = some (e, c)) : s.placeManifest i bs es signer = (s, c, 0, e) :=
  (State.placeManifest_formed hv hf).trans (congrArg (s.placedOn i bs es signer) he)

variable (he : s.refusedEngine es = none) {t : State} (ht : t = s.displace (es.map fun e => (e, s.targetBank e)))
include he ht

theorem State.placeManifest_displaced : s.placeManifest i bs es signer = s.placedIn bs es signer t (t.allocRuns (manifestUnits bs)) (t.manifestSlot i) :=
  (State.placeManifest_formed hv hf).trans ((congrArg (s.placedOn i bs es signer) he).trans
    (congrArg (fun t : State => s.placedIn bs es signer t (t.allocRuns (manifestUnits bs)) (t.manifestSlot i)) ht.symm))

theorem State.placeManifest_area (hu : t.allocRuns (manifestUnits bs) = none) : s.placeManifest i bs es signer = (s, .CORD_AREA_FULL, 0, 0) :=
  (State.placeManifest_displaced hv hf he ht).trans (congrArg (s.placedIn bs es signer t · _) hu)

variable {us : List Nat} (hu : t.allocRuns (manifestUnits bs) = some us)
include hu

theorem State.placeManifest_slots (hj : t.manifestSlot i = none) : s.placeManifest i bs es signer = (s, .CORD_SLOTS_FULL, 0, 0) :=
  (State.placeManifest_displaced hv hf he ht).trans (congrArg₂ (s.placedIn bs es signer t) hu hj)

theorem State.placeManifest_fills {j : Nat} (hj : t.manifestSlot i = some j) :
    s.placeManifest i bs es signer = (t.setSlot j (Slot.ofManifest bs (es.map fun e => (e, s.targetBank e)) us signer), .OK, j, 0) :=
  (State.placeManifest_displaced hv hf he ht).trans (congrArg₂ (s.placedIn bs es signer t) hu hj)

omit hv hf he ht hu in
theorem State.slot_setSlot_same (t : State) (j : Nat) (y : Slot) : (t.setSlot j y).slot j = y := (State.slot_setSlot _ _ _ _).trans (if_pos rfl)

omit hv hf he ht hu in
theorem State.slot_setSlot_other (t : State) {j k : Nat} (y : Slot) (h : k ≠ j) : (t.setSlot j y).slot k = t.slot k := (State.slot_setSlot _ _ _ _).trans (if_neg h)

end Place

/-! ### KEY and QUERY (R506, R507, Table 13-7) -/

section Key

/-- A KEY for the slot `x` of number `i`, whose envelope is at `a` and opens to `key`. -/
noncomputable def State.keyOp (t : State) (d : Desc) (i a n : Nat) (key : Option (List Byte)) (x : Slot) : State :=
  match key, x.key with
  | none, _ => t.finish d .KEY_ENVELOPE_INVALID 0 0
  | some k, old =>
    if !t.envelopeOk i (t.hostRead a n) then t.finish d .KEY_ENVELOPE_INVALID 0 0
    else if old.isSome ∧ old ≠ some k then t.finish d .KEY_CONFLICT 0 0
    else (t.setSlot i { x with key := some k }).finish d .OK 0 0

variable {s : State} {h : Hdr} {i a n : Nat} (ha : s.accepts h clsWeight = true) (hi : i < 8)
include ha hi

theorem exec_weightQuery : exec (.weightQuery h i a) s = .next (
    ((s.start h).hostPut a ((s.slot i).record ((s.start h).tilesProgrammed (s.slot i)))).finish (s.descOf h) .OK 0 0) :=
  congrArg Host.Outcome.next ((State.onSlot_runs ha hi rfl).trans
    (congrArg (fun x : Slot => ((s.start h).hostPut a (x.record ((s.start h).tilesProgrammed x))).finish (s.descOf h) .OK 0 0) (s.slot_start h i)))

variable (hst : (s.slot i).st = .loading ∨ (s.slot i).st = .restoring)
include hst

theorem exec_weightKey (key : Option (List Byte)) : exec (.weightKey h i a n key) s = .next ((s.start h).keyOp (s.descOf h) i a n key (s.slot i)) :=
  congrArg Host.Outcome.next ((State.onSlot_runs ha hi (SlotState.isOneOf_two hst)).trans (congrArg ((s.start h).keyOp (s.descOf h) i a n key) (s.slot_start h i)))

theorem exec_weightKey_invalid {k : List Byte} (he : (s.start h).envelopeOk i ((s.start h).hostRead a n) = false) :
    exec (.weightKey h i a n (some k)) s = .next ((s.start h).finish (s.descOf h) .KEY_ENVELOPE_INVALID 0 0) :=
  (exec_weightKey ha hi hst _).trans (congrArg Host.Outcome.next (if_pos (congrArg Bool.not he)))

variable {k : List Byte} (he : (s.start h).envelopeOk i ((s.start h).hostRead a n) = true)
include he

theorem exec_weightKey_valid : exec (.weightKey h i a n (some k)) s = .next (
    if (s.slot i).key.isSome ∧ (s.slot i).key ≠ some k then (s.start h).finish (s.descOf h) .KEY_CONFLICT 0 0
    else ((s.start h).setSlot i { s.slot i with key := some k }).finish (s.descOf h) .OK 0 0) :=
  (exec_weightKey ha hi hst _).trans (congrArg Host.Outcome.next (if_neg fun h' => Bool.false_ne_true ((congrArg Bool.not he).symm.trans h')))

end Key

/-! ### SHARD (R279, R280, R391, R392) -/

section Shard

variable {s : State} {h : Hdr} {i sp src sh : Nat} {re rp : Bool} {far : List Byte} (ha : s.accepts h clsWeight = true) (hi : i < 8)
  (hst : (s.slot i).st = .loading ∨ (s.slot i).st = .restoring ∨ (s.slot i).st = .active)

theorem State.slot_takeBuffers (s : State) (c n k : Nat) : (s.takeBuffers c n).slot k = s.slot k :=
  congrArg (Tab.get · k) ((State.takeBuffers_kept rfl (Kept.refl 515 s)).only .slots rfl)

theorem State.inst_takeBuffers (s : State) (c n : Nat) : (s.takeBuffers c n).inst = s.inst := (State.takeBuffers_kept rfl (Kept.refl 515 s)).only .inst rfl

/-- A channel holds `n` more staging buffers. -/
noncomputable def State.moreBuffers (s : State) (c n : Nat) : State := s.setChan c { s.chan c with buffers := (s.chan c).buffers + n }

theorem State.buffers_moreBuffers (s : State) (c n : Nat) : ((s.moreBuffers c n).chan c).buffers = (s.chan c).buffers + n :=
  congrArg Chan.buffers ((State.chan_setChan _ _ _ _).trans (if_pos rfl))

theorem State.buffers_takeBuffers (s : State) (c n : Nat) : ((s.takeBuffers c n).chan c).buffers = (s.chan c).buffers + n :=
  iteInduction (motive := fun u : State => ((u.moreBuffers c n).chan c).buffers = (s.chan c).buffers + n) (fun _ => State.buffers_moreBuffers _ c n) fun _ => s.buffers_moreBuffers c n

theorem State.shardArrived_jobs (s : State) (j : ShardJob) (bs : List Byte) : (s.shardArrived j bs).inst.jobs = s.inst.jobs ++ [j] :=
  iteInduction (motive := fun u : State => u.inst.jobs ++ [j] = s.inst.jobs ++ [j]) (fun _ => rfl) fun _ => rfl

theorem State.shardArrived_chans (s : State) (j : ShardJob) (bs : List Byte) : (s.shardArrived j bs).chans = s.chans :=
  (State.shardArrived_kept rfl (Kept.refl 8798240505856 s)).only .chans rfl

theorem State.setSlot_passed (s : State) {c : Nat} {y : Slot} (h : y.passed = (s.slot c).passed) (k : Nat) : ((s.setSlot c y).slot k).passed = (s.slot k).passed :=
  (congrArg Slot.passed (State.slot_setSlot _ _ _ _)).trans (iteInduction (motive := fun x : Slot => x.passed = (s.slot k).passed) (fun hk => hk ▸ h) fun _ => rfl)

theorem State.shardArrived_passed (s : State) (j : ShardJob) (bs : List Byte) (k : Nat) : ((s.shardArrived j bs).slot k).passed = (s.slot k).passed :=
  iteInduction (motive := fun u : State => (u.slot k).passed = (s.slot k).passed) (fun _ => s.setSlot_passed (by rfl) k) fun _ => rfl

/-- A SHARD for the slot `x` of number `i`. -/
noncomputable def State.shardOp (t : State) (d : Desc) (i sp : Nat) (re rp : Bool) (sh src : Nat) (far : List Byte) (x : Slot) : State :=
  let n := x.shardLen sh + 16
  if x.shards ≤ sh then t.finish d .CORD_FORMAT sh 0
  else if x.duplicate sh rp then (t.bump (wtReg Reg.WT_SHARD_DUP_TOTAL) 1).finish d .OK sh 1
  else if x.key.isNone ∧ 4 ≤ t.keyless then t.finish d .CORD_NO_KEY sh 0
  else
    let r := t.object sp src n far
    if r.code ≠ .OK then r.st.finish d r.code sh 0
    else
      let k := if sp % 2 = 0 then shardBuffers n else 0
      (r.st.takeBuffers d.chan k).shardArrived { slot := i, shard := sh, desc := some d, repair := rp, restore := re, buffers := k } r.bytes

/-- A shard from host memory joins those to be checked. -/
noncomputable def State.shardJoins (t : State) (d : Desc) (i : Nat) (re rp : Bool) (sh src : Nat) (x : Slot) : State :=
  (t.takeBuffers d.chan (shardBuffers (x.shardLen sh + 16))).shardArrived
    { slot := i, shard := sh, desc := some d, repair := rp, restore := re, buffers := shardBuffers (x.shardLen sh + 16) } (t.hostRead src (x.shardLen sh + 16))

/-- A shard that has been read joins those to be checked. -/
noncomputable def shardRead (d : Desc) (i n sp : Nat) (re rp : Bool) (sh : Nat) (r : Rd) : State :=
  if r.code ≠ .OK then r.st.finish d r.code sh 0
  else
    let k := if sp % 2 = 0 then shardBuffers n else 0
    (r.st.takeBuffers d.chan k).shardArrived { slot := i, shard := sh, desc := some d, repair := rp, restore := re, buffers := k } r.bytes

theorem State.shardOp_new {t : State} {d : Desc} {x : Slot} (hin : sh < x.shards) (hdup : x.duplicate sh rp = false) :
    t.shardOp d i sp re rp sh src far x = if x.key.isNone ∧ 4 ≤ t.keyless then t.finish d .CORD_NO_KEY sh 0
      else shardRead d i (x.shardLen sh + 16) sp re rp sh (t.object sp src (x.shardLen sh + 16) far) :=
  (if_neg (Nat.not_le.mpr hin)).trans (if_neg (Bool.eq_false_iff.mp hdup))

theorem State.shardOp_joins {t : State} {d : Desc} {x : Slot} (hsp : sp % 2 = 0) (hin : sh < x.shards) (hdup : x.duplicate sh rp = false) (hkey : x.key ≠ none ∨ t.keyless < 4) :
    t.shardOp d i sp re rp sh src far x = t.shardJoins d i re rp sh src x :=
  (State.shardOp_new hin hdup).trans ((if_neg fun hc => hkey.elim (fun hne => hne (Option.isNone_iff_eq_none.mp hc.1)) (Nat.not_lt.mpr hc.2)).trans
    ((congrArg (shardRead d i (x.shardLen sh + 16) sp re rp sh) (if_pos hsp)).trans ((if_neg (not_not.mpr rfl)).trans
      (congrArg (fun k => (t.takeBuffers d.chan k).shardArrived { slot := i, shard := sh, desc := some d, repair := rp, restore := re, buffers := k } (t.hostRead src (x.shardLen sh + 16))) (if_pos hsp)))))

theorem State.shardJoins_jobs (t : State) (d : Desc) (x : Slot) : (t.shardJoins d i re rp sh src x).inst.jobs
    = t.inst.jobs ++ [{ slot := i, shard := sh, desc := some d, repair := rp, restore := re, buffers := shardBuffers (x.shardLen sh + 16) }] :=
  (State.shardArrived_jobs _ _ _).trans (congrArg (·.jobs ++ _) (t.inst_takeBuffers _ _))

theorem State.shardJoins_passed (t : State) (d : Desc) (x : Slot) : ((t.shardJoins d i re rp sh src x).slot i).passed = (t.slot i).passed :=
  (State.shardArrived_passed _ _ _ _).trans (congrArg Slot.passed (t.slot_takeBuffers _ _ _))

theorem State.shardJoins_buffers (t : State) (d : Desc) (x : Slot) :
    ((t.shardJoins d i re rp sh src x).chan d.chan).buffers = (t.chan d.chan).buffers + shardBuffers (x.shardLen sh + 16) :=
  (congrArg (fun c => (Tab.get c d.chan).buffers) (State.shardArrived_chans _ _ _)).trans (t.buffers_takeBuffers _ _)

include ha hi hst

theorem exec_weightShard_eq : exec (.weightShard h i sp re rp sh src far) s = .next ((s.start h).shardOp (s.descOf h) i sp re rp sh src far (s.slot i)) :=
  congrArg Host.Outcome.next ((State.onSlot_runs ha hi (SlotState.isOneOf_three hst)).trans (congrArg ((s.start h).shardOp (s.descOf h) i sp re rp sh src far) (s.slot_start h i)))

end Shard

/-! ### A slot that is freed (R405) -/

section Free

variable (s : State) (i : Nat)

/-- The descriptor `x` of a job of `n` buffers completes, if it has one. -/
noncomputable def State.jobDone (t : State) (n : Nat) (c : Code) (a b : Nat) (x : Option Desc) : State :=
  match x with
  | some d => (t.setChan d.chan { t.chan d.chan with buffers := (t.chan d.chan).buffers - n }).finish d c a b
  | none => t

theorem State.jobDone_inst (t : State) (n : Nat) (c : Code) (a b : Nat) (x : Option Desc) : (t.jobDone n c a b x).inst = t.inst := by
  cases x with
  | none => rfl
  | some d => exact State.finish_inst _ _ _ _ _ _ _

theorem State.jobEnd_inst (j : ShardJob) (c : Code) (a b : Nat) : (s.jobEnd j c a b).inst = { s.inst with jobs := s.inst.jobs.erase j } :=
  State.jobDone_inst _ j.buffers c a b j.desc

/-- The jobs of a list end, as those of a slot that is freed do. -/
noncomputable def State.endJobs (s : State) (l : List ShardJob) : State := l.foldl (fun s j => s.jobEnd j .CORD_STATE j.shard 0) s

theorem State.endJobs_jobs (l : List ShardJob) (s : State) : (s.endJobs l).inst.jobs = s.inst.jobs.diff l := by
  induction l generalizing s with
  | nil => rfl
  | cons j l ih => exact (ih _).trans ((congrArg (fun x : Install => x.jobs.diff l) (s.jobEnd_inst j _ _ _)).trans (List.diff_cons _ _ _).symm)

theorem State.endJobs_keeps (l : List ShardJob) : Kept 8796093023872 s (s.endJobs l) :=
  kept_foldl l (fun _ _ h => State.jobEnd_kept rfl h) (.refl _ s)

/-- No entry that a test picks remains when those it picks are taken out one by one. -/
theorem not_mem_diff_filter {α : Type} [DecidableEq α] (p : α → Bool) (l : List α) {x : α} (hx : p x = true) : x ∉ l.diff (l.filter p) := by
  rw [← List.count_eq_zero, List.count_diff, List.count_filter hx, Nat.sub_self]

/-- The slot is empty, and the jobs for it have ended. -/
noncomputable def State.slotEmptied : State :=
  let t := (s.closeIntake i).setSlot i {}
  t.endJobs (t.inst.jobs.filter fun j => j.slot == i)

/-- What else is under way for the slot has been dropped. -/
noncomputable def State.workDropped (t : State) (i : Nat) : State :=
  { t with inst := { t.inst with flips := t.inst.flips.filter (fun p => !(p.1 == i)), checks := t.inst.checks.filter (fun c => c.slot != i)
                                 promised := if t.inst.promised = some i then none else t.inst.promised } }

/-- A COMMIT that waits completes with CORD_STATE. -/
noncomputable def State.endFlip (s : State) (x : Option Desc) : State := match x with | some d => s.finish d .CORD_STATE 0 0 | none => s

/-- The COMMITs of a list that wait complete with CORD_STATE. -/
noncomputable def State.endFlips (t : State) (l : List (Nat × Option Desc)) : State := l.foldl (fun s p => s.endFlip p.2) t

/-- A group COMMIT of the slot ends, if one is under way. -/
noncomputable def State.endGroup (t : State) (i : Nat) (x : Option GroupCommit) : State :=
  match x with
  | some g => if g.slot = i then { t with inst := { t.inst with group := none } }.finish g.desc .CORD_STATE 0 0 else t
  | none => t

/-- The slots, and the jobs and checks under way. -/
noncomputable def State.cordWork (t : State) : List ShardJob × List Readback × Tab Slot := (t.inst.jobs, t.inst.checks, t.slots)

theorem State.cordWork_finish (t : State) (d : Desc) (c : Code) (a b : Nat) : (t.finish d c a b).cordWork = t.cordWork := by
  rw [State.cordWork, State.finish_inst, State.finish_slots]
  rfl

theorem State.endFlip_work (t : State) (x : Option Desc) : (t.endFlip x).cordWork = t.cordWork := by
  cases x with
  | none => rfl
  | some d => exact t.cordWork_finish d _ _ _

theorem State.endGroup_work (t : State) (x : Option GroupCommit) : (t.endGroup i x).cordWork = t.cordWork := by
  cases x with
  | none => rfl
  | some g => exact iteInduction (motive := fun u : State => u.cordWork = t.cordWork) (fun _ => State.cordWork_finish _ g.desc _ _ _) fun _ => rfl

theorem State.freeCord_work : (s.freeCord i).cordWork = ((s.slotEmptied i).workDropped i).cordWork :=
  (State.endGroup_work i _ _).trans (State.foldl_keeps State.cordWork (fun t (p : Nat × Option Desc) => t.endFlip_work p.2) _ _)

theorem State.freeCord_jobs : ∀ j ∈ (s.freeCord i).inst.jobs, j.slot ≠ i := by
  have left : (s.freeCord i).inst.jobs = _ := (congrArg Prod.fst (s.freeCord_work i)).trans (State.endJobs_jobs _ _)
  exact fun j hj hji => not_mem_diff_filter (fun j : ShardJob => j.slot == i) _ (beq_iff_eq.mpr hji) (left ▸ hj)

theorem State.freeCord_checks : ∀ c ∈ (s.freeCord i).inst.checks, c.slot ≠ i := by
  have left : (s.freeCord i).inst.checks = (s.slotEmptied i).inst.checks.filter (fun c => c.slot != i) :=
    congrArg (fun w : List ShardJob × List Readback × Tab Slot => w.2.1) (s.freeCord_work i)
  exact fun c hc => bne_iff_ne.mp ((List.mem_filter (p := fun c : Readback => c.slot != i)).mp (left ▸ hc)).2

theorem State.slots_freeCord : (s.freeCord i).slots = ((s.closeIntake i).setSlot i {}).slots :=
  (congrArg (fun w : List ShardJob × List Readback × Tab Slot => w.2.2) (s.freeCord_work i)).trans ((State.endJobs_keeps _ _).only .slots rfl)

theorem State.slot_freeCord_same : (s.freeCord i).slot i = {} := (congrArg (Tab.get · i) (s.slots_freeCord i)).trans (State.slot_setSlot_same _ i {})

theorem State.slot_freeCord_other {j : Nat} (h : j ≠ i) : (s.freeCord i).slot j = s.slot j :=
  (congrArg (Tab.get · j) (s.slots_freeCord i)).trans ((State.slot_setSlot_other _ {} h).trans
    (congrArg (Tab.get · j) ((State.closeIntake_kept rfl (Kept.refl 2199023257216 s)).only .slots rfl)))

theorem State.freeCord_engines : (s.freeCord i).engines = s.engines := (State.freeCord_kept rfl (Kept.refl 10997263763072 s)).only .engines rfl

end Free

/-! ### Programming that stops (R405) -/

section Stop

theorem Engine.bank_setBank_or (x : Engine) (b b' : Nat) (y : Bank) : (x.setBank b y).bank b' = y ∨ (x.setBank b y).bank b' = x.bank b' :=
  iteInduction (motive := fun z : Engine => z.bank b' = y ∨ z.bank b' = x.bank b')
    (fun _ => (em (b' = 0)).imp (fun h => if_pos h) fun h => (if_neg h).trans (if_neg h).symm)
    fun _ => (em (b' = 0)).symm.imp (fun h => if_neg h) fun h => (if_pos h).trans (if_pos h).symm

theorem State.bank_setBank_or (s : State) (e b e' b' : Nat) (y : Bank) : (s.setBank e b y).bank e' b' = y ∨ (s.setBank e b y).bank e' b' = s.bank e' b' := by
  refine (eq_or_ne e' e).elim (fun he => ?_) fun he => .inr (congrArg (Engine.bank · b') ((s.engine_setEngine _ _ _).trans (if_neg he)))
  cases he
  exact ((s.engine e).bank_setBank_or b b' y).imp (congrArg (Engine.bank · b') ((s.engine_setEngine _ _ _).trans (if_pos rfl))).trans
    (congrArg (Engine.bank · b') ((s.engine_setEngine _ _ _).trans (if_pos rfl))).trans

/-- One target bank leaves PROGRAMMING. -/
noncomputable def State.stopBank (s : State) (t : Nat × Nat) : State :=
  if (s.bank t.1 t.2).st = .programming then s.setBank t.1 t.2 { s.bank t.1 t.2 with st := .empty, layers := [] } else s

theorem State.stopBank_stops (s : State) (t : Nat × Nat) : ((s.stopBank t).bank t.1 t.2).st ≠ .programming :=
  iteInduction (motive := fun u : State => (u.bank t.1 t.2).st ≠ .programming) (fun _ h => nomatch (congrArg Bank.st (s.bank_setBank_same t.1 t.2 _)).symm.trans h) id

theorem State.stopBank_stays (s : State) (t : Nat × Nat) {e b : Nat} (h : (s.bank e b).st ≠ .programming) : ((s.stopBank t).bank e b).st ≠ .programming :=
  iteInduction (motive := fun u : State => (u.bank e b).st ≠ .programming)
    (fun _ h' => (s.bank_setBank_or t.1 t.2 e b _).elim (fun new => nomatch (congrArg Bank.st new).symm.trans h') fun old => h ((congrArg Bank.st old).symm.trans h')) fun _ => h

theorem State.foldl_stopBank_stays (l : List (Nat × Nat)) (s : State) {e b : Nat} (h : (s.bank e b).st ≠ .programming) :
    ((l.foldl State.stopBank s).bank e b).st ≠ .programming := by
  induction l generalizing s with
  | nil => exact h
  | cons t l ih => exact ih _ (s.stopBank_stays t h)

theorem State.foldl_stopBank_stops (l : List (Nat × Nat)) (s : State) : ∀ t ∈ l, ((l.foldl State.stopBank s).bank t.1 t.2).st ≠ .programming := by
  induction l generalizing s with
  | nil => exact fun _ h => nomatch h
  | cons t l ih =>
    exact fun u hu => (List.mem_cons.mp hu).elim (fun h => h ▸ State.foldl_stopBank_stays l _ (s.stopBank_stops u)) (ih _ u)

theorem State.stopProgramming_stops (s : State) (i : Nat) : ∀ t ∈ (s.slot i).targets, ((s.stopProgramming i).bank t.1 t.2).st ≠ .programming := State.foldl_stopBank_stops _ s

theorem State.stopProgramming_slot (s : State) (i j : Nat) : (s.stopProgramming i).slot j = s.slot j :=
  congrArg (Tab.get · j) ((State.stopProgramming_kept rfl (Kept.refl 2097152 s)).only .slots rfl)

theorem State.bank_freeCord (s : State) (i e b : Nat) : (s.freeCord i).bank e b = s.bank e b := State.bank_congr (s.freeCord_engines i) e b

end Stop

/-! ### REMOVE and ABORT (R405) -/

section Remove

variable {s : State} {h : Hdr} {i : Nat} (ha : s.accepts h clsWeight = true) (hi : i < 8)
include ha hi

theorem exec_weightRemove_active (hst : (s.slot i).st = .active) : exec (.weightRemove h i) s = .next ((s.start h).finish (s.descOf h) .CORD_ACTIVE 0 0) :=
  congrArg Host.Outcome.next ((State.onSlot_runs ha hi (by rw [hst]; rfl)).trans (if_pos (s.slot_start h i ▸ hst)))

omit hi in
theorem exec_weightRemove_refused (hst : (s.slot i).st = .free ∨ (s.slot i).st = .restoring) : exec (.weightRemove h i) s = .next ((s.start h).finish (s.descOf h) .CORD_STATE 0 0) :=
  congrArg Host.Outcome.next (State.onSlot_refused ha (.inr (hst.elim (fun e => by rw [e]; rfl) fun e => by rw [e]; rfl)))

/-- The slot of a REMOVE: its programming stops first while it is LOADING. -/
noncomputable def State.unprogrammed (s : State) (i : Nat) : State := if (s.slot i).st = .loading then s.stopProgramming i else s

theorem exec_weightRemove_frees (hst : (s.slot i).st = .ready ∨ (s.slot i).st = .standby ∨ (s.slot i).st = .failed ∨ (s.slot i).st = .loading) :
    exec (.weightRemove h i) s = .next ((((s.start h).unprogrammed i).freeCord i).finish (s.descOf h) .OK 0 0) := by
  have idle : ((s.start h).slot i).st ≠ .active := fun e => by
    rw [← s.slot_start h i, e] at hst
    exact absurd hst (by decide)
  exact congrArg Host.Outcome.next ((State.onSlot_runs ha hi (Bool.or_eq_true_iff.mpr (.inl (Bool.or_eq_true_iff.mpr
    ((or_assoc.mpr (or_assoc.mpr hst)).imp (fun h => SlotState.isOneOf_three (or_assoc.mp h)) beq_iff_eq.mpr))))).trans
      ((if_neg idle).trans (apply_ite (fun u : State => (u.freeCord i).finish (s.descOf h) .OK 0 0) _ _ _).symm))

theorem exec_weightAbort_frees (hst : (s.slot i).st = .loading) :
    exec (.weightAbort h i) s = .next ((((s.start h).stopProgramming i).freeCord i).finish (s.descOf h) .OK 0 0) :=
  congrArg Host.Outcome.next (State.onSlot_runs ha hi (beq_iff_eq.mpr hst))

omit ha hi in
theorem State.unprogrammed_slot (s : State) (i j : Nat) : (s.unprogrammed i).slot j = s.slot j :=
  iteInduction (motive := fun u : State => u.slot j = s.slot j) (fun _ => s.stopProgramming_slot i j) fun _ => rfl

end Remove

/-- Settles O47: each op on its slot by the state that the slot is in, and a manifest by the first of its checks that fails. -/
theorem weightOpsOnASlot : Obligations.WeightOpsOnASlot := by
  intro s h i ha t d x
  refine ⟨fun hi a b k => ⟨congrArg Host.Outcome.next (State.onSlot_refused ha (.inl hi)), congrArg Host.Outcome.next (State.onSlot_refused ha (.inl hi)), congrArg Host.Outcome.next (State.onSlot_refused ha (.inl hi)), congrArg Host.Outcome.next (State.onSlot_refused ha (.inl hi)),
      fun sp re rp sh f => congrArg Host.Outcome.next (State.onSlot_refused ha (.inl hi))⟩,
    fun hno sp src len far es sig hne => exec_weightManifest_state ha hne hno,
    fun hfree sp src len far es sig hsp => ?manifest,
    fun hi hst a n => ⟨exec_weightKey ha hi hst none, fun k => ⟨exec_weightKey_invalid ha hi hst,
      fun he hne hk => (exec_weightKey_valid ha hi hst he).trans (congrArg Host.Outcome.next (if_pos ⟨Option.isSome_iff_ne_none.mpr hne, hk⟩)),
      fun he hk => ⟨_, (exec_weightKey_valid ha hi hst he).trans (congrArg Host.Outcome.next (if_neg fun hc => hk.elim (Option.isSome_iff_ne_none.mp hc.1) hc.2)),
        t.slot_setSlot_same i _, fun j hj => (t.slot_setSlot_other _ hj).trans (s.slot_start h j), rfl⟩⟩⟩,
    fun hi hst sp re rp sh a f hsp => ?shard,
    fun hi a => exec_weightQuery ha hi,
    fun hi hst => exec_weightRemove_active ha hi hst,
    fun hi hst => exec_weightRemove_refused ha hst,
    fun hi hst => ⟨_, exec_weightRemove_frees ha hi hst, State.slot_freeCord_same _ i, State.freeCord_jobs _ i, State.freeCord_checks _ i,
      fun j hj => (State.slot_freeCord_other _ i hj).trans ((State.unprogrammed_slot _ i j).trans (s.slot_start h j))⟩,
    fun hi hst => ⟨_, exec_weightAbort_frees ha hi hst, State.slot_freeCord_same _ i,
      fun j hj => (State.slot_freeCord_other _ i hj).trans ((State.stopProgramming_slot _ i j).trans (s.slot_start h j)),
      fun e he running => t.stopProgramming_stops i e ((congrArg Slot.targets (s.slot_start h i)).symm ▸ he) ((congrArg Bank.st (State.bank_freeCord _ i e.1 e.2)).symm.trans running)⟩,
    fun hi hst => congrArg Host.Outcome.next (State.onSlot_refused ha (.inr (beq_eq_false_iff_ne.mpr hst)))⟩
  case manifest =>
    intro bs b formed c
    exact ⟨exec_weightManifest_unsigned ha hfree hsp, fun hm => ⟨exec_weightManifest_older ha hfree hsp hm, fun hr =>
      ⟨fun hv => exec_weightManifest_placed ha hfree hsp hm hr (State.placeManifest_version hv), fun hv hf => exec_weightManifest_placed ha hfree hsp hm hr (State.placeManifest_format hv hf), fun hv hf =>
        ⟨fun e st he => exec_weightManifest_placed ha hfree hsp hm hr (State.placeManifest_engine hv hf he), fun he t1 ht =>
          ⟨fun hu => exec_weightManifest_placed ha hfree hsp hm hr (State.placeManifest_area hv hf he ht hu),
            fun us hu hj => exec_weightManifest_placed ha hfree hsp hm hr (State.placeManifest_slots hv hf he ht hu hj),
            fun us j hu hj => ⟨_, exec_weightManifest_placed ha hfree hsp hm hr (State.placeManifest_fills hv hf he ht hu hj), congrArg Slot.st (t1.slot_setSlot_same j _), congrArg Slot.cord (t1.slot_setSlot_same j _),
              congrArg Slot.shards (t1.slot_setSlot_same j _), congrArg Slot.tiles (t1.slot_setSlot_same j _), congrArg Slot.group (t1.slot_setSlot_same j _), congrArg Slot.key (t1.slot_setSlot_same j _),
              congrArg Slot.passed (t1.slot_setSlot_same j _), congrArg Slot.unit (t1.slot_setSlot_same j _), congrArg Slot.targets (t1.slot_setSlot_same j _), congrArg Slot.manifest (t1.slot_setSlot_same j _),
              congrArg Slot.signer (t1.slot_setSlot_same j _), fun k hk => t1.slot_setSlot_other _ hk⟩⟩⟩⟩⟩⟩
  case shard =>
    intro c
    exact ⟨fun hout => (exec_weightShard_eq ha hi hst).trans (congrArg Host.Outcome.next (if_pos hout)),
      fun hin hdup => (exec_weightShard_eq ha hi hst).trans (congrArg Host.Outcome.next ((if_neg (Nat.not_le.mpr hin)).trans (if_pos hdup))),
      fun hin hdup hk h4 => (exec_weightShard_eq ha hi hst).trans (congrArg Host.Outcome.next ((State.shardOp_new hin hdup).trans (if_pos ⟨Option.isNone_iff_eq_none.mpr hk, h4⟩))),
      fun hin hdup hkey => ⟨_, (exec_weightShard_eq ha hi hst).trans (congrArg Host.Outcome.next (State.shardOp_joins hsp hin hdup hkey)),
        (t.shardJoins_jobs d x).trans (congrArg (·.jobs ++ _) (s.start_inst h)), (t.shardJoins_passed d x).trans (congrArg Slot.passed (s.slot_start h i)), t.shardJoins_buffers d x⟩⟩

end Sys2Proof.Machine
end

section
/-! PROOFS of the family 17_security: enrolment, identity, attestation and anti-rollback (R495, R498 to R505). -/

namespace Sys2Proof.Machine

/-- The first values of a longer run of a table. -/
theorem Tab.take_getList {α : Type} [Inhabited α] [DecidableEq α] (t : Tab α) (k n m : Nat) : (Tab.getList t k (n + m)).take n = Tab.getList t k n := by
  induction n generalizing k with
  | zero => rfl
  | succ n ih => rw [Nat.succ_add, Tab.getList, List.take_succ_cons, ih, Tab.getList]

/-- The front of what was written reads back. -/
theorem State.hostRead_hostPut_append (s : State) (a : Nat) (r l : List Byte) : (s.hostPut a (r ++ l)).hostRead a r.length = r := by
  rw [State.hostRead, ← Tab.take_getList _ _ _ l.length, ← List.length_append]
  exact (congrArg (List.take r.length) (Tab.getList_setList_same s.hmem a (r ++ l))).trans List.take_left

/-! ### Enrolment (R499) -/

/-- The signature block behind an enrolment object. -/
noncomputable def enrollSig (bs : List Byte) : SigBlock := parseSig bs 256

/-- The block is formed, and for an enrolment. -/
noncomputable def enrollSigFormed (bs : List Byte) : Bool := (enrollSig bs).formed && (enrollSig bs).kind == 6

theorem State.verifyBytes_enroll (s : State) (bs : List Byte) (sig : SigOut) {v : State × Verified} (hv : s.verify (enrollSigFormed bs) 6 (enrollSig bs).keyId (enrollSig bs).security none sig = v) :
    s.verifyBytes bs 256 6 none none sig = (v.1, v.2, enrollSig bs) :=
  congrArg (fun v : State × Verified => (v.1, v.2, enrollSig bs))
    ((congrArg (s.verify · 6 (enrollSig bs).keyId (enrollSig bs).security none sig) (Bool.and_true (enrollSigFormed bs))).trans hv)

theorem State.enrollReason_foreign (s : State) (bs : List Byte) {id : Nat} (h : s.keyAccepts id 6 = false) : s.enrollReason bs id = 1 := if_pos (congrArg Bool.not h)

theorem State.enrollReason_own (s : State) (bs : List Byte) {id : Nat} (h : s.keyAccepts id 6 = true) : s.enrollReason bs id ≠ 1 :=
  iteInduction (motive := (· ≠ 1)) (fun hn => (Bool.false_ne_true ((congrArg Bool.not h).symm.trans hn)).elim) fun _ =>
    iteInduction (motive := (· ≠ 1)) (fun _ => by decide) fun _ => iteInduction (motive := (· ≠ 1)) (fun _ => by decide) fun _ => iteInduction (motive := (· ≠ 1)) (fun _ => by decide) fun _ => by decide

theorem State.enrollReason_signer (s : State) (bs : List Byte) (id : Nat) : (if s.enrollReason bs id = 1 then 1 else 0) = if s.keyAccepts id 6 then 0 else 1 := by
  cases h : s.keyAccepts id 6 with
  | false => exact if_pos (s.enrollReason_foreign bs h)
  | true => exact if_neg (s.enrollReason_own bs h)

theorem State.reg_sigFailed (s : State) (kind id m : Nat) :
    (s.sigFailed kind id m).reg (secReg Reg.SEC_VERIFY_FAIL_TOTAL) = min (2 ^ 64 - 1) (s.reg (secReg Reg.SEC_VERIFY_FAIL_TOTAL) + 1) :=
  (State.reg_bump _ _ _ _).trans (if_pos rfl)

section KeyEnroll

/-- What an enrolment does, by its verification `x`. -/
noncomputable def State.enrollBy (t : State) (d : Desc) (bs : List Byte) (x : State × Verified × SigBlock) : State :=
  let r := t.enrollReason bs x.2.2.keyId
  if x.2.1 ≠ .accepted ∨ !enrollFormed bs then x.1.finish d .KEY_ENROLL_REFUSED (if r = 1 then 1 else 0) 0
  else if r ≠ 0 then x.1.finish d .KEY_ENROLL_REFUSED r 0
  else (x.1.enroll bs).finish d .OK 0 0

theorem State.enrollBy_refused (t : State) (d : Desc) {bs : List Byte} {x : State × Verified × SigBlock} (h : x.2.1 ≠ .accepted) :
    t.enrollBy d bs x = x.1.finish d .KEY_ENROLL_REFUSED (if t.keyAccepts x.2.2.keyId 6 then 0 else 1) 0 :=
  (if_pos (.inl h)).trans (congrArg (x.1.finish d .KEY_ENROLL_REFUSED · 0) (t.enrollReason_signer bs _))

theorem State.enrollBy_formed (t : State) (d : Desc) {bs : List Byte} {x : State × Verified × SigBlock} (h : x.2.1 = .accepted) (hf : enrollFormed bs = true) :
    t.enrollBy d bs x = if t.enrollReason bs x.2.2.keyId ≠ 0 then x.1.finish d .KEY_ENROLL_REFUSED (t.enrollReason bs x.2.2.keyId) 0 else (x.1.enroll bs).finish d .OK 0 0 :=
  if_neg fun hc => hc.elim (· h) fun hc => Bool.false_ne_true ((congrArg Bool.not hf).symm.trans hc)

/-- A KEY_ENROLL of the object `bs`. -/
noncomputable def State.enrollOp (t : State) (d : Desc) (bs : List Byte) (sig : SigOut) : State := t.enrollBy d bs (t.verifyBytes bs 256 6 none none sig)

theorem exec_keyEnroll {s : State} {h : Hdr} (ha : s.accepts h clsMaint = true) (a n : Nat) (sig : SigOut) {u : State} (hu : (s.start h).enrollOp (s.descOf h) ((s.start h).hostRead a n) sig = u) :
    exec (.keyEnroll h a n sig) s = .next u := congrArg Host.Outcome.next ((State.descriptor_accepted ha _).trans hu)

variable {t : State} {d : Desc} {bs : List Byte} {sig : SigOut}

theorem State.enrollOp_unsigned (hm : t.sigMask (enrollSigFormed bs) 6 (enrollSig bs).keyId sig ≠ 0) :
    t.enrollOp d bs sig = (t.sigFailed 6 (enrollSig bs).keyId (t.sigMask (enrollSigFormed bs) 6 (enrollSig bs).keyId sig)).finish d .KEY_ENROLL_REFUSED
        (if t.keyAccepts (enrollSig bs).keyId 6 then 0 else 1) 0 :=
  (congrArg (t.enrollBy d bs) (t.verifyBytes_enroll bs sig (State.verify_signature hm none))).trans (t.enrollBy_refused d nofun)

variable (hm : t.sigMask (enrollSigFormed bs) 6 (enrollSig bs).keyId sig = 0) (hf : enrollFormed bs = true)
include hm hf

theorem State.enrollOp_formed : t.enrollOp d bs sig = if t.enrollReason bs (enrollSig bs).keyId ≠ 0 then t.finish d .KEY_ENROLL_REFUSED (t.enrollReason bs (enrollSig bs).keyId) 0
    else (t.enroll bs).finish d .OK 0 0 :=
  (congrArg (t.enrollBy d bs) (t.verifyBytes_enroll bs sig (State.verify_uncounted hm))).trans (t.enrollBy_formed d rfl hf)

end KeyEnroll

section Enroll

variable (s : State) (bs : List Byte)

/-- What an ENROLL puts into its key slot. -/
noncomputable def enrolledKey : KeySlot :=
  { valid := true, roles := fieldAt bs 4 4, id := keyIdOf ((bs.drop 24).take 97) ((bs.drop 124).take 60), ecdsa := (bs.drop 24).take 97
    hss := (bs.drop 124).take 60, seq := fieldAt bs 16 8 }

/-- What a REVOKE leaves of its key slot. -/
noncomputable def revokedKey : KeySlot := { seq := fieldAt bs 16 8 }

/-- A key slot is written. -/
noncomputable def State.setKey (s : State) (n : Nat) (x : KeySlot) : State := { s with sec := { s.sec with keys := Tab.set s.sec.keys n x } }

/-- What an enrolment makes of its key slot. -/
noncomputable def newKey : KeySlot := if fieldAt bs 3 1 = 1 then enrolledKey bs else revokedKey bs

/-- The report of an enrolment. -/
noncomputable def enrollCode : Code := if fieldAt bs 3 1 = 1 then .KEY_ENROLLED else .KEY_REVOKED

theorem State.enroll_eq : s.enroll bs = (s.setKey (fieldAt bs 2 1) (newKey bs)).raise (enrollCode bs) Src.x1 [fieldAt bs 2 1] :=
  (em (fieldAt bs 3 1 = 1)).elim
    (fun h => (if_pos h).trans (congrArg₂ (fun x c => (s.setKey (fieldAt bs 2 1) x).raise c Src.x1 [fieldAt bs 2 1]) (if_pos h) (if_pos h)).symm)
    fun h => (if_neg h).trans (congrArg₂ (fun x c => (s.setKey (fieldAt bs 2 1) x).raise c Src.x1 [fieldAt bs 2 1]) (if_neg h) (if_neg h)).symm

theorem State.keySlot_enroll (j : Nat) : (s.enroll bs).keySlot j = if j = fieldAt bs 2 1 then newKey bs else s.keySlot j :=
  (congrArg (State.keySlot · j) (s.enroll_eq bs)).trans (Tab.get_set _ _ _ _)

theorem State.keySlot_enroll_same : (s.enroll bs).keySlot (fieldAt bs 2 1) = newKey bs := (s.keySlot_enroll bs _).trans (if_pos rfl)

theorem newKey_seq : (newKey bs).seq = fieldAt bs 16 8 := iteInduction (motive := fun x : KeySlot => x.seq = fieldAt bs 16 8) (fun _ => rfl) fun _ => rfl

/-- Every enrolment touches one key slot and is reported with its number. -/
theorem State.enroll_facts : ∃ v, (s.enroll bs).ev.inFlight = s.ev.inFlight ++ [v] ∧ v.args = [fieldAt bs 2 1] ∧ ((s.enroll bs).keySlot (fieldAt bs 2 1)).seq = fieldAt bs 16 8
    ∧ (fieldAt bs 3 1 = 1 → v.code = .KEY_ENROLLED ∧ ((s.enroll bs).keySlot (fieldAt bs 2 1)).valid = true
      ∧ ((s.enroll bs).keySlot (fieldAt bs 2 1)).roles = fieldAt bs 4 4 ∧ ((s.enroll bs).keySlot (fieldAt bs 2 1)).ecdsa = (bs.drop 24).take 97
      ∧ ((s.enroll bs).keySlot (fieldAt bs 2 1)).hss = (bs.drop 124).take 60)
    ∧ (fieldAt bs 3 1 ≠ 1 → v.code = .KEY_REVOKED ∧ ((s.enroll bs).keySlot (fieldAt bs 2 1)).valid = false) := by
  rw [s.keySlot_enroll_same, s.enroll_eq]
  exact ⟨_, rfl, rfl, newKey_seq bs, fun h => ⟨if_pos h, congrArg KeySlot.valid (if_pos h), congrArg KeySlot.roles (if_pos h), congrArg KeySlot.ecdsa (if_pos h), congrArg KeySlot.hss (if_pos h)⟩,
    fun h => ⟨if_neg h, congrArg KeySlot.valid (if_neg h)⟩⟩

end Enroll

/-! ### Anti-rollback (R504, R505) -/

/-- The value that a counter advances to, by the lowest version held. -/
noncomputable def State.advancedTo (s : State) (c : Nat) (x : Option Nat) : Nat := match x with | some v => max (s.rollback c) (min 64 v) | none => s.rollback c

theorem State.rollback_le_advancedTo (s : State) (c : Nat) (x : Option Nat) : s.rollback c ≤ s.advancedTo c x := by
  cases x with
  | none => exact Nat.le_refl _
  | some v => exact Nat.le_max_left _ _

theorem State.advancedTo_eq_or (s : State) (c : Nat) {l : List Nat} {x : Option Nat} (hx : l.min? = x) : s.advancedTo c x = s.rollback c ∨ (s.advancedTo c x ≤ 64 ∧ ∀ y ∈ l, s.advancedTo c x ≤ y) := by
  cases x with
  | none => exact .inl rfl
  | some v => exact (Nat.le_total (min 64 v) (s.rollback c)).imp Nat.max_eq_left fun hle =>
      ⟨(Nat.max_eq_right hle).trans_le (Nat.min_le_left _ _), fun y hy => (Nat.max_eq_right hle).trans_le ((Nat.min_le_right _ _).trans ((List.min?_eq_some_iff.mp hx).2 y hy))⟩

theorem State.rollback_le_advanced (s : State) (c : Nat) : s.rollback c ≤ s.advanced c := s.rollback_le_advancedTo c _

theorem State.advanced_eq_or (s : State) (c : Nat) : s.advanced c = s.rollback c ∨ (s.advanced c ≤ 64 ∧ ∀ x ∈ s.heldVersions c, s.advanced c ≤ x) := s.advancedTo_eq_or c rfl

theorem State.rollback_start (s : State) (h : Hdr) (c : Nat) : (s.start h).rollback c = s.rollback c := congrArg (fun x : Sec => Tab.get x.counters c) (s.start_sec h)

theorem State.heldVersions_start (s : State) (h : Hdr) (c : Nat) : (s.start h).heldVersions c = s.heldVersions c := (congrArg (State.heldVersions · c) (s.start_eq h)).trans rfl

/-- The state in which a counter stands at its new value, and the report has left. -/
noncomputable def State.rolled (s : State) (c : Nat) : State :=
  { s with sec := { s.sec with counters := Tab.set s.sec.counters c (s.advanced c) } }.raise .ROLLBACK_ADVANCED Src.x1 [c, s.rollback c, s.advanced c]

theorem State.rollback_rolled (s : State) (c j : Nat) : (s.rolled c).rollback j = if j = c then s.advanced c else s.rollback j := Tab.get_set _ _ _ _

theorem State.rollback_rolled_same (s : State) (c : Nat) : (s.rolled c).rollback c = s.advanced c := (s.rollback_rolled c c).trans (if_pos rfl)

/-- A counter advances to the lowest version held, and the report names both values. -/
theorem State.rolled_facts (s : State) (h : Hdr) (c : Nat) : ∃ v : EvRec, s.rollback c ≤ ((s.start h).rolled c).rollback c
    ∧ (((s.start h).rolled c).rollback c = s.rollback c ∨ (((s.start h).rolled c).rollback c ≤ 64 ∧ ∀ x ∈ s.heldVersions c, ((s.start h).rolled c).rollback c ≤ x))
    ∧ (∀ j, j ≠ c → ((s.start h).rolled c).rollback j = s.rollback j) ∧ ((s.start h).rolled c).ev.inFlight = (s.start h).ev.inFlight ++ [v]
    ∧ v.code = .ROLLBACK_ADVANCED ∧ v.args = [c, s.rollback c, ((s.start h).rolled c).rollback c] := by
  rw [State.rollback_rolled_same, ← s.rollback_start h c, ← s.heldVersions_start h c]
  exact ⟨_, (s.start h).rollback_le_advanced c, (s.start h).advanced_eq_or c, fun j hj => ((s.start h).rollback_rolled c j).trans ((if_neg hj).trans (s.rollback_start h j)), rfl, rfl, rfl⟩

theorem exec_rollbackAdvance {s : State} {h : Hdr} (ha : s.accepts h clsMaint = true) {c : Nat} (hc : c < 4) :
    exec (.rollbackAdvance h c) s = .next (((s.start h).rolled c).finish (s.descOf h) .OK (s.rollback c) (((s.start h).rolled c).rollback c)) :=
  congrArg Host.Outcome.next ((State.descriptor_accepted ha _).trans ((if_neg (Nat.not_le.mpr hc)).trans
    (congrArg₂ (((s.start h).rolled c).finish (s.descOf h) .OK) (s.rollback_start h c) ((s.start h).rollback_rolled_same c).symm)))

/-! ### Attestation (R502, R503) -/

section Sign

variable (s : State)

/-- What the engine keeps once a leaf is used; `low` is that too few are left and that it has not been said. -/
noncomputable def State.leafUsed (low : Bool) : State :=
  { s with sec := { s.sec with leaves := s.sec.leaves + 1, bound := if s.sec.bound ≤ s.sec.leaves then s.sec.bound + 1024 else s.sec.bound
                               nextReady := s.sec.nextReady && !((s.sec.leaves + 1) % hssTree == 0)
                               edge := (s.sec.leaves + 1) % hssTree == 0 && !s.sec.nextReady, lowSaid := s.sec.lowSaid || low } }

/-- Too few leaves are left, and it has not been said. -/
noncomputable def State.leavesLow : Bool := decide (hssLeaves < s.sec.leaves + 1 + 2 ^ 28) && !s.sec.lowSaid

theorem State.useLeaf_eq :
    s.useLeaf = if s.leavesLow then (s.leafUsed s.leavesLow).raise .HSS_LOW Src.x1 [hssLeaves - (s.sec.leaves + 1)] else s.leafUsed s.leavesLow := rfl

theorem State.useLeaf_sec : s.useLeaf.sec = (s.leafUsed s.leavesLow).sec :=
  (congrArg State.sec s.useLeaf_eq).trans (iteInduction (motive := fun u : State => u.sec = (s.leafUsed s.leavesLow).sec) (fun _ => State.raise_sec _ _ _ _ _) fun _ => rfl)

theorem State.attestBlock_sec : s.attestBlock.2.sec = s.sec := (State.freeBytes_kept rfl (Kept.refl 1 s)).only .sec rfl

/-- A report is taken, and counted in its second. -/
noncomputable def State.reportCounted (a : Attest) : State :=
  { s with sec := { s.sec with second := s.time.tick / tickSecond, signed := (if s.sec.second = s.time.tick / tickSecond then s.sec.signed else 0) + 1
                               attests := s.sec.attests.erase a } }

/-- The state that the block of a report is made in: a leaf is used. -/
noncomputable def State.leafTaken (a : Attest) : State := (s.reportCounted a).useLeaf

/-- The report has been written and counted. -/
noncomputable def State.reportWritten (a : Attest) (r : List Byte) : State :=
  ((s.leafTaken a).attestBlock.2.hostPut a.buffer (r ++ (s.leafTaken a).attestBlock.1)).bump (secReg Reg.SEC_ATTEST_TOTAL) 1

theorem State.signReport_eq (a : Attest) (r : List Byte) : s.signReport a r = (s.reportWritten a r).finish a.desc .OK 4372 0 := by
  delta State.signReport
  rfl

theorem State.reportWritten_sec (a : Attest) (r : List Byte) : (s.reportWritten a r).sec = (s.leafTaken a).sec :=
  (State.bump_sec _ _ _).trans ((State.hostPut_sec _ _ _).trans (s.leafTaken a).attestBlock_sec)

theorem State.signReport_sec (a : Attest) (r : List Byte) : (s.signReport a r).sec = ((s.reportCounted a).leafUsed (s.reportCounted a).leavesLow).sec :=
  (congrArg State.sec (s.signReport_eq a r)).trans ((State.finish_sec _ _ _ _ _ _ _).trans ((s.reportWritten_sec a r).trans (s.reportCounted a).useLeaf_sec))

theorem State.bump_hostRead (r n a k : Nat) : (s.bump r n).hostRead a k = s.hostRead a k := rfl

theorem State.reportWritten_hostRead (a : Attest) (r : List Byte) : (s.reportWritten a r).hostRead a.buffer r.length = r :=
  .trans (State.bump_hostRead _ _ _ a.buffer r.length) (State.hostRead_hostPut_append (s.leafTaken a).attestBlock.2 a.buffer r (s.leafTaken a).attestBlock.1)

theorem State.signReport_hostRead (a : Attest) (r : List Byte) : (s.signReport a r).hostRead a.buffer r.length = r :=
  (congrArg (State.hostRead · a.buffer r.length) (s.signReport_eq a r)).trans
    ((congrArg (Tab.getList · a.buffer r.length) (State.finish_hmem _ _ _ _ _ _ _)).trans (s.reportWritten_hostRead a r))

/-- The report `x` of a request that waits is signed where it may be. -/
noncomputable def State.signedOr (a : Attest) (x : Option (List Byte)) : State := match x with | some r => if s.maySign then s.signReport a r else s | none => s

variable {s} {a : Attest} {r : List Byte} (hl : s.sec.attests = [a]) (hr : a.report = some r)
include hl hr

theorem State.signHeld_single : s.signHeld = if s.maySign then s.signReport a r else s :=
  (congrArg s.signAll hl).trans (congrArg (s.signedOr a) hr)

variable (hm : s.maySign = true)
include hm

theorem State.signHeld_signs : s.signHeld = s.signReport a r := (State.signHeld_single hl hr).trans (if_pos hm)

theorem State.signHeld_sec : s.signHeld.sec = ((s.reportCounted a).leafUsed (s.reportCounted a).leavesLow).sec := (congrArg State.sec (State.signHeld_signs hl hr hm)).trans (s.signReport_sec a r)

end Sign

/-- Settles O51: the ops by the first check that fails, and a report by whether it may be signed. -/
theorem securityOps : Obligations.SecurityOps := by
  refine ⟨?ops, fun s => ⟨fun he => ⟨_, congrArg Host.Outcome.next (if_neg (Bool.eq_false_iff.mp he)), rfl⟩, fun he => congrArg Host.Outcome.next (if_pos he),
      fun he => congrArg Host.Outcome.next (if_pos he), fun he => congrArg Host.Outcome.next (if_neg he)⟩,
    fun s a r hl hr => ⟨fun hm => (State.signHeld_single hl hr).trans (if_neg (Bool.eq_false_iff.mp hm)), fun hm =>
      ⟨(congrArg Sec.attests (State.signHeld_sec hl hr hm)).trans ((congrArg (List.erase · a) hl).trans (List.erase_cons_head a [])), congrArg Sec.leaves (State.signHeld_sec hl hr hm),
        congrArg Sec.second (State.signHeld_sec hl hr hm), congrArg Sec.signed (State.signHeld_sec hl hr hm),
        (congrArg (State.hostRead · a.buffer r.length) (State.signHeld_signs hl hr hm)).trans (s.signReport_hostRead a r)⟩⟩⟩
  intro s h ha t d
  refine ⟨?enroll, fun a => congrArg Host.Outcome.next (State.descriptor_accepted ha _),
    fun a l hout => congrArg Host.Outcome.next ((State.descriptor_accepted ha _).trans (if_pos (s.start_sec h ▸ hout))),
    fun a l hin => ⟨_, congrArg Host.Outcome.next ((State.descriptor_accepted ha _).trans (if_neg (s.start_sec h ▸ Nat.not_le.mpr hin))), congrArg (·.attests ++ _) (s.start_sec h), rfl⟩,
    fun c hc => congrArg Host.Outcome.next ((State.descriptor_accepted ha _).trans (if_pos hc)),
    fun c hc => ⟨t.rolled c, (s.rolled_facts h c).imp fun v => .intro (exec_rollbackAdvance ha hc)⟩⟩
  intro a n sig bs b m k
  exact ⟨fun hm => ⟨_, exec_keyEnroll ha a n sig (State.enrollOp_unsigned hm), s.start_sec h, State.reg_sigFailed _ _ _ _⟩,
    fun hm hf hr => exec_keyEnroll ha a n sig ((State.enrollOp_formed hm hf).trans (if_pos hr)),
    fun hm hf hr => ⟨t.enroll bs, (t.enroll_facts bs).imp fun v hv => ⟨exec_keyEnroll ha a n sig ((State.enrollOp_formed hm hf).trans (if_neg (not_not.mpr hr))),
      fun j hj => (t.keySlot_enroll bs j).trans ((if_neg hj).trans (congrArg (fun x : Sec => Tab.get x.keys j) (s.start_sec h))), hv⟩⟩⟩

end Sys2Proof.Machine
end

section
/-! PROOFS of the family 13_weight_installation: the checks of shards, chains, commits and read-back (R388, R391, R392, R394 to R396, R398, R400 to R404). -/

namespace Sys2Proof.Machine

theorem State.reg_congr {s t : State} (h : t.regs = s.regs) (a : Nat) : t.reg a = s.reg a := by rw [State.reg, State.reg, h]

theorem State.slot_congr {s t : State} (h : t.slots = s.slots) (k : Nat) : t.slot k = s.slot k := congrArg (Tab.get · k) h

/-! ### The end of a shard's check (R392) -/

section Check

variable {s : State} {j : ShardJob} {ok : Bool} {bs : List Byte}

theorem State.reg_jobEnd (c : Code) (a b k : Nat) : (s.jobEnd j c a b).reg k = s.reg k :=
  State.reg_congr ((State.jobEnd_kept rfl (Kept.refl 8796093023872 s)).only .regs rfl) k

theorem State.slots_shardFailed (c : Code) (n : Nat) : (s.shardFailed j c n).slots = s.slots :=
  (State.jobEnd_kept rfl (Kept.refl 8796093023872 (s.bump (wtReg Reg.WT_SHARD_FAIL_TOTAL) 1))).only .slots rfl

theorem State.jobs_shardFailed (c : Code) (n : Nat) : (s.shardFailed j c n).inst.jobs = s.inst.jobs.erase j :=
  (congrArg Install.jobs (State.jobEnd_inst _ j c _ _)).trans (congrArg (·.jobs.erase j) (s.bump_inst _ _))

theorem State.reg_shardFailed (c : Code) (n : Nat) :
    (s.shardFailed j c n).reg (wtReg Reg.WT_SHARD_FAIL_TOTAL) = min (2 ^ 64 - 1) (s.reg (wtReg Reg.WT_SHARD_FAIL_TOTAL) + 1) :=
  (State.reg_jobEnd _ _ _ _).trans ((State.reg_bump _ _ _ _).trans (if_pos rfl))

/-- What becomes of a shard whose records have been looked at. -/
noncomputable def State.recordsJudged (s : State) (j : ShardJob) (bs : List Byte) (rs : List ShardRec) (x : Option (Nat × Code)) : State :=
  match x with
  | some (k, c) => s.shardFailed j c k
  | none => if (s.slot j.slot).fits rs then s.shardPassed j bs rs else s.shardFailed j .CORD_FORMAT 0

/-- The check of the oldest shard whose slot has a key. -/
noncomputable def State.shardChecked (s : State) (ok : Bool) (bs : List Byte) (y : Option ShardJob) : State :=
  match y with
  | none => s
  | some j =>
    let x := s.slot j.slot
    let rs := shardRecords bs (x.tileCount j.shard) 0
    if x.duplicate j.shard j.repair then (s.bump (wtReg Reg.WT_SHARD_DUP_TOTAL) 1).jobEnd j .OK j.shard 1
    else if !ok then s.shardFailed j .SHARD_AUTH_FAILED 0
    else if bs.length ≠ x.shardLen j.shard ∨ fitBytes 48 (Config.sha384 bs) ≠ x.digest j.shard then s.shardFailed j .SHARD_DIGEST_MISMATCH 0
    else s.recordsJudged j bs rs (s.faultyRecord x j.shard bs 0 [] rs)

theorem exec_shardCheckDone {y : Option ShardJob} (h : s.nextJob = y) {u : State} (hu : s.shardChecked ok bs y = u) : exec (.shardCheckDone ok bs) s = .next u :=
  congrArg Host.Outcome.next ((congrArg (s.shardChecked ok bs) h).trans hu)

variable (hd : (s.slot j.slot).duplicate j.shard j.repair = false)
include hd

theorem State.shardChecked_tag (hok : ok = false) : s.shardChecked ok bs (some j) = s.shardFailed j .SHARD_AUTH_FAILED 0 :=
  (if_neg (ne_true_of_eq_false hd)).trans (if_pos (congrArg Bool.not hok))

variable (hok : ok = true)
include hok

theorem State.shardChecked_digest (hne : bs.length ≠ (s.slot j.slot).shardLen j.shard ∨ fitBytes 48 (Config.sha384 bs) ≠ (s.slot j.slot).digest j.shard) :
    s.shardChecked ok bs (some j) = s.shardFailed j .SHARD_DIGEST_MISMATCH 0 :=
  (if_neg (ne_true_of_eq_false hd)).trans ((if_neg (ne_true_of_eq_false (congrArg Bool.not hok))).trans (if_pos hne))

variable (hlen : bs.length = (s.slot j.slot).shardLen j.shard) (hsum : fitBytes 48 (Config.sha384 bs) = (s.slot j.slot).digest j.shard) {x : Option (Nat × Code)}
include hlen hsum

theorem State.shardChecked_whole (hr : s.faultyRecord (s.slot j.slot) j.shard bs 0 [] (shardRecords bs ((s.slot j.slot).tileCount j.shard) 0) = x) :
    s.shardChecked ok bs (some j) = s.recordsJudged j bs (shardRecords bs ((s.slot j.slot).tileCount j.shard) 0) x :=
  (if_neg (ne_true_of_eq_false hd)).trans ((if_neg (ne_true_of_eq_false (congrArg Bool.not hok))).trans
    ((if_neg fun h => h.elim (· hlen) (· hsum)).trans (congrArg (s.recordsJudged j bs _) hr)))

end Check

/-! ### A shard that passes (R391, R394) -/

section Passed

variable (s : State) (j : ShardJob) (bs : List Byte)

/-- A list of records is placed. -/
noncomputable def State.placeRecords (i sh : Nat) (again : Bool) (rs : List ShardRec) : State := rs.foldl (fun s r => s.placeRecord i sh bs again r) s

/-- The shard of a job enters the slot's list of those that have passed, is counted, and its job ends. -/
noncomputable def State.shardEntered : State :=
  (((s.setSlot j.slot { s.slot j.slot with passed := j.shard :: (s.slot j.slot).passed.filter (· != j.shard), damaged := (s.slot j.slot).damaged.filter (· != j.shard) }).bump
    (wtReg Reg.WT_SHARD_IN_TOTAL) 1).jobEnd j .OK j.shard 0).checksAfter j

theorem State.shardPassed_eq (rs : List ShardRec) :
    s.shardPassed j bs rs = (s.placeRecords bs j.slot j.shard ((s.slot j.slot).passed.contains j.shard || j.repair) rs).shardEntered j := rfl

theorem State.passed_placeRecord (i sh : Nat) (again : Bool) (r : ShardRec) : ((s.placeRecord i sh bs again r).slot i).passed = (s.slot i).passed :=
  (congrArg Slot.passed (State.slot_setSlot_same _ i _)).trans rfl

theorem State.slot_placeRecord_other (i sh : Nat) (again : Bool) (r : ShardRec) {k : Nat} (hk : k ≠ i) : (s.placeRecord i sh bs again r).slot k = s.slot k :=
  (State.slot_setSlot_other _ _ hk).trans (State.slot_congr ((State.writePieces_kept rfl (Kept.refl 6144 s)).only .slots rfl) k)

theorem State.passed_placeRecords (i sh : Nat) (again : Bool) (rs : List ShardRec) : ((s.placeRecords bs i sh again rs).slot i).passed = (s.slot i).passed :=
  State.foldl_keeps (fun s : State => (s.slot i).passed) (fun s r => s.passed_placeRecord bs i sh again r) rs s

theorem State.slot_placeRecords_other (i sh : Nat) (again : Bool) (rs : List ShardRec) {k : Nat} (hk : k ≠ i) : (s.placeRecords bs i sh again rs).slot k = s.slot k :=
  State.foldl_keeps (State.slot · k) (fun s r => s.slot_placeRecord_other bs i sh again r hk) rs s

theorem State.placeRecords_kept (i sh : Nat) (again : Bool) (rs : List ShardRec) : Kept 2147489792 s (s.placeRecords bs i sh again rs) :=
  kept_foldl rs (fun _ _ h => State.placeRecord_kept rfl h) (Kept.refl 2147489792 s)

/-- The slot once shard `k` has passed. -/
noncomputable def Slot.entered (x : Slot) (k : Nat) : Slot := { x with passed := k :: x.passed.filter (· != k), damaged := x.damaged.filter (· != k) }

theorem Slot.passed_entered (x : Slot) (k : Nat) {i : Nat} (h : i ∈ x.passed) : i ∈ (x.entered k).passed :=
  List.mem_cons.mpr ((eq_or_ne i k).imp_right fun ne => List.mem_filter.mpr ⟨h, bne_iff_ne.mpr ne⟩)

theorem Slot.damaged_entered (x : Slot) (k : Nat) : k ∉ (x.entered k).damaged := fun h => bne_iff_ne.mp (List.mem_filter.mp h).2 rfl

theorem State.slots_shardEntered : (s.shardEntered j).slots = (s.setSlot j.slot ((s.slot j.slot).entered j.shard)).slots :=
  (State.jobEnd_kept rfl (Kept.refl 8796093023872 _)).only .slots rfl

theorem State.slot_shardEntered_same : (s.shardEntered j).slot j.slot = (s.slot j.slot).entered j.shard :=
  (State.slot_congr (s.slots_shardEntered j) _).trans (s.slot_setSlot_same _ _)

theorem State.slot_shardEntered_other {k : Nat} (hk : k ≠ j.slot) : (s.shardEntered j).slot k = s.slot k := (State.slot_congr (s.slots_shardEntered j) _).trans (s.slot_setSlot_other _ hk)

theorem State.jobs_shardEntered : (s.shardEntered j).inst.jobs = s.inst.jobs.erase j := congrArg Install.jobs (State.jobEnd_inst _ j .OK _ 0)

theorem State.reg_shardEntered : (s.shardEntered j).reg (wtReg Reg.WT_SHARD_IN_TOTAL) = min (2 ^ 64 - 1) (s.reg (wtReg Reg.WT_SHARD_IN_TOTAL) + 1) :=
  (State.reg_jobEnd .OK j.shard 0 _).trans ((State.reg_bump _ _ _ _).trans (if_pos rfl))

/-- A passed shard stands among those that have passed and not among the damaged ones; no other slot changes. -/
theorem State.shardPassed_facts (rs : List ShardRec) :
    j.shard ∈ ((s.shardPassed j bs rs).slot j.slot).passed ∧ j.shard ∉ ((s.shardPassed j bs rs).slot j.slot).damaged
    ∧ (∀ k ∈ (s.slot j.slot).passed, k ∈ ((s.shardPassed j bs rs).slot j.slot).passed) ∧ (s.shardPassed j bs rs).inst.jobs = s.inst.jobs.erase j
    ∧ (∀ i, i ≠ j.slot → (s.shardPassed j bs rs).slot i = s.slot i)
    ∧ (s.shardPassed j bs rs).reg (wtReg Reg.WT_SHARD_IN_TOTAL) = min (2 ^ 64 - 1) (s.reg (wtReg Reg.WT_SHARD_IN_TOTAL) + 1) := by
  rw [State.shardPassed_eq, State.slot_shardEntered_same]
  exact ⟨List.mem_cons_self, Slot.damaged_entered _ _, fun k hk => Slot.passed_entered _ _ ((s.passed_placeRecords bs _ _ _ _).symm ▸ hk),
    (State.jobs_shardEntered _ j).trans (congrArg (·.jobs.erase j) ((s.placeRecords_kept bs _ _ _ _).only .inst rfl)),
    fun i hi => (State.slot_shardEntered_other _ j hi).trans (s.slot_placeRecords_other bs _ _ _ _ hi),
    (State.reg_shardEntered _ j).trans (congrArg (fun n => min (2 ^ 64 - 1) (n + 1)) (State.reg_congr ((s.placeRecords_kept bs _ _ _ _).only .regs rfl) _))⟩

end Passed

/-! ### CHAIN (R395) -/

section Chain

variable {s : State} {h : Hdr} {i m : Nat} {pred succ : Option Nat}

/-- The intake window `x` of a slot is closed, if it has one. -/
noncomputable def State.intakeClosed (s : State) (x : Option Nat) : State := match x with | some n => s.callClose n none | none => s

theorem State.closeIntake_none (hn : (s.slot i).intake = none) : s.closeIntake i = s := congrArg s.intakeClosed hn

/-- The slot as CHAIN leaves it, before an intake window is open. -/
noncomputable def Slot.chained (x : Slot) (pred succ : Option Nat) : Slot := { x with pred := pred, succ := succ, intake := none, part := none, unfreed := 0 }

/-- The window that a member of a chain opens for its predecessor. -/
noncomputable def intakeArgs (m : Nat) : WinArgs := { base := intakeBase, size := intakeSize, srcFirst := m, srcLast := m, rights := 1, ports := 1 }

/-- The member `m` of a chain opens the intake window `x`, if there is an entry for it and the window's status `c` is OK. -/
noncomputable def State.intakeOpened (u : State) (d : Desc) (i m : Nat) (c : Code) (x : Option Nat) : State :=
  match x with
  | some n => if c = .OK then ((u.winOpen n (intakeArgs m)).setSlot i { u.slot i with intake := some n }).finish d .OK 0 0 else u.finish d c 0 0
  | none => u.finish d c 0 0

theorem State.intakeOpened_ok (u : State) (d : Desc) (n : Nat) {c : Code} (hc : c = .OK) :
    u.intakeOpened d i m c (some n) = ((u.winOpen n (intakeArgs m)).setSlot i { u.slot i with intake := some n }).finish d .OK 0 0 := if_pos hc

theorem State.intakeOpened_refused (u : State) (d : Desc) {x : Option Nat} {c : Code} (hno : x = none ∨ c ≠ .OK) : u.intakeOpened d i m c x = u.finish d c 0 0 := by
  cases x with
  | none => rfl
  | some n => exact if_neg (hno.resolve_left nofun)

variable (ha : s.accepts h clsWeight = true) (hi : i < 8) (hst : (s.slot i).st = .loading ∨ (s.slot i).st = .restoring)
include ha hi hst

theorem exec_weightChain_head : exec (.weightChain h i none succ) s = .next (
    (((s.start h).closeIntake i).setSlot i ((((s.start h).closeIntake i).slot i).chained none succ)).finish (s.descOf h) .OK 0 0) :=
  congrArg Host.Outcome.next (State.onSlot_runs ha hi (SlotState.isOneOf_two hst))

theorem exec_weightChain_some {u : State} (hu : u = ((s.start h).closeIntake i).setSlot i ((((s.start h).closeIntake i).slot i).chained (some m) succ)) {x : Option Nat}
    (hx : u.winEntry (intakeArgs m) = x) : exec (.weightChain h i (some m) succ) s = .next (u.intakeOpened (s.descOf h) i m (u.winStatus (intakeArgs m) false) x) := by
  refine congrArg Host.Outcome.next ((State.onSlot_runs ha hi (SlotState.isOneOf_two hst)).trans ?_)
  dsimp only
  rw [hu, Slot.chained, intakeArgs] at hx
  rw [hx, hu]
  cases x <;> rfl

variable (hn : (s.slot i).intake = none) {u : State} (hu : u = (s.start h).setSlot i ((s.slot i).chained (some m) succ))
include hn hu

theorem exec_weightChain_member {x : Option Nat} (hx : u.winEntry (intakeArgs m) = x) : exec (.weightChain h i (some m) succ) s = .next (u.intakeOpened (s.descOf h) i m (u.winStatus (intakeArgs m) false) x) := by
  refine exec_weightChain_some ha hi hst ?_ hx
  rw [State.closeIntake_none (s.slot_start h i ▸ hn), s.slot_start h i]
  exact hu

theorem exec_weightChain_opens {n : Nat} (he : u.winEntry (intakeArgs m) = some n) (hok : u.winStatus (intakeArgs m) false = .OK) :
    exec (.weightChain h i (some m) succ) s = .next (((u.winOpen n (intakeArgs m)).setSlot i { u.slot i with intake := some n }).finish (s.descOf h) .OK 0 0) :=
  (exec_weightChain_member ha hi hst hn hu he).trans (congrArg Host.Outcome.next (u.intakeOpened_ok _ n hok))

theorem exec_weightChain_refused (hno : u.winEntry (intakeArgs m) = none ∨ u.winStatus (intakeArgs m) false ≠ .OK) :
    exec (.weightChain h i (some m) succ) s = .next (u.finish (s.descOf h) (u.winStatus (intakeArgs m) false) 0 0) :=
  (exec_weightChain_member ha hi hst hn hu rfl).trans (congrArg Host.Outcome.next (u.intakeOpened_refused _ hno))

end Chain

/-! ### Chunks of a chain (R395, R396) -/

section Chunk

variable {s : State} {i sh k n : Nat} {bs l : List Byte}

theorem exec_chunkReady_idle (hno : (s.slot i).pred = none ∨ 8 ≤ i ∨ (s.slot i).shards ≤ sh) : exec (.chunkReady i sh k n) s = .next s :=
  congrArg Host.Outcome.next (if_neg fun hc => hno.elim (fun h => Bool.false_ne_true ((congrArg Option.isSome h).symm.trans hc.1)) fun h =>
    h.elim (Nat.not_le.mpr hc.2.1) (Nat.not_le.mpr hc.2.2.1))

theorem exec_chunkReady (hp : (s.slot i).pred ≠ none) (hi : i < 8) (hsh : sh < (s.slot i).shards) (hst : (s.slot i).st = .loading ∨ (s.slot i).st = .restoring)
    {u : State} (hu : s.chunkArrived i sh k (min n 0x100000) = u) : exec (.chunkReady i sh k n) s = .next u :=
  congrArg Host.Outcome.next ((if_pos ⟨Option.isSome_iff_ne_none.mpr hp, hi, hsh, hst⟩).trans hu)

/-- The slot once a chunk has joined what it has of its shard, of `total` bytes. -/
noncomputable def Slot.chunkKept (x : Slot) (sh k total : Nat) (bs all : List Byte) : Slot :=
  { x with forward := if x.succ.isSome then x.forward ++ [{ shard := sh, k := k, bytes := bs }] else x.forward
           part := if total ≤ all.length then none else some (sh, k + 1, all) }

/-- A whole shard joins those to be checked, unless it is a duplicate or has no key to wait for. -/
noncomputable def State.wholeShard (s : State) (i sh : Nat) (restore : Bool) : State :=
  if (s.slot i).duplicate sh false then s.bump (wtReg Reg.WT_SHARD_DUP_TOTAL) 1
  else if (s.slot i).key.isNone ∧ 4 ≤ s.keyless then s.bump (wtReg Reg.WT_SHARD_FAIL_TOTAL) 1
  else { s with inst := { s.inst with jobs := s.inst.jobs ++ [{ slot := i, shard := sh, restore := restore }] } }

/-- A chunk in order joins those before it. -/
noncomputable def State.chunkJoined (s : State) (i sh k total : Nat) (bs l : List Byte) : State :=
  if (l ++ bs).length < total then s.setSlot i ((s.slot i).chunkKept sh k total bs (l ++ bs))
  else (s.setSlot i ((s.slot i).chunkKept sh k total bs (l ++ bs))).wholeShard i sh ((s.slot i).st == .restoring)

/-- A chunk arrives at a slot that has the part `x` of a shard. -/
noncomputable def State.chunkAdded (s : State) (i sh k total : Nat) (bs : List Byte) (x : Option (Nat × Nat × List Byte)) : State :=
  match x with
  | some (sh', n, l) => if sh' = sh ∧ n = k then s.chunkJoined i sh k total bs l
      else (let s1 := s.dropPart i; if k = 0 then s1.chunkJoined i sh k total bs [] else s1)
  | none => if k = 0 then s.chunkJoined i sh k total bs [] else s.bump (wtReg Reg.WT_SHARD_FAIL_TOTAL) 1

variable (hbs : s.bytesAt (intakeBase + k % 4 * 0x100000) n = bs)
include hbs

theorem State.chunkArrived_eq : s.chunkArrived i sh k n = s.chunkAdded i sh k ((s.slot i).shardLen sh + 16) bs (s.slot i).part :=
  congrArg (s.chunkAdded i sh k ((s.slot i).shardLen sh + 16) · (s.slot i).part) hbs

theorem State.chunkArrived_missed (hp : (s.slot i).part = none) (hk : k ≠ 0) : s.chunkArrived i sh k n = s.bump (wtReg Reg.WT_SHARD_FAIL_TOTAL) 1 :=
  (State.chunkArrived_eq hbs).trans ((congrArg (s.chunkAdded i sh k _ bs) hp).trans (if_neg hk))

theorem State.chunkArrived_joins (h : ((s.slot i).part = none ∧ k = 0 ∧ l = []) ∨ (s.slot i).part = some (sh, k, l)) :
    s.chunkArrived i sh k n = s.chunkJoined i sh k ((s.slot i).shardLen sh + 16) bs l :=
  (State.chunkArrived_eq hbs).trans (h.elim
    (fun h => (congrArg (s.chunkAdded i sh k _ bs) h.1).trans ((if_pos h.2.1).trans (congrArg (s.chunkJoined i sh k _ bs) h.2.2.symm)))
    fun h => (congrArg (s.chunkAdded i sh k _ bs) h).trans (if_pos ⟨rfl, rfl⟩))

omit hbs

theorem State.slots_wholeShard (restore : Bool) : (s.wholeShard i sh restore).slots = s.slots :=
  iteInduction (motive := fun u : State => u.slots = s.slots) (fun _ => rfl) fun _ => iteInduction (motive := fun u : State => u.slots = s.slots) (fun _ => rfl) fun _ => rfl

theorem State.jobs_wholeShard (hd : (s.slot i).duplicate sh false = false) (hk : (s.slot i).key ≠ none) (restore : Bool) :
    (s.wholeShard i sh restore).inst.jobs = s.inst.jobs ++ [{ slot := i, shard := sh, restore := restore }] :=
  congrArg (fun u : State => u.inst.jobs) ((if_neg (ne_true_of_eq_false hd)).trans (if_neg fun h => hk (Option.isNone_iff_eq_none.mp h.1)))

variable (s i sh k bs l) (total : Nat)

theorem State.slots_chunkJoined : (s.chunkJoined i sh k total bs l).slots = (s.setSlot i ((s.slot i).chunkKept sh k total bs (l ++ bs))).slots :=
  iteInduction (motive := fun u : State => u.slots = _) (fun _ => rfl) fun _ => State.slots_wholeShard _

theorem State.slot_chunkJoined_same : (s.chunkJoined i sh k total bs l).slot i = (s.slot i).chunkKept sh k total bs (l ++ bs) :=
  (State.slot_congr (s.slots_chunkJoined i sh k bs l total) i).trans (s.slot_setSlot_same _ _)

theorem State.slot_chunkJoined_other {j : Nat} (hj : j ≠ i) : (s.chunkJoined i sh k total bs l).slot j = s.slot j :=
  (State.slot_congr (s.slots_chunkJoined i sh k bs l total) j).trans (s.slot_setSlot_other _ hj)

variable {total}

theorem State.chunkJoined_part (h : (l ++ bs).length < total) :
    ((s.chunkJoined i sh k total bs l).slot i).part = some (sh, k + 1, l ++ bs) ∧ (s.chunkJoined i sh k total bs l).inst = s.inst :=
  ⟨(congrArg Slot.part (s.slot_chunkJoined_same i sh k bs l total)).trans (if_neg (Nat.not_le.mpr h)), (congrArg State.inst (if_pos h)).trans rfl⟩

theorem State.chunkJoined_jobs (h : total ≤ (l ++ bs).length) (hd : (s.slot i).duplicate sh false = false) (hk : (s.slot i).key ≠ none) :
    (s.chunkJoined i sh k total bs l).inst.jobs = s.inst.jobs ++ [{ slot := i, shard := sh, restore := (s.slot i).st == .restoring }] := by
  have kept : (s.setSlot i ((s.slot i).chunkKept sh k total bs (l ++ bs))).slot i = (s.slot i).chunkKept sh k total bs (l ++ bs) := s.slot_setSlot_same i _
  exact (congrArg (fun u : State => u.inst.jobs) (if_neg (Nat.not_lt.mpr h))).trans
    (State.jobs_wholeShard ((congrArg (Slot.duplicate · sh false) kept).trans hd) (fun hn => hk ((congrArg Slot.key kept).symm.trans hn)) _)

theorem State.chunkJoined_whole (h : total ≤ (l ++ bs).length) : ((s.chunkJoined i sh k total bs l).slot i).part = none
    ∧ ((s.slot i).duplicate sh false = false → (s.slot i).key ≠ none →
      (s.chunkJoined i sh k total bs l).inst.jobs = s.inst.jobs ++ [{ slot := i, shard := sh, restore := (s.slot i).st == .restoring }]) :=
  ⟨(congrArg Slot.part (s.slot_chunkJoined_same i sh k bs l total)).trans (if_pos h), s.chunkJoined_jobs i sh k bs l h⟩

end Chunk

/-! ### Forwarding along a chain (R396) -/

section Forward

variable {s : State} {i : Nat}

/-- The front of the chunks `x` leaves for the successor `y`. -/
noncomputable def State.chunkSent (s : State) (i : Nat) (x : List ChainChunk) (y : Option Nat) : State :=
  match x, y with
  | c :: r, some m =>
    if 4 ≤ (s.slot i).unfreed ∨ 8 ≤ i then s
    else
      let a := intakeBase + c.k % 4 * 0x100000
      ((s.setSlot i { s.slot i with forward := r, unfreed := (s.slot i).unfreed + 1 }).launch (.chain i c) (writeFrames m (piecesOf a c.bytes.length) c.bytes) true).settled
  | _, _ => s

theorem State.chunkSent_idle {x : List ChainChunk} {y : Option Nat} (h : x = [] ∨ y = none ∨ 4 ≤ (s.slot i).unfreed ∨ 8 ≤ i) : s.chunkSent i x y = s := by
  cases x with
  | nil => rfl
  | cons c r =>
    cases y with
    | none => rfl
    | some m => exact if_pos ((h.resolve_left nofun).resolve_left nofun)

theorem exec_chainChunkForward_idle (h : (s.slot i).forward = [] ∨ (s.slot i).succ = none ∨ 4 ≤ (s.slot i).unfreed ∨ 8 ≤ i) :
    exec (.chainChunkForward i) s = .next s := congrArg Host.Outcome.next (State.chunkSent_idle h)

theorem exec_chainChunkForward {c : ChainChunk} {r : List ChainChunk} {m : Nat} (hf : (s.slot i).forward = c :: r) (hs : (s.slot i).succ = some m)
    (hfree : (s.slot i).unfreed < 4) (hi : i < 8) {u : State}
    (hu : u = (s.setSlot i { s.slot i with forward := r, unfreed := (s.slot i).unfreed + 1 }).launch (.chain i c) (writeFrames m (piecesOf (intakeBase + c.k % 4 * 0x100000) c.bytes.length) c.bytes) true)
    (hq : u.Quiet) : exec (.chainChunkForward i) s = .next u :=
  congrArg Host.Outcome.next ((congrArg₂ (s.chunkSent i) hf hs).trans ((if_neg (not_or.mpr ⟨Nat.not_le.mpr hfree, Nat.not_le.mpr hi⟩)).trans ((congrArg State.settled hu.symm).trans hq.settled)))

/-- The operations under way are for the same issuers. -/
noncomputable def State.SameIssuers (s t : State) : Prop := t.fab.remotes.map (·.issuer) = s.fab.remotes.map (·.issuer)

theorem State.sameIssuers_setRemote (n : Nat) (r : Remote) (h : n < s.fab.remotes.length → r.issuer = (s.remote n).issuer) : s.SameIssuers (s.setRemote n r) := by
  show (s.fab.remotes.set n r).map (·.issuer) = _
  by_cases hn : n < s.fab.remotes.length
  · rw [List.map_set, h hn, State.remote, List.getD_eq_getElem _ _ hn, ← List.map_set, List.set_getElem_self]
  · rw [List.set_eq_of_length_le (Nat.not_lt.mp hn)]

theorem State.sameIssuers_failRemote (n : Nat) (c : Code) (a : Nat) : s.SameIssuers (s.failRemote n c a) := State.sameIssuers_setRemote _ _ fun _ => rfl

theorem State.remotes_sendOut {f : Frame} {t : State} (h : s.sendOut f = some t) : t.fab.remotes = s.fab.remotes := by
  obtain ⟨p, -, rfl⟩ := Option.map_eq_some_iff.mp h
  rw [State.transmit_eq]

/-- Frame `x` of an operation has left, as `y` says. -/
noncomputable def State.frameSent (s : State) (n k : Nat) (x : RFrame) (y : Option State) : State :=
  match y with
  | none => s.failRemote n .FABRIC_UNREACHABLE x.frame.target
  | some t => t.setRemote n { s.remote n with frames := (s.remote n).frames.set k { x with sent := true, since := s.time.tick } }

theorem State.sameIssuers_frameSent (n k : Nat) (x : RFrame) {y : Option State} (hy : s.sendOut x.frame = y) : s.SameIssuers (s.frameSent n k x y) := by
  cases y with
  | none => exact State.sameIssuers_failRemote _ _ _
  | some t =>
    have same : t.fab.remotes = s.fab.remotes := State.remotes_sendOut hy
    exact (State.sameIssuers_setRemote n _ fun _ => congrArg (fun l => (l.getD n default).issuer) same.symm).trans (congrArg (List.map _) same)

/-- The frame `x` of an operation leaves, if it has one. -/
noncomputable def State.frameIssued (s : State) (n k : Nat) (x : Option RFrame) : State :=
  match x with
  | none => s
  | some x => if s.unsupported x.frame then s.failRemote n .DESC_UNSUPPORTED x.frame.target else s.frameSent n k x (s.sendOut x.frame)

theorem State.sameIssuers_frameIssued (n k : Nat) (x : Option RFrame) : s.SameIssuers (s.frameIssued n k x) := by
  cases x with
  | none => rfl
  | some x => exact iteInduction (motive := s.SameIssuers) (fun _ => State.sameIssuers_failRemote _ _ _) fun _ => State.sameIssuers_frameSent n k x rfl

theorem State.sameIssuers_issueFrame (n k : Nat) : s.SameIssuers (s.issueFrame n k) := State.sameIssuers_frameIssued n k _

theorem State.sameIssuers_tryFrame (n k : Nat) : s.SameIssuers (if mayIssue (s.remote n).frames k then s.issueFrame n k else s) :=
  iteInduction (motive := s.SameIssuers) (fun _ => State.sameIssuers_issueFrame n k) fun _ => rfl

theorem State.sameIssuers_pump (n : Nat) : s.SameIssuers (s.pump n) :=
  State.foldl_keeps (fun s : State => s.fab.remotes.map Remote.issuer) (fun _ k => State.sameIssuers_tryFrame n k) _ s

/-- A remote operation that starts is among those under way, whether its frames leave or not. -/
theorem State.launch_issuer (x : Issuer) (fs : List Frame) (w : Bool) : ∃ r ∈ (s.launch x fs w).fab.remotes, r.issuer = x := by
  have same : ((s.tagAll fs).1.addRemote { issuer := x, frames := (s.tagAll fs).2, wrote := w }).SameIssuers (s.launch x fs w) :=
    iteInduction (motive := State.SameIssuers _) (fun _ => State.sameIssuers_pump _) fun _ => State.sameIssuers_failRemote _ _ _
  exact List.mem_map.mp (same.symm ▸ List.mem_map.mpr ⟨_, List.mem_append_right _ (List.mem_singleton.mpr rfl), rfl⟩)

theorem exec_slotFree (hi : i < 8) (hs : (s.slot i).succ ≠ none) :
    exec (.slotFree i) s = .next (s.setSlot i { s.slot i with unfreed := (s.slot i).unfreed - 1 }) :=
  congrArg Host.Outcome.next (if_pos ⟨hi, Option.isSome_iff_ne_none.mpr hs⟩)

theorem exec_slotFree_idle (h : 8 ≤ i ∨ (s.slot i).succ = none) : exec (.slotFree i) s = .next s :=
  congrArg Host.Outcome.next (if_neg fun hc => h.elim (Nat.not_le.mpr hc.1) fun h => Bool.false_ne_true ((congrArg Option.isSome h).symm.trans hc.2))

end Forward

/-- Settles O48: a check by the first thing that is wrong with its shard, and a chunk by what its slot already has. -/
theorem shardChecksAndChains : Obligations.ShardChecksAndChains := by
  refine ⟨fun s ok bs => ⟨fun h => exec_shardCheckDone h rfl, fun j h => ?check⟩,
    fun s j c n => ⟨State.slots_shardFailed c n, State.jobs_shardFailed c n, State.reg_shardFailed c n⟩,
    fun s h i succ ha hi hst => ⟨⟨_, exec_weightChain_head ha hi hst, congrArg Slot.pred (State.slot_setSlot_same _ i _), congrArg Slot.succ (State.slot_setSlot_same _ i _),
      congrArg Slot.intake (State.slot_setSlot_same _ i _), congrArg Slot.unfreed (State.slot_setSlot_same _ i _)⟩, fun m hn => ?member⟩,
    ?chunk,
    fun s i => ⟨exec_chainChunkForward_idle, fun c r m u hf hs hfree hi hu hq => ⟨exec_chainChunkForward hf hs hfree hi hu hq,
      (congrArg (State.slot · i) hu).trans ((State.slot_congr ((State.launch_kept rfl (Kept.refl 2199023255555 _)).only .slots rfl) i).trans (s.slot_setSlot_same i _)),
      hu ▸ State.launch_issuer _ _ _⟩⟩,
    fun s i => ⟨fun hi hs => ⟨_, exec_slotFree hi hs, s.slot_setSlot_same i _, fun j hj => s.slot_setSlot_other _ hj, rfl⟩, exec_slotFree_idle⟩⟩
  case check =>
    intro x rs c
    exact ⟨fun hd => exec_shardCheckDone h (if_pos hd), fun hd => ⟨fun hok => exec_shardCheckDone h (State.shardChecked_tag hd hok), fun hok hne => exec_shardCheckDone h (State.shardChecked_digest hd hok hne),
      fun hok hlen hsum => ⟨fun k st hr => exec_shardCheckDone h (State.shardChecked_whole hd hok hlen hsum hr),
        fun hr hf => ⟨_, exec_shardCheckDone h ((State.shardChecked_whole hd hok hlen hsum hr).trans (if_pos hf)), s.shardPassed_facts j bs _⟩⟩⟩⟩
  case member =>
    intro w u hu
    exact ⟨fun n he hok => ⟨_, exec_weightChain_opens ha hi hst hn hu he hok,
        (congrArg Slot.pred (State.slot_setSlot_same _ i _)).trans ((congrArg (fun u : State => (u.slot i).pred) hu).trans (congrArg Slot.pred (State.slot_setSlot_same _ i _))),
        (congrArg Slot.succ (State.slot_setSlot_same _ i _)).trans ((congrArg (fun u : State => (u.slot i).succ) hu).trans (congrArg Slot.succ (State.slot_setSlot_same _ i _))),
        congrArg Slot.intake (State.slot_setSlot_same _ i _), congrArg Win.st ((u.win_winOpen n w n).trans (if_pos rfl)), congrArg Win.args ((u.win_winOpen n w n).trans (if_pos rfl))⟩,
      exec_weightChain_refused ha hi hst hn hu⟩
  case chunk =>
    intro s i sh k n x bs
    exact ⟨exec_chunkReady_idle, fun hp hi hsh hst => ⟨fun hpart hk => exec_chunkReady hp hi hsh hst (State.chunkArrived_missed rfl hpart hk),
      fun l hl => ⟨_, exec_chunkReady hp hi hsh hst (State.chunkArrived_joins (s.bytesAt_eq_map _ _) hl), fun j hj => s.slot_chunkJoined_other i sh k bs l _ hj,
        congrArg Slot.forward (s.slot_chunkJoined_same i sh k bs l _), s.chunkJoined_part i sh k bs l, s.chunkJoined_whole i sh k bs l⟩⟩⟩

end Sys2Proof.Machine
end

section
/-! PROOFS of the family 13_weight_installation: commits, the group's answers, and read-back (R398, R400 to R404). -/

namespace Sys2Proof.Machine

theorem State.reg_bump_other (s : State) {a b : Nat} (n : Nat) (h : b ≠ a) : (s.bump a n).reg b = s.reg b := (s.reg_bump a n b).trans (if_neg h)

/-! ### Counters that a read of memory or arrays leaves alone -/

/-- Register `a` lies below the dies' blocks and is none of the M-dies' counters of checks. -/
noncomputable def offRead (a : Nat) : Prop := a < 0x80000 ∧ ∀ m, a ≠ memReg m Reg.MEM_CRC_FAIL_TOTAL ∧ a ≠ memReg m Reg.ATOM_OVERFLOW_TOTAL

theorem memReg_far (m r : Nat) : 0x44000 ≤ memReg (m + 1) r := (Nat.add_le_add_left (Nat.le_mul_of_pos_right 0x4000 m.succ_pos) 0x40000).trans (Nat.le_add_right _ r)

theorem offRead_readback : offRead (wtReg Reg.WT_READBACK_TOTAL) := by
  refine ⟨by decide, fun m => ?_⟩
  cases m with
  | zero => exact ⟨by decide, by decide⟩
  | succ m => exact ⟨((by decide : wtReg Reg.WT_READBACK_TOTAL < 0x44000).trans_le (memReg_far m _)).ne, ((by decide : wtReg Reg.WT_READBACK_TOTAL < 0x44000).trans_le (memReg_far m _)).ne⟩

section OffRead

variable {a : Nat} (ha : offRead a) (s : State)
include ha

theorem offRead.die (d r : Nat) : a ≠ dieReg d r := (ha.1.trans_le ((Nat.le_add_right 0x80000 (0xE000 * d)).trans (Nat.le_add_right _ r))).ne

theorem offRead.bump_die (d r n : Nat) : (s.bump (dieReg d r) n).reg a = s.reg a := s.reg_bump_other n (ha.die d r)

theorem offRead.countFail (r : Reader) : (s.countFail r).reg a = s.reg a := by
  unfold State.countFail
  split
  · exact ha.bump_die s _ _ _
  · exact State.reg_bump_other _ _ (ha.2 _).1

theorem offRead.countPoison (r : Reader) : (s.countPoison r).reg a = s.reg a := by
  unfold State.countPoison
  split
  · exact ha.bump_die s _ _ _
  · rfl

omit ha in
/-- The guard of tile `t`, at the place `l`. -/
noncomputable def State.guardAt (s : State) (t : Nat) (l : Loc) : State :=
  match l with
  | .msram m _ =>
    let w := s.tile t
    if w.atomic && w.format == 1 && s.mem.guard.any (fun e => e.1 / 512 == t && e.2 != 0) then
      (s.setTile t { w with overflow := true }).bump (memReg m Reg.ATOM_OVERFLOW_TOTAL) 1
    else s
  | _ => s

theorem offRead.guardAt (t : Nat) (l : Loc) : (s.guardAt t l).reg a = s.reg a := by
  cases l with
  | msram m o => exact iteInduction (motive := fun u : State => u.reg a = s.reg a) (fun _ => State.reg_bump_other _ _ (ha.2 m).2) fun _ => rfl
  | _ => rfl

theorem offRead.guardRead (t : Nat) : (s.guardRead t).reg a = s.reg a := ha.guardAt s t _

theorem offRead.check {r : Reader} (hr : r.alt = none) (t : Nat) : (s.check r t).st.reg a = s.reg a := by
  obtain ⟨-, h⟩ | ⟨-, -, h⟩ | ⟨-, -, args, h⟩ := s.check_cases hr t
  · rw [h]; exact ha.countPoison s r
  · rw [h]
  · rw [h]; exact ha.countFail s r

omit ha in
/-- The digest of the object `y` that tile `t` lies in, if it lies in one. -/
noncomputable def State.reduceAt (s : State) (r : Reader) (t : Nat) (y : Option AtomRegion) : Check :=
  match y with
  | some y =>
    let sum := Tab.get s.mem.sums t
    if !y.checked || (s.tile t).sat || s.tileDigest y t == sum then { st := s }
    else { st := ((s.poison t).raise .REDUCE_DIGEST_MISMATCH r.src [y.number, 4096 * t, sum, s.tileDigest y t]).bump
             (dieReg (r.die.getD 0) Reg.SE_REDUCE_DIGEST_TOTAL) 1, code := .REDUCE_DIGEST }
  | none => { st := s }

theorem offRead.reduceCheck (r : Reader) (t : Nat) : (s.reduceCheck r t).st.reg a = s.reg a := by
  have each (y : Option AtomRegion) : (s.reduceAt r t y).st.reg a = s.reg a := by
    cases y with
    | none => rfl
    | some y => exact iteInduction (motive := fun c : Check => c.st.reg a = s.reg a) (fun _ => rfl) fun _ => ha.bump_die _ _ _ _
  exact each (s.atomAt (4096 * t))

omit ha in
/-- A part of a tile is read at the place `l`. -/
noncomputable def State.partRead (s : State) (r : Reader) (t : Nat) (l : Loc) : Check :=
  match l with
  | .sp d _ _ _ =>
    let s1 := s.bump (dieReg d Reg.SP_PARTIAL_READ_TOTAL) 1
    if (s.tile t).poisoned then { st := s1.countPoison r, code := .TILE_POISONED } else { st := s1 }
  | l => s.check { r with die := none, mdie := l.mdie.getD 0 } t

theorem offRead.partRead {r : Reader} (hr : r.alt = none) (t : Nat) (l : Loc) : (s.partRead r t l).st.reg a = s.reg a := by
  cases l with
  | sp d k c o =>
    exact iteInduction (motive := fun c : Check => c.st.reg a = s.reg a) (fun _ => (ha.countPoison _ r).trans (ha.bump_die s _ _ _)) fun _ => ha.bump_die s _ _ _
  | _ => exact ha.check s (by exact hr) t

theorem offRead.readPiece {r : Reader} (hr : r.alt = none) (p : Piece) : (s.readPiece r p).st.reg a = s.reg a :=
  (iteInduction (motive := fun c : Check => c.st.reg a = ((s.touch p).guardRead (p.1 / 4096)).reg a) (fun _ => ha.check _ hr _) fun _ => ha.partRead _ hr _ _).trans
    ((ha.guardRead _ _).trans (State.reg_congr ((State.touch_kept rfl (Kept.refl 4096 s)).only .regs rfl) a))

theorem offRead.readChecked {r : Reader} (hr : r.alt = none) (p : Piece) : (s.readChecked r p).st.reg a = s.reg a :=
  iteInduction (motive := fun c : Check => c.st.reg a = s.reg a) (fun _ => (ha.reduceCheck _ _ _).trans (ha.readPiece s hr p)) fun _ => ha.readPiece s hr p

theorem offRead.readPieces {r : Reader} (hr : r.alt = none) (l : List Piece) (s : State) : (s.readPieces r l).st.reg a = s.reg a := by
  induction l generalizing s with
  | nil => rfl
  | cons p l ih => exact iteInduction (motive := fun d : Rd => d.st.reg a = s.reg a) (fun _ => (ih _).trans (ha.readChecked s hr p)) fun _ => ha.readChecked s hr p

theorem offRead.readCopy (q i d o n sh : Nat) : (s.readCopy q i d o n sh).st.reg a = s.reg a :=
  iteInduction (motive := fun d : Rd => d.st.reg a = s.reg a) (fun _ => ha.readPieces rfl _ s) fun _ => ha.readPieces rfl _ s

theorem offRead.countConv (e c n r : Nat) : (s.countConv e c n r).reg a = s.reg a :=
  (ha.bump_die _ _ _ _).trans ((ha.bump_die _ _ _ _).trans (ha.bump_die _ _ _ _))

end OffRead

/-! ### The check of a shard (R402, R403) -/

section Readback

variable {a : Nat} (ha : offRead a) (s : State)
include ha

/-- One block of a tile is read from its engine. -/
noncomputable def State.blockRead (t : Nat × TileRec) (x : State × List Byte) (b : Nat) : State × List Byte :=
  ((((State.countConv { x.1 with fresh := x.1.fresh + 528 * 128 } (t.1 / 64) 128 (x.1.readBlock (t.1 / 64) (t.1 % 64) b).clips 0).bump
      (dieReg (engDie (t.1 / 64)) Reg.AE_READ_AMBIG_TOTAL) (x.1.readBlock (t.1 / 64) (t.1 % 64) b).amb).bump
      (dieReg (engDie (t.1 / 64)) Reg.AE_READ_MARGIN_TOTAL) (x.1.readBlock (t.1 / 64) (t.1 % 64) b).marg),
   x.2 ++ (x.1.readBlock (t.1 / 64) (t.1 % 64) b).lines.take (32 * t.2.cols))

omit ha in
theorem State.checkTile_state (i : Nat) (t : Nat × TileRec) : (s.checkTile i t).1 =
    ((List.range (t.2.blocks + 1)).foldl (State.blockRead t)
      ((s.readCopy (engCore (t.1 / 64)) i (engDie (t.1 / 64)) t.2.ofs (recordLen t.2.blocks t.2.cols) t.2.shard).st, [])).1 := rfl

theorem offRead.blockRead (t : Nat × TileRec) (x : State × List Byte) (b : Nat) : (State.blockRead t x b).1.reg a = x.1.reg a :=
  (ha.bump_die _ _ _ _).trans ((ha.bump_die _ _ _ _).trans (ha.countConv _ _ _ _ _))

theorem offRead.blockReads (t : Nat × TileRec) (l : List Nat) (x : State × List Byte) : (l.foldl (State.blockRead t) x).1.reg a = x.1.reg a := by
  induction l generalizing x with
  | nil => rfl
  | cons b l ih => exact (ih _).trans (ha.blockRead t x b)

theorem offRead.checkTile (i : Nat) (t : Nat × TileRec) : (s.checkTile i t).1.reg a = s.reg a :=
  (congrArg (State.reg · a) (s.checkTile_state i t)).trans ((ha.blockReads t _ _).trans (ha.readCopy s _ _ _ _ _ _))

theorem offRead.checkTiles (i : Nat) (l : List (Nat × TileRec)) (s : State) : (s.checkTiles i l).1.reg a = s.reg a := by
  induction l generalizing s with
  | nil => rfl
  | cons t l ih => exact (ih _).trans (ha.checkTile s i t)

theorem offRead.retireColumn (e b l c cause : Nat) (x : D64) : (s.retireColumn e b l c cause x).reg a = s.reg a :=
  iteInduction (motive := fun u : State => u.reg a = s.reg a) (fun _ => rfl) fun _ => iteInduction (motive := fun u : State => u.reg a = s.reg a)
    (fun _ => (State.reg_congr ((State.ashEngine_kept rfl (Kept.refl 1073741921 _)).only .regs rfl) a).trans (ha.bump_die _ _ _ _)) fun _ => rfl

theorem offRead.retireTile (t : TileCheck) : (s.retireTile t).reg a = s.reg a :=
  iteInduction (motive := fun u : State => u.reg a = s.reg a) (fun _ => rfl) fun _ =>
    (State.reg_raise _ _ _ _ _ _).trans (State.foldl_keeps (State.reg · a) (fun s _ => ha.retireColumn s _ _ _ _ _ _) t.lanes s)

theorem offRead.retireTiles (l : List TileCheck) (s : State) : (l.foldl State.retireTile s).reg a = s.reg a :=
  State.foldl_keeps (State.reg · a) (fun s t => ha.retireTile s t) l s

omit ha in
theorem State.repairTiles_reg (i : Nat) (l : List TileCheck) : (l.foldl (fun s t => s.repairTile i t) s).reg a = s.reg a :=
  State.reg_congr ((kept_foldl l (fun _ _ h => State.repairTile_kept rfl h) (Kept.refl 6144 s)).only .regs rfl) a

omit ha in
/-- The row of Table 13-5 of a check that has been counted, by whether the copy and the read-back hold the shard. -/
noncomputable def State.rowReported (s : State) (i k : Nat) (x : Slot) (now : Nat) (ts : List TileCheck) (copyOk backOk : Bool) : State × Nat :=
  if copyOk && backOk then (s.setSlot i { s.slot i with clean := Tab.set (s.slot i).clean k (now + 1) }, 0)
  else if copyOk then
    let s2 := (s.setSlot i { s.slot i with mismatches := (s.slot i).mismatches + 1 }).bump (wtReg Reg.WT_READBACK_MISMATCH_TOTAL) 1
    let bad := ts.filter (fun t => !t.lanes.isEmpty)
    let s3 := bad.foldl State.retireTile s2
    (s3.raise .WEIGHT_EXPOSURE Src.x1 ([x.cord, k, Tab.get x.clean k - 1, now] ++ bad.map (·.key)), 1)
  else if backOk then
    let s2 := ts.foldl (fun s t => s.repairTile i t) s
    ((s2.setSlot i { s2.slot i with damaged := (s2.slot i).damaged.filter (· != k) }).bump (wtReg Reg.WT_COPY_REPAIR_TOTAL) 1 |>.raise .WEIGHT_COPY_REPAIRED Src.x1 [i, k], 2)
  else ((s.setSlot i { s.slot i with damaged := k :: (s.slot i).damaged.filter (· != k) }).raise .WEIGHT_SHARD_DAMAGED Src.x1 [i, k], 3)

omit ha in
theorem State.rowReported_row (i k : Nat) (x : Slot) (now : Nat) (ts : List TileCheck) (copyOk backOk : Bool) : (s.rowReported i k x now ts copyOk backOk).2 < 4 :=
  iteInduction (motive := fun z : State × Nat => z.2 < 4) (fun _ => (by decide : 0 < 4)) fun _ => iteInduction (motive := fun z : State × Nat => z.2 < 4) (fun _ => (by decide : 1 < 4)) fun _ =>
    iteInduction (motive := fun z : State × Nat => z.2 < 4) (fun _ => (by decide : 2 < 4)) fun _ => (by decide : 3 < 4)

omit ha in
theorem State.rowReported_reg (i k : Nat) (x : Slot) (now : Nat) (ts : List TileCheck) (copyOk backOk : Bool) :
    (s.rowReported i k x now ts copyOk backOk).1.reg (wtReg Reg.WT_READBACK_TOTAL) = s.reg (wtReg Reg.WT_READBACK_TOTAL) :=
  iteInduction (motive := fun z : State × Nat => z.1.reg (wtReg Reg.WT_READBACK_TOTAL) = s.reg (wtReg Reg.WT_READBACK_TOTAL)) (fun _ => rfl) fun _ =>
    iteInduction (motive := fun z : State × Nat => z.1.reg (wtReg Reg.WT_READBACK_TOTAL) = s.reg (wtReg Reg.WT_READBACK_TOTAL))
      (fun _ => (State.reg_raise _ _ _ _ _ _).trans ((offRead_readback.retireTiles _ _).trans (State.reg_bump_other _ 1 (by decide)))) fun _ =>
      iteInduction (motive := fun z : State × Nat => z.1.reg (wtReg Reg.WT_READBACK_TOTAL) = s.reg (wtReg Reg.WT_READBACK_TOTAL))
        (fun _ => (State.reg_raise _ _ _ _ _ _).trans ((State.reg_bump_other _ 1 (by decide)).trans (s.repairTiles_reg i ts))) fun _ => rfl

omit ha in
/-- A check that ends reports one of the four rows of Table 13-5, and is counted. -/
theorem State.readback_facts (i k : Nat) : (s.readback i k).2 < 4
    ∧ (s.readback i k).1.reg (wtReg Reg.WT_READBACK_TOTAL) = min (2 ^ 64 - 1) (s.reg (wtReg Reg.WT_READBACK_TOTAL) + 1) :=
  ⟨State.rowReported_row _ i k _ _ _ _ _, (State.rowReported_reg _ i k _ _ _ _ _).trans ((State.reg_bump _ _ _ _).trans ((if_pos rfl).trans
    (congrArg (fun n => min (2 ^ 64 - 1) (n + 1)) (offRead_readback.checkTiles i _ s))))⟩

end Readback

section Checks

variable {s : State} {i : Nat}

/-- The state in which a check is no longer under way. -/
noncomputable def State.checkTaken (s : State) (i : Nat) : State := { s with inst := { s.inst with checks := s.inst.checks.eraseIdx i } }

/-- The descriptor `x` of a check that ended as `r` completes, if it has one. -/
noncomputable def checkTold (r : State × Nat) (x : Option Desc) : State := match x with | some d => r.1.finish d .OK r.2 0 | none => r.1

/-- The check `x` ends, if there is one. -/
noncomputable def State.checkEnds (s : State) (i : Nat) (x : Option Readback) : State :=
  match x with
  | none => s
  | some c => if c.restore then (checkTold ((s.checkTaken i).readback c.slot c.shard) c.desc).restored c.slot else checkTold ((s.checkTaken i).readback c.slot c.shard) c.desc

theorem exec_readbackCheckDone_none (h : s.inst.checks[i]? = none) : exec (.readbackCheckDone i) s = .next s := congrArg (fun x => Host.Outcome.next (s.checkEnds i x)) h

theorem exec_readbackCheckDone {c : Readback} (h : s.inst.checks[i]? = some c) (hr : c.restore = false) {x : Option Desc} (hx : c.desc = x) :
    exec (.readbackCheckDone i) s = .next (checkTold ((s.checkTaken i).readback c.slot c.shard) x) :=
  (congrArg (fun x => Host.Outcome.next (s.checkEnds i x)) h).trans ((congrArg Host.Outcome.next (if_neg (ne_true_of_eq_false hr))).trans
    (congrArg (fun x => Host.Outcome.next (checkTold ((s.checkTaken i).readback c.slot c.shard) x)) hx))

/-- The slots in the order of the round. -/
noncomputable def State.round (s : State) : List Nat := (List.range 8).map fun j => (s.inst.turn + 1 + j) % 8

/-- A slot whose shards the round may check. -/
noncomputable def State.checkable (s : State) (i : Nat) : Bool := (s.slot i).st == .active && decide (0 < (s.slot i).shards)

/-- The round's next check. -/
noncomputable def State.checkStarted (s : State) (i : Nat) : State :=
  let k := (s.slot i).nextCheck % (s.slot i).shards
  let t := s.setSlot i { s.slot i with nextCheck := (k + 1) % (s.slot i).shards }
  { t with inst := { t.inst with turn := i, checks := t.inst.checks ++ [{ slot := i, shard := k }] } }

/-- The round's next check is of slot `x`, if there is one. -/
noncomputable def State.roundChecks (s : State) (x : Option Nat) : State :=
  match x with
  | some i => if !s.readbackEn then s else s.checkStarted i
  | none => s

theorem exec_readbackCheckStart {x : Option Nat} (h : s.round.find? s.checkable = x) : exec .readbackCheckStart s = .next (s.roundChecks x) := congrArg (fun x => Host.Outcome.next (s.roundChecks x)) h

theorem State.roundChecks_off (h : s.readbackEn = false) (x : Option Nat) : s.roundChecks x = s := by
  cases x with
  | none => rfl
  | some i => exact if_pos (congrArg Bool.not h)

theorem State.checkable_not (h : (s.slot i).st ≠ .active) : s.checkable i = false := congrArg (· && decide (0 < (s.slot i).shards)) (beq_false_of_ne h)

theorem State.round_find_none (h : ∀ i, i < 8 → (s.slot i).st ≠ .active) : s.round.find? s.checkable = none :=
  List.find?_eq_none.mpr fun i hi => (List.mem_map.mp hi).elim fun _ hj => ne_true_of_eq_false (State.checkable_not (h i (hj.2 ▸ Nat.mod_lt _ (by decide))))

theorem State.round_find {j : Nat} (hj : j < 8) (ha : (s.slot ((s.inst.turn + 1 + j) % 8)).st = .active) (hs : 0 < (s.slot ((s.inst.turn + 1 + j) % 8)).shards)
    (hfirst : ∀ k, k < j → (s.slot ((s.inst.turn + 1 + k) % 8)).st ≠ .active) : s.round.find? s.checkable = some ((s.inst.turn + 1 + j) % 8) :=
  List.find?_map.trans (congrArg (Option.map fun j => (s.inst.turn + 1 + j) % 8)
    (List.find?_range_eq_some.mpr ⟨Bool.and_eq_true_iff.mpr ⟨beq_iff_eq.mpr ha, decide_eq_true hs⟩, List.mem_range.mpr hj, fun k hk => congrArg Bool.not (State.checkable_not (hfirst k hk))⟩))

end Checks

/-! ### COMMIT and CHECK (R400, R403) -/

/-- A flip waits for the boundary. -/
noncomputable def State.flipQueued (s : State) (i : Nat) (d : Desc) : State := { s with inst := { s.inst with flips := s.inst.flips ++ [(i, some d)] } }

/-- A group COMMIT waits for the members. -/
noncomputable def State.membersAsked (s : State) (i : Nat) (d : Desc) : State :=
  { s with inst := { s.inst with group := some { desc := d, slot := i, since := s.time.tick } } }

section Commit

variable {s : State} {h : Hdr} {i k : Nat} (ha : s.accepts h clsWeight = true) (hi : i < 8)
include ha hi

omit ha hi in
/-- A CHECK of shard `k` of the slot `x` of number `i`. -/
noncomputable def State.checkOp (t : State) (d : Desc) (i k : Nat) (x : Slot) : State :=
  if x.shards ≤ k then t.finish d .CORD_FORMAT 0 0
  else { t with inst := { t.inst with checks := t.inst.checks ++ [{ slot := i, shard := k, desc := some d }] } }

theorem exec_weightCheck (hst : (s.slot i).st = .active) : exec (.weightCheck h i k) s = .next ((s.start h).checkOp (s.descOf h) i k (s.slot i)) :=
  congrArg Host.Outcome.next ((State.onSlot_runs (ok := (· == .active)) ha hi (beq_iff_eq.mpr hst)).trans (congrArg ((s.start h).checkOp (s.descOf h) i k) (s.slot_start h i)))

omit ha hi in
/-- A COMMIT of slot `i`, whose flip has the status `c`. -/
noncomputable def State.commitOp (t : State) (d : Desc) (i : Nat) (group : Bool) (c : Code) : State :=
  if c ≠ .OK then t.finish d c 0 0
  else if !group then t.flipQueued i d
  else if !t.inGroup || !t.isLead || t.inst.group.isSome then t.finish d .CORD_NOT_READY t.moduleId 0
  else if t.groupOthers.isEmpty then { t with inst := { t.inst with flips := t.inst.flips ++ [(i, some d)], announceFlip := true } }
  else t.membersAsked i d

theorem exec_weightCommit (hst : (s.slot i).st = .ready ∨ (s.slot i).st = .standby) (g : Bool) {u : State} (hu : (s.start h).commitOp (s.descOf h) i g ((s.start h).flipStatus i) = u) :
    exec (.weightCommit h i g) s = .next u := congrArg Host.Outcome.next ((State.onSlot_runs ha hi (SlotState.isOneOf_two hst)).trans hu)

omit ha hi

variable {t : State} {d : Desc} {c : Code}

theorem State.commitOp_refused (hf : c ≠ .OK) (g : Bool) : t.commitOp d i g c = t.finish d c 0 0 := if_pos hf

variable (hf : c = .OK)
include hf

theorem State.commitOp_queues : t.commitOp d i false c = t.flipQueued i d := (if_neg (not_not.mpr hf)).trans (if_pos rfl)

theorem State.commitOp_notReady (hno : t.inGroup = false ∨ t.isLead = false ∨ t.inst.group ≠ none) : t.commitOp d i true c = t.finish d .CORD_NOT_READY t.moduleId 0 :=
  (if_neg (not_not.mpr hf)).trans ((if_neg Bool.false_ne_true).trans (if_pos (Bool.or_eq_true_iff.mpr (hno.elim
    (fun h => .inl (Bool.or_eq_true_iff.mpr (.inl (congrArg Bool.not h)))) fun h => h.elim
      (fun h => .inl (Bool.or_eq_true_iff.mpr (.inr (congrArg Bool.not h)))) fun h => .inr (Option.isSome_iff_ne_none.mpr h)))))

theorem State.commitOp_asks (hg : t.inGroup = true) (hl : t.isLead = true) (hn : t.inst.group = none) (ho : t.groupOthers ≠ []) : t.commitOp d i true c = t.membersAsked i d := by
  have ready : (!t.inGroup || !t.isLead || t.inst.group.isSome) ≠ true := by
    rw [hg, hl, hn]
    decide
  exact (if_neg (not_not.mpr hf)).trans ((if_neg Bool.false_ne_true).trans ((if_neg ready).trans (if_neg fun h => ho (List.isEmpty_iff.mp h))))

end Commit

/-! ### The group's answers (R401) -/

section Group

variable {s : State} {tag m : Nat} {yes : Bool}

theorem exec_cordGroupQuery_idle (h : s.inGroup = false ∨ s.isLead = true) : exec (.cordGroupQuery tag) s = .next s :=
  congrArg Host.Outcome.next (if_neg fun hc => h.elim (fun h => Bool.false_ne_true (h.symm.trans (Bool.and_eq_true_iff.mp hc).1))
    fun h => Bool.false_ne_true ((congrArg Bool.not h).symm.trans (Bool.and_eq_true_iff.mp hc).2))

/-- The slot that a member promises for a tag. -/
noncomputable def State.promise (s : State) (tag : Nat) : Option Nat :=
  (List.range 8).find? fun i => (s.slot i).group == tag && tag != 0 && s.flipStatus i == .OK

theorem exec_cordGroupQuery (hg : s.inGroup = true) (hl : s.isLead = false) :
    exec (.cordGroupQuery tag) s = .next { s with inst := { s.inst with promised := s.promise tag } } :=
  congrArg Host.Outcome.next (if_pos (Bool.and_eq_true_iff.mpr ⟨hg, congrArg Bool.not hl⟩))

theorem State.promise_some {i : Nat} (h : s.promise tag = some i) : i < 8 ∧ (s.slot i).group = tag ∧ s.flipStatus i = .OK := by
  obtain ⟨hp, hi, -⟩ := List.find?_range_eq_some.mp h
  obtain ⟨tagged, ok⟩ := Bool.and_eq_true_iff.mp hp
  exact ⟨List.mem_range.mp hi, beq_iff_eq.mp (Bool.and_eq_true_iff.mp tagged).1, beq_iff_eq.mp ok⟩

theorem State.promise_none (h : s.promise tag = none) {i : Nat} (hi : i < 8) (hg : (s.slot i).group = tag) (ht : tag ≠ 0) : s.flipStatus i ≠ .OK := fun hok =>
  List.find?_eq_none.mp h i (List.mem_range.mpr hi) (Bool.and_eq_true_iff.mpr ⟨Bool.and_eq_true_iff.mpr ⟨beq_iff_eq.mpr hg, bne_iff_ne.mpr ht⟩, beq_iff_eq.mpr hok⟩)

/-- A group COMMIT under way ends because of module `m`. -/
noncomputable def State.groupDropped (s : State) (m : Nat) (x : Option GroupCommit) : State :=
  match x with
  | some g => { s with inst := { s.inst with group := none } }.finish g.desc .CORD_NOT_READY m 0
  | none => s

/-- The answer of module `m` to the group COMMIT `x`, if one is under way. -/
noncomputable def State.answeredBy (s : State) (m : Nat) (yes : Bool) (x : Option GroupCommit) : State :=
  match x with
  | none => s
  | some g =>
    if !s.groupOthers.contains m then s
    else if !yes then s.groupRefused m
    else
      let ms := m :: g.confirmed.filter (· != m)
      if s.groupOthers.all ms.contains then
        { s with inst := { s.inst with group := none, flips := s.inst.flips ++ [(g.slot, some g.desc)], announceFlip := true } }
      else { s with inst := { s.inst with group := some { g with confirmed := ms } } }

theorem exec_cordGroupConfirm {x : Option GroupCommit} (h : s.inst.group = x) {u : State} (hu : s.answeredBy m yes x = u) : exec (.cordGroupConfirm m yes) s = .next u :=
  congrArg Host.Outcome.next ((congrArg (s.answeredBy m yes) h).trans hu)

variable {g : GroupCommit} (h : s.inst.group = some g)
include h

theorem State.groupRefused_eq : s.groupRefused m = { s with inst := { s.inst with group := none } }.finish g.desc .CORD_NOT_READY m 0 := congrArg (s.groupDropped m) h

/-- The members that have confirmed, with one more. -/
noncomputable def GroupCommit.with (g : GroupCommit) (m : Nat) : List Nat := m :: g.confirmed.filter (· != m)

omit h in
theorem GroupCommit.mem_with {k : Nat} : k ∈ g.with m ↔ k = m ∨ k ∈ g.confirmed := mem_cons_filter_ne k m _

/-- Every member has confirmed: the lead's flip waits for the boundary, which it announces. -/
noncomputable def State.groupAgreed (s : State) (g : GroupCommit) : State :=
  { s with inst := { s.inst with group := none, flips := s.inst.flips ++ [(g.slot, some g.desc)], announceFlip := true } }

theorem exec_cordGroupConfirm_stranger (hm : m ∉ s.groupOthers) : exec (.cordGroupConfirm m yes) s = .next s :=
  exec_cordGroupConfirm h (if_pos (congrArg Bool.not (Bool.eq_false_iff.mpr fun hc => hm (List.contains_iff_mem.mp hc))))

variable (hm : m ∈ s.groupOthers)
include hm

theorem exec_cordGroupConfirm_declines (hy : yes = false) : exec (.cordGroupConfirm m yes) s = .next ({ s with inst := { s.inst with group := none } }.finish g.desc .CORD_NOT_READY m 0) :=
  exec_cordGroupConfirm h ((if_neg (ne_true_of_eq_false (congrArg Bool.not (List.contains_iff_mem.mpr hm)))).trans ((if_pos (congrArg Bool.not hy)).trans (State.groupRefused_eq h)))

variable (hy : yes = true)
include hy

omit h in
theorem State.answeredBy_confirms : s.answeredBy m yes (some g) = if s.groupOthers.all (g.with m).contains then s.groupAgreed g
    else { s with inst := { s.inst with group := some { g with confirmed := g.with m } } } :=
  (if_neg (ne_true_of_eq_false (congrArg Bool.not (List.contains_iff_mem.mpr hm)))).trans (if_neg (ne_true_of_eq_false (congrArg Bool.not hy)))

theorem exec_cordGroupConfirm_agreed (hall : ∀ k ∈ s.groupOthers, k = m ∨ k ∈ g.confirmed) : exec (.cordGroupConfirm m yes) s = .next (s.groupAgreed g) :=
  exec_cordGroupConfirm h ((State.answeredBy_confirms hm hy).trans (if_pos (List.all_eq_true.mpr fun k hk => List.contains_iff_mem.mpr (GroupCommit.mem_with.mpr (hall k hk)))))

theorem exec_cordGroupConfirm_waits {k : Nat} (hk : k ∈ s.groupOthers) (hne : k ≠ m) (hnot : k ∉ g.confirmed) :
    exec (.cordGroupConfirm m yes) s = .next { s with inst := { s.inst with group := some { g with confirmed := g.with m } } } :=
  exec_cordGroupConfirm h ((State.answeredBy_confirms hm hy).trans (if_neg fun hall =>
    (GroupCommit.mem_with.mp (List.contains_iff_mem.mp (List.all_eq_true.mp hall k hk))).elim hne hnot))

omit h hm hy

/-- The group COMMIT `x` runs out of time, if one is under way. -/
noncomputable def State.groupTimedOut (s : State) (x : Option GroupCommit) : State :=
  match x with
  | some g => if g.since + 100000000 ≤ s.time.tick then s.groupRefused ((s.groupOthers.find? fun m => !g.confirmed.contains m).getD 0) else s
  | none => s

theorem exec_groupCommitTimeout {x : Option GroupCommit} (h : s.inst.group = x) {u : State} (hu : s.groupTimedOut x = u) : exec .groupCommitTimeout s = .next u :=
  congrArg Host.Outcome.next ((congrArg s.groupTimedOut h).trans hu)

include h in
theorem State.groupTimedOut_late (hlate : g.since + 100000000 ≤ s.time.tick) (hm : (s.groupOthers.find? fun m => !g.confirmed.contains m) = some m) :
    s.groupTimedOut (some g) = { s with inst := { s.inst with group := none } }.finish g.desc .CORD_NOT_READY m 0 :=
  (if_pos hlate).trans ((congrArg (fun x : Option Nat => s.groupRefused (x.getD 0)) hm).trans (State.groupRefused_eq h))

theorem find_after {p : Nat → Bool} {a b : List Nat} (ha : ∀ k ∈ a, p k = false) (hm : p m = true) : (a ++ m :: b).find? p = some m :=
  List.find?_append.trans ((congrArg (·.or ((m :: b).find? p)) (List.find?_eq_none.mpr fun k hk => ne_true_of_eq_false (ha k hk))).trans (List.find?_cons_of_pos hm))

end Group

/-- Settles O49: a COMMIT by what stands in its way, an answer by whose it is, and a check by its row. -/
theorem commitsAndReadBack : Obligations.CommitsAndReadBack := by
  refine ⟨?ops, fun s tag => ⟨exec_cordGroupQuery_idle, fun hg hl => ⟨_, exec_cordGroupQuery hg hl, rfl, fun i hi => State.promise_some hi,
      fun hn i hi hgr ht => State.promise_none hn hi hgr ht⟩⟩,
    fun s m yes => ⟨fun hg => exec_cordGroupConfirm hg rfl, fun g hg => ⟨exec_cordGroupConfirm_stranger hg, exec_cordGroupConfirm_declines hg,
      fun hm hy hall => ⟨_, exec_cordGroupConfirm_agreed hg hm hy hall, rfl, rfl, rfl, rfl⟩,
      fun hm hy hk => hk.elim fun k hk => ⟨_, g.with m, exec_cordGroupConfirm_waits hg hm hy hk.1 hk.2.1 hk.2.2, rfl, fun k => GroupCommit.mem_with⟩⟩⟩,
    fun s => ⟨fun hn => exec_groupCommitTimeout hn rfl, fun g hg => ⟨fun hearly => exec_groupCommitTimeout hg (if_neg (Nat.not_le.mpr hearly)),
      fun hlate a m b hl hin hm => exec_groupCommitTimeout hg (State.groupTimedOut_late hg hlate (hl ▸ find_after
        (fun k hk => congrArg Bool.not (List.contains_iff_mem.mpr (hin k hk))) (congrArg Bool.not (Bool.eq_false_iff.mpr fun hc => hm (List.contains_iff_mem.mp hc)))))⟩⟩,
    fun s => ⟨fun h => (exec_readbackCheckStart rfl).trans (congrArg Host.Outcome.next (h.elim (fun h => State.roundChecks_off h _) fun h => congrArg s.roundChecks (State.round_find_none h))), ?starts⟩,
    fun s i => ⟨exec_readbackCheckDone_none, ?done⟩⟩
  case ops =>
    intro s h i ha t d
    exact ⟨fun hno g => congrArg Host.Outcome.next (State.onSlot_refused ha (hno.imp_right fun hne => Bool.or_eq_false_iff.mpr ⟨beq_false_of_ne hne.1, beq_false_of_ne hne.2⟩)),
      fun hi hst => ⟨fun hf g => exec_weightCommit ha hi hst g (State.commitOp_refused hf g),
        fun hf => ⟨_, exec_weightCommit ha hi hst false (State.commitOp_queues hf), congrArg (·.flips ++ _) (s.start_inst h), rfl⟩,
        fun hf hno => exec_weightCommit ha hi hst true (State.commitOp_notReady hf hno),
        fun hf hg hl hn ho => ⟨_, exec_weightCommit ha hi hst true (State.commitOp_asks hf hg hl hn ho), rfl, congrArg (·.flips) (s.start_inst h), rfl⟩⟩,
      fun hno k => congrArg Host.Outcome.next (State.onSlot_refused ha (hno.imp_right beq_false_of_ne)),
      fun hi hst k hk => (exec_weightCheck ha hi hst).trans (congrArg Host.Outcome.next (if_pos hk)),
      fun hi hst k hk => ⟨_, (exec_weightCheck ha hi hst).trans (congrArg Host.Outcome.next (if_neg (Nat.not_le.mpr hk))), congrArg (·.checks ++ _) (s.start_inst h), rfl⟩⟩
  case starts =>
    intro j hen hj i hst hsh hfirst
    exact ⟨s.checkStarted i, (exec_readbackCheckStart (State.round_find hj hst hsh hfirst)).trans (congrArg Host.Outcome.next (if_neg (ne_true_of_eq_false (congrArg Bool.not hen)))), rfl, rfl,
      congrArg Slot.nextCheck (s.slot_setSlot_same i _), fun k hk => s.slot_setSlot_other _ hk⟩
  case done =>
    intro c hc r
    exact ⟨fun hd hr => exec_readbackCheckDone hc hr hd, fun d hd hr => exec_readbackCheckDone hc hr hd, (s.checkTaken i).readback_facts c.slot c.shard⟩

end Sys2Proof.Machine
end

section
/-! PROOFS of the family 14_silent_errors_and_tests: scans, fleet patterns and the TEST descriptors (R424 to R430). -/

namespace Sys2Proof.Machine

/-! ### Positions -/

section Positions

variable (s : State) (d p : Nat) (x : Position)

/-- A position as it is kept explicitly. -/
noncomputable def Position.kept (x : Position) : Position := { x with known := true }

/-- What position `p` of a die is, from what is kept of it: by itself it is ACTIVE, or SPARE past the eighth. -/
noncomputable def Position.resolved (p : Nat) (x : Position) : Position :=
  if x.known then x else if p < 8 then { st := .active, logical := p } else { st := .spare }

/-- A position is written, before the plan is made anew. -/
noncomputable def State.posWritten : State := { s with pos := Tab.set s.pos (d * 9 + p) x.kept }

theorem State.position_congr {s t : State} (h : t.pos = s.pos) (d p : Nat) : t.position d p = s.position d p :=
  congrArg (fun m => Position.resolved p (Tab.get m (d * 9 + p))) h

theorem State.pos_replan : s.replan.pos = s.pos := (State.replan_kept rfl (Kept.refl 70368744177664 s)).only .pos rfl

theorem State.position_posWritten (e i : Nat) :
    (s.posWritten d p x).replan.position e i = Position.resolved i (if e * 9 + i = d * 9 + p then x.kept else Tab.get s.pos (e * 9 + i)) :=
  (State.position_congr (State.pos_replan _) e i).trans (congrArg (Position.resolved i) (Tab.get_set s.pos (d * 9 + p) (e * 9 + i) x.kept))

/-- A position that is set holds what it was set to, but for whether it is kept explicitly. -/
theorem State.position_setPosition_same : ((s.setPosition d p x).position d p).kept = x.kept :=
  iteInduction (motive := fun u : State => (u.position d p).kept = x.kept) id fun _ =>
    (congrArg Position.kept ((s.position_posWritten d p x d p).trans (congrArg (Position.resolved p) (if_pos rfl))) :)

theorem State.st_setPosition : ((s.setPosition d p x).position d p).st = x.st := (congrArg Position.st (s.position_setPosition_same d p x) :)

theorem State.underScan_setPosition : ((s.setPosition d p x).position d p).underScan = x.underScan :=
  (congrArg Position.underScan (s.position_setPosition_same d p x) :)

theorem State.position_setPosition_other {e i : Nat} (h : e * 9 + i ≠ d * 9 + p) : (s.setPosition d p x).position e i = s.position e i :=
  iteInduction (motive := fun u : State => u.position e i = s.position e i) (fun _ => rfl) fun _ =>
    (s.position_posWritten d p x e i).trans (congrArg (Position.resolved i) (if_neg h))

theorem State.setPosition_frame : Kept 70368744439808 s (s.setPosition d p x) := State.setPosition_kept rfl (Kept.refl 70368744439808 s)

end Positions

/-! ### Scans of a die -/

section Scans

variable {s t : State} {e : Nat}

theorem State.scan_congr (h : t.det = s.det) (i : Nat) : t.scan i = s.scan i := congrArg (fun d : Detect => Tab.get d.scans i) h

theorem State.scan_setScan_same (x : Scan) : (s.setScan e x).scan e = x := (s.scan_setScan e x e).trans (if_pos rfl)

theorem State.scan_setScan_other (x : Scan) {i : Nat} (h : i ≠ e) : (s.setScan e x).scan i = s.scan i := (s.scan_setScan e x i).trans (if_neg h)

end Scans

/-! ### SCAN (R424, R426, R430) -/

section Status

variable {s : State} {e k mode p : Nat}

/-- What a scan that nothing else refuses still needs: a spare for a SWAP, and a die without a cover for a cover. -/
noncomputable def State.scanNeeds (s : State) (e k mode : Nat) : Code :=
  if mode % 4 = scanSwap ∧ k < 8 ∧ (s.swapSpare e).isNone then .SCAN_NO_SPARE
  else if s.scanMode e k mode = scanCover ∧ s.dieCovers e then .TEST_BUSY else .OK

theorem State.scanNeeds_noSpare (hk : k < 8) (hm : mode % 4 = 1) (hn : s.swapSpare e = none) : s.scanNeeds e k mode = .SCAN_NO_SPARE :=
  if_pos ⟨hm, hk, congrArg Option.isNone hn⟩

theorem State.scanNeeds_covered (hm : mode % 4 ≠ 1) (hc : s.scanMode e k mode = scanCover) (hd : s.dieCovers e = true) : s.scanNeeds e k mode = .TEST_BUSY :=
  (if_neg fun h => hm h.1).trans (if_pos ⟨hc, hd⟩)

theorem State.scanNeeds_met (hm : mode % 4 = 1 → k < 8 → s.swapSpare e ≠ none) (hc : s.scanMode e k mode = scanCover → s.dieCovers e = false) :
    s.scanNeeds e k mode = .OK :=
  (if_neg fun h => hm h.1 h.2.1 (Option.isNone_iff_eq_none.mp h.2.2)).trans (if_neg fun h => ne_true_of_eq_false (hc h.1) h.2)

theorem State.scanStatus_mode (hm : mode % 4 = 3) : s.scanStatus e k mode = .DESC_FORMAT := if_pos hm

variable (hm : mode % 4 ≠ 3)
include hm

theorem State.scanStatus_absent (ht : s.scanTarget e k = none) : s.scanStatus e k mode = .TARGET_ABSENT :=
  (if_neg hm).trans (if_pos (congrArg Option.isNone ht))

variable (ht : s.scanTarget e k = some p)
include ht

theorem State.scanStatus_present : s.scanStatus e k mode =
    if s.scanning.isSome then .TEST_BUSY else if !s.scanEn then .TEST_NOT_PERMITTED else s.scanNeeds e k mode :=
  (if_neg hm).trans (if_neg (ne_true_of_eq_false (congrArg Option.isNone ht)))

theorem State.scanStatus_busy (hb : s.scanning ≠ none) : s.scanStatus e k mode = .TEST_BUSY :=
  (State.scanStatus_present hm ht).trans (if_pos (Option.isSome_iff_ne_none.mpr hb))

variable (hb : s.scanning = none)
include hb

theorem State.scanStatus_free : s.scanStatus e k mode = if !s.scanEn then .TEST_NOT_PERMITTED else s.scanNeeds e k mode :=
  (State.scanStatus_present hm ht).trans (if_neg (ne_true_of_eq_false (congrArg Option.isSome hb)))

theorem State.scanStatus_disabled (he : s.scanEn = false) : s.scanStatus e k mode = .TEST_NOT_PERMITTED :=
  (State.scanStatus_free hm ht hb).trans (if_pos (congrArg Bool.not he))

theorem State.scanStatus_enabled (he : s.scanEn = true) : s.scanStatus e k mode = s.scanNeeds e k mode :=
  (State.scanStatus_free hm ht hb).trans (if_neg (ne_true_of_eq_false (congrArg Bool.not he)))

end Status

section Mode

variable {s : State} {e k mode p : Nat}

/-- A cover asked for outright, or in AUTO mode for want of a spare. -/
def State.CoverAsked (s : State) (e mode : Nat) : Prop := mode % 4 = 2 ∨ (mode % 4 = 0 ∧ s.swapSpare e = none)

theorem State.CoverAsked.ne_swap (h : s.CoverAsked e mode) : mode % 4 ≠ 1 := fun h1 =>
  h.elim (fun h2 => absurd (h2.symm.trans h1) (by decide)) fun h0 => absurd (h0.1.symm.trans h1) (by decide)

/-- How the mode is found for a cluster. -/
noncomputable def modeFor (m : Nat) (spare : Option Nat) : Nat := if m = 0 then (if spare.isSome then scanSwap else scanCover) else m

theorem State.scanMode_cluster (hk : k < 8) : s.scanMode e k mode = modeFor (mode % 4) (s.swapSpare e) := if_neg (Nat.not_le.mpr (hk.trans (by decide)))

theorem State.CoverAsked.scanMode (h : s.CoverAsked e mode) (hk : k < 8) : s.scanMode e k mode = scanCover :=
  (State.scanMode_cluster hk).trans (h.elim (fun h => congrArg (modeFor · _) h) fun h => congrArg₂ modeFor h.1 h.2)

theorem State.scanMode_swap {j : Nat} (hk : k < 8) (hm : mode % 4 = 1 ∨ mode % 4 = 0) (hj : s.swapSpare e = some j) : s.scanMode e k mode = scanSwap :=
  (State.scanMode_cluster hk).trans (hm.elim (fun h => congrArg (modeFor · _) h) fun h => congrArg₂ modeFor h hj)

theorem State.scanMode_spare (hk : 0xF8 ≤ k) : s.scanMode e k mode = scanSpare := if_pos hk

theorem State.scanTarget_absent (hf : s.fits e = false) : s.scanTarget e k = none := if_pos (congrArg Bool.not hf)

theorem State.scanTarget_cluster (hf : s.fits e = true) (hk : k < 8) : s.scanTarget e k = s.posOf e k :=
  (if_neg (ne_true_of_eq_false (congrArg Bool.not hf))).trans ((if_neg (Nat.not_le.mpr (hk.trans (by decide)))).trans (if_pos hk))

theorem State.scanTarget_spare (hk : 0xF8 ≤ k) (ht : s.scanTarget e k = some p) : p = k - 0xF8 :=
  (Option.some.inj (Option.ite_none_right_eq_some.mp ((if_pos hk).symm.trans (Option.ite_none_left_eq_some.mp ht).2)).2).symm

end Mode

section Start

variable (s : State) (e k p mode : Nat) (desc : Option Desc)

/-- The scan of a die as it starts. -/
noncomputable def State.scanRecord : Scan :=
  { s.scan e with st := if mode = scanSpare then 2 else 1, mode := mode, position := p, cluster := if k < 8 then k else 15, desc := desc }

/-- The scan of a die is under way, before its positions are prepared. -/
noncomputable def State.scanNoted : State := s.setScan e (s.scanRecord e k p mode desc)

/-- What a scan that starts does to its positions: a SPARE one is under scan at once, and a swap's spare programs. -/
noncomputable def State.scanPrepared (spare : Option Nat) : State :=
  if mode = scanSpare then s.setPosition e p { s.position e p with underScan := true }
  else if mode = scanSwap then
    match spare with
    | some k => s.setPosition e k { s.position e k with st := .programming, logical := 15 }
    | none => s
  else s

theorem State.scanStart_swap {j : Nat} (hj : s.swapSpare e = some j) : s.scanStart e k p scanSwap desc =
    (s.scanNoted e k p scanSwap desc).setPosition e j { s.position e j with st := .programming, logical := 15 } :=
  congrArg ((s.scanNoted e k p scanSwap desc).scanPrepared e p scanSwap) hj

theorem State.det_scanPrepared (spare : Option Nat) : (s.scanPrepared e p mode spare).det = s.det :=
  iteInduction (motive := fun u : State => u.det = s.det) (fun _ => (State.setPosition_frame _ _ _ _).only .det rfl) fun _ =>
    iteInduction (motive := fun u : State => u.det = s.det)
      (fun _ => match spare with
        | some _ => (State.setPosition_frame _ _ _ _).only .det rfl
        | none => rfl) fun _ => rfl

theorem State.scan_scanStart : (s.scanStart e k p mode desc).scan e = s.scanRecord e k p mode desc :=
  (State.scan_congr (State.det_scanPrepared _ e p mode _) e).trans (State.scan_setScan_same _)

theorem State.scan_scanStart_other {i : Nat} (h : i ≠ e) : (s.scanStart e k p mode desc).scan i = s.scan i :=
  (State.scan_congr (State.det_scanPrepared _ e p mode _) i).trans (State.scan_setScan_other _ h)

theorem State.scanRecord_st : (s.scanRecord e k p mode desc).st ≠ 0 :=
  iteInduction (motive := fun n : Nat => n ≠ 0) (fun _ => Nat.succ_ne_zero 1) fun _ => Nat.succ_ne_zero 0

end Start

section ScanOp

variable {s : State} {h : Hdr} {e k mode p : Nat}

theorem State.scanTarget_start : (s.start h).scanTarget e k = s.scanTarget e k := by rw [State.start_eq]; rfl
theorem State.scanStatus_start : (s.start h).scanStatus e k mode = s.scanStatus e k mode := by rw [State.start_eq]; rfl
theorem State.scanMode_start : (s.start h).scanMode e k mode = s.scanMode e k mode := by rw [State.start_eq]; rfl
theorem State.swapSpare_start : (s.start h).swapSpare e = s.swapSpare e := by rw [State.start_eq]; rfl
theorem State.position_start : (s.start h).position e p = s.position e p := State.position_congr (State.start_pos s h) e p

/-- What the start of a swap leaves. -/
theorem State.scanSwap_facts {j : Nat} {d : Desc} (hj : s.swapSpare e = some j) :
    (((s.start h).scanStart e k p scanSwap (some d)).scan e).st = 1 ∧ (((s.start h).scanStart e k p scanSwap (some d)).scan e).mode = 1
      ∧ (((s.start h).scanStart e k p scanSwap (some d)).scan e).position = p ∧ (((s.start h).scanStart e k p scanSwap (some d)).scan e).desc = some d
      ∧ (((s.start h).scanStart e k p scanSwap (some d)).position e j).st = .programming
      ∧ (∀ i, i < 9 → i ≠ j → ((s.start h).scanStart e k p scanSwap (some d)).position e i = s.position e i)
      ∧ ((s.start h).scanStart e k p scanSwap (some d)).engines = s.engines :=
  ⟨congrArg Scan.st (State.scan_scanStart _ _ _ _ _ _), congrArg Scan.mode (State.scan_scanStart _ _ _ _ _ _), congrArg Scan.position (State.scan_scanStart _ _ _ _ _ _),
    congrArg Scan.desc (State.scan_scanStart _ _ _ _ _ _),
    (congrArg (fun u : State => (u.position e j).st) (State.scanStart_swap _ e k p _ (State.swapSpare_start.trans hj))).trans (State.st_setPosition _ _ _ _),
    fun i _ hi => (congrArg (fun u : State => u.position e i) (State.scanStart_swap _ e k p _ (State.swapSpare_start.trans hj))).trans
      ((State.position_setPosition_other _ _ _ _ fun h => hi (Nat.add_left_cancel h)).trans (State.position_congr (State.start_pos s h) e i)),
    (congrArg State.engines (State.scanStart_swap _ e k p _ (State.swapSpare_start.trans hj))).trans (((State.setPosition_frame _ _ _ _).only .engines rfl).trans (State.start_engines s h))⟩

/-- What the start of a spare position's scan leaves. -/
theorem State.scanSpare_facts {d : Desc} (hp : p = k - 0xF8) :
    (((s.start h).scanStart e k p scanSpare (some d)).scan e).st = 2 ∧ (((s.start h).scanStart e k p scanSpare (some d)).scan e).mode = 3
      ∧ (((s.start h).scanStart e k p scanSpare (some d)).scan e).position = p ∧ p = k - 0xF8
      ∧ (((s.start h).scanStart e k p scanSpare (some d)).scan e).desc = some d
      ∧ (((s.start h).scanStart e k p scanSpare (some d)).position e p).underScan = true
      ∧ ((s.start h).scanStart e k p scanSpare (some d)).engines = s.engines :=
  ⟨congrArg Scan.st (State.scan_scanStart _ _ _ _ _ _), congrArg Scan.mode (State.scan_scanStart _ _ _ _ _ _), congrArg Scan.position (State.scan_scanStart _ _ _ _ _ _),
    hp, congrArg Scan.desc (State.scan_scanStart _ _ _ _ _ _), State.underScan_setPosition _ _ _ _,
    ((State.setPosition_frame _ _ _ _).only .engines rfl).trans (State.start_engines s h)⟩

/-- A SCAN with its status, its target and its mode found. -/
noncomputable def scanOp (e k : Nat) (t : State) (d : Desc) (c : Code) (target : Option Nat) (m : Nat) : State :=
  match target with
  | some p => if c = .OK then t.scanStart e k p m (some d) else t.finish d c 0 0
  | none => t.finish d c 0 0

theorem scanOp_refused {t : State} {d : Desc} {c : Code} (hno : c ≠ .OK) (m : Nat) : ∀ o, scanOp e k t d c o m = t.finish d c 0 0
  | some _ => if_neg hno
  | none => rfl

theorem scanOp_starts (t : State) (d : Desc) {m : Nat} : scanOp e k t d .OK (some p) m = t.scanStart e k p m (some d) := rfl

variable (ha : s.accepts h clsTest = true)
include ha

theorem exec_scan_refused {c : Code} (hc : s.scanStatus e k mode = c) (hno : c ≠ .OK) :
    exec (.scan h e k mode) s = .next ((s.start h).finish (s.descOf h) c 0 0) :=
  congrArg Host.Outcome.next ((State.descriptor_accepted ha _).trans
    ((congrArg (scanOp e k (s.start h) (s.descOf h) · _ _) (State.scanStatus_start.trans hc)).trans (scanOp_refused hno _ _)))

variable {m : Nat} (hmode : mode % 4 ≠ 3) (ht : s.scanTarget e k = some p) (hb : s.scanning = none) (he : s.scanEn = true)
  (hswap : mode % 4 = 1 → k < 8 → s.swapSpare e ≠ none) (hcover : s.scanMode e k mode = scanCover → s.dieCovers e = false) (hm : s.scanMode e k mode = m)
include hmode ht hb he hswap hcover hm

theorem exec_scan_starts : exec (.scan h e k mode) s = .next ((s.start h).scanStart e k p m (some (s.descOf h))) :=
  congrArg Host.Outcome.next ((State.descriptor_accepted ha _).trans
    ((congrArg (scanOp e k (s.start h) (s.descOf h) · _ _) (State.scanStatus_start.trans ((State.scanStatus_enabled hmode ht hb he).trans (State.scanNeeds_met hswap hcover)))).trans
      ((congrArg₂ (scanOp e k (s.start h) (s.descOf h) .OK) (State.scanTarget_start.trans ht) (State.scanMode_start.trans hm)).trans (scanOp_starts _ _))))

end ScanOp

/-! ### The scheduled scan (R423, R426) -/

section Schedule

variable {s : State} {e p : Nat}

/-- The schedule notes that a position's turn has come. -/
noncomputable def State.turnTaken (s : State) (e p : Nat) : State :=
  if s.det.scanFirst.contains (clusterKey e (s.position e p).logical) then
    { s with det := { s.det with scanFirst := s.det.scanFirst.filter (· != clusterKey e (s.position e p).logical) } }
  else { s with det := { s.det with scanTurn := (9 * e + p + 1) % 72 } }

/-- What a scheduled scan names for a position: its cluster, or the spare position itself. -/
noncomputable def State.scanName (s : State) (e p : Nat) : Nat := if (s.position e p).logical < 8 then (s.position e p).logical else 0xF8 + p

/-- The schedule with the next position found. -/
noncomputable def State.scheduled (s : State) : Option (Nat × Nat) → State
  | none => s
  | some (e, p) => (s.turnTaken e p).scanStart e (s.scanName e p) p ((s.turnTaken e p).scanMode e (s.scanName e p) 0) none

theorem exec_scanSchedule_held (hno : s.ready = false ∨ s.scanEn = false ∨ s.scanHeld = true ∨ s.scanNext = none) : exec .scanSchedule s = .next s :=
  congrArg Host.Outcome.next (hno.elim (fun h => if_pos (Bool.or_eq_true_iff.mpr (.inl (Bool.or_eq_true_iff.mpr (.inl (congrArg Bool.not h))))))
    fun hno => hno.elim (fun h => if_pos (Bool.or_eq_true_iff.mpr (.inl (Bool.or_eq_true_iff.mpr (.inr (congrArg Bool.not h))))))
      fun hno => hno.elim (fun h => if_pos (Bool.or_eq_true_iff.mpr (.inr h)))
        fun h => (congrArg (fun o => if !s.ready || !s.scanEn || s.scanHeld then s else s.scheduled o) h).trans (ite_self s))

theorem exec_scanSchedule (hr : s.ready = true) (he : s.scanEn = true) (hh : s.scanHeld = false) (hn : s.scanNext = some (e, p)) :
    exec .scanSchedule s = .next ((s.turnTaken e p).scanStart e (s.scanName e p) p ((s.turnTaken e p).scanMode e (s.scanName e p) 0) none) :=
  congrArg Host.Outcome.next ((if_neg (ne_true_of_eq_false (Bool.or_eq_false_iff.mpr ⟨Bool.or_eq_false_iff.mpr ⟨congrArg Bool.not hr, congrArg Bool.not he⟩, hh⟩))).trans
    (congrArg s.scheduled hn))

theorem State.scan_turnTaken (i : Nat) : (s.turnTaken e p).scan i = s.scan i :=
  iteInduction (motive := fun u : State => u.scan i = s.scan i) (fun _ => rfl) fun _ => rfl

theorem State.chans_turnTaken : (s.turnTaken e p).chans = s.chans :=
  iteInduction (motive := fun u : State => u.chans = s.chans) (fun _ => rfl) fun _ => rfl

end Schedule

/-! ### The end of a scan (R422, R425) -/

section Done

variable {s : State} {e n : Nat} {x : Scan} {ok : Bool}

/-- The scan of a die as its result leaves it. -/
noncomputable def Scan.ended (x : Scan) (ok : Bool) (now : Nat) : Scan :=
  { st := if ok && x.mode == scanCover then 3 else 0, mode := if ok && x.mode == scanCover then x.mode else 0
    position := if ok && x.mode == scanCover then x.position else 0, cluster := x.cluster
    lastTick := Tab.set x.lastTick x.position now, lastResult := Tab.set x.lastResult x.position ((if ok then 1 else 2) + 4 * x.mode) }

theorem Scan.ended_outside_cover {now : Nat} (h : x.mode ≠ scanCover) : (x.ended ok now).st = 0 :=
  if_neg fun hc => h (beq_iff_eq.mp (Bool.and_eq_true_iff.mp hc).2)

theorem Scan.ended_failed {now : Nat} (hok : ok = false) : (x.ended ok now).st = 0 := hok ▸ rfl

theorem Scan.covering (hok : ok = true) (h : x.mode = scanCover) : (ok && x.mode == scanCover) = true := Bool.and_eq_true_iff.mpr ⟨hok, beq_iff_eq.mpr h⟩

/-- The result is recorded and the scan counted. -/
noncomputable def State.scanTotalled (s : State) (e : Nat) (x : Scan) (ok : Bool) : State :=
  (s.setScan e (x.ended ok s.time.tick)).bump (dieReg e Reg.SE_SCAN_TOTAL) 1

/-- The result is recorded and counted. -/
noncomputable def State.scanCounted (s : State) (e : Nat) (x : Scan) (ok : Bool) : State :=
  if ok then s.scanTotalled e x ok else (s.scanTotalled e x ok).bump (dieReg e Reg.SE_SCAN_FAIL_TOTAL) 1

theorem State.scanCounted_frame (ok : Bool) : (s.scanCounted e x ok).det = (s.scanTotalled e x ok).det ∧ (s.scanCounted e x ok).pos = s.pos ∧ (s.scanCounted e x ok).time = s.time :=
  match ok with
  | true => ⟨rfl, rfl, rfl⟩
  | false => ⟨rfl, rfl, rfl⟩

theorem State.scan_total_ne_fail : dieReg e Reg.SE_SCAN_FAIL_TOTAL ≠ dieReg e Reg.SE_SCAN_TOTAL := fun h => absurd (Nat.add_left_cancel h) (by decide)

theorem State.reg_scanTotalled : (s.scanTotalled e x ok).reg (dieReg e Reg.SE_SCAN_TOTAL) = min (2 ^ 64 - 1) (s.reg (dieReg e Reg.SE_SCAN_TOTAL) + 1) :=
  (State.reg_bump _ _ _ _).trans (if_pos rfl)

theorem State.reg_scanTotalled_fail : (s.scanTotalled e x ok).reg (dieReg e Reg.SE_SCAN_FAIL_TOTAL) = s.reg (dieReg e Reg.SE_SCAN_FAIL_TOTAL) :=
  State.reg_bump_other _ 1 State.scan_total_ne_fail

theorem State.reg_scanCounted_total (ok : Bool) :
    (s.scanCounted e x ok).reg (dieReg e Reg.SE_SCAN_TOTAL) = min (2 ^ 64 - 1) (s.reg (dieReg e Reg.SE_SCAN_TOTAL) + 1) :=
  match ok with
  | true => State.reg_scanTotalled
  | false => (State.reg_bump_other _ 1 State.scan_total_ne_fail.symm).trans State.reg_scanTotalled

theorem State.reg_scanCounted_fail (ok : Bool) : (s.scanCounted e x ok).reg (dieReg e Reg.SE_SCAN_FAIL_TOTAL) =
    if ok then s.reg (dieReg e Reg.SE_SCAN_FAIL_TOTAL) else min (2 ^ 64 - 1) (s.reg (dieReg e Reg.SE_SCAN_FAIL_TOTAL) + 1) :=
  match ok with
  | true => State.reg_scanTotalled_fail
  | false => (State.reg_bump _ _ _ _).trans ((if_pos rfl).trans (congrArg (fun v => min (2 ^ 64 - 1) (v + 1)) State.reg_scanTotalled_fail))

/-- A counted scan answers its descriptor, if it has one. -/
noncomputable def scanAnswered (ok : Bool) (t : State) (now : Nat) : Option Desc → State
  | some d => t.finish d .OK (b2n (!ok)) now
  | none => t

theorem State.scanResult_eq : s.scanResult e x ok = scanAnswered ok (s.scanCounted e x ok) s.time.tick x.desc :=
  (show s.scanResult e x ok = scanAnswered ok (s.scanCounted e x ok) (s.scanCounted e x ok).time.tick x.desc from rfl).trans
    (congrArg (fun m : Time => scanAnswered ok (s.scanCounted e x ok) m.tick x.desc) (s.scanCounted_frame ok).2.2)

theorem State.scanResult_some {d : Desc} (h : x.desc = some d) : s.scanResult e x ok = (s.scanCounted e x ok).finish d .OK (b2n (!ok)) s.time.tick :=
  State.scanResult_eq.trans (congrArg (scanAnswered ok _ _) h)

theorem State.scanResult_none (h : x.desc = none) : s.scanResult e x ok = s.scanCounted e x ok :=
  State.scanResult_eq.trans (congrArg (scanAnswered ok _ _) h)

theorem scanAnswered_frame {t : State} {now : Nat} : ∀ o, (scanAnswered ok t now o).det = t.det ∧ (scanAnswered ok t now o).pos = t.pos
  | some d => ⟨t.finish_det d _ _ _ _ _, t.finish_pos d _ _ _ _ _⟩
  | none => ⟨rfl, rfl⟩

theorem State.scan_scanResult : (s.scanResult e x ok).scan e = x.ended ok s.time.tick :=
  (State.scan_congr ((congrArg State.det State.scanResult_eq).trans ((scanAnswered_frame _).1.trans (s.scanCounted_frame ok).1)) e).trans (State.scan_setScan_same _)

theorem State.position_scanResult (i : Nat) : (s.scanResult e x ok).position e i = s.position e i :=
  State.position_congr ((congrArg State.pos State.scanResult_eq).trans ((scanAnswered_frame _).2.trans (s.scanCounted_frame ok).2.1)) e i

/-- A position that passed outside COVER, before it is a spare again: its own arrays are back. -/
noncomputable def State.scanPassed (s : State) (e p : Nat) : State := if (s.position e p).st = .retired then s.unstow e p (clusterKey e 8) else s

/-- A position that passed outside COVER is a spare again. -/
noncomputable def State.scanSpared (s : State) (e p : Nat) : State := (s.scanPassed e p).setPosition e p { s.position e p with st := .spare, underScan := false }

/-- The failure of a scan, reported. -/
noncomputable def State.scanFailed (s : State) (e : Nat) (x : Scan) (n : Nat) (ok : Bool) : State := (s.scanResult e x ok).raise .SCAN_FAILED Src.steward [e, x.position, n]

/-- A position that failed outside COVER is retired and listed. -/
noncomputable def State.scanRetired (s : State) (e p : Nat) : State := (s.retire e p).ashAdd (ashCluster e p 9)

/-- The end of the scan of a die. -/
noncomputable def scanEnd (ok : Bool) (n : Nat) (s : State) (e : Nat) (x : Scan) : State :=
  if ok then (if x.mode = scanCover then s.scanResult e x ok else (s.scanResult e x ok).scanSpared e x.position)
  else if x.mode = scanCover then ((s.scanResult e x ok).raise .SCAN_FAILED Src.steward [e, x.position, n]).loseCluster (clusterKey e x.cluster) (some 9)
  else ((s.scanResult e x ok).raise .SCAN_FAILED Src.steward [e, x.position, n]).scanRetired e x.position

/-- SCAN_DONE with the scanning die found. -/
noncomputable def scanDoneOp (ok : Bool) (n : Nat) (s : State) : Option Nat → State
  | none => s
  | some e => if (s.scan e).st ≠ 2 then s else scanEnd ok n s e (s.scan e)

theorem exec_scanDone_none (h : s.scanning = none) : exec (.scanDone ok n) s = .next s := congrArg (fun o => Host.Outcome.next (scanDoneOp ok n s o)) h

theorem State.det_scanSpared (p : Nat) : (s.scanSpared e p).det = s.det :=
  ((State.setPosition_frame _ _ _ _).only .det rfl).trans
    (iteInduction (motive := fun u : State => u.det = s.det) (fun _ => (State.unstow_kept rfl (Kept.refl 6291456 s)).only .det rfl) fun _ => rfl)

/-- What a pass outside COVER leaves. -/
theorem State.scanSpared_facts (s : State) (hm : x.mode ≠ scanCover) : (((s.scanResult e x ok).scanSpared e x.position).scan e).st = 0
    ∧ (((s.scanResult e x ok).scanSpared e x.position).position e x.position).st = .spare
    ∧ (((s.scanResult e x ok).scanSpared e x.position).position e x.position).underScan = false :=
  ⟨(congrArg Scan.st ((State.scan_congr (State.det_scanSpared _) e).trans State.scan_scanResult)).trans (Scan.ended_outside_cover hm),
    State.st_setPosition _ _ _ _, State.underScan_setPosition _ _ _ _⟩

variable (h : s.scanning = some e)
include h

theorem exec_scanDone_early (hst : (s.scan e).st ≠ 2) : exec (.scanDone ok n) s = .next s :=
  congrArg Host.Outcome.next ((congrArg (scanDoneOp ok n s) h).trans (if_pos hst))

theorem exec_scanDone (hst : (s.scan e).st = 2) : exec (.scanDone ok n) s = .next (scanEnd ok n s e (s.scan e)) :=
  congrArg Host.Outcome.next ((congrArg (scanDoneOp ok n s) h).trans (if_neg (not_not.mpr hst)))

theorem exec_scanDone_passed (hst : (s.scan e).st = 2) (hok : ok = true) : exec (.scanDone true n) s =
    .next (if (s.scan e).mode = scanCover then s.scanResult e (s.scan e) ok else (s.scanResult e (s.scan e) ok).scanSpared e (s.scan e).position) :=
  by subst hok; exact exec_scanDone h hst

theorem exec_scanDone_failed (hst : (s.scan e).st = 2) (hok : ok = false) : exec (.scanDone false n) s = .next (
    if (s.scan e).mode = scanCover then
      ((s.scanResult e (s.scan e) ok).raise .SCAN_FAILED Src.steward [e, (s.scan e).position, n]).loseCluster (clusterKey e (s.scan e).cluster) (some 9)
    else ((s.scanResult e (s.scan e) ok).raise .SCAN_FAILED Src.steward [e, (s.scan e).position, n]).scanRetired e (s.scan e).position) :=
  by subst hok; exact exec_scanDone h hst

end Done

section Retire

variable (s : State) {e p : Nat}

theorem State.reports_ashAdd (x : AshEntry) : s.Reports (s.ashAdd x) :=
  iteInduction (motive := s.Reports) (fun _ => .refl s) fun _ => State.reports_raise _ _ _ _ _

/-- A position that is not fused off is RETIRED when it is retired. -/
theorem State.retire_retired {s : State} (h : (s.position e p).st ≠ .fusedOff) : ((s.retire e p).position e p).st = .retired :=
  iteInduction (motive := fun u : State => (u.position e p).st = .retired) (fun hst => (State.st_setPosition _ _ _ _).trans (hst.resolve_right h))
    fun _ => State.st_setPosition _ _ _ _

theorem State.scanRetired_det : (s.scanRetired e p).det = s.det :=
  ((State.ashAdd_kept rfl (Kept.refl 1073741921 _)).only .det rfl).trans ((State.retire_kept rfl (Kept.refl 70368750731264 s)).only .det rfl)

theorem State.scanRetired_retired (h : (s.position e p).st ≠ .fusedOff) : ((s.scanRetired e p).position e p).st = .retired :=
  (congrArg Position.st (State.position_congr ((State.ashAdd_kept rfl (Kept.refl 1073741921 _)).only .pos rfl) e p)).trans (State.retire_retired h)

theorem State.scanRetired_reports : s.Reports (s.scanRetired e p) :=
  ((State.retire_kept rfl (Kept.refl 70368750731264 s)).reports rfl).trans (State.reports_ashAdd _ _)

/-- What the failure of a scan outside COVER leaves. -/
theorem State.scanFailed_facts (x : Scan) (n : Nat) (ok : Bool) (hok : ok = false) (h : (s.position e x.position).st ≠ .fusedOff) :
    (((s.scanFailed e x n ok).scanRetired e x.position).scan e).st = 0 ∧ (((s.scanFailed e x n ok).scanRetired e x.position).position e x.position).st = .retired
      ∧ ∃ v ∈ ((s.scanFailed e x n ok).scanRetired e x.position).ev.inFlight, v.code = .SCAN_FAILED ∧ v.args = [e, x.position, n] :=
  ⟨((congrArg Scan.st ((State.scan_congr (State.scanRetired_det (s.scanFailed e x n ok)) e).trans ((State.scan_congr rfl e).trans State.scan_scanResult)) :)).trans (Scan.ended_failed hok),
    State.scanRetired_retired _ fun hf => h ((congrArg Position.st (State.position_scanResult x.position)).symm.trans hf),
    ((s.scanResult e x ok).mem_raise .SCAN_FAILED Src.steward [e, x.position, n]).imp fun _ hv => ⟨(State.scanRetired_reports _).mem hv.1, hv.2⟩⟩

end Retire

/-! ### Fleet patterns (R427) -/

section Fleet

variable {s : State} {h : Hdr} {n : Nat} {b : Bool} {g : FleetImage} {sig : SigOut}

theorem State.pattern_start (i : Nat) : (s.start h).pattern i = s.pattern i := congrArg (fun d : Detect => Tab.get d.patterns i) (State.start_det s h)

theorem State.sliceCycles_start : (s.start h).sliceCycles = s.sliceCycles := by rw [State.start_eq]; rfl

theorem State.setPattern_same (x : Pattern) : (s.setPattern n x).pattern n = x := (s.pattern_setPattern n x n).trans (if_pos rfl)

theorem State.setPattern_other (x : Pattern) (i : Nat) (hi : i ≠ n) : ((s.start h).setPattern n x).pattern i = s.pattern i :=
  (((s.start h).pattern_setPattern n x i).trans (if_neg hi)).trans (State.pattern_start i)

variable (ha : s.accepts h clsTest = true)
include ha

theorem exec_fleetRemove_beyond (hn : 16 ≤ n) : exec (.fleetRemove h n) s = .next ((s.start h).finish (s.descOf h) .DESC_FORMAT 0 0) :=
  congrArg Host.Outcome.next ((State.descriptor_accepted ha _).trans (if_pos hn))

theorem exec_fleetSet_beyond (hn : 16 ≤ n) : exec (.fleetSet h n b) s = .next ((s.start h).finish (s.descOf h) .DESC_FORMAT 0 0) :=
  congrArg Host.Outcome.next ((State.descriptor_accepted ha _).trans (if_pos (.inl hn)))

theorem exec_fleetLoad_beyond (hn : 16 ≤ n) : exec (.fleetLoad h n g sig) s = .next ((s.start h).finish (s.descOf h) .DESC_FORMAT 0 0) :=
  congrArg Host.Outcome.next ((State.descriptor_accepted ha _).trans (if_pos hn))

theorem exec_fleetSet_empty (hl : (s.pattern n).loaded = false) : exec (.fleetSet h n b) s = .next ((s.start h).finish (s.descOf h) .DESC_FORMAT 0 0) :=
  congrArg Host.Outcome.next ((State.descriptor_accepted ha _).trans (if_pos (.inr (congrArg (fun x : Pattern => !x.loaded) (State.pattern_start n) |>.trans (congrArg Bool.not hl)))))

variable (hn : n < 16)
include hn

theorem exec_fleetRemove : exec (.fleetRemove h n) s = .next (((s.start h).setPattern n {}).finish (s.descOf h) .OK 0 0) :=
  congrArg Host.Outcome.next ((State.descriptor_accepted ha _).trans (if_neg (Nat.not_le.mpr hn)))

theorem exec_fleetSet (hl : (s.pattern n).loaded = true) :
    exec (.fleetSet h n b) s = .next (((s.start h).setPattern n { s.pattern n with enabled := b }).finish (s.descOf h) .OK 0 0) :=
  congrArg Host.Outcome.next ((State.descriptor_accepted ha _).trans
    ((if_neg (not_or.mpr ⟨Nat.not_le.mpr hn, ne_true_of_eq_false (congrArg (fun x : Pattern => !x.loaded) (State.pattern_start n) |>.trans (congrArg Bool.not hl))⟩)).trans
      (congrArg (fun x : Pattern => ((s.start h).setPattern n { x with enabled := b }).finish (s.descOf h) .OK 0 0) (State.pattern_start n))))

/-- FLEET_LOAD into a slot, by the verification's verdict. -/
noncomputable def fleetLoadOp (n : Nat) (g : FleetImage) (d : Desc) (v : State × Verified) : State :=
  match v.2 with
  | .signature => v.1.finish d .PATTERN_SIGNATURE 0 0
  | .rollback => v.1.finish d .PATTERN_ROLLBACK 0 0
  | .accepted =>
    if g.cycles.any (fun c => decide (v.1.sliceCycles < c)) then v.1.finish d .PATTERN_SLICE_LONG 0 0
    else (v.1.setPattern n { loaded := true, id := g.id, security := g.security, slices := g.cycles.length }).finish d .OK g.id 0

theorem exec_fleetLoad : exec (.fleetLoad h n g sig) s =
    .next (fleetLoadOp n g (s.descOf h) ((s.start h).verify g.formed 4 g.keyId g.security (some 2) sig)) :=
  congrArg Host.Outcome.next ((State.descriptor_accepted ha _).trans (if_neg (Nat.not_le.mpr hn)))

theorem exec_fleetLoad_unsigned (hm : (s.start h).sigMask g.formed 4 g.keyId sig ≠ 0) : exec (.fleetLoad h n g sig) s = .next
    (((s.start h).sigFailed 4 g.keyId ((s.start h).sigMask g.formed 4 g.keyId sig)).finish (s.descOf h) .PATTERN_SIGNATURE 0 0) :=
  (exec_fleetLoad ha hn).trans (congrArg (fun v => Host.Outcome.next (fleetLoadOp n g (s.descOf h) v)) (State.verify_signature hm _))

variable (hm : (s.start h).sigMask g.formed 4 g.keyId sig = 0)
include hm

theorem exec_fleetLoad_older (hr : g.security < s.rollback 2) :
    exec (.fleetLoad h n g sig) s = .next ((s.start h).finish (s.descOf h) .PATTERN_ROLLBACK 0 0) :=
  (exec_fleetLoad ha hn).trans (congrArg (fun v => Host.Outcome.next (fleetLoadOp n g (s.descOf h) v))
    (State.verify_rollback hm (hr.trans_eq (State.rollback_start s h 2).symm)))

variable (hr : s.rollback 2 ≤ g.security)
include hr

theorem exec_fleetLoad_verified : exec (.fleetLoad h n g sig) s = .next (fleetLoadOp n g (s.descOf h) (s.start h, .accepted)) :=
  (exec_fleetLoad ha hn).trans (congrArg (fun v => Host.Outcome.next (fleetLoadOp n g (s.descOf h) v))
    (State.verify_accepted hm ((State.rollback_start s h 2).trans_le hr)))

theorem exec_fleetLoad_long (hlong : ∃ c ∈ g.cycles, s.sliceCycles < c) :
    exec (.fleetLoad h n g sig) s = .next ((s.start h).finish (s.descOf h) .PATTERN_SLICE_LONG 0 0) :=
  (exec_fleetLoad_verified ha hn hm hr).trans (congrArg Host.Outcome.next
    (if_pos (List.any_eq_true.mpr (hlong.imp fun _ hc => ⟨hc.1, decide_eq_true (State.sliceCycles_start.trans_lt hc.2)⟩))))

theorem exec_fleetLoad_loads (hfit : ∀ c ∈ g.cycles, c ≤ s.sliceCycles) : exec (.fleetLoad h n g sig) s =
    .next (((s.start h).setPattern n { loaded := true, id := g.id, security := g.security, slices := g.cycles.length }).finish (s.descOf h) .OK g.id 0) :=
  (exec_fleetLoad_verified ha hn hm hr).trans (congrArg Host.Outcome.next
    (if_neg fun hany => (List.any_eq_true.mp hany).elim fun c hc => Nat.not_lt.mpr (hfit c hc.1) (State.sliceCycles_start.symm.trans_lt (of_decide_eq_true hc.2))))

end Fleet

/-! ### INJECT and QUERY (R430) -/

section Inject

variable {s : State} {h : Hdr} {q n l lane o k : Nat}

theorem State.injectEn_start : (s.start h).injectEn = s.injectEn := by rw [State.start_eq]; rfl

/-- A lane of a layer of a bank takes an offset for a number of steps. -/
noncomputable def Bank.laneInjected (y : Bank) (l lane o k : Nat) : Bank :=
  { y with inject := Tab.set y.inject (1024 * l + lane) (if k = 0 then 0 else signed 8 o), injectLeft := Tab.set y.injectLeft (1024 * l + lane) k }

/-- INJECT into a bank. -/
noncomputable def State.bankInjected (s : State) (e l lane o k b : Nat) : State := s.setBank e b ((s.bank e b).laneInjected l lane o k)

/-- What an INJECT leaves. -/
theorem State.inject_facts {e b : Nat} : Tab.get (((s.start h).bankInjected e l lane o k b).bank e b).inject (1024 * l + lane) = (if k = 0 then 0 else signed 8 o)
    ∧ Tab.get (((s.start h).bankInjected e l lane o k b).bank e b).injectLeft (1024 * l + lane) = k
    ∧ (∀ i, i ≠ e → ((s.start h).bankInjected e l lane o k b).engine i = s.engine i)
    ∧ (s.start h).bankInjected e l lane o k b = { s.start h with engines := ((s.start h).bankInjected e l lane o k b).engines } :=
  ⟨(congrArg (fun y : Bank => Tab.get y.inject (1024 * l + lane)) (State.bank_setBank_same _ e b _)).trans ((Tab.get_set _ _ _ _).trans (if_pos rfl)),
    (congrArg (fun y : Bank => Tab.get y.injectLeft (1024 * l + lane)) (State.bank_setBank_same _ e b _)).trans ((Tab.get_set _ _ _ _).trans (if_pos rfl)),
    fun i hi => ((State.engine_setEngine _ _ _ _).trans (if_neg hi)).trans (State.engine_start s h i), rfl⟩

theorem State.testRecord_length (s : State) (e k : Nat) : (s.testRecord e k).length = 64 := rfl

variable (ha : s.accepts h clsTest = true)
include ha

theorem exec_testQuery_absent {e k a : Nat} (hno : s.fits e = false ∨ 8 ≤ k) :
    exec (.testQuery h e k a) s = .next ((s.start h).finish (s.descOf h) .TARGET_ABSENT 0 0) :=
  congrArg Host.Outcome.next ((State.descriptor_accepted ha _).trans (if_pos (hno.imp_left fun hf => congrArg Bool.not ((State.fits_start s h e).trans hf))))

theorem exec_testQuery {e k a : Nat} (hf : s.fits e = true) (hk : k < 8) :
    exec (.testQuery h e k a) s = .next (((s.start h).hostPut a ((s.start h).testRecord e k)).finish (s.descOf h) .OK 0 0) :=
  congrArg Host.Outcome.next ((State.descriptor_accepted ha _).trans
    (if_neg (not_or.mpr ⟨ne_true_of_eq_false (congrArg Bool.not ((State.fits_start s h e).trans hf)), Nat.not_le.mpr hk⟩)))

theorem exec_inject_absent (hf : s.fits (coreDie q) = false) : exec (.inject h q n l lane o k) s = .next ((s.start h).finish (s.descOf h) .TARGET_ABSENT 0 0) :=
  congrArg Host.Outcome.next ((State.descriptor_accepted ha _).trans (if_pos (congrArg Bool.not ((State.fits_start s h _).trans hf))))

variable (hf : s.fits (coreDie q) = true)
include hf

theorem exec_inject_disabled (he : s.injectEn = false) : exec (.inject h q n l lane o k) s = .next ((s.start h).finish (s.descOf h) .TEST_NOT_PERMITTED 0 0) :=
  congrArg Host.Outcome.next ((State.descriptor_accepted ha _).trans
    ((if_neg (ne_true_of_eq_false (congrArg Bool.not ((State.fits_start s h _).trans hf)))).trans (if_pos (congrArg Bool.not (State.injectEn_start.trans he)))))

theorem exec_inject (he : s.injectEn = true) (hlane : lane < 528) (hn : n < 4) (hl : l < 64) (hq : coreCluster q < 8) :
    exec (.inject h q n l lane o k) s =
      .next (((s.start h).bankInjected (engineKey q n) l lane o k (s.engine (engineKey q n)).active).finish (s.descOf h) .OK 0 0) :=
  congrArg Host.Outcome.next ((State.descriptor_accepted ha _).trans
    ((if_neg (ne_true_of_eq_false (congrArg Bool.not ((State.fits_start s h _).trans hf)))).trans ((if_neg (ne_true_of_eq_false (congrArg Bool.not (State.injectEn_start.trans he)))).trans
      ((if_neg (not_or.mpr ⟨Nat.not_le.mpr hlane, not_or.mpr ⟨Nat.not_le.mpr hn, not_or.mpr ⟨Nat.not_le.mpr hl, Nat.not_le.mpr hq⟩⟩⟩)).trans
        (congrArg (fun x : Engine => ((s.start h).bankInjected (engineKey q n) l lane o k x.active).finish (s.descOf h) .OK 0 0) (s.engine_start h (engineKey q n)))))))

end Inject

/-- Settles O52: SCAN and INJECT by the first refusal that applies, a scan's end by its mode and result. -/
theorem scansAndFleetPatterns : Obligations.ScansAndFleetPatterns := by
  refine ⟨?scan, fun s => ⟨exec_scanSchedule_held, fun e p hr he hh hn => ⟨_, exec_scanSchedule hr he hh hn,
      fun hst => State.scanRecord_st _ _ _ _ _ _ ((congrArg Scan.st (State.scan_scanStart _ _ _ _ _ _)).symm.trans hst),
      congrArg Scan.position (State.scan_scanStart _ _ _ _ _ _), congrArg Scan.desc (State.scan_scanStart _ _ _ _ _ _),
      fun i hi => (State.scan_scanStart_other _ _ _ _ _ _ hi).trans (State.scan_turnTaken i),
      ((State.scanStart_kept rfl (Kept.refl 70643622346752 _)).only .chans rfl).trans State.chans_turnTaken⟩⟩,
    fun s ok n => ⟨exec_scanDone_none, ?done⟩, ?fleet⟩
  case scan =>
    intro s h e k mode ha t d c
    refine ⟨fun hm => exec_scan_refused ha (State.scanStatus_mode hm) nofun,
      fun hm ht => exec_scan_refused ha (State.scanStatus_absent hm (State.scanTarget_start.symm.trans ht)) nofun,
      fun hf => State.scanTarget_start.trans (State.scanTarget_absent hf), fun hf hk => State.scanTarget_start.trans (State.scanTarget_cluster hf hk), ?_⟩
    intro p target hm
    have ht := State.scanTarget_start.symm.trans target
    exact ⟨fun hb => exec_scan_refused ha (State.scanStatus_busy hm ht hb) nofun,
      fun hb he => exec_scan_refused ha (State.scanStatus_disabled hm ht hb he) nofun,
      fun hb he hk h1 hn => exec_scan_refused ha ((State.scanStatus_enabled hm ht hb he).trans (State.scanNeeds_noSpare hk h1 hn)) nofun,
      fun hb he hk hc hd => exec_scan_refused ha ((State.scanStatus_enabled hm ht hb he).trans
        (State.scanNeeds_covered (State.CoverAsked.ne_swap hc) (State.CoverAsked.scanMode hc hk) hd)) nofun,
      fun hb he hk hc hd => ⟨t.scanNoted e k p scanCover (some d), exec_scan_starts ha hm ht hb he
          (fun h1 _ => absurd h1 (State.CoverAsked.ne_swap hc)) (fun _ => hd) (State.CoverAsked.scanMode hc hk),
        congrArg Scan.st (State.scan_setScan_same _), congrArg Scan.mode (State.scan_setScan_same _), congrArg Scan.position (State.scan_setScan_same _),
        congrArg Scan.desc (State.scan_setScan_same _), fun _ hi => (State.scan_setScan_other _ hi).trans (State.scan_congr (State.start_det s h) _), State.start_pos s h, rfl⟩,
      fun hb he hk hmode j hj => ⟨_, exec_scan_starts ha hm ht hb he (fun _ _ hn => nomatch hn.symm.trans hj)
          (fun h => absurd (h.symm.trans (State.scanMode_swap hk hmode hj)) (by decide)) (State.scanMode_swap hk hmode hj),
        State.scanSwap_facts hj⟩,
      fun hb he hk => ⟨_, exec_scan_starts ha hm ht hb he
          (fun _ h8 => absurd h8 (Nat.not_lt.mpr (Nat.le_trans (by decide) hk))) (fun h => absurd (h.symm.trans (State.scanMode_spare hk)) (by decide)) (State.scanMode_spare hk),
        State.scanSpare_facts (State.scanTarget_spare hk ht)⟩⟩
  case done =>
    intro e h x r
    exact ⟨exec_scanDone_early h, fun hst hm hok => ⟨(exec_scanDone_passed h hst hok).trans (congrArg Host.Outcome.next (if_pos hm)),
        (congrArg Scan.st State.scan_scanResult).trans (if_pos (Scan.covering hok hm)), (congrArg Scan.position State.scan_scanResult).trans (if_pos (Scan.covering hok hm))⟩,
      fun hst hm hok => (exec_scanDone_failed h hst hok).trans (congrArg Host.Outcome.next (if_pos hm)),
      fun hst hm hok => ⟨_, (exec_scanDone_passed h hst hok).trans (congrArg Host.Outcome.next (if_neg hm)), s.scanSpared_facts hm⟩,
      fun hst hm hok hf => ⟨_, (exec_scanDone_failed h hst hok).trans (congrArg Host.Outcome.next (if_neg hm)), s.scanFailed_facts x n ok hok hf⟩,
      s.scanCounted e x ok, fun _ => State.scanResult_some, State.scanResult_none, s.reg_scanCounted_total ok, s.reg_scanCounted_fail ok⟩
  case fleet =>
    intro s h ha t d
    exact ⟨fun n hn => ⟨exec_fleetRemove_beyond ha hn, fun b => exec_fleetSet_beyond ha hn, fun g sig => exec_fleetLoad_beyond ha hn⟩,
      fun n g sig hn => ⟨exec_fleetLoad_unsigned ha hn, exec_fleetLoad_older ha hn, exec_fleetLoad_long ha hn, fun hm hr hfit => ⟨_, exec_fleetLoad_loads ha hn hm hr hfit,
        congrArg Pattern.loaded (State.setPattern_same _), congrArg Pattern.id (State.setPattern_same _), congrArg Pattern.enabled (State.setPattern_same _),
        congrArg Pattern.slices (State.setPattern_same _), State.setPattern_other _, rfl⟩⟩,
      fun n b hn hl => exec_fleetSet_empty ha hl, fun n b hn hl => ⟨_, exec_fleetSet ha hn hl, State.setPattern_same _, State.setPattern_other _, rfl⟩,
      fun n hn => ⟨_, exec_fleetRemove ha hn, State.setPattern_same _, State.setPattern_other _, rfl⟩,
      fun q n l lane o k => ⟨exec_inject_absent ha, exec_inject_disabled ha, fun hf he hlane hn hl hq => ⟨_, exec_inject ha hf he hlane hn hl hq, State.inject_facts⟩⟩,
      fun e k a => ⟨exec_testQuery_absent ha, fun hf hk => ⟨t.testRecord_length e k, exec_testQuery ha hf hk⟩⟩⟩

end Sys2Proof.Machine
end

section
/-! PROOFS of the family 15_power_thermal_housekeeping: trips, excursions, shutdown and release (R404, R434, R435, R450 to R452, R456). -/

namespace Sys2Proof.Machine

/-! ### What survives a trip (R404, R434, R435, R456) -/

/-- Every entry of a table written anew is what it was made, or what it was before. -/
theorem Tab.get_foldl_set_onto {α β : Type} [Inhabited α] [DecidableEq α] {P : α → Prop} {f : Nat × β → α} (hf : ∀ e, P (f e)) :
    ∀ (l : List (Nat × β)) (t : Tab α), (∀ d, P (Tab.get t d)) → ∀ d, P (Tab.get (l.foldl (fun r e => Tab.set r e.1 (f e)) t) d) := by
  intro l
  induction l with
  | nil => exact fun _ ht => ht
  | cons e l ih => exact fun t ht => ih _ fun d => (Tab.get_set t e.1 d (f e)).symm ▸ iteInduction (motive := P) (fun _ => hf e) fun _ => ht d

/-- Every entry of a table written anew is what it was made, or the default. -/
theorem Tab.get_foldl_set {α β : Type} [Inhabited α] [DecidableEq α] {P : α → Prop} (h0 : P default) {f : Nat × β → α} (hf : ∀ e, P (f e)) (l : List (Nat × β)) (d : Nat) :
    P (Tab.get (l.foldl (fun r e => Tab.set r e.1 (f e)) []) d) := Tab.get_foldl_set_onto hf l [] (fun _ => h0) d

/-- After a trip a slot has no key, and no cord is ACTIVE. -/
theorem Slot.kept_locked (x : Slot) : x.kept.key = none ∧ x.kept.st ≠ .active :=
  iteInduction (motive := fun y : Slot => y.key = none ∧ y.st ≠ .active) (fun _ => ⟨rfl, (by decide : SlotState.restoring ≠ .active)⟩) fun _ =>
    iteInduction (motive := fun y : Slot => y.key = none ∧ y.st ≠ .active) (fun hst => ⟨rfl, fun h => absurd (hst.symm.trans h) (by decide)⟩) fun _ => ⟨rfl, (by decide : SlotState.free ≠ .active)⟩

theorem Bank.kept_of_ne {y : Bank} (h : y.st ≠ .programming) : y.kept.layers = y.layers ∧ y.kept.st = y.st := ⟨if_neg h, if_neg h⟩

theorem Bank.kept_programming {y : Bank} (h : y.st = .programming) : y.kept.layers = [] ∧ y.kept.st = .empty := ⟨if_pos h, if_pos h⟩

section PowerOff

variable (s : State) (k : Nat)

theorem State.run_powerOff (d : Nat) : ((s.powerOff k).dieCal d).run = 0 :=
  Tab.get_foldl_set (P := fun x : DieCal => x.run = 0) (f := fun e : Nat × DieCal => { saved := e.2.saved, records := e.2.records }) rfl (fun _ => rfl) s.cal d

theorem State.port_powerOff (p : Nat) : ((s.powerOff k).port p).st = .down ∧ ((s.powerOff k).port p).queue = [] :=
  Tab.get_foldl_set (P := fun x : Port => x.st = .down ∧ x.queue = []) (f := fun e : Nat × Port => { saved := e.2.saved }) ⟨rfl, rfl⟩ (fun _ => ⟨rfl, rfl⟩) s.fab.ports p

theorem State.slot_powerOff (i : Nat) : ((s.powerOff k).slot i).key = none ∧ ((s.powerOff k).slot i).st ≠ .active :=
  Tab.get_foldl_set (P := fun x : Slot => x.key = none ∧ x.st ≠ .active) (f := fun e : Nat × Slot => e.2.kept) ⟨rfl, nofun⟩ (fun e => e.2.kept_locked) s.slots i

theorem State.regulatorTrip_unpowered (h : s.hk.powered = false) : s.regulatorTrip k = s := if_neg (ne_true_of_eq_false h)

theorem State.regulatorTrip_powered (h : s.hk.powered = true) : s.regulatorTrip k = s.powerOff k := if_pos h

/-- The four protections of Table 15-2 are regulator trips, each with its cause. -/
theorem exec_trip {c : Instr} (hc : (c, k) ∈ [(Instr.inputUndervolt, 1), (Instr.inputOvervolt, 2), (Instr.inputOvercurrent, 3), (Instr.regulatorFault, 4)]) :
    exec c s = .next (s.regulatorTrip k) :=
  (List.forall_mem_cons (p := fun e : Instr × Nat => exec e.1 s = .next (s.regulatorTrip e.2))).mpr ⟨rfl, List.forall_mem_cons.mpr ⟨rfl, List.forall_mem_cons.mpr ⟨rfl, List.forall_mem_singleton.mpr rfl⟩⟩⟩ (c, k) hc

end PowerOff

/-! ### Excursions, the current limit and the module's shutdown (R434, R451) -/

section Module

variable {s : State} {o : Bool}

theorem exec_inputOutOfRange_unpowered (h : s.hk.powered = false) : exec (.inputOutOfRange o) s = .next s :=
  congrArg Host.Outcome.next (if_pos (congrArg Bool.not h))

theorem exec_currentLimit_unpowered (h : s.hk.powered = false) : exec (.currentLimit o) s = .next s :=
  congrArg Host.Outcome.next (if_pos (congrArg Bool.not h))

/-- The input is outside, or inside, its range. -/
noncomputable def State.inputNoted (s : State) (o : Bool) : State := { s with hk := { s.hk with inputRange := o } }

/-- The input's range as it is noted, and reported at the start of an excursion. -/
noncomputable def State.inputSeen (s : State) (o : Bool) : State :=
  if o && !s.hk.inputRange then (s.inputNoted o).raise .INPUT_OUT_OF_RANGE Src.x1 [] else s.inputNoted o

theorem State.inputSeen_range : (s.inputSeen o).hk.inputRange = o :=
  iteInduction (motive := fun u : State => u.hk.inputRange = o) (fun _ => rfl) fun _ => rfl

theorem State.inputSeen_quiet (ho : o = false ∨ s.hk.inputRange = true) : (s.inputSeen o).ev = (s.inputNoted o).ev :=
  congrArg State.ev (if_neg fun hc => ho.elim (fun ho => ne_true_of_eq_false ho (Bool.and_eq_true_iff.mp hc).1)
    fun hr => ne_true_of_eq_false (congrArg Bool.not hr) (Bool.and_eq_true_iff.mp hc).2)

theorem State.inputSeen_raises (ho : o = true) (hr : s.hk.inputRange = false) :
    ∃ w, (s.inputSeen o).ev.inFlight = s.ev.inFlight ++ [w] ∧ w.code = .INPUT_OUT_OF_RANGE :=
  ((s.inputNoted o).raise_event .INPUT_OUT_OF_RANGE Src.x1 []).imp fun _ hw =>
    ⟨(congrArg (fun u : State => u.ev.inFlight) (if_pos (Bool.and_eq_true_iff.mpr ⟨ho, congrArg Bool.not hr⟩))).trans hw.1, hw.2.1⟩

variable (h : s.hk.powered = true)
include h

theorem exec_inputOutOfRange : exec (.inputOutOfRange o) s = .next (s.inputSeen o) :=
  congrArg Host.Outcome.next (if_neg (ne_true_of_eq_false (congrArg Bool.not h)))

theorem exec_currentLimit : exec (.currentLimit o) s = .next { s with hk := { s.hk with currentLimited := o, powerStage := if o then 3 else s.hk.powerStage } } :=
  congrArg Host.Outcome.next (if_neg (ne_true_of_eq_false (congrArg Bool.not h)))

omit h in
theorem State.moduleShutdown_armed (ha : s.hk.tripArmed = true) (c k : Nat) : s.moduleShutdown c k = s := if_pos ha

/-- The shutdown record, written. -/
noncomputable def State.shutdownRecorded (s : State) (c k : Nat) : State :=
  { s with hk := { s.hk with shutdown := some ([k, c] ++ (List.range 3).map (fun i => encodeInt 16 ((s.hkChan c).history.getD i 0)) ++ [s.time.tick]), tripArmed := true } }

omit h in
theorem State.moduleShutdown_records (ha : s.hk.tripArmed = false) (c k : Nat) :
    s.moduleShutdown c k = (s.shutdownRecorded c k).raise .MODULE_SHUTDOWN Src.x1 [k, c, encodeInt 16 (s.hkChan c).reading] :=
  if_neg (ne_true_of_eq_false ha)

omit h in
theorem exec_moduleShutdownTrip_idle (ha : s.hk.powered = false ∨ s.hk.tripArmed = false) : exec .moduleShutdownTrip s = .next s :=
  congrArg Host.Outcome.next (if_neg fun hc => ha.elim (fun h => ne_true_of_eq_false h hc.1) fun h => ne_true_of_eq_false h hc.2)

theorem exec_moduleShutdownTrip {k : Nat} {r : List Nat} (ha : s.hk.tripArmed = true) (hk : s.hk.shutdown = some (k :: r)) :
    exec .moduleShutdownTrip s = .next (s.powerOff k) :=
  congrArg Host.Outcome.next ((if_pos ⟨h, ha⟩).trans (congrArg (fun x : Option (List Nat) => s.powerOff ((x.getD []).headD 5)) hk))

end Module

/-! ### A partition that goes down (R450, Table 15-8) -/

section Down

variable (s : State) (p c : Nat)

/-- A partition is down. -/
noncomputable def State.partOff : State := s.setPartition p { down := true, retired := s.wasGood p }

theorem State.partitionShutdown_once (h : (s.partition p).down = true) : s.partitionShutdown p c = s := if_pos h

theorem State.partitionShutdown_eq (h : (s.partition p).down = false) : s.partitionShutdown p c =
    (if s.boot.phase < 3 then s.partOff p else (s.partOff p).partDown p).raise .PARTITION_SHUTDOWN Src.x1 [p, c, encodeInt 16 (s.hkChan c).reading] :=
  if_neg (ne_true_of_eq_false h)

theorem State.setPartition_same (x : Partition) : (s.setPartition p x).partition p = x := (s.partition_setPartition p x p).trans (if_pos rfl)

theorem State.partition_congr {s t : State} (h : t.hk = s.hk) (p : Nat) : t.partition p = s.partition p := congrArg (fun x : Hk => Tab.get x.parts p) h

theorem State.partDown_mdie (hp : 80 ≤ p) : s.partDown p = s.mdieLost (p - 80) :=
  (if_neg (Nat.not_lt.mpr (Nat.le_trans (by decide) hp))).trans (if_neg (Nat.not_lt.mpr hp))

/-- A partition is down, whatever else its loss takes. -/
theorem State.partitionShutdown_down (h : (s.partition p).down = false) {u : State} (hu : (if s.boot.phase < 3 then s.partOff p else (s.partOff p).partDown p) = u)
    (hk : u.hk = (s.partOff p).hk) : ((s.partitionShutdown p c).partition p).down = true :=
  (congrArg (fun v : State => (v.partition p).down) (s.partitionShutdown_eq p c h)).trans (congrArg Partition.down
    ((State.partition_congr ((congrArg State.hk hu).trans hk) p).trans (s.setPartition_same p { down := true, retired := s.wasGood p })))

theorem State.partitionShutdown_step (h : (s.partition p).down = false) {u : State} (hu : (if s.boot.phase < 3 then s.partOff p else (s.partOff p).partDown p) = u) :
    (s.partitionShutdown p c).step = u.step :=
  (congrArg State.step (s.partitionShutdown_eq p c h)).trans (congrArg State.step hu :)

theorem State.hk_mdieLost (m : Nat) : (s.mdieLost m).hk = s.hk := (State.mdieLost_kept rfl (Kept.refl 3565015953123 s)).only .hk rfl

/-- What a fold's steps leave alone, the fold leaves alone. -/
theorem foldl_fixed_of_mem {α β : Type} {f : β → α → β} {b : β} : ∀ {l : List α}, (∀ a ∈ l, f b a = b) → l.foldl f b = b := by
  intro l
  induction l with
  | nil => exact fun _ => rfl
  | cons a l ih => exact fun h => (congrArg (fun x => l.foldl f x) (h a List.mem_cons_self)).trans (ih fun c hc => h c (List.mem_cons_of_mem a hc))

/-- A request's transfer fails, if one is under way. -/
noncomputable def State.transferStopped (s : State) (i : Nat) : Option Desc → State
  | some d => (s.freeBelow (2 ^ 16)).2.resumeFailed i (s.freeBelow (2 ^ 16)).1 d
  | none => if (s.req i).st = .ember ∧ (s.req i).tier = .moving then (s.freeBelow (2 ^ 16)).2.moveFailed i (s.freeBelow (2 ^ 16)).1 else s

/-- With no transfer under way there is none to fail. -/
theorem State.failTransfers_idle (h : ∀ e ∈ s.reqs, (s.req e.1).resuming = none ∧ ((s.req e.1).st ≠ .ember ∨ (s.req e.1).tier ≠ .moving)) : s.failTransfers = s :=
  foldl_fixed_of_mem fun _ hi => (List.mem_map.mp hi).elim fun e he => he.2 ▸
    (congrArg (s.transferStopped e.1) (h e he.1).1).trans (if_neg fun hc => (h e he.1).2.elim (· hc.1) (· hc.2))

theorem State.reqs_abandon (cls : DetClass) (st : Code) (a : Nat) (l : List Nat) : (s.abandon cls st a l).reqs = s.reqs :=
  (State.abandon_kept rfl (Kept.refl 3436166930531 s)).only .reqs rfl

theorem State.req_congr {s t : State} (h : t.reqs = s.reqs) (i : Nat) : t.req i = s.req i := congrArg (fun x => Tab.get x i) h

/-- A step abandoned with no transfer under way keeps every request. -/
theorem State.reqs_failed (h : ∀ e ∈ s.reqs, (s.req e.1).resuming = none ∧ ((s.req e.1).st ≠ .ember ∨ (s.req e.1).tier ≠ .moving)) :
    s.reqs = (s.abandon .transport .OK 0 []).failTransfers.reqs :=
  (s.reqs_abandon .transport .OK 0 []).symm.trans (congrArg State.reqs (State.failTransfers_idle _ fun e he =>
    (State.req_congr (s.reqs_abandon .transport .OK 0 []) e.1).symm ▸ h e (s.reqs_abandon .transport .OK 0 [] ▸ he)).symm)

/-- The loss of an M-die takes every ACTIVE request out of admission. -/
theorem State.mdieLost_excludes (m : Nat) (h : ∀ e ∈ s.reqs, (s.req e.1).resuming = none ∧ ((s.req e.1).st ≠ .ember ∨ (s.req e.1).tier ≠ .moving))
    {e : Nat × Req} (he : e ∈ s.reqs) (hst : e.2.st = .active) : e.1 ∈ (s.mdieLost m).step.excluded :=
  List.mem_append_right _ (List.mem_map_of_mem (List.mem_filter.mpr ⟨s.reqs_failed h ▸ he, beq_iff_eq.mpr hst⟩))

end Down

/-! ### Release (R452) -/

section Release

variable (s : State) (p : Nat)

theorem State.coolEnough_iff : s.coolEnough p = true ↔ ∀ c ∈ partChans p, (s.hkChan c).reading < 1440 ∧ (s.hkChan c).broken = 0 :=
  List.all_eq_true.trans (forall₂_congr fun _ _ => Bool.and_eq_true_iff.trans (and_congr decide_eq_true_iff beq_iff_eq))

theorem State.clearShut_frame : Kept 549755813888 s (s.clearShut p) := State.clearShut_kept rfl (Kept.refl 549755813888 s)

theorem State.clearShut_one (hp : p < 80) : s.clearShut p = s.setHkChan p { s.hkChan p with shut := false } :=
  congrArg (fun l : List Nat => l.foldl (fun (s : State) (c : Nat) => s.setHkChan c { s.hkChan c with shut := false }) s) (if_pos hp : partChans p = [p])

theorem State.scanning_congr {s t : State} (h : t.det = s.det) : t.scanning = s.scanning :=
  congrArg (fun x : Detect => (List.range 8).find? fun d => (Tab.get x.scans d).st != 0) h

theorem State.resettable_congr {s t : State} (h : t.pos = s.pos) (d : Nat) : t.resettable d = s.resettable d :=
  congrArg (fun m => (List.range 9).filter fun p => (Position.resolved p (Tab.get m (d * 9 + p))).st != .retired && (Position.resolved p (Tab.get m (d * 9 + p))).st != .fusedOff) h

theorem State.releasePart_good (hp : p < 72) (hr : (s.partition p).retired = false) : s.releasePart p = (s.clearShut p).setPartition p {} :=
  (if_pos hp).trans (if_neg (ne_true_of_eq_false hr))

theorem State.releasePart_retired (hp : p < 72) (hr : (s.partition p).retired = true) : s.releasePart p = (s.clearShut p).releaseScan p :=
  (if_pos hp).trans (if_pos hr)

theorem State.releaseScan_waits (h : s.scanning ≠ none) : s.releaseScan p = s.setPartition p { releasing := true } :=
  if_pos (Option.isSome_iff_ne_none.mpr h)

theorem State.releaseScan_starts (h : s.scanning = none) : s.releaseScan p = (s.setPartition p {}).scanStart (p / 9) 0xF8 (p % 9) scanSpare none :=
  if_neg (ne_true_of_eq_false (congrArg Option.isSome h))

theorem State.releasePart_idle (hp : p < 72) (hr : (s.partition p).retired = true) (h : s.scanning = none) :
    s.releasePart p = ((s.clearShut p).setPartition p {}).scanStart (p / 9) 0xF8 (p % 9) scanSpare none :=
  (s.releasePart_retired p hp hr).trans (State.releaseScan_starts _ p ((State.scanning_congr ((s.clearShut_frame p).only .det rfl)).trans h))

theorem State.releasePart_busy (hp : p < 72) (hr : (s.partition p).retired = true) (h : s.scanning ≠ none) :
    s.releasePart p = (s.clearShut p).setPartition p { releasing := true } :=
  (s.releasePart_retired p hp hr).trans (State.releaseScan_waits _ p ((State.scanning_congr ((s.clearShut_frame p).only .det rfl)).trans_ne h))

/-- What the scan of a released position leaves. -/
theorem State.releaseScan_facts : ((((s.setPartition p {}).scanStart (p / 9) 0xF8 (p % 9) scanSpare none).partition p).down = false)
    ∧ (((s.setPartition p {}).scanStart (p / 9) 0xF8 (p % 9) scanSpare none).scan (p / 9)).st = 2
    ∧ (((s.setPartition p {}).scanStart (p / 9) 0xF8 (p % 9) scanSpare none).scan (p / 9)).mode = 3
    ∧ (((s.setPartition p {}).scanStart (p / 9) 0xF8 (p % 9) scanSpare none).scan (p / 9)).position = p % 9
    ∧ (((s.setPartition p {}).scanStart (p / 9) 0xF8 (p % 9) scanSpare none).position (p / 9) (p % 9)).underScan = true :=
  ⟨congrArg Partition.down ((State.partition_congr ((State.scanStart_kept rfl (Kept.refl 70643622346752 _)).only .hk rfl) p).trans (s.setPartition_same p {})),
    congrArg Scan.st (State.scan_scanStart _ _ _ _ _ _), congrArg Scan.mode (State.scan_scanStart _ _ _ _ _ _), congrArg Scan.position (State.scan_scanStart _ _ _ _ _ _),
    State.underScan_setPosition _ _ _ _⟩

/-- The reset of a compute die that is released. -/
noncomputable def State.releaseReset (s : State) (p : Nat) : Reset := { scope := 2, die := p - 72, positions := s.resettable (p - 72), release := true }

theorem State.releasePart_die (h72 : 72 ≤ p) (h80 : p < 80) : s.releasePart p =
    { (s.clearShut p).setPartition p { s.partition p with releasing := true } with
      fw := { (s.clearShut p).fw with resets := (s.clearShut p).fw.resets ++ [(s.clearShut p).releaseReset p] } } :=
  (if_neg (Nat.not_lt.mpr h72)).trans (if_pos h80)

theorem State.releasePart_mdie (h80 : 80 ≤ p) : s.releasePart p = ((s.clearShut p).setPartition p {}).mdieReturns (p - 80) :=
  (if_neg (Nat.not_lt.mpr (Nat.le_trans (by decide) h80))).trans (if_neg (Nat.not_lt.mpr h80))

/-- An M-die's return is reported last. -/
theorem State.mdieReturns_event (m : Nat) : ∃ w ∈ (s.mdieReturns m).ev.inFlight, w.code = .MDIE_CONTENT_LOST ∧ w.args = [m] :=
  State.mem_raise _ _ _ _

variable {s p}

/-- HK_PART_RELEASE of a partition. -/
noncomputable def State.partReleased (s : State) (v p : Nat) : State :=
  if !s.hk.powered ∨ !bitOf v 0 ∨ !(s.partition p).down ∨ (s.partition p).releasing then s
  else if s.coolEnough p then s.releasePart p else s.raise .RELEASE_REFUSED Src.x1 [p]

theorem exec_hkPartRelease_idle {v : Nat} (hp : p = bitsOf (s.reg (hkReg Reg.HK_PART_SEL)) 0 7)
    (h : s.hk.powered = false ∨ bitOf v 0 = false ∨ (s.partition p).down = false ∨ (s.partition p).releasing = true) : exec (.hkPartRelease v) s = .next s :=
  congrArg Host.Outcome.next ((congrArg (s.partReleased v) hp.symm).trans (if_pos (h.imp (congrArg Bool.not) (Or.imp (congrArg Bool.not) (Or.imp_left (congrArg Bool.not))))))

theorem exec_hkPartRelease {v : Nat} (hp : p = bitsOf (s.reg (hkReg Reg.HK_PART_SEL)) 0 7) (hpow : s.hk.powered = true) (hv : bitOf v 0 = true)
    (hd : (s.partition p).down = true) (hr : (s.partition p).releasing = false) :
    exec (.hkPartRelease v) s = .next (if s.coolEnough p then s.releasePart p else s.raise .RELEASE_REFUSED Src.x1 [p]) :=
  congrArg Host.Outcome.next ((congrArg (s.partReleased v) hp.symm).trans (if_neg (not_or.mpr ⟨ne_true_of_eq_false (congrArg Bool.not hpow),
    not_or.mpr ⟨ne_true_of_eq_false (congrArg Bool.not hv), not_or.mpr ⟨ne_true_of_eq_false (congrArg Bool.not hd), ne_true_of_eq_false hr⟩⟩⟩)))

/-- One of two conditions fails when what excludes one of them holds. -/
theorem not_and_of_or {a b p q : Prop} (h : a ∨ b) (ha : a → ¬ p) (hb : b → ¬ q) : ¬ (p ∧ q) := fun hc => h.elim (ha · hc.1) (hb · hc.2)

theorem exec_autoRelease_holds (h : s.hk.powered = false ∨ s.autoRelease = false ∨ (s.partition p).down = false ∨ (s.partition p).releasing = true
    ∨ (s.partition p).ready = false ∨ s.coolEnough p = false ∨ s.time.tick < (s.partition p).since + s.releaseHold * tickSecond) : exec (.autoRelease p) s = .next s :=
  congrArg Host.Outcome.next (if_neg (not_and_of_or h ne_true_of_eq_false fun h => not_and_of_or h ne_true_of_eq_false fun h => not_and_of_or h ne_true_of_eq_false fun h =>
    not_and_of_or h (fun h => ne_true_of_eq_false (congrArg Bool.not h)) fun h => not_and_of_or h ne_true_of_eq_false fun h => not_and_of_or h ne_true_of_eq_false Nat.not_le.mpr))

theorem exec_autoRelease (hpow : s.hk.powered = true) (hauto : s.autoRelease = true) (hdown : (s.partition p).down = true) (hrel : (s.partition p).releasing = false)
    (hready : (s.partition p).ready = true) (hcool : s.coolEnough p = true) (htime : (s.partition p).since + s.releaseHold * tickSecond ≤ s.time.tick) :
    exec (.autoRelease p) s = .next (s.releasePart p) :=
  congrArg Host.Outcome.next (if_pos ⟨hpow, hauto, hdown, congrArg Bool.not hrel, hready, hcool, htime⟩)

end Release

/-- Settles O60: trips by their cause, a shutdown by the phase and the partition, and a release by its condition and the partition. -/
theorem powerAndPartitions : Obligations.PowerAndPartitions := by
  refine ⟨fun s c k hc => ⟨fun h => (exec_trip s k hc).trans (congrArg Host.Outcome.next (s.regulatorTrip_unpowered k h)),
      fun h => (exec_trip s k hc).trans (congrArg Host.Outcome.next (s.regulatorTrip_powered k h))⟩,
    ?off, fun y => ⟨rfl, rfl, rfl, Bank.kept_of_ne, Bank.kept_programming⟩,
    fun s o => ⟨fun h => ⟨exec_inputOutOfRange_unpowered h, exec_currentLimit_unpowered h⟩, fun h =>
      ⟨⟨_, exec_inputOutOfRange h, State.inputSeen_range, State.inputSeen_quiet, State.inputSeen_raises⟩, _, exec_currentLimit h, rfl, rfl, rfl⟩⟩,
    fun s => ⟨exec_moduleShutdownTrip_idle, fun k r h ha hk => exec_moduleShutdownTrip h ha hk⟩,
    fun s c k => ⟨fun h => State.moduleShutdown_armed h c k, fun h => ⟨_, State.moduleShutdown_records h c k, rfl, ⟨_, rfl, rfl⟩, State.raise_event _ _ _ _⟩⟩,
    fun s p c => ⟨s.partitionShutdown_once p c, fun h => s.partitionShutdown_eq p c h ▸ State.mem_raise _ _ _ _,
      fun h hph => ⟨s.partitionShutdown_down p c h (if_pos hph) rfl, s.partitionShutdown_step p c h (u := s.partOff p) (if_pos hph)⟩,
      fun h hph hp => s.partitionShutdown_down p c h ((if_neg (Nat.not_lt.mpr hph)).trans (State.partDown_mdie _ p hp)) (State.hk_mdieLost _ _)⟩,
    fun s m h e he hst => s.mdieLost_excludes m h he hst, fun s p => s.coolEnough_iff p,
    fun s v p hp => ⟨exec_hkPartRelease_idle hp, fun hpow hv hd hr => ⟨fun hc => (exec_hkPartRelease hp hpow hv hd hr).trans (congrArg Host.Outcome.next (if_pos hc)),
      fun hc => (s.raise_event .RELEASE_REFUSED Src.x1 [p]).elim fun w hw => ⟨_, w, (exec_hkPartRelease hp hpow hv hd hr).trans
        (congrArg Host.Outcome.next (if_neg (ne_true_of_eq_false hc))), rfl, hw⟩⟩⟩,
    fun s p => ⟨exec_autoRelease_holds, exec_autoRelease⟩, ?part⟩
  case off =>
    intro s k u
    exact ⟨rfl, rfl, rfl, rfl, rfl, rfl, rfl, rfl, rfl, rfl, rfl, rfl, rfl, rfl, rfl, rfl, rfl, rfl, rfl, rfl, s.run_powerOff k, s.port_powerOff k, s.slot_powerOff k⟩
  case part =>
    intro s p x u
    refine ⟨fun hp hr => ?good, fun hp hr hidle => ?idle, fun hp hr hbusy => ?busy, fun h72 h80 => ?die, fun h80 _ => ?mdie⟩
    case good =>
      rw [show u = _ from s.releasePart_good p hp hr]
      exact ⟨congrArg Partition.down (State.setPartition_same _ p {}), (congrArg (fun v : State => (v.hkChan p).shut) (s.clearShut_one p (Nat.lt_trans hp (by decide)))).trans
        (congrArg HkChan.shut ((s.hkChan_setHkChan p _ p).trans (if_pos rfl)))⟩
    case idle =>
      rw [show u = _ from s.releasePart_idle p hp hr hidle]
      exact State.releaseScan_facts _ p
    case busy =>
      rw [show u = _ from s.releasePart_busy p hp hr hbusy]
      exact ⟨congrArg Partition.releasing (State.setPartition_same _ p _), (s.clearShut_frame p).only .det rfl⟩
    case die =>
      rw [show u = _ from s.releasePart_die p h72 h80]
      exact ⟨congrArg Partition.releasing (State.setPartition_same _ p _), (s.clearShut p).releaseReset p,
        congrArg (fun f : Fw => f.resets ++ _) ((s.clearShut_frame p).only .fw rfl), rfl, rfl, State.resettable_congr ((s.clearShut_frame p).only .pos rfl) _, rfl⟩
    case mdie =>
      rw [show u = _ from s.releasePart_mdie p h80]
      exact State.mdieReturns_event _ _

end Sys2Proof.Machine
end

section
/-! PROOFS of the family 15_power_thermal_housekeeping: conversions, diagnosis, levels, the round's end and the Damper (R438 to R449). -/

namespace Sys2Proof.Machine

/-! ### What follows from a reading loses no event and leaves a diagnosis's result (R446, R450) -/

/-- The result of a diagnosis. -/
noncomputable def Hk.shown (x : Hk) : Nat × Nat × Bool × Bool := (x.tdacChan, x.tdacRaw, x.tdacDone, x.tdacPass)

/-- From `s` to `t` no event is lost, and the result of the last diagnosis stands. -/
structure State.Attends (s t : State) : Prop where
  events : s.Reports t
  shown : t.hk.shown = s.hk.shown

section Attends

theorem State.Attends.refl (s : State) : s.Attends s := ⟨.refl s, rfl⟩

theorem State.Attends.trans {s t u : State} (h : s.Attends t) (k : t.Attends u) : s.Attends u := ⟨h.events.trans k.events, k.shown.trans h.shown⟩

theorem State.Attends.of_same {s t : State} (hev : t.ev = s.ev) (hhk : t.hk.shown = s.hk.shown) : s.Attends t := ⟨.of_ev hev, hhk⟩

theorem Kept.attends {W : Nat} {s t : State} (h : Kept W s t) (hev : W.testBit Zone.ev.bit = false) (hhk : W.testBit Zone.hk.bit = false) : s.Attends t :=
  ⟨h.reports hev, congrArg Hk.shown (h.only .hk hhk)⟩

theorem State.Attends.ite {s t u : State} {c : Prop} [Decidable c] (h : s.Attends t) (k : s.Attends u) : s.Attends (if c then t else u) :=
  iteInduction (motive := s.Attends) (fun _ => h) fun _ => k

theorem State.attends_foldl {α : Type} {f : State → α → State} (hf : ∀ (s : State) x, s.Attends (f s x)) (l : List α) (s : State) : s.Attends (l.foldl f s) := by
  induction l generalizing s with
  | nil => exact .refl s
  | cons x l ih => exact (hf s x).trans (ih (f s x))

variable (s : State)

theorem State.attends_raise (k : Code) (x : Src) (l : List Nat) (c : Code) : s.Attends (s.raise k x l c) := ⟨s.reports_raise k x l c, rfl⟩
theorem State.attends_bump (a n : Nat) : s.Attends (s.bump a n) := ⟨s.reports_bump a n, rfl⟩
theorem State.attends_finish (d : Desc) (c : Code) (a b : Nat) : s.Attends (s.finish d c a b) := .of_same (s.finish_ev d c a b _ _) (by rw [State.finish_hk])
theorem State.attends_setPartition (p : Nat) (x : Partition) : s.Attends (s.setPartition p x) := .of_same rfl rfl

theorem State.attends_setPosition (d p : Nat) (x : Position) : s.Attends (s.setPosition d p x) := (State.setPosition_frame s d p x).attends rfl rfl

theorem State.attends_dropStep : s.Attends s.dropStep :=
  ⟨s.spares_dropStep.events, congrArg Hk.shown ((State.dropStep_kept rfl (Kept.refl 3298727977059 s)).only .hk rfl)⟩

theorem State.attends_abandon (cls : DetClass) (c : Code) (a : Nat) (l : List Nat) : s.Attends (s.abandon cls c a l) :=
  ⟨(s.spares_abandon cls c a l).events, congrArg Hk.shown ((State.abandon_kept rfl (Kept.refl 3436166930531 s)).only .hk rfl)⟩

theorem State.attends_ashAdd (x : AshEntry) : s.Attends (s.ashAdd x) :=
  ⟨s.reports_ashAdd x, congrArg Hk.shown ((State.ashAdd_kept rfl (Kept.refl 1073741921 s)).only .hk rfl)⟩

theorem State.attends_retire (d p : Nat) : s.Attends (s.retire d p) := (State.retire_kept rfl (Kept.refl 70368750731264 s)).attends rfl rfl

/-! ### A position that goes down -/

/-- The scan of a die is over; the spare that it prepared and the position under it are free. -/
noncomputable def State.scanFreed (s : State) (d : Nat) : State :=
  (List.range 9).foldl (fun u p =>
    let y := u.position d p
    if y.st = .programming ∧ y.logical = 15 then u.setPosition d p { y with st := .spare }
    else if p = (s.scan d).position then u.setPosition d p { y with underScan := false, covered := false } else u)
    (s.setScan d { lastTick := (s.scan d).lastTick, lastResult := (s.scan d).lastResult })

/-- The descriptor of a scan that stops completes. -/
noncomputable def State.scanEnds (s : State) (x : Option Desc) : State :=
  match x with
  | some e => s.finish e .OK 1 s.time.tick
  | none => s

theorem State.attends_scanEnds (x : Option Desc) : s.Attends (s.scanEnds x) := by
  cases x with
  | none => exact .refl s
  | some e => exact s.attends_finish _ _ _ _

theorem State.attends_scanFreed (d : Nat) : s.Attends (s.scanFreed d) :=
  .trans (t := s.setScan d { lastTick := (s.scan d).lastTick, lastResult := (s.scan d).lastResult }) (.of_same rfl rfl)
    (State.attends_foldl (fun u _ => .ite (u.attends_setPosition _ _ _) (.ite (u.attends_setPosition _ _ _) (.refl u))) _ _)

theorem State.attends_setParts (t : Tab Partition) : s.Attends { s with hk := { s.hk with parts := t } } := .of_same rfl rfl

/-- The end of a scan's halt: a RETIRED position waits for its release. -/
theorem State.attends_scanTail {t : State} (h : s.Attends t) (c : Prop) [Decidable c] (n : Nat) (x : Option Desc) :
    s.Attends ((if c then { t with hk := { t.hk with parts := Tab.set t.hk.parts n { releasing := true } } } else t).scanEnds x) :=
  .trans (.ite (h.trans (t.attends_setParts _)) h) (State.attends_scanEnds _ x)

theorem State.attends_scanHalt (d : Nat) : s.Attends (s.scanHalt d) := by
  refine .ite (.refl s) ?_
  generalize hfold : List.foldl _ _ _ = t
  exact s.attends_scanTail (hfold ▸ s.attends_scanFreed d) _ _ _

theorem State.attends_scanStop (d p : Nat) : s.Attends (s.scanStop d p) := .ite (s.attends_scanHalt d) (.refl s)

theorem State.attends_pauseDie (d : Nat) : s.Attends (s.pauseDie d) := ⟨List.prefix_append _ _, rfl⟩

/-- The loss of a cluster to a cause goes into the Ash list. -/
noncomputable def State.lossNoted (s : State) (d p : Nat) (cause : Option Nat) : State := match cause with | some c => s.ashAdd (ashCluster d p c) | none => s

/-- A lost cluster waits for its die's spare, or the die covers it, or the die's capacity is lost. -/
noncomputable def State.lossPlaced (s : State) (g p : Nat) : State :=
  if (s.spareOf (g / 9)).isSome ∧ !(s.det.lost.any (fun (x : Nat × Nat) => x.1 / 9 == g / 9)) then { s with det := { s.det with lost := s.det.lost ++ [(g, p)] } }
  else if s.det.unplaced.any (fun x => x / 9 == g / 9) then s.pauseDie (g / 9)
  else { s with det := { s.det with unplaced := s.det.unplaced ++ [g] } }.raise .CLUSTER_COVERED Src.steward [g / 9, g % 9]

/-- The cluster at position `x` is lost, if it has one. -/
noncomputable def State.clusterLost (s : State) (g : Nat) (cause : Option Nat) (x : Option Nat) : State :=
  match x with
  | none => s
  | some p => ((((s.abandon .transport .OK 0 []).scanHalt (g / 9)).retire (g / 9) p).lossNoted (g / 9) p cause).lossPlaced g p

theorem State.attends_lossNoted (d p : Nat) (cause : Option Nat) : s.Attends (s.lossNoted d p cause) := by
  cases cause with
  | none => exact .refl s
  | some c => exact s.attends_ashAdd _

theorem State.attends_lossPlaced (g p : Nat) : s.Attends (s.lossPlaced g p) :=
  .ite (.of_same rfl rfl) (.ite (s.attends_pauseDie _) ⟨List.prefix_append _ _, rfl⟩)

theorem State.attends_clusterLost (g : Nat) (cause x : Option Nat) : s.Attends (s.clusterLost g cause x) := by
  cases x with
  | none => exact .refl s
  | some p =>
    exact (s.attends_abandon _ _ _ _).trans ((State.attends_scanHalt _ _).trans ((State.attends_retire _ _ _).trans
      ((State.attends_lossNoted _ _ _ _).trans (State.attends_lossPlaced _ _ _))))

theorem State.attends_loseCluster (g : Nat) (cause : Option Nat) : s.Attends (s.loseCluster g cause) := s.attends_clusterLost g cause (s.posOf (g / 9) (g % 9))

theorem State.attends_losePosition (d p : Nat) (cause : Option Nat) : s.Attends (s.losePosition d p cause) := by
  have freed : s.Attends (s.setReceiver (9 * d + p) {}) := .of_same rfl rfl
  refine .ite (freed.trans (State.attends_loseCluster _ _ _)) ?_
  cases cause with
  | none => exact freed.trans (State.attends_retire _ _ _)
  | some c => exact freed.trans ((State.attends_retire _ _ _).trans (State.attends_ashAdd _ _))

theorem State.attends_resetStatus (r : Reset) (st : Nat) : s.Attends (s.resetStatus r st) := .ite (.refl s) (.of_same rfl rfl)

/-- The descriptor of a reset completes. -/
noncomputable def State.resetCompletes (s : State) (r : Reset) (ok : Bool) : State :=
  match r.desc with
  | some d => s.finish d .OK (b2n (!ok)) s.time.tick
  | none => s

theorem State.resetCompletes_frame (r : Reset) (ok : Bool) :
    (s.resetCompletes r ok).fw = s.fw ∧ (s.resetCompletes r ok).ev = s.ev ∧ (s.resetCompletes r ok).hk = s.hk := by
  unfold State.resetCompletes
  cases r.desc with
  | none => exact ⟨rfl, rfl, rfl⟩
  | some d => exact ⟨State.finish_fw _ _ _ _ _ _ _, State.finish_ev _ _ _ _ _ _ _, State.finish_hk _ _ _ _ _ _ _⟩

theorem State.attends_resetCompletes (r : Reset) (ok : Bool) : s.Attends (s.resetCompletes r ok) :=
  .of_same (s.resetCompletes_frame r ok).2.1 (congrArg Hk.shown (s.resetCompletes_frame r ok).2.2)

theorem State.attends_resetEnd (r : Reset) (ok : Bool) : s.Attends (s.resetEnd r ok) := by
  have gone : s.Attends { s with fw := { s.fw with resets := s.fw.resets.erase r } } := .of_same rfl rfl
  refine .ite gone (.trans ?_ (State.attends_resetCompletes _ r ok))
  exact gone.trans ((State.attends_resetStatus _ _ _).trans ((State.attends_bump _ _ _).trans (State.attends_raise _ _ _ _ _)))

theorem State.attends_resets (l : List Reset) : s.Attends { s with fw := { s.fw with resets := l } } := .of_same rfl rfl

theorem State.attends_leaveReset (r : Reset) (p : Nat) : s.Attends (s.leaveReset r p) :=
  .ite ((s.attends_resets _).trans (State.attends_resetEnd _ _ _)) (s.attends_resets _)

theorem State.attends_takeOver : s.Attends s.takeOver :=
  .trans (t := if s.step.running && !s.step.committed then s.dropStep else s) (.ite s.attends_dropStep (.refl s)) ⟨List.prefix_append _ _, rfl⟩

theorem State.attends_stewardFails : s.Attends s.stewardFails := s.attends_takeOver.trans (.of_same rfl rfl)

theorem State.attends_skipRun (g : Nat) : s.Attends (s.skipRun g) := (State.skipRun_kept rfl (Kept.refl 268435456 s)).attends rfl rfl

/-- What stops with a position: its scan, the step and its reset. -/
noncomputable def State.positionStops (s : State) (d p : Nat) : State :=
  (((s.scanStop d p).abandon .transport .OK 0 []).skipRun (clusterKey d (s.position d p).logical))

/-- A position is lost, and leaves the reset that it is in. -/
noncomputable def State.positionLost (s : State) (d p : Nat) (x : Option Reset) : State :=
  match x with
  | some r => (s.losePosition d p none).leaveReset r p
  | none => s.losePosition d p none

theorem State.attends_positionLost (d p : Nat) (x : Option Reset) : s.Attends (s.positionLost d p x) := by
  cases x with
  | none => exact s.attends_losePosition d p none
  | some r => exact (s.attends_losePosition d p none).trans (State.attends_leaveReset _ r p)

theorem State.attends_positionStops (d p : Nat) : s.Attends (s.positionStops d p) :=
  (s.attends_scanStop d p).trans ((State.attends_abandon _ _ _ _ _).trans (State.attends_skipRun _ _))

theorem State.attends_positionDown (d p : Nat) : s.Attends (s.positionDown d p) :=
  have lost := (s.attends_positionStops d p).trans (State.attends_positionLost _ d p ((s.positionStops d p).resetOf d p))
  .ite (lost.trans (State.attends_stewardFails _)) lost

theorem State.attends_setCal (d : Nat) (c : DieCal) : s.Attends (s.setCal d c) := .of_same rfl rfl

theorem State.attends_computeDown (d : Nat) : s.Attends (s.computeDown d) := by
  have paused : s.Attends ((s.abandon .transport .OK 0 []).pauseDie d).replan :=
    (s.attends_abandon _ _ _ _).trans ((State.attends_pauseDie _ _).trans ((State.replan_kept rfl (Kept.refl 70368744177664 _)).attends rfl rfl))
  exact .ite (paused.trans ((State.attends_setCal _ _ _).trans (State.attends_stewardFails _))) (paused.trans (State.attends_setCal _ _ _))

/-! ### A memory-side die that goes down -/

theorem State.attends_requestEvent (i : Nat) (c : Code) (a b : Nat) : s.Attends (s.requestEvent i c a b) :=
  .trans ((State.complete_kept rfl (Kept.refl 1664 s)).attends rfl rfl) (State.attends_raise _ _ _ _ _)

theorem State.attends_setReq (i : Nat) (x : Req) : s.Attends (s.setReq i x) := .of_same rfl rfl

theorem State.attends_expire (i : Nat) : s.Attends (s.expire i) := by
  have freed : s.Attends ((s.unpin i).releaseExtent i) :=
    .trans ((State.unpin_kept rfl (Kept.refl 25769803776 s)).attends rfl rfl) ((State.releaseExtent_kept rfl (Kept.refl 8589934592 _)).attends rfl rfl)
  exact freed.trans ((State.attends_setReq _ _ _).trans ((State.attends_requestEvent _ _ _ _ _).trans (State.attends_bump _ _ _)))

theorem State.attends_resumeFailed (i a : Nat) (d : Desc) : s.Attends (s.resumeFailed i a d) := by
  have failed : s.Attends ((((s.stopResume i).requestEvent i .RESUME_FAILED a s.time.tick).bump (memReg (reqMdie i) Reg.RESUME_FAIL_TOTAL) 1).finish d .RESUME_FAILED a 0) :=
    .trans ((State.stopResume_kept rfl (Kept.refl 111669151746 s)).attends rfl rfl)
      ((State.attends_requestEvent _ _ _ _ _).trans ((State.attends_bump _ _ _).trans (State.attends_finish _ _ _ _ _)))
  exact .ite (failed.trans (State.attends_expire _ _)) failed

theorem State.attends_moveFailed (i st : Nat) : s.Attends (s.moveFailed i st) :=
  .trans ((State.stopMove_kept rfl (Kept.refl 42949672960 s)).attends rfl rfl) (State.attends_raise _ _ _ _ _)

/-- The transfer of request `i` fails, with `v` the number drawn. -/
noncomputable def State.transferFailed (s : State) (i : Nat) (v : Nat × State) (x : Option Desc) : State :=
  match x with
  | some d => v.2.resumeFailed i v.1 d
  | none => if (s.req i).st = .ember ∧ (s.req i).tier = .moving then v.2.moveFailed i v.1 else s

theorem State.attends_transferFailed (i : Nat) {v : Nat × State} (h : s.Attends v.2) (x : Option Desc) : s.Attends (s.transferFailed i v x) := by
  cases x with
  | none => exact .ite (h.trans (State.attends_moveFailed _ _ _)) (.refl s)
  | some d => exact h.trans (v.2.attends_resumeFailed i v.1 d)

theorem State.attends_freeBelow (n : Nat) : s.Attends (s.freeBelow n).2 :=
  (State.freeBelow_kept rfl (Kept.refl 1 s)).attends rfl rfl

theorem State.attends_failTransfers : s.Attends s.failTransfers :=
  State.attends_foldl (fun t i => t.attends_transferFailed i (t.attends_freeBelow _) (t.req i).resuming) _ _

theorem State.attends_mdieLost (m : Nat) : s.Attends (s.mdieLost m) :=
  (s.attends_abandon _ _ _ _).trans ((State.attends_failTransfers _).trans (.of_same rfl rfl))

/-! ### A reading that is acted on (R448, R450, R451) -/

theorem State.attends_partDown (p : Nat) : s.Attends (s.partDown p) :=
  .ite (s.attends_positionDown _ _) (.ite (s.attends_computeDown _) (s.attends_mdieLost _))

theorem State.attends_partitionShutdown (p c : Nat) : s.Attends (s.partitionShutdown p c) := by
  refine .ite (.refl s) (.trans ?_ (State.attends_raise _ _ _ _ _))
  exact .ite (s.attends_setPartition _ _) ((s.attends_setPartition _ _).trans (State.attends_partDown _ _))

theorem State.attends_moduleShutdown (c k : Nat) : s.Attends (s.moduleShutdown c k) := .ite (.refl s) ⟨List.prefix_append _ _, rfl⟩

theorem State.attends_warnLevel (c : Nat) (v : Int) : s.Attends (s.warnLevel c v) :=
  .ite ⟨List.prefix_append _ _, rfl⟩ (.ite ⟨List.prefix_append _ _, rfl⟩ (.refl s))

theorem State.attends_throttleLevel (c : Nat) (v : Int) : s.Attends (s.throttleLevel c v) := .ite (.of_same rfl rfl) (.ite (.of_same rfl rfl) (.refl s))

theorem State.attends_shutLevel (c : Nat) (v : Int) : s.Attends (s.shutLevel c v) :=
  have set : s.Attends ((s.setHkChan c { s.hkChan c with shut := true }).bump (hkReg Reg.THERM_SHUTDOWN_TOTAL) 1) := .of_same rfl rfl
  .ite (.ite (set.trans (State.attends_moduleShutdown _ _ _)) (set.trans (State.attends_partitionShutdown _ _ _))) (.refl s)

theorem State.attends_watchRelease (p : Nat) : s.Attends (s.watchRelease p) := .ite (.refl s) (s.attends_setPartition _ _)

theorem State.attends_hkAct (c : Nat) : s.Attends (s.hkAct c) :=
  .ite ((s.attends_warnLevel _ _).trans ((State.attends_throttleLevel _ _ _).trans ((State.attends_shutLevel _ _ _).trans (State.attends_watchRelease _ _)))) (.refl s)

end Attends

section Housekeeping
variable (s : State)

/-! ### Levels (R448, Table 15-6) -/

theorem State.hkChan_set (c : Nat) (x : HkChan) : (s.setHkChan c x).hkChan c = x := (s.hkChan_setHkChan c x c).trans (if_pos rfl)

theorem State.hkChan_set_other {c e : Nat} (x : HkChan) (h : e ≠ c) : (s.setHkChan c x).hkChan e = s.hkChan e := (s.hkChan_setHkChan c x e).trans (if_neg h)

theorem State.watchRelease_chans (p : Nat) : (s.watchRelease p).hk.chans = s.hk.chans :=
  iteInduction (motive := fun u : State => u.hk.chans = s.hk.chans) (fun _ => rfl) fun _ => rfl

theorem State.hkAct_of_untemp {c : Nat} (h : hkTemp c = false) : s.hkAct c = s := if_neg (Bool.eq_false_iff.mp h)

/-! A flag with a level that sets it and a lower one that clears it. -/

section Level
variable {α : Type} {b : Bool} {lo hi v : Int} {x y z : α}

theorem level_clears (h : b = true) (hv : v < lo) : (if !b ∧ hi ≤ v then x else if b ∧ v < lo then y else z) = y := by
  cases h
  exact (if_neg fun h => Bool.false_ne_true h.1).trans (if_pos ⟨rfl, hv⟩)

theorem level_stays (h : b = false ∧ v < hi ∨ b = true ∧ lo ≤ v) : (if !b ∧ hi ≤ v then x else if b ∧ v < lo then y else z) = z := by
  obtain ⟨rfl, hv⟩ | ⟨rfl, hv⟩ := h
  · exact (if_neg fun h => Int.not_le.mpr hv h.2).trans (if_neg fun h => Bool.false_ne_true h.1)
  · exact (if_neg fun h => Bool.false_ne_true h.1).trans (if_neg fun h => Int.not_lt.mpr hv h.2)

end Level

theorem State.warnLevel_sets {c : Nat} {v : Int} (h : (s.hkChan c).warn = false) (hv : 1520 ≤ v) : s.warnLevel c v =
    ((s.setHkChan c { s.hkChan c with warn := true }).bump (hkReg Reg.THERM_WARN_TOTAL) 1).raise .THERMAL_WARNING Src.x1 [c, encodeInt 16 v] :=
  if_pos ⟨by rw [h]; rfl, hv⟩

theorem State.warnLevel_clears {c : Nat} {v : Int} (h : (s.hkChan c).warn = true) (hv : v < 1472) : s.warnLevel c v =
    (s.setHkChan c { s.hkChan c with warn := false }).raise .THERMAL_NORMAL Src.x1 [c, encodeInt 16 v] := level_clears h hv

theorem State.warnLevel_stays {c : Nat} {v : Int} (h : (s.hkChan c).warn = false ∧ v < 1520 ∨ (s.hkChan c).warn = true ∧ 1472 ≤ v) : s.warnLevel c v = s := level_stays h

theorem State.throttleLevel_sets {c : Nat} {v : Int} (h : (s.hkChan c).throttle = false) (hv : 1632 ≤ v) : s.throttleLevel c v =
    (s.setHkChan c { s.hkChan c with throttle := true }).bump (hkReg Reg.THERM_THROTTLE_TOTAL) 1 :=
  if_pos ⟨by rw [h]; rfl, hv⟩

theorem State.throttleLevel_clears {c : Nat} {v : Int} (h : (s.hkChan c).throttle = true) (hv : v < 1568) : s.throttleLevel c v =
    s.setHkChan c { s.hkChan c with throttle := false } := level_clears h hv

theorem State.throttleLevel_stays {c : Nat} {v : Int} (h : (s.hkChan c).throttle = false ∧ v < 1632 ∨ (s.hkChan c).throttle = true ∧ 1568 ≤ v) :
    s.throttleLevel c v = s := level_stays h

theorem State.shutLevel_stays {c : Nat} {v : Int} (h : (s.hkChan c).shut = true ∨ v < 1760) : s.shutLevel c v = s :=
  if_neg fun ⟨unset, hot⟩ => h.elim (fun h => by rw [h] at unset; exact Bool.false_ne_true unset) fun h => Int.not_le.mpr h hot

/-- The shutdown level of a channel is set and counted. -/
noncomputable def State.shutSet (s : State) (c : Nat) : State := (s.setHkChan c { s.hkChan c with shut := true }).bump (hkReg Reg.THERM_SHUTDOWN_TOTAL) 1

theorem State.shutLevel_sets {c : Nat} {v : Int} (h : (s.hkChan c).shut = false) (hv : 1760 ≤ v) : s.shutLevel c v =
    if hkPart c = 84 then (s.shutSet c).moduleShutdown c (if (s.hkChan c).broken ≠ 0 then 6 else 5) else (s.shutSet c).partitionShutdown (hkPart c) c :=
  if_pos ⟨by rw [h]; rfl, hv⟩

/-! ### A channel that breaks (R447) -/

/-- From `s` to `t` the channel's reading and the partition of its die stand. -/
noncomputable def State.SameReading (s : State) (c : Nat) (t : State) : Prop := (t.hkChan c).reading = (s.hkChan c).reading ∧ t.partition (hkPart c) = s.partition (hkPart c)

theorem State.sameReading_set {c : Nat} {x : HkChan} (h : x.reading = (s.hkChan c).reading) : s.SameReading c (s.setHkChan c x) :=
  ⟨(congrArg HkChan.reading (s.hkChan_set c x)).trans h, rfl⟩

theorem State.sameReading_warnLevel (c : Nat) (v : Int) : s.SameReading c (s.warnLevel c v) :=
  iteInduction (motive := s.SameReading c) (fun _ => s.sameReading_set (x := { s.hkChan c with warn := true }) rfl) fun _ =>
    iteInduction (motive := s.SameReading c) (fun _ => s.sameReading_set (x := { s.hkChan c with warn := false }) rfl) fun _ => ⟨rfl, rfl⟩

theorem State.sameReading_throttleLevel (c : Nat) (v : Int) : s.SameReading c (s.throttleLevel c v) :=
  iteInduction (motive := s.SameReading c) (fun _ => s.sameReading_set (x := { s.hkChan c with throttle := true }) rfl) fun _ =>
    iteInduction (motive := s.SameReading c) (fun _ => s.sameReading_set (x := { s.hkChan c with throttle := false }) rfl) fun _ => ⟨rfl, rfl⟩

/-- On a partition that is down already, a reading at the shutdown level sets it and has no further effect. -/
theorem State.shutLevel_of_down {c : Nat} {v : Int} (hp : hkPart c ≠ 84) (hd : (s.partition (hkPart c)).down = true) (hv : 1760 ≤ v) :
    ((s.shutLevel c v).hkChan c).shut = true ∧ ((s.shutLevel c v).hkChan c).reading = (s.hkChan c).reading := by
  cases h : (s.hkChan c).shut with
  | true => rw [s.shutLevel_stays (.inl h)]; exact ⟨h, rfl⟩
  | false =>
    have down : ((s.shutSet c).partition (hkPart c)).down = true := hd
    have set : (s.shutLevel c v).hkChan c = { s.hkChan c with shut := true } := by
      rw [s.shutLevel_sets h hv, if_neg hp, State.partitionShutdown_once _ _ _ down]
      exact s.hkChan_set c _
    exact ⟨congrArg HkChan.shut set, (congrArg HkChan.reading set).trans rfl⟩

theorem State.hkAct_of_down {c : Nat} (ht : hkTemp c = true) (hp : hkPart c ≠ 84) (hd : (s.partition (hkPart c)).down = true) (hv : 1760 ≤ (s.hkChan c).reading) :
    ((s.hkAct c).hkChan c).shut = true ∧ ((s.hkAct c).hkChan c).reading = (s.hkChan c).reading := by
  obtain ⟨wr, wp⟩ := s.sameReading_warnLevel c (s.hkChan c).reading
  obtain ⟨tr, tp⟩ := (s.warnLevel c (s.hkChan c).reading).sameReading_throttleLevel c (s.hkChan c).reading
  have shut := State.shutLevel_of_down ((s.warnLevel c (s.hkChan c).reading).throttleLevel c (s.hkChan c).reading) hp (by rw [tp, wp]; exact hd) hv
  have act : (s.hkAct c).hkChan c = ((((s.warnLevel c (s.hkChan c).reading).throttleLevel c (s.hkChan c).reading).shutLevel c (s.hkChan c).reading).hkChan c) := by
    rw [State.hkAct, if_pos ht]
    exact congrArg (Tab.get · c) (State.watchRelease_chans _ _)
  rw [act]
  exact ⟨shut.1, shut.2.trans (tr.trans wr)⟩

/-- What a channel that breaks holds. -/
noncomputable def HkChan.brokenAs (x : HkChan) (c cause : Nat) : HkChan :=
  { x with broken := cause, diagOk := false, valid := [], reading := if hkTemp c then hkForced else x.reading
           history := if hkTemp c then (hkForced :: x.history).take 3 else x.history }

/-- A channel that breaks, before its forced reading is acted on. -/
noncomputable def State.broke (s : State) (c : Nat) (x : HkChan) (cause : Nat) : State :=
  let t := ((s.setHkChan c (x.brokenAs c cause)).bump (hkReg Reg.HK_BROKEN_TOTAL) 1).raise .SENSOR_BROKEN Src.x1 [c, cause]
  { t with hk := { t.hk with diag := t.hk.diag ++ [(t.hk.rounds + 1, c, 256), (t.hk.rounds + 2, c, 768)] } }

theorem State.hkBreak_eq (c : Nat) (x : HkChan) (cause : Nat) : s.hkBreak c x cause = (s.broke c x cause).hkAct c := rfl

theorem State.broke_hkChan (c : Nat) (x : HkChan) (cause : Nat) : (s.broke c x cause).hkChan c = x.brokenAs c cause :=
  (s.hkChan_setHkChan c _ c).trans (if_pos rfl)

theorem State.broke_reg (c : Nat) (x : HkChan) (cause : Nat) :
    (s.broke c x cause).reg (hkReg Reg.HK_BROKEN_TOTAL) = min (2 ^ 64 - 1) (s.reg (hkReg Reg.HK_BROKEN_TOTAL) + 1) :=
  ((s.setHkChan c (x.brokenAs c cause)).reg_bump _ 1 _).trans (if_pos rfl)

theorem State.broke_event (c : Nat) (x : HkChan) (cause : Nat) :
    ∃ w, (s.broke c x cause).ev.inFlight = s.ev.inFlight ++ [w] ∧ w.code = .SENSOR_BROKEN ∧ w.args = [c, cause] :=
  ((s.setHkChan c (x.brokenAs c cause)).bump (hkReg Reg.HK_BROKEN_TOTAL) 1).raise_event .SENSOR_BROKEN Src.x1 [c, cause]

theorem State.hkBreak_of_down (c : Nat) (x : HkChan) (k : Nat) (ht : hkTemp c = true) (hp : hkPart c < 84) (hd : (s.partition (hkPart c)).down = true) :
    ((s.hkBreak c x k).hkChan c).reading = 0x6E0 ∧ ((s.hkBreak c x k).hkChan c).shut = true := by
  have forced : ((s.broke c x k).hkChan c).reading = hkForced := by rw [State.broke_hkChan]; exact if_pos ht
  have act := (s.broke c x k).hkAct_of_down ht (fun h => absurd (h ▸ hp) (by decide)) hd (by rw [forced])
  exact ⟨act.2.trans forced, act.1⟩

/-! ### A conversion (R442, R446, R447) -/

theorem State.sysTake_of_idle (c raw : Nat) (h : s.hk.sys.running = false) : s.sysTake c raw = s :=
  if_pos (.inl (congrArg Bool.not h))

/-- What a conversion shows besides its reading. -/
noncomputable def HkChan.converted (x : HkChan) (raw rounds same : Nat) (o : Bool) : HkChan := { x with raw := raw, seen := true, round := rounds, same := same, overRange := o }

/-- A channel that takes a reading. -/
noncomputable def HkChan.reads (x : HkChan) (v : Int) (old : List Int) : HkChan := { x with reading := v, history := (v :: old).take 3 }

/-- In how many conversions in a row the channel gave the raw code. -/
noncomputable def HkChan.sameNow (x : HkChan) (raw : Nat) : Nat := if x.seen = true ∧ x.raw = raw then x.same + 1 else 1

theorem HkChan.sameNow_eq (x : HkChan) (raw : Nat) : x.sameNow raw = if x.seen && x.raw == raw then x.same + 1 else 1 := by
  simp [HkChan.sameNow]

/-- The channel with the reading of this conversion. -/
noncomputable def State.goodChan (s : State) (c raw : Nat) (v : Int) : HkChan :=
  ((s.hkChan c).converted raw s.hk.rounds ((s.hkChan c).sameNow raw) (hkReading c (s.hkChan c) raw v).2).reads (hkReading c (s.hkChan c) raw v).1 (s.hkChan c).history

/-- The fault of this conversion (R447). -/
noncomputable def State.faultNow (s : State) (c raw : Nat) (v : Int) (bad : Bool) : Nat := hkFault c raw (hkReading c (s.hkChan c) raw v).1 ((s.hkChan c).sameNow raw) bad

/-- The raw codes of a broken channel's valid rounds since it passed diagnosis. -/
noncomputable def State.validNow (s : State) (c raw : Nat) (v : Int) (bad : Bool) : List Nat :=
  if (s.hkChan c).diagOk && s.faultNow c raw v bad == 0 then (raw :: (s.hkChan c).valid).take 8 else []

/-- A broken channel that recovers. -/
noncomputable def State.recovered (s : State) (c raw : Nat) (v : Int) : State :=
  (s.setHkChan c { s.goodChan c raw v with broken := 0, diagOk := false, valid := [] }).raise .SENSOR_RECOVERED Src.x1 [c]

/-- What a conversion leaves, `same` times in a row with this raw code, before the system calibration takes it. -/
noncomputable def State.hkTaken (s : State) (c raw : Nat) (v : Int) (bad : Bool) (same : Nat) : State :=
  let x := s.hkChan c
  let r := hkReading c x raw v
  let f := hkFault c raw r.1 same bad
  let y := x.converted raw s.hk.rounds same r.2
  let good := y.reads r.1 x.history
  if x.broken = 0 then (if f = 0 then (s.setHkChan c good).hkAct c else s.hkBreak c good f)
  else
    let valid := if x.diagOk && f == 0 then (raw :: x.valid).take 8 else []
    if hkRecovers valid then ((s.setHkChan c { good with broken := 0, diagOk := false, valid := [] }).raise .SENSOR_RECOVERED Src.x1 [c]).hkAct c
    else (s.setHkChan c (if hkTemp c then { y with valid := valid, overRange := x.overRange } else { good with valid := valid })).hkAct c

section Convert
variable {s} {c raw : Nat} {v : Int} {bad : Bool} (hsys : s.hk.sys.running = false) (ht : hkTemp c = false)
include hsys ht

/-- No T channel: nothing acts on the reading, and the module does not shut down. -/
theorem State.hkConvert_untemp {u : State} (h : s.hkTaken c raw v bad ((s.hkChan c).sameNow raw) = u.hkAct c) (hu : u.hk.sys = s.hk.sys) : s.hkConvert c raw v bad = u := by
  have taken : s.hkTaken c raw v bad (if (s.hkChan c).seen && (s.hkChan c).raw == raw then (s.hkChan c).same + 1 else 1) = u := by
    rw [← (s.hkChan c).sameNow_eq, h, u.hkAct_of_untemp ht]
  have unshut (t : State) : ¬ (hkPart c = 84 ∧ hkTemp c = true ∧ (t.hkChan c).broken ≠ 0) := fun h => Bool.false_ne_true (ht.symm.trans h.2.1)
  exact (if_neg (unshut _)).trans ((congrArg (State.sysTake · c raw) taken).trans (u.sysTake_of_idle c raw (hu ▸ hsys)))

theorem State.hkConvert_good (hb : (s.hkChan c).broken = 0) (hf : s.faultNow c raw v bad = 0) :
    s.hkConvert c raw v bad = s.setHkChan c (s.goodChan c raw v) :=
  State.hkConvert_untemp hsys ht ((if_pos hb).trans (if_pos hf)) rfl

theorem State.hkConvert_breaks (hb : (s.hkChan c).broken = 0) (hf : s.faultNow c raw v bad ≠ 0) :
    s.hkConvert c raw v bad = s.broke c (s.goodChan c raw v) (s.faultNow c raw v bad) :=
  State.hkConvert_untemp hsys ht ((if_pos hb).trans (if_neg hf)) rfl

theorem State.hkConvert_recovers (hb : (s.hkChan c).broken ≠ 0) (hd : (s.hkChan c).diagOk = true) (hf : s.faultNow c raw v bad = 0)
    (hn : (s.hkChan c).valid.length = 7) (hy : ∃ y ∈ (s.hkChan c).valid, y ≠ raw) : s.hkConvert c raw v bad = s.recovered c raw v :=
  have eight : (raw :: (s.hkChan c).valid).length = 8 := congrArg (· + 1) hn
  have valid : s.validNow c raw v bad = raw :: (s.hkChan c).valid :=
    (if_pos (Bool.and_eq_true_iff.mpr ⟨hd, beq_iff_eq.mpr hf⟩)).trans (List.take_of_length_le (Nat.le_of_eq eight))
  have recovers : hkRecovers (s.validNow c raw v bad) = true := (congrArg hkRecovers valid).trans
    (Bool.and_eq_true_iff.mpr ⟨beq_iff_eq.mpr eight, List.any_eq_true.mpr (hy.imp fun _ hy => ⟨.tail _ hy.1, bne_iff_ne.mpr hy.2⟩)⟩)
  State.hkConvert_untemp hsys ht ((if_neg hb).trans (if_pos recovers)) rfl

theorem State.hkConvert_undiagnosed (hb : (s.hkChan c).broken ≠ 0) (hd : (s.hkChan c).diagOk = false) :
    s.hkConvert c raw v bad = s.setHkChan c { s.goodChan c raw v with valid := [] } :=
  have valid : s.validNow c raw v bad = [] := if_neg fun h => ne_true_of_eq_false hd (Bool.and_eq_true_iff.mp h).1
  State.hkConvert_untemp hsys ht ((if_neg hb).trans ((if_neg (ne_true_of_eq_false (congrArg hkRecovers valid))).trans (congrArg (fun y => (s.setHkChan c y).hkAct c)
    ((if_neg (Bool.eq_false_iff.mp ht)).trans (congrArg (fun l => { s.goodChan c raw v with valid := l }) valid))))) rfl

end Convert

/-! ### A diagnosis (R446) -/

/-- Whether a diagnosis at DAC code `k` passes. -/
noncomputable def State.diagPasses (s : State) (k raw : Nat) : Bool := decide (((raw : Int) - 64 * k).natAbs ≤ s.diagTol)

/-- The result of a diagnosis is shown. -/
noncomputable def State.diagShown (s : State) (c k raw : Nat) : State :=
  { s with hk := { s.hk with tdacChan := c, tdacCode := k, tdacPending := false, tdacRaw := raw, tdacDone := true, tdacPass := s.diagPasses k raw } }

section Diagnose
variable {s} {c k raw : Nat}

theorem State.hkDiagnose_broken (h : (s.hkChan c).broken ≠ 0) : s.hkDiagnose c k raw = (s.diagShown c k raw).setHkChan c
    { s.hkChan c with broken := if s.diagPasses k raw then (s.hkChan c).broken else 5, diagOk := s.diagPasses k raw, valid := [] } :=
  if_pos h

theorem State.hkDiagnose_chan (h : (s.hkChan c).broken ≠ 0) : (s.hkDiagnose c k raw).hkChan c =
    { s.hkChan c with broken := if s.diagPasses k raw then (s.hkChan c).broken else 5, diagOk := s.diagPasses k raw, valid := [] } :=
  (congrArg (State.hkChan · c) (State.hkDiagnose_broken h)).trans (State.hkChan_set _ c _)

theorem State.hkDiagnose_passes (h : (s.hkChan c).broken = 0) (hok : s.diagPasses k raw = true) : s.hkDiagnose c k raw = s.diagShown c k raw :=
  (if_neg (not_not.mpr h)).trans (if_pos hok)

theorem State.hkDiagnose_fails (h : (s.hkChan c).broken = 0) (hok : s.diagPasses k raw = false) :
    s.hkDiagnose c k raw = (s.diagShown c k raw).hkBreak c (s.hkChan c) 5 :=
  (if_neg (not_not.mpr h)).trans (if_neg (by rw [show decide _ = false from hok]; exact Bool.false_ne_true))

theorem State.hkDiagnose_shown : (s.hkDiagnose c k raw).hk.shown = (c, raw, true, s.diagPasses k raw) := by
  have shown : (s.diagShown c k raw).hk.shown = (c, raw, true, s.diagPasses k raw) := rfl
  by_cases h : (s.hkChan c).broken = 0
  · cases hok : s.diagPasses k raw with
    | true => rw [State.hkDiagnose_passes h hok, shown, hok]
    | false => rw [State.hkDiagnose_fails h hok, State.hkBreak_eq, (State.attends_hkAct _ c).shown, ← hok]; exact shown
  · rw [State.hkDiagnose_broken h]
    exact shown

theorem State.hkDiagnose_reports (h : (s.hkChan c).broken = 0) (hok : s.diagPasses k raw = false) :
    ∃ w ∈ (s.hkDiagnose c k raw).ev.inFlight, w.code = .SENSOR_BROKEN ∧ w.args = [c, 5] := by
  obtain ⟨w, hw, code, args⟩ := (s.diagShown c k raw).broke_event c (s.hkChan c) 5
  rw [State.hkDiagnose_fails h hok, State.hkBreak_eq]
  exact ⟨w, (State.attends_hkAct _ c).events.mem (by rw [hw]; exact List.mem_append_right _ (.head _)), code, args⟩

end Diagnose

/-! ### A round (R438, R439, R442) -/

/-- A round starts with the coefficients `l`. -/
noncomputable def State.roundStarts (s : State) (l : List (Nat × List Int)) : State :=
  let s1 := l.foldl (fun s e => s.setHkChan e.1 { s.hkChan e.1 with offset := e.2.getD 0 0, gain := (e.2.getD 1 16384).toNat }) s
  { s1 with hk := { s1.hk with coefNext := [], roundMs := s1.hkCfg 0 5, damped := s1.hk.live.any (fun e => e.2 != 0), dampMoved := false } }

theorem State.roundStart_hkChan {s : State} {c : Nat} {o g : Int} (h : s.hk.coefNext = [(c, [o, g])]) (e : Nat) :
    s.roundStart.hkChan e = (s.setHkChan c { s.hkChan c with offset := o, gain := g.toNat }).hkChan e := congrArg (fun l => (s.roundStarts l).hkChan e) h

/-- The round has gone on to the slot after `c`. -/
noncomputable def State.slotTaken (s : State) (c : Nat) : State :=
  let t := if c = 0 then s.roundStart else s
  { t with hk := { t.hk with slot := c + 1 } }

theorem State.slotTaken_of {c : Nat} {a t : State} (ha : a = if c = 0 then s.roundStart else s) (ht : t = { a with hk := { a.hk with slot := c + 1 } }) : s.slotTaken c = t :=
  (congrArg (fun a : State => { a with hk := { a.hk with slot := c + 1 } }) ha.symm).trans ht.symm

theorem State.slotTaken_diag (c : Nat) : (s.slotTaken c).hk.diag = s.hk.diag ∧ (s.slotTaken c).hk.rounds = s.hk.rounds := by
  refine iteInduction (motive := fun t : State => t.hk.diag = s.hk.diag ∧ t.hk.rounds = s.hk.rounds) (fun _ => ?_) fun _ => ⟨rfl, rfl⟩
  refine ⟨State.foldl_keeps (·.hk.diag) (fun u e => ?_) s.hk.coefNext s, State.foldl_keeps (·.hk.rounds) (fun u e => ?_) s.hk.coefNext s⟩ <;> rfl

/-- The diagnosis of channel `c` that is due. -/
noncomputable def State.diagDue (s : State) (c : Nat) : Option (Nat × Nat × Nat) := s.hk.diag.find? (fun e => e.2.1 == c && decide (e.1 ≤ s.hk.rounds))

theorem State.diagDue_slotTaken (c : Nat) : (s.slotTaken c).diagDue c = s.diagDue c := by
  rw [State.diagDue, (s.slotTaken_diag c).1, (s.slotTaken_diag c).2, State.diagDue]

theorem State.diagDue_none {c : Nat} (h : ∀ e ∈ s.hk.diag, e.2.1 ≠ c ∨ s.hk.rounds < e.1) : s.diagDue c = none :=
  List.find?_eq_none.mpr fun e he due => (h e he).elim (fun hne => hne (beq_iff_eq.mp (Bool.and_eq_true_iff.mp due).1)) fun late =>
    Nat.not_le.mpr late (of_decide_eq_true (Bool.and_eq_true_iff.mp due).2)

theorem State.diagDue_one {c n k : Nat} (h : s.hk.diag = [(n, c, k)]) (hn : n ≤ s.hk.rounds) : s.diagDue c = some (n, c, k) := by
  rw [State.diagDue, h]
  exact List.find?_cons_of_pos (Bool.and_eq_true_iff.mpr ⟨beq_self_eq_true c, decide_eq_true hn⟩)

/-- The slot of channel `c` takes the diagnosis `x`, or converts the channel. -/
noncomputable def State.slotRuns (t : State) (c raw : Nat) (v : Int) (bad : Bool) (x : Option (Nat × Nat × Nat)) : State :=
  match x with
  | some e => { t with hk := { t.hk with diag := t.hk.diag.erase e } }.hkDiagnose c e.2.2 (raw % 2 ^ 16)
  | none => t.hkConvert c (raw % 2 ^ 16) v bad

section Slot
variable {s}
variable {raw c : Nat} {v : Int} {bad : Bool} (hs : c = s.hk.slot)
include hs

theorem exec_hkSlotConversion_waits (h : s.hk.powered = false ∨ 128 ≤ c) : exec (.hkSlotConversion raw v bad) s = .next s := by
  cases hs
  exact congrArg Host.Outcome.next (if_pos (h.imp (by rw [·]; rfl) id))

variable (hp : s.hk.powered = true) (hc : c < 128)
include hp hc

theorem exec_hkSlotConversion {u : State} (h : (if !s.hkScanned c then s.slotTaken c else (s.slotTaken c).slotRuns c raw v bad ((s.slotTaken c).diagDue c)) = u) :
    exec (.hkSlotConversion raw v bad) s = .next u := by
  cases hs
  exact congrArg Host.Outcome.next ((if_neg fun off => off.elim (ne_true_of_eq_false (congrArg Bool.not hp)) (Nat.not_le.mpr hc)).trans h)

variable {t : State} (ht : s.slotTaken c = t)
include ht

theorem exec_hkSlotConversion_idle (h : s.hkScanned c = false) : exec (.hkSlotConversion raw v bad) s = .next t :=
  exec_hkSlotConversion hs hp hc ((if_pos (by rw [h]; rfl)).trans ht)

theorem exec_hkSlotConversion_runs (h : s.hkScanned c = true) {x : Option (Nat × Nat × Nat)} (hx : s.diagDue c = x) :
    exec (.hkSlotConversion raw v bad) s = .next (t.slotRuns c raw v bad x) := by
  rw [← s.diagDue_slotTaken c] at hx
  cases hx
  cases ht
  exact exec_hkSlotConversion hs hp hc (if_neg (by rw [h]; decide))

theorem exec_hkSlotConversion_diagnoses (h : s.hkScanned c = true) {n k : Nat} (one : s.hk.diag = [(n, c, k)]) (hn : n ≤ s.hk.rounds) :
    exec (.hkSlotConversion raw v bad) s = .next (({ t with hk := { t.hk with diag := [] } } : State).hkDiagnose c k (raw % 2 ^ 16)) := by
  have rest : t.hk.diag.erase (n, c, k) = [] := by rw [← ht, (s.slotTaken_diag c).1, one, List.erase_cons_head]
  rw [← rest]
  exact exec_hkSlotConversion_runs hs hp hc ht h (s.diagDue_one one hn)

end Slot

/-- Rounds in a row above the limit, and those below it by the margin, this one counted. -/
noncomputable def State.roundsOver (s : State) (p : Nat) : Nat := if s.powerLimit < p then s.hk.overRounds + 1 else 0
noncomputable def State.roundsUnder (s : State) (p : Nat) : Nat := if p + s.powerMargin < s.powerLimit then s.hk.underRounds + 1 else 0

/-- A channel of the input power is broken. -/
noncomputable def State.powerBlind (s : State) : Bool := (s.hkChan 96).broken != 0 || (s.hkChan 97).broken != 0

/-- The stage and its counts after a round, before a broken channel of the input power raises the stage. -/
noncomputable def State.stageMoved (s : State) (p : Nat) : Hk :=
  if 3 ≤ s.roundsOver p then { s.hk with powerStage := min 3 (s.hk.powerStage + 1), overRounds := 0, underRounds := s.roundsUnder p }
  else if 50 ≤ s.roundsUnder p then { s.hk with powerStage := s.hk.powerStage - 1, overRounds := s.roundsOver p, underRounds := 0 }
  else { s.hk with overRounds := s.roundsOver p, underRounds := s.roundsUnder p }

theorem State.stageRound_powerStage (p : Nat) : (s.stageRound p).hk.powerStage = if s.powerBlind then max 2 (s.stageMoved p).powerStage else (s.stageMoved p).powerStage := rfl

theorem State.stageMoved_powerStage (p : Nat) : (s.stageMoved p).powerStage =
    if 3 ≤ s.roundsOver p then min 3 (s.hk.powerStage + 1) else if 50 ≤ s.roundsUnder p then s.hk.powerStage - 1 else s.hk.powerStage :=
  (apply_ite Hk.powerStage _ _ _).trans (ite_congr rfl (fun _ => rfl) fun _ => apply_ite Hk.powerStage _ _ _)

theorem State.stageRound_blind {p : Nat} (h : s.powerBlind = true) : 2 ≤ (s.stageRound p).hk.powerStage := by
  rw [s.stageRound_powerStage, if_pos h]
  exact Nat.le_max_left _ _

theorem State.powerBlind_of (h : (s.hkChan 96).broken ≠ 0 ∨ (s.hkChan 97).broken ≠ 0) : s.powerBlind = true := Bool.or_eq_true_iff.mpr (h.imp bne_iff_ne.mpr bne_iff_ne.mpr)

section Sighted
variable {s}
variable {p : Nat} (h96 : (s.hkChan 96).broken = 0) (h97 : (s.hkChan 97).broken = 0)
include h96 h97

theorem State.stageRound_sighted {x : Hk} (h : s.stageMoved p = x) : (s.stageRound p).hk = x := by
  have sighted : s.powerBlind = false := by rw [State.powerBlind, h96, h97]; rfl
  refine Eq.trans ?_ h
  show ({ s.stageMoved p with powerStage := if s.powerBlind then max 2 (s.stageMoved p).powerStage else (s.stageMoved p).powerStage } : Hk) = _
  rw [sighted]
  rfl

theorem State.stageRound_raises (hp : s.powerLimit < p) (ho : 2 ≤ s.hk.overRounds) :
    (s.stageRound p).hk = { s.hk with powerStage := min 3 (s.hk.powerStage + 1), overRounds := 0, underRounds := s.roundsUnder p } :=
  State.stageRound_sighted h96 h97 (if_pos (by rw [State.roundsOver, if_pos hp]; exact Nat.succ_le_succ ho))

theorem State.stageRound_counts (ho : s.roundsOver p < 3) (hu : s.roundsUnder p < 50) :
    (s.stageRound p).hk = { s.hk with overRounds := s.roundsOver p, underRounds := s.roundsUnder p } :=
  State.stageRound_sighted h96 h97 ((if_neg (Nat.not_le.mpr ho)).trans (if_neg (Nat.not_le.mpr hu)))

theorem State.stageRound_lowers (hp : p + s.powerMargin < s.powerLimit) (hu : 49 ≤ s.hk.underRounds) :
    (s.stageRound p).hk = { s.hk with powerStage := s.hk.powerStage - 1, overRounds := s.roundsOver p, underRounds := 0 } := by
  have below : s.roundsOver p = 0 := if_neg (Nat.not_lt.mpr ((Nat.le_add_right p _).trans hp.le))
  exact State.stageRound_sighted h96 h97 ((if_neg (by rw [below]; decide)).trans (if_pos (by rw [State.roundsUnder, if_pos hp]; exact Nat.succ_le_succ hu)))

end Sighted

/-- The state in which a round ends, its stage decided. -/
noncomputable def State.roundStaged (s : State) : State :=
  { s with hk := { s.hk with power := s.inputPower, slot := 0, rounds := s.hk.rounds + 1 } }.stageRound s.inputPower

/-- A round's end, before the time above stage 0 is counted. -/
noncomputable def State.roundCounted (s : State) : State :=
  let t := s.roundStaged
  let u := (t.setReg (pwrReg Reg.PWR_ENERGY_TOTAL) ((t.reg (pwrReg Reg.PWR_ENERGY_TOTAL) + s.inputPower * s.hk.roundMs) % 2 ^ 64)).bump (hkReg Reg.HK_ROUND_TOTAL) 1
  if 0 < u.hk.powerStage then u.bump (pwrReg Reg.PWR_LIMIT_TOTAL) 1 else u

theorem exec_roundEnd_waits (h : s.hk.powered = false ∨ s.hk.slot < 128) : exec .roundEnd s = .next s :=
  congrArg Host.Outcome.next (if_pos (h.imp (by rw [·]; rfl) id))

theorem exec_roundEnd_ends (hp : s.hk.powered = true) (hc : 128 ≤ s.hk.slot) : exec .roundEnd s = .next s.roundCounted.damperMs :=
  congrArg Host.Outcome.next (if_neg (by rw [hp]; simpa using hc))

theorem State.damperMs_hk : s.damperMs.hk = s.hk ∧ s.damperMs.ev = s.ev :=
  iteInduction (motive := fun u : State => u.hk = s.hk ∧ u.ev = s.ev) (fun _ => ⟨rfl, rfl⟩) fun _ =>
    iteInduction (motive := fun u : State => u.hk = s.hk ∧ u.ev = s.ev) (fun _ => ⟨rfl, rfl⟩) fun _ => ⟨rfl, rfl⟩

theorem State.reg_damperMs {a : Nat} (h : a ≠ hkReg Reg.DAMPER_MS_TOTAL) : s.damperMs.reg a = s.reg a :=
  iteInduction (motive := fun u : State => u.reg a = s.reg a) (fun _ => State.reg_bump_other _ _ h) fun _ =>
    iteInduction (motive := fun u : State => u.reg a = s.reg a) (fun _ => State.reg_bump_other _ _ h) fun _ => rfl

theorem State.roundStaged_reg (a : Nat) : s.roundStaged.reg a = s.reg a := rfl

theorem State.roundStaged_powerStage : s.roundStaged.hk.powerStage = (s.stageRound s.inputPower).hk.powerStage :=
  congrArg (fun n => if s.powerBlind then max 2 n else n) ((State.stageMoved_powerStage _ _).trans (s.stageMoved_powerStage _).symm)

theorem State.stageMoved_round (p : Nat) : (s.stageMoved p).slot = s.hk.slot ∧ (s.stageMoved p).rounds = s.hk.rounds ∧ (s.stageMoved p).power = s.hk.power :=
  iteInduction (motive := fun h : Hk => h.slot = s.hk.slot ∧ h.rounds = s.hk.rounds ∧ h.power = s.hk.power) (fun _ => ⟨rfl, rfl, rfl⟩) fun _ =>
    iteInduction (motive := fun h : Hk => h.slot = s.hk.slot ∧ h.rounds = s.hk.rounds ∧ h.power = s.hk.power) (fun _ => ⟨rfl, rfl, rfl⟩) fun _ => ⟨rfl, rfl, rfl⟩

theorem State.roundStaged_round : s.roundStaged.hk.slot = 0 ∧ s.roundStaged.hk.rounds = s.hk.rounds + 1 ∧ s.roundStaged.hk.power = s.inputPower :=
  State.stageMoved_round { s with hk := { s.hk with power := s.inputPower, slot := 0, rounds := s.hk.rounds + 1 } } s.inputPower

/-- A round's end, its energy and the round itself counted. -/
noncomputable def State.roundAdded (s : State) : State :=
  (s.roundStaged.setReg (pwrReg Reg.PWR_ENERGY_TOTAL) ((s.reg (pwrReg Reg.PWR_ENERGY_TOTAL) + s.inputPower * s.hk.roundMs) % 2 ^ 64)).bump (hkReg Reg.HK_ROUND_TOTAL) 1

theorem State.roundCounted_eq : s.roundCounted = if 0 < s.roundStaged.hk.powerStage then s.roundAdded.bump (pwrReg Reg.PWR_LIMIT_TOTAL) 1 else s.roundAdded := rfl

theorem State.roundCounted_hk : s.roundCounted.hk = s.roundStaged.hk ∧ s.roundCounted.ev = s.ev :=
  iteInduction (motive := fun u : State => u.hk = s.roundStaged.hk ∧ u.ev = s.ev) (fun _ => ⟨rfl, rfl⟩) fun _ => ⟨rfl, rfl⟩

theorem State.roundCounted_reg {a : Nat} (h : a ≠ pwrReg Reg.PWR_LIMIT_TOTAL) : s.roundCounted.reg a = s.roundAdded.reg a :=
  iteInduction (motive := fun u : State => u.reg a = s.roundAdded.reg a) (fun _ => State.reg_bump_other _ _ h) fun _ => rfl

theorem State.roundEnded_hk : s.roundCounted.damperMs.hk = s.roundStaged.hk := (State.damperMs_hk _).1.trans s.roundCounted_hk.1

theorem State.roundAdded_energy : s.roundAdded.reg (pwrReg Reg.PWR_ENERGY_TOTAL) = (s.reg (pwrReg Reg.PWR_ENERGY_TOTAL) + s.inputPower * s.hk.roundMs) % 2 ^ 64 :=
  (State.reg_bump_other _ _ (by decide)).trans ((State.reg_setReg _ _ _ _).trans (if_pos rfl))

theorem State.roundAdded_rounds : s.roundAdded.reg (hkReg Reg.HK_ROUND_TOTAL) = min (2 ^ 64 - 1) (s.reg (hkReg Reg.HK_ROUND_TOTAL) + 1) := by
  rw [State.roundAdded, State.reg_bump, if_pos rfl, State.reg_setReg, if_neg (by decide), s.roundStaged_reg]

theorem State.roundAdded_limit : s.roundAdded.reg (pwrReg Reg.PWR_LIMIT_TOTAL) = s.reg (pwrReg Reg.PWR_LIMIT_TOTAL) := by
  rw [State.roundAdded, State.reg_bump_other _ _ (by decide), State.reg_setReg, if_neg (by decide), s.roundStaged_reg]

theorem State.roundEnded_reg {a : Nat} (h : a ≠ hkReg Reg.DAMPER_MS_TOTAL) (k : a ≠ pwrReg Reg.PWR_LIMIT_TOTAL) : s.roundCounted.damperMs.reg a = s.roundAdded.reg a :=
  (State.reg_damperMs _ h).trans (s.roundCounted_reg k)

theorem State.roundEnded_limited (h : 0 < s.roundCounted.damperMs.hk.powerStage) :
    s.roundCounted.damperMs.reg (pwrReg Reg.PWR_LIMIT_TOTAL) = min (2 ^ 64 - 1) (s.reg (pwrReg Reg.PWR_LIMIT_TOTAL) + 1) := by
  rw [s.roundEnded_hk] at h
  rw [State.reg_damperMs _ (by decide), s.roundCounted_eq, if_pos h, State.reg_bump, if_pos rfl, s.roundAdded_limit]

theorem State.roundEnded_unlimited (h : s.roundCounted.damperMs.hk.powerStage = 0) :
    s.roundCounted.damperMs.reg (pwrReg Reg.PWR_LIMIT_TOTAL) = s.reg (pwrReg Reg.PWR_LIMIT_TOTAL) := by
  rw [s.roundEnded_hk] at h
  rw [State.reg_damperMs _ (by decide), s.roundCounted_eq, if_neg (by rw [h]; decide), s.roundAdded_limit]

/-! ### The Damper (R449) -/

/-- The Damper decides die `i`'s thermal stage. -/
noncomputable def State.damped (s : State) (i : Nat) : State :=
  if s.damperNext i = Tab.get s.hk.stage i then s
  else { s with hk := { s.hk with stage := Tab.set s.hk.stage i (s.damperNext i) } }.raise .DAMPER_CHANGED Src.x1 [i, s.damperNext i]

theorem exec_damperDecision_waits (h : s.hk.powered = false ∨ s.hk.rounds = 0) : exec .damperDecision s = .next s :=
  congrArg Host.Outcome.next (if_pos (h.imp (by rw [·]; rfl) id))

theorem exec_damperDecision_decides (hp : s.hk.powered = true) (hr : s.hk.rounds ≠ 0) :
    exec .damperDecision s = .next ((s.dies ++ [8, 9, 10, 11]).foldl State.damped s) :=
  congrArg Host.Outcome.next (if_neg (by rw [hp]; simpa using hr))

theorem State.nodup_damperDies : (s.dies ++ [8, 9, 10, 11]).Nodup := by
  have low : ∀ d ∈ s.dies, d < 8 := fun d hd => List.mem_range.mp (List.mem_of_mem_filter hd)
  refine List.nodup_append.mpr ⟨List.nodup_range.filter _, by decide, fun a ha b hb => ?_⟩
  have high : ∀ b ∈ [8, 9, 10, 11], 8 ≤ b := by decide
  exact ((low a ha).trans_le (high b hb)).ne

theorem State.damped_stage (i j : Nat) : Tab.get (s.damped i).hk.stage j = if j = i then s.damperNext i else Tab.get s.hk.stage j := by
  unfold State.damped
  split
  next h =>
    split
    next hj => rw [hj, h]
    next => rfl
  next => exact Tab.get_set _ _ _ _

theorem State.damped_frame (i : Nat) : ((s.damped i).hk.live, (s.damped i).hk.chans) = (s.hk.live, s.hk.chans) :=
  iteInduction (motive := fun u : State => (u.hk.live, u.hk.chans) = (s.hk.live, s.hk.chans)) (fun _ => rfl) fun _ => rfl

theorem State.reports_damped (i : Nat) : s.Reports (s.damped i) := iteInduction (motive := s.Reports) (fun _ => .refl s) fun _ => List.prefix_append _ _

theorem State.damped_changes {i : Nat} (h : s.damperNext i ≠ Tab.get s.hk.stage i) : ∃ w ∈ (s.damped i).ev.inFlight, w.code = .DAMPER_CHANGED ∧ w.args = [i, s.damperNext i] := by
  rw [State.damped, if_neg h]
  exact State.mem_raise _ _ _ _

/-- The Damper's next stage of `i`, from its stage and from the channels. -/
noncomputable def damperStep (i n : Nat) (chans : Tab HkChan) : Nat :=
  let hot := (damperChans i ++ partChans 84).filter (fun c => (Tab.get chans c).throttle)
  if hot.isEmpty then n - 1 else if hot.any (fun c => decide (1632 ≤ (Tab.get chans c).reading)) then min 3 (n + 1) else n

theorem State.damperNext_damped {i j : Nat} (h : j ≠ i) : (s.damped i).damperNext j = s.damperNext j :=
  congrArg₂ (damperStep j) ((s.damped_stage i j).trans (if_neg h)) (congrArg Prod.snd (s.damped_frame i))

theorem State.stage_foldl_damped {i : Nat} {l : List Nat} (h : i ∉ l) (s : State) : Tab.get (l.foldl State.damped s).hk.stage i = Tab.get s.hk.stage i := by
  induction l generalizing s with
  | nil => rfl
  | cons j l ih => exact (ih (List.not_mem_of_not_mem_cons h) _).trans ((s.damped_stage j i).trans (if_neg (List.ne_of_not_mem_cons h)))

/-- The Damper has decided die `i`: its stage is the next one, and a change is reported. -/
noncomputable def State.Decided (s t : State) (i : Nat) : Prop := Tab.get t.hk.stage i = s.damperNext i
  ∧ (s.damperNext i ≠ Tab.get s.hk.stage i → ∃ w ∈ t.ev.inFlight, w.code = .DAMPER_CHANGED ∧ w.args = [i, s.damperNext i])

theorem State.Decided.of_damped {s t : State} {i j : Nat} (h : i ≠ j) (d : (s.damped j).Decided t i) : s.Decided t i := by
  unfold State.Decided at d
  rwa [s.damperNext_damped h, s.damped_stage, if_neg h] at d

theorem State.foldl_damped {i : Nat} {l : List Nat} (hl : l.Nodup) (hi : i ∈ l) (s : State) : s.Decided (l.foldl State.damped s) i := by
  induction l generalizing s with
  | nil => cases hi
  | cons j l ih =>
    obtain ⟨hj, hl⟩ := List.nodup_cons.mp hl
    obtain rfl | hi := List.mem_cons.mp hi
    · refine ⟨(State.stage_foldl_damped hj _).trans ((s.damped_stage i i).trans (if_pos rfl)), fun h => ?_⟩
      obtain ⟨w, hw, told⟩ := s.damped_changes h
      exact ⟨w, (State.reports_foldl (fun s => s.reports_damped) l _).mem hw, told⟩
    · have hne : i ≠ j := fun e => hj (e ▸ hi)
      exact State.Decided.of_damped hne (ih hl hi (s.damped j))

theorem exec_damperStageApply_other (i : Nat) (h : s.hk.powered = false ∨ i ∉ s.dies ++ [8, 9, 10, 11]) : exec (.damperStageApply i) s = .next s := by
  refine congrArg Host.Outcome.next (if_neg fun ⟨hp, hi⟩ => ?_)
  obtain h | h := h
  · exact Bool.false_ne_true (h.symm.trans hp)
  · exact h (List.contains_iff_mem.mp hi)

theorem exec_damperStageApply_die (i : Nat) (hp : s.hk.powered = true) (hi : i ∈ s.dies ++ [8, 9, 10, 11]) : exec (.damperStageApply i) s = .next (s.damperApply i) :=
  congrArg Host.Outcome.next (if_pos ⟨hp, List.contains_iff_mem.mpr hi⟩)

/-! ### Requests of the host (R444 to R446) -/

/-- An urgent request that is dropped, and one that is accepted. -/
noncomputable def State.urgentDropped (s : State) (c : Nat) : State := { s with hk := { s.hk with urgChan := c, urgDone := false, urgDropped := true } }.bump (hkReg Reg.URG_DROP) 1
noncomputable def State.urgentTaken (s : State) (c : Nat) : State := { s with hk := { s.hk with urgChan := c, urgDone := false, urgDropped := false, urgConv := some c } }

theorem exec_hkUrgCtrl_dropped (v : Nat) (b : Bool) (n : Nat) (hp : s.hk.powered = true) (h : b = true ∨ s.hk.urgConv ≠ none ∨ n < 500) :
    exec (.hkUrgCtrl v b n) s = .next (s.urgentDropped (bitsOf v 0 7)) :=
  congrArg Host.Outcome.next ((if_neg (by rw [hp]; decide)).trans (if_pos (h.imp id (Or.imp Option.isSome_iff_ne_none.mpr id))))

theorem exec_hkUrgCtrl_taken (v n : Nat) (hp : s.hk.powered = true) (hc : s.hk.urgConv = none) (hn : 500 ≤ n) :
    exec (.hkUrgCtrl v false n) s = .next (s.urgentTaken (bitsOf v 0 7)) :=
  congrArg Host.Outcome.next ((if_neg (by rw [hp]; decide)).trans (if_neg fun busy => busy.elim Bool.false_ne_true fun busy =>
    busy.elim (by rw [hc]; decide) (Nat.not_lt.mpr hn)))

/-- The urgent conversion of channel `x` ends. -/
noncomputable def State.urgentRead (s : State) (raw : Nat) (v : Int) (x : Option Nat) : State :=
  match x with
  | none => s
  | some c => { s with hk := { s.hk with urgConv := none, urgChan := c, urgDone := true, urgDropped := false
                                         urgRaw := encodeInt 16 (if s.hkScanned c then (hkReading c (s.hkChan c) (raw % 2 ^ 16) v).1 else 0) } }

theorem exec_urgentConversionDone {x : Option Nat} (raw : Nat) (v : Int) (h : s.hk.urgConv = x) : exec (.urgentConversionDone raw v) s = .next (s.urgentRead raw v x) := by
  cases h
  rfl

/-- A diagnosis that the host asks for. -/
noncomputable def State.diagAsked (s : State) (v : Nat) : State :=
  { s with hk := { s.hk with tdacChan := bitsOf v 10 7, tdacCode := bitsOf v 0 10, tdacPending := true, tdacDone := false, tdacPass := false
                             diag := s.hk.diag ++ [(s.hk.rounds + 1, bitsOf v 10 7, bitsOf v 0 10)] } }

theorem exec_hkTdacGo_ignored (v : Nat) (h : s.hk.powered = false ∨ bitOf v 17 = false ∨ s.hkScanned (bitsOf v 10 7) = false) : exec (.hkTdacGo v) s = .next s :=
  congrArg Host.Outcome.next (if_pos (h.imp (by rw [·]; rfl) (Or.imp (by rw [·]; rfl) (by rw [·]; rfl))))

theorem exec_hkTdacGo_asked (v : Nat) (hp : s.hk.powered = true) (hgo : bitOf v 17 = true) (hc : s.hkScanned (bitsOf v 10 7) = true) :
    exec (.hkTdacGo v) s = .next (s.diagAsked v) :=
  congrArg Host.Outcome.next (if_neg (by rw [hp, hgo, hc]; decide))

section SysStart
variable {s}

theorem State.sysStart_off (k : SysCal) (hp : s.hk.powered = false) : s.sysStart k = s := if_pos (by rw [hp]; rfl)

theorem State.sysStart_busy (k : SysCal) (hp : s.hk.powered = true) (hr : s.hk.sys.running = true) : s.sysStart k = s.raise .SYSCAL_BUSY Src.x1 [k.chan] :=
  (if_neg (by rw [hp]; decide)).trans (if_pos hr)

theorem State.sysStart_starts (k : SysCal) (hp : s.hk.powered = true) (hr : s.hk.sys.running = false) : s.sysStart k = { s with hk := { s.hk with sys := k } } :=
  (if_neg (by rw [hp]; decide)).trans (if_neg (by rw [hr]; decide))

theorem exec_syscalSave_refused (e : Nat) (h : s.hk.powered = false ∨ s.hk.sys.running = true) :
    exec (.syscalSave e) s = .next (s.sysStart { chan := e % 8, op := 3, done := true }) :=
  congrArg Host.Outcome.next (if_pos (h.imp (by rw [·]; rfl) id))

/-- The coefficients of a calibrated channel are saved. -/
noncomputable def State.calSaved (t : State) (c : Nat) (x : List Int) : State := { t with hk := { t.hk with saved := Tab.set t.hk.saved c x } }

theorem State.calSaved_same (t : State) (c : Nat) (x : List Int) : Tab.get (t.calSaved c x).hk.saved c = x := t.hk.saved.get_set_same c x

theorem State.calSaved_other (t : State) {c j : Nat} (x : List Int) (h : j ≠ c) : Tab.get (t.calSaved c x).hk.saved j = Tab.get t.hk.saved j := t.hk.saved.get_set_other x h

theorem exec_syscalSave_saves (e : Nat) (hp : s.hk.powered = true) (hr : s.hk.sys.running = false) : exec (.syscalSave e) s =
    .next (State.calSaved { s with hk := { s.hk with sys := { chan := e % 8, op := 3, done := true } } } (120 + e % 8) (s.coefs (120 + e % 8))) :=
  congrArg Host.Outcome.next ((if_neg (by rw [hp, hr]; decide)).trans (congrArg (State.calSaved · (120 + e % 8) (s.coefs (120 + e % 8))) (State.sysStart_starts _ hp hr)))

theorem exec_syscal_busy {e : Nat} {c : Instr} (hp : s.hk.powered = true) (hr : s.hk.sys.running = true) (hc : c ∈ [Instr.syscalZero e, Instr.syscalFull e, Instr.syscalSave e]) :
    exec c s = .next (s.raise .SYSCAL_BUSY Src.x1 [e % 8]) := by
  simp only [List.mem_cons, List.not_mem_nil, or_false] at hc
  obtain rfl | rfl | rfl := hc
  · exact congrArg Host.Outcome.next (State.sysStart_busy _ hp hr)
  · exact congrArg Host.Outcome.next (State.sysStart_busy _ hp hr)
  · exact (exec_syscalSave_refused e (.inr hr)).trans (congrArg Host.Outcome.next (State.sysStart_busy _ hp hr))

end SysStart

end Housekeeping

/-- The fault of a T channel's reading (R447). -/
theorem hkFault_far {c : Nat} {v : Int} (h : hkTemp c = true) : ((hkTemp c && (decide (v < -640) || decide (2400 < v))) = true) = (v < -640 ∨ 2400 < v) := by
  rw [h]
  simp

theorem hkTemp_of_hkHbm {c : Nat} (h : hkHbm c = true) : hkTemp c = true :=
  Bool.or_eq_true_iff.mpr (.inl (decide_eq_true ((of_decide_eq_true (Bool.and_eq_true_iff.mp h).2).trans (by decide))))

/-- Settles O59: each conversion, level, round's end, Damper decision and host request by its own branch; what follows a failed diagnosis loses no event (`State.attends_hkAct`). -/
theorem housekeepingRound : Obligations.HousekeepingRound := by
  refine ⟨?slot, ?start, fun _ _ _ => rfl, ?fault, ?convert, ?diagnose, fun s c x k => s.hkBreak_of_down c x k, ?levels, ?roundEnd, ?stage,
    fun s p h => s.stageRound_blind (s.powerBlind_of h), ?damper, ?apply, ?host⟩
  case slot =>
    intro s raw v bad c hs
    exact ⟨exec_hkSlotConversion_waits hs, fun hp hc a t ha ht => ⟨exec_hkSlotConversion_idle hs hp hc (s.slotTaken_of ha ht),
      fun h => ⟨fun none => exec_hkSlotConversion_runs hs hp hc (s.slotTaken_of ha ht) h (s.diagDue_none none),
        fun n k one hn => exec_hkSlotConversion_diagnoses hs hp hc (s.slotTaken_of ha ht) h one hn⟩⟩⟩
  case start =>
    intro s c o g h
    exact ⟨congrArg HkChan.offset ((State.roundStart_hkChan h c).trans (s.hkChan_set c _)), congrArg HkChan.gain ((State.roundStart_hkChan h c).trans (s.hkChan_set c _)), rfl,
      congrArg (fun l => (s.roundStarts l).hk.roundMs) h, fun e he => (State.roundStart_hkChan h e).trans (s.hkChan_set_other _ he)⟩
  case fault =>
    intro c raw n v bad _
    refine ⟨fun h => (if_pos h).trans (ite_congr rfl (fun _ => rfl) fun _ => ite_congr (hkFault_far (hkTemp_of_hkHbm h)) (fun _ => rfl) fun _ => rfl), fun h =>
      ⟨fun hi => (if_neg (Bool.eq_false_iff.mp h)).trans (if_pos hi), fun lo => (if_neg (Bool.eq_false_iff.mp h)).trans ((if_neg (Nat.not_le.mpr (lo.trans_lt (by decide)))).trans (if_pos lo)),
        fun lo hi => ⟨fun ht hv => ?_, fun hv => ?_⟩⟩⟩
    · exact (if_neg (Bool.eq_false_iff.mp h)).trans ((if_neg (Nat.not_le.mpr hi)).trans ((if_neg (Nat.not_le.mpr lo)).trans (if_pos (hkFault_far ht ▸ hv))))
    · have near : ¬ (hkTemp c && (decide (v < -640) || decide (2400 < v))) = true := fun far => by
        obtain ht | ⟨above, below⟩ := hv
        · exact Bool.false_ne_true (ht.symm.trans (Bool.and_eq_true_iff.mp far).1)
        · rw [hkFault_far (Bool.and_eq_true_iff.mp far).1] at far
          exact far.elim (Int.not_lt.mpr above) (Int.not_lt.mpr below)
      exact (if_neg (Bool.eq_false_iff.mp h)).trans ((if_neg (Nat.not_le.mpr hi)).trans ((if_neg (Nat.not_le.mpr lo)).trans (if_neg near)))
  case convert =>
    intro s c raw v bad x r n hsys ht
    exact ⟨fun hb h => ⟨_, State.hkConvert_good hsys ht hb h, congrArg HkChan.reading (s.hkChan_set c _), congrArg HkChan.overRange (s.hkChan_set c _), congrArg HkChan.raw (s.hkChan_set c _),
        congrArg HkChan.same (s.hkChan_set c _), (congrArg HkChan.broken (s.hkChan_set c _)).trans hb, fun e he => s.hkChan_set_other _ he, rfl⟩,
      fun hb h => ⟨_, State.hkConvert_breaks hsys ht hb h, congrArg HkChan.broken (s.broke_hkChan c _ _), congrArg HkChan.diagOk (s.broke_hkChan c _ _), rfl, s.broke_event _ _ _, s.broke_reg _ _ _⟩,
      fun hb hd h h7 hy => ⟨_, State.hkConvert_recovers hsys ht hb hd h h7 hy, congrArg HkChan.broken (s.hkChan_set c _), congrArg HkChan.reading (s.hkChan_set c _), State.raise_event _ _ _ _⟩,
      fun hb hd => ⟨_, State.hkConvert_undiagnosed hsys ht hb hd, (congrArg HkChan.broken (s.hkChan_set c _)).trans rfl, rfl⟩⟩
  case diagnose =>
    intro s c k raw ok u
    have shown : u.hk.shown = (c, raw, true, ok) := s.hkDiagnose_shown
    exact ⟨congrArg Prod.fst shown, congrArg (·.2.1) shown, congrArg (·.2.2.1) shown, congrArg (·.2.2.2) shown,
      fun hb hok => (congrArg (State.hkChan · c) (State.hkDiagnose_passes hb hok)).trans rfl,
      fun hb => ⟨(congrArg HkChan.diagOk (State.hkDiagnose_chan hb)), (congrArg HkChan.reading (State.hkDiagnose_chan hb)).trans rfl,
        fun h => (congrArg HkChan.broken (State.hkDiagnose_chan hb)).trans (if_neg (Bool.eq_false_iff.mp h))⟩,
      fun hb hok => State.hkDiagnose_reports hb hok⟩
  case levels =>
    intro s c v x
    exact ⟨fun h hv => ⟨_, s.warnLevel_sets h hv, congrArg HkChan.warn (s.hkChan_set c _), State.raise_event _ _ _ _, ((s.setHkChan c _).reg_bump _ 1 _).trans (if_pos rfl)⟩,
      fun h hv => ⟨_, s.warnLevel_clears h hv, congrArg HkChan.warn (s.hkChan_set c _), State.raise_event _ _ _ _⟩, s.warnLevel_stays,
      fun h hv => (congrArg (fun u : State => (u.hkChan c).throttle) (s.throttleLevel_sets h hv)).trans (congrArg HkChan.throttle (s.hkChan_set c _)),
      fun h hv => (congrArg (fun u : State => (u.hkChan c).throttle) (s.throttleLevel_clears h hv)).trans (congrArg HkChan.throttle (s.hkChan_set c _)),
      s.throttleLevel_stays, s.shutLevel_stays, fun h hv t ht => ⟨fun hp => (s.shutLevel_sets h hv).trans ((if_pos hp).trans (congrArg (fun t : State => t.moduleShutdown c _) ht.symm)),
        fun hp => (s.shutLevel_sets h hv).trans ((if_neg hp).trans (congrArg (fun t : State => t.partitionShutdown (hkPart c) c) ht.symm))⟩⟩
  case roundEnd =>
    intro s
    exact ⟨exec_roundEnd_waits s, fun hp hc => ⟨_, exec_roundEnd_ends s hp hc, (congrArg Hk.slot s.roundEnded_hk).trans s.roundStaged_round.1,
      (congrArg Hk.rounds s.roundEnded_hk).trans s.roundStaged_round.2.1, (congrArg Hk.power s.roundEnded_hk).trans s.roundStaged_round.2.2, (State.damperMs_hk _).2.trans s.roundCounted_hk.2,
      (s.roundEnded_reg (by decide) (by decide)).trans s.roundAdded_energy, (s.roundEnded_reg (by decide) (by decide)).trans s.roundAdded_rounds,
      (congrArg Hk.powerStage s.roundEnded_hk).trans s.roundStaged_powerStage, s.roundEnded_limited, s.roundEnded_unlimited⟩⟩
  case stage =>
    intro s p h96 h97 u
    refine ⟨fun hp ho => ⟨congrArg Hk.powerStage (State.stageRound_raises h96 h97 hp ho), congrArg Hk.overRounds (State.stageRound_raises h96 h97 hp ho)⟩, fun hp ho => ?_,
      fun hp hu => ⟨congrArg Hk.powerStage (State.stageRound_lowers h96 h97 hp hu), congrArg Hk.underRounds (State.stageRound_lowers h96 h97 hp hu)⟩, fun hp hm => ?_⟩
    · have past : s.roundsOver p = s.hk.overRounds + 1 := if_pos hp
      have under : s.roundsUnder p = 0 := if_neg (Nat.not_lt.mpr (hp.le.trans (Nat.le_add_right p _)))
      have counts := State.stageRound_counts h96 h97 (p := p) (by rw [past]; exact Nat.succ_lt_succ ho) (by rw [under]; decide)
      exact ⟨(congrArg Hk.powerStage counts).trans rfl, (congrArg Hk.overRounds counts).trans past, (congrArg Hk.underRounds counts).trans under⟩
    · have past : s.roundsOver p = 0 := if_neg (Nat.not_lt.mpr hp)
      have under : s.roundsUnder p = 0 := if_neg (Nat.not_lt.mpr hm)
      have counts := State.stageRound_counts h96 h97 (p := p) (by rw [past]; decide) (by rw [under]; decide)
      exact ⟨(congrArg Hk.powerStage counts).trans rfl, (congrArg Hk.overRounds counts).trans past, (congrArg Hk.underRounds counts).trans under⟩
  case damper =>
    intro s
    have kept := State.foldl_keeps (fun s : State => (s.hk.live, s.hk.chans)) State.damped_frame (s.dies ++ [8, 9, 10, 11]) s
    exact ⟨exec_damperDecision_waits s, fun hp hr => ⟨_, exec_damperDecision_decides s hp hr, fun i hi => State.foldl_damped s.nodup_damperDies hi s,
      congrArg Prod.fst kept, congrArg Prod.snd kept⟩⟩
  case apply =>
    intro s i
    exact ⟨exec_damperStageApply_other s i, fun hp hi => ⟨_, exec_damperStageApply_die s i hp hi, (Tab.get_set _ _ _ _).trans (if_pos rfl),
      fun j hj => (Tab.get_set _ _ _ _).trans (if_neg hj), rfl⟩⟩
  case host =>
    intro s
    refine ⟨fun hp => ⟨fun v b n => congrArg Host.Outcome.next (if_pos (by rw [hp]; rfl)), fun v => exec_hkTdacGo_ignored s v (.inl hp), fun e => ⟨congrArg Host.Outcome.next (State.sysStart_off _ hp),
      congrArg Host.Outcome.next (State.sysStart_off _ hp), (exec_syscalSave_refused e (.inl hp)).trans (congrArg Host.Outcome.next (State.sysStart_off _ hp))⟩⟩,
      fun h r v => exec_urgentConversionDone s r v h,
      fun c r v h hc => ⟨_, exec_urgentConversionDone s r v h, rfl, rfl, rfl, rfl, congrArg (encodeInt 16) (if_pos hc), rfl, rfl⟩,
      fun hp => ⟨fun v b n h => ⟨_, exec_hkUrgCtrl_dropped s v b n hp h, rfl, rfl, rfl, (State.reg_bump _ _ _ _).trans (if_pos rfl)⟩,
      fun v n h hn => ⟨_, exec_hkUrgCtrl_taken s v n hp h hn, rfl, rfl, rfl, rfl⟩, fun v h => exec_hkTdacGo_ignored s v (.inr h),
      fun v hgo hc => ⟨_, exec_hkTdacGo_asked s v hp hgo hc, rfl, rfl, rfl, rfl, rfl⟩, fun hr e c hc => ?busy, fun hr e => ⟨⟨_, congrArg Host.Outcome.next (State.sysStart_starts _ hp hr), rfl, rfl⟩,
        ⟨_, congrArg Host.Outcome.next (State.sysStart_starts _ hp hr), rfl, rfl⟩,
        ⟨_, exec_syscalSave_saves e hp hr, State.calSaved_same _ _ _, fun j hj => State.calSaved_other _ _ hj, rfl⟩⟩⟩⟩
    case busy =>
      obtain ⟨w, told⟩ := s.raise_event .SYSCAL_BUSY Src.x1 [e % 8]
      exact ⟨_, w, exec_syscal_busy hp hr hc, rfl, told⟩

end Sys2Proof.Machine
end

section
/-! PROOFS of the family 16_bring_up_and_reset: partition resets, staging and distribution of firmware (R476 to R490). -/

namespace Sys2Proof.Machine

/-! ### MAINT PARTITION_RESET (R485, R486) -/

section PartitionReset
variable {s : State} {h : Hdr} {sc e k p : Nat} {fo : Bool}

theorem State.resetRefusal_start : (s.start h).resetRefusal sc e k fo = s.resetRefusal sc e k fo := by rw [State.start_eq]; rfl

theorem State.resetRefusal_scope (h : sc = 0 ∨ 3 < sc) : s.resetRefusal sc e k fo = .DESC_FORMAT := if_pos h

theorem scope_stands (h : sc = 3 ∨ sc = 2 ∨ sc = 1) : ¬ (sc = 0 ∨ 3 < sc) := by
  rcases h with rfl | rfl | rfl <;> decide

theorem scope_ne_mdie (h : sc = 1 ∨ sc = 2) : sc ≠ 3 := h.elim (fun h => h ▸ by decide) fun h => h ▸ by decide

theorem State.resetRefusal_absent (h : (sc = 3 ∧ 4 ≤ e) ∨ ((sc = 1 ∨ sc = 2) ∧ s.fits e = false) ∨ (sc = 1 ∧ (8 ≤ k ∨ s.posOf e k = none))) :
    s.resetRefusal sc e k fo = .TARGET_ABSENT :=
  (if_neg (scope_stands (h.imp And.left fun h => h.elim (·.1.symm) (.inr ·.1)))).trans
    (if_pos (h.imp_right (Or.imp (fun h => ⟨scope_ne_mdie h.1, congrArg Bool.not h.2⟩) fun h => ⟨h.1, h.2.imp_right Option.isNone_iff_eq_none.mpr⟩)))

/-- A reset of the same kind holds the die. -/
noncomputable def State.resetHeld (s : State) (sc e : Nat) : Bool := s.fw.resets.any (fun r => (r.scope == 3) == (sc == 3) && r.die == e)

theorem State.resetHeld_mdie (h : sc = 3) : s.resetHeld sc e = true ↔ ∃ r ∈ s.fw.resets, r.scope = 3 ∧ r.die = e := by
  simp [State.resetHeld, h]

theorem State.resetHeld_die (h : sc ≠ 3) : s.resetHeld sc e = true ↔ ∃ r ∈ s.fw.resets, r.scope ≠ 3 ∧ r.die = e := by
  simp [State.resetHeld, h]

theorem State.not_resetHeld_die (h : sc ≠ 3) (hr : ∀ r ∈ s.fw.resets, r.scope = 3 ∨ r.die ≠ e) : ¬ s.resetHeld sc e = true := fun held => by
  obtain ⟨r, hm, hs, hd⟩ := (State.resetHeld_die h).mp held
  exact (hr r hm).elim hs (· hd)

/-- The target of a reset is a fitted one. -/
noncomputable def State.resetTarget (s : State) (sc e k : Nat) : Prop := sc = 3 ∧ e < 4 ∨ sc = 2 ∧ s.fits e = true ∨ sc = 1 ∧ s.fits e = true ∧ k < 8 ∧ s.posOf e k ≠ none

section Target
variable (target : s.resetTarget sc e k)
include target

theorem State.mdie_stands : ¬ (sc = 3 ∧ 4 ≤ e) := fun a => target.elim (fun t => Nat.not_le.mpr t.2 a.2)
  fun t => scope_ne_mdie (t.symm.imp And.left And.left) a.1

theorem State.die_stands : ¬ (sc ≠ 3 ∧ (!s.fits e) = true) := fun a => target.elim (fun t => a.1 t.1)
  fun t => ne_true_of_eq_false (congrArg Bool.not (t.elim And.right (·.2.1))) a.2

theorem State.cluster_stands : ¬ (sc = 1 ∧ (8 ≤ k ∨ (s.posOf e k).isNone = true)) := fun a => target.elim (fun t => scope_ne_mdie (.inl a.1) t.1)
  fun t => t.elim (fun t => absurd (a.1.symm.trans t.1) (by decide)) fun t => a.2.elim (Nat.not_le.mpr t.2.2.1) fun n => t.2.2.2 (Option.isNone_iff_eq_none.mp n)

theorem State.resetRefusal_target : s.resetRefusal sc e k fo =
    if sc = 3 ∧ !fo then .RESET_CONFIRM
    else if s.fw.update.isSome ∨ s.resetHeld sc e then .RESET_BUSY
    else if sc ≠ 3 ∧ ((s.scan e).st ≠ 0 ∨ s.dieCovers e) then .RESET_BUSY
    else .OK :=
  (if_neg (scope_stands (target.imp And.left (Or.imp And.left And.left)))).trans (if_neg (not_or.mpr ⟨State.mdie_stands target, not_or.mpr ⟨State.die_stands target, State.cluster_stands target⟩⟩))

theorem State.resetRefusal_confirm (h3 : sc = 3) (hf : fo = false) : s.resetRefusal sc e k fo = .RESET_CONFIRM :=
  (State.resetRefusal_target target).trans (if_pos ⟨h3, congrArg Bool.not hf⟩)

variable (hf : sc = 3 → fo = true)
include hf

theorem State.resetRefusal_confirmed : s.resetRefusal sc e k fo =
    if s.fw.update.isSome ∨ s.resetHeld sc e then .RESET_BUSY else if sc ≠ 3 ∧ ((s.scan e).st ≠ 0 ∨ s.dieCovers e) then .RESET_BUSY else .OK :=
  (State.resetRefusal_target target).trans (if_neg fun no => ne_true_of_eq_false (congrArg Bool.not (hf no.1)) no.2)

theorem State.resetRefusal_busy (hb : s.fw.update ≠ none ∨ s.resetHeld sc e = true) : s.resetRefusal sc e k fo = .RESET_BUSY :=
  (State.resetRefusal_confirmed target hf).trans (if_pos (hb.imp Option.isSome_iff_ne_none.mpr id))

theorem State.resetRefusal_tested (h3 : sc ≠ 3) (hb : (s.scan e).st ≠ 0 ∨ s.dieCovers e = true) : s.resetRefusal sc e k fo = .RESET_BUSY :=
  (State.resetRefusal_confirmed target hf).trans (ite_eq_left_iff.mpr fun _ => if_pos ⟨h3, hb⟩)

theorem State.resetRefusal_ok (hu : s.fw.update = none) (hr : ¬ s.resetHeld sc e = true) (ht : sc ≠ 3 → (s.scan e).st = 0 ∧ s.dieCovers e = false) :
    s.resetRefusal sc e k fo = .OK :=
  (State.resetRefusal_confirmed target hf).trans ((if_neg (not_or.mpr ⟨ne_true_of_eq_false (congrArg Option.isSome hu), hr⟩)).trans
    (if_neg fun h => h.2.elim (fun hs => hs (ht h.1).1) fun hc => ne_true_of_eq_false (ht h.1).2 hc))

variable (h3 : sc ≠ 3)
include h3
omit hf

theorem State.resetRefusal_die (hb : s.fw.update ≠ none ∨ (∃ r ∈ s.fw.resets, r.scope ≠ 3 ∧ r.die = e) ∨ (s.scan e).st ≠ 0 ∨ s.dieCovers e = true) :
    s.resetRefusal sc e k fo = .RESET_BUSY :=
  hb.elim (fun hu => State.resetRefusal_busy target (absurd · h3) (.inl hu)) fun hb =>
    hb.elim (fun hr => State.resetRefusal_busy target (absurd · h3) (.inr ((State.resetHeld_die h3).mpr hr))) (State.resetRefusal_tested target (absurd · h3) h3)

theorem State.resetRefusal_dieFree (hu : s.fw.update = none) (hr : ∀ r ∈ s.fw.resets, r.scope = 3 ∨ r.die ≠ e) (hs : (s.scan e).st = 0) (hc : s.dieCovers e = false) :
    s.resetRefusal sc e k fo = .OK :=
  State.resetRefusal_ok target (absurd · h3) hu (State.not_resetHeld_die h3 hr) fun _ => ⟨hs, hc⟩

end Target

/-- A reset that is asked for. -/
noncomputable def askedReset (sc e k : Nat) (ps : List Nat) (d : Desc) : Reset := { scope := sc, die := e, cluster := if sc = 1 then k else 0, positions := ps, desc := some d }

/-- The positions of a reset. -/
noncomputable def State.resetPositions (s : State) (sc e k : Nat) : List Nat := if sc = 1 then (s.posOf e k).toList else if sc = 2 then s.resettable e else []

theorem State.resetPositions_start : (s.start h).resetPositions sc e k = s.resetPositions sc e k := by rw [State.start_eq]; rfl

/-- A reset joins those under way. -/
noncomputable def State.resetJoins (t : State) (r : Reset) : State := { t with fw := { t.fw with resets := t.fw.resets ++ [r] } }.resetStatus r 1

/-- PARTITION_RESET with what refuses it found. -/
noncomputable def resetOp (sc e k : Nat) (t : State) (d : Desc) (c : Code) : State :=
  if c ≠ .OK then t.finish d c 0 0 else t.resetJoins (askedReset sc e k (t.resetPositions sc e k) d)

theorem exec_partitionReset {c : Code} (ha : s.accepts h clsMaint = true) (hc : s.resetRefusal sc e k fo = c) :
    exec (.partitionReset h sc e k fo) s = .next (resetOp sc e k (s.start h) (s.descOf h) c) :=
  congrArg Host.Outcome.next ((State.descriptor_accepted ha _).trans (congrArg (resetOp sc e k (s.start h) (s.descOf h)) (State.resetRefusal_start.trans hc)))

theorem exec_partitionReset_refused {c : Code} (ha : s.accepts h clsMaint = true) (hc : s.resetRefusal sc e k fo = c) (hno : c ≠ .OK) :
    exec (.partitionReset h sc e k fo) s = .next ((s.start h).finish (s.descOf h) c 0 0) :=
  (exec_partitionReset ha hc).trans (congrArg Host.Outcome.next (if_pos hno))

theorem exec_partitionReset_joins (ha : s.accepts h clsMaint = true) (hc : s.resetRefusal sc e k fo = .OK) :
    exec (.partitionReset h sc e k fo) s = .next ((s.start h).resetJoins (askedReset sc e k (s.resetPositions sc e k) (s.descOf h))) :=
  (exec_partitionReset ha hc).trans (congrArg Host.Outcome.next ((if_neg (not_not.mpr rfl)).trans
    (congrArg (fun ps => (s.start h).resetJoins (askedReset sc e k ps (s.descOf h))) State.resetPositions_start)))

/-- A reset that joins leaves its state in RESET_STATUS and changes nothing but the firmware's part. -/
theorem partitionReset_joins (ha : s.accepts h clsMaint = true) (hc : s.resetRefusal sc e k fo = .OK) {r : Reset} {n : Nat}
    (hr : askedReset sc e k (s.resetPositions sc e k) (s.descOf h) = r)
    (hn : r.scope + 4 * r.die + 32 * (r.cluster % 16) + 512 = n) :
    ∃ u : State, exec (.partitionReset h sc e k fo) s = .next u ∧ u.fw.resets = s.fw.resets ++ [r] ∧ u.fw.lastReset = n ∧ u = { s.start h with fw := u.fw } := by
  cases hr
  exact ⟨_, exec_partitionReset_joins ha hc, congrArg (fun f : Fw => f.resets ++ [_]) (s.start_fw h), hn, rfl⟩

end PartitionReset

/-! ### Staging (R487) -/

section Stage
variable {s : State} {d : Desc} {b : Bundle} {g g' : SigOut}

/-- The verification of a bundle and of its steward image. -/
noncomputable def State.bundleTry (s : State) (b : Bundle) (g g' : SigOut) : State × Verified :=
  let x := s.verify b.formed 2 b.keyId b.security (some 0) g
  if x.2 = .accepted then x.1.verify b.formed 1 b.keyId b.stewardSecurity (some 0) g' else x

/-- The end of FW_STAGE for a bundle that has been verified. -/
noncomputable def bundleStaged (d : Desc) (b : Bundle) (y : State × Verified) : State :=
  match y.2 with
  | .signature => y.1.finish d .FW_SIGNATURE 0 0
  | .rollback => y.1.finish d .FW_ROLLBACK 0 0
  | .accepted => if y.1.stageStatus b ≠ .OK then y.1.finish d (y.1.stageStatus b) 0 0 else { y.1 with fw := { y.1.fw with staged := some b } }.finish d .OK b.version 0

theorem State.stageBundle_eq {y : State × Verified} (h : s.bundleTry b g g' = y) : s.stageBundle d b g g' = bundleStaged d b y := congrArg (bundleStaged d b) h

theorem State.bundleTry_refused {y : State × Verified} (h : s.verify b.formed 2 b.keyId b.security (some 0) g = y) (hno : y.2 ≠ .accepted) : s.bundleTry b g g' = y := by
  cases h
  exact if_neg hno

theorem State.stageBundle_signature (hm : s.sigMask b.formed 2 b.keyId g ≠ 0) :
    s.stageBundle d b g g' = (s.sigFailed 2 b.keyId (s.sigMask b.formed 2 b.keyId g)).finish d .FW_SIGNATURE 0 0 :=
  State.stageBundle_eq (State.bundleTry_refused (State.verify_signature hm _) nofun)

theorem State.stageBundle_rollback (hm : s.sigMask b.formed 2 b.keyId g = 0) (hv : b.security < s.rollback 0) : s.stageBundle d b g g' = s.finish d .FW_ROLLBACK 0 0 :=
  State.stageBundle_eq (State.bundleTry_refused (State.verify_rollback hm hv) nofun)

section Bundle
variable (hm : s.sigMask b.formed 2 b.keyId g = 0) (hv : s.rollback 0 ≤ b.security)
include hm hv

theorem State.bundleTry_steward : s.bundleTry b g g' = s.verify b.formed 1 b.keyId b.stewardSecurity (some 0) g' := by
  rw [State.bundleTry, State.verify_accepted hm hv]
  rfl

theorem State.stageBundle_stewardSignature (hm' : s.sigMask b.formed 1 b.keyId g' ≠ 0) :
    s.stageBundle d b g g' = (s.sigFailed 1 b.keyId (s.sigMask b.formed 1 b.keyId g')).finish d .FW_SIGNATURE 0 0 :=
  State.stageBundle_eq ((State.bundleTry_steward hm hv).trans (State.verify_signature hm' _))

theorem State.stageBundle_stewardRollback (hm' : s.sigMask b.formed 1 b.keyId g' = 0) (hv' : b.stewardSecurity < s.rollback 0) :
    s.stageBundle d b g g' = s.finish d .FW_ROLLBACK 0 0 :=
  State.stageBundle_eq ((State.bundleTry_steward hm hv).trans (State.verify_rollback hm' hv'))

theorem State.stageBundle_verified (hm' : s.sigMask b.formed 1 b.keyId g' = 0) (hv' : s.rollback 0 ≤ b.stewardSecurity) :
    s.stageBundle d b g g' = bundleStaged d b (s, .accepted) :=
  State.stageBundle_eq ((State.bundleTry_steward hm hv).trans (State.verify_accepted hm' hv'))

variable (hm' : s.sigMask b.formed 1 b.keyId g' = 0) (hv' : s.rollback 0 ≤ b.stewardSecurity)
include hm' hv'

theorem State.stageBundle_conflict {c : Code} (hc : s.stageStatus b = c) (hno : c ≠ .OK) : s.stageBundle d b g g' = s.finish d c 0 0 := by
  cases hc
  exact (State.stageBundle_verified hm hv hm' hv').trans (if_pos hno)

theorem State.stageBundle_staged (hc : s.stageStatus b = .OK) : s.stageBundle d b g g' = { s with fw := { s.fw with staged := some b } }.finish d .OK b.version 0 :=
  (State.stageBundle_verified hm hv hm' hv').trans (if_neg (not_not.mpr hc))

end Bundle

theorem State.stageStatus_peer (hp : s.fw.live.version < b.peerMin) : s.stageStatus b = .FW_PEER_CONFLICT := if_pos hp

theorem State.stageStatus_abi (hp : b.peerMin ≤ s.fw.live.version) (ha : ∃ e ∈ s.chans, e.2.isOpen = true ∧ ∀ v ∈ offerList b.abi, v = 0 ∨ v / 256 ≠ e.2.abiVer / 256) :
    s.stageStatus b = .FW_ABI_CONFLICT :=
  (if_neg (Nat.not_lt.mpr hp)).trans (if_pos (List.any_eq_true.mpr (ha.imp fun _ he => ⟨he.1, Bool.and_eq_true_iff.mpr ⟨he.2.1, congrArg Bool.not
    (List.any_eq_false.mpr fun v m known => (he.2.2 v m).elim (bne_iff_ne.mp (Bool.and_eq_true_iff.mp known).1) (· (beq_iff_eq.mp (Bool.and_eq_true_iff.mp known).2)))⟩⟩)))

theorem State.stageStatus_ok (hp : b.peerMin ≤ s.fw.live.version) (ha : ∀ e ∈ s.chans, e.2.isOpen = true → ∃ v ∈ offerList b.abi, v ≠ 0 ∧ v / 256 = e.2.abiVer / 256) :
    s.stageStatus b = .OK :=
  (if_neg (Nat.not_lt.mpr hp)).trans (if_neg fun conflict => (List.any_eq_true.mp conflict).elim fun e he =>
    ne_true_of_eq_false (congrArg Bool.not (List.any_eq_true.mpr ((ha e he.1 (Bool.and_eq_true_iff.mp he.2).1).imp fun _ hv =>
      ⟨hv.1, Bool.and_eq_true_iff.mpr ⟨bne_iff_ne.mpr hv.2.1, beq_iff_eq.mpr hv.2.2⟩⟩))) (Bool.and_eq_true_iff.mp he.2).2)

end Stage

/-! ### FW_STAGE and FW_ACTIVATE (R480, R487, R488) -/

section Descriptors
variable {s : State} {h : Hdr}

theorem exec_fwStage_busy {sp la src len : Nat} {re fo : Bool} {far : List Byte} {b : Bundle} {g g' : SigOut} {cs : List (List Byte)} (ha : s.accepts h clsMaint = true)
    (hb : s.fw.update ≠ none ∨ s.fw.receive ≠ none) :
    exec (.fwStage h sp re fo la src len far b g g' cs) s = .next ((s.start h).finish (s.descOf h) .FW_UPDATE_BUSY 0 0) :=
  congrArg Host.Outcome.next ((State.descriptor_accepted ha _).trans (if_pos ((congrArg (fun x : Fw => x.update.isSome = true ∨ x.receive.isSome = true) (s.start_fw h)).mpr
    (hb.imp Option.isSome_iff_ne_none.mpr Option.isSome_iff_ne_none.mpr))))

section Idle
variable {sp la src len : Nat} {fo re : Bool} {far : List Byte} {b : Bundle} {g g' : SigOut} {cs : List (List Byte)}
  (ha : s.accepts h clsMaint = true) (hu : s.fw.update = none) (hr : s.fw.receive = none)
include hu hr

omit ha in
theorem State.fwStage_idle : ¬ ((s.start h).fw.update.isSome = true ∨ (s.start h).fw.receive.isSome = true) := by
  rw [State.start_fw, hu, hr]
  decide

include ha

theorem exec_fwStage_receive (hre : re = true) : exec (.fwStage h sp re fo la src len far b g g' cs) s = .next { s.start h with fw := { (s.start h).fw with
    receive := some { desc := s.descOf h, bundle := b, sig := g, stewardSig := g', last := (s.start h).time.tick } } } :=
  congrArg Host.Outcome.next ((State.descriptor_accepted ha _).trans ((if_neg (State.fwStage_idle hu hr)).trans (if_pos hre)))

theorem exec_fwStage_reads (hre : re = false) : exec (.fwStage h sp re fo la src len far b g g' cs) s =
    .next (let rd := (s.start h).object sp src len far
      if rd.code ≠ .OK then rd.st.finish (s.descOf h) rd.code 0 0
      else
        let v := rd.st.writePieces (fun _ => {}) rd.bytes (piecesOf rd.st.updateBase rd.bytes.length)
        (if fo then v.forwardBundle la cs else v).stageBundle (s.descOf h) b g g') :=
  congrArg Host.Outcome.next ((State.descriptor_accepted ha _).trans ((if_neg (State.fwStage_idle hu hr)).trans (if_neg (ne_true_of_eq_false hre))))

end Idle

/-- Position `p` of die `d` is marked FW_OLD, as are all of the die that are neither RETIRED nor FUSED_OFF, and all of these dies. -/
noncomputable def State.markOld (s : State) (d p : Nat) : State := s.setPosition d p { s.position d p with fwOld := true }
noncomputable def State.markDie (s : State) (d : Nat) : State := (s.resettable d).foldl (fun s p => s.markOld d p) s
noncomputable def State.markDies (s : State) (l : List Nat) : State := l.foldl State.markDie s

/-- An update begins, with the positions of these dies marked FW_OLD. -/
noncomputable def State.activated (s : State) (l : List Nat) (x : Update) : State := { s.markDies l with fw := { (s.markDies l).fw with update := some x, updated := [] } }

/-- FW_ACTIVATE on a state in which the bundle `x` is staged. -/
noncomputable def State.activates (s : State) (d : Desc) (x : Option Bundle) : State :=
  match x with
  | none => s.finish d .FW_NOT_STAGED 0 0
  | some _ => if s.fw.update.isSome then s.finish d .FW_UPDATE_BUSY 0 0 else s.activated s.dies { desc := some d, steward := s.stewardCluster }

theorem exec_fwActivate {x : Option Bundle} (ha : s.accepts h clsMaint = true) (hs : s.fw.staged = x) : exec (.fwActivate h) s = .next ((s.start h).activates (s.descOf h) x) := by
  rw [← State.start_fw s h] at hs
  cases hs
  exact congrArg Host.Outcome.next (State.descriptor_accepted ha _)

theorem exec_fwActivate_unstaged (ha : s.accepts h clsMaint = true) (hs : s.fw.staged = none) :
    exec (.fwActivate h) s = .next ((s.start h).finish (s.descOf h) .FW_NOT_STAGED 0 0) := exec_fwActivate ha hs

theorem exec_fwActivate_busy (ha : s.accepts h clsMaint = true) (hs : s.fw.staged ≠ none) (hu : s.fw.update ≠ none) :
    exec (.fwActivate h) s = .next ((s.start h).finish (s.descOf h) .FW_UPDATE_BUSY 0 0) := by
  obtain ⟨b, hb⟩ := Option.ne_none_iff_exists'.mp hs
  rw [← State.start_fw s h] at hu
  exact (exec_fwActivate ha hb).trans (congrArg Host.Outcome.next (if_pos (Option.isSome_iff_ne_none.mpr hu)))

theorem State.activated_update (s : State) (l : List Nat) (x : Update) : (s.activated l x).fw.update = some x := rfl
theorem State.activated_chans (s : State) (l : List Nat) (x : Update) : (s.activated l x).chans = (s.markDies l).chans := rfl

theorem exec_fwActivate_starts (ha : s.accepts h clsMaint = true) (hs : s.fw.staged ≠ none) (hu : s.fw.update = none) : exec (.fwActivate h) s =
    .next ((s.start h).activated (s.start h).dies { desc := some (s.descOf h), steward := (s.start h).stewardCluster }) := by
  obtain ⟨b, hb⟩ := Option.ne_none_iff_exists'.mp hs
  rw [← State.start_fw s h] at hu
  exact (exec_fwActivate ha hb).trans (congrArg Host.Outcome.next (if_neg (by rw [hu]; decide)))

/-- From `s` to `t` every position keeps its state, and those marked FW_OLD stay marked. -/
noncomputable def State.MarksOld (s t : State) : Prop := ∀ e i, i < 9 → (t.position e i).st = (s.position e i).st ∧ ((s.position e i).fwOld = true → (t.position e i).fwOld = true)

theorem State.MarksOld.refl (s : State) : s.MarksOld s := fun _ _ _ => ⟨rfl, id⟩

theorem State.MarksOld.trans {s t u : State} (h : s.MarksOld t) (k : t.MarksOld u) : s.MarksOld u := fun e i hi =>
  ⟨(k e i hi).1.trans (h e i hi).1, fun old => (k e i hi).2 ((h e i hi).2 old)⟩

theorem State.fwOld_markOld (s : State) (d p : Nat) : ((s.markOld d p).position d p).fwOld = true := by
  have := s.position_setPosition_same d p { s.position d p with fwOld := true }
  exact (congrArg Position.fwOld this : _)

/-- Die and position of a position's number. -/
theorem position_number {d e p i : Nat} (hp : p < 9) (hi : i < 9) (h : e * 9 + i = d * 9 + p) : e = d ∧ i = p := by
  have die (d : Nat) {p : Nat} (hp : p < 9) : (d * 9 + p) / 9 = d := by rw [Nat.add_comm, Nat.add_mul_div_right _ _ (by decide), Nat.div_eq_of_lt hp, Nat.zero_add]
  have same : e = d := by rw [← die e hi, h, die d hp]
  exact ⟨same, Nat.add_left_cancel (same ▸ h)⟩

theorem State.marksOld_markOld (s : State) (d : Nat) {p : Nat} (hp : p < 9) : s.MarksOld (s.markOld d p) := fun e i hi => by
  by_cases h : e * 9 + i = d * 9 + p
  · obtain ⟨rfl, rfl⟩ := position_number hp hi h
    exact ⟨s.st_setPosition e i _, fun _ => s.fwOld_markOld e i⟩
  · have same := s.position_setPosition_other d p { s.position d p with fwOld := true } h
    exact ⟨congrArg Position.st same, (congrArg Position.fwOld same).trans⟩

section Fold
variable {f : State → Nat → State} {l : List Nat}

theorem State.marksOld_foldl (hf : ∀ (s : State), ∀ x ∈ l, s.MarksOld (f s x)) (s : State) : s.MarksOld (l.foldl f s) := by
  induction l generalizing s with
  | nil => exact .refl s
  | cons x l ih => exact (hf s x (.head _)).trans (ih (fun s y hy => hf s y (.tail _ hy)) _)

/-- What one entry of a list marks stays marked by those after it; those before it change nothing that it marks by. -/
theorem State.fwOld_foldl (hf : ∀ (s : State), ∀ x ∈ l, s.MarksOld (f s x)) {x e i : Nat} (hi : i < 9) {s : State}
    (hx : ∀ t : State, s.MarksOld t → ((f t x).position e i).fwOld = true) (hl : x ∈ l) : ((l.foldl f s).position e i).fwOld = true := by
  induction l generalizing s with
  | nil => cases hl
  | cons y l ih =>
    have rest : ∀ (s : State), ∀ x ∈ l, s.MarksOld (f s x) := fun s y hy => hf s y (.tail _ hy)
    obtain rfl | hl := List.mem_cons.mp hl
    · exact (State.marksOld_foldl rest _ e i hi).2 (hx s (.refl s))
    · exact ih rest (fun t ht => hx t ((hf s y (.head _)).trans ht)) hl

end Fold

theorem State.lt_of_mem_resettable {s : State} {d p : Nat} (h : p ∈ s.resettable d) : p < 9 := List.mem_range.mp (List.mem_of_mem_filter h)

theorem State.marksOld_markDie (s : State) (d : Nat) : s.MarksOld (s.markDie d) :=
  State.marksOld_foldl (fun s _ hp => s.marksOld_markOld d (State.lt_of_mem_resettable hp)) s

theorem State.fwOld_markDie {s : State} {d p : Nat} (hp : p < 9) (hr : (s.position d p).st ≠ .retired) (hf : (s.position d p).st ≠ .fusedOff) :
    ((s.markDie d).position d p).fwOld = true :=
  State.fwOld_foldl (fun s _ hp => s.marksOld_markOld d (State.lt_of_mem_resettable hp)) hp (fun t _ => t.fwOld_markOld d p)
    (List.mem_filter.mpr ⟨List.mem_range.mpr hp, by simp [hr, hf]⟩)

theorem State.fwOld_markDies {s : State} {l : List Nat} {d p : Nat} (hd : d ∈ l) (hp : p < 9) (hr : (s.position d p).st ≠ .retired) (hf : (s.position d p).st ≠ .fusedOff) :
    ((s.markDies l).position d p).fwOld = true := by
  refine State.fwOld_foldl (fun s d _ => s.marksOld_markDie d) hp (fun t ht => ?_) hd
  have same := (ht d p hp).1
  exact State.fwOld_markDie hp (same ▸ hr) (same ▸ hf)

theorem State.chans_markDies (s : State) (l : List Nat) : (s.markDies l).chans = s.chans := by
  have kept : Kept 70368744439808 s (s.markDies l) := kept_foldl l (fun _ _ h => kept_foldl _ (fun _ _ h => State.setPosition_kept rfl h) h) (Kept.refl 70368744439808 s)
  exact kept.only .chans rfl

end Descriptors

/-! ### The chain (R480) -/

section Chain
variable (s : State)

theorem State.transmit_win (p : Nat) (f : Frame) (n : Nat) : (s.transmit p f).win n = s.win n := by rw [State.transmit_eq]; rfl

theorem State.foldl_transmit_win (l : List (List Byte)) (la n : Nat) : (l.foldl (fun s c => s.transmit 0 (s.chunkFrame la c)) s).win n = s.win n := by
  induction l generalizing s with
  | nil => rfl
  | cons c l ih => exact (ih _).trans (s.transmit_win 0 _ n)

/-- The window that the head of a run opens over its UPDATE half. -/
noncomputable def State.runWindow (s : State) (la : Nat) : WinArgs := { base := s.updateBase, size := fwHalfSize, srcFirst := s.moduleId + 1, srcLast := la, rights := 4, ports := 1 }

theorem State.forwardBundle_win {la n : Nat} (cs : List (List Byte)) (he : s.winEntry (s.runWindow la) = some n) (hs : s.winStatus (s.runWindow la) false = .OK) :
    (s.forwardBundle la cs).win n = { st := .opened, args := s.runWindow la, used := true } := by
  have opened : s.forwardBundle la cs = cs.foldl (fun s c => s.transmit 0 (s.chunkFrame la c)) (s.winOpen n (s.runWindow la)) := by
    unfold State.runWindow at he hs ⊢
    unfold State.forwardBundle
    dsimp only
    rw [he]
    dsimp only
    rw [if_pos hs]
  rw [opened, State.foldl_transmit_win, State.win_winOpen, if_pos rfl]

end Chain

/-! ### A reset that fails (R478, R483, R490) -/

section Fails
variable {s : State} {e p : Nat} {bad : Bool} {r : Reset}

/-- A position that its reset does not wait for, or still waits for, does not end it. -/
theorem not_heldUp {x : Reset} {n t : Nat} (h : x.running = false ∨ x.die ≠ e ∨ p ∉ x.positions ∨ (bad = false ∧ t < x.since + n)) :
    ¬ (x.running && x.die == e && x.positions.contains p && (bad || decide (x.since + n ≤ t))) = true := fun c =>
  h.elim (fun h => ne_true_of_eq_false h (Bool.and_eq_true_iff.mp (Bool.and_eq_true_iff.mp (Bool.and_eq_true_iff.mp c).1).1).1)
    fun h => h.elim (· (beq_iff_eq.mp (Bool.and_eq_true_iff.mp (Bool.and_eq_true_iff.mp (Bool.and_eq_true_iff.mp c).1).1).2))
      fun h => h.elim (· (List.contains_iff_mem.mp (Bool.and_eq_true_iff.mp (Bool.and_eq_true_iff.mp c).1).2))
        fun h => (Bool.or_eq_true_iff.mp (Bool.and_eq_true_iff.mp c).2).elim (ne_true_of_eq_false h.1) fun late => Nat.not_le.mpr h.2 (of_decide_eq_true late)

theorem exec_resetTimeout_waits (h : ∀ r ∈ s.fw.resets, r.running = false ∨ r.die ≠ e ∨ p ∉ r.positions ∨ (bad = false ∧ s.time.tick < r.since + s.resetTimeout * tickSecond)) :
    exec (.resetTimeout e p bad) s = .next s :=
  congrArg Host.Outcome.next (if_neg (ne_true_of_eq_false (List.any_eq_false.mpr fun r hr fails => not_heldUp (h r hr) fails)))

variable (hr : s.fw.resets = [r]) (run : r.running = true) (die : r.die = e) (pos : r.positions = [p])
include hr run die pos

omit hr in
theorem Reset.holds : (r.running && r.die == e && r.positions.contains p) = true :=
  Bool.and_eq_true_iff.mpr ⟨Bool.and_eq_true_iff.mpr ⟨run, beq_iff_eq.mpr die⟩, List.contains_iff_mem.mpr (pos ▸ List.mem_singleton.mpr rfl)⟩

theorem exec_resetTimeout_fails (h : bad = true ∨ r.since + s.resetTimeout * tickSecond ≤ s.time.tick) :
    exec (.resetTimeout e p bad) s = .next (s.resetFails e p) :=
  congrArg Host.Outcome.next (if_pos (List.any_eq_true.mpr ⟨r, hr ▸ List.mem_singleton.mpr rfl, Bool.and_eq_true_iff.mpr ⟨Reset.holds run die pos, Bool.or_eq_true_iff.mpr (h.imp_right decide_eq_true)⟩⟩))

variable (scope : r.scope = 1)
include scope

theorem State.resetOf_single : s.resetOf e p = some r := by
  rw [State.resetOf, hr]
  exact List.find?_cons_of_pos (by simp [run, die, pos, scope])

omit hr run die pos scope in
/-- What the failure of position `p` does to the reset that holds it. -/
noncomputable def State.resetFailed (s : State) (d p : Nat) (x : Option Reset) : State :=
  match x with
  | none => s
  | some r =>
    if r.update && !r.live then
      { s with fw := { s.fw with
        resets := { r with live := true, since := s.time.tick } :: s.fw.resets.erase r
        update := s.fw.update.map (Update.revert (clusterKey d (s.position d p).logical)) } }.startReceiver s.fw.live false true true (9 * d + p)
    else (s.losePosition d p (some 11)).leaveReset r p

theorem State.resetFails_eq : s.resetFails e p = s.resetFailed e p (some r) := congrArg (s.resetFailed e p) (State.resetOf_single hr run die pos scope)

theorem State.resetFails_loses (h : r.update = false ∨ r.live = true) : s.resetFails e p = (s.losePosition e p (some 11)).leaveReset r p := by
  refine (State.resetFails_eq hr run die pos scope).trans (if_neg fun again => ?_)
  obtain ⟨update, old⟩ := Bool.and_eq_true_iff.mp again
  exact h.elim (fun h => Bool.false_ne_true (h.symm.trans update)) fun h => by rw [h] at old; exact absurd old (by decide)

/-- The reset of a position of a live update starts again from the LIVE half, and the update reverts. -/
noncomputable def State.resetAgain (s : State) (e p : Nat) (r : Reset) : State :=
  { s with fw := { s.fw with
    resets := { r with live := true, since := s.time.tick } :: s.fw.resets.erase r
    update := s.fw.update.map (Update.revert (clusterKey e (s.position e p).logical)) } }.startReceiver s.fw.live false true true (9 * e + p)

theorem State.resetFails_again (hu : r.update = true) (hl : r.live = false) : s.resetFails e p = s.resetAgain e p r :=
  (State.resetFails_eq hr run die pos scope).trans (if_pos (by rw [hu, hl]; rfl))

omit run die pos scope in
theorem State.resetAgain_resets : (s.resetAgain e p r).fw.resets = [{ r with live := true, since := s.time.tick }] :=
  congrArg (List.cons _) (show s.fw.resets.erase r = [] by rw [hr, List.erase_cons_head])

omit hr run die pos scope in
theorem State.resetAgain_update {x : Update} (hx : s.fw.update = some x) (hrev : x.reverting = false) :
    (s.resetAgain e p r).fw.update = some { x with reverting := true, cluster := clusterKey e (s.position e p).logical } :=
  (congrArg (Option.map (Update.revert (clusterKey e (s.position e p).logical))) hx).trans (congrArg some (if_neg (Bool.eq_false_iff.mp hrev)))

omit hr run die pos scope in
theorem State.resetAgain_receiver : ((s.resetAgain e p r).receiver (9 * e + p)).active = true ∧ ((s.resetAgain e p r).receiver (9 * e + p)).fetch = true
    ∧ ((s.resetAgain e p r).receiver (9 * e + p)).live = true ∧ ((s.resetAgain e p r).receiver (9 * e + p)).version = s.fw.live.version := by
  rw [State.resetAgain, State.startReceiver, State.receiver_setReceiver, if_pos rfl]
  exact ⟨rfl, rfl, rfl, rfl⟩

end Fails

/-- A reset of one position whose position is lost ends as failed. -/
noncomputable def Reset.lost (r : Reset) (p : Nat) : Reset := { r with positions := r.positions.erase p, failed := r.failed + 1 }

theorem State.losePosition_fw (s : State) (d p : Nat) (cause : Option Nat) : (s.losePosition d p cause).fw = (s.setReceiver (9 * d + p) {}).fw := by
  have cluster (t : State) (g : Nat) : (t.loseCluster g cause).fw = t.fw := (State.loseCluster_kept rfl (Kept.refl 74630625126115 t)).only .fw rfl
  have retired (t : State) : (t.retire d p).fw = t.fw := (State.retire_kept rfl (Kept.refl 70368750731264 t)).only .fw rfl
  have listed (t : State) (x : AshEntry) : (t.ashAdd x).fw = t.fw := (State.ashAdd_kept rfl (Kept.refl 1073741921 t)).only .fw rfl
  refine iteInduction (motive := fun u : State => u.fw = (s.setReceiver (9 * d + p) {}).fw) (fun _ => cluster _ _) fun _ => ?_
  cases cause with
  | none => exact retired _
  | some c => exact (listed _ _).trans (retired _)

/-- A reset that fails, before its descriptor completes: it is gone, shown as failed, counted and reported. -/
noncomputable def State.resetLost (s : State) (r : Reset) : State :=
  (({ s with fw := { s.fw with resets := s.fw.resets.erase r } }.resetStatus r 3).bump (secReg Reg.RESET_TOTAL) 1).raise .PARTITION_RESET_FAILED Src.steward [r.scope, r.die, r.cluster]

theorem State.resetEnd_fails (s : State) {r : Reset} (h : r.release = false) : s.resetEnd r false = (s.resetLost r).resetCompletes r false :=
  if_neg (by rw [h]; exact Bool.false_ne_true)

theorem State.resetLost_status (s : State) {r : Reset} (h : r.release = false) : (s.resetLost r).fw.lastReset = r.scope + 4 * r.die + 32 * (r.cluster % 16) + 512 * 3 := by
  have shown (t : State) : (t.resetStatus r 3).fw.lastReset = r.scope + 4 * r.die + 32 * (r.cluster % 16) + 512 * 3 := by
    rw [State.resetStatus, h]; rfl
  exact shown _

theorem State.resetLost_resets (s : State) (r : Reset) : (s.resetLost r).fw.resets = s.fw.resets.erase r := by
  have shown (t : State) : (t.resetStatus r 3).fw.resets = t.fw.resets := by
    unfold State.resetStatus
    split <;> rfl
  exact shown _

/-- A reset goes on without the position that it has lost. -/
noncomputable def State.resetLeft (s : State) (r : Reset) (p : Nat) : State := { s with fw := { s.fw with resets := r.lost p :: s.fw.resets.erase r } }

section Single
variable {s : State} {r : Reset} {p : Nat} (pos : r.positions = [p]) (scope : r.scope = 1) (release : r.release = false)
include pos scope release

theorem State.leaveReset_fails : s.leaveReset r p = ((s.resetLeft r p).resetLost (r.lost p)).resetCompletes (r.lost p) false := by
  have empty : (r.lost p).positions.isEmpty = true := by
    show (r.positions.erase p).isEmpty = true
    rw [pos, List.erase_cons_head]; rfl
  exact (if_pos ⟨empty, scope⟩).trans (State.resetEnd_fails (s.resetLeft r p) (r := r.lost p) release)

theorem State.leaveReset_fw : (s.leaveReset r p).fw = ((s.resetLeft r p).resetLost (r.lost p)).fw :=
  (congrArg State.fw (State.leaveReset_fails pos scope release)).trans (State.resetCompletes_frame _ _ _).1

theorem State.leaveReset_event : ∃ v ∈ (s.leaveReset r p).ev.inFlight, v.code = .PARTITION_RESET_FAILED ∧ v.args = [1, r.die, r.cluster] := by
  rw [State.leaveReset_fails pos scope release, (State.resetCompletes_frame _ _ _).2.1, ← scope]
  exact State.mem_raise _ _ _ _

theorem State.leaveReset_resets (hr : s.fw.resets = [r]) : (s.leaveReset r p).fw.resets = [] := by
  rw [State.leaveReset_fw pos scope release, State.resetLost_resets]
  show (r.lost p :: s.fw.resets.erase r).erase (r.lost p) = []
  rw [List.erase_cons_head, hr, List.erase_cons_head]

theorem State.leaveReset_status : (s.leaveReset r p).fw.lastReset = 1 + 4 * r.die + 32 * (r.cluster % 16) + 512 * 3 := by
  rw [State.leaveReset_fw pos scope release, State.resetLost_status _ (r := r.lost p) release, ← scope]
  rfl

end Single

/-! ### Chunks (R476 to R479) -/

/-! What joins a list only once is in it, and nothing leaves. -/

section Listed
variable {α : Type} [BEq α] [LawfulBEq α] (l : List α) (x : α)

theorem mem_noted : x ∈ if l.contains x then l else x :: l := by
  split
  next h => exact List.contains_iff_mem.mp h
  next => exact .head _

theorem mem_listed : x ∈ if l.contains x then l else l ++ [x] := by
  split
  next h => exact List.contains_iff_mem.mp h
  next => exact List.mem_append_right _ (.head _)

omit [LawfulBEq α] in
theorem subset_listed {y : α} (hy : y ∈ l) : y ∈ if l.contains x then l else l ++ [x] := by
  split
  · exact hy
  · exact List.mem_append_left _ hy

end Listed

section Chunks
variable (s : State)

theorem State.placeChunk_frame (t kind k : Nat) (bs : List Byte) : Kept 6144 s (s.placeChunk t kind k bs) := State.placeChunk_kept rfl (Kept.refl 6144 s)

theorem State.writePieces_frame (bs : List Byte) (l : List (Nat × Nat)) : Kept 6144 s (s.writePieces (fun _ => {}) bs l) := State.writePieces_kept rfl (Kept.refl 6144 s)

variable {s} {t : Nat} {c : Chunk}

/-- What a chunk whose data is placed leaves at its receiver. -/
noncomputable def State.chunkTaken (s : State) (t : Nat) (c : Chunk) : State :=
  (s.placeChunk t c.kind c.seq c.data).setReceiver t { s.receiver t with
    got := if (s.receiver t).got.contains (c.kind, c.seq) then (s.receiver t).got else (s.receiver t).got ++ [(c.kind, c.seq)], last := s.time.tick }

/-- What an END marker leaves at its receiver. -/
noncomputable def State.receiverEnds (s : State) (t kind : Nat) : State :=
  s.setReceiver t { s.receiver t with ended := if (s.receiver t).ended.contains kind then (s.receiver t).ended else kind :: (s.receiver t).ended, last := s.time.tick }

theorem State.setReceiver_same (s : State) (t : Nat) (x : Receiver) : (s.setReceiver t x).receiver t = x := (s.receiver_setReceiver t x t).trans (if_pos rfl)

theorem State.receiver_receiverEnds (s : State) (t kind : Nat) : (s.receiverEnds t kind).receiver t =
    { s.receiver t with ended := if (s.receiver t).ended.contains kind then (s.receiver t).ended else kind :: (s.receiver t).ended, last := s.time.tick } :=
  s.setReceiver_same t _

theorem State.receiverEnds_facts (s : State) (t kind : Nat) : kind ∈ ((s.receiverEnds t kind).receiver t).ended ∧ ((s.receiverEnds t kind).receiver t).got = (s.receiver t).got
    ∧ ((s.receiverEnds t kind).receiver t).last = s.time.tick ∧ (∀ j, j ≠ t → (s.receiverEnds t kind).receiver j = s.receiver j)
    ∧ s.receiverEnds t kind = { s with fw := (s.receiverEnds t kind).fw } :=
  ⟨Eq.mpr (congrArg (fun x : Receiver => kind ∈ x.ended) (s.receiver_receiverEnds t kind)) (mem_noted _ _), (congrArg Receiver.got (s.receiver_receiverEnds t kind) :),
    (congrArg Receiver.last (s.receiver_receiverEnds t kind) :), fun j hj => (s.receiver_setReceiver t _ j).trans (if_neg hj), rfl⟩

theorem State.chunkTaken_facts (s : State) (t : Nat) (c : Chunk) : (c.kind, c.seq) ∈ ((s.chunkTaken t c).receiver t).got ∧ (∀ k ∈ (s.receiver t).got, k ∈ ((s.chunkTaken t c).receiver t).got)
    ∧ ((s.chunkTaken t c).receiver t).last = s.time.tick ∧ (∀ j, j ≠ t → (s.chunkTaken t c).receiver j = s.receiver j)
    ∧ (s.chunkTaken t c).mem = (s.placeChunk t c.kind c.seq c.data).mem :=
  ⟨Eq.mpr (congrArg (fun x : Receiver => (c.kind, c.seq) ∈ x.got) (State.setReceiver_same _ t _)) (mem_listed _ _),
    fun k hk => Eq.mpr (congrArg (fun x : Receiver => k ∈ x.got) (State.setReceiver_same _ t _)) (subset_listed _ _ hk),
    congrArg Receiver.last (State.setReceiver_same _ t _), fun j hj => (State.receiver_setReceiver _ t _ j).trans ((if_neg hj).trans
      (congrArg (fun x : Fw => Tab.get x.receivers j) ((s.placeChunk_frame _ _ _ _).only .fw rfl))), rfl⟩

theorem State.takeChunk_unheard (h : (s.receiver t).active = false ∨ c.ok = false ∨ c.run ≠ (s.receiver t).run ∨ c.version ≠ (s.receiver t).version
    ∨ ∀ x ∈ (s.receiver t).images, x.1 ≠ c.kind) : s.takeChunk t c = s :=
  if_pos (h.imp (congrArg Bool.not) (Or.imp (congrArg Bool.not) (Or.imp_right (Or.imp_right fun h =>
    congrArg Bool.not (List.any_eq_false.mpr fun x hx known => h x hx (beq_iff_eq.mp known))))))

section Heard
variable (act : (s.receiver t).active = true) (ok : c.ok = true) (run : c.run = (s.receiver t).run) (version : c.version = (s.receiver t).version)
include act ok run version

theorem State.takeChunk_heard (kind : ∃ x ∈ (s.receiver t).images, x.1 = c.kind) {u : State}
    (h : (if c.isEnd then s.setReceiver t { s.receiver t with
        ended := if (s.receiver t).ended.contains c.kind then (s.receiver t).ended else c.kind :: (s.receiver t).ended, last := s.time.tick }
      else if !((s.receiver t).images.any (fun x => x.1 == c.kind && decide (c.seq < x.2))) then s
      else s.chunkTaken t c) = u) : s.takeChunk t c = u :=
  (if_neg (not_or.mpr ⟨ne_true_of_eq_false (congrArg Bool.not act), not_or.mpr ⟨ne_true_of_eq_false (congrArg Bool.not ok), not_or.mpr ⟨not_not.mpr run, not_or.mpr
    ⟨not_not.mpr version, ne_true_of_eq_false (congrArg Bool.not (List.any_eq_true.mpr (kind.imp fun _ hx => ⟨hx.1, beq_iff_eq.mpr hx.2⟩)))⟩⟩⟩⟩)).trans h

theorem State.takeChunk_places (he : c.isEnd = false) (hk : ∃ x ∈ (s.receiver t).images, x.1 = c.kind ∧ c.seq < x.2) : s.takeChunk t c = s.chunkTaken t c :=
  State.takeChunk_heard act ok run version (hk.imp fun _ hx => ⟨hx.1, hx.2.1⟩) ((if_neg (Bool.eq_false_iff.mp he)).trans (if_neg (ne_true_of_eq_false (congrArg Bool.not
    (List.any_eq_true.mpr (hk.imp fun _ hx => ⟨hx.1, Bool.and_eq_true_iff.mpr ⟨beq_iff_eq.mpr hx.2.1, decide_eq_true hx.2.2⟩⟩))))))

theorem State.takeChunk_ends (he : c.isEnd = true) (kind : ∃ x ∈ (s.receiver t).images, x.1 = c.kind) : s.takeChunk t c = s.receiverEnds t c.kind :=
  State.takeChunk_heard act ok run version kind (if_pos he)

end Heard

end Chunks

section Fetch
variable {s : State} {t : Nat} {far : List Byte}

theorem exec_fwChunkFetch_position (ht : t < 72) : exec (.fwChunkFetch t far) s = .next (s.fetchChunk t) := congrArg Host.Outcome.next (if_pos ht)

theorem State.fetchChunk_inactive (h : (s.receiver t).active = false) : s.fetchChunk t = s := if_pos (congrArg Bool.not h)

/-- The chunk that the receiver fetches next. -/
noncomputable def State.fetchNext (s : State) (t : Nat) : Option (Nat × Nat) :=
  missingChunk (s.receiver t).images (s.receiver t).got (fun k => ((s.receiver t).fetch || decide ((s.receiver t).last + tickSecond ≤ s.time.tick)) || (s.receiver t).ended.contains k)

section Active
variable (ha : (s.receiver t).active = true)
include ha

omit ha in
/-- A receiver fetches the chunk `m`, if there is one. -/
noncomputable def State.chunkFetched (s : State) (t : Nat) (m : Option (Nat × Nat)) : State :=
  match m with
  | none => s
  | some (kind, k) =>
    let rd := s.read (Reader.ofCluster (s.positionKey (t / 9) (t % 9))) (chunkAddr (if (s.receiver t).live then s.liveBase else s.updateBase) (s.receiver t).version kind k) 4096
    if rd.code = .OK then
      ((rd.st.placeChunk t kind k rd.bytes).setReceiver t { s.receiver t with got := (s.receiver t).got ++ [(kind, k)], tries := 0 }).bump (secReg Reg.FW_REFETCH_TOTAL) 1
    else if (s.receiver t).tries + 1 < s.fetchTries then rd.st.setReceiver t { s.receiver t with tries := (s.receiver t).tries + 1 }
    else rd.st.chunkFails t kind k

theorem State.fetchChunk_eq {m : Option (Nat × Nat)} (hm : s.fetchNext t = m) : s.fetchChunk t = s.chunkFetched t m :=
  (if_neg (ne_true_of_eq_false (congrArg Bool.not ha))).trans (congrArg (s.chunkFetched t) hm)

end Active

section Module
variable (ht : 72 ≤ t)
include ht

theorem exec_fwChunkFetch_unheld (h : s.fw.receive = none) : exec (.fwChunkFetch t far) s = .next s := by
  refine congrArg Host.Outcome.next ((if_neg (Nat.not_lt.mpr ht)).trans ?_)
  rw [h]

section Held
variable {x : FwReceive} (hx : s.fw.receive = some x)
include hx

theorem exec_fwChunkFetch_early (hw : s.time.tick < x.last + tickSecond) : exec (.fwChunkFetch t far) s = .next s := by
  refine congrArg Host.Outcome.next ((if_neg (Nat.not_lt.mpr ht)).trans ?_)
  rw [hx]
  exact if_neg (Nat.not_le.mpr hw)

theorem exec_fwChunkFetch_late (hq : x.last + tickSecond ≤ s.time.tick) {kind k : Nat} (hm : missingChunk x.bundle.images x.chunks (fun _ => true) = some (kind, k)) :
    exec (.fwChunkFetch t far) s = .next ((s.receiveChunk { x with last := 0 } kind k (fitBytes 4096 far)).bump (secReg Reg.FW_REFETCH_TOTAL) 1) := by
  refine congrArg Host.Outcome.next ((if_neg (Nat.not_lt.mpr ht)).trans ?_)
  rw [hx]
  refine (if_pos hq).trans ?_
  rw [hm]

end Held

end Module

end Fetch

/-! ### The module's own reception of a bundle (R480) -/

section Receive
variable (s : State) (x : FwReceive) (kind k : Nat) (bs : List Byte)

/-- The reception with one chunk more. -/
noncomputable def FwReceive.with (x : FwReceive) (kind k now : Nat) : FwReceive :=
  { x with last := now, chunks := if x.chunks.contains (kind, k) then x.chunks else x.chunks ++ [(kind, k)] }

/-- A chunk is written to the UPDATE half. -/
noncomputable def State.chunkWritten (s : State) (x : FwReceive) (kind k : Nat) (bs : List Byte) : State :=
  { s with fw := { s.fw with receive := some (x.with kind k s.time.tick) } }.writePieces (fun _ => {}) bs (piecesOf (chunkAddr s.updateBase x.bundle.version kind k) 4096)

/-- The reception is over. -/
noncomputable def State.unheld (s : State) : State := { s with fw := { s.fw with receive := none } }

theorem State.unheld_receive : s.unheld.fw.receive = none := rfl
theorem State.unheld_chans : s.unheld.chans = s.chans := rfl

theorem State.receiveChunk_goesOn (h : missingChunk x.bundle.images (x.with kind k s.time.tick).chunks (fun _ => true) ≠ none) : s.receiveChunk x kind k bs = s.chunkWritten x kind k bs :=
  if_neg fun none => h (Option.isNone_iff_eq_none.mp none)

theorem State.receiveChunk_last (h : missingChunk x.bundle.images (x.with kind k s.time.tick).chunks (fun _ => true) = none) :
    s.receiveChunk x kind k bs = (s.chunkWritten x kind k bs).unheld.stageBundle x.desc x.bundle x.sig x.stewardSig :=
  if_pos (Option.isNone_iff_eq_none.mpr h)

theorem FwReceive.with_new {x : FwReceive} {kind k : Nat} (h : (kind, k) ∉ x.chunks) (now : Nat) : x.with kind k now = { x with last := now, chunks := x.chunks ++ [(kind, k)] } := by
  have : x.chunks.contains (kind, k) = false := by simpa using h
  rw [FwReceive.with, this]
  rfl

theorem State.chunkWritten_fw : (s.chunkWritten x kind k bs).fw = { s.fw with receive := some (x.with kind k s.time.tick) } :=
  (State.writePieces_frame _ _ _).only .fw rfl

theorem State.chunkWritten_chans : (s.chunkWritten x kind k bs).chans = s.chans := (State.writePieces_frame _ _ _).only .chans rfl

end Receive

section Mcast
variable {s : State} {p : Nat} {f : Frame}

/-- What is received on a port, its credits owed. -/
noncomputable def State.portTaken (s : State) (p : Nat) (f : Frame) : State := (s.bump (portReg p Reg.GP_RX_FRAMES_TOTAL) 1).owe p f

/-- The chunk's frame goes on along the chain unless the run ends here. -/
noncomputable def State.chunkForwarded (s : State) (f : Frame) : State := if f.dst = s.moduleId ∨ !s.portUp 0 then s else s.transmit 0 f

theorem State.chunkForwarded_eq : (if f.dst = s.moduleId ∨ s.portUp 0 = false then s else s.transmit 0 f) = s.chunkForwarded f := by
  simp only [State.chunkForwarded, Bool.not_eq_true']

/-- A bundle's reception takes a chunk that arrives along the chain. -/
noncomputable def State.chunkArrives (s : State) (x : FwReceive) (c : Chunk) : State :=
  if !c.ok ∨ c.version ≠ x.bundle.version then s
  else if c.isEnd then { s with fw := { s.fw with receive := some { x with last := s.time.tick } } }
  else if x.bundle.images.any (fun y => y.1 == c.kind && decide (c.seq < y.2)) then s.receiveChunk x c.kind c.seq c.data
  else s

/-- What a chunk's frame does to the reception that is held. -/
noncomputable def State.mcastTaken (s : State) (p : Nat) (f : Frame) (r : Option FwReceive) : State :=
  match r with
  | none => s
  | some x => if Frame.ok f then ((s.portTaken p f).chunkForwarded f).chunkArrives x (parseChunk f.body) else (s.portTaken p f).bump (portReg p Reg.GP_FCRC_FAIL_TOTAL) 1

theorem exec_mcastChunk_ignored (h : p ≠ 1 ∨ s.portUp p = false ∨ f.kind ≠ fkChunk ∨ s.fw.receive = none) : exec (.mcastChunk p f) s = .next s := by
  refine congrArg Host.Outcome.next (ite_eq_right_iff.mpr fun ⟨hp, up, kind⟩ => ?_)
  obtain h | h | h | h := h
  · exact absurd hp h
  · exact absurd (h.symm.trans up) Bool.false_ne_true
  · exact absurd kind h
  · exact congrArg (s.mcastTaken p f) h

section Taken
variable {x : FwReceive} (hp : p = 1) (up : s.portUp p = true) (kind : f.kind = fkChunk) (hx : s.fw.receive = some x)
include hp up kind hx

theorem exec_mcastChunk_taken {u : State} (hu : s.mcastTaken p f (some x) = u) : exec (.mcastChunk p f) s = .next u :=
  congrArg Host.Outcome.next ((if_pos ⟨hp, up, kind⟩).trans ((congrArg (s.mcastTaken p f) hx).trans hu))

variable {v : State} (hf : Frame.ok f = true)
  (hv : v = if f.dst = (s.portTaken p f).moduleId ∨ (s.portTaken p f).portUp 0 = false then s.portTaken p f else (s.portTaken p f).transmit 0 f)
include hf hv

theorem exec_mcastChunk_arrives {u : State} (hu : v.chunkArrives x (parseChunk f.body) = u) : exec (.mcastChunk p f) s = .next u :=
  exec_mcastChunk_taken hp up kind hx ((if_pos hf).trans
    ((congrArg (fun w : State => w.chunkArrives x (parseChunk f.body)) (hv.trans State.chunkForwarded_eq).symm).trans hu))

end Taken

section Arrives
variable {x : FwReceive} {c : Chunk}

theorem State.chunkArrives_foreign (h : c.ok = false ∨ c.version ≠ x.bundle.version) : s.chunkArrives x c = s := if_pos (h.imp_left (congrArg Bool.not))

variable (hok : c.ok = true) (hver : c.version = x.bundle.version)
include hok hver

theorem State.chunkArrives_known : ¬ ((!c.ok) = true ∨ c.version ≠ x.bundle.version) := fun h => h.elim (ne_true_of_eq_false (congrArg Bool.not hok)) (· hver)

theorem State.chunkArrives_ends (he : c.isEnd = true) : s.chunkArrives x c = { s with fw := { s.fw with receive := some { x with last := s.time.tick } } } :=
  (if_neg (State.chunkArrives_known hok hver)).trans (if_pos he)

theorem State.chunkArrives_placed (he : c.isEnd = false) (hk : ∃ y ∈ x.bundle.images, y.1 = c.kind ∧ c.seq < y.2) : s.chunkArrives x c = s.receiveChunk x c.kind c.seq c.data :=
  (if_neg (State.chunkArrives_known hok hver)).trans ((if_neg (Bool.eq_false_iff.mp he)).trans
    (if_pos (List.any_eq_true.mpr (hk.imp fun _ hy => ⟨hy.1, Bool.and_eq_true_iff.mpr ⟨beq_iff_eq.mpr hy.2.1, decide_eq_true hy.2.2⟩⟩))))

end Arrives

theorem State.tick_portTaken : (s.portTaken p f).time = s.time :=
  (State.owe_kept rfl (Kept.refl 2199023255555 (s.bump (portReg p Reg.GP_RX_FRAMES_TOTAL) 1))).only .time rfl

theorem State.time_forwarded {v : State} (hv : v = if f.dst = (s.portTaken p f).moduleId ∨ (s.portTaken p f).portUp 0 = false then s.portTaken p f else (s.portTaken p f).transmit 0 f) :
    v.time = s.time :=
  (congrArg State.time hv).trans ((iteInduction (motive := fun u : State => u.time = (s.portTaken p f).time) (fun _ => rfl) fun _ => by rw [State.transmit_eq]).trans State.tick_portTaken)

end Mcast

/-- Settles O53: resets, staging, activation, chunks and the reception of a bundle, each command by its own branch; a reset that fails by `State.leaveReset_single`. -/
theorem resetsAndFirmware : Obligations.ResetsAndFirmware := by
  refine ⟨?ops, ?bundle, ?window, ?timeout, ?chunk, ?fetch, ?receive, ?mcast⟩
  case ops =>
    intro s h ha t d
    refine ⟨fun sc e k fo => ?reset, fun sp re fo la src len far b sig sig' cs => ?stage, exec_fwActivate_unstaged ha, exec_fwActivate_busy ha, fun hs hu => ?activate, fun a => ?query⟩
    case reset =>
      exact ⟨fun h => exec_partitionReset_refused ha (State.resetRefusal_scope h) (by decide), fun h => exec_partitionReset_refused ha (State.resetRefusal_absent h) (by decide),
        fun h3 he hf => exec_partitionReset_refused ha (State.resetRefusal_confirm (.inl ⟨h3, he⟩) h3 hf) (by decide),
        fun h3 he hf hb => exec_partitionReset_refused ha (State.resetRefusal_busy (.inl ⟨h3, he⟩) (fun _ => hf) (hb.imp_right (State.resetHeld_mdie h3).mpr)) (by decide),
        fun h2 hf hb => exec_partitionReset_refused ha (State.resetRefusal_die (.inr (.inl ⟨h2, hf⟩)) (scope_ne_mdie (.inr h2)) hb) (by decide),
        fun h2 hf hu hr hs hc => partitionReset_joins ha (State.resetRefusal_dieFree (.inr (.inl ⟨h2, hf⟩)) (scope_ne_mdie (.inr h2)) hu hr hs hc)
          ((congrArg (fun sc => askedReset sc e k (s.resetPositions sc e k) d) h2).trans rfl) rfl,
        fun p h1 hf hk hp hu hr hs hc => partitionReset_joins ha
          (State.resetRefusal_dieFree (.inr (.inr ⟨h1, hf, hk, fun n => nomatch hp.symm.trans n⟩)) (scope_ne_mdie (.inl h1)) hu hr hs hc)
          ((congrArg (fun sc => askedReset sc e k (s.resetPositions sc e k) d) h1).trans (congrArg (fun x : Option Nat => askedReset 1 e k x.toList d) hp))
          (congrArg (fun n => 1 + 4 * e + 32 * n + 512) (Nat.mod_eq_of_lt (hk.trans (by decide)))),
        fun h3 he hf hu hr => partitionReset_joins ha (State.resetRefusal_ok (.inl ⟨h3, he⟩) (fun _ => hf) hu
            (fun held => ((State.resetHeld_mdie h3).mp held).elim fun r hm => (hr r hm.1).elim (· hm.2.1) (· hm.2.2)) fun h => absurd h3 h)
          ((congrArg (fun sc => askedReset sc e k (s.resetPositions sc e k) d) h3).trans rfl) rfl⟩
    case stage =>
      refine ⟨exec_fwStage_busy ha, fun hu hr => ⟨fun hre => ⟨_, exec_fwStage_receive ha hu hr hre,
        congrArg (fun x : Time => some ({ desc := s.descOf h, bundle := b, sig := sig, stewardSig := sig', last := x.tick } : FwReceive)) (s.start_time h), rfl⟩, fun hre => ?reads⟩⟩
      intro rd v
      exact ⟨fun hc => (exec_fwStage_reads ha hu hr hre).trans (congrArg Host.Outcome.next (if_pos hc)),
        fun hc hf => (exec_fwStage_reads ha hu hr hre).trans (congrArg Host.Outcome.next ((if_neg (not_not.mpr hc)).trans (congrArg (State.stageBundle · d b sig sig') (if_neg (Bool.eq_false_iff.mp hf))))),
        fun hc hf => (exec_fwStage_reads ha hu hr hre).trans (congrArg Host.Outcome.next ((if_neg (not_not.mpr hc)).trans (congrArg (State.stageBundle · d b sig sig') (if_pos hf))))⟩
    case activate =>
      refine ⟨_, exec_fwActivate_starts ha hs hu, ⟨_, State.activated_update _ _ _, rfl, rfl, rfl⟩, fun e p hf he hp hr ho => ?_,
        (State.activated_chans _ _ _).trans (State.chans_markDies _ _)⟩
      have mem : e ∈ (s.start h).dies := List.mem_filter.mpr ⟨List.mem_range.mpr he, (s.fits_start h e).trans hf⟩
      rw [← State.position_start (h := h)] at hr ho
      exact State.fwOld_markDies mem hp hr ho
    case query => exact congrArg Host.Outcome.next ((State.descriptor_accepted ha _).trans (congrArg
      (fun x : Fw => (t.hostPut a (leBytes 8 t.bootStatus ++ leBytes 8 t.fwStatus ++ leBytes 8 x.lastReset ++ leBytes 40 0)).finish d .OK 0 0) (s.start_fw h)))
  case bundle =>
    intro s d b g g'
    exact ⟨State.stageBundle_signature, State.stageBundle_rollback, fun hm hv => ⟨State.stageBundle_stewardSignature hm hv, State.stageBundle_stewardRollback hm hv, fun hm' hv' =>
      ⟨fun hp => State.stageBundle_conflict hm hv hm' hv' (State.stageStatus_peer hp) (by decide),
        fun hp hc => State.stageBundle_conflict hm hv hm' hv' (State.stageStatus_abi hp hc) (by decide),
        fun hp hc => ⟨_, State.stageBundle_staged hm hv hm' hv' (State.stageStatus_ok hp hc), rfl, rfl⟩⟩⟩⟩
  case window =>
    intro s la cs n w he hs
    exact ⟨congrArg Win.st (s.forwardBundle_win cs he hs), congrArg Win.args (s.forwardBundle_win cs he hs)⟩
  case timeout =>
    intro s e p bad
    refine ⟨exec_resetTimeout_waits, fun r hr run die late => ⟨fun scope pos release keeps => ⟨_, (exec_resetTimeout_fails hr run die pos late).trans
      (congrArg Host.Outcome.next (State.resetFails_loses hr run die pos scope keeps)), State.leaveReset_resets pos scope release ((congrArg Fw.resets (s.losePosition_fw e p _)).trans hr), ?_, ?_⟩,
      fun x scope pos hu hl hx hrev => ⟨_, _, (exec_resetTimeout_fails hr run die pos late).trans (congrArg Host.Outcome.next (State.resetFails_again hr run die pos scope hu hl)),
        State.resetAgain_resets hr, State.resetAgain_update hx hrev, rfl, rfl, State.resetAgain_receiver⟩⟩⟩
    · exact die ▸ State.leaveReset_event pos scope release
    · exact die ▸ State.leaveReset_status pos scope release
  case chunk =>
    intro s t bs r c
    exact ⟨fun h => congrArg Host.Outcome.next (State.takeChunk_unheard h), fun hact hok hrun hver =>
      ⟨fun he hk => ⟨_, congrArg Host.Outcome.next (State.takeChunk_ends hact hok hrun hver he hk), s.receiverEnds_facts t c.kind⟩,
        fun he hk => ⟨_, congrArg Host.Outcome.next (State.takeChunk_places hact hok hrun hver he hk), s.chunkTaken_facts t c⟩⟩⟩
  case fetch =>
    intro s t far
    refine ⟨fun ht => ⟨fun h => (exec_fwChunkFetch_position ht).trans (congrArg Host.Outcome.next (State.fetchChunk_inactive h)), fun hact =>
        ⟨fun hm => (exec_fwChunkFetch_position ht).trans (congrArg Host.Outcome.next (State.fetchChunk_eq hact hm)), fun kind k hm => ?_⟩⟩,
      fun ht => ⟨exec_fwChunkFetch_unheld ht, fun x hx => ⟨exec_fwChunkFetch_early ht hx, fun hq kind k hm => exec_fwChunkFetch_late ht hx hq hm⟩⟩⟩
    intro rd v
    have fetched {u : State} (hu : s.chunkFetched t (some (kind, k)) = u) : exec (.fwChunkFetch t far) s = .next u :=
      (exec_fwChunkFetch_position ht).trans (congrArg Host.Outcome.next ((State.fetchChunk_eq hact hm).trans hu))
    exact ⟨fun hc => ⟨_, fetched (if_pos hc), (State.receiver_setReceiver _ _ _ _).trans (if_pos rfl), rfl, (State.reg_bump _ _ _ _).trans (if_pos rfl)⟩,
      fun hc hn => fetched ((if_neg hc).trans (if_pos hn)), fun hc hn => fetched ((if_neg hc).trans (if_neg (Nat.not_lt.mpr hn)))⟩
  case receive =>
    intro s x kind k bs hnew m
    have missing : missingChunk x.bundle.images (x.with kind k s.time.tick).chunks (fun _ => true) = m := by rw [FwReceive.with_new hnew]
    refine ⟨fun hm => ?_, fun hm => ⟨_, s.receiveChunk_last x kind k bs (missing.trans hm), State.unheld_receive _, (State.unheld_chans _).trans (s.chunkWritten_chans x kind k bs)⟩⟩
    rw [s.receiveChunk_goesOn x kind k bs (fun none => hm (missing.symm.trans none)), State.chunkWritten_fw, FwReceive.with_new hnew]
  case mcast =>
    intro s p f
    refine ⟨exec_mcastChunk_ignored, fun x hp up kind hx => ?_⟩
    intro r c
    exact ⟨fun hf => exec_mcastChunk_taken hp up kind hx (if_neg (Bool.eq_false_iff.mp hf)), fun hf v hv =>
      ⟨fun h => exec_mcastChunk_arrives hp up kind hx hf hv (State.chunkArrives_foreign h),
        fun hok hver he => ⟨_, exec_mcastChunk_arrives hp up kind hx hf hv (State.chunkArrives_ends hok hver he),
          congrArg (fun t : Time => some { x with last := t.tick }) (State.time_forwarded hv), rfl⟩,
        fun hok hver he hk => exec_mcastChunk_arrives hp up kind hx hf hv (State.chunkArrives_placed hok hver he hk)⟩⟩

end Sys2Proof.Machine
end

section
/-! PROOFS of the family 16_bring_up_and_reset: power-on, the bring-up phases and recovery (R456 to R473, R491). -/

namespace Sys2Proof.Machine

/-! ### Power-on (R434, R451, R458) -/

section PowerOn
variable (s : State)

/-- What is reported at power-on: the shutdown record, or the latched cause. -/
noncomputable def State.lastCause (s : State) : List Nat := match s.hk.shutdown with | some r => r | none => if s.hk.latch = 0 then [] else [s.hk.latch, 0]

/-- BOOT_CFG as it is loaded at power-on. -/
noncomputable def State.loadedCfg (s : State) : Nat := s.boot.cfgFlash.getD (Sys2Proof.resetOf (secReg Reg.BOOT_CFG))

/-- The state at power-on, before anything is reported. -/
noncomputable def State.poweredUp (s : State) : State :=
  { s with
    boot := { s.boot with cfg := s.loadedCfg }
    live := s.live.setReg (secReg Reg.BOOT_CFG) s.loadedCfg
    staged := s.staged.setReg (secReg Reg.BOOT_CFG) s.loadedCfg
    hk := { s.hk with
      powered := true, latch := 0, shutdown := none, lastShutdown := s.lastCause
      chans := s.hk.saved.foldl (fun t e => Tab.set t e.1 { offset := e.2.getD 0 0, gain := (e.2.getD 1 16384).toNat }) s.hk.chans } }

theorem exec_powerOn_powered (h : s.hk.powered = true) : exec .powerOn s = .next s := congrArg Host.Outcome.next (if_pos h)

/-- A cause is reported, when there is one. -/
noncomputable def State.causeTold (t : State) : List Nat → State
  | [] => t
  | c :: _ => t.raise .MODULE_SHUTDOWN_REPORTED Src.x1 [c]

theorem State.causeTold_eq (t : State) (l : List Nat) : (if l.isEmpty then t else t.raise .MODULE_SHUTDOWN_REPORTED Src.x1 [l.headD 0]) = t.causeTold l := by
  cases l <;> rfl

theorem State.causeTold_hk (t : State) (l : List Nat) : (t.causeTold l).hk = t.hk := by cases l <;> rfl

theorem State.causeTold_boot (t : State) (l : List Nat) : (t.causeTold l).boot = t.boot := by cases l <;> rfl

theorem State.lastCause_none (hs : s.hk.shutdown = none) : s.lastCause = if s.hk.latch = 0 then [] else [s.hk.latch, 0] := by rw [State.lastCause, hs]

theorem State.lastCause_some {r : List Nat} (hs : s.hk.shutdown = some r) : s.lastCause = r := by rw [State.lastCause, hs]

theorem exec_powerOn (h : s.hk.powered = false) : exec .powerOn s = .next (s.poweredUp.causeTold s.lastCause) :=
  congrArg Host.Outcome.next ((if_neg (Bool.eq_false_iff.mp h)).trans (State.causeTold_eq _ _))

variable {s}

theorem State.causeTold_found {l : List Nat} (hl : s.lastCause = l) : (s.poweredUp.causeTold s.lastCause).hk.lastShutdown = l :=
  (congrArg Hk.lastShutdown (State.causeTold_hk _ _)).trans hl

theorem State.causeTold_reports {c : Nat} {r : List Nat} (hl : s.lastCause = c :: r) :
    ∃ v, (s.poweredUp.causeTold s.lastCause).ev.inFlight = s.ev.inFlight ++ [v] ∧ v.code = .MODULE_SHUTDOWN_REPORTED ∧ v.args = [c] := by
  rw [hl]
  exact s.poweredUp.raise_event _ _ _

end PowerOn

/-! ### Phases (R458) -/

section Phases
variable {s : State} {w : BootWork}

/-- Bring-up begins; every channel is diagnosed in its first rounds. -/
noncomputable def State.bringupBegins (s : State) : State :=
  { s with boot := { s.boot with phase := 1 }, hk := { s.hk with diag := s.hk.diag ++ ((List.range 128).filter s.hkScanned).flatMap (fun c =>
    [(s.hk.rounds, c, 256), (s.hk.rounds + 1, c, 768)]) } }

/-- The work of a phase. -/
noncomputable def State.phaseWork (s : State) (w : BootWork) : Nat → State
  | 0 => if s.hk.rounds = 0 then s else s.bringupBegins
  | 1 => s.kindling w
  | 2 => s.partitions w
  | 3 => s.hbmTrain w
  | 4 => s.memoryTest w
  | 5 => s.firmware w
  | 6 => s.arrayMargin w
  | 7 => s.phaseEnds w
  | 8 => s.calibration w
  | _ => s

theorem exec_bootPhase (hp : s.hk.powered = true) {n : Nat} (hn : s.boot.phase = n) {t : State} (ht : s.phaseWork w n = t) : exec (.bootPhase w) s = .next t := by
  cases hn
  exact congrArg Host.Outcome.next ((if_neg (show ¬ (!s.hk.powered) = true by rw [hp]; decide)).trans ht)

theorem exec_bootPhase_off (h : s.hk.powered = false ∨ 9 ≤ s.boot.phase) : exec (.bootPhase w) s = .next s := by
  cases hp : s.hk.powered with
  | false => exact congrArg Host.Outcome.next (if_pos (show (!s.hk.powered) = true by rw [hp]; rfl))
  | true =>
    obtain ⟨n, hn⟩ := Nat.exists_eq_add_of_le' (h.resolve_left (by rw [hp]; decide))
    exact exec_bootPhase hp hn rfl

theorem State.phaseEnds_phase {n : Nat} (h : s.boot.phase = n) : (s.phaseEnds w).boot.phase = n + 1 := congrArg (· + 1) h

theorem State.phaseEnds_event {n : Nat} (h : s.boot.phase = n) : ∃ v, (s.phaseEnds w).ev.inFlight = s.ev.inFlight ++ [v] ∧ v.code = .BOOT_PHASE ∧ v.args = [n, w.ms] := by
  cases h
  exact State.raise_event { s with boot := { s.boot with phase := s.boot.phase + 1, start := s.boot.start + w.ms } } .BOOT_PHASE Src.steward [s.boot.phase, w.ms]

theorem State.mem_phaseEnds {n : Nat} (h : s.boot.phase = n) : ∃ v ∈ (s.phaseEnds w).ev.inFlight, v.code = .BOOT_PHASE ∧ v.args = [n, w.ms] := by
  obtain ⟨v, hv, told⟩ := State.phaseEnds_event (w := w) h
  exact ⟨v, hv ▸ List.mem_append_right _ (.head _), told⟩

/-! ### KINDLING (R462, R463) -/

theorem State.powers_congr {s t : State} (h : t.hk = s.hk) (p : Nat) : t.powers p = s.powers p := by
  unfold State.powers State.partition State.hkChan
  rw [h]

/-- The steward can be started on die `d`, as the state `t` after its image was chosen tells. -/
noncomputable def State.startsOn (s t : State) (w : BootWork) (d : Nat) : Bool := s.fits d && t.powers (72 + d) && !w.badFuses.contains d

theorem State.startsOn_iff {t : State} (h : t.hk = s.hk) (d : Nat) : s.startsOn t w d = true ↔ s.fits d = true ∧ s.powers (72 + d) = true ∧ d ∉ w.badFuses := by
  rw [← State.powers_congr h]
  simp [State.startsOn, and_assoc]

/-- Copy `n` of the steward image is in use, found with FAIL_CODE `c`. -/
noncomputable def State.stewardTaken (t : State) (w : BootWork) (n c : Nat) : State :=
  { t with boot := { t.boot with copy := n, fail := c }
           fw := { t.fw with live := { t.fw.live with stewardSecurity := (w.stewards.getD n {}).security, stewardDigest := (w.stewards.getD n {}).digest } } }

/-- The steward starts on C4. -/
noncomputable def State.standbyStarts (t : State) (c : Nat) : State := { t with boot := { t.boot with fail := if c = 0 then 6 else c }, step := { t.step with standby := true } }

/-- KINDLING with the steward image that was chosen, if one was. -/
noncomputable def State.kindled (s : State) (w : BootWork) (p : State × Option Nat × Nat) : State :=
  let (t, copy, c) := p
  match copy with
  | none => t.halt c
  | some n =>
    if s.startsOn t w 0 then (t.stewardTaken w n c).phaseEnds w
    else if s.startsOn t w 4 then ((t.stewardTaken w n c).standbyStarts c).phaseEnds w
    else (t.stewardTaken w n c).halt 6

theorem State.kindling_unread (hf : w.flash = false) : s.kindling w = s.halt 3 := if_pos (by rw [hf]; rfl)

theorem State.kindling_eq (hf : w.flash = true) : s.kindling w = s.kindled w (s.pickSteward w) :=
  (if_neg (show ¬ (!w.flash) = true by rw [hf]; decide)).trans rfl

theorem State.pickSteward_frame {t : State} {x : Option Nat} {c : Nat} (hp : s.pickSteward w = (t, x, c)) : Kept 99 s t := by
  have := State.pickSteward_kept (a1 := w) rfl (Kept.refl 99 s)
  rwa [hp] at this

theorem State.pickBundle_frame {t : State} {x : Option Nat} {c : Nat} (hp : s.pickBundle w = (t, x, c)) : Kept 99 s t := by
  have := State.pickBundle_kept (a1 := w) rfl (Kept.refl 99 s)
  rwa [hp] at this

section Steward
variable {t : State} {n c : Nat} (pick : s.pickSteward w = (t, some n, c))
include pick

theorem exec_bootPhase_steward (hp : s.hk.powered = true) (h : s.boot.phase = 1) (hf : w.flash = true) {u : State} (hu : s.kindled w (t, some n, c) = u) :
    exec (.bootPhase w) s = .next u := exec_bootPhase hp h ((State.kindling_eq hf).trans ((congrArg (s.kindled w) pick).trans hu))

theorem State.stewardTaken_phase (h : s.boot.phase = 1) : (t.stewardTaken w n c).boot.phase = 1 := (congrArg Boot.phase ((State.pickSteward_frame pick).only .boot rfl)).trans h

theorem State.startsOn_of {d : Nat} (hfit : s.fits d = true) (hpow : s.powers (72 + d) = true) (hfuse : d ∉ w.badFuses) : s.startsOn t w d = true :=
  (State.startsOn_iff ((State.pickSteward_frame pick).only .hk rfl) d).mpr ⟨hfit, hpow, hfuse⟩

theorem State.not_startsOn {d : Nat} (no : s.fits d = false ∨ s.powers (72 + d) = false ∨ d ∈ w.badFuses) : ¬ s.startsOn t w d = true := fun on => by
  obtain ⟨hfit, hpow, hfuse⟩ := (State.startsOn_iff ((State.pickSteward_frame pick).only .hk rfl) d).mp on
  exact no.elim (fun h => Bool.false_ne_true (h.symm.trans hfit)) fun no => no.elim (fun h => Bool.false_ne_true (h.symm.trans hpow)) hfuse

end Steward

/-! ### PARTITIONS (R459, R464 to R466) -/

theorem State.fastStart_iff : s.fastStart w = true ↔ s.fastEn = true ∧ s.boot.training = true ∧ w.trained = true ∧ w.fusesKept = true ∧ s.boot.hours < 24 * s.fullTestDays
    ∧ (s.hk.lastShutdown.getD 0 0 = 0 ∨ s.hk.lastShutdown.getD 0 0 = 1) := by
  simp [State.fastStart, and_assoc]

/-- From `s` to `t` the phase of the bring-up stands. -/
noncomputable def State.SamePhase (s t : State) : Prop := t.boot.phase = s.boot.phase

theorem State.SamePhase.trans {s t u : State} (h : s.SamePhase t) (k : t.SamePhase u) : s.SamePhase u := Eq.trans k h

theorem Kept.samePhase {W : Nat} {s t : State} (h : Kept W s t) (hb : W.testBit Zone.boot.bit = false) : s.SamePhase t := congrArg Boot.phase (h.only .boot hb)

theorem State.samePhase_foldl {α : Type} {f : State → α → State} (hf : ∀ (s : State) x, s.SamePhase (f s x)) (l : List α) (s : State) : s.SamePhase (l.foldl f s) :=
  State.foldl_keeps (·.boot.phase) hf l s

/-- A fuse entry that the Ash list does not hold is entered. -/
noncomputable def State.fuseEntered (s : State) (f : Fuse) : State :=
  if !s.boot.fuses.contains f then { s.ashAdd (Fuse.ash f) with boot := { s.boot with fuses := s.boot.fuses ++ [f] } } else s

theorem State.samePhase_fuseEntered (s : State) (f : Fuse) : s.SamePhase (s.fuseEntered f) :=
  iteInduction (motive := s.SamePhase) (fun _ => rfl) fun _ => rfl

theorem State.samePhase_applyFuse (s : State) (f : Fuse) : s.SamePhase (s.applyFuse f) :=
  have entered := s.samePhase_fuseEntered f
  have placed : s.SamePhase ((s.fuseEntered f).setPosition f.die (Fuse.unit f) { st := .fusedOff, logical := 15 }) :=
    entered.trans ((State.setPosition_frame _ _ _ _).samePhase rfl)
  iteInduction (motive := s.SamePhase) (fun _ => placed) fun _ =>
    iteInduction (motive := s.SamePhase) (fun _ => entered) fun _ => iteInduction (motive := s.SamePhase) (fun _ => entered) fun _ => entered

theorem State.samePhase_marchFails (s : State) (t : Nat) : s.SamePhase (s.marchFails t) := by
  have retired : s.SamePhase ((s.setPosition (t / 9) (t % 9) { st := .retired, logical := 15 }).ashAdd (ashCluster (t / 9) (t % 9) 8)) :=
    ((s.setPosition_frame _ _ _).samePhase rfl).trans ((State.ashAdd_kept rfl (Kept.refl 1073741921 _)).samePhase rfl)
  exact retired

/-- The floor plan as PARTITIONS leaves it. -/
noncomputable def State.laidOut (s : State) (w : BootWork) : State :=
  let s1 := w.fuses.foldl (fun s f => s.applyFuse f) { s with boot := { s.boot with badLanes := [] } }
  let s2 := (s1.dies.filter (fusesInvalid w)).foldl (fun s d => s.fuseInvalid d) s1
  let s3 := s2.dies.foldl (fun s d => (List.range 9).foldl (fun s p => s.keepRetired d p) s) s2
  let s4 := (w.march.filter (fun t => s3.fits (t / 9) && (s3.resettable (t / 9)).contains (t % 9))).foldl (fun s t => s.marchFails t) s3
  s4.dies.foldl (fun s d => s.buildDie d) s4

theorem State.samePhase_laidOut (s : State) (w : BootWork) : s.SamePhase (s.laidOut w) := by
  have fuses : s.SamePhase (w.fuses.foldl (fun s f => s.applyFuse f) { s with boot := { s.boot with badLanes := [] } }) :=
    State.SamePhase.trans (t := { s with boot := { s.boot with badLanes := [] } }) rfl (State.samePhase_foldl State.samePhase_applyFuse _ _)
  have invalid (l : List Nat) (s : State) : s.SamePhase (l.foldl (fun s d => s.fuseInvalid d) s) :=
    State.samePhase_foldl (fun s d => (State.fuseInvalid_kept rfl (Kept.refl 70918500253793 s)).samePhase rfl) _ _
  have retired (l : List Nat) (s : State) : s.SamePhase (l.foldl (fun s d => (List.range 9).foldl (fun s p => s.keepRetired d p) s) s) :=
    State.samePhase_foldl (fun s d => State.samePhase_foldl (fun s p => (State.keepRetired_kept rfl (Kept.refl 70368744439808 s)).samePhase rfl) _ _) _ _
  have built (l : List Nat) (s : State) : s.SamePhase (l.foldl (fun s d => s.buildDie d) s) :=
    State.samePhase_foldl (fun s d => (State.buildDie_kept rfl (Kept.refl 70643628638305 s)).samePhase rfl) _ _
  exact fuses.trans ((invalid _ _).trans ((retired _ _).trans ((State.samePhase_foldl State.samePhase_marchFails _ _).trans (built _ _))))

theorem State.partitions_eq : s.partitions w = { s.laidOut w with boot := { (s.laidOut w).boot with fast := s.fastStart w } }.phaseEnds w := rfl

/-! ### Memory and firmware (R463, R469, R470, R474 to R479) -/

/-- M-dies with a stack that fails training. -/
noncomputable def mdiesDown (w : BootWork) : List Nat := (List.range 4).filter (fun m => w.untrained.any (fun n => n / 2 == m))

theorem mem_mdiesDown (m : Nat) : m ∈ mdiesDown w ↔ m < 4 ∧ ∃ n ∈ w.untrained, n / 2 = m := by
  simp [mdiesDown]

/-- The memory is trained. -/
noncomputable def State.trained (s : State) (w : BootWork) : State :=
  { s with boot := { s.boot with memDown := mdiesDown w, training := w.untrained.isEmpty }, fab := { s.fab with noBridge := (mdiesDown w).any (· < 2) } }

theorem State.hbmTrain_trained (h : w.segments = true) : s.hbmTrain w = (s.trained w).phaseEnds w := if_neg (show ¬ (!w.segments) = true by rw [h]; decide)

/-- The state in which the memory test has found its failures. -/
noncomputable def State.tested (s : State) (w : BootWork) : State := w.srams.foldl (fun s x => s.sramFound x) (w.rows.foldl (fun s x => s.rowFound x) { s with mem := {} })

theorem State.tested_boot (s : State) (w : BootWork) : ((s.tested w).boot.phase, (s.tested w).boot.fail) = (s.boot.phase, s.boot.fail) :=
  let g : State → Nat × Nat := fun s => (s.boot.phase, s.boot.fail)
  (State.foldl_keeps g (fun _ ⟨_, b⟩ => by cases b <;> rfl) _ _).trans (State.foldl_keeps g (fun _ ⟨_, _, b⟩ => by cases b <;> rfl) w.rows { s with mem := {} })

/-- The bundle with the steward's part of what is live. -/
noncomputable def withSteward (b live : Bundle) : Bundle := { b with stewardSecurity := live.stewardSecurity, stewardDigest := live.stewardDigest }

/-- Copy `n` of the bundle is live, found with FAIL_CODE `c`. -/
noncomputable def State.bundleTaken (t : State) (w : BootWork) (n c : Nat) : State :=
  { t with boot := { t.boot with bundle := n, fail := if t.boot.fail = 0 then c else t.boot.fail }, fw := { t.fw with live := withSteward (w.bundles.getD n {}).bundle t.fw.live } }

/-- The versions of a bundle are shown. -/
noncomputable def State.showVersions (s : State) (b : Bundle) : State :=
  (((((s.setReg Reg.FW_VERSION b.version).setReg Reg.VER_RING b.ring).setReg Reg.VER_DESC b.desc).setReg Reg.VER_ABI b.abi).setReg Reg.VER_LINK b.link).setReg Reg.VER_IMAGE b.image

/-- The bundle's bytes are in the UPDATE half. -/
noncomputable def State.bundleWritten (s : State) (w : BootWork) : State := s.writePieces (fun _ => {}) (w.bytes.take fwHalfSize) (piecesOf s.updateBase (min w.bytes.length fwHalfSize))

/-- The state in which the distribution of the live bundle has started. -/
noncomputable def State.distributed (t : State) (w : BootWork) (n c : Nat) : State :=
  (((t.bundleTaken w n c).showVersions (w.bundles.getD n {}).bundle).bundleWritten w).distribute (withSteward (w.bundles.getD n {}).bundle t.fw.live)

/-- The memory test with the bundle that was chosen, if one was. -/
noncomputable def State.memoryTested (w : BootWork) (p : State × Option Nat × Nat) : State :=
  let (t, copy, c) := p
  match copy with
  | none => t.halt c
  | some n => (t.distributed w n c).phaseEnds w

theorem State.memoryTest_eq : s.memoryTest w = State.memoryTested w ((s.tested w).pickBundle w) := rfl

theorem State.distributed_boot (t : State) (w : BootWork) (n c : Nat) : (t.distributed w n c).boot = { t.boot with bundle := n, fail := if t.boot.fail = 0 then c else t.boot.fail } := by
  have shown : ((t.bundleTaken w n c).showVersions (w.bundles.getD n {}).bundle).boot = (t.bundleTaken w n c).boot := rfl
  have written (u : State) : (u.bundleWritten w).boot = u.boot := (State.writePieces_frame _ _ _).only .boot rfl
  have sent (u : State) (b : Bundle) : (u.distribute b).boot = u.boot := (State.distribute_kept rfl (Kept.refl 35184372088832 u)).only .boot rfl
  exact (sent _ _).trans ((written _).trans shown)

theorem State.distribute_live (s : State) (b : Bundle) : (s.distribute b).fw.live = s.fw.live := by
  refine (State.foldl_keeps (·.fw.live) (fun u d => ?_) _ _).trans rfl
  refine State.foldl_keeps (·.fw.live) (fun v p => ?_) _ u
  rfl

section Bundle
variable {a t : State} {n c : Nat} (ha : a = s.tested w)
include ha

theorem exec_bootPhase_memory (hp : s.hk.powered = true) (h : s.boot.phase = 4) {p : State × Option Nat × Nat} (pick : a.pickBundle w = p) :
    exec (.bootPhase w) s = .next (State.memoryTested w p) := by
  cases ha
  exact exec_bootPhase hp h (State.memoryTest_eq.trans (congrArg (State.memoryTested w) pick))

theorem State.pickBundle_boot {x : Option Nat} (pick : a.pickBundle w = (t, x, c)) : (t.boot.phase, t.boot.fail) = (s.boot.phase, s.boot.fail) :=
  (congrArg (fun b : Boot => (b.phase, b.fail)) (((State.pickBundle_frame pick).only .boot rfl).trans (congrArg State.boot ha))).trans (s.tested_boot w)

theorem State.distributed_phase {k : Nat} {x : Option Nat} (h : s.boot.phase = k) (pick : a.pickBundle w = (t, x, c)) : (t.distributed w n c).boot.phase = k :=
  (congrArg Boot.phase (t.distributed_boot w n c)).trans ((congrArg Prod.fst (State.pickBundle_boot ha pick)).trans h)

theorem State.distributed_fail {x : Option Nat} (pick : a.pickBundle w = (t, x, c)) : (t.distributed w n c).boot.fail = if s.boot.fail = 0 then c else s.boot.fail :=
  (congrArg Boot.fail (t.distributed_boot w n c)).trans (congrArg (fun f => if f = 0 then c else f) (congrArg Prod.snd (State.pickBundle_boot ha pick)))

end Bundle

theorem State.distributed_live (t : State) (w : BootWork) (n c : Nat) : (t.distributed w n c).fw.live = withSteward (w.bundles.getD n {}).bundle t.fw.live := by
  have written (u : State) : (u.bundleWritten w).fw = u.fw := (State.writePieces_frame _ _ _).only .fw rfl
  have shown : ((t.bundleTaken w n c).showVersions (w.bundles.getD n {}).bundle).fw = (t.bundleTaken w n c).fw := rfl
  exact (State.distribute_live _ _).trans (congrArg Fw.live ((written _).trans shown))

/-- Every receiver has its images: the half that was distributed is LIVE. -/
noncomputable def State.halfLive (s : State) : State :=
  let t := { s with fw := { s.fw with receivers := [], liveHalf := (s.fw.liveHalf + 1) % 2 } }
  (t.dies.flatMap (fun d => (List.range 9).map (clusterKey d))).foldl (fun s g => s.firmwareRegion g) t

theorem State.firmware_waits (h : ∃ e ∈ s.fw.receivers, e.2.active = true ∧ e.2.complete = false) : s.firmware w = s := by
  obtain ⟨e, he, hact, hc⟩ := h
  exact if_pos (List.any_eq_true.mpr ⟨e, he, by rw [hact, hc]; rfl⟩)

theorem State.firmware_ends (h : ∀ e ∈ s.fw.receivers, e.2.active = false ∨ e.2.complete = true) : s.firmware w = s.halfLive.phaseEnds w := by
  refine if_neg fun waits => ?_
  obtain ⟨e, he, hact⟩ := List.any_eq_true.mp waits
  obtain h | h := h e he <;> (rw [h] at hact; simp at hact)

theorem State.halfLive_frame (s : State) : s.halfLive.boot = s.boot ∧ s.halfLive.fw = { s.fw with receivers := [], liveHalf := (s.fw.liveHalf + 1) % 2 } := by
  have regions (l : List Nat) (t : State) : Kept 4096 t (l.foldl (fun s g => s.firmwareRegion g) t) := kept_foldl l (fun _ _ h => State.firmwareRegion_kept rfl h) (Kept.refl 4096 t)
  exact ⟨(regions _ _).only .boot rfl, (regions _ _).only .fw rfl⟩

/-! ### Arrays and READY (R472, R473) -/

/-- Weak columns and reference lanes are taken out of use. -/
noncomputable def State.weakRetired (s : State) (w : BootWork) : State :=
  w.refs.foldl (fun s x => s.disableRef x.1 x.2.1 x.2.2 5) (w.weak.foldl (fun s x => s.retireColumn x.1 x.2.1 x.2.2.1 x.2.2.2 5 {}) s)

theorem State.arrayMargin_eq : s.arrayMargin w = (s.weakRetired w).phaseEnds w := rfl

theorem State.weakRetired_boot (s : State) (w : BootWork) : (s.weakRetired w).boot = s.boot :=
  (kept_foldl w.refs (fun _ _ h => State.disableRef_kept rfl h)
    (kept_foldl w.weak (fun _ _ h => State.retireColumn_kept rfl h) (Kept.refl 1075839075 s))).only .boot rfl

/-- The calibration runs of bring-up have committed and the maps have changed. -/
noncomputable def State.calibrated (s : State) : State :=
  let t := s.dies.foldl (fun s d => (s.loadCal d).bringupRun d) s
  t.engines.keys.foldl (fun s e => (s.mapBoundary e 0).mapBoundary e 1) t

theorem State.calibrated_frame (s : State) : Kept 270532707 s s.calibrated := by
  refine kept_foldl _ (fun _ _ h => ?_) (kept_foldl _ (fun _ _ h => ?_) (Kept.refl 270532707 s))
  · exact State.mapBoundary_kept rfl (State.mapBoundary_kept rfl h)
  · exact State.bringupRun_kept rfl (State.loadCal_kept rfl h)

/-- READY, before it is reported. -/
noncomputable def State.readied (s : State) : State :=
  { s with boot := { s.boot with duration := s.boot.start, hours := if s.boot.fast then s.boot.hours else 0 }, step := { s.step with heartbeat := s.time.tick } }

/-- READY is reported. -/
noncomputable def State.readyTold (s : State) : State :=
  s.readied.raise .BOOT_READY Src.steward [b2n s.readied.boot.fast, s.readied.boot.duration, s.readied.boot.rowsRepaired, s.readied.boot.rowsUnrepaired, s.readied.boot.positionsLost]

/-- What the event ring held goes out. -/
noncomputable def State.ringDrained (s : State) : State := s.evDrain (s.ev.held.length + 1)

end Phases

/-! ### Channels whose OPEN was held (R460) -/

/-- From `s` to `t` no event is lost, and every channel's held OPEN stands. -/
structure State.Drains (s t : State) : Prop where
  events : s.Reports t
  held : ∀ c, (t.chan c).openHeld = (s.chan c).openHeld

section Drains
variable {s t u : State}

theorem State.Drains.refl (s : State) : s.Drains s := ⟨.refl s, fun _ => rfl⟩

theorem State.Drains.trans (h : s.Drains t) (k : t.Drains u) : s.Drains u := ⟨h.events.trans k.events, fun c => (k.held c).trans (h.held c)⟩

theorem State.drains_same (hev : t.ev.inFlight = s.ev.inFlight) (hchans : t.chans = s.chans) : s.Drains t :=
  ⟨by rw [State.Reports, hev], fun c => by rw [State.chan, hchans, State.chan]⟩

variable (s)

theorem State.drains_setChan {c : Nat} {x : Chan} (h : x.openHeld = (s.chan c).openHeld) : s.Drains (s.setChan c x) := by
  refine ⟨.of_ev rfl, fun d => ?_⟩
  rw [State.chan_setChan]
  split
  next hd => rw [hd, h]
  next => rfl

theorem State.drains_cqWrite (c : Nat) (e : Completion) (now : Bool) : s.Drains (s.cqWrite c e now) := by
  obtain ⟨-, others, n, b, same⟩ := s.cqWrite_facts c e now
  refine ⟨.of_ev (by rw [State.cqWrite_eq]), fun d => ?_⟩
  by_cases hd : d = c
  · rw [hd, same]
  · rw [others d hd]

theorem State.drains_finish (d : Desc) (st : Code) (a b : Nat) : s.Drains (s.finish d st a b) :=
  have left : s.Drains (s.setChan d.chan { s.chan d.chan with outstanding := (s.chan d.chan).outstanding.erase d }) := s.drains_setChan rfl
  iteInduction (motive := s.Drains) (fun _ => left) fun _ =>
    iteInduction (motive := s.Drains) (fun _ => left.trans (State.drains_setChan _ rfl)) fun _ => left.trans (State.drains_cqWrite _ _ _ _)

theorem State.drains_foldl {α : Type} {f : State → α → State} (hf : ∀ (s : State) x, s.Drains (f s x)) (l : List α) : s.Drains (l.foldl f s) := by
  induction l generalizing s with
  | nil => exact .refl s
  | cons x l ih => exact (hf s x).trans (ih _)

theorem State.drains_drainSpill (c n : Nat) : s.Drains (s.drainSpill c n) := by
  induction n generalizing s with
  | zero => exact .refl s
  | succ n ih =>
    have next (l : List Completion) : s.Drains (match l with | [] => s | e :: r => if (s.chan c).cqFull then s else State.drainSpill ((s.setChan c { s.chan c with spill := r }).cqWrite c e false) c n) := by
      cases l with
      | nil => exact .refl s
      | cons e r =>
        exact iteInduction (motive := s.Drains) (fun _ => .refl s) fun _ =>
          (State.drains_setChan s (x := { s.chan c with spill := r }) rfl).trans ((State.drains_cqWrite _ _ _ _).trans (ih _))
    exact next _

theorem State.drains_takeDoorbell (c : Nat) : s.Drains (s.takeDoorbell c) := by
  cases h : (s.chan c).overrun (s.hostNat (s.chan c).dbAddr 4) (s.hostNat ((s.chan c).dbAddr + 4) 4) with
  | true =>
    rw [State.takeDoorbell_overruns h]
    have stopped : s.Drains (s.setChan c { s.chan c with st := .error, err := errorNumber .RING_OVERRUN, spill := [], outstanding := [] }) := s.drains_setChan rfl
    exact stopped.trans ⟨State.reports_raise _ _ _ _ _, fun _ => rfl⟩
  | false =>
    rw [State.takeDoorbell_counts h]
    have taken : s.Drains (s.setChan c (s.counted c)) := s.drains_setChan rfl
    exact taken.trans (State.drains_drainSpill _ _ _)

theorem State.drains_evCoalesce : s.Drains s.evCoalesce :=
  iteInduction (motive := s.Drains) (fun _ => State.drains_same rfl rfl) fun _ => State.drains_same rfl rfl

theorem State.drains_evWrite (e : EvRec) (stamp : Nat) : s.Drains (s.evWrite e stamp) :=
  .trans (t := { s with ev := { s.ev with ring := Tab.set s.ev.ring (s.ev.written % s.evSize) (some { ev := e, stamp := stamp, seq := s.ev.seq, phase := s.ev.written / s.evSize % 2 == 0 }),
                                          written := add32 s.ev.written 1, seq := add32 s.ev.seq 1 } }) (State.drains_same rfl rfl) (State.drains_evCoalesce _)

theorem State.drains_flushStep : s.Drains s.flushStep := by
  unfold State.flushStep
  dsimp only
  refine .trans (t := { s with ev := { s.ev with flushes := (s.ev.flushes.map (fun p => (p.1, p.2 - 1))).filter (fun p => p.2 != 0) } }) (State.drains_same rfl rfl) ?_
  exact State.drains_foldl _ (fun s p => s.drains_finish _ _ _ _) _

theorem State.drains_evDrain (n : Nat) : s.Drains (s.evDrain n) := by
  induction n generalizing s with
  | zero => exact .refl s
  | succ n ih =>
    rw [State.evDrain]
    split
    · exact .refl s
    · split
      next l r _ =>
        refine .trans (t := { s with ev := { s.ev with held := r } }) (State.drains_same rfl rfl) ?_
        exact (State.drains_evWrite _ _ _).trans ((State.drains_flushStep _).trans (ih _))
      next =>
        split
        · exact .refl s
        · exact .trans (t := { s with ev := { s.ev with dropped := 0 } }) (State.drains_same rfl rfl) (State.drains_evWrite _ _ _)

theorem State.openHeld_setChan {c : Nat} {x : Chan} (hx : x.openHeld = false) (d : Nat) :
    ((s.setChan c x).chan d).openHeld = if d = c then false else (s.chan d).openHeld :=
  (congrArg Chan.openHeld (s.chan_setChan c x d)).trans ((apply_ite Chan.openHeld (d = c) x (s.chan d)).trans (congrArg (fun b => if d = c then b else (s.chan d).openHeld) hx))

/-- A channel whose held OPEN is taken up holds it no longer; the others' stand. -/
theorem State.openChannel_held (c : Nat) (ok : Bool) :
    s.Reports (s.openChannel c ok) ∧ ∀ d, ((s.openChannel c ok).chan d).openHeld = if d = c then false else (s.chan d).openHeld :=
  iteInduction (motive := fun u : State => s.Reports u ∧ ∀ d, (u.chan d).openHeld = if d = c then false else (s.chan d).openHeld)
    (fun _ => ⟨(State.drains_takeDoorbell (s.setChan c (s.latched c)) c).events,
      fun d => ((State.drains_takeDoorbell (s.setChan c (s.latched c)) c).held d).trans (s.openHeld_setChan rfl d)⟩)
    fun _ => ⟨List.prefix_append _ _, fun d => s.openHeld_setChan rfl d⟩

/-- A channel takes up its held OPEN. -/
noncomputable def State.opensNow (s : State) (w : BootWork) (c : Nat) : State := (s.setChan c { s.chan c with openHeld := false }).openChannel c (!w.deadLines.contains c)

theorem State.opensNow_held (w : BootWork) (c : Nat) : s.Reports (s.opensNow w c) ∧ ∀ d, ((s.opensNow w c).chan d).openHeld = if d = c then false else (s.chan d).openHeld := by
  obtain ⟨events, held⟩ := (s.setChan c { s.chan c with openHeld := false }).openChannel_held c (!w.deadLines.contains c)
  refine ⟨events, fun d => (held d).trans ?_⟩
  split
  · rfl
  next hd => rw [State.chan_setChan, if_neg hd]

/-- What one more entry of a list decides. -/
theorem ite_mem_cons {α : Type} [DecidableEq α] {l : List α} {c d : α} {x y : Bool} :
    (if d ∈ l then x else if d = c then x else y) = if d ∈ c :: l then x else y := by
  by_cases hl : d ∈ l
  · exact (if_pos hl).trans (if_pos (.tail _ hl)).symm
  · by_cases hd : d = c
    · exact (if_neg hl).trans ((if_pos hd).trans (if_pos (hd ▸ .head _)).symm)
    · exact (if_neg hl).trans ((if_neg hd).trans (if_neg fun m => (List.mem_cons.mp m).elim hd hl).symm)

theorem State.foldl_opensNow (w : BootWork) (l : List Nat) :
    s.Reports (l.foldl (fun s c => s.opensNow w c) s) ∧ ∀ d, ((l.foldl (fun s c => s.opensNow w c) s).chan d).openHeld = if d ∈ l then false else (s.chan d).openHeld := by
  induction l generalizing s with
  | nil => exact ⟨.refl s, fun _ => rfl⟩
  | cons c l ih => exact ⟨(s.opensNow_held w c).1.trans (ih _).1, fun d =>
      ((ih _).2 d).trans ((congrArg (fun x => if d ∈ l then false else x) ((s.opensNow_held w c).2 d)).trans ite_mem_cons)⟩

theorem Tab.get_of_not_mem_keys {α : Type} [Inhabited α] [DecidableEq α] (t : Tab α) {k : Nat} (h : k ∉ t.keys) : Tab.get t k = default := by
  induction t with
  | nil => rfl
  | cons e t ih =>
    obtain ⟨j, v⟩ := e
    have hne : j ≠ k := fun e => h (e ▸ .head _)
    exact (if_neg hne).trans (ih fun hk => h (.tail _ hk))

theorem State.openHeld_opens (w : BootWork) : s.Reports (s.openHeld w) ∧ ∀ c, ((s.openHeld w).chan c).openHeld = false := by
  obtain ⟨events, held⟩ := s.foldl_opensNow w (s.chans.keys.filter (fun c => (s.chan c).openHeld))
  refine ⟨events, fun c => (held c).trans (ite_eq_left_iff.mpr fun hc => ?_)⟩
  by_cases key : c ∈ s.chans.keys
  · exact Bool.eq_false_iff.mpr fun h => hc (List.mem_filter.mpr ⟨key, h⟩)
  · rw [State.chan, Tab.get_of_not_mem_keys _ key]
    rfl

end Drains

/-! ### READY (R460, R473) -/

section Ready
variable {s : State} {w : BootWork}

theorem State.openHeld_boot (s : State) (w : BootWork) : (s.ringDrained.openHeld w).boot = s.boot :=
  (State.openHeld_kept rfl (State.evDrain_kept rfl (Kept.refl 1761 s))).only .boot rfl

/-- What was raised by READY stays, and no channel holds an OPEN. -/
theorem State.openHeld_ready (s : State) (w : BootWork) : s.Reports (s.ringDrained.openHeld w) ∧ ∀ c, ((s.ringDrained.openHeld w).chan c).openHeld = false := by
  obtain ⟨opened, held⟩ := s.ringDrained.openHeld_opens w
  exact ⟨(s.drains_evDrain _).events.trans opened, held⟩

/-- The bring-up's record at READY. -/
noncomputable def Boot.readied (b : Boot) : Boot := { b with duration := b.start, hours := if b.fast then b.hours else 0 }

theorem State.readyTold_told (s : State) : ∃ v ∈ s.readyTold.ev.inFlight, v.code = .BOOT_READY
    ∧ v.args = [b2n s.boot.fast, s.boot.start, s.boot.rowsRepaired, s.boot.rowsUnrepaired, s.boot.positionsLost] :=
  State.mem_raise s.readied .BOOT_READY Src.steward [b2n s.boot.fast, s.boot.start, s.boot.rowsRepaired, s.boot.rowsUnrepaired, s.boot.positionsLost]

theorem State.reports_readyTold (s : State) : s.Reports s.readyTold := List.prefix_append _ _

/-- The bring-up's record as a phase ends. -/
noncomputable def Boot.phaseEnds (b : Boot) (ms : Nat) : Boot := { b with phase := b.phase + 1, start := b.start + ms }

theorem State.calibration_boot : (s.calibration w).boot = (s.boot.phaseEnds w.ms).readied :=
  (State.openHeld_boot (s.calibrated.phaseEnds w).readyTold w).trans (congrArg (fun b => (Boot.phaseEnds b w.ms).readied) (s.calibrated_frame.only .boot rfl))

theorem State.calibration_told {n : Nat} (h : s.boot.phase = n) : ∃ v ∈ (s.calibration w).ev.inFlight, v.code = .BOOT_PHASE ∧ v.args = [n, w.ms] := by
  obtain ⟨v, hv, told⟩ := State.mem_phaseEnds (w := w) (s := s.calibrated) ((congrArg Boot.phase (s.calibrated_frame.only .boot rfl)).trans h)
  exact ⟨v, ((State.reports_readyTold _).trans ((s.calibrated.phaseEnds w).readyTold.openHeld_ready w).1).mem hv, told⟩

theorem State.calibration_ready : ∃ v ∈ (s.calibration w).ev.inFlight, v.code = .BOOT_READY
    ∧ v.args = [b2n s.boot.fast, s.boot.start + w.ms, s.boot.rowsRepaired, s.boot.rowsUnrepaired, s.boot.positionsLost] := by
  obtain ⟨v, hv, code, args⟩ := (s.calibrated.phaseEnds w).readyTold_told
  exact ⟨v, ((s.calibrated.phaseEnds w).readyTold.openHeld_ready w).1.mem hv, code,
    args.trans (congrArg (fun b => [b2n b.fast, b.start + w.ms, b.rowsRepaired, b.rowsUnrepaired, b.positionsLost]) (s.calibrated_frame.only .boot rfl))⟩

end Ready

/-! ### The steward's copies (R462) and recovery (R463) -/

section Recovery
variable {s : State}

/-- The verification of a steward image, with its FAIL_CODE. -/
noncomputable def State.stewardTry (s : State) (x : StewardImage) : State × Nat :=
  let v := s.verify x.formed 1 x.keyId x.security (some 0) x.sig
  (v.1, failCode v.2 1 2)

section Try
variable {x : StewardImage}

theorem State.stewardTry_refused (h : s.sigMask x.formed 1 x.keyId x.sig ≠ 0) : s.stewardTry x = (s.sigFailed 1 x.keyId (s.sigMask x.formed 1 x.keyId x.sig), 1) := by
  rw [State.stewardTry, State.verify_signature h]; rfl

theorem State.stewardTry_rollback (h : s.sigMask x.formed 1 x.keyId x.sig = 0) (hv : x.security < s.rollback 0) : s.stewardTry x = (s, 2) := by
  rw [State.stewardTry, State.verify_rollback h hv]; rfl

theorem State.stewardTry_accepted (h : s.sigMask x.formed 1 x.keyId x.sig = 0) (hv : s.rollback 0 ≤ x.security) : s.stewardTry x = (s, 0) := by
  rw [State.stewardTry, State.verify_accepted h hv]; rfl

end Try

theorem State.pickSteward_live {w : BootWork} {t : State} (ha : s.stewardTry (w.stewards.getD s.fw.stewardCopy {}) = (t, 0)) :
    s.pickSteward w = (t, some s.fw.stewardCopy, 0) := by
  have picks : s.pickSteward w = ((s.stewardTry (w.stewards.getD s.fw.stewardCopy {})).1, some s.fw.stewardCopy, 0) := if_pos (congrArg Prod.snd ha)
  rw [picks, ha]

/-- The other copy has been tried. -/
noncomputable def otherPicked (k c : Nat) (b : State × Nat) : State × Option Nat × Nat := if b.2 = 0 then (b.1, some k, c) else (b.1, none, c)

/-- The copy that is not live is tried when the live one fails. -/
theorem State.pickSteward_other {w : BootWork} {t u : State} {c e : Nat} (ha : s.stewardTry (w.stewards.getD s.fw.stewardCopy {}) = (t, c)) (hc : c ≠ 0)
    (hb : t.stewardTry (w.stewards.getD (1 - s.fw.stewardCopy) {}) = (u, e)) : s.pickSteward w = (u, if e = 0 then some (1 - s.fw.stewardCopy) else none, c) :=
  (if_neg fun h => hc ((congrArg Prod.snd ha).symm.trans h)).trans
    ((congrArg (fun a : State × Nat => otherPicked (1 - s.fw.stewardCopy) a.2 (a.1.stewardTry (w.stewards.getD (1 - s.fw.stewardCopy) {}))) ha).trans
      ((congrArg (otherPicked (1 - s.fw.stewardCopy) c) hb).trans (apply_ite (fun o => (u, o, c)) (e = 0) (some (1 - s.fw.stewardCopy)) none).symm))

/-! ### RECOVERY_CTRL -/

/-- A recovery is refused with a FAIL_CODE, or its object is written and made live. -/
noncomputable def State.recoveryRefused (s : State) (c : Nat) : State := { s with boot := { s.boot with recovery := 3 + 256 * c } }
noncomputable def State.stewardRecovered (s : State) (x : StewardImage) : State :=
  { s with boot := { s.boot with recovery := 2 }
           fw := { s.fw with stewardCopy := 1 - s.fw.stewardCopy, dirSeq := (s.fw.dirSeq + 1) % 2 ^ 32
                             live := { s.fw.live with stewardSecurity := x.security, stewardDigest := x.digest } } }
noncomputable def State.bundleRecovered (s : State) (b : Bundle) : State :=
  { s with boot := { s.boot with recovery := 2 }
           fw := { s.fw with bundleCopy := 1 - s.fw.bundleCopy, dirSeq := (s.fw.dirSeq + 1) % 2 ^ 32, live := withSteward b s.fw.live } }

/-- The verification of a recovery's object. -/
noncomputable def State.recoveryTry (s : State) (k : Nat) (fit : Bool) (x : StewardImage) (b : BundleCopy) : State × Verified :=
  if k = 0 then s.verify (x.formed && fit) 1 x.keyId x.security (some 0) x.sig
  else s.verify (b.bundle.formed && fit) 2 b.bundle.keyId b.bundle.security (some 0) b.sig

/-- The end of a recovery whose object has been verified. -/
noncomputable def recoveryDone (k : Nat) (p : State × Verified) (x : StewardImage) (b : BundleCopy) : State :=
  let code := failCode p.2 (if k = 0 then 1 else 4) (if k = 0 then 2 else 5)
  if code ≠ 0 then p.1.recoveryRefused code
  else
    let f := p.1.fw
    { p.1 with
      boot := { p.1.boot with recovery := 2 }
      fw := if k = 0 then { f with stewardCopy := 1 - f.stewardCopy, dirSeq := (f.dirSeq + 1) % 2 ^ 32
                                   live := { f.live with stewardSecurity := x.security, stewardDigest := x.digest } }
            else { f with bundleCopy := 1 - f.bundleCopy, dirSeq := (f.dirSeq + 1) % 2 ^ 32, live := withSteward b.bundle f.live } }

section Go
variable {v : Nat} {x : StewardImage} {b : BundleCopy}

theorem exec_recoveryGo_ignored (h : s.boot.phase ≠ 10 ∨ bitOf v 0 = false) : exec (.recoveryGo v x b) s = .next s :=
  congrArg Host.Outcome.next (if_pos (h.imp id (by rw [·]; rfl)))

variable (hp : s.boot.phase = 10) (hgo : bitOf v 0 = true) (h1 : 1 ≤ bitsOf v 1 14) (h2 : bitsOf v 1 14 ≤ 12288)
include hp hgo h1 h2

theorem exec_recoveryGo {k : Nat} (hk : bitsOf v 15 1 = k) : exec (.recoveryGo v x b) s = .next (recoveryDone k (s.recoveryTry k true x b) x b) :=
  congrArg Host.Outcome.next ((if_neg (not_or.mpr ⟨not_not.mpr hp, ne_true_of_eq_false (congrArg Bool.not hgo)⟩)).trans
    (congrArg₂ (fun k fit => recoveryDone k (s.recoveryTry k fit x b) x b) hk (Bool.and_eq_true_iff.mpr ⟨decide_eq_true h1, decide_eq_true h2⟩)))

theorem exec_recoveryGo_steward {p : State × Nat} (hk : bitsOf v 15 1 = 0) (ht : s.stewardTry x = p) :
    exec (.recoveryGo v x b) s = .next (if p.2 ≠ 0 then p.1.recoveryRefused p.2 else p.1.stewardRecovered x) :=
  (exec_recoveryGo hp hgo h1 h2 hk).trans
    ((congrArg (fun f => Host.Outcome.next (recoveryDone 0 (s.verify f 1 x.keyId x.security (some 0) x.sig) x b)) (Bool.and_true x.formed)).trans
      (congrArg (fun p : State × Nat => Host.Outcome.next (if p.2 ≠ 0 then p.1.recoveryRefused p.2 else p.1.stewardRecovered x)) ht))

theorem exec_recoveryGo_bundle {p : State × Verified} (hk : bitsOf v 15 1 = 1)
    (ht : s.verify b.bundle.formed 2 b.bundle.keyId b.bundle.security (some 0) b.sig = p) :
    exec (.recoveryGo v x b) s = .next (if failCode p.2 4 5 ≠ 0 then p.1.recoveryRefused (failCode p.2 4 5) else p.1.bundleRecovered b.bundle) :=
  (exec_recoveryGo hp hgo h1 h2 hk).trans
    ((congrArg (fun f => Host.Outcome.next (recoveryDone 1 (s.verify f 2 b.bundle.keyId b.bundle.security (some 0) b.sig) x b)) (Bool.and_true b.bundle.formed)).trans
      (congrArg (fun p : State × Verified => Host.Outcome.next (recoveryDone 1 p x b)) ht))

end Go

end Recovery

/-- Settles O54: power-on, each phase and recovery by its own branch; the end of CALIBRATION loses no event and takes up every held OPEN (`State.openHeld_opens`). -/
theorem bringUp : Obligations.BringUp := by
  refine ⟨fun s => ⟨exec_powerOn_powered s, fun hp => ?power⟩, fun s w => ⟨exec_bootPhase_off, fun hp => ?phases⟩, ?copies, fun s => ⟨fun hp lo hi => ?hour, fun h => ?noHour⟩,
    fun s v x b => ⟨exec_recoveryGo_ignored, fun hp hgo h1 h2 => ⟨?stewardImage, ?bundle⟩⟩⟩
  case power =>
    refine ⟨_, exec_powerOn s hp, congrArg Hk.powered (State.causeTold_hk _ _), congrArg Hk.latch (State.causeTold_hk _ _), congrArg Hk.shutdown (State.causeTold_hk _ _),
      congrArg Boot.cfg (s.poweredUp.causeTold_boot _), (congrArg Boot.phase (s.poweredUp.causeTold_boot _)).trans rfl, fun hs hl => ?_, fun hs hl => ?_, fun c r hs => ?_⟩
    · have cause : s.lastCause = [] := (s.lastCause_none hs).trans (if_pos hl)
      exact ⟨State.causeTold_found cause, congrArg (fun l => (s.poweredUp.causeTold l).ev) cause⟩
    · have cause : s.lastCause = [s.hk.latch, 0] := (s.lastCause_none hs).trans (if_neg hl)
      exact ⟨State.causeTold_found cause, State.causeTold_reports cause⟩
    · exact ⟨State.causeTold_found (s.lastCause_some hs), State.causeTold_reports (s.lastCause_some hs)⟩
  case phases =>
    refine ⟨fun h hr => exec_bootPhase hp h (if_pos hr), fun h hr => ⟨_, exec_bootPhase hp h (if_neg hr), rfl, rfl⟩,
      fun h => ⟨fun hf => exec_bootPhase hp h (State.kindling_unread hf),
        fun hf t c => ⟨fun none => exec_bootPhase hp h ((State.kindling_eq hf).trans (congrArg (s.kindled w) none)), fun n some => ?steward⟩⟩,
      fun h => ?partitions, fun h hs => exec_bootPhase hp h (if_pos (show (!w.segments) = true by rw [hs]; rfl)),
      fun h hs => ⟨_, exec_bootPhase hp h (State.hbmTrain_trained hs), State.phaseEnds_phase h, mem_mdiesDown, List.isEmpty_iff, State.phaseEnds_event h⟩,
      fun h a ha t c => ⟨exec_bootPhase_memory ha hp h, fun n some => ?memory⟩,
      fun h waits => exec_bootPhase hp h (State.firmware_waits waits), fun h ends => ?firmware, fun h => ?margin, fun h => ?seven, fun h => ?ready⟩
    case steward =>
      refine ⟨fun f0 p0 b0 => ⟨_, exec_bootPhase_steward some hp h hf (if_pos (State.startsOn_of some f0 p0 b0)), State.phaseEnds_phase (State.stewardTaken_phase some h), rfl, rfl,
          State.phaseEnds_event (State.stewardTaken_phase some h), congrArg StepSt.standby ((State.pickSteward_frame some).only .step rfl)⟩,
        fun no0 f4 p4 b4 => ⟨_, exec_bootPhase_steward some hp h hf ((if_neg (State.not_startsOn some (.inr no0))).trans (if_pos (State.startsOn_of some f4 p4 b4))),
          State.phaseEnds_phase (s := (t.stewardTaken w n c).standbyStarts c) (show (t.stewardTaken w n c).boot.phase = 1 from State.stewardTaken_phase some h), rfl, rfl, rfl⟩,
        fun no0 no4 => ⟨_, exec_bootPhase_steward some hp h hf ((if_neg (State.not_startsOn some (.inr no0))).trans (if_neg (State.not_startsOn some no4))), rfl, rfl⟩⟩
    case partitions =>
      exact ⟨_, exec_bootPhase hp h s.partitions_eq, State.phaseEnds_phase (Eq.trans (s.samePhase_laidOut w) h), State.mem_phaseEnds (Eq.trans (s.samePhase_laidOut w) h), State.fastStart_iff⟩
    case memory =>
      exact ⟨_, exec_bootPhase_memory ha hp h some, State.phaseEnds_phase (State.distributed_phase ha h some), congrArg Boot.bundle (t.distributed_boot w n c),
        (congrArg Bundle.version (t.distributed_live w n c)).trans rfl, (congrArg Bundle.images (t.distributed_live w n c)).trans rfl, State.distributed_fail ha some,
        State.mem_phaseEnds (State.distributed_phase ha h some)⟩
    case firmware =>
      exact ⟨_, exec_bootPhase hp h (State.firmware_ends ends), State.phaseEnds_phase ((congrArg Boot.phase s.halfLive_frame.1).trans h), congrArg Fw.liveHalf s.halfLive_frame.2,
        congrArg Fw.receivers s.halfLive_frame.2, State.mem_phaseEnds ((congrArg Boot.phase s.halfLive_frame.1).trans h)⟩
    case margin =>
      exact ⟨_, exec_bootPhase hp h State.arrayMargin_eq, State.phaseEnds_phase ((congrArg Boot.phase (s.weakRetired_boot w)).trans h),
        State.mem_phaseEnds ((congrArg Boot.phase (s.weakRetired_boot w)).trans h)⟩
    case seven =>
      obtain ⟨v, hv, code, args⟩ := State.phaseEnds_event (w := w) h
      exact ⟨_, v, exec_bootPhase hp h rfl, congrArg (fun n => { s.boot with phase := n + 1, start := s.boot.start + w.ms }) h, hv, code, args, rfl, rfl⟩
    case ready =>
      exact ⟨_, exec_bootPhase hp h rfl, (congrArg Boot.phase State.calibration_boot).trans (congrArg (· + 1) h), congrArg Boot.duration State.calibration_boot,
        congrArg Boot.hours State.calibration_boot, ((s.calibrated.phaseEnds w).readyTold.openHeld_ready w).2, State.calibration_told h, State.calibration_ready⟩
  case copies =>
    rintro s w n k rfl rfl x y m m'
    refine ⟨fun hm hv => State.pickSteward_live (State.stewardTry_accepted hm hv), fun hm hv hm' hv' => ?_, fun hm hm' hv' => ?_, fun hm hm' => ?_⟩
    · exact State.pickSteward_other (State.stewardTry_rollback hm hv) (by decide) (State.stewardTry_accepted hm' hv')
    · exact State.pickSteward_other (State.stewardTry_refused hm) (by decide) (State.stewardTry_accepted hm' hv')
    · exact State.pickSteward_other (State.stewardTry_refused hm) (by decide) (State.stewardTry_refused hm')
  case hour => exact ⟨_, congrArg Host.Outcome.next (if_pos ⟨hp, lo, hi⟩), rfl, rfl⟩
  case noHour => exact congrArg Host.Outcome.next (if_neg (not_and_of_or h ne_true_of_eq_false fun h => not_and_of_or h Nat.not_le.mpr Nat.not_le.mpr))
  case stewardImage =>
    intro hk m
    refine ⟨fun hm => ⟨_, exec_recoveryGo_steward hp hgo h1 h2 hk (State.stewardTry_refused hm), rfl, rfl⟩, fun hm hv => ⟨_, exec_recoveryGo_steward hp hgo h1 h2 hk (State.stewardTry_rollback hm hv), rfl, rfl⟩,
      fun hm hv => ⟨_, exec_recoveryGo_steward hp hgo h1 h2 hk (State.stewardTry_accepted hm hv), rfl, rfl, rfl, rfl, hp⟩⟩
  case bundle =>
    intro hk m
    refine ⟨fun hm => ⟨_, exec_recoveryGo_bundle hp hgo h1 h2 hk (State.verify_signature hm _), rfl, rfl⟩, fun hm hv => ⟨_, exec_recoveryGo_bundle hp hgo h1 h2 hk (State.verify_rollback hm hv), rfl, rfl⟩,
      fun hm hv => ⟨_, exec_recoveryGo_bundle hp hgo h1 h2 hk (State.verify_accepted hm hv), rfl, rfl, rfl, rfl, rfl⟩⟩

end Sys2Proof.Machine
end
